-- ==== Sys2Proof/Word.lean ====
section
/-! DEFINITION. The plain data every other file is written over: bytes, the 80-bit module-time
stamp of R6, and finite maps from numbers kept as lists of pairs with rising keys. -/

namespace Sys2Proof

/-- The place of an operand of a row that the model computes from the state and the row's other operands (the flags and
stamps of a frame or a segment, the powers of a spectrum): it carries nothing. DESIGN CHOICE, log entry 11. -/
abbrev Computed := Unit

/-- One byte. -/
abbrev Byte := BitVec 8

/-- Module time of one instant (R6): a 64-bit tick count and a 16-bit fine field. -/
structure Stamp where
  /-- Ticks of 1/25.6 GHz. -/
  tick : Nat := 0
  /-- Units of 1/65,536 tick. -/
  fine : Nat := 0
deriving DecidableEq, Repr

/-- One value of a sampled source as the trigger engine takes it (R213): a converter code, or a DDC magnitude
where 2^31 is 1.0. -/
structure Sample where
  /-- Tick of the sample. -/
  tick : Nat := 0
  /-- Value. -/
  value : Int := 0
  /-- OVR or OVR_SEEN. -/
  ovr : Bool := false
  /-- Unsettled. -/
  unsettled : Bool := false
  /-- For an output of a DDC: the converter's codes of the samples in its span, in the order of the reference plane. -/
  codes : List Int := []
deriving DecidableEq, Repr

/-- A finite map from object numbers: pairs with strictly rising keys; a key that is not listed
stands for the object's reset value. -/
abbrev KMap (α : Type) := List (Nat × α)

/-- The value at key `k`, or `d` where none is listed. -/
def KMap.get {α : Type} : KMap α → Nat → α → α
  | [], _, d => d
  | (j, v) :: m, k, d => if j = k then v else KMap.get m k d

/-- The value at key `k`, where one is listed. -/
def KMap.find {α : Type} : KMap α → Nat → Option α
  | [], _ => none
  | (j, v) :: m, k => if j = k then some v else KMap.find m k

/-- Whether key `k` is listed. -/
def KMap.has {α : Type} : KMap α → Nat → Bool
  | [], _ => false
  | (j, _) :: m, k => if j = k then true else KMap.has m k

/-- The map with key `k` set to `v`, in its place among the rising keys. -/
def KMap.set {α : Type} : KMap α → Nat → α → KMap α
  | [], k, v => [(k, v)]
  | (j, w) :: m, k, v =>
    if k < j then (k, v) :: (j, w) :: m
    else if k = j then (k, v) :: m
    else (j, w) :: KMap.set m k v

/-- The map without key `k`. -/
def KMap.del {α : Type} : KMap α → Nat → KMap α
  | [], _ => []
  | (j, w) :: m, k => if j = k then m else (j, w) :: KMap.del m k

/-- The map with every listed value passed through `f`. -/
def KMap.mapVals {α : Type} (f : Nat → α → α) (m : KMap α) : KMap α :=
  m.map fun e => (e.1, f e.1 e.2)

/-- The lowest number not below `k` that `used` does not hold of, within `fuel` tries. DESIGN CHOICE, log entry 31. -/
def lowestFree (used : Nat → Bool) : Nat → Nat → Option Nat
  | 0, _ => none
  | fuel + 1, k => if used k then lowestFree used fuel (k + 1) else some k

end Sys2Proof
end

