-- ==== Sys2Proof/Syntax.lean ====
section
/-! DEFINITION. The commands of the block: one constructor for each row of the opcode table. `t` is the
tick of module time at which the row happens; `fn` and `tag` name the accepted mailbox command that a
command row carries out; `core` names a Sorrel core. The other operands are what the outside world or an
analogue part supplies (levels, samples, frames, measured values). -/

namespace Sys2Proof

/-- The commands, in the order of the opcode table. -/
inductive Instr where
  /-- FEED_PRESENT: A 48 V feed rises above 40 V with SHUTDOWN_N high and starts the path to power good. (R533) -/
  | feedPresent (t : Nat) (feedB : Bool)
  /-- FEED_LOST: A feed stays below 40 V for 50 µs; the other feed carries the load and the fault is masked as class 17. (R517) -/
  | feedLost (t : Nat) (feedB : Bool)
  /-- FEED_RESTORED: A lost feed stays above 40 V for 1 s; the pool refills and the grade is recomputed. (R517) -/
  | feedRestored (t : Nat) (feedB : Bool)
  /-- SHUTDOWN_N_LOW: SHUTDOWN_N is held low for 10 µs and the module drops to held shutdown within 2 ms, losing work, module time and Cellar contents. (R577) -/
  | shutdownNLow (t : Nat)
  /-- SHUTDOWN_N_RISE: A rising SHUTDOWN_N starts the power-on sequence. (R533) -/
  | shutdownNRise (t : Nat)
  /-- POWER_GOOD: The always-on rails come into regulation; the ovens start and bring-up begins. (R533) -/
  | powerGood (t : Nat)
  /-- SECURE_BOOT: The boot ROM verifies the firmware slots and boots the active or fallback slot, or enters recovery. (R557) -/
  | secureBoot (t : Nat) (verified : List Nat) (carrier : List Byte)
  /-- FUNCTION_READY: A function passes self-test and power-up calibration; its READY_MAP bit is set and EV_READY is raised. (R535) -/
  | functionReady (t : Nat) (readyBit : Nat) (values : List Nat) (means : Computed) (mems : List (Nat × List Byte)) (stuck : List Nat)
  /-- READY_TIMEOUT: A READY_MAP bit is not set within its maximum time; an UNMASKED log entry is written and the bit stays clear. (R535) -/
  | readyTimeout (t : Nat) (readyBit : Nat) (cls : Nat) (pool : Nat) (unit : Nat) (detail : Nat)
  /-- PERST_N_ASSERT: PERST_N is asserted; windows, rings, MSI-X and locks are reset, completions are discarded and host-memory flows are disabled. (R27) -/
  | perstNAssert (t : Nat)
  /-- PERST_N_RELEASE: PERST_N is released and the endpoint answers configuration requests within 20 ms. (R27) -/
  | perstNRelease (t : Nat)
  /-- HOT_RESET: A hot reset resets a function's window state as PERST_N does. (R27) -/
  | hotReset (t : Nat)
  /-- FUNCTION_LEVEL_RESET: A Function Level Reset resets one function's registers, rings, MSI-X table and locks and ends its session. (R27) -/
  | functionLevelReset (t : Nat) (fn : Nat)
  /-- FUNCTION_D3HOT: A function is put in D3hot; if both functions are in D3hot and only the allowed domains are on, the module enters standby. (R580) -/
  | functionD3hot (t : Nat) (fn : Nat) (linkL2 : Bool)
  /-- FUNCTION_D0: A function is returned to D0, which wakes the module from standby. (R580) -/
  | functionD0 (t : Nat) (fn : Nat)
  /-- STANDBY_WAKE: The module leaves standby; each cleared bit is set again once its domain wakes and passes self-check. (R536) -/
  | standbyWake (t : Nat) (bits : Nat)
  /-- LINK_L0_REACHED: The PCIe link reaches L0, WAKE_N is released and held ring entries are written. (R45) -/
  | linkL0Reached (t : Nat) (width : Nat) (speed : Nat)
  /-- PCIE_LANE_FAILURE: Lanes fail; the link retrains to the widest intact width, replays transactions, sets NARROWED and raises EV_FAULT_MASKED. (R26) -/
  | pcieLaneFailure (t : Nat) (lanes : List Nat) (width : Nat)
  /-- ALIVE_TOGGLE: The 1 kHz timer toggles ALIVE while a Steward pair runs. (R573) -/
  | aliveToggle (t : Nat)
  /-- THERMAL_WARNING: A part reaches its warning temperature and the warning bit of SMB.ALERT_STATUS is set. (R582) -/
  | thermalWarning (t : Nat)
  /-- THERMAL_THROTTLE_STEP: Every 10 ms at or above throttle temperature the effective cap falls by 10 W, and it rises again by 10 W per 10 ms once the part is 3 °C below it. (R582) -/
  | thermalThrottleStep (t : Nat) (hot : Bool)
  /-- THERMAL_TRIP: A part stays at trip temperature for 1 ms; all 102 domains switch off, a class 22 entry is written and FAULT_N is asserted. (R583) -/
  | thermalTrip (t : Nat) (channel : Nat)
  /-- TAP_INSTRUCTION_LOAD: A boundary-scan instruction is loaded; EXTEST or CLAMP hold the module in reset, and unsupported instructions act as BYPASS. (R559) -/
  | tapInstructionLoad (t : Nat) (instruction : Nat)
  /-- TAP_TEST_LOGIC_RESET: The TAP enters Test-Logic-Reset and the module restarts from power good. (R559) -/
  | tapTestLogicReset (t : Nat)
  /-- DOORBELL_WRITE: A write to MB.DOORBELL snapshots the command area, runs the acceptance checks of R55 and answers in MB.ACK. (R34) -/
  | doorbellWrite (t : Nat) (fn : Nat) (chan : Nat) (value : Nat) (hostBytes : List Byte)
  /-- SERVICE_PAIR_WAKE: A sleeping Steward service pair is set running by a doorbell within 20 µs and then serves the channel. (R35) -/
  | servicePairWake (t : Nat) (pair : Nat)
  /-- COMMAND_TIMEOUT: A command's deadline passes before it changes any state, and it completes with ST_TIMEOUT. (R62) -/
  | commandTimeout (t : Nat) (fn : Nat) (tag : Nat)
  /-- CHAN_STATE_CLEAR: A W1C write to MB.CHAN_STATE clears the DOORBELL_LOST, DOORBELL_NO_LOCK and LOCK_BROKEN bits written as one. (R33) -/
  | chanStateClear (t : Nat) (fn : Nat) (chan : Nat) (value : Nat) (full : Bool)
  /-- LOCK_ALIAS_READ: A read of lock alias k takes a free lock for agent k, or returns the owner. (R36) -/
  | lockAliasRead (t : Nat) (fn : Nat) (chan : Nat) (agent : Nat) (first : Nat) (width : Nat)
  /-- LOCK_ALIAS_WRITE: A full-width write to alias k releases a lock held by agent k and is otherwise ignored. (R36) -/
  | lockAliasWrite (t : Nat) (fn : Nat) (chan : Nat) (agent : Nat) (width : Nat)
  /-- LOCK_FORCED_RELEASE: Writing the owner's number to alias 0 forcibly releases the lock and sets LOCK_BROKEN. (R36) -/
  | lockForcedRelease (t : Nat) (fn : Nat) (chan : Nat) (value : Nat) (width : Nat)
  /-- TIME_LATCH_WRITE: A write to TIME_LATCH captures module time into TIME_LATCHED. (R31) -/
  | timeLatchWrite (t : Nat) (fn : Nat) (full : Bool)
  /-- RING_CONS_WRITE: A write to a ring's CONS makes the module compare PROD and CONS again and re-arm signalling of the entries that remain. (R41) -/
  | ringConsWrite (t : Nat) (fn : Nat) (completion : Bool) (ring : Nat) (value : Nat)
  /-- RING_OVERFLOW_CLEAR: A W1C write clears an event ring's OVERFLOW bit. (R39) -/
  | ringOverflowClear (t : Nat) (fn : Nat) (ring : Nat) (value : Nat) (full : Bool)
  /-- RING_COALESCE_TIMEOUT: COAL_TIME elapses since the first unsignalled entry, and the ring sends its MSI-X message. (R41) -/
  | ringCoalesceTimeout (t : Nat) (fn : Nat) (completion : Bool) (ring : Nat)
  /-- UPDATE_STROBE_WRITE: A write to UPDATE_STROBE snapshots the named groups' shadows, increments STROBE_SEQ and sets PENDING. (R83) -/
  | updateStrobeWrite (t : Nat) (mask : Nat)
  /-- STROBE_OCCURRENCE_APPLY: A strobed occurrence reaches a unit's safe point and is taken; APPLIED_COUNT is written when every unit of the group has it. (R84) -/
  | strobeOccurrenceApply (t : Nat) (group : Nat) (unit : Option Nat) (vecs : List (Nat × Nat))
  /-- KEY_UNLOCK_WRITE: A write of 0x7840 to KEY_UNLOCK opens the key, and any other value closes it. (R77) -/
  | keyUnlockWrite (t : Nat) (fn : Nat) (value : Nat)
  /-- FCW_ENABLE_WRITE: A full-width write to the RWK register FCW.ENABLE takes effect only while the key is open, and closes the key. (R77) -/
  | fcwEnableWrite (t : Nat) (value : Nat) (full : Bool)
  /-- FCW_STATUS_CLEAR: A W1C write clears KEY_REFUSED or RWP_DROPPED in FCW.STATUS. (R81) -/
  | fcwStatusClear (t : Nat) (value : Nat) (full : Bool)
  /-- FCW_RESYNC_WRITE: A write to FCW.RESYNC starts copying live values into the named groups' shadows and sets RESYNC_BUSY. (R87) -/
  | fcwResyncWrite (t : Nat) (mask : Nat) (full : Bool)
  /-- RESYNC_COMPLETE: Every named group has been copied and RESYNC_BUSY clears. (R87) -/
  | resyncComplete (t : Nat)
  /-- REGISTER_WRITE: A write to a register with no behaviour of its own, such as a shadow or RW register, acts as its access type states. (R75) -/
  | registerWrite (t : Nat) (fn : Nat) (offset : Nat) (bytes : List Byte)
  /-- APERTURE_READ: A read through PF0 BAR2 returns Cellar bytes inside an open region, or zero elsewhere. (R46) -/
  | apertureRead (t : Nat) (addr : Nat) (length : Nat)
  /-- APERTURE_WRITE: A write through PF0 BAR2 reaches Cellar inside a writable open region and is otherwise ignored. (R46) -/
  | apertureWrite (t : Nat) (addr : Nat) (bytes : List Byte)
  /-- SMB_ALERT_STATUS_CLEAR: A W1C write to SMB.ALERT_STATUS clears alert bits, and a condition that still holds sets its bit again within 10 ms. (R586) -/
  | smbAlertStatusClear (t : Nat) (value : Nat) (holds : Nat)
  /-- SMB_ALERT_RESPONSE: A read of the SMBus Alert Response Address is answered with the target's address. (R586) -/
  | smbAlertResponse (t : Nat)
  /-- SYS_HELLO: Creates or returns the function's session and writes the 48-byte identity and readiness result. (R67) -/
  | sysHello (t : Nat) (fn : Nat) (tag : Nat)
  /-- SYS_QUERY_READY: Waits until every READY_MAP bit in WAIT_MASK is set, and returns READY_MAP. (R68) -/
  | sysQueryReady (t : Nat) (fn : Nat) (tag : Nat)
  /-- SYS_GET_INFO: Writes the identity page or the limits page. (R69) -/
  | sysGetInfo (t : Nat) (fn : Nat) (tag : Nat)
  /-- SYS_SET_EVENT_RING: Sets up, changes or disables one event or completion ring, with its vector and routing. (R70) -/
  | sysSetEventRing (t : Nat) (fn : Nat) (tag : Nat)
  /-- SYS_RESET_FUNCTION: Quiesces the named objects of a family, returns them to power-up configuration and repeats their self-test. (R71) -/
  | sysResetFunction (t : Nat) (fn : Nat) (tag : Nat)
  /-- SYS_NOP: Completes with the tick at which it ran, and serves as a barrier with a fence. (R72) -/
  | sysNop (t : Nat) (fn : Nat) (tag : Nat)
  /-- CLOCK_SET_REF: Sets the discipline mode, loop bandwidth, reference frequency, PPS edge, PPS delay and qualification time. (R106) -/
  | clockSetRef (t : Nat) (fn : Nat) (tag : Nat)
  /-- CLOCK_GET_STATUS: Writes the 96-byte time-base and synthesiser status. (R107) -/
  | clockGetStatus (t : Nat) (fn : Nat) (tag : Nat) (freqOffset : Nat) (oscDiff : Nat)
  /-- CLOCK_SET_TIME: Binds a TAI second to a PPS edge stamp or an explicit tick. (R108) -/
  | clockSetTime (t : Nat) (fn : Nat) (tag : Nat)
  /-- CLOCK_SET_OUTPUT: Enables CLK_OUT0, CLK_OUT1 or PPS_OUT at a frequency and level, or mutes it and powers it down. (R109) -/
  | clockSetOutput (t : Nat) (fn : Nat) (tag : Nat)
  /-- CLOCK_LOAD_RAMP: Writes segments into a ramp profile bank. (R110) -/
  | clockLoadRamp (t : Nat) (fn : Nat) (tag : Nat)
  /-- CLOCK_START_RAMP: Checks a ramp profile and starts it at once, at a tick or at an epoch. (R111) -/
  | clockStartRamp (t : Nat) (fn : Nat) (tag : Nat) (crossingFault : Option Nat)
  /-- CLOCK_STOP_RAMP: Stops a ramp, holding the frequency reached or returning to the frequency set before. (R112) -/
  | clockStopRamp (t : Nat) (fn : Nat) (tag : Nat)
  /-- CLOCK_SET_VECTOR_CLOCK: Enables, retunes or powers down the vector clock and its CLKV pairs. (R113) -/
  | clockSetVectorClock (t : Nat) (fn : Nat) (tag : Nat)
  /-- OCXO_HARD_FAULT: An oscillator's monitors report a hard fault; the standby path takes over without a lost tick and the oscillator is retired. (R89) -/
  | ocxoHardFault (t : Nat) (osc : Nat)
  /-- OCXO_SOFT_FAULT: The oscillators differ by more than 50 ppb; the farther one is retired, or OSC_DISAGREE is set and the grade becomes DEGRADED. (R90) -/
  | ocxoSoftFault (t : Nat) (farther : Nat)
  /-- WARM_REACHED: Both oscillators come within 10 ppb; WARM and READY_MAP bit 4 are set. (R91) -/
  | warmReached (t : Nat) (ms : Nat)
  /-- REF_IN_QUALIFIED: REF_IN stays within 5 ppm for the qualification time, and the loop may lock to it or leave holdover. (R93) -/
  | refInQualified (t : Nat) (freq : Nat) (farther : Nat)
  /-- PPS_IN_QUALIFIED: Three consecutive PPS_IN edges 1 s apart qualify PPS_IN. (R93) -/
  | ppsInQualified (t : Nat) (farther : Nat)
  /-- REF_IN_LOST: REF_IN misses four periods or leaves 5 ppm; the loop enters holdover or continues on PPS_IN under AUTO. (R94) -/
  | refInLost (t : Nat)
  /-- PPS_IN_LOST: No PPS_IN edge arrives by 1 µs after the expected edge, and the loss is handled as for REF_IN. (R94) -/
  | ppsInLost (t : Nat)
  /-- PPS_EDGE: A PPS_IN edge is stamped, counted and compared with the held phase. (R96) -/
  | ppsEdge (t : Nat) (stamp : Stamp)
  /-- PPS_OUT_SECOND: At each whole TAI second of the binding, PPS_OUT rises. (R98) -/
  | ppsOutSecond (t : Nat)
  /-- PPS_OUT_PULSE_END: The 10 µs PPS_OUT pulse ends. (R98) -/
  | ppsOutPulseEnd (t : Nat)
  /-- SYNTH_BAND_SEARCH_DONE: A synthesiser's binary band search ends and its loop begins to settle. (R99) -/
  | synthBandSearchDone (t : Nat) (source : Nat)
  /-- SYNTH_LOCK_DETECTED: The lock detector sees 1,024 in-bound comparisons; the output is unmuted and EV_LOCK is raised. (R99) -/
  | synthLockDetected (t : Nat) (source : Nat)
  /-- SYNTH_LOCK_LOST: A synthesiser loses lock, freezes its tuning word, coasts unmuted and raises EV_LOCK COASTING. (R100) -/
  | synthLockLost (t : Nat) (source : Nat)
  /-- SYNTH_REACQUIRE_TIMEOUT: A coasting synthesiser has not reacquired in 10 ms and stays COASTING until a command sets it again. (R100) -/
  | synthReacquireTimeout (t : Nat) (source : Nat)
  /-- SAMPLE_SYNTH_FAULT: The primary sample synthesiser fails and the standby takes over glitch-free, or a failed standby is retired. (R101) -/
  | sampleSynthFault (t : Nat) (unit : Nat) (lostLock : Bool)
  /-- IDLE_CORE_LOCKED: The idle VCO core locks at the new frequency and the output passes to it at an edge. (R102) -/
  | idleCoreLocked (t : Nat) (gen : Nat)
  /-- RAMP_SCHEDULED_START: A ramp starts at its scheduled tick or epoch, once the idle core holds its first crossing. (R111) -/
  | rampScheduledStart (t : Nat) (gen : Nat)
  /-- RAMP_UPDATE: Every 10 ns the ramp generator sets the frequency from START and SLOPE. (R103) -/
  | rampUpdate (t : Nat) (gen : Nat)
  /-- RAMP_SEGMENT_END: A ramp segment's DURATION ends and the next segment or repetition begins. (R103) -/
  | rampSegmentEnd (t : Nat) (gen : Nat)
  /-- RAMP_PROFILE_END: The profile completes its repetitions; the output holds the final frequency and EV_RAMP_DONE is raised. (R103) -/
  | rampProfileEnd (t : Nat) (gen : Nat)
  /-- INPUT_SET_RANGE: Changes or stores an input's full-scale range, at once or scheduled. (R131) -/
  | inputSetRange (t : Nat) (fn : Nat) (tag : Nat)
  /-- INPUT_GET_STATUS: Writes the 128-byte input status with the slice map. (R132) -/
  | inputGetStatus (t : Nat) (fn : Nat) (tag : Nat) (temp : Nat)
  /-- INPUT_ENABLE: Declares energy, powers the input's domains, loads the trims and checks every position before samples flow. (R129) -/
  | inputEnable (t : Nat) (fn : Nat) (tag : Nat)
  /-- INPUT_DISABLE: Refuses if a consumer takes the input, and otherwise quiesces it and powers it down. (R130) -/
  | inputDisable (t : Nat) (fn : Nat) (tag : Nat)
  /-- INPUT_RANGE_SWITCH: The attenuator switches at the switch tick and the next 5,120 samples are unsettled. (R117) -/
  | inputRangeSwitch (t : Nat) (input : Nat)
  /-- ROTATION_STEP: Every 50 ms the rotation sequencer moves to the next slice to trim, or to the reference measurement. (R121) -/
  | rotationStep (t : Nat) (input : Nat) (slice : Nat)
  /-- SLICE_HANDOVER_COMPLETE: After 8,192 parallel samples within limits, the position passes to the incoming slice. (R122) -/
  | sliceHandoverComplete (t : Nat) (input : Nat) (within : Bool)
  /-- SLICE_FAILURE: A slice monitor detects a failed slice; the calibration spare takes its position and the slice is retired. (R123) -/
  | sliceFailure (t : Nat) (input : Nat) (slice : Nat) (faultTick : Nat)
  /-- COLD_SPARE_READY: The cold spare has been powered, warmed and trimmed, and becomes the calibration spare. (R123) -/
  | coldSpareReady (t : Nat) (input : Nat)
  /-- INPUT_OVERDRIVE: The input exceeds full scale, clamping with OVR, or exceeds +10 dBFS and engages the protection. (R127) -/
  | inputOverdrive (t : Nat) (input : Nat) (samples : Nat) (firstPositive : Bool) (flips : List Nat) (protect : Bool)
  /-- PROTECTION_RELEASE: 50 ns after the signal returns within +10 dBFS, the protection releases and OVR stops. (R127) -/
  | protectionRelease (t : Nat) (input : Nat)
  /-- OVERRANGE_INTERVAL_CLOSE: A 1 µs overrange interval closes, raising a SUMMARY and opening a new interval if OVR samples were counted. (R128) -/
  | overrangeIntervalClose (t : Nat) (input : Nat)
  /-- DDC_CONFIGURE: Stores or applies a DDC's source, format, decimation, gain and NCO settings. (R151) -/
  | ddcConfigure (t : Nat) (fn : Nat) (tag : Nat)
  /-- DDC_SET_DELAY: Stores or applies a DDC's integer and fractional delay, at once or scheduled. (R152) -/
  | ddcSetDelay (t : Nat) (fn : Nat) (tag : Nat)
  /-- DDC_ENABLE: Enables a DDC on a grid origin and completes when output 0 is produced. (R153) -/
  | ddcEnable (t : Nat) (fn : Nat) (tag : Nat)
  /-- DDC_DISABLE: Refuses if a consumer takes the output, and otherwise quiesces the DDC. (R154) -/
  | ddcDisable (t : Nat) (fn : Nat) (tag : Nat)
  /-- DDC_GET_STATUS: Writes the 64-byte DDC status. (R155) -/
  | ddcGetStatus (t : Nat) (fn : Nat) (tag : Nat) (codes : List Int)
  /-- DDC_SCHEDULED_CHANGE: A scheduled delay change or enable origin is reached and applied at that tick or epoch edge. (R152) -/
  | ddcScheduledChange (t : Nat) (ddc : Nat)
  /-- DDC_DATAPATH_FAULT: Residue checks detect a DDC fault and the input's spare takes over at the next output index. (R148) -/
  | ddcDatapathFault (t : Nat) (input : Nat) (unit : Nat)
  /-- PRESS_CONFIGURE: Stores and places a transform job, or reports it with QUERY. (R179) -/
  | pressConfigure (t : Nat) (fn : Nat) (tag : Nat)
  /-- PRESS_LOAD_WINDOW: Loads a built-in or user window into a window bank of an input. (R180) -/
  | pressLoadWindow (t : Nat) (fn : Nat) (tag : Nat) (table : List Byte)
  /-- PRESS_LOAD_PFB: Loads a PFB job's prototype filter, or selects the default prototype. (R181) -/
  | pressLoadPfb (t : Nat) (fn : Nat) (tag : Nat) (table : List Byte)
  /-- PRESS_MAP_CHANNELS: Writes entries of a job's channel-to-flow map. (R182) -/
  | pressMapChannels (t : Nat) (fn : Nat) (tag : Nat)
  /-- PRESS_ENABLE: Enables a job on a grid origin and completes when frame 0's first bin leaves. (R183) -/
  | pressEnable (t : Nat) (fn : Nat) (tag : Nat)
  /-- PRESS_DISABLE: Refuses if a consumer takes the job, and otherwise quiesces it, releasing it with RELEASE. (R184) -/
  | pressDisable (t : Nat) (fn : Nat) (tag : Nat)
  /-- PRESS_FRAME_RELEASE: A frame's residue checks pass and the frame is released to its consumers with its tag. (R176) -/
  | pressFrameRelease (t : Nat) (job : Nat) (ovrSeen : Computed) (unsettled : Computed) (exponent : Computed) (codes : List Int)
  /-- PRESS_PIPELINE_FAULT: A residue check fails; the spare pipeline recomputes the unreleased frames from the framer. (R176) -/
  | pressPipelineFault (t : Nat) (unit : Nat)
  /-- SPEC_CONFIGURE_DETECTOR: Configures a trace unit's job, bins, detector, integration and flow. (R204) -/
  | specConfigureDetector (t : Nat) (fn : Nat) (tag : Nat)
  /-- SPEC_CONFIGURE_DENSITY: Configures a density plane and checks the accumulator's update rate. (R205) -/
  | specConfigureDensity (t : Nat) (fn : Nat) (tag : Nat)
  /-- SPEC_CLEAR_DENSITY: Clears the named density planes at their next spectrum. (R206) -/
  | specClearDensity (t : Nat) (fn : Nat) (tag : Nat)
  /-- SPEC_READ_TRACE: Writes a trace result or a density rectangle, waiting for a new SEQ with WAIT. (R207) -/
  | specReadTrace (t : Nat) (fn : Nat) (tag : Nat)
  /-- SPEC_PEAK_SEARCH: Enables, disables or reads the peak search of a trace unit. (R208) -/
  | specPeakSearch (t : Nat) (fn : Nat) (tag : Nat)
  /-- SPEC_ENABLE: Enables a trace unit or density plane from its next or scheduled spectrum. (R209) -/
  | specEnable (t : Nat) (fn : Nat) (tag : Nat)
  /-- SPEC_DISABLE: Refuses if a consumer takes the object, and otherwise quiesces the trace or plane. (R210) -/
  | specDisable (t : Nat) (fn : Nat) (tag : Nat)
  /-- SPECTRUM_ACCEPT: A spectrum arrives and is converted to levels, fed to detectors and added to density planes. (R186) -/
  | spectrumAccept (t : Nat) (job : Nat) (powers : Computed)
  /-- INTEGRATION_END: An integration reaches INTEGRATION spectra; the result is copied to the completed buffer and SEQ increments. (R189) -/
  | integrationEnd (t : Nat) (trace : Nat)
  /-- DECAY_BOUNDARY: A plane's decay boundary arrives and every cell is shifted right by DECAY_SHIFT. (R198) -/
  | decayBoundary (t : Nat) (plane : Nat)
  /-- DENSITY_CLEAR_APPLY: A clear reaches its clear point and the plane is zeroed before that spectrum increments. (R199) -/
  | densityClearApply (t : Nat) (plane : Nat)
  /-- TRIG_CONFIGURE: Configures a trigger unit's kind, source, levels and qualifiers. (R228) -/
  | trigConfigure (t : Nat) (fn : Nat) (tag : Nat)
  /-- TRIG_LOAD_MASK: Loads a frequency mask bank for a FREQ_MASK unit. (R229) -/
  | trigLoadMask (t : Nat) (fn : Nat) (tag : Nat) (table : List Byte)
  /-- TRIG_ROUTE: Sets a unit's targets and, with SET_TRIG_OUT, the polarity and pulse length of TRIG_OUT. (R230) -/
  | trigRoute (t : Nat) (fn : Nat) (tag : Nat)
  /-- TRIG_ARM: Arms a unit in a mode, at once or scheduled. (R231) -/
  | trigArm (t : Nat) (fn : Nat) (tag : Nat)
  /-- TRIG_DISARM: Refuses if a consumer takes the unit, and otherwise quiesces it, releasing it with RELEASE. (R232) -/
  | trigDisarm (t : Nat) (fn : Nat) (tag : Nat)
  /-- TRIG_FORCE: Requests a forced decision in an armed unit. (R233) -/
  | trigForce (t : Nat) (fn : Nat) (tag : Nat)
  /-- TRIG_GET_STATUS: Writes the 64-byte trigger unit status. (R233) -/
  | trigGetStatus (t : Nat) (fn : Nat) (tag : Nat)
  /-- TRIG_SCHEDULED_ARM: A unit reaches its scheduled tick or epoch edge and becomes armed. (R231) -/
  | trigScheduledArm (t : Nat) (unit : Nat)
  /-- TRIGGER_DECISION: An armed unit's condition is satisfied, qualified and voted, and the decision goes to all its targets. (R220) -/
  | triggerDecision (t : Nat) (unit : Nat) (samples : List Sample) (powers : Computed)
  /-- FORCED_DECISION: A forced decision is made in an armed unit within 2 µs of the force, stamped and marked FORCED. (R221) -/
  | forcedDecision (t : Nat) (unit : Nat)
  /-- SORREL_FORCE_MESSAGE: The Steward acts on a committed FORCE message from a kernel if the unit is permitted and armed. (R275) -/
  | sorrelForceMessage (t : Nat) (core : Nat)
  /-- UNIT_REARM: A native unit re-arms 2 CORE clocks after a decision, or goes to DONE in SINGLE or COUNTED mode. (R220) -/
  | unitRearm (t : Nat) (unit : Nat)
  /-- HOLDOFF_END: A compatibility unit's hold-off time or count ends and it re-arms. (R222) -/
  | holdoffEnd (t : Nat) (unit : Nat)
  /-- SEQUENCE_PENDING_EXPIRY: A SEQUENCE unit's pending A decision is dropped after TIME_MAX ticks. (R218) -/
  | sequencePendingExpiry (t : Nat) (unit : Nat)
  /-- TRIG_IN_EDGE: An edge arrives on TRIG_IN and is offered to TRIG_IN units. (R213) -/
  | trigInEdge (t : Nat) (rising : Bool)
  /-- TRIG_OUT_PULSE_END: PULSE_NS after the last routed decision, TRIG_OUT returns to its inactive level. (R225) -/
  | trigOutPulseEnd (t : Nat)
  /-- VOTER_DISAGREEMENT: A trigger voter disagrees and is retired; the remaining two continue. (R223) -/
  | voterDisagreement (t : Nat) (voter : Nat)
  /-- TRIGGER_EVENT_INTERVAL_CLOSE: A unit's 1 µs event interval closes, raising a SUMMARY if decisions were counted. (R234) -/
  | triggerEventIntervalClose (t : Nat) (unit : Nat)
  /-- ACQ_CREATE_CONTEXT: Creates an acquisition context with its source, mode, layout and destination. (R252) -/
  | acqCreateContext (t : Nat) (fn : Nat) (tag : Nat)
  /-- ACQ_ARM: Admits allotments and starts a new record, at once or scheduled. (R253) -/
  | acqArm (t : Nat) (fn : Nat) (tag : Nat)
  /-- ACQ_STOP: Ends a record, quiesces the context and releases its allotments. (R254) -/
  | acqStop (t : Nat) (fn : Nat) (tag : Nat)
  /-- ACQ_DESTROY: Stops a context and frees its number, gate bit and mask points. (R254) -/
  | acqDestroy (t : Nat) (fn : Nat) (tag : Nat)
  /-- ACQ_LOAD_TEST_MASK: Loads or removes a context's envelope or spectral test mask. (R255) -/
  | acqLoadTestMask (t : Nat) (fn : Nat) (tag : Nat) (table : List Byte)
  /-- ACQ_GET_STATUS: Writes the 96-byte context status. (R256) -/
  | acqGetStatus (t : Nat) (fn : Nat) (tag : Nat)
  /-- ACQ_SCHEDULED_ARM: A context reaches its scheduled tick or epoch edge and starts its record. (R253) -/
  | acqScheduledArm (t : Nat) (context : Nat)
  /-- RING_FILLED: A FILLING context's pre-trigger ring holds PRE elements and the context becomes ARMED. (R238) -/
  | ringFilled (t : Nat) (context : Nat)
  /-- SEGMENT_TRIGGER: A decision of a named unit reaches an ARMED context, which starts capturing a segment around the trigger element. (R240) -/
  | segmentTrigger (t : Nat) (context : Nat)
  /-- SEGMENT_END: A segment reaches LENGTH elements; its header is written, mask results apply and the record may end. (R242) -/
  | segmentEnd (t : Nat) (context : Nat) (count : Computed) (first : Computed) (endTick : Computed) (settled : Computed) (flags : Computed) (codes : List Int)
  /-- CONTEXT_REARM: A context becomes ARMED again after a segment, or starts the next segment in FREE_RUN and CONTIGUOUS modes. (R242) -/
  | contextRearm (t : Nat) (context : Nat)
  /-- GAP_BEGIN: An element cannot enter the context's staging, so a gap begins and a gap entry is recorded. (R246) -/
  | gapBegin (t : Nat) (context : Nat) (cause : Nat) (element : Nat) (start : Computed) (ticks : Computed) (count : Nat)
  /-- STAGING_DRAIN_TIMEOUT: During quiescence of a flow context, elements not accepted within 100 µs are written as a gap with cause 3. (R250) -/
  | stagingDrainTimeout (t : Nat) (context : Nat) (element : Computed) (start : Computed) (ticks : Computed) (count : Computed)
  /-- SEGMENT_EVENT_INTERVAL_CLOSE: A context's 25,600-tick segment-event interval ends and a pending EV_SEGMENT_DONE is raised. (R257) -/
  | segmentEventIntervalClose (t : Nat) (context : Nat)
  /-- GAP_EVENT_INTERVAL_CLOSE: A context's gap interval closes, raising an EV_GAP SUMMARY if gaps were added. (R257) -/
  | gapEventIntervalClose (t : Nat) (context : Nat)
  /-- CONTEXT_STATE_REBUILD: A corrupted copy of context state is rebuilt from the other copy. (R249) -/
  | contextStateRebuild (t : Nat) (context : Nat)
  /-- SORREL_LOAD_KERNEL: Verifies a kernel image and loads it into every named core. (R280) -/
  | sorrelLoadKernel (t : Nat) (fn : Nat) (tag : Nat) (image : List Byte)
  /-- SORREL_START: Admits allotments and energy and starts a kernel, at once or scheduled. (R282) -/
  | sorrelStart (t : Nat) (fn : Nat) (tag : Nat)
  /-- SORREL_STOP: Stops a kernel at once or at the next commit and quiesces the core. (R283) -/
  | sorrelStop (t : Nat) (fn : Nat) (tag : Nat)
  /-- SORREL_BIND: Binds a core's input, output, force or region port. (R281) -/
  | sorrelBind (t : Nat) (fn : Nat) (tag : Nat)
  /-- SORREL_GET_STATUS: Writes the 96-byte core status. (R284) -/
  | sorrelGetStatus (t : Nat) (fn : Nat) (tag : Nat)
  /-- SORREL_SCHEDULED_START: A core reaches its scheduled tick or epoch and issues instruction 0. (R282) -/
  | sorrelScheduledStart (t : Nat) (core : Nat)
  /-- INPUT_BLOCK_ARRIVAL: The distributor fills a slot of an input port with a block and its descriptor, or loses the block. (R273) -/
  | inputBlockArrival (t : Nat) (core : Nat) (port : Nat) (index : Nat) (mapped : Bool) (ovr : Computed) (unsettled : Computed) (settled : Computed) (codes : List Int)
  /-- CORE_FAULT: A core or quad fault is detected; a spare is loaded from the retention ring and STATE mirror and reruns the activation. (R277) -/
  | coreFault (t : Nat) (core : Nat) (quad : Bool)
  /-- ACTIVATION_CREDIT_EXHAUSTED: An activation runs past its cycle credit, is paused and continues from slack. (R276) -/
  | activationCreditExhausted (t : Nat) (core : Nat)
  /-- ADD: Scalar add. (R265) -/
  | isaAdd (t : Nat) (core : Nat)
  /-- SUB: Scalar subtract. (R265) -/
  | isaSub (t : Nat) (core : Nat)
  /-- AND: Scalar bitwise and. (R265) -/
  | isaAnd (t : Nat) (core : Nat)
  /-- OR: Scalar bitwise or. (R265) -/
  | isaOr (t : Nat) (core : Nat)
  /-- XOR: Scalar bitwise exclusive or. (R265) -/
  | isaXor (t : Nat) (core : Nat)
  /-- SHL: Scalar shift left. (R265) -/
  | isaShl (t : Nat) (core : Nat)
  /-- SHRA: Scalar arithmetic shift right. (R265) -/
  | isaShra (t : Nat) (core : Nat)
  /-- SHRL: Scalar logical shift right. (R265) -/
  | isaShrl (t : Nat) (core : Nat)
  /-- MUL: Low 32 bits of the signed product. (R265) -/
  | isaMul (t : Nat) (core : Nat)
  /-- MULH: High 32 bits of the signed product. (R265) -/
  | isaMulh (t : Nat) (core : Nat)
  /-- MIN: Scalar minimum. (R265) -/
  | isaMin (t : Nat) (core : Nat)
  /-- MAX: Scalar maximum. (R265) -/
  | isaMax (t : Nat) (core : Nat)
  /-- CMPEQ: Scalar compare equal, giving 1 or 0. (R265) -/
  | isaCmpeq (t : Nat) (core : Nat)
  /-- CMPLT: Signed compare less than. (R265) -/
  | isaCmplt (t : Nat) (core : Nat)
  /-- CMPLTU: Unsigned compare less than. (R265) -/
  | isaCmpltu (t : Nat) (core : Nat)
  /-- LI: Loads an immediate into a scalar register. (R265) -/
  | isaLi (t : Nat) (core : Nat)
  /-- MFS: Moves a special register into a scalar register. (R265) -/
  | isaMfs (t : Nat) (core : Nat)
  /-- MTS: Moves a scalar register into a special register, clearing sticky bits when it writes SR5. (R265) -/
  | isaMts (t : Nat) (core : Nat)
  /-- LDS: 4-byte scalar load through an address generator. (R265) -/
  | isaLds (t : Nat) (core : Nat)
  /-- STS: 4-byte scalar store through an address generator. (R265) -/
  | isaSts (t : Nat) (core : Nat)
  /-- LDV: 16-byte vector load. (R265) -/
  | isaLdv (t : Nat) (core : Nat)
  /-- STV: 16-byte vector store. (R265) -/
  | isaStv (t : Nat) (core : Nat)
  /-- LDC: Loads one complex value and broadcasts it to four lanes. (R265) -/
  | isaLdc (t : Nat) (core : Nat)
  /-- STA: Stores lane 0 of an accumulator as sign-extended I and Q. (R265) -/
  | isaSta (t : Nat) (core : Nat)
  /-- CADD: Lanewise saturating complex add. (R265) -/
  | isaCadd (t : Nat) (core : Nat)
  /-- CSUB: Lanewise saturating complex subtract. (R265) -/
  | isaCsub (t : Nat) (core : Nat)
  /-- CMUL: Lanewise complex multiply, scaled by 2^15 and saturating. (R265) -/
  | isaCmul (t : Nat) (core : Nat)
  /-- CMULJ: Lanewise multiply by the conjugate, scaled and saturating. (R265) -/
  | isaCmulj (t : Nat) (core : Nat)
  /-- CONJ: Lanewise complex conjugate. (R265) -/
  | isaConj (t : Nat) (core : Nat)
  /-- VMOV: Vector register move. (R265) -/
  | isaVmov (t : Nat) (core : Nat)
  /-- VPOWR: Lanewise scaled power into I, with Q set to 0. (R265) -/
  | isaVpowr (t : Nat) (core : Nat)
  /-- CMAC: Four exact complex multiply-accumulates. (R266) -/
  | isaCmac (t : Nat) (core : Nat)
  /-- CMACJ: Four exact conjugate multiply-accumulates. (R266) -/
  | isaCmacj (t : Nat) (core : Nat)
  /-- TAPMV: One FIR tap for four outputs plus a shift-in load of the next sample. (R267) -/
  | isaTapmv (t : Nat) (core : Nat)
  /-- ACCZ: Clears an accumulator. (R265) -/
  | isaAccz (t : Nat) (core : Nat)
  /-- ACCR: Rounds, shifts and saturates an accumulator into a vector register. (R265) -/
  | isaAccr (t : Nat) (core : Nat)
  /-- ACCS: Sums an accumulator's four lanes into lane 0. (R265) -/
  | isaAccs (t : Nat) (core : Nat)
  /-- MAXI: Running maximum with index over four lanes. (R268) -/
  | isaMaxi (t : Nat) (core : Nat)
  /-- MINI: Running minimum with index over four lanes. (R268) -/
  | isaMini (t : Nat) (core : Nat)
  /-- EXPB: Computes the headroom of a vector or an accumulator. (R269) -/
  | isaExpb (t : Nat) (core : Nat)
  /-- SHFB: Shifts each component by a signed amount with saturation or rounding. (R269) -/
  | isaShfb (t : Nat) (core : Nat)
  /-- BR: Conditional branch. (R265) -/
  | isaBr (t : Nat) (core : Nat)
  /-- JMP: Unconditional jump. (R265) -/
  | isaJmp (t : Nat) (core : Nat)
  /-- LOOP: Zero-overhead loop over the instructions up to TARGET. (R265) -/
  | isaLoop (t : Nat) (core : Nat)
  /-- WAIT: Stalls until each named input port holds a block, then makes the oldest current. (R272) -/
  | isaWait (t : Nat) (core : Nat)
  /-- YIELD: Commits the activation, releasing blocks, records and messages and mirroring STATE. (R272) -/
  | isaYield (t : Nat) (core : Nat)
  /-- EMIT: Copies an output record into the output staging. (R274) -/
  | isaEmit (t : Nat) (core : Nat)
  /-- MBOX: Queues a FORCE or NOTE message for the Steward, released at commit. (R275) -/
  | isaMbox (t : Nat) (core : Nat)
  /-- SETAG: Sets one field of an address generator. (R265) -/
  | isaSetag (t : Nat) (core : Nat)
  /-- HALT: Commits as YIELD does, then stops the kernel and raises EV_KERNEL_DONE. (R265) -/
  | isaHalt (t : Nat) (core : Nat)
  /-- NOP: No operation. (R265) -/
  | isaNop (t : Nat) (core : Nat)
  /-- PAT_DEFINE_SEGMENT: Defines or releases a pattern segment and allocates its PE memory. (R307) -/
  | patDefineSegment (t : Nat) (fn : Nat) (tag : Nat)
  /-- PAT_WRITE_SEGMENT: Writes vectors into a segment's master copy and PE memory. (R308) -/
  | patWriteSegment (t : Nat) (fn : Nat) (tag : Nat) (table : List Byte)
  /-- PAT_LOAD_TABLE: Sets segment table entries together. (R309) -/
  | patLoadTable (t : Nat) (fn : Nat) (tag : Nat)
  /-- PAT_DEFINE_SITE: Defines or releases a site's pin list. (R310) -/
  | patDefineSite (t : Nat) (fn : Nat) (tag : Nat)
  /-- PAT_START: Checks, admits and starts the named sites on one vector-clock edge. (R305) -/
  | patStart (t : Nat) (fn : Nat) (tag : Nat)
  /-- PAT_STOP: Stops the named sites at a boundary or immediately, and quiesces them. (R306) -/
  | patStop (t : Nat) (fn : Nat) (tag : Nat) (vecs : List (Nat × Nat))
  /-- PAT_REQUEST_JUMP: Posts a host jump request to each named running site. (R311) -/
  | patRequestJump (t : Nat) (fn : Nat) (tag : Nat) (vecs : List (Nat × Nat))
  /-- PAT_GET_RESULT: Writes the 64-byte site result. (R313) -/
  | patGetResult (t : Nat) (fn : Nat) (tag : Nat) (index : Nat)
  /-- PAT_LOAD_TIMESETS: Loads drive and strobe edge placements for a site's pins. (R312) -/
  | patLoadTimesets (t : Nat) (fn : Nat) (tag : Nat) (table : List Byte)
  /-- PAT_SCHEDULED_START: Sites reach their scheduled tick or epoch and launch vector 0 together. (R305) -/
  | patScheduledStart (t : Nat) (site : Nat) (vcount : Computed)
  /-- DECISION_POINT: A site reaches vector L − H, selects its next segment and sends the NEXT order to its PE devices. (R291) -/
  | decisionPoint (t : Nat) (site : Nat)
  /-- SEGMENT_BOUNDARY: An iteration ends; the site repeats, enters NEXT, takes a pending jump, or reaches END and is DONE. (R290) -/
  | segmentBoundary (t : Nat) (site : Nat) (last : Stamp)
  /-- TRIGGER_JUMP_ARRIVAL: A routed trigger decision arrives at a site and is recognised as a jump request. (R294) -/
  | triggerJumpArrival (t : Nat) (site : Nat) (index : Nat)
  /-- SITE_EVENT_ARRIVAL: A site event of a launched vector reaches TRIG as a source input or as comparator blanking. (R16) -/
  | siteEventArrival (t : Nat) (site : Nat) (launch : Stamp)
  /-- REFILL_LATE: A PE device has not confirmed vector v + H, so the site parks in STALLED_REFILL with result VOID. (R298) -/
  | refillLate (t : Nat) (site : Nat) (index : Nat) (device : Nat)
  /-- SITE_PARK: An IMMEDIATE stop parks the site at the vector launched H vectors after execution. (R303) -/
  | sitePark (t : Nat) (site : Nat) (index : Nat)
  /-- TRELLIS_DISCOVER: Trains the named lanes, sends INIT, reads IDENT, measures the round trip and reads the board record. (R338) -/
  | trellisDiscover (t : Nat) (fn : Nat) (tag : Nat)
  /-- TRELLIS_GET_STATUS: Writes a PE device's link status, with channel counts if asked. (R339) -/
  | trellisGetStatus (t : Nat) (fn : Nat) (tag : Nat)
  /-- TRELLIS_CONFIGURE_CAPTURE: Sets a site's fail-log and capture regions and rates. (R340) -/
  | trellisConfigureCapture (t : Nat) (fn : Nat) (tag : Nat)
  /-- TRELLIS_DESKEW: Measures per-pin deskew, or routes a device's timing line. (R341) -/
  | trellisDeskew (t : Nat) (fn : Nat) (tag : Nat) (means : Computed)
  /-- UPSTREAM_CODEWORD: An upstream codeword is decoded and its header gives LIVE, RX_OK and its slots or bulk data. (R318) -/
  | upstreamCodeword (t : Nat) (lane : Nat) (levels : List Nat) (errors : List (Nat × Nat)) (corrected : Computed) (discarded : Computed)
  /-- IDLE_FRAME: An IDLE frame is received and has no effect. (R320) -/
  | idleFrame (t : Nat) (lane : Nat) (frame : List Byte)
  /-- IDENT_FRAME: A PE device's identity frame is received during discovery. (R320) -/
  | identFrame (t : Nat) (lane : Nat) (frame : List Byte)
  /-- PROGRESS_FRAME: A device reports the vector through which a site's compares are complete. (R334) -/
  | progressFrame (t : Nat) (lane : Nat) (frame : List Byte)
  /-- FAIL_FRAME: Fail records are received and written as fail entries into the site's Cellar region. (R335) -/
  | failFrame (t : Nat) (lane : Nat) (frame : List Byte)
  /-- CAPTURE_FRAME: Captured states are received and written as capture entries. (R335) -/
  | captureFrame (t : Nat) (lane : Nat) (frame : List Byte)
  /-- MATCH_FRAME: A match result arrives and posts a MATCH_PASS or MATCH_FAIL jump request. (R294) -/
  | matchFrame (t : Nat) (lane : Nat) (frame : List Byte)
  /-- RECEIPT_FRAME: A device reports bulk bytes confirmed, or a GAP that makes the module rewind and resend. (R323) -/
  | receiptFrame (t : Nat) (lane : Nat) (frame : List Byte) (vecs : List (Nat × Nat))
  /-- EVENT_FRAME: A PE event request arrives and posts an EXTERNAL jump request to its site. (R294) -/
  | eventFrame (t : Nat) (lane : Nat) (frame : List Byte) (index : Nat)
  /-- COUNTERS_FRAME: A device's per-channel fail counts are received in answer to COUNTER_READ. (R334) -/
  | countersFrame (t : Nat) (lane : Nat) (frame : List Byte)
  /-- LOOP_REPLY_FRAME: A LOOP_REPLY is received and the round trip is measured. (R327) -/
  | loopReplyFrame (t : Nat) (lane : Nat) (frame : List Byte) (rtt : Nat)
  /-- FAULT_FRAME: A device reports a fault and is declared lost. (R331) -/
  | faultFrame (t : Nat) (lane : Nat) (frame : List Byte)
  /-- RELIABLE_RESEND_TIMEOUT: A reliable frame is unacknowledged after 409.6 ns, and every frame from ACK + 1 is resent. (R321) -/
  | reliableResendTimeout (t : Nat) (device : Nat)
  /-- LANE_DOWN: Eight consecutive codewords fail or arrive with LIVE clear, so the lane direction is down and the device is rerouted or lost. (R329) -/
  | laneDown (t : Nat) (lane : Nat) (upstream : Bool)
  /-- DEVICE_LOST: A device is lost; its running sites park in PE_LOST and EV_PE_LOST is raised. (R331) -/
  | deviceLost (t : Nat) (device : Nat)
  /-- SIDE_PORT_FAILURE: A buddy side port fails alone, and redundancy is lost with EV_FAULT_MASKED. (R330) -/
  | sidePortFailure (t : Nat) (pair : Nat)
  /-- STIM_DEFINE_SEGMENT: Defines or releases a stimulus segment. (R353) -/
  | stimDefineSegment (t : Nat) (fn : Nat) (tag : Nat)
  /-- STIM_WRITE_SEGMENT: Writes samples into waveform memory or a master copy. (R354) -/
  | stimWriteSegment (t : Nat) (fn : Nat) (tag : Nat) (table : List Byte)
  /-- STIM_LOAD_TABLE: Sets stimulus segment table entries together. (R355) -/
  | stimLoadTable (t : Nat) (fn : Nat) (tag : Nat)
  /-- STIM_START: Starts the named outputs on one tick, or reports them with QUERY. (R356) -/
  | stimStart (t : Nat) (fn : Nat) (tag : Nat)
  /-- STIM_STOP: Stops outputs at a boundary or immediately and powers the DAC down. (R357) -/
  | stimStop (t : Nat) (fn : Nat) (tag : Nat)
  /-- STIM_REQUEST_JUMP: Posts a host jump request to each named running output. (R358) -/
  | stimRequestJump (t : Nat) (fn : Nat) (tag : Nat)
  /-- STIM_SCHEDULED_START: Outputs reach their scheduled tick or epoch and play sample 0. (R356) -/
  | stimScheduledStart (t : Nat) (output : Nat)
  /-- STIM_DECISION_POINT: An output reaches sample L − 64 and selects its next segment, stalling if that segment is undefined or locked. (R349) -/
  | stimDecisionPoint (t : Nat) (output : Nat)
  /-- STIM_BOUNDARY: An output's iteration ends; it repeats, enters NEXT, jumps, or reaches END. (R345) -/
  | stimBoundary (t : Nat) (output : Nat)
  /-- STIM_TRIGGER_JUMP_ARRIVAL: A routed trigger decision reaches a player and is recognised as a jump request. (R347) -/
  | stimTriggerJumpArrival (t : Nat) (output : Nat)
  /-- STIM_REFILL_LATE: Sample v + 64 is not in the ring, so the output parks at PARK_CODE in STALLED. (R348) -/
  | stimRefillLate (t : Nat) (output : Nat)
  /-- STIM_PARK: An IMMEDIATE stop parks the output 64 samples after execution. (R357) -/
  | stimPark (t : Nat) (output : Nat)
  /-- VINE_CONFIGURE: Sets the module's Vine role as OFF, HEAD or MEMBER. (R366) -/
  | vineConfigure (t : Nat) (fn : Nat) (tag : Nat)
  /-- VINE_CALIBRATE_SKEW: Measures a link's delay by echo pulses and sends it downstream. (R367) -/
  | vineCalibrateSkew (t : Nat) (fn : Nat) (tag : Nat)
  /-- VINE_GET_STATUS: Writes the 64-byte Vine status. (R368) -/
  | vineGetStatus (t : Nat) (fn : Nat) (tag : Nat)
  /-- VINE_SCHEDULE_SYNC: Schedules EV_VINE_SYNC, and optionally EVENT frames, at periodic epochs. (R369) -/
  | vineScheduleSync (t : Nat) (fn : Nat) (tag : Nat)
  /-- EPOCH_EDGE: A local epoch edge arrives; the head sends EPOCH, scheduled syncs fire and WHEN 2 starts are released. (R361) -/
  | epochEdge (t : Nat)
  /-- EPOCH_FRAME_RECEIVED: A member receives an EPOCH frame, checks its CRC and number and steers its loop. (R361) -/
  | epochFrameReceived (t : Nat) (number : Nat) (crc : Nat) (arrival : Stamp)
  /-- VINE_EVENT_FRAME_RECEIVED: An EVENT frame is received, stamped locally, offered to TRIG and queued for forwarding. (R362) -/
  | vineEventFrameReceived (t : Nat) (payload : Nat) (crc : Nat)
  /-- DELAY_FRAME_RECEIVED: A DELAY frame gives a new LINK_DELAY and the member slews to it. (R363) -/
  | delayFrameReceived (t : Nat) (delay : Nat) (crc : Nat)
  /-- VINE_EVENT_SEND: A routed decision or scheduled event becomes an EVENT frame at the next allowed cell boundary. (R362) -/
  | vineEventSend (t : Nat)
  /-- ECHO_PULSE_SEND: 1.2 µs after an epoch edge during calibration, the upstream module sends and stamps an echo pulse. (R363) -/
  | echoPulseSend (t : Nat) (stamp : Stamp)
  /-- ECHO_PULSE_RETURN: A returned echo pulse is stamped with the spare interpolator pair. (R363) -/
  | echoPulseReturn (t : Nat) (stamp : Stamp)
  /-- VINE_NEIGHBOUR_LOST: A member misses REF_IN edges or an EPOCH header, raises EV_VINE_LOST and enters holdover. (R364) -/
  | vineNeighbourLost (t : Nat) (cause : Nat)
  /-- VINE_SIGNALS_RETURN: Vine signals return; holdover ends if the phase is within 2 ns, or else SKEW_STALE is set. (R364) -/
  | vineSignalsReturn (t : Nat) (phase : Int)
  /-- TIU_CONFIGURE_CHANNEL: Configures a TIU channel's source, thresholds, function and statistics. (R388) -/
  | tiuConfigureChannel (t : Nat) (fn : Nat) (tag : Nat)
  /-- TIU_START: Starts the named channels at one coarse edge. (R389) -/
  | tiuStart (t : Nat) (fn : Nat) (tag : Nat)
  /-- TIU_STOP: Refuses if a consumer takes a channel, and otherwise quiesces the channels. (R390) -/
  | tiuStop (t : Nat) (fn : Nat) (tag : Nat)
  /-- TIU_READ_STATS: Writes a statistics block, waiting for a new block with WAIT. (R391) -/
  | tiuReadStats (t : Nat) (fn : Nat) (tag : Nat)
  /-- TIU_GET_STATUS: Writes the 64-byte channel status. (R392) -/
  | tiuGetStatus (t : Nat) (fn : Nat) (tag : Nat) (highMv : Nat) (lowMv : Nat) (rate : Computed)
  /-- TIU_SCHEDULED_START: Channels reach their scheduled tick or epoch and start. (R389) -/
  | tiuScheduledStart (t : Nat) (channel : Nat)
  /-- TIU_EDGE: An enabled edge is stamped, used by the channel's function and delivered, or missed in dead time. (R374) -/
  | tiuEdge (t : Nat) (channel : Nat) (levels : List Int) (fraction : Nat) (unsettled : Bool)
  /-- INTERPOLATOR_ROTATION_STEP: Every 1 ms the group's spare pair moves to the next channel or is trimmed itself. (R378) -/
  | interpolatorRotationStep (t : Nat) (group : Nat)
  /-- INTERPOLATOR_FAILURE: A failed interpolator is detected and the group's spare pair takes over for good. (R380) -/
  | interpolatorFailure (t : Nat) (group : Nat) (unit : Nat)
  /-- STATS_BLOCK_COMPLETE: A block reaches STATS_N results and is latched for reading. (R383) -/
  | statsBlockComplete (t : Nat) (channel : Nat)
  /-- TIU_STATS_INTERVAL_CLOSE: A channel's 25,600-tick event interval ends and EV_TIU_STATS is raised for the latest block. (R393) -/
  | tiuStatsIntervalClose (t : Nat) (channel : Nat)
  /-- MON_CONFIGURE_COMPARATOR: Sets a comparator's mode, threshold, hysteresis, blanking and forwarding. (R408) -/
  | monConfigureComparator (t : Nat) (fn : Nat) (tag : Nat)
  /-- MON_LOAD_SEQUENCE: Writes entries of the monitor converter's sequence table. (R409) -/
  | monLoadSequence (t : Nat) (fn : Nat) (tag : Nat)
  /-- MON_START_SEQUENCE: Starts the converter sequence, at once or scheduled. (R410) -/
  | monStartSequence (t : Nat) (fn : Nat) (tag : Nat)
  /-- MON_STOP_SEQUENCE: Stops the sequence and completes with ST_QUIESCED. (R411) -/
  | monStopSequence (t : Nat) (fn : Nat) (tag : Nat)
  /-- MON_READ: Writes comparator states, or the latest sequence records. (R412) -/
  | monRead (t : Nat) (fn : Nat) (tag : Nat)
  /-- MON_SET_REFERENCE: Turns the precision reference buffer on or off. (R413) -/
  | monSetReference (t : Nat) (fn : Nat) (tag : Nat)
  /-- MON_SCHEDULED_START: The sequence reaches its scheduled tick or epoch and takes its first conversion. (R410) -/
  | monScheduledStart (t : Nat)
  /-- COMPARATOR_CHANGE: A comparator's input leaves its band and the output changes, is forwarded or held by blanking. (R395) -/
  | comparatorChange (t : Nat) (comp : Nat) (input : Int) (stamp : Computed)
  /-- M3_TICK: A sampled comparator decides at the end of its powered window at each tick. (R396) -/
  | m3Tick (t : Nat) (comp : Nat) (input : Int) (stamp : Computed)
  /-- COMPARATOR_THRESHOLD_APPLY: A new threshold takes effect within 10 µs of being set. (R395) -/
  | comparatorThresholdApply (t : Nat) (comp : Nat) (readback : Nat)
  /-- BLANKING_WINDOW_CLOSE: A blanking window closes and one BLANKED change is forwarded if the output differs. (R398) -/
  | blankingWindowClose (t : Nat) (comp : Nat)
  /-- COMPARATOR_EVENT_INTERVAL_CLOSE: A comparator's event interval closes and an EV_COMPARATOR SUMMARY is raised if changes were counted. (R399) -/
  | comparatorEventIntervalClose (t : Nat) (comp : Nat)
  /-- WAKE_REQUEST: A comparator wake request reaches the wake logic, which ends standby and asserts WAKE_N. (R399) -/
  | wakeRequest (t : Nat)
  /-- CONVERSION_COMPLETE: A 500 ns conversion ends; averages and records are produced and the sequence advances. (R401) -/
  | conversionComplete (t : Nat) (code : Nat) (outside : Nat)
  /-- ENTRY_DELAY_EXPIRY: An entry's DELAY ends and its conversions begin. (R402) -/
  | entryDelayExpiry (t : Nat)
  /-- HOUSEKEEPING_CONVERSION: Firmware takes a housekeeping conversion at an entry boundary. (R403) -/
  | housekeepingConversion (t : Nat)
  /-- RECOVERY_CONVERSION: After an overranged conversion, a 2 µs recovery conversion replaces a short DELAY and is discarded. (R405) -/
  | recoveryConversion (t : Nat)
  /-- REFERENCE_SETTLED: 1 ms after the reference buffer is enabled, results stop carrying REF_UNSETTLED. (R404) -/
  | referenceSettled (t : Nat)
  /-- CELLAR_ALLOCATE: Creates a Cellar region, optionally zeroed or open to the aperture. (R429) -/
  | cellarAllocate (t : Nat) (fn : Nat) (tag : Nat)
  /-- CELLAR_FREE: Refuses while the region is in use, and otherwise quiesces it and frees it. (R430) -/
  | cellarFree (t : Nat) (fn : Nat) (tag : Nat)
  /-- CELLAR_GET_STATUS: Writes the Cellar and stack status, or the region list. (R431) -/
  | cellarGetStatus (t : Nat) (fn : Nat) (tag : Nat) (temps : List Int)
  /-- CELLAR_SET_OPERATING_POINT: Changes the stack rate one stack at a time, or the row-hammer threshold. (R432) -/
  | cellarSetOperatingPoint (t : Nat) (fn : Nat) (tag : Nat)
  /-- REGION_ZERO_COMPLETE: A region allocated with ZERO has been zeroed through port 14 and the allocation completes. (R429) -/
  | regionZeroComplete (t : Nat) (base : Nat)
  /-- CELLAR_REQUEST: A request arrives at a QoS port and is served in arrival order per 64-byte unit. (R421) -/
  | cellarRequest (t : Nat) (port : Nat) (addr : Nat) (size : Nat) (write : Bool) (data : List Byte) (serve : Nat) (activates : List (Nat × Nat))
  /-- URGENCY_LEVEL_RISE: A waiting request reaches T/2, 3T/4 or T and climbs an urgency level. (R422) -/
  | urgencyLevelRise (t : Nat)
  /-- WRITE_BUFFER_MERGE_TIMEOUT: A stripe's write buffer merge window of 2 µs ends and the write leaves, full-stripe or partial. (R419) -/
  | writeBufferMergeTimeout (t : Nat) (stripe : Nat)
  /-- PATROL_SCRUB: The patrol scrub reads and corrects the stacks over 24 hours. (R418) -/
  | patrolScrub (t : Nat) (corrected : List Nat) (rebuilt : List Nat)
  /-- REFRESH_WINDOW_START: A 32 ms refresh window starts and the activate tables are cleared. (R423) -/
  | refreshWindowStart (t : Nat)
  /-- ROW_HAMMER_THRESHOLD: A row's activate count reaches RH_THRESHOLD and its neighbours are refreshed. (R423) -/
  | rowHammerThreshold (t : Nat) (stack : Nat) (bank : Nat)
  /-- RETRAIN_PAUSE_START: Every 781.25 µs one channel pauses for retraining, its reads rebuilt and its writes buffered. (R424) -/
  | retrainPauseStart (t : Nat) (channel : Nat)
  /-- RETRAIN_PAUSE_END: Retraining ends or is cut off at 400 ns, with the previous trim kept on failure. (R424) -/
  | retrainPauseEnd (t : Nat) (channel : Nat) (trained : Bool) (fill : Nat)
  /-- PSEUDO_CHANNEL_FAILURE: A pseudo-channel fails; reads are rebuilt and the spare pseudo-channel is rebuilt from slack. (R426) -/
  | pseudoChannelFailure (t : Nat) (stack : Nat) (pc : Nat)
  /-- STACK_FAILURE: A stack fails or loses a second pseudo-channel and is retired, with parity serving its blocks. (R426) -/
  | stackFailure (t : Nat) (stack : Nat)
  /-- REBUILD_COMPLETE: The rebuild of a spare pseudo-channel ends. (R426) -/
  | rebuildComplete (t : Nat) (stack : Nat)
  /-- STACK_OP_POINT_SERVING: A stack exits self-refresh at the new rate, retrains and serves again. (R428) -/
  | stackOpPointServing (t : Nat) (stack : Nat)
  /-- STACK_BUFFER_DRAINED: A stack's elastic buffer empties, so the next stack may change or the command completes. (R428) -/
  | stackBufferDrained (t : Nat) (stack : Nat) (fill : Nat)
  /-- FLOW_CREATE: Creates a flow with its kinds, check code, priority, burst size and rate. (R448) -/
  | flowCreate (t : Nat) (fn : Nat) (tag : Nat)
  /-- FLOW_ENABLE: Admits a flow's allotments, opens its gate and resumes a halted flow. (R449) -/
  | flowEnable (t : Nat) (fn : Nat) (tag : Nat)
  /-- FLOW_DISABLE: Quiesces a flow, aborting queued descriptors and keeping its allotments. (R450) -/
  | flowDisable (t : Nat) (fn : Nat) (tag : Nat)
  /-- FLOW_DESTROY: Quiesces a flow, releases its allotments and port and frees its number. (R450) -/
  | flowDestroy (t : Nat) (fn : Nat) (tag : Nat)
  /-- FLOW_POST_DESCRIPTORS: Queues a chain of descriptors on a flow. (R451) -/
  | flowPostDescriptors (t : Nat) (fn : Nat) (tag : Nat)
  /-- FLOW_GET_STATUS: Writes the 64-byte flow status. (R452) -/
  | flowGetStatus (t : Nat) (fn : Nat) (tag : Nat)
  /-- DESCRIPTOR_FETCHED: A fetched descriptor is checked and cut into bursts, or halts the flow as bad. (R437) -/
  | descriptorFetched (t : Nat) (flow : Nat) (bytes : List Byte) (index : List Nat)
  /-- PRODUCER_UNIT_ARRIVAL: A producer offers a unit to its flow, which accepts it or back-pressures. (R435) -/
  | producerUnitArrival (t : Nat) (flow : Nat)
  /-- BURST_ADMISSION: Racking chooses the next ready burst by urgency, credit, slack and priority, and issues it. (R440) -/
  | burstAdmission (t : Nat)
  /-- BURST_COMPLETION: A burst is answered; once all of a descriptor's bursts are in, its write-back and event follow. (R438) -/
  | burstCompletion (t : Nat) (flow : Nat) (offset : Nat) (data : List Byte)
  /-- BURST_ERROR: A burst is answered with an error and its descriptor completes with a transfer error, halting the flow. (R443) -/
  | burstError (t : Nat) (flow : Nat) (offset : Nat)
  /-- HOST_READ_TIMEOUT: A host read passes the 10 ms completion time-out and is treated as a burst error. (R443) -/
  | hostReadTimeout (t : Nat) (flow : Nat)
  /-- STREAM_CONFIGURE_PORT: Brings a stream port up as ACTIVE or SPARE with its addresses, or turns it off. (R466) -/
  | streamConfigurePort (t : Nat) (fn : Nat) (tag : Nat)
  /-- STREAM_BIND_FLOW: Binds or unbinds a STREAM flow on an active port with its framing. (R467) -/
  | streamBindFlow (t : Nat) (fn : Nat) (tag : Nat)
  /-- STREAM_GET_STATUS: Writes the 64-byte port status. (R468) -/
  | streamGetStatus (t : Nat) (fn : Nat) (tag : Nat)
  /-- PORT_LINK_UP: A port's link trains and the port becomes UP. (R466) -/
  | portLinkUp (t : Nat) (port : Nat)
  /-- PACKET_FLUSH_TIMEOUT: FLUSH_US passes since a packet's first byte with no more data, and the packet is closed. (R459) -/
  | packetFlushTimeout (t : Nat) (flow : Nat)
  /-- PACKET_TRANSMIT: A closed packet is sent within the flow's token bucket and the port's interleave. (R460) -/
  | packetTransmit (t : Nat) (port : Nat) (flow : Nat)
  /-- HEARTBEAT_TIMER: Every 100 µs an UP port sends a HEARTBEAT packet. (R462) -/
  | heartbeatTimer (t : Nat) (port : Nat)
  /-- PORT_FAILURE: A port fault is detected and the spare takes its addresses and flows, replaying recent packets. (R463) -/
  | portFailure (t : Nat) (port : Nat) (cause : Nat)
  /-- ARP_REQUEST_RECEIVED: An ARP request for the port's IPv4 address is answered from that port. (R455) -/
  | arpRequestReceived (t : Nat) (port : Nat) (senderMac : List Byte) (senderIp : List Byte) (target : List Byte)
  /-- NEIGHBOUR_SOLICITATION_RECEIVED: An IPv6 neighbour solicitation for the port's address is answered. (R455) -/
  | neighbourSolicitationReceived (t : Nat) (port : Nat) (senderMac : List Byte) (senderIp : List Byte) (target : List Byte)
  /-- PAUSE_FRAME_RECEIVED: A PAUSE or PFC frame is counted in PAUSE_RX and ignored. (R455) -/
  | pauseFrameReceived (t : Nat) (port : Nat)
  /-- OTHER_FRAME_RECEIVED: Any other received frame is discarded and counted in RX_DISCARDED. (R455) -/
  | otherFrameReceived (t : Nat) (port : Nat)
  /-- DISP_SET_TIMING: Sets the display mode timing while DISP is disabled. (R483) -/
  | dispSetTiming (t : Nat) (fn : Nat) (tag : Nat)
  /-- DISP_SET_GENLOCK: Selects register timing or genlock to DISP_SYNC_IN. (R484) -/
  | dispSetGenlock (t : Nat) (fn : Nat) (tag : Nat)
  /-- DISP_CONFIGURE_LAYER: Configures one display layer, applied at the next latch line. (R485) -/
  | dispConfigureLayer (t : Nat) (fn : Nat) (tag : Nat) (image : List Byte)
  /-- DISP_SET_PALETTE: Writes palette entries, applied together at the next latch line. (R486) -/
  | dispSetPalette (t : Nat) (fn : Nat) (tag : Nat)
  /-- DISP_ENABLE: Reads the sink, trains the link and starts scan-out, or reports with QUERY. (R487) -/
  | dispEnable (t : Nat) (fn : Nat) (tag : Nat) (pixelHz : Nat) (edid : List Byte)
  /-- DISP_DISABLE: Completes the frame in scan-out, idles the link and powers DISP down. (R488) -/
  | dispDisable (t : Nat) (fn : Nat) (tag : Nat)
  /-- LATCH_LINE: Scan-out reaches line V_ACTIVE; layer values and traces are latched and composition of the next frame begins. (R478) -/
  | latchLine (t : Nat)
  /-- MATCH_LINE_REACHED: Scan-out begins MATCH_LINE and EV_LINE_MATCH is raised. (R489) -/
  | matchLineReached (t : Nat)
  /-- FRAME_END: The last active line ends and EV_FRAME_DONE is raised. (R489) -/
  | frameEnd (t : Nat)
  /-- LINE_UNDERRUN: Scan-out reaches an unfinished line, which shows the background colour. (R477) -/
  | lineUnderrun (t : Nat) (line : Nat)
  /-- OVERLAY_FETCH_FAULT: An overlay fetch falls outside every open region, so lines show background and FAULTED is set. (R480) -/
  | overlayFetchFault (t : Nat) (line : Nat)
  /-- GENLOCK_EDGE: A DISP_SYNC_IN edge arrives and the display PLL steers toward its phase. (R472) -/
  | genlockEdge (t : Nat) (locked : Bool)
  /-- GENLOCK_LOST: No sync edge arrives within 1.5 frames, or the pull exceeds 500 ppm, and DISP free-runs. (R472) -/
  | genlockLost (t : Nat)
  /-- HPD_UNPLUG: The sink is hot-unplugged. (R470) -/
  | hpdUnplug (t : Nat)
  /-- HPD_RETURN: The sink returns and the link retrains automatically. (R470) -/
  | hpdReturn (t : Nat)
  /-- SCANOUT_MISMATCH: The scan-out copies disagree, the failing copy is retired and SCANOUT_SPARED is set. (R481) -/
  | scanoutMismatch (t : Nat) (copy : Nat)
  /-- BUDGET_SET_POWER_CAP: Sets the power cap, budget period and ageing interval, or resets the peak. (R503) -/
  | budgetSetPowerCap (t : Nat) (fn : Nat) (tag : Nat)
  /-- BUDGET_GRANT: Sets an activity's allotments directly, with override or deferral, or reports them. (R504) -/
  | budgetGrant (t : Nat) (fn : Nat) (tag : Nat)
  /-- BUDGET_REVOKE: Stops the activity that owns the allotments and releases them. (R505) -/
  | budgetRevoke (t : Nat) (fn : Nat) (tag : Nat)
  /-- BUDGET_READ_LEDGER: Writes the energy ledger taken at one boundary, optionally resetting the peak. (R506) -/
  | budgetReadLedger (t : Nat) (fn : Nat) (tag : Nat)
  /-- BUDGET_GET_CAPACITY: Writes the raw, post-fault, counted and admitted capacity of each resource. (R507) -/
  | budgetGetCapacity (t : Nat) (fn : Nat) (tag : Nat)
  /-- BUDGET_PERIOD_BOUNDARY: At each budget period boundary every activity's credits are reloaded. (R491) -/
  | budgetPeriodBoundary (t : Nat)
  /-- AGEING_INTERVAL: Slack work that has waited an ageing interval rises one priority level. (R496) -/
  | ageingInterval (t : Nat) (flow : Nat)
  /-- LATENCY_TARGET_REACHED: Credited work reaches its latency target and becomes urgent. (R497) -/
  | latencyTargetReached (t : Nat) (kind : Nat) (object : Nat) (resource : Nat)
  /-- URGENT_INTERVAL_CLOSE: An activity's urgency interval closes with an EV_BUDGET_URGENT SUMMARY. (R497) -/
  | urgentIntervalClose (t : Nat) (kind : Nat) (object : Nat)
  /-- LEDGER_UPDATE: At each 1 ms boundary the meters, power and peak in the ledger are updated. (R501) -/
  | ledgerUpdate (t : Nat) (power : Nat) (total : Nat) (energies : List (Nat × Nat))
  /-- THROTTLE_STAGE_ADVANCE: Power stays above the effective cap for a further 1 ms and throttling advances one stage. (R502) -/
  | throttleStageAdvance (t : Nat)
  /-- THROTTLE_STAGE_RELEASE: Power stays below 95 % of the cap for 10 ms and the highest stage is released. (R502) -/
  | throttleStageRelease (t : Nat)
  /-- FAULT_READ_LOG: Writes the fault log header and entries from FIRST_SEQ. (R528) -/
  | faultReadLog (t : Nat) (fn : Nat) (tag : Nat)
  /-- FAULT_GET_HEALTH: Writes HEALTH and the per-class spares summary. (R529) -/
  | faultGetHealth (t : Nat) (fn : Nat) (tag : Nat)
  /-- FAULT_INJECT: Makes a named unit's monitors report a failure, which is taken over as a real fault. (R530) -/
  | faultInject (t : Nat) (fn : Nat) (tag : Nat)
  /-- FAULT_CLEAR_LOG: Discards held log entries and optionally resets counts and restores injected units. (R531) -/
  | faultClearLog (t : Nat) (fn : Nat) (tag : Nat)
  /-- INJECTED_UNIT_RESTORE: An injected unit passes self-test within 200 ms and returns to its pool as a spare. (R531) -/
  | injectedUnitRestore (t : Nat) (cls : Nat) (pool : Nat) (unit : Nat) (passed : Bool)
  /-- STEWARD_PAIR_HALT: A Steward pair mismatches and halts; the spare or next surviving pair takes its channels and duties. (R514) -/
  | stewardPairHalt (t : Nat) (pair : Nat)
  /-- STEWARD_TAKEOVER_COMPLETE: The takeover ends and doorbells snapshot meanwhile are acknowledged. (R514) -/
  | stewardTakeoverComplete (t : Nat)
  /-- SRAM_SCRUB_PASS: Every 100 ms each SRAM is scrubbed and corrected errors are counted. (R515) -/
  | sramScrubPass (t : Nat) (corrected : Nat)
  /-- UNCORRECTABLE_SRAM_WORD: An uncorrectable word is rebuilt from its copy or treated as a fault of its unit. (R515) -/
  | uncorrectableSramWord (t : Nat) (duplicated : Bool) (cls : Nat) (pool : Nat) (unit : Nat) (detail : Nat)
  /-- FABRIC_PLL_FAULT: A fabric PLL loses lock and its domain passes to the twin within one clock. (R516) -/
  | fabricPllFault (t : Nat) (pair : Nat) (unit : Nat) (stops : Bool)
  /-- REGULATOR_PHASE_FAULT: A regulator phase leaves its band for 10 µs and is switched off, lowering the effective cap after a second fault on the rail. (R517) -/
  | regulatorPhaseFault (t : Nat) (rail : Nat) (phase : Nat)
  /-- DIE_LINK_LANE_FAULT: A die-to-die lane fails and a spare lane replaces it within 100 ns. (R518) -/
  | dieLinkLaneFault (t : Nat) (direction : Nat) (lane : Nat)
  /-- CHECKED_HALF_MISMATCH: A checked pair mismatches and the failing half is retired. (R519) -/
  | checkedHalfMismatch (t : Nat) (pair : Nat) (half : Nat)
  /-- SPARE_UNIT_FAULT: A spare that holds no work fails and is retired. (R522) -/
  | spareUnitFault (t : Nat) (cls : Nat) (pool : Nat) (unit : Nat)
  /-- OUT_OF_SCOPE_FAULT: A fault of a part outside the single-fault scope is detected; it is logged UNMASKED and FAULT_N is asserted. (R521) -/
  | outOfScopeFault (t : Nat) (detail : Nat)
  /-- CAL_RUN: Trims the named calibration units. (R541) -/
  | calRun (t : Nat) (fn : Nat) (tag : Nat) (failed : List Nat) (values : List (Nat × Nat)) (means : Computed)
  /-- CAL_GET_RECORD: Writes calibration records of a class. (R542) -/
  | calGetRecord (t : Nat) (fn : Nat) (tag : Nat)
  /-- CAL_SET_SCHEDULE: Sets a class's calibration schedule. (R543) -/
  | calSetSchedule (t : Nat) (fn : Nat) (tag : Nat)
  /-- SCHEDULED_CALIBRATION: A unit falls due by period or drift and is trimmed as CAL.RUN would trim it. (R543) -/
  | scheduledCalibration (t : Nat) (cls : Nat) (units : List Nat) (failed : List Nat) (values : List (Nat × Nat)) (means : Computed)
  /-- ID_SCAN: Reads the named identity buses and replaces the cache entries. (R554) -/
  | idScan (t : Nat) (fn : Nat) (tag : Nat) (mems : List (Nat × List Byte)) (stuck : List Nat)
  /-- ID_READ_RECORD: Writes one device's record from the cache or from the device. (R555) -/
  | idReadRecord (t : Nat) (fn : Nat) (tag : Nat) (mem : Option (List Byte)) (stuck : Bool)
  /-- SEC_GET_CERTIFICATE: Writes one DER certificate of the chain. (R563) -/
  | secGetCertificate (t : Nat) (fn : Nat) (tag : Nat)
  /-- SEC_ATTEST: Writes a signed attestation report over a nonce. (R564) -/
  | secAttest (t : Nat) (fn : Nat) (tag : Nat)
  /-- SEC_UPDATE_FIRMWARE: Stages, activates or commits a firmware image. (R565) -/
  | secUpdateFirmware (t : Nat) (fn : Nat) (tag : Nat) (image : List Byte) (blown : Nat)
  /-- STEWARD_RESTART_COMPLETE: After ACTIVATE_NOW the Steward restarts and bits 1, 2 and 28 are set again. (R565) -/
  | stewardRestartComplete (t : Nat) (ready : List Nat)
  /-- SEC_SET_OWNER_KEY: Sets or clears the owner key and policy, advancing counter 1. (R566) -/
  | secSetOwnerKey (t : Nat) (fn : Nat) (tag : Nat)
  /-- SEC_GET_COUNTERS: Writes the 64 anti-rollback counters. (R567) -/
  | secGetCounters (t : Nat) (fn : Nat) (tag : Nat)
  /-- SERVICE_PAIR_SLEEP: Steward firmware puts an idle service pair to sleep and PAIR_AWAKE reads 0. (R35) -/
  | servicePairSleep (t : Nat) (pair : Nat)
  /-- FIRST_SETTLED_OUTPUT: A DDC's unsettled run ends at its first settled output and EV_DDC_SETTLED is raised with the latest cause. (R147) -/
  | firstSettledOutput (t : Nat) (ddc : Nat)
  /-- CODEWORD_BOUNDARY_FOUND: A Trellis receiver finds the codeword boundary after 16 consecutive decoded codewords with consecutive CW_INDEX, and the lane direction comes up. (R317) -/
  | codewordBoundaryFound (t : Nat) (lane : Nat) (words : List (List Nat × List (Nat × Nat)))
  /-- MARKER_CODEWORD: At every tick that is a multiple of 32,768, a marker codeword leaves on each downstream lane with its HEARTBEAT frames, and moves back to retrained lanes take effect. (R318) -/
  | markerCodeword (t : Nat)
  /-- DP_LINK_TRAINED: DisplayPort link training with the sink completes and scan-out starts, or resumes after a hot plug. (R470) -/
  | dpLinkTrained (t : Nat) (lanes : Nat) (rate : Nat)
  /-- ECHO_TURNAROUND: During skew calibration, the downstream module receives an echo pulse and returns it after a 40.000 ns turnaround. (R363) -/
  | echoTurnaround (t : Nat)
  /-- VINE_FRAME_SENT: A frame finishes on VINE_SYNC_OUT and the next queued frame of the merge queue may start, with EPOCH frames keeping priority. (R362) -/
  | vineFrameSent (t : Nat)
  /-- DISCIPLINE_LOOP_LOCKED: The discipline loop converges from ACQUIRING to LOCKED and raises EV_LOCK LOCKED for SOURCE 0. (R92) -/
  | disciplineLoopLocked (t : Nat)
deriving DecidableEq, Repr

end Sys2Proof
end

