-- ==== Sys2Proof/Decode.lean ====
section
/-! DEFINITION. The command that a word spells. No row of the opcode table has bits: a command of this block is an
access, an edge or an arrival, and not a word. -/

namespace Sys2Proof

/-- No word spells a command. DESIGN CHOICE, log entry 2. -/
def decodeTableWord (_nbits _w : Nat) : Option Instr := none

end Sys2Proof
end

