-- ==== Sys2Proof/Machine/Operands.lean ====
section
/-! DEFINITION. Operand forms: the little-endian fields of headers, parameter blocks and result
blocks (R4), their signed readings, and the packing of result blocks. -/

namespace Sys2Proof.Machine

/-- Byte `o` of a block; bytes beyond its end read zero. -/
def byteAt (p : List Byte) (o : Nat) : Nat := (p.getD o 0#8).toNat

/-- The little-endian number in the first bytes of a list (R4). -/
def leNat : List Byte → Nat
  | [] => 0
  | b :: bs => b.toNat + 256 * leNat bs

/-- The `n`-byte little-endian field at offset `o` (R4). -/
def field (p : List Byte) (o n : Nat) : Nat := leNat ((p.drop o).take n)

/-- One-byte field. -/
def u8 (p : List Byte) (o : Nat) : Nat := byteAt p o
/-- Two-byte field. -/
def u16 (p : List Byte) (o : Nat) : Nat := field p o 2
/-- Four-byte field. -/
def u32 (p : List Byte) (o : Nat) : Nat := field p o 4
/-- Eight-byte field. -/
def u64 (p : List Byte) (o : Nat) : Nat := field p o 8

/-- The two's-complement reading of the low `w` bits of `v`. -/
def signed (w v : Nat) : Int :=
  if v % 2 ^ w < 2 ^ (w - 1) then ((v % 2 ^ w : Nat) : Int) else ((v % 2 ^ w : Nat) : Int) - 2 ^ w

/-- The low `w` bits of an integer in two's complement. -/
def unsign (w : Nat) (i : Int) : Nat := (i % (2 ^ w : Int)).toNat

/-- Signed one-byte field. -/
def s8 (p : List Byte) (o : Nat) : Int := signed 8 (u8 p o)
/-- Signed two-byte field. -/
def s16 (p : List Byte) (o : Nat) : Int := signed 16 (u16 p o)
/-- Signed four-byte field. -/
def s32 (p : List Byte) (o : Nat) : Int := signed 32 (u32 p o)
/-- Signed eight-byte field. -/
def s64 (p : List Byte) (o : Nat) : Int := signed 64 (u64 p o)

/-- The `n` bytes at offset `o` are reserved and hold zero (R5). -/
def zeros (p : List Byte) (o n : Nat) : Bool := field p o n == 0

/-- Bits `hi` to `lo` of a number. -/
def bits (v hi lo : Nat) : Nat := (v >>> lo) % 2 ^ (hi + 1 - lo)

/-- The number's little-endian bytes, `n` of them (R4). -/
def leBytes : Nat → Nat → List Byte
  | 0, _ => []
  | n + 1, v => BitVec.ofNat 8 v :: leBytes n (v / 256)

/-- A block of little-endian fields, given as (size in bytes, value) in order of offset. -/
def pack : List (Nat × Nat) → List Byte
  | [] => []
  | (n, v) :: fs => leBytes n v ++ pack fs

/-- The 16 bytes in which a module-time stamp is stored (R6). -/
def stampBytes (st : Stamp) : List Byte :=
  leBytes 2 st.fine ++ leBytes 8 st.tick ++ leBytes 6 0

/-- A stamp as a 16-byte field of `pack` (R6). DESIGN CHOICE, log entry 98. -/
def stampNat (st : Stamp) : Nat := st.fine % 65536 + 65536 * (st.tick % 2 ^ 64)

/-- A stamp as one number of fine units, for comparing and subtracting. -/
def stampFine (st : Stamp) : Nat := st.fine % 65536 + 65536 * st.tick

/-- A stamp from a 16-byte field (R6). -/
def stampOf (p : List Byte) (o : Nat) : Stamp :=
  { tick := u64 p (o + 2), fine := u16 p o }

/-- Bit as a number. -/
def bit (b : Bool) : Nat := if b then 1 else 0

/-- A counter of `w` bits that saturates. -/
def satAdd (w a b : Nat) : Nat := min (a + b) (2 ^ w - 1)

/-- A counter of `w` bits that wraps. -/
def wrapAdd (w a b : Nat) : Nat := (a + b) % 2 ^ w

/-- The numbers of the set bits of a mask, lowest first, below `n`. -/
def maskBits (n m : Nat) : List Nat := (List.range n).filter fun i => m.testBit i

/-- The `n` consecutive numbers from `a`. -/
def span (a n : Nat) : List Nat := (List.range n).map (a + ·)

/-- Cuts a list into records of `n` bytes, at most `k` of them. -/
def records : Nat → Nat → List Byte → List (List Byte)
  | 0, _, _ => []
  | k + 1, n, p => p.take n :: records k n (p.drop n)

/-- Whether a list names no number twice. -/
def noRepeat : List Nat → Bool
  | [] => true
  | x :: xs => !xs.contains x && noRepeat xs

/-- Sets number `k` of a list of at least `k + 1` values. -/
def setAt {α : Type} : List α → Nat → α → List α
  | [], _, _ => []
  | _ :: xs, 0, v => v :: xs
  | x :: xs, k + 1, v => x :: setAt xs k v

/-- Floor of the square root by binary search from bit `k` down. -/
def isqrt (n : Nat) : Nat → Nat → Nat
  | 0, r => r
  | k + 1, r => if (r + 2 ^ k) * (r + 2 ^ k) ≤ n then isqrt n k (r + 2 ^ k) else isqrt n k r

/-- Rounds `n / d` to the nearest integer, halves to even. -/
def roundEven (n d : Nat) : Nat :=
  let q := n / d
  let r := 2 * (n % d)
  if r > d then q + 1 else if r = d then q + q % 2 else q

/-- Ticks in one second (R6). -/
def ticksPerSecond : Nat := 25600000000
/-- Ticks in one microsecond. -/
def ticksPerUs : Nat := 25600
/-- Ticks in one millisecond. -/
def ticksPerMs : Nat := 25600000

end Sys2Proof.Machine
end

