-- ==== Sys2Proof/Config.lean ====
section
/-! DEFINITION. What one module or one firmware build fixes and the spec leaves open, and the free
values: constants without a body, of which nothing can be proved but what holds for every value. -/

namespace Sys2Proof

/-- The free value number `n`, as a word of `w` bits. DESIGN CHOICE, log entry 5. -/
opaque Config.freeBits (w n : Nat) : BitVec w

/-- The vendor identifier of configuration space (R24), which the spec does not give. PRESUMED, log entry 97. -/
opaque Config.vendorId : BitVec 16

/-- `IDENT.INTERFACE_VERSION` (R30): [31:16] major, [15:0] minor. DESIGN CHOICE, log entry 34. -/
opaque Config.interfaceVersion : BitVec 32

/-- VERSION of the image that flash slot `k` holds before any update (R557). DESIGN CHOICE, log entry 34. -/
opaque Config.factoryVersion (k : Nat) : BitVec 32

/-- SVN of that image. DESIGN CHOICE, log entry 34. -/
opaque Config.factorySvn (k : Nat) : BitVec 6

/-- Byte `i` of the SHA-512 digest of that image. DESIGN CHOICE, log entry 34. -/
opaque Config.factoryDigest (k i : Nat) : Byte

/-- Whether the fused part number is "DPX-7840-LX" (R2, R30). DESIGN CHOICE, log entry 34. -/
opaque Config.partIsLX : Bool

/-- `IDENT.SERIAL` (R30), byte `i` of 16. DESIGN CHOICE, log entry 34. -/
opaque Config.serial (i : Nat) : Byte

/-- The key whose SHA-512 digest is the vendor key hash in fuses (R557). DESIGN CHOICE, log entry 33. -/
opaque Config.vendorKeyHash (i : Nat) : Byte

/-- Byte `i` of the device identity key's signature over a digest (R561, R564). DESIGN CHOICE, log entry 33. -/
opaque Config.deviceSign (digest : List Byte) (i : Nat) : Byte

/-- The X.509 DER certificates of the chain: 0 device, 1 intermediate, 2 root (R561). DESIGN CHOICE, log entry 33. -/
opaque Config.certificate (index : Nat) : List Byte

/-- The phase of a DDC's test tone at tick 0, in units of 2π / 2^48, which the spec does not state (R151).
DESIGN CHOICE, log entry 111. -/
opaque Config.tonePhase (ddc : Nat) : BitVec 48

/-- A tone sample that falls between two codes takes the upper one (R151). DESIGN CHOICE, log entry 111. -/
opaque Config.toneUp (freq tick : Nat) : Bool

/-- What the NCO's cosine and sine at a phase are off by, in units of 2^−40, before the bound of R157.
DESIGN CHOICE, log entry 111. -/
opaque Config.ncoError (phase : Nat) : Int × Int

/-- How far the taps of stage `stage` of a decimation reach to either side (R138): stage 0 is the third-band stage, and
the halfband stages follow. DESIGN CHOICE, log entry 111. -/
opaque Config.tapReach (form k stage : Nat) : Nat

/-- Tap `j` of that stage, in units of 2^−30 of its decimation factor; the spec states the response of the cascade and no
coefficient. DESIGN CHOICE, log entry 111. -/
opaque Config.tap (form k stage j : Nat) : Int

/-- How many of the bits below 2^−9 code, of 31, a stage's rounding drops (R138): 0 is the mixer, then the stages and
last the interpolator. DESIGN CHOICE, log entry 111. -/
opaque Config.stageDrop (form k stage : Nat) : Nat

/-- How far the taps of the fractional-delay interpolator reach to either side (R143).
DESIGN CHOICE, log entry 111. -/
opaque Config.interpolatorReach (form k : Nat) : Nat

/-- Its tap `j` for a DELAY_FRAC, in units of 2^−30. DESIGN CHOICE, log entry 111. -/
opaque Config.interpolatorTap (form k frac : Nat) (j : Int) : Int

/-- The filter's output, in units of 2^−40 converter code, where its span holds a change point or begins before the feed
start: for the output of a DDC with a given stamp tick. DESIGN CHOICE, log entry 111. -/
opaque Config.transient (ddc : Nat) (stamp : Int) : Int × Int

/-- A generated window coefficient that falls between two numbers of 18 bits takes the upper one: KIND 1 to 4 and
BETA_INDEX (R167). DESIGN CHOICE, log entry 112. -/
opaque Config.windowUp (kind beta points j : Nat) : Bool

/-- The same of coefficient `j` of the default prototype of `points` channels and `taps` taps (R173).
DESIGN CHOICE, log entry 112. -/
opaque Config.prototypeUp (points taps j : Nat) : Bool

/-- How stage `stage` of the transform of `points` points splits it (R166): the log2 of its radix less 1, taken modulo
what is left. The spec does not state the stages. DESIGN CHOICE, log entry 112. -/
opaque Config.stageRadix (points stage : Nat) : Nat

/-- By how many bits stage `stage` could grow a component (R169). DESIGN CHOICE, log entry 112. -/
opaque Config.stageGrowth (points stage : Nat) : Nat

/-- What the twiddle factors of stage `stage` add to its output `k`, in units of 2^−16 of a mantissa (R166), before the
bound of the model. DESIGN CHOICE, log entry 112. -/
opaque Config.stageError (points stage : Nat) (frame : List (Int × Int)) (k : Nat) : Int × Int

/-- What a frame divided by a window sum of 0 gives (R168), in units of 2^−48. DESIGN CHOICE, log entry 112. -/
opaque Config.zeroSum (frame : List (Int × Int)) (bin : Nat) : Int × Int

/-- Coherent gain and ENBW of the Kaiser window for a BETA_INDEX, as binary32 words (R167 gives none).
DESIGN CHOICE, log entry 33. -/
opaque Config.kaiser (index : Nat) : BitVec 32 × BitVec 32

end Sys2Proof
end

