-- ==== Sys2Proof/Machine/Mem.lean ====
section
/-! DEFINITION. Byte memories (Cellar, waveform memory, per-core data memory, mailbox areas): lists of
(address, byte) in one canonical form. An address that is not listed reads 0 (log entry 3). -/

namespace Sys2Proof.Machine

/-- A byte memory. -/
abbrev Memory := List Host.Cell

/-- What an unlisted address reads as. DESIGN CHOICE, log entry 3. -/
def Memory.blank : Byte := 0#8

/-- Addresses rise strictly from above `lo`, and no entry holds the unlisted value. -/
def Memory.wfFrom : Option Nat → Memory → Bool
  | _, [] => true
  | lo, (a, b) :: m =>
    (match lo with | none => true | some l => decide (l < a)) && b != Memory.blank &&
      Memory.wfFrom (some a) m

/-- The canonical form of a memory. -/
def Memory.wf (m : Memory) : Bool := Memory.wfFrom none m

/-- The byte at address `a`. DESIGN CHOICE, log entry 3. -/
def Memory.read : Memory → Nat → Byte
  | [], _ => Memory.blank
  | (x, b) :: m, a => if x = a then b else if a < x then Memory.blank else Memory.read m a

/-- The memory with byte `v` at address `a`. -/
def Memory.write : Memory → Nat → Byte → Memory
  | [], a, v => if v = Memory.blank then [] else [(a, v)]
  | (x, b) :: m, a, v =>
    if a < x then (if v = Memory.blank then (x, b) :: m else (a, v) :: (x, b) :: m)
    else if a = x then (if v = Memory.blank then m else (a, v) :: m)
    else (x, b) :: Memory.write m a v

/-- `n` bytes from address `a`. -/
def Memory.readBytes (m : Memory) (a : Nat) : Nat → List Byte
  | 0 => []
  | n + 1 => m.read a :: Memory.readBytes m (a + 1) n

/-- The memory with the listed bytes from address `a`. -/
def Memory.writeBytes (m : Memory) (a : Nat) : List Byte → Memory
  | [] => m
  | b :: bs => Memory.writeBytes (m.write a b) (a + 1) bs

/-- The memory with the bytes from `a` to before `a + n` back at the unlisted value. -/
def Memory.zero (m : Memory) (a n : Nat) : Memory :=
  m.filter fun c => decide (c.1 < a) || decide (a + n ≤ c.1)

end Sys2Proof.Machine
end

