-- ==== Sys2Proof/Machine/State.lean ====
section
/-! DEFINITION. The state of the module as plain data, and the state after reset. Counts, addresses and
stamps are natural numbers kept within their widths by the operations that write them. A map key that is
not listed stands for an object at its reset value. -/

namespace Sys2Proof.Machine

/-! ## Statuses (R66) -/

/-- The status codes of R66. -/
inductive Status where
  | ok | accepted | badOpcode | badLength | badParam | badState | notReady | noAllotment | noEnergy
  | denied | segmentActive | noResource | aborted | quiesced | xferError | xferErrorFinal | timeout
deriving DecidableEq, Repr

/-! ## Host link, mailboxes, rings (R24 to R51, R590, R593 to R595) -/

/-- One thing the module sends out: the model's own record of outputs, newest first in `State.out`.
DESIGN CHOICE, log entry 6. -/
inductive Out where
  /-- A write to host memory by one function; `noSnoop` is the attribute of R24 and R47. Relaxed Ordering is never
  set. -/
  | hostWrite (fn addr : Nat) (bytes : List Byte) (noSnoop : Bool)
  /-- A read of host memory by one function, with its attribute (R24, R47). -/
  | hostRead (fn addr length : Nat) (noSnoop : Bool)
  /-- An MSI-X message. -/
  | msix (fn vector : Nat)
  /-- The answer to a register, lock or aperture read. -/
  | readData (bytes : List Byte)
  /-- An Ethernet frame of a stream port. -/
  | ethFrame (port : Nat) (bytes : List Byte)
  /-- A downstream Trellis frame of a lane, with the header of the codeword whose next free slot carries it. -/
  | trellisTx (lane header : Nat) (frame : List Byte)
  /-- The PAM4 levels of a whole downstream codeword of a lane: a marker codeword or one of bulk data. -/
  | trellisLine (lane : Nat) (levels : List Nat)
  /-- A frame sent on VINE_SYNC_OUT as its cells of 10 ns, each high or low (0 EPOCH, 1 EVENT, 2 DELAY), or an echo
  pulse sent (3) or returned (4). -/
  | vineTx (kind : Nat) (cells : List Bool)
  /-- 14-bit codes played at a stimulus output with its ATTEN, from the tick of the first. -/
  | stimPlayed (output tick atten : Nat) (codes : List Int)
  /-- Data of a flow handed to its sink. -/
  | flowData (flow : Nat) (bytes : List Byte)
  /-- A Cellar read answered at a QoS port; `ok` is false where the requester is told of an error. -/
  | cellarRead (port addr : Nat) (ok : Bool) (bytes : List Byte)
  /-- A frame scanned out: its number and its lines of RGB pixels. -/
  | displayFrame (frame : Nat) (lines : List (List Nat))
  /-- A byte answered on the SMBus. -/
  | smbus (value : Nat)
deriving DecidableEq, Repr

/-- An event on its way to a ring (R44), before its phase bit is known. -/
structure EventRec where
  /-- Event code of R590. -/
  code : Nat := 0
  /-- SOURCE. -/
  source : Nat := 0
  /-- STAMP. -/
  stamp : Stamp := {}
  /-- PROVISIONAL_TIME. -/
  prov : Bool := false
  /-- DETAIL, 64 bits. -/
  detail : Nat := 0
deriving DecidableEq, Repr

/-- A completion on its way to a ring (R43). -/
structure ComplRec where
  /-- TAG. -/
  tag : Nat := 0
  /-- STATUS code. -/
  status : Nat := 0
  /-- CHANNEL. -/
  chan : Nat := 0
  /-- OPCODE. -/
  opcode : Nat := 0
  /-- RESULT word. -/
  result : Nat := 0
deriving DecidableEq, Repr

/-- One event or completion ring of a function (R38 to R42). -/
structure Ring where
  /-- ENABLED. -/
  enabled : Bool := false
  /-- PROD, 32 bits, free-running. -/
  prod : Nat := 0
  /-- CONS, 32 bits, free-running. -/
  cons : Nat := 0
  /-- OVERFLOW. -/
  overflow : Bool := false
  /-- LOST_COUNT, 32 bits, saturating. -/
  lost : Nat := 0
  /-- COAL_COUNT, 1 to 256. -/
  coalCount : Nat := 1
  /-- COAL_TIME, 0 to 1,000 µs. -/
  coalTime : Nat := 0
  /-- Ring base address. -/
  base : Nat := 0
  /-- Size as a power of two. -/
  sizeLog2 : Nat := 0
  /-- Address of the producer shadow. -/
  shadow : Nat := 0
  /-- MSI-X vector. -/
  vector : Nat := 0
  /-- Unsignalled entries (R41). -/
  unsignalled : Nat := 0
  /-- The tick from which COAL_TIME counts. -/
  since : Nat := 0
  /-- Events were lost and the next entry carries LOST_BEFORE. -/
  lostBefore : Bool := false
  /-- Events held inside the module while the ring cannot take them (R42), oldest first. -/
  held : List EventRec := []
deriving DecidableEq, Repr

/-- The snapshot of a channel's command area at a doorbell (R34), with what the host memory system
returns for the payload (R47, R53). -/
structure Snapshot where
  /-- The 64-byte header. -/
  header : List Byte := []
  /-- The 128-byte inline payload. -/
  payload : List Byte := []
  /-- The host-memory payload bytes. -/
  hostBytes : List Byte := []
deriving DecidableEq, Repr

/-- An accepted command in flight (R52, R56, R60). DESIGN CHOICE, log entry 19. -/
structure Cmd where
  /-- Function, 0 or 1. -/
  fn : Nat := 0
  /-- Channel. -/
  chan : Nat := 0
  /-- TAG. -/
  tag : Nat := 0
  /-- OPCODE. -/
  opcode : Nat := 0
  /-- The payload, inline or from host memory. -/
  payload : List Byte := []
  /-- RESULT_ADDRESS. -/
  resultAddr : Nat := 0
  /-- RESULT_LIMIT. -/
  resultLimit : Nat := 0
  /-- Place in the order of acceptance. -/
  seq : Nat := 0
  /-- The tick at which its deadline passes (R62, R63). -/
  deadline : Nat := 0
  /-- FENCE_CHANNEL. -/
  fenceChan : Bool := false
  /-- FENCE_FUNCTION. -/
  fenceFn : Bool := false
  /-- The command (by `seq`) that this one waits for under DEPEND. -/
  depend : Option Nat := none
  /-- The command named by DEPEND ended other than ST_OK or ST_QUIESCED. -/
  dependFailed : Bool := false
  /-- The command has started to change state; another step completes it. -/
  started : Bool := false
  /-- A value the command keeps between its start and its completion. -/
  aux : Nat := 0
  /-- Numbers the command was given when it started (R60), or that it still waits for. -/
  named : List Nat := []
  /-- The completion entry is discarded (R27). -/
  discard : Bool := false
deriving DecidableEq, Repr

/-- One mailbox channel (R32, R33). -/
structure Chan where
  /-- MB.HEADER and MB.PAYLOAD, bytes 0x00 to 0xBF; an unlisted byte reads 0. -/
  area : Memory := []
  /-- MB.ACK.STATUS. -/
  ackStatus : Nat := 0
  /-- MB.ACK.TAG. -/
  ackTag : Nat := 0
  /-- MB.ACK.VALID. -/
  valid : Bool := false
  /-- A doorbell has been accepted and VALID is not yet set for it (R33, R34). -/
  awaiting : Bool := false
  /-- MB.CHAN_STATE.OWNER: agent holding the lock, or 0. -/
  owner : Nat := 0
  /-- DOORBELL_LOST. -/
  doorbellLost : Bool := false
  /-- DOORBELL_NO_LOCK. -/
  doorbellNoLock : Bool := false
  /-- LOCK_BROKEN. -/
  lockBroken : Bool := false
  /-- MB.ACK_SEQ, 32 bits, wrapping. -/
  ackSeq : Nat := 0
  /-- A snapshot that the Steward has not yet checked (service pair asleep, or a takeover). -/
  snapshot : Option Snapshot := none
  /-- A checked SYS.HELLO or SYS.SET_EVENT_RING that has not yet been carried out (R56). -/
  atAck : Option Cmd := none
deriving DecidableEq, Repr

/-- The host-visible state of one physical function. -/
structure Func where
  /-- Session number, 0 where none has been created since the last reset (R59). -/
  session : Nat := 0
  /-- The function's previous session number. -/
  lastSession : Nat := 0
  /-- Mailbox channels. -/
  chans : KMap Chan := []
  /-- Event rings ER0 to ER15. -/
  ers : KMap Ring := []
  /-- Completion rings CR0 to CR15. -/
  crs : KMap Ring := []
  /-- Event routing: code to event ring; a code not listed goes to ER0 (R38). -/
  route : KMap Nat := []
  /-- Channel to completion ring; a channel not listed uses n mod 16 (R38). -/
  chanRing : KMap Nat := []
  /-- Completions waiting inside the module (R42), oldest first. -/
  held : List ComplRec := []
  /-- The function is in D3hot (R580). -/
  d3hot : Bool := false
  /-- The key of R77 is open. -/
  keyOpen : Bool := false
  /-- MSI-X table bytes, with the mask bit of each entry stored inverted: an unlisted entry reads as zeros with its
  vector masked. -/
  msixTable : Memory := []
  /-- Vectors whose message is pending behind their mask (the pending bit array of R28 and R29), oldest first. -/
  msixPending : List Nat := []
  /-- The 32-bit base address registers of configuration space by number, without their fixed bits (R25). -/
  bars : KMap Nat := []
  /-- The 32-bit words of configuration space that software has written, by offset, without their fixed bits (R24). -/
  cfg : KMap Nat := []
  /-- `TIME_LATCHED` of the function's window (R30, R31). -/
  timeLatched : Stamp := {}
deriving DecidableEq, Repr

/-- State of the PCIe link (R26, R45). -/
inductive LinkState where
  /-- Not trained. -/
  | down
  /-- In L0. -/
  | l0
  /-- In L2. -/
  | l2
deriving DecidableEq, Repr

/-- The host interface as a whole. -/
structure HostIf where
  /-- Physical functions 0 and 1. -/
  fns : KMap Func := []
  /-- The link. -/
  link : LinkState := .down
  /-- IDENT.LINK_STATUS[4:0]. -/
  linkWidth : Nat := 0
  /-- IDENT.LINK_STATUS[7:5]. -/
  linkSpeed : Nat := 0
  /-- IDENT.LINK_STATUS.NARROWED. -/
  narrowed : Bool := false
  /-- No width can train: the link stays down until the next reset (R26). -/
  untrainable : Bool := false
  /-- WAKE_N is asserted (driven low). -/
  wakeAsserted : Bool := false
  /-- PERST_N is asserted (low). -/
  perst : Bool := false
  /-- Accepted commands that have not completed, in acceptance order. -/
  cmds : List Cmd := []
  /-- The `seq` the next accepted command gets. -/
  nextSeq : Nat := 0
  /-- PCIe clocking selected at boot (R24, R67): 0 common, 1 SRNS, 2 SRIS. -/
  clocking : Nat := 0
deriving DecidableEq, Repr

/-! ## Fast control window (R75 to R87) -/

/-- A strobed occurrence of one group that is not yet applied (R83 to R86). -/
structure Occ where
  /-- The STROBE_SEQ value that numbers it. -/
  seq : Nat := 0
  /-- The snapshot: 32-bit words of the group's shadows by window offset; an unlisted word has its
  reset value. -/
  words : KMap Nat := []
  /-- Units of the group that have taken it. -/
  taken : List Nat := []
  /-- It was strobed while a configuring command was in flight, or replaces one that was (FCW.HELD, R22, R81). -/
  held : Bool := false
deriving DecidableEq, Repr

/-- The fast control window. -/
structure Fcw where
  /-- FCW.ENABLE. -/
  enable : Bool := true
  /-- FCW.STATUS.KEY_REFUSED. -/
  keyRefused : Bool := false
  /-- FCW.STATUS.RWP_DROPPED. -/
  rwpDropped : Bool := false
  /-- FCW.STATUS.RESYNC_BUSY. -/
  resyncBusy : Bool := false
  /-- Group mask last written to `FCW.RESYNC` (R81). -/
  resyncMask : Nat := 0
  /-- Shadows: 32-bit words by window offset from 0x2_0000; an unlisted word has its reset value. -/
  shadow : KMap Nat := []
  /-- STROBE_SEQ by group, 32 bits, wrapping. -/
  strobeSeq : KMap Nat := []
  /-- APPLIED_COUNT by group, 32 bits. -/
  applied : KMap Nat := []
  /-- Occurrences not yet applied, by group. -/
  occ : KMap Occ := []
deriving DecidableEq, Repr

/-! ## Time base and clock synthesis (R88 to R113) -/

/-- When a scheduled start happens: 0 at once, 1 at a tick, 2 at a Vine epoch. -/
structure Sched where
  /-- WHEN. -/
  mode : Nat := 0
  /-- AT. -/
  at_ : Nat := 0
deriving DecidableEq, Repr

/-- Lock state of a synthesiser (R107). -/
inductive SynthState where
  | muted | searching | locked | coasting
deriving DecidableEq, Repr

/-- A ramp segment (R110). -/
structure RampSeg where
  /-- START, mHz. -/
  start : Nat := 0
  /-- SLOPE, mHz per µs. -/
  slope : Int := 0
  /-- DURATION, ns. -/
  dur : Nat := 0
deriving DecidableEq, Repr

/-- A profile bank of a ramp generator (R103, R110). -/
structure RampBank where
  /-- Segments 0 to 255. -/
  segs : KMap RampSeg := []
  /-- LENGTH; 0 where nothing has been loaded. -/
  length : Nat := 0
  /-- REPEAT. -/
  rep : Nat := 0
deriving DecidableEq, Repr

/-- State of a ramp generator (R107). -/
inductive RampState where
  | idle | armed | running | done | stopped
deriving DecidableEq, Repr

/-- An output synthesiser with its ramp generator: 0 vector clock, 1 CLK_OUT0, 2 CLK_OUT1 (R102, R103). -/
structure ClockGen where
  /-- Lock state. -/
  synth : SynthState := .muted
  /-- The band search has ended and the loop settles (R99). -/
  settling : Bool := false
  /-- Locked, and held muted until every VC_ZERO is acknowledged (R328). -/
  zeroing : Bool := false
  /-- It has not reacquired in 10 ms and stays coasting (R100). -/
  stuck : Bool := false
  /-- Enabled. -/
  enabled : Bool := false
  /-- The tick at which the last completed profile ended (R112). -/
  endedAt : Option Nat := none
  /-- Frequency set or reached, mHz. -/
  freq : Nat := 0
  /-- The frequency at which the idle core is locking (R102). -/
  nextFreq : Option Nat := none
  /-- LEVEL (R109); for the vector clock CLKV_MASK (R113). -/
  level : Nat := 0
  /-- Profile banks 0 and 1. -/
  banks : KMap RampBank := []
  /-- RAMP_STATE. -/
  ramp : RampState := .idle
  /-- The bank of the ramp. -/
  bank : Nat := 0
  /-- Segment playing. -/
  seg : Nat := 0
  /-- Repetitions completed. -/
  reps : Nat := 0
  /-- The tick at which the segment began. -/
  segStart : Nat := 0
  /-- The scheduled start. -/
  sched : Sched := {}
  /-- The frequency before START_RAMP (R112). -/
  freqBefore : Nat := 0
deriving DecidableEq, Repr

/-- State of the discipline loop (R107). -/
inductive TbState where
  | free | acquiring | locked | holdover
deriving DecidableEq, Repr

/-- Time base and clock synthesis. DESIGN CHOICE, log entry 26. -/
structure Clock where
  /-- The active oscillator: 0 A, 1 B (R88). -/
  activeOsc : Nat := 0
  /-- Oscillators that have failed or been retired. -/
  oscDead : List Nat := []
  /-- Oscillators that have stopped: those of a hard fault (R89). -/
  oscStopped : List Nat := []
  /-- The tick at which WARM was set; none before (R91). -/
  warmAt : Option Nat := none
  /-- Loop control word of path A, while the loop holds it (R88, R92). -/
  wordA : Nat := 0
  /-- Loop control word of path B, while the loop holds it (R88, R92). -/
  wordB : Nat := 0
  /-- The loop integrator, while the loop holds it (R92). -/
  integrator : Nat := 0
  /-- OSC_DISAGREE (R90). -/
  oscDisagree : Bool := false
  /-- MODE of R92. -/
  mode : Nat := 0
  /-- BANDWIDTH code. -/
  bandwidth : Nat := 0
  /-- REF_FREQ. -/
  refFreq : Nat := 0
  /-- PPS_EDGE. -/
  ppsEdge : Nat := 0
  /-- PPS_DELAY, signed, 1/65,536 tick. -/
  ppsDelay : Int := 0
  /-- Qualification time in ms. -/
  qualMs : Nat := 1000
  /-- TB_STATE. -/
  tb : TbState := .free
  /-- The control words are frozen (R94). -/
  frozen : Bool := false
  /-- REF_DETECTED. -/
  refDetected : Nat := 0
  /-- REF_IN is qualified. -/
  refQual : Bool := false
  /-- PPS_IN is qualified. -/
  ppsQual : Bool := false
  /-- PPS_MISMATCH. -/
  ppsMismatch : Bool := false
  /-- Consecutive PPS_IN edges 1 s apart (R93). -/
  ppsRun : Nat := 0
  /-- PPS_COUNT, 32 bits, wrapping. -/
  ppsCount : Nat := 0
  /-- The last 16 edges as (PPS_COUNT, stamp), newest first (R96). -/
  ppsStamps : List (Nat × Stamp) := []
  /-- PPS_PHASE, signed, 1/65,536 tick. -/
  ppsPhase : Int := 0
  /-- The held phase, in 1/65,536 tick (R97). -/
  heldPhase : Option Nat := none
  /-- The tick at which the present holdover began. -/
  holdSince : Nat := 0
  /-- The TAI binding (T, S) (R97). -/
  binding : Option (Nat × Nat) := none
  /-- PPS_OUT is enabled. -/
  ppsOutOn : Bool := false
  /-- PPS_OUT is high. -/
  ppsOutHigh : Bool := false
  /-- Sample synthesiser A. -/
  sampleA : SynthState := .muted
  /-- Sample synthesiser B. -/
  sampleB : SynthState := .muted
  /-- Sample synthesisers whose band search has ended: 0 A, 1 B (R99). -/
  sampleSettling : List Nat := []
  /-- The primary sample synthesiser: 0 A, 1 B. -/
  primary : Nat := 0
  /-- The converters have stopped for want of a sample clock (R513 class 14). -/
  convertersStopped : Bool := false
  /-- Output synthesisers 0 to 2. -/
  gens : KMap ClockGen := []
deriving DecidableEq, Repr

/-! ## RF inputs and down-converters (R116 to R156) -/

/-- Role of a converter slice (R132). -/
inductive SliceRole where
  | active | calSpare | coldSpare | trimming | handover | retired
deriving DecidableEq, Repr

/-- A converter slice. -/
structure Slice where
  /-- Role. -/
  role : SliceRole := .active
  /-- Position, where it holds or enters one. -/
  pos : Nat := 0
  /-- Handovers to it in a row that missed the limits (R122). -/
  missed : Nat := 0
deriving DecidableEq, Repr

/-- State of an input (R132). -/
inductive InputMode where
  | powerUpCal | disabled | enabling | running | quiescing
deriving DecidableEq, Repr

/-- A run of consecutive OVR samples (R126 to R128). -/
structure OvrRun where
  /-- The tick of its first sample. -/
  start : Nat := 0
  /-- The tick after its last sample; none while protection holds OVR on every sample. -/
  stop : Option Nat := none
  /-- The tick up to which its samples have been counted. -/
  counted : Nat := 0
  /-- The ticks at which a sample takes another sign than the one before, with that sign, the first sample's in front:
  true is positive. -/
  signs : List (Nat × Bool) := []
  /-- The tick from which protection is engaged, if it is. -/
  protectFrom : Option Nat := none
deriving DecidableEq, Repr

/-- One RF input (R116 to R135). -/
structure RfInput where
  /-- STATE. -/
  mode : InputMode := .powerUpCal
  /-- RANGE in use or stored. -/
  range : Nat := 0
  /-- A range change that has not happened yet: RANGE and time. -/
  pending : Option (Nat × Sched) := none
  /-- The tick from which samples are settled again. -/
  settledFrom : Nat := 0
  /-- Intervals of unsettled samples since the enable, first tick and tick after the last (R117, R123). -/
  loose : List (Nat × Nat) := []
  /-- The tick from which some position has no slice, so that every sample is unsettled (R513). -/
  lostAt : Option Nat := none
  /-- Runs of OVR samples since the enable that are over, first tick and tick after the last (R126). -/
  marks : List (Nat × Nat) := []
  /-- The run of OVR samples that goes on. -/
  run : Option OvrRun := none
  /-- Slices 0 to 33 that differ from power-up (slice k at position k, 32 calibration spare, 33 cold spare). -/
  slices : KMap Slice := []
  /-- CAL_STEP. -/
  calStep : Nat := 0
  /-- ROTATIONS, 32 bits, wrapping. -/
  rotations : Nat := 0
  /-- LAST_ROTATION. -/
  lastRotation : Stamp := {}
  /-- ROTATION_PAUSED. -/
  paused : Bool := false
  /-- CAL_FROZEN for want of a spare (R124). -/
  frozen : Bool := false
  /-- OVR_SAMPLES, 64 bits, saturating. -/
  ovrSamples : Nat := 0
  /-- PROTECT_COUNT, 32 bits, saturating. -/
  protectCount : Nat := 0
  /-- LAST_OVR. -/
  lastOvr : Stamp := {}
  /-- The overrange interval that is open: the tick at which it opened (R128). -/
  ovrOpen : Option Nat := none
  /-- OVR samples counted in it. -/
  ovrCount : Nat := 0
  /-- Clamp and protection flags seen in it: [0] positive, [1] negative, [2] protection. -/
  ovrFlags : Nat := 0
  /-- Protection is engaged (R127). -/
  protection : Bool := false
  /-- FIRST_SAMPLE. -/
  firstSample : Nat := 0
  /-- Slices that failed while the input was off or found no spare ready, with the tick of the fault
  (R129, R522); an enable waits for the spare of those. -/
  waiting : List (Nat × Nat) := []
deriving DecidableEq, Repr

/-- The settings of a DDC that were in force up to a reference-plane tick (R140, R143, R144, R151). -/
structure DdcEra where
  /-- The tick up to which they were in force. -/
  upto : Nat := 0
  /-- SOURCE. -/
  source : Nat := 0
  /-- GAIN_SHIFT. -/
  gain : Nat := 0
  /-- NCO_MODE. -/
  ncoMode : Nat := 0
  /-- F. -/
  freq : Nat := 0
  /-- P. -/
  phase : Nat := 0
  /-- TONE_FREQ. -/
  tone : Nat := 0
  /-- Phase of the accumulator at `accTick`. -/
  acc : Nat := 0
  /-- The tick to which `acc` belongs. -/
  accTick : Nat := 0
  /-- DELAY_INT. -/
  delayInt : Int := 0
  /-- DELAY_FRAC. -/
  delayFrac : Nat := 0
  /-- No unit covered the DDC (R513). -/
  dead : Bool := false
deriving DecidableEq, Repr

/-- One logical DDC (R137 to R156). DEDUCED, log entry 30. -/
structure Ddc where
  /-- `DDC.CONFIGURE` has completed since the last reset (R252). -/
  configured : Bool := false
  /-- Enabled. -/
  running : Bool := false
  /-- Grid origin of an enable that has not been reached. -/
  starting : Option Nat := none
  /-- SOURCE. -/
  source : Nat := 0
  /-- FORMAT. -/
  format : Nat := 0
  /-- DECIM_FORM. -/
  form : Nat := 0
  /-- DECIM_K. -/
  k : Nat := 1
  /-- GAIN_SHIFT. -/
  gain : Nat := 0
  /-- NCO_MODE. -/
  ncoMode : Nat := 0
  /-- F, 48 bits. -/
  freq : Nat := 0
  /-- P, 32 bits. -/
  phase : Nat := 0
  /-- TONE_FREQ, 48 bits. -/
  tone : Nat := 0
  /-- Phase of the accumulator at `accTick`, 48 bits (R140). -/
  acc : Nat := 0
  /-- The tick to which `acc` belongs. -/
  accTick : Nat := 0
  /-- DELAY_INT. -/
  delayInt : Int := 0
  /-- DELAY_FRAC. -/
  delayFrac : Nat := 0
  /-- A delay that has not been applied: DELAY_INT, DELAY_FRAC, time. -/
  delayNext : Option (Int × Nat × Sched) := none
  /-- GRID_ORIGIN. -/
  origin : Nat := 0
  /-- An unsettled run is open (R147). -/
  unsettled : Bool := false
  /-- The reference-plane tick from which spans are clean. -/
  cleanFrom : Nat := 0
  /-- Change points since the enable, as reference-plane ticks, latest first (R144). -/
  points : List Nat := []
  /-- The settings before each change since the enable, latest first. -/
  eras : List DdcEra := []
  /-- Latest cause of the run (R156). -/
  cause : Nat := 0
  /-- SAT_SAMPLES, 64 bits, saturating. -/
  sat : Nat := 0
  /-- OVR_SEEN_COUNT, 64 bits, saturating. -/
  ovrSeen : Nat := 0
  /-- Index of the first output whose OVR_SEEN has not been counted yet. -/
  ovrUpTo : Nat := 0
  /-- Index of the first output whose clamps have not been counted yet. -/
  satUpTo : Nat := 0
  /-- Tick at which the last clamped output that is known of was produced (R142, R155). -/
  satAt : Option Nat := none
  /-- Physical unit of its input, where it is not the unit of power-up. -/
  unit : Option Nat := none
  /-- Its unit has failed and nothing covers it: zeros with UNSETTLED (R513). -/
  dead : Bool := false
  /-- Its unit has been borrowed (R520). -/
  lent : Bool := false
deriving DecidableEq, Repr

/-! ## Press (R158 to R184) -/

/-- State of a transform job. -/
inductive JobMode where
  | configured | starting | running | quiescing
deriving DecidableEq, Repr

/-- The tag of a frame (R165). -/
structure FrameTag where
  /-- Job. -/
  job : Nat := 0
  /-- Frame index. -/
  index : Nat := 0
  /-- Stamp tick. -/
  tick : Nat := 0
  /-- Block exponent. -/
  exponent : Int := 0
  /-- OVR_SEEN. -/
  ovr : Bool := false
  /-- UNSETTLED. -/
  unsettled : Bool := false
  /-- WINDOW_BANK. -/
  bank : Nat := 0
  /-- Bins delivered. -/
  bins : Nat := 0
deriving DecidableEq, Repr

/-- A frame as its consumers take it: its tag and the delivered values (R165, R170). -/
structure PressFrame where
  /-- Tag. -/
  tag : FrameTag := {}
  /-- Delivered values in the job's format. -/
  values : List Byte := []
deriving DecidableEq, Repr

/-- One element of a stream as a consumer takes it (R146, R236). -/
structure Element where
  /-- Stamp. -/
  stamp : Stamp := {}
  /-- Its bytes. -/
  bytes : List Byte := []
  /-- It carries OVR, OVR_SEEN or a flag of that meaning. -/
  ovr : Bool := false
  /-- It is unsettled. -/
  unsettled : Bool := false
deriving DecidableEq, Repr

/-- A window bank of an input (R167). -/
structure WindowBank where
  /-- KIND. -/
  kind : Nat := 1
  /-- BETA_INDEX. -/
  beta : Nat := 0
  /-- LENGTH_LOG2 of a user table. -/
  lengthLog2 : Nat := 0
  /-- The user table, 18-bit coefficients. -/
  table : List Int := []
deriving DecidableEq, Repr

/-- The window of a job from one frame on (R167, R178). -/
structure WindowFrom where
  /-- Index of the first frame. -/
  frame : Nat := 0
  /-- Bank number. -/
  bank : Nat := 0
  /-- What the bank holds. -/
  window : WindowBank := {}
deriving DecidableEq, Repr

/-- A transform job (R160, R179). -/
structure PressJob where
  /-- STATE. -/
  mode : JobMode := .configured
  /-- MODE: 0 FFT, 1 PFB. -/
  kind : Nat := 0
  /-- SOURCE_KIND. -/
  srcKind : Nat := 0
  /-- SOURCE. -/
  source : Nat := 0
  /-- SIZE_LOG2. -/
  size : Nat := 8
  /-- OVERLAP. -/
  overlap : Nat := 0
  /-- TAPS. -/
  taps : Nat := 0
  /-- FORMAT. -/
  format : Nat := 0
  /-- BIN_ORDER. -/
  order : Nat := 0
  /-- HALF. -/
  half : Nat := 0
  /-- Pipelines that carry the job, in order. -/
  pipes : List Nat := []
  /-- Pipelines among them that have failed with nothing to cover them. -/
  deadPipes : List Nat := []
  /-- G. -/
  origin : Nat := 0
  /-- FRAME_INDEX: index of the next frame to be released. -/
  frame : Nat := 0
  /-- OVR_SEEN_FRAMES, 32 bits, saturating. -/
  ovrFrames : Nat := 0
  /-- UNSETTLED_FRAMES, 32 bits, saturating. -/
  unsettledFrames : Nat := 0
  /-- A prototype filter that was loaded, as binary32 words; none for the default (R173). -/
  proto : Option (List Nat) := none
  /-- Channel-to-flow map: bin to flow (R174). -/
  map : KMap Nat := []
  /-- The tag of the last frame released. -/
  tag : FrameTag := {}
  /-- The windows of its frames, the newest first (R178). -/
  windows : List WindowFrom := []
  /-- Frames released that SPEC has not accepted, oldest first (R186). -/
  queue : List PressFrame := []
  /-- A disable runs: frames from this index on do not start (R177, R184). -/
  stopAt : Option Nat := none
deriving DecidableEq, Repr

/-- The transform engine. -/
structure Press where
  /-- Configured jobs. -/
  jobs : KMap PressJob := []
  /-- Window banks by input × 2 + bank. -/
  banks : KMap WindowBank := []
  /-- Live window select by input. -/
  select : KMap Nat := []
  /-- The spare pipeline; none where none remains. -/
  spare : Option Nat := none
  /-- The spare of the last power-up, in non-volatile memory (R159). -/
  lastSpare : Nat := 0
deriving DecidableEq, Repr

/-- A Cellar region (R420, R429), keyed by its base. -/
structure Region where
  /-- BYTES. -/
  bytes : Nat := 0
  /-- Flags: [0] open to the aperture, [1] aperture read-only. -/
  flags : Nat := 0
  /-- LABEL. -/
  label : Nat := 0
  /-- It is being zeroed for an allocation that has not completed (R429). -/
  zeroing : Bool := false
  /-- A CELLAR.FREE of it runs R73: accesses already issued complete, and no new one is taken (R73, R430). -/
  freeing : Bool := false
deriving DecidableEq, Repr

/-! ## Spectral detection and density (R186 to R211) -/

/-- The completed buffer of a trace unit (R189, R207). -/
structure TraceResult where
  /-- SEQ. -/
  seq : Nat := 0
  /-- FORMAT: 0 F32, 1 L16, 2 U32. -/
  format : Nat := 0
  /-- F32, L16 or U32 words, one for each point. -/
  points : List Nat := []
  /-- Stamp of the first spectrum. -/
  first : Nat := 0
  /-- Stamp of the last spectrum. -/
  last : Nat := 0
  /-- OVR_SEEN. -/
  ovr : Bool := false
  /-- UNSETTLED. -/
  unsettled : Bool := false
  /-- PROVISIONAL_TIME. -/
  prov : Bool := false
  /-- EXCLUDED. -/
  excluded : Nat := 0
deriving DecidableEq, Repr

/-- A peak list (R192). -/
structure PeakList where
  /-- SEQ of its trace result. -/
  seq : Nat := 0
  /-- Its entries are counts, of a COUNT trace, and not levels. -/
  counts : Bool := false
  /-- OVR_SEEN. -/
  ovr : Bool := false
  /-- UNSETTLED. -/
  unsettled : Bool := false
  /-- Bin index and level or count, in order. -/
  peaks : List (Nat × Int) := []
deriving DecidableEq, Repr

/-- A trace unit (R188, R191, R204). -/
structure Trace where
  /-- It has been configured. -/
  configured : Bool := false
  /-- JOB. -/
  job : Nat := 0
  /-- DETECTOR. -/
  detector : Nat := 0
  /-- MODE: 0 ONCE, 1 REPEAT. -/
  mode : Nat := 0
  /-- OUTPUT: 0 F32, 1 L16. -/
  output : Nat := 0
  /-- EXCLUDE_FLAGGED. -/
  exclude : Bool := false
  /-- FIRST_BIN. -/
  firstBin : Nat := 0
  /-- BIN_COUNT. -/
  bins : Nat := 1
  /-- INTEGRATION. -/
  integration : Nat := 1
  /-- COUNT_LEVEL. -/
  countLevel : Int := 0
  /-- FLOW. -/
  flow : Option Nat := none
  /-- Enabled. -/
  enabled : Bool := false
  /-- It waits for its first spectrum, stamped at or after this tick. -/
  starting : Option Nat := none
  /-- Stamp of the first accepted spectrum since enable. -/
  started : Nat := 0
  /-- A ONCE trace has finished. -/
  ended : Bool := false
  /-- SEQ: completed integrations since enable. -/
  seq : Nat := 0
  /-- Spectra accepted in this integration. -/
  n : Nat := 0
  /-- Per-point accumulation: binary32, binary64 sum or count, by DETECTOR. -/
  acc : List Nat := []
  /-- The integration so far. -/
  cur : TraceResult := {}
  /-- The completed buffer. -/
  result : Option TraceResult := none
  /-- Peak search is enabled. -/
  peakOn : Bool := false
  /-- MAX_PEAKS. -/
  maxPeaks : Nat := 1
  /-- THRESHOLD, 32 bits. -/
  threshold : Nat := 0
  /-- EXCURSION. -/
  excursion : Nat := 0
  /-- The latest peak list. -/
  peaks : PeakList := {}
deriving DecidableEq, Repr

/-- A density plane (R193 to R200, R205). -/
structure Plane where
  /-- It has been configured. -/
  configured : Bool := false
  /-- PARTITIONS code: 0 one plane, 1 two, 2 four. -/
  parts : Nat := 0
  /-- JOB. -/
  job : Nat := 0
  /-- EXCLUDE_FLAGGED. -/
  exclude : Bool := false
  /-- CLAMP_HIGH. -/
  clampHigh : Bool := false
  /-- CLAMP_LOW. -/
  clampLow : Bool := false
  /-- TOP_LEVEL. -/
  top : Int := 0
  /-- ROW_STEP. -/
  step : Nat := 1
  /-- FIRST_BIN. -/
  firstBin : Nat := 0
  /-- BIN_COUNT. -/
  bins : Nat := 1
  /-- SPECTRUM_DECIM. -/
  decim : Nat := 1
  /-- DECAY_PERIOD, µs. -/
  decayUs : Nat := 0
  /-- DECAY_SHIFT. -/
  decayShift : Nat := 1
  /-- Enabled. -/
  enabled : Bool := false
  /-- It waits for its first spectrum, stamped at or after this tick. -/
  starting : Option Nat := none
  /-- Cells by row × 4,096 + column within the plane; a cell not listed is 0. -/
  cells : KMap Nat := []
  /-- O: stamp of the first accepted spectrum, where there is one. -/
  origin : Option Nat := none
  /-- Spectra accepted, before decimation. -/
  seen : Nat := 0
  /-- Decay boundaries passed. -/
  decays : Nat := 0
  /-- Last decay boundary applied. -/
  lastDecay : Nat := 0
  /-- Live FREEZE bit. -/
  freeze : Bool := false
  /-- A clear waits for the first spectrum that starts after this tick. -/
  clearAfter : Option Nat := none
  /-- The clear point of the last clear. -/
  clearPoint : Nat := 0
  /-- Spectra accumulated since enable or clear. -/
  seq : Nat := 0
  /-- ABOVE. -/
  above : Nat := 0
  /-- BELOW. -/
  below : Nat := 0
  /-- FROZEN_SPECTRA. -/
  frozen : Nat := 0
  /-- SAT_INCREMENTS. -/
  satInc : Nat := 0
  /-- OVR_SEEN in any spectrum used. -/
  ovr : Bool := false
  /-- UNSETTLED in any spectrum used. -/
  unsettled : Bool := false
deriving DecidableEq, Repr

/-- SPEC. -/
structure SpecState where
  /-- Trace units 0 to 63. -/
  traces : KMap Trace := []
  /-- Density planes 0 to 3. -/
  planes : KMap Plane := []
deriving DecidableEq, Repr

/-! ## Trigger engine (R212 to R235) -/

/-- State of a trigger unit (R212, R233). -/
inductive TrigMode where
  | unconfigured | configured | armed | holdoff | done | quiescing
deriving DecidableEq, Repr

/-- A counted crossing or another start of a condition: its stamp in 1/65,536 tick, and its flags (R215). -/
structure TrigCond where
  /-- Stamp, 1/65,536 tick. -/
  at_ : Nat := 0
  /-- OVR_SEEN. -/
  ovr : Bool := false
  /-- UNSETTLED. -/
  unsettled : Bool := false
  /-- Lowest violating bin of a FREQ_MASK decision (R216). -/
  bin : Nat := 0
deriving DecidableEq, Repr

/-- Hysteresis state of one level (R214). -/
structure LevelState where
  /-- A rising crossing would count. -/
  up : Bool := false
  /-- A falling crossing would count. -/
  down : Bool := false
  /-- A rising crossing has been counted since ARM. -/
  rose : Bool := false
  /-- A falling crossing has been counted since ARM. -/
  fell : Bool := false
deriving DecidableEq, Repr

/-- Detection state of a unit (R213 to R216). -/
structure Detector where
  /-- The last value taken into account. -/
  prev : Option Sample := none
  /-- State of LEVEL_A, or of the one level of a kind that has one. -/
  a : LevelState := {}
  /-- State of LEVEL_B. -/
  b : LevelState := {}
  /-- The crossing that started a transition or pulse. -/
  start : Option TrigCond := none
  /-- The last frame was violating (R216). -/
  violating : Bool := false
deriving DecidableEq, Repr

/-- Targets of a unit's decisions (R225, R230). -/
structure Route where
  /-- TRIG_OUT. -/
  out : Bool := false
  /-- VINE. -/
  vine : Option Nat := none
  /-- STIM_MASK. -/
  stim : Nat := 0
  /-- COMPARATOR_MASK. -/
  comps : Nat := 0
  /-- SITE_MASK. -/
  sites : Nat := 0
deriving DecidableEq, Repr

/-- A trigger unit. -/
structure TrigUnit where
  /-- STATE. -/
  mode : TrigMode := .unconfigured
  /-- KIND. -/
  kind : Nat := 0
  /-- SOURCE. -/
  source : Nat := 0
  /-- SOURCE2. -/
  source2 : Nat := 0
  /-- EDGE. -/
  edge : Nat := 0
  /-- HOLDOFF_COMPAT. -/
  compat : Bool := false
  /-- HOLDOFF_BY_COUNT. -/
  byCount : Bool := false
  /-- EXCLUDE_FLAGGED. -/
  exclude : Bool := false
  /-- QUALIFY_OUTSIDE. -/
  outside : Bool := false
  /-- TIME_MIN. -/
  timeMin : Nat := 0
  /-- TIME_MAX. -/
  timeMax : Nat := 0
  /-- COUNT. -/
  count : Nat := 1
  /-- HOLDOFF. -/
  holdoff : Nat := 0
  /-- BAND_FIRST. -/
  bandFirst : Nat := 0
  /-- BAND_COUNT. -/
  bandCount : Nat := 1
  /-- MASK_MIN_BINS. -/
  minBins : Nat := 1
  /-- Live LEVEL_A, clamped as R213 states. -/
  levelA : Int := 0
  /-- Live LEVEL_B. -/
  levelB : Int := 0
  /-- Live HYSTERESIS. -/
  hyst : Nat := 0
  /-- Live BAND_THRESHOLD. -/
  threshold : Int := 0
  /-- Live BANK. -/
  bank : Nat := 0
  /-- MODE of the arm: 0 CONTINUOUS, 1 SINGLE, 2 COUNTED. -/
  armMode : Nat := 0
  /-- DECISIONS asked for in COUNTED mode. -/
  target : Nat := 0
  /-- EVENTS. -/
  events : Bool := false
  /-- A scheduled arm (R231): MODE, DECISIONS, EVENTS and time. -/
  sched : Option (Nat × Nat × Bool × Sched) := none
  /-- The tick at which it was armed. -/
  armedAt : Nat := 0
  /-- The tick of the decision whose re-arm has not happened yet (R220, R222). -/
  dead : Option Nat := none
  /-- Conditions satisfied in this hold-off. -/
  heldOff : Nat := 0
  /-- COUNT_PROGRESS. -/
  progress : Nat := 0
  /-- DECISIONS since arm. -/
  decisions : Nat := 0
  /-- MISSED. -/
  missed : Nat := 0
  /-- DEAD_TICKS. -/
  deadTicks : Nat := 0
  /-- The last decision: stamp and flags. -/
  last : TrigCond := {}
  /-- Place of the last decision in the order of all decisions; 0 where there is none. -/
  serial : Nat := 0
  /-- Pending decision of A (R218). -/
  pendingA : Option TrigCond := none
  /-- The last decision of B that has not satisfied the sequence (R218). -/
  lastB : Option TrigCond := none
  /-- The sequence has not been tried with it yet: an A with an equal stamp still comes first. -/
  openB : Bool := false
  /-- Detection state. -/
  det : Detector := {}
  /-- Targets in force. -/
  route : Route := {}
  /-- Targets that come into force at the re-arm (R230). -/
  nextRoute : Option Route := none
  /-- Frames of its job that it has not looked at, oldest first (R213, R216). -/
  frames : List PressFrame := []
  /-- The event interval that is open: the tick at which it opened (R234). -/
  evOpen : Option Nat := none
  /-- Decisions counted in it. -/
  evCount : Nat := 0
  /-- Flags of those decisions: OVR_SEEN 1, UNSETTLED 2, FORCED 4. -/
  evFlags : Nat := 0
  /-- Lowest violating bin of the last of them. -/
  evBin : Nat := 0
deriving DecidableEq, Repr

/-- TRIG. -/
structure TrigState where
  /-- Units 0 to 63. -/
  units : KMap TrigUnit := []
  /-- Mask points (UPPER, LOWER) by unit × 2 + bank (R217). -/
  masks : KMap (List (Int × Int)) := []
  /-- Decisions made so far in all units. -/
  serial : Nat := 0
  /-- VOTERS. -/
  voters : Nat := 7
  /-- VOTE_SPLIT. -/
  split : Bool := false
  /-- VOTING_ENDED. -/
  ended : Bool := false
  /-- TRIG_OUT is active low. -/
  outLow : Bool := false
  /-- PULSE_NS. -/
  pulseNs : Nat := 100
  /-- The tick at which the TRIG_OUT pulse ends, while one is active. -/
  pulse : Option Nat := none
  /-- Units that drive the pulse. -/
  drivers : List Nat := []
  /-- Jump requests on their way: target (site 0 to 255, STIM output 256 or 257) and unit, oldest first. -/
  jumps : List (Nat × Nat) := []
  /-- Forces of Sorrel kernels not yet made, as units (R275). -/
  kernelForces : List Nat := []
deriving DecidableEq, Repr

/-! ## Acquisition (R236 to R258) -/

/-- State of a context (R238). -/
inductive CtxMode where
  | created | filling | armed | capturing | held | done | maskStopped | quiescing
deriving DecidableEq, Repr

/-- A test mask (R247, R255). -/
structure TestMask where
  /-- KIND: 1 ENVELOPE, 2 SPECTRAL. -/
  kind : Nat := 1
  /-- FIRST. -/
  first : Nat := 0
  /-- (UPPER, LOWER) points. -/
  points : List (Int × Int) := []
deriving DecidableEq, Repr

/-- A gap entry (R246). -/
structure GapEntry where
  /-- SEGMENT_INDEX. -/
  segment : Nat := 0
  /-- START_TICK. -/
  start : Nat := 0
  /-- LENGTH_TICKS. -/
  ticks : Nat := 0
  /-- FIRST_ELEMENT. -/
  first : Nat := 0
  /-- CAUSE. -/
  cause : Nat := 0
  /-- Elements that were not stored. -/
  elements : Nat := 0
  /-- Its place in the Cellar gap list, where it has one. -/
  slot : Option Nat := none
deriving DecidableEq, Repr

/-- An acquisition context. -/
structure Ctx where
  /-- STATE. -/
  mode : CtxMode := .created
  /-- SOURCE_KIND. -/
  srcKind : Nat := 0
  /-- SOURCE. -/
  source : Nat := 0
  /-- START_MODE. -/
  start : Nat := 0
  /-- FLOW, for DEST 1. -/
  flow : Option Nat := none
  /-- WRAP. -/
  wrap : Bool := false
  /-- STOP_ON_VIOLATION. -/
  stopOnViolation : Bool := false
  /-- TRIGGER_MASK. -/
  mask : Nat := 0
  /-- LENGTH. -/
  length : Nat := 64
  /-- PRE. -/
  pre : Nat := 0
  /-- SEGMENTS. -/
  segments : Nat := 1
  /-- REGION_OFFSET. -/
  region : Nat := 0
  /-- REGION_BYTES. -/
  regionBytes : Nat := 0
  /-- GAP_CAPACITY. -/
  gapCapacity : Nat := 0
  /-- ALLOT_PERCENT, 1 to 100. -/
  percent : Nat := 100
  /-- EVENTS. -/
  events : Bool := false
  /-- E. -/
  element : Nat := 2
  /-- The source's value format code (R243 FORMAT [7:4]). -/
  format : Nat := 0
  /-- Live HOLD bit. -/
  hold : Bool := false
  /-- The pre-trigger ring has been filled. -/
  ringFull : Bool := false
  /-- The tick from which the pre-trigger ring fills. -/
  fillFrom : Nat := 0
  /-- The tick from which a segment that no decision starts takes elements (R239). -/
  begun : Nat := 0
  /-- Elements of a source without a fixed grid that have reached the context, oldest first (R236, R241). -/
  recent : List Element := []
  /-- Elements that went before those, in this record. -/
  dropped : Nat := 0
  /-- Runs of elements that could not be stored, in order; FIRST_ELEMENT is the place in the stream (R246). -/
  ringGaps : List GapEntry := []
  /-- A scheduled start of the record. -/
  sched : Option Sched := none
  /-- The tick at which it was armed. -/
  armedAt : Nat := 0
  /-- A decision that has not yet started its segment: unit, decision, FORCED. -/
  pending : Option (Nat × TrigCond × Bool) := none
  /-- The decision of the segment in capture. -/
  trigger : Option (Nat × TrigCond × Bool) := none
  /-- WARM was clear at the trigger stamp. -/
  prov : Bool := false
  /-- The segment has ended and the context re-arms. -/
  rearming : Bool := false
  /-- The re-arm follows a gate hold. -/
  wasHeld : Bool := false
  /-- The end of the previous segment, where there is one in this record. -/
  prevEnd : Option Stamp := none
  /-- The place in the stream after its last element. -/
  prevNext : Option Nat := none
  /-- DEAD_TICKS of the next segment. -/
  dead : Nat := 0
  /-- SEGMENT_INDEX of the next segment: segments completed in this record. -/
  index : Nat := 0
  /-- A stop with TRUNCATE runs: the place of the segment's element 0 and how many elements it reached. -/
  cut : Option (Nat × Nat) := none
  /-- The tick from which a quiescing flow context waits for its staging to drain (R250). -/
  drainSince : Option Nat := none
  /-- Gaps of the segment in capture, in order. -/
  gaps : List GapEntry := []
  /-- Entries in the Cellar gap list. -/
  listed : Nat := 0
  /-- The gap list has overflowed in this segment. -/
  listFull : Bool := false
  /-- MISSED. -/
  missed : Nat := 0
  /-- DEAD_TICKS sum. -/
  deadSum : Nat := 0
  /-- GAPS. -/
  gapCount : Nat := 0
  /-- GAP_TICKS. -/
  gapTicks : Nat := 0
  /-- GAPS_UNLISTED. -/
  unlisted : Nat := 0
  /-- MASK_FAILS. -/
  maskFails : Nat := 0
  /-- LAST_TRIGGER. -/
  lastTrigger : Stamp := {}
  /-- MASK_STOP_SEGMENT; none reads all ones. -/
  maskStop : Option Nat := none
  /-- The test mask. -/
  test : Option TestMask := none
  /-- The segment-event interval that is open: the tick at which it opened (R257). -/
  segOpen : Option Nat := none
  /-- Segments completed since the last EV_SEGMENT_DONE. -/
  segPending : Nat := 0
  /-- MASK_FAIL in any of them. -/
  segFail : Bool := false
  /-- The gap-event interval that is open: the tick at which it opened (R257). -/
  gapOpen : Option Nat := none
  /-- Gaps counted in it. -/
  gapPending : Nat := 0
  /-- Cause of the first of them. -/
  gapCause : Nat := 0
deriving DecidableEq, Repr

/-! ## Sorrel (R259 to R286) -/

/-- A complex value of integers. -/
structure Cplx where
  /-- I. -/
  re : Int := 0
  /-- Q. -/
  im : Int := 0
deriving DecidableEq, Repr

/-- Four lanes of complex values: a vector register (16+16) or an accumulator (48+48) (R260). -/
structure Lanes where
  /-- Lane 0. -/
  l0 : Cplx := {}
  /-- Lane 1. -/
  l1 : Cplx := {}
  /-- Lane 2. -/
  l2 : Cplx := {}
  /-- Lane 3. -/
  l3 : Cplx := {}
deriving DecidableEq, Repr

/-- An address generator (R260, R262). -/
structure AddrGen where
  /-- BASE. -/
  base : Nat := 0
  /-- LEN. -/
  len : Nat := 0
  /-- STRIDE, 32 bits. -/
  stride : Nat := 0
  /-- PTR. -/
  ptr : Nat := 0
deriving DecidableEq, Repr

/-- A running maximum or minimum (R268). -/
structure RunKey where
  /-- Value (SR1 or SR3), 32 bits. -/
  value : Nat := 0
  /-- Index (SR2 or SR4). -/
  index : Nat := 0
  /-- Count. -/
  count : Nat := 0
deriving DecidableEq, Repr

/-- A hardware loop (R265 LOOP): first and last instruction and further passes. -/
structure LoopFrame where
  /-- First instruction of the body. -/
  first : Nat := 0
  /-- TARGET. -/
  last : Nat := 0
  /-- Passes that remain after this one. -/
  more : Nat := 0
deriving DecidableEq, Repr

/-- A kernel image as loaded (R279). -/
structure Kernel where
  /-- Instruction words. -/
  code : List Nat := []
  /-- Initial data. -/
  init : List Byte := []
  /-- FLAGS_OWN. -/
  flagsOwn : Bool := false
  /-- STATE_BYTES. -/
  stateBytes : Nat := 0
  /-- OUT_RECORD_BYTES. -/
  record : Nat := 0
  /-- MAX_CYCLES. -/
  maxCycles : Nat := 100
  /-- IN_BASE0. -/
  inBase0 : Nat := 0
  /-- IN_BASE1, where it is used. -/
  inBase1 : Option Nat := none
  /-- SLOT_BYTES. -/
  slotBytes : Nat := 64
  /-- SLOTS. -/
  slots : Nat := 2
  /-- NAME. -/
  name : List Byte := []
  /-- The measurement: SHA-512 digest. -/
  digest : List Byte := []
deriving DecidableEq, Repr

/-- A block in the retention ring (R273, R277). -/
structure InBlock where
  /-- Port. -/
  port : Nat := 0
  /-- FLAGS of the descriptor. -/
  flags : Nat := 0
  /-- Descriptor, elements and flag map. -/
  bytes : List Byte := []
  /-- Bytes that entered the ring of its port before it, since the kernel started. -/
  place : Nat := 0
deriving DecidableEq, Repr

/-- An input port of a core (R272, R273, R281). -/
structure InPort where
  /-- SOURCE_KIND: 0 unbound, 1 DDC, 2 Press job. -/
  kind : Nat := 0
  /-- SOURCE. -/
  source : Nat := 0
  /-- BLOCK_ELEMENTS, for a DDC. -/
  elements : Nat := 64
  /-- FIRST_BIN. -/
  firstBin : Nat := 0
  /-- BIN_COUNT. -/
  bins : Nat := 1
  /-- Blocks that the distributor has put into slots since start; the next goes to slot `filled` mod SLOTS. -/
  filled : Nat := 0
  /-- Blocks in slots, oldest first; they are also in the retention ring. -/
  slots : List InBlock := []
  /-- The oldest block is current. -/
  current : Bool := false
  /-- Blocks in the retention ring that have no slot yet, oldest first. -/
  waiting : List InBlock := []
  /-- Blocks were lost before the next one. -/
  gap : Bool := false
  /-- Bytes that have entered its retention ring since the kernel started. -/
  ringNext : Nat := 0
  /-- Frames of its job that the distributor has not taken, oldest first. -/
  frames : List PressFrame := []
deriving DecidableEq, Repr

/-- State of a core (R284). -/
inductive CoreMode where
  | empty | loaded | running | halted | quiescing
deriving DecidableEq, Repr

/-- What a takeover restores at the start of an activation (R277). -/
structure Commit where
  /-- Address generators. -/
  ags : KMap AddrGen := []
  /-- The mirrored STATE, by data address. -/
  state : KMap Byte := []
deriving DecidableEq, Repr

/-- A visible Sorrel core. -/
structure Core where
  /-- STATE. -/
  mode : CoreMode := .empty
  /-- The kernel. -/
  kernel : Option Kernel := none
  /-- Physical core, where it is not the one of power-up. -/
  phys : Option Nat := none
  /-- It has been borrowed (R520). -/
  lent : Bool := false
  /-- Its physical core has failed and nothing covers it. -/
  dead : Bool := false
  /-- s1 to s31; a register not listed has its undefined or power-up value. -/
  sregs : KMap Nat := []
  /-- v0 to v15. -/
  vregs : KMap Lanes := []
  /-- a0 to a3. -/
  accs : KMap Lanes := []
  /-- ag0 to ag7. -/
  ags : KMap AddrGen := []
  /-- Data memory bytes that have been written. -/
  dmem : KMap Byte := []
  /-- What is not listed has been lost in a takeover: the free value it reads from (R261, R277). -/
  lost : Option Nat := none
  /-- Instruction index. -/
  pc : Nat := 0
  /-- Active loops, innermost first. -/
  loops : List LoopFrame := []
  /-- SR1, SR2 and the count of MAXI. -/
  maxi : RunKey := {}
  /-- SR3, SR4 and the count of MINI. -/
  mini : RunKey := {}
  /-- ACC_SAT. -/
  accSat : Bool := false
  /-- VSAT. -/
  vSat : Bool := false
  /-- SR0 counts CORE clocks from this tick. -/
  since : Nat := 0
  /-- What SR0 counts from, where MTS has written it. -/
  cycleBase : Nat := 0
  /-- SR6. -/
  sr6 : Nat := 0
  /-- SR7. -/
  sr7 : Nat := 0
  /-- Input ports 0 and 1. -/
  ports : KMap InPort := []
  /-- Bound flow. -/
  flow : Option Nat := none
  /-- OUT_RECORDS. -/
  outRecords : Nat := 0
  /-- FORCE_MASK. -/
  forceMask : Nat := 0
  /-- Region of the retention ring and the mirror: offset and bytes. -/
  region : Option (Nat × Nat) := none
  /-- Records staged in this activation. -/
  staged : List (List Byte) := []
  /-- Messages queued in this activation. -/
  messages : List (List Byte) := []
  /-- FORCE messages released and not yet acted on, as units. -/
  forces : List Nat := []
  /-- What the last commit saved. -/
  commit : Commit := {}
  /-- Scheduled start with its parameters. -/
  sched : Option (Sched × List Byte) := none
  /-- A stop with AT_COMMIT runs. -/
  atCommit : Bool := false
  /-- The activation has run past its credit and is paused (R276). -/
  paused : Bool := false
  /-- HALT_CAUSE. -/
  haltCause : Nat := 0
  /-- TRAP_KIND. -/
  trapKind : Nat := 0
  /-- HALT_PC. -/
  haltPc : Nat := 0
  /-- The tick at which the kernel started. -/
  startedAt : Nat := 0
  /-- ACTIVATIONS. -/
  activations : Nat := 0
  /-- OUTPUT_RECORDS. -/
  records : Nat := 0
  /-- INPUT_GAPS. -/
  gaps : Nat := 0
  /-- CYCLES_LAST. -/
  cyclesLast : Nat := 0
  /-- CYCLES_MAX. -/
  cyclesMax : Nat := 0
  /-- FORCES_SENT. -/
  forcesSent : Nat := 0
  /-- FORCES_REFUSED. -/
  forcesRefused : Nat := 0
  /-- NOTE, 24 bytes. -/
  note : List Byte := []
deriving DecidableEq, Repr

/-! ## Segment players: pattern sites and stimulus outputs (R287 to R315, R344 to R358) -/

/-- A segment table entry (R290, R345); vectors for a site, samples for an output. -/
structure Segment where
  /-- LENGTH. -/
  length : Nat := 64
  /-- REPEAT; 0 repeats for ever. -/
  rep : Nat := 1
  /-- NEXT; none is END. -/
  next : Option Nat := none
  /-- JUMP_COND. -/
  cond : Nat := 0
  /-- JUMP_TARGET. -/
  target : Nat := 0
  /-- PARK_INDEX, or PARK_CODE as a stored sample. -/
  park : Nat := 0
  /-- STREAMED. -/
  streamed : Bool := false
  /-- RING_VECTORS or RING_SAMPLES. -/
  ring : Nat := 0
  /-- MASTER_OFFSET. -/
  master : Nat := 0
  /-- A write holds it (R291). -/
  locked : Bool := false
  /-- SITE_MASK. -/
  sites : Nat := 0
  /-- PE memory of the segment: base and bytes by device (R307). -/
  pe : KMap (Nat × Nat) := []
  /-- START in waveform memory (R345). -/
  start : Nat := 0
deriving DecidableEq, Repr

/-- What a player does at the coming boundary, as its decision point chose (R291, R295, R299, R349). -/
inductive PlayChoice where
  /-- The next iteration of the segment. -/
  | again
  /-- END. -/
  | finish
  /-- Park, stopped. -/
  | stop
  /-- Enter a segment by NEXT. -/
  | enter (seg : Nat)
  /-- Enter a segment by the pending jump. -/
  | jump (seg : Nat)
  /-- Park: the selected segment is locked by a write. -/
  | locked
  /-- Park: the selected segment is not defined. -/
  | missing
deriving DecidableEq, Repr

/-- A recognised request (R294 to R296). -/
structure JumpReq where
  /-- Cause of R314; 255 for a stop at a boundary. -/
  cause : Nat := 0
  /-- The segment it names. -/
  target : Option Nat := none
  /-- RECOGNISED: the index in its iteration. -/
  index : Nat := 0
  /-- Vectors or samples launched before it was recognised. -/
  place : Nat := 0
  /-- DEFERRED. -/
  deferred : Bool := false
  /-- Requests superseded by it. -/
  superseded : Nat := 0
  /-- The iteration at whose end it takes effect; none while it is carried. -/
  iter : Option Nat := none
deriving DecidableEq, Repr

/-- The sequencer of a site or of an output. -/
structure Player where
  /-- Segment playing, or the last one played. -/
  seg : Nat := 0
  /-- Iteration playing. -/
  iter : Nat := 0
  /-- Vectors or samples launched before this iteration. -/
  base : Nat := 0
  /-- H. -/
  horizon : Nat := 64
  /-- The pending jump request. -/
  jump : Option JumpReq := none
  /-- The pending stop. -/
  stop : Option JumpReq := none
  /-- The choice of this iteration's decision point. -/
  chosen : Option PlayChoice := none
  /-- JUMPS_TAKEN. -/
  taken : Nat := 0
  /-- JUMPS_DISCARDED. -/
  discarded : Nat := 0
  /-- REQ_SEQ last taken from the fast control window (R304, R352). -/
  reqSeq : Nat := 0
  /-- Vectors launched before the one at which an IMMEDIATE stop, a late refill or a lost device parks the player, H vectors
  after it (R298, R303, R331). -/
  parkAt : Option Nat := none
deriving DecidableEq, Repr

/-- State of a site (R300). -/
inductive SiteMode where
  | undefined | idle | starting | running | done | stopped | stalled | lost | quiescing
deriving DecidableEq, Repr

/-- Fail-log and capture settings of a site (R340). -/
structure CaptureCfg where
  /-- FLAGS. -/
  flags : Nat := 0
  /-- CAPACITY. -/
  capacity : Nat := 0
  /-- FAIL_OFFSET. -/
  failAt : Nat := 0
  /-- CAPTURE_OFFSET. -/
  capAt : Nat := 0
  /-- CAPTURE_BYTES. -/
  capBytes : Nat := 0
  /-- FAIL_RATE, thousands per second. -/
  failRate : Nat := 0
  /-- CAPTURE_RATE, thousands per second. -/
  capRate : Nat := 0
deriving DecidableEq, Repr

/-- Edges of one time set on one pin: DRIVE_ON, DRIVE_DATA, DRIVE_OFF, STROBE (R312); 2^32 − 1 is unused. -/
structure TimeSet where
  /-- DRIVE_ON. -/
  on : Nat := 4294967295
  /-- DRIVE_DATA. -/
  data : Nat := 4294967295
  /-- DRIVE_OFF. -/
  off : Nat := 4294967295
  /-- STROBE. -/
  strobe : Nat := 4294967295
deriving DecidableEq, Repr

/-- A pattern site. -/
structure Site where
  /-- STATE. -/
  mode : SiteMode := .undefined
  /-- Pins in site order. -/
  pins : List Nat := []
  /-- The sequencer. -/
  play : Player := {}
  /-- VEC_MAX of the start, mHz. -/
  vecMax : Nat := 0
  /-- State and sequencer before the start that has not launched vector 0 yet. -/
  before : Option (SiteMode × Player) := none
  /-- The latest stamp that PAT has taken of the site (R19). -/
  seen : Stamp := {}
  /-- The device that fell short of a refill (R298). -/
  short : Nat := 0xFF
  /-- VECTORS launched since start, as of the last boundary or park. -/
  vectors : Nat := 0
  /-- VCOUNT of vector 0 of the start. -/
  vc0 : Nat := 0
  /-- Segments entered since the start, newest first: vectors launched before, segment, LENGTH (R335). -/
  path : List (Nat × Nat × Nat) := []
  /-- VCOUNTs of failed vectors that a device has reported. -/
  failed : List Nat := []
  /-- FAILS_UNLISTED by device. -/
  unlisted : KMap Nat := []
  /-- CAPTURE_LOST by device. -/
  capLost : KMap Nat := []
  /-- A device has reported ANY_FAIL. -/
  anyFail : Bool := false
  /-- COMPLETE by device. -/
  complete : KMap Nat := []
  /-- MATCH results on their way, by cycle: devices that have reported and whether any failed (R294). -/
  matchIn : KMap (List Nat × Bool) := []
  /-- Match requests to be recognised: cycle of recognition and cause. -/
  matches_ : List (Nat × Nat) := []
  /-- START_STAMP. -/
  started : Stamp := {}
  /-- END_STAMP. -/
  ended : Stamp := {}
  /-- RESULT. -/
  result : Nat := 3
  /-- Parked or at END, with results still to return: the state to enter with EV_SITE_DONE. -/
  due : Option SiteMode := none
  /-- Time sets by site pin × 64 + set. -/
  sets : KMap TimeSet := []
  /-- Capture settings for the next start. -/
  nextCap : CaptureCfg := {}
  /-- Capture settings of this start. -/
  cap : CaptureCfg := {}
  /-- Fail entries written since the region was set up at the start. -/
  failEntries : Nat := 0
  /-- Fail entries lost to a full region. -/
  failLost : Nat := 0
  /-- Capture entries written. -/
  capEntries : Nat := 0
  /-- Capture entries lost to a full region. -/
  capFull : Nat := 0
deriving DecidableEq, Repr

/-- PAT. -/
structure PatState where
  /-- Segment table. -/
  segs : KMap Segment := []
  /-- Sites 0 to 255. -/
  sites : KMap Site := []
deriving DecidableEq, Repr

/-! ## Trellis (R316 to R343) -/

/-- State of a PE device; CARRYING follows from its buddy (R339). -/
inductive PeMode where
  | absent | training | up | rerouted | lost | quiescing
deriving DecidableEq, Repr

/-- A bulk channel of a device (R323). -/
structure Bulk where
  /-- The segment it carries. -/
  seg : Nat := 0
  /-- The site whose vectors it carries. -/
  site : Nat := 0
  /-- Vectors of the site launched before the first that the channel carries. -/
  start : Nat := 0
  /-- It fills a held segment for PAT.WRITE_SEGMENT. -/
  write : Bool := false
  /-- Bytes sent since BULK_SETUP. -/
  sent : Nat := 0
  /-- CONFIRMED. -/
  confirmed : Nat := 0
  /-- The bytes sent and not yet confirmed. -/
  data : List Byte := []
deriving DecidableEq, Repr

/-- A reliable frame that is sent and not acknowledged (R321). -/
structure Unacked where
  /-- FSEQ. -/
  fseq : Nat := 0
  /-- Frame type. -/
  type : Nat := 0
  /-- Payload. -/
  body : List Byte := []
  /-- The tick at which it was last sent. -/
  sent : Nat := 0
  /-- It is to be sent again as soon as there is a credit (R321, R322). -/
  again : Bool := false
deriving DecidableEq, Repr

/-- A PE device with its lane. -/
structure PeDev where
  /-- STATE. -/
  mode : PeMode := .absent
  /-- Downstream lane up. -/
  downUp : Bool := false
  /-- Upstream lane up. -/
  upUp : Bool := false
  /-- UNALIGNED (R328). -/
  unaligned : Bool := false
  /-- DELAY_LIMIT. -/
  delayLimit : Bool := false
  /-- DESKEW_CLAMPED. -/
  clamped : Bool := false
  /-- PRESET in use. -/
  preset : Nat := 0
  /-- RTT, ps. -/
  rtt : Nat := 0
  /-- Sum of the round trips measured since training began, ps. -/
  rttSum : Nat := 0
  /-- TRACE_DELAY, ps. -/
  delay : Nat := 0
  /-- VENDOR. -/
  vendor : Nat := 0
  /-- MODEL. -/
  model : Nat := 0
  /-- CHANNELS. -/
  channels : Nat := 0
  /-- MEMORY_BYTES. -/
  memory : Nat := 0
  /-- IDENT has been received since the last training. -/
  ident : Bool := false
  /-- LOOP replies received since the last training. -/
  loops : Nat := 0
  /-- CW_CORRECTED_UP. -/
  corrUp : Nat := 0
  /-- CW_UNCORRECTABLE_UP, with frames discarded for their CRC or type. -/
  badUp : Nat := 0
  /-- Consecutive upstream codewords that failed to decode or came with LIVE clear (R329). -/
  badRun : Nat := 0
  /-- RESENT. -/
  resent : Nat := 0
  /-- FAILS_UNLISTED. -/
  unlisted : Nat := 0
  /-- CAPTURE_LOST. -/
  capLost : Nat := 0
  /-- TRAININGS. -/
  trainings : Nat := 0
  /-- LAST_CHANGE. -/
  changed : Stamp := {}
  /-- The tick at which training began, while it runs. -/
  trainSince : Option Nat := none
  /-- Retrained; the traffic moves back at the next marker codeword (R330). -/
  moveBack : Bool := false
  /-- FSEQ of the next reliable frame sent. -/
  txSeq : Nat := 0
  /-- FSEQ of the next reliable frame accepted. -/
  rxSeq : Nat := 0
  /-- Reliable frames sent and not acknowledged, oldest first. -/
  unacked : List Unacked := []
  /-- Reliable frames that wait for a credit. -/
  waiting : List (Nat × List Byte) := []
  /-- Configuration credits. -/
  credits : Nat := 64
  /-- CONFIG_CREDITS as the device advertises it; at least 64 before IDENT (R322). -/
  advertised : Nat := 64
  /-- SEQ_ID of the next class S frame. -/
  seqId : Nat := 0
  /-- SEQ_IDs of class S frames acted on, newest first (R325). -/
  seen : List Nat := []
  /-- Bulk channels in use. -/
  bulk : KMap Bulk := []
  /-- Channel fail counts. -/
  counts : KMap Nat := []
  /-- DRIVE_DESKEW and STROBE_DESKEW by channel. -/
  deskew : KMap (Int × Int) := []
  /-- MODE and CHANNEL of ROUTE. -/
  route : Nat × Nat := (0, 0)
deriving DecidableEq, Repr

/-! ## Stimulus outputs and the Vine chain (R344 to R370) -/

/-- State of an output (R350). -/
inductive StimMode where
  | idle | starting | running | done | stopped | stalled | quiescing
deriving DecidableEq, Repr

/-- A stimulus output. -/
structure StimOut where
  /-- STATE. -/
  mode : StimMode := .idle
  /-- The player. -/
  play : Player := {}
  /-- Segment table. -/
  segs : KMap Segment := []
  /-- Waveform memory. -/
  wave : Memory := []
  /-- ATTEN. -/
  atten : Nat := 0
  /-- G. -/
  start : Nat := 0
  /-- State and player before the start that has not played sample 0 yet. -/
  before : Option (StimMode × Player) := none
  /-- Samples played since the start that have left at the connector. -/
  shown : Nat := 0
  /-- Samples played before the segment was entered. -/
  entry : Nat := 0
  /-- Samples of a streamed segment that have entered its ring since it was entered (R348). -/
  filled : Nat := 0
  /-- SAMPLES played, once it has parked or ended. -/
  played : Nat := 0
  /-- Samples played before an IMMEDIATE stop parks it. -/
  parkAt : Option Nat := none
  /-- PARK_CODE held at the connector; none while no signal is driven. -/
  held : Option Nat := none
deriving DecidableEq, Repr

/-- A frame of the Vine merge queue: kind 1 EVENT, 2 DELAY, and its payload bits as a number. -/
structure VineFrame where
  /-- Kind. -/
  kind : Nat := 1
  /-- Payload. -/
  payload : Nat := 0
deriving DecidableEq, Repr

/-- A skew calibration that runs (R363, R367). -/
structure VineCal where
  /-- START_EPOCH. -/
  start : Nat := 0
  /-- ECHOES. -/
  echoes : Nat := 64
  /-- MEASURE_OUT. -/
  measure : Bool := false
  /-- ECHO_IN. -/
  echoIn : Bool := false
  /-- Stamp of the pulse that is out, in 1/65,536 tick. -/
  sent : Option Nat := none
  /-- Sum of the round trips, in 1/65,536 tick. -/
  sum : Nat := 0
  /-- Echoes returned. -/
  count : Nat := 0
deriving DecidableEq, Repr

/-- Scheduled syncs (R369). -/
structure VineSchedule where
  /-- Next epoch. -/
  epoch : Nat := 0
  /-- PERIOD. -/
  period : Nat := 1
  /-- Edges that remain. -/
  count : Nat := 0
  /-- SEND. -/
  send : Bool := false
  /-- CODE. -/
  code : Nat := 0
deriving DecidableEq, Repr

/-- The Vine port. -/
structure Vine where
  /-- ROLE: 0 OFF, 1 HEAD, 2 MEMBER. -/
  role : Nat := 0
  /-- `VINE.CONFIGURE` has executed since power-up: the bypass relays are open (R545). -/
  configured : Bool := false
  /-- ALIGNED. -/
  aligned : Bool := false
  /-- HOLDOVER. -/
  holdover : Bool := false
  /-- SKEW_STALE. -/
  stale : Bool := false
  /-- REF_IN present. -/
  refIn : Bool := false
  /-- SYNC_IN present. -/
  syncIn : Bool := false
  /-- CRC_ERRORS. -/
  crcErrors : Nat := 0
  /-- An epoch and the tick of its edge, from which the others are counted. -/
  ref : Option (Nat × Nat) := none
  /-- EPOCH. -/
  epoch : Nat := 0
  /-- EPOCH_TICK. -/
  epochTick : Nat := 0
  /-- LINK_DELAY in use, 1/65,536 tick. -/
  delay : Nat := 0
  /-- The LINK_DELAY to which the module slews (R363). -/
  target : Option Nat := none
  /-- PHASE_ERROR, 1/65,536 tick. -/
  phase : Int := 0
  /-- Consecutive frames whose number differs from previous + 1. -/
  wrong : Nat := 0
  /-- EPOCH_JUMPS. -/
  jumps : Nat := 0
  /-- EVENTS_SENT. -/
  sent : Nat := 0
  /-- EVENTS_DROPPED. -/
  dropped : Nat := 0
  /-- The schedule. -/
  sched : Option VineSchedule := none
  /-- The calibration. -/
  cal : Option VineCal := none
  /-- Merge queue, oldest first. -/
  queue : List VineFrame := []
  /-- A frame is leaving on VINE_SYNC_OUT. -/
  sending : Bool := false
deriving DecidableEq, Repr

/-! ## Time-interval unit (R372 to R393) -/

/-- State of a channel (R392); HELD follows from the deskew that holds it. -/
inductive TiuMode where
  | unconfigured | configured | starting | running | quiescing
deriving DecidableEq, Repr

/-- A stamped edge, in units of 0.1 ps (R375), with its marks. -/
structure TiuStamp where
  /-- T. -/
  time : Nat := 0
  /-- UNSETTLED. -/
  unsettled : Bool := false
  /-- PROVISIONAL_TIME. -/
  prov : Bool := false
  /-- An A that gives no result (PHASE, R381). -/
  silent : Bool := false
deriving DecidableEq, Repr

/-- One threshold of a front-end comparator (R373). -/
structure TiuLine where
  /-- The input lies at or above the threshold; none before the first level. -/
  above : Option Bool := none
  /-- The input has been at least HYSTERESIS below the threshold since its last rising crossing that counted. -/
  rise : Bool := false
  /-- The input has been at least HYSTERESIS above the threshold since its last falling crossing that counted. -/
  fall : Bool := false
deriving DecidableEq, Repr

/-- A block of statistics (R383). -/
structure TiuBlock where
  /-- COUNT. -/
  count : Nat := 0
  /-- MIN. -/
  min : Int := 0
  /-- MAX. -/
  max : Int := 0
  /-- Sum of x. -/
  sum : Int := 0
  /-- Sum of x². -/
  sq : Nat := 0
  /-- First stamp used. -/
  first : Stamp := {}
  /-- Last stamp used. -/
  last : Stamp := {}
  /-- UNPAIRED. -/
  unpaired : Nat := 0
  /-- EXCLUDED. -/
  excluded : Nat := 0
  /-- PROVISIONAL_TIME in any stamp used. -/
  prov : Bool := false
deriving DecidableEq, Repr

/-- Settings of a channel (R388). -/
structure TiuCfg where
  /-- SOURCE. -/
  source : Nat := 0
  /-- COMPARATOR. -/
  comparator : Nat := 0
  /-- MODE. -/
  power : Nat := 0
  /-- THRESH_HIGH. -/
  high : Nat := 0
  /-- THRESH_LOW. -/
  low : Nat := 0
  /-- HYSTERESIS. -/
  hyst : Nat := 0
  /-- TERMINATION. -/
  term : Nat := 0
  /-- VTT. -/
  vtt : Nat := 0
  /-- FUNCTION. -/
  function : Nat := 0
  /-- EDGE_MASK. -/
  edges : Nat := 1
  /-- EDGE_A. -/
  edgeA : Nat := 0
  /-- EDGE_B. -/
  edgeB : Nat := 0
  /-- B_CHANNEL. -/
  other : Nat := 0
  /-- STATS_MODE REPEAT. -/
  rep : Bool := false
  /-- EVENTS. -/
  events : Bool := false
  /-- FLOW. -/
  flow : Option Nat := none
  /-- STATS_N. -/
  n : Nat := 1
  /-- STAMP_RATE, thousands. -/
  rate : Nat := 0
  /-- GATE. -/
  gate : Nat := 1
  /-- NOMINAL_PERIOD. -/
  nominal : Nat := 1
  /-- MAX_INTERVAL. -/
  maxInterval : Nat := 0
deriving DecidableEq, Repr

/-- What a channel's function has made of the stamped edges (R381 to R383). -/
structure TiuCore where
  /-- Each A that waits for its B, oldest first: at most one but for WIDTH. -/
  waiting : List TiuStamp := []
  /-- The previous EDGE_A stamp: of PERIOD and PHASE, the start of a FREQUENCY gate, t_0 of TIE. -/
  prevA : Option TiuStamp := none
  /-- A′ of the A that waits (PHASE). -/
  backA : Option TiuStamp := none
  /-- Periods since the gate began. -/
  periods : Nat := 0
  /-- The block in progress. -/
  block : TiuBlock := {}
  /-- Complete blocks that are not yet latched, oldest first. -/
  closing : List TiuBlock := []
  /-- STATS_MODE ONCE and a block is complete. -/
  full : Bool := false
deriving DecidableEq, Repr

/-- A stamped edge that a channel's function takes, as A or as B. -/
structure TiuSeen where
  /-- As EDGE_A. -/
  isA : Bool := false
  /-- The stamp. -/
  stamp : TiuStamp := {}
deriving DecidableEq, Repr

/-- A TIU channel. -/
structure TiuChan where
  /-- STATE. -/
  mode : TiuMode := .unconfigured
  /-- Settings. -/
  cfg : TiuCfg := {}
  /-- STAMPS. -/
  stamps : Nat := 0
  /-- MISSED_EDGES. -/
  missed : Nat := 0
  /-- STAMPS_DROPPED. -/
  dropped : Nat := 0
  /-- Records dropped since the last one delivered; the next carries GAP_BEFORE. -/
  gap : Nat := 0
  /-- T of the last stamped edge. -/
  lastTime : Option Nat := none
  /-- LAST_STAMP. -/
  last : Stamp := {}
  /-- The HIGH line of the front end. -/
  hi : TiuLine := {}
  /-- The LOW line of the front end. -/
  lo : TiuLine := {}
  /-- Ticks of the stamps of the last ms, newest first (RATE). -/
  rated : List Nat := []
  /-- Records that wait for the collector (R385). -/
  queued : Nat := 0
  /-- The tick at which a record last joined them. -/
  queuedAt : Nat := 0
  /-- What the function has made of the edges so far. -/
  core : TiuCore := {}
  /-- The same, before the edges of `recent`. -/
  base : TiuCore := {}
  /-- Edges that may still be preceded by one with an earlier stamp, in order of their stamps. -/
  recent : List TiuSeen := []
  /-- The last completed block. -/
  latched : Option TiuBlock := none
  /-- BLOCK. -/
  blocks : Nat := 0
  /-- The event interval that is open: the tick at which it opened (R393). -/
  evOpen : Option Nat := none
  /-- Blocks completed since the previous event. -/
  evBlocks : Nat := 0
  /-- The latest of them. -/
  evLate : Option TiuBlock := none
deriving DecidableEq, Repr

/-- A group of sixteen channels (R378 to R380). -/
structure TiuGroup where
  /-- Step of the rotation. -/
  step : Nat := 0
  /-- ROTATIONS. -/
  rotations : Nat := 0
  /-- CAL_FROZEN. -/
  frozen : Bool := false
  /-- The channel that the spare pair has taken over for good. -/
  taken : Option Nat := none
  /-- Channels whose pair has failed with no spare. -/
  dead : List Nat := []
  /-- Pairs, 16 for the spare, that have failed and are not yet found out: what they convert carries UNSETTLED. -/
  suspect : List Nat := []
deriving DecidableEq, Repr

/-! ## Comparators and monitor converter (R395 to R414) -/

/-- A monitor comparator. -/
structure Comparator where
  /-- MODE. -/
  mode : Nat := 0
  /-- THRESH. -/
  thresh : Nat := 0
  /-- HYST, mV. -/
  hyst : Nat := 0
  /-- BLANK_SOURCE. -/
  blankSource : Nat := 0
  /-- BLANK_SITE. -/
  blankSite : Nat := 0
  /-- FORWARD. -/
  forward : Nat := 0
  /-- BLANK_NS. -/
  blankNs : Nat := 10
  /-- TICK_US. -/
  tickUs : Nat := 1
  /-- The threshold in force (R395). -/
  live : Nat := 0
  /-- READBACK. -/
  readback : Nat := 0
  /-- OUTPUT. -/
  out : Bool := false
  /-- SETTLED. -/
  settled : Bool := false
  /-- An evaluation has been made since the start. -/
  evaluated : Bool := false
  /-- IN_BAND_AT_START. -/
  inBand : Bool := false
  /-- The tick at which the blanking window closes. -/
  window : Option Nat := none
  /-- The forwarded output. -/
  shown : Bool := false
  /-- The first decision is still to be forwarded. -/
  firstDue : Bool := false
  /-- CHANGES. -/
  changes : Nat := 0
  /-- BLANKED_CHANGES. -/
  blanked : Nat := 0
  /-- The event interval that is open: the tick at which it opened (R399). -/
  evOpen : Option Nat := none
  /-- Changes counted in it. -/
  evCount : Nat := 0
  /-- FIRST and BLANKED flags of them. -/
  evFlags : Nat := 0
  /-- The stamp of its last change, where there is one (R19). -/
  lastStamp : Option Stamp := none
  /-- The tick from which the ticks of M3 count. -/
  tickFrom : Nat := 0
  /-- Number of the tick at which M3 last decided. -/
  decided : Nat := 0
deriving DecidableEq, Repr

/-- An entry of the sequence table (R402). -/
structure MonEntry where
  /-- CHANNEL. -/
  channel : Nat := 0
  /-- SELECT. -/
  select : Nat := 0
  /-- REPEAT. -/
  rep : Nat := 1
  /-- DELAY, 100 ns. -/
  delay : Nat := 0
  /-- AVG_LOG2. -/
  avg : Nat := 0
  /-- SHIFT. -/
  shift : Nat := 0
deriving DecidableEq, Repr

/-- What the converter does in its sequence. -/
inductive MonPhase where
  | idle | delaying | recovering | converting
deriving DecidableEq, Repr

/-- MON. -/
structure Mon where
  /-- Comparators 0 to 15. -/
  comps : KMap Comparator := []
  /-- A wake request is on its way. -/
  wake : Bool := false
  /-- Sequence table. -/
  entries : KMap MonEntry := []
  /-- LENGTH; 0 where no table has been loaded. -/
  length : Nat := 0
  /-- FLOW. -/
  flow : Option Nat := none
  /-- EVENT_EVERY. -/
  every : Nat := 0
  /-- RUNNING. -/
  running : Bool := false
  /-- QUIESCING. -/
  quiescing : Bool := false
  /-- Phase. -/
  phase : MonPhase := .idle
  /-- The tick at which the conversion, delay or recovery in progress began. -/
  since : Nat := 0
  /-- Housekeeping has been done at this entry boundary (R403). -/
  kept : Bool := false
  /-- Entry in progress. -/
  entry : Nat := 0
  /-- Results of it produced in this visit. -/
  results : Nat := 0
  /-- Conversions of the result in progress. -/
  convs : Nat := 0
  /-- Their sum. -/
  sum : Nat := 0
  /-- TICK of the result in progress. -/
  first : Nat := 0
  /-- OVR flags of the result in progress. -/
  outside : Nat := 0
  /-- The last conversion was overranged. -/
  lastOver : Bool := false
  /-- RECOVERY_INSERTED in this visit. -/
  recovered : Bool := false
  /-- PASSES. -/
  passes : Nat := 0
  /-- RECOVERIES. -/
  recoveries : Nat := 0
  /-- OVERRANGES. -/
  overranges : Nat := 0
  /-- Overrange and REF_UNSETTLED in the passes since the last event. -/
  evFlags : Nat := 0
  /-- Latest record of each entry. -/
  records : KMap (List Byte) := []
  /-- Records dropped since the last one delivered. -/
  gap : Nat := 0
  /-- REF_ON. -/
  refOn : Bool := false
  /-- Tick of the most recent enable. -/
  refTick : Nat := 0
  /-- REF_SETTLED. -/
  refSettled : Bool := false
  /-- Tick of the last housekeeping conversion. -/
  housekeeping : Nat := 0
deriving DecidableEq, Repr

/-! ## Cellar (R416 to R432) -/

/-- Where a stack stands in an operating-point change (R428). -/
inductive StackPhase where
  | serving | selfRefresh | draining
deriving DecidableEq, Repr

/-- An HBM3 stack; retirement is kept with the retired units. -/
structure Stack where
  /-- Phase of an operating-point change. -/
  phase : StackPhase := .serving
  /-- REPLACED_PC. -/
  replaced : Option Nat := none
  /-- REBUILDING. -/
  rebuilding : Bool := false
  /-- RETRAINS. -/
  retrains : Nat := 0
  /-- ECC_CORRECTED. -/
  corrected : Nat := 0
  /-- RECONSTRUCTED. -/
  reconstructed : Nat := 0
  /-- NEIGHBOUR_REFRESHES. -/
  neighbours : Nat := 0
  /-- BUFFER_PEAK. -/
  bufferPeak : Nat := 0
  /-- PAUSE_MAX, ns. -/
  pauseMax : Nat := 0
  /-- REBUILT. -/
  rebuilt : Nat := 0
  /-- The tick at which the present rebuild began. -/
  rebuildFrom : Nat := 0
  /-- Retraining failures in a row, by channel 0 to 15. -/
  fails : KMap Nat := []
  /-- Activate tables by bank: at most 16 entries (row, count) each. -/
  banks : KMap (List (Nat × Nat)) := []
deriving DecidableEq, Repr

/-- A request that waits at a QoS port (R421, R422). -/
structure CellarReq where
  /-- Port. -/
  port : Nat := 0
  /-- Address. -/
  addr : Nat := 0
  /-- Bytes. -/
  size : Nat := 64
  /-- It writes `data`. -/
  write : Bool := false
  /-- Data. -/
  data : List Byte := []
  /-- Tick of its arrival. -/
  at_ : Nat := 0
  /-- Urgency level. -/
  level : Nat := 0
deriving DecidableEq, Repr

/-- An operating-point change that runs. -/
structure OpChange where
  /-- RATE wanted. -/
  rate : Nat := 0
  /-- Tick at which it began. -/
  since : Nat := 0
deriving DecidableEq, Repr

/-- Cellar controllers. -/
structure Cellar where
  /-- Stacks 0 to 3. -/
  stackMap : KMap Stack := []
  /-- RH_THRESHOLD. -/
  threshold : Nat := 1024
  /-- SCRUB_PASSES. -/
  scrubs : Nat := 0
  /-- PARTIAL_WRITES. -/
  partials : Nat := 0
  /-- The channel that pauses for retraining (stack × 16 + channel), and since when. -/
  pause : Option (Nat × Nat) := none
  /-- The tick at which the last pause began. -/
  pausedAt : Option Nat := none
  /-- Channels that have had their pause in the present round of 50 ms. -/
  paused : List Nat := []
  /-- The change that runs. -/
  change : Option OpChange := none
  /-- Waiting requests, oldest first. -/
  waiting : List CellarReq := []
  /-- Write buffer: by stripe, the bytes written (one bit each) and the tick of the first. -/
  merging : KMap (Nat × Nat) := []
deriving DecidableEq, Repr

/-! ## Racking and flows (R434 to R453) -/

/-- Consecutive stored samples of a segment: a gap or the segment's start comes before them (R246, R457). -/
structure UnitRun where
  /-- Place of the first among the stored samples. -/
  place : Nat := 0
  /-- Its stamp. -/
  stamp : Stamp := {}
  /-- Gaps right before it. -/
  gaps : Nat := 0
  /-- Their LENGTH_TICKS. -/
  ticks : Nat := 0
deriving DecidableEq, Repr

/-- A unit of producer data (R435), with what a stream header says of it (R457). -/
structure FlowUnit where
  /-- FORMAT of R458. -/
  format : Nat := 0
  /-- Data. -/
  bytes : List Byte := []
  /-- How many bytes at the end are a segment trailer. -/
  trailer : Nat := 0
  /-- A packet closes at its end (segments). -/
  closes : Bool := false
  /-- The unit begins with its first byte. -/
  starts : Bool := true
  /-- The unit ends with its last byte. -/
  ends : Bool := true
  /-- STAMP. -/
  stamp : Stamp := {}
  /-- EXPONENT, as a byte. -/
  exponent : Nat := 0
  /-- UNSETTLED, OVR_SEEN and PROVISIONAL_TIME in bits 0 to 2. -/
  flags : Nat := 0
  /-- Bytes of each element of a segment, and the first two flags of each, where a packet takes those of the elements that
  it covers (R146); no flags where the unit has one set. -/
  width : Nat := 0
  /-- Those flags, element after element. -/
  marks : List Nat := []
  /-- Ticks from the first element of a segment to its end. -/
  spanTicks : Nat := 0
  /-- FIRST_SETTLED of a segment. -/
  settled : Nat := 0
  /-- Runs of stored samples of a segment of raw samples; none where the unit has no gap of its own to tell. -/
  runs : List UnitRun := []
  /-- Gaps or dropped records reported with it. -/
  gaps : Nat := 0
  /-- Their LENGTH_TICKS. -/
  gapTicks : Nat := 0
deriving DecidableEq, Repr

/-- A descriptor (R436), and the index list of a GATHER. -/
structure Descr where
  /-- Its address. -/
  addr : Nat := 0
  /-- CONTROL. -/
  control : Nat := 1
  /-- ELEMENT_BYTES. -/
  element : Nat := 0
  /-- LENGTH. -/
  length : Nat := 1
  /-- SOURCE. -/
  source : Nat := 0
  /-- DEST. -/
  dest : Nat := 0
  /-- USER_TAG. -/
  tag : Nat := 0
  /-- The index list. -/
  index : List Nat := []
  /-- Its index list cannot be read in Cellar (R420, R439). -/
  lost : Bool := false
  /-- It is bad (R437). -/
  bad : Bool := false
deriving DecidableEq, Repr

/-- A burst in flight. -/
structure Burst where
  /-- Offset in the descriptor. -/
  offset : Nat := 0
  /-- Bytes. -/
  size : Nat := 0
  /-- The tick at which it was issued. -/
  since : Nat := 0
  /-- The producer's bytes, for a PRODUCER flow. -/
  bytes : List Byte := []
  /-- Its region is being freed, and it was issued before: it runs to completion (R73, R430). -/
  granted : Bool := false
deriving DecidableEq, Repr

/-- The descriptor being moved. -/
structure Moving where
  /-- The descriptor. -/
  desc : Descr := {}
  /-- Bytes of the bursts issued. -/
  issued : Nat := 0
  /-- Bursts in flight. -/
  flight : List Burst := []
  /-- Data of the bursts answered, by offset. -/
  data : KMap (List Byte) := []
  /-- The lowest offset of a failed burst. -/
  failed : Option Nat := none
  /-- The error came after COUNT had reached zero (R444). -/
  late : Bool := false
  /-- A unit has ended in it. -/
  unitEnd : Bool := false
deriving DecidableEq, Repr

/-- A packet as it is sent (R457), kept for replay. -/
structure Packet where
  /-- Flow. -/
  flow : Nat := 0
  /-- SEQ. -/
  seq : Nat := 0
  /-- FORMAT. -/
  format : Nat := 0
  /-- STAMP. -/
  stamp : Stamp := {}
  /-- FLAGS. -/
  flags : Nat := 0
  /-- EXPONENT. -/
  exponent : Nat := 0
  /-- COUNT. -/
  count : Nat := 0
  /-- FIRST_SETTLED. -/
  settled : Nat := 0
  /-- Overrange runs, all of them, as (START, LENGTH). -/
  runs : List (Nat × Nat) := []
  /-- GAP_COUNT. -/
  gaps : Nat := 0
  /-- GAP_TICKS. -/
  gapTicks : Nat := 0
  /-- Payload. -/
  payload : List Byte := []
  /-- The tick at which it was sent. -/
  sent : Nat := 0
deriving DecidableEq, Repr

/-- A binding to a stream port (R467) and the port's queue for the flow. -/
structure Binding where
  /-- PORT. -/
  port : Nat := 0
  /-- FLAGS. -/
  flags : Nat := 0
  /-- DSCP. -/
  dscp : Nat := 0
  /-- PCP. -/
  pcp : Nat := 0
  /-- VLAN_ID. -/
  vlan : Nat := 1
  /-- PAYLOAD_MAX. -/
  payloadMax : Nat := 252
  /-- SRC_UDP. -/
  srcUdp : Nat := 0
  /-- DST_UDP. -/
  dstUdp : Nat := 0
  /-- DST_MAC. -/
  dstMac : List Byte := []
  /-- FLUSH_US. -/
  flushUs : Nat := 1
  /-- DST_IP. -/
  dstIp : List Byte := []
  /-- SEQ of the next packet. -/
  seq : Nat := 0
  /-- Pieces of units that wait at the port, oldest first. -/
  queue : List FlowUnit := []
  /-- Bytes (raw segments: samples) of the oldest piece that have left. -/
  sentOf : Nat := 0
  /-- FLUSH_US has passed: what is queued leaves. -/
  flush : Bool := false
  /-- The next packet has FAILOVER set (R463). -/
  failover : Bool := false
  /-- Level of the token bucket at `levelAt`, in bytes times ticks per second; it starts full, at 64 KiB (R460). -/
  level : Nat := 65536 * 25600000000
  /-- The tick of `level`. -/
  levelAt : Nat := 0
  /-- The tick of the first byte of the open packet (R459). -/
  openAt : Nat := 0
deriving DecidableEq, Repr

/-- State of a flow (R445); a FREE flow is not listed. -/
inductive FlowMode where
  | created | enabled | paused | disabled | halted | quiescing
deriving DecidableEq, Repr

/-- A flow. -/
structure Flow where
  /-- STATE. -/
  mode : FlowMode := .created
  /-- The function that created it. -/
  fn : Nat := 0
  /-- SOURCE_KIND. -/
  src : Nat := 0
  /-- DEST_KIND. -/
  dst : Nat := 0
  /-- DESC_SPACE. -/
  space : Nat := 0
  /-- CHECK. -/
  check : Nat := 0
  /-- PRIORITY. -/
  priority : Nat := 0
  /-- NO_SNOOP. -/
  noSnoop : Bool := false
  /-- BURST_BYTES. -/
  burst : Nat := 64
  /-- RATE. -/
  rate : Nat := 0
  /-- LABEL. -/
  label : Nat := 0
  /-- The live gate bit. -/
  gate : Bool := false
  /-- GATE_STATUS reads ST_NO_ALLOTMENT. -/
  gateRefused : Bool := false
  /-- HALT_CAUSE. -/
  haltCause : Nat := 0
  /-- HALT_DESCRIPTOR. -/
  haltDesc : Nat := 0
  /-- Chains that have not started: address of the first descriptor, and COUNT. -/
  chains : List (Nat × Nat) := []
  /-- What is left of the chain being fetched: next address, and count. -/
  chain : Option (Nat × Nat) := none
  /-- Fetched descriptors that wait, oldest first. -/
  fetched : List Descr := []
  /-- The descriptor being moved. -/
  cur : Option Moving := none
  /-- Accepted producer units, oldest first. -/
  buffer : List FlowUnit := []
  /-- Bytes of the oldest that have left. -/
  cut : Nat := 0
  /-- State of the check code after the last descriptor. -/
  crc : Option Nat := none
  /-- BYTES_MOVED. -/
  moved : Nat := 0
  /-- DESCRIPTORS_DONE. -/
  descsDone : Nat := 0
  /-- Descriptors completed since the last EV_DESCRIPTOR_DONE. -/
  sinceEvent : Nat := 0
  /-- ERRORS. -/
  errors : Nat := 0
  /-- SLACK_BYTES. -/
  slack : Nat := 0
  /-- Its ready burst has reached its latency target (R497). -/
  urgent : Bool := false
  /-- The tick from which its ready burst waits. -/
  readySince : Nat := 0
  /-- Binding to a port. -/
  bind : Option Binding := none
  /-- Reason of the quiescence that runs (R453). -/
  reason : Nat := 0
  /-- The tick at which it began. -/
  quietSince : Nat := 0
  /-- Descriptors aborted in it. -/
  aborted : Nat := 0
deriving DecidableEq, Repr

/-- Racking. -/
structure Racking where
  /-- Flows that exist. -/
  flows : KMap Flow := []
  /-- The flow served last at each priority. -/
  last : KMap Nat := []
deriving DecidableEq, Repr

/-! ## Stream ports (R455 to R468) -/

/-- State of a port (R468). -/
inductive PortMode where
  | off | training | up | failed | quiescing
deriving DecidableEq, Repr

/-- A stream port. -/
structure Port where
  /-- STATE. -/
  mode : PortMode := .off
  /-- ROLE. -/
  role : Nat := 0
  /-- FLAGS of R466. -/
  flags : Nat := 0
  /-- TTL. -/
  ttl : Nat := 1
  /-- SRC_MAC. -/
  mac : List Byte := []
  /-- HB_VLAN. -/
  hbVlan : Nat := 1
  /-- SRC_IPV4. -/
  ip4 : List Byte := []
  /-- SRC_IPV6. -/
  ip6 : List Byte := []
  /-- HB_DST_MAC. -/
  hbMac : List Byte := []
  /-- HB_DST_UDP. -/
  hbDstUdp : Nat := 0
  /-- HB_DST_IP. -/
  hbIp : List Byte := []
  /-- HB_SRC_UDP. -/
  hbSrcUdp : Nat := 0
  /-- CARRYING: the failed port whose flows it carries. -/
  carrying : Option Nat := none
  /-- PACKETS. -/
  packets : Nat := 0
  /-- WIRE_BYTES. -/
  wireBytes : Nat := 0
  /-- HEARTBEATS. -/
  heartbeats : Nat := 0
  /-- PAUSE_RX. -/
  pauseRx : Nat := 0
  /-- RX_ANSWERED. -/
  answered : Nat := 0
  /-- RX_DISCARDED. -/
  discarded : Nat := 0
  /-- REPLAYED. -/
  replayed : Nat := 0
  /-- The flow that sent the last packet (R460). -/
  last : Option Nat := none
  /-- The tick of the last heartbeat (R462). -/
  lastBeat : Option Nat := none
  /-- Packets sent in the last 2 µs, oldest first. -/
  recent : List Packet := []
deriving DecidableEq, Repr

/-! ## Display engine (R470 to R489) -/

/-- State of the display (R487). -/
inductive DispMode where
  | disabled | training | running | quiescing
deriving DecidableEq, Repr

/-- Timing of a mode (R483). -/
structure DispTiming where
  /-- H_ACTIVE. -/
  hActive : Nat := 640
  /-- H_FRONT. -/
  hFront : Nat := 0
  /-- H_SYNC. -/
  hSync : Nat := 8
  /-- H_BACK. -/
  hBack : Nat := 0
  /-- V_ACTIVE. -/
  vActive : Nat := 480
  /-- V_FRONT. -/
  vFront : Nat := 0
  /-- V_SYNC. -/
  vSync : Nat := 1
  /-- V_BACK. -/
  vBack : Nat := 0
  /-- PIXEL_CLOCK, kHz. -/
  clock : Nat := 25000
  /-- FLAGS. -/
  flags : Nat := 0
  /-- MATCH_LINE. -/
  matchLine : Nat := 0xFFFF
  /-- BACKGROUND. -/
  background : Nat := 0
deriving DecidableEq, Repr

/-- Settings of a layer (R485). -/
structure DispLayer where
  /-- FLAGS. -/
  flags : Nat := 0
  /-- WIDTH. -/
  width : Nat := 1
  /-- HEIGHT. -/
  height : Nat := 1
  /-- PLANE. -/
  plane : Nat := 0
  /-- SHIFT. -/
  shift : Nat := 0
  /-- COL_FIRST. -/
  colFirst : Nat := 0
  /-- COL_COUNT. -/
  colCount : Nat := 1
  /-- ROW_FIRST. -/
  rowFirst : Nat := 0
  /-- ROW_COUNT. -/
  rowCount : Nat := 1
  /-- TRACE_MASK. -/
  traces : Nat := 0
  /-- TOP_LEVEL. -/
  top : Int := 0
  /-- LEVEL_STEP. -/
  step : Nat := 1
  /-- The cursor image. -/
  image : List Byte := []
deriving DecidableEq, Repr

/-- What a layer takes from the fast control window (R482). -/
structure DispPlace where
  /-- BUFFER. -/
  buffer : Nat := 0
  /-- STRIDE. -/
  stride : Nat := 0
  /-- X. -/
  x : Int := 0
  /-- Y. -/
  y : Int := 0
  /-- VISIBLE. -/
  visible : Bool := false
deriving DecidableEq, Repr

/-- The display engine. -/
structure Disp where
  /-- STATE. -/
  mode : DispMode := .disabled
  /-- Timing; none until it is set. -/
  timing : Option DispTiming := none
  /-- HPD. -/
  hpd : Bool := false
  /-- Trained lanes. -/
  lanes : Nat := 0
  /-- Trained rate: 1 RBR to 4 HBR3. -/
  rate : Nat := 0
  /-- GENLOCK: 0 OFF, 1 SEEKING, 2 LOCKED, 3 LOST. -/
  genlock : Nat := 0
  /-- EDGE. -/
  edge : Nat := 0
  /-- SYNC_LINE. -/
  syncLine : Nat := 0
  /-- OFFSET_PIXELS. -/
  offset : Nat := 0
  /-- SCANOUT_SPARED. -/
  spared : Bool := false
  /-- FAULTED: the overlay is not fetched until a latch takes a new BUFFER. -/
  faulted : Bool := false
  /-- FRAME. -/
  frame : Nat := 0
  /-- UNDERRUN_LINES. -/
  underruns : Nat := 0
  /-- LAYER_FAULTS. -/
  faults : Nat := 0
  /-- LAST_VBLANK. -/
  vblank : Stamp := {}
  /-- Lines of this frame that underran. -/
  late : List Nat := []
  /-- EV_LAYER_FAULT has been raised in this frame. -/
  faultSeen : Bool := false
  /-- A latched STRIDE hides the overlay in this frame. -/
  badStride : Bool := false
  /-- BUFFER lay in a region when it was latched. -/
  bufferHeld : Bool := false
  /-- FRAME at the last latch. -/
  latched : Nat := 0
  /-- FRAME at the last EV_LINE_MATCH; none before one. -/
  matched : Option Nat := none
  /-- Settings in force. -/
  layers : KMap DispLayer := []
  /-- Settings that the next latch takes. -/
  nextLayers : KMap DispLayer := []
  /-- Placements in force. -/
  places : KMap DispPlace := []
  /-- Palette entries by bank × 1,024 + entry. -/
  palette : KMap Nat := []
  /-- Palette entries that the next latch takes. -/
  nextPalette : List (Nat × Nat) := []
  /-- Latched trace columns, lowest unit first: minimum and maximum L16 level of each window column. -/
  columns : List (List (Int × Int)) := []
  /-- The composed frame: lines of RGB pixels. -/
  buffer : List (List Nat) := []
deriving DecidableEq, Repr

/-! ## Allotments, power and energy (R491 to R508) -/

/-- What one activity holds (R492): rates by resource key. Keys 0, 1, 2, 4 to 8 are the resources of R491 (1 holds
the Cellar rate whose half crosses the die link), 16 + d is PE device d of TRELLIS and 96 + p is port p of STREAM. -/
structure Alloc where
  /-- Rates per second by resource key. -/
  rates : KMap Nat := []
  /-- Held under OVERRIDE (R493). -/
  override : Bool := false
deriving DecidableEq, Repr

/-- A declaration of power (R499): the first of its group in order declares `first`, each further one
`each`, in µW. -/
structure Decl where
  /-- Family code of the object that made it. -/
  fam : Nat
  /-- Object number. -/
  obj : Nat
  /-- Group within the family. -/
  group : Nat
  /-- µW for the first of the group. -/
  first : Nat
  /-- µW for each further one. -/
  each : Nat
deriving DecidableEq, Repr

/-- An urgency interval of an activity (R497). DESIGN CHOICE, log entry 71. -/
structure UrgentInterval where
  /-- Activity key, kind × 65,536 + object. -/
  act : Nat := 0
  /-- Resource. -/
  res : Nat := 0
  /-- The tick at which it opened. -/
  opened : Nat := 0
  /-- Urgencies counted in it. -/
  count : Nat := 0
deriving DecidableEq, Repr

/-- Power manager and allotments. -/
structure Budget where
  /-- LEDGER.CAP, W. -/
  capW : Nat := 560
  /-- Budget period, µs. -/
  periodUs : Nat := 10
  /-- The tick of the last budget-period boundary. -/
  periodAt : Nat := 0
  /-- Ageing interval, periods. -/
  ageing : Nat := 4
  /-- A cap, period and ageing interval that take effect at the next boundary. -/
  nextCap : Option (Nat × Nat × Nat) := none
  /-- Allotments by kind × 65,536 + object; the calibration activity holds its own from power-up (R494). -/
  allocs : KMap Alloc := [(6 * 65536, { rates := [(0, 4000000000), (1, 4000000000), (2, 2000000)] })]
  /-- Credit left in this period by (activity key × 128 + resource key). -/
  credits : KMap Nat := []
  /-- Declarations, in the order in which they were made. -/
  decls : List Decl := []
  /-- LEDGER.CAP as of the last 1 ms boundary, W. -/
  ledgerCap : Nat := 560
  /-- LEDGER.PERIOD. -/
  ledgerPeriod : Nat := 0x040A
  /-- LEDGER.DECLARED, mW. -/
  ledgerDeclared : Nat := 0
  /-- LEDGER.STATUS. -/
  ledgerStatus : Nat := 0
  /-- LEDGER.EFFECTIVE_CAP, W. -/
  ledgerEffective : Nat := 560
  /-- LEDGER.POWER, mW. -/
  powerMw : Nat := 0
  /-- LEDGER.PEAK, mW. -/
  peakMw : Nat := 0
  /-- LEDGER.PEAK restarts at the next boundary. -/
  peakReset : Bool := false
  /-- LEDGER.BOUNDARY. -/
  boundary : Nat := 0
  /-- LEDGER.METER by index 0 to 102, 48 bits of µJ. -/
  meters : KMap Nat := []
  /-- LEDGER.TOTAL, 48 bits of µJ. -/
  total : Nat := 0
  /-- THROTTLE_STAGE. -/
  stage : Nat := 0
  /-- The power of the last ms was above the effective cap, and no stage has been entered for it. -/
  above : Bool := false
  /-- Consecutive ms below 95 % of the effective cap. -/
  belowMs : Nat := 0
  /-- Ageing intervals that the waiting slack work of a flow has waited, by flow (R496). -/
  aged : KMap Nat := []
  /-- Open urgency intervals. -/
  urgent : List UrgentInterval := []
deriving DecidableEq, Repr

/-! ## Faults, power states, calibration, identity, security (R509 to R567, R568 to R586) -/

/-- A fault log entry (R527). -/
structure LogEntry where
  /-- SEQ. -/
  seq : Nat := 0
  /-- STAMP. -/
  stamp : Stamp := {}
  /-- CLASS, 1 to 22. -/
  cls : Nat := 0
  /-- KIND: 1 MASKED, 2 UNMASKED, 3 RESTORED. -/
  kind : Nat := 0
  /-- FLAGS: [0] INJECTED, [1] BORROWED, [2] SELF_TEST. -/
  flags : Nat := 0
  /-- SPARES_LEFT. -/
  sparesLeft : Nat := 0
  /-- POOL. -/
  pool : Nat := 0
  /-- FAILED_UNIT. -/
  failed : Nat := 0
  /-- TAKEN_BY, or 0xFFFF. -/
  takenBy : Nat := 0xFFFF
  /-- LOGICAL, or 0xFFFF. -/
  logical : Nat := 0xFFFF
  /-- TAKEOVER_NS. -/
  takeoverNs : Nat := 0
  /-- INTERVAL_START. -/
  intervalStart : Nat := 0
  /-- INTERVAL_TICKS. -/
  intervalTicks : Nat := 0
  /-- DETAIL. -/
  detail : Nat := 0
deriving DecidableEq, Repr

/-- A physical unit of a pool of a fault class (R592). -/
structure Unit3 where
  /-- Class. -/
  cls : Nat
  /-- Pool. -/
  pool : Nat
  /-- Unit. -/
  unit : Nat
deriving DecidableEq, Repr

/-- Fault management (R513 to R527, R591). -/
structure FaultState where
  /-- Spares left by class × 65,536 + pool; a pool not listed has its power-up count (R513). -/
  spares : KMap Nat := []
  /-- Retired units (R591). -/
  retired : List Unit3 := []
  /-- Units retired only by injection (R531). -/
  injected : List Unit3 := []
  /-- Borrowed units, as physical units (R520). -/
  borrowed : List Unit3 := []
  /-- Unmasked faults that are outstanding (R524). -/
  outstanding : List Unit3 := []
  /-- The held log entries, oldest first, at most 4,096 (R526). -/
  log : List LogEntry := []
  /-- FLOG.WRITTEN: SEQ of the next entry. -/
  written : Nat := 0
  /-- FLOG.CLEARED. -/
  cleared : Nat := 0
  /-- FLOG.MASKED, 32 bits, saturating. -/
  masked : Nat := 0
  /-- FLOG.UNMASKED, 32 bits, saturating. -/
  unmasked : Nat := 0
  /-- CORRECTED_SRAM, 64 bits. -/
  correctedSram : Nat := 0
  /-- FAULTS by class, saturating at 255. -/
  faults : KMap Nat := []
  /-- HEALTH.LAST_CLASS. -/
  lastClass : Nat := 0
  /-- Steward pairs that have halted (R514). -/
  haltedPairs : List Nat := []
  /-- The pair that now serves the channels of pair p, for p = 0 to 3 (R35, R514). -/
  servedBy : KMap Nat := []
  /-- Pairs that are asleep (R35). -/
  asleep : List Nat := []
  /-- The pairs p of R35 whose channels and duties are being taken over (R514). -/
  takeover : List Nat := []
  /-- The tick at which that takeover began. -/
  takeoverSince : Nat := 0
  /-- Units retired only by injection that are self-testing for their return (R531). -/
  selfTest : List Unit3 := []
  /-- Phase faults by rail (R517). -/
  phaseFaults : KMap Nat := []
deriving DecidableEq, Repr

/-- The power state of the module (R578), with the time before power good kept apart. -/
inductive PowerState where
  | unpowered | heldShutdown | starting | running | standby | thermalTrip
deriving DecidableEq, Repr

/-- Supply, shutdown, thermal state and the management bus (R576 to R586). DESIGN CHOICE, log entry 95. -/
structure Power where
  /-- The power state. -/
  state : PowerState := .unpowered
  /-- 48V_A is present. -/
  feedA : Bool := false
  /-- 48V_B is present. -/
  feedB : Bool := false
  /-- SHUTDOWN_N is recognised low. -/
  shutdownLow : Bool := false
  /-- The rails are on the way to power good (R533). -/
  rising : Bool := false
  /-- Steward firmware runs (R533, R557). -/
  steward : Bool := false
  /-- The tick counter runs (R95, R533). -/
  tickRunning : Bool := false
  /-- Level of ALIVE. -/
  alive : Bool := false
  /-- A wake event has reached the wake logic (R399, R580). -/
  wakeDue : Bool := false
  /-- SMB.ALERT_STATUS, 5 bits. -/
  alertStatus : Nat := 0
  /-- SMB.ALERT_MASK. -/
  alertMask : Nat := 0x1F
  /-- READY_MAP bits that standby has cleared (R536). -/
  cleared : Nat := 0
  /-- READY_MAP bits of functions that failed to come up: they stay clear until the next power-up (R535). -/
  failed : Nat := 0
  /-- The cap that thermal throttling leaves, in W; none while it does not act (R582). -/
  thermalCap : Option Nat := none
  /-- The tick of the last thermal step (R582). -/
  capAt : Option Nat := none
deriving DecidableEq, Repr

/-- A calibration record (R540). -/
structure CalRecord where
  /-- STATUS: 0 PASS, 1 CLAMPED, 2 FAILED, 3 NEVER. -/
  status : Nat := 3
  /-- COUNT, 32 bits, wrapping. -/
  count : Nat := 0
  /-- LAST. -/
  last : Stamp := {}
  /-- VALUE, 32 bits. -/
  value : Nat := 0
deriving DecidableEq, Repr

/-- The schedule of a calibration class (R543). -/
structure CalSchedule where
  /-- MODE: 0 DEFAULT, 1 HOLD, 2 PERIODIC, 3 DRIFT. -/
  mode : Nat := 0
  /-- DELTA_C. -/
  deltaC : Nat := 0
  /-- PERIOD_S. -/
  periodS : Nat := 0
deriving DecidableEq, Repr

/-- The pin-deskew measurement of one device (R333). -/
structure DeskewRun where
  /-- The device. -/
  device : Nat := 0
  /-- Channels that are still to be measured; the first is under measurement. -/
  pins : List Nat := []
  /-- Who asked for it: 0 power-up, 1 TRELLIS.DESKEW, 2 CAL.RUN, 3 a schedule. -/
  why : Nat := 0
  /-- The measurement has begun: TIU channel `device` is HELD (R387). -/
  playing : Bool := false
  /-- The front-end threshold that Steward firmware sets. -/
  code : Nat := 0
  /-- The site number that Steward firmware plays as. -/
  site : Nat := 0
  /-- Places of the means found for the channel, in vector periods / (4,096 × 10^16): drive-data edge, reference, strobe. -/
  means : List Nat := []
  /-- Stamps taken of the present mean. -/
  count : Nat := 0
  /-- T of the first of them. -/
  anchor : Nat := 0
  /-- Sum of their distances from the first, modulo the vector period, in vector periods / 10^16. -/
  sum : Int := 0
deriving DecidableEq, Repr

/-- Calibration (R537 to R544). -/
structure Calib where
  /-- Records by class × 65,536 + index. -/
  recs : KMap CalRecord := []
  /-- Schedules by class. -/
  sched : KMap CalSchedule := []
  /-- The tick at which bit 29 was set, or 0 (R542). -/
  doneTick : Nat := 0
  /-- The power-up pin-deskew measurement runs (R538). -/
  deskewRunning : Bool := false
  /-- Pin-deskew measurements, in the order in which they are made. -/
  runs : List DeskewRun := []
  /-- Units trimmed in the scheduled pass of class 8 that is under way. -/
  passed : Nat := 0
  /-- Units that failed in it. -/
  missed : Nat := 0
deriving DecidableEq, Repr

/-- What the cache holds of one identity memory (R551, R554). -/
structure IdDev where
  /-- STATUS of R551. -/
  status : Nat := 0
  /-- FLAGS of R554: [0] SIGNED, [1] CONFLICT, [2] CHANGED. -/
  flags : Nat := 0
  /-- TYPE. -/
  type : Nat := 0
  /-- VERSION. -/
  version : Nat := 0
  /-- LENGTH. -/
  length : Nat := 0
  /-- SERIAL, 16 bytes. -/
  serial : List Byte := []
  /-- CHECK. -/
  check : Nat := 0
  /-- The record and its signature block, as read. -/
  bytes : List Byte := []
deriving DecidableEq, Repr

/-- A firmware slot of the on-module flash (R557). -/
structure FwSlot where
  /-- VERSION. -/
  version : Nat := 0
  /-- SVN. -/
  svn : Nat := 0
  /-- SHA-512 digest of bytes 0 to 159 + BODY_BYTES. -/
  digest : List Byte := []
deriving DecidableEq, Repr

/-- An owner key with its policy (R560). -/
structure OwnerKey where
  /-- The 133-byte public key. -/
  key : List Byte := []
  /-- POLICY. -/
  policy : Nat := 0
deriving DecidableEq, Repr

/-- Instruction of the boundary-scan port (R559). -/
inductive TapInstr where
  | bypass | idcode | samplePreload | extest | clamp
deriving DecidableEq, Repr

/-- Identity memories, firmware and keys (R546 to R567). -/
structure Security where
  /-- Identity cache by bus × 8 + device. -/
  ids : KMap IdDev := []
  /-- Flash slots: 0 A, 1 B. -/
  slots : KMap FwSlot := []
  /-- The active slot. -/
  active : Nat := 0
  /-- SEC.STATE.RUNNING_SLOT. -/
  runningSlot : Nat := 0
  /-- SEC.STATE.RECOVERY. -/
  recovery : Bool := false
  /-- SEC.STATE.FALLBACK. -/
  fallback : Bool := false
  /-- SEC.STATE.STAGED: the slot that is not running holds a staged image. -/
  staged : Bool := false
  /-- A Steward restart under ACTIVATE_NOW runs (R565). -/
  restarting : Bool := false
  /-- The owner key, where one is set. -/
  owner : Option OwnerKey := none
  /-- Anti-rollback counters 0 to 63 (R558). -/
  counters : KMap Nat := []
  /-- The boundary-scan instruction. -/
  tap : TapInstr := .bypass
  /-- EXTEST or CLAMP has put the module in reset, until Test-Logic-Reset (R559). -/
  tapHeld : Bool := false
deriving DecidableEq, Repr

/-! ## The machine -/

/-- The module. DESIGN CHOICE, log entry 94. -/
structure State where
  /-- Commands that are waiting, first in, first out. -/
  pending : List Instr := []
  /-- Module time in ticks (R6); stamps carry it modulo 2^64. -/
  now : Nat := 0
  /-- What the module has sent out, newest first (the model's own record). -/
  out : List Out := []
  /-- How many free values have been drawn (the model's own field). -/
  freeDrawn : Nat := 0
  /-- Supply and power state. -/
  pw : Power := {}
  /-- READY_MAP (R535). -/
  ready : BitVec 64 := 0#64
  /-- Host interface. -/
  host : HostIf := {}
  /-- Fast control window. -/
  fcw : Fcw := {}
  /-- Time base and clock synthesis. -/
  ck : Clock := {}
  /-- RF inputs 0 to 3. -/
  inputs : KMap RfInput := []
  /-- Logical DDCs 0 to 31. -/
  ddcs : KMap Ddc := []
  /-- Transform engine. -/
  press : Press := {}
  /-- Spectral detection and density. -/
  spec : SpecState := {}
  /-- Trigger engine. -/
  trig : TrigState := {}
  /-- Acquisition contexts that have been created. -/
  ctxs : KMap Ctx := []
  /-- Visible Sorrel cores 0 to 63. -/
  cores : KMap Core := []
  /-- Pattern sequencer. -/
  pat : PatState := {}
  /-- PE devices 0 to 63. -/
  pe : KMap PeDev := []
  /-- Buddy side ports that have failed, by pair (R330). -/
  sideDead : List Nat := []
  /-- Stimulus outputs 0 and 1. -/
  stim : KMap StimOut := []
  /-- Vine chain. -/
  vine : Vine := {}
  /-- TIU channels 0 to 63. -/
  tiu : KMap TiuChan := []
  /-- TIU groups 0 to 3. -/
  tiuGroups : KMap TiuGroup := []
  /-- Comparators and monitor converter. -/
  mon : Mon := {}
  /-- Flows: units that producers have offered and that are not accepted yet, by flow, oldest first. -/
  offered : KMap (List FlowUnit) := []
  /-- Racking. -/
  rack : Racking := {}
  /-- Stream ports 0 to 4. -/
  ports : KMap Port := []
  /-- Display engine. -/
  disp : Disp := {}
  /-- Cellar contents. -/
  cellarMem : Memory := []
  /-- Cellar regions by base. -/
  regions : KMap Region := []
  /-- Cellar controllers. -/
  cell : Cellar := {}
  /-- Power manager and allotments. -/
  bud : Budget := {}
  /-- Cellar operating point in force: 0 6.4, 1 4.8, 2 3.2 Gb/s. -/
  cellarOp : Nat := 0
  /-- Fault management. -/
  ft : FaultState := {}
  /-- Calibration. -/
  cal : Calib := {}
  /-- Identity and security. -/
  sec : Security := {}
deriving DecidableEq, Repr

/-- Why the module stops. No row of the table stops it: every hardware fault of the spec is taken over,
logged or counted by the row that reports it. -/
inductive Fault where
  /-- Raised by no meaning. -/
  | none
deriving DecidableEq, Repr

/-- Why the model gives a row no meaning. -/
inductive Refusal where
  /-- The row has no meaning in this model yet; raised only by an arm of `exec`. Safe. -/
  | notModelled (mnemonic : String)
deriving DecidableEq, Repr

/-- The module before any feed is present (R578 UNPOWERED): every register at its reset value, the
queue empty. DESIGN CHOICE, log entries 2 and 4. -/
def State.reset : State := {}

end Sys2Proof.Machine
end

