-- ==== Sys2Proof/Machine/Ops.lean ====
section
/-! DEFINITION. The shared operations: status codes, module time, free values, outputs, events and
completions with their rings (R6, R38 to R45, R66, R590, R595). -/

namespace Sys2Proof.Machine

/-- The code of a status (R66). -/
def Status.code : Status → Nat
  | .ok => 0x0000 | .accepted => 0x0001 | .badOpcode => 0x0010 | .badLength => 0x0011
  | .badParam => 0x0012 | .badState => 0x0013 | .notReady => 0x0014 | .noAllotment => 0x0015
  | .noEnergy => 0x0016 | .denied => 0x0017 | .segmentActive => 0x0018 | .noResource => 0x0019
  | .aborted => 0x0020 | .quiesced => 0x0021 | .xferError => 0x0030 | .xferErrorFinal => 0x0031
  | .timeout => 0x0040

/-- Module time moves on to tick `t`, never back, and stands still until the counter runs (R18, R19, R95, R533).
DESIGN CHOICE, log entry 7. -/
def State.advance (s : State) (t : Nat) : State :=
  if s.pw.tickRunning then { s with now := max s.now t } else s

/-- Module time now, as a stamp: the one 64-bit count from which every time of the module is taken (R6, R18). -/
def State.stampNow (s : State) : Stamp := { tick := s.now }

/-- The always-on region is powered and the module is not held in reset (R12, R578).
DESIGN CHOICE, log entries 2 and 86. -/
def State.powered (s : State) : Bool :=
  match s.pw.state with
  | .starting | .running | .standby | .thermalTrip => !s.sec.tapHeld
  | .unpowered | .heldShutdown => false

/-- A row that can happen only while the module is powered: it happens at tick `t`, or leaves the state.
DESIGN CHOICE, log entry 7. -/
def State.whenPowered (s : State) (t : Nat) (f : State → State) : State :=
  if s.powered then f (s.advance t) else s

/-- READY_MAP bit `b` (R535). -/
def State.readyBit (s : State) (b : Nat) : Bool := s.ready.getLsbD b

/-- Sets READY_MAP bit `b`. -/
def State.setReady (s : State) (b : Nat) : State :=
  { s with ready := s.ready ||| BitVec.ofNat 64 (2 ^ b) }

/-- Clears the READY_MAP bits of a mask. -/
def State.clearReady (s : State) (mask : Nat) : State :=
  { s with ready := s.ready &&& ~~~(BitVec.ofNat 64 mask) }

/-- An unmasked fault leaves functions with no unit: their bits clear, and stay so until a reset or the next power-up
(R71, R536). -/
def State.bitsLost (s : State) (mask : Nat) : State :=
  ({ s with pw := { s.pw with failed := s.pw.failed ||| mask } } : State).clearReady mask

/-- The tick that a 64-bit tick count names: the one nearest to module time, before or after it, among those that
agree with it modulo 2^64 (R6). Inside the machine ticks do not wrap; a field that software reads holds them modulo
2^64. DESIGN CHOICE, log entry 98. -/
def State.lift (s : State) (tick : Nat) : Nat :=
  let t := tick % 2 ^ 64
  let m := s.now % 2 ^ 64
  let b := s.now - m
  if t + 2 ^ 63 ≤ m then b + 2 ^ 64 + t else if m + 2 ^ 63 ≤ t then b - 2 ^ 64 + t else b + t

/-- The unwrapped stamp that an 80-bit stamp names (R6). -/
def State.full (s : State) (st : Stamp) : Stamp := { st with tick := s.lift st.tick }

/-- The stamp of an instant that a subsystem whose latest stamp is `prev` takes: it lies neither before that nor after now
(R19). -/
def State.nextStamp (s : State) (prev st : Stamp) : Stamp :=
  let a := s.full st
  let v := if stampFine a < stampFine prev then prev else a
  if stampFine s.stampNow < stampFine v then s.stampNow else v

/-- A stamp taken at tick `t` is provisional: WARM was not set by then (R6, R91). -/
def State.provisionalAt (s : State) (t : Nat) : Bool := match s.ck.warmAt with
  | some w => decide (s.lift t < w)
  | none => true

/-- A stamp taken now would be provisional: WARM is not set (R6, R91). -/
def State.provisional (s : State) : Bool := s.ck.warmAt.isNone

/-- The next free value, as a number below 2^w; it is drawn by `State.drawFree`. DESIGN CHOICE, log entry 5. -/
def State.freeNat (s : State) (w : Nat) : Nat := (Config.freeBits w s.freeDrawn).toNat

/-- Counts one free value as drawn. DESIGN CHOICE, log entry 5. -/
def State.drawFree (s : State) : State := { s with freeDrawn := s.freeDrawn + 1 }

/-- Records an output. DESIGN CHOICE, log entry 6. -/
def State.emit (s : State) (o : Out) : State := { s with out := o :: s.out }

/-! ## Functions, channels, rings -/

/-- Function `fn`. DESIGN CHOICE, log entry 22. -/
def State.func (s : State) (fn : Nat) : Func := s.host.fns.get fn {}

/-- Replaces function `fn`. -/
def State.setFunc (s : State) (fn : Nat) (f : Func) : State :=
  { s with host := { s.host with fns := s.host.fns.set fn f } }

/-- Channels of a function: 64 on PF0, 16 on PF1 (R28, R29). -/
def chanCount (fn : Nat) : Nat := if fn = 0 then 64 else 16

/-- MSI-X vectors of a function (R24). -/
def vectorCount (fn : Nat) : Nat := if fn = 0 then 2048 else 64

/-- Offset of the MSI-X table in the window of a function (R28, R29). -/
def msixBase (fn : Nat) : Nat := if fn = 0 then 0x8000 else 0x7800

/-- MSI-X is enabled and the function not masked: bits 31 and 30 of the word at 0x90 of configuration space (R24).
PRESUMED, log entry 97. -/
def Func.msixOn (f : Func) : Bool := f.cfg.get 0x90 0 / 2 ^ 30 == 2

/-- Vector `v` of a function is masked: as the whole function, or by bit 0 of the vector control word of its entry.
PRESUMED, log entry 97. -/
def Func.masked (f : Func) (fn v : Nat) : Bool :=
  !f.msixOn || !(f.msixTable.read (msixBase fn + 16 * v + 12)).getLsbD 0

/-- Sends an MSI-X message, or sets its pending bit while its vector is masked (R24, R28, R29).
PRESUMED, log entry 97. -/
def State.message (s : State) (fn v : Nat) : State :=
  let f := s.func fn
  if f.masked fn v then s.setFunc fn { f with msixPending := f.msixPending.filter (· != v) ++ [v] }
  else s.emit (.msix fn v)

/-- Sends out a list of outputs, newest first. -/
def State.post (s : State) (os : List Out) : State :=
  os.foldr (fun o s => match o with
    | .msix fn v => s.message fn v
    | o => s.emit o) s

/-- The event codes of R590. -/
def eventCodes : List Nat :=
  [0x0101, 0x0201, 0x0202, 0x0203, 0x0204, 0x0205, 0x0301, 0x0401, 0x0701, 0x0801, 0x0802, 0x0803,
   0x0804, 0x0901, 0x0A01, 0x0A02, 0x0A03, 0x0B01, 0x0B02, 0x0C01, 0x0D01, 0x0D02, 0x0E01, 0x0F01,
   0x0F02, 0x1101, 0x1102, 0x1201, 0x1301, 0x1302, 0x1303, 0x1304, 0x1305, 0x1306, 0x1401, 0x1402,
   0x1501, 0x1502, 0x1601, 0x1701]

/-- Number of entries of a ring. -/
def Ring.size (r : Ring) : Nat := 2 ^ r.sizeLog2

/-- Entries written and not yet consumed: PROD − CONS, modulo 2^32. -/
def Ring.fill (r : Ring) : Nat := (r.prod + 2 ^ 32 - r.cons % 2 ^ 32) % 2 ^ 32

/-- The ring has no free slot. -/
def Ring.full (r : Ring) : Bool := decide (r.size ≤ r.fill)

/-- The phase bit of the entry with count `c`: 1 on the first pass (R39). -/
def Ring.phase (r : Ring) (c : Nat) : Nat := 1 - (c / r.size) % 2

/-- Entries can leave the module: the link is in L0 (R45) and a Steward pair serves (R514). -/
def State.canWrite (s : State) : Bool :=
  s.host.link == .l0 && !s.host.perst && s.pw.steward && s.ft.haltedPairs.length < 5

/-- Sends the ring's MSI-X message if R41 asks for it now. -/
def Ring.signals (r : Ring) : Bool :=
  r.unsignalled != 0 && r.fill != 0 && (r.coalTime == 0 || decide (r.coalCount ≤ r.unsignalled))

/-- The ring after an entry has been written at module time `now` (R39, R41). -/
def Ring.wrote (r : Ring) (now : Nat) : Ring :=
  { r with prod := (r.prod + 1) % 2 ^ 32, unsignalled := r.unsignalled + 1,
           since := if r.unsignalled = 0 then now else r.since, lostBefore := false }

/-- The 32 bytes of an event entry (R44). -/
def EventRec.bytes (e : EventRec) (phase : Nat) (lostBefore : Bool) : List Byte :=
  pack [(2, e.code), (1, phase + 2 * bit lostBefore + 4 * bit e.prov), (1, 0), (4, e.source)] ++
    stampBytes e.stamp ++ leBytes 8 e.detail

/-- The 16 bytes of a completion entry (R43). -/
def ComplRec.bytes (c : ComplRec) (phase : Nat) : List Byte :=
  pack [(2, c.tag), (2, c.status), (1, c.chan), (1, phase), (2, c.opcode), (8, c.result)]

/-- What one entry sends out, newest first: the entry, then the shadow, then a message if due (R40, R41). -/
def Ring.outputs (fn : Nat) (old new : Ring) (entry : List Byte) : List Out :=
  (if new.signals then [Out.msix fn new.vector] else []) ++
    [Out.hostWrite fn old.shadow (leBytes 8 new.prod) false,
     Out.hostWrite fn (old.base + (old.prod % old.size) * entry.length) entry false]

/-- Message bookkeeping after a write: a message that is sent leaves nothing unsignalled. -/
def Ring.settle (r : Ring) : Ring := if r.signals then { r with unsignalled := 0 } else r

/-- Writes one event into a ring that can take it; answers the ring and the outputs, newest first. -/
def Ring.putEvent (fn now : Nat) (r : Ring) (e : EventRec) : Ring × List Out :=
  let r' := r.wrote now
  (r'.settle, Ring.outputs fn r r' (e.bytes (r.phase r.prod) r.lostBefore))

/-- Writes the held events that the ring can take, oldest first (R42). -/
def Ring.drain (fn now : Nat) : List EventRec → Ring → List Out → Ring × List Out
  | [], r, o => ({ r with held := [] }, o)
  | e :: es, r, o =>
    if r.full then ({ r with held := e :: es }, o)
    else
      let p := r.putEvent fn now e
      Ring.drain fn now es p.1 (p.2 ++ o)

/-- An event for a ring: written, held behind others, or lost (R42). -/
def Ring.offer (fn now : Nat) (can : Bool) (r : Ring) (e : EventRec) : Ring × List Out :=
  if !r.enabled then (r, [])
  else if can && r.held.isEmpty && !r.full then r.putEvent fn now e
  else if r.held.length < 512 then ({ r with held := r.held ++ [e] }, [])
  else ({ r with lost := satAdd 32 r.lost 1, overflow := true, lostBefore := true }, [])

/-- WAKE_N is asserted when an entry is due for a function in D3hot on a link in L2 (R45). -/
def State.wakeIfDue (s : State) (fn : Nat) : State :=
  if (s.func fn).d3hot && s.host.link == .l2 then { s with host := { s.host with wakeAsserted := true } }
  else s

/-- Offers an event to function `fn` (R38, R70): a code with no route of its own goes to ER0. -/
def State.eventTo (s : State) (fn : Nat) (e : EventRec) : State :=
  let f := s.func fn
  let i := f.route.get e.code 0
  let r := f.ers.get i {}
  if r.enabled then
    let p := r.offer fn s.now s.canWrite e
    ((s.setFunc fn { f with ers := f.ers.set i p.1 }).post p.2).wakeIfDue fn
  else s

/-- The Steward runs and can raise events. -/
def State.stewardRuns (s : State) : Bool := s.pw.steward && s.ft.haltedPairs.length < 5

/-- Raises an event with an explicit stamp: it goes to every function that has an enabled ring for it
(R70). After the last Steward pair has halted none is written (R514). -/
def State.eventAt (s : State) (code source : Nat) (st : Stamp) (detail : Nat) : State :=
  if s.stewardRuns then
    let e : EventRec := { code, source, stamp := st, prov := s.provisionalAt st.tick, detail }
    (s.eventTo 0 e).eventTo 1 e
  else s

/-- Stamp `b` where it is not before stamp `a`, else `a`: the stamps of one unit never go back (R19). Of two stamps
the later is the one less than half the range of the count ahead. DESIGN CHOICE, log entry 98. -/
def laterStamp (a b : Stamp) : Stamp :=
  if (stampNat b + (2 ^ 80 - stampNat a)) % 2 ^ 80 < 2 ^ 79 then b else a

/-- Raises an event stamped now (R23). -/
def State.event (s : State) (code source detail : Nat) : State :=
  s.eventAt code source s.stampNow detail

/-- The completion ring of a channel (R38, R70). -/
def Func.ringOf (f : Func) (chan : Nat) : Nat := f.chanRing.get chan (chan % 16)

/-- Writes the completions of a list that their rings can take, in order; the others stay held (R42, R70). -/
def drainCompl (fn now : Nat) (can : Bool) : List ComplRec → Func → List ComplRec → List Out →
    Func × List Out
  | [], f, kept, o => ({ f with held := kept }, o)
  | c :: cs, f, kept, o =>
    let i := f.ringOf c.chan
    let r := f.crs.get i {}
    if can && r.enabled && !r.full && !(kept.any fun k => f.ringOf k.chan == i) then
      let r' := r.wrote now
      drainCompl fn now can cs { f with crs := f.crs.set i r'.settle } kept
        (Ring.outputs fn r r' (c.bytes (r.phase r.prod)) ++ o)
    else drainCompl fn now can cs f (kept ++ [c]) o

/-- Writes whatever held completions of function `fn` can be written. -/
def State.flushCompl (s : State) (fn : Nat) : State :=
  let f := s.func fn
  let p := drainCompl fn s.now s.canWrite f.held f [] []
  (s.setFunc fn p.1).post p.2

/-- Queues a completion entry and writes it if its ring can take it (R42, R43). DESIGN CHOICE, log entry 116. -/
def State.pushCompl (s : State) (fn : Nat) (c : ComplRec) : State :=
  let f := s.func fn
  ((s.setFunc fn { f with held := f.held ++ [c] }).flushCompl fn).wakeIfDue fn

/-- Writes the held events of one event ring that it can take. -/
def State.flushEr (s : State) (fn i : Nat) : State :=
  if s.canWrite then
    let f := s.func fn
    let r := f.ers.get i {}
    if r.enabled then
      let p := Ring.drain fn s.now r.held r []
      (s.setFunc fn { f with ers := f.ers.set i p.1 }).post p.2
    else s
  else s

/-- Writes every held entry of a function that can be written (R45). -/
def State.flushAll (s : State) (fn : Nat) : State :=
  ((List.range 16).foldl (fun s i => s.flushEr fn i) s).flushCompl fn

end Sys2Proof.Machine
end

