-- ==== Sys2Proof/Machine/Flags.lean ====
section
/-! DEFINITION. Status words and derived flags: pools and spares, HEALTH, LINK_STATUS, MB.CHAN_STATE,
ring control words, FCW.STATUS, SMB.STATE and the pins that follow them (R30, R33, R39, R81, R513, R523 to R525,
R562, R585). -/

namespace Sys2Proof.Machine

/-- Number of pools of a fault class (R513, R592). -/
def poolCount (cls : Nat) : Nat :=
  match cls with
  | 1 | 2 | 8 | 19 => 4
  | 3 | 4 | 5 | 6 | 9 | 11 | 12 | 13 | 14 | 17 | 18 => 1
  | 10 => 32
  | 15 | 21 => 10
  | 16 => 13
  | 20 => 2
  | _ => 0

/-- Spares per pool at power-up (R513). -/
def poolSpares (cls : Nat) : Nat :=
  match cls with
  | 1 => 2
  | 4 => 4
  | 20 => 8
  | 7 | 22 => 0
  | _ => if poolCount cls = 0 then 0 else 1

/-- Units of a pool (R592). -/
def poolUnits (cls : Nat) : Nat :=
  match cls with
  | 1 => 34 | 2 => 9 | 3 => 9 | 4 => 68 | 5 => 3 | 6 => 5 | 8 => 33 | 9 => 4 | 10 => 5 | 11 => 5
  | 12 => 16 | 13 => 2 | 14 => 2 | 15 => 2 | 16 => 7 | 17 => 2 | 18 => 2 | 19 => 17 | 20 => 136
  | 21 => 2 | _ => 0

/-- Key of a pool. -/
def poolKey (cls pool : Nat) : Nat := cls * 65536 + pool

/-- Spares left in a pool (R513). -/
def State.sparesLeft (s : State) (cls pool : Nat) : Nat :=
  s.ft.spares.get (poolKey cls pool) (poolSpares cls)

/-- Some pool of the class is empty (R513, R523). -/
def State.classExposed (s : State) (cls : Nat) : Bool :=
  (List.range (poolCount cls)).any fun p => s.sparesLeft cls p == 0

/-- The classes that have pools. -/
def pooledClasses : List Nat := [1, 2, 3, 4, 5, 6, 8, 9, 10, 11, 12, 13, 14, 15, 16, 17, 18, 19, 20, 21]

/-- HEALTH.EXPOSED_MAP, with class c at bit c (R523). -/
def State.exposedMap (s : State) : Nat :=
  (pooledClasses.map fun c => if s.classExposed c then 2 ^ c else 0).foldl (· + ·) 0

/-- A spare has been consumed or a unit borrowed (R524). -/
def State.spareUsed (s : State) : Bool :=
  !s.ft.borrowed.isEmpty ||
    s.ft.spares.any fun e => decide (e.2 < poolSpares (e.1 / 65536))

/-- HEALTH.GRADE: 0 FULL, 1 SPARED, 2 DEGRADED (R524). -/
def State.grade (s : State) : Nat :=
  if !s.ft.outstanding.isEmpty then 2 else if s.spareUsed then 1 else 0

/-- The last Steward pair has halted (R514). -/
def State.allPairsHalted (s : State) : Bool := decide (5 ≤ s.ft.haltedPairs.length)

/-- FAULT_N is driven low (R525). -/
def State.faultN (s : State) : Bool := s.powered && (s.grade == 2 || s.allPairsHalted)

/-- IDENT.LINK_STATUS (R30). DESIGN CHOICE, log entry 24. -/
def State.linkStatus (s : State) : Nat :=
  s.host.linkWidth + 32 * s.host.linkSpeed + 256 * bit s.host.narrowed

/-- MB.CHAN_STATE (R33), given whether the channel's pair runs. -/
def Chan.stateWord (c : Chan) (awake : Bool) : Nat :=
  c.owner + 2 ^ 8 * bit awake + 2 ^ 16 * bit c.doorbellLost + 2 ^ 17 * bit c.doorbellNoLock +
    2 ^ 18 * bit c.lockBroken

/-- MB.ACK (R32). -/
def Chan.ackWord (c : Chan) : Nat := c.ackStatus + 2 ^ 16 * c.ackTag + 2 ^ 31 * bit c.valid

/-- Ring control offset 0x08 (R39). -/
def Ring.flagWord (r : Ring) : Nat := bit r.enabled + 2 * bit r.overflow

/-- Ring control offset 0x10 (R39). -/
def Ring.coalWord (r : Ring) : Nat := r.coalCount + 2 ^ 16 * r.coalTime

/-- FCW.STATUS (R81). -/
def State.fcwStatus (s : State) : Nat :=
  bit s.fcw.resyncBusy + 2 * bit (s.func 0).keyOpen + 4 * bit s.fcw.keyRefused + 8 * bit s.fcw.rwpDropped

/-- SEC.STATE (R562). -/
def State.secState (s : State) : Nat :=
  bit s.sec.recovery + 2 * bit s.sec.fallback + 4 * s.sec.runningSlot + 8 * bit s.sec.staged + 16 +
    32 * bit s.sec.owner.isSome + 64 * ((s.sec.owner.map OwnerKey.policy).getD 0 % 4)

/-- SMB.STATE (R585). -/
def State.smbState (s : State) : Nat :=
  (match s.pw.state with
   | .starting => 1 | .running => 2 | .standby => 3 | .thermalTrip => 4 | _ => 0) +
    8 * bit (s.stewardRuns && !s.sec.recovery) + 16 * bit s.faultN

/-- SMB_ALERT_N is driven low (R586). DESIGN CHOICE, log entry 85. -/
def State.smbAlertN (s : State) : Bool := s.pw.alertStatus &&& s.pw.alertMask != 0

/-- Sets bits of SMB.ALERT_STATUS (R585, R586). -/
def State.setAlert (s : State) (mask : Nat) : State :=
  { s with pw := { s.pw with alertStatus := s.pw.alertStatus ||| mask } }

end Sys2Proof.Machine
end

