-- ==== Sys2Proof/Machine/Fault.lean ====
section
/-! DEFINITION. Fault accounting shared by every block: spares, retired units, the log, HEALTH and the two fault
events (R511, R513, R520 to R527, R532, R591). -/

namespace Sys2Proof.Machine

/-- What a block says of one fault: the fields of its log entry that only the block knows (R527). -/
structure FaultInfo where
  /-- TAKEN_BY, or 0xFFFF. -/
  takenBy : Nat := 0xFFFF
  /-- LOGICAL, or 0xFFFF. -/
  logical : Nat := 0xFFFF
  /-- TAKEOVER_NS. -/
  takeoverNs : Nat := 0
  /-- INTERVAL_START. -/
  intervalStart : Nat := 0
  /-- INTERVAL_TICKS. -/
  intervalTicks : Nat := 0
  /-- DETAIL. -/
  detail : Nat := 0
  /-- INJECTED. -/
  injected : Bool := false
  /-- BORROWED. -/
  borrowed : Bool := false
  /-- SELF_TEST. -/
  selfTest : Bool := false

/-- HEALTH, the 64 bits of R523; `over` is LEDGER.STATUS.OVERRIDE. -/
def State.healthWord (s : State) (outside : Bool) : Nat :=
  s.grade + 4 * bit (s.exposedMap != 0) + 8 * bit s.faultN + 16 * bit outside + 2 ^ 8 * s.ft.lastClass +
    2 ^ 32 * s.exposedMap

/-- DETAIL of EV_HEALTH_CHANGED (R532). -/
def State.healthDetail (s : State) : Nat :=
  s.grade + 4 * bit (s.exposedMap != 0) + 8 * bit s.faultN + 2 ^ 8 * s.ft.lastClass + 2 ^ 32 * s.exposedMap

/-- Raises EV_HEALTH_CHANGED where GRADE, EXPOSED or EXPOSED_MAP has changed since `old`, or where `always`
says so; a changed grade sets its SMB alert bit (R521, R532, R585). DESIGN CHOICE, log entry 35. -/
def State.healthFrom (old s : State) (always : Bool) : State :=
  let s' := if s.grade != old.grade then s.setAlert 8 else s
  if always || s.grade != old.grade || s.exposedMap != old.exposedMap then
    s'.event 0x1502 0 s'.healthDetail
  else s'

/-- A unit is retired (R591). -/
def State.isRetired (s : State) (u : Unit3) : Bool := s.ft.retired.contains u

/-- Appends a log entry with the next SEQ, keeping the latest 4,096 (R526). -/
def State.logEntry (s : State) (e : LogEntry) : State :=
  let l := s.ft.log ++ [{ e with seq := s.ft.written, stamp := s.stampNow }]
  { s with ft := { s.ft with log := l.drop (l.length - 4096), written := s.ft.written + 1 } }

/-- The log entry of a fault. -/
def logOf (u : Unit3) (i : FaultInfo) (kind left : Nat) : LogEntry :=
  { cls := u.cls, kind, flags := bit i.injected + 2 * bit i.borrowed + 4 * bit i.selfTest,
    sparesLeft := left, pool := u.pool, failed := u.unit, takenBy := i.takenBy, logical := i.logical,
    takeoverNs := min i.takeoverNs (2 ^ 32 - 1), intervalStart := i.intervalStart,
    intervalTicks := i.intervalTicks, detail := i.detail }

/-- Counts a fault of a class (R523, R529). -/
def FaultState.count (f : FaultState) (cls : Nat) : FaultState :=
  { f with faults := f.faults.set cls (satAdd 8 (f.faults.get cls 0) 1), lastClass := cls }

/-- Puts a unit out of service (R591), noting whether only injection did so (R531). -/
def FaultState.retire (f : FaultState) (u : Unit3) (inj : Bool) : FaultState :=
  { f with retired := f.retired ++ [u], injected := if inj then f.injected ++ [u] else f.injected }

/-- `READY_MAP` bit of the function whose self-test finds faults of a unit, where there is one (R522, R535). -/
def Unit3.readyBit (u : Unit3) : Option Nat :=
  match u.cls with
  | 1 => some (7 + u.pool) | 2 => some 11 | 3 => some 12 | 4 => some 16 | 5 => some 14 | 8 => some 6 | 9 => some 6
  | 10 => some 18 | 11 => some 25 | 18 => some 26 | 19 => some 22 | _ => none

/-- What a block says of a fault, marked SELF_TEST while the function of the unit is not ready (R522). -/
def State.found (s : State) (u : Unit3) (i : FaultInfo) : FaultInfo :=
  { i with selfTest := i.selfTest || u.readyBit.any fun b => !s.readyBit b }

/-- TAKEOVER_NS of a fault that another unit takes over: the time is bounded and not stated, so it is free; 0 where none
takes over (R527). DESIGN CHOICE, log entry 5. -/
def State.timed (s : State) (i : FaultInfo) : FaultInfo :=
  if i.takenBy = 0xFFFF then i else { i with takeoverNs := s.freeNat 32 }

/-- A masked fault: the unit is retired, a spare of its pool is consumed unless a unit was borrowed for
it, the fault is counted and logged, EV_FAULT_MASKED is raised, and EV_HEALTH_CHANGED where HEALTH
changes (R511, R521 to R527, R532). -/
def State.faultMasked (s : State) (u : Unit3) (i : FaultInfo) : State :=
  let left := if i.borrowed then s.sparesLeft u.cls u.pool else s.sparesLeft u.cls u.pool - 1
  let ft := (s.ft.count u.cls).retire u i.injected
  let s1 := { s with ft := { ft with
    spares := if poolCount u.cls = 0 then ft.spares else ft.spares.set (poolKey u.cls u.pool) left,
    masked := satAdd 32 ft.masked 1 } }
  let s2 := (if i.takenBy = 0xFFFF then s1 else s1.drawFree).logEntry (logOf u (s.found u (s.timed i)) 1 left)
  let st := if i.intervalStart = 0 then s2.stampNow else { tick := i.intervalStart }
  let s3 := s2.eventAt 0x1501 (if i.logical = 0xFFFF then 0xFFFFFFFF else i.logical) st
    (u.cls + 2 ^ 8 * left + 2 ^ 16 * u.pool + 2 ^ 32 * min i.intervalTicks (2 ^ 32 - 1))
  State.healthFrom s s3 false

/-- An unmasked fault: the unit is retired, the fault is counted, logged and outstanding, and
EV_HEALTH_CHANGED is raised without EV_FAULT_MASKED (R521, R532). -/
def State.faultUnmasked (s : State) (u : Unit3) (i : FaultInfo) : State :=
  let ft := (s.ft.count u.cls).retire u i.injected
  let s1 := { s with ft := { ft with unmasked := satAdd 32 ft.unmasked 1,
                                     outstanding := ft.outstanding ++ [u] } }
  State.healthFrom s (s1.logEntry (logOf u (s.found u i) 2 (s1.sparesLeft u.cls u.pool))) true

/-- A fault outside the single-fault scope: class 22, unmasked; no unit is retired (R521). -/
def State.outOfScope (s : State) (i : FaultInfo) : State :=
  let u : Unit3 := ⟨22, 0, 0xFFFF⟩
  let s1 := s.faultUnmasked u i
  { s1 with ft := { s1.ft with retired := s1.ft.retired.filter (· != u) } }

/-- An uncorrectable word of a duplicated structure is rebuilt from the other copy: class 7, masked, with no
unit retired (R515). -/
def State.faultWord (s : State) (detail : Nat) : State :=
  let ft := s.ft.count 7
  let s1 := { s with ft := { ft with masked := satAdd 32 ft.masked 1 } }
  let s2 := s1.logEntry (logOf ⟨7, 0, 0xFFFF⟩ { detail } 1 0)
  State.healthFrom s (s2.event 0x1501 0xFFFFFFFF 7) false

/-- A fault covered where the pool still holds a spare, unmasked where it does not (R512, R513); a retired
unit's monitors are no longer acted on (R591). -/
def State.faultIn (s : State) (u : Unit3) (i : FaultInfo) : State :=
  if s.isRetired u then s
  else if s.sparesLeft u.cls u.pool = 0 then s.faultUnmasked u i
  else s.faultMasked u i

/-- An outstanding unmasked fault ends (R524). -/
def State.settleFault (s : State) (u : Unit3) : State :=
  State.healthFrom s { s with ft := { s.ft with outstanding := s.ft.outstanding.filter (· != u) } } false

/-- A unit returns to its pool as a spare, with a RESTORED entry; the grade is recomputed (R517, R531). -/
def State.restoreUnit (s : State) (u : Unit3) (inj : Bool) : State :=
  let left := min (s.sparesLeft u.cls u.pool + 1) (poolSpares u.cls)
  let s1 := { s with ft := { s.ft with
    retired := s.ft.retired.filter (· != u), injected := s.ft.injected.filter (· != u),
    outstanding := s.ft.outstanding.filter (· != u),
    spares := s.ft.spares.set (poolKey u.cls u.pool) left } }
  State.healthFrom s (s1.logEntry (logOf u { injected := inj } 3 left)) false

end Sys2Proof.Machine
end

