-- ==== Sys2Proof/Machine/Objects.lean ====
section
/-! DEFINITION. The objects that the parameter block of a command names (R60). -/

namespace Sys2Proof.Machine

/-- An object of R60; `block` is a whole block, and stands for commands without an object number. -/
inductive Obj where
  | flow (n : Nat) | context (n : Nat) | trigUnit (n : Nat) | site (n : Nat) | segment (n : Nat)
  | ddc (n : Nat) | pressJob (n : Nat) | core (n : Nat) | tiuChannel (n : Nat) | peDevice (n : Nat)
  | comparator (n : Nat) | port (n : Nat) | region (base : Nat) | input (n : Nat) | stimOut (n : Nat)
  | stimSegment (n : Nat) | traceUnit (n : Nat) | plane (n : Nat) | generator (n : Nat) | windowBank (n : Nat)
  | idBus (n : Nat) | aperture | block (family : Nat)
deriving DecidableEq, Repr

/-- The region that holds Cellar byte `a`, where one does. -/
def State.regionAt (s : State) (a : Nat) : List Obj :=
  match s.regions.find? fun e => decide (e.1 ≤ a ∧ a < e.1 + e.2.bytes) with
  | some e => [.region e.1]
  | none => []

/-- A region that is named where a field says that data lie in Cellar. -/
def State.regionIf (s : State) (cellar : Bool) (a : Nat) : List Obj := if cellar then s.regionAt a else []

/-- Flow `f`, unless the field says none. -/
def flowObj (f : Nat) : List Obj := if f < 49152 then [.flow f] else []

/-- A source of ACQ (R236). -/
def acqSourceObj (kind src : Nat) : List Obj :=
  match kind with
  | 0 => [.input src] | 1 => [.ddc src] | 2 => [.pressJob src] | 3 => [.tiuChannel src]
  | 4 => [.traceUnit src] | 5 => [.core src] | _ => []

/-- A source of TRIG (R213). -/
def trigSourceObj (kind src src2 : Nat) : List Obj :=
  if kind ≤ 4 then [.input src] else
  match kind with
  | 5 => [.ddc src] | 6 => [.pressJob src] | 7 => [.pressJob src] | 9 => [.tiuChannel src]
  | 10 => [.comparator src] | 12 => [.site src] | 14 => [.trigUnit src, .trigUnit src2] | _ => []

/-- An activity of BUDGET (R504). -/
def activityObj (kind obj : Nat) : List Obj :=
  match kind with
  | 1 => [.context obj] | 2 => [.flow obj] | 3 => [.site obj] | 4 => [.core obj] | 5 => [.block 0x13]
  | 6 => [.block 0x16] | 7 => [.aperture] | 8 => [.stimOut obj] | _ => []

/-- The objects of `SYS.RESET_FUNCTION` (R71): one object of a family, or each. -/
def resetObj (fam obj : Nat) : List Obj :=
  let pick (n : Nat) (f : Nat → Obj) : List Obj :=
    if obj = 0xFFFFFFFF then .block fam :: (List.range n).map f else [f obj]
  match fam with
  | 0x03 => pick 4 .input | 0x04 => pick 32 .ddc | 0x05 => pick 32 .pressJob
  | 0x06 => pick 64 .traceUnit ++ (if obj = 0xFFFFFFFF then (List.range 4).map .plane else [])
  | 0x07 => pick 64 .trigUnit | 0x08 => pick 4096 .context | 0x09 => pick 64 .core | 0x0A => pick 256 .site
  | 0x0B => pick 64 .peDevice | 0x0C => pick 2 .stimOut | 0x0E => pick 64 .tiuChannel
  | 0x0F => .block 0x0F :: pick 16 .comparator | 0x11 => pick 49152 .flow | 0x12 => pick 5 .port
  | _ => [.block fam]

/-- The objects named by a command of a family up to PRESS. DESIGN CHOICE, log entry 90. -/
def State.objectsLow (s : State) (op : Nat) (p : List Byte) : List Obj :=
  match op with
  | 0x0105 => resetObj (u8 p 0) (u32 p 4)
  | 0x0204 => if u8 p 0 < 2 then [.generator (u8 p 0 + 1)] else [.generator 3]
  | 0x0205 | 0x0206 | 0x0207 => [.generator (u8 p 0)]
  | 0x0208 => [.generator 0]
  | 0x0201 | 0x0202 | 0x0203 => [.block 2]
  | 0x0301 | 0x0302 | 0x0303 | 0x0304 => [.input (u8 p 0)]
  | 0x0401 | 0x0402 | 0x0403 | 0x0404 | 0x0405 => [.ddc (u8 p 0)]
  | 0x0501 =>
    (if u8 p 0 = 0xFF then [] else [.pressJob (u8 p 0)]) ++ (if u8 p 3 = 0 then [.input (u8 p 4)] else [.ddc (u8 p 4)])
  | 0x0502 => .windowBank (u8 p 0) :: s.regionIf (u8 p 2 == 5 && u8 p 4 == 1) (u64 p 8)
  | 0x0503 => .pressJob (u8 p 0) :: s.regionIf (u8 p 1 == 1) (u64 p 8)
  | 0x0504 =>
    .pressJob (u8 p 0) :: (((records (u16 p 2) 4 (p.drop 16)).map leNat).filter fun e => e.testBit 16).flatMap fun e =>
      flowObj (e % 65536)
  | 0x0505 | 0x0506 => [.pressJob (u8 p 0)]
  | _ => []

/-- The objects named by a command of SPEC, TRIG, ACQ or SORREL. -/
def State.objectsMid (s : State) (op : Nat) (p : List Byte) : List Obj :=
  let specObj (kind n : Nat) : Obj := if kind = 0 then .traceUnit n else .plane n
  match op with
  | 0x0601 => [.traceUnit (u8 p 0), .pressJob (u8 p 1)] ++ flowObj (u32 p 28)
  | 0x0602 => [.plane (u8 p 0), .pressJob (u8 p 2)]
  | 0x0603 => (maskBits 4 (u8 p 0)).map .plane
  | 0x0604 => specObj (u8 p 0) (u32 p 4) :: s.regionIf ((u8 p 1).testBit 1) (u64 p 24)
  | 0x0605 => [.traceUnit (u8 p 0)]
  | 0x0606 | 0x0607 => [specObj (u8 p 0) (u8 p 1)]
  | 0x0701 => .trigUnit (u8 p 0) :: trigSourceObj (u8 p 1) (u16 p 2) (u16 p 60)
  | 0x0702 => .trigUnit (u8 p 0) :: s.regionIf (u8 p 2 == 1) (u64 p 8)
  | 0x0703 =>
    .trigUnit (u8 p 0) :: (maskBits 256 (field p 16 32)).map .site ++ (maskBits 2 (u8 p 2)).map .stimOut ++
      (maskBits 16 (u16 p 4)).map .comparator
  | 0x0704 | 0x0705 | 0x0706 | 0x0707 => [.trigUnit (u8 p 0)]
  | 0x0801 =>
    (if u16 p 0 = 0xFFFF then [] else [.context (u16 p 0)]) ++ acqSourceObj (u8 p 2) (u16 p 4) ++
      (if u8 p 3 = 0 then (maskBits 64 (u64 p 8)).map .trigUnit else []) ++
      (if u8 p 6 = 1 then flowObj (u32 p 36) else []) ++ s.regionAt (u64 p 40)
  | 0x0802 | 0x0803 | 0x0804 | 0x0806 => [.context (u16 p 0)]
  | 0x0805 => .context (u16 p 0) :: s.regionIf (u8 p 2 != 0 && u8 p 3 == 1) (u64 p 16)
  | 0x0901 => (maskBits 64 (u64 p 0)).map .core ++ s.regionIf (u8 p 8 == 1) (u64 p 16)
  | 0x0902 | 0x0903 | 0x0905 => [.core (u8 p 0)]
  | 0x0904 =>
    .core (u8 p 0) :: (match u8 p 1, u8 p 2 with
      | 0, 1 => [.ddc (u8 p 3)] | 1, 1 => [.ddc (u8 p 3)] | 0, 2 => [.pressJob (u8 p 3)] | 1, 2 => [.pressJob (u8 p 3)]
      | 2, _ => flowObj (u32 p 16) | 3, _ => (maskBits 64 (u64 p 24)).map .trigUnit | 4, _ => s.regionAt (u64 p 32)
      | _, _ => [])
  | _ => []

/-- The segments that a table entry names beside its own: NEXT unless it is END, and JUMP_TARGET (R309, R355). -/
def entrySegs (e : List Byte) : List Nat :=
  (if (u32 e 8).testBit 16 then [] else [u16 e 8]) ++ [u16 e 12]

/-- TARGET of a jump request: 0xFFFF names none. -/
def targetOf (v : Nat) : Option Nat := if v = 0xFFFF then none else some v

/-- A stimulus segment as an object: each output has its own. -/
def stimSegObj (o n : Nat) : Obj := .stimSegment (4096 * o + n)

/-- The objects named by a command of PAT to MON. -/
def State.objectsPat (s : State) (op : Nat) (p : List Byte) : List Obj :=
  let sites := (maskBits 256 (field p 0 32)).map .site
  match op with
  | 0x0A01 => .segment (u16 p 0) :: (maskBits 256 (field p 32 32)).map .site ++ s.regionIf (u64 p 16 != 0) (u64 p 16)
  | 0x0A02 => .segment (u16 p 0) :: s.regionIf (u8 p 2 == 1) (u64 p 16)
  | 0x0A03 => (records (u16 p 0) 24 (p.drop 8)).flatMap fun e => .segment (u16 e 0) :: (entrySegs e).map .segment
  | 0x0A04 | 0x0A08 => [.site (u8 p 0)]
  | 0x0A05 => .segment (u16 p 32) :: sites
  | 0x0A06 => sites
  | 0x0A07 => (targetOf (u16 p 32)).toList.map .segment ++ sites
  | 0x0A09 => .site (u8 p 0) :: s.regionIf (u8 p 3 == 1) (u64 p 8)
  | 0x0B01 => (maskBits 64 (if u64 p 0 = 0 then 2 ^ 64 - 1 else u64 p 0)).map .peDevice
  | 0x0B02 => [.peDevice (u8 p 0)]
  | 0x0B03 => .site (u8 p 0) :: s.regionAt (u64 p 8) ++ s.regionAt (u64 p 16)
  | 0x0B04 => if u8 p 1 = 0xFF then (List.range 64).map .peDevice else [.peDevice (u8 p 1)]
  | 0x0C01 => [.stimOut (u8 p 0), stimSegObj (u8 p 0) (u16 p 2)] ++ s.regionIf ((u8 p 1).testBit 0) (u64 p 16)
  | 0x0C02 => [.stimOut (u8 p 3), stimSegObj (u8 p 3) (u16 p 0)] ++ s.regionIf (u8 p 2 == 1) (u64 p 16)
  | 0x0C03 =>
    .stimOut (u8 p 2) :: (records (u16 p 0) 24 (p.drop 8)).flatMap fun e =>
      stimSegObj (u8 p 2) (u16 e 0) :: (entrySegs e).map (stimSegObj (u8 p 2))
  | 0x0C04 => (maskBits 2 (u8 p 0)).flatMap fun o => [.stimOut o, stimSegObj o (u16 p (4 + 2 * o))]
  | 0x0C05 => (maskBits 2 (u8 p 0)).map .stimOut
  | 0x0C06 =>
    (maskBits 2 (u8 p 0)).flatMap fun o => .stimOut o :: (targetOf (u16 p 2)).toList.map (stimSegObj o)
  | 0x0D01 | 0x0D02 | 0x0D03 | 0x0D04 => [.block 0x0D]
  | 0x0E01 =>
    .tiuChannel (u8 p 0) :: flowObj (u32 p 20) ++ (if u8 p 1 = 1 then [.comparator (u8 p 2)] else []) ++
      (if u8 p 12 = 1 ∨ u8 p 12 = 5 then [.tiuChannel (u8 p 16)] else [])
  | 0x0E02 | 0x0E03 => (maskBits 64 (u64 p 0)).map .tiuChannel
  | 0x0E04 | 0x0E05 => [.tiuChannel (u8 p 0)]
  | 0x0F01 => .comparator (u8 p 0) :: (if u8 p 5 = 2 then [.site (u8 p 6)] else [])
  | 0x0F02 => .block 0x0F :: flowObj (u32 p 4)
  | 0x0F03 | 0x0F04 | 0x0F06 => [.block 0x0F]
  | 0x0F05 => if u8 p 0 = 0 then (List.range 16).map .comparator else [.block 0x0F]
  | _ => []

/-- The objects that `DISP.CONFIGURE_LAYER` names beside its block: a plane, trace units, or the region of a cursor
image (R60, R485). -/
def State.layerObj (s : State) (p : List Byte) : List Obj :=
  match u8 p 0 with
  | 0 => [.plane (u8 p 6)]
  | 1 => (maskBits 64 (u64 p 16)).map .traceUnit
  | 3 => s.regionIf (u8 p 28 == 1) (u64 p 32)
  | _ => []

/-- The object that a unit of a calibration class is part of (R60, R537). -/
def calObj (cls index : Nat) : List Obj :=
  match cls with
  | 1 => [.input (index / 34)]
  | 2 => [.input (index / 3)]
  | 3 => [.stimOut index]
  | 4 => if index < 64 then [.tiuChannel index] else []
  | 5 => [.tiuChannel (index / 2)]
  | 6 => [.comparator index]
  | 7 => [.peDevice index]
  | 8 => [.peDevice (index / 64)]
  | _ => []

/-- The objects named by a command of CELLAR and the families after it; an ALLOCATE without an offset names no
region, and CELLAR.GET_STATUS names the block. -/
def State.objectsHigh (s : State) (op : Nat) (p : List Byte) : List Obj :=
  match op with
  | 0x1001 => if u64 p 8 = 2 ^ 64 - 1 then [] else [.region (u64 p 8)]
  | 0x1002 => [.region (u64 p 0)]
  | 0x1003 | 0x1004 => [.block 0x10]
  | 0x1101 => flowObj (u32 p 0)
  | 0x1102 | 0x1103 | 0x1104 | 0x1106 => [.flow (u32 p 0)]
  | 0x1105 => [.flow (u32 p 0)]
  | 0x1201 | 0x1203 => [.port (u8 p 0)]
  | 0x1202 => [.flow (u32 p 0), .port (u8 p 4)]
  | 0x1303 => .block 0x13 :: s.layerObj p
  | 0x1301 | 0x1302 | 0x1304 | 0x1305 | 0x1306 => [.block 0x13]
  | 0x1401 => [.block 0x14]
  | 0x1402 | 0x1403 => activityObj (u8 p 0) (u32 p 4)
  | 0x1404 | 0x1405 => [.block 0x14]
  | 0x1501 | 0x1502 | 0x1503 | 0x1504 => [.block 0x15]
  | 0x1601 => .block 0x16 :: (span (u16 p 2) (u16 p 4)).flatMap fun u => calObj (u8 p 0) u
  | 0x1602 | 0x1603 => [.block 0x16]
  | 0x1701 => (maskBits 4 (if u8 p 0 = 0 then 15 else u8 p 0)).map .idBus
  | 0x1702 => [.idBus (u8 p 0)]
  | 0x1801 | 0x1802 | 0x1803 | 0x1804 | 0x1805 => [.block 0x18]
  | _ => []

/-- The objects that a command names (R60); HELLO, QUERY_READY, GET_INFO and NOP name none. -/
def State.objectsOf (s : State) (c : Cmd) : List Obj :=
  let f := c.opcode / 256
  if f ≤ 5 then s.objectsLow c.opcode c.payload
  else if f ≤ 9 then s.objectsMid c.opcode c.payload
  else if f ≤ 0x0F then s.objectsPat c.opcode c.payload
  else s.objectsHigh c.opcode c.payload

end Sys2Proof.Machine
end

