-- ==== Sys2Proof/Machine/Proto.lean ====
section
/-! DEFINITION. The rules every mailbox command follows after acceptance: order, fences, DEPEND, results
and completion (R54, R56, R58, R60 to R64, R514). -/

namespace Sys2Proof.Machine

/-- What carrying out a command comes to, before its completion is written. -/
inductive VerbOut where
  /-- No effect; the command completes with this status and RESULT word. -/
  | fail (st : Status) (result : Nat)
  /-- The effect has happened; the command completes with this status and RESULT word. -/
  | done (st : Status) (result : Nat) (s : State)
  /-- As `done` with ST_OK, and a result that is always written at RESULT_ADDRESS (R54). -/
  | data (bytes : List Byte) (result : Nat) (s : State)
  /-- As `data`, but the result is written only when RESULT_ADDRESS is nonzero (R54). -/
  | dataIfAsked (bytes : List Byte) (result : Nat) (s : State)
  /-- The command cannot start yet and changes nothing. -/
  | wait
  /-- The command has started; another row completes it. -/
  | running (aux : Nat) (named : List Nat) (s : State)

/-- Bytes available for the command's long result: none where RESULT_ADDRESS is 0 (R54). -/
def Cmd.room (c : Cmd) : Nat := if c.resultAddr = 0 then 0 else c.resultLimit

/-- Writes a long result to host memory (R54). DESIGN CHOICE, log entry 9. -/
def State.writeResult (s : State) (c : Cmd) (bytes : List Byte) : State :=
  s.emit (.hostWrite c.fn c.resultAddr bytes false)

/-- Command `d` when `c` has ended with status `st`: it is released where it depended on `c` (R60). -/
def Cmd.after (d c : Cmd) (st : Status) : Cmd :=
  if d.depend = some c.seq then
    { d with depend := none, dependFailed := d.dependFailed || !(st == .ok || st == .quiesced) }
  else d

/-- The commands left when `c` has ended with status `st`. -/
def afterEnd (cmds : List Cmd) (c : Cmd) (st : Status) : List Cmd :=
  (cmds.filter fun d => d.seq != c.seq).map fun d => d.after c st

/-- A function when `c` has ended: a command that waits in a channel for its answer is released too (R60). -/
def Func.afterCmd (f : Func) (c : Cmd) (st : Status) : Func :=
  { f with chans := f.chans.mapVals fun _ x => { x with atAck := x.atAck.map fun d => d.after c st } }

/-- Ends one command: its completion entry is written or held, and its tag becomes free with the entry (R58).
A command whose function was reset has its entry discarded (R27). -/
def State.endCmd (s : State) (c : Cmd) (st : Status) (result : Nat) : State :=
  let fns := s.host.fns.mapVals fun _ f => f.afterCmd c st
  let s := { s with host := { s.host with cmds := afterEnd s.host.cmds c st, fns } }
  if c.discard then s
  else s.pushCompl c.fn { tag := c.tag, status := st.code, chan := c.chan, opcode := c.opcode,
                          result := result % 2 ^ 64 }

/-- The pair p of R35 that owns a channel. DESIGN CHOICE, log entry 87. -/
def homePair (fn chan : Nat) : Nat := if fn = 0 then chan / 16 else chan / 4

/-- The pair that serves a channel (R35, R514). -/
def State.pairOf (s : State) (fn chan : Nat) : Nat := s.ft.servedBy.get (homePair fn chan) (homePair fn chan)

/-- Whether a command needs the module-wide duties of pair 0: admission, energy declaration,
calibration, fault handling or ledger updates (R514). -/
def needsDuties (op : Nat) : Bool :=
  [0x0303, 0x0304, 0x0403, 0x0404, 0x0505, 0x0506, 0x0606, 0x0607, 0x0802, 0x0803, 0x0902, 0x0903,
   0x0A05, 0x0A06, 0x0C04, 0x0C05, 0x0E02, 0x0E03, 0x1001, 0x1002, 0x1004, 0x1102, 0x1103, 0x1104,
   0x1201, 0x1305, 0x1306, 0x0204, 0x0208, 0x0105].contains op ||
    [0x14, 0x15, 0x16].contains (op / 256)

/-- An earlier accepted command holds `c` back: by an object that both name, or by a fence of `c` (R60). -/
def State.heldBy (s : State) (c d : Cmd) : Bool :=
  decide (d.seq < c.seq) &&
    ((c.fenceFn && d.fn == c.fn) || (c.fenceChan && d.fn == c.fn && d.chan == c.chan) ||
      (s.objectsOf c).any fun o => (s.objectsOf d).contains o)

/-- The command cannot start yet (R60, R61, R514). DESIGN CHOICE, log entry 19. -/
def State.blocked (s : State) (c : Cmd) : Bool :=
  c.depend.isSome || s.host.cmds.any (s.heldBy c) ||
    s.ft.takeover.contains (homePair c.fn c.chan) || (s.ft.takeover.contains 0 && needsDuties c.opcode)

/-- Commands that a deadline never ends: those that disable or reset (R62, R73). -/
def endlessOp (c : Cmd) : Bool :=
  [0x0105, 0x0304, 0x0404, 0x0506, 0x0607, 0x0705, 0x0803, 0x0804, 0x0903, 0x0A06, 0x0C05, 0x0E03, 0x0F04, 0x1002,
    0x1103, 0x1104, 0x1306, 0x1403].contains c.opcode ||
    (c.opcode == 0x0605 && u8 c.payload 1 == 1) || ((c.opcode == 0x0D01 || c.opcode == 0x1201) && roleByte c == 0)
where
  /-- ROLE of `VINE.CONFIGURE` or of `STREAM.CONFIGURE_PORT`. -/
  roleByte (c : Cmd) : Nat := if c.opcode = 0x0D01 then u8 c.payload 0 else u8 c.payload 1

/-- A command that only disables or stops: it has nothing left to do on a quiesced object (R73, R74). -/
def stopOp (c : Cmd) : Bool :=
  endlessOp c && !([0x0105, 0x0804, 0x1002, 0x1104, 0x1403].contains c.opcode)

/-- A second command that disables what `c` disables, and that only `c` held back (R74): the same verb, or one that
only stops, for objects that `c` names. DEDUCED, log entry 123. -/
def State.twinOf (s : State) (c d : Cmd) : Bool :=
  ((d.opcode == c.opcode && d.payload == c.payload) ||
      (stopOp d && !(s.objectsOf d).isEmpty && (s.objectsOf d).all fun o => (s.objectsOf c).contains o)) &&
    !d.started && !d.dependFailed && s.stewardRuns && !s.blocked d

/-- Ends a command. When a quiescence ends a disabling command, the second disable commands that waited for it end
with it (R74). -/
def State.finish (s : State) (c : Cmd) (st : Status) (result : Nat) : State :=
  let s1 := s.endCmd c st result
  if st = .quiesced then (s1.host.cmds.filter (s1.twinOf c)).foldl (fun s d => s.endCmd d st result) s1 else s1

/-- Marks a command as started, keeping `aux` and `named` for its completion. DESIGN CHOICE, log entry 92. -/
def State.markStarted (s : State) (c : Cmd) (aux : Nat) (named : List Nat) : State :=
  { s with host := { s.host with cmds := s.host.cmds.map fun d =>
      if d.seq = c.seq then { d with started := true, aux, named } else d } }

/-- Key of an object that a `SYS.RESET_FUNCTION` waits for: the activity it is, or its family and number. -/
def resetKey (fam obj : Nat) : Nat :=
  let kind := match fam with
    | 0x08 => 1 | 0x11 => 2 | 0x0A => 3 | 0x09 => 4 | 0x13 => 5 | 0x0C => 8 | _ => 100 + fam
  kind * 65536 + obj

/-- A started `SYS.RESET_FUNCTION` after the object `key` has come to rest with `aborted` descriptors. Until the last
object rests, `aux` holds the starting tick above the descriptors aborted so far; from then on it is the RESULT
word (R71). -/
def Cmd.rested (c : Cmd) (now key aborted : Nat) : Cmd :=
  if c.opcode = 0x0105 ∧ c.started ∧ c.named.contains key then
    let left := c.named.filter (· != key)
    let n := c.aux % 2 ^ 32 + aborted
    let t0 := c.aux / 2 ^ 32
    { c with named := left, aux := if left.isEmpty then n + 2 ^ 32 * roundEven (now - t0) ticksPerUs else n + 2 ^ 32 * t0 }
  else c

/-- An object has come to rest with `aborted` descriptors: the resets that wait for it are told (R71, R73, R74). -/
def State.restDone (s : State) (key aborted : Nat) : State :=
  { s with host := { s.host with cmds := s.host.cmds.map fun c => c.rested s.now key aborted } }

/-- The accepted command of function `fn` with this tag: one that has not started first, since a reset frees the
tag of a command that still runs (R58). -/
def State.cmdOf (s : State) (fn tag : Nat) : Option Cmd :=
  let mine (c : Cmd) : Bool := c.fn == fn && c.tag == tag
  (s.host.cmds.find? fun c => mine c && !c.started).or (s.host.cmds.find? mine)

/-- Started commands with opcode `op` that satisfy `p`, in acceptance order. -/
def State.startedCmds (s : State) (op : Nat) (p : Cmd → Bool) : List Cmd :=
  s.host.cmds.filter fun c => c.started && c.opcode == op && p c

/-- Ends the commands of a list with one status and result each. DESIGN CHOICE, log entry 92. -/
def State.finishAll (s : State) (cs : List Cmd) (st : Status) (result : Cmd → Nat) : State :=
  cs.foldl (fun s c => s.finish c st (result c)) s

/-- The end of a step of a command from what its meaning came to (R54). DESIGN CHOICE, log entries 100 and 104. -/
def State.conclude (s : State) (c : Cmd) : VerbOut → State
  | .fail st r => s.finish c st r
  | .done st r s' => s'.finish c st r
  | .data bytes r s' =>
    if c.room < bytes.length then s.finish c .badLength bytes.length
    else (s'.writeResult c bytes).finish c .ok r
  | .dataIfAsked bytes r s' =>
    if c.resultAddr = 0 then s'.finish c .ok r
    else if c.resultLimit < bytes.length then s.finish c .badLength bytes.length
    else (s'.writeResult c bytes).finish c .ok r
  | .wait => s
  | .running aux named s' => s'.markStarted c aux named

/-- The RESULT word of a command that ends without running: READY_MAP for `SYS.QUERY_READY` (R68), else 0. -/
def State.endResult (s : State) (c : Cmd) : Nat := if c.opcode = 0x0102 then s.ready.toNat else 0

/-- The deadline of a command that has not started has passed (R62). The time that a takeover takes does not count,
which is kept in the deadline itself. -/
def State.pastDeadline (s : State) (c : Cmd) : Bool := decide (c.deadline < s.now) && !endlessOp c

/-- A table or an image is read from host memory, with snooping, where a command names one there (R47). -/
def State.hostLoad (s : State) (c : Cmd) (addr n : Nat) (cellar : Bool) : State :=
  if cellar then s else s.emit (.hostRead c.fn addr n false)

/-- Carries out the accepted command (`fn`, `tag`) with opcode `op` by its meaning `body`: nothing
happens where there is no such command, or it has started already or has to wait; a command whose DEPEND
ended badly ends with ST_ABORTED (R60), and one whose deadline has passed with ST_TIMEOUT (R62). -/
def State.runVerb (s : State) (t op fn tag : Nat) (body : Cmd → State → VerbOut) : State :=
  s.whenPowered t fun s =>
    match s.cmdOf fn tag with
    | none => s
    | some c =>
      if c.opcode != op || c.started || !s.stewardRuns || s.blocked c then s
      else if c.dependFailed then s.finish c .aborted (s.endResult c)
      else if s.pastDeadline c then s.finish c .timeout (s.endResult c)
      else s.conclude c (body c s)

/-- Runs a command and answers the next state: the form of every mailbox command's meaning.
DESIGN CHOICE, log entry 8. -/
def verb (t op fn tag : Nat) (body : Cmd → State → VerbOut) (s : State) :
    Host.Outcome State Fault Refusal :=
  .next (s.runVerb t op fn tag body)

/-- An error status first, then the rest. -/
def orElse (checks : List (Bool × Status)) (k : VerbOut) : VerbOut :=
  match checks with
  | [] => k
  | (bad, st) :: cs => if bad then .fail st 0 else orElse cs k

/-- Whether an earlier accepted, uncompleted command names object `o` (R60). -/
def State.namedEarlier (s : State) (c : Cmd) (o : Obj) : Bool :=
  s.host.cmds.any fun d => decide (d.seq < c.seq) && (s.objectsOf d).contains o

end Sys2Proof.Machine
end

