-- ==== Sys2Proof/Machine/Admit.lean ====
section
/-! DEFINITION. Admission of allotments and of declared energy, with their release (R491 to R494, R499, R500, R517). -/

namespace Sys2Proof.Machine

/-- Activity kinds of R504. -/
def kindContext : Nat := 1
/-- A flow. -/
def kindFlow : Nat := 2
/-- A pattern site. -/
def kindSite : Nat := 3
/-- A Sorrel kernel. -/
def kindKernel : Nat := 4
/-- The display. -/
def kindDisplay : Nat := 5
/-- The calibration activity. -/
def kindCal : Nat := 6
/-- The aperture. -/
def kindAperture : Nat := 7
/-- A stimulus output. -/
def kindStim : Nat := 8

/-- Key of an activity. -/
def actKey (kind obj : Nat) : Nat := kind * 65536 + obj

/-- Raw Cellar capacity at an operating point, bytes/s (R428). -/
def cellarRaw (op : Nat) : Nat :=
  if op = 0 then 3280000000000 else if op = 1 then 2460000000000 else 1640000000000

/-- RAW of a resource key (R491). For key 1 the figure is for the Cellar rate, half of which is counted. -/
def resourceRaw (op key : Nat) : Nat :=
  if key = 0 then cellarRaw op
  else if key = 1 then 3200000000000
  else if key = 2 then 800000000
  else if key = 4 then 250000000000
  else if key = 5 ∨ key = 6 then 60000000000
  else if key = 7 then 1600000000
  else if 128 ≤ key then 25000000000
  else if 96 ≤ key then 50000000000
  else if 16 ≤ key then 25000000000
  else 560000000

/-- POST_FAULT of a resource key (R491): of a Trellis buddy pair 12.5 GB/s are left after a fault and 11.875 GB/s of
them admitted (R315, R343). -/
def resourcePost (op key : Nat) : Nat :=
  if key = 0 then cellarRaw op * 3 / 4
  else if key = 4 then 200000000000
  else if key = 5 ∨ key = 6 then 30000000000
  else if (16 ≤ key ∧ key < 80) ∨ (128 ≤ key ∧ key < 192) then 12500000000
  else resourceRaw op key

/-- Capacity less the 5 % reserve: of POST_FAULT, or of RAW under OVERRIDE (R491, R493). -/
def resourceCounted (op key : Nat) (outside : Bool) : Nat :=
  (if outside then resourceRaw op key else resourcePost op key) * 95 / 100

/-- The operating point that admission counts: the slower of two while a change runs (R428).
DESIGN CHOICE, log entry 73. -/
def State.countOp (s : State) : Nat :=
  match s.cell.change with
  | some x => max s.cellarOp x.rate
  | none => s.cellarOp

/-- The operating point whose stack power is declared: the faster of two while a change runs (R432). -/
def State.powerOp (s : State) : Nat :=
  match s.cell.change with
  | some x => min s.cellarOp x.rate
  | none => s.cellarOp

/-- What an activity holds. -/
def State.alloc (s : State) (act : Nat) : Alloc := s.bud.allocs.get act {}

/-- Two resource keys are counted together: a resource, or the two PE devices of a buddy pair in one direction, 16 to 79
downstream and 128 to 191 upstream (R492, R315, R343). -/
def sameUnit (a b : Nat) : Bool :=
  let lane (k : Nat) : Bool := decide ((16 ≤ k ∧ k < 80) ∨ (128 ≤ k ∧ k < 192))
  a == b || (lane a && lane b && a / 2 == b / 2)

/-- What a set of rates asks of the unit of a key. -/
def unitRate (rates : KMap Nat) (key : Nat) : Nat :=
  rates.foldl (fun n e => if sameUnit e.1 key then n + e.2 else n) 0

/-- Rate that all activities other than `act` hold of the unit of a resource key. SORREL is counted per core, and
each core's kernel is an activity of its own. -/
def State.heldByOthers (s : State) (act key : Nat) : Nat :=
  if key = 7 then 0
  else s.bud.allocs.foldl (fun n e => if e.1 = act then n else n + unitRate e.2.rates key) 0

/-- Every resource whose allotment rises to a new one fits its counted capacity (R492). -/
def State.fits (s : State) (act : Nat) (new : KMap Nat) (outside : Bool) : Bool :=
  let held := (s.alloc act).rates
  new.all fun e =>
    decide (e.2 ≤ held.get e.1 0) ||
      decide (s.heldByOthers act e.1 + unitRate new e.1 ≤ resourceCounted s.countOp e.1 outside)

/-- The larger of what is held and what is asked, for each resource (R492). -/
def raiseRates (held demand : KMap Nat) : KMap Nat :=
  demand.foldl (fun m e => if m.get e.1 0 < e.2 then m.set e.1 e.2 else m) held

/-- The sum of two demands of one activity (R276, R335, R492). DESIGN CHOICE, log entry 55. -/
def addDemand (a b : KMap Nat) : KMap Nat := b.foldl (fun m e => m.set e.1 (m.get e.1 0 + e.2)) a

/-- Adds to a demand the die-link share of its Cellar rate (R9, R10, R491). -/
def withDie (demand : KMap Nat) : KMap Nat :=
  if demand.get 0 0 = 0 then demand else demand.set 1 (demand.get 0 0)

/-- Asks for a demand; none where it is not admitted (R492). -/
def State.allot (s : State) (act : Nat) (demand : KMap Nat) : Option State :=
  let a := s.alloc act
  let new := raiseRates a.rates (withDie demand)
  if s.fits act new false then
    some { s with bud := { s.bud with allocs := s.bud.allocs.set act { a with rates := new } } }
  else none

/-- Releases the allotments of an activity that is quiescent, and completes the revocation that waited for it; a
reset that waits for it is told (R71, R492, R505). -/
def State.release (s : State) (act : Nat) : State :=
  let s : State := { s with bud := { s.bud with allocs := s.bud.allocs.del act } }.restDone act 0
  s.finishAll (s.startedCmds 0x1403 fun c => actKey (u8 c.payload 0) (u32 c.payload 4) == act) .quiesced fun _ => 0

/-- An activity holds an allotment. -/
def State.holds (s : State) (act : Nat) : Bool := s.bud.allocs.has act

/-- An override allotment is held (R493). -/
def State.overrideHeld (s : State) : Bool := s.bud.allocs.any fun e => e.2.override

/-! ## Energy -/

/-- Sum of the declarations of a list; the first of each group declares `first` (R499). -/
def declSum : List Decl → List (Nat × Nat) → Nat
  | [], _ => 0
  | d :: ds, seen =>
    (if seen.contains (d.fam, d.group) then d.each else d.first) + declSum ds ((d.fam, d.group) :: seen)

/-- Stack power of the Cellar operating point, µW, four stacks (R428). -/
def stackPower (op : Nat) : Nat := if op = 0 then 56000000 else if op = 1 then 44000000 else 34000000

/-- The family and object of an activity that declares power of its own. -/
def actFamily (kind : Nat) : Nat :=
  if kind = 1 then 8 else if kind = 2 then 0x11 else if kind = 3 then 0x0A else if kind = 4 then 9
  else if kind = 5 then 0x13 else if kind = 8 then 0x0C else 0

/-- What the object (`fam`, `obj`) itself declares within a list of declarations, µW. -/
def ownDecl (fam obj : Nat) : List Decl → List (Nat × Nat) → Nat
  | [], _ => 0
  | d :: ds, seen =>
    if d.fam = fam ∧ d.obj = obj then (if seen.contains (d.fam, d.group) then d.each else d.first)
    else ownDecl fam obj ds ((d.fam, d.group) :: seen)

/-- What an activity declares itself, µW. -/
def Budget.ownEnergy (b : Budget) (act : Nat) : Nat :=
  if actFamily (act / 65536) = 0 then 0 else ownDecl (actFamily (act / 65536)) (act % 65536) b.decls []

/-- ENERGY granted to activities beyond what they declare themselves, µW (R492, R504). -/
def Budget.extraEnergy (b : Budget) : Nat :=
  b.allocs.foldl (fun n e => n + (e.2.rates.get 8 0 - b.ownEnergy e.1)) 0

/-- A power domain of a family is on: an object of the group declares its power (R302, R337, R354). -/
def State.domainOn (s : State) (fam group : Nat) : Bool := s.bud.decls.any fun d => d.fam == fam && d.group == group

/-- B + D of R499, in µW, for a set of declarations. DESIGN CHOICE, log entry 32. -/
def declTotal (b : Budget) (op : Nat) : Nat :=
  18000000 + stackPower op + declSum b.decls [] + b.extraEnergy +
    (if b.decls.any fun d => d.fam == 5 then 8500000 else 0) +
    (if b.decls.any fun d => d.fam == 9 then 6300000 else 0)

/-- DECLARED in units of 10 nW: 1.06 × (B + D) (R499). DESIGN CHOICE, log entry 32. -/
def Budget.declared100 (b : Budget) (op : Nat) : Nat := 106 * declTotal b op

/-- DECLARED in mW (R499). -/
def State.declaredMw (s : State) : Nat := roundEven (s.bud.declared100 s.powerOp) 100000

/-- The regulator limit in W (R517). -/
def State.regulatorLimit (s : State) : Nat :=
  s.ft.phaseFaults.foldl (fun n e => if 2 ≤ e.2 then min n ((7 - e.2) * 560 / 6) else n) 560

/-- LEDGER.EFFECTIVE_CAP in W (R500). -/
def State.effectiveCap (s : State) : Nat :=
  min (min s.bud.capW s.regulatorLimit) (s.pw.thermalCap.getD 560)

/-- The shortfall in mW, rounded up, of DECLARED with the given power manager state; 0 where it fits (R499).
DESIGN CHOICE, log entry 32. -/
def State.shortfall (s : State) (b : Budget) (op : Nat) : Nat :=
  (b.declared100 op - s.effectiveCap * 100000000 + 99999) / 100000

/-- Adds declarations, those of an object already declared left as they are; the error side is the
shortfall in mW (R499). -/
def State.declare (s : State) (ds : List Decl) : Except Nat State :=
  let new := ds.filter fun d => !s.bud.decls.any fun e => e.fam == d.fam && e.obj == d.obj
  let b := { s.bud with decls := s.bud.decls ++ new }
  let short := s.shortfall b s.powerOp
  if new.isEmpty || short = 0 then .ok { s with bud := b } else .error short

/-- Releases the declaration of an object (R499). -/
def State.undeclare (s : State) (fam obj : Nat) : State :=
  { s with bud := { s.bud with decls := s.bud.decls.filter fun d => !(d.fam == fam && d.obj == obj) } }

/-- An object has declared its power. -/
def State.declaredBy (s : State) (fam obj : Nat) : Bool :=
  s.bud.decls.any fun d => d.fam == fam && d.obj == obj

/-- An activity uses `n` units of a resource: its credits pay as far as they reach (R491, R496). -/
def Budget.spend (b : Budget) (act key n : Nat) : Budget :=
  let k := act * 128 + key
  if b.credits.get k 0 = 0 then b else { b with credits := b.credits.set k (b.credits.get k 0 - n) }

end Sys2Proof.Machine
end

