-- ==== Sys2Proof/Machine/Use.lean ====
section
/-! DEFINITION. What one block asks of another: who runs, who uses whom, what is covered, when a scheduled
start falls. -/

namespace Sys2Proof.Machine

/-- A row that can happen only while the module is powered. DESIGN CHOICE, log entries 7 and 8. -/
def happens (t : Nat) (f : State → State) (s : State) : Host.Outcome State Fault Refusal :=
  .next (s.whenPowered t f)

/-- Some pattern site runs. -/
def State.anySiteRuns (s : State) : Bool :=
  s.pat.sites.any fun e => e.2.mode == .running || e.2.mode == .starting

/-- A vector clock of `mHz` stays within VEC_MAX of every site that runs (R111, R113, R292). -/
def State.patCovers (s : State) (mHz : Nat) : Bool :=
  s.pat.sites.all fun e => !(e.2.mode == .running || e.2.mode == .starting) || decide (mHz ≤ e.2.vecMax)

/-- The module is a Vine MEMBER. -/
def State.vineMember (s : State) : Bool := s.vine.role == 2

/-- Ticks of an epoch (R361). -/
def epochTicks : Nat := 25600000

/-- The tick of the local edge of an epoch; none while no epoch is known. -/
def State.epochEdge (s : State) (n : Nat) : Option Nat :=
  if s.vine.role = 0 then none
  else s.vine.ref.map fun r => ((r.2 : Int) + ((n : Int) - r.1) * epochTicks).toNat

/-- The tick at which a scheduled start falls; none where it is not known yet. -/
def State.startTick (s : State) (w : Sched) : Option Nat :=
  match w.mode with
  | 0 => some s.now
  | 1 => some (s.lift w.at_)
  | _ => s.epochEdge w.at_

/-- A scheduled start has been reached. -/
def State.reached (s : State) (w : Sched) : Bool :=
  match s.startTick w with
  | some t => decide (t ≤ s.now)
  | none => false

/-- The tick at which a reached start falls: the one asked for, or the present where none was. -/
def State.dueTick (s : State) (w : Sched) : Nat := (s.startTick w).getD s.now

/-- A context whose record is armed takes its source (R71, R240). -/
def Ctx.takes (x : Ctx) : Bool := !(x.mode == .created || x.mode == .done || x.mode == .maskStopped)

/-- An enabled Press job (R160). -/
def PressJob.enabled (x : PressJob) : Bool := x.mode == .starting || x.mode == .running

/-- An enabled or starting DDC. -/
def Ddc.enabled (x : Ddc) : Bool := x.running || x.starting.isSome

/-- A kernel that runs. -/
def Core.runs (x : Core) : Bool := x.mode == .running || x.mode == .quiescing

/-- Objects of a map that satisfy a test, as (family, object), rising. -/
def users {α : Type} (fam but : Nat) (m : KMap α) (p : Nat → α → Bool) : List (Nat × Nat) :=
  if fam = but then [] else (m.filter fun e => p e.1 e.2).map fun e => (fam, e.1)

/-- The configured trigger units of some kinds on a source. -/
def State.unitsOn (s : State) (but : Nat) (kinds : List Nat) (src : Nat) : List (Nat × Nat) :=
  users 7 but s.trig.units fun _ x => x.mode != .unconfigured && kinds.contains x.kind && x.source == src

/-- The armed contexts on a source. -/
def State.ctxsOn (s : State) (but kind src : Nat) : List (Nat × Nat) :=
  users 8 but s.ctxs fun _ x => x.takes && x.srcKind == kind && x.source == src

/-- The running kernels with a port bound to a source. -/
def State.kernelsOn (s : State) (but kind src : Nat) : List (Nat × Nat) :=
  users 9 but s.cores fun _ x => x.runs && x.ports.any fun (e : Nat × InPort) => e.2.kind == kind && e.2.source == src

/-- The first enabled DDC, enabled Press job, configured trigger unit or armed context that takes samples from
input `i`, as (family, object), leaving out those of family `but` (R130, R71). -/
def State.inputConsumer (s : State) (i but : Nat) : Option (Nat × Nat) :=
  ((users 4 but s.ddcs fun d x => x.enabled && x.source == 0 && d / 8 == i) ++
    (users 5 but s.press.jobs fun _ x => x.enabled && x.srcKind == 0 && x.source == i) ++
    s.unitsOn but [0, 1, 2, 3, 4] i ++ s.ctxsOn but 0 i).head?

/-- The first consumer of DDC `d`, without trigger units where `trig` is false (R151, R154). -/
def State.ddcConsumer (s : State) (d but : Nat) (trig : Bool) : Option (Nat × Nat) :=
  ((users 5 but s.press.jobs fun _ x => x.enabled && x.srcKind == 1 && x.source == d) ++
    (if trig then s.unitsOn but [5] d else []) ++ s.ctxsOn but 1 d ++ s.kernelsOn but 1 d).head?

/-- A consumer as a RESULT word (R134). -/
def consumerWord (c : Nat × Nat) : Nat := c.1 + 65536 * c.2

/-- Writes a shadow of the fast control window (R22). -/
def State.setShadow (s : State) (off v : Nat) : State :=
  { s with fcw := { s.fcw with shadow := s.fcw.shadow.set off v } }

/-- A scheduled start falls less than 100 µs after execution. DESIGN CHOICE, log entry 120. -/
def State.tooSoon (s : State) (w : Sched) : Bool :=
  w.mode != 0 && (match s.startTick w with
    | some t => decide (t < s.now + 100 * ticksPerUs)
    | none => false)

/-- The first consumer of Press job `j`, leaving out family `but` (R184). -/
def State.pressConsumer (s : State) (j but : Nat) : Option (Nat × Nat) :=
  ((users 6 but s.spec.traces fun _ x => x.enabled && x.job == j) ++
    (users 6 but s.spec.planes fun _ x => x.enabled && x.job == j) ++
    s.unitsOn but [6, 7] j ++ s.ctxsOn but 2 j ++ s.kernelsOn but 2 j).head?

/-- The first consumer of trace unit (kind 0) or density plane (kind 1) `n`, leaving out family `but` (R210).
DESIGN CHOICE, log entry 73. -/
def State.specConsumer (s : State) (kind n but : Nat) : Option (Nat × Nat) :=
  let layer (l : Nat) : Option DispLayer := if s.disp.mode == .disabled then none else s.disp.layers.find l
  let shows (l : Nat) (p : DispLayer → Bool) : List (Nat × Nat) :=
    if 0x13 ≠ but && (layer l).any p then [(0x13, l)] else []
  if kind = 0 then (s.ctxsOn but 4 n ++ shows 1 fun y => (maskBits 64 y.traces).contains n).head?
  else (shows 0 fun y => y.plane == n).head?

/-- The source of a trigger unit of this kind is configured or enabled (R228); SEQUENCE sources apart. -/
def State.trigSourceOk (s : State) (kind src : Nat) : Bool :=
  if kind ≤ 4 then (s.inputs.get src {}).mode == .running
  else if kind = 5 then (s.ddcs.get src {}).running
  else if kind = 6 ∨ kind = 7 then s.press.jobs.has src
  else if kind = 9 then (s.tiu.get src {}).mode != .unconfigured
  else if kind = 10 then (s.mon.comps.get src {}).mode != 0
  else if kind = 11 then s.vine.role != 0
  else if kind = 12 then (s.pat.sites.get src {}).mode != .undefined
  else true

/-- Puts a frame in the merge queue, which holds 16; a frame that finds it full is dropped (R362). -/
def State.vineQueue (s : State) (f : VineFrame) : State :=
  if s.vine.role = 0 then s
  else if s.vine.queue.length < 16 then { s with vine := { s.vine with queue := s.vine.queue ++ [f] } }
  else { s with vine := { s.vine with dropped := satAdd 64 s.vine.dropped 1 } }

/-- The payload of an EVENT frame (R360): CODE, EPOCH[1:0], OFFSET, FINE. -/
def eventPayload (code epoch offset fine : Nat) : Nat :=
  code % 8 + 8 * (epoch % 4) + 2 ^ 5 * (offset % 2 ^ 25) + 2 ^ 30 * (fine % 65536)

/-- A decision's Vine event code is handed to the chain (R225, R362). -/
def State.postVine (s : State) (code : Nat) (st : Stamp) : State :=
  match s.vine.ref with
  | some (e, tick) =>
    let d : Int := (st.tick : Int) - tick
    let k := d / epochTicks
    s.vineQueue { payload := eventPayload code ((e : Int) + k).toNat (d % epochTicks).toNat st.fine }
  | none => s

/-- A blanking window opens, or an open one is extended (R398). -/
def Comparator.blank (c : Comparator) (now : Nat) : Comparator :=
  { c with window := some (now + roundEven (c.blankNs * 128) 5) }

/-- The windows of the comparators that satisfy a test open. -/
def State.blankWhere (s : State) (p : Nat → Comparator → Bool) : State :=
  let open_ (k : Nat) (c : Comparator) := if c.mode != 0 && p k c then c.blank s.now else c
  { s with mon := { s.mon with comps := s.mon.comps.mapVals open_ } }

/-- The blanking windows of a mask of comparators open (R225, R398). -/
def State.openBlanking (s : State) (mask : Nat) : State :=
  s.blankWhere fun k c => mask.testBit k && c.blankSource == 1

/-- The blanking windows of comparators that site events open (R289, R398). -/
def State.openSiteBlanking (s : State) (site : Nat) : State :=
  s.blankWhere fun _ c => c.blankSource == 2 && c.blankSite == site

/-- TIU channel `n` is configured by host software. -/
def State.tiuConfigured (s : State) (n : Nat) : Bool := (s.tiu.get n {}).mode != .unconfigured

/-- The first consumer of trigger unit `u`, leaving out family `but` (R232). -/
def State.unitConsumer (s : State) (u but : Nat) : Option (Nat × Nat) :=
  ((users 7 but s.trig.units fun _ x =>
      x.kind == 14 && (x.mode == .armed || x.mode == .holdoff) && (x.source == u || x.source2 == u)) ++
    users 8 but s.ctxs fun _ x => x.takes && x.start == 0 && x.mask.testBit u).head?

/-- Detection, count and pending A of a unit restart (R214, R227). -/
def TrigUnit.restart (x : TrigUnit) : TrigUnit := { x with progress := 0, pendingA := none, lastB := none, openB := false, det := {}, frames := [] }

/-- The units on DDC `d` restart their qualifier state when its rate changes (R213). -/
def State.trigDdcRate (s : State) (d : Nat) : State :=
  { s with trig := { s.trig with units := s.trig.units.mapVals fun _ x =>
      if x.kind = 5 ∧ x.source = d then x.restart else x } }

/-- Wire overhead of a packet, W (R461). -/
def Binding.overhead (b : Binding) : Nat := if b.flags.testBit 0 then 154 else 134

/-- What a flow needs for `rate` bytes per second (R449, R461): bursts, bytes at its destination and at its source. -/
def State.flowDemand (s : State) (f rate : Nat) : KMap Nat :=
  match s.rack.flows.find f with
  | none => []
  | some x =>
    let cellar := (if x.dst = 2 then (4 * rate + 2) / 3 else 0) + (if x.src = 2 then rate else 0)
    let m : KMap Nat := KMap.set [] 2 ((rate + x.burst - 1) / x.burst)
    let m := if cellar = 0 then m else m.set 0 cellar
    let m := if x.src = 1 then m.set 5 rate else m
    let m := if x.dst = 1 then m.set 6 rate else m
    match x.dst, x.bind with
    | 0, some b =>
      let wire := (rate * (b.payloadMax + b.overhead) + b.payloadMax - 1) / b.payloadMax
      (m.set 4 wire).set (96 + b.port) wire
    | _, _ => m

/-- The producers that name flow `f`, as (family, object) (R14, R434). -/
def State.producersOf (s : State) (f : Nat) : List (Nat × Nat) :=
  (s.press.jobs.filter fun e => e.2.map.any fun m => m.2 == f).map (fun e => (5, e.1)) ++
  (s.spec.traces.filter fun e => e.2.flow == some f).map (fun e => (6, e.1)) ++
  (s.ctxs.filter fun e => e.2.flow == some f).map (fun e => (8, e.1)) ++
  (s.cores.filter fun e => e.2.flow == some f).map (fun e => (9, e.1)) ++
  (s.tiu.filter fun e => e.2.cfg.flow == some f).map (fun e => (0x0E, e.1)) ++
  (if s.mon.flow == some f then [(0x0F, 0)] else [])

/-- Flow `f` takes data from a producer other than context `c` (R252). -/
def State.flowTakenBy (s : State) (f c : Nat) : Bool := (s.producersOf f).any (· != (8, c))

/-- A decision of unit `u` is seen by the contexts that name it: an ARMED one will start a segment, another in
service counts it in MISSED (R240, R242). -/
def State.acqSees (s : State) (u : Nat) (d : TrigCond) (forced : Bool) : State :=
  { s with ctxs := s.ctxs.mapVals fun _ x =>
      if x.start = 0 && x.mask.testBit u then
        match x.mode, x.pending with
        | .armed, none => { x with pending := some (u, d, forced) }
        | .armed, some (v, e, _) =>
          if e.at_ = d.at_ then (if u < v then { x with pending := some (u, d, forced) } else x)
          else { x with missed := satAdd 64 x.missed 1 }
        | .capturing, _ =>
          if !x.rearming && x.trigger.any fun e => e.2.1.at_ == d.at_ then
            (if x.trigger.any fun e => decide (u < e.1) then { x with trigger := some (u, d, forced) } else x)
          else { x with missed := satAdd 64 x.missed 1 }
        | .filling, _ | .held, _ => { x with missed := satAdd 64 x.missed 1 }
        | _, _ => x
      else x }

/-- A context takes elements of its source: from its arm to the end of the record (R238, R241). -/
def CtxMode.takes : CtxMode → Bool
  | .filling | .armed | .capturing | .held | .quiescing => true
  | _ => false

/-- A producer hands a unit of data to its flow, where it waits to be accepted (R435). -/
def State.handToFlow (s : State) (f : Nat) (u : FlowUnit) : State :=
  { s with offered := s.offered.set f (s.offered.get f [] ++ [u]) }

/-- Units offered to flow `f` and not accepted yet. -/
def State.flowQueue (s : State) (f : Nat) : Nat := (s.offered.get f []).length

/-- The first consumer of Sorrel core `c`: an armed context (R283). -/
def State.coreConsumer (s : State) (c but : Nat) : Option (Nat × Nat) := (s.ctxsOn but 5 c).head?

/-- Flow `f` exists. -/
def State.flowExists (s : State) (f : Nat) : Bool := s.rack.flows.has f

/-- Flow `f` takes data from a producer other than Press job `j` (R182). -/
def State.flowTaken (s : State) (f j : Nat) : Bool := (s.producersOf f).any (· != (5, j))

/-- The allotments of flow `f` cover `rate` bytes per second (R183, R209). -/
def State.flowCarries (s : State) (f rate : Nat) : Bool :=
  let held := (s.alloc (actKey kindFlow f)).rates
  s.flowExists f && (s.flowDemand f rate).all fun e => decide (e.2 ≤ held.get e.1 0)

/-- Sets or clears a bit of a shadow word (R22). -/
def State.setShadowBit (s : State) (off k : Nat) (b : Bool) : State :=
  let w := s.fcw.shadow.get off 0
  s.setShadow off (if b then w ||| 2 ^ k else if w.testBit k then w - 2 ^ k else w)

/-- The bytes `a` to `a + n − 1` of Cellar lie in one allocated region (R429). -/
def State.inRegion (s : State) (a n : Nat) : Bool :=
  s.regions.any fun e => decide (e.1 ≤ a ∧ a + n ≤ e.1 + e.2.bytes) && !e.2.zeroing && !e.2.freeing

/-- Two stacks or more are retired, so every stripe lacks two blocks (R513 class 9). DESIGN CHOICE, log entry 65. -/
def State.cellarLost (s : State) : Bool :=
  decide (2 ≤ ((List.range 4).filter fun k => s.isRetired ⟨9, 0, k⟩).length)

/-- New Cellar contents; a write to a stripe that lacks two blocks is discarded (R513 class 9).
DESIGN CHOICE, log entry 65. -/
def State.keepCellar (s : State) (m : Memory) : State := if s.cellarLost then s else { s with cellarMem := m }

/-- Bytes of an element go to its place in the pre-trigger ring of a context: place `k` of the stream since the fill to
place `k` mod PRE of the ring, unless it could not be stored (R241, R246). DESIGN CHOICE, log entry 44. -/
def Ctx.writeRing (x : Ctx) (mem : Memory) (k : Nat) (bytes : List Byte) : Memory :=
  if x.pre = 0 ∨ (x.ringGaps.any fun g => decide (g.first ≤ k ∧ k < g.first + g.elements)) then mem
  else mem.writeBytes (x.region + k % x.pre * x.element) bytes

/-- An element of a source without a fixed grid of samples reaches the contexts that name the source, and their rings
(R236, R241). -/
def State.offerElement (s : State) (kind source : Nat) (e : Element) : State :=
  let takes (x : Ctx) : Bool := x.srcKind == kind && x.source == source && x.mode.takes
  let mem := s.ctxs.foldl (fun m c =>
    if takes c.2 && c.2.mode != .quiescing then c.2.writeRing m (c.2.dropped + c.2.recent.length) e.bytes else m) s.cellarMem
  { s.keepCellar mem with ctxs := s.ctxs.mapVals fun _ x => if takes x then { x with recent := x.recent ++ [e] } else x }

/-- Counts one completed trim of a calibration unit (R540). -/
def State.calTrim (s : State) (cls index status value : Nat) : State :=
  let k := cls * 65536 + index
  let r : CalRecord :=
    { status, count := wrapAdd 32 (s.cal.recs.get k {}).count 1, last := s.stampNow, value }
  { s with cal := { s.cal with recs := s.cal.recs.set k r } }

/-- A unit's trim fell outside its limits: its record shows STATUS FAILED (R539). -/
def State.calFailed (s : State) (cls index : Nat) : State :=
  let k := cls * 65536 + index
  { s with cal := { s.cal with recs := s.cal.recs.set k { s.cal.recs.get k {} with status := 2 } } }

/-- How many units of a class from `first` failed their latest trim. -/
def State.calFailures (s : State) (cls : Nat) (units : List Nat) : Nat :=
  (units.filter fun u => (s.cal.recs.get (cls * 65536 + u) {}).status == 2).length

/-- EV_CAL_DONE of a class (R544). -/
def State.evCalDone (s : State) (cls trimmed failed : Nat) (scheduled : Bool) : State :=
  s.event 0x1601 cls (cls + 2 ^ 8 * bit scheduled + 2 ^ 16 * min trimmed 65535 + 2 ^ 32 * min failed 65535)

/-- A CAL.RUN whose units were trimmed in service ends (R541, R544). -/
def State.calRunEnd (s : State) (c : Cmd) : State :=
  let cls := u8 c.payload 0
  let units := span (u16 c.payload 2) (u16 c.payload 4)
  let failed := s.calFailures cls units
  (s.evCalDone cls (units.length - failed) failed false).finish c .ok (units.length - failed + 2 ^ 32 * failed)

/-- A rotation or a retraining that CAL.RUN waits for has come round (R541). -/
def State.calServed (s : State) (cls key : Nat) : State :=
  (s.startedCmds 0x1601 fun c => u8 c.payload 0 == cls && c.named.contains key).foldl (fun s c =>
    let left := c.named.filter (· != key)
    if left.isEmpty then s.calRunEnd c else s.markStarted c c.aux left) s

/-! ## Occurrences of the fast control window (R22, R82 to R85) -/

/-- The input whose window banks a job uses (R167). -/
def PressJob.input (x : PressJob) : Nat := if x.srcKind = 0 then x.source else x.source / 8

/-- The enabled FFT jobs of input `i` (R178). -/
def State.fftJobs (s : State) (i : Nat) : List Nat :=
  (s.press.jobs.filter fun e => e.2.kind == 0 && e.2.input == i && e.2.enabled).map Prod.fst

/-- Configuring commands of a block while which strobes of group `g` are held (R22). DEDUCED, log entry 15. -/
def groupHolders (g : Nat) : List Nat :=
  if g < 8 then [0x0701, 0x0702, 0x0703]
  else if g < 12 then [0x0401, 0x0402, 0x0501, 0x0502, 0x0503, 0x0504]
  else if g < 20 then [0x0A01, 0x0A03, 0x0A04, 0x0A05, 0x0A09]
  else if g < 22 then [0x0C01, 0x0C03, 0x0C04]
  else if g = 22 then [0x1301, 0x1302, 0x1303, 0x1304, 0x1305]
  else if g = 23 then [0x0602, 0x0603, 0x0801, 0x0805]
  else [0x1101, 0x1102, 0x1103, 0x1104]

/-- A command in flight holds the strobes of group `g` (R22). DEDUCED, log entry 15. -/
def State.groupHeld (s : State) (g : Nat) : Bool := s.host.cmds.any fun c => (groupHolders g).contains c.opcode

/-- The units of group `g` that exist, by number: the Press select of input i is unit 32 + i of its group and
job j is unit 64 + j, and density plane p is unit 4,096 + p of group 23 (R82, R178). -/
def State.groupUnits (s : State) (g : Nat) : List Nat :=
  if g < 8 then span (8 * g) 8
  else if g < 12 then span (8 * (g - 8)) 8 ++ [32 + (g - 8)] ++ (s.fftJobs (g - 8)).map fun j => 64 + j
  else if g < 20 then span (32 * (g - 12)) 32
  else if g < 22 then [g - 20]
  else if g = 22 then [0]
  else if g = 23 then s.ctxs.map Prod.fst ++ span 4096 4
  else (s.rack.flows.map Prod.fst).filter fun f => f / 6144 == g - 24

/-- The occurrence of group `g` is applied (R85). -/
def State.occApplied (s : State) (g : Nat) : State :=
  match s.fcw.occ.find g with
  | some o => { s with fcw := { s.fcw with applied := s.fcw.applied.set g o.seq, occ := s.fcw.occ.del g } }
  | none => s

/-- Units of a group have taken its pending occurrence; it is applied when every unit has (R85). -/
def State.occTaken (s : State) (g : Nat) (units : List Nat) : State :=
  match s.fcw.occ.find g with
  | none => s
  | some o =>
    let left := (s.groupUnits g).filter fun u => !o.taken.contains u && !units.contains u
    if left.isEmpty then s.occApplied g
    else { s with fcw := { s.fcw with occ := s.fcw.occ.set g { o with taken := o.taken ++ units } } }

end Sys2Proof.Machine
end

