-- ==== Sys2Proof/Machine/Ddc.lean ====
section
/-! DEFINITION. The down-converter bank and the DDC family (R137 to R156). -/

namespace Sys2Proof.Machine

/-- Logical DDC `d`. -/
def State.ddc (s : State) (d : Nat) : Ddc := s.ddcs.get d {}

/-- Replaces a DDC. -/
def State.setDdc (s : State) (d : Nat) (x : Ddc) : State := { s with ddcs := s.ddcs.set d x }

/-- Decimation ratio D (R141). -/
def Ddc.ratio (x : Ddc) : Nat := (if x.form = 0 then 1 else 3) * 2 ^ x.k

/-- Filter span S in outputs (R141). -/
def Ddc.span (x : Ddc) : Nat := if x.form = 0 then 112 else 144

/-- Index of the first output whose span starts at or after reference-plane tick `r` (R144).
DESIGN CHOICE, log entry 125. -/
def Ddc.firstClean (x : Ddc) (r : Nat) : Nat :=
  let d := x.ratio
  (r - x.origin + d - 1) / d + x.span / 2

/-- Index of the first settled output of the run (R144, R155). -/
def Ddc.firstSettled (x : Ddc) : Nat := x.firstClean x.cleanFrom

/-- Stamp tick of output `n` (R139). DESIGN CHOICE, log entry 29. -/
def Ddc.stampOf (x : Ddc) (n : Nat) : Nat := x.origin + n * x.ratio

/-- Half an output's span, in ticks (R141). -/
def Ddc.half (x : Ddc) : Nat := x.span / 2 * x.ratio

/-- Output `n` has been produced by module time `now`: the last input sample of its span is there (R141, R144).
DESIGN CHOICE, log entry 29. -/
def Ddc.produced (x : Ddc) (n now : Nat) : Bool := decide (x.stampOf n + x.half ≤ now)

/-- Index of the next output at module time `now`. DESIGN CHOICE, log entry 29. -/
def Ddc.nextIndex (x : Ddc) (now : Nat) : Nat :=
  if now < x.origin + x.half then 0 else (now - x.half - x.origin) / x.ratio + 1

/-- A change point at reference-plane tick `r`: it opens an unsettled run or extends it, and its cause
replaces the cause (R144, R147). DESIGN CHOICE, log entry 29. -/
def Ddc.changePoint (x : Ddc) (r cause : Nat) : Ddc :=
  { x with unsettled := true, cleanFrom := if x.unsettled then max x.cleanFrom r else r, cause }

/-- A change point of R144: the outputs whose span holds it are unsettled. -/
def Ddc.changeAt (x : Ddc) (r cause : Nat) : Ddc := { x.changePoint r cause with points := r :: x.points }

/-- The present settings as those in force up to reference-plane tick `r`. -/
def Ddc.era (x : Ddc) (r : Nat) : DdcEra :=
  { upto := r, source := x.source, gain := x.gain, ncoMode := x.ncoMode, freq := x.freq, phase := x.phase, tone := x.tone,
    acc := x.acc, accTick := x.accTick, delayInt := x.delayInt, delayFrac := x.delayFrac, dead := x.dead }

/-- The settings change at reference-plane tick `r`: those so far are kept for the outputs before it (R138, R144). -/
def Ddc.keepEra (x : Ddc) (r : Nat) : Ddc := if x.running then { x with eras := x.era r :: x.eras } else x

/-- A DDC with the settings of an era. -/
def DdcEra.onto (e : DdcEra) (x : Ddc) : Ddc :=
  { x with source := e.source, gain := e.gain, ncoMode := e.ncoMode, freq := e.freq, phase := e.phase, tone := e.tone,
           acc := e.acc, accTick := e.accTick, delayInt := e.delayInt, delayFrac := e.delayFrac, dead := e.dead }

/-- The DDC with the settings that made output `n`: those in force at the end of its span (R138, R141). -/
def Ddc.settingsOf (x : Ddc) (n : Nat) : Ddc :=
  match x.eras.reverse.find? fun e => decide (x.stampOf n + x.half ≤ e.upto) with
  | some e => e.onto x
  | none => x

/-- Reference-plane tick of the input sample taken at the connector at tick `c` (R139). -/
def Ddc.refTick (x : Ddc) (c : Nat) : Nat := ((c : Int) + x.delayInt).toNat

/-- The NCO accumulator brought up to tick `now` (R140). -/
def Ddc.accAt (x : Ddc) (now : Nat) : Nat :=
  if x.ncoMode = 0 then (x.acc + x.freq * (now - x.accTick)) % 2 ^ 48
  else (x.phase * 65536 + x.freq * now) % 2 ^ 48

/-- New F, P and mode at tick `now`; `load` sets the phase to P × 2^16 (R140, R150). -/
def Ddc.retune (x : Ddc) (now f p mode : Nat) (load : Bool) : Ddc :=
  { x with acc := if load then p * 65536 % 2 ^ 48 else x.accAt now, accTick := now, freq := f, phase := p,
           ncoMode := mode }

/-- Physical unit of a logical DDC within its input (R13, R137, R592). -/
def Ddc.physical (x : Ddc) (d : Nat) : Nat := x.unit.getD (d % 8)

/-- The delay settings take effect at module time `now` (R143, R144). -/
def Ddc.setDelay (x : Ddc) (now : Nat) (i : Int) (f : Nat) : Ddc :=
  let step := i != x.delayInt || decide (16 < ((f : Int) - x.delayFrac).natAbs)
  let y := { x.keepEra now with delayInt := i, delayFrac := f, delayNext := none }
  if x.running && step then y.changeAt now 4 else y

/-- The tick from which the samples of the DDC's source are settled, on its reference plane (R117, R144). -/
def State.ddcClean (s : State) (d : Nat) (x : Ddc) : Nat :=
  if x.source = 0 then x.refTick (s.inputs.get (d / 8) {}).settledFrom else 0

/-- The intervals of OVR samples of an input, as far as they are known (R126). -/
def RfInput.ovrSpans (x : RfInput) : List (Nat × Nat) :=
  x.marks ++ (match x.run with | some r => [(r.start, r.stop.getD (2 ^ 80))] | none => [])

/-- The intervals of unsettled samples of an input (R117, R123, R513). -/
def RfInput.looseSpans (x : RfInput) : List (Nat × Nat) :=
  x.loose ++ (x.waiting.map fun w => (w.2, 2 ^ 80)) ++ (match x.lostAt with | some a => [(a, 2 ^ 80)] | none => [])

/-- Some interval of a list meets the ticks from `a` up to, but not including, `b`. -/
def hits (l : List (Nat × Nat)) (a b : Nat) : Bool := l.any fun e => decide (e.1 < b ∧ a < e.2)

/-- Intervals of samples at the connector, on the reference plane, as far as they were fed between tick `from_` and the
end of an era (R139, R151). -/
def DdcEra.planeSpans (e : DdcEra) (from_ : Nat) (l : List (Nat × Nat)) : List (Nat × Nat) :=
  if e.source ≠ 0 then []
  else
    l.filterMap fun v =>
      let a := max from_ ((v.1 : Int) + e.delayInt).toNat
      let b := min e.upto ((v.2 : Int) + e.delayInt).toNat
      if a < b then some (a, b) else none

/-- Intervals of samples at the connector, on the reference plane of a DDC, era after era. -/
def eraSpans (l : List (Nat × Nat)) : List DdcEra → Nat → List (Nat × Nat)
  | [], _ => []
  | e :: es, from_ => e.planeSpans from_ l ++ eraSpans l es e.upto

/-- The intervals of the reference plane of a DDC that hold samples of its input from intervals at the connector. -/
def Ddc.planeSpans (x : Ddc) (l : List (Nat × Nat)) : List (Nat × Nat) :=
  eraSpans l (x.eras.reverse ++ [x.era (2 ^ 81)]) 0

/-- The outputs whose spans meet an interval of the reference plane: the first of them, and the one after the last
(R141, R145). -/
def Ddc.reach (x : Ddc) (a b : Nat) : Nat × Nat :=
  let lo : Int := (a : Int) - x.half - x.origin
  let hi : Int := (b : Int) - 1 + x.half - x.origin
  ((lo / x.ratio + 1).toNat, (hi / x.ratio + 1).toNat)

/-- How many of the outputs from index `n` up to, but not including, `m` meet intervals of a list, which rise. -/
def Ddc.countHits (x : Ddc) : List (Nat × Nat) → Nat → Nat → Nat
  | [], _, _ => 0
  | (a, b) :: l, n, m =>
    let r := x.reach a b
    let lo := max n r.1
    let hi := min m r.2
    (hi - lo) + x.countHits l (max n hi) m

/-- Outputs from `n` up to, but not including, `m` that carry OVR_SEEN for their input samples (R145). -/
def State.ddcSeen (s : State) (d n m : Nat) : Nat :=
  let x := s.ddc d
  x.countHits (x.planeSpans (s.inputs.get (d / 8) {}).ovrSpans) n m

/-- The span of output `n` begins before the feed start, or a change point lies in it; one at its very start does not
unsettle it, as with the first settled sample of R144. DESIGN CHOICE, log entry 125. -/
def Ddc.inTransient (x : Ddc) (n : Nat) : Bool :=
  decide (x.stampOf n < x.origin + x.half) ||
    x.points.any fun r => decide (x.stampOf n - x.half < r ∧ r < x.stampOf n + x.half)

/-- Output `n` is unsettled (R144): its span holds a change point, begins before the feed start or holds an unsettled
input sample, or nothing covers the DDC. DESIGN CHOICE, log entry 125. -/
def State.ddcLoose (s : State) (d n : Nat) : Bool :=
  let x := s.ddc d
  (x.settingsOf n).dead || x.inTransient n ||
    decide (0 < x.countHits (x.planeSpans (s.inputs.get (d / 8) {}).looseSpans) n (n + 1))

/-- The count of OVR_SEEN outputs is brought up to the outputs produced by now (R145, R155). -/
def State.countSeen (s : State) (d : Nat) : State :=
  let x := s.ddc d
  let n := x.nextIndex s.now
  if x.running && decide (x.ovrUpTo < n) then
    s.setDdc d { x with ovrSeen := satAdd 64 x.ovrSeen (s.ddcSeen d x.ovrUpTo n), ovrUpTo := n }
  else s

/-- The outputs whose clamps have not been counted when the format or the ratio changes: how many of them were clamped,
and how many of those carried OVR_SEEN for that alone, are free values within their number (R142).
DESIGN CHOICE, log entry 126. -/
def State.satSkip (s : State) (d : Nat) : State :=
  let x := s.ddc d
  let n := x.nextIndex s.now
  if !x.running || x.format == 2 || decide (n ≤ x.satUpTo) then s
  else
    let k := s.freeNat 64 % (n - x.satUpTo + 1)
    let j := if x.source = 0 then s.drawFree.freeNat 64 % (k + 1) else 0
    s.drawFree.drawFree.setDdc d { x with sat := satAdd 64 x.sat k, ovrSeen := satAdd 64 x.ovrSeen j }

/-- What `DDC.ENABLE` does when the grid origin is reached: the feed starts (R144, R153). The outputs are settled once
their spans lie after it and after the input's own unsettled samples. -/
def State.ddcStart (s : State) (d g : Nat) : State :=
  let x := s.ddc d
  s.setDdc d { x with
    running := true, starting := none, origin := g, unsettled := true, cleanFrom := max g (s.ddcClean d x), cause := 1,
    points := [], eras := [], sat := 0, satAt := none, satUpTo := 0, ovrSeen := 0, ovrUpTo := 0, acc := x.phase * 65536 % 2 ^ 48, accTick := g }

/-- The shadows of DDC `d` hold its live values (R22, R150). -/
def State.ddcShadows (s : State) (d : Nat) : State :=
  let x := s.ddc d
  let o := 0x2000 + d * 0x20
  (((s.setShadow o (x.freq % 2 ^ 32)).setShadow (o + 4) (x.freq / 2 ^ 32)).setShadow (o + 8) x.phase).setShadow
    (o + 12) 0

/-- DDC `d` can take an occurrence now: with its next output while it runs (R84, R150). -/
def State.ddcCanTake (s : State) (d : Nat) : Bool :=
  let x := s.ddc d
  !x.running || (decide (x.origin ≤ s.now) && (s.now - x.origin) % x.ratio == 0)

/-- DDC `d` takes an occurrence of its update group (R84, R150). -/
def State.ddcTake (s : State) (d : Nat) (words : KMap Nat) : State :=
  let x := s.ddc d
  let o := 0x2000 + d * 0x20
  let f := words.get o 0 + 2 ^ 32 * (words.get (o + 4) 0 % 65536)
  let p := words.get (o + 8) 0
  let load := words.get (o + 12) 0 % 2 == 1 && x.ncoMode == 0
  if f = x.freq ∧ p = x.phase ∧ !load then s
  else
    let y := (x.keepEra s.now).retune s.now f p x.ncoMode load
    s.setDdc d (if x.running then y.changeAt s.now 2 else y)

/-- A step of the input feeds every running DDC that takes it a change point (R117, R123, R144). -/
def State.ddcInputStep (s : State) (input settled cause : Nat) : State :=
  (span (8 * input) 8).foldl (fun s d =>
    let x := s.ddc d
    if x.running && x.source == 0 then s.setDdc d (x.changePoint (x.refTick settled) cause) else s) s

/-- An idle DDC of input `i` that can be borrowed, lowest first (R520). -/
def State.idleDdc (s : State) (i : Nat) : Option Nat :=
  (span (8 * i) 8).find? fun d =>
    let x := s.ddc d
    !x.running && x.starting.isNone && !x.lent && !x.dead && !s.isRetired ⟨2, i, x.physical d⟩

/-- The unit of a pool that no logical DDC of input `i` has. DESIGN CHOICE, log entry 31. -/
def State.spareDdcUnit (s : State) (i : Nat) : Option Nat :=
  (List.range 9).find? fun u =>
    !s.isRetired ⟨2, i, u⟩ && !((span (8 * i) 8).any fun d => (s.ddc d).physical d == u)

/-- A physical DDC of input `i` fails (R148, R520, R522). -/
def State.ddcFail (s : State) (i u : Nat) (inj : Bool) : State :=
  let unit : Unit3 := ⟨2, i, u⟩
  if i > 3 || u > 8 || s.isRetired unit then s
  else
    let owner := (span (8 * i) 8).find? fun d =>
      let x := s.ddc d
      x.physical d == u && !x.lent && !x.dead
    match owner with
    | none => s.faultIn unit { injected := inj }
    | some d =>
      let x := s.ddc d
      let move (v : Nat) : Ddc :=
        let y := { x with unit := some v }
        if x.running then y.changeAt s.now 6 else y
      let info (v : Nat) (b : Bool) : FaultInfo :=
        let y := move v
        { takenBy := v, logical := d, intervalStart := if x.running then s.now else 0,
          intervalTicks := if x.running then y.stampOf y.firstSettled - s.now else 0, injected := inj,
          borrowed := b }
      match s.sparesLeft 2 i, s.spareDdcUnit i with
      | _ + 1, some v => (s.setDdc d (move v)).faultMasked unit (info v false)
      | _, _ =>
        match (s.setDdc d { x with running := true }).idleDdc i with
        | some b =>
          let v := (s.ddc b).physical b
          let s1 := (s.setDdc b { s.ddc b with lent := true }).setDdc d (move v)
          ({ s1 with ft := { s1.ft with borrowed := s1.ft.borrowed ++ [(⟨2, i, v⟩ : Unit3)] } } : State).faultMasked unit (info v true)
        | none => (s.setDdc d { x.keepEra s.now with dead := true }).faultUnmasked unit { logical := d, injected := inj }

/-- DDC_DATAPATH_FAULT (R148). -/
def execDdcDatapathFault (t input unit : Nat) (s : State) : Host.Outcome State Fault Refusal :=
  happens t (fun s => s.ddcFail input unit false) s

/-- A DDC has become idle: the first uncovered DDC of its input moves to its unit (R520). -/
def State.ddcFreed (s : State) (b : Nat) : State :=
  match (span (8 * (b / 8)) 8).find? fun d => (s.ddc d).dead with
  | some d =>
    let v := (s.ddc b).physical b
    let y := { (s.ddc d).keepEra s.now with dead := false, unit := some v }
    (s.setDdc b { s.ddc b with lent := true }).setDdc d (if y.running then y.changeAt s.now 6 else y)
  | none => s

/-- FIRST_SETTLED_OUTPUT (R147, R156). -/
def execFirstSettledOutput (t ddc : Nat) (s : State) : Host.Outcome State Fault Refusal :=
  happens t (fun s =>
    let x := s.ddc ddc
    let n := x.firstSettled
    if ddc < 32 ∧ x.running ∧ x.unsettled ∧ !x.dead ∧ x.produced n s.now then
      (s.setDdc ddc { x with unsettled := false }).eventAt 0x0401 ddc { tick := x.stampOf n }
        (n % 2 ^ 48 + 2 ^ 48 * x.cause)
    else s) s

/-- Commands on DDC `d` with opcode `op` that have started. -/
def State.ddcCmds (s : State) (op d : Nat) : List Cmd := s.startedCmds op fun c => u8 c.payload 0 == d

/-- DDC_SCHEDULED_CHANGE (R152, R153): an enable origin or a scheduled delay is reached, or output 0 of an enable is
produced. A delay takes effect at the tick or edge that was asked for. -/
def execDdcScheduledChange (t ddc : Nat) (s : State) : Host.Outcome State Fault Refusal :=
  happens t (fun s =>
    if ddc > 31 then s
    else
      let s0 := match (s.ddc ddc).starting with
        | some g => if g ≤ s.now then s.ddcStart ddc g else s
        | none => s
      let x := s0.ddc ddc
      let s1 := if x.running && x.produced 0 s.now then s0.finishAll (s0.ddcCmds 0x0403 ddc) .ok fun _ => x.origin else s0
      match (s1.ddc ddc).delayNext with
      | some (i, f, w) =>
        if s1.reached w then
          let at_ := s1.dueTick w
          let s2 := s1.setDdc ddc ((s1.ddc ddc).setDelay at_ i f)
          s2.finishAll (s2.ddcCmds 0x0402 ddc) .ok fun _ => at_
        else s1
      | none => s1) s

/-- DDC.CONFIGURE (R151). DEDUCED, log entry 30. -/
def ddcConfigure (c : Cmd) (s : State) : VerbOut :=
  let p := c.payload
  let d := u8 p 0
  let x := s.ddc d
  let kBad := if u8 p 3 = 0 then u8 p 4 = 0 ∨ u8 p 4 > 16 else u8 p 4 > 15
  if d > 31 ∨ u8 p 1 > 2 ∨ u8 p 2 > 2 ∨ u8 p 3 > 1 ∨ kBad ∨ u8 p 5 > 24 ∨ u8 p 6 > 1 ∨ !zeros p 7 1 ∨
      !zeros p 14 2 ∨ !zeros p 20 4 ∨ !zeros p 30 2 then .fail .badParam 0
  else if x.lent then .fail .noResource 0
  else
    let rate := u8 p 2 != x.format || u8 p 3 != x.form || u8 p 4 != x.k
    match (if x.running && rate then s.ddcConsumer d 0 false else none) with
    | some u => .fail .badState (consumerWord u)
    | none =>
      let s := if rate then (s.countSeen d).satSkip d else s.countSeen d
      let x := (s.ddc d).keepEra s.now
      let y := x.retune s.now (u64 p 8) (u32 p 16) (u8 p 6) false
      let y := { y with configured := true, source := u8 p 1, format := u8 p 2, form := u8 p 3, k := u8 p 4, gain := u8 p 5,
                        tone := u64 p 24 }
      let s := if rate then s.trigDdcRate d else s
      let y : Ddc := if x.running then { y.changeAt (max s.now (s.ddcClean d y)) 3 with
          points := s.now :: x.points, ovrUpTo := y.nextIndex s.now,
          satUpTo := if rate then y.nextIndex s.now else x.satUpTo } else y
      if x.running then .done .ok s.now ((s.setDdc d y).ddcShadows d)
      else .done .ok 0 ((s.setDdc d y).ddcShadows d)

/-- DDC_CONFIGURE: `DDC.CONFIGURE` (R151). -/
def execDdcConfigure (t fn tag : Nat) (s : State) : Host.Outcome State Fault Refusal :=
  verb t 0x0401 fn tag ddcConfigure s

/-- DDC.SET_DELAY (R152). DESIGN CHOICE, log entry 120. -/
def ddcSetDelay (c : Cmd) (s : State) : VerbOut :=
  let p := c.payload
  let d := u8 p 0
  let x := s.ddc d
  let i := s16 p 2
  let w : Sched := { mode := u8 p 1, at_ := u64 p 8 }
  if d > 31 ∨ u8 p 1 > 2 ∨ i < -4096 ∨ 4095 < i ∨ !zeros p 5 3 ∨ s.tooSoon w then .fail .badParam 0
  else if x.lent then .fail .noResource 0
  else if !x.running then
    .done .ok 0 (s.setDdc d { x with delayInt := i, delayFrac := u8 p 4 })
  else if w.mode = 0 then .done .ok s.now (s.setDdc d (x.setDelay s.now i (u8 p 4)))
  else .running 0 [] (s.setDdc d { x with delayNext := some (i, u8 p 4, w) })

/-- DDC_SET_DELAY: `DDC.SET_DELAY` (R152). -/
def execDdcSetDelay (t fn tag : Nat) (s : State) : Host.Outcome State Fault Refusal :=
  verb t 0x0402 fn tag ddcSetDelay s

/-- Domain PD_DDC_n is on (R149): physical units 0 to 4 of input n / 2 for even n, 5 to 8 for odd n. It is on while a
DDC mapped to it is enabled, and the spare's while any DDC of the input is. -/
def State.pdDdc (s : State) (n : Nat) : Bool :=
  let i := n / 2
  let holds (u : Nat) : Bool := decide (n < 8) && (if n % 2 = 0 then decide (u ≤ 4) else decide (5 ≤ u ∧ u ≤ 8))
  let on := (span (8 * i) 8).filter fun d => (s.ddc d).enabled
  (on.any fun d => holds ((s.ddc d).physical d)) || (!on.isEmpty && (s.spareDdcUnit i).any holds)

/-- The declaration of a DDC (R149). -/
def ddcDecl (d : Nat) : Decl := { fam := 4, obj := d, group := d, first := 400000, each := 400000 }

/-- DDC.ENABLE (R153). DESIGN CHOICE, log entry 120. -/
def ddcEnable (c : Cmd) (s : State) : VerbOut :=
  let p := c.payload
  let d := u8 p 0
  let x := s.ddc d
  let w : Sched := { mode := u8 p 1, at_ := u64 p 8 }
  if d > 31 ∨ u8 p 1 > 2 ∨ !zeros p 2 6 ∨ s.tooSoon w then .fail .badParam 0
  else if x.lent then .fail .noResource 0
  else if x.running then .done .ok x.origin s
  else if (s.inputs.get (d / 8) {}).mode != .running then .fail .badState 0
  else
    match s.declare [ddcDecl d] with
    | .error short => .fail .noEnergy short
    | .ok s1 =>
      let e := s.now + 10 * ticksPerUs
      let r := x.ratio
      match (if w.mode = 0 then some ((e + r - 1) / r * r) else s.startTick w) with
      | some g => .running 0 [] (s1.setDdc d { x with starting := some g })
      | none => .fail .badState 0

/-- DDC_ENABLE: `DDC.ENABLE` (R153). -/
def execDdcEnable (t fn tag : Nat) (s : State) : Host.Outcome State Fault Refusal :=
  verb t 0x0403 fn tag ddcEnable s

/-- A DDC is quiesced: its filter contents are gone and its energy is released (R149, R154). -/
def State.ddcQuiesce (s : State) (d : Nat) : State :=
  ((s.setDdc d { s.ddc d with running := false, starting := none, unsettled := false, delayNext := none,
                              origin := 0 }).undeclare 4 d).ddcFreed d

/-- DDC.DISABLE (R154). -/
def ddcDisable (c : Cmd) (s : State) : VerbOut :=
  let p := c.payload
  let d := u8 p 0
  if d > 31 ∨ !zeros p 1 3 then .fail .badParam 0
  else if (s.ddc d).lent then .fail .noResource 0
  else if !(s.ddc d).running then .done .quiesced 0 s
  else
    match s.ddcConsumer d 0 true with
    | some u => .fail .badState (consumerWord u)
    | none => .done .quiesced 0 (s.ddcQuiesce d)

/-- DDC_DISABLE: `DDC.DISABLE` (R154). -/
def execDdcDisable (t fn tag : Nat) (s : State) : Host.Outcome State Fault Refusal :=
  verb t 0x0404 fn tag ddcDisable s

end Sys2Proof.Machine
end

