-- ==== Sys2Proof/Machine/Input.lean ====
section
/-! DEFINITION. RF inputs and conversion, and the INPUT family (R116 to R135). -/

namespace Sys2Proof.Machine

/-- Input `i`. -/
def State.input (s : State) (i : Nat) : RfInput := s.inputs.get i {}

/-- Replaces an input. -/
def State.setInput (s : State) (i : Nat) (x : RfInput) : State := { s with inputs := s.inputs.set i x }

/-- Slice `k` as it stands at power-up (R118). -/
def Slice.atPowerUp (k : Nat) : Slice :=
  if k = 32 then { role := .calSpare } else if k = 33 then { role := .coldSpare } else { pos := k }

/-- Slice `k` of an input. -/
def RfInput.slice (x : RfInput) (k : Nat) : Slice := x.slices.get k (Slice.atPowerUp k)

/-- Replaces a slice. -/
def RfInput.setSlice (x : RfInput) (k : Nat) (v : Slice) : RfInput := { x with slices := x.slices.set k v }

/-- The lowest slice in a role. -/
def RfInput.inRole (x : RfInput) (r : SliceRole) : Option Nat :=
  (List.range 34).find? fun k => (x.slice k).role == r

/-- The powered slice that holds no position: calibration spare, being trimmed, or entering a position. -/
def RfInput.spareSlice (x : RfInput) : Option Nat :=
  (List.range 34).find? fun k =>
    match (x.slice k).role with
    | .calSpare | .trimming | .handover => true
    | _ => false

/-- Some position has no slice: its samples read 0 and every sample is unsettled (R513 class 1). -/
def RfInput.positionLost (x : RfInput) : Bool :=
  (List.range 32).any fun p => !(List.range 34).any fun k => (x.slice k).role == .active && (x.slice k).pos == p

/-- Background rotation is stopped with the trims held: no spare left, throttle stage 2, or HOLD (R124,
R502, R543). -/
def State.calFrozen (s : State) (i : Nat) : Bool :=
  (s.input i).frozen || decide (2 ≤ s.bud.stage) || (s.cal.sched.get 1 {}).mode == 1

/-- The attenuator switches at the switch tick, module time now (R117). -/
def State.switchRange (s : State) (i r : Nat) : State :=
  let x := s.input i
  (s.setInput i { x with range := r, pending := none, settledFrom := max x.settledFrom (s.now + 5120),
                         loose := x.loose ++ [(s.now, s.now + 5120)] }).ddcInputStep i (s.now + 5120) 5

/-- Power domains of an input (R119): 0 PD_ADCi_FE, 1 PD_ADCi_BANKA, 2 PD_ADCi_BANKB, 3 PD_ADCi_CAL. All four are on
while it is enabled, and for the trims of power-up calibration (R125). -/
def RfInput.domainOn (x : RfInput) (n : Nat) : Bool := decide (n < 4) && x.mode != .disabled

/-- The bank of slice `k` (R118). -/
def sliceBank (k : Nat) : Nat := if k < 17 then 1 else 2

/-- The power switch of slice `k` is closed (R119): the cold spare is off until it is warmed, and a retired slice for
good. -/
def RfInput.sliceOn (x : RfInput) (k : Nat) : Bool :=
  x.domainOn (sliceBank k) && (match (x.slice k).role with
    | .coldSpare => x.paused
    | .retired => false
    | _ => true)

/-- INPUT_RANGE_SWITCH (R117, R131). -/
def execInputRangeSwitch (t input : Nat) (s : State) : Host.Outcome State Fault Refusal :=
  happens t (fun s =>
    match (s.input input).pending with
    | some (r, w) =>
      if s.reached w then
        let s1 := s.switchRange input r
        s1.finishAll (s1.startedCmds 0x0301 fun c => u8 c.payload 0 == input) .ok fun _ => s.now
      else s
    | none => s) s

/-! ## Rotation and slices -/

/-- ROTATION_STEP (R121): the slice being trimmed is done and becomes the calibration spare; the next step begins,
and unless it is step 33 the spare starts its handover into the position of `slice`. In step 33 the buffer's gain
error, a free value, is measured in the selected range. DESIGN CHOICE, log entry 11. -/
def execRotationStep (t input slice : Nat) (s : State) : Host.Outcome State Fault Refusal :=
  happens t (fun s =>
    let x := s.input input
    if input > 3 || x.mode != .running || x.paused || s.calFrozen input then s
    else
      let s1 := match x.inRole .trimming with
        | some k => (s.setInput input (x.setSlice k { x.slice k with role := .calSpare })).calTrim 1
            (input * 34 + k) 0 0
        | none => s
      let x := s1.input input
      let step := (x.calStep + 1) % 34
      let x := { x with calStep := step,
                        rotations := if step = 0 then wrapAdd 32 x.rotations 1 else x.rotations,
                        lastRotation := if step = 0 then s.stampNow else x.lastRotation }
      let s1 := if step = 33 then (s1.calTrim 2 (input * 3 + x.range) 0 (s1.freeNat 32)).drawFree else s1
      let s2 : State := match x.inRole SliceRole.calSpare with
        | some k =>
          if step < 33 ∧ slice < 34 ∧ (x.slice slice).role = SliceRole.active then
            s1.setInput input (x.setSlice k
              { x.slice k with role := SliceRole.handover, pos := (x.slice slice).pos })
          else s1.setInput input x
        | none => s1.setInput input x
      s2.calServed 1 (64 * input + step)) s

/-- A slice fails while its input runs (R123, R124, R513, R522). -/
def State.sliceFailRunning (s : State) (i k since : Nat) (interval inj : Bool) : State :=
  let u : Unit3 := ⟨1, i, k⟩
  let x := s.input i
  let sl := x.slice k
  let done (y : RfInput) : RfInput :=
    let y := y.setSlice k { sl with role := .retired }
    { y with paused := (y.inRole .coldSpare).isSome, frozen := decide (s.sparesLeft 1 i ≤ 1) }
  match sl.role with
  | .retired => s
  | .active =>
    if s.sparesLeft 1 i = 0 then
      let y := { x.setSlice k { sl with role := .retired } with lostAt := some (x.lostAt.getD since) }
      (s.setInput i y).faultUnmasked u
        { logical := i, detail := sl.pos, injected := inj }
    else
      match x.spareSlice with
      | some v =>
        let y := (done x).setSlice v { role := .active, pos := sl.pos }
        let s1 := s.setInput i (if interval then { y with settledFrom := max y.settledFrom s.now, loose := y.loose ++ [(since, s.now)] } else y)
        let s2 := if interval then s1.ddcInputStep i s.now 7 else s1
        s2.faultMasked u { takenBy := v, logical := i, detail := sl.pos, injected := inj,
                           intervalStart := if interval then since else 0,
                           intervalTicks := if interval then s.now - since else 0 }
      | none => s.setInput i { x with waiting := x.waiting ++ [(k, since)] }
  | .coldSpare =>
    let y := { x.setSlice k { sl with role := .retired } with paused := false, frozen := decide (s.sparesLeft 1 i ≤ 1) }
    (s.setInput i y).faultIn u { logical := i, injected := inj }
  | _ => (s.setInput i (done x)).faultIn u { logical := i, injected := inj }

/-- An enable that waited for the cold spare is complete: samples flow from now on, settled (R129, R133). -/
def State.inputFlows (s : State) (i : Nat) : State :=
  let s1 := s.setInput i { s.input i with mode := .running, firstSample := s.now, settledFrom := s.now }
  s1.finishAll (s1.startedCmds 0x0303 fun c => u8 c.payload 0 == i) .ok fun _ => s.now

/-- The failed slices that waited for the cold spare are served: with a spare that is ready, or, once no cold spare is
left to wait for, as faults that nothing covers (R124, R513, R521). An enable that waited for them is complete. -/
def State.serveWaiting (s : State) (i : Nat) : State :=
  let x := s.input i
  if x.waiting.isEmpty || ((x.inRole .coldSpare).isSome && x.spareSlice.isNone) then s
  else
    let s1 := x.waiting.foldl (fun s w => s.sliceFailRunning i w.1 w.2 (x.mode == .running) false)
      (s.setInput i { x with waiting := [] })
    if x.mode = .enabling ∧ (s1.input i).waiting.isEmpty then s1.inputFlows i else s1

/-- A slice fails: it is found at once while the input runs or is being enabled, and at the next enable while it is off
(R123, R129). -/
def State.sliceFail (s : State) (i k since : Nat) (inj : Bool) : State :=
  let mode := (s.input i).mode
  if i > 3 || k > 33 || s.isRetired ⟨1, i, k⟩ then s
  else if inj || mode == .running || mode == .enabling then
    (s.sliceFailRunning i k since (mode == .running) inj).serveWaiting i
  else s.setInput i { s.input i with waiting := (s.input i).waiting ++ [(k, since)] }

/-- SLICE_FAILURE (R123). -/
def execSliceFailure (t input slice faultTick : Nat) (s : State) : Host.Outcome State Fault Refusal :=
  happens t (fun s => s.sliceFail input slice faultTick false) s

/-- SLICE_HANDOVER_COMPLETE (R122): within the limits the position passes to the incoming slice and the
outgoing one is trimmed; three misses in a row make the incoming slice a failed one. -/
def execSliceHandoverComplete (t input : Nat) (within : Bool) (s : State) : Host.Outcome State Fault Refusal :=
  happens t (fun s =>
    let x := s.input input
    match (if x.mode == .running then x.inRole .handover else none) with
    | none => s
    | some k =>
      let v := x.slice k
      if within then
        let out := (List.range 34).find? fun j => (x.slice j).role == .active && (x.slice j).pos == v.pos
        let y := x.setSlice k { v with role := .active, missed := 0 }
        match out with
        | some j => s.setInput input (y.setSlice j { x.slice j with role := .trimming })
        | none => s.setInput input y
      else if v.missed + 1 < 3 then s.setInput input (x.setSlice k { v with missed := v.missed + 1 })
      else s.sliceFail input k s.now false) s

/-- COLD_SPARE_READY (R123 step 4, R129, R522): the cold spare becomes the calibration spare, or takes the
position that waits for it; an input that could not be enabled without it delivers samples now. -/
def execColdSpareReady (t input : Nat) (s : State) : Host.Outcome State Fault Refusal :=
  happens t (fun s =>
    let x := s.input input
    match x.inRole .coldSpare with
    | none => s
    | some k =>
      let y := { x.setSlice k { x.slice k with role := .calSpare } with paused := false }
      ((s.setInput input y).calTrim 1 (input * 34 + k) 0 0).serveWaiting input) s

/-! ## Overrange -/

/-- The clamp and protection flags of the samples of a run from tick `a` up to, but not including, `b`: [0] positive,
[1] negative, [2] protection (R126, R135). -/
def OvrRun.flagsIn (r : OvrRun) (a b : Nat) : Nat :=
  let before := (r.signs.filter fun e => decide (e.1 ≤ a)).getLast?.map Prod.snd
  let later := (r.signs.filter fun e => decide (a < e.1 ∧ e.1 < b)).map Prod.snd
  let seen := before.toList ++ later
  bit (seen.contains true) + 2 * bit (seen.contains false) + 4 * bit (r.protectFrom.any fun p => decide (p < b))

/-- The signs of a run from tick `a` on: that of its first sample, and a change at each of some offsets. -/
def signsFrom (a : Nat) (positive : Bool) : List Nat → List (Nat × Bool)
  | [] => [(a, positive)]
  | o :: os => (a, positive) :: signsFrom (a + o) (!positive) os

/-- Counts `n` OVR samples, the last at tick `last`, in the totals and in the open interval (R128, R132).
DESIGN CHOICE, log entry 91. -/
def RfInput.countOvr (x : RfInput) (n last flags : Nat) : RfInput :=
  { x with ovrSamples := satAdd 64 x.ovrSamples n, lastOvr := { tick := last },
           ovrCount := x.ovrCount + n, ovrFlags := x.ovrFlags ||| flags }

/-- DETAIL of EV_OVERRANGE (R135). -/
def ovrDetail (count kind flags : Nat) : Nat := min count (2 ^ 32 - 1) + 2 ^ 32 * kind + 2 ^ 33 * flags

/-- The samples of the run that goes on are counted up to, but not including, tick `upto`; a run that is over by then is
kept among the marks (R126, R128). -/
def RfInput.countRun (x : RfInput) (upto : Nat) : RfInput :=
  match x.run with
  | none => x
  | some r =>
    let hi := min upto (r.stop.getD upto)
    let y : RfInput := if r.counted < hi then
        x.countOvr (hi - r.counted) (hi - 1) (r.flagsIn r.counted hi)
      else x
    match r.stop with
    | some e =>
      let done : RfInput := { y with run := none, marks := y.marks ++ [(r.start, e)] }
      let on : RfInput := { y with run := some { r with counted := max r.counted hi } }
      if e ≤ upto then done else on
    | none => { y with run := some { r with counted := max r.counted hi } }

/-- The OVR samples taken so far are counted. -/
def State.countRun (s : State) (i : Nat) : State := s.setInput i ((s.input i).countRun (s.now + 1))

/-- The overrange interval that is open closes at its end: a SUMMARY with the count and a new interval, or no interval
(R128, R135). -/
def State.closeInterval (s : State) (i o : Nat) : State :=
  let e := o + ticksPerUs
  let x := (s.input i).countRun e
  if x.ovrCount = 0 then s.setInput i { x with ovrOpen := none, ovrFlags := 0 }
  else
    (s.setInput i { x with ovrOpen := some e, ovrCount := 0, ovrFlags := 0 }).eventAt
      0x0301 i { tick := e } (ovrDetail x.ovrCount 1 x.ovrFlags)

/-- At most `n` overrange intervals of an input whose end has been reached close, one after the other (R128). -/
def State.closeDue : Nat → Nat → State → State
  | 0, _, s => s
  | n + 1, i, s =>
    match (s.input i).ovrOpen with
    | some o => if o + ticksPerUs ≤ s.now then State.closeDue n i (s.closeInterval i o) else s
    | none => s

/-- Every overrange interval of an input whose end has been reached closes (R128). -/
def State.closeAll (s : State) (i : Nat) : State :=
  match (s.input i).ovrOpen with
  | some o => State.closeDue ((s.now - o) / ticksPerUs + 1) i s
  | none => s

/-- INPUT_OVERDRIVE (R126 to R128): a run of consecutive OVR samples that begins now, or drives the one that goes on
beyond +10 dBFS. The first sample raises START where no interval is open; with protection, samples carry OVR until it
releases. `firstPositive` is the sign of the sample of now, and each number of `flips` is the distance in samples to the
next one that takes the other sign. -/
def execInputOverdrive (t input samples : Nat) (firstPositive : Bool) (flips : List Nat) (protect : Bool) (s : State) :
    Host.Outcome State Fault Refusal :=
  happens t (fun s =>
    let s := s.closeAll input
    let x := (s.input input).countRun s.now
    if input > 3 || x.mode != .running || samples = 0 || x.protection || (x.run.isSome && !protect) then s
    else
      let signs := signsFrom s.now firstPositive flips
      let x1 := if protect then { x with protection := true, protectCount := satAdd 32 x.protectCount 1 } else x
      let stop := if protect then none else some (s.now + samples)
      let protectFrom := if protect then some s.now else none
      match x.run with
      | some r =>
        let before := r.signs.filter fun e => decide (e.1 < s.now)
        s.setInput input { x1 with run := some { r with stop, signs := before ++ signs, protectFrom } }
      | none =>
        let r : OvrRun := { start := s.now, stop, counted := s.now, signs, protectFrom }
        if x.ovrOpen.isSome then s.setInput input { x1 with run := some r }
        else
          let y := { x1 with run := some { r with counted := s.now + 1 }, ovrOpen := some s.now, ovrCount := 0, ovrFlags := 0,
                             ovrSamples := satAdd 64 x1.ovrSamples 1, lastOvr := s.stampNow }
          (s.setInput input y).eventAt 0x0301 input s.stampNow (ovrDetail 1 0 (r.flagsIn s.now (s.now + 1)))) s

/-- PROTECTION_RELEASE (R127): OVR is held on every sample until now. -/
def execProtectionRelease (t input : Nat) (s : State) : Host.Outcome State Fault Refusal :=
  happens t (fun s =>
    let x := s.input input
    if !x.protection then s
    else
      let y := { x with protection := false, run := x.run.map fun (r : OvrRun) => ({ r with stop := some s.now } : OvrRun) }
      s.setInput input (y.countRun s.now)) s

/-- OVERRANGE_INTERVAL_CLOSE (R128, R135). -/
def execOverrangeIntervalClose (t input : Nat) (s : State) : Host.Outcome State Fault Refusal :=
  happens t (fun s =>
    match (s.input input).ovrOpen with
    | none => s
    | some o => if s.now < o + ticksPerUs then s else s.closeInterval input o) s

/-! ## Commands -/

/-- INPUT.SET_RANGE (R131). DESIGN CHOICE, log entries 119 and 120. -/
def inputSetRange (c : Cmd) (s : State) : VerbOut :=
  let p := c.payload
  let i := u8 p 0
  let x := s.input i
  let w : Sched := { mode := u8 p 2, at_ := u64 p 8 }
  if i > 3 ∨ u8 p 1 > 2 ∨ u8 p 2 > 2 ∨ !zeros p 3 5 ∨ s.tooSoon w then .fail .badParam 0
  else if !s.readyBit (7 + i) then .fail .notReady 0
  else if u8 p 1 = x.range then .done .ok 0 s
  else if x.mode != .running then .done .ok 0 (s.setInput i { x with range := u8 p 1 })
  else if w.mode = 0 then .done .ok s.now (s.switchRange i (u8 p 1))
  else .running 0 [] (s.setInput i { x with pending := some (u8 p 1, w) })

/-- INPUT_SET_RANGE: `INPUT.SET_RANGE` (R131). -/
def execInputSetRange (t fn tag : Nat) (s : State) : Host.Outcome State Fault Refusal :=
  verb t 0x0301 fn tag inputSetRange s

/-- One byte of SLICE_MAP (R132). -/
def Slice.mapByte (v : Slice) : Nat :=
  match v.role with
  | .active => v.pos
  | .calSpare => 0x20
  | .coldSpare => 0x40
  | .trimming => 0x60
  | .handover => 0x80 + v.pos
  | .retired => 0xA0

/-- The 128 bytes of `INPUT.GET_STATUS` (R132), with the measured temperature. -/
def State.inputStatus (s : State) (i temp : Nat) : List Byte :=
  let x := s.input i
  let mode := match x.mode with
    | .powerUpCal => 0 | .disabled => 1 | .enabling => 2 | .running => 3 | .quiescing => 4
  let recent := x.lastOvr.tick != 0 && decide (s.now ≤ x.lastOvr.tick + ticksPerUs)
  pack [(1, i), (1, mode), (1, x.range),
    (1, bit recent + 2 * bit x.protection + 4 * bit x.paused + 8 * bit (s.calFrozen i) +
        16 * bit x.pending.isSome + 32 * bit (x.mode == .running && (decide (s.now < x.settledFrom) || x.positionLost || !x.waiting.isEmpty))),
    (1, s.sparesLeft 1 i), (1, x.calStep), (1, temp), (1, 0), (8, x.ovrSamples), (4, x.protectCount),
    (4, x.rotations), (16, stampNat x.lastOvr), (16, stampNat x.lastRotation), (8, x.firstSample)] ++
  ((List.range 34).map fun k => BitVec.ofNat 8 (x.slice k).mapByte) ++ leBytes 30 0

/-- INPUT.GET_STATUS (R132). -/
def inputGetStatus (temp : Nat) (c : Cmd) (s : State) : VerbOut :=
  let i := u8 c.payload 0
  if i > 3 ∨ !zeros c.payload 1 3 then .fail .badParam 0
  else if !s.readyBit (7 + i) then .fail .notReady 0
  else
    let s1 := s.countRun i
    .data (s1.inputStatus i temp) 0 s1

/-- INPUT_GET_STATUS: `INPUT.GET_STATUS` (R132). -/
def execInputGetStatus (t fn tag temp : Nat) (s : State) : Host.Outcome State Fault Refusal :=
  verb t 0x0302 fn tag (inputGetStatus temp) s

/-- The declaration of an input (R129). -/
def inputDecl (i : Nat) : Decl := { fam := 3, obj := i, group := i, first := 7000000, each := 7000000 }

/-- INPUT.ENABLE (R129, R133): slices that failed while the input was off are taken over before the first
sample, which is settled; one that only the cold spare can replace is waited for. The rotation begins with the trim of
the calibration spare (R121). DESIGN CHOICE, log entries 119 and 121. -/
def inputEnable (c : Cmd) (s : State) : VerbOut :=
  let p := c.payload
  let i := u8 p 0
  let x := s.input i
  if i > 3 ∨ (u8 p 1 > 2 ∧ u8 p 1 ≠ 0xFF) ∨ !zeros p 2 2 then .fail .badParam 0
  else if !s.readyBit (7 + i) then .fail .notReady 0
  else if x.mode = .running then .done .ok x.firstSample s
  else
    match s.declare [inputDecl i] with
    | .error short => .fail .noEnergy short
    | .ok s1 =>
      let y := { x with mode := .enabling, range := if u8 p 1 = 0xFF then x.range else u8 p 1, waiting := [],
                        ovrSamples := 0, protectCount := 0, protection := false, run := none, marks := [], loose := [],
                        lostAt := if x.positionLost then some s.now else none }
      let s2 := x.waiting.foldl (fun s w => s.sliceFailRunning i w.1 w.2 false false) (s1.setInput i y)
      let z := s2.input i
      let z := match (if z.calStep < 33 && !s2.calFrozen i then z.inRole .calSpare else none) with
        | some k => z.setSlice k { z.slice k with role := .trimming }
        | none => z
      let s3 := (s2.setInput i z).serveWaiting i
      if (s3.input i).waiting.isEmpty then
        .done .ok s.now (s3.setInput i { s3.input i with mode := .running, firstSample := s.now, settledFrom := s.now })
      else .running 0 [] s3

/-- INPUT_ENABLE: `INPUT.ENABLE` (R129, R133). -/
def execInputEnable (t fn tag : Nat) (s : State) : Host.Outcome State Fault Refusal :=
  verb t 0x0303 fn tag inputEnable s

/-- An input is quiesced and its domains are off (R130). An overrange interval that is open still closes with its
count (R128). -/
def State.inputQuiesce (s : State) (i : Nat) : State :=
  let x := (s.input i).countRun s.now
  let marks := x.marks ++ (match x.run with | some r => [(r.start, s.now)] | none => [])
  (s.setInput i { x with mode := .disabled, pending := none, protection := false, run := none, marks }).undeclare 3 i

/-- INPUT.DISABLE (R130, R134). DESIGN CHOICE, log entry 119. -/
def inputDisable (c : Cmd) (s : State) : VerbOut :=
  let i := u8 c.payload 0
  if i > 3 ∨ !zeros c.payload 1 3 then .fail .badParam 0
  else if !s.readyBit (7 + i) then .fail .notReady 0
  else if (s.input i).mode != .running then .done .quiesced 0 s
  else
    match s.inputConsumer i 0 with
    | some u => .fail .badState (consumerWord u)
    | none => .done .quiesced 0 (s.inputQuiesce i)

/-- INPUT_DISABLE: `INPUT.DISABLE` (R130, R134). -/
def execInputDisable (t fn tag : Nat) (s : State) : Host.Outcome State Fault Refusal :=
  verb t 0x0304 fn tag inputDisable s

end Sys2Proof.Machine
end

