-- ==== Sys2Proof/Machine/Float.lean ====
section
/-! DEFINITION. IEEE 754 values as the spec stores them: an exact fraction rounded once to binary32 or
binary64 (nearest, ties to even), and binary32 read as an exact value (R7). -/

namespace Sys2Proof.Machine

/-- floor(log2(n / d)) for n, d > 0. -/
def log2Frac (n d : Nat) : Int :=
  let e : Int := (Nat.log2 n : Int) - Nat.log2 d
  if (if 0 ≤ e then d * 2 ^ e.toNat ≤ n else d ≤ n * 2 ^ (-e).toNat) then e else e - 1

/-- `n / d × 2^k`, rounded to the nearest integer, ties to even. -/
def scaleRound (n d : Nat) (k : Int) : Nat :=
  if 0 ≤ k then roundEven (n * 2 ^ k.toNat) d else roundEven n (d * 2 ^ (-k).toNat)

/-- The encoding of `n / d` with `eb` exponent bits and `fb` fraction bits; the sign is separate. -/
def floatBits (eb fb : Nat) (n d : Nat) : Nat :=
  if n = 0 ∨ d = 0 then 0
  else
    let bias : Int := 2 ^ (eb - 1) - 1
    let e := max (log2Frac n d) (1 - bias)
    let m := scaleRound n d (fb - e)
    let up := decide (2 ^ (fb + 1) ≤ m)
    let e := if up then e + 1 else e
    let m := if up then m / 2 else m
    if bias < e then (2 ^ eb - 1) * 2 ^ fb
    else if m < 2 ^ fb then m
    else (e + bias).toNat * 2 ^ fb + (m - 2 ^ fb)

/-- binary32 of a non-negative fraction. -/
def f32 (n d : Nat) : Nat := floatBits 8 23 n d

/-- binary64 of a non-negative fraction. -/
def f64 (n d : Nat) : Nat := floatBits 11 52 n d

/-- binary64 of a signed fraction. -/
def f64Signed (i : Int) (d : Nat) : Nat := (if i < 0 then 2 ^ 63 else 0) + f64 i.natAbs d

/-- A binary32 word as sign, integer and power of two; none for NaN and infinity. -/
def f32Value (w : Nat) : Option (Bool × Nat × Int) :=
  let e := bits w 30 23
  let f := bits w 22 0
  if e = 255 then none
  else if e = 0 then some (w.testBit 31, f, -149)
  else some (w.testBit 31, 2 ^ 23 + f, (e : Int) - 150)

/-- The word is not a NaN and its magnitude is below 2.0 (PRESS tables). -/
def f32Below2 (w : Nat) : Bool := decide (bits w 30 23 < 128)

/-- A binary32 coefficient as 18-bit two's complement with 1.0 = 2^16 (R167), rounded to nearest even and
clamped. -/
def f32Coefficient (w : Nat) : Int :=
  match f32Value w with
  | none => 0
  | some (neg, m, e) =>
    let v : Int := scaleRound m 1 (e + 16)
    if neg then max (-v) (-131072) else min v 131071

end Sys2Proof.Machine
end

