-- ==== Sys2Proof/Machine/Level.lean ====
section
/-! DEFINITION. Levels in L16 units and the arithmetic of the trace detectors (R170, R186, R188). -/

namespace Sys2Proof.Machine

/-- Half L16 units in a decade of power: 2 × 2,560. -/
def halfUnits : Nat := 5120

/-- `m × 2^e / d ≥ 10^(k / 5120)`, exactly: both sides raised to the power 5,120. -/
def tenthPower (m : Nat) (e : Int) (d : Nat) (k : Int) : Bool :=
  let two := e * halfUnits
  decide (10 ^ k.toNat * 2 ^ (-two).toNat * d ^ halfUnits ≤ m ^ halfUnits * 2 ^ two.toNat * 10 ^ (-k).toNat)

/-- Binary search from bit `i` down for the largest n with P/0.25 at least 10^((2n − 1) / 5120). -/
def levelSearch (m : Nat) (e : Int) (d : Nat) : Nat → Int → Int
  | 0, n => n
  | i + 1, n =>
    let n' := n + 2 ^ i
    levelSearch m e d i (if tenthPower m (e + 2) d (2 * n' - 1) then n' else n)

/-- round(256 × 10·log10(P / 0.25)) for P = m × 2^e / d, clamped to −32,768 to 32,767; −32,768 for zero
(R170, R186). -/
def level (m : Nat) (e : Int) (d : Nat) : Int := if m = 0 then -32768 else levelSearch m e d 16 (-32768)

/-- The level of a power given as binary32. DESIGN CHOICE, log entry 36. -/
def levelOf (w : Nat) : Int :=
  match f32Value w with
  | some (false, m, e) => level m e 1
  | _ => if w = 0x7F800000 then 32767 else -32768

/-- A binary64 word as integer and power of two; its sign is not looked at. -/
def f64Value (w : Nat) : Nat × Int :=
  let e := bits w 62 52
  let f := bits w 51 0
  if e = 0 then (f, -1074) else (2 ^ 52 + f, (e : Int) - 1075)

/-- A fraction `m × 2^e / d` as numerator and denominator. DESIGN CHOICE, log entry 36. -/
def scaled (m : Nat) (e : Int) (d : Nat) : Nat × Nat := (m * 2 ^ e.toNat, d * 2 ^ (-e).toNat)

/-- Adds a binary32 power to a binary64 sum, rounded once to a 53-bit mantissa (R188). -/
def f64Add (sum p : Nat) : Nat :=
  match f32Value p with
  | some (_, m, e) =>
    let a := f64Value sum
    let x := scaled a.1 a.2 1
    let y := scaled m e 1
    f64 (x.1 * y.2 + y.1 * x.2) (x.2 * y.2)
  | none => 0x7FF0000000000000

/-- The mean of a binary64 sum over `n` as binary32. DESIGN CHOICE, log entry 36. -/
def f32Mean (sum n : Nat) : Nat :=
  let a := f64Value sum
  let x := scaled a.1 a.2 n
  f32 x.1 x.2

/-- The square root of that mean as binary32: the root of the fraction scaled by 2^320, so that the rounding
sees at least 60 bits of it. -/
def f32RootMean (sum n : Nat) : Nat :=
  let a := f64Value sum
  let x := scaled a.1 a.2 n
  f32 (2 * isqrt (x.1 * 2 ^ 2400 / x.2) 1800 0 + bit (x.1 * 2 ^ 2400 % x.2 != 0)) (2 ^ 1201)

/-- The level of the mean of a binary64 sum over `n`. -/
def levelOfMean (sum n : Nat) : Int :=
  let a := f64Value sum
  level a.1 a.2 n

end Sys2Proof.Machine
end

