-- ==== Sys2Proof/Machine/Values.lean ====
section
/-! DEFINITION. Values of sampled data as they stand in memory: codes, magnitudes and levels (R7, R142, R168, R170). -/

namespace Sys2Proof.Machine

/-- `n / d` rounded to the nearest integer, halves to even, for a positive `d`. -/
def roundEvenInt (n : Int) (d : Nat) : Int :=
  if 0 ≤ n then roundEven n.toNat d else -(roundEven (-n).toNat d : Int)

/-- The smallest exponent, from −32, under which every component fits ±32,767; 31 where none does (R169, R273).
Values are integers over `d`. -/
def blockExponent (d : Nat) (vs : List Int) : Nat → Int → Int
  | 0, e => e
  | n + 1, e =>
    if vs.all fun v => decide ((roundEvenInt (v * 2 ^ 15 * 2 ^ (-e).toNat) (d * 2 ^ e.toNat)).natAbs ≤ 32767) then e
    else blockExponent d vs n (e + 1)

/-- A component `v / d` as CS16 under exponent `e` (R170). -/
def toCs16At (d : Nat) (e v : Int) : Nat :=
  unsign 16 (max (-32767) (min 32767 (roundEvenInt (v * 2 ^ 15 * 2 ^ (-e).toNat) (d * 2 ^ e.toNat))))

/-- Components as CS16 under a common exponent, with that exponent. -/
def toCs16 (d : Nat) (vs : List Int) : List Nat × Int :=
  let e := blockExponent d vs 63 (-32)
  (vs.map (toCs16At d e), e)

/-- The 12-bit value of an S16 sample (R7). -/
def sampleCode (w : Nat) : Int := signed 12 (w / 16)

/-- A binary32 word as a signed number of units of 2^−149; zero where it is no number. -/
def f32Units (w : Nat) : Int :=
  match f32Value w with
  | some (neg, m, e) => if neg then -((m * 2 ^ (e + 149).toNat : Nat) : Int) else (m * 2 ^ (e + 149).toNat : Nat)
  | none => 0

/-- |I + jQ|² of a CF32 value as a number over 2^298. -/
def cf32Square (b : List Byte) : Nat := (f32Units (u32 b 0)).natAbs ^ 2 + (f32Units (u32 b 4)).natAbs ^ 2

/-- |X|² of a DDC output on the CF32 scale, as a fraction; `format` is 0 CS16, 1 CS24, 2 CF32 (R142, R168). -/
def ddcSquare (format gain : Nat) (b : List Byte) : Nat × Nat :=
  match format with
  | 0 => ((s16 b 0).natAbs ^ 2 + (s16 b 2).natAbs ^ 2, 4 ^ (15 + gain))
  | 1 => ((signed 24 (field b 0 3)).natAbs ^ 2 + (signed 24 (field b 3 3)).natAbs ^ 2, 4 ^ (23 + gain))
  | _ => (cf32Square b, 2 ^ 298)

/-- A magnitude whose square is the fraction `q`, in units of 2^−31, exceeds `u` (R213, R247). -/
def magAbove (q : Nat × Nat) (u : Int) : Bool := decide (u < 0) || decide (u.natAbs ^ 2 * q.2 < q.1 * 4 ^ 31)

/-- Such a magnitude falls below `l`. -/
def magBelow (q : Nat × Nat) (l : Int) : Bool := decide (0 < l) && decide (q.1 * 4 ^ 31 < l.natAbs ^ 2 * q.2)

/-- The L16 level of a delivered bin (R170, R186); `format` is 0 F32, 1 CF32, 2 CS16, 3 L16. -/
def binLevel (format : Nat) (exponent : Int) (b : List Byte) : Int :=
  match format with
  | 0 => levelOf (u32 b 0)
  | 1 => level (cf32Square b) (-298) 1
  | 2 => level ((s16 b 0).natAbs ^ 2 + (s16 b 2).natAbs ^ 2) (2 * exponent - 30) 1
  | _ => s16 b 0

/-- A signed fraction as a binary32 word. -/
def f32Signed (v : Int) (d : Nat) : Nat := (if v < 0 then 2 ^ 31 else 0) + f32 v.natAbs d

/-- Binary search for the number of binary32 words, from 0, that lie below 0.25 × 10^(l / 2560) by more than half a
step. -/
def powerSearch (l : Int) : Nat → Nat → Nat
  | 0, w => w
  | i + 1, w =>
    let v := w + 2 ^ i
    let below := match f32Value (v - 1) with
      | some (_, m, e) => !tenthPower (2 * m + 1) (e + 1) 1 (2 * l)
      | none => false
    powerSearch l i (if below then v else w)

/-- The power of a level as binary32, nearest (R170, R186). DESIGN CHOICE, log entry 36. -/
def powerOfLevel (l : Int) : Nat := powerSearch l 31 0

/-- P of a delivered value as binary32 (R170, R186); `format` is 0 F32, 1 CF32, 2 CS16, 3 L16.
DESIGN CHOICE, log entry 36. -/
def binPower (format : Nat) (exponent : Int) (b : List Byte) : Nat :=
  match format with
  | 0 => u32 b 0
  | 1 => f32 (cf32Square b) (2 ^ 298)
  | 2 =>
    let q := scaled ((s16 b 0).natAbs ^ 2 + (s16 b 2).natAbs ^ 2) (2 * exponent - 30) 1
    f32 q.1 q.2
  | _ => powerOfLevel (s16 b 0)

/-- The sum of a list of binary32 powers as integer over 2^149. -/
def powerSum (ps : List Nat) : Nat :=
  ps.foldl (fun n w => match f32Value w with
    | some (_, m, e) => n + m * 2 ^ (e + 149).toNat
    | none => n) 0

end Sys2Proof.Machine
end

