-- ==== Sys2Proof/Machine/Waves.lean ====
section
/-! DEFINITION. Sines, cosines and window functions in integer arithmetic: for the NCO and the test tone of a DDC (R140,
R151), and for the transforms, windows and prototypes of a pipeline (R166, R167, R171, R173). Every value is an integer
over a power of two; each division drops the rest, so that a value is off by some units of its last place. -/

namespace Sys2Proof.Machine

/-- π in units of 2^−64. -/
def pi64 : Nat := 57952155664616982739

/-- The terms of the series of sine or cosine from term `k` of angle `x`, in units of 2^−64, on: each follows from the
one before by the factor −x² / (k + 1)(k + 2). -/
def waveSeries (x2 : Nat) : Nat → Nat → Int → Int
  | 0, _, _ => 0
  | fuel + 1, k, term => term + waveSeries x2 fuel (k + 2) (-(term * x2 / (2 ^ 64 * ((k + 1) * (k + 2)))))

/-- Cosine and sine of the angle `x` in units of 2^−64, for an angle from 0 to π / 2, in the same units. -/
def waveQuadrant (x : Nat) : Int × Int :=
  let x2 := x * x / 2 ^ 64
  (waveSeries x2 15 0 (2 ^ 64), waveSeries x2 15 1 x)

/-- Cosine and sine of 2π · `n` / `d`, in units of 2^−64. -/
def wave (n d : Nat) : Int × Int :=
  let m := 4 * (n % d)
  let v := waveQuadrant (m % d * pi64 / (2 * d))
  match m / d with
  | 0 => v
  | 1 => (-v.2, v.1)
  | 2 => (-v.1, -v.2)
  | _ => (v.2, -v.1)

/-- The cosine alone. -/
def waveCos (n d : Nat) : Int := (wave n d).1

/-- The terms of I0 from term `k` on: each follows from the one before by the factor y / k², with `y` the square of half
the argument in units of 2^−64. -/
def besselSeries (y : Nat) : Nat → Nat → Nat → Nat
  | 0, _, _ => 0
  | fuel + 1, k, term => term + besselSeries y fuel (k + 1) (term * y / (2 ^ 64 * (k * k)))

/-- The modified Bessel function I0 of an argument whose square, divided by 4, is `y` in units of 2^−64. -/
def besselI0 (y : Nat) : Nat := besselSeries y 80 1 (2 ^ 64)

/-- The Kaiser window of parameter `num` / `den`, at a point of which 1 − u² is `below` / `of`, in units of 2^−64. -/
def kaiserAt (num den below of_ : Nat) : Nat :=
  let y := num * num * 2 ^ 62 / (den * den)
  besselI0 (y * below / of_) * 2 ^ 64 / besselI0 y

/-- sin(π · `n` / `d`) / (π · `n` / `d`), in units of 2^−64. -/
def sincAt (n d : Nat) : Int :=
  if n = 0 then 2 ^ 64 else (wave n (2 * d)).2 * (2 ^ 64 * d) / (pi64 * n)

/-- The integer square root of `n`, found bit by bit from bit `k` − 1 down, with `r` found so far. -/
def sqrtBits (n : Nat) : Nat → Nat → Nat
  | 0, r => r
  | k + 1, r => sqrtBits n k (if (r + 2 ^ k) * (r + 2 ^ k) ≤ n then r + 2 ^ k else r)

/-- The square root of `n` / `d`, rounded to the nearest integer, halves to even. -/
def sqrtRound (n d : Nat) : Nat :=
  let r := sqrtBits (4 * n / d) (Nat.log2 (4 * n / d) / 2 + 1) 0
  if r % 2 = 0 then r / 2 else if r * r * d = 4 * n then roundEven r 2 else (r + 1) / 2

end Sys2Proof.Machine
end

