-- ==== Sys2Proof/Machine/Signal.lean ====
section
/-! DEFINITION. The signal path from the connector: converter samples, DDC outputs and the arithmetic of a pipeline (R126,
R138 to R146, R166 to R173), and DDC.GET_STATUS, which counts clamped outputs (R155). The converter's codes come from
outside; the rows that consume a stream carry those of the ticks that they need. -/

namespace Sys2Proof.Machine

/-! ## Converter samples (R7, R118, R126) -/

/-- No slice samples at position `p` (R513 class 1). -/
def RfInput.vacant (x : RfInput) (p : Nat) : Bool :=
  !(List.range 34).any fun k => (x.slice k).role == .active && (x.slice k).pos == p

/-- The sample at tick `t` carries OVR: it lies in a run of overdriven samples, and no other sample does (R126). -/
def RfInput.ovrAt (x : RfInput) (t : Nat) : Bool := hits x.ovrSpans t (t + 1)

/-- The value of the sample at tick `t`, 12 bits: the limit of its sign where it carries OVR, and 0 at a position that
no slice fills (R118, R126, R513). -/
def RfInput.valueAt (x : RfInput) (t : Nat) (code : Int) : Int :=
  if x.lostAt.any (fun a => decide (a ≤ t)) && x.vacant (t % 32) then 0
  else if x.ovrAt t then (if code < 0 then -2048 else 2047)
  else max (-2048) (min code 2047)

/-- The sample at tick `t` is unsettled (R117, R123, R513). -/
def RfInput.looseAt (x : RfInput) (t : Nat) : Bool := hits x.looseSpans t (t + 1)

/-- The S16 word of a sample: the value in [15:4], OVR in [3] and zeros below (R7). -/
def s16Word (value : Int) (ovr : Bool) : Nat := 16 * unsign 12 value + 8 * bit ovr

/-- The sample at tick `t` as an element (R236). -/
def RfInput.element (x : RfInput) (t : Nat) (code : Int) : Element :=
  { stamp := { tick := t }, bytes := leBytes 2 (s16Word (x.valueAt t code) (x.ovrAt t)),
    ovr := x.ovrAt t, unsettled := x.looseAt t }

/-- The samples from tick `first` on, one for each code. -/
def RfInput.elements (x : RfInput) (first : Nat) (codes : List Int) : List Element :=
  (List.zip (span first codes.length) codes).map fun e => x.element e.1 e.2

/-! ## DDC outputs (R138 to R146) -/

/-- The first reference-plane tick of an output's span (R141). -/
def Ddc.spanFrom (x : Ddc) (n : Nat) : Nat := x.stampOf n - x.half

/-- The connector tick of the input sample with reference-plane tick `r` (R139). -/
def Ddc.connectorTick (x : Ddc) (r : Nat) : Nat := ((r : Int) - x.delayInt).toNat

/-- `v` rounded half to even to a multiple of 2^`w` (R138). -/
def dropBits (w : Nat) (v : Int × Int) : Int × Int := (roundEvenInt v.1 (2 ^ w) * 2 ^ w, roundEvenInt v.2 (2 ^ w) * 2 ^ w)

/-- The rounding of a stage of a DDC, in units of 2^−40 code: at most 2^−10 code (R138).
DESIGN CHOICE, log entry 111. -/
def roundStage (form k stage : Nat) (v : Int × Int) : Int × Int := dropBits (Config.stageDrop form k stage % 31) v

/-- 2^40 · 10^(−5.5): −110 dBFS, the bound on what the NCO's sine and cosine may be off by (R157). -/
def ncoBound : Int := 3476965

/-- A component's error within the bound of R157. -/
def ncoOff (v : Int) : Int := max (-ncoBound) (min v ncoBound)

/-- The NCO's exp(−j·φ) at a phase of 48 bits, in units of 2^−40 (R140, R157). DESIGN CHOICE, log entry 111. -/
def ncoAt (phase : Nat) : Int × Int :=
  let c := wave phase (2 ^ 48)
  let e := Config.ncoError phase
  (c.1 / 2 ^ 24 + ncoOff e.1, -(c.2 / 2 ^ 24) + ncoOff e.2)

/-- A sample mixed by exp(−j·φ), in units of 2^−40 code (R138, R140). -/
def mixed (form k phase : Nat) (code : Int) : Int × Int :=
  let c := ncoAt phase
  roundStage form k 0 (code * c.1, code * c.2)

/-- The test tone at a tick, in codes: −6 dBFS, which is 2,048 · 10^(−0.3), at the frequency word (R116, R151).
DESIGN CHOICE, log entry 111. -/
def toneSample (ddc freq tick : Nat) : Int :=
  let c := waveCos ((Config.tonePhase ddc).toNat + freq * tick) (2 ^ 48)
  c * 10264315 / (10000 * 2 ^ 64) + (if Config.toneUp freq tick then 1 else 0)

/-- Sum of values weighted by taps: `taps` gives the tap for a place from −`h` to `h`. -/
def weigh (h : Nat) (taps : Int → Int) (f : Int → Int × Int) : Int × Int :=
  (List.range (2 * h + 1)).foldl (fun v (i : Nat) =>
    let j : Int := (i : Int) - h
    (v.1 + taps j * (f j).1, v.2 + taps j * (f j).2)) (0, 0)

/-- Tap `j` of stage `stage`, which decimates by `r` = 2 or 3, in units of 2^−30 / `r`: symmetric, 1 / `r` in the middle
and zero at every other multiple of `r`, which makes a halfband or third-band filter; the tap beside the middle makes
the sum 1 (R138, R142). DESIGN CHOICE, log entry 111. -/
def stageTap (r form k stage : Nat) (j : Int) : Int :=
  let h := Config.tapReach form k stage
  let outer (i : Nat) : Int := if i % r = 0 then 0 else Config.tap form k stage i
  match j.natAbs with
  | 0 => 2 ^ 30
  | 1 => (r - 1) * 2 ^ 29 - (((span 2 (h - 1)).map outer).foldl (· + ·) 0)
  | i => if i ≤ h then outer i else 0

/-- Output `m` of such a stage over the stream `f`, with its rounding, in units of 2^−40 code (R138). -/
def filterStage (r form k stage : Nat) (f : Int → Int × Int) (m : Int) : Int × Int :=
  let h := max 1 (Config.tapReach form k stage)
  let v := weigh h (stageTap r form k stage) fun j => f (r * m + j)
  let w := Config.stageDrop form k (stage + 1) % 31
  let unit := 2 ^ 30 * r * 2 ^ w
  (roundEvenInt v.1 unit * 2 ^ w, roundEvenInt v.2 unit * 2 ^ w)

/-- The decimating cascade: a third-band stage for the 3 × 2^k ratios, then k halfband stages (R138, R141). -/
def cascade (form k : Nat) (f : Int → Int × Int) : Int → Int × Int :=
  (List.range k).foldl (fun g i => filterStage 2 form k (i + 1) g) (if form = 1 then filterStage 3 form k 0 f else f)

/-- The fractional-delay interpolator over the cascade's outputs, with its rounding: taps whose sum is 1, and the output
itself for a DELAY_FRAC of 0 (R138, R143). DESIGN CHOICE, log entry 111. -/
def interpolated (form k frac : Nat) (g : Int → Int × Int) : Int × Int :=
  if frac = 0 then g 0
  else
    let h := Config.interpolatorReach form k
    let side (j : Int) : Int := if j = 0 then 0 else Config.interpolatorTap form k frac j
    let middle := 2 ^ 30 - (((List.range (2 * h + 1)).map fun (i : Nat) => side ((i : Int) - h)).foldl (· + ·) 0)
    let v := weigh h (fun j => if j = 0 then middle else side j) g
    let w := Config.stageDrop form k (k + 2) % 31
    (roundEvenInt v.1 (2 ^ 30 * 2 ^ w) * 2 ^ w, roundEvenInt v.2 (2 ^ 30 * 2 ^ w) * 2 ^ w)

/-- Output `n` before its quantisation, in units of 2^−40 converter code: source select, integer delay, mixing, the
filter cascade and the fractional interpolator (R138, R140, R141, R143, R151). `codes` are the converter's codes of the
input samples in the output's span, in the order of the reference plane; a tap beyond the span finds 0. -/
def State.ddcWide (s : State) (d n : Nat) (codes : List Int) : Int × Int :=
  let x := (s.ddc d).settingsOf n
  if x.dead then (0, 0)
  else if x.inTransient n then Config.transient d (x.stampOf n)
  else if x.source = 2 then (0, 0)
  else
    let sample (o : Int) : Int × Int :=
      if o < -(x.half : Int) ∨ (x.half : Int) ≤ o then (0, 0)
      else
        let r := ((x.stampOf n : Int) + o).toNat
        let c := x.connectorTick r
        mixed x.form x.k (x.accAt r) (if x.source = 1 then toneSample d x.tone c
          else (s.inputs.get (d / 8) {}).valueAt c (codes.getD (o + x.half).toNat 0))
    interpolated x.form x.k x.delayFrac (cascade x.form x.k sample)

/-- A component in a fixed format of `b` bits: scaled, rounded half to even and clamped to the symmetric limit, with
whether it was clamped (R138, R142). -/
def fixedComponent (b gain : Nat) (v : Int) : Int × Bool :=
  let r := roundEvenInt (v * 2 ^ (b - 1 + gain)) (2 ^ 51)
  let m : Int := 2 ^ (b - 1) - 1
  (max (-m) (min r m), decide (m < r.natAbs))

/-- The bytes of an output in the DDC's format, with whether a component was clamped (R7, R142). -/
def Ddc.quantise (x : Ddc) (v : Int × Int) : List Byte × Bool :=
  if x.format = 2 then (pack [(4, f32Signed v.1 (2 ^ 51)), (4, f32Signed v.2 (2 ^ 51))], false)
  else
    let b := if x.format = 0 then 16 else 24
    let i := fixedComponent b x.gain v.1
    let q := fixedComponent b x.gain v.2
    (pack [(b / 8, unsign b i.1), (b / 8, unsign b q.1)], i.2 || q.2)

/-- Output `n` as it leaves: its bytes, and whether it was clamped (R138, R142). -/
def State.ddcOutput (s : State) (d n : Nat) (codes : List Int) : List Byte × Bool :=
  ((s.ddc d).settingsOf n).quantise (s.ddcWide d n codes)

/-- Output `i` of a DDC with its marks (R139, R144 to R146). Before output 0 the feed has not started. -/
def State.ddcElement (s : State) (d : Nat) (i : Int) (codes : List Int) : Element :=
  let x := s.ddc d
  if i < 0 then
    { bytes := (x.quantise (Config.transient d ((x.origin : Int) + i * x.ratio))).1, unsettled := true }
  else
    let n := i.toNat
    let q := s.ddcOutput d n codes
    { stamp := { tick := x.stampOf n }, bytes := q.1,
      ovr := (q.2 && (x.settingsOf n).source == 0) || s.ddcSeen d n (n + 1) != 0, unsettled := s.ddcLoose d n }

/-- How many converter codes `count` outputs of a DDC in a row need (R141). -/
def Ddc.codesFor (x : Ddc) (count : Nat) : Nat :=
  if x.source = 0 then (count - 1) * x.ratio + 2 * x.half else 0

/-- `count` outputs of a DDC from index `first` on; `codes` begin with the sample that opens the first one's span. -/
def State.ddcElements (s : State) (d : Nat) (first : Int) (count : Nat) (codes : List Int) : List Element :=
  let x := s.ddc d
  (List.range count).map fun (k : Nat) => s.ddcElement d (first + (k : Int)) ((codes.drop (k * x.ratio)).take (2 * x.half))

/-- The 64 bytes of `DDC.GET_STATUS` (R155). -/
def State.ddcStatus (s : State) (d : Nat) : List Byte :=
  let x := s.ddc d
  let n := x.nextIndex s.now
  let seen := decide (0 < s.ddcSeen d (x.nextIndex (s.now - ticksPerUs)) n) ||
    (x.source == 0 && x.satAt.any fun t => decide (s.now ≤ t + ticksPerUs))
  pack [(1, d), (1, bit x.running),
    (1, bit (x.running && (x.unsettled || x.dead)) + 2 * bit (x.running && seen) + 4 * bit x.delayNext.isSome +
        8 * bit x.unit.isSome + 16 * bit (s.sparesLeft 2 (d / 8) == 0)),
    (1, x.format), (1, x.form), (1, x.k), (1, x.gain), (1, x.ncoMode), (8, x.freq), (4, x.phase),
    (2, unsign 16 x.delayInt), (1, x.delayFrac), (1, x.source), (8, if x.running then x.origin else 0),
    (8, if x.running then x.nextIndex s.now else 0), (8, if x.running then x.firstSettled else 0),
    (8, x.sat), (8, x.ovrSeen)]

/-- The outputs of a fixed format that have been produced and whose clamps have not been counted, by index, as far as
they were clamped (R142); `codes` begin with the sample that opens the first one's span. -/
def State.ddcClamped (s : State) (d : Nat) (codes : List Int) : List Nat :=
  let x := s.ddc d
  if !x.running || x.format == 2 then []
  else (span x.satUpTo (x.nextIndex s.now - x.satUpTo)).filter fun n =>
    (s.ddcOutput d n ((codes.drop ((n - x.satUpTo) * x.ratio)).take (2 * x.half))).2

/-- The clamped outputs up to now are counted: in SAT_SAMPLES, and in OVR_SEEN_COUNT where no OVR sample has brought them
there (R142, R145, R155). -/
def State.countClamped (s : State) (d : Nat) (codes : List Int) : State :=
  let x := s.ddc d
  let l := s.ddcClamped d codes
  let alone := l.filter fun n => (x.settingsOf n).source == 0 && s.ddcSeen d n (n + 1) == 0
  let last := l.getLast?.map fun n => x.stampOf n + x.half
  if x.running then
    s.setDdc d { x with sat := satAdd 64 x.sat l.length, ovrSeen := satAdd 64 x.ovrSeen alone.length,
                        satUpTo := max x.satUpTo (x.nextIndex s.now), satAt := last.or x.satAt }
  else s

/-- DDC.GET_STATUS (R155); `codes` are the converter's codes from the span of the first output on whose clamp has not been
counted, in the order of the reference plane. -/
def ddcGetStatus (codes : List Int) (c : Cmd) (s : State) : VerbOut :=
  let d := u8 c.payload 0
  if d > 31 ∨ !zeros c.payload 1 3 then .fail .badParam 0
  else if (s.ddc d).lent then .fail .noResource 0
  else
    let s' := (s.countSeen d).countClamped d codes
    .data (s'.ddcStatus d) 0 s'

/-- DDC_GET_STATUS: `DDC.GET_STATUS` (R155). -/
def execDdcGetStatus (t fn tag : Nat) (codes : List Int) (s : State) : Host.Outcome State Fault Refusal :=
  verb t 0x0405 fn tag (ddcGetStatus codes) s

/-! ## Pipelines (R166 to R173) -/

/-- Coefficients of the cosine windows in units of 10^−9, from the constant on (R167): Hann, four-term Blackman-Harris and
five-term flat-top. PRESUMED, log entry 140. -/
def cosineTerms (kind : Nat) : List Int :=
  match kind with
  | 1 => [500000000, -500000000]
  | 2 => [358750000, -488290000, 141280000, -11680000]
  | _ => [215578950, -416631580, 277263158, -83578947, 6947368]

/-- A coefficient in units of 2^−64 as 18-bit two's complement with 1.0 = 2^16, one of the two numbers that it lies
between (R167). DESIGN CHOICE, log entry 112. -/
def coefficient18 (v : Int) (up : Bool) : Int := max (-131072) (min (v / 2 ^ 48 + bit up) 131071)

/-- Coefficient `j` of a window generated for `points` points: KIND 1 to 4, with BETA_INDEX (R167).
DESIGN CHOICE, log entry 112. -/
def generatedWindow (kind beta points j : Nat) : Int :=
  let v : Int := if kind = 4 then kaiserAt (beta + 1) 1 (4 * j * (points - j)) (points * points)
    else (List.zip (List.range 5) (cosineTerms kind)).foldl (fun n e => n + e.2 * waveCos (e.1 * j) points / 10 ^ 9) 0
  coefficient18 v (Config.windowUp kind beta points j)

/-- Coefficient `j` of the default prototype of `points` channels and `taps` taps: a sinc whose −6 dB point is the edge of
a channel, under a Kaiser window with β = 9.0 (R173). DESIGN CHOICE, log entry 112. -/
def defaultPrototype (points taps j : Nat) : Int :=
  let l := points * taps - 1
  let v := sincAt ((2 * j : Int) - l).natAbs (2 * points) * kaiserAt 9 1 (4 * j * (l - j)) (l * l) / 2 ^ 64
  coefficient18 v (Config.prototypeUp points taps j)

/-- Coefficient `j` of the window of a job of `points` points, 1.0 = 2^16 (R167). -/
def WindowBank.coefficient (w : WindowBank) (points j : Nat) : Int :=
  if w.kind = 0 then 65536
  else if w.kind = 5 then w.table.getD (j * 2 ^ w.lengthLog2 / points) 0
  else generatedWindow w.kind w.beta points j

/-- The largest component magnitude of a frame. -/
def framePeak (f : List (Int × Int)) : Nat := f.foldl (fun m v => max m (max v.1.natAbs v.2.natAbs)) 0

/-- Bits of a magnitude. -/
def bitLength (n : Nat) : Nat := if n = 0 then 0 else Nat.log2 n + 1

/-- A component in the 18-bit mantissa. -/
def mantissa (v : Int) : Int := max (-131072) (min v 131071)

/-- Output `i` of a stage that splits transforms of `size` points by radix `radix`, before its rounding, in units of 2^−64:
of the block that holds it, the sum over the points one `radix`-th apart, each turned by exp(−j·2π·p·q / `size`) for its
place `p` and the part `q` of the bins that the output belongs to (R166). -/
def stageSum (size radix : Nat) (frame : List (Int × Int)) (i : Nat) : Int × Int :=
  let block := i / size * size
  let m := size / radix
  let q := i % size / m
  (List.range radix).foldl (fun v a =>
    let p := a * m + i % m
    let x := frame.getD (block + p) (0, 0)
    let c := wave (p * q) size
    (v.1 + x.1 * c.1 + x.2 * c.2, v.2 + x.2 * c.1 - x.1 * c.2)) (0, 0)

/-- One stage: the frame is shifted right by as many bits as the stage could grow beyond 18 bits, the shift is added to
its exponent, and every output is rounded half to even (R166, R169). Twiddle factors may put an output off by as many
units as the stage adds points. DESIGN CHOICE, log entry 112. -/
def pressStage (points stage size radix : Nat) (f : List (Int × Int) × Int) : List (Int × Int) × Int :=
  let k := bitLength (framePeak f.1) + Config.stageGrowth points stage - 17
  let shifted := f.1.map fun v => (roundEvenInt v.1 (2 ^ k), roundEvenInt v.2 (2 ^ k))
  let bound : Int := (radix : Int) * 2 ^ 16
  let off (v : Int) : Int := max (-bound) (min v bound)
  ((List.range f.1.length).map fun i =>
    let v := stageSum size radix shifted i
    let e := Config.stageError points stage shifted i
    (mantissa (roundEvenInt (v.1 + off e.1 * 2 ^ 48) (2 ^ 64)), mantissa (roundEvenInt (v.2 + off e.2 * 2 ^ 48) (2 ^ 64))),
    f.2 + k)

/-- The log2 of the radices of a transform of `points` points, stage after stage, of which `left` bits are left (R166).
DESIGN CHOICE, log entry 112. -/
def stageRadices (points : Nat) : Nat → Nat → Nat → List Nat
  | 0, _, _ => []
  | fuel + 1, stage, left =>
    if left = 0 then []
    else
      let r := Config.stageRadix points stage % left + 1
      r :: stageRadices points fuel (stage + 1) (left - r)

/-- The stages of a transform, with the log2 of what each splits. -/
def runStages (points : Nat) : List Nat → Nat → Nat → List (Int × Int) × Int → List (Int × Int) × Int
  | [], _, _, f => f
  | r :: rs, stage, left, f => runStages points rs (stage + 1) (left - r) (pressStage points stage (2 ^ left) (2 ^ r) f)

/-- Where the stages leave bin `k` of a transform of 2^`left` points. -/
def binPlace : List Nat → Nat → Nat → Nat
  | [], _, _ => 0
  | r :: rs, left, k => k % 2 ^ r * 2 ^ (left - r) + binPlace rs (left - r) (k / 2 ^ r)

/-- The transform of a frame of `points` = 2^n points, stage after stage, with the exponent it has gathered: bin k is the
sum of the points x(p) · exp(−j·2π·k·p / N), so that it stands for the frequency k × fs / N (R166, R169, R171). -/
def pressTransform (points : Nat) (frame : List (Int × Int)) : List (Int × Int) × Int :=
  let n := Nat.log2 points
  let rs := stageRadices points n 0 n
  let f := runStages points rs 0 n (frame, 0)
  ((List.range points).map fun k => f.1.getD (binPlace rs n k) (0, 0), f.2)

/-- A list made `n` long: cut, or filled with zeros. -/
def padTo (n : Nat) (l : List (Int × Int)) : List (Int × Int) :=
  l.take n ++ List.replicate (n - l.length) (0, 0)

/-- The spectrum of a frame: components over a common denominator, on the CF32 scale (R168). The frame's values are in
units of 2^`e`, weighted by coefficients with 1.0 = 2^16 whose sum is `sum`. -/
def frameSpectrum (points : Nat) (e sum : Int) (frame : List (Int × Int)) : List (Int × Int) × Nat :=
  if sum = 0 then ((List.range points).map fun k => Config.zeroSum frame k, 2 ^ 48)
  else
    let t := pressTransform points (padTo points frame)
    let q := scaled 1 (t.2 + e) sum.natAbs
    let m : Int := if sum < 0 then -(q.1 : Int) else q.1
    (t.1.map fun v => (v.1 * m, v.2 * m), q.2)

/-- The bins of a real source from N/2 on mirror those below (R171). -/
def mirrorBins (points : Nat) (bins : List (Int × Int)) : List (Int × Int) :=
  let low := bins.take (points / 2 + 1)
  low ++ ((low.drop 1).take (points / 2 - 1)).reverse.map fun v => (v.1, -v.2)

/-- Bins in the order of delivery: BIN_ORDER 1 puts bin (m + N/2) mod N at index m (R171). -/
def orderBins (points order : Nat) (bins : List (Int × Int)) : List (Int × Int) :=
  if order = 1 then bins.drop (points / 2) ++ bins.take (points / 2) else bins

/-- Sums of every `points`-th product of a channeliser's taps: the input of its transform (R173).
DESIGN CHOICE, log entry 112. -/
def foldTaps (points : Nat) : Nat → List (Int × Int) → List (Int × Int)
  | 0, _ => List.replicate points (0, 0)
  | t + 1, l => (List.zip (l.take points) (foldTaps points t (l.drop points))).map fun e =>
      (e.1.1 + e.2.1, e.1.2 + e.2.2)

/-- The block exponent of a spectrum (R169): the smallest from −32 to 31 under which every component keeps within
±32,767. -/
def spectrumExponent (d : Nat) (bins : List (Int × Int)) : Int :=
  blockExponent d (bins.flatMap fun v => [v.1, v.2]) 63 (-32)

/-- A bin in FORMAT 0 F32, 1 CF32, 2 CS16 under exponent `e`, 3 L16 (R170). -/
def binBytes (format d : Nat) (e : Int) (v : Int × Int) : List Byte :=
  let square := v.1.natAbs ^ 2 + v.2.natAbs ^ 2
  match format with
  | 0 => leBytes 4 (f32 square (d ^ 2))
  | 1 => pack [(4, f32Signed v.1 d), (4, f32Signed v.2 d)]
  | 2 => pack [(2, toCs16At d e v.1), (2, toCs16At d e v.2)]
  | _ => leBytes 2 (unsign 16 (level square 0 (d ^ 2)))

/-- P of each value that a frame of a job in `format` delivers (R186). -/
def PressFrame.powers (x : PressFrame) (format : Nat) : List Nat :=
  let w := if format = 1 then 8 else if format = 3 then 2 else 4
  (records (x.values.length / w) w x.values).map (binPower format x.tag.exponent)

end Sys2Proof.Machine
end

