-- ==== Sys2Proof/Machine/Press.lean ====
section
/-! DEFINITION. The transform engine and the PRESS family (R158 to R184). -/

namespace Sys2Proof.Machine

/-- Replaces a job. -/
def State.setJob (s : State) (j : Nat) (x : PressJob) : State :=
  { s with press := { s.press with jobs := s.press.jobs.set j x } }

/-- Job `j`. -/
def State.job (s : State) (j : Nat) : PressJob := s.press.jobs.get j {}

/-- Units in which rates are whole numbers: 1 / (9 × 65,536) sample per second (R141, R161). -/
def rateUnit : Nat := 9 * 65536

/-- One pipeline's rate, 51.2 GS/s, in `rateUnit`s (R158). -/
def pipeRate : Nat := 51200000000 * rateUnit

/-- Source sample period in ticks (R163). -/
def State.pressTs (s : State) (x : PressJob) : Nat := if x.srcKind = 0 then 1 else (s.ddc x.source).ratio

/-- Transform input rate R in `rateUnit`s (R161). -/
def State.pressRate (s : State) (x : PressJob) : Nat :=
  let fs := 25600000000 * rateUnit / s.pressTs x
  if x.kind = 0 then fs * 2 ^ x.overlap
  else if x.overlap = 0 then fs else if x.overlap = 1 then fs * 4 / 3 else fs * 2

/-- Points N, or channels M. -/
def PressJob.points (x : PressJob) : Nat := 2 ^ x.size

/-- Taps per branch (R173, R179). -/
def PressJob.tapCount (x : PressJob) : Nat := 4 * (x.taps + 1)

/-- Hop h in samples (R163). -/
def PressJob.hop (x : PressJob) : Nat :=
  if x.kind = 0 then x.points / 2 ^ x.overlap
  else if x.overlap = 0 then x.points else if x.overlap = 1 then x.points * 3 / 4 else x.points / 2

/-- Bins or channels delivered per frame (R171). -/
def PressJob.bins (x : PressJob) : Nat := if x.half = 1 then x.points / 2 + 1 else x.points

/-- Bytes per delivered value (R7, R170). -/
def PressJob.valueBytes (x : PressJob) : Nat :=
  if x.format = 1 then 8 else if x.format = 3 then 2 else 4

/-- Coefficients of a job's prototype (R173). -/
def PressJob.coefficients (x : PressJob) : Nat := if x.kind = 1 then x.points * x.tapCount else 0

/-- Pipelines that may carry jobs: in service and not the spare (R158). -/
def State.activePipes (s : State) : List Nat :=
  (List.range 9).filter fun u =>
    !s.isRetired ⟨3, 0, u⟩ && s.press.spare != some u

/-- Jobs other than `j` on pipeline `u`. -/
def State.jobsOn (s : State) (j u : Nat) : List PressJob :=
  (s.press.jobs.filter fun e => e.1 != j && e.2.pipes.contains u).map Prod.snd

/-- Where a job is placed (R160), lowest-numbered pipelines first. DESIGN CHOICE, log entry 31. -/
def State.placeJob (s : State) (j : Nat) (x : PressJob) : Option (List Nat) :=
  let r := s.pressRate x
  if r ≤ pipeRate then
    (s.activePipes.find? fun u =>
      let on := s.jobsOn j u
      decide (on.length < 8) && (on.all fun y => decide (s.pressRate y ≤ pipeRate)) &&
        decide (on.foldl (fun n y => n + s.pressRate y) r ≤ pipeRate)).map fun u => [u]
  else
    let n := (r + pipeRate - 1) / pipeRate
    let free := s.activePipes.filter fun u => (s.jobsOn j u).isEmpty
    if n ≤ free.length then some (free.take n) else none

/-- Mask of pipelines. -/
def pipeMask (l : List Nat) : Nat := l.foldl (fun m u => m ||| 2 ^ u) 0

/-- The RESULT word of `PRESS.CONFIGURE` (R179). -/
def State.jobWord (s : State) (j : Nat) : Nat := j + 2 ^ 8 * pipeMask (s.job j).pipes

/-- The window that frame `k` of a job takes (R167, R178). -/
def PressJob.windowAt (x : PressJob) (k : Nat) : WindowFrom := (x.windows.find? fun w => decide (w.frame ≤ k)).getD {}

/-- The window that is live for an input, as a job takes it from frame `k` on. -/
def State.liveWindow (s : State) (input bank k : Nat) : WindowFrom :=
  { frame := k, bank, window := s.press.banks.get (input * 2 + bank) {} }

/-- The live bank of a job; 0 for a PFB job (R179). -/
def State.jobBank (s : State) (x : PressJob) : Nat :=
  if x.kind ≠ 0 then 0 else (x.windows.head?.map WindowFrom.bank).getD (s.press.select.get x.input 0)

/-- The 32 bytes of `PRESS.CONFIGURE` (R179). -/
def State.jobStatus (s : State) (j : Nat) : List Byte :=
  let x := s.job j
  let on := x.mode == .running || x.mode == .quiescing
  pack [(1, j), (1, match x.mode with | .running => 1 | .quiescing => 2 | _ => 0), (2, pipeMask x.pipes),
    (1, s.press.spare.getD 0xFF), (1, s.jobBank x),
    (2, s.pressRate x / (100000000 * rateUnit)), (8, if on then x.origin else 0), (8, x.frame),
    (4, x.ovrFrames), (4, x.unsettledFrames)]

/-- User tables of an input that are shorter than `n` points (R167, R179). -/
def State.tableShort (s : State) (input n : Nat) : Bool :=
  [0, 1].any fun b =>
    let w := s.press.banks.get (input * 2 + b) {}
    w.kind == 5 && decide (2 ^ w.lengthLog2 < n)

/-- Replaces pipeline `u` by `v` in every job. -/
def State.movePipe (s : State) (u v : Nat) : State :=
  let jobs := s.press.jobs.mapVals fun _ (x : PressJob) =>
    { x with pipes := x.pipes.map fun w => if w = u then v else w }
  { s with press := { s.press with jobs } }

/-- At most `n` failed pipelines with nothing to cover them are replaced: all work of each moves to the first pipeline
that carries no job (R520). -/
def State.movePipes : Nat → State → State
  | 0, s => s
  | n + 1, s =>
    match s.press.jobs.findSome? fun e => e.2.deadPipes.head?, s.activePipes.filter fun v => (s.jobsOn 32 v).isEmpty with
    | some u, v :: _ =>
      let s1 := s.movePipe u v
      let jobs := s1.press.jobs.mapVals fun _ (x : PressJob) => { x with deadPipes := x.deadPipes.filter (· != u) }
      State.movePipes n { s1 with press := { s1.press with jobs } }
    | _, _ => s

/-- Pipelines have become idle: as many failed ones as they can carry move their work to them (R520). -/
def State.pipeFreed (s : State) : State := s.movePipes 9

/-- PRESS.CONFIGURE (R179). -/
def pressConfigure (c : Cmd) (s : State) : VerbOut :=
  let p := c.payload
  let q := u8 p 1 == 1
  let asked := u8 p 0
  let j := if asked = 0xFF then
      (lowestFree (fun n => s.press.jobs.has n || s.namedEarlier c (.pressJob n)) 32 0).getD 32
    else asked
  let pfb := u8 p 2 == 1
  let x : PressJob := {
    kind := u8 p 2, srcKind := u8 p 3, source := u8 p 4, size := u8 p 5,
    overlap := u8 p 6, taps := u8 p 7, format := u8 p 8, order := u8 p 9, half := u8 p 10 }
  let real := x.srcKind = 0
  if (asked > 31 ∧ asked ≠ 0xFF) ∨ u8 p 1 > 1 ∨ x.kind > 1 ∨ x.srcKind > 1 ∨ (if x.srcKind = 0 then x.source > 3 else x.source > 31) ∨
      (if pfb then x.size < 6 ∨ x.size > 16 else x.size < 8 ∨ x.size > 16) ∨
      (if pfb then x.overlap > 2 else x.overlap > 3) ∨ (if pfb then x.taps > 3 else x.taps ≠ 0) ∨
      x.format > 3 ∨ x.order > 1 ∨ x.half > 1 ∨ (real ∧ x.order = 1) ∨ (!real ∧ x.half = 1) ∨
      !zeros p 11 5 then .fail .badParam 0
  else if q then
    if asked = 0xFF then .fail .badParam 0
    else if !s.press.jobs.has j then .fail .badState 0
    else .dataIfAsked (s.jobStatus j) (s.jobWord j) s
  else if j ≥ 32 then .fail .noResource 0
  else if s.press.jobs.has j ∧ (s.job j).mode ≠ .configured then .fail .badState 0
  else if !pfb ∧ s.tableShort x.input x.points then .fail .badState 0
  else
    let old := s.job j
    let keep := s.press.jobs.has j && old.kind == x.kind && old.size == x.size
    let total := s.press.jobs.foldl (fun n e => if e.1 = j then n else n + e.2.coefficients) x.coefficients
    if total > 4194304 then .fail .noResource 0
    else
      match s.placeJob j x with
      | none => .fail .noResource 0
      | some pipes =>
        let s' := (s.setJob j { x with pipes, map := if keep then old.map else [],
                                       proto := if keep then old.proto else none }).pipeFreed
        .dataIfAsked (s'.jobStatus j) (s'.jobWord j) s'

/-- PRESS_CONFIGURE: `PRESS.CONFIGURE` (R179). -/
def execPressConfigure (t fn tag : Nat) (s : State) : Host.Outcome State Fault Refusal :=
  verb t 0x0501 fn tag pressConfigure s

/-- The 32-bit words of a table of `n` entries, from what the host memory system returns or from Cellar. -/
def State.tableWords (s : State) (cellar : Bool) (addr n : Nat) (host : List Byte) : List Nat :=
  (records n 4 (if cellar then s.cellarMem.readBytes addr (4 * n) else host)).map leNat

/-- Coherent gain and ENBW of a window as binary32 words: [31:0] and [63:32] (R167, R180). -/
def windowResult (w : WindowBank) : Nat :=
  let pair (a b : Nat) : Nat := a + 2 ^ 32 * b
  match w.kind with
  | 0 => pair (f32 1 1) (f32 1 1)
  | 1 => pair (f32 1 2) (f32 3 2)
  | 2 => pair (f32 359 1000) (f32 2 1)
  | 3 => pair (f32 216 1000) (f32 377 100)
  | 4 => pair (Config.kaiser w.beta).1.toNat (Config.kaiser w.beta).2.toNat
  | _ =>
    let sum := w.table.foldl (· + ·) 0
    let sq := w.table.foldl (fun n v => n + v * v) 0
    let l := w.table.length
    pair ((if sum < 0 then 2 ^ 31 else 0) + f32 sum.natAbs (65536 * l)) (f32 (l * sq.natAbs) (sum.natAbs ^ 2))

/-- PRESS.LOAD_WINDOW (R180); `host` is what the host memory system returns for the table. -/
def pressLoadWindow (host : List Byte) (c : Cmd) (s : State) : VerbOut :=
  let p := c.payload
  let i := u8 p 0
  let user := u8 p 2 == 5
  let n := 2 ^ u8 p 5
  let cellar := u8 p 4 == 1
  let addr := u64 p 8
  if i > 3 ∨ u8 p 1 > 1 ∨ u8 p 2 > 5 ∨ (u8 p 2 = 4 ∧ u8 p 3 > 15) ∨
      (user ∧ (u8 p 4 > 1 ∨ u8 p 5 < 8 ∨ u8 p 5 > 16 ∨ (if cellar then !s.inRegion addr (4 * n) else addr % 8 ≠ 0))) ∨
      !zeros p 6 2 ∨ !zeros p 16 16 then .fail .badParam 0
  else
    let jobs := s.press.jobs.filter fun e => e.2.kind == 0 && e.2.input == i
    let live := jobs.any fun e => e.2.mode != .configured && (s.press.select.get i 0 == u8 p 1 || s.jobBank e.2 == u8 p 1)
    if live ∨ (user ∧ jobs.any fun e => decide (n < e.2.points)) then .fail .badState 0
    else
      let words := if user then s.tableWords cellar addr n host else []
      let s := if user then s.hostLoad c addr (4 * n) cellar else s
      match words.findIdx? fun w => !f32Below2 w with
      | some k => .done .badParam k s
      | none =>
        let w : WindowBank := { kind := u8 p 2, beta := if u8 p 2 = 4 then u8 p 3 else 0,
                                lengthLog2 := if user then u8 p 5 else 0, table := words.map f32Coefficient }
        .done .ok (windowResult w)
          { s with press := { s.press with banks := s.press.banks.set (i * 2 + u8 p 1) w } }

/-- PRESS_LOAD_WINDOW: `PRESS.LOAD_WINDOW` (R180). -/
def execPressLoadWindow (t fn tag : Nat) (table : List Byte) (s : State) : Host.Outcome State Fault Refusal :=
  verb t 0x0502 fn tag (pressLoadWindow table) s

/-- PRESS.LOAD_PFB (R181). -/
def pressLoadPfb (host : List Byte) (c : Cmd) (s : State) : VerbOut :=
  let p := c.payload
  let j := u8 p 0
  let x := s.job j
  let loc := u8 p 1
  let n := u32 p 4
  let addr := u64 p 8
  if j > 31 ∨ loc > 2 ∨ !zeros p 2 2 ∨ !zeros p 16 8 then .fail .badParam 0
  else if !s.press.jobs.has j ∨ x.kind ≠ 1 ∨ x.mode ≠ .configured then .fail .badState 0
  else if loc = 2 then .done .ok 0 (s.setJob j { x with proto := none })
  else if n ≠ x.coefficients ∨ (if loc = 1 then !s.inRegion addr (4 * n) else addr % 8 ≠ 0) then .fail .badParam 0
  else
    let words := s.tableWords (loc == 1) addr n host
    let s := s.hostLoad c addr (4 * n) (loc == 1)
    match words.findIdx? fun w => !f32Below2 w with
    | some k => .done .badParam k s
    | none => .done .ok 0 (s.setJob j { x with proto := some words })

/-- PRESS_LOAD_PFB: `PRESS.LOAD_PFB` (R181). -/
def execPressLoadPfb (t fn tag : Nat) (table : List Byte) (s : State) : Host.Outcome State Fault Refusal :=
  verb t 0x0503 fn tag (pressLoadPfb table) s

/-- PRESS.MAP_CHANNELS (R174, R182). -/
def pressMapChannels (c : Cmd) (s : State) : VerbOut :=
  let p := c.payload
  let j := u8 p 0
  let x := s.job j
  let n := u16 p 2
  let first := u32 p 4
  let entries := (records n 4 (p.drop 16)).map leNat
  let used := entries.filter fun e => e.testBit 16
  if p.length ≠ 16 + 4 * n then .fail .badLength 0
  else if j > 31 ∨ !zeros p 1 1 ∨ n = 0 ∨ n > 1020 ∨ first > 65535 ∨ !zeros p 8 8 ∨
      entries.any (fun e => decide (2 ^ 17 ≤ e)) then .fail .badParam 0
  else if !s.press.jobs.has j ∨ x.mode ≠ .configured then .fail .badState 0
  else if first + n > x.bins ∨ used.any (fun e => decide (49151 < e % 65536) || !s.flowExists (e % 65536)) then
    .fail .badParam 0
  else if used.any fun e => s.flowTaken (e % 65536) j then .fail .badState 0
  else
    let map := (List.zip (span first n) entries).foldl (fun m e =>
      if e.2.testBit 16 then KMap.set m e.1 (e.2 % 65536) else KMap.del m e.1) x.map
    let total := s.press.jobs.foldl (fun k e => if e.1 = j then k else k + e.2.map.length) map.length
    if total > 262144 then .fail .noResource 0 else .done .ok 0 (s.setJob j { x with map })

/-- PRESS_MAP_CHANNELS: `PRESS.MAP_CHANNELS` (R182). -/
def execPressMapChannels (t fn tag : Nat) (s : State) : Host.Outcome State Fault Refusal :=
  verb t 0x0504 fn tag pressMapChannels s

/-- What a job declares (R177), µW. -/
def State.pressDecl (s : State) (j : Nat) : Decl :=
  let x := s.job j
  let r := s.pressRate x
  let w := if r ≤ pipeRate then (8500000 * r + pipeRate - 1) / pipeRate else 8500000 * x.pipes.length
  { fam := 5, obj := j, group := j, first := w, each := w }

/-- Bytes per second that a job's frames bring to a flow mapped to `n` bins. -/
def State.mapRate (s : State) (x : PressJob) (n : Nat) : Nat :=
  let per := x.hop * s.pressTs x
  (n * x.valueBytes * ticksPerSecond + per - 1) / per

/-- PRESS.ENABLE (R163, R183). -/
def pressEnable (c : Cmd) (s : State) : VerbOut :=
  let p := c.payload
  let j := u8 p 0
  let x := s.job j
  let w : Sched := { mode := u8 p 1, at_ := u64 p 8 }
  let ddc := s.ddc x.source
  let srcOn := if x.srcKind = 0 then (s.inputs.get x.source {}).mode == .running else ddc.running
  let per := x.hop * s.pressTs x
  let e := s.now + 10 * ticksPerUs
  let base := if x.srcKind = 1 ∧ ddc.origin % ddc.ratio ≠ 0 then ddc.origin else 0
  let g := if w.mode = 0 then some (base + (e - base + per - 1) / per * per) else s.startTick w
  let flows := (x.map.map Prod.snd).eraseDups
  if j > 31 ∨ u8 p 1 > 2 ∨ !zeros p 2 6 then .fail .badParam 0
  else if !s.press.jobs.has j then .fail .badState 0
  else if x.mode = .running then .done .ok x.origin s
  else if x.mode = .quiescing then .wait
  else if !srcOn then .fail .badState 0
  else if s.tooSoon w then .fail .badParam 0
  else
    match g with
    | none => .fail .badState 0
    | some g =>
      if x.srcKind = 1 ∧ (g < ddc.origin ∨ (g - ddc.origin) % ddc.ratio ≠ 0) then .fail .badParam 0
      else
        match s.declare [s.pressDecl j] with
        | .error short => .fail .noEnergy short
        | .ok s1 =>
          if flows.any fun f => !s.flowCarries f (s.mapRate x (x.map.filter fun e => e.2 == f).length) then
            .fail .noAllotment 0
          else .running 0 [] (s1.setJob j { x with mode := .starting, origin := g, frame := 0, ovrFrames := 0,
                                                   unsettledFrames := 0, tag := {}, queue := [], stopAt := none,
                                                   windows := if x.kind = 0 then [s.liveWindow x.input (s.press.select.get x.input 0) 0] else [] })

/-- PRESS_ENABLE: `PRESS.ENABLE` (R183). -/
def execPressEnable (t fn tag : Nat) (s : State) : Host.Outcome State Fault Refusal :=
  verb t 0x0505 fn tag pressEnable s

/-- The 32 bytes of a frame tag (R237). -/
def FrameTag.bytes (g : FrameTag) (prov : Bool) : List Byte :=
  pack [(1, g.job), (1, bit g.ovr + 2 * bit g.unsettled + 4 * g.bank + 8 * bit prov), (1, unsign 8 g.exponent), (1, 0),
    (4, g.bins), (8, g.index), (16, g.tick % 2 ^ 64 * 65536)]

/-- Each mapped flow of a job takes the frame tag and the values of its bins or channels, in ascending order
(R174); `values` are the delivered values of the frame. -/
def State.pressFlows (s : State) (x : PressJob) (tag : FrameTag) (values : List Byte) : State :=
  (x.map.map Prod.snd).eraseDups.foldl (fun s f =>
    let mine := x.map.filter fun e => e.2 == f
    let v := mine.flatMap fun e => (values.drop (e.1 * x.valueBytes)).take x.valueBytes
    s.handToFlow f {
      format := 4, bytes := { tag with bins := mine.length }.bytes (s.provisionalAt tag.tick) ++ v, stamp := { tick := tag.tick },
      exponent := unsign 8 tag.exponent, flags := bit tag.unsettled + 2 * bit tag.ovr + 4 * bit (s.provisionalAt tag.tick) }) s

/-! ## Frames (R163 to R171, R176) -/

/-- The first source sample that frame `k` takes, counted from G (R163). -/
def PressJob.frameFrom (x : PressJob) (k : Nat) : Int :=
  (k * x.hop : Nat) - (if x.kind = 0 then 0 else ((x.tapCount - 1) * x.points : Nat) : Int)

/-- How many source samples a frame takes (R163). -/
def PressJob.frameLength (x : PressJob) : Nat := if x.kind = 0 then x.points else x.points * x.tapCount

/-- Ticks between frames. -/
def State.framePeriod (s : State) (x : PressJob) : Nat := x.hop * s.pressTs x

/-- Index of the output of the source DDC at G. -/
def State.ddcBase (s : State) (x : PressJob) : Nat := (x.origin - (s.ddc x.source).origin) / (s.ddc x.source).ratio

/-- Every sample that frame `k` takes is there by now (R163). -/
def State.frameThere (s : State) (x : PressJob) (k : Nat) : Bool :=
  let stop := k * x.hop + x.points
  if x.srcKind = 0 then decide (x.origin + stop ≤ s.now)
  else (s.ddc x.source).produced (s.ddcBase x + stop - 1) s.now

/-- How many converter codes frame `k` needs. -/
def State.frameCodes (s : State) (x : PressJob) : Nat :=
  if x.srcKind = 0 then x.frameLength else (s.ddc x.source).codesFor x.frameLength

/-- The source samples of frame `k` (R163); `codes` are the converter's from the first sample that they depend on. -/
def State.frameElements (s : State) (x : PressJob) (k : Nat) (codes : List Int) : List Element :=
  if x.srcKind = 0 then
    (s.inputs.get x.source {}).elements ((x.origin : Int) + x.frameFrom k).toNat (codes.take x.frameLength)
  else s.ddcElements x.source (s.ddcBase x + x.frameFrom k) x.frameLength codes

/-- The value of a source sample as a transform takes it, in units of 2^(`State.pressUnit`) (R168). -/
def State.pressValue (s : State) (x : PressJob) (b : List Byte) : Int × Int :=
  if x.srcKind = 0 then (sampleCode (u16 b 0), 0)
  else
    match (s.ddc x.source).format with
    | 0 => (s16 b 0, s16 b 2)
    | 1 => (signed 24 (field b 0 3), signed 24 (field b 3 3))
    | _ => (f32Units (u32 b 0), f32Units (u32 b 4))

/-- The exponent of the unit of the values of frame `k` on the CF32 scale (R142, R168). -/
def State.pressUnit (s : State) (x : PressJob) (k : Nat) : Int :=
  let d := (s.ddc x.source).settingsOf ((s.ddcBase x : Int) + x.frameFrom k + x.frameLength - 1).toNat
  if x.srcKind = 0 then -11
  else if d.format = 0 then -(15 + d.gain : Nat)
  else if d.format = 1 then -(23 + d.gain : Nat)
  else -149

/-- The coefficients of frame `k`: its window, or the prototype of a channeliser (R167, R173). -/
def PressJob.weights (x : PressJob) (k : Nat) : List Int :=
  if x.kind = 0 then (List.range x.points).map ((x.windowAt k).window.coefficient x.points)
  else
    match x.proto with
    | some words => words.map f32Coefficient
    | none => (List.range x.coefficients).map (defaultPrototype x.points x.tapCount)

/-- The spectrum of frame `k` from its samples, in the order of delivery, over a common denominator (R166 to R173). -/
def State.frameBins (s : State) (x : PressJob) (k : Nat) (els : List Element) : List (Int × Int) × Nat :=
  let w := x.weights k
  let v := (List.zip w els).map fun e =>
    let a := s.pressValue x e.2.bytes
    (e.1 * a.1, e.1 * a.2)
  let frame := if x.kind = 0 then v else foldTaps x.points x.tapCount v
  let r := frameSpectrum x.points (s.pressUnit x k) (w.foldl (· + ·) 0) frame
  let bins := if x.srcKind = 0 then mirrorBins x.points r.1 else r.1
  ((orderBins x.points x.order bins).take x.bins, r.2)

/-- The pipeline of frame `k` has failed with nothing to cover it (R513). -/
def PressJob.deadAt (x : PressJob) (k : Nat) : Bool :=
  x.deadPipes.any fun u => x.pipes[k % x.pipes.length]? == some u

/-- Frame `k` of job `j` as it is released, with its tag (R163 to R171, R513). -/
def State.makeFrame (s : State) (j k : Nat) (codes : List Int) : PressFrame :=
  let x := s.job j
  let els := s.frameElements x k codes
  let dead := x.deadAt k
  let r := if dead then (List.replicate x.bins (0, 0), 1) else s.frameBins x k els
  let e := spectrumExponent r.2 r.1
  let early := x.kind == 1 && decide (k * x.hop < (x.tapCount - 1) * x.points)
  { tag := {
      job := j, index := k, tick := x.origin + k * s.framePeriod x, exponent := e,
      ovr := els.any Element.ovr, unsettled := dead || early || els.any Element.unsettled,
      bank := if x.kind = 0 then (x.windowAt k).bank else 0, bins := x.bins }
    values := r.1.flatMap (binBytes x.format r.2 e) }

/-- A released frame reaches the consumers that name its job (R14, R164, R174): trace units and planes, trigger units,
kernels and contexts. -/
def State.offerFrame (s : State) (f : PressFrame) : State :=
  let j := f.tag.job
  let spec := (s.spec.traces.any fun e => e.2.enabled && e.2.job == j) || (s.spec.planes.any fun e => e.2.enabled && e.2.job == j)
  let s1 := if spec then s.setJob j { s.job j with queue := (s.job j).queue ++ [f] } else s
  let units := s1.trig.units.mapVals fun _ (u : TrigUnit) =>
    if (u.kind = 6 ∨ u.kind = 7) ∧ u.source = j ∧ (u.mode = .armed ∨ u.mode = .holdoff) then { u with frames := u.frames ++ [f] } else u
  let cores := s1.cores.mapVals fun _ (c : Core) =>
    if c.mode = .running ∨ c.mode = .quiescing then
      { c with ports := c.ports.mapVals fun _ (q : InPort) =>
          if q.kind = 2 ∧ q.source = j then { q with frames := q.frames ++ [f] } else q }
    else c
  ({ s1 with trig := { s1.trig with units }, cores } : State).offerElement 2 j {
    stamp := { tick := f.tag.tick }, bytes := f.tag.bytes (s.provisionalAt f.tag.tick) ++ f.values, ovr := f.tag.ovr,
    unsettled := f.tag.unsettled }

/-! ## Pipelines -/

/-- Domain PD_PRESS_u is on: the pipeline carries an enabled job, or is the spare while any job is enabled (R177). -/
def State.pdPress (s : State) (u : Nat) : Bool :=
  let on := s.press.jobs.filter fun e => e.2.mode != .configured
  (on.any fun e => e.2.pipes.contains u) || (s.press.spare == some u && !on.isEmpty)

/-- A pipeline fails (R176, R520, R522). -/
def State.pipeFail (s : State) (u : Nat) (inj : Bool) : State :=
  let unit : Unit3 := ⟨3, 0, u⟩
  if u > 8 || s.isRetired unit then s
  else if s.press.spare = some u then
    { s with press := { s.press with spare := none } }.faultIn unit { injected := inj }
  else
    let job := (s.press.jobs.find? fun e => e.2.pipes.contains u).map Prod.fst
    let i : FaultInfo := { logical := job.getD 0xFFFF, injected := inj }
    match s.press.spare, s.sparesLeft 3 0 with
    | some v, _ + 1 =>
      { (s.movePipe u v) with press := { (s.movePipe u v).press with spare := none } }.faultMasked unit
        { i with takenBy := v }
    | _, _ =>
      match s.activePipes.find? fun v => v != u && (s.jobsOn 32 v).isEmpty with
      | some v =>
        let s1 := s.movePipe u v
        let ft := { s1.ft with borrowed := s1.ft.borrowed ++ [(⟨3, 0, v⟩ : Unit3)] }
        { s1 with ft }.faultMasked unit { i with takenBy := v, borrowed := true }
      | none =>
        let jobs := s.press.jobs.mapVals fun _ x =>
          if x.pipes.contains u then { x with deadPipes := x.deadPipes ++ [u] } else x
        { s with press := { s.press with jobs } }.faultUnmasked unit i

/-- PRESS_PIPELINE_FAULT (R176). -/
def execPressPipelineFault (t unit : Nat) (s : State) : Host.Outcome State Fault Refusal :=
  happens t (fun s => s.pipeFail unit false) s

/-- A job is quiesced (R177); with `free` its number, pipelines, map and prototype are free (R184). -/
def State.jobQuiesce (s : State) (j : Nat) (free : Bool) : State :=
  let s1 := s.undeclare 5 j
  if free then { s1 with press := { s1.press with jobs := s1.press.jobs.del j } }.pipeFreed
  else s1.setJob j { s1.job j with mode := .configured, stopAt := none, windows := [] }

/-- A job that was stopping has released its last frame: it is quiesced, and the disables that wait for it complete
(R73, R177, R184). -/
def State.jobRest (s : State) (j : Nat) : State :=
  let cs := s.startedCmds 0x0506 fun c => u8 c.payload 0 == j
  ((s.jobQuiesce j (cs.any fun c => u8 c.payload 1 == 1)).finishAll cs .quiesced fun _ => 0).restDone (resetKey 5 j) 0

/-- Frames of a job that have started by now: their first sample has been taken (R73, R163). -/
def State.framesStarted (s : State) (x : PressJob) : Nat :=
  if s.now < x.origin then 0 else (s.now - x.origin) / s.framePeriod x + 1

/-- A job stops: frames already started run to completion and reach their consumers (R73, R177). -/
def State.jobStop (s : State) (j : Nat) (free : Bool) : State :=
  let x := s.job j
  let k := s.framesStarted x
  if x.mode = .quiescing then s
  else if x.mode = .running ∧ x.frame < k then s.setJob j { x with mode := .quiescing, stopAt := some k }
  else s.jobQuiesce j free

/-- PRESS_FRAME_RELEASE (R163 to R171, R176): the next frame of a job leaves with its tag; frame 0 completes the enable.
`codes` are the converter's codes before clamping, at consecutive ticks from the first that the frame depends on. -/
def execPressFrameRelease (t job : Nat) (_ovrSeen _unsettled _exponent : Computed) (codes : List Int) (s : State) : Host.Outcome State Fault Refusal :=
  happens t (fun s =>
    let x := s.job job
    let on := x.mode == .running || x.mode == .starting || (x.mode == .quiescing && x.stopAt.any fun n => decide (x.frame < n))
    if !s.press.jobs.has job || !on || !s.frameThere x x.frame || decide (codes.length < s.frameCodes x) then s
    else
      let f := s.makeFrame job x.frame codes
      let mode := if x.mode = .quiescing then JobMode.quiescing else JobMode.running
      let s1 := s.setJob job { x with
        mode, frame := x.frame + 1, tag := f.tag, ovrFrames := satAdd 32 x.ovrFrames (bit f.tag.ovr),
        unsettledFrames := satAdd 32 x.unsettledFrames (bit f.tag.unsettled) }
      let s2 := ((s1.offerFrame f).pressFlows x f.tag f.values).finishAll
        (s1.startedCmds 0x0505 fun c => u8 c.payload 0 == job) .ok fun _ => x.origin
      if x.stopAt = some (x.frame + 1) then s2.jobRest job else s2) s

/-- PRESS.DISABLE (R184). -/
def pressDisable (c : Cmd) (s : State) : VerbOut :=
  let p := c.payload
  let j := u8 p 0
  if j > 31 ∨ u8 p 1 > 1 ∨ !zeros p 2 2 then .fail .badParam 0
  else if !s.press.jobs.has j then .done .quiesced 0 s
  else
    match (if (s.job j).mode = .configured then none else s.pressConsumer j 0) with
    | some u => .fail .badState (consumerWord u)
    | none =>
      let s1 := s.jobStop j (u8 p 1 == 1)
      if (s1.job j).mode = .quiescing then .running 0 [] s1 else .done .quiesced 0 s1

/-- PRESS_DISABLE: `PRESS.DISABLE` (R184). -/
def execPressDisable (t fn tag : Nat) (s : State) : Host.Outcome State Fault Refusal :=
  verb t 0x0506 fn tag pressDisable s

/-- The window select of input `i` takes an occurrence (R178); its jobs take it one by one. -/
def State.pressTake (s : State) (i : Nat) (words : KMap Nat) : State :=
  { s with press := { s.press with select := s.press.select.set i (words.get (0x2400 + i * 0x10) 0 % 2) } }

/-- Job `j` can take an occurrence now: at the start of a frame (R84, R178). -/
def State.jobCanTake (s : State) (j : Nat) : Bool :=
  let x := s.job j
  decide (x.origin ≤ s.now) && (s.now - x.origin) % s.framePeriod x == 0

/-- Job `j` takes the window select of an occurrence from the frame that starts now (R84, R167, R178). -/
def State.jobTake (s : State) (j : Nat) (words : KMap Nat) : State :=
  let x := s.job j
  let bank := words.get (0x2400 + x.input * 0x10) 0 % 2
  s.setJob j { x with windows := s.liveWindow x.input bank ((s.now - x.origin) / s.framePeriod x) :: x.windows }

end Sys2Proof.Machine
end

