-- ==== Sys2Proof/Machine/Spec.lean ====
section
/-! DEFINITION. Traces, peak search, the density accumulator and the SPEC family (R186 to R210). -/

namespace Sys2Proof.Machine

/-- Trace unit `n`. -/
def State.trace (s : State) (n : Nat) : Trace := s.spec.traces.get n {}

/-- Replaces a trace unit. -/
def State.setTrace (s : State) (n : Nat) (x : Trace) : State :=
  { s with spec := { s.spec with traces := s.spec.traces.set n x } }

/-- Density plane `p`. -/
def State.plane (s : State) (p : Nat) : Plane := s.spec.planes.get p {}

/-- Replaces a density plane. -/
def State.setPlane (s : State) (p : Nat) (x : Plane) : State :=
  { s with spec := { s.spec with planes := s.spec.planes.set p x } }

/-- Number of planes for a PARTITIONS code (R193). DESIGN CHOICE, log entry 39. -/
def partitions (code : Nat) : Nat := 2 ^ code

/-- Columns of a plane (R193). -/
def Plane.width (x : Plane) : Nat := 4096 / partitions x.parts

/-! ## Traces (R188 to R192) -/

/-- FORMAT of a trace's data: 0 F32, 1 L16, 2 U32 (R207). -/
def Trace.format (x : Trace) : Nat := if x.detector = 5 then 2 else x.output

/-- Bytes per point in a FORMAT. -/
def formatBytes (format : Nat) : Nat := if format = 1 then 2 else 4

/-- Bytes per point. -/
def Trace.pointBytes (x : Trace) : Nat := formatBytes x.format

/-- One bin's power joins the accumulation of its point (R188). -/
def Trace.join (x : Trace) (first : Bool) (acc p : Nat) : Nat :=
  match x.detector with
  | 0 => if first then p else max acc p
  | 1 => if first then p else min acc p
  | 2 => p
  | 5 => satAdd 32 (if first then 0 else acc) (bit (decide (x.countLevel ≤ levelOf p)))
  | _ => f64Add (if first then 0 else acc) p

/-- The level or count of a finished point (R188, R191). -/
def Trace.level (x : Trace) (n acc : Nat) : Int :=
  match x.detector with
  | 5 => acc
  | 3 | 4 => levelOfMean acc n
  | _ => levelOf acc

/-- The output word of a finished point (R188). -/
def Trace.word (x : Trace) (n acc : Nat) : Nat :=
  if x.detector = 5 then acc
  else if x.output = 1 then unsign 16 (x.level n acc)
  else if x.detector = 3 then f32Mean acc n
  else if x.detector = 4 then f32RootMean acc n
  else acc

/-- Inserts a peak by descending level, ties in ascending bin index (R192). -/
def insertPeak (p : Nat × Int) : List (Nat × Int) → List (Nat × Int)
  | [] => [p]
  | q :: qs => if q.2 < p.2 then p :: q :: qs else q :: insertPeak p qs

/-- The peaks of a trace (R191); `e` is max(EXCURSION, 1). -/
def peaksFrom (t e : Int) : Option Int → Nat → List Int → List (Nat × Int)
  | _, _, [] => []
  | prev, k, x :: xs =>
    let rises := match prev with
      | none => true
      | some p => decide (e ≤ x - p)
    let falls := match xs.find? (· != x) with
      | none => true
      | some y => decide (e ≤ x - y)
    let rest := peaksFrom t e (some x) (k + 1) xs
    if decide (t ≤ x) && rises && falls then (k, x) :: rest else rest

/-- The peak list of a completed result (R191, R192). -/
def Trace.findPeaks (x : Trace) (r : TraceResult) : PeakList :=
  let t : Int := if x.detector = 5 then x.threshold else signed 32 x.threshold
  let found := peaksFrom t (max x.excursion 1) none 0 (x.acc.map (x.level x.n))
  { seq := r.seq, counts := x.detector == 5, ovr := r.ovr, unsettled := r.unsettled,
    peaks := (found.foldl (fun l p => insertPeak p l) []).take x.maxPeaks }

/-- The integration has reached INTEGRATION spectra (R189). -/
def Trace.full (x : Trace) : Bool := x.enabled && !x.ended && decide (x.integration ≤ x.n)

/-- An integration ends: the result goes to the completed buffer and SEQ rises (R189); peak search runs on
it (R191). -/
def Trace.complete (x : Trace) : Trace :=
  let r := { x.cur with seq := x.seq + 1, format := x.format, points := x.acc.map (x.word x.n) }
  { x with seq := x.seq + 1, result := some r, n := 0, acc := [], cur := {}, ended := x.mode == 0,
           peaks := if x.peakOn then x.findPeaks r else x.peaks }

/-- A spectrum reaches an enabled unit (R189). DESIGN CHOICE, log entry 40. -/
def Trace.feed (x : Trace) (tag : FrameTag) (prov : Bool) (powers : List Nat) : Trace :=
  let x := if x.full then x.complete else x
  let waiting := match x.starting with
    | some a => decide (tag.tick < a)
    | none => false
  if !x.enabled || x.ended || waiting then x
  else if x.exclude && (tag.ovr || tag.unsettled) then
    { x with cur := { x.cur with excluded := satAdd 32 x.cur.excluded 1 } }
  else
    let first := x.n == 0
    let pts := (span x.firstBin x.bins).map fun b => powers.getD b 0
    let acc := (List.zip (if first then pts else x.acc) pts).map fun e => x.join first e.1 e.2
    let cur := { x.cur with
      first := if first then tag.tick else x.cur.first, last := tag.tick, ovr := x.cur.ovr || tag.ovr,
      unsettled := x.cur.unsettled || tag.unsettled, prov := x.cur.prov || prov }
    { x with n := x.n + 1, acc, cur, starting := none,
             started := if x.starting.isSome then tag.tick else x.started }

/-! ## The density accumulator (R193 to R200) -/

/-- Plane columns that bin j increments (R194). -/
def Plane.columns (x : Plane) (j : Nat) : List Nat :=
  let w := x.width
  if x.bins ≤ w then span (j * w / x.bins) ((j + 1) * w / x.bins - j * w / x.bins)
  else [j * w / x.bins]

/-- Increments one cell, saturating (R197). -/
def Plane.increment (x : Plane) (row col : Nat) : Plane :=
  let k := row * 4096 + col
  let v := x.cells.get k 0
  if v = 0xFFFFFFFF then { x with satInc := satAdd 32 x.satInc 1 }
  else { x with cells := x.cells.set k (v + 1) }

/-- Bin j at level `l` (R194, R195). -/
def Plane.bin (x : Plane) (j : Nat) (l : Int) : Plane :=
  let r := (x.top - l) / (x.step : Int)
  let hit (x : Plane) (row : Nat) : Plane := (x.columns j).foldl (fun x c => x.increment row c) x
  if r < 0 then
    let x := { x with above := satAdd 32 x.above 1 }
    if x.clampHigh then hit x 0 else x
  else if 1023 < r then
    let x := { x with below := satAdd 32 x.below 1 }
    if x.clampLow then hit x 1023 else x
  else hit x r.toNat

/-- Every decay boundary at or before a tick that has not yet passed; a frozen plane skips them (R198, R199). -/
def Plane.decayTo (x : Plane) (tick : Nat) : Plane :=
  match x.origin with
  | none => x
  | some o =>
    let period := x.decayUs * ticksPerUs
    let due := (tick - o) / period
    if x.decayUs = 0 ∨ tick < o ∨ due ≤ x.decays then x
    else if x.freeze then { x with decays := due }
    else
      let cells := x.cells.map fun e => (e.1, e.2 >>> (x.decayShift * (due - x.decays)))
      { x with decays := due, lastDecay := o + due * period, cells := cells.filter fun e => e.2 != 0 }

/-- A clear whose clear point is the spectrum stamped `tick` (R199, R206). -/
def Plane.clearAt (x : Plane) (tick : Nat) : Plane :=
  match x.clearAfter with
  | some a =>
    if a < tick then
      { x with clearAfter := none, clearPoint := tick, cells := [], seq := 0, above := 0, below := 0,
               ovr := false, unsettled := false }
    else x
  | none => x

/-- A spectrum reaches an enabled plane: clear, decay, freeze, then increments (R196, R199). `freeze` is the FREEZE bit
that applies at it. -/
def Plane.feed (x : Plane) (tag : FrameTag) (freeze : Bool) (powers : List Nat) : Plane :=
  let waiting := match x.starting with
    | some a => decide (tag.tick < a)
    | none => false
  if !x.enabled then x
  else if waiting then { x with freeze }
  else
    let x := { (x.clearAt tag.tick).decayTo tag.tick with freeze }
    if x.exclude && (tag.ovr || tag.unsettled) then x
    else
      let k := x.seen
      let x := { x with seen := k + 1, starting := none, origin := some (x.origin.getD tag.tick) }
      if k % x.decim != 0 then x
      else if x.freeze then { x with frozen := satAdd 32 x.frozen 1 }
      else
        let x := { x with seq := x.seq + 1, ovr := x.ovr || tag.ovr, unsettled := x.unsettled || tag.unsettled }
        (List.range x.bins).foldl (fun x j =>
          match powers[x.firstBin + j]? with
          | some p => x.bin j (levelOf p)
          | none => x) x

/-- A command names trace (0) or plane (1) `n` by its first two bytes. -/
def namesSpec (kind n : Nat) (c : Cmd) : Bool := u8 c.payload 0 == kind && u8 c.payload 1 == n

/-- Planes that a clear names and that still wait for their clear point. -/
def State.clearsLeft (s : State) (mask : Nat) : List Nat :=
  (maskBits 4 mask).filter fun p => (s.plane p).clearAfter.isSome

/-- Completes the clears all of whose planes have been cleared (R206). -/
def State.finishClears (s : State) : State :=
  s.finishAll (s.startedCmds 0x0603 fun c => (s.clearsLeft (u8 c.payload 0)).isEmpty) .ok fun c =>
    match c.named with
    | p :: _ => (s.plane p).clearPoint
    | [] => 0

/-- The stamp of the next spectrum of a job that SPEC will accept (R199, R200). -/
def State.nextSpectrum (s : State) (j : Nat) : Nat :=
  match (s.job j).queue with
  | f :: _ => s.lift f.tag.tick
  | [] => (s.job j).origin + (s.job j).frame * s.framePeriod (s.job j)

/-- Plane `p` with the decay boundaries applied that are due by now and do not lie after the next spectrum (R199,
R200); a disabled plane has none, and a clear that waits comes before them. -/
def State.decayed (s : State) (p : Nat) : Plane :=
  let x := s.plane p
  if x.enabled && x.clearAfter.isNone then x.decayTo (min s.now (s.nextSpectrum x.job)) else x

/-- DECAY_BOUNDARY (R198, R199): a boundary after the stamp of a spectrum that has not been accepted waits for it. -/
def execDecayBoundary (t plane : Nat) (s : State) : Host.Outcome State Fault Refusal :=
  happens t (fun s =>
    if (s.plane plane).enabled then s.setPlane plane (s.decayed plane) else s) s

/-- DENSITY_CLEAR_APPLY (R199, R206): the clear point is the next spectrum that SPEC accepts, once it is there. -/
def execDensityClearApply (t plane : Nat) (s : State) : Host.Outcome State Fault Refusal :=
  happens t (fun s =>
    let x := s.plane plane
    match (s.job x.job).queue with
    | f :: _ => if x.enabled then (s.setPlane plane (x.clearAt f.tag.tick)).finishClears else s
    | [] => s) s

/-- The configured partition count: 1 before any plane has been configured (R203). -/
def State.partCount (s : State) : Nat :=
  s.spec.planes.foldl (fun n e => if e.2.configured then max n (partitions e.2.parts) else n) 1

/-- The FREEZE bit that a shadow word asks for at plane `p`; bits above the partition count are ignored (R203). -/
def State.freezeBit (s : State) (p : Nat) (words : KMap Nat) : Bool :=
  decide (p < s.partCount) && (words.get 0x4200 0).testBit p

/-- Plane `p` takes its FREEZE bit of an occurrence (R84, R203). -/
def State.specTake (s : State) (p : Nat) (words : KMap Nat) : State :=
  s.setPlane p { s.plane p with freeze := s.freezeBit p words }

/-! ## Commands -/

/-- SPEC.CONFIGURE_DETECTOR (R204). -/
def specConfigureDetector (c : Cmd) (s : State) : VerbOut :=
  let p := c.payload
  let n := u8 p 0
  let flow := u32 p 28
  let total := s.spec.traces.foldl (fun k e => if e.1 = n || !e.2.configured then k else k + e.2.bins) (u32 p 12)
  if n > 63 ∨ u8 p 1 > 31 ∨ u8 p 2 > 5 ∨ u8 p 3 > 1 ∨ u8 p 4 > 1 ∨ (u8 p 2 = 5 ∧ u8 p 4 ≠ 0) ∨ u8 p 5 > 1 ∨
      !zeros p 6 2 ∨ u32 p 8 > 65535 ∨ u32 p 12 = 0 ∨ u32 p 12 > 65536 ∨ u64 p 16 = 0 ∨ u64 p 16 > 4294967296 ∨
      (flow > 49151 ∧ flow ≠ 0xFFFFFFFF) ∨ !zeros p 32 16 then .fail .badParam 0
  else if (s.trace n).enabled ∨ !s.press.jobs.has (u8 p 1) then .fail .badState 0
  else if u32 p 8 + u32 p 12 > (s.job (u8 p 1)).bins then .fail .badParam 0
  else if total > 1048576 then .fail .noResource 0
  else
    .done .ok 0 (s.setTrace n { s.trace n with
      configured := true, job := u8 p 1, detector := u8 p 2, mode := u8 p 3, output := u8 p 4,
      exclude := u8 p 5 == 1, firstBin := u32 p 8, bins := u32 p 12, integration := u64 p 16,
      countLevel := s32 p 24, flow := if flow = 0xFFFFFFFF then none else some flow })

/-- SPEC_CONFIGURE_DETECTOR: `SPEC.CONFIGURE_DETECTOR` (R204). -/
def execSpecConfigureDetector (t fn tag : Nat) (s : State) : Host.Outcome State Fault Refusal :=
  verb t 0x0601 fn tag specConfigureDetector s

/-- The load of a plane as bin updates and the ticks they take (R196). DESIGN CHOICE, log entry 32. -/
def State.planeLoad (s : State) (x : Plane) : Nat × Nat :=
  let j := s.job x.job
  if s.press.jobs.has x.job then (x.bins * ticksPerSecond, j.hop * s.pressTs j * x.decim) else (0, 1)

/-- Sum of two fractions. -/
def fracAdd (a b : Nat × Nat) : Nat × Nat := (a.1 * b.2 + b.1 * a.2, a.2 * b.2)

/-- SPEC.CONFIGURE_DENSITY (R203, R205). DESIGN CHOICE, log entry 39. -/
def specConfigureDensity (c : Cmd) (s : State) : VerbOut :=
  let p := c.payload
  let n := u8 p 0
  let parts := u8 p 1
  let others := s.spec.planes.filter fun e => e.1 != n && e.2.configured
  let x : Plane := {
    configured := true, parts, job := u8 p 2, exclude := (u8 p 3).testBit 0, clampHigh := (u8 p 3).testBit 1,
    clampLow := (u8 p 3).testBit 2, top := s16 p 4, step := u16 p 6, firstBin := u32 p 8, bins := u32 p 12,
    decim := u32 p 16, decayUs := u32 p 20, decayShift := u8 p 24 }
  let load := others.foldl (fun f e => fracAdd f (s.planeLoad e.2)) (s.planeLoad x)
  let word := load.1 / (load.2 * 1000000)
  if n > 3 ∨ parts > 2 ∨ x.job > 31 ∨ u8 p 3 > 7 ∨ x.step = 0 ∨ x.step > 256 ∨ x.firstBin > 65535 ∨ x.bins = 0 ∨
      x.bins > 65536 ∨ x.decim = 0 ∨ x.decim > 65536 ∨
      (x.decayUs ≠ 0 ∧ (x.decayUs < 10 ∨ 100000000 < x.decayUs ∨ x.decayShift = 0 ∨ 31 < x.decayShift)) ∨
      !zeros p 25 7 then .fail .badParam 0
  else if (s.plane n).enabled ∨ ((others.any fun e => e.2.parts != parts) ∧ s.spec.planes.any fun e => e.2.enabled) then
    .fail .badState 0
  else if partitions parts ≤ n then .fail .badParam 0
  else if 204800000000 * load.2 < load.1 then .fail .noResource word
  else
    let shadow := s.fcw.shadow.get 0x4200 0
    .done .ok word ((s.setPlane n x).setShadow 0x4200 (if shadow.testBit n then shadow - 2 ^ n else shadow))

/-- SPEC_CONFIGURE_DENSITY: `SPEC.CONFIGURE_DENSITY` (R205). -/
def execSpecConfigureDensity (t fn tag : Nat) (s : State) : Host.Outcome State Fault Refusal :=
  verb t 0x0602 fn tag specConfigureDensity s

/-- SPEC.CLEAR_DENSITY (R206). DESIGN CHOICE, log entry 39. -/
def specClearDensity (c : Cmd) (s : State) : VerbOut :=
  let mask := u8 c.payload 0
  if mask > 15 ∨ !zeros c.payload 1 3 then .fail .badParam 0
  else
    let named := (maskBits 4 mask).filter fun p => (s.plane p).enabled
    if named.isEmpty then .done .ok 0 s
    else .running 0 named (named.foldl (fun s p => s.setPlane p { s.plane p with clearAfter := some s.now }) s)

/-- SPEC_CLEAR_DENSITY: `SPEC.CLEAR_DENSITY` (R206). -/
def execSpecClearDensity (t fn tag : Nat) (s : State) : Host.Outcome State Fault Refusal :=
  verb t 0x0603 fn tag specClearDensity s

/-- Header and data of a trace read (R207); before the first completed integration the points are free.
DESIGN CHOICE, log entry 37. -/
def State.traceBytes (s : State) (n : Nat) : List Byte × State :=
  let x := s.trace n
  let free := x.result.isNone
  let r := x.result.getD { format := x.format }
  let w := formatBytes r.format
  let count := if free then x.bins else r.points.length
  let head := pack [(1, 0), (1, n), (1, r.format), (1, bit r.ovr + 2 * bit r.unsettled + 8 * bit r.prov),
    (4, count), (8, x.seq), (16, stampNat { tick := r.first }), (16, stampNat { tick := r.last }),
    (4, r.excluded), (4, 0), (4, 0), (4, 0)]
  if free then (head ++ leBytes (w * count) (s.freeNat (8 * w * count)), s.drawFree)
  else (head ++ pack (r.points.map fun v => (w, v)), s)

/-- Header and data of a density rectangle (R200, R207). -/
def State.densityBytes (s : State) (n row rows col cols : Nat) : List Byte :=
  let x := s.decayed n
  let at_ := s.nextSpectrum x.job
  pack [(1, 1), (1, n), (1, 2),
    (1, bit x.ovr + 2 * bit x.unsettled + 4 * bit x.freeze + 8 * bit (s.provisionalAt at_)), (4, rows * cols), (8, x.seq),
    (16, stampNat { tick := at_ }), (16, stampNat { tick := x.lastDecay }), (4, x.satInc), (4, x.above),
    (4, x.below), (4, x.frozen)] ++
  pack ((span row rows).flatMap fun r => (span col cols).map fun k => (4, x.cells.get (r * 4096 + k) 0))

/-- SPEC.READ_TRACE (R207). DESIGN CHOICE, log entry 38. -/
def specReadTrace (c : Cmd) (s : State) : VerbOut :=
  let p := c.payload
  let kind := u8 p 0
  let n := u32 p 4
  let x := s.plane n
  let cellar := (u8 p 1).testBit 1
  let off := u64 p 24
  let deliver (bytes : List Byte) (s : State) : VerbOut :=
    if cellar then
      if off % 64 ≠ 0 ∨ !s.inRegion off bytes.length then .fail .badParam 0
      else .done .ok bytes.length (s.keepCellar (s.cellarMem.writeBytes off bytes))
    else .data bytes bytes.length s
  if kind > 1 ∨ u8 p 1 > 3 ∨ (kind = 1 ∧ (u8 p 1).testBit 0) ∨ !zeros p 2 2 ∨ n > (if kind = 0 then 63 else 3) ∨
      !zeros p 20 4 then .fail .badParam 0
  else if kind = 0 then
    if !(s.trace n).configured then .fail .badState 0
    else if (u8 p 1).testBit 0 ∧ (s.trace n).seq ≤ u32 p 8 then .wait
    else
      let r := s.traceBytes n
      deliver r.1 r.2
  else if partitions x.parts ≤ n ∨ u16 p 12 > 1023 ∨ u16 p 14 = 0 ∨ u16 p 12 + u16 p 14 > 1024 ∨ u16 p 18 = 0 ∨
      u16 p 16 + u16 p 18 > x.width then .fail .badParam 0
  else
    deliver (s.densityBytes n (u16 p 12) (u16 p 14) (u16 p 16) (u16 p 18))
      (if x.enabled then s.setPlane n (s.decayed n) else s)

/-- SPEC_READ_TRACE: `SPEC.READ_TRACE` (R207). -/
def execSpecReadTrace (t fn tag : Nat) (s : State) : Host.Outcome State Fault Refusal :=
  verb t 0x0604 fn tag specReadTrace s

/-- Domain PD_SPEC_k is on: 0 and 1 while one of trace units 32k to 32k + 31 is enabled, 2 while a trace is searched,
and 3 while a density plane is enabled (R201). -/
def State.pdSpec (s : State) (k : Nat) : Bool :=
  s.bud.decls.any fun d => d.fam == 6 &&
    (if d.obj < 256 then decide (d.obj / 32 = k) else if d.obj < 512 then k == 2 else k == 3)

/-- The peak search of trace `n` declares 0.5 W (R201). DESIGN CHOICE, log entry 39. -/
def peakDecl (n : Nat) : Decl := { fam := 6, obj := 256 + n, group := 256 + n, first := 500000, each := 500000 }

/-- The bytes of a peak list (R208). -/
def Trace.peakBytes (x : Trace) (n : Nat) : List Byte :=
  let l := x.peaks
  let clamp (v : Int) : Nat := if l.counts then (min v 65535).toNat else unsign 16 v
  pack [(1, n), (1, l.peaks.length), (1, bit l.ovr + 2 * bit l.unsettled), (5, 0), (8, l.seq)] ++
    pack (l.peaks.flatMap fun e => [(4, e.1), (2, clamp e.2), (2, 0)])

/-- SPEC.PEAK_SEARCH (R208). DESIGN CHOICE, log entry 38. -/
def specPeakSearch (c : Cmd) (s : State) : VerbOut :=
  let p := c.payload
  let n := u8 p 0
  let x := s.trace n
  if n > 63 ∨ u8 p 1 > 2 ∨ !zeros p 12 4 then .fail .badParam 0
  else if u8 p 1 = 1 then
    .done .quiesced 0 ((s.setTrace n { x with peakOn := false }).undeclare 6 (256 + n))
  else if u8 p 1 = 2 then
    if c.room < 528 then .fail .badLength 528 else .data (x.peakBytes n) 0 s
  else if u16 p 2 = 0 ∨ u16 p 2 > 64 ∨ (x.detector ≠ 5 ∧ u32 p 8 > 32767) then .fail .badParam 0
  else if !x.configured then .fail .badState 0
  else
    match s.declare [peakDecl n] with
    | .error short => .fail .noEnergy short
    | .ok s1 => .done .ok 0 (s1.setTrace n { x with
        peakOn := true, maxPeaks := u16 p 2, threshold := u32 p 4, excursion := u32 p 8 })

/-- SPEC_PEAK_SEARCH: `SPEC.PEAK_SEARCH` (R208). -/
def execSpecPeakSearch (t fn tag : Nat) (s : State) : Host.Outcome State Fault Refusal :=
  verb t 0x0605 fn tag specPeakSearch s

/-! ## Spectra and results -/

/-- A completed result of trace `n` goes to the ACQ contexts that name the trace and to its flow, followed there by its
peak list (R190, R192). -/
def State.sendResult (s : State) (n : Nat) (x : Trace) (r : TraceResult) : State :=
  let bytes := (s.traceBytes n).1
  let s := s.offerElement 4 n { stamp := { tick := r.last }, bytes, ovr := r.ovr, unsettled := r.unsettled }
  match x.flow with
  | none => s
  | some f =>
    let fl := bit r.unsettled + 2 * bit r.ovr + 4 * bit r.prov
    let u : FlowUnit := { format := 5, bytes, stamp := { tick := r.first }, flags := fl }
    let s := s.handToFlow f u
    if x.peakOn then s.handToFlow f { u with bytes := x.peakBytes n } else s

/-- The results completed since `old` go where R190 says. -/
def State.resultFlows (s old : State) : State :=
  (s.spec.traces.map Prod.fst).foldl (fun s n =>
    let x := s.trace n
    match x.result with
    | some r => if x.seq = (old.trace n).seq then s else s.sendResult n x r
    | none => s) s

/-- The FREEZE bit that applies at the next spectrum of plane `p`: that of a pending occurrence which it has not
taken and no command holds, or the live one (R199, R203). -/
def State.freezeAt (s : State) (p : Nat) : Bool :=
  match s.fcw.occ.find 23 with
  | some o => if s.groupHeld 23 || o.taken.contains (4096 + p) then (s.plane p).freeze else s.freezeBit p o.words
  | none => (s.plane p).freeze

/-- SPECTRUM_ACCEPT (R186, R189, R199): the oldest frame of job `job` that SPEC has not accepted is converted to
power and reaches every trace unit and density plane that takes the job; those planes take a pending occurrence of
group 23. DESIGN CHOICE, log entries 11 and 36. -/
def execSpectrumAccept (t job : Nat) (_powers : Computed) (s : State) : Host.Outcome State Fault Refusal :=
  happens t (fun s =>
    match (s.job job).queue with
    | [] => s
    | f :: rest =>
     if !s.readyBit 13 then s
     else
      let tag := f.tag
      let powers := f.powers (s.job job).format
      let frozen := (s.spec.planes.filter fun e => e.2.enabled && e.2.job == job).map Prod.fst
      let s0 := s.setJob job { s.job job with queue := rest }
      let s1 : State := { s0 with spec := { s.spec with
        traces := s.spec.traces.mapVals fun _ x => if x.job = job then x.feed tag (s.provisionalAt tag.tick) powers else x
        planes := s.spec.planes.mapVals fun p x => if x.job = job then x.feed tag (s.freezeAt p) powers else x } }
      let s1 := if s.groupHeld 23 || frozen.isEmpty then s1 else s1.occTaken 23 (frozen.map fun p => 4096 + p)
      let on (c : Cmd) : Bool :=
        let n := u8 c.payload 1
        if u8 c.payload 0 = 0 then (s1.trace n).starting.isNone else (s1.plane n).starting.isNone
      let s1 := s1.resultFlows s
      let s2 := s1.finishAll (s1.startedCmds 0x0606 on) .ok fun c =>
        if u8 c.payload 0 = 0 then (s1.trace (u8 c.payload 1)).started
        else (s1.plane (u8 c.payload 1)).origin.getD 0
      s2.finishClears) s

/-- INTEGRATION_END (R189). -/
def execIntegrationEnd (t trace : Nat) (s : State) : Host.Outcome State Fault Refusal :=
  happens t (fun s =>
    if (s.trace trace).full then (s.setTrace trace (s.trace trace).complete).resultFlows s else s) s

/-- Bytes per second of a trace's results (R209). -/
def State.traceRate (s : State) (x : Trace) : Nat :=
  let j := s.job x.job
  let ticks := j.hop * s.pressTs j * x.integration
  ((64 + x.bins * x.pointBytes) * ticksPerSecond + ticks - 1) / ticks

/-- SPEC.ENABLE (R209). -/
def specEnable (c : Cmd) (s : State) : VerbOut :=
  let p := c.payload
  let kind := u8 p 0
  let n := u8 p 1
  let from_ := if u8 p 2 = 0 then 0 else u64 p 8
  let on (j : Nat) : Bool := s.press.jobs.has j && (s.job j).mode == .running
  if kind > 1 ∨ n > (if kind = 0 then 63 else 3) ∨ u8 p 2 > 1 ∨ !zeros p 3 5 then .fail .badParam 0
  else if kind = 0 then
    let x := s.trace n
    if x.enabled then .done .ok x.started s
    else if !x.configured ∨ !on x.job then .fail .badState 0
    else
      match s.declare [{ fam := 6, obj := n, group := n, first := 200000, each := 200000 }] with
      | .error short => .fail .noEnergy short
      | .ok s1 =>
        if x.flow.any fun f => !s.flowCarries f (s.traceRate x) then .fail .noAllotment 0
        else .running 0 [] (s1.setTrace n { x with
          enabled := true, starting := some from_, started := 0, ended := false, seq := 0, n := 0, acc := [],
          cur := {}, result := none })
  else
    let x := s.plane n
    let clash := s.spec.planes.any fun e => e.2.enabled && e.2.parts != x.parts
    if x.enabled then .done .ok (x.origin.getD 0) s
    else if !x.configured ∨ !on x.job ∨ clash then .fail .badState 0
    else
      match s.declare [{ fam := 6, obj := 512 + n, group := 512, first := 6000000, each := 1000000 }] with
      | .error short => .fail .noEnergy short
      | .ok s1 => .running 0 [] (s1.setPlane n { x with
          enabled := true, starting := some from_, cells := [], origin := none, seen := 0, decays := 0,
          lastDecay := 0, clearAfter := none, clearPoint := 0, seq := 0, above := 0, below := 0, frozen := 0,
          satInc := 0, ovr := false, unsettled := false })

/-- SPEC_ENABLE: `SPEC.ENABLE` (R209). -/
def execSpecEnable (t fn tag : Nat) (s : State) : Host.Outcome State Fault Refusal :=
  verb t 0x0606 fn tag specEnable s

/-- The spectra that Press has released to trace `n` and a full integration run to completion (R73, R189): each result goes
where R190 says. -/
def State.traceDrain (s : State) (n : Nat) : State :=
  let s1 := (s.job (s.trace n).job).queue.foldl (fun s f =>
    (s.setTrace n ((s.trace n).feed f.tag (s.provisionalAt f.tag.tick) (f.powers (s.job (s.trace n).job).format))).resultFlows s) s
  if (s1.trace n).full then (s1.setTrace n (s1.trace n).complete).resultFlows s1 else s1

/-- A trace is quiesced: what it has been given is completed, and its peak search stops too (R73, R210). -/
def State.traceQuiesce (s : State) (n : Nat) : State :=
  let s := s.traceDrain n
  ((s.setTrace n { s.trace n with enabled := false, starting := none, peakOn := false, n := 0, acc := [],
                                  cur := {} }).undeclare 6 n).undeclare 6 (256 + n)

/-- A plane is quiesced: a disabled plane is empty (R201, R206). -/
def State.planeQuiesce (s : State) (p : Nat) : State :=
  ((s.setPlane p { s.plane p with enabled := false, starting := none, cells := [], clearAfter := none }).undeclare 6
    (512 + p)).finishClears

/-- SPEC.DISABLE (R210). -/
def specDisable (c : Cmd) (s : State) : VerbOut :=
  let kind := u8 c.payload 0
  let n := u8 c.payload 1
  if kind > 1 ∨ n > (if kind = 0 then 63 else 3) ∨ !zeros c.payload 2 2 then .fail .badParam 0
  else
    let on := if kind = 0 then (s.trace n).enabled else (s.plane n).enabled
    match (if on then s.specConsumer kind n 0 else none) with
    | some u => .fail .badState (consumerWord u)
    | none => .done .quiesced 0 (if kind = 0 then s.traceQuiesce n else s.planeQuiesce n)

/-- SPEC_DISABLE: `SPEC.DISABLE` (R210). -/
def execSpecDisable (t fn tag : Nat) (s : State) : Host.Outcome State Fault Refusal :=
  verb t 0x0607 fn tag specDisable s

end Sys2Proof.Machine
end

