-- ==== Sys2Proof/Machine/Trig.lean ====
section
/-! DEFINITION. The trigger engine and the TRIG family (R212 to R234). -/

namespace Sys2Proof.Machine

/-- Trigger unit `u`. -/
def State.tunit (s : State) (u : Nat) : TrigUnit := s.trig.units.get u {}

/-- Replaces a trigger unit. -/
def State.setTunit (s : State) (u : Nat) (x : TrigUnit) : State :=
  { s with trig := { s.trig with units := s.trig.units.set u x } }

/-- ARMED and neither in its re-arm time nor in hold-off. -/
def TrigUnit.waiting (x : TrigUnit) : Bool := x.mode == .armed && x.dead.isNone

/-- ARMED or HOLDOFF (R221). -/
def TrigUnit.inService (x : TrigUnit) : Bool := x.mode == .armed || x.mode == .holdoff

/-! ## Crossings (R214, R215) -/

/-- Stamp of the crossing of `v` between two values, in 1/65,536 tick (R214, R215). -/
def crossingStamp (p n : Sample) (v : Int) : Nat :=
  let num := (v - p.value) * ((n.tick : Int) - p.tick) * 65536
  let den := n.value - p.value
  let f := if den < 0 then roundEvenInt (-num) den.natAbs else roundEvenInt num den.natAbs
  ((p.tick * 65536 : Int) + f).toNat

/-- The hysteresis condition is met by a value (R214): at least HYSTERESIS beyond the level after a counted
crossing, and beyond by more than it after ARM. DESIGN CHOICE, log entry 41. -/
def LevelState.see (l : LevelState) (v : Int) (h : Nat) (x : Int) : LevelState :=
  { l with up := l.up || decide (x < v - h) || (l.rose && decide (x ≤ v - h)),
           down := l.down || decide (v + h < x) || (l.fell && decide (v + h ≤ x)) }

/-- The counted crossing of one level between two values, with its direction (true rising), and the new
hysteresis state (R214). DESIGN CHOICE, log entry 41. -/
def LevelState.step (l : LevelState) (v : Int) (h : Nat) (p n : Sample) : LevelState × Option (Bool × TrigCond) :=
  let c : TrigCond := { at_ := crossingStamp p n v, ovr := p.ovr || n.ovr, unsettled := p.unsettled || n.unsettled }
  if p.value < v ∧ v ≤ n.value ∧ l.up then
    (({ l with up := false, rose := true } : LevelState).see v h n.value, some (true, c))
  else if v < p.value ∧ n.value ≤ v ∧ l.down then
    (({ l with down := false, fell := true } : LevelState).see v h n.value, some (false, c))
  else (l.see v h n.value, none)

/-- The crossing, if it has this direction. -/
def takeDir (dir : Bool) : Option (Bool × TrigCond) → Option TrigCond
  | some (d, c) => if d = dir then some c else none
  | none => none

/-- The crossings that EDGE selects: 0 rising, 1 falling, 2 either. -/
def edgeTakes (edge : Nat) : Option (Bool × TrigCond) → List TrigCond
  | some (d, c) => if edge = 2 || d = (edge == 0) then [c] else []
  | none => []

/-- A duration in 1/65,536 tick qualifies (R213). -/
def TrigUnit.qualifies (x : TrigUnit) (a b : Nat) : Bool :=
  (decide (x.timeMin * 65536 ≤ b - a) && decide (b - a ≤ x.timeMax * 65536)) != x.outside

/-- The start of a condition takes the flags of a further sample (R215). -/
def TrigCond.flag (c : TrigCond) (n : Sample) : TrigCond :=
  { c with ovr := c.ovr || n.ovr, unsettled := c.unsettled || n.unsettled }

/-- What ends a transition or a pulse: the start goes, and the condition is satisfied if it qualifies. -/
def endStart (start : Option TrigCond) (stop : Option TrigCond) (ok : TrigCond → TrigCond → Bool) :
    Option TrigCond × List TrigCond :=
  match stop, start with
  | some e, some c => (none, if ok c e then [c] else [])
  | _, _ => (start, [])

/-- One value reaches a unit of kind 0 to 5: the new detection state and the satisfied conditions (R213). -/
def TrigUnit.detect (x : TrigUnit) (n : Sample) : Detector × List TrigCond :=
  let d := x.det
  if x.exclude && (n.ovr || n.unsettled) then (d, [])
  else
    match d.prev with
    | none => ({ d with prev := some n, a := d.a.see x.levelA x.hyst n.value,
                        b := d.b.see x.levelB x.hyst n.value }, [])
    | some p =>
      let ra := d.a.step x.levelA x.hyst p n
      let rb := d.b.step x.levelB x.hyst p n
      let start := d.start.map fun c => c.flag n
      let d := { d with prev := some n, a := ra.1, b := rb.1, start }
      let low := if x.levelB ≤ x.levelA then rb.2 else ra.2
      let high := if x.levelB ≤ x.levelA then ra.2 else rb.2
      let up := x.edge == 0
      match x.kind with
      | 0 | 5 => (d, edgeTakes x.edge ra.2)
      | 1 =>
        let enter := (takeDir true low).toList ++ (takeDir false high).toList
        let leave := (takeDir true high).toList ++ (takeDir false low).toList
        (d, if x.edge = 0 then enter else if x.edge = 1 then leave else enter ++ leave)
      | 2 =>
        let first := if up then takeDir true low else takeDir false high
        let last := if up then takeDir true high else takeDir false low
        let back := if up then takeDir false low else takeDir true high
        let start := first.or (if back.isSome then none else d.start)
        let r := endStart start last fun c e => x.qualifies c.at_ e.at_
        ({ d with start := r.1 }, r.2)
      | 3 =>
        let r := endStart d.start (takeDir (!up) ra.2) fun c e => x.qualifies c.at_ e.at_
        ({ d with start := (takeDir up ra.2).or r.1 }, r.2)
      | 4 =>
        let pos := decide (x.levelB < x.levelA)
        let r := endStart d.start (takeDir (!pos) rb.2) fun _ _ => true
        let start := (takeDir pos rb.2).or r.1
        let reached := if pos then decide (x.levelA ≤ n.value) else decide (n.value ≤ x.levelA)
        ({ d with start := if reached then none else start }, r.2)
      | _ => (d, [])

/-! ## Decisions (R216 to R225) -/

/-- Applies a mask point to a level (R216). -/
def violates (m : Int × Int) (l : Int) : Bool := decide (m.1 < l) || decide (l < m.2)

/-- Indices of the violating bins of a frame (R216). DESIGN CHOICE, log entry 41. -/
def violatingBins : Nat → List (Int × Int) → List Int → List Nat
  | j, m :: ms, l :: ls =>
    if violates m l then j :: violatingBins (j + 1) ms ls else violatingBins (j + 1) ms ls
  | _, _, _ => []

/-- A frame reaches a unit of kind 6 or 7 (R213, R216). DESIGN CHOICE, log entry 41. -/
def TrigUnit.frame (x : TrigUnit) (mask : List (Int × Int)) (tag : FrameTag) (powers : List Nat) :
    Detector × List TrigCond :=
  let c : TrigCond := { at_ := tag.tick * 65536, ovr := tag.ovr, unsettled := tag.unsettled }
  let band := (powers.drop x.bandFirst).take x.bandCount
  if x.exclude && (tag.ovr || tag.unsettled) then (x.det, [])
  else if x.kind = 6 then
    let n : Sample := { tick := tag.tick, value := level (powerSum band) (-149) 1, ovr := tag.ovr,
                        unsettled := tag.unsettled }
    match x.det.prev with
    | none => ({ x.det with prev := some n, a := x.det.a.see x.threshold x.hyst n.value }, [])
    | some p =>
      let r := x.det.a.step x.threshold x.hyst p n
      ({ x.det with prev := some n, a := r.1 },
        (edgeTakes x.edge r.2).map fun e => { e with at_ := tag.tick * 65536 })
  else
    let bins := violatingBins x.bandFirst mask (band.map levelOf)
    let viol := decide (x.minBins ≤ bins.length)
    let hit := match x.edge with
      | 0 => viol && !x.det.violating
      | 1 => !viol && x.det.violating
      | _ => viol
    ({ x.det with violating := viol }, if hit then [{ c with bin := bins.headD 0 }] else [])

/-- EV_TRIGGER for a decision (R234). DESIGN CHOICE, log entry 91. -/
def State.trigEvent (s : State) (u : Nat) (c : TrigCond) (forced : Bool) : State :=
  let x := s.tunit u
  let flags := bit c.ovr + 2 * bit c.unsettled + 4 * bit forced
  if !x.events then s
  else if x.evOpen.isSome then
    s.setTunit u { x with evCount := satAdd 32 x.evCount 1, evFlags := x.evFlags ||| flags, evBin := c.bin }
  else
    (s.setTunit u { x with evOpen := some s.now, evCount := 0, evFlags := 0, evBin := 0 }).eventAt 0x0701 u
      { tick := c.at_ / 65536, fine := c.at_ % 65536 } (1 + 2 ^ 33 * flags + 2 ^ 36 * c.bin)

/-- The targets of a decision (R225). -/
def State.trigTargets (s : State) (u : Nat) (c : TrigCond) : State :=
  let r := (s.tunit u).route
  let k := s.trig
  let jumps := (maskBits 256 r.sites).map (fun i => (i, u)) ++ (maskBits 2 r.stim).map (fun i => (256 + i, u))
  let pulse := r.out && !k.ended && s.readyBit 14
  let s := { s with trig := { k with
    jumps := k.jumps ++ jumps
    pulse := if pulse then some (s.now + roundEven (k.pulseNs * 128) 5) else k.pulse
    drivers := if pulse && !k.drivers.contains u then k.drivers ++ [u] else k.drivers } }
  let s := match r.vine with
    | some code => s.postVine code { tick := c.at_ / 65536, fine := c.at_ % 65536 }
    | none => s
  s.openBlanking r.comps

/-- The unit has made its last decision (R220). -/
def TrigUnit.finished (x : TrigUnit) : Bool :=
  x.armMode == 1 || (x.armMode == 2 && decide (x.target ≤ x.decisions))

/-- A unit reaches DONE and no longer counts as armed; a new route comes into force (R220, R230). -/
def State.trigDone (s : State) (u : Nat) : State :=
  let x := s.tunit u
  (s.setTunit u { x with mode := .done, dead := none, pendingA := none, lastB := none, openB := false, frames := [],
                         route := x.nextRoute.getD x.route, nextRoute := none }).undeclare 7 u

/-- A unit decides, leaving out the sequences that watch it; answers whether the decision left TRIG (R220 to
R223, R513 class 5). DESIGN CHOICE, log entries 42 and 43. -/
def State.decideOne (s : State) (u : Nat) (c : TrigCond) (forced : Bool) : State × Bool :=
  let x := { s.tunit u with progress := 0 }
  if s.trig.ended then (s.setTunit u x, false)
  else if s.trig.split && s.freeNat 1 == 0 then
    (s.drawFree.setTunit u { x with missed := satAdd 64 x.missed 1 }, false)
  else
    let s := if s.trig.split then s.drawFree else s
    let n := s.trig.serial + 1
    let y := { x with
      decisions := satAdd 64 x.decisions 1, last := c, serial := n, heldOff := 0, dead := some s.now,
      deadTicks := if x.mode = .holdoff then satAdd 64 x.deadTicks (s.now - x.dead.getD s.now) else x.deadTicks }
    let y := if x.compat then { y with mode := .holdoff } else y
    let s := ({ s with trig := { s.trig with serial := n } }).setTunit u y
    let s := ((s.trigEvent u c forced).trigTargets u c).acqSees u c forced
    (if y.finished then s.trigDone u else s, true)

/-- A satisfied condition of a unit that is not a sequence's watcher (R219, R220, R222). -/
def State.conditionOne (s : State) (u : Nat) (c : TrigCond) : State × Bool :=
  let x := s.tunit u
  match x.mode with
  | .armed =>
    if x.dead.isSome then (s.setTunit u { x with missed := satAdd 64 x.missed 1 }, false)
    else if x.progress + 1 < x.count then (s.setTunit u { x with progress := x.progress + 1 }, false)
    else s.decideOne u c false
  | .holdoff =>
    (s.setTunit u { x with missed := satAdd 64 x.missed 1, heldOff := x.heldOff + 1 }, false)
  | _ => (s, false)

/-- The condition of sequence unit `q` is satisfied by decisions `a` of A and `b` of B; the pending A is consumed. -/
def State.sequenceMet (s : State) (q : Nat) (a b : TrigCond) : State :=
  ((s.setTunit q { s.tunit q with pendingA := none, lastB := none, openB := false }).conditionOne q
    { b with ovr := b.ovr || a.ovr, unsettled := b.unsettled || a.unsettled }).1

/-- Sequence unit `q` is tried with the decision of B that it has seen and the A that is pending (R218).
DESIGN CHOICE, log entry 127. -/
def State.sequenceTry (s : State) (q : Nat) : State :=
  let x := s.tunit q
  match (if x.openB then x.lastB else none), x.pendingA with
  | some b, some a =>
    if a.at_ + x.timeMax * 65536 < b.at_ then s.setTunit q { x with pendingA := none, openB := false }
    else if a.at_ + x.timeMin * 65536 ≤ b.at_ then s.sequenceMet q a b
    else s.setTunit q { x with openB := false }
  | _, _ => s.setTunit q { x with openB := false }

/-- Sequence unit `q` sees a decision of its A: it becomes pending, and replaces an older one. It comes before a decision
of B with an equal stamp that was reported first, and after any other (R218). -/
def State.sequenceA (s : State) (q : Nat) (c : TrigCond) : State :=
  let same (x : TrigUnit) : Bool := x.lastB.any fun b => b.at_ == c.at_
  if same (s.tunit q) then (s.setTunit q { s.tunit q with pendingA := some c, openB := true }).sequenceTry q
  else
    let s1 := s.sequenceTry q
    s1.setTunit q { s1.tunit q with pendingA := some c, lastB := none }

/-- Sequence unit `q` sees a decision of its B: the sequence is tried with it one CORE clock later, so that an A with an
equal stamp is taken first (R218, R224). DESIGN CHOICE, log entry 127. -/
def State.sequenceB (s : State) (q : Nat) (c : TrigCond) : State :=
  let s1 := s.sequenceTry q
  s1.setTunit q { s1.tunit q with lastB := some c, openB := true }

/-- The sequences see decisions that were made together: each of A first, then each of B (R218). -/
def State.sequences (s : State) (ds : List (Nat × TrigCond)) : State :=
  let watch (sees : State → Nat → TrigCond → State) (of_ : TrigUnit → Nat) (s : State) : State :=
    (s.trig.units.map Prod.fst).foldl (fun s q =>
      ds.foldl (fun s d =>
        let x := s.tunit q
        if x.kind = 14 ∧ x.inService ∧ of_ x = d.1 then sees s q d.2 else s) s) s
  watch State.sequenceB TrigUnit.source2 (watch State.sequenceA TrigUnit.source s)

/-- A satisfied condition of unit `u` (R219). -/
def State.condition (s : State) (u : Nat) (c : TrigCond) : State :=
  let r := s.conditionOne u c
  if r.2 then r.1.sequences [(u, c)] else r.1

/-- Offers a condition to every unit of a kind and source, in the EDGE direction where the kind has one. -/
def State.offerTrig (s : State) (kind source : Nat) (rising : Option Bool) (st : Stamp) (uns : Bool) : State :=
  let c : TrigCond := { at_ := stampFine st, unsettled := uns }
  let r := (s.trig.units.map Prod.fst).foldl (fun (r : State × List (Nat × TrigCond)) u =>
    let x := r.1.tunit u
    let dir := match rising with
      | some up => up == (x.edge == 0)
      | none => true
    if x.kind == kind && x.source == source && dir && !(x.exclude && uns) then
      let d := r.1.conditionOne u c
      (d.1, if d.2 then r.2 ++ [(u, c)] else r.2)
    else r) (s, [])
  r.1.sequences r.2

/-- The magnitude of output `k` of DDC `d` in units of 2^−31, rounded to the nearest one (R138, R142, R213): of the
output as it leaves, clamped in a fixed format. DESIGN CHOICE, log entry 41. -/
def State.ddcMagnitude (s : State) (d k : Nat) (bytes : List Byte) : Nat :=
  let x := (s.ddc d).settingsOf k
  let q := ddcSquare x.format x.gain bytes
  sqrtRound (q.1 * 4 ^ 31) q.2

/-- A value of a sampled source as a unit takes it: with the value and the marks that it has there (R126, R138, R144,
R145, R213). What lies off the grid of its DDC, has not been produced or is not later than the last value is none of the
values that the unit takes. -/
def State.sampleSeen (s : State) (x : TrigUnit) (n : Sample) : Option Sample :=
  let tick := s.lift n.tick
  if s.now < tick || x.det.prev.any (fun p => decide (tick ≤ p.tick)) then none
  else if x.kind ≤ 4 then
    let i := s.inputs.get x.source {}
    some { tick, value := i.valueAt tick n.value, ovr := i.ovrAt tick, unsettled := i.looseAt tick }
  else
    let d := s.ddc x.source
    let k := (tick - d.origin) / d.ratio
    if tick < d.origin || (tick - d.origin) % d.ratio != 0 || !d.running || !d.produced k s.now then none
    else
      let e := s.ddcElement x.source k n.codes
      some { tick, value := s.ddcMagnitude x.source k e.bytes, ovr := e.ovr, unsettled := e.unsettled }

/-- TRIGGER_DECISION (R213 to R220, R224): further values of a sampled source, the frames of a Press job that have been
released, or a decision of B that a sequence has seen, reach an armed unit, and every condition they satisfy is
qualified, voted and routed. DESIGN CHOICE, log entry 11. -/
def execTriggerDecision (t unit : Nat) (samples : List Sample) (_powers : Computed) (s : State) :
    Host.Outcome State Fault Refusal :=
  happens t (fun s =>
    let feed (s : State) (r : Detector × List TrigCond) : State :=
      r.2.foldl (fun s c => s.condition unit c) (s.setTunit unit { s.tunit unit with det := r.1 })
    let x := s.tunit unit
    if !x.inService || unit > 63 then s
    else if x.kind ≤ 5 then
      samples.foldl (fun s n =>
        match s.sampleSeen x n with
        | some v => if (s.tunit unit).inService then feed s ((s.tunit unit).detect v) else s
        | none => s) s
    else if x.kind ≤ 7 then
      x.frames.foldl (fun s f =>
        let y := s.tunit unit
        if y.inService then
          feed s (y.frame (s.trig.masks.get (unit * 2 + y.bank) []) f.tag (f.powers (s.job y.source).format))
        else s) (s.setTunit unit { x with frames := [] })
    else if x.kind = 14 then s.sequenceTry unit
    else s) s

/-- The first started `TRIG.FORCE` on a unit. -/
def State.forceCmd (s : State) (u : Nat) : Option Cmd :=
  (s.startedCmds 0x0706 fun c => u8 c.payload 0 == u).head?

/-- FORCED_DECISION (R220, R221): the force of a command, or else of a kernel, is made; within a re-arm time it
waits. -/
def execForcedDecision (t unit : Nat) (s : State) : Host.Outcome State Fault Refusal :=
  happens t (fun s =>
    let x := s.tunit unit
    let make (s : State) : State × Bool :=
      if x.inService then
        let c : TrigCond := { at_ := s.now * 65536 }
        let r := s.decideOne unit c true
        (if r.2 then r.1.sequences [(unit, c)] else r.1, r.2)
      else (s, false)
    if x.mode = .armed ∧ x.dead.isSome then s
    else match s.forceCmd unit with
    | some c =>
      let r := make s
      if !x.inService then s.finish c .badState 0
      else if r.2 then r.1.finish c .ok s.now
      else r.1.finish c .aborted 0
    | none =>
      if s.trig.kernelForces.contains unit then
        (make { s with trig := { s.trig with kernelForces := s.trig.kernelForces.erase unit } }).1
      else s) s

/-- Values of the fast control window become live, clamped for kinds 0 to 4 (R213, R227). -/
def TrigUnit.loadLive (x : TrigUnit) (words : KMap Nat) (o : Nat) : TrigUnit :=
  let lo (v : Int) : Int := if x.kind ≤ 4 then max (-2048) (min v 2047) else v
  let h := words.get (o + 8) 0
  { x with levelA := lo (signed 32 (words.get o 0)), levelB := lo (signed 32 (words.get (o + 4) 0)),
           hyst := if x.kind ≤ 4 then min h 2047 else h, threshold := signed 16 (words.get (o + 12) 0),
           bank := words.get (o + 16) 0 % 2 }

/-- The live values of a unit as its shadows hold them when a command has loaded them (R22, R227). -/
def TrigUnit.shadowWords (x : TrigUnit) (o : Nat) : List (Nat × Nat) :=
  [(o, unsign 32 x.levelA), (o + 4, unsign 32 x.levelB), (o + 8, x.hyst), (o + 12, unsign 16 x.threshold), (o + 16, x.bank)]

/-- Window offset of a unit (R227). -/
def trigOffset (u : Nat) : Nat := 0x1000 + u * 0x40

/-- A unit can take an occurrence now: it is not within its re-arm time or hold-off (R84). -/
def State.trigCanTake (s : State) (u : Nat) : Bool := !(s.tunit u).inService || (s.tunit u).waiting

/-- A unit takes an occurrence; one that waits is re-armed by it (R84, R227). -/
def State.trigTake (s : State) (u : Nat) (words : KMap Nat) : State :=
  let x := (s.tunit u).loadLive words (trigOffset u)
  s.setTunit u (if x.inService then x.restart else x)

/-- 2 CORE clocks in ticks (R220). -/
def rearmTicks : Nat := 32

/-- A unit re-arms: its dead time is counted and a new route comes into force (R220, R222, R230). -/
def TrigUnit.rearm (x : TrigUnit) (now : Nat) : TrigUnit :=
  { x with mode := .armed, dead := none, heldOff := 0, nextRoute := none, route := x.nextRoute.getD x.route,
           deadTicks := satAdd 64 x.deadTicks (now - x.dead.getD now) }

/-- UNIT_REARM (R220): 2 CORE clocks after the decision, so that a unit makes at most one decision in that time.
DESIGN CHOICE, log entry 43. -/
def execUnitRearm (t unit : Nat) (s : State) : Host.Outcome State Fault Refusal :=
  happens t (fun s =>
    let x := s.tunit unit
    match x.dead with
    | some d => if x.mode = .armed ∧ d + rearmTicks ≤ s.now then s.setTunit unit (x.rearm (d + rearmTicks)) else s
    | none => s) s

/-- HOLDOFF_END (R222). -/
def execHoldoffEnd (t unit : Nat) (s : State) : Host.Outcome State Fault Refusal :=
  happens t (fun s =>
    let x := s.tunit unit
    let outside := if x.byCount then decide (x.holdoff ≤ x.heldOff) else decide (x.dead.getD 0 + x.holdoff ≤ s.now)
    if x.mode = .holdoff ∧ outside then s.setTunit unit (x.rearm s.now) else s) s

/-- SEQUENCE_PENDING_EXPIRY (R218). -/
def execSequencePendingExpiry (t unit : Nat) (s : State) : Host.Outcome State Fault Refusal :=
  happens t (fun s =>
    let x := s.tunit unit
    match x.pendingA with
    | some a =>
      if a.at_ + x.timeMax * 65536 < s.now * 65536 then
        let s1 := s.sequenceTry unit
        s1.setTunit unit { s1.tunit unit with pendingA := none }
      else s
    | none => s) s

/-- TRIG_IN_EDGE (R213): the edge is stamped to one tick and offered to the TRIG_IN units. -/
def execTrigInEdge (t : Nat) (rising : Bool) (s : State) : Host.Outcome State Fault Refusal :=
  happens t (fun s => s.offerTrig 8 0 (some rising) s.stampNow false) s

/-- The TRIG_OUT pulse is over: the units that waited for it are quiesced, and their disarms complete (R225, R232). -/
def State.pulseDone (s : State) : State :=
  let waits := (s.trig.units.filter fun e => e.2.mode == .quiescing).map Prod.fst
  let s0 : State := { s with trig := { s.trig with pulse := none, drivers := [] } }
  let s1 := waits.foldl (fun s u =>
    ((s.setTunit u { s.tunit u with mode := .configured }).undeclare 7 u).restDone (resetKey 7 u) 0) s0
  let cs := s1.startedCmds 0x0705 fun _ => true
  let s2 := cs.foldl (fun s c =>
    let u := u8 c.payload 0
    if (u8 c.payload 1).testBit 0 then s.setTunit u { s.tunit u with mode := .unconfigured } else s) s1
  s2.finishAll cs .quiesced fun _ => 0

/-- TRIG_OUT_PULSE_END (R225, R232). -/
def execTrigOutPulseEnd (t : Nat) (s : State) : Host.Outcome State Fault Refusal :=
  happens t (fun s =>
    match s.trig.pulse with
    | some e => if e ≤ s.now then s.pulseDone else s
    | none => s) s

/-- The level at TRIG_OUT, true for high; none while it is high-impedance: until `READY_MAP` bit 14 is set, and in reset
and shutdown, which clear it (R225, R226). -/
def State.trigOutPin (s : State) : Option Bool :=
  if s.readyBit 14 && !s.host.perst then some (s.trig.pulse.isSome != s.trig.outLow) else none

/-- Domain PD_TRIG_v, that of voter `v`, is on while a unit declares its power and the voter is in service (R223). -/
def State.pdTrig (s : State) (v : Nat) : Bool := s.domainOn 7 0 && !s.isRetired ⟨5, 0, v⟩

/-- A voter fails: masked, then a split vote, in which the two that are left stay in service since neither can be shown
faulty, then the end of voting (R223, R513 class 5, R536). DESIGN CHOICE, log entry 43. -/
def State.voterFail (s : State) (v : Nat) (inj : Bool) : State :=
  let u : Unit3 := ⟨5, 0, v⟩
  if v > 2 || s.isRetired u || s.trig.ended then s
  else if s.sparesLeft 5 0 ≠ 0 then
    let s := { s with trig := { s.trig with voters := s.trig.voters - 2 ^ v } }
    s.faultMasked u { injected := inj }
  else if !s.trig.split then
    let s1 := ({ s with trig := { s.trig with split := true } } : State).faultUnmasked u { injected := inj }
    { s1 with ft := { s1.ft with retired := s1.ft.retired.filter (· != u), injected := s.ft.injected } }
  else
    (({ s with trig := { s.trig with ended := true } } : State).pulseDone.bitsLost (2 ^ 14)).faultUnmasked u
      { injected := inj }

/-- VOTER_DISAGREEMENT (R223, R513). -/
def execVoterDisagreement (t voter : Nat) (s : State) : Host.Outcome State Fault Refusal :=
  happens t (fun s => s.voterFail voter false) s

/-- TRIGGER_EVENT_INTERVAL_CLOSE (R234). -/
def execTriggerEventIntervalClose (t unit : Nat) (s : State) : Host.Outcome State Fault Refusal :=
  happens t (fun s =>
    let x := s.tunit unit
    match x.evOpen with
    | none => s
    | some o =>
      let e := o + ticksPerUs
      if s.now < e then s
      else if x.evCount = 0 then s.setTunit unit { x with evOpen := none }
      else
        (s.setTunit unit { x with evOpen := some e, evCount := 0, evFlags := 0, evBin := 0 }).eventAt 0x0701 unit
          { tick := e } (x.evCount + 2 ^ 32 + 2 ^ 33 * x.evFlags + 2 ^ 36 * x.evBin)) s

/-! ## Commands -/

/-- Largest SOURCE of each kind (R213). -/
def trigSourceMax (kind : Nat) : Nat :=
  [3, 3, 3, 3, 3, 31, 31, 31, 0, 63, 15, 7, 255, 0, 63].getD kind 0

/-- TRIG.CONFIGURE (R228). DEDUCED, log entry 113. -/
def trigConfigure (c : Cmd) (s : State) : VerbOut :=
  let p := c.payload
  let u := u8 p 0
  let k := u8 p 1
  let src := u16 p 2
  let fl := u8 p 5
  let old := s.tunit u
  let hold := u64 p 28
  let limit := 2 ^ 48
  let x : TrigUnit := { old with
    mode := .configured, kind := k, source := src, source2 := u16 p 60, edge := u8 p 4, compat := fl.testBit 0,
    byCount := fl.testBit 1, exclude := fl.testBit 2, outside := fl.testBit 3, timeMin := u64 p 8,
    timeMax := u64 p 16, count := u32 p 24, holdoff := hold, bandFirst := u32 p 36, bandCount := u32 p 40,
    minBins := u32 p 44 }
  let band := k = 6 ∨ k = 7
  let seqOk (n : Nat) : Bool := n != u && (s.tunit n).mode != .unconfigured && (s.tunit n).kind != 14
  if u > 63 ∨ k > 14 ∨ src > trigSourceMax k ∨ u8 p 4 > (if [0, 1, 5, 6, 7].contains k then 2 else 1) ∨ fl > 15 ∨
      !zeros p 6 2 ∨ x.timeMin > limit ∨ x.timeMax > limit ∨ x.timeMax < x.timeMin ∨ x.count = 0 ∨
      x.count > 16777216 ∨
      (x.compat ∧ (if x.byCount then hold = 0 ∨ hold ≥ 2 ^ 32 else hold < 64 ∨ hold > limit)) ∨
      x.bandCount = 0 ∨ x.bandCount > 65536 ∨ x.minBins = 0 ∨ x.minBins > x.bandCount ∨
      (k = 14 ∧ x.source2 > 63) ∨ !zeros p 62 2 then .fail .badParam 0
  else if old.inService then .fail .badState 0
  else if (if k = 14 then !(seqOk src && seqOk x.source2) else !s.trigSourceOk k src) then .fail .badState 0
  else if band ∧ x.bandFirst + x.bandCount > (s.job src).bins then .fail .badParam 0
  else
    let o := trigOffset u
    let words : KMap Nat := [(o, u32 p 48), (o + 4, u32 p 52), (o + 8, u16 p 56), (o + 12, u16 p 58), (o + 16, old.bank)]
    let y := (x.loadLive words o).restart
    .done .ok 0 ((y.shadowWords o).foldl (fun s e => s.setShadow e.1 e.2) (s.setTunit u y))

/-- TRIG_CONFIGURE: `TRIG.CONFIGURE` (R228). -/
def execTrigConfigure (t fn tag : Nat) (s : State) : Host.Outcome State Fault Refusal :=
  verb t 0x0701 fn tag trigConfigure s

/-- TRIG.LOAD_MASK (R229); `host` is what the host memory system returns for the table. -/
def trigLoadMask (host : List Byte) (c : Cmd) (s : State) : VerbOut :=
  let p := c.payload
  let u := u8 p 0
  let b := u8 p 1
  let x := s.tunit u
  let n := u32 p 4
  let addr := u64 p 8
  let cellar := u8 p 2 == 1
  if u > 63 ∨ b > 1 ∨ u8 p 2 > 1 ∨ !zeros p 3 1 ∨ (if cellar then !s.inRegion addr (4 * n) else addr % 8 ≠ 0) then
    .fail .badParam 0
  else if (x.inService ∧ x.bank = b) ∨ x.mode = .unconfigured ∨ x.kind ≠ 7 then .fail .badState 0
  else if n ≠ x.bandCount then .fail .badParam 0
  else
    let key := u * 2 + b
    let total := s.trig.masks.foldl (fun k e => if e.1 = key then k else k + e.2.length) n
    let pts := (s.tableWords cellar addr n host).map fun w => (signed 16 w, signed 16 (w / 65536))
    if total > 2097152 then .fail .noResource 0
    else
      let s := s.hostLoad c addr (4 * n) cellar
      match pts.findIdx? fun m => decide (m.1 < m.2) with
      | some i => .done .badParam i s
      | none => .done .ok 0 { s with trig := { s.trig with masks := s.trig.masks.set key pts } }

/-- TRIG_LOAD_MASK: `TRIG.LOAD_MASK` (R229). -/
def execTrigLoadMask (t fn tag : Nat) (table : List Byte) (s : State) : Host.Outcome State Fault Refusal :=
  verb t 0x0702 fn tag (trigLoadMask table) s

/-- TRIG.ROUTE (R225, R230). -/
def trigRoute (c : Cmd) (s : State) : VerbOut :=
  let p := c.payload
  let u := u8 p 0
  let fl := u8 p 1
  let set := fl.testBit 2
  let ns := u32 p 8
  let x := s.tunit u
  let r : Route := {
    out := fl.testBit 0, vine := if fl.testBit 1 then some (u8 p 3) else none, stim := u8 p 2, comps := u16 p 4,
    sites := field p 16 32 }
  if u > 63 ∨ fl > 15 ∨ u8 p 2 > 3 ∨ u8 p 3 > 7 ∨ !zeros p 6 2 ∨ (set ∧ (ns < 4 ∨ 1000000 < ns)) ∨ !zeros p 12 4 then
    .fail .badParam 0
  else
    let s1 := if set then { s with trig := { s.trig with pulseNs := ns, outLow := fl.testBit 3 } } else s
    .done .ok 0 (s1.setTunit u (if x.inService && !x.waiting then { x with nextRoute := some r }
                                else { x with route := r, nextRoute := none }))

/-- TRIG_ROUTE: `TRIG.ROUTE` (R230). -/
def execTrigRoute (t fn tag : Nat) (s : State) : Host.Outcome State Fault Refusal :=
  verb t 0x0703 fn tag trigRoute s

/-- A unit becomes armed (R231). -/
def State.trigArmNow (s : State) (u mode target : Nat) (events : Bool) : State :=
  let x := s.tunit u
  s.setTunit u { x.restart with
    mode := .armed, armMode := mode, target, events, sched := none, armedAt := s.now, dead := none, heldOff := 0,
    decisions := 0, missed := 0, deadTicks := 0, route := x.nextRoute.getD x.route, nextRoute := none }

/-- What an armed unit declares (R231): 7.5 W for the first, 0.05 W for each further one. -/
def trigDecl (u : Nat) : Decl := { fam := 7, obj := u, group := 0, first := 7500000, each := 50000 }

/-- TRIG.ARM (R231). -/
def trigArm (c : Cmd) (s : State) : VerbOut :=
  let p := c.payload
  let u := u8 p 0
  let x := s.tunit u
  let w : Sched := { mode := u8 p 2, at_ := u64 p 8 }
  if u > 63 ∨ u8 p 1 > 2 ∨ u8 p 2 > 2 ∨ u8 p 3 > 1 ∨ (u8 p 1 = 2 ∧ u32 p 4 = 0) ∨ !zeros p 16 8 then .fail .badParam 0
  else if x.mode = .unconfigured then .fail .badState 0
  else if x.inService then .done .ok x.armedAt s
  else if (s.startTick w).isNone then .fail .badState 0
  else if s.tooSoon w then .fail .badParam 0
  else
    match s.declare [trigDecl u] with
    | .error short => .fail .noEnergy short
    | .ok s1 =>
      if w.mode = 0 then .done .ok s.now (s1.trigArmNow u (u8 p 1) (u32 p 4) (u8 p 3 == 1))
      else .running 0 [] (s1.setTunit u { x with sched := some (u8 p 1, u32 p 4, u8 p 3 == 1, w) })

/-- TRIG_ARM: `TRIG.ARM` (R231). -/
def execTrigArm (t fn tag : Nat) (s : State) : Host.Outcome State Fault Refusal :=
  verb t 0x0704 fn tag trigArm s

/-- TRIG_SCHEDULED_ARM (R231). -/
def execTrigScheduledArm (t unit : Nat) (s : State) : Host.Outcome State Fault Refusal :=
  happens t (fun s =>
    match (s.tunit unit).sched with
    | some (mode, target, events, w) =>
      if s.reached w then
        let s1 := s.trigArmNow unit mode target events
        s1.finishAll (s1.startedCmds 0x0704 fun c => u8 c.payload 0 == unit) .ok fun _ => s.now
      else s
    | none => s) s

/-- A unit leaves service (R232); one that waits for its pulse keeps its domain until then. -/
def State.trigQuiesce (s : State) (u : Nat) (mode : TrigMode) : State :=
  let x := s.tunit u
  let s1 := s.setTunit u { x.restart with mode := mode, dead := none, sched := none,
                                          route := x.nextRoute.getD x.route, nextRoute := none }
  if mode = .quiescing then s1 else s1.undeclare 7 u

/-- TRIG.DISARM (R232). -/
def trigDisarm (c : Cmd) (s : State) : VerbOut :=
  let p := c.payload
  let u := u8 p 0
  let x := s.tunit u
  if u > 63 ∨ u8 p 1 > 1 ∨ !zeros p 2 2 then .fail .badParam 0
  else
    match s.unitConsumer u 0 with
    | some w => .fail .badState (consumerWord w)
    | none =>
      let after : TrigMode := if (u8 p 1).testBit 0 || x.mode == .unconfigured then .unconfigured else .configured
      if s.trig.pulse.isSome ∧ s.trig.drivers = [u] then .running 0 [] (s.trigQuiesce u .quiescing)
      else .done .quiesced 0 (s.trigQuiesce u after)

/-- TRIG_DISARM: `TRIG.DISARM` (R232). -/
def execTrigDisarm (t fn tag : Nat) (s : State) : Host.Outcome State Fault Refusal :=
  verb t 0x0705 fn tag trigDisarm s

/-- TRIG.FORCE (R221, R233). -/
def trigForce (c : Cmd) (s : State) : VerbOut :=
  let u := u8 c.payload 0
  if u > 63 ∨ !zeros c.payload 1 3 then .fail .badParam 0
  else if !(s.tunit u).inService then .fail .badState 0
  else .running 0 [] s

/-- TRIG_FORCE: `TRIG.FORCE` (R221, R233). -/
def execTrigForce (t fn tag : Nat) (s : State) : Host.Outcome State Fault Refusal :=
  verb t 0x0706 fn tag trigForce s

/-- Code of a unit's state (R233). -/
def TrigMode.code : TrigMode → Nat
  | .unconfigured => 0 | .configured => 1 | .armed => 2 | .holdoff => 3 | .done => 4 | .quiescing => 5

/-- The 64 bytes of `TRIG.GET_STATUS` (R233). -/
def State.trigStatus (s : State) (u : Nat) : List Byte :=
  let x := s.tunit u
  pack [(1, u), (1, x.mode.code), (1, s.trig.voters),
    (1, bit x.pendingA.isSome + 2 * x.bank + 4 * bit s.trig.split + 8 * bit s.trig.ended), (4, x.progress),
    (8, x.decisions), (8, x.missed), (8, x.deadTicks),
    (16, stampNat { tick := x.last.at_ / 65536, fine := x.last.at_ % 65536 }), (4, unsign 32 x.levelA),
    (4, unsign 32 x.levelB), (4, x.hyst), (2, unsign 16 x.threshold), (2, 0)]

/-- TRIG.GET_STATUS (R233). -/
def trigGetStatus (c : Cmd) (s : State) : VerbOut :=
  let u := u8 c.payload 0
  if u > 63 ∨ !zeros c.payload 1 3 then .fail .badParam 0 else .data (s.trigStatus u) 0 s

/-- TRIG_GET_STATUS: `TRIG.GET_STATUS` (R233). -/
def execTrigGetStatus (t fn tag : Nat) (s : State) : Host.Outcome State Fault Refusal :=
  verb t 0x0707 fn tag trigGetStatus s

end Sys2Proof.Machine
end

