-- ==== Sys2Proof/Machine/Acq.lean ====
section
/-! DEFINITION. Acquisition contexts, segments, gaps, test masks and the ACQ family (R236 to R257). -/

namespace Sys2Proof.Machine

/-! ## Sources (R236, R248) -/

/-- Element size E of an acquisition source, in bytes; none where the source is not configured (R236, R252). -/
def State.acqElement (s : State) (kind src : Nat) : Option Nat :=
  let ddc := s.ddcs.get src {}
  let core := s.cores.get src {}
  if kind = 0 then some 2
  else if kind = 1 then
    (if ddc.configured then some (if ddc.format = 0 then 4 else if ddc.format = 1 then 6 else 8) else none)
  else if kind = 2 then
    (if s.press.jobs.has src then some (32 + (s.job src).bins * (s.job src).valueBytes) else none)
  else if kind = 3 then (if s.tiuConfigured src then some 16 else none)
  else if kind = 4 then
    (if (s.trace src).configured then some (64 + (s.trace src).bins * (s.trace src).pointBytes) else none)
  else core.kernel.map fun k => k.record

/-- The source's value format code (R243). -/
def State.acqFormat (s : State) (kind src : Nat) : Nat :=
  if kind = 1 then (s.ddcs.get src {}).format else if kind = 2 then (s.job src).format
  else if kind = 4 then (s.trace src).format else 0

/-- The source of a context is enabled (R253). -/
def State.acqSourceOn (s : State) (kind src : Nat) : Bool :=
  if kind = 0 then (s.inputs.get src {}).mode == .running
  else if kind = 1 then (s.ddcs.get src {}).running
  else if kind = 2 then s.press.jobs.has src && (s.job src).enabled
  else if kind = 3 then (s.tiu.get src {}).mode == .running
  else if kind = 4 then (s.trace src).enabled
  else (s.cores.get src {}).mode == .running

/-- Elements per second of a source, as a fraction (R248): for a kernel, the records of its port-0 blocks. -/
def State.acqRate (s : State) (kind src : Nat) : Nat × Nat :=
  let core := s.cores.get src {}
  let q : InPort := core.ports.get 0 {}
  let frames (j : Nat) : Nat := (s.job j).hop * s.pressTs (s.job j)
  if kind = 0 then (ticksPerSecond, 1)
  else if kind = 1 then (ticksPerSecond, (s.ddc src).ratio)
  else if kind = 2 then (ticksPerSecond, frames src)
  else if kind = 3 then (1000 * (s.tiu.get src {}).cfg.rate, 1)
  else if kind = 4 then (ticksPerSecond, frames (s.trace src).job * (s.trace src).integration)
  else if q.kind = 1 then (ticksPerSecond * core.outRecords, (s.ddc q.source).ratio * q.elements)
  else if q.kind = 2 then (ticksPerSecond * core.outRecords, frames q.source)
  else (0, 1)

/-- Context `n`. -/
def State.ctx (s : State) (n : Nat) : Ctx := s.ctxs.get n {}

/-- Replaces a context. -/
def State.setCtx (s : State) (n : Nat) (x : Ctx) : State := { s with ctxs := s.ctxs.set n x }

/-- Rounds up to a multiple of 64. -/
def up64 (n : Nat) : Nat := (n + 63) / 64 * 64

/-- SLOT (R244). -/
def Ctx.slot (x : Ctx) : Nat := up64 (64 + x.length * x.element)

/-- RING (R244). -/
def Ctx.ring (x : Ctx) : Nat := up64 (x.pre * x.element)

/-- Bytes that R244 or R245 requires. -/
def Ctx.needed (x : Ctx) : Nat :=
  if x.flow.isSome then x.ring + max (4 * x.slot) 1048576
  else x.ring + x.segments * x.slot + x.gapCapacity * 32

/-- Base of the gap list in Cellar (R244). -/
def Ctx.gapBase (x : Ctx) : Nat := x.region + x.ring + x.segments * x.slot

/-- States 1 to 4: the context is in a record. -/
def CtxMode.active : CtxMode → Bool
  | .filling | .armed | .capturing | .held => true
  | _ => false

/-- States 1 to 4 or 7: an armed context (R238). -/
def CtxMode.counts (m : CtxMode) : Bool := m.active || m == .quiescing

/-- Code of a state (R238). -/
def CtxMode.code : CtxMode → Nat
  | .created => 0 | .filling => 1 | .armed => 2 | .capturing => 3 | .held => 4 | .done => 5
  | .maskStopped => 6 | .quiescing => 7

/-! ## Events (R257) -/

/-- EV_SEGMENT_DONE for the segments completed since the last one. DESIGN CHOICE, log entry 91. -/
def State.segmentEvent (s : State) (n : Nat) : State :=
  let x := s.ctx n
  let st : Stamp := x.prevEnd.getD s.stampNow
  (s.setCtx n { x with segOpen := some s.now, segPending := 0, segFail := false }).eventAt 0x0801 n st
    ((x.index - 1) % 2 ^ 48 + 2 ^ 48 * min x.segPending 32767 + 2 ^ 63 * bit x.segFail)

/-- EV_RECORD_DONE with a reason; a pending EV_SEGMENT_DONE and, for a mask stop, EV_MASK_STOP come first. -/
def State.recordEvents (s : State) (n reason : Nat) : State :=
  let x := s.ctx n
  let st : Stamp := x.prevEnd.getD s.stampNow
  let s := if x.events && x.segPending != 0 then s.segmentEvent n else s
  let s := if reason = 2 then s.eventAt 0x0804 n st ((x.index - 1) % 2 ^ 48) else s
  s.eventAt 0x0802 n st (x.index % 2 ^ 48 + 2 ^ 48 * reason + 2 ^ 56 * bit (x.gapCount != 0))

/-- SEGMENT_EVENT_INTERVAL_CLOSE (R257). -/
def execSegmentEventIntervalClose (t context : Nat) (s : State) : Host.Outcome State Fault Refusal :=
  happens t (fun s =>
    let x := s.ctx context
    match x.segOpen with
    | none => s
    | some o =>
      if s.now < o + ticksPerUs then s
      else if x.segPending = 0 then s.setCtx context { x with segOpen := none }
      else
        let s1 := s.segmentEvent context
        s1.setCtx context { s1.ctx context with segOpen := some (o + ticksPerUs) }) s

/-- GAP_EVENT_INTERVAL_CLOSE (R257). -/
def execGapEventIntervalClose (t context : Nat) (s : State) : Host.Outcome State Fault Refusal :=
  happens t (fun s =>
    let x := s.ctx context
    match x.gapOpen with
    | none => s
    | some o =>
      let e := o + ticksPerUs
      if s.now < e then s
      else if x.gapPending = 0 then s.setCtx context { x with gapOpen := none }
      else
        (s.setCtx context { x with gapOpen := none, gapPending := 0 }).eventAt 0x0803 context { tick := e }
          (x.gapPending + 2 ^ 32 + 2 ^ 33 * x.gapCause)) s

/-! ## Gaps (R246) -/

/-- The 32 bytes of a gap entry. -/
def GapEntry.bytes (g : GapEntry) : List Byte :=
  pack [(8, g.segment), (8, g.start), (8, g.ticks), (4, g.first), (1, g.cause), (3, 0)]

/-- A gap is counted, listed in Cellar where the list has room, and raises EV_GAP (R246, R257); answers its place in the
list. -/
def State.noteGap (s : State) (n : Nat) (g : GapEntry) : State × Option Nat :=
  let x := s.ctx n
  let full := x.flow.isNone && decide (x.gapCapacity ≤ x.listed)
  let slot := if x.flow.isNone && !full then some x.listed else none
  let y := { x with
    gapCount := satAdd 64 x.gapCount 1, gapTicks := satAdd 64 x.gapTicks g.ticks, listFull := x.listFull || full,
    unlisted := if full then satAdd 64 x.unlisted 1 else x.unlisted, listed := if slot.isSome then x.listed + 1 else x.listed }
  let s := match slot with
    | some k => s.keepCellar (s.cellarMem.writeBytes (x.gapBase + k * 32) g.bytes)
    | none => s
  (if y.gapOpen.isSome then
    s.setCtx n { y with gapPending := satAdd 32 y.gapPending 1,
                        gapCause := if y.gapPending = 0 then g.cause else y.gapCause }
  else
    (s.setCtx n { y with gapOpen := some s.now, gapPending := 0 }).eventAt 0x0803 n { tick := g.start } (1 + 2 ^ 33 * g.cause),
   slot)

/-- A gap of the segment in capture is recorded (R246). -/
def State.addGap (s : State) (n : Nat) (g : GapEntry) : State :=
  let g := { g with segment := (s.ctx n).index }
  let r := s.noteGap n g
  r.1.setCtx n { r.1.ctx n with gaps := (r.1.ctx n).gaps ++ [{ g with slot := r.2 }] }

/-! ## Elements of a segment (R236, R239, R240) -/

/-- The grid of a source of samples: its origin and its period, in ticks; none for frames, records and results
(R236). -/
def State.acqGrid (s : State) (x : Ctx) : Option (Nat × Nat) :=
  if x.srcKind = 0 then some (0, 1)
  else if x.srcKind = 1 then some ((s.ddc x.source).origin, (s.ddc x.source).ratio)
  else none

/-- One element period of a source, 0 where it has none (R242). -/
def State.acqPeriod (s : State) (x : Ctx) : Nat :=
  match s.acqGrid x with
  | some g => g.2
  | none => if x.srcKind = 2 then s.framePeriod (s.job x.source) else 0

/-- Index of the first element of a grid at or after tick `t`. -/
def gridIndex (g : Nat × Nat) (t : Nat) : Nat := (t - g.1 + g.2 - 1) / g.2

/-- What the segment's trigger element, or its first, does not precede: a decision's stamp, or the tick of the start, in
1/65,536 tick (R239, R240). -/
def Ctx.startStamp (x : Ctx) : Nat :=
  match x.trigger with
  | some (_, d, _) => d.at_
  | none => x.begun * 65536

/-- Place of the trigger element in the stream: on the grid of the source, or among the elements that have reached the
context in this record. -/
def State.triggerIndex (s : State) (x : Ctx) : Option Nat :=
  match s.acqGrid x with
  | some g => some (gridIndex g ((x.startStamp + 65535) / 65536))
  | none => (x.recent.findIdx? fun e => decide (x.startStamp ≤ s.lift e.stamp.tick * 65536 + e.stamp.fine)).map (x.dropped + ·)

/-- Place of the segment's element 0 (R240). -/
def State.segmentFirst (s : State) (x : Ctx) : Option Nat :=
  match s.triggerIndex x with
  | some j => if x.pre ≤ j then some (j - x.pre) else none
  | none => none

/-- Element at place `i` of a grid has reached the context. -/
def State.elementThere (s : State) (x : Ctx) (g : Nat × Nat) (i : Nat) : Bool :=
  if x.srcKind = 0 then decide (g.1 + i * g.2 ≤ s.now) else (s.ddc x.source).produced i s.now

/-- Place of the segment's element 0, and its LENGTH: with TRUNCATE the number of elements it reached (R240, R250). -/
def State.segmentSpan (s : State) (x : Ctx) : Option (Nat × Nat) :=
  match x.cut with
  | some c => some c
  | none => (s.segmentFirst x).map fun i => (i, x.length)

/-- The elements of a segment, once all of them are there (R236, R240); `codes` are the converter's codes of the
samples that those of an input or a DDC depend on. -/
def State.segmentElements (s : State) (x : Ctx) (codes : List Int) : Option (List Element) :=
  match s.segmentSpan x, s.acqGrid x with
  | none, _ => none
  | some (i, n), none =>
    let els := (x.recent.drop (i - x.dropped)).take n
    if els.length = n ∧ x.dropped ≤ i then some els else none
  | some (i, n), some g =>
    let need := if x.srcKind = 0 then n else (s.ddc x.source).codesFor n
    if n = 0 then some []
    else if !s.elementThere x g (i + n - 1) || decide (codes.length < need) then none
    else some (if x.srcKind = 0 then (s.inputs.get x.source {}).elements i (codes.take n) else s.ddcElements x.source i n codes)

/-- Elements of the stream that are there: the place of the next one. -/
def State.nextPlace (s : State) (x : Ctx) : Nat :=
  match s.acqGrid x with
  | some _ => if x.srcKind = 0 then s.now + 1 else (s.ddc x.source).nextIndex s.now
  | none => x.dropped + x.recent.length

/-- Where a segment stands that TRUNCATE ends: element 0, and the elements it has reached, at most LENGTH (R250).
DESIGN CHOICE, log entry 44. -/
def State.cutHere (s : State) (x : Ctx) : Nat × Nat :=
  let next := s.nextPlace x
  let i := (s.segmentFirst x).getD (next - x.pre)
  (i, min x.length (next - i))

/-- The pre-trigger ring holds PRE elements taken since the fill began (R238, R241). -/
def State.ringThere (s : State) (x : Ctx) : Bool :=
  match s.acqGrid x with
  | some g => x.pre == 0 || s.elementThere x g (gridIndex g x.fillFrom + x.pre - 1)
  | none => decide (x.pre ≤ x.dropped + x.recent.length)

/-- FIRST_SETTLED (R243): the index after the last unsettled element. -/
def firstSettled (els : List Element) : Nat := els.length - (els.reverse.findIdx? Element.unsettled).getD els.length

/-- START_TICK and LENGTH_TICKS of a gap of `count` elements from place `k` of the stream on (R246). Of a source without
a grid of samples the length is known at the segment's end. -/
def State.gapSpan (s : State) (x : Ctx) (k count : Nat) : Nat × Nat :=
  match s.acqGrid x with
  | some g => (g.1 + k * g.2, count * g.2)
  | none => (((x.recent[k - x.dropped]?).map fun e => s.lift e.stamp.tick).getD s.now, 0)

/-- The part of a run of unstored elements that lies in the segment of `n` elements whose element 0 has place `first`, as
a gap of that segment (R246). -/
def State.gapIn (s : State) (x : Ctx) (first n : Nat) (g : GapEntry) : Option GapEntry :=
  let lo := max g.first first
  let hi := min (g.first + g.elements) (first + n)
  let v := s.gapSpan x lo (hi - lo)
  if hi ≤ lo then none else some { g with first := lo - first, elements := hi - lo, start := v.1, ticks := v.2 }

/-- The runs that a segment copies or begins in become gaps of it, and those that lie before it are forgotten (R246). -/
def State.ringGaps (s : State) (n : Nat) : State :=
  let x := s.ctx n
  let first := (s.segmentFirst x).getD (s.nextPlace x - x.pre)
  let s1 := s.setCtx n { x with ringGaps := x.ringGaps.filter fun g => decide (first < g.first + g.elements) }
  (x.ringGaps.filterMap (s.gapIn x first x.length)).foldl (fun s g => s.addGap n g) s1

/-- GAP_BEGIN (R246): a run of `count` elements that cannot enter the staging: counted from element 0 of the segment in
capture, or else in the stream. Of a source without a grid of samples the first of them is there. -/
def execGapBegin (t context cause element : Nat) (_start _ticks : Computed) (count : Nat) (s : State) :
    Host.Outcome State Fault Refusal :=
  happens t (fun s =>
    let x := s.ctx context
    let inSegment := (x.mode == .capturing || x.mode == .quiescing) && !x.rearming
    let first := (s.segmentFirst x).getD (s.nextPlace x - x.pre)
    let place := if inSegment then first + element else element
    let there := (s.acqGrid x).isSome || decide (x.dropped ≤ place ∧ place < s.nextPlace x)
    if !s.ctxs.has context || !(x.mode.active || inSegment) || (cause != 1 && cause != 2) || count = 0 || !there then s
    else
      let g : GapEntry := { first := place, cause, elements := count }
      let s1 := s.setCtx context { x with ringGaps := x.ringGaps ++ [g] }
      match (if inSegment then s.gapIn x first x.length g else none) with
      | some g => s1.addGap context g
      | none => s1) s

/-- LENGTH_TICKS of the gaps of a segment of a source without a grid of samples, now that its elements are there: up to
the next stored element, or to the end of the segment (R246). -/
def State.settleGaps (s : State) (n : Nat) (elements : List Element) (endTick : Nat) : State :=
  let x := s.ctx n
  if (s.acqGrid x).isSome then s
  else
    let gaps := x.gaps.map fun (g : GapEntry) =>
      let stop := ((elements[g.first + g.elements]?).map fun e => s.lift e.stamp.tick).getD endTick
      { g with ticks := stop - g.start }
    let mem := gaps.foldl (fun m (g : GapEntry) => match g.slot with
      | some k => m.writeBytes (x.gapBase + k * 32) g.bytes
      | none => m) s.cellarMem
    (s.keepCellar mem).setCtx n { x with gaps, gapTicks := gaps.foldl (fun k g => satAdd 64 k g.ticks) x.gapTicks }

/-! ## Test masks (R247) -/

/-- The delivered values of one element of a Press job: block exponent and value bytes. -/
def frameValues (width : Nat) (b : List Byte) : Int × List (List Byte) :=
  let body := b.drop 32
  (s8 b 2, records (body.length / width) width body)

/-- An element violates the mask (R247); `k` is its index in the segment. -/
def State.elementFails (s : State) (x : Ctx) (m : TestMask) (k : Nat) (b : List Byte) : Bool :=
  if m.kind = 1 then
    if k < m.first then false
    else
      match m.points[k - m.first]? with
      | none => false
      | some pt =>
        if x.srcKind = 0 then decide (pt.1 < sampleCode (u16 b 0)) || decide (sampleCode (u16 b 0) < pt.2)
        else
          let q := ddcSquare x.format (s.ddc x.source).gain b
          magAbove q pt.1 || magBelow q pt.2
  else
    let v := frameValues (s.job x.source).valueBytes b
    (List.zip (v.2.drop m.first) m.points).any fun e => violates e.2 (binLevel x.format v.1 e.1)

/-- An element lies in a gap. -/
def Ctx.unstored (x : Ctx) (k : Nat) : Bool :=
  x.gaps.any fun g => decide (g.first ≤ k ∧ k < g.first + g.elements)

/-- Runs of consecutive places from `k` on that hold: the first place and the length of each. -/
def runsFrom : Nat → List Bool → List (Nat × Nat)
  | _, [] => []
  | k, b :: bs =>
    match b, runsFrom (k + 1) bs with
    | false, rs => rs
    | true, [] => [(k, 1)]
    | true, (j, n) :: rs => if j = k + 1 then (k, n + 1) :: rs else (k, 1) :: (j, n) :: rs

/-- Runs of stored elements of a segment of `count` (R246). -/
def Ctx.storedRuns (x : Ctx) (count : Nat) : List (Nat × Nat) :=
  runsFrom 0 ((List.range count).map fun k => !x.unstored k)

/-- Where every stripe of Cellar lacks two blocks, a segment that would be stored there is discarded, and what of it lay in
no gap is a gap with cause 1 (R513 class 9). DESIGN CHOICE, log entry 65. -/
def State.lostGaps (s : State) (n : Nat) (elements : List Element) (endTick : Nat) : State :=
  let x := s.ctx n
  if x.flow.isSome || !s.cellarLost then s
  else
    let tickOf (k : Nat) : Nat := ((elements[k]?).map fun e => s.lift e.stamp.tick).getD endTick
    (x.storedRuns elements.length).foldl (fun s r =>
      s.addGap n { start := tickOf r.1, ticks := tickOf (r.1 + r.2) - tickOf r.1, first := r.1, cause := 1,
                   elements := r.2 }) s

/-- The runs of stored samples of a segment, each with the gaps that begin at or after element `since` and before it;
`place` is the place of its first sample among those stored. -/
def Ctx.unitRuns (x : Ctx) (elements : List Element) : Nat → Nat → List (Nat × Nat) → List UnitRun
  | _, _, [] => []
  | place, since, r :: rs =>
    let gaps := x.gaps.filter fun g => decide (since ≤ g.first ∧ g.first < r.1)
    { place, stamp := ((elements[r.1]?).map Element.stamp).getD {}, gaps := gaps.length,
      ticks := gaps.foldl (fun k (g : GapEntry) => k + g.ticks) 0 } :: x.unitRuns elements (place + r.2) (r.1 + r.2) rs

/-! ## Segments (R240 to R246) -/

/-- Writes the stored elements of a segment from address `a`. -/
def writeElements (x : Ctx) (mem : Memory) (a : Nat) : Nat → List (List Byte) → Memory
  | _, [] => mem
  | k, e :: es =>
    writeElements x (if x.unstored k then mem else mem.writeBytes (a + k * x.element) e) a (k + 1) es

/-- The 64-byte segment header (R243). -/
def Ctx.header (x : Ctx) (n : Nat) (first : Stamp) (overlap : Bool) (elements settled : Nat)
    (ovr unsettled fail dead : Nat) : List Byte :=
  let trig := x.trigger
  let st := match trig with
    | some (_, d, _) => ({ tick := d.at_ / 65536, fine := d.at_ % 65536 } : Stamp)
    | none => first
  let flags := fail + 2 * ovr + 4 * unsettled + 8 * bit x.prov + 16 * bit overlap +
    32 * bit (decide (elements < x.length)) + 64 * bit (trig.any fun e => e.2.2) + 128 * bit trig.isNone +
    256 * bit x.listFull
  pack [(8, x.index), (16, stampNat st), (8, dead), (8, elements), (8, x.pre), (8, settled), (2, flags), (2, n),
    (1, match trig with | some e => e.1 | none => 0xFF), (1, x.srcKind + 16 * x.format),
    (2, min x.gaps.length 65535)]

/-- What a stop of context `n` still has to do once it is quiescent: complete the stops, and free the context
for a destroy (R254). -/
def State.acqStopped (s : State) (n : Nat) : State :=
  let mine (c : Cmd) : Bool := u16 c.payload 0 == n
  let done := (s.ctx n).index
  let stops := s.startedCmds 0x0803 mine
  let kills := s.startedCmds 0x0804 mine
  let s := (s.setCtx n { s.ctx n with mode := .done, cut := none, drainSince := none, hold := false }).release (actKey kindContext n)
  let s := if kills.isEmpty then s else { s with ctxs := s.ctxs.del n }
  (s.finishAll stops .quiesced fun _ => done).finishAll kills .quiesced fun _ => done

/-- The record of context `n` ends in `mode` with an event reason (R242, R247, R257). DESIGN CHOICE, log entry 45. -/
def State.recordEnd (s : State) (n reason : Nat) (mode : CtxMode) : State :=
  let s := (s.recordEvents n reason).undeclare 8 n
  s.setCtx n { s.ctx n with mode, segPending := 0, pending := none, trigger := none, rearming := false }

/-- Commands that arm context `n` complete with a tick (R253). -/
def State.finishArm (s : State) (n tick : Nat) : State :=
  s.finishAll (s.startedCmds 0x0802 fun c => u16 c.payload 0 == n) .ok fun _ => tick

/-- The tick of element 0 of the first segment of a CONTIGUOUS record, once it is there (R253). -/
def State.elementZero (s : State) (x : Ctx) : Option Nat :=
  if x.start ≠ 2 ∨ x.mode ≠ .capturing ∨ x.index ≠ 0 then none
  else
    match s.segmentFirst x, s.acqGrid x with
    | some i, some g => if s.elementThere x g i then some (g.1 + i * g.2) else none
    | some i, none => (x.recent[i - x.dropped]?).map fun e => s.lift e.stamp.tick
    | none, _ => none

/-- Element 0 of a CONTIGUOUS record has been captured: the arm completes with its tick (R253). -/
def State.contiguousArm (s : State) (n : Nat) : State :=
  match s.elementZero (s.ctx n) with
  | some k => (s.setCtx n { s.ctx n with armedAt := k }).finishArm n k
  | none => s

/-- The last elements of a segment as they stand in the pre-trigger ring of a source with a grid of samples (R241).
DESIGN CHOICE, log entry 44. -/
def State.ringAfter (s : State) (x : Ctx) (first : Nat) (els : List Element) (mem : Memory) : Memory :=
  match s.acqGrid x with
  | some g =>
    let base := gridIndex g x.fillFrom
    let skip := els.length - x.pre
    (List.zip (span (first + skip) (els.length - skip)) (els.drop skip)).foldl
      (fun m e => if (x.ringGaps.any fun q => decide (q.first ≤ e.1 ∧ e.1 < q.first + q.elements)) then m
        else m.writeBytes (x.region + (e.1 - base) % x.pre * x.element) e.2.bytes) mem
  | none => mem

/-- A segment of `elements`, of which element 0 has place `place` in the stream, is stored: its header, its elements and
its gap entries in Cellar or handed to the flow, and its elements in the ring. Answers the state, the context with the
segment counted, and whether the test mask fails it (R242 to R247). DESIGN CHOICE, log entry 44. -/
def State.segmentStore (s : State) (n place : Nat) (elements : List Element) : State × Ctx × Bool :=
  let x := s.ctx n
  let count := elements.length
  let els := elements.map Element.bytes
  let first := (elements.head?.map Element.stamp).getD {}
  let last := (elements.getLast?.map Element.stamp).getD { tick := x.startStamp / 65536, fine := x.startStamp % 65536 }
  let endStamp : Stamp := { last with tick := s.lift last.tick + s.acqPeriod x }
  let s := (s.settleGaps n elements endStamp.tick).lostGaps n elements endStamp.tick
  let x := s.ctx n
  let kept := ((List.zip (List.range count) elements).filter fun e => !x.unstored e.1).map Prod.snd
  let ovr := kept.any Element.ovr || x.trigger.any fun e => e.2.1.ovr
  let unsettled := kept.any Element.unsettled || x.trigger.any fun e => e.2.1.unsettled
  let overlap := x.pre != 0 && x.trigger.isSome && x.prevNext.any fun e => decide (place < e)
  let start : Stamp := match x.trigger with
    | some (_, d, _) => { tick := d.at_ / 65536, fine := d.at_ % 65536 }
    | none => first
  let gone := min (place + count - x.pre - x.dropped) x.recent.length
  let x : Ctx := { x with prov := s.provisionalAt start.tick, recent := x.recent.drop gone, dropped := x.dropped + gone }
  let fail := match x.test with
    | some m => (List.zip (List.range count) els).any fun e => !x.unstored e.1 && s.elementFails x m e.1 e.2
    | none => false
  let dead := if x.start = 2 && x.wasHeld then x.prevEnd.elim 0 fun e => s.lift first.tick - e.tick else x.dead
  let settled := min (firstSettled elements) count
  let head := x.header n first overlap count settled (bit ovr) (bit unsettled) (bit fail) dead
  let s1 := match x.flow with
    | some f => s.handToFlow f {
        format := if x.srcKind = 0 then 1 else if x.srcKind = 2 then 4 else 2,
        bytes := kept.flatMap Element.bytes ++ head ++ x.gaps.flatMap GapEntry.bytes, trailer := 64 + 32 * x.gaps.length,
        closes := true, stamp := first, flags := bit unsettled + 2 * bit ovr + 4 * bit x.prov, settled,
        spanTicks := endStamp.tick - s.lift first.tick, width := x.element,
        marks := kept.map fun (e : Element) => bit e.unsettled + 2 * bit e.ovr,
        runs := if x.srcKind = 0 then x.unitRuns elements 0 0 (x.storedRuns count) else [],
        gaps := x.gaps.length, gapTicks := x.gaps.foldl (fun k (g : GapEntry) => k + g.ticks) 0 }
    | none =>
      let base := x.region + x.ring + x.index % x.segments * x.slot
      s.keepCellar ((writeElements x s.cellarMem (base + 64) 0 els).writeBytes base head)
  (s1.keepCellar (s1.ringAfter x place elements s1.cellarMem),
   { x with
     index := x.index + 1, prevEnd := some endStamp, prevNext := some (place + count), gaps := [], listFull := false,
     trigger := none, deadSum := satAdd 64 x.deadSum dead, dead := 0, wasHeld := false, lastTrigger := start,
     maskFails := satAdd 64 x.maskFails (bit fail), segPending := x.segPending + 1, segFail := x.segFail || fail },
   fail)

/-- SEGMENT_END (R242 to R247, R250): the segment is stored, its mask result applies, and the record may end. `codes` are
the converter's codes of the samples that its elements depend on. DESIGN CHOICE, log entry 44. -/
def execSegmentEnd (t context : Nat) (_count _first _endTick _settled _flags : Computed) (codes : List Int)
    (s : State) : Host.Outcome State Fault Refusal :=
  happens t (fun s =>
    let x := s.ctx context
    let inSegment := s.ctxs.has context && (x.mode == .capturing || x.mode == .quiescing) && !x.rearming
    match (if inSegment then s.segmentElements x codes else none) with
    | none => s
    | some elements =>
      let r := (s.contiguousArm context).segmentStore context (((s.segmentSpan x).map Prod.fst).getD 0) elements
      let y := r.2.1
      let s2 := r.1.setCtx context y
      if y.mode = .quiescing then
        (if y.flow.isSome then r.1.setCtx context { y with rearming := true, drainSince := some s.now }
         else (s2.recordEnd context 3 .quiescing).acqStopped context)
      else if r.2.2 && y.stopOnViolation then
        (r.1.setCtx context { y with maskStop := some (y.index - 1) }).recordEnd context 2 .maskStopped
      else if !y.wrap && decide (y.segments ≤ y.index) then s2.recordEnd context 1 .done
      else
        let s3 := r.1.setCtx context { y with rearming := true }
        if y.events && y.segOpen.isNone then s3.segmentEvent context else s3) s

/-- SEGMENT_TRIGGER (R240): the decision that reached the ARMED context starts a segment. -/
def execSegmentTrigger (t context : Nat) (s : State) : Host.Outcome State Fault Refusal :=
  happens t (fun s =>
    let x := s.ctx context
    if x.mode = .armed && x.pending.isSome then
      (s.setCtx context { x with mode := .capturing, trigger := x.pending, pending := none }).ringGaps context
    else s) s

/-- The staging of a quiescing flow context has drained into the flow: the record ends and the context is quiescent
(R250). -/
def State.acqDrained (s : State) (n : Nat) : State :=
  if (s.ctx n).mode = .quiescing ∧ (s.ctx n).drainSince.isSome then (s.recordEnd n 3 .quiescing).acqStopped n else s

/-- Flow `f` has accepted all that its producer offered: a context that waits for that is quiescent (R250). -/
def State.flowAccepted (s : State) (f : Nat) : State :=
  ((s.ctxs.filter fun e => e.2.flow == some f).map Prod.fst).foldl (fun s n => s.acqDrained n) s

/-- A segment of which the flow has accepted no element: its header with one gap more and no flag of a stored element, and
its gap entries (R243, R250). -/
def FlowUnit.unaccepted (u : FlowUnit) (g : GapEntry) : FlowUnit :=
  let head := (u.bytes.drop (u.bytes.length - u.trailer)).take 64
  let flags := u16 head 56 &&& 0xFFF9
  { u with
    bytes := head.take 56 ++ leBytes 2 flags ++ (head.drop 58).take 4 ++ leBytes 2 (min 65535 (u16 head 62 + 1)) ++
      u.bytes.drop (u.bytes.length - u.trailer + 64) ++ g.bytes
    trailer := u.trailer + 32, flags := u.flags &&& 4, marks := [], runs := [], settled := 0, gaps := u.gaps + 1,
    gapTicks := u.gapTicks + g.ticks }

/-- 100 µs in ticks (R250). -/
def drainTicks : Nat := 2560000

/-- STAGING_DRAIN_TIMEOUT (R250): 100 µs after the end of the segment, what a quiescing flow context's flow has not
accepted is a gap with cause 3, and the context is quiescent. DESIGN CHOICE, log entry 44. -/
def execStagingDrainTimeout (t context : Nat) (_element _start _ticks _count : Computed) (s : State) :
    Host.Outcome State Fault Refusal :=
  happens t (fun s =>
    let x := s.ctx context
    match x.flow, x.drainSince with
    | some f, some a =>
      if x.mode = .quiescing ∧ a + drainTicks ≤ s.now then
        let s1 := (s.offered.get f []).foldl (fun (r : State × List FlowUnit) (u : FlowUnit) =>
          let head := (u.bytes.drop (u.bytes.length - u.trailer)).take 64
          let g : GapEntry := { segment := u64 head 0, start := r.1.lift u.stamp.tick, ticks := u.spanTicks, cause := 3,
                                elements := u64 head 32 }
          ((r.1.noteGap context g).1, r.2 ++ [u.unaccepted g])) (s, [])
        ({ s1.1 with offered := if s1.2.isEmpty then s1.1.offered else s1.1.offered.set f s1.2 } : State).acqDrained context
      else s
    | _, _ => s) s

/-- RING_FILLED (R238, R251). -/
def execRingFilled (t context : Nat) (s : State) : Host.Outcome State Fault Refusal :=
  happens t (fun s =>
    let x := s.ctx context
    if !s.ringThere x then s
    else if x.mode = .filling then
      (s.setCtx context { x with mode := .armed, ringFull := true, armedAt := s.now }).finishArm context s.now
    else if x.mode = .held then s.setCtx context { x with ringFull := true }
    else s) s

/-- CONTEXT_REARM (R239, R242, R251): after a segment or a gate hold; FREE_RUN and CONTIGUOUS contexts start
their next segment. DESIGN CHOICE, log entry 45. -/
def execContextRearm (t context : Nat) (s : State) : Host.Outcome State Fault Refusal :=
  happens t (fun s =>
    let x := s.ctx context
    let due := (x.mode == .capturing && x.rearming) || (x.mode == .held && !x.hold) ||
      (x.mode == .armed && x.start != 0 && !x.hold)
    if !s.ctxs.has context || !due then s.contiguousArm context
    else if x.hold then s.setCtx context { x with mode := .held, rearming := false, wasHeld := true }
    else
      let dead := if x.start = 2 then 0 else x.prevEnd.elim 0 fun e => s.now - e.tick
      let y := { x with rearming := false, dead, pending := none,
                        begun := if x.start = 2 && !x.wasHeld then (x.prevEnd.map Stamp.tick).getD s.now else s.now }
      if x.start ≠ 0 then
        let s1 := (s.setCtx context { y with mode := .capturing, trigger := none, ringFull := true }).ringGaps context
        if x.start = 2 then s1.contiguousArm context else s1.finishArm context s.now
      else if x.ringFull then
        (s.setCtx context { y with mode := .armed, armedAt := if x.prevEnd.isNone then s.now else x.armedAt }).finishArm
          context s.now
      else s.setCtx context { y with mode := .filling }) s

/-- CONTEXT_STATE_REBUILD (R249, R515). -/
def execContextStateRebuild (t context : Nat) (s : State) : Host.Outcome State Fault Refusal :=
  happens t (fun s => s.faultWord context) s

/-- A context can take an occurrence of group 23 now: not while it captures, or is about to for a decision that reached it
(R84, R240, R251). -/
def State.acqCanTake (s : State) (n : Nat) : Bool :=
  ((s.ctx n).mode != .capturing || (s.ctx n).rearming) && (s.ctx n).pending.isNone

/-- Context `n` takes its HOLD bit (R251). -/
def State.acqTake (s : State) (n : Nat) (words : KMap Nat) : State :=
  let x := s.ctx n
  let hold := (words.get (0x5000 + n / 32 * 4) 0).testBit (n % 32)
  if !s.ctxs.has n || x.mode == .quiescing then s
  else
    let now := hold && (x.mode == .armed || x.mode == .filling)
    s.setCtx n { x with hold, mode := if now then .held else x.mode, wasHeld := x.wasHeld || now }

/-! ## Commands -/

/-- ACQ.CREATE_CONTEXT (R252). -/
def acqCreateContext (c : Cmd) (s : State) : VerbOut :=
  let p := c.payload
  let asked := u16 p 0
  let n := if asked = 0xFFFF then
      (lowestFree (fun n => s.ctxs.has n || s.namedEarlier c (.context n)) 4096 0).getD 4096
    else asked
  let kind := u8 p 2
  let src := u16 p 4
  let dest := u8 p 6
  let fl := u8 p 7
  let flow := u32 p 36
  let x : Ctx := {
    srcKind := kind, source := src, start := u8 p 3, flow := if dest = 1 then some flow else none,
    wrap := fl.testBit 0, stopOnViolation := fl.testBit 1, mask := u64 p 8, length := u64 p 16, pre := u64 p 24,
    segments := u32 p 32, region := u64 p 40, regionBytes := u64 p 48, gapCapacity := u32 p 56,
    percent := if u8 p 60 = 0 then 100 else u8 p 60, events := u8 p 61 == 1, format := s.acqFormat kind src }
  let srcMax := [3, 31, 31, 63, 63, 63].getD kind 0
  if (asked > 4095 ∧ asked ≠ 0xFFFF) ∨ kind > 5 ∨ x.start > 2 ∨ src > srcMax ∨ dest > 1 ∨ fl > 3 ∨
      (if x.start = 0 then x.mask = 0 else x.mask ≠ 0) ∨ x.length < 64 ∨ x.length > 4294967296 ∨ x.pre > x.length ∨
      (x.start ≠ 0 ∧ x.pre ≠ 0) ∨ x.segments = 0 ∨ x.segments > 1048576 ∨
      (if dest = 1 then flow > 49151 ∨ x.wrap ∨ x.gapCapacity ≠ 0 else flow ≠ 0xFFFFFFFF) ∨ x.region % 4096 ≠ 0 ∨
      x.gapCapacity > 65536 ∨ u8 p 60 > 100 ∨ u8 p 61 > 1 ∨ !zeros p 62 2 then .fail .badParam 0
  else if asked ≠ 0xFFFF ∧ s.ctxs.has n then .fail .badState 0
  else if n ≥ 4096 then .fail .noResource 0
  else
    match s.acqElement kind src with
    | none => .fail .badState 0
    | some e =>
      let x := { x with element := e }
      if !s.inRegion x.region x.regionBytes ∨ x.flow.any (fun f => !s.flowExists f) then .fail .badParam 0
      else if x.flow.any fun f => s.flowTakenBy f n then .fail .badState 0
      else if x.regionBytes < x.needed then .fail .noResource x.needed
      else
        let o := 0x5000 + n / 32 * 4
        let w := s.fcw.shadow.get o 0
        .done .ok (n + 2 ^ 16 * x.needed)
          ((s.setCtx n x).setShadow o (if w.testBit (n % 32) then w - 2 ^ (n % 32) else w))

/-- ACQ_CREATE_CONTEXT: `ACQ.CREATE_CONTEXT` (R252). -/
def execAcqCreateContext (t fn tag : Nat) (s : State) : Host.Outcome State Fault Refusal :=
  verb t 0x0801 fn tag acqCreateContext s

/-- The allotments a context asks for (R248). -/
def State.acqDemand (s : State) (x : Ctx) : KMap Nat :=
  let q := s.acqRate x.srcKind x.source
  let r := (q.1 * x.element + q.2 - 1) / q.2
  let write := (r * 4 + 2) / 3 * (if x.pre = 0 then 1 else 2)
  let read := r * x.pre / x.length + (if x.flow.isSome then r else 0)
  let part (v : Nat) : Nat := (v * x.percent + 99) / 100
  let flow := match x.flow with
    | some f => (s.flowDemand f r).map fun e => (e.1, part e.2)
    | none => []
  addDemand [(0, part (write + read))] flow

/-- A new record of context `n` starts (R253). DESIGN CHOICE, log entry 44. -/
def State.acqStartRecord (s : State) (n : Nat) : State :=
  let x := s.ctx n
  s.setCtx n { x with
    mode := if x.hold then .held else if x.pre = 0 then .armed else .filling
    fillFrom := s.now, begun := s.now, recent := [], dropped := 0, ringGaps := [], ringFull := x.pre == 0, wasHeld := x.hold, sched := none, armedAt := s.now, pending := none, trigger := none,
    rearming := false, prevEnd := none, prevNext := none, dead := 0, index := 0, cut := none, drainSince := none, gaps := [], listed := 0,
    listFull := false, missed := 0, deadSum := 0, gapCount := 0, gapTicks := 0, unlisted := 0, maskFails := 0,
    lastTrigger := {}, maskStop := none, segPending := 0, segFail := false }

/-- The start of the record completes the arm at once where the context is ARMED and not CONTIGUOUS. -/
def State.armedNow (s : State) (n : Nat) : Bool := (s.ctx n).mode == .armed && (s.ctx n).start != 2

/-- What an armed context declares (R249). -/
def acqDecl (n : Nat) : Decl := { fam := 8, obj := n, group := n / 2048, first := 3000000, each := 2000 }

/-- Domain PD_ACQ_k is on: one of contexts 2,048k to 2,048k + 2,047 is armed, and so declares its power (R249). -/
def State.pdAcq (s : State) (k : Nat) : Bool := s.domainOn 8 k

/-- What an arm takes: the declared energy and the allotments, or the status and RESULT word of its refusal (R248, R249,
R253). -/
def State.acqAdmit (s : State) (n : Nat) : Except (Status × Nat) State :=
  match s.declare [acqDecl n] with
  | .error short => .error (.noEnergy, short)
  | .ok s1 =>
    match s1.allot (actKey kindContext n) (s.acqDemand (s.ctx n)) with
    | none => .error (.noAllotment, 0)
    | some s2 => .ok s2

/-- ACQ.ARM (R253). One with a time asks at once and again at that time: until then the context is CREATED and holds
nothing (R238). -/
def acqArm (c : Cmd) (s : State) : VerbOut :=
  let p := c.payload
  let n := u16 p 0
  let x := s.ctx n
  let w : Sched := { mode := u8 p 2, at_ := u64 p 8 }
  if n > 4095 ∨ w.mode > 2 ∨ !zeros p 3 5 then .fail .badParam 0
  else if !s.ctxs.has n then .fail .badState 0
  else if x.mode.active then .done .ok x.armedAt s
  else if !s.acqSourceOn x.srcKind x.source ∨ (maskBits 64 x.mask).any (fun u => (s.tunit u).mode == .unconfigured) ∨
      (s.startTick w).isNone then .fail .badState 0
  else if s.tooSoon w then .fail .badParam 0
  else
    match s.acqAdmit n with
    | .error e => .fail e.1 e.2
    | .ok s2 =>
      if w.mode = 0 then
        let s3 := s2.acqStartRecord n
        if s3.armedNow n then .done .ok s.now s3 else .running 0 [] s3
      else .running 0 [] (s.setCtx n { x with sched := some w })

/-- ACQ_ARM: `ACQ.ARM` (R253). -/
def execAcqArm (t fn tag : Nat) (s : State) : Host.Outcome State Fault Refusal :=
  verb t 0x0802 fn tag acqArm s

/-- ACQ_SCHEDULED_ARM (R253). -/
def execAcqScheduledArm (t context : Nat) (s : State) : Host.Outcome State Fault Refusal :=
  happens t (fun s =>
    match (s.ctx context).sched with
    | some w =>
      if s.reached w then
        match s.acqAdmit context with
        | .error e =>
          (s.setCtx context { s.ctx context with sched := none }).finishAll
            (s.startedCmds 0x0802 fun c => u16 c.payload 0 == context) e.1 fun _ => e.2
        | .ok s0 =>
          let s1 := s0.acqStartRecord context
          if s1.armedNow context then s1.finishArm context s.now else s1
      else s
    | none => s) s

/-- Context `n` runs R73: a segment in capture goes on to its end (R250); answers whether it is quiescent
already. -/
def State.acqQuiesce (s : State) (n : Nat) (truncate : Bool) : State × Bool :=
  let x := s.ctx n
  if x.mode = .capturing && !x.rearming then
    (s.setCtx n { x with mode := .quiescing, cut := if truncate then some (s.cutHere x) else none }, false)
  else if x.mode = .quiescing then (s, false)
  else if x.mode.active && x.flow.any (fun f => s.flowQueue f != 0) then
    (s.setCtx n { x with mode := .quiescing, rearming := true, pending := none, trigger := none, drainSince := some s.now },
     false)
  else if x.mode.active then (s.recordEnd n 3 .done, true)
  else (s.setCtx n { x with sched := none }, true)

/-- ACQ.STOP and ACQ.DESTROY (R250, R254). -/
def acqStop (destroy : Bool) (c : Cmd) (s : State) : VerbOut :=
  let p := c.payload
  let n := u16 p 0
  if n > 4095 ∨ u8 p 2 > 1 ∨ !zeros p 3 1 then .fail .badParam 0
  else if !s.ctxs.has n then .fail .badState 0
  else
    let r := s.acqQuiesce n (u8 p 2 == 1)
    if r.2 then
      let s1 := (r.1.undeclare 8 n).release (actKey kindContext n)
      .done .quiesced (s1.ctx n).index (if destroy then { s1 with ctxs := s1.ctxs.del n } else s1)
    else .running 0 [] r.1

/-- ACQ_STOP: `ACQ.STOP` (R254). -/
def execAcqStop (t fn tag : Nat) (s : State) : Host.Outcome State Fault Refusal :=
  verb t 0x0803 fn tag (acqStop false) s

/-- ACQ_DESTROY: `ACQ.DESTROY` (R254). -/
def execAcqDestroy (t fn tag : Nat) (s : State) : Host.Outcome State Fault Refusal :=
  verb t 0x0804 fn tag (acqStop true) s

/-- ACQ.LOAD_TEST_MASK (R255). -/
def acqLoadTestMask (host : List Byte) (c : Cmd) (s : State) : VerbOut :=
  let p := c.payload
  let n := u16 p 0
  let kind := u8 p 2
  let x := s.ctx n
  let k := u32 p 4
  let first := u32 p 8
  let addr := u64 p 16
  let cellar := u8 p 3 == 1
  let size := if kind = 1 then 8 else 4
  if n > 4095 ∨ kind > 2 ∨ (kind ≠ 0 ∧ (u8 p 3 > 1 ∨ k = 0 ∨ k > 65536 ∨
      (if cellar then !s.inRegion addr (size * k) else addr % 8 ≠ 0))) ∨ !zeros p 12 4 then .fail .badParam 0
  else if !s.ctxs.has n ∨ x.mode.active then .fail .badState 0
  else if kind = 0 then .done .ok 0 (s.setCtx n { x with test := none })
  else if (if kind = 1 then x.srcKind > 1 else x.srcKind ≠ 2) then .fail .badState 0
  else if first + k > (if kind = 1 then x.length else (s.job x.source).bins) then .fail .badParam 0
  else
    let bytes := if cellar then s.cellarMem.readBytes addr (size * k) else host
    let pts := (records k size bytes).map fun b =>
      if kind = 1 then (s32 b 0, s32 b 4) else (s16 b 0, s16 b 2)
    let total := s.ctxs.foldl (fun m e => if e.1 = n then m else m + (e.2.test.elim 0 fun t => t.points.length)) k
    let s := s.hostLoad c addr (size * k) cellar
    match pts.findIdx? fun m => decide (m.1 < m.2) with
    | some i => .done .badParam i s
    | none =>
      if total > 1048576 then .done .noResource 0 s
      else .done .ok 0 (s.setCtx n { x with test := some { kind, first, points := pts } })

/-- ACQ_LOAD_TEST_MASK: `ACQ.LOAD_TEST_MASK` (R255). -/
def execAcqLoadTestMask (t fn tag : Nat) (table : List Byte) (s : State) : Host.Outcome State Fault Refusal :=
  verb t 0x0805 fn tag (acqLoadTestMask table) s

/-- The 96 bytes of `ACQ.GET_STATUS` (R256). -/
def State.acqStatus (s : State) (n : Nat) : List Byte :=
  let x := s.ctx n
  pack [(2, n), (1, x.mode.code),
    (1, bit x.hold + 2 * bit (x.unlisted != 0) + 4 * bit (x.flow.isNone && decide (x.segments < x.index))),
    (4, x.element), (8, x.index), (8, x.missed), (8, x.deadSum), (8, x.gapCount), (8, x.gapTicks), (8, x.unlisted),
    (8, x.maskFails), (16, stampNat x.lastTrigger), (8, x.needed), (8, x.maskStop.getD (2 ^ 64 - 1))]

/-- ACQ.GET_STATUS (R256). -/
def acqGetStatus (c : Cmd) (s : State) : VerbOut :=
  let n := u16 c.payload 0
  if n > 4095 ∨ !zeros c.payload 2 2 then .fail .badParam 0
  else if !s.ctxs.has n then .fail .badState 0
  else .data (s.acqStatus n) 0 s

/-- ACQ_GET_STATUS: `ACQ.GET_STATUS` (R256). -/
def execAcqGetStatus (t fn tag : Nat) (s : State) : Host.Outcome State Fault Refusal :=
  verb t 0x0806 fn tag acqGetStatus s

end Sys2Proof.Machine
end

