-- ==== Sys2Proof/Machine/Player.lean ====
section
/-! DEFINITION. The segment player shared by pattern sites and stimulus outputs: requests, decision points and
boundaries (R290 to R296, R303, R345 to R349). -/

namespace Sys2Proof.Machine

/-- The JUMP_COND bit of a cause of R314 (R294). -/
def causeBit (cause : Nat) : Nat :=
  if cause < 64 then 1 else if cause ≤ 65 then 0 else if cause = 66 then 2 else if cause = 67 then 3 else 4

/-- Place of a cause in the order of precedence of R17 and R296. -/
def causeRank (cause : Nat) : Nat :=
  if cause < 64 then cause else if cause = 66 ∨ cause = 67 then 64 else if cause = 68 then 65
  else if cause = 64 then 66 else 67

/-- A further iteration of the segment remains (R295). -/
def Player.remains (p : Player) (g : Segment) : Bool := g.rep == 0 || decide (p.iter + 1 < g.rep)

/-- The player leaves its segment at the coming boundary. -/
def Player.leaving (p : Player) : Bool := p.chosen.isSome && p.chosen != some .again

/-- The request that is recognised at index `v` of segment `g` now (R294, R295). DESIGN CHOICE, log entry 50. -/
def Player.request (p : Player) (g : Segment) (cause : Nat) (target : Option Nat) (v : Nat) : JumpReq :=
  let late := decide (g.length < v + p.horizon) || p.chosen.isSome
  let iter := if p.leaving then none else if !late then some p.iter
    else if p.remains g then some (p.iter + 1) else none
  { cause, target, index := v, place := p.base + v, deferred := late, iter }

/-- Counts discarded requests. -/
def Player.drop (p : Player) (n : Nat) : Player := { p with discarded := satAdd 32 p.discarded n }

/-- A jump request is recognised at index `v` (R294 to R296). Of two requests at one vector for one decision point the
one of lower rank wins, be they carried or not (R17). DESIGN CHOICE, log entry 50. -/
def Player.ask (p : Player) (g : Segment) (cause : Nat) (target : Option Nat) (v : Nat) : Player :=
  let r := p.request g cause target v
  if r.iter.isSome && !g.cond.testBit (causeBit cause) then p.drop 1
  else if p.stop.isSome then p.drop 1
  else
    match p.jump with
    | none => { p with jump := some r }
    | some q =>
      let wins := q.place == r.place && q.iter == r.iter && decide (causeRank cause < causeRank q.cause)
      let kept := if wins then { r with superseded := q.superseded + 1 }
        else { q with superseded := q.superseded + 1 }
      { p with jump := some kept }.drop 1

/-- A stop at a boundary is recognised at index `v`; it displaces a pending jump that no decision point has
chosen yet, be it carried or not (R303). DESIGN CHOICE, log entry 50. -/
def Player.askStop (p : Player) (g : Segment) (v : Nat) : Player :=
  let q := { p with stop := some ((p.stop).getD (p.request g 255 none v)) }
  let decided := match p.chosen with
    | some (.jump _) => true
    | _ => false
  if p.jump.isSome && !decided then { q with jump := none }.drop 1 else q

/-- The choice that entering segment `t` comes to (R299, R349). DEDUCED, log entry 51. -/
def selectSeg (segs : KMap Segment) (member : Segment → Bool) (t : Nat) (ok : Nat → PlayChoice) : PlayChoice :=
  match segs.find t with
  | none => .missing
  | some g => if !member g then .missing else if g.locked then .locked else ok t

/-- The choice of a decision point (R291, R295, R296, R303, R349). A request whose own target cannot be entered is
discarded at the boundary, and the player goes on as if it had not come.
DESIGN CHOICE, log entry 50. DEDUCED, log entry 51. -/
def Player.decide (p : Player) (segs : KMap Segment) (member : Segment → Bool) : PlayChoice :=
  let g := segs.get p.seg {}
  let onward : PlayChoice := if p.remains g then .again
    else match g.next with
      | none => .finish
      | some t => selectSeg segs member t .enter
  if (p.stop.bind JumpReq.iter) = some p.iter then .stop
  else
    match p.jump with
    | some r =>
      if r.iter ≠ some p.iter then onward
      else
        match r.target with
        | none => selectSeg segs member g.target .jump
        | some t =>
          match selectSeg segs member t .jump with
          | .missing => onward
          | c => c
    | none => onward

/-- A request carried into segment `g` counts as recognised at its index 0 (R295). -/
def carriedIter (p : Player) (g : Segment) : Option Nat :=
  if p.horizon ≤ g.length then some 0 else if g.rep = 0 ∨ 1 < g.rep then some 1 else none

/-- The player enters segment `t` at a boundary (R294, R295). A carried request keeps the place at which it arrived, so
that one which is recognised at vector 0 of `t` comes after it, whatever its rank (R17).
DESIGN CHOICE, log entry 115. -/
def Player.enterSeg (p : Player) (t : Nat) (g : Segment) (base : Nat) : Player :=
  let stop := p.stop.map fun r => if r.iter.isNone then { r with iter := carriedIter p g } else r
  let q := { p with seg := t, iter := 0, base, chosen := none, stop }
  match p.jump with
  | none => q
  | some r =>
    if g.cond.testBit (causeBit r.cause) then { q with jump := some { r with iter := carriedIter p g } }
    else { q with jump := none }.drop 1

/-- DETAIL of EV_JUMP_TAKEN (R314). -/
def JumpReq.detail (r : JumpReq) (seg : Nat) : Nat :=
  r.index + 2 ^ 32 * seg + 2 ^ 48 * r.cause + 2 ^ 55 * bit r.deferred + 2 ^ 56 * min r.superseded 255

/-- What the player is after a boundary at which it goes on playing (R290, R295, R296). -/
def Player.cross (p : Player) (segs : KMap Segment) (c : PlayChoice) : Player :=
  let g := segs.get p.seg {}
  let base := p.base + g.length
  let spent := (p.jump.bind JumpReq.iter) == some p.iter
  match c with
  | .again =>
    let q := { p with iter := p.iter + 1, base, chosen := none }
    if spent then { q with jump := none }.drop 1 else q
  | .enter t =>
    let q := if spent then { p with jump := none }.drop 1 else p
    q.enterSeg t (segs.get t {}) base
  | .jump t =>
    { p with jump := none, taken := satAdd 32 p.taken 1 }.enterSeg t (segs.get t {}) base
  | _ => { p with base, jump := none, stop := none, chosen := none }

/-- The run ends: what is still pending is discarded and counted (R295, R303, R349). -/
def Player.ended (p : Player) : Player :=
  { p.drop (bit p.jump.isSome) with jump := none, stop := none, chosen := none, parkAt := none }

/-- The segment that plays at place `n`: the one playing, or from the coming boundary on the one chosen for it. -/
def Player.segAt (p : Player) (length n : Nat) : Nat :=
  if n < p.base + length then p.seg
  else
    match p.chosen with
    | some (.enter u) => u
    | some (.jump u) => u
    | _ => p.seg

/-- A fresh start of the player at segment `seg` (R305, R356). -/
def Player.start (p : Player) (seg horizon : Nat) : Player := { seg, horizon, reqSeq := p.reqSeq }

/-- Segment `n` is active for the player (R291). -/
def Player.active (p : Player) (n : Nat) : Bool :=
  p.seg == n || p.chosen == some (.enter n) || p.chosen == some (.jump n)

/-- Segments reachable from `todo` through NEXT and, where JUMP_COND is nonzero, JUMP_TARGET (R293). -/
def reachable (segs : KMap Segment) : Nat → List Nat → List Nat → List Nat
  | 0, _, seen => seen
  | _ + 1, [], seen => seen
  | k + 1, t :: todo, seen =>
    if seen.contains t then reachable segs k todo seen
    else
      match segs.find t with
      | none => reachable segs k todo (seen ++ [t])
      | some g =>
        reachable segs k (g.next.toList ++ (if g.cond = 0 then [] else [g.target]) ++ todo) (seen ++ [t])

/-- Every segment that a start at `seg` can reach. -/
def reach (segs : KMap Segment) (seg : Nat) : List Nat := reachable segs (3 * segs.length + 4) [seg] []

/-- The first entry of a table that a test finds bad, with its index and status. -/
def firstRefused (check : List Byte → Option Status) : Nat → List (List Byte) → Option (Nat × Status)
  | _, [] => none
  | i, e :: es => match check e with
    | some st => some (i, st)
    | none => firstRefused check (i + 1) es

/-- Whether `a` to `a + n − 1` lies clear of every (base, size) of a list. -/
def clearOf (used : List (Nat × Nat)) (a n : Nat) : Bool :=
  used.all fun u => decide (a + n ≤ u.1) || decide (u.1 + u.2 ≤ a)

/-- The lowest base, a multiple of `align`, at which `n` bytes lie clear of `used` and below `limit`.
DESIGN CHOICE, log entries 31 and 54. -/
def firstFit (used : List (Nat × Nat)) (align n limit : Nat) : Option Nat :=
  let up (a : Nat) : Nat := (a + align - 1) / align * align
  let ends := (0 :: used.map fun u => up (u.1 + u.2)).filter fun a => clearOf used a n && decide (a + n ≤ limit)
  match ends with
  | [] => none
  | a :: as => some (as.foldl min a)

end Sys2Proof.Machine
end

