-- ==== Sys2Proof/Machine/TrellisLine.lean ====
section
/-! DEFINITION. Line coding of a Trellis lane: check codes, the codeword layout, RS(544,514) and the PAM4 mapping (R316 to
R319). -/

namespace Sys2Proof.Machine

/-! ## Check codes -/

/-- One bit of a CRC of `w` bits with polynomial `poly`. -/
def crcBit (w poly c : Nat) (b : Bool) : Nat :=
  let top := c.testBit (w - 1) != b
  let sh := c * 2 % 2 ^ w
  if top then sh ^^^ poly else sh

/-- A CRC over bytes, each byte's bit 7 first. -/
def crcBytes (w poly init : Nat) (bs : List Byte) : Nat :=
  bs.foldl (fun c b => [7, 6, 5, 4, 3, 2, 1, 0].foldl (fun c i => crcBit w poly c (b.getLsbD i)) c) init

/-- CRC-16 of a frame (R319). -/
def frameCrc (body : List Byte) : Nat := crcBytes 16 0x1021 0xFFFF body

/-- CRC-8 of a slice (R324) and of a Vine frame (R360). -/
def crc8 (bs : List Byte) : Nat := crcBytes 8 0x07 0 bs

/-- CRC-4 of a codeword header over bits [15:0], bit 15 first (R318). -/
def headerCheck (h : Nat) : Nat :=
  (List.range 16).foldl (fun c i => crcBit 4 3 c (h.testBit (15 - i))) 0

/-! ## The Reed-Solomon code (R317) -/

/-- Twice an element of GF(2^10), whose primitive polynomial is x^10 + x^3 + 1. PRESUMED, log entry 129. -/
def gfTwice (a : Nat) : Nat := if a < 512 then 2 * a else (2 * a) % 1024 ^^^ 9

/-- The product of two elements of GF(2^10). -/
def gfMul (a b : Nat) : Nat :=
  ((List.range 10).foldl (fun (r : Nat × Nat) i => (if b.testBit i then r.1 ^^^ r.2 else r.1, gfTwice r.2)) (0, a)).1

/-- α to the power `k`. -/
def gfPower (k : Nat) : Nat := (List.range k).foldl (fun a _ => gfTwice a) 1

/-- A polynomial times (x − r), highest coefficient first. -/
def gfTimesRoot (p : List Nat) (r : Nat) : List Nat :=
  ((p ++ [0]).zip (0 :: p)).map fun (e : Nat × Nat) => e.1 ^^^ gfMul e.2 r

/-- The generator of the code, with roots α^0 to α^29. PRESUMED, log entry 129. -/
def rsGenerator : List Nat := (List.range 30).foldl (fun p j => gfTimesRoot p (gfPower j)) [1]

/-- The 30 parity symbols of a message: what its product with x^30 leaves when divided by the generator. -/
def rsParity (message : List Nat) : List Nat :=
  let tail := rsGenerator.drop 1
  message.foldl (fun r m =>
    let f := r.headD 0 ^^^ m
    ((r.drop 1 ++ [0]).zip tail).map fun (e : Nat × Nat) => e.1 ^^^ gfMul f e.2) (List.replicate 30 0)

/-- A word belongs to the code: 514 message symbols and after them their 30 parity symbols (R317). -/
def rsValid (word : List Nat) : Bool := word.length == 544 && word.drop 514 == rsParity (word.take 514)

/-- The message of a received word: `errors` is what the decoder finds, at most 15 symbols by place and error value, with
which the word belongs to the code; none where the word does not decode. PRESUMED, log entry 129. -/
def rsDecode (word : List Nat) (errors : List (Nat × Nat)) : Option (List Nat) :=
  let fixed := errors.foldl (fun (w : List Nat) e => w.set e.1 (w.getD e.1 0 ^^^ e.2)) word
  if errors.length ≤ 15 && (errors.all fun e => decide (e.2 < 1024)) && rsValid fixed then some (fixed.take 514) else none

/-! ## Codewords (R317, R318) -/

/-- The 514 message symbols of a codeword: the 20-bit header and 640 payload bytes, each byte's bit 0 first; the first of
the ten bits of a symbol is its least significant (R317). -/
def messageSymbols (header : Nat) (payload : List Byte) : List Nat :=
  let n := header % 2 ^ 20 + 2 ^ 20 * leNat payload
  (List.range 514).map fun k => n / 2 ^ (10 * k) % 1024

/-- Header and payload of a message. -/
def messageOf (symbols : List Nat) : Nat × List Byte :=
  let n := symbols.reverse.foldl (fun a c => a * 1024 + c) 0
  (n % 2 ^ 20, leBytes 640 (n / 2 ^ 20))

/-- The PAM4 level of two bits, the first sent in bit 0: the first is the more significant, and 00, 01, 11 and 10 are
levels 0 to 3 (R316). -/
def pam4Level (two : Nat) : Nat :=
  match two % 4 with
  | 0 => 0 | 2 => 1 | 3 => 2 | _ => 3

/-- The two bits of a PAM4 level, the first in bit 0 (R316). -/
def pam4Bits (level : Nat) : Nat :=
  match level with
  | 0 => 0 | 1 => 2 | 2 => 3 | _ => 1

/-- The five PAM4 levels of a symbol, its least significant bits first (R316, R317). -/
def symbolLevels (c : Nat) : List Nat := (List.range 5).map fun i => pam4Level (c / 4 ^ i)

/-- The PAM4 levels of a codeword: 514 message symbols, then 30 parity symbols (R316, R317). -/
def lineLevels (header : Nat) (payload : List Byte) : List Nat :=
  let m := messageSymbols header payload
  (m ++ rsParity m).flatMap symbolLevels

/-- The 544 symbols of the levels received for a codeword. -/
def lineSymbols (levels : List Nat) : List Nat :=
  (List.range 544).map fun k =>
    (List.range 5).foldl (fun a i => a + pam4Bits (levels.getD (5 * k + i) 0) * 4 ^ i) 0

/-- Header and payload of the codeword that a receiver sees; none where it does not decode or its CHECK is wrong (R317,
R318). -/
def lineDecode (levels : List Nat) (errors : List (Nat × Nat)) : Option (Nat × List Byte) :=
  match (if levels.length = 2720 then rsDecode (lineSymbols levels) errors else none) with
  | none => none
  | some m =>
    let c := messageOf m
    if headerCheck (c.1 % 65536) = bits c.1 19 16 then some c else none

/-- A codeword header: CW_INDEX, LIVE, RX_OK, BULK, bits [15:8] and CHECK (R318). -/
def codewordHeader (index : Nat) (live rxOk bulk : Bool) (high : Nat) : Nat :=
  let h := index % 32 + 32 * bit live + 64 * bit rxOk + 128 * bit bulk + 256 * (high % 256)
  h + 65536 * headerCheck h

/-- Each of sixteen codewords decodes, and their CW_INDEX values are consecutive (R317). -/
def boundaryFound (words : List (List Nat × List (Nat × Nat))) : Bool :=
  let headers := words.filterMap fun w => (lineDecode w.1 w.2).map Prod.fst
  words.length == 16 && headers.length == 16 &&
    (headers.zip (headers.drop 1)).all fun e => e.2 % 32 == (e.1 % 32 + 1) % 25

end Sys2Proof.Machine
end

