-- ==== Sys2Proof/Machine/TrellisLink.lean ====
section
/-! DEFINITION. The Trellis link: frames, reliable delivery, credits, the paths of R330 and bulk channels (R318 to
R330). -/

namespace Sys2Proof.Machine

/-- PE device `n`. -/
def State.peDev (s : State) (n : Nat) : PeDev := s.pe.get n {}

/-- Replaces a PE device. -/
def State.setPe (s : State) (n : Nat) (d : PeDev) : State := { s with pe := s.pe.set n d }

/-- The buddy of device `n` (R330). -/
def buddyOf (n : Nat) : Nat := n + 1 - 2 * (n % 2)

/-- The device serves: UP, REROUTED or CARRYING. -/
def PeDev.linked (d : PeDev) : Bool := d.mode == .up || d.mode == .rerouted

/-- PAT may use the device (R328). -/
def State.peUsable (s : State) (n : Nat) : Bool := (s.peDev n).linked && !(s.peDev n).unaligned

/-- The device carries its buddy. -/
def State.carrying (s : State) (n : Nat) : Bool :=
  (s.peDev n).mode == .up && (s.peDev (buddyOf n)).mode == .rerouted

/-- A reset of device `n` waits for its sites to rest (R337). -/
def State.peQuiescing (s : State) (n : Nat) : Bool :=
  s.host.cmds.any fun c => c.started && c.opcode == 0x0105 && c.named.contains (resetKey 0x0B n)

/-- STATE of R339. -/
def State.peState (s : State) (n : Nat) : Nat :=
  if s.peQuiescing n then 6
  else match (s.peDev n).mode with
  | .absent => 0 | .training => 1 | .up => if s.carrying n then 4 else 2 | .rerouted => 3 | .lost => 5
  | .quiescing => 6

/-- The side port of device `n`'s pair is up. -/
def State.sideUp (s : State) (n : Nat) : Bool :=
  !s.sideDead.contains (n / 2) && (s.peDev n).linked && (s.peDev (buddyOf n)).linked

/-- LAST_CHANGE of the devices whose STATE is no longer what it was in `old` (R339). -/
def State.peChanged (s old : State) (ns : List Nat) : State :=
  ns.foldl (fun s n =>
    if s.peState n = old.peState n then s else s.setPe n { s.peDev n with changed := s.stampNow }) s

/-- Moves a device to a state, with LAST_CHANGE of it and of the buddy that carries it or no longer does (R339). -/
def State.peMode (s : State) (n : Nat) (m : PeMode) : State :=
  (s.setPe n { s.peDev n with mode := m }).peChanged s [n, buddyOf n]

/-! ## Sending -/

/-- A 64-byte frame (R319). -/
def peFrame (type flags fseq ack : Nat) (payload : List Byte) : List Byte :=
  let body := pack [(1, type), (1, flags), (2, fseq), (2, ack), (2, 0)] ++
    (payload ++ List.replicate 54 0#8).take 54
  body ++ leBytes 2 (frameCrc body)

/-- ACK sent to device `n`: the last reliable FSEQ accepted from it (R319). -/
def PeDev.ack (d : PeDev) : Nat := (d.rxSeq + 65535) % 65536

/-- The lane that carries device `n`'s frames, and DEST (R330). -/
def State.peLane (s : State) (n : Nat) : Nat × Nat :=
  if (s.peDev n).mode = .rerouted then (buddyOf n, 1) else (n, 0)

/-- The header of the codeword that leaves on a lane now: 25 codewords leave in 32,768 ticks, RX_OK says that the lane's own
upstream direction is up, and for bulk data bits [15:8] hold DEST and CHANNEL (R318). DESIGN CHOICE, log entry 131. -/
def State.laneHeader (s : State) (lane : Nat) (bulk : Option Nat) : Nat :=
  codewordHeader (s.now % 32768 * 25 / 32768) true (s.peDev lane).upUp bulk.isSome (bulk.getD 0)

/-- Puts a frame on a lane. -/
def State.emitFrame (s : State) (lane : Nat) (frame : List Byte) : State :=
  s.emit (.trellisTx lane (s.laneHeader lane none) frame)

/-- Puts a frame for device `n` on its lane, where it has a path. -/
def State.peSend (s : State) (n type reliable fseq : Nat) (payload : List Byte) : State :=
  let d := s.peDev n
  let l := s.peLane n
  if d.linked || d.mode == .training then
    s.emitFrame l.1 (peFrame type (l.2 + 2 * reliable) fseq d.ack payload)
  else s

/-- A downstream lane carries codewords: its device trains or serves, or its lane carries the buddy (R318, R330). -/
def State.laneOn (s : State) (n : Nat) : Bool :=
  (s.peDev n).linked || (s.peDev n).mode == .training

/-- A class U frame. -/
def State.peSendU (s : State) (n type : Nat) (payload : List Byte) : State := s.peSend n type 0 0 payload

/-- Reliable frames of a device that are to be sent, again or for the first time. -/
def PeDev.toSend (d : PeDev) : Nat := d.unacked.length + d.waiting.length + 1

/-- Sends the reliable frames that have a credit: those to be sent again come first, in order (R321, R322). -/
def sendWaiting : Nat → State → Nat → State
  | 0, s, _ => s
  | k + 1, s, n =>
    let d := s.peDev n
    if d.credits = 0 then s
    else
      match d.unacked.findIdx? Unacked.again, d.waiting with
      | some i, _ =>
        let f := d.unacked.getD i {}
        let d' := { d with credits := d.credits - 1, resent := satAdd 64 d.resent 1,
                           unacked := d.unacked.set i { f with again := false, sent := s.now } }
        sendWaiting k ((s.setPe n d').peSend n f.type 1 f.fseq f.body) n
      | none, [] => s
      | none, (type, body) :: rest =>
        let d' := { d with waiting := rest, credits := d.credits - 1, txSeq := (d.txSeq + 1) % 65536,
                           unacked := d.unacked ++ [{ fseq := d.txSeq, type, body, sent := s.now }] }
        sendWaiting k ((s.setPe n d').peSend n type 1 d.txSeq body) n

/-- Queues a reliable frame for device `n` and sends what the credits allow. -/
def State.peSendR (s : State) (n type : Nat) (payload : List Byte) : State :=
  let d := s.peDev n
  if d.linked || d.mode == .training then
    sendWaiting (d.toSend + 1) (s.setPe n { d with waiting := d.waiting ++ [(type, payload)] }) n
  else s

/-- A class S frame: it goes on the device's own lane and, while the buddy path is there with both lanes up, on the
buddy's lane too (R325). The payload follows its SEQ_ID. -/
def State.peSendS (s : State) (n type : Nat) (rest : List Byte) : State :=
  let d := s.peDev n
  if !d.linked then s
  else
    let s := s.setPe n { d with seqId := (d.seqId + 1) % 65536 }
    let body := leBytes 2 d.seqId ++ rest
    let s := s.peSend n type 0 0 body
    if d.mode = .up && (s.peDev (buddyOf n)).mode = .up && s.sideUp n then
      s.emitFrame (buddyOf n) (peFrame type 1 0 d.ack body)
    else s

/-- VC_ZERO to every discovered device while the vector clock is idle; none is UNALIGNED afterwards (R328).
-/
def State.vcZero (s : State) : State :=
  (List.range 64).foldl (fun s n =>
    if (s.peDev n).linked then (s.setPe n { s.peDev n with unaligned := false }).peSendR n 3 [] else s) s

/-- ACK covers these frames: those up to and with it leave the unacknowledged list (R321). -/
def PeDev.acked (d : PeDev) (ack : Nat) : PeDev :=
  match d.unacked.findIdx? fun f => f.fseq == ack with
  | some i => { d with unacked := d.unacked.drop (i + 1) }
  | none => d

/-- 409.6 ns in ticks, rounded up (R321). -/
def resendTicks : Nat := 10486

/-- ACK has not covered the oldest unacknowledged frame in time (R321). -/
def PeDev.overdue (d : PeDev) (now : Nat) : Bool :=
  match d.unacked with
  | f :: _ => decide (f.sent + resendTicks ≤ now)
  | [] => false

/-- Resends every unacknowledged frame of device `n`, as its credits allow (R321, R322). -/
def State.peResend (s : State) (n : Nat) : State :=
  let d := s.peDev n
  let again (f : Unacked) : Unacked := { f with again := true }
  sendWaiting d.toSend (s.setPe n { d with unacked := d.unacked.map again }) n

/-- INIT of device `n`: FSEQ counts from 0 after it, in both directions, and frames that still await their acknowledgement
follow it (R320, R321). DESIGN CHOICE, log entry 57. -/
def State.peInit (s : State) (n : Nat) (body : List Byte) : State :=
  let d := s.peDev n
  let old := d.unacked.map fun f => (f.type, f.body)
  let d := { d with txSeq := 0, rxSeq := 0, unacked := [], waiting := (2, body) :: (old ++ d.waiting) }
  sendWaiting d.toSend (s.setPe n d) n

/-! ## Bulk channels (R323) -/

/-- The next value of a number, for every device. DESIGN CHOICE, log entry 54. -/
def lowestChannel (d : PeDev) : Nat := (lowestFree d.bulk.has 128 0).getD 127

/-- Bytes for channel `c` of device `n` leave in bulk codewords of 640 bytes on the lane that carries the device, with DEST
where that is its buddy's (R318, R323, R330). -/
def State.emitBulk (s : State) (n c : Nat) (bytes : List Byte) : State :=
  let l := s.peLane n
  (records ((bytes.length + 639) / 640) 640 (bytes ++ List.replicate 639 0#8)).foldl (fun s b =>
    s.emit (.trellisLine l.1 (lineLevels (s.laneHeader l.1 (some (l.2 + 2 * c))) b))) s

/-- Sends bytes in bulk codewords on channel `c` of device `n`, which keeps them until they are confirmed (R323). -/
def State.bulkSend (s : State) (n c : Nat) (bytes : List Byte) : State :=
  let d := s.peDev n
  let b := d.bulk.get c {}
  if bytes.isEmpty then s
  else
    (s.setPe n { d with bulk := d.bulk.set c { b with sent := b.sent + bytes.length, data := b.data ++ bytes } }).emitBulk
      n c bytes

/-- Sets up a bulk channel of device `n` at `base` for the vectors of a site from the one with `start` launched
before it, with the bytes of a held segment as they are sent (R323). -/
def State.bulkOpen (s : State) (n site seg base ring start : Nat) (write : Bool) (bytes : List Byte) : State :=
  let d := s.peDev n
  if !d.linked then s
  else
    let c := lowestChannel d
    let s := s.setPe n { d with bulk := d.bulk.set c { seg, site, start, write } }
    (s.peSendR n 6 (pack [(1, c), (3, 0), (6, base), (2, 0), (6, ring), (6, 0)])).bulkSend n c bytes

/-- The channel that carries to the device what `site` plays with `place` vectors launched before: of those that
started by then the one that started last. -/
def PeDev.streamAt (d : PeDev) (site place : Nat) : Option Bulk :=
  d.bulk.foldl (fun best e =>
    let b := e.2
    if b.write || b.site != site || decide (place < b.start) then best
    else if (best.elim true fun (q : Bulk) => decide (q.start ≤ b.start)) then some b else best) none

/-- A gap, or a move to another path, rewinds a channel to CONFIRMED, and what was sent beyond it is sent again (R323,
R330). -/
def State.bulkRewind (s : State) (n c : Nat) : State :=
  let d := s.peDev n
  let b := d.bulk.get c {}
  let s := (s.setPe n { d with resent := satAdd 64 d.resent ((b.data.length + 63) / 64) }).peSendR n 7
    (pack [(1, c), (3, 0), (6, b.confirmed % 2 ^ 48)])
  s.emitBulk n c b.data

end Sys2Proof.Machine
end

