-- ==== Sys2Proof/Machine/Clock.lean ====
section
/-! DEFINITION. Time base and clock synthesis: the oscillators, the discipline loop, PPS, the synthesisers,
the ramp generators and the CLOCK family (R88 to R114). -/

namespace Sys2Proof.Machine

/-- Generator 0 vector clock, 1 CLK_OUT0, 2 CLK_OUT1 (R103). -/
def State.gen (s : State) (g : Nat) : ClockGen := s.ck.gens.get g {}

/-- Replaces a generator. -/
def State.setGen (s : State) (g : Nat) (x : ClockGen) : State :=
  { s with ck := { s.ck with gens := s.ck.gens.set g x } }

/-- EV_LOCK with the new state of a clock SOURCE (R114). -/
def State.evLock (s : State) (source st : Nat) : State := s.event 0x0202 source st

/-- Code of a lock state (R107, R114). -/
def SynthState.code : SynthState → Nat
  | .muted => 0 | .searching => 1 | .locked => 2 | .coasting => 3

/-- Moves generator `g` to a lock state, with EV_LOCK where the state changes (R114). -/
def State.setSynth (s : State) (g : Nat) (x : ClockGen) (st : SynthState) : State :=
  let s' := s.setGen g { x with synth := st }
  if x.synth = st then s' else s'.evLock (3 + g) st.code

/-! ## The discipline loop -/

/-- The references that the mode needs are qualified (R92, R94). DESIGN CHOICE, log entry 26. -/
def Clock.usable (k : Clock) : Bool :=
  let pps := k.ppsQual && !k.ppsMismatch
  match k.mode with
  | 1 => k.refQual || pps
  | 2 => k.refQual
  | 3 => pps
  | 4 => k.refQual && pps
  | _ => false

/-- The references that the loop needs are there; a Vine MEMBER locks to the chain (R92, R361, R364). -/
def State.loopUsable (s : State) : Bool :=
  if s.vineMember then s.vine.refIn && s.vine.syncIn && !s.vine.holdover else s.ck.usable

/-- A qualified reference that the mode uses (R90, R92); for a Vine MEMBER the chain's (R361). -/
def State.refInUse (s : State) : Bool :=
  let k := s.ck
  if s.vineMember then s.loopUsable
  else ([1, 2, 4].contains k.mode && k.refQual) || ([1, 3, 4].contains k.mode && k.ppsQual && !k.ppsMismatch)

/-- The mode uses the reference whose loss has this cause: 1 REF_IN, 2 PPS_IN, 3 PPS mismatch. -/
def Clock.usesCause (k : Clock) (cause : Nat) : Bool :=
  (cause == 1 && [1, 2, 4].contains k.mode) ||
    ((cause == 2 || cause == 3) && [1, 3, 4].contains k.mode)

/-- The loop stops steering: both control words hold the values that it has brought them to, and on a loss their
mean over the 1 s that ended 100 ms before it (R92, R94). The spec states no value of a word while the loop steers, so
the held ones are free values. DESIGN CHOICE, log entry 99. -/
def State.holdWords (s : State) : State :=
  let s1 := s.drawFree
  let s2 := s1.drawFree
  let ck := { s.ck with wordA := s.freeNat 64, wordB := s1.freeNat 64, integrator := s2.freeNat 64 }
  { s2.drawFree with ck }

/-- The loop enters HOLDOVER with frozen words (R94). -/
def State.enterHoldover (s : State) : State :=
  let s1 := if s.ck.tb = .acquiring ∨ s.ck.tb = .locked then s.holdWords else s
  { s1 with ck := { s1.ck with tb := .holdover, frozen := true, holdSince := s1.now } }

/-- The loop after a change of its references or mode; `cause` names a reference that was lost, or is 0
(R92, R94, R114). With both oscillators dead it stays in HOLDOVER (R513). DESIGN CHOICE, log entry 26. -/
def State.loopUpdate (s : State) (cause : Nat) : State :=
  let k := s.ck
  if k.oscDead.length ≥ 2 then s
  else if k.mode = 0 ∧ !s.vineMember then
    let s1 := if k.tb = .acquiring ∨ k.tb = .locked then s.holdWords else s
    { s1 with ck := { s1.ck with tb := .free, frozen := false } }
  else if s.loopUsable then
    match k.tb with
    | .holdover => { s with ck := { k with tb := .locked, frozen := false } }.evLock 0 2
    | .free => { s with ck := { k with tb := .acquiring } }.evLock 0 1
    | _ => s
  else
    match k.tb with
    | .holdover => s
    | .free => { s with ck := { k with tb := .acquiring } }.evLock 0 1
    | .acquiring => if k.usesCause cause then s.enterHoldover.event 0x0203 0 cause else s
    | .locked =>
      if k.usesCause cause then s.enterHoldover.event 0x0203 0 cause
      else { s with ck := { k with tb := .acquiring } }.evLock 0 1

/-- DISCIPLINE_LOOP_LOCKED: the loop converges from ACQUIRING to LOCKED (R92, R114). -/
def execDisciplineLoopLocked (t : Nat) (s : State) : Host.Outcome State Fault Refusal :=
  happens t (fun s =>
    if s.ck.tb = .acquiring && s.loopUsable then { s with ck := { s.ck with tb := .locked } }.evLock 0 2
    else s) s

/-! ## Oscillators -/

/-- Lock state of sample synthesiser 0 A or 1 B. -/
def Clock.sample (k : Clock) (unit : Nat) : SynthState := if unit = 0 then k.sampleA else k.sampleB

/-- Moves sample synthesiser 0 A or 1 B to a lock state, with EV_LOCK where the state changes (R114). -/
def State.setSample (s : State) (unit : Nat) (st : SynthState) : State :=
  let ck := if unit = 0 then { s.ck with sampleA := st } else { s.ck with sampleB := st }
  if s.ck.sample unit = st then s else { s with ck }.evLock (1 + unit) st.code

/-- Every synthesiser that is locked coasts on its frozen word (R513 class 13, R100). -/
def State.coastAll (s : State) : State :=
  let s := (List.range 2).foldl (fun s n => if s.ck.sample n = .locked then s.setSample n .coasting else s) s
  (List.range 3).foldl (fun s g =>
    let x := s.gen g
    if x.synth = .locked then s.setSynth g x .coasting else s) s

/-- An oscillator is retired: the standby takes over from an active one (R89, R513 class 13).
DESIGN CHOICE, log entry 74. -/
def State.oscFail (s : State) (osc : Nat) (inj : Bool) : State :=
  let u : Unit3 := ⟨13, 0, osc⟩
  if osc > 1 || s.isRetired u then s
  else
    let s1 := { s with ck := { s.ck with oscDead := s.ck.oscDead ++ [osc] } }
    if s1.sparesLeft 13 0 = 0 then
      s1.enterHoldover.coastAll.faultUnmasked u
        { injected := inj }
    else if osc = s.ck.activeOsc then
      let new := 1 - osc
      ({ s1 with ck := { s1.ck with activeOsc := new } }.event 0x0204 (6 + new) (6 + osc)).faultMasked u
        { takenBy := new, injected := inj }
    else s1.faultMasked u { injected := inj }

/-- OCXO_HARD_FAULT (R89): the oscillator no longer runs. One that is retired already is detected no more (R591). -/
def execOcxoHardFault (t osc : Nat) (s : State) : Host.Outcome State Fault Refusal :=
  happens t (fun s =>
    if osc > 1 then s
    else
      let ck := { s.ck with oscStopped := s.ck.oscStopped.filter (· != osc) ++ [osc] }
      { s with ck }.oscFail osc false) s

/-- A reference has qualified and settles an unattributed soft fault (R90, R524). -/
def State.settleOsc (s : State) (farther : Nat) : State :=
  if s.ck.oscDisagree && s.refInUse then
    ({ s with ck := { s.ck with oscDisagree := false } }.settleFault ⟨13, 0, 0xFFFF⟩).oscFail farther false
  else s

/-- OCXO_SOFT_FAULT (R90): with a qualified reference in use the oscillator farther from it is retired;
otherwise the fault is unmasked and stays so until a reference settles it. -/
def execOcxoSoftFault (t farther : Nat) (s : State) : Host.Outcome State Fault Refusal :=
  happens t (fun s =>
    if s.ck.warmAt.isNone || !s.ck.oscDead.isEmpty then s
    else if s.ck.oscDisagree then s.settleOsc farther
    else if s.refInUse then s.oscFail farther false
    else
      let s1 := { s with ck := { s.ck with oscDisagree := true } }.faultUnmasked ⟨13, 0, 0xFFFF⟩ {}
      { s1 with ft := { s1.ft with retired := s1.ft.retired.filter (· != (⟨13, 0, 0xFFFF⟩ : Unit3)) } }) s

/-- Sets a READY_MAP bit with EV_READY (R535). -/
def State.raiseReady (s : State) (b : Nat) : State :=
  if s.readyBit b then s else (s.setReady b).event 0x0101 0 b

/-- WARM_REACHED (R91): WARM is set once, with EV_WARM and READY_MAP bit 4; in recovery the bit stays 0 (R57). -/
def execWarmReached (t ms : Nat) (s : State) : Host.Outcome State Fault Refusal :=
  happens t (fun s =>
    if s.ck.warmAt.isSome then s
    else
      let s1 := { s with ck := { s.ck with warmAt := some s.now } }.event 0x0201 0 (ms % 2 ^ 32)
      if s1.sec.recovery || s1.pw.failed.testBit 4 then s1 else s1.raiseReady 4) s

/-! ## References and PPS -/

/-- REF_IN_QUALIFIED (R93): within ±5 ppm of 10 or 100 MHz for the qualification time. -/
def execRefInQualified (t freq farther : Nat) (s : State) : Host.Outcome State Fault Refusal :=
  happens t (fun s =>
    if (freq = 1 || freq = 2) && (s.ck.refFreq = 0 || s.ck.refFreq = freq) then
      (({ s with ck := { s.ck with refDetected := freq, refQual := true } }.loopUpdate 0)).settleOsc farther
    else s) s

/-- REF_IN_LOST (R94). -/
def execRefInLost (t : Nat) (s : State) : Host.Outcome State Fault Refusal :=
  happens t (fun s =>
    let was := s.ck.refQual
    { s with ck := { s.ck with refDetected := 0, refQual := false } }.loopUpdate (bit was)) s

/-- PPS_IN_QUALIFIED (R93, R97): three consecutive edges 1 s apart; the first qualified edge gives the held
phase where none is held. -/
def execPpsInQualified (t farther : Nat) (s : State) : Host.Outcome State Fault Refusal :=
  happens t (fun s =>
    if s.ck.ppsRun < 3 || s.ck.ppsQual then s
    else
      let held := match s.ck.heldPhase, s.ck.ppsStamps with
        | none, (_, st) :: _ => some (stampFine st)
        | h, _ => h
      ({ s with ck := { s.ck with ppsQual := true, heldPhase := held } }.loopUpdate 0).settleOsc farther) s

/-- PPS_IN_LOST (R94). -/
def execPpsInLost (t : Nat) (s : State) : Host.Outcome State Fault Refusal :=
  happens t (fun s =>
    let was := s.ck.ppsQual
    { s with ck := { s.ck with ppsQual := false, ppsRun := 0 } }.loopUpdate (if was then 2 else 0)) s

/-- One second in fine units of 1/65,536 tick. -/
def fineSecond : Nat := ticksPerSecond * 65536

/-- The signed phase of an edge against the held phase, within half a second (R97, R107). -/
def phaseError (edge held : Nat) : Int :=
  let e := ((edge : Int) - held) % fineSecond
  if e > fineSecond / 2 then e - fineSecond else e

/-- A PPS edge: stamped less `delay`, counted, kept among the last 16 and compared with the held phase, where there is
one; an edge more than 1 ms off is a mismatch, whether or not PPS_IN is qualified (R94, R96, R107). A stamp smaller than
the delay gives 0. DESIGN CHOICE, log entry 106. -/
def State.ppsEdge (s : State) (stamp : Stamp) (delay : Int) : State :=
  let k := s.ck
  let fine := ((stampFine stamp : Int) - delay).toNat
  let new : Stamp := { tick := fine / 65536, fine := fine % 65536 }
  let st := match k.ppsStamps with | (_, p) :: _ => laterStamp p new | [] => new
  let n := wrapAdd 32 k.ppsCount 1
  let apart := match k.ppsStamps with
    | (_, p) :: _ =>
      let d := (fine : Int) - stampFine p
      decide ((fineSecond : Int) - 25600 * 65536 ≤ d ∧ d ≤ (fineSecond : Int) + 25600 * 65536)
    | [] => false
  let k := { k with ppsCount := n, ppsStamps := ((n, st) :: k.ppsStamps).take 16,
                    ppsRun := if apart && k.ppsRun != 0 then k.ppsRun + 1 else 1 }
  match k.heldPhase with
  | some h =>
    let e := phaseError fine h
    let off := decide (e.natAbs > ticksPerMs * 65536)
    let s := { s with ck := { k with ppsPhase := e, ppsMismatch := k.ppsMismatch || off } }
    if off && !k.ppsMismatch then s.loopUpdate (if k.ppsQual then 3 else 0) else s
  | none => { s with ck := k }

/-- PPS_EDGE (R96). A Vine MEMBER takes epochs as its PPS edges (R361). -/
def execPpsEdge (t : Nat) (stamp : Stamp) (s : State) : Host.Outcome State Fault Refusal :=
  happens t (fun s => if s.vineMember then s else s.ppsEdge (s.full stamp) s.ck.ppsDelay) s

/-- Tick `now` is a whole second of the binding, or, while none exists, a multiple of a second of the tick count
(R98). -/
def Clock.atSecond (k : Clock) (now : Nat) : Bool := match k.binding with
  | some (T, _) => ((now : Int) - T) % ticksPerSecond == 0
  | none => now % 2 ^ 64 % ticksPerSecond == 0

/-- PPS_OUT_SECOND (R98): at a whole second PPS_OUT rises while it is enabled. -/
def execPpsOutSecond (t : Nat) (s : State) : Host.Outcome State Fault Refusal :=
  happens t (fun s =>
    if s.ck.ppsOutOn && s.ck.atSecond s.now then
      { s with ck := { s.ck with ppsOutHigh := true } }
    else s) s

/-- PPS_OUT_PULSE_END (R98). -/
def execPpsOutPulseEnd (t : Nat) (s : State) : Host.Outcome State Fault Refusal :=
  happens t (fun s => { s with ck := { s.ck with ppsOutHigh := false } }) s

/-! ## Synthesisers -/

/-- SYNTH_BAND_SEARCH_DONE (R99). -/
def execSynthBandSearchDone (t source : Nat) (s : State) : Host.Outcome State Fault Refusal :=
  happens t (fun s =>
    if source = 1 ∨ source = 2 then
      if s.ck.sample (source - 1) = .searching then
        { s with ck := { s.ck with sampleSettling := s.ck.sampleSettling.filter (· != source - 1) ++ [source - 1] } }
      else s
    else if 3 ≤ source ∧ source ≤ 5 then
      let x := s.gen (source - 3)
      if x.synth = .searching then s.setGen (source - 3) { x with settling := true } else s
    else s) s

/-- The commands on output synthesiser `g` that wait for its lock or its change, completed with the
achieved frequency (R109, R112, R113). -/
def State.finishGen (s : State) (g : Nat) : State :=
  let want (c : Cmd) : Bool :=
    c.started && ((c.opcode == 0x0204 && g == u8 c.payload 0 + 1) || (c.opcode == 0x0208 && g == 0) ||
      (c.opcode == 0x0207 && g == u8 c.payload 0))
  s.finishAll (s.host.cmds.filter want) .ok fun _ => (s.gen g).freq

/-- A sample synthesiser fails: the standby takes over from the primary (R101, R513 class 14). A retired one is muted,
though the spec does not name its lock state. DESIGN CHOICE, log entry 107. -/
def State.sampleFail (s : State) (unit : Nat) (lostLock inj : Bool) : State :=
  let u : Unit3 := ⟨14, 0, unit⟩
  if unit > 1 || s.isRetired u then s
  else if s.sparesLeft 14 0 = 0 then
    let s1 := if lostLock then s.setSample unit .coasting
      else { s.setSample unit .muted with ck := { (s.setSample unit .muted).ck with convertersStopped := true } }
    s1.faultUnmasked u { injected := inj }
  else
    let s1 := s.setSample unit .muted
    if unit = s.ck.primary then
      let new := 1 - unit
      ({ s1 with ck := { s1.ck with primary := new } }.event 0x0204 (1 + new) (1 + unit)).faultMasked u
        { takenBy := new, injected := inj }
    else s1.faultMasked u { injected := inj }

/-- SYNTH_LOCK_LOST (R100): the tuning word is frozen and the output coasts unmuted; a sample synthesiser is
taken over (R101). -/
def execSynthLockLost (t source : Nat) (s : State) : Host.Outcome State Fault Refusal :=
  happens t (fun s =>
    if source = 1 ∨ source = 2 then s.sampleFail (source - 1) true false
    else if 3 ≤ source ∧ source ≤ 5 then
      let x := s.gen (source - 3)
      if x.synth = .locked then s.setSynth (source - 3) { x with stuck := false } .coasting else s
    else s) s

/-- SYNTH_REACQUIRE_TIMEOUT (R100): it stays COASTING until a command sets that output again. -/
def execSynthReacquireTimeout (t source : Nat) (s : State) : Host.Outcome State Fault Refusal :=
  happens t (fun s =>
    if 3 ≤ source ∧ source ≤ 5 then
      let x := s.gen (source - 3)
      if x.synth = .coasting then s.setGen (source - 3) { x with stuck := true } else s
    else s) s

/-- SAMPLE_SYNTH_FAULT (R101). -/
def execSampleSynthFault (t unit : Nat) (lostLock : Bool) (s : State) : Host.Outcome State Fault Refusal :=
  happens t (fun s => s.sampleFail unit lostLock false) s

/-! ## Ramps -/

/-- The frequency a segment has reached after `ns` (R103), to the mHz below. DESIGN CHOICE, log entry 28. -/
def RampSeg.freqAt (g : RampSeg) (ns : Nat) : Nat := ((g.start : Int) + g.slope * ns / 1000).toNat

/-- Range of a generator's frequencies in mHz (R102, R109, R113). -/
def genRange (g : Nat) : Nat × Nat :=
  if g = 0 then (100000000000, 1600000000000) else (10000000000, 12800000000000)

/-- The segments of a bank's profile, in order. -/
def RampBank.profile (b : RampBank) : List RampSeg := (List.range b.length).map fun i => b.segs.get i {}

/-- The first segment that leaves the range or is too steep, counted from `i` (R104). -/
def rampRangeFault (lo hi : Nat) : Nat → List RampSeg → Option Nat
  | _, [] => none
  | i, g :: gs =>
    let e := (g.start : Int) + g.slope * g.dur / 1000
    if g.start < lo ∨ hi < g.start ∨ e < lo ∨ (hi : Int) < e ∨ g.slope.natAbs > 8000000000 then some i
    else rampRangeFault lo hi (i + 1) gs

/-- One play of a profile: the first segment, counted from `i`, at whose start a step falls less than 50 µs after the
step before it, or the time since the last step and the frequency at the end. `since` is the time since the last step
and `prev` the frequency before; the start of the ramp, which has none before it, is itself a step (R104). -/
def rampPlay : Nat → Nat → Option Nat → List RampSeg → Nat ⊕ (Nat × Option Nat)
  | _, since, prev, [] => .inr (since, prev)
  | i, since, prev, g :: gs =>
    let e := some (g.freqAt g.dur)
    match prev with
    | none => rampPlay (i + 1) g.dur e gs
    | some p =>
      if (g.start : Int) - p > 1000 ∨ (p : Int) - g.start > 1000 then
        if since < 50000 then .inl i else rampPlay (i + 1) g.dur e gs
      else rampPlay (i + 1) (since + g.dur) e gs

/-- The first segment at whose start or end a step falls less than 50 µs after the step before it (R104). The second
play stands for all later ones; a ramp that plays for ever has no stop. -/
def RampBank.stepFault (b : RampBank) : Option Nat :=
  let prof := b.profile
  let total := (prof.map RampSeg.dur).sum
  let stop (since : Nat) : Option Nat := if since < 50000 then some (prof.length - 1) else none
  match rampPlay 0 0 none prof with
  | .inl i => some i
  | .inr (s1, p1) =>
    if b.rep = 1 then stop s1
    else
      match rampPlay 0 s1 p1 prof with
      | .inl i => some i
      | .inr (s2, _) =>
        if b.rep = 0 then none else stop (if s2 = s1 + total then s1 + (b.rep - 1) * total else s2)

/-- The highest frequency of a profile (R104). -/
def topFreq (prof : List RampSeg) : Nat := (prof.map fun r => max r.start (r.freqAt r.dur)).foldl max 0

/-- The highest frequency that a ramp which is armed or runs will reach; 0 where there is none (R104). -/
def ClockGen.rampTop (x : ClockGen) : Nat :=
  if x.ramp = .armed ∨ x.ramp = .running then topFreq (x.banks.get x.bank {}).profile else 0

/-- The lower of two optional indices. -/
def minOpt : Option Nat → Option Nat → Option Nat
  | none, b => b
  | a, none => a
  | some a, some b => some (min a b)

/-- The frequency at the end of a bank's profile. -/
def RampBank.finalFreq (b : RampBank) : Nat :=
  let g := b.segs.get (b.length - 1) {}
  g.freqAt g.dur

/-- The generator takes a frequency, but not while it coasts on its frozen tuning word (R100). -/
def ClockGen.drive (x : ClockGen) (f : Nat) : ClockGen := if x.synth = .coasting then x else { x with freq := f }

/-- The output passes to the idle core at an edge, at frequency `f`; one that coasted is locked again (R100, R102). -/
def State.passToIdle (s : State) (g f : Nat) : State :=
  s.setSynth g { s.gen g with freq := f, nextFreq := none, stuck := false } .locked

/-- Starts segment 0 of an armed ramp now, completing START_RAMP with that tick (R103, R111). -/
def State.beginRamp (s : State) (g : Nat) : State :=
  let x := s.gen g
  let b := x.banks.get x.bank {}
  let s0 := s.setGen g { x with ramp := .running, seg := 0, reps := 0, segStart := s.now }
  let s1 := s0.passToIdle g (b.segs.get 0 {}).start
  s1.finishAll (s1.startedCmds 0x0206 fun c => u8 c.payload 0 == g) .ok fun _ => s.now

/-- IDLE_CORE_LOCKED (R102): the output passes to the idle core at an edge, at the frequency it was asked
for; an armed ramp with WHEN 0 begins (R111). -/
def execIdleCoreLocked (t gen : Nat) (s : State) : Host.Outcome State Fault Refusal :=
  happens t (fun s =>
    if gen > 2 then s
    else
      let x := s.gen gen
      match x.nextFreq with
      | some f => (s.passToIdle gen f).finishGen gen
      | none => if x.ramp = .armed && x.sched.mode == 0 then s.beginRamp gen else s) s

/-- RAMP_SCHEDULED_START (R111). -/
def execRampScheduledStart (t gen : Nat) (s : State) : Host.Outcome State Fault Refusal :=
  happens t (fun s =>
    let x := s.gen gen
    if gen ≤ 2 && x.ramp = .armed && x.sched.mode != 0 && s.reached x.sched then s.beginRamp gen else s) s

/-- Nanoseconds since a ramp segment began, on the 10 ns grid of R103. -/
def ClockGen.elapsedNs (x : ClockGen) (now : Nat) : Nat := (now - x.segStart) / 256 * 10

/-- RAMP_UPDATE (R103): the frequency is START + SLOPE × time since the segment began. -/
def execRampUpdate (t gen : Nat) (s : State) : Host.Outcome State Fault Refusal :=
  happens t (fun s =>
    let x := s.gen gen
    if gen ≤ 2 && x.ramp = .running then
      let g := (x.banks.get x.bank {}).segs.get x.seg {}
      s.setGen gen (x.drive (g.freqAt (min (x.elapsedNs s.now) g.dur)))
    else s) s

/-- RAMP_SEGMENT_END (R103): the next segment begins, or the next repetition. -/
def execRampSegmentEnd (t gen : Nat) (s : State) : Host.Outcome State Fault Refusal :=
  happens t (fun s =>
    let x := s.gen gen
    let b := x.banks.get x.bank {}
    let g := b.segs.get x.seg {}
    if gen ≤ 2 && x.ramp = .running && decide (g.dur ≤ x.elapsedNs s.now) then
      let start := x.segStart + g.dur * 128 / 5
      if x.seg + 1 < b.length then
        s.setGen gen ({ x with seg := x.seg + 1, segStart := start }.drive (b.segs.get (x.seg + 1) {}).start)
      else if b.rep = 0 ∨ x.reps + 1 < b.rep then
        s.setGen gen ({ x with seg := 0, reps := x.reps + 1, segStart := start }.drive (b.segs.get 0 {}).start)
      else s
    else s) s

/-- The tick at which the profile of a running ramp ends, once its last segment plays for the last time. -/
def ClockGen.profileEnd (x : ClockGen) : Option Nat :=
  let b := x.banks.get x.bank {}
  if x.ramp = .running && x.seg + 1 == b.length && b.rep != 0 && x.reps + 1 == b.rep then
    some (x.segStart + (b.segs.get x.seg {}).dur * 128 / 5)
  else none

/-- The profile of generator `g` has ended at tick `e`: the output holds the final frequency and EV_RAMP_DONE is
raised (R103). -/
def State.endRamp (s : State) (g e : Nat) : State :=
  let x := s.gen g
  let f := (x.banks.get x.bank {}).finalFreq
  (s.setGen g ({ x with ramp := .done, endedAt := some e }.drive f)).event 0x0205 (3 + g)
    (g + 2 ^ 8 * x.bank + 2 ^ 16 * (f % 2 ^ 44))

/-- The profile of generator `g` has ended by now, if its last segment is over (R103). -/
def State.rampDue (s : State) (g : Nat) : State := match (s.gen g).profileEnd with
  | some e => if e ≤ s.now then s.endRamp g e else s
  | none => s

/-- RAMP_PROFILE_END (R103): REPEAT is the number of times that the profile plays in all.
DESIGN CHOICE, log entry 108. -/
def execRampProfileEnd (t gen : Nat) (s : State) : Host.Outcome State Fault Refusal :=
  happens t (fun s => if gen ≤ 2 then s.rampDue gen else s) s

/-! ## Commands -/

/-- REF_DETECTED: the frequency of a qualified reference, or of one that is present without being qualified yet: what
the detector has `seen`, a free value (R93, R106, R107). DEDUCED, log entry 27. -/
def Clock.detected (k : Clock) (seen : Nat) : Nat :=
  if k.refQual then k.refDetected else if seen ≤ 2 && (k.refFreq == 0 || k.refFreq == seen) then seen else 0

/-- CLOCK.SET_REF (R106). A qualified reference that is not of the frequency now named is lost, and so is PPS_IN with a
change of edge (R94, R96). A Vine MEMBER refuses the command (R361). DEDUCED, log entry 27. -/
def clockSetRef (c : Cmd) (s : State) : VerbOut :=
  let p := c.payload
  let qual := u32 p 8
  orElse [(decide (u8 p 0 > 4) || decide (u8 p 1 > 6) || decide (u8 p 2 > 2) || decide (u8 p 3 > 1) ||
           !zeros p 12 4 || (qual != 0 && (decide (qual < 100) || decide (60000 < qual))), .badParam),
          (s.vineMember, .badState)] <|
    let k := s.ck
    let turned := u8 p 3 != k.ppsEdge
    let refOff := u8 p 2 != 0 && u8 p 2 != k.refDetected
    let uses := ({ k with mode := u8 p 0 } : Clock).usesCause
    let cause := if refOff && k.refQual && uses 1 then 1 else if turned && k.ppsQual then 2 else 0
    let k := { k with
      mode := u8 p 0, bandwidth := u8 p 1, refFreq := u8 p 2, ppsEdge := u8 p 3, ppsDelay := s32 p 4,
      qualMs := if qual = 0 then 1000 else qual,
      ppsQual := if turned then false else k.ppsQual, ppsRun := if turned then 0 else k.ppsRun,
      refQual := k.refQual && !refOff }
    let s' := { s with ck := k }.loopUpdate cause
    .done .ok (k.detected (s.freeNat 2)) s'.drawFree

/-- CLOCK_SET_REF: `CLOCK.SET_REF` (R106). -/
def execClockSetRef (t fn tag : Nat) (s : State) : Host.Outcome State Fault Refusal :=
  verb t 0x0201 fn tag clockSetRef s

/-- TB_STATE (R107). -/
def TbState.code : TbState → Nat
  | .free => 0 | .acquiring => 1 | .locked => 2 | .holdover => 3

/-- One byte of RAMP_STATE (R107). -/
def ClockGen.rampByte (x : ClockGen) : Nat :=
  (match x.ramp with | .idle => 0 | .armed => 1 | .running => 2 | .done => 3 | .stopped => 4) + 16 * x.bank

/-- SYNTH_STATE (R107). -/
def State.synthWord (s : State) : Nat :=
  s.ck.sampleA.code + 4 * s.ck.sampleB.code + 16 * (s.gen 0).synth.code + 64 * (s.gen 1).synth.code +
    256 * (s.gen 2).synth.code + 1024 * s.ck.primary

/-- The 96 bytes of `CLOCK.GET_STATUS` (R107), with the two measured offsets.
DEDUCED, log entry 27. DESIGN CHOICE, log entry 118. -/
def State.clockStatus (s : State) (freqOffset oscDiff : Nat) : List Byte :=
  let k := s.ck
  let last := match k.ppsStamps with | (_, st) :: _ => st | [] => {}
  pack [(1, k.tb.code), (1, k.detected (s.freeNat 2)), (1, bit k.ppsQual + 2 * bit k.ppsMismatch),
    (1, bit (!k.oscStopped.contains 0) + 2 * bit (!k.oscStopped.contains 1) + 4 * k.activeOsc +
        8 * bit k.warmAt.isSome + 16 * bit k.oscDisagree),
    (2, s.synthWord), (2, 0), (4, freqOffset), (4, oscDiff), (4, unsign 32 k.ppsPhase),
    (4, if k.tb = .holdover then (s.now - k.holdSince) / ticksPerSecond else 0), (16, stampNat last),
    (4, k.ppsCount), (4, 0), (8, (k.binding.map Prod.fst).getD 0), (8, (k.binding.map Prod.snd).getD 0),
    (8, (s.gen 0).freq * bit (s.gen 0).enabled), (8, (s.gen 1).freq * bit (s.gen 1).enabled),
    (8, (s.gen 2).freq * bit (s.gen 2).enabled),
    (4, (s.gen 0).rampByte + 2 ^ 8 * (s.gen 1).rampByte + 2 ^ 16 * (s.gen 2).rampByte), (4, 0)]

/-- CLOCK_GET_STATUS: `CLOCK.GET_STATUS` (R107). -/
def execClockGetStatus (t fn tag freqOffset oscDiff : Nat) (s : State) : Host.Outcome State Fault Refusal :=
  verb t 0x0202 fn tag (fun _ s => .data (s.clockStatus freqOffset oscDiff) 0 s.drawFree) s

/-- Binds TAI second S to tick T; the loop holds later edges at T plus whole seconds, and the phase of the last edge is
taken against it (R97, R107). Naming a new edge ends a mismatch (R94). -/
def State.bindTime (s : State) (st : Stamp) (S : Nat) (edge : Bool) : State :=
  let ppsPhase := match s.ck.ppsStamps with
    | (_, l) :: _ => phaseError (stampFine l) (stampFine st)
    | [] => s.ck.ppsPhase
  { s with ck := { s.ck with binding := some (st.tick, S), heldPhase := some (stampFine st), ppsPhase,
                             ppsMismatch := s.ck.ppsMismatch && !edge } }.loopUpdate 0

/-- CLOCK.SET_TIME (R97, R108). -/
def clockSetTime (c : Cmd) (s : State) : VerbOut :=
  let p := c.payload
  let k := s.ck
  let e := u64 p 8
  if u8 p 0 > 1 || !zeros p 1 7 then .fail .badParam 0
  else if u8 p 0 = 1 then
    if k.mode = 3 ∨ k.mode = 4 ∨ (k.mode = 1 ∧ k.ppsQual) then .fail .badState 0
    else .done .ok e (s.bindTime { tick := s.lift e } (u64 p 16) false)
  else
    match k.ppsStamps.find? fun x => x.1 == e with
    | some (_, st) => .done .ok st.tick (s.bindTime st (u64 p 16) true)
    | none =>
      let ahead := (e + 2 ^ 32 - k.ppsCount) % 2 ^ 32
      if e < 2 ^ 32 ∧ 1 ≤ ahead ∧ ahead ≤ 60 then .wait else .fail .badParam 0

/-- CLOCK_SET_TIME: `CLOCK.SET_TIME` (R108). -/
def execClockSetTime (t fn tag : Nat) (s : State) : Host.Outcome State Fault Refusal :=
  verb t 0x0203 fn tag clockSetTime s

/-- The output divider: the smallest power of two that brings `f` mHz times it into the VCO range (R99).
DESIGN CHOICE, log entry 28. -/
def vcoDivider (f : Nat) : Nat → Nat
  | 0 => 1
  | n + 1 => if 6400000000000 ≤ f then 1 else 2 * vcoDivider (2 * f) n

/-- The achieved frequency: the nearest multiple of 100 MHz / 2^32 at the VCO, divided (R99).
DESIGN CHOICE, log entry 28. -/
def achieved (f : Nat) : Nat :=
  let n := vcoDivider f 10
  roundEven (roundEven (f * n * 2 ^ 32) (10 ^ 11) * 10 ^ 11) (2 ^ 32 * n)

/-- Sets an output to frequency `f`: from muted it locks anew; when it runs at another frequency, or coasts, the idle
core locks first. The second part says that there is something to wait for (R99, R100, R102). -/
def State.tune (s : State) (g f level : Nat) : State × Bool :=
  let x := { s.gen g with level, enabled := true }
  match x.synth with
  | .locked =>
    if x.freq = f then (s.setGen g x, false) else (s.setGen g { x with nextFreq := some f }, true)
  | .searching => (s.setGen g { x with freq := f }, true)
  | .muted => ((s.setSynth g { x with freq := f, settling := false, stuck := false } .searching), true)
  | .coasting => (s.setGen g { x with nextFreq := some f }, true)

/-- Mutes an output and switches its domain off (R105). What the domain keeps while it is off the spec does not say:
the profile banks and RAMP_STATE stay. DESIGN CHOICE, log entry 109. -/
def State.muteGen (s : State) (g : Nat) : State :=
  s.setSynth g { s.gen g with enabled := false, nextFreq := none, settling := false, zeroing := false, stuck := false } .muted

/-- Domain PD_CLK_n is on (R105): 0 to 2 with their output; 3, the fabric PLLs, while a domain that uses them is on,
which Cellar's are outside standby and thermal trip (R580, R583). -/
def State.pdClk (s : State) (n : Nat) : Bool :=
  if n < 3 then (s.gen n).enabled else n == 3 && (s.pw.state == .starting || s.pw.state == .running)

/-- CLOCK.SET_OUTPUT (R109). DESIGN CHOICE, log entry 90. -/
def clockSetOutput (c : Cmd) (s : State) : VerbOut :=
  let p := c.payload
  let o := u8 p 0
  let f := u64 p 8
  let range := o ≤ 1 ∧ (f < 10000000000 ∨ 12800000000000 < f)
  if o > 2 ∨ u8 p 1 > 1 ∨ !zeros p 3 5 ∨ !zeros p 16 8 ∨ (o ≤ 1 ∧ u8 p 2 > 2) ∨ range then .fail .badParam 0
  else if o = 2 then
    .done .ok 0 { s with ck := { s.ck with ppsOutOn := u8 p 1 == 1,
                                           ppsOutHigh := s.ck.ppsOutHigh && u8 p 1 == 1 } }
  else if (s.gen (o + 1)).ramp = .running ∨ (s.gen (o + 1)).ramp = .armed then .fail .badState 0
  else if u8 p 1 = 0 then .done .ok 0 (s.muteGen (o + 1))
  else
    let r := s.tune (o + 1) (achieved f) (u8 p 2)
    if r.2 then .running 0 [] r.1 else .done .ok (achieved f) r.1

/-- CLOCK_SET_OUTPUT: `CLOCK.SET_OUTPUT` (R109). -/
def execClockSetOutput (t fn tag : Nat) (s : State) : Host.Outcome State Fault Refusal :=
  verb t 0x0204 fn tag clockSetOutput s

/-- A segment from its 24 bytes (R110). -/
def rampSegOf (r : List Byte) : RampSeg := { start := u64 r 0, slope := s64 r 8, dur := u64 r 16 }

/-- CLOCK.LOAD_RAMP (R110). -/
def clockLoadRamp (c : Cmd) (s : State) : VerbOut :=
  let p := c.payload
  let g := u8 p 0
  let n := u16 p 4
  let segs := (records n 24 (p.drop 16)).map rampSegOf
  let bad := segs.any fun r => decide (r.dur % 10 ≠ 0 ∨ r.dur < 100 ∨ 1000000000000 < r.dur)
  if p.length ≠ 16 + 24 * n then .fail .badLength 0
  else if g > 2 ∨ u8 p 1 > 1 ∨ u16 p 2 > 255 ∨ n = 0 ∨ n > 170 ∨ u16 p 2 + n > 256 ∨ u16 p 6 = 0 ∨
      u16 p 6 > 256 ∨ u32 p 8 > 65535 ∨ !zeros p 12 4 ∨ bad then .fail .badParam 0
  else
    let x := s.gen g
    if x.ramp = .running ∧ x.bank = u8 p 1 then .fail .segmentActive 0
    else
      let b := x.banks.get (u8 p 1) {}
      let m := (List.zip (span (u16 p 2) n) segs).foldl (fun m e => KMap.set m e.1 e.2) b.segs
      .done .ok 0 (s.setGen g { x with
        banks := x.banks.set (u8 p 1) { segs := m, length := u16 p 6, rep := u32 p 8 } })

/-- CLOCK_LOAD_RAMP: `CLOCK.LOAD_RAMP` (R110). -/
def execClockLoadRamp (t fn tag : Nat) (s : State) : Host.Outcome State Fault Refusal :=
  verb t 0x0205 fn tag clockLoadRamp s

/-- CLOCK.START_RAMP (R104, R111). A bank that was never loaded is a bad parameter, and WHEN 2 waits where no Vine epoch
is known: the spec says neither. `crossing` is the first segment at which the firmware's placement of
band crossings falls less than 50 µs from another step or crossing, where there is one.
DESIGN CHOICE, log entry 110. -/
def clockStartRamp (crossing : Option Nat) (c : Cmd) (s : State) : VerbOut :=
  let p := c.payload
  let g := u8 p 0
  let x := s.gen g
  let b := x.banks.get (u8 p 1) {}
  let prof := b.profile
  let w : Sched := { mode := u8 p 2, at_ := u64 p 8 }
  let soon := match s.startTick w with
    | some t => w.mode != 0 && decide (t < s.now + 100 * ticksPerUs)
    | none => false
  if g > 2 ∨ u8 p 1 > 1 ∨ u8 p 2 > 2 ∨ !zeros p 3 5 ∨ !zeros p 16 8 ∨ b.length = 0 then .fail .badParam 0
  else if x.ramp = .running ∨ x.ramp = .armed ∨ !x.enabled then .fail .badState 0
  else if g = 0 ∧ s.cal.deskewRunning then .wait
  else
    match minOpt (minOpt (rampRangeFault (genRange g).1 (genRange g).2 0 prof) (b.stepFault))
        crossing with
    | some i => .fail .badParam i
    | none =>
      if soon then .fail .badParam 0
      else if g = 0 ∧ !s.patCovers (topFreq prof) then
        .fail .noAllotment 0
      else
        .running 0 [] (s.setGen g { x with ramp := .armed, bank := u8 p 1, sched := w, freqBefore := x.freq })

/-- CLOCK_START_RAMP: `CLOCK.START_RAMP` (R111). -/
def execClockStartRamp (t fn tag : Nat) (crossingFault : Option Nat) (s : State) :
    Host.Outcome State Fault Refusal :=
  verb t 0x0206 fn tag (clockStartRamp crossingFault) s

/-- CLOCK.STOP_RAMP (R112). In the 10 ns of the profile's end the profile counts as completed and ACTION then
applies. -/
def clockStopRamp (c : Cmd) (s : State) : VerbOut :=
  let p := c.payload
  let g := u8 p 0
  let x := s.gen g
  if g > 2 ∨ u8 p 1 > 1 ∨ !zeros p 2 2 then .fail .badParam 0
  else
    let s := s.rampDue g
    let x := s.gen g
    let ending := x.ramp == .done && x.endedAt.any fun e => decide (s.now < e + 256)
    if x.ramp ≠ .running ∧ !ending then .done .ok x.freq s
    else
    let x := if ending then x else { x with ramp := .stopped }
    if u8 p 1 = 0 ∨ x.freq = x.freqBefore then .done .ok x.freq (s.setGen g x)
    else .running 0 [] (s.setGen g { x with nextFreq := some x.freqBefore })

/-- CLOCK_STOP_RAMP: `CLOCK.STOP_RAMP` (R112). -/
def execClockStopRamp (t fn tag : Nat) (s : State) : Host.Outcome State Fault Refusal :=
  verb t 0x0207 fn tag clockStopRamp s

/-- CLOCK.SET_VECTOR_CLOCK (R113); it waits while the power-up deskew measurement runs (R538). -/
def clockSetVectorClock (c : Cmd) (s : State) : VerbOut :=
  let p := c.payload
  let f := u64 p 0
  let x := s.gen 0
  if u8 p 8 > 1 ∨ !zeros p 10 6 ∨ (u8 p 8 = 1 ∧ (f < 100000000000 ∨ 1600000000000 < f)) then .fail .badParam 0
  else if s.cal.deskewRunning then .wait
  else if x.ramp = .running ∨ x.ramp = .armed then .fail .badState 0
  else if u8 p 8 = 0 then
    if s.anySiteRuns then .fail .badState 0 else .done .ok 0 (s.muteGen 0)
  else if !s.patCovers f then .fail .noAllotment 0
  else
    let r := s.tune 0 (achieved f) (u8 p 9)
    if r.2 then .running 0 [] r.1 else .done .ok (achieved f) r.1

/-- CLOCK_SET_VECTOR_CLOCK: `CLOCK.SET_VECTOR_CLOCK` (R113). -/
def execClockSetVectorClock (t fn tag : Nat) (s : State) : Host.Outcome State Fault Refusal :=
  verb t 0x0208 fn tag clockSetVectorClock s

end Sys2Proof.Machine
end

