-- ==== Sys2Proof/Machine/Pat.lean ====
section
/-! DEFINITION. Pattern sites, their segments and the PAT family (R287 to R314). Positions in a segment are not
counted by time: the row at which something happens says which vector it is. -/

namespace Sys2Proof.Machine

/-- Site `n`. -/
def State.site (s : State) (n : Nat) : Site := s.pat.sites.get n {}

/-- Replaces a site. -/
def State.setSite (s : State) (n : Nat) (x : Site) : State :=
  { s with pat := { s.pat with sites := s.pat.sites.set n x } }

/-- Replaces a segment table entry. -/
def State.setSeg (s : State) (n : Nat) (g : Segment) : State :=
  { s with pat := { s.pat with segs := s.pat.segs.set n g } }

/-- Segment table entry `n`. -/
def State.seg (s : State) (n : Nat) : Segment := s.pat.segs.get n {}

/-- PE devices of a pin list, each once. -/
def devicesOf (pins : List Nat) : List Nat := (List.range 64).filter fun n => pins.any fun p => p / 64 == n

/-- Pins of a pin list on device `n`, as site pin and channel, in ascending channel order. -/
def pinsOn (pins : List Nat) (n : Nat) : List (Nat × Nat) :=
  (List.range 64).filterMap fun c => (pins.findIdx? fun p => p == 64 * n + c).map fun k => (k, c)

/-- VB: bytes of a master vector of `w` pins (R289). -/
def vectorBytes (w : Nat) : Nat := (8 + (w + 1) / 2 + 7) / 8 * 8

/-- Bytes of a slice of `w` pins (R324). -/
def sliceBytes (w : Nat) : Nat := 2 + (w + 1) / 2

/-- State code of site pin `k` in a vector (R289). -/
def pinState (v : List Byte) (k : Nat) : Nat := byteAt v (8 + k / 2) / 16 ^ (k % 2) % 16

/-- Reserved bytes and pin states of a vector of `w` pins are as R289 asks. -/
def vectorOk (w : Nat) (v : List Byte) : Bool :=
  zeros v 1 7 && (List.range w).all (fun k => decide (pinState v k < 8)) &&
    (List.range (2 * (v.length - 8))).all fun k => decide (k < w) || pinState v k == 0

/-- Nibbles packed into bytes, the low nibble first. -/
def packNibbles : List Nat → List Byte
  | [] => []
  | [a] => [BitVec.ofNat 8 a]
  | a :: b :: r => BitVec.ofNat 8 (a + 16 * b) :: packNibbles r

/-- The slice of a vector for the pins of one device (R324). -/
def sliceOf (v : List Byte) (on : List (Nat × Nat)) : List Byte :=
  let b0 := v.getD 0 0#8
  let st := packNibbles (on.map fun e => pinState v e.1)
  b0 :: BitVec.ofNat 8 (crc8 (b0 :: st)) :: st

/-- Sites of a mask. -/
def sitesIn (mask : Nat) : List Nat := maskBits 256 mask

/-- The site has started and launches vectors, or will. -/
def SiteMode.live (m : SiteMode) : Bool := m == .starting || m == .running

/-- Domain PD_PAT_k is on: one of sites 32k to 32k + 31 declares its power (R302). -/
def State.pdPat (s : State) (k : Nat) : Bool := s.domainOn 0x0A k

/-- Segment `n` is active for some site (R291). -/
def State.segActive (s : State) (n : Nat) : Bool :=
  s.pat.sites.any fun e => e.2.mode.live && e.2.play.active n

/-- Site and device pairs of a segment. -/
def State.segPairs (s : State) (mask : Nat) : List (Nat × Nat) :=
  (sitesIn mask).flatMap fun i => (devicesOf (s.site i).pins).map fun d => (i, d)

/-- Loads the shadows of a site with the last REQ_SEQ taken and TARGET 0xFFFF (R304). -/
def State.siteShadows (s : State) (n : Nat) : State :=
  (s.setShadow (0x3000 + n * 0x10) (s.site n).play.reqSeq).setShadow (0x3004 + n * 0x10) 0xFFFF

/-! ## Orders (R326) -/

/-- The park vector of a segment. -/
def State.parkVector (s : State) (g : Segment) (w : Nat) : List Byte :=
  s.cellarMem.readBytes (g.master + g.park * vectorBytes w) (vectorBytes w)

/-- STATES of a PARK frame for device `d` (R290, R320). -/
def parkStates (v : List Byte) (on : List (Nat × Nat)) : List Byte :=
  let code (c : Nat) : Nat := match on.find? fun e => e.2 == c with
    | some e => if pinState v e.1 = 0 then 0 else if pinState v e.1 = 1 then 1 else 2
    | none => 3
  leBytes 16 ((List.range 64).foldl (fun n c => n + code c * 4 ^ c) 0)

/-- PARK to the devices of a site, from the vector with `cycle` launched before it, at the park vector of a segment (R326).
-/
def State.sendPark (s : State) (n cycle seg : Nat) : State :=
  let x := s.site n
  let v := s.parkVector (s.seg seg) x.pins.length
  (devicesOf x.pins).foldl (fun s d =>
    s.peSendS d 5 (pack [(1, n), (1, 0), (6, x.vc0 + cycle), (2, 0)] ++ parkStates v (pinsOn x.pins d))) s

/-- Bytes `lo` to `lo + n − 1` of what a device plays of segment `g`: the slices of its vectors from the master copy,
iteration after iteration, and zeros after the last (R297, R324). -/
def State.sliceStream (s : State) (g : Segment) (w : Nat) (on : List (Nat × Nat)) (lo n : Nat) : List Byte :=
  let size := sliceBytes on.length
  let slice (j : Nat) : List Byte :=
    if g.rep ≠ 0 ∧ g.rep * g.length ≤ j then List.replicate size 0#8
    else sliceOf (s.cellarMem.readBytes (g.master + j % g.length * vectorBytes w) (vectorBytes w)) on
  (((span (lo / size) (n / size + 2)).flatMap slice).drop (lo % size)).take n

/-- Refills the ring of a device through channel `c` from the master copy, while the site launches vector `index` of its
iteration, in whole codewords of 640 bytes. Slices that the site has not launched yet are never overwritten (R297, R323).
-/
def State.refillChannel (s : State) (d c index : Nat) : State :=
  let b := (s.peDev d).bulk.get c {}
  let g := s.seg b.seg
  let x := s.site b.site
  let on := pinsOn x.pins d
  let size := sliceBytes on.length
  let room := (x.play.base + index - b.start + g.ring) * size
  let last := (g.rep * g.length * size + 639) / 640 * 640
  let upto := if g.rep = 0 then room else min room last
  s.bulkSend d c (s.sliceStream g x.pins.length on b.sent ((upto - b.sent) / 640 * 640))

/-- NEXT to the devices of a site: segment `t` from the vector with `cycle` launched before it; a streamed
segment gets a bulk channel on each device (R297, R323, R326). -/
def State.sendNext (s : State) (n t cycle : Nat) (start : Bool) : State :=
  let x := s.site n
  let g := s.seg t
  ((devicesOf x.pins).filter fun d => (s.peDev d).linked).foldl (fun s d =>
    let w := (pinsOn x.pins d).length
    let m := (g.pe.get (n * 64 + d) (0, 0)).1
    let c := if g.streamed then lowestChannel (s.peDev d) else 0
    let s := if g.streamed then
        (s.bulkOpen d n t m (g.ring * sliceBytes w) cycle false []).refillChannel d c 0
      else s
    s.peSendS d 4 (pack [(1, n), (1, bit start + 2 * bit g.streamed), (6, x.vc0 + cycle),
      (1, c), (1, 0), (6, m), (4, g.length), (4, g.rep), (4, g.ring), (4, 0)])) s

/-- The channels that streamed to the devices of a site are free again, all of them or those that started before
`place`. -/
def State.endStream (s : State) (n : Nat) (place : Option Nat) : State :=
  let ends (b : Bulk) : Bool := !b.write && b.site == n && (place.elim true fun p => decide (b.start < p))
  (devicesOf (s.site n).pins).foldl (fun s d =>
    let x := s.peDev d
    s.setPe d { x with bulk := x.bulk.filter fun e => !ends e.2 }) s

/-- Device `d` of a site has not confirmed receipt of the vector at index `index` of the site's iteration (R298). -/
def State.refillShort (s : State) (n d index : Nat) : Bool :=
  let x := s.site n
  let place := x.play.base + index
  match (s.peDev d).streamAt n place with
  | some b => (devicesOf x.pins).contains d &&
      decide (b.confirmed < (place + 1 - b.start) * sliceBytes (pinsOn x.pins d).length)
  | none => false

/-! ## Results and the end of a run (R300, R301, R314, R334) -/

/-- Code of a site state (R300). -/
def SiteMode.code : SiteMode → Nat
  | .undefined => 0 | .idle => 1 | .starting => 2 | .running => 3 | .done => 4 | .stopped => 5 | .stalled => 6
  | .lost => 7 | .quiescing => 8

/-- FAILED_VECTORS: distinct failed vectors reported, and those that devices did not list.
DESIGN CHOICE, log entry 53. -/
def Site.failedVectors (x : Site) : Nat :=
  min (x.failed.length + x.unlisted.foldl (fun n e => n + e.2) 0) (2 ^ 64 - 1)

/-- RESULT of a site that ends in a state (R301). -/
def Site.verdict (x : Site) (m : SiteMode) : Nat :=
  match m with
  | .stalled | .lost => 2
  | _ => if x.anyFail || x.failedVectors != 0 then 1 else if m = .done then 0 else 3

/-- Completes the stops whose sites are all quiescent, and the revocations of quiescent sites, releasing their
allotments (R303, R306, R505). -/
def State.finishPatStops (s : State) : State :=
  let busy (i : Nat) : Bool := (s.site i).mode.live || (s.site i).mode == .quiescing
  let ready := s.startedCmds 0x0A06 fun c => !(sitesIn (field c.payload 0 32)).any busy
  let s := ready.foldl (fun s c =>
    (sitesIn (field c.payload 0 32)).foldl (fun s i => s.release (actKey kindSite i)) s) s
  let revoked := s.startedCmds 0x1403 fun c => u8 c.payload 0 == kindSite && !busy (u32 c.payload 4)
  let s := revoked.foldl (fun s c => s.release (actKey kindSite (u32 c.payload 4))) s
  let waits := (s.startedCmds 0x0105 fun _ => true).flatMap fun c =>
    c.named.filter fun k => k / 65536 == kindSite && !busy (k % 65536)
  let s := waits.foldl (fun s k => s.release k) s
  s.finishAll ready .quiesced fun _ => 0

/-- EV_SITE_DONE: the site enters its last state with its result (R301, R314). -/
def State.siteDone (s : State) (n : Nat) (m : SiteMode) : State :=
  let x := s.site n
  let r := x.verdict m
  let s := (s.setSite n { x with mode := m, result := r, due := none }).undeclare 0x0A n
  (s.eventAt 0x0A01 n x.ended (m.code + 2 ^ 8 * r + 2 ^ 16 * (x.vectors % 2 ^ 48))).finishPatStops

/-- The results of every vector of the site are in, from every device that still has a link (R334).
DESIGN CHOICE, log entry 52. -/
def State.resultsIn (s : State) (n : Nat) : Bool :=
  let x := s.site n
  (devicesOf x.pins).all fun d => !(s.peDev d).linked || decide (x.vectors ≤ x.complete.get d 0)

/-- Ends the run of a site whose results are in. -/
def State.siteSettle (s : State) (n : Nat) : State :=
  match (s.site n).due, (s.site n).play.parkAt with
  | some m, none => if s.resultsIn n then s.siteDone n m else s
  | _, _ => s

/-- A site has launched its last vector: `vectors` in all, in END or parked at `st`; EV_SITE_DONE follows once their
results are in. A site that has lost a device ends lost whichever way it ends (R300, R301, R331). -/
def State.siteEnds (s : State) (n vectors : Nat) (st : Stamp) (m : SiteMode) : State :=
  let x := s.site n
  let m := if x.due == some .lost then .lost else m
  let mode : SiteMode := if m = .stopped then .quiescing else m
  ((s.endStream n none).setSite n { x with
    mode, vectors, ended := st, seen := st, play := x.play.ended, due := some m, matches_ := [] }).siteSettle n

/-- A site stalls at index `index` of its iteration, where its devices park it (R298, R299, R314). -/
def State.siteStall (s : State) (n index device cause : Nat) : State :=
  let x := s.site n
  let s := s.event 0x0A02 n (index + 2 ^ 32 * x.play.seg + 2 ^ 48 * cause + 2 ^ 56 * device)
  s.siteEnds n (x.play.base + index) s.stampNow .stalled

/-! ## Requests -/

/-- Recognises the match requests of vectors up to `place` (R294). -/
def State.settleMatches (s : State) (n place : Nat) : State :=
  let x := s.site n
  let g := s.seg x.play.seg
  let due := x.matches_.filter fun e => decide (e.1 ≤ place ∧ e.1 < x.play.base + g.length)
  let play := due.foldl (fun (p : Player) e => p.ask g e.2 none (e.1 - p.base)) x.play
  s.setSite n { x with play, matches_ := x.matches_.filter fun e => !due.contains e }

/-- A running site recognises a request at index `v` of its iteration. -/
def State.siteAsk (s : State) (n cause : Nat) (target : Option Nat) (v : Nat) : State :=
  if (s.site n).mode = .running then
    let s := s.settleMatches n ((s.site n).play.base + v)
    let x := s.site n
    s.setSite n { x with play := x.play.ask (s.seg x.play.seg) cause target v }
  else s

/-- TRIGGER_JUMP_ARRIVAL (R294): the oldest routed request for the site is recognised. -/
def execTriggerJumpArrival (t site index : Nat) (s : State) : Host.Outcome State Fault Refusal :=
  happens t (fun s =>
    match s.trig.jumps.find? fun j => j.1 == site with
    | none => s
    | some j =>
      if site > 255 then s
      else { s with trig := { s.trig with jumps := s.trig.jumps.erase j } }.siteAsk site j.2 none index) s

/-- SITE_EVENT_ARRIVAL (R16, R19, R289): `launch` is the launch of the vector that raises it. -/
def execSiteEventArrival (t site : Nat) (launch : Stamp) (s : State) : Host.Outcome State Fault Refusal :=
  happens t (fun s =>
    let st := s.nextStamp (s.site site).seen launch
    ((s.setSite site { s.site site with seen := st }).offerTrig 12 site none st false).openSiteBlanking site) s

/-- DECISION_POINT (R291, R295, R326): the order for the coming boundary leaves, be it NEXT or PARK. -/
def execDecisionPoint (t site : Nat) (s : State) : Host.Outcome State Fault Refusal :=
  happens t (fun s =>
    let x := s.site site
    if x.mode != .running || x.play.chosen.isSome then s
    else
      let s := s.settleMatches site (x.play.base + (s.seg x.play.seg).length - x.play.horizon)
      let x := s.site site
      let c := x.play.decide s.pat.segs fun g => g.sites.testBit site
      let s := s.setSite site { x with play := { x.play with chosen := some c } }
      let at_ := x.play.base + (s.seg x.play.seg).length
      match c with
      | .enter u => s.sendNext site u at_ false
      | .jump u => s.sendNext site u at_ false
      | .stop => s.sendPark site at_ x.play.seg
      | .locked => s.sendPark site at_ x.play.seg
      | .missing => s.sendPark site at_ x.play.seg
      | _ => s) s

/-- SEGMENT_BOUNDARY (R19, R290, R295, R299, R314); `last` is the launch of the iteration's last vector. -/
def execSegmentBoundary (t site : Nat) (last : Stamp) (s : State) : Host.Outcome State Fault Refusal :=
  happens t (fun s =>
    if (s.site site).mode != .running || (s.site site).play.chosen.isNone then s
    else
      let g := s.seg (s.site site).play.seg
      let s := s.settleMatches site ((s.site site).play.base + g.length)
      let x := s.site site
      let total := x.play.base + g.length
      let end_ := s.nextStamp x.seen last
      let go (s : State) (c : PlayChoice) : State :=
        let x := s.site site
        s.setSite site { x with play := x.play.cross s.pat.segs c, vectors := total, seen := end_ }
      let into (s : State) (u : Nat) (c : PlayChoice) : State :=
        let s := go (s.endStream site (some total)) c
        let y := s.site site
        s.setSite site { y with path := (total, u, (s.seg u).length) :: y.path }
      match x.play.chosen with
      | some .again => go s .again
      | some (.enter u) => into s u (.enter u)
      | some (.jump u) =>
        let s := match x.play.jump with
          | some r => s.event 0x0A03 site (r.detail u)
          | none => s
        into s u (.jump u)
      | some .finish => s.siteEnds site total end_ .done
      | some .stop => s.siteEnds site total s.stampNow .stopped
      | some .locked => s.siteStall site g.length 0xFF 2
      | some .missing => s.siteStall site g.length 0xFF 2
      | none => s) s

/-- A running site that is launching vector `index` of its iteration is to park in state `m` at the vector launched H
vectors later: PARK leaves now (R298, R303, R326, R331). Of two such the earlier vector stands, and a lost device the
state. DESIGN CHOICE, log entry 52. -/
def State.parkLater (s : State) (n : Nat) (m : SiteMode) (index : Nat) : State :=
  let x := s.site n
  if x.mode != .running then s
  else
    let m := if x.due == some .lost then .lost else m
    let to_ := x.play.base + index + x.play.horizon
    let place := match x.play.parkAt with
      | some k => min k to_
      | none => to_
    let s := s.setSite n { x with due := some m, play := { x.play with parkAt := some place } }
    s.sendPark n place (x.play.segAt (s.seg x.play.seg).length place)

/-- The same where nothing says which vector the site is launching: the vector of its iteration is free.
DESIGN CHOICE, log entry 130. -/
def State.parkSoon (s : State) (n : Nat) (m : SiteMode) : State :=
  let x := s.site n
  if x.mode != .running then s
  else (s.parkLater n m (s.freeNat 32 % max 1 (s.seg x.play.seg).length)).drawFree

/-- REFILL_LATE (R298): the site launches vector `index` of its iteration, and `device` has not confirmed receipt of the
vector H later; the site parks from that vector. -/
def execRefillLate (t site index device : Nat) (s : State) : Host.Outcome State Fault Refusal :=
  happens t (fun s =>
    let x := s.site site
    if x.mode == .running && x.due.isNone && s.refillShort site device (index + x.play.horizon) then
      (s.setSite site { x with short := device }).parkLater site .stalled index
    else s) s

/-- SITE_PARK (R298, R303, R331): the site is about to launch vector `index` of its iteration, at which an IMMEDIATE stop,
a late refill or a lost device parks it. -/
def execSitePark (t site index : Nat) (s : State) : Host.Outcome State Fault Refusal :=
  happens t (fun s =>
    let x := s.site site
    match x.due with
    | some m =>
      if x.mode != .running || x.play.parkAt != some (x.play.base + index) then s
      else if m = .stalled then s.siteStall site index x.short 1
      else s.siteEnds site (x.play.base + index) s.stampNow m
    | none => s) s

/-- Site `n` takes its jump request from an occurrence of its group at vector `index` (R84, R304). -/
def State.patTake (s : State) (n index : Nat) (words : KMap Nat) : State :=
  let q := words.get (0x3000 + n * 0x10) 0 % 256
  let x := s.site n
  if q = x.play.reqSeq then s
  else
    (s.setSite n { x with play := { x.play with reqSeq := q } }).siteAsk n 65
      (targetOf (words.get (0x3004 + n * 0x10) 0xFFFF % 65536)) index

/-! ## Segment commands -/

/-- PE memory blocks of device `d` that are in use. -/
def State.peUsed (s : State) (d : Nat) (but : Nat) : List (Nat × Nat) :=
  s.pat.segs.flatMap fun e => if e.1 = but then [] else
    (e.2.pe.filter fun k => k.1 % 64 == d).map Prod.snd

/-- Allocates PE memory for a segment on every pair of site and device, with `spill` bytes behind it that its last bulk
codeword may write; the error names the device that is too small (R307, R323). DESIGN CHOICE, log entry 54. -/
def State.allocPe (s : State) (seg vectors spill : Nat) : List (Nat × Nat) → KMap (Nat × Nat) →
    Except Nat (KMap (Nat × Nat))
  | [], m => .ok m
  | (i, d) :: rest, m =>
    let n := vectors * sliceBytes (pinsOn (s.site i).pins d).length + spill
    let used := s.peUsed d seg ++ (m.filter fun k => k.1 % 64 == d).map Prod.snd
    match firstFit used 1 n (s.peDev d).memory with
    | none => .error d
    | some b => s.allocPe seg vectors spill rest (m.set (i * 64 + d) (b, n))

/-- PAT.DEFINE_SEGMENT (R307). -/
def patDefineSegment (c : Cmd) (s : State) : VerbOut :=
  let p := c.payload
  let n := u16 p 0
  let fl := u8 p 2
  let str := fl.testBit 0
  let len := u32 p 4
  let ring := u32 p 8
  let master := u64 p 16
  let mask := field p 32 32
  let ws := (sitesIn mask).map fun i => (s.site i).pins.length
  let w := ws.headD 0
  if fl > 3 ∨ !zeros p 3 1 ∨ !zeros p 12 4 ∨ !zeros p 24 8 ∨
      (!fl.testBit 1 ∧ (len < 64 ∨ (if str then ring < 4096 ∨ ring > 1048576 else ring ≠ 0) ∨ master % 64 ≠ 0 ∨
        !s.inRegion master (len * vectorBytes w))) then .fail .badParam 0
  else if !s.readyBit 18 then .fail .notReady 0
  else if s.segActive n then .fail .segmentActive 0
  else if fl.testBit 1 then
    .done .ok 0 { s with pat := { s.pat with segs := s.pat.segs.del n } }
  else if (sitesIn mask).any (fun i => (s.site i).mode == .undefined) ∨ ws.any (· != w) then .fail .badState 0
  else
    match s.allocPe n (if str then ring else len) (if str then 0 else 639) (s.segPairs mask) [] with
    | .error d => .fail .noResource d
    | .ok pe =>
      .done .ok (len * vectorBytes w)
        (s.setSeg n { length := len, streamed := str, ring, master, sites := mask, pe })

/-- PAT_DEFINE_SEGMENT: `PAT.DEFINE_SEGMENT` (R307). -/
def execPatDefineSegment (t fn tag : Nat) (s : State) : Host.Outcome State Fault Refusal :=
  verb t 0x0A01 fn tag patDefineSegment s

/-- Pins of a site of the segment. -/
def State.segWidth (s : State) (g : Segment) : Nat :=
  ((sitesIn g.sites).map fun i => (s.site i).pins.length).headD 0

/-- Sends the slices of `count` vectors from `first` on to every device of a held segment, in whole codewords: what follows
them in the master copy fills the last one (R308, R323). DESIGN CHOICE, log entry 54. -/
def State.writeSlices (s : State) (n first count : Nat) : State :=
  let g := s.seg n
  (if count = 0 then [] else s.segPairs g.sites).foldl (fun s e =>
    let pins := (s.site e.1).pins
    let on := pinsOn pins e.2
    let size := sliceBytes on.length
    let m := (g.pe.get (e.1 * 64 + e.2) (0, 0)).1
    s.bulkOpen e.2 e.1 n (m + first * size) 0 0 true
      (s.sliceStream { g with rep := 1 } pins.length on (first * size) ((count * size + 639) / 640 * 640))) s

/-- A write of segment `n` still waits for a device. -/
def State.writeWaits (s : State) (n : Nat) : Bool :=
  s.pe.any fun e => e.2.bulk.any fun b => b.2.write && b.2.seg == n

/-- Completes the writes whose devices have all confirmed receipt, and unlocks their segments (R291, R308).
DESIGN CHOICE, log entry 53. -/
def State.finishWrites (s : State) : State :=
  let ready := s.startedCmds 0x0A02 fun c => !s.writeWaits (u16 c.payload 0)
  ready.foldl (fun s c =>
    let n := u16 c.payload 0
    let s := s.setSeg n { s.seg n with locked := false }
    if c.aux = 0 then s.finish c .ok 0 else s.finish c .badParam (c.aux - 1)) s

/-- PAT.WRITE_SEGMENT (R291, R308); `host` is what the host memory system returns for the table. -/
def patWriteSegment (host : List Byte) (c : Cmd) (s : State) : VerbOut :=
  let p := c.payload
  let n := u16 p 0
  let count := u32 p 4
  let first := u32 p 8
  let addr := u64 p 16
  let g := s.seg n
  let w := s.segWidth g
  let vb := vectorBytes w
  let cellar := u8 p 2 == 1
  if u8 p 2 > 1 ∨ !zeros p 3 1 ∨ !zeros p 12 4 ∨ (!cellar ∧ addr % 8 ≠ 0) then .fail .badParam 0
  else if !s.readyBit 18 then .fail .notReady 0
  else if !s.pat.segs.has n then .fail .badState 0
  else if first + count > g.length ∨ (cellar ∧ !s.inRegion addr (count * vb)) then .fail .badParam 0
  else if s.segActive n then .fail .segmentActive 0
  else
    let vs := records count vb (if cellar then s.cellarMem.readBytes addr (count * vb) else host)
    let bad := vs.findIdx? fun v => !vectorOk w v
    let ok := match bad with | some k => vs.take k | none => vs
    let s0 := s.hostLoad c addr (count * vb) cellar
    let s1 := (s0.keepCellar (s0.cellarMem.writeBytes (g.master + first * vb) ok.flatten))
    let s2 := if g.streamed then s1 else s1.writeSlices n first ok.length
    if s2.writeWaits n then
      .running (match bad with | some k => first + k + 1 | none => 0) [] (s2.setSeg n { g with locked := true })
    else
      match bad with
      | some k => .done .badParam (first + k) s2
      | none => .done .ok 0 s2

/-- PAT_WRITE_SEGMENT: `PAT.WRITE_SEGMENT` (R308). -/
def execPatWriteSegment (t fn tag : Nat) (table : List Byte) (s : State) : Host.Outcome State Fault Refusal :=
  verb t 0x0A02 fn tag (patWriteSegment table) s

/-- PAT.LOAD_TABLE (R291, R309, R315): segments 0 to 65,535, repeats to 2^24 or, at 0, for ever. -/
def patLoadTable (c : Cmd) (s : State) : VerbOut :=
  let p := c.payload
  let k := u16 p 0
  let es := records k 24 (p.drop 8)
  let check (e : List Byte) : Option Status :=
    if u8 e 2 > 31 ∨ !zeros e 3 1 ∨ u32 e 4 > 16777216 ∨ u32 e 8 ≥ 2 ^ 17 ∨ !zeros e 14 2 ∨ !zeros e 20 4 then
      some .badParam
    else if !s.pat.segs.has (u16 e 0) then some .badState
    else if u32 e 16 ≥ (s.seg (u16 e 0)).length then some .badParam
    else if s.segActive (u16 e 0) then some .segmentActive
    else none
  if p.length ≠ 8 + 24 * k then .fail .badLength 0
  else if !zeros p 2 6 ∨ k > 170 then .fail .badParam 0
  else
    match firstRefused check 0 es with
    | some (i, st) => .fail st i
    | none =>
      .done .ok 0 (es.foldl (fun s e =>
        let n := u16 e 0
        s.setSeg n { s.seg n with
          cond := u8 e 2, rep := u32 e 4, next := if (u32 e 8).testBit 16 then none else some (u32 e 8 % 65536),
          target := u16 e 12, park := u32 e 16 }) s)

/-- PAT_LOAD_TABLE: `PAT.LOAD_TABLE` (R309). -/
def execPatLoadTable (t fn tag : Nat) (s : State) : Host.Outcome State Fault Refusal :=
  verb t 0x0A03 fn tag patLoadTable s

/-! ## Sites and time sets -/

/-- SITE_MAP frames: the channels of a site on each device of a list (R320). -/
def State.sendSiteMap (s : State) (n : Nat) (pins devs : List Nat) : State :=
  devs.foldl (fun s d =>
    let m := (pinsOn pins d).foldl (fun m e => m + 2 ^ e.2) 0
    s.peSendR d 9 (pack [(1, n), (7, 0), (8, m)])) s

/-- PAT.DEFINE_SITE (R287, R310) (R315: 256 sites of up to 256 pins among 4,096). -/
def patDefineSite (c : Cmd) (s : State) : VerbOut :=
  let p := c.payload
  let n := u8 p 0
  let w := u16 p 2
  let pins := (records w 2 (p.drop 8)).map leNat
  let devs := devicesOf pins
  let x := s.site n
  let rel := u8 p 1 == 1
  let fixed := x.mode == .undefined || x.mode == .idle || x.mode == .done || x.mode == .stopped
  let other := s.pat.sites.find? fun e => e.1 != n && e.2.pins.any pins.contains
  if p.length ≠ 8 + 2 * w then .fail .badLength 0
  else if u8 p 1 > 1 ∨ !zeros p 4 4 ∨ (!rel ∧ (w = 0 ∨ w > 256 ∨ pins.any (fun q => decide (q > 4095)) ∨
      !noRepeat pins ∨ devs.length > 4)) then .fail .badParam 0
  else if !s.readyBit 18 then .fail .notReady 0
  else if !fixed then .fail .badState 0
  else if rel then
    let s1 := s.sendSiteMap n [] (devicesOf x.pins)
    .done .ok 0 (((s1.setSite n { play := { reqSeq := x.play.reqSeq } }).siteShadows n).release (actKey kindSite n)).finishPatStops
  else
    match other, devs.find? fun d => !s.peUsable d with
    | some e, _ => .fail .badState e.1
    | none, some d => .fail .badState d
    | none, none =>
      if w ≠ x.pins.length ∧ s.pat.segs.any (fun g => g.2.sites.testBit n) then .fail .badState 0
      else
        let s1 := (s.sendSiteMap n [] ((devicesOf x.pins).filter fun d => !devs.contains d)).sendSiteMap n pins devs
        .done .ok 0 ((s1.setSite n { mode := .idle, pins, play := { reqSeq := x.play.reqSeq } }).siteShadows n)

/-- PAT_DEFINE_SITE: `PAT.DEFINE_SITE` (R310). -/
def execPatDefineSite (t fn tag : Nat) (s : State) : Host.Outcome State Fault Refusal :=
  verb t 0x0A04 fn tag patDefineSite s

/-- PAT.LOAD_TIMESETS (R312). -/
def patLoadTimesets (host : List Byte) (c : Cmd) (s : State) : VerbOut :=
  let p := c.payload
  let n := u8 p 0
  let first := u8 p 1
  let k := u8 p 2
  let pin := u16 p 4
  let addr := u64 p 8
  let x := s.site n
  let cellar := u8 p 3 == 1
  if first > 63 ∨ k = 0 ∨ first + k > 64 ∨ u8 p 3 > 1 ∨ !zeros p 6 2 ∨ !zeros p 16 8 ∨
      (if cellar then !s.inRegion addr (16 * k) else addr % 8 ≠ 0) then .fail .badParam 0
  else if !s.readyBit 18 then .fail .notReady 0
  else if x.mode = .undefined ∨ x.mode.live ∨ x.mode = .quiescing then .fail .badState 0
  else if pin ≠ 0xFFFF ∧ x.pins.length ≤ pin then .fail .badParam 0
  else
    let rows := records k 16 (if cellar then s.cellarMem.readBytes addr (16 * k) else host)
    let edges (r : List Byte) : List Nat := [u32 r 0, u32 r 4, u32 r 8, u32 r 12]
    let s := s.hostLoad c addr (16 * k) cellar
    if rows.any fun r => (edges r).any fun v => decide (39999 < v) && v != 4294967295 then .done .badParam 0 s
    else
      let pins := if pin = 0xFFFF then List.range x.pins.length else [pin]
      let put (m : KMap TimeSet) (q : Nat) : KMap TimeSet :=
        (List.zip (span first k) rows).foldl (fun m e =>
          m.set (q * 64 + e.1) { on := u32 e.2 0, data := u32 e.2 4, off := u32 e.2 8, strobe := u32 e.2 12 }) m
      .done .ok 0 (s.setSite n { x with sets := pins.foldl put x.sets })

/-- PAT_LOAD_TIMESETS: `PAT.LOAD_TIMESETS` (R312). -/
def execPatLoadTimesets (t fn tag : Nat) (table : List Byte) (s : State) : Host.Outcome State Fault Refusal :=
  verb t 0x0A09 fn tag (patLoadTimesets table) s

/-- An edge with its deskew as a TIMESET frame carries it (R320, R332). -/
def edgeWord (v : Nat) (deskew : Int) : Nat :=
  if v = 4294967295 then 2147483648 else unsign 32 ((v : Int) + deskew)

/-- One 18-byte TIMESET entry. -/
def State.timesetEntry (s : State) (pin set : Nat) (z : TimeSet) : List Byte :=
  let k := (s.peDev (pin / 64)).deskew.get (pin % 64) (0, 0)
  pack [(1, pin % 64), (1, set), (4, edgeWord z.on k.1), (4, edgeWord z.data k.1), (4, edgeWord z.off k.1),
    (4, edgeWord z.strobe k.2)]

/-- Sends the time sets of a site with the present deskew, three entries a frame (R320, R332).
DESIGN CHOICE, log entry 55. -/
def State.sendTimesets (s : State) (n : Nat) : State :=
  let x := s.site n
  (devicesOf x.pins).foldl (fun s d =>
    let mine := x.sets.filter fun e => x.pins.getD (e.1 / 64) 0 / 64 == d
    let es := mine.map fun e => s.timesetEntry (x.pins.getD (e.1 / 64) 0) (e.1 % 64) e.2
    let pad := es ++ List.replicate (2 - (es.length + 2) % 3) (0xFF#8 :: List.replicate 17 0#8)
    (records (pad.length / 3) 54 pad.flatten).foldl (fun s f => s.peSendR d 8 f) s) s

/-! ## Start and stop -/

/-- H (R292, R315): 64 to 384 vectors. -/
def horizonOf (vecMax : Nat) : Nat := max 64 (32 * ((240 * vecMax + 32 * 10 ^ 12 - 1) / (32 * 10 ^ 12)))

/-- What a site that can reach a streamed segment asks for (R297). -/
def State.siteDemand (s : State) (n vecMax : Nat) : KMap Nat :=
  let x := s.site n
  let rate (b : Nat) : Nat := (b * vecMax + 999) / 1000
  (devicesOf x.pins).foldl (fun m d =>
    m.set (16 + d) (rate (sliceBytes (pinsOn x.pins d).length)))
    [(0, rate (vectorBytes x.pins.length))]

/-- What the capture settings of a site ask for: upstream Trellis bytes of each buddy pair it uses (held by
the pair's first device of the site), and Cellar bytes (R335). DESIGN CHOICE, log entry 55. -/
def State.captureDemand (s : State) (n : Nat) (k : CaptureCfg) : KMap Nat :=
  let up := 64 * ((k.failRate * 1000 + 2) / 3) + 32 * k.capRate * 1000
  let mem := (4 * (32 * k.failRate + 64 * k.capRate) * 1000 + 2) / 3
  if up = 0 then []
  else
    let devs := devicesOf (s.site n).pins
    (devs.filter fun d => d % 2 == 0 || !devs.contains (d - 1)).foldl (fun m d => KMap.set m (128 + d) up) [(0, mem)]

/-- Admits each site of a list (R297, R335). -/
def State.admitSites (s : State) (vecMax : Nat) (streamed : Bool) : List Nat → Option State
  | [] => some s
  | n :: ns =>
    let d := addDemand (if streamed then s.siteDemand n vecMax else []) (s.captureDemand n (s.site n).nextCap)
    match (if d.isEmpty then some s else s.allot (actKey kindSite n) d) with
    | some s' => s'.admitSites vecMax streamed ns
    | none => none

/-- The first order of a start leaves as `PAT.START` executes, which is the decision point of the start segment: NEXT
with START, or PARK where a write holds that segment (R291, R299, R326). -/
def State.sendStart (s : State) (n : Nat) : State :=
  let x := s.site n
  if (s.seg x.play.seg).locked then
    (s.setSite n { x with play := { x.play with chosen := some .locked } }).sendPark n 0 x.play.seg
  else s.sendNext n x.play.seg 0 true

/-- PAT.START (R104, R291, R293, R297, R302, R305, R315): the VCOUNT of vector 0, which every device counts, is free;
streaming is admitted at VEC_MAX, or at the highest frequency of a
ramp of generator 0 that runs or is armed, where that is higher; 2.5 W for a domain and 0.05 W for a site, streaming admitted per buddy
pair. DEDUCED, log entry 124. DESIGN CHOICE, log entry 130. -/
def patStart (c : Cmd) (s : State) : VerbOut :=
  let p := c.payload
  let names := sitesIn (field p 0 32)
  let seg := u16 p 32
  let w : Sched := { mode := u8 p 34, at_ := u64 p 40 }
  let clk := s.gen 0
  let vm := if u64 p 48 = 0 then clk.freq else u64 p 48
  let top := max vm clk.rampTop
  let h := horizonOf top
  let rs := reach s.pat.segs seg
  let member (r : Nat) : Bool := match s.pat.segs.find r with
    | some g => names.all fun n => g.sites.testBit n
    | none => false
  let short (r : Nat) : Bool := (s.seg r).cond != 0 && decide ((s.seg r).length < 2 * h)
  let late (v : Nat) : Bool := v != 4294967295 && decide (4 * 10 ^ 15 ≤ v * vm)
  let edges := names.any fun n => (s.site n).sets.any fun e => late e.2.on || late e.2.data || late e.2.off || late e.2.strobe
  if names.isEmpty ∨ w.mode > 2 ∨ !zeros p 35 5 ∨ !zeros p 56 8 ∨
      (u64 p 48 ≠ 0 ∧ (vm < 100000000000 ∨ 1600000000000 < vm)) then .fail .badParam 0xFFFF
  else if !s.readyBit 18 then .fail .notReady 0
  else if s.cal.deskewRunning then .wait
  else if !clk.enabled ∨ names.any (fun n =>
      let x := s.site n
      x.mode == .undefined || x.mode.live || x.mode == .quiescing || (devicesOf x.pins).any fun d => !s.peUsable d) ∨
      (s.startTick w).isNone then .fail .badState 0
  else
    match rs.find? fun r => !member r || short r with
    | some r => .fail .badParam r
    | none =>
      if edges ∨ vm < clk.freq ∨ s.tooSoon w then .fail .badParam 0xFFFF
      else
        match s.admitSites top (rs.any fun r => (s.seg r).streamed) names with
        | none => .fail .noAllotment 0
        | some s1 =>
          match s1.declare (names.map fun n =>
              { fam := 0x0A, obj := n, group := n / 32, first := 2500000, each := 50000 }) with
          | .error e => .fail .noEnergy e
          | .ok s2 =>
            let vc0 := s2.freeNat 48
            .running 0 [] (names.foldl (fun s n =>
              let x := s.site n
              (((s.setSite n { x with mode := .starting, before := some (x.mode, x.play), vecMax := top, vc0,
                                      play := x.play.start seg h, cap := x.nextCap, due := none }).siteShadows n).sendTimesets
                n).sendStart n) s2.drawFree)

/-- PAT_START: `PAT.START` (R305). -/
def execPatStart (t fn tag : Nat) (s : State) : Host.Outcome State Fault Refusal :=
  verb t 0x0A05 fn tag patStart s

/-- A site launches vector 0. -/
def State.launchSite (s : State) (n : Nat) : State :=
  let x := s.site n
  let g := s.seg x.play.seg
  let y : Site := { x with
    mode := .running, before := none, seen := s.stampNow, vectors := 0, path := [(0, x.play.seg, g.length)], failed := [], unlisted := [],
    capLost := [], anyFail := false, complete := [], matchIn := [], matches_ := [], started := s.stampNow,
    ended := {}, result := 3, due := none, failEntries := 0, failLost := 0, capEntries := 0, capFull := 0 }
  let s := s.setSite n y
  if (devicesOf x.pins).any fun d => !(s.peDev d).linked then s.siteEnds n 0 s.stampNow .lost
  else if x.play.chosen = some .locked then s.siteStall n 0 0xFF 2
  else s

/-- PAT_SCHEDULED_START (R305): every site that the site's start names launches vector 0 on this edge, and with the
completion its shadows are loaded again (R22). -/
def execPatScheduledStart (t site : Nat) (_vcount : Computed) (s : State) : Host.Outcome State Fault Refusal :=
  happens t (fun s =>
    match s.startedCmds 0x0A05 fun c => (field c.payload 0 32).testBit site with
    | [] => s
    | c :: _ =>
      if !(s.gen 0).zeroing && s.reached { mode := u8 c.payload 34, at_ := u64 c.payload 40 } then
        let names := (sitesIn (field c.payload 0 32)).filter fun n => (s.site n).mode == .starting
        (names.foldl (fun s n => (s.launchSite n).siteShadows n) s).finish c .ok s.now
      else s) s

/-- Index of the vector being launched in a site's iteration, from what a row says of it. -/
def indexIn (vecs : List (Nat × Nat)) (n : Nat) : Nat :=
  match vecs.find? fun e => e.1 == n with
  | some e => e.2
  | none => 0

/-- PAT.STOP (R303, R306). DESIGN CHOICE, log entry 52. -/
def patStop (vecs : List (Nat × Nat)) (c : Cmd) (s : State) : VerbOut :=
  let p := c.payload
  let names := sitesIn (field p 0 32)
  if u8 p 32 > 1 ∨ !zeros p 33 3 then .fail .badParam 0
  else
    let s1 := names.foldl (fun s n =>
      if (s.site n).mode != .running then s
      else if u8 p 32 = 1 then s.parkLater n .stopped (indexIn vecs n)
      else
        let v := indexIn vecs n
        let s := s.settleMatches n ((s.site n).play.base + v)
        let x := s.site n
        s.setSite n { x with play := x.play.askStop (s.seg x.play.seg) v }) s
    if names.any fun n => (s1.site n).mode.live || (s1.site n).mode == .quiescing then .running 0 [] s1
    else .done .quiesced 0 (names.foldl (fun s n => s.release (actKey kindSite n)) s1)

/-- PAT_STOP: `PAT.STOP` (R306); `vecs` gives the vector that each named site is launching. -/
def execPatStop (t fn tag : Nat) (vecs : List (Nat × Nat)) (s : State) : Host.Outcome State Fault Refusal :=
  verb t 0x0A06 fn tag (patStop vecs) s

/-- PAT.REQUEST_JUMP (R311). -/
def patRequestJump (vecs : List (Nat × Nat)) (c : Cmd) (s : State) : VerbOut :=
  let p := c.payload
  let names := sitesIn (field p 0 32)
  if !zeros p 34 2 then .fail .badParam 0
  else
    let idle := (names.filter fun n => (s.site n).mode != .running).length
    .done .ok idle (names.foldl (fun s n => s.siteAsk n 64 (targetOf (u16 p 32)) (indexIn vecs n)) s)

/-- PAT_REQUEST_JUMP: `PAT.REQUEST_JUMP` (R311). -/
def execPatRequestJump (t fn tag : Nat) (vecs : List (Nat × Nat)) (s : State) : Host.Outcome State Fault Refusal :=
  verb t 0x0A07 fn tag (patRequestJump vecs) s

/-- STATE of R300: a site for which a stop waits runs R73 and is QUIESCING (R303). -/
def Site.state (x : Site) : SiteMode :=
  if x.mode = .running ∧ (x.due = some .stopped ∨ x.play.stop.isSome) then .quiescing else x.mode

/-- The 64 bytes of `PAT.GET_RESULT` (R313), for a site that is launching vector `index` of its iteration. -/
def State.siteStatus (s : State) (n index : Nat) : List Byte :=
  let x := s.site n
  let vectors := if x.mode = .running then x.play.base + index else x.vectors
  pack [(1, n), (1, x.state.code), (1, x.result),
    (1, bit x.play.jump.isSome + 2 * bit (x.mode == .running && (s.seg x.play.seg).streamed)), (2, x.play.seg),
    (2, x.play.horizon), (8, vectors), (8, x.failedVectors), (4, x.play.taken), (4, x.play.discarded),
    (16, stampNat x.started), (16, stampNat x.ended)]

/-- PAT.GET_RESULT (R313). -/
def patGetResult (index : Nat) (c : Cmd) (s : State) : VerbOut :=
  let n := u8 c.payload 0
  if !zeros c.payload 1 3 then .fail .badParam 0
  else
    let s1 := s.settleMatches n ((s.site n).play.base + index)
    .data (s1.siteStatus n index) 0 s1

/-- PAT_GET_RESULT: `PAT.GET_RESULT` (R313). -/
def execPatGetResult (t fn tag index : Nat) (s : State) : Host.Outcome State Fault Refusal :=
  verb t 0x0A08 fn tag (patGetResult index) s

end Sys2Proof.Machine
end

