-- ==== Sys2Proof/Machine/Stim.lean ====
section
/-! DEFINITION. Stimulus outputs and the STIM family (R344 to R358). A sample of a running output plays in each
tick, so its position follows from module time. -/

namespace Sys2Proof.Machine

/-- Output `o`. -/
def State.stimOut (s : State) (o : Nat) : StimOut := s.stim.get o {}

/-- Replaces an output. -/
def State.setStim (s : State) (o : Nat) (x : StimOut) : State := { s with stim := s.stim.set o x }

/-- Segment playing. -/
def StimOut.cur (x : StimOut) : Segment := x.segs.get x.play.seg {}

/-- Index of the sample that plays now in its iteration. -/
def State.stimIndex (s : State) (o : Nat) : Nat := s.now - (s.stimOut o).start - (s.stimOut o).play.base

/-- Domain PD_STIM_n is on: the DAC chiplet or the player of output n / 2 (R351). -/
def State.pdStim (s : State) (n : Nat) : Bool := s.domainOn 0x0C (n / 2)

/-- STARTING or RUNNING. -/
def StimMode.live (m : StimMode) : Bool := m == .starting || m == .running

/-- Code of a state (R350). -/
def StimMode.code : StimMode → Nat
  | .idle => 0 | .starting => 1 | .running => 2 | .done => 3 | .stopped => 4 | .stalled => 5 | .quiescing => 6

/-- What waveform memory and the segment table hold in retention while the domains are off (R351). -/
def StimOut.retained (x : StimOut) : StimOut := { segs := x.segs, wave := x.wave, play := { reqSeq := x.play.reqSeq } }

/-- The output drives no signal: its termination alone is there (R344). -/
def StimOut.silent (x : StimOut) : StimOut := { x with mode := .stopped, held := none, parkAt := none }

/-- Segment `n` is active (R346). -/
def StimOut.active (x : StimOut) (n : Nat) : Bool := x.mode.live && x.play.active n

/-- Loads the shadows of an output (R352). -/
def State.stimShadows (s : State) (o : Nat) : State :=
  (s.setShadow (0x4000 + o * 0x10) (s.stimOut o).play.reqSeq).setShadow (0x4004 + o * 0x10) 0xFFFF

/-- Completes the stops whose outputs are all quiescent (R357). -/
def State.finishStimStops (s : State) : State :=
  let busy (o : Nat) : Bool := (s.stimOut o).mode.live || (s.stimOut o).mode == .quiescing
  s.finishAll (s.startedCmds 0x0C05 fun c => !(maskBits 2 (u8 c.payload 0)).any busy) .quiesced fun _ => 0

/-- The output is quiescent: its DAC is off and its allotments are released (R351, R357). -/
def State.stimOff (s : State) (o : Nat) : State :=
  ((s.setStim o { s.stimOut o with mode := .stopped, held := none, parkAt := none }).undeclare 0x0C o).release
    (actKey kindStim o)

/-- An output has played `n` samples and ends or parks, with EV_STIM_DONE (R348 to R350); `last` is true where
the stamp is that of the last sample played. One that a stop waits for goes on to power its DAC down, however it ended
(R357). -/
def State.stimEnds (s : State) (o n : Nat) (m : StimMode) (cause : Nat) (last : Bool) : State :=
  let x := s.stimOut o
  let stopping := x.parkAt.isSome || x.play.stop.isSome
  let s := s.setStim o { x with mode := m, play := x.play.ended, played := n, parkAt := none, held := some x.cur.park }
  let st : Stamp := { tick := x.start + n - bit last }
  let s := s.eventAt 0x0C01 o st (m.code + 2 ^ 8 * cause + 2 ^ 16 * (n % 2 ^ 48))
  if m = .stopped || stopping then (s.stimOff o).finishStimStops else s.finishStimStops

/-- The 14-bit codes of waveform samples: bits [15:2] of each, bits [1:0] ignored (R344). -/
def sampleCodes (b : List Byte) : List Int := (records (b.length / 2) 2 b).map fun r => signed 14 (leNat r / 4)

/-- Where waveform memory holds the sample that plays `k` samples after its segment was entered (R345, R348). -/
def Segment.slot (g : Segment) (k : Nat) : Nat := g.start + k % (if g.streamed then g.ring else g.length)

/-- The ring of a streamed segment takes from the master copy what fits behind the sample that plays next (R348).
DESIGN CHOICE, log entry 59. -/
def State.stimFill (s : State) (o : Nat) : State :=
  let x := s.stimOut o
  let g := x.cur
  let room := x.shown - x.entry + g.ring
  let upto := if g.rep = 0 then room else min room (g.rep * g.length)
  let put (m : Memory) (k : Nat) : Memory :=
    m.writeBytes (2 * g.slot k) (s.cellarMem.readBytes (g.master + 2 * (k % g.length)) 2)
  if x.mode = .running ∧ g.streamed ∧ x.filled < upto then
    s.setStim o { x with wave := (span x.filled (upto - x.filled)).foldl put x.wave, filled := upto }
  else s

/-- The samples of output `o` up to the `n`-th since the start reach its connector, sample m at tick G + m; those of a
streamed segment leave from its ring, which is refilled behind them (R14, R344, R348). -/
def State.stimPlay : Nat → State → Nat → Nat → State
  | 0, s, _, _ => s
  | k + 1, s, o, n =>
    let x := s.stimOut o
    let g := x.cur
    let more := if g.streamed then min n (x.entry + x.filled) - x.shown else n - x.shown
    if more = 0 then s
    else
      let b := (span (x.shown - x.entry) more).flatMap fun k => x.wave.readBytes (2 * g.slot k) 2
      let s := s.emit (.stimPlayed o ((x.start + x.shown) % 2 ^ 64) x.atten (sampleCodes b))
      State.stimPlay k ((s.setStim o { x with shown := x.shown + more }).stimFill o) o n

/-- The samples of output `o` up to the `n`-th have played. -/
def State.stimShow (s : State) (o n : Nat) : State := State.stimPlay (n + 1 - (s.stimOut o).shown) s o n

/-- What has played by now: no sample at or after the coming boundary or park, which their own rows play. -/
def State.stimTick (s : State) (o : Nat) : State :=
  let x := s.stimOut o
  if x.mode = .running then
    s.stimShow o (min (s.now + 1 - x.start) (min (x.play.base + x.cur.length) (x.parkAt.getD (x.play.base + x.cur.length))))
  else s

/-- A running output recognises a request now (R347). -/
def State.stimAsk (s : State) (o cause : Nat) (target : Option Nat) : State :=
  let x := s.stimOut o
  if x.mode = .running then s.setStim o { x with play := x.play.ask x.cur cause target (s.stimIndex o) } else s

/-- STIM_TRIGGER_JUMP_ARRIVAL (R347). -/
def execStimTriggerJumpArrival (t output : Nat) (s : State) : Host.Outcome State Fault Refusal :=
  happens t (fun s =>
    match s.trig.jumps.find? fun j => j.1 == 256 + output with
    | none => s
    | some j =>
      if output > 1 then s
      else { s with trig := { s.trig with jumps := s.trig.jumps.erase j } }.stimAsk output j.2 none) s

/-- STIM_DECISION_POINT (R346, R349): sample L − 64 of the iteration has been reached. -/
def execStimDecisionPoint (t output : Nat) (s : State) : Host.Outcome State Fault Refusal :=
  happens t (fun s =>
    let x := s.stimOut output
    if x.mode != .running || x.play.chosen.isSome || decide (s.stimIndex output + 64 < x.cur.length) then s
    else
      let c := x.play.decide x.segs fun _ => true
      s.setStim output { x with play := { x.play with chosen := some c } }) s

/-- STIM_BOUNDARY (R345, R347 to R350): every sample of the iteration has been played. -/
def execStimBoundary (t output : Nat) (s : State) : Host.Outcome State Fault Refusal :=
  happens t (fun s =>
    let x := s.stimOut output
    let total := x.play.base + x.cur.length
    let ended := x.mode == .running && x.play.chosen.isSome && decide (x.cur.length ≤ s.stimIndex output)
    let s := if ended then s.stimShow output total else s
    let go (s : State) (c : PlayChoice) : State :=
      (s.setStim output { s.stimOut output with play := x.play.cross x.segs c }).stimFill output
    let into (s : State) (c : PlayChoice) : State :=
      let y := s.stimOut output
      (s.setStim output { y with play := x.play.cross x.segs c, entry := total, filled := 0 }).stimFill output
    match (if ended then x.play.chosen else none) with
    | none => s
    | some .again => go s .again
    | some (.enter u) => into s (.enter u)
    | some (.jump u) =>
      let s := match x.play.jump with
        | some r => s.eventAt 0x0A03 (256 + output) { tick := x.start + total } (r.detail u)
        | none => s
      into s (.jump u)
    | some .finish => s.stimEnds output total .done 1 true
    | some .stop => s.stimEnds output total .stopped 2 false
    | some .locked => s.stimEnds output total .stalled 4 false
    | some .missing => s.stimEnds output total .stalled 5 false) s

/-- STIM_REFILL_LATE (R348): at the play of sample v, sample v + 64 is not in the ring. -/
def execStimRefillLate (t output : Nat) (s : State) : Host.Outcome State Fault Refusal :=
  happens t (fun s =>
    let x := s.stimOut output
    if x.mode == .running && x.cur.streamed then
      let n := s.now - x.start + 64
      (s.stimShow output n).stimEnds output n .stalled 3 false
    else s) s

/-- STIM_PARK (R303, R357). -/
def execStimPark (t output : Nat) (s : State) : Host.Outcome State Fault Refusal :=
  happens t (fun s =>
    let x := s.stimOut output
    match x.parkAt with
    | some n =>
      if x.mode = .running ∧ n ≤ s.now - x.start then (s.stimShow output n).stimEnds output n .stopped 2 false else s
    | none => s) s

/-- Output `o` takes its jump request from an occurrence of its group (R84, R352). -/
def State.stimTake (s : State) (o : Nat) (words : KMap Nat) : State :=
  let q := words.get (0x4000 + o * 0x10) 0 % 256
  let x := s.stimOut o
  if q = x.play.reqSeq then s
  else
    (s.setStim o { x with play := { x.play with reqSeq := q } }).stimAsk o 65
      (let v := words.get (0x4004 + o * 0x10) 0xFFFF % 65536
       if v = 0xFFFF then none else some v)

/-! ## Commands -/

/-- READY_MAP bit of an output. -/
def State.stimReady (s : State) (o : Nat) : Bool := s.readyBit (19 + o)

/-- Samples of waveform memory that a segment occupies. DESIGN CHOICE, log entry 59. -/
def Segment.waveSize (g : Segment) : Nat := if g.streamed then g.ring else g.length

/-- STIM.DEFINE_SEGMENT (R345, R353). DESIGN CHOICE, log entry 59. -/
def stimDefineSegment (c : Cmd) (s : State) : VerbOut :=
  let p := c.payload
  let o := u8 p 0
  let fl := u8 p 1
  let n := u16 p 2
  let x := s.stimOut o
  let g : Segment := { start := u32 p 4, length := u32 p 8, ring := u32 p 12, master := u64 p 16, streamed := fl.testBit 0 }
  let bad := g.start > 16777184 ∨ g.start % 32 ≠ 0 ∨ g.length < 128 ∨ g.length > 4294967264 ∨ g.length % 32 ≠ 0 ∨
    16777216 < g.start + g.waveSize ∨
    (if g.streamed then g.ring < 65536 ∨ g.ring > 4194304 ∨ g.ring % 32 ≠ 0 ∨ g.master % 64 ≠ 0 ∨
      !s.inRegion g.master (2 * g.length) else g.ring ≠ 0)
  if o > 1 ∨ fl > 3 ∨ n > 4095 ∨ !zeros p 24 8 ∨ (!fl.testBit 1 ∧ bad) then .fail .badParam 0
  else if !s.stimReady o then .fail .notReady 0
  else if x.active n then .fail .segmentActive 0
  else if fl.testBit 1 then .done .ok 0 (s.setStim o { x with segs := x.segs.del n })
  else
    match x.segs.find? fun e => e.1 != n && !clearOf [(e.2.start, e.2.waveSize)] g.start g.waveSize with
    | some e => .fail .noResource e.1
    | none => .done .ok 0 (s.setStim o { x with segs := x.segs.set n g })

/-- STIM_DEFINE_SEGMENT: `STIM.DEFINE_SEGMENT` (R353). -/
def execStimDefineSegment (t fn tag : Nat) (s : State) : Host.Outcome State Fault Refusal :=
  verb t 0x0C01 fn tag stimDefineSegment s

/-- Completes the writes under way, and unlocks their segments (R346, R348). DESIGN CHOICE, log entry 134. -/
def State.finishStimWrites (s : State) : State :=
  (s.startedCmds 0x0C02 fun _ => true).foldl (fun s c =>
    let o := u8 c.payload 3
    let n := u16 c.payload 0
    let x := s.stimOut o
    (s.setStim o { x with segs := x.segs.set n { x.segs.get n {} with locked := false } }).finish c .ok 0) s

/-- STIM.WRITE_SEGMENT (R346, R354): the write locks its segment until it completes, by the next marker codeword; `host`
is what the host memory system returns for the samples. DESIGN CHOICE, log entry 134. -/
def stimWriteSegment (host : List Byte) (c : Cmd) (s : State) : VerbOut :=
  let p := c.payload
  let n := u16 p 0
  let o := u8 p 3
  let count := u32 p 4
  let first := u32 p 8
  let addr := u64 p 16
  let cellar := u8 p 2 == 1
  let x := s.stimOut o
  let g := x.segs.get n {}
  if u8 p 2 > 1 ∨ o > 1 ∨ n > 4095 ∨ !zeros p 12 4 ∨
      (if cellar then !s.inRegion addr (2 * count) else addr % 8 ≠ 0) then .fail .badParam 0
  else if !s.stimReady o then .fail .notReady 0
  else if !x.segs.has n then .fail .badState 0
  else if first + count > g.length then .fail .badParam 0
  else if x.active n then .fail .segmentActive 0
  else
    let bytes := if cellar then s.cellarMem.readBytes addr (2 * count) else host.take (2 * count)
    let s := s.hostLoad c addr (2 * count) cellar
    let y := { x with segs := x.segs.set n { g with locked := true } }
    if g.streamed then
      .running 0 [] ((s.keepCellar (s.cellarMem.writeBytes (g.master + 2 * first) bytes)).setStim o y)
    else
      .running 0 [] (s.setStim o { y with wave := Memory.writeBytes x.wave (2 * (g.start + first)) bytes })

/-- STIM_WRITE_SEGMENT: `STIM.WRITE_SEGMENT` (R354). -/
def execStimWriteSegment (t fn tag : Nat) (table : List Byte) (s : State) : Host.Outcome State Fault Refusal :=
  verb t 0x0C02 fn tag (stimWriteSegment table) s

/-- STIM.LOAD_TABLE (R346, R355). -/
def stimLoadTable (c : Cmd) (s : State) : VerbOut :=
  let p := c.payload
  let k := u16 p 0
  let o := u8 p 2
  let x := s.stimOut o
  let es := records k 24 (p.drop 8)
  let check (e : List Byte) : Option Status :=
    if u16 e 0 > 4095 ∨ u8 e 2 > 3 ∨ !zeros e 3 1 ∨ u32 e 4 > 16777216 ∨ bits (u32 e 8) 15 12 ≠ 0 ∨
        u32 e 8 ≥ 2 ^ 17 ∨ u16 e 12 > 4095 ∨ !zeros e 16 8 then some .badParam
    else if !x.segs.has (u16 e 0) then some .badState
    else if x.active (u16 e 0) then some .segmentActive
    else none
  if p.length ≠ 8 + 24 * k then .fail .badLength 0
  else if o > 1 ∨ !zeros p 3 5 ∨ k > 170 then .fail .badParam 0
  else if !s.stimReady o then .fail .notReady 0
  else
    match firstRefused check 0 es with
    | some (i, st) => .fail st i
    | none =>
      let segs := es.foldl (fun (m : KMap Segment) e =>
        m.set (u16 e 0) { m.get (u16 e 0) {} with
          cond := u8 e 2, rep := u32 e 4,
          next := if (u32 e 8).testBit 16 then none else some (u32 e 8 % 4096), target := u16 e 12,
          park := u16 e 14 }) x.segs
      .done .ok 0 (s.setStim o { x with segs })

/-- STIM_LOAD_TABLE: `STIM.LOAD_TABLE` (R355). -/
def execStimLoadTable (t fn tag : Nat) (s : State) : Host.Outcome State Fault Refusal :=
  verb t 0x0C03 fn tag stimLoadTable s

/-- STATE of R350: an output for which a stop waits runs R73 and is QUIESCING. -/
def StimOut.state (x : StimOut) : StimMode :=
  if x.mode = .running ∧ (x.parkAt.isSome ∨ x.play.stop.isSome) then .quiescing else x.mode

/-- The 32-byte status block of an output (R356). -/
def State.stimBlock (s : State) (o : Nat) : List Byte :=
  let x := s.stimOut o
  let n := if x.mode = .running then s.now - x.start else x.played
  pack [(1, x.state.code), (1, bit x.play.jump.isSome + 2 * bit (x.mode == .running && x.cur.streamed)),
    (2, x.play.seg), (4, x.play.taken), (8, n), (8, x.start), (4, x.play.discarded), (4, 0)]

/-- Why a start of output `o` at segment `seg` is refused: the segment (R347, R349, R356). -/
def StimOut.badSegment (x : StimOut) (seg : Nat) : Option Nat :=
  (reach x.segs seg).find? fun r =>
    match x.segs.find r with
    | none => true
    | some g => g.cond != 0 && decide (g.length < 128)

/-- Admits each output that can reach a streamed segment (R348). -/
def admitStim (segOf : Nat → Nat) : List Nat → State → Option State
  | [], s => some s
  | o :: os, s =>
    let x := s.stimOut o
    let r := if (reach x.segs (segOf o)).any fun n => (x.segs.get n {}).streamed then
        s.allot (actKey kindStim o) [(0, 51200000000)]
      else some s
    match r with
    | some s' => admitStim segOf os s'
    | none => none

/-- STIM.START (R347 to R349, R351, R356). DESIGN CHOICE, log entry 59. -/
def stimStart (c : Cmd) (s : State) : VerbOut :=
  let p := c.payload
  let names := maskBits 2 (u8 p 0)
  let w : Sched := { mode := u8 p 2, at_ := u64 p 8 }
  let at_ := u8 p 3
  let segOf (o : Nat) : Nat := u16 p (4 + 2 * o)
  let attOf (o : Nat) : Nat := at_ / 4 ^ o % 4
  if u8 p 0 > 3 ∨ u8 p 1 > 1 then .fail .badParam 0xFFFF
  else if u8 p 1 = 1 then .data (s.stimBlock 0 ++ s.stimBlock 1) 0 s
  else if w.mode > 2 ∨ at_ > 15 ∨ attOf 0 = 3 ∨ attOf 1 = 3 ∨ names.any (fun o => decide (segOf o > 4095)) ∨
      !zeros p 16 8 then .fail .badParam 0xFFFF
  else if names.any fun o => !s.stimReady o then .fail .notReady 0
  else if names.any (fun o => (s.stimOut o).mode != .idle && (s.stimOut o).mode != .stopped) ∨
      (s.startTick w).isNone then .fail .badState 0
  else
    match names.findSome? fun o => (s.stimOut o).badSegment (segOf o) with
    | some n => .fail .badParam n
    | none =>
      if s.tooSoon w then .fail .badParam 0xFFFF
      else
        match admitStim segOf names s with
        | none => .fail .noAllotment 0
        | some s1 =>
          match s1.declare (names.map fun o =>
              { fam := 0x0C, obj := o, group := o, first := 6500000, each := 6500000 }) with
          | .error e => .fail .noEnergy e
          | .ok s2 =>
            if names.isEmpty then .done .ok s.now s2
            else .running 0 [] (names.foldl (fun s o =>
              let x := s.stimOut o
              let locked := (x.segs.get (segOf o) {}).locked
              let play := { x.play.start (segOf o) 64 with chosen := if locked then some .locked else none }
              (s.setStim o { x with mode := .starting, before := some (x.mode, x.play), play, atten := attOf o,
                                    played := 0, shown := 0, entry := 0, filled := 0 }).stimShadows o) s2)

/-- STIM_START: `STIM.START` (R356). -/
def execStimStart (t fn tag : Nat) (s : State) : Host.Outcome State Fault Refusal :=
  verb t 0x0C04 fn tag stimStart s

/-- Output `o` plays sample 0 at tick `g`; one whose start segment a write held locked when `STIM.START` executed parks at
once (R346, R348). -/
def State.stimLaunch (s : State) (o g : Nat) : State :=
  let x := s.stimOut o
  let s := s.setStim o { x with mode := .running, before := none, start := g }
  (if x.play.chosen = some .locked then s.stimEnds o 0 .stalled 4 false else s.stimFill o).stimShadows o

/-- STIM_SCHEDULED_START (R356): the outputs of a start play sample 0 on this tick, and with the completion their
shadows are loaded again (R22). -/
def execStimScheduledStart (t output : Nat) (s : State) : Host.Outcome State Fault Refusal :=
  happens t (fun s =>
    match s.startedCmds 0x0C04 fun c => (u8 c.payload 0).testBit output with
    | [] => s
    | c :: _ =>
      let w : Sched := { mode := u8 c.payload 2, at_ := u64 c.payload 8 }
      if s.reached w then
        let g := s.dueTick w
        let names := (maskBits 2 (u8 c.payload 0)).filter fun o => (s.stimOut o).mode == .starting
        (names.foldl (fun s o => s.stimLaunch o g) s).finish c .ok g
      else s) s

/-- An output runs R73 (R303, R357). -/
def State.stimQuiesce (s : State) (o : Nat) (immediate : Bool) : State :=
  let x := s.stimOut o
  match x.mode with
  | .running =>
    if immediate then s.setStim o { x with parkAt := some (s.now - x.start + 64) }
    else s.setStim o { x with play := x.play.askStop x.cur (s.stimIndex o) }
  | .done | .stalled => s.stimOff o
  | _ => s

/-- STIM.STOP (R357). -/
def stimStop (c : Cmd) (s : State) : VerbOut :=
  let p := c.payload
  let names := maskBits 2 (u8 p 0)
  if u8 p 0 > 3 ∨ u8 p 1 > 1 ∨ !zeros p 2 2 then .fail .badParam 0
  else if names.any fun o => !s.stimReady o then .fail .notReady 0
  else
    let s1 := names.foldl (fun s o => s.stimQuiesce o (u8 p 1 == 1)) s
    if names.any fun o => (s1.stimOut o).mode.live then .running 0 [] s1 else .done .quiesced 0 s1

/-- STIM_STOP: `STIM.STOP` (R357). -/
def execStimStop (t fn tag : Nat) (s : State) : Host.Outcome State Fault Refusal :=
  verb t 0x0C05 fn tag stimStop s

/-- STIM.REQUEST_JUMP (R358). -/
def stimRequestJump (c : Cmd) (s : State) : VerbOut :=
  let p := c.payload
  let names := maskBits 2 (u8 p 0)
  let v := u16 p 2
  if u8 p 0 > 3 ∨ !zeros p 1 1 then .fail .badParam 0
  else if names.any fun o => !s.stimReady o then .fail .notReady 0
  else
    .done .ok (names.filter fun o => (s.stimOut o).mode != .running).length
      (names.foldl (fun s o => s.stimAsk o 64 (if v = 0xFFFF then none else some v)) s)

/-- STIM_REQUEST_JUMP: `STIM.REQUEST_JUMP` (R358). -/
def execStimRequestJump (t fn tag : Nat) (s : State) : Host.Outcome State Fault Refusal :=
  verb t 0x0C06 fn tag stimRequestJump s

end Sys2Proof.Machine
end

