-- ==== Sys2Proof/Machine/Cellar.lean ====
section
/-! DEFINITION. Cellar and the CELLAR family (R416 to R432): striping, the write buffer, QoS ports, row
disturbance, retraining, faults and operating points. -/

namespace Sys2Proof.Machine

/-- Replaces the Cellar controllers. -/
def State.setCell (s : State) (c : Cellar) : State := { s with cell := c }

/-- Stack `k`. -/
def State.stack (s : State) (k : Nat) : Stack := s.cell.stackMap.get k {}

/-- Replaces a stack. -/
def State.setStack (s : State) (k : Nat) (x : Stack) : State :=
  s.setCell { s.cell with stackMap := s.cell.stackMap.set k x }

/-- Stack `k` is retired (R426). -/
def State.stackRetired (s : State) (k : Nat) : Bool := s.isRetired ⟨9, 0, k⟩

/-! ## Layout (R417) -/

/-- Usable bytes. -/
def cellarBytes : Nat := 77309411328

/-- Stripe of an address. -/
def stripeOf (a : Nat) : Nat := a / 768

/-- Stack that holds the block of an address. -/
def stackOf (a : Nat) : Nat := (stripeOf a % 4 + 1 + a % 768 / 256) % 4

/-- Stack that holds the parity of stripe `j` (R417). -/
def parityStack (j : Nat) : Nat := j % 4

/-- Data block `i` of stripe `j` (R417). -/
def State.dataBlock (s : State) (j i : Nat) : List Byte := s.cellarMem.readBytes (768 * j + 256 * i) 256

/-- Bytewise XOR. -/
def xorBytes (a b : List Byte) : List Byte := List.zipWith (· ^^^ ·) a b

/-- The parity block of stripe `j`: d0 XOR d1 XOR d2 (R417). -/
def State.parityBlock (s : State) (j : Nat) : List Byte :=
  xorBytes (s.dataBlock j 0) (xorBytes (s.dataBlock j 1) (s.dataBlock j 2))

/-- Block `i` of stripe `j` as it is rebuilt from the other two and the parity (R418, R424, R426). -/
def State.rebuiltBlock (s : State) (j i : Nat) : List Byte :=
  xorBytes (s.parityBlock j) (xorBytes (s.dataBlock j ((i + 1) % 3)) (s.dataBlock j ((i + 2) % 3)))

/-- Domain PD_CELLAR_k is on: from power-up calibration until shutdown, unless the stack is retired (R427). -/
def State.pdCellar (s : State) (k : Nat) : Bool :=
  !s.stackRetired k && (s.pw.state == .running || s.pw.state == .standby || (s.pw.state == .starting && s.readyBit 6))

/-- Pseudo-channel of the block of an address. -/
def pcOf (a : Nat) : Nat := stripeOf a % 32

/-- First addresses of the blocks that a range touches. -/
def blocksOf (a n : Nat) : List Nat :=
  if n = 0 then [] else (span (a / 256) ((a + n - 1) / 256 - a / 256 + 1)).map (256 * ·)

/-- Bytes of a pseudo-channel (R416). -/
def pcBytes : Nat := 805306368

/-- REBUILT: while a rebuild runs, what its floor of 10 GB/s, 25 bytes in 64 ticks, has written so far (R426, R431).
DESIGN CHOICE, log entry 139. -/
def State.rebuiltBytes (s : State) (k : Nat) : Nat :=
  let x := s.stack k
  if x.rebuilding then min pcBytes ((s.now - x.rebuildFrom) * 25 / 64) else x.rebuilt

/-- The block of an address is rebuilt from the other three stacks when read; one that has been written to the spare is
served from there (R417, R424, R426, R428). -/
def State.rebuiltRead (s : State) (a : Nat) : Bool :=
  let k := stackOf a
  let x := s.stack k
  s.stackRetired k || x.phase == .selfRefresh ||
    (x.rebuilding && x.replaced.all (· == pcOf a) && decide (s.rebuiltBytes k < (stripeOf a / 32 + 1) * 256)) ||
    (match s.cell.pause with
     | some p => p.1 == 16 * k + pcOf a / 2
     | none => false)

/-- Every block of a range can be read: two lost blocks of a stripe cannot be rebuilt (R513 class 9). -/
def State.cellarReadable (s : State) (a n : Nat) : Bool :=
  !s.cellarLost || (blocksOf a n).all fun b => !s.stackRetired (stackOf b)

/-- Counts the blocks of a read that are rebuilt from parity (R431). -/
def State.countRebuilt (s : State) (a n : Nat) : State :=
  ((blocksOf a n).filter fun b => s.rebuiltRead b).foldl (fun s b =>
    let x := s.stack (stackOf b)
    s.setStack (stackOf b) { x with reconstructed := wrapAdd 64 x.reconstructed 1 }) s

/-! ## Write buffer (R419) -/

/-- All 768 bytes of a stripe. -/
def fullStripe : Nat := 2 ^ 768 - 1

/-- Bits of the bytes `a` to `a + n − 1` that lie in stripe `j`. -/
def stripeBits (j a n : Nat) : Nat :=
  let lo := max a (768 * j) - 768 * j
  let hi := min (a + n) (768 * j + 768) - 768 * j
  2 ^ hi - 2 ^ lo

/-- A write joins its stripes in the write buffer; a stripe that is whole leaves it. DESIGN CHOICE, log entry 65. -/
def State.mergeWrite (s : State) (a n : Nat) : State :=
  if n = 0 then s
  else
    (span (stripeOf a) (stripeOf (a + n - 1) - stripeOf a + 1)).foldl (fun s j =>
      let old := s.cell.merging.get j (0, s.now)
      let m := old.1 ||| stripeBits j a n
      let merging := if m = fullStripe then s.cell.merging.del j else s.cell.merging.set j (m, old.2)
      s.setCell { s.cell with merging }) s

/-- Bytes of a partial write, rounded up to 64-byte units. -/
def partialBytes (m : Nat) : Nat := 64 * ((List.range 12).filter fun u => (m >>> (64 * u)) % 2 ^ 64 != 0).length

/-- WRITE_BUFFER_MERGE_TIMEOUT (R419): 2 µs after its first byte a stripe that is not whole leaves as a partial
write. -/
def execWriteBufferMergeTimeout (t stripe : Nat) (s : State) : Host.Outcome State Fault Refusal :=
  happens t (fun s =>
    match s.cell.merging.find stripe with
    | some (m, since) =>
      if since + 2 * ticksPerUs ≤ s.now then
        s.setCell { s.cell with merging := s.cell.merging.del stripe,
                                partials := wrapAdd 64 s.cell.partials (partialBytes m) }
      else s
    | none => s) s

/-! ## QoS ports (R421, R422) -/

/-- Latency target T of a port, in ticks (R422). -/
def portTarget (port : Nat) : Nat :=
  ([2, 2, 10, 4, 8, 10, 1, 1, 2, 20, 10, 100, 20, 4, 1000, 2].getD port 1000) * ticksPerUs

/-- Urgency level of a request that has waited `w` ticks. -/
def urgencyLevel (port w : Nat) : Nat :=
  let t := portTarget port
  if t ≤ w then 3 else if 3 * t ≤ 4 * w then 2 else if t ≤ 2 * w then 1 else 0

/-- Two requests touch one 64-byte unit. -/
def CellarReq.meets (a b : CellarReq) : Bool :=
  decide (a.addr / 64 ≤ (b.addr + b.size - 1) / 64) && decide (b.addr / 64 ≤ (a.addr + a.size - 1) / 64)

/-- Rank of a request: capture writes come before every other request of level 3. -/
def CellarReq.rank (r : CellarReq) : Nat := if r.port = 0 then 4 else r.level

/-- The request the arbiter serves: the highest rank, then the oldest, that no older request to one of its
units still precedes. `older` are those already passed over. -/
def pickReq : List CellarReq → List CellarReq → Option CellarReq → Option CellarReq
  | [], _, best => best
  | r :: rs, older, best =>
    let held := older.any fun o => o.meets r
    let better := match best with
      | some b => decide (b.rank < r.rank)
      | none => true
    pickReq rs (older ++ [r]) (if !held && better then some r else best)

/-- Removes the first request equal to `r`. -/
def dropReq (r : CellarReq) : List CellarReq → List CellarReq
  | [] => []
  | q :: qs => if q = r then qs else q :: dropReq r qs

/-- Accesses by Steward firmware and by port 14 need no region (R420). -/
def CellarReq.free (r : CellarReq) : Bool := r.port == 10 || r.port == 14

/-- A request is served (R418, R420, R421). -/
def State.serveReq (s : State) (r : CellarReq) : State :=
  let ok := (r.free || s.inRegion r.addr r.size) && decide (r.addr + r.size ≤ cellarBytes)
  if r.write then
    if ok then (s.keepCellar (s.cellarMem.writeBytes r.addr (r.data.take r.size))).mergeWrite r.addr r.size else s
  else
    let good := ok && s.cellarReadable r.addr r.size
    let bytes := if good then s.cellarMem.readBytes r.addr r.size else leBytes r.size 0
    (s.countRebuilt r.addr r.size).emit (.cellarRead r.port r.addr good bytes)

/-- The requests of a list that are outstanding: the first 2,048 of each stack, in order of arrival. The others are
held back at their ports, where their urgency still rises (R20, R433). `m` counts those taken, by stack. -/
def outstanding : List CellarReq → KMap Nat → List CellarReq
  | [], _ => []
  | r :: rs, m =>
    let n := m.get (stackOf r.addr) 0
    if n < 2048 then r :: outstanding rs (m.set (stackOf r.addr) (n + 1)) else outstanding rs m

/-- The arbiter serves up to `n` requests. -/
def serveReqs : Nat → State → State
  | 0, s => s
  | n + 1, s =>
    match pickReq (outstanding s.cell.waiting []) [] none with
    | none => s
    | some r =>
      serveReqs n ((s.setCell { s.cell with waiting := dropReq r s.cell.waiting }).serveReq r)

/-- A bank's activate table takes an activation of `row` (R423). -/
def activate (row : Nat) (t : List (Nat × Nat)) : List (Nat × Nat) :=
  if t.any fun e => e.1 == row then t.map fun e => if e.1 = row then (row, e.2 + 1) else e
  else if t.length < 16 then t ++ [(row, 1)]
  else
    let low := t.foldl (fun m e => min m e.2) (t.headD (0, 0)).2
    let i := t.findIdx fun e => e.2 == low
    setAt t i (row, low + 1)

/-- Activations of a service: (stack × 65,536 + bank, row). -/
def State.activations (s : State) (l : List (Nat × Nat)) : State :=
  l.foldl (fun s e =>
    let k := e.1 / 65536 % 4
    let x := s.stack k
    let bank := e.1 % 65536
    s.setStack k { x with banks := x.banks.set bank (activate e.2 (x.banks.get bank [])) }) s

/-- Waiting requests take the urgency level of their wait (R422). DESIGN CHOICE, log entry 71. -/
def State.climb (s : State) : State :=
  let up (r : CellarReq) : CellarReq := { r with level := max r.level (urgencyLevel r.port (s.now - r.at_)) }
  s.setCell { s.cell with waiting := s.cell.waiting.map up }

/-- CELLAR_REQUEST (R20, R420 to R423): a request of `size` bytes, if any, arrives at a port; then the arbiter serves
`serve` requests, which activate the rows given. -/
def execCellarRequest (t port addr size : Nat) (write : Bool) (data : List Byte) (serve : Nat)
    (activates : List (Nat × Nat)) (s : State) : Host.Outcome State Fault Refusal :=
  happens t (fun s =>
    if !s.readyBit 6 then s
    else
      let r : CellarReq := { port, addr, size, write, data, at_ := s.now }
      let s := if size = 0 ∨ port > 15 then s
        else s.setCell { s.cell with waiting := s.cell.waiting ++ [r] }
      (serveReqs serve s.climb).activations activates) s

/-- URGENCY_LEVEL_RISE (R422). DESIGN CHOICE, log entry 71. -/
def execUrgencyLevelRise (t : Nat) (s : State) : Host.Outcome State Fault Refusal := happens t State.climb s

/-! ## Scrub, refresh, row disturbance (R418, R423) -/

/-- PATROL_SCRUB (R418): a pass of the stacks ends, with the bursts corrected and the blocks rebuilt on each. -/
def execPatrolScrub (t : Nat) (corrected rebuilt : List Nat) (s : State) : Host.Outcome State Fault Refusal :=
  happens t (fun s =>
    let s := (List.range 4).foldl (fun s k =>
      let x := s.stack k
      s.setStack k { x with corrected := wrapAdd 64 x.corrected (corrected.getD k 0),
                            reconstructed := wrapAdd 64 x.reconstructed (rebuilt.getD k 0) }) s
    s.setCell { s.cell with scrubs := wrapAdd 32 s.cell.scrubs 1 }) s

/-- REFRESH_WINDOW_START (R423). -/
def execRefreshWindowStart (t : Nat) (s : State) : Host.Outcome State Fault Refusal :=
  happens t (fun s =>
    s.setCell { s.cell with stackMap := s.cell.stackMap.mapVals fun _ x => { x with banks := [] } }) s

/-- ROW_HAMMER_THRESHOLD (R423): the neighbours of a row that has reached the threshold are refreshed. -/
def execRowHammerThreshold (t stack bank : Nat) (s : State) : Host.Outcome State Fault Refusal :=
  happens t (fun s =>
    let x := s.stack stack
    let tab := x.banks.get bank []
    match tab.find? fun e => decide (s.cell.threshold ≤ e.2) with
    | none => s
    | some e =>
      s.setStack stack { x with
        banks := x.banks.set bank (tab.map fun f => if f.1 = e.1 then (f.1, 0) else f),
        neighbours := wrapAdd 64 x.neighbours 1 }) s

/-! ## Faults (R426) -/

/-- The change ends: the new point is in force and its command completes (R428, R432). -/
def State.opPointDone (s : State) : State :=
  match s.cell.change with
  | some x =>
    let us := roundEven (s.now - x.since) ticksPerUs
    { s.setCell { s.cell with change := none } with cellarOp := x.rate }.finishAll
      (s.startedCmds 0x1004 fun _ => true) .ok fun _ => us
  | none => s

/-- The first stack from `k` up that is in service. DESIGN CHOICE, log entry 31. -/
def State.nextStack (s : State) (k : Nat) : Option Nat := (span k (4 - k)).find? fun j => !s.stackRetired j

/-- Stack `k` has done its part of a change: the next one begins, or the change ends (R428). -/
def State.opPointNext (s : State) (k : Nat) : State :=
  match s.nextStack (k + 1) with
  | some j => s.setStack j { s.stack j with phase := .selfRefresh }
  | none => s.opPointDone

/-- A stack is retired. -/
def State.loseStack (s : State) (k : Nat) (inj : Bool) : State :=
  if s.stackRetired k then s
  else
    let s1 := (s.setStack k { s.stack k with rebuilding := false, phase := .serving }).faultIn ⟨9, 0, k⟩
      { logical := k, injected := inj }
    if (s.stack k).phase = .serving then s1 else s1.opPointNext k

/-- A pseudo-channel fails (R426). DESIGN CHOICE, log entry 65. -/
def State.losePc (s : State) (k pc : Nat) (inj : Bool) : State :=
  let u : Unit3 := ⟨8, k, pc⟩
  if k > 3 || decide (32 < pc) || s.isRetired u || s.stackRetired k then s
  else if pc = 32 then
    match (s.stack k).replaced with
    | none => s.faultIn u { injected := inj }
    | some _ => s.loseStack k inj
  else if s.sparesLeft 8 k = 0 then s.loseStack k inj
  else
    (s.setStack k { s.stack k with replaced := some pc, rebuilding := true, rebuilt := 0, rebuildFrom := s.now }).faultMasked u
      { takenBy := 32, logical := pc, injected := inj }

/-- PSEUDO_CHANNEL_FAILURE (R426). -/
def execPseudoChannelFailure (t stack pc : Nat) (s : State) : Host.Outcome State Fault Refusal :=
  happens t (fun s => s.losePc stack pc false) s

/-- STACK_FAILURE (R426). -/
def execStackFailure (t stack : Nat) (s : State) : Host.Outcome State Fault Refusal :=
  happens t (fun s => if stack > 3 then s else s.loseStack stack false) s

/-- REBUILD_COMPLETE (R426). -/
def execRebuildComplete (t stack : Nat) (s : State) : Host.Outcome State Fault Refusal :=
  happens t (fun s =>
    let x := s.stack stack
    if x.rebuilding then s.setStack stack { x with rebuilding := false, rebuilt := pcBytes } else s) s

/-! ## Retraining (R424, R425) -/

/-- Some rebuild runs. -/
def State.rebuilding (s : State) : Bool := s.cell.stackMap.any fun e => e.2.rebuilding

/-- Channels that are retrained in a round: all but those of retired stacks. -/
def State.retrained (s : State) : List Nat := (List.range 64).filter fun c => !s.stackRetired (c / 16)

/-- Ticks between the starts of two pauses: 781.25 µs (R424). -/
def pauseSpacing : Nat := 20000000

/-- RETRAIN_PAUSE_START (R424): the pauses come one every 781.25 µs, with each channel once in a round; one is postponed during a
rebuild, an operating-point change or another pause. DESIGN CHOICE, log entry 139. -/
def execRetrainPauseStart (t channel : Nat) (s : State) : Host.Outcome State Fault Refusal :=
  happens t (fun s =>
    if channel > 63 || s.rebuilding || s.cell.change.isSome || s.cell.pause.isSome ||
        s.stackRetired (channel / 16) || s.cell.paused.contains channel ||
        s.cell.pausedAt.any fun p => decide (s.now < p + pauseSpacing) then s
    else
      let paused := channel :: s.cell.paused
      let paused := if s.retrained.all paused.contains then [] else paused
      s.setCell { s.cell with pause := some (channel, s.now), pausedAt := some s.now, paused }) s

/-- Ticks as nanoseconds, rounded up. -/
def ticksToNs (n : Nat) : Nat := (n * 5 + 127) / 128

/-- 400 ns in ticks (R424). -/
def pauseLimit : Nat := 10240

/-- RETRAIN_PAUSE_END (R424, R425, R540): the pause ends, at 400 ns at the latest, and one that would last longer leaves the
channel untrained; `fill` is the highest fill of the stack's write buffer in it. -/
def execRetrainPauseEnd (t channel : Nat) (trained : Bool) (fill : Nat) (s : State) :
    Host.Outcome State Fault Refusal :=
  happens t (fun s =>
    match s.cell.pause with
    | none => s
    | some (c, since) =>
      if c ≠ channel then s
      else
        let k := c / 16
        let x := s.stack k
        let trained := trained && decide (s.now ≤ since + pauseLimit)
        let failed := if trained then 0 else x.fails.get (c % 16) 0 + 1
        let y := { x with
          retrains := if trained then wrapAdd 32 x.retrains 1 else x.retrains,
          pauseMax := max x.pauseMax (min 400 (ticksToNs (s.now - since))), bufferPeak := max x.bufferPeak fill,
          fails := x.fails.set (c % 16) (failed % 3) }
        let s := (s.setCell { s.cell with pause := none }).setStack k y
        if trained then (s.calTrim 9 c 0 0).calServed 9 c
        else if failed = 3 then ((s.losePc k (2 * (c % 16)) false).calFailed 9 c).calServed 9 c else s) s

/-! ## Regions (R420, R429, R430) -/

/-- Free extents from `lo` up, between the regions in rising order. -/
def freeExtents : Nat → KMap Region → List (Nat × Nat)
  | lo, [] => if lo < cellarBytes then [(lo, cellarBytes - lo)] else []
  | lo, (b, r) :: rs =>
    if lo < b then (lo, b - lo) :: freeExtents (b + r.bytes) rs else freeExtents (b + r.bytes) rs

/-- The largest free extent. -/
def State.largestFree (s : State) : Nat := (freeExtents 0 s.regions).foldl (fun m e => max m e.2) 0

/-- The lowest aligned base at which `n` bytes are free. -/
def State.freeBase (s : State) (n al : Nat) : Option Nat :=
  (freeExtents 0 s.regions).findSome? fun e =>
    let b := (e.1 + 2 ^ al - 1) / 2 ^ al * 2 ^ al
    if b + n ≤ e.1 + e.2 then some b else none

/-- A range overlaps a region. -/
def State.overlaps (s : State) (a n : Nat) : Bool :=
  s.regions.any fun e => decide (e.1 < a + n ∧ a < e.1 + e.2.bytes)

/-- All ones in 64 bits. -/
def ones64 : Nat := 2 ^ 64 - 1

/-- CELLAR.ALLOCATE (R429). -/
def cellarAllocate (c : Cmd) (s : State) : VerbOut :=
  let p := c.payload
  let n := u64 p 0
  let off := u64 p 8
  let fl := u8 p 16
  let al := u8 p 17
  let any := off == ones64
  if n < 4096 ∨ n > cellarBytes ∨ n % 4096 ≠ 0 ∨ fl > 7 ∨ (fl.testBit 1 ∧ !fl.testBit 0) ∨ !zeros p 18 6 ∨
      (any ∧ (al < 12 ∨ al > 30)) ∨ (!any ∧ (off % 4096 ≠ 0 ∨ off + n > cellarBytes)) then .fail .badParam 0
  else if !any && s.overlaps off n then .fail .badState 0
  else if 65536 ≤ s.regions.length then .fail .noResource s.largestFree
  else
    match if any then s.freeBase n al else some off with
    | none => .fail .noResource s.largestFree
    | some b =>
      let r : Region := { bytes := n, flags := fl, label := u64 p 24, zeroing := fl.testBit 2 }
      let s1 := { s with regions := s.regions.set b r }
      if fl.testBit 2 then .running b [] s1 else .done .ok b s1

/-- CELLAR_ALLOCATE: `CELLAR.ALLOCATE` (R429). -/
def execCellarAllocate (t fn tag : Nat) (s : State) : Host.Outcome State Fault Refusal :=
  verb t 0x1001 fn tag cellarAllocate s

/-- REGION_ZERO_COMPLETE (R429). -/
def execRegionZeroComplete (t base : Nat) (s : State) : Host.Outcome State Fault Refusal :=
  happens t (fun s =>
    match s.regions.find base with
    | some r =>
      if r.zeroing then
        ({ s with regions := s.regions.set base { r with zeroing := false } }.keepCellar
            (s.cellarMem.zero base r.bytes)).finishAll (s.startedCmds 0x1001 fun c => c.aux == base) .ok fun _ => base
      else s
    | none => s) s

/-- The bytes `a` to `a + n − 1` meet the region at `b`. -/
def Region.meets (r : Region) (b a n : Nat) : Bool := n != 0 && decide (a < b + r.bytes) && decide (b < a + n)

/-- The first user of a region that R430 lists, the display apart. DESIGN CHOICE, log entry 66. -/
def State.regionUser (s : State) (b : Nat) (r : Region) : Option (Nat × Nat) :=
  let ctxs := (s.ctxs.filter fun e => e.2.mode.counts && r.meets b e.2.region (max 1 e.2.regionBytes)).map
    fun e => (8, e.1)
  let cores := (s.cores.filter fun e => e.2.mode == .running &&
    (match e.2.region with
     | some (a, n) => r.meets b a n
     | none => false)).map fun e => (9, e.1)
  let segs := (s.pat.segs.filter fun e => e.2.streamed && r.meets b e.2.master 1).map
    fun e => (0x0A, e.1)
  let holds (k : CaptureCfg) : Bool :=
    (k.flags.testBit 0 && r.meets b k.failAt (64 + 32 * k.capacity)) || (k.flags.testBit 1 && r.meets b k.capAt k.capBytes)
  let sites := (s.pat.sites.filter fun e => holds e.2.cap || holds e.2.nextCap).map fun e => (0x0B, e.1)
  let stims := (s.stim.filter fun e =>
    e.2.segs.any fun g => g.2.streamed && r.meets b g.2.master 1).map fun e => (0x0C, e.1)
  (ctxs ++ cores ++ segs ++ sites ++ stims).head?

/-! ## Status and operating point (R428, R431, R432) -/

/-- Sum of the Cellar allotments (R431). -/
def State.cellarAdmitted (s : State) : Nat := s.bud.allocs.foldl (fun n e => n + e.2.rates.get 0 0) 0

/-- The 48 bytes of stack `k` (R431); the temperature is measured. -/
def State.stackBytes (s : State) (k : Nat) (temp : Int) : List Byte :=
  let x := s.stack k
  let st := if s.stackRetired k then 2 else if x.phase = .selfRefresh then 1 else 0
  pack [(1, st), (1, bit x.replaced.isSome + 2 * bit x.rebuilding), (1, x.replaced.getD 255), (1, unsign 8 temp),
    (4, x.retrains), (8, x.corrected), (8, x.reconstructed), (8, x.neighbours), (4, x.bufferPeak), (4, x.pauseMax),
    (8, s.rebuiltBytes k)]

/-- The header of KIND 0 (R431). -/
def State.cellarHeader (s : State) : List Byte :=
  pack [(1, s.cellarOp),
    (1, bit s.cell.change.isSome + 2 * bit s.rebuilding + 4 * bit ((List.range 4).any s.stackRetired)), (2, 0),
    (4, s.regions.length), (8, s.regions.foldl (fun n e => n + e.2.bytes) 0), (8, s.largestFree),
    (8, resourceCounted s.countOp 0 false), (8, s.cellarAdmitted), (8, s.cell.partials), (4, s.cell.threshold),
    (4, s.cell.scrubs), (8, 0)]

/-- A KIND 1 entry (R431). -/
def regionEntry (e : Nat × Region) : List Byte := pack [(8, e.1), (8, e.2.bytes), (1, e.2.flags), (7, 0), (8, e.2.label)]

/-- CELLAR.GET_STATUS (R431). -/
def cellarGetStatus (temps : List Int) (c : Cmd) (s : State) : VerbOut :=
  let p := c.payload
  if u8 p 0 > 1 ∨ !zeros p 1 3 then .fail .badParam 0
  else if u8 p 0 = 0 then
    .data (s.cellarHeader ++ (List.range 4).flatMap fun k => s.stackBytes k (temps.getD k 0)) 0 s
  else
    let es := (s.regions.drop (u32 p 4)).take (min 2048 (c.room / 32))
    .data (es.flatMap regionEntry) es.length s

/-- CELLAR_GET_STATUS: `CELLAR.GET_STATUS` (R431). -/
def execCellarGetStatus (t fn tag : Nat) (temps : List Int) (s : State) : Host.Outcome State Fault Refusal :=
  verb t 0x1003 fn tag (cellarGetStatus temps) s

/-- CELLAR.SET_OPERATING_POINT (R423, R428, R432). -/
def cellarSetOperatingPoint (c : Cmd) (s : State) : VerbOut :=
  let p := c.payload
  let asked := u8 p 0
  let rate := if asked = 255 then s.cellarOp else asked
  let th := u32 p 4
  let short := s.shortfall s.bud rate
  if (asked > 2 ∧ asked ≠ 255) ∨ !zeros p 1 3 ∨ (th ≠ 0 ∧ (th < 256 ∨ th > 4096)) then .fail .badParam 0
  else if (List.range 4).any s.stackRetired then .fail .badState 0
  else if s.rebuilding then .wait
  else if rate ≠ s.cellarOp ∧ resourceCounted rate 0 false < s.cellarAdmitted then .fail .noAllotment 0
  else if rate < s.cellarOp ∧ short ≠ 0 then .fail .noEnergy short
  else
    let s1 := if th = 0 then s else s.setCell { s.cell with threshold := th }
    if rate = s.cellarOp then .done .ok 0 s1
    else
      .running rate [] ((s1.setCell { s1.cell with change := some { rate, since := s.now } }).setStack 0
        { s1.stack 0 with phase := .selfRefresh })

/-- CELLAR_SET_OPERATING_POINT: `CELLAR.SET_OPERATING_POINT` (R432). -/
def execCellarSetOperatingPoint (t fn tag : Nat) (s : State) : Host.Outcome State Fault Refusal :=
  verb t 0x1004 fn tag cellarSetOperatingPoint s

/-- STACK_OP_POINT_SERVING (R428). -/
def execStackOpPointServing (t stack : Nat) (s : State) : Host.Outcome State Fault Refusal :=
  happens t (fun s =>
    if (s.stack stack).phase = .selfRefresh then s.setStack stack { s.stack stack with phase := .draining } else s) s

/-- STACK_BUFFER_DRAINED (R425, R428): `fill` is the highest fill of the buffer. -/
def execStackBufferDrained (t stack fill : Nat) (s : State) : Host.Outcome State Fault Refusal :=
  happens t (fun s =>
    let x := s.stack stack
    if x.phase ≠ .draining then s
    else
      (s.setStack stack { x with phase := .serving, bufferPeak := max x.bufferPeak fill }).opPointNext stack) s

end Sys2Proof.Machine
end

