-- ==== Sys2Proof/Machine/ConfigSpace.lean ====
section
/-! DEFINITION. The configuration space of the two functions (R24, R25): base address registers, and the power
management, PCI Express, MSI-X and Advanced Error Reporting capabilities that R24 names. -/

namespace Sys2Proof.Machine

/-- Width in bits of the offset within base address register `b` of a function, where it has one (R25): BAR0 of PF0
256 KiB, BAR2 of PF0 128 GiB, BAR0 of PF1 64 KiB. -/
def barBits (fn b : Nat) : Option Nat :=
  if fn = 0 ∧ b = 0 then some 18 else if fn = 0 ∧ b = 2 then some 37 else if fn = 1 ∧ b = 0 then some 16 else none

/-- The fixed low bits of a base address register: 64-bit, and prefetchable for the aperture (R25).
PRESUMED, log entry 97. -/
def barType (b : Nat) : Nat := if b = 2 then 0xC else 4

/-- The base address that configuration software has given to BAR `b` of a function. -/
def State.barBase (s : State) (fn b : Nat) : Nat := (s.func fn).bars.get b 0

/-- The bits of the configuration word at `off` that software may set: the command register, Device Control with Max
Payload Size and Max Read Request Size, Link Control with ASPM L1 only, 10-bit tags, the target link speed, the MSI-X
enable and function mask, and the error masks and severities of AER (R24). PRESUMED, log entry 97. -/
def configMask (off : Nat) : Nat :=
  match off with
  | 0x04 => 0x0546 | 0x58 => 0x79FF | 0x60 => 0x00CA | 0x78 => 0x101F | 0x80 => 0x000F | 0x90 => 0xC0000000
  | 0x108 => 0x07FFF030 | 0x10C => 0x07FFF030 | 0x114 => 0x0000F1C1 | _ => 0

/-- The reset value of those bits. PRESUMED, log entry 97. -/
def configReset (off : Nat) : Nat :=
  match off with
  | 0x58 => 0x2810 | 0x80 => 5 | 0x10C => 0x00462030 | 0x114 => 0x2000 | _ => 0

/-- The bits of the configuration word at `off` that software cannot set: identification and class (R24), the
capability list, D0 and D3hot, payloads up to 512 bytes, Function Level Reset, 32 GT/s ×16 with ASPM L1 and 10-bit tags,
the negotiated link (R30), the size and place of the MSI-X table (R28, R29), and AER, whose error status is clear.
PRESUMED, log entry 97. -/
def State.configFixed (s : State) (fn off : Nat) : Nat :=
  match off with
  | 0x00 => Config.vendorId.toNat + 2 ^ 16 * (0x7840 + fn)
  | 0x04 => 0x00100000
  | 0x08 => 0x11800000
  | 0x0C => 0x00800000
  | 0x34 => 0x40
  | 0x40 => 0x00035001
  | 0x44 => 8 + 3 * bit (s.func fn).d3hot
  | 0x50 => 0x00029010
  | 0x54 => 0x10008022
  | 0x5C => 0x00400905
  | 0x60 => 2 ^ 16 * (s.host.linkSpeed + 2 ^ 4 * s.host.linkWidth + 2 ^ 12 * bit (s.host.clocking == 0))
  | 0x74 => 0x00030000
  | 0x7C => 0x3E
  | 0x90 => 0x11 + 2 ^ 16 * (vectorCount fn - 1)
  | 0x94 => msixBase fn
  | 0x98 => 0x7000
  | 0x100 => 0x00020001
  | _ => 0

/-- Writes the 32-bit word at `off` of the configuration space of a function: the base address registers of R25 take
the bits above their size, and other words the bits that software may set. PRESUMED, log entry 97. -/
def State.writeConfig (s : State) (fn off v : Nat) : State :=
  let b := (off - 0x10) / 4
  let f := s.func fn
  if off < 0x10 ∨ 0x28 ≤ off then
    if configMask off = 0 then s else s.setFunc fn { f with cfg := f.cfg.set off (v &&& configMask off) }
  else
    match barBits fn (b / 2 * 2) with
    | none => s
    | some n =>
      let old := f.bars.get (b / 2 * 2) 0
      let new := if b % 2 = 0 then old / 2 ^ 32 * 2 ^ 32 + v % 2 ^ 32 else v % 2 ^ 32 * 2 ^ 32 + old % 2 ^ 32
      s.setFunc fn { f with bars := f.bars.set (b / 2 * 2) (new / 2 ^ n * 2 ^ n) }

/-- The 32-bit word at `off` of the configuration space of a function (R24, R25). PRESUMED, log entry 97. -/
def State.readConfig (s : State) (fn off : Nat) : Nat :=
  let b := (off - 0x10) / 4
  if off < 0x10 ∨ 0x28 ≤ off then s.configFixed fn off ||| (s.func fn).cfg.get off (configReset off)
  else
    match barBits fn (b / 2 * 2) with
    | none => 0
    | some _ =>
      let base := s.barBase fn (b / 2 * 2)
      if b % 2 = 0 then base % 2 ^ 32 + barType b else base / 2 ^ 32

/-- The negotiated maximum payload size of a function, bytes (R24). -/
def State.maxPayload (s : State) (fn : Nat) : Nat := 128 * 2 ^ bits (s.readConfig fn 0x58) 7 5

/-- The maximum read request size of a function, bytes (R24). -/
def State.maxRead (s : State) (fn : Nat) : Nat := 128 * 2 ^ bits (s.readConfig fn 0x58) 14 12

/-- The requests of at most `m` bytes, as offset and length, in which `n` bytes leave (R438).
DESIGN CHOICE, log entry 67. -/
def requestsOf (m n : Nat) : List (Nat × Nat) :=
  (List.range ((n + m - 1) / m)).map fun k => (k * m, min m (n - k * m))

end Sys2Proof.Machine
end

