-- ==== Sys2Proof/Machine/IdentField.lean ====
section
/-! DEFINITION. The typed fields of cached identity records, as other blocks look them up (R548 to R551). -/

namespace Sys2Proof.Machine

/-- The fields of a record as (TAG, value), from the bytes after its header (R548). -/
def idFields : Nat → List Byte → List (Nat × List Byte)
  | 0, _ => []
  | k + 1, p =>
    if p.length < 4 then []
    else
      let n := u16 p 2
      if p.length < 4 + n then []
      else (u16 p 0, (p.drop 4).take n) :: idFields k (p.drop (4 + (n + 3) / 4 * 4))

/-- Fields of a cached device whose record may be used (R551). -/
def IdDev.fields (d : IdDev) : List (Nat × List Byte) :=
  if d.status = 1 ∨ d.status = 2 then idFields d.length ((d.bytes.take d.length).drop 48) else []

/-- The first field with a tag that satisfies `p`: the lower bus wins, then the lower device (R550). -/
def State.idField (s : State) (tag : Nat) (p : List Byte → Bool) : Option (List Byte) :=
  ((s.sec.ids.flatMap fun e => e.2.fields).find? fun f => f.1 == tag && p f.2).map Prod.snd

/-- FFE preset of PE device `n` from its board's record (R316, R549). -/
def State.pePreset (s : State) (n : Nat) : Nat :=
  match s.idField 0x0010 fun v => u8 v 0 == n with
  | some v => u8 v 1 % 8
  | none => 0

/-- TRACE_DELAY of channel `c` of PE device `n`, in 1/65,536 tick (R333, R549). -/
def State.traceDelay (s : State) (n c : Nat) : Int :=
  match s.idField 0x0011 fun v => u8 v 0 == n && decide (u8 v 1 ≤ c ∧ c < u8 v 1 + u16 v 2) with
  | some v => s32 v (4 + 4 * (c - u8 v 1))
  | none => 0

/-- CABLE_DELAY of a KIND and INDEX, in 1/65,536 tick (R549, R553). -/
def State.cableDelay (s : State) (kind index : Nat) : Option Nat :=
  (s.idField 0x0021 fun v => u8 v 0 == kind && u8 v 1 == index).map fun v => u64 v 4

end Sys2Proof.Machine
end

