-- ==== Sys2Proof/Machine/Deskew.lean ====
section
/-! DEFINITION. Pin deskew: the measurement of one device after another, what Steward firmware plays and routes for it,
and what the stamps of its timing line come to (R333, R387, R538, R541). -/

namespace Sys2Proof.Machine

/-- The pin-deskew measurement of device `n` is under way: TIU channel `n` is HELD (R387). -/
def State.measuring (s : State) (n : Nat) : Bool := s.cal.runs.any fun r => r.device == n && r.playing

/-- Replaces the measurements. -/
def State.setRuns (s : State) (rs : List DeskewRun) : State := { s with cal := { s.cal with runs := rs } }

/-- Replaces the first measurement of a device. -/
def putRun (r : DeskewRun) : List DeskewRun → List DeskewRun
  | [] => []
  | x :: xs => if x.device = r.device then r :: xs else x :: putRun r xs

/-- Removes the first measurement of device `n`. -/
def dropRun (n : Nat) : List DeskewRun → List DeskewRun
  | [] => []
  | x :: xs => if x.device = n then xs else x :: dropRun n xs

/-- Measurements of the pins named, by device (R537, R541). -/
def runsOf (units : List Nat) (why : Nat) : List DeskewRun :=
  (List.range 64).filterMap fun n =>
    let pins := (units.filter fun u => u / 64 == n).map (· % 64)
    if pins.isEmpty then none else some { device := n, pins, why }

/-- What the timing line carries for the mean to be taken next: the drive-data edge of the channel, the reference, its
strobe, and the reference again (R333). -/
def DeskewRun.route (r : DeskewRun) : Nat × Nat :=
  let c := r.pins.headD 0
  match r.means.length with
  | 0 => (1, c)
  | 2 => (2, c)
  | _ => (3, c)

/-- Sends a ROUTE frame (R320). -/
def State.sendRoute (s : State) (n : Nat) (r : Nat × Nat) : State :=
  s.peSendR n 0x0A [BitVec.ofNat 8 r.1, BitVec.ofNat 8 r.2]

/-- A ROUTE frame is on its way to device `n`, or its acknowledgement is. -/
def PeDev.routing (d : PeDev) : Bool := d.unacked.any (fun f => f.type == 0x0A) || d.waiting.any fun f => f.1 == 0x0A

/-- The master vector of one pin at D0 or D1, with time set 0 (R289). -/
def deskewVector (high : Bool) : List Byte := List.replicate 8 0#8 ++ [BitVec.ofNat 8 (bit high)]

/-- Steward firmware plays alternating D0 and D1 on the channel under measurement, with every edge at 0, and routes the first
edge to the timing line (R326, R333). DESIGN CHOICE, log entry 135. -/
def State.deskewPlay (s : State) (r : DeskewRun) : State :=
  let n := r.device
  let c := r.pins.headD 0
  let base := s.freeNat 96 % 2 ^ 48
  let boundary := s.freeNat 96 / 2 ^ 48
  let k := lowestChannel (s.peDev n)
  let unused : List (Nat × Nat) := [(1, 0xFF), (17, 0)]
  let s := s.drawFree.peSendR n 9 (pack [(1, r.site), (7, 0), (8, 2 ^ c)])
  let s := s.peSendR n 8 (pack ([(1, c), (1, 0), (16, 0)] ++ unused ++ unused))
  let s := (s.peSendR n 6 (pack [(1, k), (3, 0), (6, base), (2, 0), (6, 0), (6, 0)])).emitBulk n k
    (sliceOf (deskewVector false) [(0, c)] ++ sliceOf (deskewVector true) [(0, c)])
  (s.peSendS n 4 (pack [(1, r.site), (1, 1), (6, boundary), (1, 0), (1, 0), (6, base), (4, 2), (4, 0), (4, 0), (4, 0)])).sendRoute
    n r.route

/-- The vector clock is not held idle: its synthesiser drives the outputs, locked or coasting (R100, R102, R328). -/
def State.vectorRuns (s : State) : Bool :=
  let x := s.gen 0
  (x.synth == .locked || x.synth == .coasting) && !x.zeroing

/-- The measurement of device `n` begins, where one waits and none is under way. DESIGN CHOICE, log entry 135. -/
def State.measureBegin (s : State) (n : Nat) : State :=
  match s.cal.runs.find? fun r => r.device == n with
  | some r =>
    if r.playing then s
    else
      let r' := { r with playing := true, code := s.freeNat 22 % 16384, site := s.freeNat 22 / 16384 }
      let d := s.peDev n
      let s := (s.setPe n { d with clamped := d.clamped && decide (1 < r.why) }).setRuns (putRun r' s.cal.runs)
      s.drawFree.deskewPlay r'
  | none => s

/-- The device whose turn it is and its buddy are measured at once, while the vector clock runs (R538). -/
def State.measureGo (s : State) : State :=
  match s.cal.runs with
  | r :: _ => if s.vectorRuns then (s.measureBegin r.device).measureBegin (buddyOf r.device) else s
  | [] => s

/-- Adds measurements at the end. -/
def State.measureAll (s : State) (rs : List DeskewRun) : State := (s.setRuns (s.cal.runs ++ rs)).measureGo

/-- A deskew in 0.25 ps from a difference of two means, in vector periods / (4,096 × 10^16) at `freq` mHz, and a trace delay
in 1/65,536 tick, clamped to ±2 ns; answers whether it was clamped (R333, R343). DESIGN CHOICE, log entry 58. -/
def deskewOf (diff trace : Int) (freq : Nat) : Int × Bool :=
  let q := roundEvenInt (-(diff * 524288 + trace * (12800000 * freq : Nat))) (5368709120 * freq)
  (max (-8000) (min 8000 q), decide (q < -8000) || decide (8000 < q))

/-- The representative of `d` modulo `m` that lies nearest to 0. -/
def nearestMod (d : Int) (m : Nat) : Int :=
  let z := d % (m : Int)
  if (m : Int) ≤ 2 * z then z - m else z

/-- The modulus of a place among the vectors. -/
def deskewTurn : Nat := 4096 * 10 ^ 16

/-- Channel `c` of device `n` has been measured: `a` and `b` are its mean drive and strobe edges less the mean reference
(R333). -/
def State.deskewPin (s : State) (n c : Nat) (a b : Int) : State :=
  let f := (s.gen 0).freq
  let a := deskewOf a (s.traceDelay n c) f
  let b := deskewOf b (s.traceDelay n c) f
  let clamp := a.2 || b.2
  let d := s.peDev n
  (s.setPe n { d with deskew := d.deskew.set c (a.1, b.1), clamped := d.clamped || clamp }).calTrim 8 (n * 64 + c)
    (bit clamp) (unsign 16 a.1 + 65536 * unsign 16 b.1)

/-- The 256 bytes of a deskew result (R341). -/
def State.deskewBytes (s : State) (n : Nat) : List Byte :=
  pack ((List.range 64).flatMap fun c =>
    let k := (s.peDev n).deskew.get c (0, 0)
    [(2, unsign 16 k.1), (2, unsign 16 k.2)])

/-- The commands with opcode `op` that wait for the measurement of device `n`. -/
def State.measuredBy (s : State) (op n : Nat) : List Cmd :=
  s.startedCmds op fun c => c.named.contains n && (u8 c.payload 0 == if op = 0x0B04 then 0 else 8)

/-- A command has one measurement less to wait for, in which `lost` channels were not measured; after the last it
completes (R341, R541, R544). -/
def State.measured (s : State) (n lost : Nat) (c : Cmd) : State :=
  let left := c.named.erase n
  let count := c.aux - lost
  if !left.isEmpty then s.markStarted c count left
  else if c.opcode = 0x0B04 then
    let first := if u8 c.payload 1 = 0xFF then ((List.range 64).find? fun d => (s.peDev d).linked).getD n
      else u8 c.payload 1
    (if c.resultAddr = 0 then s else s.writeResult c (s.deskewBytes first)).finish c .ok count
  else (s.evCalDone 8 (count % 2 ^ 32) (count / 2 ^ 32) false).finish c .ok count

/-- The measurement of a device has ended with `lost` channels not measured (R333, R538, R541, R544). After the power-up
measurement the Steward mutes the vector clock. -/
def State.measureEnds (s : State) (r : DeskewRun) (lost : Nat) : State :=
  let s := s.setRuns (dropRun r.device s.cal.runs)
  let more := s.cal.runs.any fun x => x.why == r.why
  let s :=
    match r.why with
    | 0 =>
      if more then s
      else
        let s := s.setSynth 0 { s.gen 0 with enabled := false, freq := 0 } .muted
        { s with cal := { s.cal with deskewRunning := false } }
    | 1 => ((s.measuredBy 0x0B04 r.device).head?.map fun c => s.measured r.device lost c).getD s
    | 2 => ((s.measuredBy 0x1601 r.device).head?.map fun c => s.measured r.device lost c).getD s
    | _ =>
      let done := s.cal.passed - lost
      if more then { s with cal := { s.cal with passed := done } }
      else ({ s with cal := { s.cal with passed := 0, missed := 0 } }).evCalDone 8 done s.cal.missed true
  s.measureGo

/-- Device `n` is gone: the measurements of it end with the channels that are left (R331, R333).
DESIGN CHOICE, log entry 135. -/
def State.measureLost (s : State) (n : Nat) : State :=
  (s.cal.runs.filter fun r => r.device == n).foldl (fun s r => s.measureEnds r r.pins.length) s

/-- All four means of a channel are taken: its deskew is known, and the next channel is played, or the site that Steward
firmware played as is released and the timing line carries what it did before (R333). -/
def State.pinMeasured (s : State) (r : DeskewRun) : State :=
  let n := r.device
  let place (k : Nat) : Int := r.means.getD k 0
  let s := s.deskewPin n (r.pins.headD 0) (nearestMod (place 0 - place 1) deskewTurn)
    (nearestMod (place 2 - place 3) deskewTurn)
  match r.pins.drop 1 with
  | [] =>
    let s := s.peSendR n 9 (pack [(1, r.site), (7, 0), (8, 0)])
    (s.sendRoute n (s.peDev n).route).measureEnds r 0
  | rest =>
    let r' := { r with pins := rest, means := [] }
    (s.setRuns (putRun r' s.cal.runs)).deskewPlay r'

/-- TIU channel `n` stamps a rising edge of the timing line at T for the measurement that holds it; edges count once the
device has acknowledged the route, and 4,096 of them make a mean (R333). -/
def State.deskewStamp (s : State) (n time : Nat) : State :=
  match s.cal.runs.find? fun r => r.device == n && r.playing with
  | none => s
  | some r =>
    if (s.peDev n).routing then s
    else
      let f := (s.gen 0).freq
      let r := if r.count = 0 then { r with count := 1, anchor := time, sum := 0 }
        else { r with count := r.count + 1, sum := r.sum + nearestMod ((time - r.anchor) * f : Nat) (10 ^ 16) }
      if r.count < 4096 then s.setRuns (putRun r s.cal.runs)
      else
        let place := (((4096 * r.anchor * f : Nat) + r.sum) % (deskewTurn : Int)).toNat
        let r := { r with means := r.means ++ [place], count := 0 }
        if r.means.length < 4 then (s.setRuns (putRun r s.cal.runs)).sendRoute n r.route else s.pinMeasured r

end Sys2Proof.Machine
end

