-- ==== Sys2Proof/Machine/Vine.lean ====
section
/-! DEFINITION. The Vine chain and the VINE family (R359 to R370). The frames that arrive are given by their
payload; the frames that leave are outputs. -/

namespace Sys2Proof.Machine

/-- Replaces the Vine state. -/
def State.setVine (s : State) (v : Vine) : State := { s with vine := v }

/-- Domain PD_VINE_0 is on while the role is not OFF (R365). -/
def State.pdVine (s : State) : Bool := s.vine.role != 0

/-- The bypass relays join each IN port to its OUT port: the module is unpowered, in reset or in shutdown, or has not
executed `VINE.CONFIGURE` since (R359, R365, R545). -/
def State.vineBypass (s : State) : Bool :=
  s.pw.state == .unpowered || s.pw.state == .heldShutdown || s.pw.state == .thermalTrip || s.sec.tapHeld ||
    !s.vine.configured

/-- VINE_REF_OUT carries the module's own 100 MHz, regenerated from its time base (R359). -/
def State.vineRefOut (s : State) : Bool := s.powered && s.readyBit 3 && !s.vineBypass

/-- CRC-8 over the `n` payload bits of a frame, in the order in which they are sent (R360).
DESIGN CHOICE, log entry 62. -/
def vineCrc (n payload : Nat) : Nat := (List.range n).foldl (fun c i => crcBit 8 0x07 c (payload.testBit i)) 0

/-- `high` cells high, then `low` cells low. -/
def vinePulse (high low : Nat) : List Bool := List.replicate high true ++ List.replicate low false

/-- Payload bits of a frame by its kind: 0 EPOCH, 1 EVENT, 2 DELAY (R360). -/
def vineBits (kind : Nat) : Nat := if kind = 0 then 64 else if kind = 1 then 46 else 48

/-- The cells of a frame: the header pulse of its kind, then its payload bits and their CRC, LSB first, each of four cells
with one high for a 0 and three for a 1 (R360). DESIGN CHOICE, log entry 62. -/
def vineFrame (kind payload : Nat) : List Bool :=
  let n := vineBits kind
  let header := if kind = 0 then vinePulse 8 8 else if kind = 1 then vinePulse 5 3 else vinePulse 6 2
  let word := payload % 2 ^ n + 2 ^ n * vineCrc n payload
  header ++ (List.range (n + 8)).flatMap fun i => if word.testBit i then vinePulse 3 1 else vinePulse 1 3

/-- LINK_DELAY in use slews to its target, at ±100 ppb: 167,772 units in an epoch (R363).
DESIGN CHOICE, log entry 62. -/
def Vine.slew (v : Vine) : Vine :=
  match v.target with
  | none => v
  | some d =>
    if d ≤ v.delay + 167772 ∧ v.delay ≤ d + 167772 then { v with delay := d, target := none }
    else { v with delay := if v.delay < d then v.delay + 167772 else v.delay - 167772 }

/-- Completes every VINE.CONFIGURE that waits (R366). -/
def State.finishVine (s : State) (result : Nat) : State :=
  s.finishAll (s.startedCmds 0x0D01 fun _ => true) .ok fun _ => result

/-- VINE.CONFIGURE (R361, R365, R366). -/
def vineConfigure (c : Cmd) (s : State) : VerbOut :=
  let p := c.payload
  let role := u8 p 0
  let delay := if u64 p 24 = 0 then s.cableDelay 2 0 else some (u64 p 24)
  let first := (s.now + 10 * ticksPerMs + epochTicks - 1) / epochTicks * epochTicks
  let origin := if u64 p 16 = 0 then first else s.lift (u64 p 16)
  if role > 2 ∨ !zeros p 1 7 then .fail .badParam 0
  else if role ≠ 0 ∧ s.vine.role ≠ 0 ∧ s.vine.role ≠ role then .fail .badState 0
  else if role = 0 then
    let was := s.vineMember
    let s1 := (s.setVine { configured := true }).undeclare 0x0D 0
    .done .quiesced 0 (if was then s1.loopUpdate 0 else s1)
  else if role = 2 ∧ delay.isNone then .fail .badState 0
  else
    match s.declare [{ fam := 0x0D, obj := 0, group := 0, first := 1000000, each := 1000000 }] with
    | .error e => .fail .noEnergy e
    | .ok s1 =>
      if role = 1 then .running 0 [] (s1.setVine { configured := true, role := 1, ref := some (u64 p 8, origin) })
      else
        let s2 := s1.setVine { configured := true, role := 2, delay := delay.getD 0 }
        .running (if s.vine.role = 2 then s.vine.delay + 1 else 0) [] ({ s2 with ck := { s2.ck with ppsQual := false, ppsRun := 0 } }.loopUpdate 0)

/-- VINE_CONFIGURE: `VINE.CONFIGURE` (R366). -/
def execVineConfigure (t fn tag : Nat) (s : State) : Host.Outcome State Fault Refusal :=
  verb t 0x0D01 fn tag vineConfigure s

/-- VINE.CALIBRATE_SKEW (R363, R367). -/
def vineCalibrateSkew (c : Cmd) (s : State) : VerbOut :=
  let p := c.payload
  let start := u64 p 0
  let echoes := u16 p 8
  let fl := u8 p 10
  if echoes < 64 ∨ echoes > 4096 ∨ fl > 3 ∨ !zeros p 11 5 ∨ start < s.vine.epoch + 100 then .fail .badParam 0
  else if s.vine.role = 0 then .fail .badState 0
  else
    .running 0 [] (s.setVine { s.vine with
      cal := some { start, echoes, measure := fl.testBit 0, echoIn := fl.testBit 1 } })

/-- VINE_CALIBRATE_SKEW: `VINE.CALIBRATE_SKEW` (R367). -/
def execVineCalibrateSkew (t fn tag : Nat) (s : State) : Host.Outcome State Fault Refusal :=
  verb t 0x0D02 fn tag vineCalibrateSkew s

/-- The 64 bytes of `VINE.GET_STATUS` (R368). -/
def Vine.status (v : Vine) : List Byte :=
  pack [(1, v.role),
    (1, bit v.aligned + 2 * bit v.holdover + 4 * bit v.stale + 8 * bit v.refIn + 16 * bit v.syncIn), (2, 0),
    (4, v.crcErrors), (8, v.epoch), (8, v.epochTick), (8, v.delay), (4, unsign 32 v.phase), (4, v.jumps), (8, v.sent),
    (8, v.dropped), (8, 0)]

/-- VINE_GET_STATUS: `VINE.GET_STATUS` (R368). -/
def execVineGetStatus (t fn tag : Nat) (s : State) : Host.Outcome State Fault Refusal :=
  verb t 0x0D03 fn tag (fun _ s => .data s.vine.status 0 s) s

/-- VINE.SCHEDULE_SYNC (R369). -/
def vineScheduleSync (c : Cmd) (s : State) : VerbOut :=
  let p := c.payload
  let x : VineSchedule := { epoch := u64 p 0, period := u32 p 8, count := u32 p 12, send := u8 p 16 == 1, code := u8 p 17 }
  if u8 p 16 > 1 ∨ u8 p 17 > 7 ∨ !zeros p 18 6 ∨
      (x.count ≠ 0 ∧ (x.period = 0 ∨ x.period > 1000000 ∨ x.epoch < s.vine.epoch + 100)) then .fail .badParam 0
  else if x.count = 0 then .done .ok 0 (s.setVine { s.vine with sched := none })
  else .done .ok 0 (s.setVine { s.vine with sched := some x })

/-- VINE_SCHEDULE_SYNC: `VINE.SCHEDULE_SYNC` (R369). -/
def execVineScheduleSync (t fn tag : Nat) (s : State) : Host.Outcome State Fault Refusal :=
  verb t 0x0D04 fn tag vineScheduleSync s

/-! ## Calibration (R363) -/

/-- 40 ns in 1/65,536 tick. -/
def turnaround : Nat := 67108864

/-- LINK_DELAY from the echoes returned. DESIGN CHOICE, log entry 62. -/
def VineCal.delay (c : VineCal) : Nat := (c.sum / c.count - turnaround) / 2

/-- The calibration ends: the measured delay is sent downstream, and an input link that took part is no longer
stale (R363, R364, R367). -/
def State.vineCalEnd (s : State) (c : VineCal) : State :=
  let v := s.vine
  let s := s.setVine { v with cal := none, stale := v.stale && !c.echoIn, holdover := v.holdover && !(c.echoIn && v.stale) }
  let cmds := s.startedCmds 0x0D02 fun _ => true
  let s := if c.echoIn then (s.calTrim 10 0 0 (s.vine.target.getD s.vine.delay)).loopUpdate 0 else s
  if !c.measure then s.finishAll cmds .ok fun _ => 0
  else if c.count = 0 then s.finishAll cmds .timeout fun _ => 0
  else
    ((s.vineQueue { kind := 2, payload := c.delay % 2 ^ 48 }).calTrim 10 1 0 c.delay).finishAll cmds .ok
      fun _ => c.delay

/-- ECHO_PULSE_SEND (R363): the upstream module sends and stamps an echo pulse. -/
def execEchoPulseSend (t : Nat) (stamp : Stamp) (s : State) : Host.Outcome State Fault Refusal :=
  happens t (fun s =>
    match s.vine.cal with
    | some c =>
      if c.measure && decide (c.start ≤ s.vine.epoch) && decide (s.vine.epoch < c.start + c.echoes) then
        (s.setVine { s.vine with cal := some { c with sent := some (stampFine (s.full stamp)) } }).emit (.vineTx 3 [])
      else s
    | none => s) s

/-- ECHO_PULSE_RETURN (R363). -/
def execEchoPulseReturn (t : Nat) (stamp : Stamp) (s : State) : Host.Outcome State Fault Refusal :=
  happens t (fun s =>
    match s.vine.cal with
    | some c =>
      match c.sent with
      | some a =>
        let c := { c with sent := none, sum := c.sum + (stampFine (s.full stamp) - a), count := c.count + 1 }
        if c.count = c.echoes then s.vineCalEnd c else s.setVine { s.vine with cal := some c }
      | none => s
    | none => s) s

/-- ECHO_TURNAROUND (R363): the downstream module returns an echo pulse. -/
def execEchoTurnaround (t : Nat) (s : State) : Host.Outcome State Fault Refusal :=
  happens t (fun s =>
    match s.vine.cal with
    | some c => if c.echoIn then s.emit (.vineTx 4 []) else s
    | none => s) s

/-! ## Epochs (R361, R364) -/

/-- The scheduled sync of epoch `n`, if there is one, stamped with its local edge (R369, R370). -/
def State.fireSync (s : State) (n edge : Nat) : State :=
  match s.vine.sched with
  | some x =>
    if x.epoch ≠ n then s
    else
      let next := if x.count ≤ 1 then none else some { x with epoch := x.epoch + x.period, count := x.count - 1 }
      let s := (s.setVine { s.vine with sched := next }).eventAt 0x0D01 0 { tick := edge } n
      if x.send then s.vineQueue { payload := eventPayload x.code n 0 0 } else s
  | none => s

/-- EPOCH_EDGE (R361, R366, R369). -/
def execEpochEdge (t : Nat) (s : State) : Host.Outcome State Fault Refusal :=
  happens t (fun s =>
    match s.vine.ref with
    | none => s
    | some (e, tick) =>
      if s.vine.role = 0 ∨ s.now < tick then s
      else
        let n := e + (s.now - tick) / epochTicks
        let at_ := tick + (s.now - tick) / epochTicks * epochTicks
        let s := s.setVine { s.vine with ref := some (n, at_), epoch := n, epochTick := at_, sending := true }
        let s := s.setVine s.vine.slew
        let s := (s.emit (.vineTx 0 (vineFrame 0 n))).fireSync n at_
        let s := if s.vine.role = 1 then s.finishVine at_ else s
        match s.vine.cal with
        | some c => if c.start + c.echoes ≤ n then s.vineCalEnd c else s
        | none => s) s

/-- VINE_FRAME_SENT (R362). -/
def execVineFrameSent (t : Nat) (s : State) : Host.Outcome State Fault Refusal :=
  happens t (fun s => s.setVine { s.vine with sending := false }) s

/-- The next epoch edge is at least 2.4 µs away (R360). -/
def State.vineMaySend (s : State) : Bool :=
  match s.vine.ref with
  | some (_, tick) => decide ((s.now - tick) % epochTicks + 61440 ≤ epochTicks)
  | none => false

/-- VINE_EVENT_SEND (R362): the oldest frame of the merge queue starts. -/
def execVineEventSend (t : Nat) (s : State) : Host.Outcome State Fault Refusal :=
  happens t (fun s =>
    match s.vine.queue with
    | [] => s
    | f :: rest =>
      if s.vine.sending || !s.vineMaySend then s
      else
        let sent := if f.kind = 1 then satAdd 64 s.vine.sent 1 else s.vine.sent
        (s.setVine { s.vine with queue := rest, sending := true, sent }).emit (.vineTx f.kind (vineFrame f.kind f.payload))) s

/-- VINE_EVENT_FRAME_RECEIVED (R360, R362): stamped locally, offered to TRIG and forwarded.
DESIGN CHOICE, log entries 62 and 93. -/
def execVineEventFrameReceived (t payload crc : Nat) (s : State) : Host.Outcome State Fault Refusal :=
  happens t (fun s =>
    if s.vine.role ≠ 2 then s
    else if crc ≠ vineCrc 46 payload then s.setVine { s.vine with crcErrors := satAdd 32 s.vine.crcErrors 1 }
    else
      match s.vine.ref with
      | none => s
      | some (e, tick) =>
        let back := (e + 4 - bits payload 4 3) % 4
        let edge := tick - back * epochTicks
        let st : Stamp := { tick := edge + bits payload 29 5, fine := bits payload 45 30 }
        (s.offerTrig 11 (bits payload 2 0) none st false).vineQueue { payload := payload % 2 ^ 46 }) s

/-- DELAY_FRAME_RECEIVED (R363): the module slews to the new value. DESIGN CHOICE, log entry 62. -/
def execDelayFrameReceived (t delay crc : Nat) (s : State) : Host.Outcome State Fault Refusal :=
  happens t (fun s =>
    if s.vine.role ≠ 2 then s
    else if crc ≠ vineCrc 48 delay then s.setVine { s.vine with crcErrors := satAdd 32 s.vine.crcErrors 1 }
    else s.setVine { s.vine with target := some (delay % 2 ^ 48) }) s

/-- VINE_NEIGHBOUR_LOST (R364): cause 1 VINE_REF_IN, 2 VINE_SYNC_IN. In holdover a signal that has returned can be lost
again. -/
def execVineNeighbourLost (t cause : Nat) (s : State) : Host.Outcome State Fault Refusal :=
  happens t (fun s =>
    let here := if cause = 1 then s.vine.refIn else s.vine.syncIn
    if s.vine.role ≠ 2 || (s.vine.holdover && !here) || !(cause == 1 || cause == 2) then s
    else
      let v := s.vine
      let s := s.setVine { v with holdover := true, aligned := false, refIn := v.refIn && cause != 1,
                                  syncIn := v.syncIn && cause != 2 }
      s.enterHoldover.event 0x0D02 0 cause) s

/-- 2 ns in 1/65,536 tick, to the unit below (R364). DESIGN CHOICE, log entry 62. -/
def alignWindow : Nat := 3355443

/-- VINE_SIGNALS_RETURN (R364): `phase` is the epoch edge less the held phase, in 1/65,536 tick. -/
def execVineSignalsReturn (t : Nat) (phase : Int) (s : State) : Host.Outcome State Fault Refusal :=
  happens t (fun s =>
    if s.vine.role ≠ 2 || !s.vine.holdover then s
    else
      let near := decide (phase.natAbs ≤ alignWindow)
      let s := s.setVine { s.vine with refIn := true, syncIn := true, holdover := !near, stale := !near, phase }
      s.loopUpdate 0) s

/-! ## Received epochs -/

/-- 1 ps in 1/65,536 tick, to the unit below (R361). -/
def onePs : Nat := 1677

/-- A member takes epoch `n` whose header edge arrived at `arrival` (R361): it steers to it, and a multiple of
1,000 acts as a PPS edge. In holdover only the phase is measured (R364).
DEDUCED, log entry 60. DESIGN CHOICE, log entry 62. -/
def State.vineEpoch (s : State) (n : Nat) (arrival : Stamp) : State :=
  let edge := stampFine arrival - s.vine.delay
  let phase : Int := match s.epochEdge n with
    | some t => (edge : Int) - t * 65536
    | none => 0
  if s.vine.holdover then s.setVine { s.vine with phase }
  else
  let close := decide (phase.natAbs ≤ onePs) && s.vine.ref.isSome
  let s := s.setVine { s.vine with ref := some (n, edge / 65536), refIn := true, syncIn := true, phase,
                                   aligned := s.vine.aligned || close }
  let s := s.loopUpdate 0
  let s := if n % 1000 = 0 then s.ppsEdge arrival s.vine.delay else s
  if s.vine.aligned then s.finishVine 0 else s

end Sys2Proof.Machine
end

