-- ==== Sys2Proof/Machine/Tiu.lean ====
section
/-! DEFINITION. The time-interval unit and the TIU family (R372 to R393). Times are in units of 0.1 ps. -/

namespace Sys2Proof.Machine

/-- TIU channel `n`. -/
def State.tiuChan (s : State) (n : Nat) : TiuChan := s.tiu.get n {}

/-- Replaces a TIU channel. -/
def State.setTiu (s : State) (n : Nat) (x : TiuChan) : State := { s with tiu := s.tiu.set n x }

/-- TIU group `g`. -/
def State.tiuGroup (s : State) (g : Nat) : TiuGroup := s.tiuGroups.get g {}

/-- Replaces a TIU group. -/
def State.setTiuGroup (s : State) (g : Nat) (x : TiuGroup) : State := { s with tiuGroups := s.tiuGroups.set g x }

/-- Domain PD_TIU_k is on: one of channels 16k to 16k + 15 runs (R386). -/
def State.pdTiu (s : State) (k : Nat) : Bool := s.domainOn 0x0E k

/-- The pin-deskew measurement of device `n` holds channel `n` (R387). -/
def State.tiuHeld (s : State) (n : Nat) : Bool := s.measuring n

/-- The Vine chain holds the spare pair of group `g`: the module whose link is measured stamps with it (R363, R379). -/
def State.vineHold (s : State) (g : Nat) : Bool := g == 3 && s.vine.cal.any fun c => c.measure

/-- The trims of group `g` are frozen (R380, R502, R543). DESIGN CHOICE, log entry 64. -/
def State.tiuFrozen (s : State) (g : Nat) : Bool := (s.tiuGroup g).frozen || decide (2 ≤ s.bud.stage) || (s.cal.sched.get 4 {}).mode == 1

/-- The spare pair converts channel `n` (R377, R378). -/
def State.spareServes (s : State) (n : Nat) : Bool :=
  let g := s.tiuGroup (n / 16)
  g.taken == some n || (!s.tiuFrozen (n / 16) && !s.vineHold (n / 16) && g.taken.isNone && g.step == n % 16)

/-! ## Stamps (R375 to R377) -/

/-- The R6 stamp of T, with convergent rounding (R376). -/
def tiuStampOf (time : Nat) : Stamp :=
  let k := roundEven (time * 16777216) 100000
  { tick := k / 65536, fine := k % 65536 }

/-- Dead time in units of 0.1 ps (R374). -/
def tiuDead : Nat := 40000

/-- A stamp record (R377). -/
def tiuRecord (channel code seq : Nat) (x : TiuStamp) (gap spare : Bool) : List Byte :=
  pack [(10, stampNat (tiuStampOf x.time)), (1, channel),
    (1, code % 4 + 4 * bit x.prov + 8 * bit gap + 16 * bit x.unsettled + 32 * bit spare), (4, seq)]

/-! ## Results (R381 to R383) -/

/-- A result: its value where it has one within its unit, with the stamps it uses, first to last. -/
structure TiuResult where
  /-- x; none where the result is excluded. -/
  value : Option Int
  /-- Stamps used. -/
  uses : List TiuStamp

/-- Checks the operands of a result against R383. -/
def tiuResult (value : Int) (uses : List TiuStamp) : TiuResult :=
  let times := uses.map TiuStamp.time
  let lo := times.foldl min (times.headD 0)
  let hi := times.foldl max 0
  let bad := uses.any TiuStamp.unsettled || decide (2 ^ 62 < hi - lo) || decide (2 ^ 63 ≤ value.natAbs)
  { value := if bad then none else some value, uses }

/-- A block takes a result (R383). -/
def TiuBlock.add (b : TiuBlock) (r : TiuResult) : TiuBlock :=
  match r.value with
  | none => { b with excluded := satAdd 32 b.excluded 1 }
  | some v =>
    { b with
      count := b.count + 1, min := if b.count = 0 ∨ v < b.min then v else b.min,
      max := if b.count = 0 ∨ b.max < v then v else b.max, sum := b.sum + v, sq := b.sq + v.natAbs ^ 2,
      first := if b.count = 0 then (r.uses.head?.map fun u => tiuStampOf u.time).getD {} else b.first,
      last := (r.uses.getLast?.map fun u => tiuStampOf u.time).getD b.last, prov := b.prov || r.uses.any TiuStamp.prov }

/-- The statistics of a channel take a result; a block that reaches STATS_N is complete (R383). -/
def TiuCore.take (x : TiuCore) (g : TiuCfg) (r : TiuResult) : TiuCore :=
  if x.full then x
  else
    let b := x.block.add r
    if b.count < g.n then { x with block := b }
    else { x with block := {}, closing := x.closing ++ [b], full := !g.rep }

/-- An A is left without a partner (R382). -/
def TiuCore.leave (x : TiuCore) (a : TiuStamp) : TiuCore :=
  if x.full || a.silent then x else { x with block := { x.block with unpaired := satAdd 32 x.block.unpaired 1 } }

/-- A TIE result: `d` is t_k − t_0, `nom` the nominal period in 2^−32 × 0.1 ps (R381). -/
def tieOf (d nom : Nat) : Int :=
  let k := roundEven (d * 2 ^ 32) nom
  roundEvenInt ((d * 2 ^ 32 : Nat) - (k * nom : Nat)) (2 ^ 32)

/-- The channel's function takes an EDGE_A stamp (R381, R382). DESIGN CHOICE, log entry 63. -/
def TiuCore.edgeA (x : TiuCore) (g : TiuCfg) (a : TiuStamp) : TiuCore :=
  match g.function with
  | 1 => { x.waiting.foldl TiuCore.leave x with waiting := [a] }
  | 2 =>
    match x.prevA with
    | none => { x with prevA := some a }
    | some p => { x.take g (tiuResult (a.time - p.time : Nat) [p, a]) with prevA := some a }
  | 3 =>
    match x.prevA with
    | none => { x with prevA := some a, periods := 0 }
    | some p =>
      if x.periods + 1 < g.gate then { x with periods := x.periods + 1 }
      else
        let v := roundEven (g.gate * 10000000000000000000) (a.time - p.time)
        { x.take g (tiuResult v [p, a]) with prevA := some a, periods := 0 }
  | 4 => { x with waiting := x.waiting ++ [a] }
  | 5 =>
    let y := x.waiting.foldl TiuCore.leave x
    { y with waiting := [{ a with silent := x.prevA.isNone }], backA := x.prevA, prevA := some a }
  | 6 =>
    match x.prevA with
    | none => { x with prevA := some a }
    | some p => x.take g (tiuResult (tieOf (a.time - p.time) g.nominal) [p, a])
  | _ => x

/-- An A that waits meets a B (R381, R382). DESIGN CHOICE, log entry 63. -/
def TiuCore.pair (g : TiuCfg) (b : TiuStamp) (x : TiuCore) (a : TiuStamp) : TiuCore :=
  let d := b.time - a.time
  if g.maxInterval ≠ 0 ∧ g.maxInterval < d then x.leave a
  else if a.silent then x
  else
    match g.function, x.backA with
    | 5, some p => x.take g (tiuResult (roundEven (d * 2 ^ 32) (a.time - p.time) % 2 ^ 32 : Nat) [p, a, b])
    | _, _ => x.take g (tiuResult (d : Nat) [a, b])

/-- The channel's function takes an EDGE_B stamp, at or after the As that it meets (R382).
DESIGN CHOICE, log entry 63. -/
def TiuCore.edgeB (x : TiuCore) (g : TiuCfg) (b : TiuStamp) : TiuCore :=
  let met := x.waiting.filter fun a => decide (a.time ≤ b.time)
  { met.foldl (TiuCore.pair g b) x with waiting := x.waiting.filter fun a => decide (b.time < a.time) }

/-- The function takes an edge. -/
def TiuCore.see (g : TiuCfg) (x : TiuCore) (e : TiuSeen) : TiuCore :=
  if e.isA then x.edgeA g e.stamp else x.edgeB g e.stamp

/-- An edge takes its place by its stamp: at one stamp INTERVAL and PHASE see an A before a B, and WIDTH a B before an A
(R382). -/
def seeInsert (width : Bool) (e : TiuSeen) : List TiuSeen → List TiuSeen
  | [] => [e]
  | x :: xs =>
    if e.stamp.time < x.stamp.time ∨ (e.stamp.time = x.stamp.time ∧ e.isA != width ∧ x.isA == width) then e :: x :: xs
    else x :: seeInsert width e xs

/-- How far the stamp of an edge may lie before that of one reported before it: the 2 µs of a comparator's response and a
coarse period, in 0.1 ps (R375, R396). -/
def tiuDisorder : Nat := 20025000

/-- The channel's function takes a stamped edge in the order of the stamps, whatever the order in which edges of one instant
are reported (R382). DESIGN CHOICE, log entry 63. -/
def TiuChan.see (x : TiuChan) (e : TiuSeen) : TiuChan :=
  let all := seeInsert (x.cfg.function == 4) e x.recent
  let last := (all.getLast?.map fun k => k.stamp.time).getD 0
  let old := all.takeWhile fun k => decide (k.stamp.time + tiuDisorder < last)
  let base := old.foldl (TiuCore.see x.cfg) x.base
  let recent := all.drop old.length
  { x with base, recent, core := recent.foldl (TiuCore.see x.cfg) base }

/-- Channels whose function takes edge `code` of channel `n` as its B. -/
def State.takesB (s : State) (n code : Nat) : List Nat :=
  (s.tiu.filter fun e => e.2.mode == .running && (e.2.cfg.function == 1 || e.2.cfg.function == 5) &&
    e.2.cfg.other == n && e.2.cfg.edgeB == code).map Prod.fst

/-- The measurements take a stamped edge. -/
def State.tiuMeasure (s : State) (n code : Nat) (a : TiuStamp) : State :=
  let x := s.tiuChan n
  let x := if x.cfg.function = 4 ∧ x.cfg.edgeB = code then x.see { stamp := a } else x
  let x := if x.cfg.edgeA = code then x.see { isA := true, stamp := a } else x
  (s.takesB n code).foldl (fun s m => s.setTiu m ((s.tiuChan m).see { stamp := a })) (s.setTiu n x)

/-! ## Records and the collector (R384, R385) -/

/-- Armed contexts that take channel `n` (R238, R384). -/
def State.tiuContexts (s : State) (n : Nat) : List Nat :=
  (s.ctxs.filter fun e => e.2.takes && e.2.srcKind == 3 && e.2.source == n).map Prod.fst

/-- Records of channel `n` that still wait for the collector: those at its declared rate have been served, and how many of
the others were served from slack is free, except that eight channels cannot outrun the collector (R384, R385).
DESIGN CHOICE, log entry 136. -/
def State.collectorQueue (s : State) (n : Nat) : Nat :=
  let x := s.tiuChan n
  let served := (s.now - x.queuedAt) * x.cfg.rate / 25600000
  let left := x.queued - served
  if (s.tiu.filter fun e => e.2.mode == .running).length ≤ 8 then 0 else left - s.freeNat 12

/-- The record of a stamped edge goes to the armed contexts and to the channel's flow, or is dropped where 2,048 records wait
for one of them (R384, R385). -/
def State.tiuDeliver (s : State) (n code : Nat) (a : TiuStamp) : State :=
  let x := s.tiuChan n
  let st := tiuStampOf a.time
  let bytes := tiuRecord n code x.stamps a (x.gap != 0) (s.spareServes n)
  let q := s.collectorQueue n
  let acq := !(s.tiuContexts n).isEmpty
  let late := x.cfg.flow.any fun f => decide (2048 ≤ s.flowQueue f)
  let s := if acq then s.drawFree else s
  if late || (acq && decide (2048 ≤ q)) then s.setTiu n { x with dropped := satAdd 64 x.dropped 1, gap := x.gap + 1 }
  else if !acq && x.cfg.flow.isNone then s
  else
    let s := s.setTiu n { x with gap := 0, queued := if acq then q + 1 else 0, queuedAt := s.now }
    -- R243 counts no stamp's UNSETTLED (R380) among a segment's unsettled elements.
    let s := s.offerElement 3 n { stamp := st, bytes }
    match x.cfg.flow with
    | none => s
    | some f => s.handToFlow f { format := 7, bytes, stamp := st, flags := bit a.unsettled + 4 * bit a.prov, gaps := x.gap }

/-! ## Edges (R373 to R376) -/

/-- The pair that converts the edges of channel `n`, 16 for the spare of its group (R377, R378). -/
def State.tiuPair (s : State) (n : Nat) : Nat := if s.spareServes n then 16 else n % 16

/-- A failed interpolator converts the edges of channel `n` (R380). -/
def State.tiuUnsettled (s : State) (n : Nat) : Bool :=
  let g := s.tiuGroup (n / 16)
  g.dead.contains n || g.suspect.contains (s.tiuPair n)

/-- The stamps of channel `n` within the last ms (R392). -/
def TiuChan.recentTicks (x : TiuChan) (now : Nat) : List Nat := x.rated.takeWhile fun k => decide (now < k + ticksPerMs)

/-- An edge of channel `n` at `time` is stamped, or missed in the dead time (R374 to R376). -/
def State.tiuEdge (s : State) (n code time : Nat) : State :=
  let x := s.tiuChan n
  if x.mode != .running || s.tiuHeld n || !x.cfg.edges.testBit code || decide (3 < code) then s
  else
    let early := match x.lastTime with
      | some l => decide (time < l + tiuDead)
      | none => false
    if early then s.setTiu n { x with missed := satAdd 64 x.missed 1 }
    else
      let uns := s.tiuUnsettled n
      let a : TiuStamp := { time, unsettled := uns, prov := s.provisionalAt (tiuStampOf time).tick }
      let y : TiuChan := { x with
        stamps := wrapAdd 64 x.stamps 1, lastTime := some time, last := tiuStampOf time,
        rated := s.now :: x.recentTicks s.now }
      (((s.setTiu n y).tiuMeasure n code a).tiuDeliver n code a).offerTrig 9 n none (tiuStampOf time) uns

/-- Threshold code `n` in units of 5 V / 16,384 / 10^6 above −1.5 V, as inputs are compared with it (R373). -/
def tiuLevel (input : Int) : Int := (input + 1500000) * 16384

/-- The input of a front end moves to `input` µV: a line follows it, and answers whether it was crossed upwards or downwards
in a crossing that counts (R373). DESIGN CHOICE, log entry 137. -/
def TiuLine.move (l : TiuLine) (code hyst : Nat) (input : Int) : TiuLine × Option Bool :=
  let v := tiuLevel input
  let mid : Int := code * 5000000
  let band : Int := hyst * 1000 * 16384
  let above := decide (mid ≤ v)
  let up := l.above == some false && above && l.rise
  let down := l.above == some true && !above && l.fall
  let l' : TiuLine := {
    above := some above, rise := (l.rise && !up) || decide (v ≤ mid - band)
    fall := (l.fall && !down) || decide (mid + band ≤ v) }
  (l', if up then some true else if down then some false else none)

/-- The front end of a channel follows its input, and answers the codes of the edges that it makes there, the threshold met
first before the other (R373, R374). DESIGN CHOICE, log entry 137. -/
def TiuChan.front (x : TiuChan) (g : TiuCfg) (input : Int) : TiuChan × List Nat :=
  let h := x.hi.move g.high g.hyst input
  let l := x.lo.move g.low g.hyst input
  let hs := (h.2.map fun up => if up then 0 else 2).toList
  let ls := (l.2.map fun up => if up then 3 else 1).toList
  ({ x with hi := h.1, lo := l.1 }, if (h.2 == some true) == decide (g.low ≤ g.high) then ls ++ hs else hs ++ ls)

/-- The front end follows its input from level to level; the edges are those of the last. -/
def TiuChan.path (x : TiuChan) (g : TiuCfg) : List Int → TiuChan × List Nat
  | [] => (x, [])
  | [v] => x.front g v
  | v :: vs => (x.front g v).1.path g vs

/-- T of an edge in this coarse period: the fraction from the interpolator is 0 to 24,999 (R375). -/
def State.tiuTime (s : State) (fraction : Nat) : Nat := 25000 * (s.now / 64) + fraction % 25000

/-- The pair that converts the edges of channel `n` has failed (R380). -/
def State.tiuSuspect (s : State) (n : Nat) : State :=
  let g := s.tiuGroup (n / 16)
  let u := s.tiuPair n
  if g.suspect.contains u then s else s.setTiuGroup (n / 16) { g with suspect := g.suspect ++ [u] }

/-- Settings under which a channel serves a pin-deskew measurement: Steward firmware stamps the rising edges through a
threshold of its own (R333). DESIGN CHOICE, log entry 135. -/
def State.heldCfg (s : State) (n : Nat) : TiuCfg :=
  match s.cal.runs.find? fun r => r.device == n && r.playing with
  | some r => { high := r.code, low := r.code }
  | none => {}

/-- A channel that is HELD stamps a rising edge for the measurement, outside the dead time (R333, R374). -/
def State.heldEdge (s : State) (n time : Nat) : State :=
  let x := s.tiuChan n
  if x.lastTime.any fun l => decide (time < l + tiuDead) then s
  else (s.setTiu n { x with lastTime := some time }).deskewStamp n time

/-- TIU_EDGE (R333, R373 to R377, R381 to R385): the differential input of a channel goes through the `levels`, in µV, and
comes to the last of them in this coarse period, at `fraction` of it; `unsettled` says that the pair that converts the
channel's edges has failed. DESIGN CHOICE, log entry 11. -/
def execTiuEdge (t channel : Nat) (levels : List Int) (fraction : Nat) (unsettled : Bool) (s : State) :
    Host.Outcome State Fault Refusal :=
  happens t (fun s =>
    if 63 < channel then s
    else
      let s := if unsettled then s.tiuSuspect channel else s
      let x := s.tiuChan channel
      let time := s.tiuTime fraction
      if s.tiuHeld channel then
        let p := x.path (s.heldCfg channel) levels
        let s := s.setTiu channel p.1
        if p.2.contains 0 then s.heldEdge channel time else s
      else if x.mode = .running ∧ x.cfg.source = 0 then
        let p := x.path x.cfg levels
        p.2.foldl (fun s code => s.tiuEdge channel code time) (s.setTiu channel p.1)
      else s) s

/-- DETAIL of EV_TIU_STATS (R393). -/
def tiuEventDetail (b : TiuBlock) (blocks : Nat) : Nat := b.count % 2 ^ 41 + 2 ^ 41 * min blocks (2 ^ 23 - 1)

/-- A channel that stops is quiescent once its complete blocks are latched, and the last of a stop completes it (R386,
R390). -/
def State.tiuRest (s : State) (n : Nat) : State :=
  let x := s.tiuChan n
  if x.mode = .quiescing ∧ x.core.closing = [] then
    let s := ((s.setTiu n { x with mode := .configured }).undeclare 0x0E n).restDone (resetKey 0x0E n) 0
    (s.startedCmds 0x0E03 fun c => c.named.contains n).foldl (fun s c =>
      if c.named.length ≤ 1 then s.finish c .quiesced 0 else s.markStarted c c.aux (c.named.filter (· != n))) s
  else s

/-- A channel stops: at once, or once its complete blocks are latched (R386, R390). DESIGN CHOICE, log entry 63. -/
def State.tiuQuiesce (s : State) (n : Nat) : State :=
  let x := s.tiuChan n
  if x.mode = .running then (s.setTiu n { x with mode := .quiescing }).tiuRest n else s

/-- STATS_BLOCK_COMPLETE (R383, R393): the oldest complete block is latched for reading. -/
def execStatsBlockComplete (t channel : Nat) (s : State) : Host.Outcome State Fault Refusal :=
  happens t (fun s =>
    let x := s.tiuChan channel
    match x.core.closing with
    | [] => s
    | b :: rest =>
      let core : TiuCore := { x.core with closing := rest }
      let y : TiuChan := { x with core, base := core, recent := [], latched := some b, blocks := wrapAdd 64 x.blocks 1 }
      let s1 :=
        if !x.cfg.events then s.setTiu channel y
        else if x.evOpen.isSome then s.setTiu channel { y with evBlocks := x.evBlocks + 1, evLate := some b }
        else
          (s.setTiu channel { y with evOpen := some s.now, evBlocks := 0, evLate := none }).eventAt 0x0E01 channel b.last
            (tiuEventDetail b (x.evBlocks + 1))
      s1.tiuRest channel) s

/-- TIU_STATS_INTERVAL_CLOSE (R393). -/
def execTiuStatsIntervalClose (t channel : Nat) (s : State) : Host.Outcome State Fault Refusal :=
  happens t (fun s =>
    let x := s.tiuChan channel
    match x.evOpen with
    | none => s
    | some o =>
      let e := o + ticksPerUs
      if s.now < e then s
      else
        match x.evLate with
        | some b =>
          (s.setTiu channel { x with evOpen := some e, evBlocks := 0, evLate := none }).eventAt 0x0E01 channel b.last
            (tiuEventDetail b x.evBlocks)
        | none => s.setTiu channel { x with evOpen := none }) s

/-! ## Rotation and faults (R378 to R380) -/

/-- INTERPOLATOR_ROTATION_STEP (R378, R379, R540): a step of 1 ms ends. -/
def execInterpolatorRotationStep (t group : Nat) (s : State) : Host.Outcome State Fault Refusal :=
  happens t (fun s =>
    let g := s.tiuGroup group
    if group > 3 || s.tiuFrozen group || s.vineHold group then s
    else
      let index := if g.step < 16 then 16 * group + g.step else 64 + group
      let g' := { g with step := (g.step + 1) % 17,
                         rotations := if g.step = 16 then wrapAdd 32 g.rotations 1 else g.rotations }
      ((s.setTiuGroup group g').calTrim 4 index 0 0).calServed 4 (32 * group + g'.step)) s

/-- Pair `unit` of a group fails; 16 is the spare (R380, R592). -/
def State.tiuFail (s : State) (group unit : Nat) (inj : Bool) : State :=
  let u : Unit3 := ⟨19, group, unit⟩
  if group > 3 || decide (16 < unit) || s.isRetired u then s
  else
    let g := s.tiuGroup group
    let had := s.sparesLeft 19 group != 0
    let g := { g with suspect := g.suspect.filter (· != unit) }
    let s := match s.vineHold group, s.vine.cal with
      | true, some c => if had && c.measure then s.vineCalEnd { c with count := 0 } else s
      | _, _ => s
    let g' : TiuGroup :=
      if unit = 16 then { g with frozen := true, dead := g.dead ++ g.taken.toList, taken := none }
      else if had then { g with frozen := true, taken := some (16 * group + unit) }
      else { g with dead := g.dead ++ [16 * group + unit] }
    (s.setTiuGroup group g').faultIn u
      { takenBy := if unit < 16 ∧ had then 16 else 0xFFFF,
        logical := if unit < 16 then 16 * group + unit else 0xFFFF, injected := inj }

/-- INTERPOLATOR_FAILURE (R380). -/
def execInterpolatorFailure (t group unit : Nat) (s : State) : Host.Outcome State Fault Refusal :=
  happens t (fun s => s.tiuFail group unit false) s

/-! ## Commands -/

/-- Settings of a CONFIGURE_CHANNEL payload. -/
def tiuCfgOf (p : List Byte) : TiuCfg :=
  { source := u8 p 1, comparator := u8 p 2, power := u8 p 3, high := u16 p 4, low := u16 p 6, hyst := u8 p 8,
    term := u8 p 9, vtt := u16 p 10, function := u8 p 12, edges := u8 p 13, edgeA := u8 p 14, edgeB := u8 p 15,
    other := u8 p 16, rep := u8 p 17 == 1, events := u8 p 18 == 1,
    flow := if u32 p 20 = 0xFFFFFFFF then none else some (u32 p 20), n := u64 p 24, rate := u32 p 32,
    gate := u32 p 36, nominal := u64 p 40, maxInterval := u64 p 48 }

/-- A channel with its counters and blocks at zero; an open event interval stays open (R389, R393). -/
def TiuChan.fresh (x : TiuChan) (m : TiuMode) (g : TiuCfg) : TiuChan :=
  { mode := m, cfg := g, evOpen := x.evOpen, evBlocks := x.evBlocks, evLate := x.evLate }

/-- TIU.CONFIGURE_CHANNEL (R388). -/
def tiuConfigure (c : Cmd) (s : State) : VerbOut :=
  let p := c.payload
  let n := u8 p 0
  let x := s.tiuChan n
  let g := tiuCfgOf p
  if n > 63 ∨ g.source > 1 ∨ g.comparator > 15 ∨ g.power > 1 ∨ g.high > 16383 ∨ g.low > 16383 ∨ g.hyst > 40 ∨
      g.term > 1 ∨ g.vtt > 2000 ∨ g.function > 6 ∨ g.edges = 0 ∨ g.edges > 15 ∨ g.edgeA > 3 ∨ g.edgeB > 3 ∨
      g.other > 63 ∨ u8 p 17 > 1 ∨ u8 p 18 > 1 ∨ !zeros p 19 1 ∨ (u32 p 20 > 49151 ∧ g.flow.isSome) ∨ g.n = 0 ∨
      g.n > 1099511627776 ∨ g.rate > 250000 ∨ (g.function = 3 ∧ g.gate = 0) ∨ (g.function = 6 ∧ g.nominal = 0) ∨
      !zeros p 56 8 ∨ !g.edges.testBit g.edgeA then .fail .badParam 0
  else if s.tiuHeld n then .wait
  else if x.mode == .running || x.mode == .starting || x.mode == .quiescing then .fail .badState 0
  else .done .ok 0 (s.setTiu n (x.fresh .configured g))

/-- TIU_CONFIGURE_CHANNEL: `TIU.CONFIGURE_CHANNEL` (R388). -/
def execTiuConfigureChannel (t fn tag : Nat) (s : State) : Host.Outcome State Fault Refusal :=
  verb t 0x0E01 fn tag tiuConfigure s

/-- The stamp rate a channel declares to the collector, thousands a second (R385). -/
def State.tiuDeclared (s : State) (n : Nat) : Nat :=
  let x := s.tiuChan n
  if x.cfg.flow.isSome || !(s.tiuContexts n).isEmpty then x.cfg.rate else 0

/-- Sum of the declared rates of some channels. -/
def State.tiuRates (s : State) (ns : List Nat) : Nat := ns.foldl (fun k n => k + s.tiuDeclared n) 0

/-- Channel `n` is running or about to. -/
def State.tiuLive (s : State) (n : Nat) : Bool :=
  (s.tiuChan n).mode == .running || (s.tiuChan n).mode == .starting

/-- Admits the flows of some channels (R385). -/
def admitTiu : List Nat → State → Option State
  | [], s => some s
  | n :: ns, s =>
    let x := s.tiuChan n
    match x.cfg.flow with
    | none => admitTiu ns s
    | some f =>
      match s.allot (actKey kindFlow f) (s.flowDemand f (16000 * x.cfg.rate)) with
      | some s' => admitTiu ns s'
      | none => none

/-- A channel that starts needs its B_CHANNEL and stamps of EDGE_B there (R382, R389). -/
def State.tiuLacksB (s : State) (names : List Nat) (n : Nat) : Bool :=
  let g := (s.tiuChan n).cfg
  (g.function == 1 || g.function == 5) &&
    (!((s.tiuChan g.other).mode == .running || names.contains g.other) ||
      !(s.tiuChan g.other).cfg.edges.testBit g.edgeB)

/-- TIU.START (R385, R386, R389). -/
def tiuStart (c : Cmd) (s : State) : VerbOut :=
  let p := c.payload
  let names := maskBits 64 (u64 p 0)
  let w : Sched := { mode := u8 p 8, at_ := u64 p 16 }
  let new := names.filter fun n => !s.tiuLive n
  let live := (List.range 64).filter fun n => s.tiuLive n
  if names.isEmpty ∨ w.mode > 2 ∨ !zeros p 9 7 ∨ s.tooSoon w then .fail .badParam 0
  else if names.any fun n => s.tiuHeld n then .wait
  else if names.any (fun n => (s.tiuChan n).mode == .unconfigured) ∨ new.any (s.tiuLacksB names) ∨
      (s.startTick w).isNone then .fail .badState 0
  else if 2000000 < s.tiuRates (live ++ new) then .fail .noAllotment 0
  else
    match admitTiu new s with
    | none => .fail .noAllotment 0
    | some s1 =>
      match s1.declare (new.map fun n =>
          { fam := 0x0E, obj := n, group := n / 16, first := 600000, each := 100000 }) with
      | .error e => .fail .noEnergy e
      | .ok s2 =>
        .running 0 new (new.foldl (fun s n => s.setTiu n { s.tiuChan n with mode := .starting }) s2)

/-- TIU_START: `TIU.START` (R389). -/
def execTiuStart (t fn tag : Nat) (s : State) : Host.Outcome State Fault Refusal :=
  verb t 0x0E02 fn tag tiuStart s

/-- TIU_SCHEDULED_START (R389): the channels of a start reach their coarse edge together, the first one at or after the
tick asked for; those that already run are left as they are. -/
def execTiuScheduledStart (t channel : Nat) (s : State) : Host.Outcome State Fault Refusal :=
  happens t (fun s =>
    match s.startedCmds 0x0E02 fun c => (u64 c.payload 0).testBit channel with
    | [] => s
    | c :: _ =>
      let w : Sched := { mode := u8 c.payload 8, at_ := u64 c.payload 16 }
      let edge := (s.dueTick w + 63) / 64 * 64
      if s.reached w && decide (edge ≤ s.now) then
        (c.named.foldl (fun s n => s.setTiu n ((s.tiuChan n).fresh .running (s.tiuChan n).cfg)) s).finish c .ok edge
      else s) s

/-- The first consumer of the named channels (R390). -/
def State.tiuConsumer (s : State) (names : List Nat) : Option (Nat × Nat) :=
  let units := (s.trig.units.filter fun e =>
    e.2.mode != .unconfigured && e.2.kind == 9 && names.contains e.2.source).map fun e => (7, e.1)
  let ctxs := (s.ctxs.filter fun e => e.2.takes && e.2.srcKind == 3 && names.contains e.2.source).map
    fun e => (8, e.1)
  let others := (s.tiu.filter fun e => e.2.mode == .running && !names.contains e.1 &&
    (e.2.cfg.function == 1 || e.2.cfg.function == 5) && names.contains e.2.cfg.other).map fun e => (0x0E, e.1)
  (units ++ ctxs ++ others).head?

/-- TIU.STOP (R386, R390). -/
def tiuStop (c : Cmd) (s : State) : VerbOut :=
  let names := maskBits 64 (u64 c.payload 0)
  if names.any fun n => s.tiuHeld n then .wait
  else
    match s.tiuConsumer names with
    | some k => .fail .badState (consumerWord k)
    | none =>
      let s1 := names.foldl State.tiuQuiesce s
      let busy := names.filter fun n => (s1.tiuChan n).mode == .quiescing
      if busy.isEmpty then .done .quiesced 0 s1 else .running 0 busy s1

/-- TIU_STOP: `TIU.STOP` (R390). -/
def execTiuStop (t fn tag : Nat) (s : State) : Host.Outcome State Fault Refusal :=
  verb t 0x0E03 fn tag tiuStop s

/-- STDDEV as binary64: the sample standard deviation with one rounding (R383). -/
def TiuBlock.stddev (b : TiuBlock) : Nat :=
  if b.count ≤ 1 then 0
  else
    let num := (b.count * b.sq - b.sum.natAbs ^ 2) * 2 ^ 220
    let den := b.count * (b.count - 1)
    let r := isqrt (num / den) 180 0
    f64 (2 * r + bit (r * r * den != num)) (2 ^ 111)

/-- The 96 bytes of `TIU.READ_STATS` (R391). -/
def TiuChan.stats (x : TiuChan) (n : Nat) (b : TiuBlock) (complete frozen : Bool) : List Byte :=
  pack [(1, n), (1, x.cfg.function), (1, bit complete + 2 * bit b.prov + 4 * bit frozen),
    (1, if x.cfg.function = 3 then 1 else if x.cfg.function = 5 then 2 else 0), (4, 0), (8, x.blocks), (8, b.count),
    (8, unsign 64 b.min), (8, unsign 64 b.max), (8, if b.count = 0 then 0 else f64Signed b.sum b.count), (8, b.stddev),
    (16, stampNat b.first), (16, stampNat b.last), (4, b.unpaired), (4, b.excluded)]

/-- TIU.READ_STATS (R391). -/
def tiuReadStats (c : Cmd) (s : State) : VerbOut :=
  let p := c.payload
  let n := u8 p 0
  let x := s.tiuChan n
  let partial_ := (u8 p 1).testBit 1
  if n > 63 ∨ u8 p 1 > 3 ∨ !zeros p 2 6 then .fail .badParam 0
  else if s.tiuHeld n || ((u8 p 1).testBit 0 && decide (x.blocks ≤ u64 p 8)) then .wait
  else
    .data (x.stats n (if partial_ then x.core.block else x.latched.getD {}) (!partial_ && x.latched.isSome)
      (s.tiuFrozen (n / 16))) 0 s

/-- TIU_READ_STATS: `TIU.READ_STATS` (R391). -/
def execTiuReadStats (t fn tag : Nat) (s : State) : Host.Outcome State Fault Refusal :=
  verb t 0x0E04 fn tag tiuReadStats s

/-- TIU.GET_STATUS (R392); the two voltages are measured. DESIGN CHOICE, log entry 63. -/
def tiuGetStatus (highMv lowMv : Nat) (c : Cmd) (s : State) : VerbOut :=
  let p := c.payload
  let n := u8 p 0
  let x := s.tiuChan n
  let g := s.tiuGroup (n / 16)
  let st := if s.tiuHeld n then 4
    else match x.mode with
      | .unconfigured => 0
      | .running => 2
      | .quiescing => 3
      | _ => 1
  if n > 63 ∨ !zeros p 1 3 then .fail .badParam 0
  else
    .data (pack [(1, n), (1, st),
      (1, bit (s.spareServes n) + 2 * bit (s.tiuFrozen (n / 16)) + 4 * bit (s.vineHold (n / 16))),
      (1, s.sparesLeft 19 (n / 16)), (2, highMv), (2, lowMv), (8, x.stamps), (8, x.missed), (8, x.dropped),
      (4, g.rotations), (4, (x.recentTicks s.now).length), (16, stampNat x.last), (8, 0)]) 0 s

/-- TIU_GET_STATUS: `TIU.GET_STATUS` (R392). -/
def execTiuGetStatus (t fn tag highMv lowMv : Nat) (_rate : Computed) (s : State) : Host.Outcome State Fault Refusal :=
  verb t 0x0E05 fn tag (tiuGetStatus highMv lowMv) s

end Sys2Proof.Machine
end

