-- ==== Sys2Proof/Machine/Mon.lean ====
section
/-! DEFINITION. The monitor comparators and the monitor converter, with the MON family (R395 to R414). A
comparator's input is given in microvolts. -/

namespace Sys2Proof.Machine

/-- Domain PD_MON_0 is on whenever the module is out of standby (R407). -/
def State.pdMon (s : State) : Bool := s.pw.state == .starting || s.pw.state == .running

/-- Comparator `k`. -/
def State.comp (s : State) (k : Nat) : Comparator := s.mon.comps.get k {}

/-- Replaces a comparator. -/
def State.setComp (s : State) (k : Nat) (c : Comparator) : State :=
  { s with mon := { s.mon with comps := s.mon.comps.set k c } }

/-- Replaces the MON state. -/
def State.setMon (s : State) (m : Mon) : State := { s with mon := m }

/-! ## Forwarding (R397 to R399) -/

/-- EV_COMPARATOR with its flags, at most once in 25,600 ticks; `count` is the changes it reports (R399, R414).
DESIGN CHOICE, log entry 91. -/
def State.compEvent (s : State) (k : Nat) (st : Stamp) (count : Nat) (first blanked : Bool) : State :=
  let c := s.comp k
  let fl := bit first + 2 * bit blanked
  if !c.forward.testBit 0 then s
  else if c.evOpen.isSome then s.setComp k { c with evCount := satAdd 32 c.evCount count, evFlags := c.evFlags ||| fl }
  else
    (s.setComp k { c with evOpen := some s.now, evCount := 0, evFlags := 0 }).eventAt 0x0F01 k st
      (count + 2 ^ 33 * bit c.shown + 2 ^ 34 * fl)

/-- The change matches WAKE_EDGE, and WAKE is set (R399). DESIGN CHOICE, log entry 64. -/
def Comparator.wakes (c : Comparator) : Bool :=
  let e := bits c.forward 3 2
  c.forward.testBit 1 && (e == 2 || (e == 0 && c.out) || (e == 1 && !c.out))

/-- T of a stamp in units of 0.1 ps (R375, R376). -/
def tiuTimeOf (st : Stamp) : Nat := roundEven (stampFine st * 100000) 16777216

/-- A change of a comparator is forwarded (R398, R399): to TIU channels, where rising is edge 0 and falling edge
1, to trigger units, the event ring and the wake logic. -/
def State.forward (s : State) (k : Nat) (st : Stamp) (first blanked : Bool) : State :=
  let c := s.comp k
  let y := { c with shown := c.out, firstDue := false, changes := wrapAdd 32 c.changes 1 }
  let s := s.setComp k (if c.blankSource = 3 then y.blank (if blanked then st.tick else s.now) else y)
  let s := ((s.tiu.filter fun e => e.2.cfg.source == 1 && e.2.cfg.comparator == k).map Prod.fst).foldl
    (fun s n => s.tiuEdge n (if c.out then 0 else 1) (tiuTimeOf st)) s
  let s := s.offerTrig 10 k (some c.out) st false
  let s := s.compEvent k st 1 first blanked
  if c.wakes then s.setMon { s.mon with wake := true } else s

/-- The output of a comparator has changed: forwarded, or held by blanking (R398). -/
def State.compChange (s : State) (k : Nat) (st : Stamp) (first : Bool) : State :=
  let c := s.comp k
  if c.window.isSome then
    s.setComp k { c with blanked := wrapAdd 32 c.blanked 1, firstDue := c.firstDue || first }
  else s.forward k st first false

/-- Place of an input of `input` µV about the band from THRESH − HYST/2 to THRESH + HYST/2 of the threshold in force,
of which a step is 3.3 V / 4,096: 0 below, 1 inside, 2 above (R395). -/
def Comparator.place (c : Comparator) (input : Int) : Nat :=
  let v := input * 4096
  let mid : Int := c.live * 3300000
  let half : Int := c.hyst * 500 * 4096
  if mid + half < v then 2 else if v < mid - half then 0 else 1

/-- Nominal response of a mode in fine counts, of which 1 ns is 25.6 × 65,536: 0.6 ns in M0, 20 ns in M1, and 2 µs in M2 and
for the window of M3 (R396). -/
def compResponse (mode : Nat) : Nat :=
  match mode with
  | 1 => 1006633
  | 2 => 33554432
  | _ => 3355443200

/-- The stamp of a change detected at tick `t`: that less the mode's nominal response (R396).
DEDUCED, log entry 138. -/
def compStamp (mode t : Nat) : Stamp :=
  let k := 65536 * t - compResponse mode
  { tick := k / 65536, fine := k % 65536 }

/-- The stamp of a comparator is kept, and is never before the one given earlier (R19). -/
def State.compStamped (s : State) (k : Nat) (st : Stamp) : Stamp × State :=
  let st := ((s.comp k).lastStamp.map fun l => laterStamp l st).getD st
  (st, s.setComp k { s.comp k with lastStamp := some st })

/-- A comparator is evaluated with its input at `input` µV, and what it decides is detected at `tick` (R395 to R397). -/
def State.evaluate (s0 : State) (k : Nat) (input : Int) (tick : Nat) : State :=
  let p := s0.compStamped k (compStamp (s0.comp k).mode tick)
  let st := p.1
  let s := p.2
  let c := s.comp k
  let pos := c.place input
  if c.mode = 0 then s0
  else if !c.settled then
    if pos = 1 then s.setComp k { c with inBand := c.inBand || !c.evaluated, evaluated := true }
    else
      let y := { c with settled := true, evaluated := true, inBand := false, out := pos == 2 }
      if pos = 2 then (s.setComp k y).compChange k st true else (s.setComp k y).compEvent k st 0 true false
  else if pos = 2 && !c.out then (s.setComp k { c with out := true }).compChange k st false
  else if pos = 0 && c.out then (s.setComp k { c with out := false }).compChange k st false
  else s

/-- COMPARATOR_CHANGE (R395 to R399), in modes M0 to M2: the decision is detected now. DESIGN CHOICE, log entry 11. -/
def execComparatorChange (t comp : Nat) (input : Int) (_stamp : Computed) (s : State) : Host.Outcome State Fault Refusal :=
  happens t (fun s => if (s.comp comp).mode < 4 then s.evaluate comp input s.now else s) s

/-- M3_TICK (R396): the comparator decides once at each tick of TICK_US, counted from when it entered M3.
DEDUCED, log entry 138. -/
def execM3Tick (t comp : Nat) (input : Int) (_stamp : Computed) (s : State) : Host.Outcome State Fault Refusal :=
  happens t (fun s =>
    let c := s.comp comp
    let period := c.tickUs * ticksPerUs
    let k := (s.now - c.tickFrom) / period
    if c.mode ≠ 4 ∨ k ≤ c.decided then s
    else (s.setComp comp { c with decided := k }).evaluate comp input (c.tickFrom + k * period)) s

/-- BLANKING_WINDOW_CLOSE (R398). -/
def execBlankingWindowClose (t comp : Nat) (s : State) : Host.Outcome State Fault Refusal :=
  happens t (fun s =>
    let c := s.comp comp
    match c.window with
    | none => s
    | some w =>
      if s.now < w then s
      else
        let s1 := s.setComp comp { c with window := none, firstDue := false }
        if c.settled && c.out != c.shown then
          let p := s1.compStamped comp { tick := w }
          p.2.forward comp p.1 c.firstDue true
        else s1) s

/-- COMPARATOR_EVENT_INTERVAL_CLOSE (R399, R414). -/
def execComparatorEventIntervalClose (t comp : Nat) (s : State) : Host.Outcome State Fault Refusal :=
  happens t (fun s =>
    let c := s.comp comp
    match c.evOpen with
    | none => s
    | some o =>
      let e := o + ticksPerUs
      if s.now < e then s
      else if c.evCount = 0 ∧ c.evFlags = 0 then s.setComp comp { c with evOpen := none }
      else
        (s.setComp comp { c with evOpen := some e, evCount := 0, evFlags := 0 }).eventAt 0x0F01 comp { tick := e }
          (c.evCount + 2 ^ 32 + 2 ^ 33 * bit c.shown + 2 ^ 34 * c.evFlags)) s

/-- WAKE_REQUEST (R399, R580): a comparator's wake request reaches the wake logic. -/
def execWakeRequest (t : Nat) (s : State) : Host.Outcome State Fault Refusal :=
  happens t (fun s =>
    if !s.mon.wake then s
    else
      let s := s.setMon { s.mon with wake := false }
      { s with pw := { s.pw with wakeDue := true },
               host := { s.host with wakeAsserted := s.host.wakeAsserted || s.host.link != .l0 } }) s

/-- COMPARATOR_THRESHOLD_APPLY (R395, R408): the threshold converter has settled at `readback`. -/
def execComparatorThresholdApply (t comp readback : Nat) (s : State) : Host.Outcome State Fault Refusal :=
  happens t (fun s =>
    if 15 < comp then s
    else
      let c := s.comp comp
      (s.setComp comp { c with live := c.thresh, readback := readback % 65536 }).finishAll
        (s.startedCmds 0x0F01 fun d => u8 d.payload 0 == comp) .ok fun _ => readback % 65536) s

/-! ## Comparator commands -/

/-- Power of a comparator mode in µW, rounded up (R396, R408). -/
def compPower (mode tickUs : Nat) : Nat :=
  match mode with
  | 1 => 21600
  | 2 => 720
  | 3 => 4
  | _ => (18 * (46 * tickUs + 4000) + 10000 * tickUs - 1) / (10000 * tickUs)

/-- The first consumer of a comparator (R408). -/
def State.compConsumer (s : State) (k : Nat) : Option (Nat × Nat) :=
  let units := (s.trig.units.filter fun e => e.2.mode != .unconfigured && e.2.kind == 10 && e.2.source == k).map
    fun e => (7, e.1)
  let chans := (s.tiu.filter fun e => e.2.mode == .running && e.2.cfg.source == 1 && e.2.cfg.comparator == k).map
    fun e => (0x0E, e.1)
  (units ++ chans).head?

/-- MON.CONFIGURE_COMPARATOR (R395 to R397, R408): THRESH to 4,095 in steps of 805.66 µV and HYST to 63 mV (R415). -/
def monConfigureComparator (c : Cmd) (s : State) : VerbOut :=
  let p := c.payload
  let k := u8 p 0
  let mode := u8 p 1
  let src := u8 p 5
  let x := s.comp k
  if k > 15 ∨ mode > 4 ∨ u16 p 2 > 4095 ∨ u8 p 4 > 63 ∨ src > 3 ∨ u8 p 7 > 15 ∨ bits (u8 p 7) 3 2 = 3 ∨
      (src ≠ 0 ∧ (u32 p 8 < 10 ∨ u32 p 8 > 1000000)) ∨ (mode = 4 ∧ (u32 p 12 = 0 ∨ u32 p 12 > 1000000)) ∨
      !zeros p 16 16 then .fail .badParam 0
  else
    let y : Comparator := { x with mode, thresh := u16 p 2, hyst := u8 p 4, blankSource := src, blankSite := u8 p 6,
                                   forward := u8 p 7, blankNs := u32 p 8, tickUs := u32 p 12,
                                   tickFrom := if x.mode = 4 ∧ x.tickUs = u32 p 12 then x.tickFrom else s.now,
                                   decided := if x.mode = 4 ∧ x.tickUs = u32 p 12 then x.decided else 0 }
    if mode = 0 then
      match s.compConsumer k with
      | some u => .fail .badState (consumerWord u)
      | none => .running 0 [] ((s.setComp k { y with window := none }).undeclare 0x0F k)
    else if x.mode = 0 then
      let w := compPower mode y.tickUs
      match s.declare [{ fam := 0x0F, obj := k, group := k, first := w, each := w }] with
      | .error e => .fail .noEnergy e
      | .ok s1 =>
        .running 0 [] (s1.setComp k { y with
          out := false, settled := false, evaluated := false, inBand := false, window := none, shown := false,
          firstDue := false, changes := 0, blanked := 0 })
    else .running 0 [] (s.setComp k y)

/-- MON_CONFIGURE_COMPARATOR: `MON.CONFIGURE_COMPARATOR` (R408). -/
def execMonConfigureComparator (t fn tag : Nat) (s : State) : Host.Outcome State Fault Refusal :=
  verb t 0x0F01 fn tag monConfigureComparator s

/-! ## The sequence (R401 to R407) -/

/-- An entry of the sequence. -/
def Mon.at_ (m : Mon) (e : Nat) : MonEntry := m.entries.get e {}

/-- Entry `e` of a LOAD_SEQUENCE payload is within range (R401, R402). -/
def monEntryOk (b : List Byte) : Bool :=
  let ch := u8 b 0
  let sel := u8 b 1
  decide (ch ≤ 47) && decide (u16 b 2 ≠ 0 ∧ u16 b 2 ≤ 256) && decide (u8 b 6 ≤ 8) && decide (u8 b 7 ≤ 8) &&
    decide (sel ≤ if 32 ≤ ch ∧ ch ≤ 35 then 31 else if ch = 43 ∨ ch = 47 then 3 else 0)

/-- MON.LOAD_SEQUENCE (R409). -/
def monLoadSequence (c : Cmd) (s : State) : VerbOut :=
  let p := c.payload
  let first := u8 p 0
  let count := u8 p 1
  let len := u8 p 2
  let rs := records count 8 (p.drop 16)
  let flow := if u32 p 4 = 0xFFFFFFFF then none else some (u32 p 4)
  if p.length ≠ 16 + 8 * count then .fail .badLength 0
  else if first > 127 ∨ count = 0 ∨ first + count > 128 ∨ len = 0 ∨ len > 128 ∨ !zeros p 3 1 ∨ !zeros p 10 6 ∨
      flow.any (fun f => decide (f > 49151) || !s.flowExists f) ∨ rs.any (fun b => !monEntryOk b) then
    .fail .badParam 0
  else if s.mon.running || s.mon.quiescing then .fail .badState 0
  else
    let put (m : KMap MonEntry) (ib : Nat × List Byte) : KMap MonEntry :=
      m.set (first + ib.1)
        { channel := u8 ib.2 0, select := u8 ib.2 1, rep := u16 ib.2 2, delay := u16 ib.2 4, avg := u8 ib.2 6,
          shift := u8 ib.2 7 }
    .done .ok 0 (s.setMon { s.mon with
      entries := ((List.range count).zip rs).foldl put s.mon.entries, length := len, flow, every := u16 p 8 })

/-- MON_LOAD_SEQUENCE: `MON.LOAD_SEQUENCE` (R409). -/
def execMonLoadSequence (t fn tag : Nat) (s : State) : Host.Outcome State Fault Refusal :=
  verb t 0x0F02 fn tag monLoadSequence s

/-- A whole table has been loaded. -/
def Mon.loaded (m : Mon) : Bool := m.length != 0 && (List.range m.length).all fun e => m.entries.has e

/-- Results of a pass, and its length in units of 100 ns, recovery apart (R402). -/
def Mon.pass (m : Mon) : Nat × Nat :=
  (List.range m.length).foldl (fun k e =>
    let x := m.at_ e
    (k.1 + x.rep, k.2 + x.delay + 5 * x.rep * 2 ^ x.avg)) (0, 0)

/-- Bytes a second that the sequence hands to its flow (R410). -/
def Mon.rate (m : Mon) : Nat := (160000000 * m.pass.1 + m.pass.2 - 1) / m.pass.2

/-- MON.START_SEQUENCE (R410). DESIGN CHOICE, log entry 141. -/
def monStartSequence (c : Cmd) (s : State) : VerbOut :=
  let p := c.payload
  let w : Sched := { mode := u8 p 0, at_ := u64 p 8 }
  let m := s.mon
  if w.mode > 2 ∨ !zeros p 1 7 ∨ s.tooSoon w then .fail .badParam 0
  else if m.running then .done .ok s.now s
  else if !m.loaded ∨ !m.refOn ∨ (s.startTick w).isNone then .fail .badState 0
  else
    let r := match m.flow with
      | some f => s.allot (actKey kindFlow f) (s.flowDemand f m.rate)
      | none => some s
    match r with
    | none => .fail .noAllotment 0
    | some s1 =>
      match s1.declare [{ fam := 0x0F, obj := 16, group := 16, first := 250000, each := 250000 }] with
      | .error e => .fail .noEnergy e
      | .ok s2 => .running 0 [] s2

/-- MON_START_SEQUENCE: `MON.START_SEQUENCE` (R410). -/
def execMonStartSequence (t fn tag : Nat) (s : State) : Host.Outcome State Fault Refusal :=
  verb t 0x0F03 fn tag monStartSequence s

/-- MON_SCHEDULED_START (R410): the first conversion begins. -/
def execMonScheduledStart (t : Nat) (s : State) : Host.Outcome State Fault Refusal :=
  happens t (fun s =>
    match s.startedCmds 0x0F03 fun _ => true with
    | [] => s
    | c :: _ =>
      let w : Sched := { mode := u8 c.payload 0, at_ := u64 c.payload 8 }
      if s.reached w then
        let first := s.dueTick w
        (s.setMon { s.mon with running := true, quiescing := false, phase := .converting, entry := 0, results := 0,
                               since := first, kept := false,
                               convs := 0, sum := 0, outside := 0, lastOver := false, recovered := false, evFlags := 0 }).finish
          c .ok first
      else s) s

/-- Ticks of 500 ns (R401, R415). -/
def conversionTicks : Nat := 12800

/-- Reference settling in ticks (R404, R415). -/
def refSettleTicks : Nat := 25600000

/-- FLAGS of the result in progress (R404 to R406). -/
def State.monFlags (s : State) : Nat :=
  let m := s.mon
  m.outside + 4 * bit (decide (m.first < m.refTick + refSettleTicks)) + 8 * bit m.recovered + 16 * bit (s.provisionalAt m.first)

/-- A result is recorded and handed to the flow, or dropped where the flow still holds one (R406). -/
def State.monResult (s : State) : State :=
  let m := s.mon
  let e := m.at_ m.entry
  let fl := s.monFlags + 32 * bit (m.gap != 0)
  let rec_ := pack [(8, m.first), (4, m.sum >>> e.shift), (1, m.entry), (1, e.channel), (1, fl), (1, 0)]
  let m1 : Mon := { m with
    records := m.records.set m.entry rec_, results := m.results + 1, convs := 0, sum := 0, outside := 0,
    evFlags := m.evFlags ||| (bit (m.outside != 0) + 2 * (fl / 4 % 2)) }
  match m.flow with
  | none => s.setMon m1
  | some f =>
    if s.flowQueue f ≠ 0 then s.setMon { m1 with gap := m1.gap + 1 }
    else (s.setMon { m1 with gap := 0 }).handToFlow f {
      format := 8, bytes := rec_, stamp := { tick := m.first }, flags := 4 * bit (s.provisionalAt m.first), gaps := m.gap }

/-- Ticks of 100 ns, the unit of DELAY (R402). -/
def delayUnit : Nat := 2560

/-- Ticks of the 2 µs of a recovery conversion (R405). -/
def recoveryTicks : Nat := 51200

/-- The pass ends with the conversion in progress (R414). DESIGN CHOICE, log entry 64. -/
def State.monPassEnd (s : State) : State :=
  let m := s.mon
  let n := wrapAdd 32 m.passes 1
  if m.every ≠ 0 ∧ n % m.every = 0 then
    (s.setMon { m with passes := n, evFlags := 0 }).eventAt 0x0F02 0 { tick := m.since } (n + 2 ^ 32 * m.evFlags)
  else s.setMon { m with passes := n }

/-- The sequence goes to its next entry, a conversion having just ended (R402, R405). -/
def State.monNextEntry (s : State) : State :=
  let e := s.mon.entry
  let n := if s.mon.length ≤ e + 1 then 0 else e + 1
  let s := if n = 0 then s.monPassEnd else s
  let m := s.mon
  let x := m.at_ n
  let phase : MonPhase :=
    if m.lastOver && x.channel != (m.at_ e).channel && decide (x.delay * delayUnit < recoveryTicks) then .recovering
    else if x.delay = 0 then .converting else .delaying
  s.setMon { m with entry := n, results := 0, recovered := false, kept := false, phase }

/-- The sequence comes to rest (R407, R411). -/
def State.monRest (s : State) : State :=
  (((s.setMon { s.mon with running := false, quiescing := false, phase := .idle, convs := 0, sum := 0, outside := 0 }).undeclare
    0x0F 16).restDone (resetKey 0x0F 16) 0).finishAll (s.startedCmds 0x0F04 fun _ => true) .quiesced fun _ => 0

/-- CONVERSION_COMPLETE (R401, R402, R405, R407): the 500 ns of the conversion in progress have passed, and the next
begins; `outside` is 1 above the range and 2 below it. -/
def execConversionComplete (t code outside : Nat) (s : State) : Host.Outcome State Fault Refusal :=
  happens t (fun s =>
    let m := s.mon
    if m.phase ≠ .converting ∨ s.now < m.since + conversionTicks then s
    else
      let v := if outside = 1 then 65535 else if outside = 2 then 0 else code % 65536
      let m1 : Mon := { m with
        first := if m.convs = 0 then m.since else m.first, since := m.since + conversionTicks, convs := m.convs + 1,
        sum := m.sum + v, outside := m.outside ||| (if outside = 1 then 1 else if outside = 2 then 2 else 0),
        lastOver := outside == 1 || outside == 2,
        overranges := if outside = 1 ∨ outside = 2 then wrapAdd 32 m.overranges 1 else m.overranges }
      let s := s.setMon m1
      let x := m1.at_ m1.entry
      let s := if m1.convs < 2 ^ x.avg then s
        else
          let s := s.monResult
          if s.mon.results < x.rep then s else s.monNextEntry
      if m.quiescing then s.monRest else s) s

/-- Ticks of the DELAY of the entry in progress (R402). -/
def Mon.delayTicks (m : Mon) : Nat := (m.at_ m.entry).delay * delayUnit

/-- ENTRY_DELAY_EXPIRY (R402). -/
def execEntryDelayExpiry (t : Nat) (s : State) : Host.Outcome State Fault Refusal :=
  happens t (fun s =>
    let m := s.mon
    if m.phase = .delaying ∧ m.since + m.delayTicks ≤ s.now then
      s.setMon { m with phase := .converting, since := m.since + m.delayTicks }
    else s) s

/-- RECOVERY_CONVERSION (R405): the recovery conversion ends and is discarded. -/
def execRecoveryConversion (t : Nat) (s : State) : Host.Outcome State Fault Refusal :=
  happens t (fun s =>
    if s.mon.phase ≠ .recovering ∨ s.now < s.mon.since + recoveryTicks then s
    else
      let s1 := s.setMon { s.mon with phase := .converting, recovered := true, lastOver := false,
                                      since := s.mon.since + recoveryTicks,
                                      recoveries := wrapAdd 32 s.mon.recoveries 1 }
      if s.mon.quiescing then s1.monRest else s1) s

/-- A housekeeping conversion fits where the sequence is: there is none, or it is at an entry boundary whose recovery or
DELAY lasts 500 ns (R403). -/
def Mon.roomy (m : Mon) : Bool :=
  match m.phase with
  | .idle | .recovering => true
  | .delaying => decide (conversionTicks ≤ m.delayTicks)
  | .converting => false

/-- HOUSEKEEPING_CONVERSION (R403): at most once at an entry boundary, inside its recovery or DELAY; if no such
boundary has occurred for 10 ms, the sequence waits 500 ns for it. -/
def execHousekeepingConversion (t : Nat) (s : State) : Host.Outcome State Fault Refusal :=
  happens t (fun s =>
    let m := s.mon
    let boundary := m.phase != .converting || (m.convs == 0 && m.results == 0)
    if m.phase = .idle then s.setMon { m with housekeeping := s.now }
    else if m.kept || !boundary then s
    else if m.roomy then s.setMon { m with housekeeping := s.now, kept := true }
    else if m.housekeeping + 10 * ticksPerMs ≤ s.now then
      s.setMon { m with housekeeping := s.now, kept := true, since := m.since + conversionTicks }
    else s) s

/-- REFERENCE_SETTLED (R404). -/
def execReferenceSettled (t : Nat) (s : State) : Host.Outcome State Fault Refusal :=
  happens t (fun s =>
    if s.mon.refOn && decide (s.mon.refTick + refSettleTicks ≤ s.now) then
      s.setMon { s.mon with refSettled := true }
    else s) s

/-- MON.STOP_SEQUENCE (R407, R411). -/
def monStopSequence (_ : Cmd) (s : State) : VerbOut :=
  let m := s.mon
  if !m.running then .done .quiesced 0 s
  else if m.phase = .converting ∨ m.phase = .recovering then .running 0 [] (s.setMon { m with quiescing := true })
  else .done .quiesced 0 s.monRest

/-- MON_STOP_SEQUENCE: `MON.STOP_SEQUENCE` (R411). -/
def execMonStopSequence (t fn tag : Nat) (s : State) : Host.Outcome State Fault Refusal :=
  verb t 0x0F04 fn tag monStopSequence s

/-- The 16 bytes of a comparator (R412). -/
def Comparator.bytes (c : Comparator) : List Byte :=
  pack [(1, c.mode), (1, bit c.out + 2 * bit c.settled + 4 * bit c.inBand + 8 * bit c.window.isSome), (2, c.thresh),
    (4, c.readback), (4, c.changes), (4, c.blanked)]

/-- The 16-byte header of the sequence records (R412). -/
def Mon.header (m : Mon) (now : Nat) : List Byte :=
  pack [(1, if m.quiescing then 2 else bit m.running), (1, bit m.refOn + 2 * bit (m.refSettled || (m.refOn && decide (m.refTick + refSettleTicks ≤ now)))), (2, 0), (4, m.passes),
    (4, m.recoveries), (4, m.overranges)]

/-- MON.READ (R412). -/
def monRead (c : Cmd) (s : State) : VerbOut :=
  let p := c.payload
  if u8 p 0 > 1 ∨ !zeros p 1 3 then .fail .badParam 0
  else if u8 p 0 = 0 then .data ((List.range 16).flatMap fun k => (s.comp k).bytes) 0 s
  else .data (s.mon.header s.now ++ (List.range 128).flatMap fun e => s.mon.records.get e (leBytes 16 0)) 0 s

/-- MON_READ: `MON.READ` (R412). -/
def execMonRead (t fn tag : Nat) (s : State) : Host.Outcome State Fault Refusal :=
  verb t 0x0F05 fn tag monRead s

/-- MON.SET_REFERENCE (R404, R413). -/
def monSetReference (c : Cmd) (s : State) : VerbOut :=
  let p := c.payload
  if u8 p 0 > 1 ∨ !zeros p 1 3 then .fail .badParam 0
  else if u8 p 0 = 0 then
    if s.mon.running then .fail .badState 0
    else .done .ok 0 ((s.setMon { s.mon with refOn := false, refSettled := false }).undeclare 0x0F 17)
  else
    match s.declare [{ fam := 0x0F, obj := 17, group := 17, first := 50000, each := 50000 }] with
    | .error e => .fail .noEnergy e
    | .ok s1 => .done .ok s.now (s1.setMon { s1.mon with refOn := true, refTick := s.now, refSettled := false })

/-- MON_SET_REFERENCE: `MON.SET_REFERENCE` (R413). -/
def execMonSetReference (t fn tag : Nat) (s : State) : Host.Outcome State Fault Refusal :=
  verb t 0x0F06 fn tag monSetReference s

end Sys2Proof.Machine
end

