-- ==== Sys2Proof/Machine/Packets.lean ====
section
/-! DEFINITION. What a stream port sends: frames, stream headers and the packets that a flow's units form (R455 to
R460). A frame that leaves is recorded without its preamble and FCS. -/

namespace Sys2Proof.Machine

/-- Port `p`. -/
def State.port (s : State) (p : Nat) : Port := s.ports.get p {}

/-- Replaces a port. -/
def State.setPort (s : State) (p : Nat) (x : Port) : State := { s with ports := s.ports.set p x }

/-- Port `p` with the addresses it uses: those of the failed port that it carries, or its own (R463). -/
def State.faceOf (s : State) (p : Nat) : Port :=
  match (s.port p).carrying with
  | some q => { s.port p with mac := (s.port q).mac, ip4 := (s.port q).ip4, ip6 := (s.port q).ip6 }
  | none => s.port p

/-! ## Frames (R455, R457) -/

/-- The number's bytes in network order. -/
def beBytes (n v : Nat) : List Byte := (leBytes n v).reverse

/-- A block of fields in network order. -/
def packBe : List (Nat × Nat) → List Byte
  | [] => []
  | (n, v) :: fs => beBytes n v ++ packBe fs

/-- Sum of the 16-bit words of a list in network order; an odd last byte is followed by zero. -/
def wordSum : List Byte → Nat
  | [] => 0
  | [a] => 256 * a.toNat
  | a :: b :: bs => 256 * a.toNat + b.toNat + wordSum bs

/-- Folds carries into 16 bits. -/
def foldCarry (n : Nat) : Nat := n % 65536 + n / 65536

/-- The Internet checksum: the one's complement of the one's-complement sum. -/
def inetSum (bs : List Byte) : Nat := 65535 - foldCarry (foldCarry (foldCarry (wordSum bs)))

/-- The addresses and markings of a datagram. -/
structure Datagram where
  /-- IPv6. -/
  ipv6 : Bool
  /-- VLAN tag: (PCP, VLAN_ID). -/
  vlan : Option (Nat × Nat)
  /-- DSCP. -/
  dscp : Nat
  /-- Destination MAC. -/
  dstMac : List Byte
  /-- Destination address, 4 or 16 bytes in use. -/
  dstIp : List Byte
  /-- Source UDP port. -/
  srcUdp : Nat
  /-- Destination UDP port. -/
  dstUdp : Nat

/-- Bytes of a UDP datagram with its checksum over the pseudo-header. -/
def udpBytes (ipv6 : Bool) (src dst : List Byte) (sp dp : Nat) (body : List Byte) : List Byte :=
  let n := 8 + body.length
  let pseudo := src ++ dst ++ (if ipv6 then packBe [(4, n), (3, 0), (1, 17)] else packBe [(1, 0), (1, 17), (2, n)])
  let c := inetSum (pseudo ++ packBe [(2, sp), (2, dp), (2, n), (2, 0)] ++ body)
  packBe [(2, sp), (2, dp), (2, n), (2, if c = 0 then 65535 else c)] ++ body

/-- An Ethernet II header (R455). -/
def etherHead (dst src : List Byte) (vlan : Option (Nat × Nat)) (type : Nat) : List Byte :=
  dst ++ src ++ (match vlan with
    | some (pcp, id) => packBe [(2, 0x8100), (2, pcp * 8192 + id)]
    | none => []) ++ packBe [(2, type)]

/-- The frame of a datagram from a port with the addresses of `x` (R455). DESIGN CHOICE, log entry 68. -/
def Datagram.frame (d : Datagram) (x : Port) (body : List Byte) : List Byte :=
  if d.ipv6 then
    let dst := d.dstIp.take 16
    let udp := udpBytes true x.ip6 dst d.srcUdp d.dstUdp body
    etherHead d.dstMac x.mac d.vlan 0x86DD ++
      packBe [(4, 6 * 2 ^ 28 + d.dscp * 4 * 2 ^ 20), (2, udp.length), (1, 17), (1, x.ttl)] ++ x.ip6 ++ dst ++ udp
  else
    let dst := d.dstIp.take 4
    let udp := udpBytes false x.ip4 dst d.srcUdp d.dstUdp body
    let head (c : Nat) : List Byte :=
      packBe [(1, 0x45), (1, d.dscp * 4), (2, 20 + udp.length), (2, 0), (2, 0x4000), (1, x.ttl), (1, 17), (2, c)] ++
        x.ip4 ++ dst
    etherHead d.dstMac x.mac d.vlan 0x0800 ++ head (inetSum (head 0)) ++ udp

/-- The three entries of OVR_RUN (R457). -/
def ovrEntries (runs : List (Nat × Nat)) : List (Nat × Nat) :=
  match runs with
  | a :: b :: c :: rest =>
    let last := rest.getLast?.getD c
    [a, b, (c.1, last.1 + last.2 - c.1)]
  | _ => runs ++ List.replicate (3 - runs.length) (0, 0)

/-- The 64-byte stream header (R457). -/
def Packet.header (p : Packet) (port : Nat) : List Byte :=
  packBe [(2, 0x4453), (1, 1), (1, p.format), (4, p.flow), (8, p.seq), (10, stampNat p.stamp), (2, p.flags),
    (1, p.exponent), (1, port), (2, p.payload.length), (4, p.count), (4, p.settled), (1, min 255 p.runs.length), (1, 0)] ++
  packBe ((ovrEntries p.runs).flatMap fun r => [(2, r.1), (2, r.2)]) ++ packBe [(2, min 65535 p.gaps), (8, p.gapTicks)]

/-- The datagram markings of a binding (R467). -/
def Binding.datagram (b : Binding) : Datagram :=
  { ipv6 := b.flags.testBit 0, vlan := if b.flags.testBit 1 then some (b.pcp, b.vlan) else none, dscp := b.dscp,
    dstMac := b.dstMac, dstIp := b.dstIp, srcUdp := b.srcUdp, dstUdp := b.dstUdp }

/-! ## Packet formation (R459) -/

/-- Runs of overranged samples, as (START, LENGTH); `k` is the index of the first. -/
def ovrRuns : Nat → Option Nat → List Nat → List (Nat × Nat)
  | k, some a, [] => [(a, k - a)]
  | _, none, [] => []
  | k, st, w :: ws =>
    match st, w.testBit 3 with
    | none, true => ovrRuns (k + 1) (some k) ws
    | some a, false => (a, k - a) :: ovrRuns (k + 1) none ws
    | st, _ => ovrRuns (k + 1) st ws

/-- S16 samples as S12P (R7). -/
def packS12 : List Nat → List Byte
  | [] => []
  | [a] => leBytes 3 (a / 16)
  | a :: b :: ws => leBytes 3 (a / 16 + 4096 * (b / 16)) ++ packS12 ws

/-- The UNSETTLED and OVR_SEEN flags of the bytes of a unit from place `off` on, `n` of them: those of the elements that
they belong to, together (R146). -/
def FlowUnit.flagsOf (u : FlowUnit) (off n : Nat) : Nat :=
  if u.width = 0 || u.marks.isEmpty then u.flags % 4
  else
    let a := off / u.width
    ((u.marks.drop a).take ((off + n + u.width - 1) / u.width - a)).foldl (· ||| ·) 0

/-- Of `n` samples from place `k` on, the index of the first that is settled and followed only by settled ones (R457). -/
def FlowUnit.settledIn (u : FlowUnit) (k n : Nat) : Nat :=
  if u.marks.isEmpty then min (u.settled - k) n
  else n - (((u.marks.drop k).take n).reverse.findIdx? fun m => m.testBit 0).getD n

/-- The next packet of raw samples from piece `u`, of which `k` samples have left. -/
def rawPacket (f seq max k : Nat) (u : FlowUnit) : Packet × Nat :=
  let total := u.bytes.length / 2
  let n := min (max / 3 * 2) (total - k)
  let ws := ((records n 2 (u.bytes.drop (2 * k)))).map leNat
  let runs := ovrRuns 0 none ws
  ({ flow := f, seq, format := 1, stamp := { tick := u.stamp.tick + k, fine := u.stamp.fine },
     flags := bit (if u.marks.isEmpty then decide (k < u.settled) else (u.flagsOf (2 * k) (2 * n)).testBit 0) + 2 * bit (!runs.isEmpty) + 4 * bit (u.flags.testBit 2) +
       8 * bit (k == 0 && u.gaps != 0) + 16 * bit (k != 0 || !u.starts) + 32 * bit (u.ends && k + n == total),
     count := n, settled := u.settledIn k n, runs, gaps := if k = 0 then u.gaps else 0,
     gapTicks := if k = 0 then u.gapTicks else 0, payload := packS12 ws }, n)

/-- What a packet of other units has gathered. -/
structure Gather where
  /-- The packet. -/
  pkt : Packet := {}
  /-- Pieces that are left, and bytes of the first that have left. -/
  rest : List FlowUnit := []
  /-- Bytes of the first piece that have left. -/
  off : Nat := 0
  /-- The packet closes here. -/
  closed : Bool := false

/-- Fills a packet of one format with bytes of consecutive pieces. -/
def fillPacket (max : Nat) : List FlowUnit → Nat → Packet → Gather
  | [], _, p => { pkt := p }
  | u :: us, off, p =>
    if u.format ≠ p.format then { pkt := p, rest := u :: us, off, closed := true }
    else
      let n := min (max - p.payload.length) (u.bytes.length - off)
      let begins := u.starts && off == 0
      let whole := off + n == u.bytes.length
      let p := { p with
        stamp := if begins && p.count = 0 then u.stamp else p.stamp, count := p.count + bit begins,
        flags := p.flags ||| (u.flagsOf off n + 4 * bit (u.flags.testBit 2) + 8 * bit (off == 0 && u.gaps != 0) + 32 * bit (whole && u.ends)),
        gaps := p.gaps + (if off = 0 then u.gaps else 0), gapTicks := p.gapTicks + (if off = 0 then u.gapTicks else 0),
        payload := p.payload ++ (u.bytes.drop off).take n }
      if !whole then { pkt := p, rest := u :: us, off := off + n, closed := true }
      else if u.closes || p.payload.length == max then { pkt := p, rest := us, off := 0, closed := true }
      else fillPacket max us 0 p

/-- EXPONENT of the payload that begins at byte `off` of a unit: that of the frame there, which a segment of frames holds in
the tag (R237, R457). DESIGN CHOICE, log entry 142. -/
def FlowUnit.exponentAt (u : FlowUnit) (off : Nat) : Nat :=
  if u.width = 0 then u.exponent else u8 u.bytes (off / u.width * u.width + 2)

/-- The next packet of a bound flow, with the binding after it; none while none is due. -/
def Binding.next (b : Binding) (f : Nat) : Option (Packet × Binding) :=
  match b.queue with
  | [] => none
  | u :: us =>
    let finish (p : Packet) (b : Binding) : Packet × Binding :=
      ({ p with flags := p.flags + 64 * bit b.failover }, { b with seq := wrapAdd 64 b.seq 1, failover := false })
    if u.format = 1 then
      let r := rawPacket f b.seq b.payloadMax b.sentOf u
      let k := b.sentOf + r.2
      some (finish r.1 (if u.bytes.length / 2 ≤ k then { b with queue := us, sentOf := 0 } else { b with sentOf := k }))
    else
      let cont := !u.starts || b.sentOf != 0
      let p : Packet := { flow := f, seq := b.seq, format := u.format, stamp := u.stamp, flags := 16 * bit cont,
                          exponent := if u.format = 4 then u.exponentAt b.sentOf else 0 }
      let g := fillPacket b.payloadMax (u :: us) b.sentOf p
      if g.closed || b.flush then
        some (finish g.pkt { b with queue := g.rest, sentOf := g.off, flush := b.flush && !g.rest.isEmpty })
      else none

/-- Ticks of 2 µs (R463). DESIGN CHOICE, log entry 69. -/
def replayTicks : Nat := 51200

/-- Sends a packet of flow `f` on port `p` with a binding's markings. DESIGN CHOICE, log entry 68. -/
def State.sendPacket (s : State) (p : Nat) (b : Binding) (k : Packet) (replay : Bool) : State :=
  let x := s.port p
  let k := { k with sent := s.now }
  let y := { x with
    packets := wrapAdd 64 x.packets 1, wireBytes := wrapAdd 64 x.wireBytes (k.payload.length + b.overhead),
    replayed := if replay then wrapAdd 64 x.replayed 1 else x.replayed,
    recent := (x.recent.filter fun q => decide (s.now ≤ q.sent + replayTicks)) ++ [k] }
  (s.setPort p y).emit (.ethFrame p (b.datagram.frame (s.faceOf p) (k.header p ++ k.payload)))

end Sys2Proof.Machine
end

