-- ==== Sys2Proof/Machine/Racking.lean ====
section
/-! DEFINITION. Racking and the FLOW family (R434 to R453): descriptors, bursts, check codes, halts, gates and
quiescence. -/

namespace Sys2Proof.Machine

/-- Flow `f`; the answer for a FREE flow is not used. -/
def State.flow (s : State) (f : Nat) : Flow := s.rack.flows.get f {}

/-- Replaces a flow. -/
def State.setFlow (s : State) (f : Nat) (x : Flow) : State :=
  { s with rack := { s.rack with flows := s.rack.flows.set f x } }

/-- Replaces a region. -/
def State.setRegion (s : State) (b : Nat) (r : Region) : State := { s with regions := s.regions.set b r }

/-- The flow moves data without descriptors (R434). -/
def Flow.direct (x : Flow) : Bool := x.src == 0 && x.dst == 0

/-! ## Check codes (R441) -/

/-- One bit of a reflected CRC. -/
def crcDown (poly c : Nat) : Nat := if c % 2 = 1 then c / 2 ^^^ poly else c / 2

/-- A reflected CRC over bytes from state `c`. -/
def crcReflected (poly c : Nat) (bs : List Byte) : Nat :=
  bs.foldl (fun c b => (List.range 8).foldl (fun c _ => crcDown poly c) (c ^^^ b.toNat)) c

/-- Reflected polynomial of CHECK 1 or 2. -/
def checkPoly (k : Nat) : Nat := if k = 1 then 0x82F63B78 else 0xC96C5795D7870F42

/-- Bytes of the check code. -/
def checkSize (k : Nat) : Nat := if k = 1 then 4 else if k = 2 then 8 else 0

/-- All ones of the check code's width: initial value and final XOR. -/
def checkOnes (k : Nat) : Nat := 2 ^ (8 * checkSize k) - 1

/-! ## Descriptors (R436, R437) -/

/-- Bytes `a` to `a + n − 1` of a space as flow `x` writes them; a Cellar write outside every region is discarded
(R420). Toward host memory they leave in requests of at most the maximum payload size (R438), and carry the flow's No-Snoop
attribute (R442). -/
def State.flowWrite (s : State) (x : Flow) (cellar : Bool) (a : Nat) (bs : List Byte) : State :=
  if !cellar then
    (requestsOf (s.maxPayload x.fn) bs.length).foldl (fun s e =>
      s.emit (.hostWrite x.fn (a + e.1) ((bs.drop e.1).take e.2) x.noSnoop)) s
  else if s.inRegion a bs.length then s.keepCellar (s.cellarMem.writeBytes a bs) else s

/-- A descriptor read at `addr`, checked against R437. -/
def State.descrOf (s : State) (x : Flow) (addr : Nat) (b : List Byte) (index : List Nat) : Descr :=
  let ctl := u8 b 0
  let gather := ctl.testBit 1
  let count := u32 b 40
  let bad := !ctl.testBit 0 || ctl.testBit 7 || !zeros b 1 1 || !zeros b 46 2 || u32 b 4 == 0 ||
    (if gather then x.src == 0 || u16 b 2 == 0 || decide (4096 < u16 b 2) || count == 0 ||
        decide (16777216 < count) || u64 b 32 % 4 != 0 || u32 b 4 != count * u16 b 2
      else u16 b 2 != 0) ||
    u64 b 24 % 64 != 0 || addr % 64 != 0 || (x.space == 1 && !s.inRegion addr 64)
  { addr, control := ctl, element := u16 b 2, length := u32 b 4, source := u64 b 8, dest := u64 b 16, tag := u16 b 44,
    index := if gather then (index.take count).map (· % 2 ^ 32) else [],
    lost := gather && x.src == 2 && !(s.inRegion (u64 b 32) (4 * count) && s.cellarReadable (u64 b 32) (4 * count)), bad }

/-- The write-back of a descriptor (R436). -/
def writeBack (st : Status) (valid unitEnd : Bool) (count check : Nat) : List Byte :=
  pack [(2, st.code), (1, 1 + 2 * bit valid + 4 * bit unitEnd), (1, 0), (4, count), (8, check)]

/-- A descriptor has completed with this status: its write-back, then its event (R438, R453), which one with HALT_AFTER
raises too (R444). DESIGN CHOICE, log entry 67. -/
def State.descrDone (s : State) (f : Nat) (d : Descr) (st : Status) (wb : List Byte) : State :=
  let x := s.flow f
  let since := x.sinceEvent + 1
  let err := st == .xferError || st == .xferErrorFinal
  let ev := d.control.testBit 5 || d.control.testBit 6 || st != .ok
  let y := { x with descsDone := wrapAdd 64 x.descsDone 1, sinceEvent := if ev then 0 else since,
                    errors := satAdd 32 x.errors (bit err) }
  let s := (s.flowWrite { x with noSnoop := false } (x.space == 1) (d.addr + 48) wb).setFlow f y
  if ev then s.event 0x1101 f (st.code + 2 ^ 16 * d.tag + 2 ^ 32 * min since (2 ^ 32 - 1)) else s

/-- A flow halts before its next descriptor (R444). DEDUCED, log entry 13. DESIGN CHOICE, log entry 67. -/
def State.flowHalt (s : State) (f cause addr : Nat) : State :=
  ((s.setFlow f { s.flow f with mode := .halted, haltCause := cause, haltDesc := addr }).undeclare 0x11 f).event 0x1102 f
    (5 + 2 ^ 8 * cause)

/-- The next fetched descriptor begins to move, or halts the flow as bad (R437, R438). DESIGN CHOICE, log entry 67. -/
def State.flowStart (s : State) (f : Nat) : State :=
  let x := s.flow f
  match x.mode, x.cur, x.fetched with
  | .enabled, none, d :: rest | .paused, none, d :: rest =>
    if d.bad then (s.setFlow f { x with fetched := rest }).flowHalt f 3 d.addr
    else s.setFlow f { x with fetched := rest, cur := some { desc := d }, readySince := s.now }
  | _, _, _ => s

/-- Data of the answered bursts in order, up to the first failed one. -/
def Moving.bytes (m : Moving) : List Byte :=
  (m.data.filter fun e => match m.failed with
    | some o => decide (e.1 < o)
    | none => true).flatMap Prod.snd

/-- Bytes answered. -/
def Moving.got (m : Moving) : Nat := m.data.foldl (fun n e => n + e.2.length) 0

/-- The state of the check code before and after a descriptor (R441). -/
def Flow.crcAfter (x : Flow) (m : Moving) : Nat :=
  let from_ := if m.desc.control.testBit 3 then x.crc.getD (checkOnes x.check) else checkOnes x.check
  crcReflected (checkPoly x.check) from_ m.bytes

/-! ## Toward a stream port (R435, R459) -/

/-- The pieces of a segment of raw samples whose data end at byte `stop`: packets do not run across a gap, since sample `i`
of a packet has stamp STAMP + `i` (R458, R459). DESIGN CHOICE, log entry 142. -/
def FlowUnit.runPieces (u : FlowUnit) (stop : Nat) : List UnitRun → List FlowUnit
  | [] => []
  | r :: rs =>
    let last := (rs.head?.map fun q => 2 * q.place).getD stop
    { u with bytes := (u.bytes.take last).drop (2 * r.place), trailer := 0, closes := true, starts := r.place == 0,
             ends := false, stamp := r.stamp, marks := (u.marks.drop r.place).take (last / 2 - r.place), runs := [],
             gaps := r.gaps, gapTicks := r.ticks } :: u.runPieces stop rs

/-- The pieces of a unit: a segment's trailer goes in its own packets, and gaps after its last stored sample are told
there. DESIGN CHOICE, log entry 142. -/
def FlowUnit.pieces (u : FlowUnit) : List FlowUnit :=
  if u.trailer = 0 then [u]
  else
    let k := u.bytes.length - u.trailer
    let head : FlowUnit := { u with bytes := u.bytes.take k, trailer := 0, closes := true, ends := false }
    let tail : FlowUnit := { format := 3, bytes := u.bytes.drop k, closes := true, starts := k == 0, stamp := u.stamp,
                             flags := u.flags }
    if k = 0 then [{ tail with gaps := u.gaps, gapTicks := u.gapTicks }]
    else if u.runs.isEmpty then [head, tail]
    else
      u.runPieces k u.runs ++ [{ tail with
        gaps := u.gaps - u.runs.foldl (fun n r => n + r.gaps) 0
        gapTicks := u.gapTicks - u.runs.foldl (fun n r => n + r.ticks) 0 }]

/-- A unit reaches the flow's queue at its port at tick `now`. -/
def Flow.toPort (x : Flow) (now : Nat) (u : FlowUnit) : Flow :=
  match x.bind with
  | some b => { x with bind := some { b with queue := b.queue ++ u.pieces, flush := false,
                                             openAt := if b.queue.isEmpty then now else b.openAt } }
  | none => x

/-- Bytes that wait at the port for the flow. -/
def Binding.waiting (b : Binding) : Nat := b.queue.foldl (fun n u => n + u.bytes.length) 0

/-- The port takes no more of the flow for now, and so back-pressures Racking (R460). DESIGN CHOICE, log entry 68. -/
def Flow.portFull (x : Flow) : Bool :=
  match x.bind with
  | some b => decide (65536 ≤ b.waiting)
  | none => false

/-- Packets of what waits at the port for a flow leave, partial ones too, at most `n` of them (R445, R465). -/
def State.sendRest : Nat → Nat → State → State
  | 0, _, s => s
  | n + 1, f, s =>
    let x := s.flow f
    match x.bind with
    | none => s
    | some b =>
      if (s.port b.port).mode != .up then s
      else
        match ({ b with flush := true } : Binding).next f with
        | none => s
        | some (k, b') => State.sendRest n f ((s.setFlow f { x with bind := some b' }).sendPacket b.port b k false)

/-- What waits at its port for a flow leaves (R445, R465). DESIGN CHOICE, log entry 68. -/
def State.drainPort (s : State) (f : Nat) : State :=
  match (s.flow f).bind with
  | some b => (State.sendRest (b.waiting + b.queue.length) f s)
  | none => s

/-- The stamp of the first sample of a slot of raw samples: PRE ticks before the first at or after the decision, or that of
the header where no decision cut the segment (R240, R243). DESIGN CHOICE, log entry 142. -/
def slotStamp (b : List Byte) : Stamp :=
  let st := stampOf b 8
  if (u16 b 56).testBit 7 then st
  else { tick := (st.tick + (if st.fine = 0 then 0 else 1) + 2 ^ 64 - u64 b 40) % 2 ^ 64 }

/-- The unit of one slot of an ACQ region: header, then elements; raw samples become S12P (R244, R459). A slot is LENGTH
elements and less than 64 bytes more, so that its size gives E but where the segment was truncated.
DESIGN CHOICE, log entry 142. -/
def slotUnit (b : List Byte) : FlowUnit :=
  let kind := u8 b 61 % 16
  let n := u64 b 32
  let body := b.drop 64
  let fl := u16 b 56
  let size := if kind = 0 then 2 else if fl.testBit 5 ∨ n = 0 then 0 else body.length / n
  { format := if kind = 0 then 1 else if kind = 2 then 4 else 2,
    bytes := (if size = 0 then body else body.take (size * n)) ++ b.take 64, trailer := 64, closes := true,
    width := size, stamp := if kind = 0 then slotStamp b else stampOf b 8, flags := bit (fl.testBit 2) + 2 * bit (fl.testBit 1) + 4 * bit (fl.testBit 3),
    settled := u64 b 48, gaps := u16 b 62 }

/-- What a completed descriptor hands to the port: bytes as read, or a slot. -/
def Flow.descrUnit (x : Flow) (bs : List Byte) : FlowUnit :=
  match x.bind with
  | some b => if b.flags.testBit 2 then slotUnit bs else { bytes := bs }
  | none => { bytes := bs }

/-! ## Completion of descriptors (R438, R441, R443 to R445) -/

/-- The flow is drained: a quiescence ends (R445, R453). DEDUCED, log entry 13. -/
def State.flowQuiet (s : State) (f : Nat) : State :=
  let s := s.drainPort f
  let x := s.flow f
  let act := actKey kindFlow f
  let us := roundEven (s.now - x.quietSince) ticksPerUs
  let s := (s.event 0x1102 f (x.reason + 2 ^ 8 * x.haltCause + 2 ^ 16 * (x.aborted % 2 ^ 32))).undeclare 0x11 f
  let s := s.setShadowBit (0x8000 + f / 32 * 4) (f % 32) false
  let keep := x.reason == 1 && s.holds act
  let y := { x with mode := if keep then .disabled else .created, gate := false, gateRefused := false, crc := none,
                    fetched := [], cur := none }
  let s := s.setFlow f y
  let named (c : Cmd) : Bool := u32 c.payload 0 == f
  let s := s.finishAll (s.startedCmds 0x1103 named) .quiesced fun _ => x.aborted + 2 ^ 32 * us
  match x.reason with
  | 1 => s
  | 2 =>
    let s := { s.release act with rack := { s.rack with flows := s.rack.flows.del f },
                                  offered := s.offered.del f }
    s.finishAll (s.startedCmds 0x1104 named) .quiesced fun _ => x.aborted + 2 ^ 32 * us
  | _ => (s.restDone act x.aborted).release act

/-- The descriptor being moved has ended (R438, R441, R443, R444). -/
def State.moveEnd (s : State) (f : Nat) (m : Moving) : State :=
  let x := s.flow f
  let d := m.desc
  let quits := x.mode == .quiescing && (m.issued != d.length || m.failed.isSome)
  let st : Status := if quits then .aborted else match m.failed with
    | some _ => if m.late then .xferErrorFinal else .xferError
    | none => .ok
  let valid := st == .ok && x.check != 0 && x.dst != 0
  let raw := if valid then x.crcAfter m else 0
  let code := raw ^^^ checkOnes x.check
  let s := if valid && d.control.testBit 4 then
      s.flowWrite x (x.dst == 2) (d.dest + m.issued) (leBytes (checkSize x.check) code)
    else s
  let check := match st, m.failed with
    | .xferError, some o | .xferErrorFinal, some o => o
    | _, _ => if valid then code else 0
  let count := if quits then d.length - m.got else d.length - m.issued
  let y := { x with cur := none, crc := if valid then some raw else none, aborted := x.aborted + bit quits }
  let y := if x.dst = 0 && !m.bytes.isEmpty then y.toPort s.now (x.descrUnit m.bytes) else y
  let s := (s.setFlow f y).descrDone f d st (writeBack st valid m.unitEnd count check)
  if x.mode = .quiescing then s
  else
    match st with
    | .xferError => s.flowHalt f 1 d.addr
    | .xferErrorFinal => s.flowHalt f 2 d.addr
    | _ => if d.control.testBit 6 then s.flowHalt f 4 d.addr else s.flowStart f

/-- Aborts the fetched descriptors of a flow that runs R73. -/
def State.abortFetched (s : State) (f : Nat) : State :=
  let x := s.flow f
  (x.fetched.filter fun d => !d.bad).foldl (fun s d =>
    let s := s.descrDone f d .aborted (writeBack .aborted false false d.length 0)
    s.setFlow f { s.flow f with aborted := (s.flow f).aborted + 1 }) (s.setFlow f { x with fetched := [] })

/-- Ends whatever of a flow can end now: its descriptor, or its quiescence. -/
def State.flowSettle (s : State) (f : Nat) : State :=
  let x := s.flow f
  let s := match x.cur with
    | some m =>
      let outside := m.issued == m.desc.length || m.failed.isSome || (m.unitEnd && m.desc.control.testBit 2) ||
        x.mode == .quiescing
      if m.flight.isEmpty && outside then s.moveEnd f m else s
    | none => s
  let x := s.flow f
  if x.mode = .quiescing && x.cur.isNone then
    let s := s.abortFetched f
    if x.chain.isNone && x.chains.isEmpty then s.flowQuiet f else s
  else s

/-- A flow runs R73 for a reason of R453. -/
def State.flowQuiesce (s : State) (f reason : Nat) : State :=
  (s.setFlow f { s.flow f with mode := .quiescing, reason, quietSince := s.now, aborted := 0 }).flowSettle f

/-- DESCRIPTOR_FETCHED (R437, R439): the next descriptor of a flow is read; `bytes` and `index` are what host memory
returns, and are not used for descriptors or index lists in Cellar. -/
def execDescriptorFetched (t flow : Nat) (bytes : List Byte) (index : List Nat) (s : State) :
    Host.Outcome State Fault Refusal :=
  happens t (fun s =>
    let x := s.flow flow
    let next := match x.chain, x.chains with
      | some c, _ => some (c, x.chains)
      | none, c :: cs => some (c, cs)
      | none, [] => none
    match next with
    | none => s
    | some ((addr, left), rest) =>
      if !(x.mode == .enabled || x.mode == .paused || x.mode == .quiescing) || decide (8 ≤ x.fetched.length) then s
      else
        let b := if x.space = 1 then s.cellarMem.readBytes addr 64 else bytes
        let list := if x.src = 2 then
            (records (min 16777216 (u32 b 40)) 4 (s.cellarMem.readBytes (u64 b 32) (4 * min 16777216 (u32 b 40)))).map leNat
          else index
        let d := s.descrOf x addr b (if (u8 b 0).testBit 1 then list else [])
        let chain := if d.bad || u64 b 24 == 0 || decide (left ≤ 1) then none else some (u64 b 24, left - 1)
        let s := s.setFlow flow { x with chain, chains := rest, fetched := x.fetched ++ [d] }
        let s := if x.space = 1 then s else s.emit (.hostRead x.fn addr 64 false)
        let s := if x.src = 1 && (u8 b 0).testBit 1 && !d.bad then
            s.emit (.hostRead x.fn (u64 b 32) (4 * u32 b 40) false)
          else s
        if x.mode = .quiescing then s.flowSettle flow else s.flowStart flow) s

/-- PRODUCER_UNIT_ARRIVAL (R435): the oldest offered unit is accepted, or waits at its producer while the flow is not
enabled, has no descriptor posted, or has not yet moved the unit before it. DESIGN CHOICE, log entry 67. -/
def execProducerUnitArrival (t flow : Nat) (s : State) : Host.Outcome State Fault Refusal :=
  happens t (fun s =>
    let x := s.flow flow
    let posted := x.direct || x.cur.isSome || !x.fetched.isEmpty || x.chain.isSome || !x.chains.isEmpty
    match s.offered.get flow [] with
    | [] => s
    | u :: rest =>
      if x.mode != .enabled || x.src != 0 || !posted || !x.buffer.isEmpty then s
      else
        let s := { s with offered := if rest.isEmpty then s.offered.del flow else s.offered.set flow rest }
        let s := s.setFlow flow { x with buffer := [u], readySince := s.now }
        if rest.isEmpty then s.flowAccepted flow else s) s

/-! ## Bursts (R438 to R440, R443, R444) -/

/-- Bytes left of the unit at the head of a producer flow's buffer. -/
def Flow.unitLeft (x : Flow) : Nat :=
  match x.buffer with
  | u :: _ => u.bytes.length - x.cut
  | [] => 0

/-- Size of the burst a flow has ready; none where it has none. -/
def Flow.ready (x : Flow) : Option Nat :=
  if x.mode != .enabled || x.portFull then none
  else
    let n :=
      if x.direct then min x.burst x.unitLeft
      else
        match x.cur with
        | some m =>
          if m.failed.isSome || (m.unitEnd && m.desc.control.testBit 2) then 0
          else
            let n := min x.burst (m.desc.length - m.issued)
            if x.src = 0 then min n x.unitLeft else n
        | none => 0
    if n = 0 then none else some n

/-- Takes `n` bytes from the head of the buffer; answers them and whether the unit ends with them. -/
def Flow.take (x : Flow) (n : Nat) : List Byte × Bool × Flow :=
  match x.buffer with
  | u :: us =>
    let b := (u.bytes.drop x.cut).take n
    if u.bytes.length ≤ x.cut + n then (b, true, { x with buffer := us, cut := 0 })
    else (b, false, { x with cut := x.cut + n })
  | [] => ([], false, x)

/-- The reads of host memory that bytes `o` to `o + n − 1` of a descriptor's source take: one, or one for each element
(R439). -/
def Descr.hostReads (d : Descr) (o n : Nat) : List (Nat × Nat) :=
  if d.control.testBit 1 then
    (span (o / d.element) ((o + n + d.element - 1) / d.element - o / d.element)).map fun i =>
      let lo := max o (i * d.element)
      (d.source + d.index.getD i 0 + (lo - i * d.element), min (o + n) ((i + 1) * d.element) - lo)
  else [(d.source + o, n)]

/-- Host memory is read for a burst, in requests of at most the maximum read request size (R438), with the flow's No-Snoop
attribute (R442). -/
def State.readHost (s : State) (x : Flow) (d : Descr) (o n : Nat) : State :=
  if x.src = 1 then
    (d.hostReads o n).foldl (fun s e =>
      (requestsOf (s.maxRead x.fn) e.2).foldl (fun s r => s.emit (.hostRead x.fn (e.1 + r.1) r.2 x.noSnoop)) s) s
  else s

/-- Issues a burst of `n` bytes. DESIGN CHOICE, log entry 67. -/
def State.issueBurst (s : State) (f n : Nat) (slack : Bool) : State :=
  let x := s.flow f
  let x := { x with slack := if slack then wrapAdd 64 x.slack n else x.slack, urgent := false, readySince := s.now }
  if x.direct then
    let u := x.buffer.headD {}
    let r := x.take n
    let y := { r.2.2 with moved := wrapAdd 64 x.moved n }
    s.setFlow f (if r.2.1 then y.toPort s.now u else y)
  else
    match x.cur with
    | none => s
    | some m =>
      let r := if x.src = 0 then x.take n else ([], false, x)
      let b : Burst := { offset := m.issued, size := n, since := s.now, bytes := r.1 }
      (s.readHost x m.desc m.issued n).setFlow f { r.2.2 with cur := some { m with
        issued := m.issued + n, flight := m.flight ++ [b], unitEnd := m.unitEnd || r.2.1 } }

/-- Bursts in flight of all flows. -/
def State.inFlight (s : State) : Nat :=
  s.rack.flows.foldl (fun n e => n + (e.2.cur.map fun m => m.flight.length).getD 0) 0

/-- Key of a flow's Racking-burst credit. -/
def burstCredit (f : Nat) : Nat := actKey kindFlow f * 128 + 2

/-- The first flow of a rising list after `last`, round the list. -/
def roundRobin (last : Option Nat) (fs : List Nat) : Option Nat :=
  match last with
  | some l => (fs.find? fun f => decide (l < f)).or fs.head?
  | none => fs.head?

/-- The flows of a list with the highest value of `p`. -/
def topBy (p : Nat → Nat) (fs : List Nat) : List Nat :=
  let m := fs.foldl (fun m f => max m (p f)) 0
  fs.filter fun f => p f == m

/-- The flow of a list that has waited longest. -/
def State.oldestReady (s : State) (fs : List Nat) : Option Nat :=
  let t := fs.foldl (fun m f => min m (s.flow f).readySince) s.now
  fs.find? fun f => (s.flow f).readySince == t

/-- The flow that a burst admission decision chooses, and whether it is served from slack (R440). Among urgent flows of
one priority the older work goes first (R497). DESIGN CHOICE, log entry 67. -/
def State.chooseFlow (s : State) : Option (Nat × Bool) :=
  let ready := (s.rack.flows.filter fun e => e.2.ready.isSome).map Prod.fst
  let prio (f : Nat) : Nat := (s.flow f).priority
  let pick (fs : List Nat) : Option Nat :=
    let top := topBy prio fs
    roundRobin (s.rack.last.find (prio (top.headD 0))) top
  let urgent := topBy prio (ready.filter fun f => (s.flow f).urgent)
  let credited := ready.filter fun f => s.bud.credits.get (burstCredit f) 0 != 0
  match s.oldestReady urgent, pick credited with
  | some f, _ => some (f, false)
  | none, some f => some (f, false)
  | none, none =>
    if 1 ≤ s.bud.stage then none
    else
      let eff (f : Nat) : Nat := min 7 (prio f + s.bud.aged.get f 0)
      (s.oldestReady (topBy eff ready)).map fun f => (f, true)

/-- What a burst of `n` bytes takes of the credits of its flow: one Racking burst where its credit covers it, and
bytes of Cellar, a write at 4/3, of the host link and of its port (R419, R449, R491). -/
def Budget.spendBurst (b : Budget) (f n : Nat) (x : Flow) (slack : Bool) : Budget :=
  let act := actKey kindFlow f
  let b := if slack then b else b.spend act 2 1
  let b := b.spend act 0 ((if x.dst = 2 then (4 * n + 2) / 3 else 0) + (if x.src = 2 then n else 0))
  let b := b.spend act 5 (if x.src = 1 then n else 0)
  let b := b.spend act 6 (if x.dst = 1 then n else 0)
  b.spend act 4 (if x.dst = 0 then n else 0)

/-- BURST_ADMISSION (R20, R440). -/
def execBurstAdmission (t : Nat) (s : State) : Host.Outcome State Fault Refusal :=
  happens t (fun s =>
    if 4096 ≤ s.inFlight then s
    else
      match s.chooseFlow with
      | none => s
      | some (f, slack) =>
        match (s.flow f).ready with
        | none => s
        | some n =>
          let b := s.bud.spendBurst f n (s.flow f) slack
          let s := { s with bud := { b with aged := b.aged.del f },
                            rack := { s.rack with last := s.rack.last.set (s.flow f).priority f } }
          (s.issueBurst f n slack).flowSettle f) s

/-- Source addresses of the bytes of a burst (R439). -/
def Descr.sourceAt (d : Descr) (o n : Nat) : List Nat :=
  if d.control.testBit 1 then
    (span o n).map fun k => d.source + d.index.getD (k / d.element) 0 + k % d.element
  else span (d.source + o) n

/-- The Cellar source of a burst lies in regions and can be read, and so did its descriptor's index list (R420, R439).
DESIGN CHOICE, log entry 67. -/
def State.sourceOk (s : State) (d : Descr) (o n : Nat) : Bool :=
  if d.lost then false
  else if d.control.testBit 1 then
    (span (o / d.element) ((o + n - 1) / d.element - o / d.element + 1)).all fun i =>
      let a := d.source + d.index.getD i 0
      s.inRegion a d.element && s.cellarReadable a d.element
  else s.inRegion (d.source + o) n && s.cellarReadable (d.source + o) n

/-- A burst of a flow touches the region at `base` (R430). -/
def Burst.touches (b : Burst) (x : Flow) (d : Descr) (base : Nat) (r : Region) : Bool :=
  (x.dst == 2 && r.meets base (d.dest + b.offset) b.size) ||
    (x.src == 2 && (d.hostReads b.offset b.size).any fun e => r.meets base e.1 e.2)

/-- Some burst in flight touches the region at `base`. -/
def State.regionBusy (s : State) (base : Nat) (r : Region) : Bool :=
  s.rack.flows.any fun e => match e.2.cur with
    | some m => m.flight.any fun b => b.touches e.2 m.desc base r
    | none => false

/-- The bursts in flight that touch a region which is being freed are granted their completion (R73, R430). -/
def State.grantBursts (s : State) (base : Nat) (r : Region) : State :=
  let grant (x : Flow) (m : Moving) : Moving :=
    { m with flight := m.flight.map fun b => { b with granted := b.granted || b.touches x m.desc base r } }
  { s with rack := { s.rack with flows := s.rack.flows.mapVals fun _ x => { x with cur := x.cur.map (grant x) } } }

/-- A granted burst that touches a region which is being freed is still in flight. -/
def State.freeWaits (s : State) (base : Nat) (r : Region) : Bool :=
  s.rack.flows.any fun e => match e.2.cur with
    | some m => m.flight.any fun b => b.granted && b.touches e.2 m.desc base r
    | none => false

/-- Regions that are being freed, and that no granted burst touches any more, are gone: their CELLAR.FREE completes
(R73, R430). -/
def State.settleFrees (s : State) : State :=
  (s.regions.filter fun e => e.2.freeing && !s.freeWaits e.1 e.2).foldl (fun s e =>
    ({ s with regions := s.regions.del e.1 } : State).finishAll
      (s.startedCmds 0x1002 fun c => u64 c.payload 0 == e.1) .quiesced fun _ => 0) s

/-- A burst is answered with an error (R443, R444). -/
def State.burstFails (s : State) (f offset : Nat) : State :=
  let x := s.flow f
  match x.cur with
  | none => s
  | some m =>
    if !(m.flight.any fun b => b.offset == offset) then s
    else
      let low := match m.failed with
        | some o => min o offset
        | none => offset
      ((s.setFlow f { x with cur := some { m with
        flight := m.flight.filter fun b => b.offset != offset, failed := some low,
        late := if m.failed.isSome then m.late else m.issued == m.desc.length } }).flowSettle f).settleFrees

/-- A burst is answered (R438): its bytes are written at the destination. -/
def State.burstDone (s : State) (f offset : Nat) (data : List Byte) : State :=
  let x := s.flow f
  match x.cur with
  | none => s
  | some m =>
    match m.flight.find? fun b => b.offset == offset with
    | none => s
    | some b =>
      let d := m.desc
      let a := d.dest + offset
      let bad := !b.granted && ((x.src == 2 && !s.sourceOk d offset b.size) || (x.dst == 2 && !s.inRegion a b.size))
      if bad then s.burstFails f offset
      else
        let bytes := match x.src with
          | 0 => b.bytes
          | 1 => (data ++ leBytes b.size 0).take b.size
          | _ => (d.sourceAt offset b.size).map s.cellarMem.read
        let s := if x.dst = 0 then s
          else if x.dst = 2 && b.granted then s.keepCellar (s.cellarMem.writeBytes a bytes)
          else s.flowWrite x (x.dst == 2) a bytes
        ((s.setFlow f { x with
          moved := wrapAdd 64 x.moved b.size,
          cur := some { m with flight := m.flight.filter fun b => b.offset != offset,
                               data := m.data.set offset bytes } }).flowSettle f).settleFrees

/-- BURST_COMPLETION (R438): the burst at `offset` of the flow's descriptor is answered; `data` is what host memory
returns to a read. -/
def execBurstCompletion (t flow offset : Nat) (data : List Byte) (s : State) : Host.Outcome State Fault Refusal :=
  happens t (fun s => s.burstDone flow offset data) s

/-- BURST_ERROR (R443, R444). -/
def execBurstError (t flow offset : Nat) (s : State) : Host.Outcome State Fault Refusal :=
  happens t (fun s => s.burstFails flow offset) s

/-- HOST_READ_TIMEOUT (R443): host reads that have been outstanding for 10 ms fail. -/
def execHostReadTimeout (t flow : Nat) (s : State) : Host.Outcome State Fault Refusal :=
  happens t (fun s =>
    let x := s.flow flow
    match x.cur with
    | none => s
    | some m =>
      if x.src ≠ 1 then s
      else
        ((m.flight.filter fun b => decide (b.since + 10 * ticksPerMs ≤ s.now)).map Burst.offset).foldl
          (fun s o => s.burstFails flow o) s) s

/-! ## The gate (R446) -/

/-- Flow `f` takes its gate bit. -/
def State.flowTake (s : State) (f : Nat) (words : KMap Nat) : State :=
  let open_ := (words.get (0x8000 + f / 32 * 4) 0).testBit (f % 32)
  match s.rack.flows.find f with
  | none => s
  | some x =>
    match x.mode with
    | .enabled | .paused =>
      (s.setFlow f { x with gate := open_, gateRefused := false, mode := if open_ then .enabled else .paused,
                            readySince := if open_ && x.mode == .paused then s.now else x.readySince })
    | _ => s.setFlow f { x with gate := open_, gateRefused := true }

/-! ## Commands -/

/-- FLOW.CREATE (R434, R448). -/
def flowCreate (c : Cmd) (s : State) : VerbOut :=
  let p := c.payload
  let asked := u32 p 0
  let any := asked == 0xFFFFFFFF
  let n := if any then
      (lowestFree (fun n => s.flowExists n || s.namedEarlier c (.flow n)) 49152 0).getD 49152
    else asked
  let x : Flow := { fn := c.fn, src := u8 p 4, dst := u8 p 5, space := u8 p 6, check := u8 p 7, priority := u8 p 8,
                    noSnoop := u8 p 9 == 1, burst := u16 p 10, rate := u64 p 16, label := u64 p 24 }
  if (!any ∧ asked > 49151) ∨ x.src > 2 ∨ x.dst > 2 ∨ (x.src = 1 ∧ x.dst = 1) ∨ (!x.direct ∧ x.space > 1) ∨ x.check > 2 ∨
      x.priority > 7 ∨ u8 p 9 > 1 ∨ x.burst < 64 ∨ x.burst > 4096 ∨ x.burst % 64 ≠ 0 ∨ !zeros p 12 4 then
    .fail .badParam 0
  else if 49151 < n then .fail .noResource 0
  else if s.flowExists n then .fail .badState 0
  else .done .ok n (s.setFlow n x)

/-- FLOW_CREATE: `FLOW.CREATE` (R448). -/
def execFlowCreate (t fn tag : Nat) (s : State) : Host.Outcome State Fault Refusal :=
  verb t 0x1101 fn tag flowCreate s

/-- The declaration of a flow (R447). -/
def flowDecl (f : Nat) : Decl := { fam := 0x11, obj := f, group := f / 24576, first := 4000000, each := 500 }

/-- Domain PD_RACKING_k is on: one of flows 24,576k to 24,576k + 24,575 is ENABLED, PAUSED or QUIESCING, and so declares
its power (R447). -/
def State.pdRacking (s : State) (k : Nat) : Bool := s.domainOn 0x11 k

/-- A spare port is up and free (R461). -/
def State.spareUp (s : State) : Bool :=
  s.ports.any fun e => e.2.role == 2 && e.2.mode == .up && e.2.carrying.isNone

/-- FLOW.ENABLE (R22, R61, R74, R447, R449, R461): it waits for a quiescence that runs.
DESIGN CHOICE, log entry 141. -/
def flowEnable (c : Cmd) (s : State) : VerbOut :=
  let p := c.payload
  let f := u32 p 0
  let x := s.flow f
  let act := actKey kindFlow f
  let rate := if u64 p 8 = 0 then x.rate else u64 p 8
  if f > 49151 ∨ !zeros p 4 4 then .fail .badParam 0
  else if !s.flowExists f ∨ (x.dst = 0 ∧ x.bind.isNone) then .fail .badState 0
  else if x.mode = .quiescing then .wait
  else if x.mode = .enabled then .done .ok s.now (s.setShadowBit (0x8000 + f / 32 * 4) (f % 32) x.gate)
  else
    let asks := !s.holds act || u64 p 8 != 0
    let r := if !asks then some s
      else if x.dst = 0 && !s.spareUp then none
      else s.allot act (s.flowDemand f rate)
    match r with
    | none => .fail .noAllotment 0
    | some s1 =>
      match s1.declare [flowDecl f] with
      | .error e => .fail .noEnergy e
      | .ok s2 =>
        let y := { x with mode := .enabled, gate := true, gateRefused := false, rate, haltCause := 0, haltDesc := 0,
                          slack := 0, readySince := s.now }
        .done .ok s.now (((s2.setFlow f y).setShadowBit (0x8000 + f / 32 * 4) (f % 32) true).flowStart f)

/-- FLOW_ENABLE: `FLOW.ENABLE` (R449). -/
def execFlowEnable (t fn tag : Nat) (s : State) : Host.Outcome State Fault Refusal :=
  verb t 0x1102 fn tag flowEnable s

/-- The command `seq` has ended: what it came to is already in `s`. -/
def State.flowStop (s : State) (c : Cmd) (f reason : Nat) : VerbOut :=
  let s1 := s.markStarted c 0 []
  .running 0 [] (s1.flowQuiesce f reason)

/-- FLOW.DISABLE and FLOW.DESTROY (R61, R74, R445, R450): a disable of a flow that is quiescing completes with that
quiescence, one of a flow that is DISABLED at once, and a destroy waits for the quiescence. -/
def flowDisable (destroy : Bool) (c : Cmd) (s : State) : VerbOut :=
  let f := u32 c.payload 0
  if f > 49151 then .fail .badParam 0
  else if !s.flowExists f then .fail .badState 0
  else if (s.flow f).mode = .quiescing then (if destroy then .wait else .running 0 [] s)
  else if !destroy ∧ (s.flow f).mode = .disabled then .done .quiesced 0 s
  else
    match destroy, s.producersOf f with
    | true, k :: _ => .fail .badState (consumerWord k)
    | _, _ => s.flowStop c f (if destroy then 2 else 1)

/-- FLOW_DISABLE: `FLOW.DISABLE` (R450). -/
def execFlowDisable (t fn tag : Nat) (s : State) : Host.Outcome State Fault Refusal :=
  verb t 0x1103 fn tag (flowDisable false) s

/-- FLOW_DESTROY: `FLOW.DESTROY` (R450). -/
def execFlowDestroy (t fn tag : Nat) (s : State) : Host.Outcome State Fault Refusal :=
  verb t 0x1104 fn tag (flowDisable true) s

/-- Descriptors queued and not complete. -/
def Flow.queued (x : Flow) : Nat :=
  bit x.cur.isSome + x.fetched.length + (x.chain.map Prod.snd).getD 0 + x.chains.foldl (fun n e => n + e.2) 0

/-- FLOW.POST_DESCRIPTORS (R437, R451). -/
def flowPostDescriptors (c : Cmd) (s : State) : VerbOut :=
  let p := c.payload
  let f := u32 p 0
  let x := s.flow f
  if f > 49151 ∨ u32 p 4 = 0 ∨ u32 p 4 > 65535 ∨ u64 p 8 % 64 ≠ 0 then .fail .badParam 0
  else if !s.flowExists f ∨ x.direct then .fail .badState 0
  else if x.mode = .quiescing then .wait
  else if 16 ≤ x.chains.length then .fail .noResource 0
  else
    let y := { x with chains := x.chains ++ [(u64 p 8, u32 p 4)] }
    .done .ok y.queued (s.setFlow f y)

/-- FLOW_POST_DESCRIPTORS: `FLOW.POST_DESCRIPTORS` (R451). -/
def execFlowPostDescriptors (t fn tag : Nat) (s : State) : Host.Outcome State Fault Refusal :=
  verb t 0x1105 fn tag flowPostDescriptors s

/-- STATE of R445. -/
def FlowMode.code : FlowMode → Nat
  | .created => 1 | .enabled => 2 | .paused => 3 | .disabled => 4 | .halted => 5 | .quiescing => 6

/-- The 64 bytes of `FLOW.GET_STATUS` (R452). -/
def State.flowStatus (s : State) (f : Nat) : List Byte :=
  let x := s.flow f
  pack [(4, f), (1, x.mode.code), (1, x.haltCause), (2, if x.gateRefused then Status.noAllotment.code else 0),
    (1, bit x.gate + 2 * bit (s.holds (actKey kindFlow f)) + 4 * bit (!(s.producersOf f).isEmpty) + 8 * bit x.bind.isSome),
    (1, x.priority), (1, min 7 (x.priority + s.bud.aged.get f 0)), (1, x.chains.length), (4, x.queued), (8, x.moved),
    (8, x.descsDone), (8, x.haltDesc), (4, (x.cur.map fun m => m.flight.length).getD 0), (4, x.errors), (8, x.slack),
    (8, x.label)]

/-- FLOW.GET_STATUS (R452). -/
def flowGetStatus (c : Cmd) (s : State) : VerbOut :=
  let f := u32 c.payload 0
  if f > 49151 then .fail .badParam 0
  else if !s.flowExists f then .fail .badState 0
  else .data (s.flowStatus f) 0 s

/-- FLOW_GET_STATUS: `FLOW.GET_STATUS` (R452). -/
def execFlowGetStatus (t fn tag : Nat) (s : State) : Host.Outcome State Fault Refusal :=
  verb t 0x1106 fn tag flowGetStatus s

end Sys2Proof.Machine
end

