-- ==== Sys2Proof/Machine/Stream.lean ====
section
/-! DEFINITION. The stream ports and the STREAM family (R455 to R468). -/

namespace Sys2Proof.Machine

/-! ## Transmission (R459, R460) -/

/-- Level of a flow's token bucket now, at the stream rate that `FLOW.ENABLE` admitted, at most 64 KiB (R460). -/
def State.bucket (s : State) (f : Nat) (b : Binding) : Nat :=
  min (65536 * ticksPerSecond) (b.level + (s.alloc (actKey kindFlow f)).rates.get 4 0 * (s.now - b.levelAt))

/-- What a packet takes from the bucket: its wire bytes (R460, R461). -/
def Binding.price (b : Binding) (k : Packet) : Nat := (k.payload.length + b.overhead) * ticksPerSecond

/-- A flow bound to port `p` has a packet ready that its bucket covers. -/
def State.covered (s : State) (p f : Nat) : Bool :=
  match (s.flow f).bind with
  | some b => b.port == p && (match b.next f with
    | some (k, _) => decide (b.price k ≤ s.bucket f b)
    | none => false)
  | none => false

/-- Some other flow of port `p` has a packet that its bucket covers. -/
def State.othersCovered (s : State) (p f : Nat) : Bool :=
  s.rack.flows.any fun e => e.1 != f && s.covered p e.1

/-- Flow `f` may send its next packet: within its bucket, one packet at a time in turn with the other flows of the port,
or from slack, which no such flow may need (R440, R460). DESIGN CHOICE, log entry 68. -/
def State.maySend (s : State) (p f : Nat) : Bool :=
  if s.covered p f then (s.port p).last != some f || !s.othersCovered p f
  else s.bud.stage == 0 && !s.othersCovered p f

/-- The binding after a packet: its bucket has paid, where it could, and what waits opens the next packet. -/
def State.paid (s : State) (f : Nat) (b : Binding) (k : Packet) (b' : Binding) : Binding :=
  let n := s.bucket f b
  { b' with level := if b.price k ≤ n then n - b.price k else n, levelAt := s.now, openAt := s.now }

/-- PACKET_TRANSMIT (R459, R460): a port sends the next packet of a flow, where one is due. -/
def execPacketTransmit (t port flow : Nat) (s : State) : Host.Outcome State Fault Refusal :=
  happens t (fun s =>
    let x := s.flow flow
    match x.bind with
    | none => s
    | some b =>
      if b.port != port || (s.port port).mode != .up then s
      else
        match b.next flow with
        | none => s
        | some (k, b') =>
          if !s.maySend port flow then s
          else
            ((s.setFlow flow { x with bind := some (s.paid flow b k b') }).setPort port
              { s.port port with last := some flow }).sendPacket port b k false) s

/-- PACKET_FLUSH_TIMEOUT (R459): FLUSH_US has passed since the first byte of the open packet. -/
def execPacketFlushTimeout (t flow : Nat) (s : State) : Host.Outcome State Fault Refusal :=
  happens t (fun s =>
    let x := s.flow flow
    match x.bind with
    | none => s
    | some b =>
      if b.queue.isEmpty || decide (s.now < b.openAt + b.flushUs * ticksPerUs) then s
      else s.setFlow flow { x with bind := some { b with flush := true } }) s

/-! ## Heartbeats and received frames (R455, R462) -/

/-- Flows bound to port `p`. -/
def State.boundTo (s : State) (p : Nat) : List Nat :=
  (s.rack.flows.filter fun e => (e.2.bind.map Binding.port) == some p).map Prod.fst

/-- The next heartbeat of a port is due: 99 µs or more after the last (R462). -/
def Port.beatDue (x : Port) (now : Nat) : Bool :=
  match x.lastBeat with
  | some a => decide (a + 99 * ticksPerUs ≤ now)
  | none => true

/-- HEARTBEAT_TIMER (R462). -/
def execHeartbeatTimer (t port : Nat) (s : State) : Host.Outcome State Fault Refusal :=
  happens t (fun s =>
    let x := s.port port
    if x.mode != .up || x.role == 0 || !x.beatDue s.now then s
    else
      let body := pack [(1, x.role), (1, x.carrying.getD 255), (1, s.grade), (1, 0), (4, (s.boundTo port).length),
        (8, x.packets)]
      let k : Packet := { flow := 0xFFFFFFFF, seq := x.heartbeats, format := 0xFF, stamp := s.stampNow,
                          flags := 4 * bit s.provisional, payload := body }
      let d : Datagram := { ipv6 := x.flags.testBit 0, vlan := if x.flags.testBit 1 then some (0, x.hbVlan) else none,
                            dscp := 0, dstMac := x.hbMac, dstIp := x.hbIp, srcUdp := x.hbSrcUdp, dstUdp := x.hbDstUdp }
      let w := if d.ipv6 then 154 else 134
      (s.setPort port { x with heartbeats := wrapAdd 64 x.heartbeats 1, wireBytes := wrapAdd 64 x.wireBytes (16 + w),
                               lastBeat := some s.now }).emit
        (.ethFrame port (d.frame (s.faceOf port) (k.header port ++ body)))) s

/-- A received frame is discarded and counted (R455). -/
def State.discardFrame (s : State) (p : Nat) : State :=
  s.setPort p { s.port p with discarded := wrapAdd 32 (s.port p).discarded 1 }

/-- A received frame is answered with `frame` (R455). -/
def State.answerFrame (s : State) (p : Nat) (frame : List Byte) : State :=
  (s.setPort p { s.port p with answered := wrapAdd 32 (s.port p).answered 1 }).emit (.ethFrame p frame)

/-- ARP_REQUEST_RECEIVED (R455). -/
def execArpRequestReceived (t port : Nat) (senderMac senderIp target : List Byte) (s : State) :
    Host.Outcome State Fault Refusal :=
  happens t (fun s =>
    let a := s.faceOf port
    if (s.port port).mode != .up then s
    else if target != a.ip4 then s.discardFrame port
    else
      s.answerFrame port (etherHead senderMac a.mac none 0x0806 ++
        packBe [(2, 1), (2, 0x0800), (1, 6), (1, 4), (2, 2)] ++ a.mac ++ a.ip4 ++ senderMac ++ senderIp)) s

/-- NEIGHBOUR_SOLICITATION_RECEIVED (R455): answered with a solicited advertisement. -/
def execNeighbourSolicitationReceived (t port : Nat) (senderMac senderIp target : List Byte) (s : State) :
    Host.Outcome State Fault Refusal :=
  happens t (fun s =>
    let a := s.faceOf port
    if (s.port port).mode != .up then s
    else if target != a.ip6 then s.discardFrame port
    else
      let icmp (c : Nat) : List Byte :=
        packBe [(1, 136), (1, 0), (2, c), (4, 0x60000000)] ++ a.ip6 ++ packBe [(1, 2), (1, 1)] ++ a.mac
      let c := inetSum (a.ip6 ++ senderIp ++ packBe [(4, 32), (3, 0), (1, 58)] ++ icmp 0)
      s.answerFrame port (etherHead senderMac a.mac none 0x86DD ++
        packBe [(4, 6 * 2 ^ 28), (2, 32), (1, 58), (1, 255)] ++ a.ip6 ++ senderIp ++ icmp c)) s

/-- PAUSE_FRAME_RECEIVED (R455). -/
def execPauseFrameReceived (t port : Nat) (s : State) : Host.Outcome State Fault Refusal :=
  happens t (fun s =>
    if (s.port port).mode != .up then s
    else s.setPort port { s.port port with pauseRx := wrapAdd 64 (s.port port).pauseRx 1 }) s

/-- OTHER_FRAME_RECEIVED (R455). -/
def execOtherFrameReceived (t port : Nat) (s : State) : Host.Outcome State Fault Refusal :=
  happens t (fun s => if (s.port port).mode != .up then s else s.discardFrame port) s

/-! ## Failover (R463, R464) -/

/-- Moves a stream allotment from port `p` to port `q`. -/
def State.movePortRates (s : State) (p q : Nat) : State :=
  let move (_ : Nat) (a : Alloc) : Alloc :=
    match a.rates.find (96 + p) with
    | some r => { a with rates := (a.rates.del (96 + p)).set (96 + q) r }
    | none => a
  { s with bud := { s.bud with allocs := s.bud.allocs.mapVals move } }

/-- Resends what the failed port sent in the last 2 µs; the first packet of each flow has FAILOVER set.
DESIGN CHOICE, log entry 69. -/
def State.replay (s : State) (q : Nat) (ks : List Packet) : State :=
  ks.foldl (fun s k =>
    let x := s.flow k.flow
    match x.bind with
    | none => s
    | some b =>
      let k' := { k with flags := k.flags ||| (128 + 64 * bit b.failover) }
      (s.setFlow k.flow { x with bind := some { b with failover := false } }).sendPacket q b k' true) s

/-- A port fails (R463, R464, R513, R522): cause 1 transmit fault, 2 link down, 3 remote fault.
DESIGN CHOICE, log entry 69. -/
def State.portFail (s : State) (p cause : Nat) (inj : Bool) : State :=
  let x := s.port p
  let u : Unit3 := ⟨11, 0, p⟩
  let info : FaultInfo := { logical := p, injected := inj }
  if p > 4 || s.isRetired u then s
  else
    let s := s.setPort p { x with mode := .failed }
    let spare := (List.range 5).find? fun q =>
      (s.port q).role == 2 && (s.port q).mode == .up && (s.port q).carrying.isNone
    let flows := s.boundTo p
    match spare, x.role == 1 with
    | some q, true =>
      let ks := x.recent.filter fun k => decide (s.now ≤ k.sent + replayTicks)
      let s := s.setPort q { s.port q with carrying := some p }
      let s := flows.foldl (fun s f =>
        s.setFlow f { s.flow f with bind := (s.flow f).bind.map fun b => { b with port := q, failover := true } }) s
      let s := (s.movePortRates p q).replay q ks
      let s := s.event 0x1201 p (q + 2 ^ 8 * cause + 2 ^ 16 * flows.length + 2 ^ 48 * min ks.length 65535)
      s.faultMasked u { info with takenBy := q }
    | _, _ => s.faultIn u info

/-- PORT_FAILURE (R463). -/
def execPortFailure (t port cause : Nat) (s : State) : Host.Outcome State Fault Refusal :=
  happens t (fun s => if (s.port port).mode == .up then s.portFail port cause false else s) s

/-! ## Commands -/

/-- PORT_LINK_UP (R466). -/
def execPortLinkUp (t port : Nat) (s : State) : Host.Outcome State Fault Refusal :=
  happens t (fun s =>
    if (s.port port).mode == .training then
      (s.setPort port { s.port port with mode := .up }).finishAll
        (s.startedCmds 0x1201 fun c => u8 c.payload 0 == port) .ok fun _ => 0
    else s) s

/-- Domain PD_SP_p is on: its port has been brought up and declares its power (R465). -/
def State.pdPort (s : State) (p : Nat) : Bool := s.domainOn 0x12 p

/-- STREAM.CONFIGURE_PORT (R465, R466). DESIGN CHOICE, log entry 143. -/
def streamConfigurePort (c : Cmd) (s : State) : VerbOut :=
  let p := c.payload
  let n := u8 p 0
  let role := u8 p 1
  let fl := u8 p 2
  let x := s.port n
  if n > 4 ∨ role > 2 ∨ fl > 3 ∨ !zeros p 58 6 ∨ (role ≠ 0 ∧ (u8 p 3 = 0 ∨
      (fl.testBit 1 ∧ (u16 p 10 = 0 ∨ u16 p 10 > 4094)) ∨ (!fl.testBit 0 ∧ !zeros p 44 12))) then .fail .badParam 0
  else
    match s.boundTo n with
    | f :: _ => .fail .badState (consumerWord (0x11, f))
    | [] =>
      if x.mode = .failed ∨ (role = 2 ∧ (List.range 5).any fun q => q != n && (s.port q).role == 2) then .fail .badState 0
      else if role = 0 then
        .done .quiesced 0 ((s.setPort n { x with mode := .off, role := 0, carrying := none }).undeclare 0x12 n)
      else
        match s.declare [{ fam := 0x12, obj := n, group := n, first := 4500000, each := 4500000 }] with
        | .error e => .fail .noEnergy e
        | .ok s1 =>
          let y := { x with
            mode := if x.mode = .up then .up else .training, role, flags := fl, ttl := u8 p 3,
            mac := (p.drop 4).take 6, hbVlan := u16 p 10, ip4 := (p.drop 12).take 4, ip6 := (p.drop 16).take 16,
            hbMac := (p.drop 32).take 6, hbDstUdp := u16 p 38, hbIp := (p.drop 40).take 16, hbSrcUdp := u16 p 56 }
          if x.mode = .up then .done .ok 0 (s1.setPort n y) else .running 0 [] (s1.setPort n y)

/-- STREAM_CONFIGURE_PORT: `STREAM.CONFIGURE_PORT` (R466). -/
def execStreamConfigurePort (t fn tag : Nat) (s : State) : Host.Outcome State Fault Refusal :=
  verb t 0x1201 fn tag streamConfigurePort s

/-- Longest frame with a payload of `n` bytes, with its FCS (R455, R467). -/
def frameBytes (fl n : Nat) : Nat :=
  14 + (if fl.testBit 1 then 4 else 0) + (if fl.testBit 0 then 40 else 20) + 8 + 64 + n + 4

/-- STREAM.BIND_FLOW (R467). DESIGN CHOICE, log entry 143. -/
def streamBindFlow (c : Cmd) (s : State) : VerbOut :=
  let p := c.payload
  let f := u32 p 0
  let n := u8 p 4
  let fl := u8 p 5
  let x := s.flow f
  let max := u16 p 10
  let unbind := fl.testBit 3
  let b : Binding := {
    port := n, flags := fl, dscp := u8 p 6, pcp := u8 p 7, vlan := u16 p 8, payloadMax := max, srcUdp := u16 p 12,
    dstUdp := u16 p 14, dstMac := (p.drop 16).take 6, flushUs := u16 p 22, dstIp := (p.drop 24).take 16 }
  if f > 49151 ∨ n > 4 ∨ fl > 15 ∨ !zeros p 40 8 ∨ (!unbind ∧ (b.dscp > 63 ∨ b.pcp > 7 ∨
      (fl.testBit 1 ∧ (b.vlan = 0 ∨ b.vlan > 4094)) ∨ b.flushUs = 0 ∨ b.flushUs > 1000 ∨ max < 252 ∨ max % 12 ≠ 0 ∨
      frameBytes fl max > 9216 ∨ (!fl.testBit 0 ∧ !zeros p 28 12) ∨
      (fl.testBit 2 ∧ s.flowExists f ∧ x.src ≠ 2))) then .fail .badParam 0
  else if !s.flowExists f ∨ (x.mode ≠ .created ∧ x.mode ≠ .disabled) ∨ x.dst ≠ 0 then .fail .badState 0
  else if unbind then .done .ok 0 (s.setFlow f { x with bind := none })
  else if (s.port n).role ≠ 1 ∨ (s.port n).mode ≠ .up then .fail .badState 0
  else .done .ok 0 (s.setFlow f { x with bind := some { b with levelAt := s.now } })

/-- STREAM_BIND_FLOW: `STREAM.BIND_FLOW` (R467). -/
def execStreamBindFlow (t fn tag : Nat) (s : State) : Host.Outcome State Fault Refusal :=
  verb t 0x1202 fn tag streamBindFlow s

/-- STATE of R468. -/
def PortMode.code : PortMode → Nat
  | .off => 0 | .training => 1 | .up => 2 | .failed => 3 | .quiescing => 4

/-- STREAM.GET_STATUS (R468). -/
def streamGetStatus (c : Cmd) (s : State) : VerbOut :=
  let p := c.payload
  let n := u8 p 0
  let x := s.port n
  if n > 4 ∨ !zeros p 1 3 then .fail .badParam 0
  else
    .data (pack [(1, n), (1, x.role), (1, x.mode.code), (1, x.carrying.getD 255), (4, (s.boundTo n).length),
      (8, x.packets), (8, x.wireBytes), (8, x.heartbeats), (8, x.pauseRx), (4, x.answered), (4, x.discarded),
      (8, x.replayed), (8, s.bud.allocs.foldl (fun k e => k + e.2.rates.get (96 + n) 0) 0)]) 0 s

/-- STREAM_GET_STATUS: `STREAM.GET_STATUS` (R468). -/
def execStreamGetStatus (t fn tag : Nat) (s : State) : Host.Outcome State Fault Refusal :=
  verb t 0x1203 fn tag streamGetStatus s

end Sys2Proof.Machine
end

