-- ==== Sys2Proof/Machine/Disp.lean ====
section
/-! DEFINITION. The display engine and the DISP family (R470 to R489). A frame is composed at the latch line
that begins its composition. -/

namespace Sys2Proof.Machine

/-- Replaces the display. -/
def State.setDisp (s : State) (d : Disp) : State := { s with disp := d }

/-- Layer `l`. -/
def Disp.layer (d : Disp) (l : Nat) : DispLayer := d.layers.get l {}

/-- Placement of layer `l`. -/
def Disp.place (d : Disp) (l : Nat) : DispPlace := d.places.get l {}

/-- H_TOTAL. -/
def DispTiming.hTotal (t : DispTiming) : Nat := t.hActive + t.hFront + t.hSync + t.hBack

/-- V_TOTAL. -/
def DispTiming.vTotal (t : DispTiming) : Nat := t.vActive + t.vFront + t.vSync + t.vBack

/-! ## Composition (R473 to R475) -/

/-- One component blended over another, with convergent rounding. -/
def blend8 (a src dst : Nat) : Nat := roundEven (a * src + (255 - a) * dst) 255

/-- An ARGB value over an RGB value. -/
def blend (src dst : Nat) : Nat :=
  let a := bits src 31 24
  blend8 a (bits src 7 0) (bits dst 7 0) + 256 * blend8 a (bits src 15 8) (bits dst 15 8) +
    65536 * blend8 a (bits src 23 16) (bits dst 23 16)

/-- What window index `i` of `n` covers of `k` items: the first, and how many (at least one) (R474). -/
def covers (i n k : Nat) : Nat × Nat :=
  let a := i * k / n
  (a, max 1 ((i + 1) * k / n - a))

/-- Palette index of a count (R474). -/
def DispLayer.index (l : DispLayer) (c : Nat) : Nat :=
  let v := c >>> l.shift
  min 1023 (if l.flags.testBit 1 then Nat.log2 ((1 + v) ^ 64) else v)

/-- The density layer's pixel (R474); `cells` are the plane's cells now. -/
def DispLayer.density (l : DispLayer) (cells : KMap Nat) (x y : Nat) : Nat :=
  let c := covers x l.width l.colCount
  let r := covers y l.height l.rowCount
  let counts := (span (l.rowFirst + r.1) r.2).flatMap fun i =>
    (span (l.colFirst + c.1) c.2).map fun j => cells.get (i * 4096 + j) 0
  l.index (counts.foldl max 0)

/-- The L16 level of a point of a trace result (R186). -/
def Trace.pointLevel (x : Trace) (w : Nat) : Int := if x.output = 1 then signed 16 w else levelOf w

/-- Minimum and maximum level of each window column of a trace (R475). DESIGN CHOICE, log entry 70. -/
def Trace.columns (x : Trace) (width : Nat) : List (Int × Int) :=
  match x.result with
  | none => []
  | some r =>
    (List.range width).map fun i =>
      let c := covers i width r.points.length
      let ls := ((r.points.drop c.1).take c.2).map x.pointLevel
      (ls.foldl (fun a b => if b < a then b else a) (ls.headD 0), ls.foldl (fun a b => if a < b then b else a) (ls.headD 0))

/-- Rows of a column's span. -/
def DispLayer.rows (l : DispLayer) (c : Int × Int) : Int × Int := ((l.top - c.2) / l.step, (l.top - c.1) / l.step)

/-- The column's rows, extended to meet the span of the column before it. -/
def DispLayer.drawn (l : DispLayer) (cols : List (Int × Int)) (x : Nat) : Option (Int × Int) :=
  match cols[x]? with
  | none => none
  | some c =>
    let r := l.rows c
    match x, cols[x - 1]? with
    | 0, _ | _, none => some r
    | _, some p =>
      let q := l.rows p
      some (if q.2 + 1 < r.1 then q.2 + 1 else r.1, if r.2 < q.1 - 1 then q.1 - 1 else r.2)

/-- The palette entry of the topmost trace drawn at a window pixel (R473, R475). -/
def Disp.traceAt (d : Disp) (x y : Nat) : Option Nat :=
  let l := d.layer 1
  let hit (cols : List (Int × Int)) : Bool := match l.drawn cols x with
    | some r => decide (r.1 ≤ y ∧ y ≤ r.2)
    | none => false
  let ks := (List.range d.columns.length).filter fun k => hit (d.columns.getD k [])
  ks.getLast?.map fun k => d.palette.get (1024 + k) 0

/-- The overlay is drawn in this frame. -/
def Disp.overlayOn (d : Disp) : Bool := (d.place 2).visible && !d.badStride

/-- Row of a layer's window at active line `y`. -/
def Disp.rowOf (d : Disp) (l : Nat) (height y : Nat) : Option Nat :=
  let r := (y : Int) - (d.place l).y
  if 0 ≤ r ∧ r < height then some r.toNat else none

/-- Column of a layer's window at active pixel `x`. -/
def Disp.colOf (d : Disp) (l : Nat) (width x : Nat) : Option Nat :=
  let c := (x : Int) - (d.place l).x
  if 0 ≤ c ∧ c < width then some c.toNat else none

/-- First byte of the overlay's window row `r`. -/
def Disp.overlayRow (d : Disp) (r : Nat) : Nat := (d.place 2).buffer + r * (d.place 2).stride

/-- The overlay's row at active line `y` can be fetched (R480). -/
def State.overlayLineOk (s : State) (y : Nat) : Bool :=
  let d := s.disp
  match d.rowOf 2 (d.layer 2).height y with
  | none => true
  | some r =>
    let a := d.overlayRow r
    let n := 4 * (d.layer 2).width
    s.inRegion a n && s.cellarReadable a n

/-- Lays a pixel, if a layer has one, over what is below it. -/
def outside (src : Option Nat) (dst : Nat) : Nat :=
  match src with
  | some v => blend v dst
  | none => dst

/-- The composed pixel (R473). -/
def State.pixel (s : State) (cells : KMap Nat) (x y : Nat) : Nat :=
  let d := s.disp
  let win (l w h : Nat) : Option (Nat × Nat) :=
    if !(d.place l).visible then none
    else
      match d.colOf l w x, d.rowOf l h y with
      | some c, some r => some (c, r)
      | _, _ => none
  let l0 := d.layer 0
  let p0 := (win 0 l0.width l0.height).map fun c => d.palette.get (l0.density cells c.1 c.2) 0
  let p1 := (win 1 (d.layer 1).width (d.layer 1).height).bind fun c => d.traceAt c.1 c.2
  let opaque_ := (d.layer 2).flags.testBit 0
  let p2 := if d.faulted || d.badStride then none
    else (win 2 (d.layer 2).width (d.layer 2).height).map fun c =>
      let v := leNat (s.cellarMem.readBytes (d.overlayRow c.2 + 4 * c.1) 4)
      if opaque_ then v % 2 ^ 24 + 255 * 2 ^ 24 else v
  let p3 := (win 3 64 64).map fun c => leNat (((d.layer 3).image.drop (4 * (64 * c.2 + c.1))).take 4)
  outside p3 (outside p2 (outside p1 (outside p0 (d.timing.getD {}).background)))

/-- Line `y` of a frame; the background over its whole width where the overlay cannot be fetched (R480). -/
def State.composeLine (s : State) (cells : KMap Nat) (y : Nat) : List Nat :=
  let d := s.disp
  let t := d.timing.getD {}
  let inOverlay := (d.rowOf 2 (d.layer 2).height y).isSome
  if d.overlayOn && inOverlay && (d.faulted || !s.overlayLineOk y) then List.replicate t.hActive t.background
  else (List.range t.hActive).map fun x => s.pixel cells x y

/-- Composes a frame into the frame buffer (R476). DESIGN CHOICE, log entry 70. -/
def State.compose (s : State) : State :=
  let d := s.disp
  let cells := (s.decayed (d.layer 0).plane).cells
  s.setDisp { d with buffer := (List.range (d.timing.getD {}).vActive).map (s.composeLine cells) }

/-! ## The latch (R475, R478 to R480, R482) -/

/-- A layer's placement in an occurrence of group 22 (R482). -/
def placeOf (words : KMap Nat) (l : Nat) : DispPlace :=
  let o := 0x4100 + l * 0x20
  { buffer := words.get o 0 + 2 ^ 32 * (words.get (o + 4) 0 % 65536), stride := words.get (o + 8) 0 % 2 ^ 24,
    x := signed 16 (words.get (o + 12) 0), y := signed 16 (words.get (o + 12) 0 / 65536),
    visible := (words.get (o + 16) 0).testBit 0 }

/-- The display takes an occurrence of group 22; a replaced BUFFER is retired while the display runs (R479, R482). -/
def State.dispTake (s : State) (words : KMap Nat) : State :=
  let d := s.disp
  let places := (List.range 4).foldl (fun (m : KMap DispPlace) l => m.set l (placeOf words l)) d.places
  let old := (d.place 2).buffer
  let new := (placeOf words 2).buffer
  let s := s.setDisp { d with places, faulted := d.faulted && old == new }
  if d.mode == .running && old != new then s.event 0x1305 2 old else s

/-- EV_LAYER_FAULT, at most once in a frame (R480, R489). -/
def State.layerFault (s : State) (line cause : Nat) : State :=
  let d := s.disp
  let s := s.setDisp { d with faults := satAdd 32 d.faults 1, faultSeen := true }
  if d.faultSeen then s else s.event 0x1306 2 (line + 2 ^ 16 * cause)

/-- First active line of the overlay's window. -/
def Disp.overlayTop (d : Disp) : Nat := (d.place 2).y.toNat

/-- Settings and palettes completed since the last latch come into force, with the results of the traces (R475,
R478). DESIGN CHOICE, log entry 70. -/
def State.latchSettings (s : State) : State :=
  let d := s.disp
  let layers := d.nextLayers.foldl (fun (m : KMap DispLayer) e => m.set e.1 e.2) d.layers
  let palette := d.nextPalette.foldl (fun (m : KMap Nat) e => m.set e.1 e.2) d.palette
  let l1 := layers.get 1 {}
  let columns := (maskBits 64 l1.traces).map fun n => (s.trace n).columns l1.width
  s.setDisp { d with layers, palette, nextLayers := [], nextPalette := [], columns }

/-- Checks the latched STRIDE, notes the region of BUFFER, and composes (R476, R482). -/
def State.latchOverlay (s : State) : State :=
  let d := s.disp
  let p := d.place 2
  let bad := p.visible && (p.stride % 64 != 0 || decide (p.stride < 4 * (d.layer 2).width))
  let s := s.setDisp { d with badStride := bad, faultSeen := false, late := [], latched := d.frame,
                              bufferHeld := s.inRegion p.buffer 4 }
  (if bad then s.layerFault d.overlayTop 3 else s).compose

/-- The commands whose settings have come into force complete (R485, R486). -/
def State.settingsDone (s : State) : State :=
  (s.finishAll (s.startedCmds 0x1303 fun _ => true) .ok fun _ => 0).finishAll
    (s.startedCmds 0x1304 fun _ => true) .ok fun _ => 0

/-- LATCH_LINE (R475, R478, R479, R485, R486, R489): once for each frame, after the frame's last active line; FRAME just
scanned is the number of frames before it. DESIGN CHOICE, log entry 70. -/
def execLatchLine (t : Nat) (s : State) : Host.Outcome State Fault Refusal :=
  happens t (fun s =>
    let d := s.disp
    if d.mode != .running || d.latched == d.frame then s
    else
      let held := s.groupHeld 22
      let s := (s.setDisp { d with vblank := s.stampNow }).latchSettings
      let s := s.event 0x1301 0 ((d.frame - 1) % 2 ^ 48)
      let s := if held then s
        else
          match s.fcw.occ.find 22 with
          | some o => (s.dispTake o.words).occApplied 22
          | none => s
      s.latchOverlay.settingsDone) s

/-- The frame that line `y` belongs to: after the last active line FRAME already counts the frame (R487, R489).
DESIGN CHOICE, log entry 70. -/
def Disp.frameAt (d : Disp) (y : Nat) : Nat := if y < (d.timing.getD {}).vActive then d.frame else d.frame - 1

/-- MATCH_LINE_REACHED (R489): at most once in a frame. -/
def execMatchLineReached (t : Nat) (s : State) : Host.Outcome State Fault Refusal :=
  happens t (fun s =>
    let d := s.disp
    let t := d.timing.getD {}
    let n := d.frameAt t.matchLine
    if (d.mode == .running || d.mode == .quiescing) && decide (t.matchLine < t.vTotal) && d.matched != some n then
      (s.setDisp { d with matched := some n }).event 0x1302 0 (n % 2 ^ 48)
    else s) s

/-- Domain PD_DISP_0, the compositor, frame buffer and layer stores, or PD_DISP_1, scan-out and the DisplayPort PHY,
is on: both are while the display is enabled (R481). -/
def State.pdDisp (s : State) (n : Nat) : Bool := decide (n < 2) && s.domainOn 0x13 0

/-- The display comes to rest (R481, R488); settings that waited for a latch come into force at once (R485, R486). -/
def State.dispRest (s : State) : State :=
  let s := s.latchSettings.settingsDone
  let d := s.disp
  let s := ((s.setDisp { d with mode := .disabled, lanes := 0, rate := 0 }).undeclare 0x13 0).release (actKey kindDisplay 0)
  s.finishAll (s.startedCmds 0x1306 fun _ => true) .quiesced fun _ => 0

/-- FRAME_END (R489): the frame that was composed has left, and FRAME counts it; a display that quiesces comes to
rest. -/
def execFrameEnd (t : Nat) (s : State) : Host.Outcome State Fault Refusal :=
  happens t (fun s =>
    let d := s.disp
    let t := d.timing.getD {}
    if !(d.mode == .running || d.mode == .quiescing) then s
    else
      let lines := ((List.range d.buffer.length).zip d.buffer).map fun e =>
        if d.late.contains e.1 then List.replicate t.hActive t.background else e.2
      let s := if d.latched != d.frame then s
        else
          ((s.setDisp { d with frame := d.frame + 1 }).emit (.displayFrame d.frame lines)).event 0x1303 0
            (d.frame % 2 ^ 48 + 2 ^ 48 * bit (!d.late.isEmpty))
      if d.mode == .quiescing then s.dispRest else s) s

/-- LINE_UNDERRUN (R477). -/
def execLineUnderrun (t line : Nat) (s : State) : Host.Outcome State Fault Refusal :=
  happens t (fun s =>
    let d := s.disp
    if !(d.mode == .running || d.mode == .quiescing) || d.latched != d.frame || d.late.contains line || decide ((d.timing.getD {}).vActive ≤ line) then s
    else
      let s := s.setDisp { d with late := d.late ++ [line], underruns := satAdd 32 d.underruns 1 }
      if d.late.isEmpty then s.event 0x1304 0 (line + 2 ^ 16 * (d.frame % 2 ^ 48)) else s) s

/-- OVERLAY_FETCH_FAULT (R480): the overlay's line cannot be fetched. -/
def execOverlayFetchFault (t line : Nat) (s : State) : Host.Outcome State Fault Refusal :=
  happens t (fun s =>
    let d := s.disp
    if !(d.mode == .running || d.mode == .quiescing) || !d.overlayOn || d.faulted || s.overlayLineOk line then s
    else
      let cause := if d.bufferHeld && !s.inRegion (d.place 2).buffer 4 then 1 else 2
      let t := d.timing.getD {}
      let spoil (e : Nat × List Nat) : List Nat :=
        if line ≤ e.1 && (d.rowOf 2 (d.layer 2).height e.1).isSome then List.replicate t.hActive t.background else e.2
      let buffer := ((List.range d.buffer.length).zip d.buffer).map spoil
      (s.setDisp { d with faulted := true, buffer }).layerFault line cause) s

/-! ## Genlock, link, scan-out (R470, R472, R481) -/

/-- GENLOCK_EDGE (R472): `locked` says that the edge falls within a pixel clock of its place. -/
def execGenlockEdge (t : Nat) (locked : Bool) (s : State) : Host.Outcome State Fault Refusal :=
  happens t (fun s =>
    let d := s.disp
    if d.genlock == 0 || !(d.mode == .running || d.mode == .quiescing) then s
    else if locked then
      (s.setDisp { d with genlock := 2 }).finishAll (s.startedCmds 0x1302 fun _ => true) .ok fun _ => 0
    else if d.genlock = 3 then s.setDisp { d with genlock := 1 } else s) s

/-- GENLOCK_LOST (R472): no edge arrives in time, or the phase cannot be held or reached. -/
def execGenlockLost (t : Nat) (s : State) : Host.Outcome State Fault Refusal :=
  happens t (fun s => if s.disp.genlock = 1 ∨ s.disp.genlock = 2 then s.setDisp { s.disp with genlock := 3 } else s) s

/-- HPD_UNPLUG (R470). -/
def execHpdUnplug (t : Nat) (s : State) : Host.Outcome State Fault Refusal :=
  happens t (fun s =>
    let d := s.disp
    let y := { d with hpd := false, lanes := 0, rate := 0 }
    if d.mode == .running then s.setDisp { y with mode := .training }
    else if d.mode == .quiescing then (s.setDisp y).dispRest
    else s.setDisp y) s

/-- HPD_RETURN (R470). -/
def execHpdReturn (t : Nat) (s : State) : Host.Outcome State Fault Refusal :=
  happens t (fun s => s.setDisp { s.disp with hpd := true }) s

/-- kb/s of payload that a trained link carries: 8 of every 10 bits (R470). -/
def linkKbps (lanes rate : Nat) : Nat :=
  lanes * ([0, 1620000, 2700000, 5400000, 8100000].getD rate 0) * 8 / 10

/-- DP_LINK_TRAINED (R470, R487): scan-out starts, or resumes after a hot plug; a link that cannot carry the mode
ends the enable. -/
def execDpLinkTrained (t lanes rate : Nat) (s : State) : Host.Outcome State Fault Refusal :=
  happens t (fun s =>
    let d := s.disp
    let t := d.timing.getD {}
    let cmds := s.startedCmds 0x1305 fun _ => true
    if d.mode != .training || !d.hpd || !([1, 2, 4].contains lanes) || rate == 0 || decide (4 < rate) then s
    else if linkKbps lanes rate < t.clock * 24 then
      if cmds.isEmpty then s else s.dispRest.finishAll cmds .noResource fun _ => 0
    else
      let s := (s.setDisp { d with mode := .running, lanes, rate }).latchSettings.latchOverlay.settingsDone
      s.finishAll cmds .ok fun _ => s.now) s

/-- A scan-out copy fails (R481, R513). -/
def State.scanoutFail (s : State) (copy : Nat) (inj : Bool) : State :=
  let u : Unit3 := ⟨18, 0, copy⟩
  if copy > 1 || s.isRetired u then s
  else (s.setDisp { s.disp with spared := true }).faultIn u { injected := inj }

/-- SCANOUT_MISMATCH (R481). -/
def execScanoutMismatch (t copy : Nat) (s : State) : Host.Outcome State Fault Refusal :=
  happens t (fun s => s.scanoutFail copy false) s

/-! ## Commands -/

/-- DISP.SET_TIMING (R471, R483). -/
def dispSetTiming (c : Cmd) (s : State) : VerbOut :=
  let p := c.payload
  let t : DispTiming := {
    hActive := u16 p 0, hFront := u16 p 2, hSync := u16 p 4, hBack := u16 p 6, vActive := u16 p 8, vFront := u16 p 10,
    vSync := u16 p 12, vBack := u16 p 14, clock := u32 p 16, flags := u8 p 20, matchLine := u16 p 22,
    background := u32 p 24 }
  let area := t.hTotal * t.vTotal
  if t.hActive < 640 ∨ t.hActive > 3840 ∨ t.hSync < 8 ∨ t.vActive < 480 ∨ t.vActive > 2160 ∨ t.vSync = 0 ∨
      t.clock < 25000 ∨ t.clock > 600000 ∨ t.flags > 3 ∨ !zeros p 21 1 ∨ !zeros p 27 1 ∨ !zeros p 28 4 ∨ t.hTotal > 8192 ∨
      t.vTotal < t.vActive + 4 ∨ t.clock * 10000 < 239 * area ∨ t.clock * 1000 > 120 * area ∨
      t.hActive * t.vActive * 3 > 25165824 ∨ (t.matchLine ≠ 65535 ∧ t.matchLine ≥ t.vTotal) then .fail .badParam 0
  else if s.disp.mode ≠ .disabled then .fail .badState 0
  else .done .ok 0 (s.setDisp { s.disp with timing := some t })

/-- DISP_SET_TIMING: `DISP.SET_TIMING` (R483). -/
def execDispSetTiming (t fn tag : Nat) (s : State) : Host.Outcome State Fault Refusal :=
  verb t 0x1301 fn tag dispSetTiming s

/-- The genlock settings in force, as one number: what a SET_GENLOCK that times out restores (R62). -/
def Disp.genlockWord (d : Disp) : Nat := d.genlock % 4 + 4 * (d.edge % 2) + 8 * (d.syncLine % 65536) + 2 ^ 19 * d.offset

/-- The settings that such a number holds. -/
def Disp.withGenlock (d : Disp) (w : Nat) : Disp :=
  { d with genlock := w % 4, edge := w / 4 % 2, syncLine := w / 8 % 65536, offset := w / 2 ^ 19 }

/-- DISP.SET_GENLOCK (R472, R484). DESIGN CHOICE, log entry 143. -/
def dispSetGenlock (c : Cmd) (s : State) : VerbOut :=
  let p := c.payload
  let d := s.disp
  let out := match d.timing with
    | some t => decide (t.vTotal ≤ u16 p 2) || decide (t.hTotal ≤ u16 p 4)
    | none => false
  if u8 p 0 > 1 ∨ u8 p 1 > 1 ∨ !zeros p 6 10 ∨ (out = true) then .fail .badParam 0
  else
    let y := { d with genlock := u8 p 0, edge := u8 p 1, syncLine := u16 p 2, offset := u16 p 4 }
    if u8 p 0 = 0 then .done .ok 0 (s.setDisp y) else .running d.genlockWord [] (s.setDisp y)

/-- DISP_SET_GENLOCK: `DISP.SET_GENLOCK` (R484). -/
def execDispSetGenlock (t fn tag : Nat) (s : State) : Host.Outcome State Fault Refusal :=
  verb t 0x1302 fn tag dispSetGenlock s

/-- Cellar bytes a second of a visible overlay of `w` by `h` pixels (R481). -/
def DispTiming.overlayRate (t : DispTiming) (w h : Nat) : Nat :=
  (w * h * 4 * t.clock * 1000 + t.hTotal * t.vTotal - 1) / (t.hTotal * t.vTotal)

/-- DISP.CONFIGURE_LAYER (R485). DESIGN CHOICE, log entry 143. -/
def dispConfigureLayer (image : List Byte) (c : Cmd) (s : State) : VerbOut :=
  let p := c.payload
  let n := u8 p 0
  let d := s.disp
  let t := d.timing.getD {}
  let known := d.timing.isSome
  let a := u64 p 32
  let cellar := u8 p 28 == 1
  let l : DispLayer := {
    flags := u8 p 1, width := if n = 3 then 64 else u16 p 2, height := if n = 3 then 64 else u16 p 4, plane := u8 p 6,
    shift := u8 p 7, colFirst := u16 p 8, colCount := u16 p 10, rowFirst := u16 p 12, rowCount := u16 p 14,
    traces := u64 p 16, top := s16 p 24, step := u16 p 26,
    image := if n ≠ 3 then [] else if cellar then s.cellarMem.readBytes a 16384 else image.take 16384 }
  let units := maskBits 64 l.traces
  let bad0 := n == 0 && (decide (l.plane > 3 ∨ l.shift > 31 ∨ l.colCount = 0 ∨ l.rowCount = 0 ∨
    l.rowFirst + l.rowCount > 1024) ||
      ((s.plane l.plane).configured && decide ((s.plane l.plane).width < l.colFirst + l.colCount)))
  let bad1 := n == 1 && (decide (units.length > 8 ∨ l.step = 0 ∨ l.step > 2560) ||
    units.any fun u => (s.trace u).configured && (s.trace u).detector == 5)
  let bad3 := n == 3 && (decide (u8 p 28 > 1 ∨ a % 8 ≠ 0) || (cellar && !s.inRegion a 16384))
  if n > 3 ∨ l.flags > 3 ∨ (l.flags.testBit 0 ∧ n ≠ 2) ∨ (l.flags.testBit 1 ∧ n ≠ 0) ∨ l.width = 0 ∨ l.height = 0 ∨
      (known ∧ n ≠ 3 ∧ (l.width > t.hActive ∨ l.height > t.vActive)) ∨ bad0 ∨ bad1 ∨ bad3 ∨ !zeros p 29 3 ∨
      !zeros p 40 8 then .fail .badParam 0
  else if (n = 0 ∧ !(s.plane l.plane).configured) ∨ (n = 1 ∧ units.any fun u => !(s.trace u).configured) then
    .fail .badState 0
  else
    let on := d.mode != .disabled
    let grows := on && n == 2 && (d.place 2).visible
    let r := if grows then s.allot (actKey kindDisplay 0) [(0, t.overlayRate l.width l.height)] else some s
    match r with
    | none => .fail .noAllotment 0
    | some s0 =>
      let s1 := if n = 3 then s0.hostLoad c a 16384 cellar else s0
      if on then .running 0 [] (s1.setDisp { s1.disp with nextLayers := s1.disp.nextLayers.set n l })
      else .done .ok 0 (s1.setDisp { s1.disp with layers := s1.disp.layers.set n l })

/-- DISP_CONFIGURE_LAYER: `DISP.CONFIGURE_LAYER` (R485). -/
def execDispConfigureLayer (t fn tag : Nat) (image : List Byte) (s : State) : Host.Outcome State Fault Refusal :=
  verb t 0x1303 fn tag (dispConfigureLayer image) s

/-- DISP.SET_PALETTE (R486). -/
def dispSetPalette (c : Cmd) (s : State) : VerbOut :=
  let p := c.payload
  let bank := u8 p 0
  let first := u16 p 2
  let count := u16 p 4
  if p.length ≠ 8 + 4 * count then .fail .badLength 0
  else if bank > 1 ∨ !zeros p 1 1 ∨ !zeros p 6 2 ∨ count = 0 ∨ count > 1022 ∨
      first + count > (if bank = 0 then 1024 else 8) then .fail .badParam 0
  else
    let es := (List.range count).map fun k => (bank * 1024 + first + k, u32 p (8 + 4 * k))
    if s.disp.mode = .disabled then
      .done .ok 0 (s.setDisp { s.disp with palette := es.foldl (fun (m : KMap Nat) e => m.set e.1 e.2) s.disp.palette })
    else .running 0 [] (s.setDisp { s.disp with nextPalette := s.disp.nextPalette ++ es })

/-- DISP_SET_PALETTE: `DISP.SET_PALETTE` (R486). -/
def execDispSetPalette (t fn tag : Nat) (s : State) : Host.Outcome State Fault Refusal :=
  verb t 0x1304 fn tag dispSetPalette s

/-- STATE of R487. -/
def DispMode.code : DispMode → Nat
  | .disabled => 0 | .training => 1 | .running => 2 | .quiescing => 3

/-- The achieved pixel clock: none while no pixel clock runs, the set one in register timing, and within ±500 ppm of it
where genlock steers it, as measured (R472, R478, R487). -/
def Disp.pixelHz (d : Disp) (measured : Nat) : Nat :=
  let hz := (d.timing.getD {}).clock * 1000
  if d.mode == .disabled then 0
  else if d.genlock = 1 ∨ d.genlock = 2 then max (hz - hz / 2000) (min measured (hz + hz / 2000))
  else hz

/-- The 64 bytes of a display query (R487). -/
def Disp.status (d : Disp) (measured : Nat) : List Byte :=
  pack [(1, d.mode.code), (1, d.lanes + 8 * d.rate + 64 * bit d.hpd), (1, d.genlock), (1, bit d.spared + 2 * bit d.faulted),
    (8, d.frame), (4, d.underruns), (4, d.faults), (4, 0), (16, stampNat d.vblank), (8, (d.place 2).buffer),
    (8, d.pixelHz measured),
    (8, 0)]

/-- DISP.ENABLE (R481, R487). DESIGN CHOICE, log entries 93 and 141. -/
def dispEnable (pixelHz : Nat) (edid : List Byte) (c : Cmd) (s : State) : VerbOut :=
  let p := c.payload
  let d := s.disp
  let l := d.layer 2
  if u8 p 0 > 1 ∨ !zeros p 1 7 then .fail .badParam 0
  else if u8 p 0 = 1 then .data (d.status pixelHz ++ (if 320 ≤ c.room then (edid ++ leBytes 256 0).take 256 else [])) 0 s
  else if d.mode = .running ∨ d.mode = .training then .done .ok s.now s
  else
    match d.timing with
    | none => .fail .badState 0
    | some t =>
      if !d.hpd ∨ d.mode = .quiescing then .fail .badState 0
      else
        match s.declare [{ fam := 0x13, obj := 0, group := 0, first := 5000000, each := 5000000 }] with
        | .error e => .fail .noEnergy e
        | .ok s1 =>
          let r := if (d.place 2).visible then s1.allot (actKey kindDisplay 0) [(0, t.overlayRate l.width l.height)]
            else some s1
          match r with
          | none => .fail .noAllotment 0
          | some s2 =>
            .running 0 [] (s2.setDisp { d with
              mode := .training, frame := 0, latched := 0, matched := none, underruns := 0, faults := 0, faulted := false, late := [],
              vblank := {} })

/-- DISP_ENABLE: `DISP.ENABLE` (R487). -/
def execDispEnable (t fn tag pixelHz : Nat) (edid : List Byte) (s : State) : Host.Outcome State Fault Refusal :=
  verb t 0x1305 fn tag (dispEnable pixelHz edid) s

/-- DISP.DISABLE (R481, R488). -/
def dispDisable (_ : Cmd) (s : State) : VerbOut :=
  match s.disp.mode with
  | .disabled => .done .quiesced 0 s
  | .training => .done .quiesced 0 s.dispRest
  | _ => .running 0 [] (s.setDisp { s.disp with mode := .quiescing })

/-- DISP_DISABLE: `DISP.DISABLE` (R488). -/
def execDispDisable (t fn tag : Nat) (s : State) : Host.Outcome State Fault Refusal :=
  verb t 0x1306 fn tag dispDisable s

end Sys2Proof.Machine
end

