-- ==== Sys2Proof/Machine/Crypto.lean ====
section
/-! DEFINITION. The signature and hash scheme of R3: SHA-512 and ECDSA on P-521. The spec names both and prints neither;
they are taken from FIPS 180-4 and FIPS 186-4. PRESUMED, log entry 114. -/

namespace Sys2Proof.Machine

/-! ## SHA-512 -/

/-- The largest `e`-th root, of `k` binary digits above those of `r`, that does not exceed that of `x`. -/
def rootFrom (e x : Nat) : Nat → Nat → Nat
  | 0, r => r
  | k + 1, r => rootFrom e x k (if (r + 2 ^ k) ^ e ≤ x then r + 2 ^ k else r)

/-- The first 64 bits of the fraction of the `e`-th root of `n`, below 8 ^ `e`. -/
def rootFraction (e n : Nat) : Nat := rootFrom e (n * 2 ^ (64 * e)) 67 0 % 2 ^ 64

/-- The primes below 410, which are the first eighty. -/
def shaPrimes : List Nat :=
  (List.range 410).filter fun n => 2 ≤ n && (List.range 21).all fun d => d < 2 || n ≤ d || n % d != 0

/-- The round constants of SHA-512, in round order: cube roots of the first eighty primes. -/
def shaK : List Nat := shaPrimes.map (rootFraction 3)

/-- The initial hash value of SHA-512: square roots of the first eight primes. -/
def shaInit : List Nat := (shaPrimes.take 8).map (rootFraction 2)

/-- A 64-bit word rotated right by `n`. -/
def rotr64 (x n : Nat) : Nat := (x >>> n) ||| (x <<< (64 - n) % 2 ^ 64)

/-- The next word of the message schedule, from the last sixteen, newest first. -/
def shaNext (w : List Nat) : Nat :=
  let a := w.getD 1 0
  let b := w.getD 14 0
  ((rotr64 a 19 ^^^ rotr64 a 61 ^^^ a >>> 6) + w.getD 6 0 + (rotr64 b 1 ^^^ rotr64 b 8 ^^^ b >>> 7) + w.getD 15 0) % 2 ^ 64

/-- The message schedule extended by `n` words, newest first. -/
def shaSchedule : Nat → List Nat → List Nat
  | 0, w => w
  | n + 1, w => shaSchedule n (shaNext w :: w)

/-- One round on the working variables `a` to `h`. -/
def shaRound (v : List Nat) (kw : Nat × Nat) : List Nat :=
  match v with
  | [a, b, c, d, e, f, g, h] =>
    let t1 := h + (rotr64 e 14 ^^^ rotr64 e 18 ^^^ rotr64 e 41) + ((e &&& f) ^^^ ((2 ^ 64 - 1 - e) &&& g)) + kw.1 + kw.2
    let t2 := (rotr64 a 28 ^^^ rotr64 a 34 ^^^ rotr64 a 39) + ((a &&& b) ^^^ (a &&& c) ^^^ (b &&& c))
    [(t1 + t2) % 2 ^ 64, a, b, c, (d + t1) % 2 ^ 64, e, f, g]
  | v => v

/-- The hash value after one block of sixteen words. -/
def shaBlock (h block : List Nat) : List Nat :=
  let w := (shaSchedule 64 block.reverse).reverse
  List.zipWith (fun a b => (a + b) % 2 ^ 64) h ((shaK.zip w).foldl shaRound h)

/-- The padding of a message of `n` bytes. -/
def shaPad (n : Nat) : List Byte :=
  0x80#8 :: leBytes ((239 - n % 128) % 128) 0 ++ (leBytes 16 (8 * n)).reverse

/-- The SHA-512 digest of a message. PRESUMED, log entry 114. -/
def sha512 (m : List Byte) : List Byte :=
  let p := m ++ shaPad m.length
  let blocks := (records (p.length / 128) 128 p).map fun b => (records 16 8 b).map fun w => leNat w.reverse
  (blocks.foldl shaBlock shaInit).flatMap fun x => (leBytes 8 x).reverse

/-! ## P-521 -/

/-- The prime of the field. -/
def p521 : Nat :=
  0x01ffffffffffffffffffffffffffffffffffffffffffffffffffffffffffffffff * (2 ^ 132 * 2 ^ 132) +
    0xffffffffffffffffffffffffffffffffffffffffffffffffffffffffffffffffff

/-- The order of the base point. -/
def order521 : Nat :=
  0x01ffffffffffffffffffffffffffffffffffffffffffffffffffffffffffffffff * (2 ^ 132 * 2 ^ 132) +
    0xfa51868783bf2f966b7fcc0148f709a5d03bb5c9b8899c47aebb6fb71e91386409

/-- The coefficient b of the curve y² = x³ − 3x + b. -/
def curveB : Nat :=
  0x0051953eb9618e1c9a1f929a21a0b68540eea2da725b99b315f3b8b489918ef109 * (2 ^ 132 * 2 ^ 132) +
    0xe156193951ec7e937b1652c0bd3bb1bf073573df883d2c34f1ef451fd46b503f00

/-- The base point, x. -/
def baseX : Nat :=
  0x00c6858e06b70404e9cd9e3ecb662395b4429c648139053fb521f828af606b4d3d * (2 ^ 132 * 2 ^ 132) +
    0xbaa14b5e77efe75928fe1dc127a2ffa8de3348b3c1856a429bf97e7e31c2e5bd66

/-- The base point, y. -/
def baseY : Nat :=
  0x011839296a789a3bc0045c8a5fb42c7d1bd998f54449579b446817afbd17273e66 * (2 ^ 132 * 2 ^ 132) +
    0x2c97ee72995ef42640c550b9013fad0761353c7086a272c24088be94769fd16650

/-- `b` to the power `e`, of `k` binary digits, times `acc`, modulo `m`. -/
def powMod (m : Nat) : Nat → Nat → Nat → Nat → Nat
  | 0, _, _, acc => acc
  | k + 1, b, e, acc => powMod m k (b * b % m) (e / 2) (if e % 2 = 1 then acc * b % m else acc)

/-- The inverse of `a` modulo the prime `m` of 521 bits. -/
def invMod (m a : Nat) : Nat := powMod m 521 (a % m) (m - 2) 1

/-- A point in Jacobian coordinates: x/z², y/z³; z = 0 is the point at infinity. -/
structure ECPoint where
  /-- X. -/
  x : Nat := 1
  /-- Y. -/
  y : Nat := 1
  /-- Z. -/
  z : Nat := 0
deriving DecidableEq, Repr

/-- Twice a point. -/
def ECPoint.dbl (a : ECPoint) : ECPoint :=
  let zz := a.z * a.z % p521
  let yy := a.y * a.y % p521
  let xyy := 4 * a.x * yy % p521
  let al := 3 * (a.x + (p521 - zz)) * (a.x + zz) % p521
  let x := (al * al + 2 * (p521 - xyy)) % p521
  { x, y := (al * (xyy + (p521 - x)) + (p521 - 8 * yy * yy % p521)) % p521, z := 2 * a.y * a.z % p521 }

/-- The sum of two points. -/
def ECPoint.add (a b : ECPoint) : ECPoint :=
  if a.z = 0 then b
  else if b.z = 0 then a
  else
    let za := a.z * a.z % p521
    let zb := b.z * b.z % p521
    let ua := a.x * zb % p521
    let ub := b.x * za % p521
    let sa := a.y * zb * b.z % p521
    let sb := b.y * za * a.z % p521
    if ua = ub then (if sa = sb then a.dbl else {})
    else
      let h := (ub + (p521 - ua)) % p521
      let hh := h * h % p521
      let hhh := h * hh % p521
      let r := (sb + (p521 - sa)) % p521
      let v := ua * hh % p521
      let x := (r * r + (p521 - hhh) + 2 * (p521 - v)) % p521
      { x, y := (r * (v + (p521 - x)) + (p521 - sa * hhh % p521)) % p521, z := a.z * b.z * h % p521 }

/-- The multiple of a point by the low `k` binary digits of `e`. -/
def ECPoint.mul (a : ECPoint) : Nat → Nat → ECPoint
  | 0, _ => {}
  | k + 1, e =>
    let h := ECPoint.mul a k (e / 2)
    if e % 2 = 1 then h.dbl.add a else h.dbl

/-- ECDSA P-521 with SHA-512: `sig`, r and then s as 66-byte little-endian integers (R279), is a signature over a
message with this digest under the public key `key`, an uncompressed point of 133 bytes (R557). PRESUMED, log entry
114. PRESUMED, log entry 114. -/
def verifyP521 (key digest sig : List Byte) : Bool :=
  let qx := leNat ((key.drop 1).take 66).reverse
  let qy := leNat ((key.drop 67).take 66).reverse
  let r := field sig 0 66
  let sv := field sig 66 66
  let e := leNat digest.reverse
  if u8 key 0 ≠ 4 ∨ p521 ≤ qx ∨ p521 ≤ qy ∨ qy * qy % p521 ≠ (qx * qx * qx + (p521 - 3) * qx + curveB) % p521 ∨
      r = 0 ∨ order521 ≤ r ∨ sv = 0 ∨ order521 ≤ sv then false
  else
    let w := invMod order521 sv
    let u := ECPoint.mul { x := baseX, y := baseY, z := 1 } 521 (e * w % order521)
    let v := ECPoint.mul { x := qx, y := qy, z := 1 } 521 (r * w % order521)
    let t := u.add v
    let zi := invMod p521 t.z
    t.z ≠ 0 && t.x * zi * zi % p521 % order521 == r

end Sys2Proof.Machine
end

