-- ==== Sys2Proof/Machine/Sorrel.lean ====
section
/-! DEFINITION. Sorrel cores: kernels, input ports, activations, takeovers and the SORREL family (R259 to
R261, R271 to R285). -/

namespace Sys2Proof.Machine

/-- Visible core `c`. -/
def State.core (s : State) (c : Nat) : Core := s.cores.get c {}

/-- Replaces a core. -/
def State.setCore (s : State) (c : Nat) (x : Core) : State := { s with cores := s.cores.set c x }

/-- Physical core behind visible core `c` (R259). -/
def Core.physical (x : Core) (c : Nat) : Nat := x.phys.getD c

/-- Size of data memory (R261). -/
def dataBytes : Nat := 0x40000

/-- First address of the parameter memory (R261). -/
def paramBase : Nat := 0x3FF00

/-- The kernel of a core, or an empty one. -/
def Core.k (x : Core) : Kernel := x.kernel.getD {}

/-- First address of STATE (R261). -/
def Core.stateBase (x : Core) : Nat := paramBase - x.k.stateBytes

/-- Bits lost in a takeover: the free value they read from, or 0 before any takeover (R261, R277).
DESIGN CHOICE, log entry 37. -/
def Core.lostBits (x : Core) (off w : Nat) : Nat :=
  match x.lost with
  | some n => ((Config.freeBits (8 * (dataBytes + 1024)) n).extractLsb' off w).toNat
  | none => 0

/-- Reads one byte of data memory. DESIGN CHOICE, log entry 37. -/
def Core.byte (x : Core) (a : Nat) : Byte :=
  match x.dmem.find a with
  | some b => b
  | none => BitVec.ofNat 8 (x.lostBits (8 * a) 8)

/-- A map with the entries of another over it. -/
def overlay (m n : KMap Byte) : KMap Byte := n.foldl (fun k e => KMap.set k e.1 e.2) m

/-- `n` bytes of data memory from `a`. -/
def Core.bytes (x : Core) (a n : Nat) : List Byte := (span a n).map x.byte

/-- Writes bytes to data memory from `a`. -/
def Core.put (x : Core) (a : Nat) : List Byte → Core
  | [] => x
  | b :: bs => Core.put { x with dmem := x.dmem.set a b } (a + 1) bs

/-- Cycles of the activation at module time `now` (SR0); a CORE clock is 16 ticks. -/
def Core.cycles (x : Core) (now : Nat) : Nat := (x.cycleBase + (now - x.since) / 16) % 2 ^ 32

/-- The STATE bytes as a map. -/
def Core.stateMap (x : Core) : KMap Byte := (span x.stateBase x.k.stateBytes).map fun a => (a, x.byte a)

/-- STATE goes back to its last committed contents (R271). DESIGN CHOICE, log entry 48. -/
def Core.revert (x : Core) : Core := { x with dmem := overlay x.dmem x.commit.state }

/-- An input port. -/
def Core.port (x : Core) (p : Nat) : InPort := x.ports.get p {}

/-- Slot area of a port. -/
def Core.inBase (x : Core) (p : Nat) : Nat := if p = 0 then x.k.inBase0 else x.k.inBase1.getD 0

/-- Blocks that have a slot to go to are put into it, oldest first (R273). -/
def Core.fillSlots (x : Core) (p : Nat) : Nat → Core
  | 0 => x
  | n + 1 =>
    let q := x.port p
    match q.waiting with
    | b :: rest =>
      if q.slots.length < x.k.slots then
        let a := x.inBase p + q.filled % x.k.slots * x.k.slotBytes
        let y := x.put a b.bytes
        let r := { q with filled := q.filled + 1, slots := q.slots ++ [b], waiting := rest }
        Core.fillSlots { y with ports := y.ports.set p r } p n
      else x
    | [] => x

/-- The current block of a port is released and its slot filled again (R272). -/
def Core.releasePort (x : Core) (p : Nat) : Core :=
  let q := x.port p
  if q.current then
    Core.fillSlots { x with ports := x.ports.set p { q with current := false, slots := q.slots.drop 1 } } p
      (q.waiting.length + 1)
  else x

/-- Physical core `u` is a spare: no visible core stands on it, and it is not retired (R259, R277). -/
def State.spareCore (s : State) (u : Nat) : Bool :=
  !s.isRetired ⟨4, 0, u⟩ && (List.range 64).all fun c => (s.core c).physical c != u || (s.core c).dead

/-- Bytes held in the retention ring of a port: the blocks of activations that have not committed (R277). -/
def InPort.ringBytes (q : InPort) : Nat := (q.slots ++ q.waiting).foldl (fun n b => n + b.bytes.length) 0

/-- Elements of a block of a port. -/
def State.blockCount (s : State) (q : InPort) : Nat :=
  if q.kind = 1 then q.elements else min q.bins ((s.job q.source).bins - q.firstBin)

/-- Bytes of a full block: descriptor, elements and flag map (R273, R281). DESIGN CHOICE, log entry 49. -/
def State.blockBytes (s : State) (q : InPort) : Nat := 32 + 4 * s.blockCount q + (s.blockCount q + 3) / 4

/-- Block rate of a port in blocks per second, as a fraction (R276). -/
def State.blockRate (s : State) (q : InPort) : Nat × Nat :=
  if q.kind = 1 then (ticksPerSecond, (s.ddc q.source).ratio * q.elements)
  else if q.kind = 2 then (ticksPerSecond, (s.job q.source).hop * s.pressTs (s.job q.source))
  else (0, 1)

/-- `k` per block at a block rate, per second, rounded up. -/
def perSecond (q : Nat × Nat) (k : Nat) : Nat := (q.1 * k + q.2 - 1) / q.2

/-- Ring bytes that 1 ms of a port's input takes (R281). DESIGN CHOICE, log entry 49. -/
def State.ringNeeded (s : State) (q : InPort) : Nat :=
  if q.kind = 0 then 0 else (perSecond (s.blockRate q) 1 + 999) / 1000 * s.blockBytes q

/-- Region bytes a core needs: 1 ms of input blocks and the STATE mirror (R281). DESIGN CHOICE, log entry 49. -/
def State.regionNeeded (s : State) (x : Core) : Nat :=
  s.ringNeeded (x.port 0) + s.ringNeeded (x.port 1) + x.k.stateBytes

/-- Where the retention ring of a port stands: Cellar offset and bytes. The region holds the STATE mirror first, then
the rings of ports 0 and 1, which share what is left in proportion to what 1 ms of their input takes (R277, R281).
DESIGN CHOICE, log entry 128. -/
def State.ringOf (s : State) (x : Core) (p : Nat) : Nat × Nat :=
  let r := x.region.getD (0, 0)
  let left := r.2 - x.k.stateBytes
  let n0 := s.ringNeeded (x.port 0)
  let n1 := s.ringNeeded (x.port 1)
  let first := left * n0 / max 1 (n0 + n1)
  if p = 0 then (r.1 + x.k.stateBytes, first) else (r.1 + x.k.stateBytes + first, left - first)

/-- Bytes that a ring of `size` bytes from `base` holds from place `k` of its stream on. -/
def ringRead (m : Memory) (base size k n : Nat) : List Byte :=
  let p := k % max 1 size
  m.readBytes (base + p) (min n (size - p)) ++ m.readBytes base (n - (size - p))

/-- Writes bytes at place `k` of the stream into a ring of `size` bytes from `base`. -/
def ringWrite (m : Memory) (base size k : Nat) (b : List Byte) : Memory :=
  let p := k % max 1 size
  (m.writeBytes (base + p) (b.take (size - p))).writeBytes base (b.drop (size - p))

/-- The lines of STATE, 64 bytes each, whose contents differ from `old`, as offset in STATE and bytes (R272). -/
def Core.dirtyLines (x : Core) (old : KMap Byte) : List (Nat × List Byte) :=
  ((span 0 (x.k.stateBytes / 64)).filter fun l =>
    (span (x.stateBase + 64 * l) 64).any fun a => decide (old.find a ≠ some (x.byte a))).map fun l =>
      (64 * l, x.bytes (x.stateBase + 64 * l) 64)

/-- The dirty lines of STATE go to the mirror (R272, R277). DESIGN CHOICE, log entry 128. -/
def State.mirror (s : State) (x : Core) (old : KMap Byte) : State :=
  let base := (x.region.getD (0, 0)).1
  s.keepCellar ((x.dirtyLines old).foldl (fun (m : Memory) l => m.writeBytes (base + l.1) l.2) s.cellarMem)

/-- The mirrored STATE, by data address (R277). -/
def State.mirrored (s : State) (x : Core) : KMap Byte :=
  (span x.stateBase x.k.stateBytes).zip (s.cellarMem.readBytes (x.region.getD (0, 0)).1 x.k.stateBytes)

/-- The kernel's outputs and messages of the activation are discarded (R271, R283). DESIGN CHOICE, log entry 48. -/
def Core.discard (x : Core) : Core := { x with staged := [], messages := [], paused := false }

/-- The core no longer runs: allotments and energy are released. -/
def State.coreOff (s : State) (c : Nat) : State := (s.undeclare 9 c).release (actKey kindKernel c)

/-- Stops of core `c` that wait. -/
def State.coreStops (s : State) (c : Nat) : List Cmd := s.startedCmds 0x0903 fun d => u8 d.payload 0 == c

/-- Domain PD_SORREL_q is on: a core of the quad runs, or the quad holds a spare while any kernel runs (R259, R278). -/
def State.pdSorrel (s : State) (q : Nat) : Bool :=
  let running := s.cores.filter fun e => e.2.runs
  (running.any fun e => e.2.physical e.1 / 4 == q) ||
    (!running.isEmpty && ((List.range 68).any fun u => u / 4 == q && s.spareCore u))

/-- A visible core in state EMPTY has a physical core to lend; the first uncovered core takes one that becomes
free of work (R520). -/
def State.coreFreed (s : State) (c : Nat) : State :=
  match s.cores.find? fun e => e.2.dead with
  | some (d, y) =>
    if (s.core c).mode = .empty ∧ d ≠ c then
      (s.setCore d { y with dead := false, phys := some ((s.core c).physical c) }).setCore c { s.core c with lent := true }
    else s
  | none => s

/-- The kernel of core `c` ends with a cause: EV_KERNEL_DONE, and the stops that wait complete (R271, R283,
R285). DESIGN CHOICE, log entry 48. -/
def State.kernelEnd (s : State) (c cause trap : Nat) : State :=
  let x := (s.core c).discard
  let y := { x with mode := .halted, haltCause := cause, trapKind := trap, haltPc := x.pc, atCommit := false,
                    sched := none, loops := [] }
  let s1 := ((s.setCore c y).coreOff c).event 0x0901 c (cause + 2 ^ 8 * trap + 2 ^ 16 * x.pc)
  s1.finishAll (s1.coreStops c) .quiesced fun _ => 0

/-- A trap halts the kernel; STATE keeps its last committed contents (R271). -/
def State.coreTrap (s : State) (c kind : Nat) : State := (s.setCore c (s.core c).revert).kernelEnd c 2 kind

/-- The records of an activation are released in EMIT order (R274). -/
def State.releaseRecords (s : State) (c : Nat) : State :=
  let x := s.core c
  let s := x.staged.foldl (fun (s : State) r => s.offerElement 5 c {
    stamp := stampOf r 0, bytes := r, ovr := (u32 r 16).testBit 0, unsettled := (u32 r 16).testBit 1 }) s
  let s := match x.flow with
    | some f => x.staged.foldl (fun (s : State) r =>
        let fl := u32 r 16
        s.handToFlow f {
          format := 6, bytes := r, stamp := stampOf r 0,
          flags := bit (fl.testBit 1) + 2 * bit (fl.testBit 0) + 4 * bit (fl.testBit 2),
          gaps := bit (fl.testBit 3) }) s
    | none => s
  s.setCore c { x with staged := [], records := x.records + x.staged.length }

/-- The messages of an activation are released (R275). -/
def Core.releaseMessages (x : Core) : Core :=
  let forces := (x.messages.filter fun m => u8 m 0 == 1).map fun m => u8 m 8
  let note := (x.messages.filter fun m => u8 m 0 == 2).getLast?
  { x with messages := [], forces := x.forces ++ forces, forcesSent := wrapAdd 32 x.forcesSent forces.length,
           note := match note with | some m => (m.drop 8).take 24 | none => x.note }

/-- An activation commits (R272). -/
def State.coreCommit (s : State) (c : Nat) : State :=
  let s := s.releaseRecords c
  let x := ((s.core c).releasePort 0).releasePort 1
  let n := x.cycles s.now
  (s.mirror x x.commit.state).setCore c { x.releaseMessages with
    commit := { ags := x.ags, state := x.stateMap }, activations := x.activations + 1, paused := false,
    cyclesLast := n, cyclesMax := max x.cyclesMax n }

/-- YIELD: the activation commits, and the next starts at instruction 0 unless a stop waited for the commit
(R272, R283). -/
def State.coreYield (s : State) (c : Nat) : State :=
  let s := s.coreCommit c
  let x := s.core c
  if x.atCommit then s.kernelEnd c 3 0
  else s.setCore c { x with pc := 0, loops := [], since := s.now, cycleBase := 0, sr7 := wrapAdd 32 x.sr7 1 }

/-! ## Blocks (R273) -/

/-- Elements of a block converted to CS16 with the block exponent (R273); `exponent` is that of its frame. -/
def State.blockElements (s : State) (q : InPort) (exponent : Int) (raw : List Byte) : List Byte × Int :=
  let words (n k : Nat) : List Nat := (records k n raw).map leNat
  let out (r : List Nat × Int) : List Byte × Int := (pack (r.1.map fun v => (2, v)), r.2)
  let real (vs : List Int) : List Int := vs.flatMap fun v => [v, 0]
  if q.kind = 1 then
    match (s.ddc q.source).format with
    | 0 => (raw, 0)
    | 1 => out (toCs16 1 ((words 3 (raw.length / 3)).map (signed 24)))
    | _ => out (toCs16 (2 ^ 149) ((words 4 (raw.length / 4)).map f32Units))
  else
    match (s.job q.source).format with
    | 0 => out (toCs16 (2 ^ 149) (real ((words 4 (raw.length / 4)).map f32Units)))
    | 1 => out (toCs16 (2 ^ 149) ((words 4 (raw.length / 4)).map f32Units))
    | 2 => (raw, exponent)
    | _ => (pack ((words 2 (raw.length / 2)).flatMap fun v => [(2, v), (2, 0)]), 0)

/-- A block on its way to a port: what its elements are and their marks (R273). -/
structure Block where
  /-- INDEX. -/
  index : Nat
  /-- Stamp tick of element 0. -/
  tick : Nat
  /-- Block exponent of the frame. -/
  exponent : Int
  /-- Bytes of the elements in the source's format. -/
  raw : List Byte
  /-- OVR_SEEN and UNSETTLED of each element. -/
  marks : List (Bool × Bool)

/-- The next block of a port: BLOCK_ELEMENTS outputs of a DDC from output `index` on, once they have been produced,
or the oldest frame that the distributor has not taken, limited to the port's bins (R273). `codes` are the
converter's codes that the outputs depend on. -/
def State.nextBlock (s : State) (q : InPort) (index : Nat) (codes : List Int) : Option Block :=
  if q.kind = 1 then
    let d := s.ddc q.source
    if index % q.elements ≠ 0 || !d.running || !d.produced (index + q.elements - 1) s.now ||
        decide (codes.length < d.codesFor q.elements) then none
    else
      let els := s.ddcElements q.source index q.elements codes
      some { index, tick := d.stampOf index, exponent := 0, raw := els.flatMap Element.bytes,
             marks := els.map fun e => (e.ovr, e.unsettled) }
  else
    q.frames.head?.map fun f =>
      let w := (s.job q.source).valueBytes
      let raw := (f.values.drop (q.firstBin * w)).take (q.bins * w)
      { index := f.tag.index, tick := f.tag.tick, exponent := f.tag.exponent, raw,
        marks := List.replicate (raw.length / w) (f.tag.ovr, f.tag.unsettled) }

/-- The flag map of a block: two bits for each element (R273). -/
def flagMap : List (Bool × Bool) → List Byte
  | [] => []
  | a :: b :: c :: d :: rest =>
    let two (e : Bool × Bool) : Nat := bit e.1 + 2 * bit e.2
    BitVec.ofNat 8 (two a + 4 * two b + 16 * two c + 64 * two d) :: flagMap rest
  | a :: rest =>
    let two (e : Bool × Bool) : Nat := bit e.1 + 2 * bit e.2
    [BitVec.ofNat 8 (two a + 4 * (rest.head?.elim 0 two) + 16 * ((rest.drop 1).head?.elim 0 two))]

/-- INPUT_BLOCK_ARRIVAL (R273, R277): the block enters the retention ring and, once one is free, a slot; or it
is lost. `mapped` says whether a flag map follows its elements. DESIGN CHOICE, log entry 48. -/
def execInputBlockArrival (t core port index : Nat) (mapped : Bool) (_ovr _unsettled _settled : Computed)
    (codes : List Int) (s : State) : Host.Outcome State Fault Refusal :=
  happens t (fun s =>
    let x := s.core core
    let q := x.port port
    if port > 1 || q.kind == 0 || !(x.mode == .running || x.mode == .quiescing) then s
    else
      match s.nextBlock q index codes with
      | none => s
      | some k =>
        let e := s.blockElements q k.exponent k.raw
        let ovr := k.marks.any Prod.fst
        let unsettled := k.marks.any Prod.snd
        let map := if mapped then flagMap k.marks else []
        let settled := k.marks.length - (k.marks.reverse.findIdx? Prod.snd).getD k.marks.length
        let flags := bit ovr + 2 * bit unsettled + 4 * bit (s.provisionalAt k.tick) + 8 * bit q.gap + 16 * bit mapped
        let head := pack [(8, k.index), (16, stampNat { tick := k.tick }), (2, e.1.length / 4), (1, unsign 8 e.2), (1, flags),
          (4, min settled (e.1.length / 4))]
        let bytes := head ++ e.1 ++ map
        let b : InBlock := { port, flags := flags % 16, bytes, place := q.ringNext }
        let q := if q.kind = 2 then { q with frames := q.frames.drop 1 } else q
        let ring := s.ringOf x port
        if ring.2 < q.ringBytes + bytes.length then
          s.setCore core { x with gaps := satAdd 64 x.gaps 1, ports := x.ports.set port { q with gap := true } }
        else
          let r := { q with gap := false, waiting := q.waiting ++ [b], ringNext := q.ringNext + bytes.length }
          let s := s.keepCellar (ringWrite s.cellarMem ring.1 ring.2 q.ringNext bytes)
          s.setCore core (({ x with ports := x.ports.set port r } : Core).fillSlots port 1)) s

/-- ACTIVATION_CREDIT_EXHAUSTED (R276). -/
def execActivationCreditExhausted (t core : Nat) (s : State) : Host.Outcome State Fault Refusal :=
  happens t (fun s =>
    let x := s.core core
    if x.mode = .running ∧ x.k.maxCycles ≤ x.cycles s.now then s.setCore core { x with paused := true } else s) s

/-- SORREL_FORCE_MESSAGE (R275): the oldest released FORCE is made, or refused. -/
def execSorrelForceMessage (t core : Nat) (s : State) : Host.Outcome State Fault Refusal :=
  happens t (fun s =>
    let x := s.core core
    match x.forces with
    | u :: rest =>
      let s := s.setCore core { x with forces := rest }
      if u < 64 && x.forceMask.testBit u && (s.tunit u).inService && s.stewardRuns then
        { s with trig := { s.trig with kernelForces := s.trig.kernelForces ++ [u] } }
      else s.setCore core { s.core core with forcesRefused := wrapAdd 32 x.forcesRefused 1 }
    | [] => s) s

/-! ## Takeovers (R277, R520) -/

/-- The spare reruns the activation: INIT, parameters, the mirrored STATE and the generators are restored, the rest is
lost, and the uncommitted blocks are replayed from the ring into the slots that they had (R277).
DESIGN CHOICE, log entry 48. -/
def State.rerun (s : State) (x : Core) (lost : Nat) : Core :=
  let state := s.mirrored x
  let keep : KMap Byte := x.dmem.filter fun e => decide (e.1 < x.k.init.length) || decide (paramBase ≤ e.1)
  let replay (x : Core) (p : Nat) : Core :=
    let q := x.port p
    let ring := s.ringOf x p
    let again (b : InBlock) : InBlock := { b with bytes := ringRead s.cellarMem ring.1 ring.2 b.place b.bytes.length }
    let r := { q with
      filled := q.filled - q.slots.length, slots := [], current := false, waiting := (q.slots ++ q.waiting).map again }
    Core.fillSlots { x with ports := x.ports.set p r } p r.waiting.length
  let y := { x with
    sregs := [], vregs := [], accs := [], ags := x.commit.ags, lost := some lost, pc := 0, loops := [],
    maxi := {}, mini := {}, dmem := overlay keep state }
  replay (replay y.discard 0) 1

/-- A physical core fails (R277, R520, R522). -/
def State.coreFail (s : State) (u : Nat) (inj : Bool) : State :=
  let unit : Unit3 := ⟨4, 0, u⟩
  if u > 67 || s.isRetired unit then s
  else
    let spare := (List.range 68).find? fun v => v != u && s.spareCore v
    match (List.range 64).find? fun c => (s.core c).physical c == u && !(s.core c).lent && !(s.core c).dead with
    | none => s.faultIn unit { injected := inj }
    | some c =>
      let x := s.core c
      let run := x.mode == .running || x.mode == .quiescing
      let move (v : Nat) : State :=
        let y := { x with phys := some v }
        if run then (s.setCore c (s.rerun y s.freeDrawn)).drawFree else s.setCore c y
      let info (v : Nat) : FaultInfo :=
        { takenBy := v, logical := c, injected := inj }
      match spare, s.sparesLeft 4 0 with
      | some v, _ + 1 => (move v).faultMasked unit (info v)
      | _, _ =>
        match (List.range 64).find? fun d => d != c && (s.core d).mode == .empty && !(s.core d).lent && !(s.core d).dead with
        | some d =>
          let v := (s.core d).physical d
          let s1 := (move v).setCore d { s.core d with lent := true }
          let ft := { s1.ft with borrowed := s1.ft.borrowed ++ [(⟨4, 0, v⟩ : Unit3)] }
          ({ s1 with ft } : State).faultMasked unit { info v with borrowed := true }
        | none =>
          let s1 := if run then (s.setCore c x.revert).kernelEnd c 3 0 else s
          (s1.setCore c { s1.core c with dead := true }).faultUnmasked unit { logical := c, injected := inj }

/-- CORE_FAULT (R277): a physical core, or the four of its quad. -/
def execCoreFault (t core : Nat) (quad : Bool) (s : State) : Host.Outcome State Fault Refusal :=
  happens t (fun s =>
    if quad then (span (core / 4 * 4) 4).foldl (fun s u => s.coreFail u false) s else s.coreFail core false) s

/-! ## Commands -/

/-- A loaded image, or none where a header field is out of range or the size is inconsistent (R279). -/
def kernelOf (b : List Byte) (size : Nat) : Option Kernel :=
  let fl := u16 b 6
  let code := u32 b 8
  let init := u32 b 12
  let st := u32 b 16
  let rec_ := u32 b 20
  let cyc := u32 b 24
  let b0 := u32 b 48
  let b1 := u32 b 52
  let slot := u32 b 56
  let n := u8 b 60
  let top := paramBase - st
  let area := slot * n
  let two := b1 != 0xFFFFFFFF
  let bad : Bool := u32 b 0 != 0x4C4B5253 || u16 b 4 != 1 || decide (3 < fl) || decide (code < 8) ||
    decide (65536 < code) || code % 8 != 0 || decide (131072 < init) || init % 16 != 0 || decide (16384 < st) ||
    st % 64 != 0 || (rec_ != 0 && (decide (rec_ < 48) || decide (16384 < rec_) || rec_ % 16 != 0)) ||
    decide (cyc < 100) || decide (1600000 < cyc) || !zeros b 28 4 || b0 % 64 != 0 || decide (slot < 64) ||
    decide (32768 < slot) || slot % 64 != 0 || decide (n < 2) || decide (8 < n) || !zeros b 61 67 ||
    decide (b0 < init) || decide (top < b0 + area) ||
    (two && (b1 % 64 != 0 || decide (b1 < init) || decide (top < b1 + area) ||
      (decide (b0 < b1 + area) && decide (b1 < b0 + area)))) ||
    size != 128 + code + init + (if fl.testBit 0 then 132 else 0)
  if bad then none
  else
    let signed := b.take (128 + code + init)
    some {
      code := (records (code / 8) 8 ((b.drop 128).take code)).map leNat, init := (b.drop (128 + code)).take init,
      flagsOwn := fl.testBit 1, stateBytes := st, record := rec_, maxCycles := cyc, inBase0 := b0,
      inBase1 := if two then some b1 else none, slotBytes := slot, slots := n, name := (b.drop 32).take 16,
      digest := sha512 signed }

/-- An image may be loaded under the owner policy in force (R280, R560). -/
def State.kernelAllowed (s : State) (b : List Byte) (k : Kernel) : Bool :=
  match s.sec.owner with
  | some o =>
    !o.policy.testBit 0 || ((u16 b 6).testBit 0 && verifyP521 o.key k.digest (b.drop (b.length - 132)))
  | none => true

/-- SORREL.LOAD_KERNEL (R280); `host` is what the host memory system returns for the image. -/
def sorrelLoadKernel (host : List Byte) (c : Cmd) (s : State) : VerbOut :=
  let p := c.payload
  let cores := maskBits 64 (u64 p 0)
  let cellar := u8 p 8 == 1
  let size := u32 p 12
  let addr := u64 p 16
  if cores.isEmpty ∨ u8 p 8 > 1 ∨ !zeros p 9 3 ∨ (if cellar then !s.inRegion addr size else addr % 8 ≠ 0) then
    .fail .badParam 0
  else if cores.any fun n => (s.core n).lent then .fail .noResource 0
  else if cores.any fun n => (s.core n).mode == .running || (s.core n).mode == .quiescing then .fail .badState 0
  else
    let b := if cellar then s.cellarMem.readBytes addr size else host
    let s := s.hostLoad c addr size cellar
    match kernelOf b size with
    | none => .done .badParam 0 s
    | some k =>
      if !s.kernelAllowed b k then .done .denied 0 s
      else
        match s.ctxs.find? fun e => e.2.srcKind == 5 && cores.contains e.2.source && e.2.element != k.record with
        | some (n, _) => .done .badState (consumerWord (8, n)) s
        | none =>
          .done .ok (leNat (k.digest.take 8)) (cores.foldl (fun s n =>
            let x := s.core n
            s.setCore n (({ x with mode := .loaded, kernel := some k } : Core).put 0 k.init)) s)

/-- SORREL_LOAD_KERNEL: `SORREL.LOAD_KERNEL` (R280). -/
def execSorrelLoadKernel (t fn tag : Nat) (image : List Byte) (s : State) : Host.Outcome State Fault Refusal :=
  verb t 0x0901 fn tag (sorrelLoadKernel image) s

/-- SORREL.BIND (R281). -/
def sorrelBind (c : Cmd) (s : State) : VerbOut :=
  let p := c.payload
  let n := u8 p 0
  let port := u8 p 1
  let x := s.core n
  let kind := u8 p 2
  let q : InPort := { kind, source := u8 p 3, elements := u32 p 4, firstBin := u32 p 8, bins := u32 p 12 }
  let flow := u32 p 16
  let inBad := port ≤ 1 ∧ (kind > 2 ∨ (kind ≠ 0 ∧ q.source > 31) ∨ (kind = 1 ∧ (q.elements < 64 ∨ q.elements > 8192)) ∨
    (kind = 2 ∧ (q.bins = 0 ∨ q.bins > 8192)))
  let outBad := port = 2 ∧ ((flow > 49151 ∧ flow ≠ 0xFFFFFFFF) ∨ u32 p 20 > 1024 ∨
    (flow ≠ 0xFFFFFFFF ∧ !s.flowExists flow))
  let regBad := port = 4 ∧ (u64 p 32 % 4096 ≠ 0 ∨ !s.inRegion (u64 p 32) (u64 p 40))
  if n > 63 ∨ port > 4 ∨ inBad ∨ outBad ∨ regBad then .fail .badParam 0
  else if x.lent then .fail .noResource 0
  else if x.mode = .running ∨ x.mode = .quiescing then .fail .badState 0
  else if port ≤ 1 ∧ (kind = 2 ∧ !s.press.jobs.has q.source ∨ kind = 1 ∧ !(s.ddc q.source).configured) then .fail .badState 0
  else if port ≤ 1 ∧ kind ≠ 0 ∧ x.kernel.isSome ∧ x.k.slotBytes < s.blockBytes q then .fail .badParam 0
  else
    let y := match port with
      | 2 => { x with flow := if flow = 0xFFFFFFFF then none else some flow, outRecords := u32 p 20 }
      | 3 => { x with forceMask := u64 p 24 }
      | 4 => { x with region := some (u64 p 32, u64 p 40) }
      | _ => { x with ports := x.ports.set port (if kind = 0 then {} else q) }
    let need := s.regionNeeded y
    if (port = 4 ∨ port ≤ 1 ∧ kind ≠ 0) ∧ y.region.any fun r => decide (r.2 < need) then .fail .noResource need
    else .done .ok need (s.setCore n y)

/-- SORREL_BIND: `SORREL.BIND` (R281). -/
def execSorrelBind (t fn tag : Nat) (s : State) : Host.Outcome State Fault Refusal :=
  verb t 0x0904 fn tag sorrelBind s

/-- Allotments a kernel asks for (R276). -/
def State.kernelDemand (s : State) (x : Core) : KMap Nat :=
  let bytes (q : InPort) : Nat := perSecond (s.blockRate q) (4 * s.blockCount q)
  let r := s.blockRate (x.port 0)
  let cellar := (4 * (bytes (x.port 0) + bytes (x.port 1)) + 2) / 3 + perSecond r x.k.stateBytes
  let flow := match x.flow with
    | some f => s.flowDemand f (perSecond r (x.outRecords * x.k.record))
    | none => []
  addDemand [(0, cellar), (7, perSecond r x.k.maxCycles)] flow

/-- A bound source is enabled (R282). DESIGN CHOICE, log entry 49. -/
def State.portOn (s : State) (q : InPort) : Bool :=
  if q.kind = 0 then true
  else if q.kind = 1 then (s.ddc q.source).running
  else s.press.jobs.has q.source && (s.job q.source).mode == .running

/-- A kernel starts: instruction 0 issues at tick `at_` (R282). -/
def State.coreStart (s : State) (n : Nat) (params : List Byte) (at_ : Nat) : State :=
  let x := (s.core n).put paramBase params
  let clear (q : InPort) : InPort := { q with filled := 0, slots := [], current := false, waiting := [], gap := false, frames := [], ringNext := 0 }
  (s.mirror x []).setCore n { x with
    mode := .running, pc := 0, loops := [], accSat := false, vSat := false, since := at_, cycleBase := 0,
    sr6 := n, sr7 := 0, ports := x.ports.mapVals fun _ q => clear q
    staged := [], messages := [], forces := [], commit := { ags := x.ags, state := x.stateMap }, sched := none,
    atCommit := false, paused := false, haltCause := 0, trapKind := 0, haltPc := 0, startedAt := at_,
    activations := 0, records := 0, gaps := 0, cyclesLast := 0, cyclesMax := 0, forcesSent := 0,
    forcesRefused := 0 }

/-- What a running core declares (R278): 1.2 W, and 1.5 W more for the first of its quad. -/
def State.coreDecl (s : State) (n : Nat) : Decl :=
  { fam := 9, obj := n, group := (s.core n).physical n / 4, first := 2700000, each := 1200000 }

/-- SORREL.START (R282). -/
def sorrelStart (c : Cmd) (s : State) : VerbOut :=
  let p := c.payload
  let n := u8 p 0
  let x := s.core n
  let w : Sched := { mode := u8 p 1, at_ := u64 p 8 }
  let params := (p.drop 16).take (u16 p 2)
  if u16 p 2 ≤ 256 ∧ p.length ≠ 16 + u16 p 2 then .fail .badLength 0
  else if n > 63 ∨ w.mode > 2 ∨ u16 p 2 > 256 ∨ !zeros p 4 4 then .fail .badParam 0
  else if x.lent then .fail .noResource 0
  else if x.mode = .running then .done .ok x.startedAt s
  else if x.kernel.isNone ∨ (x.port 0).kind = 0 ∨ !s.portOn (x.port 0) ∨ !s.portOn (x.port 1) ∨ x.region.isNone ∨
      x.dead ∨ (s.startTick w).isNone then .fail .badState 0
  else if s.tooSoon w then .fail .badParam 0
  else
    match s.allot (actKey kindKernel n) (s.kernelDemand x) with
    | none => .fail .noAllotment 0
    | some s1 =>
      match s1.declare [s.coreDecl n] with
      | .error short => .fail .noEnergy short
      | .ok s2 =>
        if w.mode = 0 then .done .ok s.now (s2.coreStart n params s.now)
        else .running 0 [] (s2.setCore n { x with sched := some (w, params) })

/-- SORREL_START: `SORREL.START` (R282). -/
def execSorrelStart (t fn tag : Nat) (s : State) : Host.Outcome State Fault Refusal :=
  verb t 0x0902 fn tag sorrelStart s

/-- SORREL_SCHEDULED_START (R282). -/
def execSorrelScheduledStart (t core : Nat) (s : State) : Host.Outcome State Fault Refusal :=
  happens t (fun s =>
    match (s.core core).sched with
    | some (w, params) =>
      if s.reached w then
        let at_ := s.dueTick w
        let s1 := s.coreStart core params at_
        s1.finishAll (s1.startedCmds 0x0902 fun c => u8 c.payload 0 == core) .ok fun _ => at_
      else s
    | none => s) s

/-- SORREL.STOP (R283). -/
def sorrelStop (c : Cmd) (s : State) : VerbOut :=
  let p := c.payload
  let n := u8 p 0
  let x := s.core n
  if n > 63 ∨ u8 p 1 > 1 ∨ !zeros p 2 2 then .fail .badParam 0
  else if x.lent then .fail .noResource 0
  else if x.mode ≠ .running then .done .quiesced 0 s
  else
    match s.coreConsumer n 0 with
    | some u => .fail .badState (consumerWord u)
    | none =>
      if u8 p 1 = 1 then .running 0 [] (s.setCore n { x with mode := .quiescing, atCommit := true })
      else .done .quiesced 0 ((s.setCore n x.revert).kernelEnd n 3 0)

/-- SORREL_STOP: `SORREL.STOP` (R283). -/
def execSorrelStop (t fn tag : Nat) (s : State) : Host.Outcome State Fault Refusal :=
  verb t 0x0903 fn tag sorrelStop s

/-- Code of a core's state (R284). -/
def CoreMode.code : CoreMode → Nat
  | .empty => 0 | .loaded => 1 | .running => 2 | .halted => 3 | .quiescing => 4

/-- The 96 bytes of `SORREL.GET_STATUS` (R284). -/
def State.coreStatus (s : State) (n : Nat) : List Byte :=
  let x := s.core n
  pack [(1, n), (1, x.mode.code), (1, x.physical n), (1, bit x.accSat + 2 * bit x.vSat + 4 * bit x.phys.isSome),
    (1, s.sparesLeft 4 0), (1, x.haltCause), (1, x.trapKind), (1, 0), (8, x.activations), (8, x.records), (8, x.gaps),
    (4, x.cyclesLast), (4, x.cyclesMax), (4, x.forcesSent), (4, x.forcesRefused), (4, x.haltPc), (4, 0),
    (16, leNat (x.k.digest.take 16)), (24, leNat x.note)]

/-- SORREL.GET_STATUS (R284). -/
def sorrelGetStatus (c : Cmd) (s : State) : VerbOut :=
  let n := u8 c.payload 0
  if n > 63 ∨ !zeros c.payload 1 3 then .fail .badParam 0
  else if (s.core n).lent then .fail .noResource 0
  else .data (s.coreStatus n) 0 s

/-- SORREL_GET_STATUS: `SORREL.GET_STATUS` (R284). -/
def execSorrelGetStatus (t fn tag : Nat) (s : State) : Host.Outcome State Fault Refusal :=
  verb t 0x0905 fn tag sorrelGetStatus s

end Sys2Proof.Machine
end

