-- ==== Sys2Proof/Machine/Budget.lean ====
section
/-! DEFINITION. The BUDGET family: the power cap, grants, credits, slack ageing, urgency, the energy ledger and
throttling (R491 to R508). -/

namespace Sys2Proof.Machine

/-- Replaces the power manager state. -/
def State.setBud (s : State) (b : Budget) : State := { s with bud := b }

/-! ## Periods, ageing, urgency (R491, R495 to R497) -/

/-- The credits of one activity for a period (R491). -/
def Budget.creditsOf (b : Budget) (act : Nat) (a : Alloc) : KMap Nat :=
  a.rates.map fun e => (act * 128 + e.1, (e.2 * b.periodUs + 999999) / 1000000)

/-- Every activity's credits for a new period: what is left of the old one is lost (R491).
DESIGN CHOICE, log entry 32. -/
def Budget.load (b : Budget) : Budget := { b with credits := b.allocs.flatMap fun e => b.creditsOf e.1 e.2 }

/-- A cap, period and ageing interval that have been set come into force (R491, R503). -/
def Budget.adopt (b : Budget) : Budget :=
  match b.nextCap with
  | some (cap, period, ageing) => { b with capW := cap, periodUs := period, ageing, nextCap := none }
  | none => b

/-- The tick of the next period boundary (R491). -/
def Budget.nextBoundary (b : Budget) : Nat := b.periodAt + b.periodUs * ticksPerUs

/-- BUDGET_PERIOD_BOUNDARY (R491): new credits load, and the commands that waited for it complete (R503, R504). -/
def execBudgetPeriodBoundary (t : Nat) (s : State) : Host.Outcome State Fault Refusal :=
  happens t (fun s =>
    if s.now < s.bud.nextBoundary then s
    else
      let n := s.bud.periodUs * ticksPerUs
      let at_ := s.now - (s.now - s.bud.periodAt) % n
      let s := s.setBud { s.bud.adopt.load with periodAt := at_ }
      (s.finishAll (s.startedCmds 0x1401 fun _ => true) .ok fun _ => 0).finishAll
        (s.startedCmds 0x1402 fun _ => true) .ok fun _ => 0) s

/-- Ticks of an ageing interval (R496). -/
def Budget.ageTicks (b : Budget) : Nat := b.ageing * b.periodUs * ticksPerUs

/-- AGEING_INTERVAL (R496): the waiting slack work of a flow rises one level for each interval that it has waited. -/
def execAgeingInterval (t flow : Nat) (s : State) : Host.Outcome State Fault Refusal :=
  happens t (fun s =>
    let x := s.flow flow
    if x.ready.isNone || x.urgent || s.bud.credits.get (burstCredit flow) 0 != 0 ||
      decide (s.now < x.readySince + (s.bud.aged.get flow 0 + 1) * s.bud.ageTicks) then s
    else s.setBud { s.bud with aged := s.bud.aged.set flow (s.bud.aged.get flow 0 + 1) }) s

/-- DETAIL of EV_BUDGET_URGENT (R508). DESIGN CHOICE, log entry 71. -/
def urgentDetail (res kind count summary : Nat) : Nat :=
  res + 2 ^ 8 * kind + 2 ^ 16 * min count (2 ^ 32 - 1) + 2 ^ 48 * summary

/-- The burst of flow `f` is credited and has been ready for one budget period (R497). -/
def State.flowLate (s : State) (f : Nat) : Bool :=
  (s.flow f).ready.isSome && s.bud.credits.get (burstCredit f) 0 != 0 &&
    decide ((s.flow f).readySince + s.bud.periodUs * ticksPerUs ≤ s.now)

/-- LATENCY_TARGET_REACHED (R497): credited work of an activity becomes urgent; the first urgency outside an open
interval raises EV_BUDGET_URGENT. A flow's burst must have waited a budget period; of other work the row says so. -/
def execLatencyTargetReached (t kind object resource : Nat) (s : State) : Host.Outcome State Fault Refusal :=
  happens t (fun s =>
    let act := actKey kind object
    if (s.alloc act).rates.get resource 0 = 0 || (kind == kindFlow && resource == 2 && !s.flowLate object) then s
    else
      let s := if kind = kindFlow && resource = 2 then
          s.setFlow object { s.flow object with urgent := true }
        else s
      if s.bud.urgent.any fun i => i.act == act then
        let count (i : UrgentInterval) : UrgentInterval :=
          if i.act = act then { i with count := i.count + 1 } else i
        s.setBud { s.bud with urgent := s.bud.urgent.map count }
      else
        let i : UrgentInterval := { act, res := resource, opened := s.now }
        (s.setBud { s.bud with urgent := s.bud.urgent ++ [i] }).event 0x1401 object (urgentDetail resource kind 1 0)) s

/-- URGENT_INTERVAL_CLOSE (R128, R497): a SUMMARY with the count and a new interval, or no interval. -/
def execUrgentIntervalClose (t kind object : Nat) (s : State) : Host.Outcome State Fault Refusal :=
  happens t (fun s =>
    let act := actKey kind object
    match s.bud.urgent.find? fun i => i.act == act with
    | none => s
    | some i =>
      let rest := s.bud.urgent.filter fun j => j.act != act
      let close := i.opened + ticksPerUs
      if s.now < close then s
      else if i.count = 0 then s.setBud { s.bud with urgent := rest }
      else
        let next : UrgentInterval := { i with opened := close, count := 0 }
        (s.setBud { s.bud with urgent := rest ++ [next] }).eventAt 0x1401 object { tick := close }
          (urgentDetail i.res kind i.count 1)) s

/-! ## Ledger and throttling (R501, R502) -/

/-- LEDGER.STATUS (R501). -/
def State.ledgerStatusNow (s : State) : Nat :=
  s.bud.stage + 4 * bit s.pw.feedA + 8 * bit s.pw.feedB + 16 * bit s.overrideHeld

/-- LEDGER_UPDATE (R501): the ledger at a 1 ms boundary. `power` is the measured mean power in mW, `total` and
`energies` the µJ drawn since the last boundary at the input and by index. -/
def execLedgerUpdate (t power total : Nat) (energies : List (Nat × Nat)) (s : State) :
    Host.Outcome State Fault Refusal :=
  happens t (fun s =>
    let b := s.bud
    let at_ := s.now - s.now % ticksPerMs
    if at_ ≤ b.boundary then s
    else
    let add (m : KMap Nat) (e : Nat × Nat) : KMap Nat :=
      if e.1 ≤ 102 then m.set e.1 (wrapAdd 48 (m.get e.1 0) e.2) else m
    let cap := s.effectiveCap * 1000
    let low := decide (power * 100 < cap * 95)
    s.setBud { b with
      ledgerCap := b.capW, ledgerPeriod := b.periodUs + 2 ^ 8 * b.ageing, ledgerDeclared := s.declaredMw,
      ledgerStatus := s.ledgerStatusNow, ledgerEffective := s.effectiveCap, boundary := at_,
      powerMw := power % 2 ^ 32, peakMw := if b.peakReset then power % 2 ^ 32 else max b.peakMw (power % 2 ^ 32),
      peakReset := false, meters := energies.foldl add b.meters, total := wrapAdd 48 b.total total,
      above := decide (cap < power), belowMs := if low then b.belowMs + 1 else 0 }) s

/-- A throttling stage is entered, with EV_POWER_LIMIT (R502, R508). -/
def State.enterStage (s : State) (n : Nat) : State :=
  (s.setBud { s.bud with stage := n, above := false, belowMs := 0 }).event 0x1402 0 (n + 2 ^ 8 * s.bud.powerMw)

/-- THROTTLE_STAGE_ADVANCE (R502): the power has been above the effective cap for a further 1 ms. -/
def execThrottleStageAdvance (t : Nat) (s : State) : Host.Outcome State Fault Refusal :=
  happens t (fun s => if s.bud.above && decide (s.bud.stage < 3) then s.enterStage (s.bud.stage + 1) else s) s

/-- THROTTLE_STAGE_RELEASE (R502): the power has been below 95 % of the effective cap for 10 ms. -/
def execThrottleStageRelease (t : Nat) (s : State) : Host.Outcome State Fault Refusal :=
  happens t (fun s =>
    if decide (10 ≤ s.bud.belowMs) && decide (0 < s.bud.stage) then s.enterStage (s.bud.stage - 1) else s) s

/-! ## Commands (R503 to R507) -/

/-- BUDGET.SET_POWER_CAP (R503). -/
def budgetSetPowerCap (c : Cmd) (s : State) : VerbOut :=
  let p := c.payload
  let keep (asked old : Nat) : Nat := if asked = 0 then old else asked
  let b := s.bud
  let old := b.nextCap.getD (b.capW, b.periodUs, b.ageing)
  let cap := keep (u16 p 0) old.1
  if (u16 p 0 ≠ 0 ∧ (u16 p 0 < 150 ∨ 560 < u16 p 0)) ∨ u8 p 2 > 100 ∨ u8 p 3 > 64 ∨ u8 p 4 > 1 ∨ !zeros p 5 3 then
    .fail .badParam 0
  else if u16 p 0 ≠ 0 ∧ cap * 100000000 < b.declared100 s.powerOp then .fail .noEnergy s.declaredMw
  else
    .running 0 [] (s.setBud { b with
      nextCap := some (cap, keep (u8 p 2) old.2.1, keep (u8 p 3) old.2.2),
      peakReset := b.peakReset || u8 p 4 == 1 })

/-- BUDGET_SET_POWER_CAP: `BUDGET.SET_POWER_CAP` (R503). -/
def execBudgetSetPowerCap (t fn tag : Nat) (s : State) : Host.Outcome State Fault Refusal :=
  verb t 0x1401 fn tag budgetSetPowerCap s

/-- KIND and OBJECT are in range (R504). -/
def activityInRange (kind obj : Nat) : Bool :=
  match kind with
  | 1 => decide (obj ≤ 4095)
  | 2 => decide (obj ≤ 49151)
  | 3 => decide (obj ≤ 255)
  | 4 => decide (obj ≤ 63)
  | 5 | 6 | 7 => obj == 0
  | 8 => decide (obj ≤ 1)
  | _ => false

/-- The object of an activity exists (R504). -/
def State.activityExists (s : State) (kind obj : Nat) : Bool :=
  match kind with
  | 1 => s.ctxs.has obj
  | 2 => s.flowExists obj
  | 3 => (s.site obj).mode != .undefined
  | 4 => (s.core obj).kernel.isSome
  | _ => true

/-- All ones in a RATE slot: the present allotment is kept (R504). -/
def keepRate : Nat := 2 ^ 64 - 1

/-- The resource keys that slot `r` of `BUDGET.GRANT` sets for an activity; TRELLIS counts in each direction (R491,
R504). DESIGN CHOICE, log entry 72. -/
def State.slotKeys (s : State) (kind obj r : Nat) : List Nat :=
  if r = 3 then (if kind = kindSite then (devicesOf (s.site obj).pins).flatMap fun d => [16 + d, 128 + d] else [])
  else if r = 4 then
    4 :: (if kind = kindFlow then ((s.flow obj).bind.map fun b => [96 + b.port]).getD [] else [])
  else if r = 0 then [0, 1]
  else [r]

/-- The rates that a grant leaves an activity with (R504). -/
def State.grantRates (s : State) (kind obj : Nat) (p : List Byte) : KMap Nat :=
  ([0, 2, 3, 4, 5, 6, 7, 8].map fun r => (r, u64 p (16 + 8 * r))).foldl (fun m e =>
    if e.2 = keepRate then m
    else (s.slotKeys kind obj e.1).foldl (fun m k => if e.2 = 0 then m.del k else m.set k e.2) m)
    (s.alloc (actKey kind obj)).rates

/-- What slot `r` of an activity reads as (R504). DESIGN CHOICE, log entry 72. -/
def State.slotRate (s : State) (act r : Nat) : Nat :=
  let held := (s.alloc act).rates
  if r = 1 then roundEven (held.get 0 0) 2
  else if r = 3 then held.foldl (fun n e => if (16 ≤ e.1 ∧ e.1 < 80) ∨ (128 ≤ e.1 ∧ e.1 < 192) then max n e.2 else n) 0
  else if r = 8 then max (held.get 8 0) (s.bud.ownEnergy act)
  else held.get r 0

/-- BUDGET.GRANT (R493, R494, R504). DESIGN CHOICE, log entry 72. -/
def budgetGrant (c : Cmd) (s : State) : VerbOut :=
  let p := c.payload
  let kind := u8 p 0
  let obj := u32 p 4
  let fl := u8 p 1
  let act := actKey kind obj
  let slot (r : Nat) : Nat := u64 p (16 + 8 * r)
  let only (r k : Nat) : Bool := slot r == keepRate || slot r == 0 || kind == k
  if !activityInRange kind obj ∨ fl > 7 ∨ !zeros p 2 2 ∨ !zeros p 8 8 ∨ slot 1 ≠ keepRate ∨ !only 3 kindSite ∨
      !only 7 kindKernel then .fail .badParam 0
  else if !s.activityExists kind obj then .fail .badState 0
  else if fl.testBit 0 && c.fn == 0 then .fail .denied 0
  else if fl.testBit 2 then .data (pack ((List.range 9).map fun r => (8, s.slotRate act r))) 0 s
  else
    let held := (s.alloc act).rates
    let new := s.grantRates kind obj p
    if kind = kindCal && held.any fun e => decide (new.get e.1 0 < e.2) then .fail .denied 0
    else if !s.fits act (new.filter fun e => e.1 != 8) (fl.testBit 0) then .fail .noAllotment 0
    else
      let b := { s.bud with allocs := s.bud.allocs.set act { rates := new, override := fl.testBit 0 } }
      let short := s.shortfall b s.powerOp
      if held.get 8 0 < new.get 8 0 && short != 0 then
        (if fl.testBit 1 then .wait else .fail .noEnergy short)
      else .running 0 [] (s.setBud b)

/-- BUDGET_GRANT: `BUDGET.GRANT` (R504). -/
def execBudgetGrant (t fn tag : Nat) (s : State) : Host.Outcome State Fault Refusal :=
  verb t 0x1402 fn tag budgetGrant s

/-- The stop that R73 runs on the owner of an activity, as the owner's own family words it (R505). -/
def ownerStop (c : Cmd) (kind obj : Nat) (s : State) : VerbOut :=
  match kind with
  | 1 => acqStop false { c with payload := pack [(2, obj), (2, 0)] } s
  | 2 =>
    let x := s.flow obj
    if x.mode = .quiescing then .wait
    else if x.mode = .created ∨ x.mode = .disabled then .done .quiesced 0 (s.setFlow obj { x with mode := .created })
    else s.flowStop c obj 3
  | 3 => patStop [] { c with payload := pack [(32, 2 ^ obj), (1, 1), (3, 0)] } s
  | 4 => sorrelStop { c with payload := pack [(1, obj), (3, 0)] } s
  | 5 => dispDisable c s
  | 8 => stimStop { c with payload := pack [(1, 2 ^ obj), (1, 1), (2, 0)] } s
  | _ => .done .quiesced 0 s

/-- BUDGET.REVOKE (R73, R505). -/
def budgetRevoke (c : Cmd) (s : State) : VerbOut :=
  let p := c.payload
  let kind := u8 p 0
  let obj := u32 p 4
  if !activityInRange kind obj ∨ !zeros p 1 3 then .fail .badParam 0
  else if kind = kindCal then .fail .denied 0
  else if !s.activityExists kind obj then .fail .badState 0
  else
    match ownerStop c kind obj s with
    | .done _ _ s' => .done .quiesced 0 (s'.release (actKey kind obj))
    | o => o

/-- BUDGET_REVOKE: `BUDGET.REVOKE` (R505). -/
def execBudgetRevoke (t fn tag : Nat) (s : State) : Host.Outcome State Fault Refusal :=
  verb t 0x1403 fn tag budgetRevoke s

/-- The 1,088 bytes of the ledger area (R501). DESIGN CHOICE, log entry 72. -/
def Budget.ledger (b : Budget) : List Byte :=
  pack ([(4, b.ledgerCap), (4, b.ledgerPeriod), (4, b.ledgerDeclared), (4, b.powerMw), (4, b.peakMw),
    (4, b.ledgerStatus), (8, b.boundary), (4, b.ledgerEffective), (220, 0)] ++
    ((List.range 103).map fun d => (8, b.meters.get d 0)) ++ [(8, b.total)])

/-- BUDGET.READ_LEDGER (R506). -/
def budgetReadLedger (c : Cmd) (s : State) : VerbOut :=
  let p := c.payload
  if u8 p 0 > 1 ∨ !zeros p 1 3 then .fail .badParam 0
  else
    .data s.bud.ledger s.bud.boundary (s.setBud { s.bud with peakReset := s.bud.peakReset || u8 p 0 == 1 })

/-- BUDGET_READ_LEDGER: `BUDGET.READ_LEDGER` (R506). -/
def execBudgetReadLedger (t fn tag : Nat) (s : State) : Host.Outcome State Fault Refusal :=
  verb t 0x1404 fn tag budgetReadLedger s

/-- What is admitted of resource `r`, per second (R507). -/
def State.admitted (s : State) (r : Nat) : Nat :=
  let sum (k : Nat) : Nat := s.bud.allocs.foldl (fun n e => n + unitRate e.2.rates k) 0
  match r with
  | 1 => roundEven (sum 0) 2
  | 3 => (List.range 32).foldl (fun n k => max n (max (sum (16 + 2 * k)) (sum (128 + 2 * k)))) 0
  | 7 => s.bud.allocs.foldl (fun n e => max n (e.2.rates.get 7 0)) 0
  | 8 => roundEven (s.bud.declared100 s.powerOp) 100
  | _ => sum r

/-- RAW, POST_FAULT and COUNTED of resource `r` (R491, R507). DESIGN CHOICE, log entry 73. -/
def State.capacity (s : State) (r : Nat) : Nat × Nat × Nat :=
  let op := s.countOp
  match r with
  | 1 => (resourceRaw op 1 / 2, resourcePost op 1 / 2, resourceCounted op 1 false / 2)
  | 3 => (resourceRaw op 16, resourcePost op 16, resourceCounted op 16 false)
  | 8 => (resourceRaw op 8, resourcePost op 8, s.effectiveCap * 1000000)
  | _ => (resourceRaw op r, resourcePost op r, resourceCounted op r false)

/-- The 320 bytes of `BUDGET.GET_CAPACITY` (R507). -/
def State.capacityBytes (s : State) : List Byte :=
  let n := (s.bud.allocs.filter fun e => e.2.rates.any fun r => r.2 != 0).length
  pack ([(1, s.bud.periodUs), (1, s.bud.ageing), (1, s.cellarOp), (5, 0), (4, n), (20, 0)] ++
    (List.range 9).flatMap fun r =>
      let c := s.capacity r
      [(8, c.1), (8, c.2.1), (8, c.2.2), (8, s.admitted r)])

/-- BUDGET_GET_CAPACITY: `BUDGET.GET_CAPACITY` (R507). -/
def execBudgetGetCapacity (t fn tag : Nat) (s : State) : Host.Outcome State Fault Refusal :=
  verb t 0x1405 fn tag (fun _ s => .data s.capacityBytes 0 s) s

end Sys2Proof.Machine
end

