-- ==== Sys2Proof/Machine/IdScan.lean ====
section
/-! DEFINITION. Identity memories: the status of a record, scans with their cache, and the ID family (R546 to R556). -/

namespace Sys2Proof.Machine

/-- CRC-32C of a message (R441). -/
def crc32c (bs : List Byte) : Nat := crcReflected 0x82F63B78 0xFFFFFFFF bs ^^^ 0xFFFFFFFF

/-- CHECK as it should be: over the record with the field itself taken as zero (R548). DESIGN CHOICE, log entry 76. -/
def recordCheck (m : List Byte) : Nat :=
  let n := u32 m 8
  crc32c (m.take 32 ++ leBytes 4 0 ++ (m.take n).drop 36)

/-- SIGNED of a record. -/
def recordSigned (m : List Byte) : Bool := (u32 m 12).testBit 0

/-- STATUS of the record in a memory that answers (R551). -/
def idStatus (owner : Option OwnerKey) (m : List Byte) : Nat :=
  let n := u32 m 8
  if u32 m 0 ≠ 0x44504944 ∨ n < 48 ∨ 4096 < n then 3
  else if u16 m 4 ≠ 1 then 4
  else if u32 m 32 ≠ recordCheck m then 5
  else
    match owner with
    | none => 1
    | some o =>
      if recordSigned m then
        (if verifyP521 o.key (sha512 (m.take n)) ((m.drop n).take 132) then 2 else 6)
      else if o.policy.testBit 1 then 7 else 1

/-- What a scan finds at a device: `none` where it does not acknowledge (R546, R551). -/
def idDevOf (owner : Option OwnerKey) (mem : Option (List Byte)) (stuck : Bool) : IdDev :=
  if stuck then { status := 8 }
  else
    match mem with
    | none => {}
    | some m =>
      let st := idStatus owner m
      let size := u32 m 8 + (if recordSigned m then 132 else 0)
      { status := st, flags := bit (recordSigned m), type := u16 m 6, version := u16 m 4, length := u32 m 8,
        serial := (m.drop 16).take 16, check := u32 m 32, bytes := if st = 3 then [] else m.take size }

/-- The items that a field gives, for the fields that the module or host software may take once only (R549,
R550). -/
def itemsOf (f : Nat × List Byte) : List (Nat × Nat) :=
  match f.1 with
  | 0x0001 => [(1, 0)]
  | 0x0010 => [(0x10, u8 f.2 0)]
  | 0x0011 => (span (u8 f.2 1) (min (u16 f.2 2) 64)).map fun c => (0x11, u8 f.2 0 * 256 + c)
  | 0x0020 | 0x0021 => [(f.1, u8 f.2 0 * 256 + u8 f.2 1)]
  | _ => []

/-- Sets CONFLICT on every record that gives an item which a record before it gives (R550).
DESIGN CHOICE, log entry 76. -/
def markConflicts : List (Nat × Nat) → KMap IdDev → KMap IdDev
  | _, [] => []
  | seen, (k, d) :: m =>
    let items := d.fields.flatMap itemsOf
    let clash := items.any fun i => seen.contains i
    let flags := d.flags % 2 + 4 * (d.flags / 4 % 2) + 2 * bit clash
    (k, { d with flags }) :: markConflicts (seen ++ items) m

/-- The cache entry of device `k` (bus × 8 + device). -/
def State.idDev (s : State) (k : Nat) : IdDev := s.sec.ids.get k {}

/-- One device is scanned: its entry is replaced, and a change raises EV_ID_CHANGED (R552, R556). -/
def State.scanDev (s : State) (k : Nat) (d : IdDev) : State :=
  let old := s.idDev k
  let changed := d.status != old.status || d.serial != old.serial || d.type != old.type || d.check != old.check
  let s1 : State := { s with sec := { s.sec with ids := s.sec.ids.set k { d with flags := d.flags + 4 * bit changed } } }
  if changed then
    s1.event 0x1701 k (d.status + 2 ^ 8 * old.status + 2 ^ 16 * bit (d.serial != old.serial) + 2 ^ 32 * d.check)
  else s1

/-- Buses are scanned, and CHANGED is of this scan alone (R554): `mems` gives what the devices that acknowledge hold,
and `stuck` those that hold SDA low. -/
def State.scanBuses (s : State) (buses : List Nat) (mems : List (Nat × List Byte)) (stuck : List Nat) : State :=
  let read (k : Nat) : IdDev :=
    idDevOf s.sec.owner ((mems.find? fun e => e.1 == k).map Prod.snd) (stuck.contains k)
  let s0 : State := { s with sec := { s.sec with
    ids := s.sec.ids.mapVals fun _ (d : IdDev) => { d with flags := d.flags % 4 } } }
  let s1 := buses.foldl (fun s b => (span (8 * b) 8).foldl (fun s k => s.scanDev k (read k)) s) s0
  { s1 with sec := { s1.sec with ids := markConflicts [] s1.sec.ids } }

/-- The 32-byte entry of a device (R554). -/
def IdDev.entry (d : IdDev) (k : Nat) : List Byte :=
  pack [(1, k / 8), (1, k % 8), (1, d.status), (1, d.flags), (2, d.type), (2, d.version), (4, d.length),
    (16, leNat d.serial), (4, d.check)]

/-- The 32 scan entries in cache order (R554, R564). -/
def State.idEntries (s : State) : List Byte := (List.range 32).flatMap fun k => (s.idDev k).entry k

/-- ID.SCAN (R551, R554). DESIGN CHOICE, log entry 76. -/
def idScan (mems : List (Nat × List Byte)) (stuck : List Nat) (c : Cmd) (s : State) : VerbOut :=
  let p := c.payload
  if 15 < u8 p 0 ∨ !zeros p 1 3 then .fail .badParam 0
  else
    let s1 := s.scanBuses (maskBits 4 (if u8 p 0 = 0 then 15 else u8 p 0)) mems stuck
    let n := ((List.range 32).filter fun k => (s1.idDev k).status == 1 || (s1.idDev k).status == 2).length
    let out := s1.idEntries.take (c.room / 32 * 32)
    .done .ok n (if out.isEmpty then s1 else s1.writeResult c out)

/-- ID_SCAN: `ID.SCAN` (R554). -/
def execIdScan (t fn tag : Nat) (mems : List (Nat × List Byte)) (stuck : List Nat) (s : State) :
    Host.Outcome State Fault Refusal :=
  verb t 0x1701 fn tag (idScan mems stuck) s

/-- ID.READ_RECORD (R555); `mem` and `stuck` are what the device itself answers. -/
def idReadRecord (mem : Option (List Byte)) (stuck : Bool) (c : Cmd) (s : State) : VerbOut :=
  let p := c.payload
  let k := 8 * u8 p 0 + u8 p 1
  if 3 < u8 p 0 ∨ 7 < u8 p 1 ∨ 1 < u8 p 2 ∨ !zeros p 3 1 then .fail .badParam 0
  else
    let d := if u8 p 2 = 1 then idDevOf s.sec.owner mem stuck else s.idDev k
    let out := d.entry k ++ (if d.status = 0 ∨ d.status = 8 then [] else d.bytes)
    .data out out.length s

/-- ID_READ_RECORD: `ID.READ_RECORD` (R555). -/
def execIdReadRecord (t fn tag : Nat) (mem : Option (List Byte)) (stuck : Bool) (s : State) :
    Host.Outcome State Fault Refusal :=
  verb t 0x1702 fn tag (idReadRecord mem stuck) s

end Sys2Proof.Machine
end

