-- ==== Sys2Proof/Machine/Fcw.lean ====
section
/-! DEFINITION. The fast control window: shadows, strobes, occurrences, the key and the resync (R22, R75 to R87). -/

namespace Sys2Proof.Machine

/-- Replaces the fast control window. -/
def State.setFcw (s : State) (f : Fcw) : State := { s with fcw := f }

/-- Host software can reach the windows of a function: the link is in L0 and the module is not held in reset. -/
def State.hostAccess (s : State) : Bool := s.host.link == .l0 && !s.host.perst

/-- FCW.PENDING (R81). -/
def State.fcwPending (s : State) : Nat := s.fcw.occ.foldl (fun n e => n + 2 ^ e.1) 0

/-- FCW.HELD (R81). -/
def State.fcwHeld (s : State) : Nat := s.fcw.occ.foldl (fun n e => if e.2.held then n + 2 ^ e.1 else n) 0

/-- The group that a shadow offset belongs to, where a register stands there (R80, R82). -/
def groupOf (off : Nat) : Option Nat :=
  if 0x1000 ≤ off ∧ off < 0x2000 then some ((off - 0x1000) / 0x40 / 8)
  else if 0x2000 ≤ off ∧ off < 0x2400 then some (8 + (off - 0x2000) / 0x20 / 8)
  else if 0x2400 ≤ off ∧ off < 0x2440 then some (8 + (off - 0x2400) / 0x10)
  else if 0x3000 ≤ off ∧ off < 0x4000 then some (12 + (off - 0x3000) / 0x10 / 32)
  else if 0x4000 ≤ off ∧ off < 0x4020 then some (20 + (off - 0x4000) / 0x10)
  else if 0x4100 ≤ off ∧ off < 0x4180 then some 22
  else if 0x4200 ≤ off ∧ off < 0x4204 then some 23
  else if 0x5000 ≤ off ∧ off < 0x5200 then some 23
  else if 0x8000 ≤ off ∧ off < 0x9800 then some (24 + (off - 0x8000) * 8 / 6144)
  else none

/-- The implemented bits of the shadow register at `off` (R150, R178, R203, R227, R304, R352, R482). -/
def shadowMask (off : Nat) : Nat :=
  if off < 0x2000 then
    (match (off - 0x1000) % 0x40 with
     | 0 => 2 ^ 32 - 1 | 4 => 2 ^ 32 - 1 | 8 => 2 ^ 32 - 1 | 12 => 2 ^ 16 - 1 | 16 => 1 | _ => 0)
  else if off < 0x2400 then
    (match (off - 0x2000) % 0x20 with
     | 0 => 2 ^ 32 - 1 | 4 => 2 ^ 16 - 1 | 8 => 2 ^ 32 - 1 | 12 => 1 | _ => 0)
  else if off < 0x3000 then (if off % 0x10 = 0 then 1 else 0)
  else if off < 0x4100 then (match off % 0x10 with | 0 => 2 ^ 8 - 1 | 4 => 2 ^ 16 - 1 | _ => 0)
  else if off < 0x4200 then
    (match (off - 0x4100) % 0x20 with
     | 0 => 2 ^ 32 - 1 | 4 => 2 ^ 16 - 1 | 8 => 2 ^ 24 - 1 | 12 => 2 ^ 32 - 1 | 16 => 1 | _ => 0)
  else if off < 0x5000 then 15
  else 2 ^ 32 - 1

/-- What an unwritten shadow reads as: JUMP_TARGET is 0xFFFF, every other shadow 0 (R304, R352). -/
def shadowReset (off : Nat) : Nat := if 0x3000 ≤ off ∧ off < 0x4020 ∧ off % 0x10 = 4 then 0xFFFF else 0

/-- Replaces the enabled bytes of a little-endian word, from byte `k` on (R76). -/
def mergeBytes (old k : Nat) (bs : List Byte) : Nat :=
  leNat (((leBytes 4 old).take k ++ bs ++ (leBytes 4 old).drop (k + bs.length)).take 4)

/-- Writes bytes of one 32-bit shadow; a window that is disabled ignores them (R75, R76, R81). -/
def State.writeShadow (s : State) (off : Nat) (bs : List Byte) : State :=
  let w := off / 4 * 4
  if !s.fcw.enable || (groupOf w).isNone then s
  else
    let old := s.fcw.shadow.get w (shadowReset w)
    s.setShadow w (mergeBytes old (off % 4) bs &&& shadowMask w)

/-- The shadows of a group as they stand (R83). -/
def State.snapshotGroup (s : State) (g : Nat) : KMap Nat := s.fcw.shadow.filter fun e => groupOf e.1 == some g

/-- Strobes group `g` (R83, R85): a newer occurrence replaces one that has not been applied. It is held while a
configuring command is in flight, and its FCW.HELD bit stays from a held one that it replaces (R22, R81).
DESIGN CHOICE, log entry 105. -/
def State.strobe (s : State) (g : Nat) : State :=
  let n := wrapAdd 32 (s.fcw.strobeSeq.get g 0) 1
  let o : Occ := { seq := n, words := s.snapshotGroup g, held := s.groupHeld g || (s.fcw.occ.get g {}).held }
  s.setFcw { s.fcw with strobeSeq := s.fcw.strobeSeq.set g n, occ := s.fcw.occ.set g o }

/-- UPDATE_STROBE_WRITE (R81, R83). -/
def execUpdateStrobeWrite (t mask : Nat) (s : State) : Host.Outcome State Fault Refusal :=
  happens t (fun s =>
    if s.hostAccess && s.fcw.enable then (maskBits 32 mask).foldl (fun s g => s.strobe g) s else s) s

/-- A unit can take an occurrence now (R84). While DISP is enabled its group is taken at the latch line, and an enabled
density plane takes it with the next spectrum. -/
def State.unitReady (s : State) (g u : Nat) : Bool :=
  if g < 8 then s.trigCanTake u
  else if 8 ≤ g ∧ g < 12 ∧ u < 32 then s.ddcCanTake u
  else if 8 ≤ g ∧ g < 12 ∧ 64 ≤ u then s.jobCanTake (u - 64)
  else if g = 22 then s.disp.mode == .disabled
  else if g = 23 then (if u < 4096 then s.acqCanTake u else !(s.plane (u - 4096)).enabled)
  else true

/-- A unit takes every value of an occurrence together (R84); `index` is the vector a site launches. -/
def State.takeUnit (s : State) (g u index : Nat) (words : KMap Nat) : State :=
  if g < 8 then s.trigTake u words
  else if g < 12 then (if u < 32 then s.ddcTake u words else if u < 64 then s.pressTake (u - 32) words else s.jobTake (u - 64) words)
  else if g < 20 then s.patTake u index words
  else if g < 22 then s.stimTake u words
  else if g = 22 then s.dispTake words
  else if g = 23 then (if u < 4096 then s.acqTake u words else s.specTake (u - 4096) words)
  else s.flowTake u words

/-- STROBE_OCCURRENCE_APPLY (R84, R85): one unit of the group, or every unit that can, takes the pending
occurrence; when all have, it is applied. `vecs` gives the vector each site is launching.
DESIGN CHOICE, log entry 105. -/
def execStrobeOccurrenceApply (t group : Nat) (unit : Option Nat) (vecs : List (Nat × Nat)) (s : State) :
    Host.Outcome State Fault Refusal :=
  happens t (fun s =>
    match s.fcw.occ.find group with
    | none => s
    | some o =>
      if group > 31 || s.groupHeld group then s
      else
        let all := s.groupUnits group
        let left := all.filter fun u => !o.taken.contains u
        let now := left.filter fun u => (unit.isNone || unit == some u) && s.unitReady group u
        (now.foldl (fun s u => s.takeUnit group u (indexIn vecs u) o.words) s).occTaken group now) s

/-- KEY_UNLOCK_WRITE (R77). DESIGN CHOICE, log entry 23. -/
def execKeyUnlockWrite (t fn value : Nat) (s : State) : Host.Outcome State Fault Refusal :=
  happens t (fun s =>
    if s.hostAccess && decide (fn < 2) then s.setFunc fn { s.func fn with keyOpen := value == 0x7840 } else s) s

/-- FCW_ENABLE_WRITE (R76, R77, R81). -/
def execFcwEnableWrite (t value : Nat) (full : Bool) (s : State) : Host.Outcome State Fault Refusal :=
  happens t (fun s =>
    if !s.hostAccess || !full then s
    else if (s.func 0).keyOpen then
      (s.setFunc 0 { s.func 0 with keyOpen := false }).setFcw { s.fcw with enable := value.testBit 0 }
    else s.setFcw { s.fcw with keyRefused := true }) s

/-- FCW_STATUS_CLEAR (R75, R81). -/
def execFcwStatusClear (t value : Nat) (full : Bool) (s : State) : Host.Outcome State Fault Refusal :=
  happens t (fun s =>
    if !s.hostAccess || !full then s
    else s.setFcw { s.fcw with keyRefused := s.fcw.keyRefused && !value.testBit 2,
                               rwpDropped := s.fcw.rwpDropped && !value.testBit 3 }) s

/-- FCW_RESYNC_WRITE (R78, R87). DESIGN CHOICE, log entry 23. -/
def execFcwResyncWrite (t mask : Nat) (full : Bool) (s : State) : Host.Outcome State Fault Refusal :=
  happens t (fun s =>
    if !s.hostAccess || !full then s
    else if s.fcw.resyncBusy then s.setFcw { s.fcw with rwpDropped := true }
    else s.setFcw { s.fcw with resyncBusy := true, resyncMask := mask % 2 ^ 32 }) s

/-- The live values behind the shadows of group `g`, as words by offset (R87). -/
def State.liveGroup (s : State) (g : Nat) : KMap Nat :=
  if g < 8 then
    (span (8 * g) 8).flatMap fun u =>
      (s.tunit u).shadowWords (trigOffset u)
  else if g < 12 then
    ((span (8 * (g - 8)) 8).flatMap fun d =>
      let x := s.ddc d
      let o := 0x2000 + d * 0x20
      [(o, x.freq % 2 ^ 32), (o + 4, x.freq / 2 ^ 32), (o + 8, x.phase), (o + 12, 0)]) ++
      [(0x2400 + (g - 8) * 0x10, s.press.select.get (g - 8) 0)]
  else if g < 20 then
    (span (32 * (g - 12)) 32).flatMap fun n =>
      [(0x3000 + n * 0x10, (s.site n).play.reqSeq), (0x3004 + n * 0x10, 0xFFFF)]
  else if g < 22 then
    [(0x4000 + (g - 20) * 0x10, (s.stimOut (g - 20)).play.reqSeq), (0x4004 + (g - 20) * 0x10, 0xFFFF)]
  else if g = 22 then
    (List.range 4).flatMap fun l =>
      let p := s.disp.place l
      let o := 0x4100 + l * 0x20
      [(o, p.buffer % 2 ^ 32), (o + 4, p.buffer / 2 ^ 32), (o + 8, p.stride),
       (o + 12, unsign 16 p.x + 2 ^ 16 * unsign 16 p.y), (o + 16, bit p.visible)]
  else if g = 23 then
    let word (k : Nat) : Nat := (List.range 32).foldl (fun w i => if (s.ctx (32 * k + i)).hold then w + 2 ^ i else w) 0
    (0x4200, (List.range 4).foldl (fun w p => if (s.plane p).freeze then w + 2 ^ p else w) 0) ::
      (List.range 128).map fun k => (0x5000 + 4 * k, word k)
  else
    let word (k : Nat) : Nat := (List.range 32).foldl (fun w i => if (s.flow (32 * k + i)).gate then w + 2 ^ i else w) 0
    (span (192 * (g - 24)) 192).map fun k => (0x8000 + 4 * k, word k)

/-- Copies the live values of a group into its shadows (R87). -/
def State.resyncGroup (s : State) (g : Nat) : State :=
  (s.liveGroup g).foldl (fun s e => s.setShadow e.1 e.2) s

/-- RESYNC_COMPLETE (R87). -/
def execResyncComplete (t : Nat) (s : State) : Host.Outcome State Fault Refusal :=
  happens t (fun s =>
    if s.fcw.resyncBusy then
      let s1 := (maskBits 32 s.fcw.resyncMask).foldl (fun s g => s.resyncGroup g) s
      s1.setFcw { s1.fcw with resyncBusy := false }
    else s) s

/-- What a reset of PF0 does to the window: every group is resynced, counts and unapplied occurrences are
gone, and the window's own registers are at reset (R27, R87). DESIGN CHOICE, log entry 22. -/
def State.resetFcw (s : State) : State :=
  let s1 := (List.range 32).foldl (fun s g => s.resyncGroup g) s
  s1.setFcw { shadow := s1.fcw.shadow }

end Sys2Proof.Machine
end

