-- ==== Sys2Proof/Machine/HostIf.lean ====
section
/-! DEFINITION. The host windows: locks, channel state, the time latch, ring control, registers without
behaviour of their own, and the Cellar aperture (R28 to R50, R75, R76). -/

namespace Sys2Proof.Machine

/-- Mailbox channel `n` of a function. -/
def State.chan (s : State) (fn n : Nat) : Chan := (s.func fn).chans.get n {}

/-- Replaces mailbox channel `n` of a function. -/
def State.setChan (s : State) (fn n : Nat) (c : Chan) : State :=
  s.setFunc fn { s.func fn with chans := (s.func fn).chans.set n c }

/-- A channel that exists and can be reached. -/
def State.chanReachable (s : State) (fn n : Nat) : Bool := s.hostAccess && decide (fn < 2) && decide (n < chanCount fn)

/-! ## Locks (R36) -/

/-- LOCK_ALIAS_READ (R36): a read of `width` bytes from byte `first` of alias `agent`. -/
def execLockAliasRead (t fn chan agent first width : Nat) (s : State) : Host.Outcome State Fault Refusal :=
  happens t (fun s =>
    if !s.chanReachable fn chan || decide (255 < agent) then s
    else if !s.readyBit 0 || decide (4 < width) then s.emit (.readData (leBytes width 0))
    else
      let c := s.chan fn chan
      let seen := if agent = 0 then c.owner else if c.owner = agent then 0 else c.owner
      let s1 := if agent ≠ 0 ∧ c.owner = 0 then s.setChan fn chan { c with owner := agent } else s
      s1.emit (.readData (((leBytes 4 seen).drop first).take width))) s

/-- LOCK_ALIAS_WRITE (R36): a write with `width` bytes enabled to alias `agent`. -/
def execLockAliasWrite (t fn chan agent width : Nat) (s : State) : Host.Outcome State Fault Refusal :=
  happens t (fun s =>
    let c := s.chan fn chan
    if s.chanReachable fn chan && s.readyBit 0 && width == 4 && agent != 0 && decide (agent < 256) && c.owner == agent
    then s.setChan fn chan { c with owner := 0 }
    else s) s

/-- LOCK_FORCED_RELEASE (R36): a write to alias 0. -/
def execLockForcedRelease (t fn chan value width : Nat) (s : State) : Host.Outcome State Fault Refusal :=
  happens t (fun s =>
    let c := s.chan fn chan
    if s.chanReachable fn chan && s.readyBit 0 && width == 4 && c.owner != 0 && value == c.owner
    then s.setChan fn chan { c with owner := 0, lockBroken := true }
    else s) s

/-- CHAN_STATE_CLEAR (R33, R75). -/
def execChanStateClear (t fn chan value : Nat) (full : Bool) (s : State) : Host.Outcome State Fault Refusal :=
  happens t (fun s =>
    let c := s.chan fn chan
    if s.chanReachable fn chan && full then
      s.setChan fn chan { c with
        doorbellLost := c.doorbellLost && !value.testBit 16, doorbellNoLock := c.doorbellNoLock && !value.testBit 17,
        lockBroken := c.lockBroken && !value.testBit 18 }
    else s) s

/-- TIME_LATCH_WRITE (R31): each function latches into its own window. -/
def execTimeLatchWrite (t fn : Nat) (full : Bool) (s : State) : Host.Outcome State Fault Refusal :=
  happens t (fun s =>
    if s.hostAccess && full && decide (fn < 2) then s.setFunc fn { s.func fn with timeLatched := s.stampNow } else s) s

/-! ## Rings (R39 to R42) -/

/-- Ring `i` of a function: an event ring, or a completion ring. -/
def Func.ring (f : Func) (completion : Bool) (i : Nat) : Ring := if completion then f.crs.get i {} else f.ers.get i {}

/-- Replaces ring `i` of a function. -/
def Func.setRing (f : Func) (completion : Bool) (i : Nat) (r : Ring) : Func :=
  if completion then { f with crs := f.crs.set i r } else { f with ers := f.ers.set i r }

/-- Sends the message of a ring. -/
def State.signalRing (s : State) (fn : Nat) (completion : Bool) (i : Nat) : State :=
  let r := (s.func fn).ring completion i
  (s.setFunc fn ((s.func fn).setRing completion i { r with unsignalled := 0 })).message fn r.vector

/-- CONS of a ring takes a value (R41, R42): the entries that remain count as unsignalled from now, and held entries
are written into the slots that have become free. -/
def State.consWrite (s : State) (fn : Nat) (completion : Bool) (ring value : Nat) : State :=
  let r := { (s.func fn).ring completion ring with cons := value % 2 ^ 32, since := s.now }
  let r := { r with unsignalled := r.fill }
  let s1 := s.setFunc fn ((s.func fn).setRing completion ring r)
  let s2 := if r.enabled && r.signals then s1.signalRing fn completion ring else s1
  if completion then s2.flushCompl fn else s2.flushEr fn ring

/-- RING_CONS_WRITE (R41, R42): a write of all of CONS; a partial one is a row of REGISTER_WRITE. -/
def execRingConsWrite (t fn : Nat) (completion : Bool) (ring value : Nat) (s : State) :
    Host.Outcome State Fault Refusal :=
  happens t (fun s =>
    if !s.hostAccess || decide (1 < fn) || decide (15 < ring) then s else s.consWrite fn completion ring value) s

/-- RING_OVERFLOW_CLEAR (R39, R75). -/
def execRingOverflowClear (t fn ring value : Nat) (full : Bool) (s : State) : Host.Outcome State Fault Refusal :=
  happens t (fun s =>
    if s.hostAccess && full && decide (fn < 2) && decide (ring < 16) && value.testBit 1 then
      s.setFunc fn ((s.func fn).setRing false ring { (s.func fn).ring false ring with overflow := false })
    else s) s

/-- RING_COALESCE_TIMEOUT (R41). -/
def execRingCoalesceTimeout (t fn : Nat) (completion : Bool) (ring : Nat) (s : State) :
    Host.Outcome State Fault Refusal :=
  happens t (fun s =>
    let r := (s.func fn).ring completion ring
    if s.canWrite && r.enabled && r.coalTime != 0 && r.unsignalled != 0 && r.fill != 0 &&
        decide (r.since + r.coalTime * ticksPerUs ≤ s.now) then s.signalRing fn completion ring
    else s) s

/-! ## Plain registers (R75, R76) -/

/-- The coalescing word after the bytes `bs` from its byte `k` on have been written (R39, R76): its fields are kept
within their ranges. -/
def Ring.writeCoal (r : Ring) (k : Nat) (bs : List Byte) : Ring :=
  let v := mergeBytes r.coalWord k bs
  let n := v % 512
  let us := bits v 25 16
  { r with coalCount := if n = 0 then 1 else if 256 < n then 256 else n, coalTime := if 1000 < us then 1000 else us }

/-- The MSI-X table of a function lies here (R28, R29). PRESUMED, log entry 21. -/
def inMsixTable (fn off : Nat) : Bool :=
  if fn = 0 then decide (0x8000 ≤ off ∧ off < 0x10000) else decide (0x7800 ≤ off ∧ off < 0x7C00)

/-- The coalescing word of a ring is written: unsignalled entries that now fill a batch, or wait for none, are
signalled (R39, R41). -/
def State.coalWrite (s : State) (fn : Nat) (completion : Bool) (i k : Nat) (bs : List Byte) : State :=
  let r := ((s.func fn).ring completion i).writeCoal k bs
  let s1 := s.setFunc fn ((s.func fn).setRing completion i r)
  if s.canWrite && r.enabled && r.signals then s1.signalRing fn completion i else s1

/-- A byte of the MSI-X table as it is stored and read: the mask bit of the vector control word is stored inverted,
so that every vector is masked at reset. PRESUMED, log entry 97. -/
def msixFlip (off : Nat) (b : Byte) : Byte := if off % 16 = 12 then b ^^^ 1#8 else b

/-- Sends the pending messages whose vectors are no longer masked (R24). PRESUMED, log entry 97. -/
def State.msixRelease (s : State) (fn : Nat) : State :=
  let f := s.func fn
  let due := f.msixPending.filter fun v => !f.masked fn v
  due.foldl (fun s v => s.emit (.msix fn v))
    (s.setFunc fn { f with msixPending := f.msixPending.filter fun v => f.masked fn v })

/-- Byte `k` of the pending bit array (R28, R29). PRESUMED, log entry 97. -/
def Func.pendingByte (f : Func) (k : Nat) : Byte :=
  BitVec.ofNat 8 ((f.msixPending.filter fun v => v / 8 == k).foldl (fun n v => n ||| 2 ^ (v % 8)) 0)

/-- Writes one byte of a register that has no behaviour of its own: RW and RWS registers take it, every other
location ignores it (R75, R76). -/
def State.writeRegByte (s : State) (fn off : Nat) (b : Byte) : State :=
  let f := s.func fn
  let chan := (off - 0x1000) / 0x100
  if 0x20000 ≤ off then (if fn = 0 then s.writeShadow (off - 0x20000) [b] else s)
  else if 0x1000 ≤ off ∧ chan < chanCount fn then
    (if off % 0x100 < 0xC0 then
      let c := s.chan fn chan
      s.setChan fn chan { c with area := c.area.write (off % 0x100) b }
     else s)
  else if inMsixTable fn off then
    (s.setFunc fn { f with msixTable := f.msixTable.write off (msixFlip off b) }).msixRelease fn
  else s

/-- Writes the enabled bytes of an access in order. -/
def State.writeRegBytes (s : State) (fn off : Nat) : List Byte → State
  | [] => s
  | b :: bs => (s.writeRegByte fn off b).writeRegBytes fn (off + 1) bs

/-- Writes the enabled bytes `bs` of the 32-bit register at `w`, from its byte `k` on (R76): CONS and the coalescing
word of a ring are taken as whole registers. -/
def State.writeRegWord (s : State) (fn w k : Nat) (bs : List Byte) : State :=
  let completion := decide (0x6200 ≤ w)
  let i := (w - 0x6000) / 0x20 % 16
  if bs.isEmpty then s
  else if 0x6000 ≤ w ∧ w < 0x6400 ∧ w % 0x20 = 4 then
    s.consWrite fn completion i (mergeBytes ((s.func fn).ring completion i).cons k bs)
  else if 0x6000 ≤ w ∧ w < 0x6400 ∧ w % 0x20 = 0x10 then s.coalWrite fn completion i k bs
  else s.writeRegBytes fn (w + k) bs

/-- Writes the enabled bytes of an access of up to 64 bits, register by register (R76). -/
def State.writeRegs (s : State) (fn off : Nat) (bs : List Byte) : State :=
  let w := off / 4 * 4
  let n := 4 - off % 4
  ((s.writeRegWord fn w (off % 4) (bs.take n)).writeRegWord fn (w + 4) 0 ((bs.drop n).take 4)).writeRegWord fn (w + 8) 0
    ((bs.drop (n + 4)).take 4)

/-- The function, BAR and offset that a host address reaches (R25). -/
def State.barHit (s : State) (addr : Nat) : Option (Nat × Nat × Nat) :=
  [(0, 0), (0, 2), (1, 0)].findSome? fun e =>
    match barBits e.1 e.2 with
    | some n =>
      if s.barBase e.1 e.2 ≠ 0 ∧ s.barBase e.1 e.2 ≤ addr ∧ addr < s.barBase e.1 e.2 + 2 ^ n then
        some (e.1, e.2, addr - s.barBase e.1 e.2)
      else none
    | none => none

/-- REGISTER_WRITE (R75, R76): the enabled bytes of a write of up to 64 bits. Function 2 stands for the SMBus target,
whose one RW register is `SMB.ALERT_MASK`, command code 0x09 (R585); functions 4 and 5 stand for the configuration
space of PF0 and PF1 (R25), which takes whole 32-bit words. PRESUMED, log entry 97. -/
def execRegisterWrite (t fn offset : Nat) (bytes : List Byte) (s : State) : Host.Outcome State Fault Refusal :=
  happens t (fun s =>
    if fn = 2 ∧ offset = 9 then { s with pw := { s.pw with alertMask := u8 bytes 0 % 32 } }
    else if s.hostAccess && decide (fn < 2) then s.writeRegs fn offset (bytes.take 8)
    else if s.hostAccess && decide (fn = 4 ∨ fn = 5) && bytes.length == 4 && offset % 4 == 0 then
      (s.writeConfig (fn - 4) offset (leNat bytes)).msixRelease (fn - 4)
    else s) s

/-! ## Aperture (R46) -/

/-- Cellar byte `a` can be reached through the aperture; `write` asks for a writable region (R46, R429). -/
def State.apertureOpen (s : State) (a : Nat) (write : Bool) : Bool :=
  decide (a < cellarBytes) && s.readyBit 6 &&
    s.regions.any fun e => decide (e.1 ≤ a ∧ a < e.1 + e.2.bytes) && !e.2.zeroing && !e.2.freeing && e.2.flags.testBit 0 &&
      !(write && e.2.flags.testBit 1)

/-- The byte that the aperture answers for offset `a`. -/
def State.apertureByte (s : State) (a : Nat) : Byte :=
  if s.apertureOpen a false && s.cellarReadable a 1 then s.cellarMem.read a else 0#8

/-- How many of `n` bytes from offset `a` an access of the aperture reaches (R46). -/
def State.apertureReach (s : State) (a n : Nat) (write : Bool) : Nat :=
  ((span a n).filter fun k => s.apertureOpen k write).length

/-- The aperture activity is charged `cellar` and `link` bytes of Cellar and of a host-link direction (R46, R491): its
credits pay as far as they reach, and the rest is served from slack. -/
def State.chargeAperture (s : State) (cellar link key : Nat) : State :=
  let act := actKey kindAperture 0
  { s with bud := ((s.bud.spend act 0 cellar).spend act key link) }

/-- APERTURE_READ (R46): a Cellar read, and data from the module to the host. -/
def execApertureRead (t addr length : Nat) (s : State) : Host.Outcome State Fault Refusal :=
  happens t (fun s =>
    let n := min length 4096
    if s.hostAccess then
      (s.emit (.readData ((span addr n).map s.apertureByte))).chargeAperture (s.apertureReach addr n false) n 6
    else s) s

/-- Writes bytes through the aperture (R46). -/
def State.apertureWrite (s : State) (a : Nat) : List Byte → State
  | [] => s
  | b :: bs =>
    (if s.apertureOpen a true then s.keepCellar (s.cellarMem.write a b) else s).apertureWrite (a + 1) bs

/-- What a write of `n` bytes that does not fill stripes costs in Cellar bytes: four times its size in whole units of
64 bytes (R419). DESIGN CHOICE, log entry 122. -/
def partialCost (n : Nat) : Nat := 4 * ((n + 63) / 64 * 64)

/-- APERTURE_WRITE (R46): data from the host to the module, and Cellar writes charged at 4 (R419). -/
def execApertureWrite (t addr : Nat) (bytes : List Byte) (s : State) : Host.Outcome State Fault Refusal :=
  happens t (fun s =>
    if s.hostAccess then
      (s.apertureWrite addr bytes).chargeAperture (partialCost (s.apertureReach addr bytes.length true)) bytes.length 5
    else s) s

end Sys2Proof.Machine
end

