-- ==== Sys2Proof/Machine/Verbs.lean ====
section
/-! DEFINITION. The opcode map: for each opcode, whether it is accepted on PF1 only, its `READY_MAP` bit, and
the payload lengths of its verb (R55, R65; lengths from the chapter of each family). -/

namespace Sys2Proof.Machine

/-- A row of the opcode map (R65). -/
structure VerbRow where
  /-- Family × 256 + verb. -/
  op : Nat
  /-- Accepted on PF1 only. -/
  pf1 : Bool
  /-- The `READY_MAP` bit of check 8 of R55. -/
  ready : Option Nat
  /-- Fewest payload bytes. -/
  least : Nat
  /-- Most payload bytes. -/
  most : Nat
  /-- Payload lengths are `least` plus a multiple of this. -/
  step : Nat

/-- The verbs of SYS. -/
def verbsSys : List VerbRow := [
  ⟨0x0101, false, none, 4, 4, 1⟩,
  ⟨0x0102, false, none, 0, 8, 8⟩,
  ⟨0x0103, false, none, 4, 4, 1⟩,
  ⟨0x0104, false, none, 40, 128, 2⟩,
  ⟨0x0105, false, none, 8, 8, 1⟩,
  ⟨0x0106, false, none, 0, 0, 1⟩]

/-- The verbs of CLOCK. -/
def verbsClock : List VerbRow := [
  ⟨0x0201, false, some 3, 16, 16, 1⟩,
  ⟨0x0202, false, some 3, 0, 0, 1⟩,
  ⟨0x0203, false, some 3, 24, 24, 1⟩,
  ⟨0x0204, false, some 3, 24, 24, 1⟩,
  ⟨0x0205, false, some 3, 16, 4096, 24⟩,
  ⟨0x0206, false, some 3, 24, 24, 1⟩,
  ⟨0x0207, false, some 3, 4, 4, 1⟩,
  ⟨0x0208, false, some 3, 16, 16, 1⟩]

/-- The verbs of INPUT. -/
def verbsInput : List VerbRow := [
  ⟨0x0301, false, none, 16, 16, 1⟩,
  ⟨0x0302, false, none, 4, 4, 1⟩,
  ⟨0x0303, false, none, 4, 4, 1⟩,
  ⟨0x0304, false, none, 4, 4, 1⟩]

/-- The verbs of DDC. -/
def verbsDdc : List VerbRow := [
  ⟨0x0401, false, some 11, 32, 32, 1⟩,
  ⟨0x0402, false, some 11, 16, 16, 1⟩,
  ⟨0x0403, false, some 11, 16, 16, 1⟩,
  ⟨0x0404, false, some 11, 4, 4, 1⟩,
  ⟨0x0405, false, some 11, 4, 4, 1⟩]

/-- The verbs of PRESS. -/
def verbsPress : List VerbRow := [
  ⟨0x0501, false, some 12, 16, 16, 1⟩,
  ⟨0x0502, false, some 12, 32, 32, 1⟩,
  ⟨0x0503, false, some 12, 24, 24, 1⟩,
  ⟨0x0504, false, some 12, 20, 4096, 4⟩,
  ⟨0x0505, false, some 12, 16, 16, 1⟩,
  ⟨0x0506, false, some 12, 4, 4, 1⟩]

/-- The verbs of SPEC. -/
def verbsSpec : List VerbRow := [
  ⟨0x0601, false, some 13, 48, 48, 1⟩,
  ⟨0x0602, false, some 13, 32, 32, 1⟩,
  ⟨0x0603, false, some 13, 4, 4, 1⟩,
  ⟨0x0604, false, some 13, 32, 32, 1⟩,
  ⟨0x0605, false, some 13, 16, 16, 1⟩,
  ⟨0x0606, false, some 13, 16, 16, 1⟩,
  ⟨0x0607, false, some 13, 4, 4, 1⟩]

/-- The verbs of TRIG. -/
def verbsTrig : List VerbRow := [
  ⟨0x0701, false, some 14, 64, 64, 1⟩,
  ⟨0x0702, false, some 14, 16, 16, 1⟩,
  ⟨0x0703, false, some 14, 48, 48, 1⟩,
  ⟨0x0704, false, some 14, 24, 24, 1⟩,
  ⟨0x0705, false, some 14, 4, 4, 1⟩,
  ⟨0x0706, false, some 14, 4, 4, 1⟩,
  ⟨0x0707, false, some 14, 4, 4, 1⟩]

/-- The verbs of ACQ. -/
def verbsAcq : List VerbRow := [
  ⟨0x0801, false, some 15, 64, 64, 1⟩,
  ⟨0x0802, false, some 15, 16, 16, 1⟩,
  ⟨0x0803, false, some 15, 4, 4, 1⟩,
  ⟨0x0804, false, some 15, 4, 4, 1⟩,
  ⟨0x0805, false, some 15, 24, 24, 1⟩,
  ⟨0x0806, false, some 15, 4, 4, 1⟩]

/-- The verbs of SORREL. -/
def verbsSorrel : List VerbRow := [
  ⟨0x0901, false, some 16, 24, 24, 1⟩,
  ⟨0x0902, false, some 16, 16, 272, 1⟩,
  ⟨0x0903, false, some 16, 4, 4, 1⟩,
  ⟨0x0904, false, some 16, 48, 48, 1⟩,
  ⟨0x0905, false, some 16, 4, 4, 1⟩]

/-- The verbs of PAT. -/
def verbsPat : List VerbRow := [
  ⟨0x0A01, false, some 17, 64, 64, 1⟩,
  ⟨0x0A02, false, some 17, 24, 24, 1⟩,
  ⟨0x0A03, false, some 17, 8, 4088, 24⟩,
  ⟨0x0A04, false, some 17, 8, 520, 2⟩,
  ⟨0x0A05, false, some 17, 64, 64, 1⟩,
  ⟨0x0A06, false, some 17, 36, 36, 1⟩,
  ⟨0x0A07, false, some 17, 36, 36, 1⟩,
  ⟨0x0A08, false, some 17, 4, 4, 1⟩,
  ⟨0x0A09, false, some 17, 24, 24, 1⟩]

/-- The verbs of TRELLIS. -/
def verbsTrellis : List VerbRow := [
  ⟨0x0B01, false, some 18, 16, 16, 1⟩,
  ⟨0x0B02, false, some 18, 4, 4, 1⟩,
  ⟨0x0B03, false, some 18, 48, 48, 1⟩,
  ⟨0x0B04, false, some 18, 16, 16, 1⟩]

/-- The verbs of STIM. -/
def verbsStim : List VerbRow := [
  ⟨0x0C01, false, none, 32, 32, 1⟩,
  ⟨0x0C02, false, none, 24, 24, 1⟩,
  ⟨0x0C03, false, none, 8, 4088, 24⟩,
  ⟨0x0C04, false, none, 24, 24, 1⟩,
  ⟨0x0C05, false, none, 4, 4, 1⟩,
  ⟨0x0C06, false, none, 4, 4, 1⟩]

/-- The verbs of VINE. -/
def verbsVine : List VerbRow := [
  ⟨0x0D01, false, some 21, 32, 32, 1⟩,
  ⟨0x0D02, false, some 21, 16, 16, 1⟩,
  ⟨0x0D03, false, some 21, 0, 0, 1⟩,
  ⟨0x0D04, false, some 21, 24, 24, 1⟩]

/-- The verbs of TIU. -/
def verbsTiu : List VerbRow := [
  ⟨0x0E01, false, some 22, 64, 64, 1⟩,
  ⟨0x0E02, false, some 22, 24, 24, 1⟩,
  ⟨0x0E03, false, some 22, 8, 8, 1⟩,
  ⟨0x0E04, false, some 22, 16, 16, 1⟩,
  ⟨0x0E05, false, some 22, 4, 4, 1⟩]

/-- The verbs of MON. -/
def verbsMon : List VerbRow := [
  ⟨0x0F01, false, some 23, 32, 32, 1⟩,
  ⟨0x0F02, false, some 23, 24, 1040, 8⟩,
  ⟨0x0F03, false, some 23, 16, 16, 1⟩,
  ⟨0x0F04, false, some 23, 0, 0, 1⟩,
  ⟨0x0F05, false, some 23, 4, 4, 1⟩,
  ⟨0x0F06, false, some 23, 4, 4, 1⟩]

/-- The verbs of CELLAR. -/
def verbsCellar : List VerbRow := [
  ⟨0x1001, false, some 6, 32, 32, 1⟩,
  ⟨0x1002, false, some 6, 16, 16, 1⟩,
  ⟨0x1003, false, some 6, 8, 8, 1⟩,
  ⟨0x1004, false, some 6, 8, 8, 1⟩]

/-- The verbs of FLOW. -/
def verbsFlow : List VerbRow := [
  ⟨0x1101, false, some 24, 32, 32, 1⟩,
  ⟨0x1102, false, some 24, 16, 16, 1⟩,
  ⟨0x1103, false, some 24, 4, 4, 1⟩,
  ⟨0x1104, false, some 24, 4, 4, 1⟩,
  ⟨0x1105, false, some 24, 16, 16, 1⟩,
  ⟨0x1106, false, some 24, 4, 4, 1⟩]

/-- The verbs of STREAM. -/
def verbsStream : List VerbRow := [
  ⟨0x1201, false, some 25, 64, 64, 1⟩,
  ⟨0x1202, false, some 25, 48, 48, 1⟩,
  ⟨0x1203, false, some 25, 4, 4, 1⟩]

/-- The verbs of DISP. -/
def verbsDisp : List VerbRow := [
  ⟨0x1301, false, some 26, 32, 32, 1⟩,
  ⟨0x1302, false, some 26, 16, 16, 1⟩,
  ⟨0x1303, false, some 26, 48, 48, 1⟩,
  ⟨0x1304, false, some 26, 12, 4096, 4⟩,
  ⟨0x1305, false, some 26, 8, 8, 1⟩,
  ⟨0x1306, false, some 26, 0, 0, 1⟩]

/-- The verbs of BUDGET. -/
def verbsBudget : List VerbRow := [
  ⟨0x1401, true, some 27, 8, 8, 1⟩,
  ⟨0x1402, false, some 27, 88, 88, 1⟩,
  ⟨0x1403, false, some 27, 8, 8, 1⟩,
  ⟨0x1404, false, some 27, 4, 4, 1⟩,
  ⟨0x1405, false, some 27, 0, 0, 1⟩]

/-- The verbs of FAULT. -/
def verbsFault : List VerbRow := [
  ⟨0x1501, false, none, 16, 16, 1⟩,
  ⟨0x1502, false, none, 0, 0, 1⟩,
  ⟨0x1503, true, none, 8, 8, 1⟩,
  ⟨0x1504, true, none, 4, 4, 1⟩]

/-- The verbs of CAL. -/
def verbsCal : List VerbRow := [
  ⟨0x1601, false, none, 8, 8, 1⟩,
  ⟨0x1602, false, none, 8, 8, 1⟩,
  ⟨0x1603, true, none, 8, 8, 1⟩]

/-- The verbs of ID. -/
def verbsId : List VerbRow := [
  ⟨0x1701, false, none, 4, 4, 1⟩,
  ⟨0x1702, false, none, 4, 4, 1⟩]

/-- The verbs of SEC. -/
def verbsSec : List VerbRow := [
  ⟨0x1801, true, some 28, 4, 4, 1⟩,
  ⟨0x1802, true, some 28, 64, 64, 1⟩,
  ⟨0x1803, true, some 28, 24, 24, 1⟩,
  ⟨0x1804, true, some 28, 276, 276, 1⟩,
  ⟨0x1805, true, some 28, 0, 0, 1⟩]

/-- The opcode map (R65). -/
def opcodeMap : List VerbRow :=
  verbsSys ++ verbsClock ++ verbsInput ++ verbsDdc ++ verbsPress ++ verbsSpec ++ verbsTrig ++ verbsAcq ++
    verbsSorrel ++ verbsPat ++ verbsTrellis ++ verbsStim ++ verbsVine ++ verbsTiu ++ verbsMon ++
    verbsCellar ++ verbsFlow ++ verbsStream ++ verbsDisp ++ verbsBudget ++ verbsFault ++ verbsCal ++
    verbsId ++ verbsSec

/-- The row of an opcode, where the map has one. -/
def verbRow (op : Nat) : Option VerbRow := opcodeMap.find? fun r => r.op == op

/-- A payload length lies within the range of a verb (check 6 of R55). DESIGN CHOICE, log entry 103. -/
def VerbRow.takes (r : VerbRow) (n : Nat) : Bool := decide (r.least ≤ n ∧ n ≤ r.most) && (n - r.least) % r.step == 0

end Sys2Proof.Machine
end

