-- ==== Sys2Proof/Machine/Mail.lean ====
section
/-! DEFINITION. Mailbox channels: the doorbell, the acceptance checks, time-outs, sleeping service pairs, and the
two commands carried out at acknowledgement, `SYS.HELLO` and `SYS.SET_EVENT_RING` (R34, R35, R52 to R63, R67, R70,
R593 to R595). -/

namespace Sys2Proof.Machine

/-! ## Acceptance (R52, R55) -/

/-- HOST_PAYLOAD of a header. DESIGN CHOICE, log entries 9 and 18. -/
def hostPayload (h : List Byte) : Bool := (u8 h 1).testBit 0

/-- Check 1 of R55. -/
def headerOk (h : List Byte) : Bool :=
  u8 h 0 == 1 && decide (u8 h 1 < 8) && decide (u16 h 4 < 1024) && bits (u16 h 36) 14 10 == 0 && zeros h 38 26 &&
    (!hostPayload h || u64 h 16 % 8 == 0) && u64 h 24 % 8 == 0 && decide (u32 h 32 ≤ 65536)

/-- Check 4 of R55. -/
def Func.sessionOk (f : Func) (op ses : Nat) : Bool :=
  (op == 0x0101 && ses == 0) || (f.session != 0 && ses == f.session)

/-- A tag is busy (R58): its command has not completed, or its entry has not been written.
DESIGN CHOICE, log entry 17. -/
def State.tagBusy (s : State) (fn tag : Nat) : Bool :=
  (s.host.cmds.any fun c => c.fn == fn && c.tag == tag && !c.discard) ||
    (s.func fn).held.any fun e => e.tag == tag

/-- The payload length is one that the place of the payload can hold (R52). -/
def lengthFits (host : Bool) (n : Nat) : Bool := if host then decide (1 ≤ n ∧ n ≤ 4096) else decide (n ≤ 128)

/-- Commands carried out in full before VALID is set (R56). -/
def atAckOp (op : Nat) : Bool := op == 0x0101 || op == 0x0104

/-- The first check of R55 that a header fails, with its status; none where it passes all. -/
def State.refusal (s : State) (fn chan : Nat) (h : List Byte) : Option Status :=
  let op := u16 h 2
  let f := s.func fn
  if !headerOk h then some .badParam
  else
    match verbRow op with
    | none => some .badOpcode
    | some r =>
      if r.pf1 && fn == 0 then some .denied
      else if !f.sessionOk op (u32 h 8) then some .badState
      else if s.tagBusy fn (u16 h 4) then some .badParam
      else if !(r.takes (u16 h 6) && lengthFits (hostPayload h) (u16 h 6)) then some .badLength
      else if !atAckOp op && !(f.crs.get (f.ringOf chan) {}).enabled then some .badState
      else if s.sec.recovery && !([0x0101, 0x0102, 0x0104, 0x0106, 0x1803].contains op) then some .notReady
      else if r.ready.any fun b => !s.readyBit b then some .notReady
      else if u32 h 12 > 600000 then some .badParam
      else none

/-- Ticks from acceptance to the deadline of a command (R62, R63). DESIGN CHOICE, log entry 16. -/
def deadlineTicks (op ms : Nat) : Nat :=
  (if ms ≠ 0 then ms else if op = 0x1601 ∨ op = 0x1803 then 60000 else 1000) * ticksPerMs

/-- The command that a snapshot submits, with its place in the order of acceptance (R52, R53, R60, R62). -/
def State.cmdFrom (s : State) (fn chan : Nat) (x : Snapshot) : Cmd :=
  let h := x.header
  let body := if hostPayload h then x.hostBytes else x.payload
  let tag := u16 h 36 % 1024
  let waits := (u16 h 36).testBit 15
  let busy := s.host.cmds.find? fun c => c.fn == fn && c.tag == tag && !c.discard
  let held := (s.func fn).held.find? fun e => e.tag == tag
  { fn, chan, tag := u16 h 4, opcode := u16 h 2, payload := (body ++ List.replicate (u16 h 6) 0#8).take (u16 h 6), 
    resultAddr := u64 h 24, resultLimit := u32 h 32, seq := s.host.nextSeq, deadline := s.now + deadlineTicks (u16 h 2) (u32 h 12),
    fenceChan := (u8 h 1).testBit 1, fenceFn := (u8 h 1).testBit 2,
    depend := if waits then busy.map Cmd.seq else none,
    dependFailed := waits && busy.isNone && held.any fun e => e.status != 0 && e.status != 0x21 }

/-- Writes MB.ACK of a channel (R32, R34). -/
def State.ack (s : State) (fn chan : Nat) (st : Status) (tag : Nat) : State :=
  s.setChan fn chan { s.chan fn chan with ackStatus := st.code, ackTag := tag % 1024, valid := true, awaiting := false,
                                          snapshot := none, atAck := none }

/-- The Steward checks a snapshot and answers (R34, R55, R56). -/
def State.checkSnapshot (s : State) (fn chan : Nat) (x : Snapshot) : State :=
  match s.refusal fn chan x.header with
  | some st => s.ack fn chan st (u16 x.header 4)
  | none =>
    let c := s.cmdFrom fn chan x
    if atAckOp c.opcode then s.setChan fn chan { s.chan fn chan with snapshot := none, atAck := some c }
    else
      { s with host := { s.host with cmds := s.host.cmds ++ [c], nextSeq := s.host.nextSeq + 1 } }.ack fn chan .accepted
        c.tag

/-- The pair of a channel can check its doorbells: it runs, and no takeover of it is under way (R35, R514). -/
def State.channelServed (s : State) (fn chan : Nat) : Bool :=
  s.stewardRuns && !s.ft.asleep.contains (s.pairOf fn chan) && !s.ft.takeover.contains (homePair fn chan)

/-- Answers whatever doorbell a channel holds, if its pair can. -/
def State.serveChan (s : State) (fn chan : Nat) : State :=
  match (s.chan fn chan).snapshot with
  | some x => if s.channelServed fn chan then s.checkSnapshot fn chan x else s
  | none => s

/-- Answers every held doorbell that can be answered, in order of function and channel. -/
def State.serveChans (s : State) : State :=
  let s := (List.range 64).foldl (fun s n => s.serveChan 0 n) s
  (List.range 16).foldl (fun s n => s.serveChan 1 n) s

/-- What a doorbell snapshots: the command area in its place, and the payload in host memory (R34, R53). -/
def Chan.take (c : Chan) (hostBytes : List Byte) : Snapshot :=
  { header := (List.range 64).map fun i => c.area.read i
    payload := (List.range 128).map fun i => c.area.read (64 + i), hostBytes }

/-- A payload in host memory is read, with snooping (R47, R52). -/
def State.readPayload (s : State) (fn : Nat) (x : Snapshot) : State :=
  if hostPayload x.header then s.emit (.hostRead fn (u64 x.header 16) (u16 x.header 6) false) else s

/-- DOORBELL_WRITE (R33 to R37, R534): a write to MB.DOORBELL; `hostBytes` is what host memory returns for the
payload. DESIGN CHOICE, log entry 23. -/
def execDoorbellWrite (t fn chan value : Nat) (hostBytes : List Byte) (s : State) : Host.Outcome State Fault Refusal :=
  happens t (fun s =>
    let c := s.chan fn chan
    if !s.chanReachable fn chan || !s.readyBit (1 + fn) || !value.testBit 0 then s
    else if c.owner = 0 then s.setChan fn chan { c with doorbellNoLock := true }
    else if c.awaiting then s.setChan fn chan { c with doorbellLost := true }
    else
      let x := c.take hostBytes
      let y := { c with valid := false, awaiting := true, ackSeq := wrapAdd 32 c.ackSeq 1, snapshot := some x }
      ((s.setChan fn chan y).readPayload fn x).serveChan fn chan) s

/-! ## Service pairs asleep (R35) -/

/-- SERVICE_PAIR_WAKE (R35). -/
def execServicePairWake (t pair : Nat) (s : State) : Host.Outcome State Fault Refusal :=
  happens t (fun s => { s with ft := { s.ft with asleep := s.ft.asleep.filter (· != pair) } }.serveChans) s

/-- A channel has work for its pair. -/
def State.chanBusy (s : State) (fn chan : Nat) : Bool :=
  (s.chan fn chan).awaiting || s.host.cmds.any fun c => c.fn == fn && c.chan == chan

/-- A pair serves no channel that has work. -/
def State.pairIdle (s : State) (pair : Nat) : Bool :=
  [0, 1].all fun fn => (List.range (chanCount fn)).all fun n => s.pairOf fn n != pair || !s.chanBusy fn n

/-- SERVICE_PAIR_SLEEP (R35): only an idle pair sleeps. -/
def execServicePairSleep (t pair : Nat) (s : State) : Host.Outcome State Fault Refusal :=
  happens t (fun s =>
    if s.stewardRuns && decide (pair < 5) && !s.ft.haltedPairs.contains pair && !s.ft.asleep.contains pair && s.pairIdle pair then
      { s with ft := { s.ft with asleep := s.ft.asleep ++ [pair] } }
    else s) s

/-! ## Time-outs (R62, R73) -/

/-- VINE.CONFIGURE of a MEMBER is taken back: the module is OFF again, or keeps the delay it had (R366).
DESIGN CHOICE, log entry 20. -/
def State.unMember (s : State) (aux : Nat) : State :=
  if aux = 0 then (({ s with vine := {} } : State).undeclare 0x0D 0).loopUpdate 0
  else { s with vine := { s.vine with delay := aux - 1 } }

/-- STREAM.CONFIGURE_PORT is taken back: the port is OFF again (R466). DESIGN CHOICE, log entry 20. -/
def State.unPort (s : State) (n : Nat) : State :=
  ({ s with ports := s.ports.set n { s.ports.get n {} with mode := .off, role := 0 } } : State).undeclare 0x12 n

/-- The routing frame of a TRELLIS.DESKEW is withdrawn, where it has not left the module: a command whose frame has
been sent has changed the device, and runs on (R62). DESIGN CHOICE, log entry 20. -/
def State.unroute (s : State) (n : Nat) : Option State :=
  let d := s.peDev n
  if d.waiting.any fun f => f.1 == 0x0A then
    some (s.setPe n { d with waiting := d.waiting.filter fun f => f.1 != 0x0A })
  else none

/-- A started command that only waits for something outside, so that its deadline still ends it; what it had
prepared is taken back (R62, R366, R466, R484). DESIGN CHOICE, log entry 20. -/
def State.unstart (s : State) (c : Cmd) : Option State :=
  if !c.started then some s
  else
    match c.opcode with
    | 0x0D01 => if u8 c.payload 0 = 2 then some (s.unMember c.aux) else none
    | 0x1201 => if u8 c.payload 1 = 0 then none else some (s.unPort (u8 c.payload 0))
    | 0x1302 => some { s with disp := s.disp.withGenlock c.aux }
    | 0x0B02 => some s
    | 0x0B04 => if u8 c.payload 0 = 0 then none else s.unroute (u8 c.payload 1)
    | _ => none

/-- COMMAND_TIMEOUT (R62, R68). DESIGN CHOICE, log entry 16. -/
def execCommandTimeout (t fn tag : Nat) (s : State) : Host.Outcome State Fault Refusal :=
  happens t (fun s =>
    match s.cmdOf fn tag with
    | none => s
    | some c =>
      if !s.channelServed fn c.chan || s.now < c.deadline || endlessOp c then s
      else
        match s.unstart c with
        | some s1 => s1.finish c .timeout (s.endResult c)
        | none => s) s

/-! ## SYS.HELLO (R59, R67) -/

/-- The channel of a function that waits for command `tag` with opcode `op` to be carried out before VALID. -/
def State.atAckChan (s : State) (fn tag op : Nat) : Option (Nat × Cmd) :=
  (s.func fn).chans.findSome? fun e =>
    match e.2.atAck with
    | some c => if c.tag = tag ∧ c.opcode = op then some (e.1, c) else none
    | none => none

/-- The session number that a free value gives: nonzero and different from the previous one (R59).
DESIGN CHOICE, log entry 14. -/
def sessionOf (v last : Nat) : Nat :=
  let ok (n : Nat) : Bool := n != 0 && n != last
  if ok (v % 2 ^ 32) then v % 2 ^ 32 else if ok ((v + 1) % 2 ^ 32) then (v + 1) % 2 ^ 32 else (v + 2) % 2 ^ 32

/-- The function has a session (R59). DESIGN CHOICE, log entry 14. -/
def State.withSession (s : State) (fn : Nat) : State :=
  let f := s.func fn
  if f.session ≠ 0 then s
  else (s.drawFree).setFunc fn { f with session := sessionOf (s.freeNat 32) f.lastSession }

/-- The 48 bytes of `SYS.HELLO` (R67). -/
def State.helloBytes (s : State) (fn : Nat) : List Byte :=
  let v := Config.interfaceVersion.toNat
  pack [(4, (s.func fn).session), (2, v / 65536), (2, v), (1, fn), (1, chanCount fn), (2, 1024), (2, 128), (2, 4096),
    (1, s.host.clocking), (7, 0), (8, s.ready.toNat), (16, stampNat s.stampNow)]

/-- SYS_HELLO: `SYS.HELLO` (R59, R67). -/
def execSysHello (t fn tag : Nat) (s : State) : Host.Outcome State Fault Refusal :=
  happens t (fun s =>
    match s.atAckChan fn tag 0x0101 with
    | none => s
    | some (n, c) =>
      if !s.channelServed fn n || s.blocked c then s
      else if c.dependFailed then s.ack fn n .aborted c.tag
      else if s.pastDeadline c then s.ack fn n .timeout c.tag
      else if c.room < 48 then s.ack fn n .badLength c.tag
      else if u16 c.payload 0 ≠ Config.interfaceVersion.toNat / 65536 then s.ack fn n .badParam c.tag
      else
        let s1 := s.withSession fn
        (s1.writeResult c (s1.helloBytes fn)).ack fn n .ok c.tag) s

/-! ## SYS.SET_EVENT_RING (R38, R70, R593 to R595) -/

/-- What a payload of `SYS.SET_EVENT_RING` asks for. -/
structure RingSetup where
  /-- KIND is 1. -/
  completion : Bool
  /-- INDEX. -/
  index : Nat
  /-- SIZE_LOG2. -/
  sizeLog2 : Nat
  /-- The vector, with the default put in for 0xFFFF. -/
  vector : Nat
  /-- BASE. -/
  base : Nat
  /-- SHADOW. -/
  shadow : Nat
  /-- CHANNEL_MASK. -/
  mask : Nat
  /-- EVENT_CODES. -/
  codes : List Nat

/-- The set-up that a payload describes. -/
def RingSetup.of (p : List Byte) : RingSetup :=
  let completion := u8 p 0 == 1
  let i := u8 p 1
  { completion, index := i, sizeLog2 := u8 p 2,
    vector := if u16 p 4 = 0xFFFF then (if completion then 16 + i else i) else u16 p 4,
    base := u64 p 8, shadow := u64 p 16, mask := u64 p 24,
    codes := (records (u16 p 6) 2 (p.drop 40)).map leNat }

/-- Another enabled ring of the function has the vector (R38). -/
def Func.vectorTaken (f : Func) (x : RingSetup) : Bool :=
  (f.ers.any fun e => e.2.enabled && e.2.vector == x.vector && (x.completion || e.1 != x.index)) ||
    f.crs.any fun e => e.2.enabled && e.2.vector == x.vector && (!x.completion || e.1 != x.index)

/-- A field is out of range, or set for the wrong kind (R594). DEDUCED, log entry 13. DESIGN CHOICE, log entry 24. -/
def RingSetup.bad (x : RingSetup) (fn : Nat) (f : Func) (p : List Byte) : Bool :=
  decide (1 < u8 p 0) || decide (15 < x.index) || !zeros p 3 1 || !zeros p 32 8 ||
    !(x.sizeLog2 == 0 || decide (4 ≤ x.sizeLog2 ∧ x.sizeLog2 ≤ 16)) || decide (vectorCount fn ≤ x.vector) ||
    x.base % 4096 != 0 || x.shadow % 8 != 0 || decide (40 < x.codes.length) ||
    (x.codes.any fun c => !eventCodes.contains c) || !noRepeat x.codes || (fn == 1 && decide (65536 ≤ x.mask)) ||
    (if x.completion then !x.codes.isEmpty else x.mask != 0) || (x.sizeLog2 != 0 && f.vectorTaken x)

/-- A ring is enabled: it restarts, and codes or channels move to it (R70). -/
def State.ringOn (s : State) (fn : Nat) (x : RingSetup) : State :=
  let f := s.func fn
  let r := f.ring x.completion x.index
  let y : Ring := { enabled := true, coalCount := r.coalCount, coalTime := r.coalTime, base := x.base,
                    sizeLog2 := x.sizeLog2, shadow := x.shadow, vector := x.vector }
  let f1 := f.setRing x.completion x.index y
  let f2 := if x.completion then
      { f1 with chanRing := (maskBits 64 x.mask).foldl (fun m n => KMap.set m n x.index) f1.chanRing }
    else { f1 with route := x.codes.foldl (fun m c => KMap.set m c x.index) f1.route }
  if x.completion then (s.setFunc fn f2).flushCompl fn else s.setFunc fn f2

/-- A ring is disabled: its codes return to ER0, and with them the events it held; a message of its vector that waits
behind a mask is never sent (R38, R70, R595). -/
def State.ringOff (s : State) (fn : Nat) (completion : Bool) (i : Nat) : State :=
  let f := s.func fn
  let r := f.ring completion i
  let f0 := f.setRing completion i { r with enabled := false, held := [] }
  let f1 := { f0 with msixPending := f0.msixPending.filter (· != r.vector) }
  if completion then s.setFunc fn f1
  else
    let f2 := { f1 with route := f1.route.filter fun e => e.2 != i }
    let back (s : State) (e : EventRec) : State :=
      let f := s.func fn
      let p := (f.ers.get 0 {}).offer fn s.now s.canWrite e
      (s.setFunc fn { f with ers := f.ers.set 0 p.1 }).post p.2
    if i = 0 then s.setFunc fn f2 else r.held.foldl back (s.setFunc fn f2)

/-- SYS_SET_EVENT_RING: `SYS.SET_EVENT_RING` (R70, R594). DESIGN CHOICE, log entry 102. -/
def execSysSetEventRing (t fn tag : Nat) (s : State) : Host.Outcome State Fault Refusal :=
  happens t (fun s =>
    match s.atAckChan fn tag 0x0104 with
    | none => s
    | some (n, c) =>
      let p := c.payload
      let x := RingSetup.of p
      let f := s.func fn
      if !s.channelServed fn n || s.blocked c then s
      else if c.dependFailed then s.ack fn n .aborted c.tag
      else if s.pastDeadline c then s.ack fn n .timeout c.tag
      else if p.length ≠ 40 + 2 * u16 p 6 then s.ack fn n .badLength c.tag
      else if x.bad fn f p then s.ack fn n .badParam c.tag
      else if x.sizeLog2 = 0 then (s.ringOff fn x.completion x.index).ack fn n .ok c.tag
      else if (f.ring x.completion x.index).enabled then s.ack fn n .badState c.tag
      else (s.ringOn fn x).ack fn n .ok c.tag) s

end Sys2Proof.Machine
end

