-- ==== Sys2Proof/Machine/Regions.lean ====
section
/-! DEFINITION. Freeing a Cellar region (R430). -/

namespace Sys2Proof.Machine

/-- The buffer of an enabled display's overlay lies in the region at `b`. -/
def State.displayUses (s : State) (b : Nat) (r : Region) : Bool :=
  let d := s.disp
  let p := d.place 2
  d.mode != .disabled && p.visible && r.meets b p.buffer (max 1 ((d.layer 2).height * p.stride))

/-- CELLAR.FREE (R73, R430): bursts already issued to the region complete before the command does.
DESIGN CHOICE, log entry 66. -/
def cellarFree (c : Cmd) (s : State) : VerbOut :=
  let p := c.payload
  let b := u64 p 0
  let force := u8 p 8 == 1
  match s.regions.find b with
  | none => .fail .badParam 0
  | some r =>
    if u8 p 8 > 1 ∨ !zeros p 9 7 then .fail .badParam 0
    else if force && c.fn == 0 then .fail .denied 0
    else
      match s.regionUser b r with
      | some k => .fail .badState (consumerWord k)
      | none =>
        if !force && s.displayUses b r then .fail .badState (consumerWord (0x13, 2))
        else if s.regionBusy b r then .running b [] ((s.grantBursts b r).setRegion b { r with freeing := true })
        else .done .quiesced 0 { s with regions := s.regions.del b }

/-- CELLAR_FREE: `CELLAR.FREE` (R430). -/
def execCellarFree (t fn tag : Nat) (s : State) : Host.Outcome State Fault Refusal :=
  verb t 0x1002 fn tag cellarFree s

end Sys2Proof.Machine
end

