-- ==== Sys2Proof/Machine/Trellis.lean ====
section
/-! DEFINITION. Trellis: discovery, upstream frames, lane and device loss, capture and the TRELLIS family (R326 to
R342). -/

namespace Sys2Proof.Machine

/-! ## Discovery (R327, R328, R337, R338) -/

/-- What a PE device declares (R337). -/
def peDecl (n : Nat) : Decl := { fam := 0x0B, obj := n, group := n / 8, first := 1600000, each := 600000 }

/-- Domain PD_TRELLIS_k is on: one of lanes 8k to 8k + 7 trains or serves, and so declares its power (R337). -/
def State.pdTrellis (s : State) (k : Nat) : Bool := s.domainOn 0x0B k

/-- Mask of devices that are UP, REROUTED or CARRYING. -/
def State.peMask (s : State) : Nat := pipeMask ((List.range 64).filter fun n => (s.peDev n).linked)

/-- Devices that a DISCOVER command names. -/
def discoverNames (c : Cmd) : List Nat := if u64 c.payload 0 = 0 then List.range 64 else maskBits 64 (u64 c.payload 0)

/-- Completes the discoveries whose devices have all been trained or given up (R338). -/
def State.finishDiscover (s : State) : State :=
  let ready := s.startedCmds 0x0B01 fun c => (discoverNames c).all fun n => (s.peDev n).trainSince.isNone
  s.finishAll ready .ok fun _ => s.peMask

/-- Training of a device's lane begins, and the counts since discovery restart (R316, R338, R339); a device that its buddy
carries keeps its traffic there. -/
def State.peTrain (s : State) (n : Nat) : State :=
  let d := s.peDev n
  let d := { d with trainSince := some s.now, ident := false, loops := 0, rttSum := 0, preset := s.pePreset n,
                    downUp := false, upUp := false, moveBack := false, corrUp := 0, badUp := 0, unlisted := 0,
                    capLost := 0 }
  if d.mode = .rerouted then s.setPe n d
  else
    ((s.setPe n { d with rxSeq := 0, txSeq := 0, unacked := [], waiting := [], credits := 64, advertised := 64, seqId := 0,
                         seen := [], bulk := [] }).peMode n .training).measureLost n

/-- Training of a device ends without a usable lane. DESIGN CHOICE, log entry 57. -/
def State.peGiveUp (s : State) (n : Nat) : State :=
  let d := s.peDev n
  let s := s.setPe n { d with trainSince := none }
  if d.mode = .rerouted then s else (s.peMode n .absent).undeclare 0x0B n

/-- What retraining repairs: the directions of the lane are in service again, and a side port that had failed is as its
check finds it, which is free where the pair's other device serves (R330, R338). DESIGN CHOICE, log entry 132. -/
def State.laneRepaired (s : State) (n : Nat) : State :=
  let back (s : State) (u : Unit3) : State := if s.isRetired u then s.restoreUnit u false else s
  let s := back (back s ⟨10, n / 2, 2 * (n % 2)⟩) ⟨10, n / 2, 2 * (n % 2) + 1⟩
  if s.sideDead.contains (n / 2) && (s.peDev (buddyOf n)).linked then
    (if s.freeNat 1 = 1 then back { s with sideDead := s.sideDead.filter (· != n / 2) } ⟨10, n / 2, 4⟩ else s).drawFree
  else s

/-- The device has been initialised and identified: it serves, or its traffic will move back (R328, R330). While the
vector clock is held idle with VC_ZERO on its way, the device gets its own. -/
def State.peServe (s : State) (n : Nat) : State :=
  let d := s.peDev n
  if d.ident && decide (16 ≤ d.loops) && !d.delayLimit && d.trainSince.isSome then
    let d := { d with trainSince := none, trainings := satAdd 32 d.trainings 1 }
    let s := (s.laneRepaired n).calTrim 7 n 0 0
    if d.mode = .rerouted then (s.setPe n { d with moveBack := true }).finishDiscover
    else
      let s := (s.setPe n { d with unaligned := s.vectorRuns }).peMode n .up
      (if (s.gen 0).zeroing then s.peSendR n 3 [] else s).finishDiscover
  else s

/-- A lane that trains has its upstream direction up, and its device says in RX_OK whether the downstream direction is up
too; once both are, the round trip is measured (R317, R318, R327). -/
def State.laneUp (s : State) (lane : Nat) (rxOk : Bool) : State :=
  let d := s.peDev lane
  if d.trainSince.isNone || d.downUp then s
  else
    let s := s.setPe lane { d with upUp := true, downUp := rxOk }
    if rxOk then
      (List.range 16).foldl (fun s k => s.emitFrame lane (peFrame 0x0C 0 0 d.ack (leBytes 4 k))) s
    else s

/-- CODEWORD_BOUNDARY_FOUND (R316, R317): `words` are the sixteen codewords with which the module's receiver tests a
boundary, each as the PAM4 levels received and the errors its decoder finds. The device finds its own boundary, and says
so in RX_OK. -/
def execCodewordBoundaryFound (t lane : Nat) (words : List (List Nat × List (Nat × Nat))) (s : State) :
    Host.Outcome State Fault Refusal :=
  happens t (fun s =>
    match words.getLast?.bind fun w => lineDecode w.1 w.2 with
    | some c =>
      if lane > 63 || (s.peDev lane).trainSince.isNone || (s.peDev lane).upUp || !boundaryFound words then s
      else s.laneUp lane (c.1.testBit 6)
    | none => s) s

/-- The one-way trace delay of a round trip, ps (R327). -/
def traceOf (rtt : Nat) : Nat := (rtt - 97280) / 2

/-- One more LOOP reply of device `n`; after 16 the delay is known and INIT is sent (R327, R338). -/
def State.loopReply (s : State) (n rtt : Nat) : State :=
  let d := s.peDev n
  if d.trainSince.isNone || decide (16 ≤ d.loops) then s
  else
    let d := { d with loops := d.loops + 1, rttSum := d.rttSum + rtt }
    if d.loops < 16 then s.setPe n d
    else
      let mean := d.rttSum / 16
      let delay := traceOf mean
      let d := { d with rtt := mean, delay, delayLimit := decide (10000 < delay) }
      let s := s.setPe n d
      if d.delayLimit then (s.peGiveUp n).finishDiscover
      else
        (s.peInit n (pack [(1, n), (1, bit (s.peDev (buddyOf n)).linked), (4, delay)])).peServe n

/-! ## Loss (R329 to R331, R342) -/

/-- Running sites with a pin on device `n`. -/
def State.sitesOn (s : State) (n : Nat) : List Nat :=
  (s.pat.sites.filter fun e => e.2.mode.live && e.2.pins.any fun p => p / 64 == n).map Prod.fst

/-- What `TRELLIS.DESKEW` asks of the timing line: ACTION 1 routes an edge of a channel, ACTION 2 nothing (R333,
R341). -/
def routeOf (p : List Byte) : Nat × Nat := if u8 p 0 = 1 then (u8 p 3 + 1, u8 p 2) else (0, 0)

/-- Completes the commands that wait for device `n` to acknowledge a route; on a device that is lost no route is made, and
they end with ST_BAD_STATE (R331, R341). DESIGN CHOICE, log entry 58. -/
def State.finishRoutes (s : State) (n : Nat) : State :=
  let d := s.peDev n
  if d.routing then s
  else
    let cs := s.startedCmds 0x0B04 fun c => u8 c.payload 1 == n && u8 c.payload 0 != 0
    let s1 := if d.linked then s.setPe n (cs.foldl (fun d c => { d with route := routeOf c.payload }) d) else s
    s1.finishAll cs (if d.linked then .ok else .badState) fun _ => 0

/-- The 128 or 384 bytes of `TRELLIS.GET_STATUS` (R339). The two counts that the device itself reports are free
values, since no frame of R320 carries them. DESIGN CHOICE, log entry 96. -/
def State.peStatus (s : State) (n : Nat) (counters : Bool) : List Byte :=
  let d := s.peDev n
  let down := s.freeNat 128
  let flags := bit d.downUp + 2 * bit d.upUp + 4 * bit (s.sideUp n) + 8 * bit (s.peDev (buddyOf n)).linked +
    16 * bit d.unaligned + 32 * bit d.delayLimit + 64 * bit d.clamped
  pack ([(1, n), (1, s.peState n), (1, flags), (1, d.preset), (4, d.rtt), (4, d.delay), (2, d.vendor), (2, d.model),
    (8, d.memory), (8, down % 2 ^ 64), (8, down / 2 ^ 64), (8, d.corrUp), (8, d.badUp), (8, d.resent), (8, d.unlisted),
    (8, d.capLost), (4, d.trainings), (12, 0), (16, stampNat d.changed), (16, 0)] ++
    if counters then (List.range 64).map fun c => (4, d.counts.get c 0) else [])

/-- One site's counters of device `n` are in: the status commands that wait for no other site complete (R334,
R339). -/
def State.countersIn (s : State) (n : Nat) (all : Bool) : State :=
  (s.startedCmds 0x0B02 fun c => u8 c.payload 0 == n).foldl (fun s c =>
    if all || decide (c.aux ≤ 1) then (s.drawFree.writeResult c (s.peStatus n true)).finish c .ok 0
    else s.markStarted c (c.aux - 1) []) s

/-- The vector clock is unmuted once every VC_ZERO has been acknowledged, and the command that set it completes
(R328); a pin-deskew measurement that waits for the clock begins (R538). -/
def State.finishZero (s : State) : State :=
  let waits (d : PeDev) : Bool := d.linked && (d.unacked.any (fun f => f.type == 3) || d.waiting.any fun f => f.1 == 3)
  if (s.gen 0).zeroing && !(s.pe.any fun e => waits e.2) then
    ((s.setGen 0 { s.gen 0 with zeroing := false }).finishGen 0).measureGo
  else s

/-- A site that has ended awaits results from device `n`, which are lost with it: the site is lost too (R301, R334).
DESIGN CHOICE, log entry 57. -/
def State.loseResults (s : State) (n : Nat) : State :=
  ((s.pat.sites.filter fun e => e.2.due.isSome && e.2.play.parkAt.isNone && e.2.pins.any fun p => p / 64 == n).map
    Prod.fst).foldl (fun s i =>
      (s.setSite i { s.site i with due := some .lost, mode := if (s.site i).mode = .quiescing then .quiescing else .lost }).siteSettle
        i) s

/-- A device is lost (R331): its sites park and its pending work ends. DESIGN CHOICE, log entry 57. -/
def State.peLose (s : State) (n cause code : Nat) : State :=
  if !((s.peDev n).linked || (s.peDev n).mode == .training) then s
  else
    let sites := (s.sitesOn n).filter fun i => (s.site i).mode == .running
    let d := s.peDev n
    let s := s.setPe n { d with bulk := [], unacked := [], waiting := [], trainSince := none, moveBack := false }
    let s := ((s.peMode n .lost).undeclare 0x0B n).event 0x0B01 n (cause + 2 ^ 8 * min sites.length 255 + 2 ^ 16 * code)
    let s := (sites.foldl (fun s i => s.parkSoon i .lost) s).loseResults n
    ((((s.finishWrites).finishRoutes n).countersIn n true).measureLost n).finishDiscover.finishZero

/-- A device is lost, and with it a buddy that it carried (R329, R331). DESIGN CHOICE, log entry 57. -/
def State.peLoseBoth (s : State) (n cause code : Nat) : State :=
  let carried := s.carrying n
  let s := s.peLose n cause code
  if carried then s.peLose (buddyOf n) 1 0 else s

/-- A direction of lane `n` is down: the device is rerouted or lost (R329 to R331, R513 class 10).
DESIGN CHOICE, log entries 56 and 57. -/
def State.laneDown (s : State) (n : Nat) (up inj : Bool) : State :=
  let d := s.peDev n
  let u : Unit3 := ⟨10, n / 2, 2 * (n % 2) + bit up⟩
  if n > 63 || (if up then !d.upUp else !d.downUp) then s
  else
    let d := if up then { d with upUp := false } else { d with downUp := false }
    let s := s.setPe n d
    let mask (s : State) : State := if s.isRetired u then s else s.faultMasked u { logical := n, injected := inj }
    if d.mode != .up then (if d.mode == .rerouted then s else mask s)
    else if !s.carrying n && s.sideUp n then
      let s := ((s.peMode n .rerouted).peResend n)
      let s := (s.peDev n).bulk.foldl (fun s b => s.bulkRewind n b.1) s
      mask (s.event 0x0B02 n (buddyOf n + 2 ^ 8 * bit (!d.downUp) + 2 ^ 9 * bit (!d.upUp)))
    else
      let s := if s.isRetired u then s else s.faultUnmasked u { logical := n, injected := inj }
      s.peLoseBoth n 3 0

/-- LANE_DOWN (R329). -/
def execLaneDown (t lane : Nat) (upstream : Bool) (s : State) : Host.Outcome State Fault Refusal :=
  happens t (fun s => s.laneDown lane upstream false) s

/-- DEVICE_LOST (R331): a device has no link. -/
def execDeviceLost (t device : Nat) (s : State) : Host.Outcome State Fault Refusal :=
  happens t (fun s => s.peLoseBoth device 1 0) s

/-- A side port fails (R330, R513 class 10). -/
def State.sideFail (s : State) (pair : Nat) (inj : Bool) : State :=
  let u : Unit3 := ⟨10, pair, 4⟩
  if pair > 31 || s.sideDead.contains pair || s.isRetired u then s
  else
    let cut := [2 * pair, 2 * pair + 1].filter fun n => (s.peDev n).mode == .rerouted
    let s := { s with sideDead := s.sideDead ++ [pair] }
    let i : FaultInfo := { injected := inj }
    if cut.isEmpty then s.faultMasked u i
    else cut.foldl (fun s n => s.peLose n 1 0) (s.faultUnmasked u { i with logical := cut.headD 0xFFFF })

/-- SIDE_PORT_FAILURE (R330). -/
def execSidePortFailure (t pair : Nat) (s : State) : Host.Outcome State Fault Refusal :=
  happens t (fun s => s.sideFail pair false) s

/-! ## Resets and marker codewords (R318, R337) -/

/-- No site that runs, or whose results are still coming in, has a pin on device `n`. -/
def State.peRest (s : State) (n : Nat) : Bool :=
  !s.pat.sites.any fun e => (e.2.mode.live || e.2.mode == .quiescing || e.2.due.isSome) && e.2.pins.any fun p => p / 64 == n

/-- A device that is reset is sent safe by stopping its lane, and its rediscovery begins (R337). A buddy that the lane
carries has no link any more (R329, R331). -/
def State.peSafe (s : State) (n : Nat) : State :=
  let s := if s.carrying n then s.peLose (buddyOf n) 1 0 else s
  let s := (s.setPe n { s.peDev n with route := (0, 0), counts := [], downUp := false, upUp := false }).peMode n .absent
  let s := match s.declare [peDecl n] with
    | .ok s1 => s1.peTrain n
    | .error _ => s
  s.restDone (resetKey 0x0B n) 0


/-- The reset of a device executes (R337): its running sites park as an IMMEDIATE stop parks them, and a device without
them is sent safe. -/
def State.peReset (s : State) (n : Nat) : State :=
  let s := s.setPe n { s.peDev n with changed := s.stampNow }
  let on := (s.pat.sites.filter fun e => e.2.pins.any fun p => p / 64 == n).map Prod.fst
  let s := on.foldl (fun s i => s.parkSoon i .stopped) s
  if s.peRest n then s.peSafe n else s

/-- Goes on with the resets of devices (R337): a device whose sites rest is sent safe. -/
def State.peResets (s : State) : State :=
  let keys := (s.startedCmds 0x0105 fun c => u8 c.payload 0 == 0x0B).flatMap fun c => c.named
  keys.foldl (fun s k => if s.peRest (k % 65536) then s.peSafe (k % 65536) else s) s

/-- The marker codeword of lane `n`: HEARTBEAT for its own device in slot 0, while the buddy path is in use for the buddy in
slot 1, and IDLE frames (R318). DESIGN CHOICE, log entry 131. -/
def State.markerPayload (s : State) (n : Nat) : List Byte :=
  let beat (k dest : Nat) : List Byte := peFrame 1 dest 0 (s.peDev k).ack (pack [(8, s.now % 2 ^ 64), (1, k)])
  let idle : List Byte := peFrame 0 0 0 (s.peDev n).ack []
  beat n 0 ++ (if s.carrying n then beat (buddyOf n) 1 else idle) ++ (List.replicate 8 idle).flatten

/-- What else goes on with each marker codeword, as the module's regular beat: outputs play on with their rings refilled,
and writes of waveforms complete (R344, R346, R348). DESIGN CHOICE, log entry 134. -/
def State.stimBeat (s : State) : State := ((s.stimTick 0).stimTick 1).finishStimWrites

/-- MARKER_CODEWORD (R318, R330, R338): marker codewords leave on the lanes in use, retrained lanes take their traffic
back, and a lane that has not trained in 50 ms is given up. -/
def execMarkerCodeword (t : Nat) (s : State) : Host.Outcome State Fault Refusal :=
  happens t (fun s =>
    if s.now % 32768 != 0 || !s.pw.tickRunning then s
    else
      ((List.range 64).foldl (fun s n =>
        let d := s.peDev n
        let s := if d.moveBack && d.mode == .rerouted then
            ((s.setPe n { d with moveBack := false }).peMode n .up).event 0x0B02 n (buddyOf n + 2 ^ 10)
          else s
        let s := match d.trainSince with
          | some t0 => if t0 + 50 * ticksPerMs ≤ s.now then s.peGiveUp n else s
          | none => s
        if s.laneOn n then s.emit (.trellisLine n (lineLevels (s.laneHeader n none) (s.markerPayload n))) else s)
          s).peResets.finishDiscover.stimBeat) s

/-- RELIABLE_RESEND_TIMEOUT (R321): ACK has not covered the oldest frame within 409.6 ns of sending it. -/
def execReliableResendTimeout (t device : Nat) (s : State) : Host.Outcome State Fault Refusal :=
  happens t (fun s => if s.laneOn device && (s.peDev device).overdue s.now then s.peResend device else s) s

/-! ## Upstream codewords and frames (R318 to R325) -/

/-- Counts a codeword or frame of device `n` that could not be used. -/
def State.badFrame (s : State) (n k : Nat) : State :=
  let d := s.peDev n
  s.setPe n { d with badUp := satAdd 64 d.badUp k }

/-- One more upstream codeword of lane `n`, with LIVE or not; the eighth in a row that failed or had LIVE clear takes
the direction down (R329). -/
def State.countBad (s : State) (n : Nat) (live : Bool) : State :=
  let d := s.peDev n
  let k := if live then 0 else d.badRun + 1
  if 8 ≤ k && d.trainSince.isNone then (s.setPe n { d with badRun := 0 }).laneDown n true false
  else s.setPe n { d with badRun := k }

/-- A TYPE that an upstream frame can have (R320). -/
def upstreamType (k : Nat) : Bool := k == 0 || decide (0x10 ≤ k ∧ k ≤ 0x18) || k == 0x1F

/-- UPSTREAM_CODEWORD (R316 to R318, R322, R329): a codeword as the PAM4 levels received and the errors that the decoder
finds; frames of an unknown type in its slots are discarded and counted. -/
def execUpstreamCodeword (t lane : Nat) (levels : List Nat) (errors : List (Nat × Nat)) (_corrected _discarded : Computed)
    (s : State) : Host.Outcome State Fault Refusal :=
  happens t (fun s =>
    if lane > 63 || !(s.peDev lane).upUp then s
    else
      match lineDecode levels errors with
      | none => (s.badFrame lane 1).countBad lane false
      | some c =>
        let header := c.1
        let s := s.countBad lane (header.testBit 5)
        let d := s.peDev lane
        let frames := if header.testBit 7 then [] else records 10 64 c.2
        let d := { d with
          credits := d.credits + (if header.testBit 7 then 0 else bits header 15 8)
          corrUp := satAdd 64 d.corrUp (bit (!errors.isEmpty))
          badUp := satAdd 64 d.badUp (frames.filter fun f => !upstreamType (u8 f 0)).length }
        let s := (sendWaiting d.toSend (s.setPe lane d) lane).laneUp lane (header.testBit 6)
        if !header.testBit 6 && d.trainSince.isNone then s.laneDown lane false false else s) s

/-- Acts on an upstream frame of a type (R319 to R321, R325): it is checked, its ACK taken, a reliable frame
accepted in order only, and a class S frame on its first copy only. DESIGN CHOICE, log entries 56 and 93. -/
def State.onFrame (s : State) (lane type cls : Nat) (frame : List Byte) (act : Nat → List Byte → State → State) :
    State :=
  let n := if u8 frame 1 % 2 = 1 then buddyOf lane else lane
  let d := s.peDev n
  if lane > 63 || !(s.peDev lane).upUp then s
  else if frame.length != 64 || frameCrc (frame.take 62) != u16 frame 62 then s.badFrame lane 1
  else if u8 frame 0 != type || !(d.linked || d.mode == .training) then s
  else
    let p := (frame.drop 8).take 54
    let s := ((s.setPe n (d.acked (u16 frame 4))).finishRoutes n).finishZero
    let d := s.peDev n
    if cls = 1 then
      if u16 frame 2 = d.rxSeq then act n p (s.setPe n { d with rxSeq := (d.rxSeq + 1) % 65536 }) else s
    else if cls = 2 then
      if d.seen.contains (u16 p 0) then s else act n p (s.setPe n { d with seen := (u16 p 0 :: d.seen).take 64 })
    else act n p s

/-- IDLE_FRAME (R320). -/
def execIdleFrame (t lane : Nat) (frame : List Byte) (s : State) : Host.Outcome State Fault Refusal :=
  happens t (fun s => s.onFrame lane 0x00 0 frame fun _ _ s => s) s

/-- IDENT_FRAME (R320, R322, R338): the credits that are out count against those advertised. -/
def execIdentFrame (t lane : Nat) (frame : List Byte) (s : State) : Host.Outcome State Fault Refusal :=
  happens t (fun s => s.onFrame lane 0x10 1 frame fun n p s =>
    let d := s.peDev n
    let d := { d with vendor := u16 p 0, model := u16 p 2, channels := u8 p 6, memory := field p 8 6,
                      credits := d.credits + u16 p 14 - d.advertised, advertised := u16 p 14, ident := true }
    (sendWaiting d.toSend (s.setPe n d) n).peServe n) s

/-- LOOP_REPLY_FRAME (R327): `rtt` is the round trip measured, ps. -/
def execLoopReplyFrame (t lane : Nat) (frame : List Byte) (rtt : Nat) (s : State) : Host.Outcome State Fault Refusal :=
  happens t (fun s => s.onFrame lane 0x18 0 frame fun n _ s => s.loopReply n rtt) s

/-- Vectors launched before the one with a VCOUNT; none where it lies before the start (R328). -/
def Site.cycleOf (x : Site) (vcount : Nat) : Option Nat :=
  let c := (vcount + 2 ^ 48 - x.vc0 % 2 ^ 48) % 2 ^ 48
  if c < 2 ^ 47 then some c else none

/-- Segment, vector and iteration of a cycle (R335). -/
def Site.placeOf (x : Site) (cycle : Nat) : Nat × Nat × Nat :=
  match x.path.find? fun e => decide (e.1 ≤ cycle) with
  | some (b, g, l) => (g, (cycle - b) % l, (cycle - b) / l)
  | none => (0, 0, 0)

/-- The header of a fail or capture region (R335). -/
def regionHeader (entries unlisted : Nat) : List Byte := pack [(8, entries), (8, unlisted), (48, 0)]

/-- The 32 bytes of a fail or capture entry (R335). -/
def Site.entry (x : Site) (n dev flags cycle map : Nat) : List Byte :=
  let p := x.placeOf cycle
  pack [(2, n), (1, dev), (1, flags), (2, p.1), (2, 0), (4, p.2.1), (4, p.2.2), (8, cycle), (8, map)]

/-- Rewrites the headers of a site's regions (R335). -/
def State.capHeaders (s : State) (n : Nat) : State :=
  let x := s.site n
  let devs := x.unlisted.foldl (fun k e => k + e.2) 0
  let lost := x.capLost.foldl (fun k e => k + e.2) 0
  let m := if x.cap.flags.testBit 0 then
      s.cellarMem.writeBytes x.cap.failAt (regionHeader x.failEntries (devs + x.failLost))
    else s.cellarMem
  let m := if x.cap.flags.testBit 1 then
      m.writeBytes x.cap.capAt (regionHeader x.capEntries (lost + x.capFull))
    else m
  s.keepCellar m

/-- One fail record of device `dev` (R334, R335). -/
def State.failRecord (s : State) (dev : Nat) (r : List Byte) : State :=
  let n := u8 r 0
  let x := s.site n
  match (if n = 0xFF ∧ u64 r 8 = 0 then none else x.cycleOf (field r 2 6)) with
  | none => s
  | some c =>
    let x := { x with failed := if x.failed.contains c then x.failed else c :: x.failed }
    if !x.cap.flags.testBit 0 then s.setSite n x
    else
      let room := decide (x.failEntries < x.cap.capacity)
      if room || (x.cap.flags.testBit 2 && x.cap.capacity != 0) then
        let a := x.cap.failAt + 64 + 32 * (x.failEntries % x.cap.capacity)
        let s := (s.keepCellar (s.cellarMem.writeBytes a (x.entry n dev (u8 r 1 % 2) c (u64 r 8))))
        (s.setSite n { x with failEntries := x.failEntries + 1 }).capHeaders n
      else (s.setSite n { x with failLost := x.failLost + 1 }).capHeaders n

/-- FAIL_FRAME (R320, R334, R335). -/
def execFailFrame (t lane : Nat) (frame : List Byte) (s : State) : Host.Outcome State Fault Refusal :=
  happens t (fun s => s.onFrame lane 0x12 1 frame fun n p s =>
    (records 3 16 p).foldl (fun s r => s.failRecord n r) s) s

/-- One capture record of device `dev`: two entries (R335). -/
def State.capRecord (s : State) (dev : Nat) (r : List Byte) : State :=
  let n := u8 r 0
  let x := s.site n
  let slots := (x.cap.capBytes - 64) / 32
  match (if x.cap.flags.testBit 1 then x.cycleOf (field r 2 6) else none) with
  | none => s
  | some c =>
    let put (s : State) (half : Nat) : State :=
      let x := s.site n
      if x.capEntries < slots ∨ (x.cap.flags.testBit 2 ∧ slots ≠ 0) then
        let a := x.cap.capAt + 64 + 32 * (x.capEntries % slots)
        let e := x.entry n dev (2 * half) c (u64 r (8 + 8 * half))
        (s.keepCellar (s.cellarMem.writeBytes a e)).setSite n { x with capEntries := x.capEntries + 1 }
      else s.setSite n { x with capFull := x.capFull + 1 }
    (put (put s 0) 1).capHeaders n

/-- CAPTURE_FRAME (R320, R335). -/
def execCaptureFrame (t lane : Nat) (frame : List Byte) (s : State) : Host.Outcome State Fault Refusal :=
  happens t (fun s => s.onFrame lane 0x13 1 frame fun n p s =>
    (records 2 24 p).foldl (fun s r => if u8 r 0 = 0xFF ∧ u64 r 8 = 0 ∧ u64 r 16 = 0 then s else s.capRecord n r) s) s

/-- PROGRESS_FRAME (R320, R334). -/
def execProgressFrame (t lane : Nat) (frame : List Byte) (s : State) : Host.Outcome State Fault Refusal :=
  happens t (fun s => s.onFrame lane 0x11 0 frame fun n p s =>
    let i := u8 p 0
    let x := s.site i
    if !x.pins.any fun q => q / 64 == n then s
    else
      let done := match x.cycleOf (field p 2 6) with | some c => c + 1 | none => 0
      let d := s.peDev n
      let newFails := u32 p 8 - x.unlisted.get n 0
      let newLost := u32 p 12 - x.capLost.get n 0
      let s := s.setPe n { d with unlisted := satAdd 64 d.unlisted newFails, capLost := satAdd 64 d.capLost newLost }
      let s := s.setSite i { x with
        complete := x.complete.set n done, anyFail := x.anyFail || (u8 p 1).testBit 0,
        unlisted := x.unlisted.set n (u32 p 8), capLost := x.capLost.set n (u32 p 12) }
      (s.capHeaders i).siteSettle i) s

/-- MATCH_FRAME (R294): once every device of the site has reported a MATCH vector, a request is recognised H
vectors after it. -/
def execMatchFrame (t lane : Nat) (frame : List Byte) (s : State) : Host.Outcome State Fault Refusal :=
  happens t (fun s => s.onFrame lane 0x14 2 frame fun n p s =>
    let i := u8 p 2
    let x := s.site i
    match (if x.mode = .running then x.cycleOf (field p 4 6) else none) with
    | none => s
    | some c =>
      let old := x.matchIn.get c ([], false)
      let new := (n :: old.1, old.2 || (u8 p 3).testBit 0)
      if (devicesOf x.pins).all new.1.contains then
        s.setSite i { x with
          matchIn := x.matchIn.del c,
          matches_ := x.matches_ ++ [(c + x.play.horizon, if new.2 then 67 else 66)] }
      else s.setSite i { x with matchIn := x.matchIn.set c new }) s

/-- RECEIPT_FRAME (R297, R323): confirmed bytes of bulk channels; on a GAP what was sent beyond them is sent again. A
channel that streams is refilled up to the ring's capacity; `vecs` gives the vector each site is launching. -/
def execReceiptFrame (t lane : Nat) (frame : List Byte) (vecs : List (Nat × Nat)) (s : State) : Host.Outcome State Fault Refusal :=
  happens t (fun s => s.onFrame lane 0x15 0 frame fun n p s =>
    ((records 6 8 p).foldl (fun s r =>
      let c := u8 r 0
      let d := s.peDev n
      if !d.bulk.has c then s
      else
        let old := d.bulk.get c {}
        let b : Bulk := { old with confirmed := field r 2 6, data := old.data.drop (field r 2 6 - old.confirmed) }
        let s := s.setPe n { d with bulk := d.bulk.set c b }
        if (u8 r 1).testBit 0 then s.bulkRewind n c
        else if !b.write then s.refillChannel n c (indexIn vecs b.site)
        else if b.write ∧ b.sent ≤ b.confirmed then s.setPe n { d with bulk := d.bulk.del c }
        else s) s).finishWrites) s

/-- EVENT_FRAME (R294): an external request arrives while the site launches vector `index`. -/
def execEventFrame (t lane : Nat) (frame : List Byte) (index : Nat) (s : State) : Host.Outcome State Fault Refusal :=
  happens t (fun s => s.onFrame lane 0x16 2 frame fun n p s =>
    if (s.site (u8 p 2)).pins.any fun q => q / 64 == n then s.siteAsk (u8 p 2) 68 (targetOf (u16 p 4)) index else s) s

/-- COUNTERS_FRAME (R334). -/
def execCountersFrame (t lane : Nat) (frame : List Byte) (s : State) : Host.Outcome State Fault Refusal :=
  happens t (fun s => s.onFrame lane 0x17 1 frame fun n p s =>
    let on := (pinsOn (s.site (u8 p 0)).pins n).map Prod.snd
    let d := s.peDev n
    let first := u8 p 1
    let counts := (List.zip (span first 12) ((records 12 4 (p.drop 4)).map leNat)).foldl
      (fun m e => if on.contains e.1 then KMap.set m e.1 e.2 else m) d.counts
    let s := s.setPe n { d with counts }
    if 52 ≤ first then s.countersIn n false else s) s

/-- FAULT_FRAME (R331). -/
def execFaultFrame (t lane : Nat) (frame : List Byte) (s : State) : Host.Outcome State Fault Refusal :=
  happens t (fun s => s.onFrame lane 0x1F 1 frame fun n p s => s.peLoseBoth n 2 (u16 p 0)) s

/-! ## Commands -/

/-- TRELLIS.DISCOVER (R337, R338). DESIGN CHOICE, log entry 56. -/
def trellisDiscover (c : Cmd) (s : State) : VerbOut :=
  let p := c.payload
  let retrain := u8 p 8 == 1
  let laneUp (n : Nat) : Bool := (s.peDev n).mode == .up
  let names := (discoverNames c).filter fun n => retrain || !laneUp n
  let serves (n : Nat) : Bool := !(s.sitesOn n).isEmpty
  if u8 p 8 > 1 ∨ !zeros p 9 7 then .fail .badParam 0
  else if names.any fun n => laneUp n && (serves n || (s.carrying n && serves (buddyOf n))) then .fail .badState 0
  else
    match s.declare (names.map peDecl) with
    | .error e => .fail .noEnergy e
    | .ok s1 =>
      if names.isEmpty then .done .ok s.peMask s1
      else .running 0 [] (names.foldl (fun s n => s.peTrain n) s1)

/-- TRELLIS_DISCOVER: `TRELLIS.DISCOVER` (R338). -/
def execTrellisDiscover (t fn tag : Nat) (s : State) : Host.Outcome State Fault Refusal :=
  verb t 0x0B01 fn tag trellisDiscover s

/-- TRELLIS.GET_STATUS (R334, R339): with COUNTERS the device is asked for the counts of each site on it. -/
def trellisGetStatus (c : Cmd) (s : State) : VerbOut :=
  let p := c.payload
  let n := u8 p 0
  let counters := u8 p 1 == 1
  let sites := (s.pat.sites.filter fun e => e.2.pins.any fun q => q / 64 == n).map Prod.fst
  if n > 63 ∨ u8 p 1 > 1 ∨ !zeros p 2 2 then .fail .badParam 0
  else if !counters then .data (s.peStatus n false) 0 s.drawFree
  else if c.room < 384 then .fail .badLength 384
  else if sites.isEmpty ∨ !(s.peDev n).linked then .data (s.peStatus n true) 0 s.drawFree
  else .running sites.length [] (sites.foldl (fun s i => s.peSendR n 0x0B [BitVec.ofNat 8 i]) s)

/-- TRELLIS_GET_STATUS: `TRELLIS.GET_STATUS` (R339). -/
def execTrellisGetStatus (t fn tag : Nat) (s : State) : Host.Outcome State Fault Refusal :=
  verb t 0x0B02 fn tag trellisGetStatus s

/-- TRELLIS.CONFIGURE_CAPTURE (R335, R340). -/
def trellisConfigureCapture (c : Cmd) (s : State) : VerbOut :=
  let p := c.payload
  let n := u8 p 0
  let k : CaptureCfg := {
    flags := u8 p 1, capacity := u32 p 4, failAt := u64 p 8, capAt := u64 p 16, capBytes := u64 p 24,
    failRate := u32 p 32, capRate := u32 p 36 }
  let x := s.site n
  if k.flags > 7 ∨ !zeros p 2 2 ∨ !zeros p 40 8 ∨ k.capacity > 16777216 ∨ k.failRate > 1000000 ∨ k.capRate > 1000000 ∨
      k.failAt % 64 ≠ 0 ∨ k.capAt % 64 ≠ 0 ∨ (k.flags.testBit 0 ∧ !s.inRegion k.failAt (64 + 32 * k.capacity)) ∨
      (k.flags.testBit 1 ∧ (k.capBytes < 64 ∨ !s.inRegion k.capAt k.capBytes)) then .fail .badParam 0
  else if x.mode.live ∨ x.mode = .quiescing then .fail .badState 0
  else
    let d := s.captureDemand n k
    match (if d.isEmpty then some s else s.allot (actKey kindSite n) d) with
    | none => .fail .noAllotment 0
    | some s1 => .done .ok 0 (s1.setSite n { x with nextCap := k })

/-- TRELLIS_CONFIGURE_CAPTURE: `TRELLIS.CONFIGURE_CAPTURE` (R340). -/
def execTrellisConfigureCapture (t fn tag : Nat) (s : State) : Host.Outcome State Fault Refusal :=
  verb t 0x0B03 fn tag trellisConfigureCapture s

/-- TRELLIS.DESKEW (R333, R341). DESIGN CHOICE, log entry 58. -/
def trellisDeskew (c : Cmd) (s : State) : VerbOut :=
  let p := c.payload
  let a := u8 p 0
  let n := u8 p 1
  let devs := if n = 0xFF then (List.range 64).filter fun d => (s.peDev d).linked else [n]
  let tiu := devs.find? s.tiuConfigured
  if a > 2 ∨ (n > 63 ∧ (n ≠ 0xFF ∨ a ≠ 0)) ∨ (a = 1 ∧ (u8 p 2 > 63 ∨ u8 p 3 > 2)) ∨ !zeros p 4 12 then
    .fail .badParam 0
  else if a = 0 ∧ c.resultAddr ≠ 0 ∧ c.resultLimit < 256 then .fail .badLength 256
  else if a = 0 && s.cal.deskewRunning then .wait
  else if devs.any fun d => !(s.peDev d).linked then .fail .badState 0
  else if a = 0 then
    if !(s.gen 0).enabled ∨ devs.any (fun d => !(s.sitesOn d).isEmpty) then .fail .badState 0
    else
      match tiu with
      | some d => .fail .badState (consumerWord (0x0E, d))
      | none =>
        let units := devs.flatMap fun d => span (64 * d) (s.peDev d).channels
        if units.isEmpty then .dataIfAsked (s.deskewBytes (devs.headD 0)) 0 s
        else .running units.length ((runsOf units 1).map DeskewRun.device) (s.measureAll (runsOf units 1))
  else .running 0 [] (s.sendRoute n (routeOf p))

/-- TRELLIS_DESKEW: `TRELLIS.DESKEW` (R341). -/
def execTrellisDeskew (t fn tag : Nat) (_means : Computed) (s : State) : Host.Outcome State Fault Refusal :=
  verb t 0x0B04 fn tag trellisDeskew s

end Sys2Proof.Machine
end

