-- ==== Sys2Proof/Machine/Sys.lean ====
section
/-! DEFINITION. The SYS family: readiness, information pages, the barrier, and the reset of a function with the return
of its objects to their power-up configuration (R68, R69, R71, R72). -/

namespace Sys2Proof.Machine

/-- SYS.QUERY_READY (R68). DEDUCED, log entry 12. -/
def sysQueryReady (c : Cmd) (s : State) : VerbOut :=
  let m := u64 c.payload 0
  if 2 ^ 31 ≤ m then .fail .badParam s.ready.toNat
  else if s.ready.toNat &&& m = m then .done .ok s.ready.toNat s
  else .wait

/-- SYS_QUERY_READY: `SYS.QUERY_READY` (R68). -/
def execSysQueryReady (t fn tag : Nat) (s : State) : Host.Outcome State Fault Refusal :=
  verb t 0x0102 fn tag sysQueryReady s

/-- ASCII, padded with NUL to 16 bytes. -/
def ascii16 (x : List Nat) : List Byte := (x ++ List.replicate 16 0).take 16 |>.map (BitVec.ofNat 8)

/-- `IDENT.PART_NUMBER` (R30): "DPX-7840-LC" or "DPX-7840-LX". -/
def partNumber : List Byte :=
  ascii16 [0x44, 0x50, 0x58, 0x2D, 0x37, 0x38, 0x34, 0x30, 0x2D, 0x4C, if Config.partIsLX then 0x58 else 0x43]

/-- `IDENT.SERIAL` (R30). -/
def serialNumber : List Byte := (List.range 16).map Config.serial

/-- Flash slot `k`: the image last written to it, or the one it came with (R557). -/
def State.fwSlot (s : State) (k : Nat) : FwSlot :=
  s.sec.slots.get k
    { version := (Config.factoryVersion k).toNat, svn := (Config.factorySvn k).toNat,
      digest := (List.range 64).map (Config.factoryDigest k) }

/-- VERSION of the running image, in `IDENT.FW_VERSION` (R30, R557). -/
def State.fwVersion (s : State) : Nat := (s.fwSlot s.sec.runningSlot).version

/-- Page 0 of `SYS.GET_INFO` (R69). -/
def State.infoPage0 (s : State) : List Byte :=
  partNumber ++ serialNumber ++
    pack [(4, s.fwVersion), (12, 0), (4, 0x7840), (4, Config.interfaceVersion.toNat), (4, s.linkStatus), (4, 0)]

/-- Page 1 of `SYS.GET_INFO` (R69). -/
def infoPage1 : List Byte :=
  pack ([49152, 4096, 64, 256, 4096, 32, 8, 64, 64, 64, 5, 72, 1024, 16 + 65536 * 16, 102, 0].map fun n => (4, n))

/-- SYS.GET_INFO (R69). -/
def sysGetInfo (c : Cmd) (s : State) : VerbOut :=
  let p := c.payload
  if 1 < u16 p 0 ∨ !zeros p 2 2 then .fail .badParam 0
  else .data (if u16 p 0 = 0 then s.infoPage0 else infoPage1) 64 s

/-- SYS_GET_INFO: `SYS.GET_INFO` (R69). -/
def execSysGetInfo (t fn tag : Nat) (s : State) : Host.Outcome State Fault Refusal :=
  verb t 0x0103 fn tag sysGetInfo s

/-- SYS.NOP (R72). -/
def sysNop (_ : Cmd) (s : State) : VerbOut := .done .ok s.now s

/-- SYS_NOP: `SYS.NOP` (R72). -/
def execSysNop (t fn tag : Nat) (s : State) : Host.Outcome State Fault Refusal :=
  verb t 0x0106 fn tag sysNop s

/-! ## SYS.RESET_FUNCTION (R71) -/

/-- Objects of a family that can be reset; none for a family that cannot. -/
def resetCount (fam : Nat) : Nat :=
  match fam with
  | 0x03 => 4 | 0x04 => 32 | 0x05 => 32 | 0x06 => 64 | 0x07 => 64 | 0x08 => 4096 | 0x09 => 64 | 0x0A => 256
  | 0x0B => 64 | 0x0C => 2 | 0x0E => 64 | 0x0F => 16 | 0x11 => 49152 | 0x12 => 5 | 0x13 => 1 | _ => 0

/-- The objects that a reset names. SPEC's planes go with every trace unit, and MON's sequence with every
comparator, as objects 64 to 67 and 16. -/
def resetNames (fam obj : Nat) : List Nat :=
  if obj ≠ 0xFFFFFFFF then [obj]
  else List.range (resetCount fam + if fam = 0x06 then 4 else if fam = 0x0F then 1 else 0)

/-- `READY_MAP` bit of an object (R535). DEDUCED, log entry 25. -/
def objectBit (fam obj : Nat) : Nat :=
  match fam with
  | 0x03 => 7 + obj | 0x04 => 11 | 0x05 => 12 | 0x06 => 13 | 0x07 => 14 | 0x08 => 15 | 0x09 => 16 | 0x0A => 17
  | 0x0B => 18 | 0x0C => 19 + obj | 0x0E => 22 | 0x0F => 23 | 0x11 => 24 | 0x12 => 25 | _ => 26

/-- `READY_MAP` bits that a reset clears, as a mask. DEDUCED, log entry 25. -/
def resetMask (fam obj : Nat) : Nat :=
  if obj ≠ 0xFFFFFFFF then 2 ^ objectBit fam obj
  else if fam = 0x03 then 15 * 2 ^ 7
  else if fam = 0x0C then 3 * 2 ^ 19
  else 2 ^ objectBit fam 0

/-- The first consumer of an object outside the objects reset, in the cases in which the family's own disable verb
refuses (R71); `but` is the family where all of it is reset. -/
def State.resetConsumer (s : State) (fam n but : Nat) : Option (Nat × Nat) :=
  match fam with
  | 0x03 => if (s.input n).mode = .running then s.inputConsumer n but else none
  | 0x04 => if (s.ddc n).running then s.ddcConsumer n but true else none
  | 0x05 => if s.press.jobs.has n && (s.job n).mode != .configured then s.pressConsumer n but else none
  | 0x06 =>
    if n < 64 then (if (s.trace n).enabled then s.specConsumer 0 n but else none)
    else if (s.plane (n - 64)).enabled then s.specConsumer 1 (n - 64) but else none
  | 0x07 => s.unitConsumer n but
  | 0x09 => if (s.core n).mode = .running then s.coreConsumer n but else none
  | 0x0E => s.tiuConsumer (if but = 0 then [n] else List.range 64)
  | 0x0F => if n < 16 then s.compConsumer n else none
  | 0x11 => (s.producersOf n).head?
  | 0x12 => (s.boundTo n).head?.map fun f => (0x11, f)
  | _ => none

/-- An object runs R73; the sites, contexts and other objects that do not rest at once are left quiescing (R71,
R73, R337). DEDUCED, log entry 25. -/
def State.resetQuiesce (s : State) (fam n : Nat) : State :=
  match fam with
  | 0x03 => if (s.input n).mode = .running then s.inputQuiesce n else s
  | 0x04 => if (s.ddc n).enabled then s.ddcQuiesce n else s
  | 0x05 => if s.press.jobs.has n then s.jobStop n true else s
  | 0x06 => if n < 64 then s.traceQuiesce n else s.planeQuiesce (n - 64)
  | 0x07 => s.trigQuiesce n (if s.trig.pulse.isSome ∧ s.trig.drivers = [n] then .quiescing else .unconfigured)
  | 0x08 => if s.ctxs.has n then (s.acqQuiesce n false).1 else s
  | 0x09 => if (s.core n).runs then (s.setCore n (s.core n).revert).kernelEnd n 3 0 else s
  | 0x0A => s.parkSoon n .stopped
  | 0x0B => s.peReset n
  | 0x0C => s.stimQuiesce n true
  | 0x0E => s.tiuQuiesce n
  | 0x0F =>
    if n < 16 then s.undeclare 0x0F n
    else if !s.mon.running then s
    else if s.mon.phase = .converting ∨ s.mon.phase = .recovering then s.setMon { s.mon with quiescing := true }
    else s.monRest
  | 0x11 =>
    match s.rack.flows.find n with
    | some x => if x.mode = .created ∨ x.mode = .disabled ∨ x.mode = .quiescing then s else s.flowQuiesce n 4
    | none => s
  | 0x12 => (s.setPort n { s.port n with mode := .off, role := 0 }).undeclare 0x12 n
  | 0x13 =>
    match s.disp.mode with
    | .training => s.dispRest
    | .running => s.setDisp { s.disp with mode := .quiescing }
    | _ => s
  | _ => s

/-- An object is not quiescent yet. -/
def State.resetBusy (s : State) (fam n : Nat) : Bool :=
  match fam with
  | 0x05 => (s.job n).mode == .quiescing
  | 0x07 => (s.tunit n).mode == .quiescing
  | 0x08 => (s.ctx n).mode == .quiescing
  | 0x0A => (s.site n).mode.live || (s.site n).mode == .quiescing
  | 0x0B => (s.peDev n).trainSince.isNone && !s.peRest n
  | 0x0C => (s.stimOut n).mode.live || (s.stimOut n).mode == .quiescing
  | 0x0E => (s.tiuChan n).mode == .quiescing
  | 0x0F => n == 16 && s.mon.running
  | 0x11 => (s.flow n).mode == .quiescing
  | 0x13 => s.disp.mode == .quiescing
  | _ => false

/-- Objects of a reset that exist: of flows and contexts, those that have been created. -/
def State.resetList (s : State) (fam obj : Nat) : List Nat :=
  if obj ≠ 0xFFFFFFFF then [obj]
  else if fam = 0x08 then s.ctxs.map Prod.fst
  else if fam = 0x11 then s.rack.flows.map Prod.fst
  else resetNames fam obj

/-- The bits of a mask stay clear no longer, whatever cleared them: a reset serves a family whose bit never came up or was
cleared (R71). -/
def State.forgive (s : State) (mask : Nat) : State :=
  { s with pw := { s.pw with failed := s.pw.failed &&& (2 ^ 64 - 1 - mask), cleared := s.pw.cleared &&& (2 ^ 64 - 1 - mask) } }

/-- SYS.RESET_FUNCTION (R71): the disable sequence runs on every object named; the command waits for the last one to
rest, and then for the `READY_MAP` bit. -/
def sysResetFunction (c : Cmd) (s : State) : VerbOut :=
  let p := c.payload
  let fam := u8 p 0
  let obj := u32 p 4
  if !zeros p 1 3 ∨ resetCount fam = 0 ∨ (obj ≠ 0xFFFFFFFF ∧ resetCount fam ≤ obj) then .fail .badParam 0
  else
    let names := s.resetList fam obj
    match names.findSome? fun n => s.resetConsumer fam n (if obj = 0xFFFFFFFF then fam else 0) with
    | some k => .fail .badState (consumerWord k)
    | none =>
      let s0 := ((s.clearReady (resetMask fam obj)).forgive (resetMask fam obj)).markStarted c (2 ^ 32 * s.now) (names.map (resetKey fam))
      let s1 := names.foldl (fun s n => s.resetQuiesce fam n) s0
      let s2 := names.foldl (fun s n => if s.resetBusy fam n then s else s.restDone (resetKey fam n) 0) s1
      match s2.host.cmds.find? fun d => d.seq == c.seq with
      | some d => .running (if names.isEmpty then 0 else d.aux) d.named s2
      | none => .running 0 [] s2

/-- SYS_RESET_FUNCTION: `SYS.RESET_FUNCTION` (R71). -/
def execSysResetFunction (t fn tag : Nat) (s : State) : Host.Outcome State Fault Refusal :=
  verb t 0x0105 fn tag sysResetFunction s

/-! ## Return to power-up configuration (R71) -/

/-- Reloads the shadows from `lo` to before `hi` from the live values of group `g` (R22, R87). -/
def State.reloadShadows (s : State) (g lo hi : Nat) : State :=
  ((s.liveGroup g).filter fun e => decide (lo ≤ e.1 ∧ e.1 < hi)).foldl (fun s e => s.setShadow e.1 e.2) s

/-- An input at its power-up configuration, with its slices and trims kept (R71, R125). -/
def RfInput.fresh (x : RfInput) : RfInput :=
  { mode := .disabled, slices := x.slices, calStep := x.calStep, rotations := x.rotations, lastRotation := x.lastRotation,
    paused := x.paused, frozen := x.frozen, lostAt := x.lostAt, waiting := x.waiting }

/-- The masks of trigger unit `n` are gone. -/
def State.dropTrigMasks (s : State) (n : Nat) : State :=
  { s with trig := { s.trig with masks := (s.trig.masks.del (2 * n)).del (2 * n + 1) } }

/-- An object returns to its power-up configuration: allotments are released, calibration results and retired units
stay as they are (R71). DEDUCED, log entry 25. -/
def State.freshObject (s : State) (fam n : Nat) : State :=
  match fam with
  | 0x03 => s.setInput n (s.input n).fresh
  | 0x04 =>
    let x := s.ddc n
    (s.setDdc n { unit := x.unit, dead := x.dead, lent := x.lent }).reloadShadows (8 + n / 8) (0x2000 + n * 0x20)
      (0x2020 + n * 0x20)
  | 0x05 => { s with press := { s.press with jobs := s.press.jobs.del n } }.pipeFreed
  | 0x06 =>
    if n < 64 then s.setTrace n {} else (s.setPlane (n - 64) {}).setShadowBit 0x4200 (n - 64) false
  | 0x07 =>
    ((s.setTunit n {}).dropTrigMasks n).reloadShadows (n / 8) (trigOffset n) (trigOffset n + 0x40)
  | 0x08 => ({ s with ctxs := s.ctxs.del n }.release (actKey kindContext n)).setShadowBit (0x5000 + n / 32 * 4) (n % 32) false
  | 0x09 =>
    let x := s.core n
    ((s.setCore n { phys := x.phys, dead := x.dead, lent := x.lent }).coreFreed n).release (actKey kindKernel n)
  | 0x0A =>
    ({ s with pat := { s.pat with sites := s.pat.sites.del n } }.release (actKey kindSite n)).reloadShadows
      (12 + n / 32) (0x3000 + n * 0x10) (0x3010 + n * 0x10)
  | 0x0C =>
    ({ s with stim := s.stim.del n }.release (actKey kindStim n)).reloadShadows (20 + n) (0x4000 + n * 0x10)
      (0x4010 + n * 0x10)
  | 0x0E => { s with tiu := s.tiu.del n }
  | 0x0F =>
    if n < 16 then { s with mon := { s.mon with comps := s.mon.comps.del n } }
    else { s with mon := { comps := s.mon.comps, housekeeping := s.mon.housekeeping } }
  | 0x11 =>
    { s.release (actKey kindFlow n) with rack := { s.rack with flows := s.rack.flows.del n }, offered := s.offered.del n }
  | 0x12 => { s with ports := s.ports.del n }
  | 0x13 =>
    ({ s with disp := { hpd := s.disp.hpd, spared := s.disp.spared } }.release (actKey kindDisplay 0)).reloadShadows 22
      0x4100 0x4180
  | _ => s
/-- What a family holds beside its numbered objects returns to its power-up configuration too, where every object
of it is reset. -/
def State.freshFamily (s : State) (fam : Nat) : State :=
  match fam with
  | 0x05 => { s with press := { s.press with banks := [], select := [] } }
  | 0x07 => { s with trig := { s.trig with outLow := false, pulseNs := 100 } }
  | 0x0A => { s with pat := {} }
  | _ => s

/-- Devices whose rediscovery has not ended are given up when the discovery ends (R337, R338). -/
def State.endDiscovery (s : State) : State :=
  ((List.range 64).foldl (fun s n => if (s.peDev n).trainSince.isSome then s.peGiveUp n else s) s).finishDiscover

/-- A reset's objects behind `READY_MAP` bit `b` return to their power-up configuration. -/
def State.freshFor (s : State) (b : Nat) (c : Cmd) : State :=
  let fam := u8 c.payload 0
  let obj := u32 c.payload 4
  let s := ((s.resetList fam obj).filter fun n => objectBit fam n == b).foldl (fun s n => s.freshObject fam n) s
  if obj = 0xFFFFFFFF then s.freshFamily fam else s

/-- The resets that wait for `READY_MAP` bit `b`. -/
def State.resetsOf (s : State) (b : Nat) : List Cmd :=
  s.startedCmds 0x0105 fun c => (resetMask (u8 c.payload 0) (u32 c.payload 4)).testBit b

/-- Ends the resets whose `READY_MAP` bits are all set (R71). -/
def State.finishResets (s : State) (b : Nat) : State :=
  s.finishAll ((s.resetsOf b).filter fun c =>
    let m := resetMask (u8 c.payload 0) (u32 c.payload 4)
    s.ready.toNat &&& m == m) .ok Cmd.aux

end Sys2Proof.Machine
end

