-- ==== Sys2Proof/Machine/ResetRows.lean ====
section
/-! DEFINITION. Function resets, the PCIe link, D-states and standby (R26, R27, R45, R59, R513 class 12, R536, R580). -/

namespace Sys2Proof.Machine

/-! ## Function resets (R27, R59, R87) -/

/-- A function after a reset: everything at reset but the memory of its previous session number (R27, R59).
DESIGN CHOICE, log entry 101. -/
def Func.afterReset (f : Func) : Func := { lastSession := if f.session = 0 then f.lastSession else f.session }

/-- A flow of function `fn` that runs and has host memory at either end. DESIGN CHOICE, log entry 117. -/
def Flow.hostBound (x : Flow) (fn : Nat) : Bool :=
  x.fn == fn && (x.src == 1 || x.dst == 1) &&
    (x.mode == .enabled || x.mode == .paused || x.mode == .halted)

/-- A function is reset (R27): its registers, rings, MSI-X table and locks are at reset, the completions of its
commands are discarded, and its flows to or from host memory are disabled. A reset of PF0 also resets the fast
control window. DESIGN CHOICE, log entries 17 and 22. -/
def State.resetFn (s : State) (fn : Nat) : State :=
  let cmds := s.host.cmds.map fun c => if c.fn = fn then { c with discard := true } else c
  let s1 := { s with host := { s.host with cmds } }.setFunc fn (s.func fn).afterReset
  let flows := (s1.rack.flows.filter fun e => e.2.hostBound fn).map Prod.fst
  let s2 := flows.foldl (fun s f => s.flowQuiesce f 4) s1
  if fn = 0 then s2.resetFcw else s2

/-- The link is down: nothing is negotiated (R30). DESIGN CHOICE, log entry 82. -/
def State.linkDown (s : State) : State :=
  { s with host := { s.host with link := .down, linkWidth := 0, linkSpeed := 0, untrainable := false } }

/-- The module leaves STANDBY for RUNNING; its functions follow with their bits (R536, R580). -/
def State.leaveStandby (s : State) : State :=
  if s.pw.state = .standby then { s with pw := { s.pw with state := .running, wakeDue := false } } else s

/-- PERST_N_ASSERT (R27, R580). -/
def execPerstNAssert (t : Nat) (s : State) : Host.Outcome State Fault Refusal :=
  happens t (fun s =>
    let s1 := ((s.resetFn 0).resetFn 1).linkDown
    ({ s1 with host := { s1.host with perst := true, wakeAsserted := false } } : State).leaveStandby) s

/-- PERST_N_RELEASE (R27). -/
def execPerstNRelease (t : Nat) (s : State) : Host.Outcome State Fault Refusal :=
  happens t (fun s => { s with host := { s.host with perst := false } }) s

/-- HOT_RESET (R27, R580). DESIGN CHOICE, log entry 82. -/
def execHotReset (t : Nat) (s : State) : Host.Outcome State Fault Refusal :=
  happens t (fun s => (((s.resetFn 0).resetFn 1).linkDown).leaveStandby) s

/-- FUNCTION_LEVEL_RESET (R27): the other function goes on. -/
def execFunctionLevelReset (t fn : Nat) (s : State) : Host.Outcome State Fault Refusal :=
  happens t (fun s => if fn < 2 then s.resetFn fn else s) s

/-! ## The link (R26, R45) -/

/-- A lane of ×8 half `h` has failed. -/
def State.halfDead (s : State) (h : Nat) : Bool :=
  s.ft.retired.any fun u => u.cls == 12 && u.unit / 8 == h

/-- The widths that the link can train at (R24, R26): ×16 with every lane intact, ×8 with one intact half, and less
without one. -/
def State.linkWidths (s : State) : List Nat :=
  if s.halfDead 0 && s.halfDead 1 then [4, 1]
  else if s.halfDead 0 || s.halfDead 1 then [8, 4, 1]
  else [16, 8, 4, 1]

/-- LINK_L0_REACHED (R26, R45): WAKE_N is released, and held entries are written. `width` is what trained; a link that
cannot train stays down until the next reset. -/
def execLinkL0Reached (t width speed : Nat) (s : State) : Host.Outcome State Fault Refusal :=
  happens t (fun s =>
    if s.host.perst || s.host.untrainable || !s.linkWidths.contains width || speed < 1 || speed > 5 then s
    else
      let s1 : State := { s with host := { s.host with
        link := .l0, wakeAsserted := false, linkWidth := width, linkSpeed := speed,
        narrowed := s.halfDead 0 || s.halfDead 1 } }
      (s1.flushAll 0).flushAll 1) s

/-- The widest width of R24 that `width` allows below ×8. DESIGN CHOICE, log entry 82. -/
def narrowWidth (width : Nat) : Nat := if 4 ≤ width then 4 else if 1 ≤ width then 1 else 0

/-- A lane fails (R26, R513 class 12). A lane of the half that is out of use changes nothing. With the other half
intact the link goes on at ×8; with neither it retrains at the width that its intact lanes allow, no wider than
before, or stays down. DESIGN CHOICE, log entry 82. -/
def State.pcieLaneFail (s : State) (width lane : Nat) (inj : Bool) : State :=
  let u : Unit3 := ⟨12, 0, lane⟩
  let dead := s.halfDead (lane / 8)
  let other := s.halfDead (1 - lane / 8)
  if lane > 15 || s.isRetired u || (dead && !other) then s
  else if other then
    let up := s.host.linkWidth
    let w := min (narrowWidth width) (if dead && up != 0 then up else 4)
    let s1 : State := { s with host := { s.host with linkWidth := if up = 0 then 0 else w, narrowed := true } }
    let s2 : State := if w = 0 then
        { s1 with host := { s1.host with link := .down, linkSpeed := 0, untrainable := true } }
      else s1
    s2.faultUnmasked u { injected := inj }
  else
    let s1 : State := { s with host := { s.host with linkWidth := min s.host.linkWidth 8, narrowed := true } }
    s1.faultMasked u { injected := inj }

/-- PCIE_LANE_FAILURE (R26): the lanes that fail together; `width` is the widest that trains where no half is
intact. -/
def execPcieLaneFailure (t : Nat) (lanes : List Nat) (width : Nat) (s : State) : Host.Outcome State Fault Refusal :=
  happens t (fun s => lanes.foldl (fun s l => s.pcieLaneFail width l false) s) s

/-! ## D-states and standby (R45, R536, R580) -/

/-- `READY_MAP` bits of the functions outside the always-on region: CELLAR to DISP (R12, R535).
DESIGN CHOICE, log entry 83. -/
def switchedBits : Nat := 2 ^ 27 - 2 ^ 6

/-- The domain with ledger index `d` is on (R498). -/
def State.domain (s : State) (d : Nat) : Bool :=
  if d < 16 then (s.input (d / 4)).domainOn (d % 4)
  else if d < 20 then s.pdStim (d - 16)
  else if d < 28 then s.pdDdc (d - 20)
  else if d < 37 then s.pdPress (d - 28)
  else if d < 41 then s.pdSpec (d - 37)
  else if d < 44 then s.pdTrig (d - 41)
  else if d < 46 then s.pdAcq (d - 44)
  else if d < 63 then s.pdSorrel (d - 46)
  else if d < 71 then s.pdPat (d - 63)
  else if d < 79 then s.pdTrellis (d - 71)
  else if d < 83 then s.pdTiu (d - 79)
  else if d < 87 then s.pdCellar (d - 83)
  else if d < 89 then s.pdRacking (d - 87)
  else if d < 94 then s.pdPort (d - 89)
  else if d < 96 then s.pdDisp (d - 94)
  else if d = 96 then s.pdMon
  else if d < 101 then s.pdClk (d - 97)
  else d == 101 && s.pdVine

/-- Wake time of the domain with ledger index `d`, in µs (R498). -/
def wakeUs (d : Nat) : Nat :=
  if d < 16 then 1000
  else if d < 20 then (if d % 2 = 0 then 500 else 20)
  else if d < 41 then 20
  else if d < 46 then 10
  else if d < 63 then 50
  else if d < 71 then 20
  else if d < 79 then 100
  else if d < 83 then 200
  else if d < 87 then 20
  else if d < 89 then 10
  else if d < 94 then 200
  else if d < 96 then 100
  else if d = 96 then 50
  else if d < 101 then 200
  else 100

/-- Only domains that standby allows are on: no object but a comparator declares power (R105, R499, R580).
DESIGN CHOICE, log entry 83. -/
def State.standbyDomains (s : State) : Bool :=
  (s.bud.decls.all fun d => d.fam == 0x0F && d.obj != 16) && !((List.range 3).any fun n => s.pdClk n)

/-- The module enters STANDBY (R580): the stacks go into self-refresh, and the bits of functions outside the
always-on region clear. DESIGN CHOICE, log entry 83. -/
def State.enterStandby (s : State) : State :=
  let gone := s.ready.toNat &&& switchedBits
  let stackMap := (List.range 4).foldl (fun m k => KMap.set m k { s.stack k with phase := .selfRefresh }) s.cell.stackMap
  ({ s with pw := { s.pw with state := .standby, cleared := gone, wakeDue := false }
            cell := { s.cell with stackMap } } : State).clearReady gone

/-- FUNCTION_D3HOT (R45, R580); `linkL2` says that the link goes into L2 with it. DEDUCED, log entry 13. -/
def execFunctionD3hot (t fn : Nat) (linkL2 : Bool) (s : State) : Host.Outcome State Fault Refusal :=
  happens t (fun s =>
    if fn > 1 then s
    else
      let s1 := s.setFunc fn { s.func fn with d3hot := true }
      let s2 : State := if linkL2 then { s1 with host := { s1.host with link := .l2 } } else s1
      if s2.pw.state == .running && (s2.func 0).d3hot && (s2.func 1).d3hot && s2.standbyDomains && s2.cell.change.isNone
      then s2.enterStandby else s2) s

/-- FUNCTION_D0 (R580). -/
def execFunctionD0 (t fn : Nat) (s : State) : Host.Outcome State Fault Refusal :=
  happens t (fun s => if fn > 1 then s else (s.setFunc fn { s.func fn with d3hot := false }).leaveStandby) s

/-- A function outside the always-on region has woken: its bit is set again, with EV_READY (R535, R536). -/
def State.wakeBit (s : State) (b : Nat) : State :=
  let s1 : State := if b = 6 then
      let stackMap := s.cell.stackMap.mapVals fun _ x => if x.phase = .selfRefresh then { x with phase := .serving } else x
      { s with cell := { s.cell with stackMap } }
    else s
  (({ s1 with pw := { s1.pw with cleared := s1.pw.cleared ^^^ 2 ^ b } }.setReady b).event 0x0101 0 b).finishResets b

/-- STANDBY_WAKE (R399, R536, R580): the bits of a mask that standby had cleared are set again; a comparator's wake
request ends standby first. -/
def execStandbyWake (t bits : Nat) (s : State) : Host.Outcome State Fault Refusal :=
  happens t (fun s =>
    let s1 := if s.pw.wakeDue then s.leaveStandby else s
    if s1.pw.state = .running then
      ((maskBits 27 (bits &&& s1.pw.cleared))).foldl (fun s b => s.wakeBit b) s1
    else s1) s

end Sys2Proof.Machine
end

