-- ==== Sys2Proof/Machine/PowerUp.lean ====
section
/-! DEFINITION. Feeds, held shutdown, bring-up, readiness, thermal limits, boundary scan and the alert contact (R95,
R159, R517, R522, R533 to R539, R557, R559, R573, R576 to R586). -/

namespace Sys2Proof.Machine

/-- A row that can happen in any power state; module time moves on only where its counter runs. -/
def anywhere (t : Nat) (f : State → State) (s : State) : Host.Outcome State Fault Refusal := .next (f (s.advance t))

/-! ## Supply (R517, R533, R576 to R578) -/

/-- The module without power, but for what is non-volatile: flash, keys, fuses and the choice of the spare
pipeline; the queue and the model's records go on (R159, R557 to R560, R577). DESIGN CHOICE, log entry 80. -/
def State.cold (s : State) (st : PowerState) : State :=
  { pending := s.pending, out := s.out, freeDrawn := s.freeDrawn
    pw := { state := st, feedA := s.pw.feedA, feedB := s.pw.feedB, shutdownLow := s.pw.shutdownLow }
    host := { perst := s.host.perst }
    press := { lastSpare := s.press.lastSpare }
    sec := { slots := s.sec.slots, active := s.sec.active, runningSlot := s.sec.runningSlot, staged := s.sec.staged,
             owner := s.sec.owner, counters := s.sec.counters, tap := s.sec.tap } }

/-- Level of a feed. -/
def Power.feed (p : Power) (feedB : Bool) : Bool := if feedB then p.feedB else p.feedA

/-- Sets the level of a feed. -/
def State.setFeed (s : State) (feedB on : Bool) : State :=
  { s with pw := if feedB then { s.pw with feedB := on } else { s.pw with feedA := on } }

/-- The rails rise towards power good where nothing holds them (R533). -/
def State.rise (s : State) : State :=
  if s.pw.shutdownLow then { s with pw := { s.pw with state := .heldShutdown } }
  else { s with pw := { s.pw with rising := true } }

/-- The module has not reached power good. -/
def State.isOff (s : State) : Bool := s.pw.state == .unpowered || s.pw.state == .heldShutdown

/-- FEED_PRESENT (R533): a feed appears at a module that is off. -/
def execFeedPresent (t : Nat) (feedB : Bool) (s : State) : Host.Outcome State Fault Refusal :=
  anywhere t (fun s => if s.isOff then (s.setFeed feedB true).rise else s) s

/-- The unit of class 17 of a feed (R592). -/
def feedUnit (feedB : Bool) : Unit3 := ⟨17, 0, bit feedB⟩

/-- FEED_LOST (R517, R576, R585): the other feed carries the load; with neither the module is unpowered. -/
def execFeedLost (t : Nat) (feedB : Bool) (s : State) : Host.Outcome State Fault Refusal :=
  anywhere t (fun s =>
    if !s.pw.feed feedB then s
    else
      let s1 := s.setFeed feedB false
      if !(s1.pw.feedA || s1.pw.feedB) then s1.cold .unpowered
      else if !s1.powered || !s1.pw.steward then s1
      else (s1.setAlert 16).faultIn (feedUnit feedB) {}) s

/-- FEED_RESTORED (R517): the pool is refilled and the grade recomputed. -/
def execFeedRestored (t : Nat) (feedB : Bool) (s : State) : Host.Outcome State Fault Refusal :=
  anywhere t (fun s =>
    if s.isOff || s.pw.feed feedB then s
    else
      let s1 := s.setFeed feedB true
      if s1.isRetired (feedUnit feedB) then (s1.setAlert 16).restoreUnit (feedUnit feedB) false else s1) s

/-- SHUTDOWN_N_LOW (R577): recognised low; no quiescence runs. -/
def execShutdownNLow (t : Nat) (s : State) : Host.Outcome State Fault Refusal :=
  anywhere t (fun s =>
    let s1 : State := { s with pw := { s.pw with shutdownLow := true } }
    if s1.pw.feedA || s1.pw.feedB then s1.cold .heldShutdown else s1) s

/-- SHUTDOWN_N_RISE (R533). -/
def execShutdownNRise (t : Nat) (s : State) : Host.Outcome State Fault Refusal :=
  anywhere t (fun s =>
    let s1 : State := { s with pw := { s.pw with shutdownLow := false } }
    if s1.isOff && (s1.pw.feedA || s1.pw.feedB) then s1.rise else s1) s

/-- Power good (R533): bring-up begins, both sample synthesisers search their band (R99, R101), and the spare role
among the pipelines moves on (R159). DESIGN CHOICE, log entry 81. -/
def State.powerGood (s : State) : State :=
  let s1 := s.cold .starting
  let v := (s1.press.lastSpare + 8) % 9
  { s1 with press := { spare := some v, lastSpare := v }, ck := { s1.ck with sampleA := .searching, sampleB := .searching } }

/-- POWER_GOOD (R533). -/
def execPowerGood (t : Nat) (s : State) : Host.Outcome State Fault Refusal :=
  anywhere t (fun s =>
    if s.isOff && s.pw.rising && !s.pw.shutdownLow && (s.pw.feedA || s.pw.feedB) then s.powerGood else s) s

/-! ## Secure boot (R547, R557) -/

/-- The boot ROM accepts a slot: its image verifies, and its SVN is at least counter 0 (R557). -/
def State.bootable (s : State) (verified : List Nat) (k : Nat) : Bool :=
  verified.contains k && decide (s.sec.counters.get 0 0 ≤ (s.fwSlot k).svn)

/-- PCIe clocking from the carrier's record (R547). -/
def clockingOf (carrier : List Byte) : Nat :=
  if idStatus none carrier = 1 ∨ idStatus none carrier = 2 then
    match (idFields carrier.length ((carrier.take (u32 carrier 8)).drop 48)).find? fun f => f.1 == 1 with
    | some f => if u8 f.2 0 < 3 then u8 f.2 0 else 0
    | none => 0
  else 0

/-- The Steward, or the boot ROM in recovery, runs; a feed that is absent from the start is a masked fault (R533).
DESIGN CHOICE, log entry 81. -/
def State.stewardUp (s : State) : State :=
  let s1 : State := { s with pw := { s.pw with steward := true } }
  let s2 := if s1.pw.feedA then s1 else s1.faultIn (feedUnit false) {}
  if s2.pw.feedB then s2 else s2.faultIn (feedUnit true) {}

/-- SECURE_BOOT (R557): `verified` lists the slots whose image has the right magic, vendor key hash and signature;
`carrier` is the memory of ID0 device 0. -/
def execSecureBoot (t : Nat) (verified : List Nat) (carrier : List Byte) (s : State) : Host.Outcome State Fault Refusal :=
  happens t (fun s =>
    if s.pw.state != .starting || s.pw.steward then s
    else
      let a := s.sec.active
      let s1 : State := { s with host := { s.host with clocking := clockingOf carrier } }
      let boot (k : Nat) (fallback : Bool) : State :=
        { s1 with sec := { s1.sec with
          runningSlot := k, fallback, recovery := false, staged := s1.sec.staged && k == s1.sec.runningSlot } }
      (if s.bootable verified a then boot a false
       else if s.bootable verified (1 - a) then boot (1 - a) true
       else { s1 with sec := { s1.sec with recovery := true } }).stewardUp) s

/-! ## Readiness (R535 to R538) -/

/-- One completed trim of each unit of a class at power-up (R537, R540). -/
def State.calAll (s : State) (cls : Nat) (units values : List Nat) : State :=
  (units.zip (List.range units.length)).foldl (fun s e => s.calTrim cls e.1 0 (values.getD e.2 0)) s

/-- Every lane begins its power-up discovery, once the first identity scan has ended and the presets of the boards are known
(R316, R337, R551). DEDUCED, log entry 133. -/
def State.discoverAll (s : State) : State :=
  (List.range 64).foldl (fun s n =>
    match s.declare [peDecl n] with
    | .ok s1 => s1.peTrain n
    | .error _ => s) s

/-- The sample clock locks for the first time: the tick counter starts at 0 (R95, R105).
DESIGN CHOICE, log entry 81. -/
def State.sampleFirst (s : State) : State :=
  if s.pw.tickRunning then s else { s with now := 0, pw := { s.pw with tickRunning := true } }

/-- READY_MAP bit 5 rises: a sample synthesiser that no row has locked is locked by then, and the counter runs (R95,
R105). DESIGN CHOICE, log entries 81 and 95. -/
def State.sampleClockUp (s : State) : State :=
  let up (s : State) (n : Nat) : State :=
    if s.ck.sample n = .searching ∧ ¬ s.pw.tickRunning then s.setSample n .locked else s
  ((List.range 2).foldl up s).sampleFirst

/-- Frequency of the vector clock while pin deskew measures, mHz (R538). DESIGN CHOICE, log entry 81. -/
def deskewClock : Nat := 1600000000000

/-- Discovery has ended: the devices found wait to be measured, and the vector clock locks at 1.6 GHz (R99, R337, R538).
DESIGN CHOICE, log entry 81. -/
def State.deskewStart (s : State) : State :=
  let found := (List.range 64).filter fun n => (s.peDev n).linked
  let runs := runsOf (found.flatMap fun n => span (64 * n) (s.peDev n).channels) 0
  if runs.isEmpty then s
  else
    let s1 := s.setSynth 0 { s.gen 0 with enabled := true, freq := deskewClock, settling := false } .searching
    { s1 with cal := { s1.cal with deskewRunning := true, runs } }

/-- Power-up calibration has ended, and with it bring-up (R538, R542, R544, R578). -/
def State.calDone (s : State) : State :=
  let count (f : Nat → Bool) : Nat := min (s.cal.recs.filter fun e => f e.2.status).length 65535
  let s2 : State := { s with
    cal := { s.cal with doneTick := s.now }
    pw := { s.pw with state := if s.pw.state = .starting then .running else s.pw.state } }
  s2.event 0x1601 0 (2 ^ 16 * count (· ≤ 1) + 2 ^ 32 * count (· == 2))

/-- What a function's power-up calibration leaves (R125, R337, R537, R538). -/
def State.calibrated (s : State) (b : Nat) (values : List Nat) : State :=
  match b with
  | 6 => s.calAll 9 (List.range 64) []
  | 7 | 8 | 9 | 10 => (s.calAll 1 (span (34 * (b - 7)) 34) []).calAll 2 (span (3 * (b - 7)) 3) values
  | 18 => s.deskewStart
  | 19 | 20 => s.calTrim 3 (b - 19) 0 0
  | 21 => s.calTrim 10 2 0 (values.getD 0 0)
  | 22 => (s.calAll 4 (List.range 68) []).calAll 5 (List.range 128) []
  | 23 => s.calAll 6 (List.range 16) []
  | _ => s

/-- What a function is once its self-test has passed, at power-up and after a reset alike. -/
def State.served (s : State) (b : Nat) : State :=
  match b with
  | 5 => s.sampleClockUp
  | 7 | 8 | 9 | 10 => s.setInput (b - 7) { s.input (b - 7) with mode := .disabled }
  | 18 => s.endDiscovery
  | _ => s

/-- A function is on the way to being ready: its bit is clear, no failure nor standby keeps it so, every object of a reset
rests, and in recovery only HOST, MAILBOX_S and SECURITY come up (R71, R535, R536, R557). -/
def State.comingUp (s : State) (b : Nat) : Bool :=
  s.stewardRuns && decide (b < 31) && b != 4 && !s.readyBit b && !s.pw.failed.testBit b && !s.pw.cleared.testBit b && s.pw.state != .thermalTrip &&
    (!s.sec.recovery || b == 0 || b == 2 || b == 28) && !s.sec.restarting && (s.resetsOf b).all fun c => c.named.isEmpty

/-- The first identity scan has ended, or has failed to. -/
def State.scanned (s : State) : Bool := s.readyBit 30 || s.pw.failed.testBit 30

/-- A function can become ready now: of TRIG a voter is left (R223), of TRELLIS the identity scan has ended and no lane
still trains (R316, R337), and power-up calibration ends after pin deskew (R538). DESIGN CHOICE, log entry 81. -/
def State.canReady (s : State) (b : Nat) : Bool :=
  s.comingUp b && !(b == 14 && s.trig.ended) &&
    !(b == 18 && (!s.scanned || s.pe.any fun e => e.2.trainSince.isSome)) && !(b == 29 && s.cal.deskewRunning)

/-- SYNTH_LOCK_DETECTED (R99, R100, R328): the output is unmuted and EV_LOCK raised; the vector clock stays muted until
every VC_ZERO is acknowledged. The first lock of a sample synthesiser
starts the tick counter and sets READY_MAP bit 5 (R95, R105). -/
def execSynthLockDetected (t source : Nat) (s : State) : Host.Outcome State Fault Refusal :=
  happens t (fun s =>
    if source = 1 ∨ source = 2 then
      let n := source - 1
      let relock := s.ck.sample n == .coasting
      if s.isRetired ⟨14, 0, n⟩ || !(relock || (s.ck.sample n == .searching && s.ck.sampleSettling.contains n)) then s
      else
        let first := !s.pw.tickRunning
        let s1 := (s.setSample n .locked).sampleFirst
        if first && s1.canReady 5 && (s1.resetsOf 5).isEmpty then s1.raiseReady 5 else s1
    else if source ≤ 5 ∧ 3 ≤ source then
      let x := s.gen (source - 3)
      match x.synth with
      | .searching =>
        if x.settling then
          if source = 3 then
            (s.vcZero.setSynth 0 { x with settling := false, zeroing := true } .locked).finishZero
          else (s.setSynth (source - 3) { x with settling := false } .locked).finishGen (source - 3)
        else s
      | .coasting => if x.stuck then s else s.setSynth (source - 3) x .locked
      | _ => s
    else s) s

/-- FUNCTION_READY (R535): a function has passed self-test, and at power-up its calibration too. `values` are the
gain errors of class 2 and the LINK_DELAY of class 10, and `mems` and `stuck` what
the first identity scan reads. DESIGN CHOICE, log entry 11. -/
def execFunctionReady (t readyBit : Nat) (values : List Nat) (_means : Computed)
    (mems : List (Nat × List Byte)) (stuck : List Nat) (s : State) : Host.Outcome State Fault Refusal :=
  happens t (fun s =>
    let b := readyBit
    if !s.canReady b then s
    else
      let resets := s.resetsOf b
      let s1 := resets.foldl (fun s c => s.freshFor b c) s
      let s2 := s1.served b
      let s3 := if resets.isEmpty then s2.calibrated b values else s2
      let s4 := if b = 30 then (s3.scanBuses (List.range 4) mems stuck).discoverAll else s3
      let s5 := (s4.setReady b).event 0x0101 0 b
      let s6 := if b = 29 then s5.calDone else s5
      s6.finishResets b) s

/-- A function can fail to come up now; WARM too has a maximum time (R535). -/
def State.canFail (s : State) (b : Nat) : Bool :=
  s.comingUp b || (b == 4 && s.stewardRuns && !s.readyBit 4 && !s.pw.failed.testBit 4 && !s.sec.recovery)

/-- READY_TIMEOUT (R71, R522, R535): the function failed to come up, and its bit stays clear until the next power-up;
the fault is logged in the class of the unit that failed, or in class 22. -/
def execReadyTimeout (t readyBit cls pool unit detail : Nat) (s : State) : Host.Outcome State Fault Refusal :=
  happens t (fun s =>
    let b := readyBit
    if !s.canFail b then s
    else
      let s : State := { s with pw := { s.pw with failed := s.pw.failed ||| 2 ^ b } }
      let u : Unit3 := ⟨cls, pool, unit⟩
      let i : FaultInfo := { detail, selfTest := true }
      let s1 := if pool < poolCount cls ∧ unit < poolUnits cls then
          (if s.isRetired u then s else s.faultUnmasked u i)
        else s.outOfScope i
      let s1 := if b = 30 then s1.discoverAll else s1
      s1.finishAll (s1.resetsOf b) .notReady Cmd.aux) s

/-! ## ALIVE and thermal limits (R573, R582, R583, R585) -/

/-- ALIVE_TOGGLE (R514, R557, R573). -/
def execAliveToggle (t : Nat) (s : State) : Host.Outcome State Fault Refusal :=
  happens t (fun s =>
    if s.stewardRuns && !s.sec.recovery then { s with pw := { s.pw with alive := !s.pw.alive } } else s) s

/-- THERMAL_WARNING (R582). -/
def execThermalWarning (t : Nat) (s : State) : Host.Outcome State Fault Refusal :=
  happens t (fun s => s.setAlert 1) s

/-- The next thermal step is due: 10 ms or more after the last (R582). -/
def Power.stepDue (p : Power) (now : Nat) : Bool :=
  match p.capAt with
  | some a => decide (a + 10 * ticksPerMs ≤ now)
  | none => true

/-- THERMAL_THROTTLE_STEP (R582): every 10 ms, while `hot`, the effective cap falls by 10 W, and afterwards it rises by
10 W up to the cap that host software has set. -/
def execThermalThrottleStep (t : Nat) (hot : Bool) (s : State) : Host.Outcome State Fault Refusal :=
  happens t (fun s =>
    if !s.pw.stepDue s.now then s
    else if hot then
      { s.setAlert 2 with pw := { (s.setAlert 2).pw with thermalCap := some (s.effectiveCap - 10), capAt := some s.now } }
    else
      match s.pw.thermalCap with
      | some w =>
        { s with pw := { s.pw with thermalCap := if s.bud.capW ≤ w + 10 then none else some (w + 10), capAt := some s.now } }
      | none => s) s

/-- Commands that thermal trip ends: those of the functions that are off, and those that wait for them.
DESIGN CHOICE, log entry 84. -/
def tripped (c : Cmd) : Bool :=
  let f := c.opcode / 256
  decide (3 ≤ f ∧ f ≤ 0x13) || f == 0x16 || (c.started && (f == 0x14 || c.opcode == 0x0105))

/-- Every domain is off at once (R583): blocks outside the always-on region lose their state and their energy, but for what
is held in retention (R351), and Cellar its contents. Module time, the host interface, the log and the security state go on.
DESIGN CHOICE, log entry 84. -/
def State.tripAll (s : State) : State :=
  let ck := { s.ck with gens := [], ppsOutHigh := false }
  let bud := { s.bud with allocs := [], credits := [], decls := [], urgent := [], aged := [] }
  let press : Press := { lastSpare := s.press.lastSpare, spare := s.press.spare }
  let comps := s.mon.comps
  let ddcs := s.ddcs.mapVals fun _ (x : Ddc) => { unit := x.unit, dead := x.dead, lent := x.lent }
  let cores := s.cores.mapVals fun _ (x : Core) => { phys := x.phys, dead := x.dead, lent := x.lent }
  { pending := s.pending, now := s.now, out := s.out, freeDrawn := s.freeDrawn, host := s.host, ddcs, cores, fcw := s.fcw, ck, press, bud
    pw := { s.pw with state := .thermalTrip, cleared := 0, wakeDue := false }
    ready := s.ready, trig := { voters := s.trig.voters, split := s.trig.split, ended := s.trig.ended }
    inputs := s.inputs.mapVals fun _ x => { x.fresh with mode := .powerUpCal }
    stim := s.stim.mapVals fun _ x => x.retained
    mon := { comps }, disp := { hpd := s.disp.hpd, spared := s.disp.spared }, sideDead := s.sideDead
    tiuGroups := s.tiuGroups, cell := { stackMap := s.cell.stackMap }, ft := s.ft, cal := { s.cal with deskewRunning := false, runs := [], passed := 0, missed := 0 }
    sec := s.sec }

/-- THERMAL_TRIP (R583); each clock output that is muted changes its lock state (R114). -/
def execThermalTrip (t channel : Nat) (s : State) : Host.Outcome State Fault Refusal :=
  happens t (fun s =>
    if s.pw.state = .thermalTrip then s
    else
      let muted := (List.range 3).filter fun g => (s.gen g).synth != .muted
      let s0 := muted.foldl (fun s g => s.evLock (3 + g) 0) s.tripAll
      let s1 := ((s0.clearReady switchedBits).setAlert 4).outOfScope { detail := channel }
      s1.finishAll (s1.host.cmds.filter tripped) .notReady fun _ => 0) s

/-! ## Boundary scan (R559) -/

/-- The instruction that a number names: every number but those of the five is BYPASS (R559).
DESIGN CHOICE, log entry 86. -/
def tapOf (n : Nat) : TapInstr :=
  match n with
  | 1 => .idcode | 2 => .samplePreload | 3 => .extest | 4 => .clamp | _ => .bypass

/-- TAP_INSTRUCTION_LOAD (R559): EXTEST or CLAMP puts the module in reset, where PPS_OUT is low (R98) and no stimulus output
drives a signal (R344, R545). -/
def execTapInstructionLoad (t instruction : Nat) (s : State) : Host.Outcome State Fault Refusal :=
  anywhere t (fun s =>
    if s.isOff then s
    else
      let i := tapOf instruction
      let s1 : State := { s with sec := { s.sec with tap := i } }
      if i = .extest ∨ i = .clamp then
        ({ s1 with stim := s1.stim.mapVals (fun _ x => x.silent), sec := { s1.sec with tapHeld := true }, ck := { s1.ck with ppsOutHigh := false }, pw := { s1.pw with tickRunning := false, alive := false } } :
          State).linkDown
      else s1) s

/-- The module restarts from power good; what always-on memory holds is kept, and with it each function's previous
session number (R59, R559, R565). DESIGN CHOICE, log entry 78. -/
def State.restartKept (s : State) : State :=
  let s1 := s.powerGood
  { s1 with ft := { log := s.ft.log, written := s.ft.written, cleared := s.ft.cleared }, cal := { recs := s.cal.recs }
            host := { s1.host with fns := s.host.fns.mapVals fun _ f => f.afterReset } }

/-- TAP_TEST_LOGIC_RESET (R559): a module that EXTEST or CLAMP holds restarts from power good, with the fault log and
the calibration records kept. DESIGN CHOICE, log entry 86. -/
def execTapTestLogicReset (t : Nat) (s : State) : Host.Outcome State Fault Refusal :=
  anywhere t (fun s =>
    if s.isOff then s
    else if s.sec.tapHeld then
      let s1 := s.restartKept
      { s1 with sec := { s1.sec with tap := .idcode } }
    else { s with sec := { s.sec with tap := .idcode } }) s

/-! ## The management bus (R585, R586) -/

/-- SMB_ALERT_STATUS_CLEAR (R585, R586): bits written as 1 are cleared, but those whose condition still holds are set
again. DESIGN CHOICE, log entry 85. -/
def execSmbAlertStatusClear (t value holds : Nat) (s : State) : Host.Outcome State Fault Refusal :=
  happens t (fun s =>
    let a := s.pw.alertStatus
    let left := a - (a &&& value)
    { s with pw := { s.pw with alertStatus := left ||| (a &&& value &&& holds) } }) s

/-- SMB_ALERT_RESPONSE (R586): the target answers with its address. DESIGN CHOICE, log entry 85. -/
def execSmbAlertResponse (t : Nat) (s : State) : Host.Outcome State Fault Refusal :=
  happens t (fun s => if s.smbAlertN then s.emit (.smbus 0x2C) else s) s

end Sys2Proof.Machine
end

