-- ==== Sys2Proof/Machine/Faults.lean ====
section
/-! DEFINITION. Faults that no block of its own handles, the takeover of Steward pairs, and the FAULT family (R511 to
R531, R591, R592). -/

namespace Sys2Proof.Machine

/-! ## Steward pairs (R35, R514) -/

/-- The pairs p of R35 whose channels pair `v` serves. -/
def State.servedPairs (s : State) (v : Nat) : List Nat := (List.range 4).filter fun p => s.ft.servedBy.get p p == v

/-- The pair that takes over from a halting one: a spare that serves nothing while the pool holds one, else the next
surviving pair in the order p + 1, p + 2, p + 3 modulo 4, else the spare pair that works (R514, R531).
DESIGN CHOICE, log entry 87. -/
def State.heirOf (s : State) (v : Nat) : Option Nat :=
  let live (q : Nat) : Bool := q != v && !s.ft.haltedPairs.contains q
  let idle := (List.range 5).find? fun q => live q && (s.servedPairs q).isEmpty
  match s.sparesLeft 6 0, idle with
  | _ + 1, some q => some q
  | _, _ =>
    let p := if v < 4 then v else (s.servedPairs v).headD 0
    [(p + 1) % 4, (p + 2) % 4, (p + 3) % 4, p, 4].find? live

/-- A Steward pair halts (R514, R521, R522). DESIGN CHOICE, log entry 87. -/
def State.pairHalt (s : State) (v : Nat) (inj : Bool) : State :=
  let u : Unit3 := ⟨6, 0, v⟩
  if v > 4 || s.ft.haltedPairs.contains v || s.isRetired u then s
  else
    let served := s.servedPairs v
    let halted := s.ft.haltedPairs ++ [v]
    let asleep := s.ft.asleep.filter (· != v)
    match s.heirOf v with
    | none =>
      { s with ft := { s.ft with haltedPairs := halted, asleep }, pw := { s.pw with alive := false } }.faultIn u { injected := inj }
    | some q =>
      let servedBy := served.foldl (fun m p => KMap.set m p q) s.ft.servedBy
      let s1 : State := { s with ft := { s.ft with
        haltedPairs := halted, asleep := if served.isEmpty then asleep else asleep.filter (· != q), servedBy
        takeover := s.ft.takeover ++ served.filter fun p => !s.ft.takeover.contains p
        takeoverSince := if served.isEmpty ∨ !s.ft.takeover.isEmpty then s.ft.takeoverSince else s.now } }
      s1.faultIn u { injected := inj, takenBy := if served.isEmpty then 0xFFFF else q,
                     logical := served.headD 0xFFFF }

/-- STEWARD_PAIR_HALT (R514). -/
def execStewardPairHalt (t pair : Nat) (s : State) : Host.Outcome State Fault Refusal :=
  happens t (fun s => if s.pw.steward then s.pairHalt pair false else s) s

/-- A command's wait for a takeover does not count against its deadline (R64, R514).
DESIGN CHOICE, log entries 16 and 87. -/
def State.extendDeadline (s : State) (c : Cmd) : Cmd :=
  if s.ft.takeover.contains (homePair c.fn c.chan) || (s.ft.takeover.contains 0 && needsDuties c.opcode) then
    { c with deadline := c.deadline + (s.now - s.ft.takeoverSince) }
  else c

/-- STEWARD_TAKEOVER_COMPLETE (R514, R530): deadlines move on by the time the takeover took, doorbells snapshot
meanwhile are answered, and injections of class 6 complete. -/
def execStewardTakeoverComplete (t : Nat) (s : State) : Host.Outcome State Fault Refusal :=
  happens t (fun s =>
    if s.ft.takeover.isEmpty then s
    else
      let s1 : State := { s with host := { s.host with cmds := s.host.cmds.map s.extendDeadline }
                                 ft := { s.ft with takeover := [] } }
      (s1.finishAll (s1.startedCmds 0x1503 fun _ => true) .ok Cmd.aux).serveChans) s

/-! ## One fault of any unit -/

/-- A half of a checked pair, a fabric PLL or a die-to-die lane: the units left carry on (R516, R518, R519). -/
def State.halfFail (s : State) (u : Unit3) (inj : Bool) : State :=
  if u.pool < poolCount u.cls ∧ u.unit < poolUnits u.cls then s.faultIn u { injected := inj } else s

/-- A phase of a regulator fails (R517): from the second on, the rail's limit lowers the effective cap.
DESIGN CHOICE, log entry 88. -/
def State.phaseFail (s : State) (rail phase : Nat) : State :=
  let u : Unit3 := ⟨16, rail, phase⟩
  if rail > 12 || phase > 6 || s.isRetired u then s
  else
    let n := s.ft.phaseFaults.get rail 0 + 1
    ({ s with ft := { s.ft with phaseFaults := s.ft.phaseFaults.set rail n } } : State).faultIn u { detail := rail }

/-- The monitors of a unit report a failure (R513, R530). DESIGN CHOICE, log entry 88. -/
def State.failUnit (s : State) (u : Unit3) (inj : Bool) : State :=
  match u.cls with
  | 1 => s.sliceFail u.pool u.unit s.now inj
  | 2 => s.ddcFail u.pool u.unit inj
  | 3 => s.pipeFail u.unit inj
  | 4 => s.coreFail u.unit inj
  | 5 => s.voterFail u.unit inj
  | 6 => s.pairHalt u.unit inj
  | 8 => s.losePc u.pool u.unit inj
  | 9 => if u.unit < 4 then s.loseStack u.unit inj else s
  | 10 => if u.unit = 4 then s.sideFail u.pool inj else s.laneDown (2 * u.pool + u.unit / 2) (u.unit % 2 == 1) inj
  | 11 => s.portFail u.unit 1 inj
  | 12 => s.pcieLaneFail 0 u.unit inj
  | 13 => s.oscFail u.unit inj
  | 14 => s.sampleFail u.unit true inj
  | 16 => s.phaseFail u.pool u.unit
  | 18 => s.scanoutFail u.unit inj
  | 19 => s.tiuFail u.pool u.unit inj
  | 15 | 20 | 21 => s.halfFail u inj
  | _ => s

/-- SPARE_UNIT_FAULT (R522): a spare that holds no work fails. -/
def execSpareUnitFault (t cls pool unit : Nat) (s : State) : Host.Outcome State Fault Refusal :=
  happens t (fun s => s.failUnit ⟨cls, pool, unit⟩ false) s

/-- SRAM_SCRUB_PASS (R515). -/
def execSramScrubPass (t corrected : Nat) (s : State) : Host.Outcome State Fault Refusal :=
  happens t (fun s => { s with ft := { s.ft with correctedSram := satAdd 64 s.ft.correctedSram corrected } }) s

/-- UNCORRECTABLE_SRAM_WORD (R515): rebuilt from the other copy, or a fault of the unit that holds it. -/
def execUncorrectableSramWord (t : Nat) (duplicated : Bool) (cls pool unit detail : Nat) (s : State) :
    Host.Outcome State Fault Refusal :=
  happens t (fun s => if duplicated then s.faultWord detail else s.failUnit ⟨cls, pool, unit⟩ false) s

/-- `READY_MAP` bits of the subsystems on the domain of a fabric PLL pair, as a mask (R18, R513 class 15, R592). -/
def domainBits (pair : Nat) : Nat :=
  match pair with
  | 0 => 2 ^ 11 + 2 ^ 12 + 2 ^ 13 + 2 ^ 14 + 2 ^ 15
  | 5 => 2 ^ 25 | 6 => 2 ^ 18 | 7 => 2 ^ 22 | 9 => 1 | _ => 0

/-- The output of a fabric domain has stopped: every subsystem on it fails (R513 class 15, R536). -/
def State.domainStops (s : State) (pair : Nat) : State :=
  if 1 ≤ pair ∧ pair ≤ 4 then s.loseStack (pair - 1) false
  else if pair = 8 then (List.range 5).foldl (fun s v => s.pairHalt v false) s
  else
    let s1 := s.bitsLost (domainBits pair)
    if pair = 9 then s1.linkDown else s1

/-- FABRIC_PLL_FAULT (R513 class 15, R516): the twin takes over; without it the domain coasts, and `stops` says that
its output stops. DESIGN CHOICE, log entry 74. -/
def execFabricPllFault (t pair unit : Nat) (stops : Bool) (s : State) : Host.Outcome State Fault Refusal :=
  happens t (fun s =>
    let u : Unit3 := ⟨15, pair, unit⟩
    if pair > 9 || unit > 1 || s.isRetired u then s
    else
      let last := s.sparesLeft 15 pair == 0
      let s1 := s.faultIn u {}
      if last && stops then s1.domainStops pair else s1) s

/-- REGULATOR_PHASE_FAULT (R517). -/
def execRegulatorPhaseFault (t rail phase : Nat) (s : State) : Host.Outcome State Fault Refusal :=
  happens t (fun s => s.phaseFail rail phase) s

/-- DIE_LINK_LANE_FAULT (R518). -/
def execDieLinkLaneFault (t direction lane : Nat) (s : State) : Host.Outcome State Fault Refusal :=
  happens t (fun s => s.halfFail ⟨20, direction, lane⟩ false) s

/-- CHECKED_HALF_MISMATCH (R519). -/
def execCheckedHalfMismatch (t pair half : Nat) (s : State) : Host.Outcome State Fault Refusal :=
  happens t (fun s => s.halfFail ⟨21, pair, half⟩ false) s

/-- OUT_OF_SCOPE_FAULT (R510, R521). -/
def execOutOfScopeFault (t detail : Nat) (s : State) : Host.Outcome State Fault Refusal :=
  happens t (fun s => s.outOfScope { detail }) s

/-! ## FAULT.READ_LOG and FAULT.GET_HEALTH (R526 to R529) -/

/-- A log entry, 64 bytes (R527). -/
def LogEntry.bytes (e : LogEntry) : List Byte :=
  pack [(8, e.seq), (16, stampNat e.stamp), (1, e.cls), (1, e.kind), (1, e.flags), (1, e.sparesLeft), (2, e.pool),
    (2, e.failed), (2, e.takenBy), (2, e.logical), (4, e.takeoverNs), (8, e.intervalStart), (8, e.intervalTicks),
    (8, e.detail)]

/-- The 64-byte header of the fault log window (R526). -/
def FaultState.header (f : FaultState) : List Byte :=
  pack [(8, f.written), (8, f.cleared), (4, f.masked), (4, f.unmasked), (40, 0)]

/-- FAULT.READ_LOG (R528). -/
def faultReadLog (c : Cmd) (s : State) : VerbOut :=
  let p := c.payload
  let first := u64 p 0
  let n := u16 p 8
  if n = 0 ∨ 1024 < n ∨ 1 < u8 p 10 ∨ !zeros p 11 5 then .fail .badParam 0
  else if c.room < 128 then .fail .badLength 128
  else
    let want := (s.ft.log.filter fun e => decide (first ≤ e.seq) && (u8 p 10 == 0 || e.kind == 2)).take
      (min n ((c.room - 64) / 64))
    .data (s.ft.header ++ want.flatMap LogEntry.bytes) want.length s

/-- FAULT_READ_LOG: `FAULT.READ_LOG` (R528). -/
def execFaultReadLog (t fn tag : Nat) (s : State) : Host.Outcome State Fault Refusal :=
  verb t 0x1501 fn tag faultReadLog s

/-- The 8-byte record of a class (R529). -/
def State.classRecord (s : State) (cls : Nat) : List (Nat × Nat) :=
  let left := (List.range (poolCount cls)).map fun p => s.sparesLeft cls p
  [(1, poolCount cls), (1, (left.filter (· == 0)).length), (2, poolCount cls * poolSpares cls), (2, left.foldl (· + ·) 0),
    (1, (left.foldl min (poolSpares cls))), (1, s.ft.faults.get cls 0)]

/-- HEALTH as host software reads it (R523). -/
def State.health (s : State) : Nat := s.healthWord s.overrideHeld

/-- The 208 bytes of `FAULT.GET_HEALTH` (R529). -/
def State.healthBytes (s : State) : List Byte :=
  pack ([(8, s.health), (8, s.ft.correctedSram), (4, s.ft.masked), (4, s.ft.unmasked), (8, 0)] ++
    (span 1 22).flatMap fun k => s.classRecord k)

/-- FAULT_GET_HEALTH: `FAULT.GET_HEALTH` (R529). -/
def execFaultGetHealth (t fn tag : Nat) (s : State) : Host.Outcome State Fault Refusal :=
  verb t 0x1502 fn tag (fun _ s => .data s.healthBytes s.health s) s

/-! ## FAULT.INJECT (R530) -/

/-- A unit is in service in its pool: it is not retired, and a lane serves where its half or its device does (R530,
R591). -/
def State.inService (s : State) (u : Unit3) : Bool :=
  decide (u.pool < poolCount u.cls ∧ u.unit < poolUnits u.cls) && !s.isRetired u &&
    (match u.cls with
     | 6 => !s.ft.haltedPairs.contains u.unit
     | 8 => !s.stackRetired u.pool
     | 10 =>
       if u.unit = 4 then !s.sideDead.contains u.pool
       else
         let d := s.peDev (2 * u.pool + u.unit / 2)
         if u.unit % 2 = 1 then d.upUp else d.downUp
     | 12 => !s.halfDead (u.unit / 8)
     | _ => true)

/-- The unit that an injection names: 0xFFFF is the lowest in service (R530). -/
def State.injectUnit (s : State) (p : List Byte) : Unit3 :=
  let u (n : Nat) : Unit3 := ⟨u8 p 0, u16 p 2, n⟩
  if u16 p 4 ≠ 0xFFFF then u (u16 p 4)
  else u (((List.range (poolUnits (u8 p 0))).find? fun n => s.inService (u n)).getD 0xFFFF)

/-- FAULT.INJECT (R530). An active slice waits for a spare that is ready, and a further pair for a takeover that
runs (R522, R530). DESIGN CHOICE, log entry 74. -/
def faultInject (c : Cmd) (s : State) : VerbOut :=
  let p := c.payload
  let u := s.injectUnit p
  let warming := u.cls == 1 && ((s.input u.pool).slice u.unit).role == .active && (s.input u.pool).spareSlice.isNone
  if !zeros p 1 1 ∨ !zeros p 6 2 ∨ [7, 16, 17, 22].contains u.cls ∨ poolCount u.cls = 0 ∨ !s.inService u then
    .fail .badParam 0
  else if s.sparesLeft u.cls u.pool = 0 then .fail .badState 0
  else if warming || (u.cls == 6 && !s.ft.takeover.isEmpty) then .wait
  else
    let seq := s.ft.written
    let s1 := s.failUnit u true
    if u.cls = 6 ∧ !s1.ft.takeover.isEmpty then .running seq [] s1 else .done .ok seq s1

/-- FAULT_INJECT: `FAULT.INJECT` (R530). -/
def execFaultInject (t fn tag : Nat) (s : State) : Host.Outcome State Fault Refusal :=
  verb t 0x1503 fn tag faultInject s

/-! ## FAULT.CLEAR_LOG (R531) -/

/-- FAULT.CLEAR_LOG (R531): the log is emptied; with RESTORE_INJECTED the units retired only by injection self-test,
and the command waits for them. -/
def faultClearLog (c : Cmd) (s : State) : VerbOut :=
  let p := c.payload
  let fl := u8 p 0
  if 3 < fl ∨ !zeros p 1 3 then .fail .badParam 0
  else
    let f := { s.ft with log := [], cleared := s.ft.written }
    let f := if fl.testBit 1 then { f with masked := 0, unmasked := 0, correctedSram := 0, faults := [] } else f
    let f := if fl.testBit 0 then { f with selfTest := f.injected } else f
    let s1 : State := { s with ft := f }
    if fl.testBit 0 && !f.injected.isEmpty then .running 0 [] s1 else .done .ok 0 s1

/-- FAULT_CLEAR_LOG: `FAULT.CLEAR_LOG` (R531). -/
def execFaultClearLog (t fn tag : Nat) (s : State) : Host.Outcome State Fault Refusal :=
  verb t 0x1504 fn tag faultClearLog s

/-- What the block of a unit does when it comes back into its pool as a spare (R531). -/
def State.unitBack (s : State) (u : Unit3) : State :=
  match u.cls with
  | 1 =>
    let x := s.input u.pool
    let role : SliceRole := if x.spareSlice.isNone then .calSpare else .coldSpare
    s.setInput u.pool { x.setSlice u.unit { x.slice u.unit with role := role, missed := 0 } with frozen := false, paused := false }
  | 3 => if s.press.spare.isNone then { s with press := { s.press with spare := some u.unit } } else s
  | 5 => { s with trig := { s.trig with voters := s.trig.voters ||| 2 ^ u.unit, split := false } }
  | 6 => { s with ft := { s.ft with haltedPairs := s.ft.haltedPairs.filter (· != u.unit) } }
  | 8 =>
    let x := s.stack u.pool
    if x.replaced = some u.unit then s.setStack u.pool { x with replaced := none, rebuilding := false } else s
  | 9 => s.setStack u.unit { s.stack u.unit with rebuilding := true, rebuilt := 0, rebuildFrom := s.now }
  | 10 =>
    if u.unit = 4 then { s with sideDead := s.sideDead.filter (· != u.pool) }
    else
      let n := 2 * u.pool + u.unit / 2
      let d := s.peDev n
      let d := if u.unit % 2 = 1 then { d with upUp := true } else { d with downUp := true }
      s.setPe n { d with moveBack := d.mode == .rerouted && d.upUp && d.downUp }
  | 11 =>
    let x := s.port u.unit
    s.setPort u.unit { x with mode := if x.mode = .failed then .up else x.mode, role := if x.role = 0 then 0 else 2 }
  | 13 =>
    let k := s.ck
    { s with ck := { k with oscDead := k.oscDead.filter (· != u.unit), oscStopped := k.oscStopped.filter (· != u.unit) } }
  | 14 => s.setSample u.unit .locked
  | 18 => { s with disp := { s.disp with spared := false } }
  | 19 =>
    let g := s.tiuGroup u.pool
    s.setTiuGroup u.pool { g with frozen := false, taken := none, dead := g.dead.filter (· != 16 * u.pool + u.unit) }
  | _ => s

/-- INJECTED_UNIT_RESTORE (R531): a unit ends its self-test; when the last one has, the command completes with the
number restored. -/
def execInjectedUnitRestore (t cls pool unit : Nat) (passed : Bool) (s : State) : Host.Outcome State Fault Refusal :=
  happens t (fun s =>
    let u : Unit3 := ⟨cls, pool, unit⟩
    if !s.ft.selfTest.contains u then s
    else
      let s1 := if passed then (s.unitBack u).restoreUnit u true else s
      let left := s1.ft.selfTest.filter (· != u)
      let s2 : State := { s1 with ft := { s1.ft with selfTest := left } }
      let cs := s2.startedCmds 0x1504 fun _ => true
      let s3 := if passed then cs.foldl (fun s c => s.markStarted c (c.aux + 1) []) s2 else s2
      if left.isEmpty then s3.finishAll (s3.startedCmds 0x1504 fun _ => true) .ok Cmd.aux else s3) s

end Sys2Proof.Machine
end

