-- ==== Sys2Proof/Machine/Cal.lean ====
section
/-! DEFINITION. Calibration: the units of each class, the trims of `CAL.RUN` and of a schedule, records and schedules
(R537, R539 to R544). -/

namespace Sys2Proof.Machine

/-- Units of a calibration class (R537). -/
def calSize (cls : Nat) : Nat :=
  match cls with
  | 1 => 136 | 2 => 12 | 3 => 2 | 4 => 68 | 5 => 128 | 6 => 16 | 7 => 64 | 8 => 4096 | 9 => 64 | 10 => 3 | _ => 0

/-- `READY_MAP` bit of the function that a unit belongs to (R541). -/
def calBit (cls index : Nat) : Nat :=
  match cls with
  | 1 => 7 + index / 34 | 2 => 7 + index / 3 | 3 => 19 + index | 4 | 5 => 22 | 6 => 23 | 7 | 8 => 18 | 9 => 6 | _ => 21

/-- The first user of a unit that needs to be idle (R541). DESIGN CHOICE, log entry 75. -/
def State.calUser (s : State) (cls index : Nat) : Option (Nat × Nat) :=
  match cls with
  | 2 =>
    let i := index / 3
    if (s.input i).mode = .running then some ((s.inputConsumer i 0).getD (3, i)) else none
  | 3 => if (s.stimOut index).mode.live then some (0x0C, index) else none
  | 7 => (s.sitesOn index).head?.map fun n => (0x0A, n)
  | 8 => (s.sitesOn (index / 64)).head?.map fun n => (0x0A, n)
  | _ => none

/-- A unit is there to be trimmed: it is not retired, and a pin or lane has a device. -/
def State.calPresent (s : State) (cls index : Nat) : Bool :=
  match cls with
  | 1 => !s.isRetired ⟨1, index / 34, index % 34⟩
  | 4 => !s.isRetired (if index < 64 then ⟨19, index / 16, index % 16⟩ else ⟨19, index - 64, 16⟩)
  | 7 => (s.peDev index).linked
  | 8 => (s.peDev (index / 64)).linked && decide (index % 64 < (s.peDev (index / 64)).channels)
  | 9 => !s.stackRetired (index / 16)
  | _ => true

/-- A trim that falls outside its limits is a fault of its class (R539). DESIGN CHOICE, log entry 75. -/
def State.calFault (s : State) (cls index : Nat) : State :=
  let s := s.calFailed cls index
  match cls with
  | 1 => s.sliceFail (index / 34) (index % 34) s.now false
  | 4 => if index < 64 then s.tiuFail (index / 16) (index % 16) false else s.tiuFail (index - 64) 16 false
  | 7 => s.laneDown index true false
  | 9 => s.losePc (index / 16) (2 * (index % 16)) false
  | _ => s.outOfScope {}

/-- One trim (R539, R540): `failed` lists the units that fall outside their limits, and `values` gives VALUE by index.
DESIGN CHOICE, log entry 75. -/
def State.calOne (s : State) (cls : Nat) (failed : List Nat) (values : List (Nat × Nat)) (index : Nat) : State :=
  if failed.contains index then s.calFault cls index
  else s.calTrim cls index 0 (if cls = 2 then KMap.get values index 0 else 0)

/-- Trims units in INDEX order. -/
def State.calUnits (s : State) (cls : Nat) (units failed : List Nat) (values : List (Nat × Nat)) : State :=
  units.foldl (fun s u => s.calOne cls failed values u) s

/-- Pins of an idle device that can be measured now: as for `TRELLIS.DESKEW`, the vector clock is enabled and host software
has not configured the device's TIU channel (R341). DESIGN CHOICE, log entry 135. -/
def State.deskewable (s : State) (u : Nat) : Bool := (s.gen 0).enabled && !s.tiuConfigured (u / 64)

/-- Pins are measured for `CAL.RUN` or a schedule (R333, R541): those that fall outside their limits are faults of their
class, and the measurement of the others begins. -/
def State.calPins (s : State) (units failed : List Nat) (why : Nat) : State :=
  (s.calUnits 8 (units.filter fun u => failed.contains u) failed []).measureAll
    (runsOf (units.filter fun u => !failed.contains u) why)

/-- A unit is trimmed in service, in its rotation or retraining slot; the others of its class are trimmed at once
(R541). -/
def State.calInService (s : State) (cls u : Nat) : Bool :=
  match cls with
  | 1 => (s.input (u / 34)).mode == .running && !(s.input (u / 34)).paused && !s.calFrozen (u / 34)
  | 4 => let g := if u < 64 then u / 16 else u - 64
         !s.tiuFrozen g && !s.vineHold g
  | 9 => s.calPresent 9 u
  | _ => false

/-- What a CAL.RUN of a class that is trimmed in service waits for: a rotation of each input or group named, or a
retraining of each channel named; rotations that stand still are not waited for (R541). -/
def State.calWaits (s : State) (cls : Nat) (units : List Nat) : List Nat :=
  match cls with
  | 1 =>
    ((List.range 4).filter fun i => units.any fun u => u / 34 == i && s.calInService 1 u).map fun i =>
      64 * i + (s.input i).calStep
  | 4 =>
    ((List.range 4).filter fun g => units.any fun u => (if u < 64 then u / 16 == g else u == 64 + g) &&
      s.calInService 4 u).map fun g => 32 * g + (s.tiuGroup g).step
  | 9 => units.filter fun u => s.calInService 9 u
  | _ => []

/-- A payload of CAL.RUN or CAL.GET_RECORD names units of a class up to `top` (R541, R542). -/
def calRangeOk (p : List Byte) (top : Nat) : Bool :=
  decide (1 ≤ u8 p 0 ∧ u8 p 0 ≤ top) && zeros p 1 1 && zeros p 6 2 && decide (1 ≤ u16 p 4) &&
    decide (u16 p 2 + u16 p 4 ≤ calSize (u8 p 0))

/-- CAL.RUN (R539, R541). DESIGN CHOICE, log entry 75. -/
def calRun (failed : List Nat) (values : List (Nat × Nat)) (c : Cmd) (s : State) : VerbOut :=
  let p := c.payload
  let cls := u8 p 0
  let units := span (u16 p 2) (u16 p 4)
  if !calRangeOk p 9 then .fail .badParam 0
  else if units.any fun u => !s.readyBit (calBit cls u) then .fail .notReady 0
  else if cls == 8 && s.cal.deskewRunning then .wait
  else
    match units.findSome? fun u => s.calUser cls u with
    | some k => .fail .badState (consumerWord k)
    | none =>
      match s.calWaits cls units with
      | w :: ws =>
        let idle := units.filter fun u => !s.calInService cls u && s.calPresent cls u
        .running 0 (w :: ws) (s.calUnits cls idle failed values)
      | [] =>
        let todo := units.filter fun u => s.calPresent cls u
        let bad := (todo.filter fun u => failed.contains u).length
        let good := todo.filter fun u => !failed.contains u
        let s1 := s.calUnits cls todo failed values
        if cls = 8 ∧ !good.isEmpty then
          match good.find? fun u => !s.deskewable u with
          | some u => .fail .badState (if (s.gen 0).enabled then consumerWord (0x0E, u / 64) else 0)
          | none => .running (good.length + 2 ^ 32 * bad) ((runsOf good 2).map DeskewRun.device) (s.calPins todo failed 2)
        else .done .ok (todo.length - bad + 2 ^ 32 * bad) (s1.evCalDone cls (todo.length - bad) bad false)

/-- CAL_RUN: `CAL.RUN` (R541). DESIGN CHOICE, log entry 11. -/
def execCalRun (t fn tag : Nat) (failed : List Nat) (values : List (Nat × Nat)) (_means : Computed)
    (s : State) : Host.Outcome State Fault Refusal :=
  verb t 0x1601 fn tag (calRun failed values) s

/-- A calibration record entry (R540). -/
def CalRecord.entry (r : CalRecord) (cls index : Nat) : List Byte :=
  pack [(1, cls), (1, r.status), (2, index), (4, r.count), (16, if r.status = 3 then 0 else stampNat r.last),
    (4, r.value), (4, 0)]

/-- CAL.GET_RECORD (R542). -/
def calGetRecord (c : Cmd) (s : State) : VerbOut :=
  let p := c.payload
  let cls := u8 p 0
  if !calRangeOk p 10 then .fail .badParam 0
  else if c.room < 48 then .fail .badLength 48
  else
    let units := (span (u16 p 2) (u16 p 4)).take ((c.room - 16) / 32)
    .data (pack [(1, cls), (3, 0), (4, units.length), (8, s.cal.doneTick)] ++
      units.flatMap fun u => (s.cal.recs.get (cls * 65536 + u) {}).entry cls u) units.length s

/-- CAL_GET_RECORD: `CAL.GET_RECORD` (R542). -/
def execCalGetRecord (t fn tag : Nat) (s : State) : Host.Outcome State Fault Refusal :=
  verb t 0x1602 fn tag calGetRecord s

/-- The modes that a class accepts (R543). -/
def calModes (cls : Nat) : List Nat :=
  match cls with
  | 1 | 4 => [0, 1] | 9 => [0] | 2 | 3 | 5 | 6 | 7 | 8 => [0, 2, 3] | _ => []

/-- CAL.SET_SCHEDULE (R543). -/
def calSetSchedule (c : Cmd) (s : State) : VerbOut :=
  let p := c.payload
  let cls := u8 p 0
  let mode := u8 p 1
  let x : CalSchedule := { mode, deltaC := u8 p 2, periodS := u32 p 4 }
  if !(calModes cls).contains mode ∨ !zeros p 3 1 ∨ (mode = 3 ∧ (x.deltaC < 1 ∨ 20 < x.deltaC)) ∨
      (mode = 2 ∧ (x.periodS < 10 ∨ 604800 < x.periodS)) then .fail .badParam 0
  else if !s.readyBit (calBit cls 0) then .fail .notReady 0
  else .done .ok 0 { s with cal := { s.cal with sched := s.cal.sched.set cls x } }

/-- CAL_SET_SCHEDULE: `CAL.SET_SCHEDULE` (R543). -/
def execCalSetSchedule (t fn tag : Nat) (s : State) : Host.Outcome State Fault Refusal :=
  verb t 0x1603 fn tag calSetSchedule s

/-- A unit has fallen due: by its period, or by a drift that the row reports (R543). -/
def State.calDue (s : State) (cls index : Nat) : Bool :=
  let x := s.cal.sched.get cls {}
  match x.mode with
  | 2 => decide ((s.cal.recs.get (cls * 65536 + index) {}).last.tick + x.periodS * ticksPerSecond ≤ s.now)
  | 3 => true
  | _ => false

/-- SCHEDULED_CALIBRATION (R543, R544): a pass over the units of a class that have fallen due and are idle. -/
def execScheduledCalibration (t cls : Nat) (units failed : List Nat) (values : List (Nat × Nat))
    (_means : Computed) (s : State) : Host.Outcome State Fault Refusal :=
  happens t (fun s =>
    let todo := units.filter fun u =>
      decide (u < calSize cls) && s.readyBit (calBit cls u) && s.calDue cls u && (s.calUser cls u).isNone &&
        s.calPresent cls u && (cls != 8 || s.deskewable u)
    if !s.stewardRuns || todo.isEmpty || s.cal.deskewRunning || (cls == 8 && s.cal.runs.any fun r => r.why == 3) then s
    else
      let bad := (todo.filter fun u => failed.contains u).length
      let s1 := s.calUnits cls todo failed values
      if cls = 8 ∧ bad < todo.length then
        ({ s with cal := { s.cal with passed := todo.length - bad, missed := bad } }).calPins todo failed 3
      else s1.evCalDone cls (todo.length - bad) bad true) s

end Sys2Proof.Machine
end

