-- ==== Sys2Proof/Machine/Epoch.lean ====
section
/-! DEFINITION. EPOCH frames that a Vine member receives, with the commands that wait for an epoch which the chain
skips (R361). -/

namespace Sys2Proof.Machine

/-- Where a scheduled verb has WHEN and AT in its payload. -/
def whenAt (op : Nat) : Option (Nat × Nat) :=
  match op with
  | 0x0206 | 0x0301 | 0x0704 | 0x0802 | 0x0C04 => some (2, 8)
  | 0x0402 | 0x0403 | 0x0505 | 0x0902 => some (1, 8)
  | 0x0A05 => some (34, 40)
  | 0x0E02 => some (8, 16)
  | 0x0F03 => some (0, 8)
  | _ => none

/-- A started command waits with WHEN 2, or as `VINE.CALIBRATE_SKEW` with START_EPOCH, for an epoch from `lo` up to, but not
including, `hi`. -/
def Cmd.waitsEpoch (c : Cmd) (lo hi : Nat) : Bool :=
  c.started && (match whenAt c.opcode with
    | some (w, a) => u8 c.payload w == 2 && decide (lo ≤ u64 c.payload a) && decide (u64 c.payload a < hi)
    | none => c.opcode == 0x0D02 && decide (lo ≤ u64 c.payload 0) && decide (u64 c.payload 0 < hi))

/-- What a scheduled command had prepared is taken back: it ends without effect (R361); `none` where the command no
longer waits for its epoch. DESIGN CHOICE, log entry 61. -/
def State.unschedule (s : State) (c : Cmd) : Option State :=
  let p := c.payload
  let n := u8 p 0
  match c.opcode with
  | 0x0206 =>
    if (s.gen n).ramp = .armed then some (s.setGen n { s.gen n with ramp := .idle }) else none
  | 0x0301 => if (s.input n).pending.isSome then some (s.setInput n { s.input n with pending := none }) else none
  | 0x0402 => if (s.ddc n).delayNext.isSome then some (s.setDdc n { s.ddc n with delayNext := none }) else none
  | 0x0403 =>
    if (s.ddc n).starting.isSome then some ((s.setDdc n { s.ddc n with starting := none }).undeclare 4 n) else none
  | 0x0505 => if (s.job n).mode = .starting then some (s.jobQuiesce n false) else none
  | 0x0704 =>
    if (s.tunit n).sched.isSome then some ((s.setTunit n { s.tunit n with sched := none }).undeclare 7 n) else none
  | 0x0802 =>
    let k := u16 p 0
    let x := s.ctx k
    if x.sched.isNone then none
    else
      some (s.setCtx k { x with sched := none })
  | 0x0902 =>
    if (s.core n).sched.isSome then
      some (((s.setCore n { s.core n with sched := none }).undeclare 9 n).release (actKey kindKernel n))
    else none
  | 0x0A05 =>
    some (((sitesIn (field p 0 32)).filter fun k => (s.site k).mode == .starting).foldl (fun s k =>
      let b := (s.site k).before.getD (.idle, {})
      ((s.setSite k { s.site k with mode := b.1, play := b.2, before := none }).undeclare 0x0A k).release (actKey kindSite k)) s)
  | 0x0C04 =>
    some (((maskBits 2 n).filter fun o => (s.stimOut o).mode == .starting).foldl (fun s o =>
      let b := (s.stimOut o).before.getD (.idle, {})
      (s.stimOff o).setStim o { s.stimOut o with mode := b.1, play := b.2, before := none, held := none }) s)
  | 0x0D02 => s.vine.cal.map fun _ => s.setVine { s.vine with cal := none }
  | 0x0E02 =>
    some (c.named.foldl (fun s k => (s.setTiu k { s.tiuChan k with mode := .configured }).undeclare 0x0E k) s)
  | 0x0F03 => some (s.undeclare 0x0F 16)
  | _ => none

/-- The epochs from `lo` up to `hi` are skipped: every command that waits for one completes with ST_TIMEOUT and
has no effect (R361). DESIGN CHOICE, log entry 61. -/
def State.skipEpochs (s : State) (lo hi : Nat) : State :=
  (s.host.cmds.filter fun c => c.waitsEpoch lo hi).foldl (fun s c =>
    match s.unschedule c with
    | some s1 => s1.finish c .timeout 0
    | none => s) s

/-- The schedule of EV_VINE_SYNC after the epochs before `n` have been skipped: their occurrences are lost (R369).
DESIGN CHOICE, log entry 61. -/
def VineSchedule.after (x : VineSchedule) (n : Nat) : Option VineSchedule :=
  if n ≤ x.epoch then some x
  else
    let k := (n - x.epoch + x.period - 1) / x.period
    if x.period = 0 ∨ x.count ≤ k then none
    else some { x with epoch := x.epoch + k * x.period, count := x.count - k }

/-- The number that a member expects of the EPOCH frame whose header edge arrived at `arrival`: that of the local
epoch edge nearest to LINK_DELAY before it, which is the previous one and one more (R361). DEDUCED, log entry 60. -/
def State.expectedEpoch (s : State) (arrival : Stamp) : Option Nat :=
  s.vine.ref.map fun r =>
    let edge : Int := (stampFine arrival : Int) - s.vine.delay - (r.2 : Int) * 65536
    let step : Int := (epochTicks : Int) * 65536
    ((r.1 : Int) + (edge + step / 2) / step).toNat

/-- The numbering jumps: the local epoch `e` is epoch `n` from here on (R361). DEDUCED, log entry 60. -/
def State.epochJump (s : State) (e n : Nat) : State :=
  let v := s.vine
  let edge := (s.epochEdge e).getD 0
  let done := v.epoch == e
  let sched := match v.sched with
    | some x => x.after n
    | none => none
  (s.setVine { v with ref := some (n, edge), wrong := 0, jumps := satAdd 32 v.jumps 1, sched,
                      epoch := if done then n else v.epoch }).skipEpochs e n

/-- EPOCH_FRAME_RECEIVED (R361): `arrival` is the stamp of the header edge. A frame that fails its CRC is taken as the
epoch expected; a number that differs is adopted on the third frame in succession. -/
def execEpochFrameReceived (t number crc : Nat) (arrival : Stamp) (s : State) :
    Host.Outcome State Fault Refusal :=
  happens t (fun s =>
    let n := number % 2 ^ 64
    let crcOk := crc == vineCrc 64 n
    let arrival := s.full arrival
    if s.vine.role ≠ 2 then s
    else
      let s1 := if crcOk then s else s.setVine { s.vine with crcErrors := satAdd 32 s.vine.crcErrors 1 }
      match s1.expectedEpoch arrival with
      | none => if crcOk then s1.vineEpoch n arrival else s1
      | some e =>
        if !crcOk then (s1.setVine { s1.vine with wrong := 0 }).vineEpoch e arrival
        else if n = e then (s1.setVine { s1.vine with wrong := 0 }).vineEpoch n arrival
        else if s1.vine.wrong < 2 then (s1.setVine { s1.vine with wrong := s1.vine.wrong + 1 }).vineEpoch e arrival
        else (s1.epochJump e n).vineEpoch n arrival) s

end Sys2Proof.Machine
end

