-- ==== Sys2Proof/Machine/Sec.lean ====
section
/-! DEFINITION. The SEC family: certificates, attestation, firmware updates with the Steward restart, the owner key and
the anti-rollback counters (R557, R558, R560 to R567). -/

namespace Sys2Proof.Machine

/-- Replaces the security state. -/
def State.setSec (s : State) (x : Security) : State := { s with sec := x }

/-- Value of an anti-rollback counter (R558). -/
def State.counter (s : State) (n : Nat) : Nat := s.sec.counters.get n 0

/-- Sets an anti-rollback counter. -/
def State.setCounter (s : State) (n v : Nat) : State := s.setSec { s.sec with counters := s.sec.counters.set n v }

/-- POLICY in force (R560). -/
def State.policy (s : State) : Nat := s.sec.owner.elim 0 OwnerKey.policy

/-- The 64 counters, one byte each (R564, R567). -/
def State.counterBytes (s : State) : List Byte := pack ((List.range 64).map fun n => (1, s.counter n))

/-- SEC.GET_CERTIFICATE (R563). -/
def secGetCertificate (c : Cmd) (s : State) : VerbOut :=
  let p := c.payload
  if 2 < u8 p 0 ∨ !zeros p 1 3 then .fail .badParam 0
  else
    let der := Config.certificate (u8 p 0)
    .data der der.length s

/-- SEC_GET_CERTIFICATE: `SEC.GET_CERTIFICATE` (R563). -/
def execSecGetCertificate (t fn tag : Nat) (s : State) : Host.Outcome State Fault Refusal :=
  verb t 0x1801 fn tag secGetCertificate s

/-- Measurement of the kernel loaded in a core, zero where there is none (R279, R564). -/
def State.measurement (s : State) (n : Nat) : List Byte :=
  match (s.core n).kernel with
  | some k => k.digest
  | none => leBytes 64 0

/-- Bytes 0 to 4,543 of the attestation report over a nonce (R564). -/
def State.attestBody (s : State) (nonce : List Byte) : List Byte :=
  pack [(4, 0x41545354), (2, 1), (2, bit s.provisional + 2 * bit s.sec.fallback), (4, 4676), (4, s.fwVersion)] ++
    serialNumber ++ nonce ++ pack [(16, stampNat s.stampNow), (1, s.policy), (7, 0)] ++ s.counterBytes ++ leBytes 8 0 ++
    (s.fwSlot s.sec.runningSlot).digest ++ (s.sec.owner.elim (leBytes 64 0) fun o => sha512 o.key) ++
    sha512 s.idEntries ++ sha512 (pack [(8, s.ready.toNat), (8, s.health), (4, s.secState)]) ++
    (List.range 64).flatMap fun n => s.measurement n

/-- The device identity key's signature over a message (R279, R561). -/
def deviceSignature (m : List Byte) : List Byte := (List.range 132).map (Config.deviceSign (sha512 m))

/-- SEC.ATTEST (R564). DESIGN CHOICE, log entry 79. -/
def secAttest (c : Cmd) (s : State) : VerbOut :=
  let body := s.attestBody (c.payload.take 64)
  .data (body ++ deviceSignature body) 0 s

/-- SEC_ATTEST: `SEC.ATTEST` (R564). -/
def execSecAttest (t fn tag : Nat) (s : State) : Host.Outcome State Fault Refusal :=
  verb t 0x1802 fn tag secAttest s

/-! ## Firmware (R557, R565) -/

/-- An image as R557 lays it out and the boot ROM accepts it, with anti-rollback counter 0 at `least`; `none`
where verification fails. DESIGN CHOICE, log entry 77. -/
def imageOf (b : List Byte) (size least : Nat) : Option FwSlot :=
  let body := u32 b 12
  let svn := u8 b 8
  let key := (b.drop 16).take 133
  let signed := b.take (160 + body)
  let digest := sha512 signed
  if u32 b 0 = 0x46574350 ∧ svn ≤ 64 ∧ least ≤ svn ∧ 1 ≤ body ∧ body ≤ 16777216 ∧ size = 292 + body ∧ b.length = size ∧
      sha512 key = (List.range 64).map Config.vendorKeyHash ∧
      verifyP521 key digest (b.drop (160 + body)) then
    some { version := u32 b 4, svn, digest }
  else none

/-- Activities other than calibration and the aperture hold allotments (R565). -/
def State.othersHold (s : State) : Bool :=
  s.bud.allocs.any fun e => e.1 / 65536 != kindCal && e.1 / 65536 != kindAperture

/-- The session of a function ends (R59). -/
def Func.endSession (f : Func) : Func :=
  { f with session := 0, lastSession := if f.session = 0 then f.lastSession else f.session }

/-- Bits 1, 2 and 28 clear and the sessions end, until the restart is complete (R565). DESIGN CHOICE, log entry 78. -/
def State.restartBegin (s : State) : State :=
  let s1 := (s.setFunc 0 (s.func 0).endSession).setFunc 1 (s.func 1).endSession
  (s1.setSec { s1.sec with active := 1 - s1.sec.runningSlot, restarting := true }).clearReady
    (2 ^ 1 + 2 ^ 2 + 2 ^ 28)

/-- The verified image goes to the slot that is not running; in recovery it is activated as well, and the module
restarts (R565). DESIGN CHOICE, log entry 77. -/
def State.stage (s : State) (x : FwSlot) : State :=
  let s1 := s.setSec { s.sec with slots := s.sec.slots.set (1 - s.sec.runningSlot) x, staged := true }
  if s.sec.recovery then s1.restartBegin else s1

/-- COMMIT: `blown` fuses of counter 0 are blown, up to the SVN of the running image (R558, R565).
DESIGN CHOICE, log entry 77. -/
def State.blowFuses (s : State) (blown : Nat) : State :=
  s.setCounter 0 (max (s.counter 0) (min (s.fwSlot s.sec.runningSlot).svn (s.counter 0 + blown)))

/-- Counter 0 has reached the SVN of the running image. DESIGN CHOICE, log entry 78. -/
def State.committed (s : State) : Bool := decide ((s.fwSlot s.sec.runningSlot).svn ≤ s.counter 0)

/-- SEC.UPDATE_FIRMWARE (R565); `image` is what the host memory system returns, and `blown` the fuses that are
blown before power is lost. DESIGN CHOICE, log entry 77. -/
def secUpdateFirmware (image : List Byte) (blown : Nat) (c : Cmd) (s : State) : VerbOut :=
  let p := c.payload
  let act := u8 p 0
  let cellar := u8 p 1 = 1
  let size := u32 p 4
  let addr := u64 p 8
  if 3 < act ∨ (act = 0 ∧ 1 < u8 p 1) ∨ !zeros p 2 2 ∨ !zeros p 16 8 then .fail .badParam 0
  else if act = 0 then
    if cellar ∧ s.sec.recovery then .fail .notReady 0
    else if cellar ∧ !s.inRegion addr size then .fail .badParam 0
    else
      let s1 := s.hostLoad c addr size cellar
      match imageOf (if cellar then s.cellarMem.readBytes addr size else image) size (s.counter 0) with
      | none => .done .denied 0 s1
      | some x => .done .ok 0 (s1.stage x)
  else if act = 3 then
    if s.sec.recovery then .fail .badState 0
    else
      let s1 := s.blowFuses blown
      if s1.committed then .done .ok 0 s1 else .running 0 [] s1
  else if !s.sec.staged then .fail .badState 0
  else if act = 1 then .done .ok 0 (s.setSec { s.sec with active := 1 - s.sec.runningSlot })
  else if s.othersHold ∨ s.host.cmds.any (fun d => d.seq != c.seq) then .fail .badState 0
  else .done .ok 0 s.restartBegin

/-- A COMMIT that has started blows further fuses. DESIGN CHOICE, log entry 77. -/
def State.commitOn (s : State) (c : Cmd) (blown : Nat) : State :=
  if c.opcode == 0x1803 && u8 c.payload 0 == 3 && s.stewardRuns then
    let s1 := s.blowFuses blown
    if s1.committed then s1.finish c .ok 0 else s1
  else s

/-- SEC_UPDATE_FIRMWARE: `SEC.UPDATE_FIRMWARE` (R565). -/
def execSecUpdateFirmware (t fn tag : Nat) (image : List Byte) (blown : Nat) (s : State) :
    Host.Outcome State Fault Refusal :=
  match s.cmdOf fn tag with
  | some c =>
    if c.started then happens t (fun s => s.commitOn c blown) s
    else verb t 0x1803 fn tag (secUpdateFirmware image blown) s
  | none => happens t id s

/-- STEWARD_RESTART_COMPLETE (R565): the image activated runs, and of bits 1, 2 and 28 those in `ready` are set
again. In recovery the module restarts with the sequence of R533. DESIGN CHOICE, log entry 78. -/
def execStewardRestartComplete (t : Nat) (ready : List Nat) (s : State) : Host.Outcome State Fault Refusal :=
  happens t (fun s =>
    if !s.sec.restarting then s
    else if s.sec.recovery then s.restartKept
    else
      let s1 := s.setSec { s.sec with runningSlot := s.sec.active, staged := false, fallback := false, restarting := false }
      ([1, 2, 28].filter fun b => ready.contains b).foldl (fun s b => (s.setReady b).event 0x0101 0 b) s1) s

/-! ## Owner key and counters (R558, R560, R566, R567) -/

/-- AUTH of a request to change the owner key (R566). DESIGN CHOICE, log entry 79. -/
def State.ownerAuth (s : State) (p : List Byte) : Bool :=
  match s.sec.owner with
  | some o => verifyP521 o.key (sha512 (p.take 144 ++ serialNumber)) ((p.drop 144).take 132)
  | none => zeros p 144 132

/-- SEC.SET_OWNER_KEY (R566). DESIGN CHOICE, log entry 79. -/
def secSetOwnerKey (c : Cmd) (s : State) : VerbOut :=
  let p := c.payload
  let clear := u8 p 0 = 1
  let n := s.counter 1
  if 1 < u8 p 0 ∨ 3 < u8 p 1 ∨ !zeros p 2 2 ∨ !zeros p 141 3 ∨ (clear ∧ !zeros p 8 133) then .fail .badParam 0
  else if u32 p 4 ≠ n ∨ !s.ownerAuth p then .fail .denied 0
  else if 64 ≤ n then .fail .noResource 0
  else
    let owner : Option OwnerKey := if clear then none else some { key := (p.drop 8).take 133, policy := u8 p 1 }
    let s1 := s.setCounter 1 (n + 1)
    .done .ok (n + 1) (s1.setSec { s1.sec with owner })

/-- SEC_SET_OWNER_KEY: `SEC.SET_OWNER_KEY` (R566). -/
def execSecSetOwnerKey (t fn tag : Nat) (s : State) : Host.Outcome State Fault Refusal :=
  verb t 0x1804 fn tag secSetOwnerKey s

/-- SEC_GET_COUNTERS: `SEC.GET_COUNTERS` (R567). -/
def execSecGetCounters (t fn tag : Nat) (s : State) : Host.Outcome State Fault Refusal :=
  verb t 0x1805 fn tag (fun _ s => .data s.counterBytes (s.counter 0 + 256 * s.counter 1) s) s

end Sys2Proof.Machine
end

