-- ==== Sys2Proof/Machine/SorrelIsa.lean ====
section
/-! DEFINITION. The Sorrel instruction set: one meaning for each instruction that a core issues (R260 to R275). -/

namespace Sys2Proof.Machine

/-! ## Registers -/

/-- Scalar register; s0 reads zero (R260). -/
def Core.s (x : Core) (i : Nat) : Nat :=
  if i = 0 then 0 else match x.sregs.find i with
    | some v => v
    | none => x.lostBits (8 * dataBytes + 32 * i) 32

/-- Writes a scalar register; writes to s0 are ignored (R260). -/
def Core.setS (x : Core) (i v : Nat) : Core := if i = 0 then x else { x with sregs := x.sregs.set i (v % 2 ^ 32) }

/-- The lanes of a list. -/
def Lanes.ofList (l : List Cplx) : Lanes :=
  { l0 := l.getD 0 {}, l1 := l.getD 1 {}, l2 := l.getD 2 {}, l3 := l.getD 3 {} }

/-- The four lanes in order. -/
def Lanes.list (l : Lanes) : List Cplx := [l.l0, l.l1, l.l2, l.l3]

/-- One operation on every lane. -/
def Lanes.map (l : Lanes) (f : Cplx → Cplx) : Lanes :=
  { l0 := f l.l0, l1 := f l.l1, l2 := f l.l2, l3 := f l.l3 }

/-- One operation on every pair of lanes. -/
def Lanes.zip (f : Cplx → Cplx → Cplx) (a b : Lanes) : Lanes :=
  { l0 := f a.l0 b.l0, l1 := f a.l1 b.l1, l2 := f a.l2 b.l2, l3 := f a.l3 b.l3 }

/-- The lanes that `4 × 2 × w` bits hold, I below Q. -/
def Lanes.ofNat (w n : Nat) : Lanes :=
  Lanes.ofList ((List.range 4).map fun i =>
    { re := signed w (n / 2 ^ (2 * w * i)), im := signed w (n / 2 ^ (2 * w * i + w)) })

/-- A vector register (R260). -/
def Core.v (x : Core) (i : Nat) : Lanes :=
  match x.vregs.find i with
  | some l => l
  | none => Lanes.ofNat 16 (x.lostBits (8 * dataBytes + 1024 + 128 * i) 128)

/-- Writes a vector register. -/
def Core.setV (x : Core) (i : Nat) (l : Lanes) : Core := { x with vregs := x.vregs.set i l }

/-- An accumulator (R260). -/
def Core.a (x : Core) (i : Nat) : Lanes :=
  match x.accs.find i with
  | some l => l
  | none => Lanes.ofNat 48 (x.lostBits (8 * dataBytes + 3072 + 384 * i) 384)

/-! ## Arithmetic (R263, R266) -/

/-- Clamps to ±32,767. -/
def clamp16 (v : Int) : Int := max (-32767) (min 32767 v)

/-- Clamps to the 48-bit range. -/
def clamp48 (v : Int) : Int := max (-(2 ^ 47)) (min (2 ^ 47 - 1) v)

/-- One operation on both components. -/
def Cplx.map (c : Cplx) (f : Int → Int) : Cplx := { re := f c.re, im := f c.im }

/-- Sum. -/
def Cplx.add (a b : Cplx) : Cplx := { re := a.re + b.re, im := a.im + b.im }

/-- Difference. -/
def Cplx.sub (a b : Cplx) : Cplx := { re := a.re - b.re, im := a.im - b.im }

/-- Product. -/
def Cplx.mul (a b : Cplx) : Cplx := { re := a.re * b.re - a.im * b.im, im := a.re * b.im + a.im * b.re }

/-- Conjugate. -/
def Cplx.conj (a : Cplx) : Cplx := { a with im := -a.im }

/-- |a|². -/
def Cplx.norm (a : Cplx) : Int := a.re * a.re + a.im * a.im

/-- Writes a vector register with saturation; a clamped component sets VSAT (R263). -/
def Core.setSat (x : Core) (i : Nat) (l : Lanes) : Core :=
  let c := l.map fun z => z.map clamp16
  ({ x with vSat := x.vSat || c != l } : Core).setV i c

/-- Writes an accumulator with its clamp; a clamped component sets ACC_SAT (R263). -/
def Core.setAcc (x : Core) (i : Nat) (l : Lanes) : Core :=
  let c := l.map fun z => z.map clamp48
  { x with accSat := x.accSat || c != l, accs := x.accs.set i c }

/-! ## Memory operands (R261, R262, R271) -/

/-- The trap of an access, if it has one: RANGE, MISALIGNED, WRITE_PROTECTED (R271). DESIGN CHOICE, log entry 46. -/
def Core.accessTrap (x : Core) (a size align : Nat) (store : Bool) : Option Nat :=
  if dataBytes < a + size then some 2
  else if a % align ≠ 0 then some 3
  else if store && (decide (a < x.k.init.length) || decide (paramBase < a + size)) then some 4
  else none

/-- Reverses the low `n` bits of `v`. -/
def bitReverse (n v : Nat) : Nat := ((List.range n).filter fun i => v.testBit i).foldl (fun r i => r + 2 ^ (n - 1 - i)) 0

/-- The address a generator gives, and the generator after its step (R262); where LEN is outside what the mode
allows, the spec states no result and the free word `f` stands for it. DESIGN CHOICE, log entry 37. -/
def AddrGen.step (g : AddrGen) (mode f : Nat) : Nat × AddrGen :=
  let w (i : Int) : Nat := unsign 32 i
  match mode with
  | 0 => (g.ptr, g)
  | 1 => (g.ptr, { g with ptr := w (g.ptr + signed 32 g.stride) })
  | 2 =>
    let p := if g.len = 0 then f
      else w (g.base + ((g.ptr : Int) - g.base + signed 32 g.stride) % (g.len : Int))
    (g.ptr, { g with ptr := p })
  | _ =>
    let n := Nat.log2 g.len
    if g.len = 2 ^ n ∧ 1 ≤ n ∧ n ≤ 16 then
      (w (g.base + bitReverse n g.ptr * signed 32 g.stride), { g with ptr := (g.ptr + 1) % g.len })
    else (f, { g with ptr := f })

/-- Steps generator `i`: the address and the core after it. -/
def Core.address (x : Core) (i mode f : Nat) : Nat × Core :=
  let r := (x.ags.get i {}).step mode f
  (r.1, { x with ags := x.ags.set i r.2 })

/-- Four lanes from 16 bytes. -/
def lanesOf (b : List Byte) : Lanes := Lanes.ofNat 16 (leNat b)

/-- One complex value from 4 bytes. -/
def cplxOf (b : List Byte) : Cplx := { re := s16 b 0, im := s16 b 2 }

/-- The 16 bytes of four lanes. -/
def Lanes.bytes (l : Lanes) : List Byte := pack (l.list.flatMap fun c => [(2, unsign 16 c.re), (2, unsign 16 c.im)])

/-- Loads `size` bytes through a generator, or traps. -/
def Core.load (x : Core) (i mode size align f : Nat) : Except Nat (List Byte × Core) :=
  let r := x.address i mode f
  match x.accessTrap r.1 size align false with
  | some k => .error k
  | none => .ok (x.bytes r.1 size, r.2)

/-- Stores bytes through a generator, or traps. -/
def Core.store (x : Core) (i mode align f : Nat) (b : List Byte) : Except Nat Core :=
  let r := x.address i mode f
  match x.accessTrap r.1 b.length align true with
  | some k => .error k
  | none => .ok (r.2.put r.1 b)

/-! ## Issue (R264, R271) -/

/-- What an instruction comes to. -/
inductive IsaOut where
  /-- It traps, with no effect. -/
  | trap (kind : Nat)
  /-- It stalls. -/
  | stall
  /-- It completes; the next instruction follows. -/
  | next (x : Core)
  /-- It completes; execution goes on at an index. -/
  | jump (x : Core) (pc : Nat)
  /-- The activation commits. -/
  | yield (x : Core)
  /-- The activation commits and the kernel stops. -/
  | halt (x : Core)

/-- The instruction word at an index; beyond the code the spec states none. DESIGN CHOICE, log entry 37. -/
def Core.word (x : Core) : Nat := x.k.code.getD x.pc (Config.freeBits 64 x.pc).toNat

/-- The class and OP are listed in R265. DESIGN CHOICE, log entry 46. -/
def isaListed (w : Nat) : Bool :=
  let op := bits w 59 54
  match bits w 63 60 with
  | 0 => decide (op ≤ 0x11)
  | 1 => decide (op ≤ 5)
  | 2 => decide (op ≤ 6)
  | 3 => decide (op ≤ 5)
  | 4 => decide (op ≤ 3)
  | 5 => decide (op ≤ 9)
  | _ => false

/-- Every reserved bit is zero (R264), and the move slot's MV is one that R264 lists. DESIGN CHOICE, log entry 46. -/
def isaReservedOk (w : Nat) : Bool :=
  let slot := bits w 14 0 == 0 && bits w 25 24 != 3
  match bits w 63 60 with
  | 0 => bits w 37 32 == 0
  | 1 => bits w 43 26 == 0 && slot
  | 5 => bits w 34 32 == 0
  | _ => slot

/-- The next index and the loops after the instruction at `pc` (R265 LOOP): the innermost loop that ends there
repeats, or is left. DESIGN CHOICE, log entry 47. -/
def loopNext (pc : Nat) : List LoopFrame → Nat × List LoopFrame
  | [] => (pc + 1, [])
  | l :: ls =>
    if l.last = pc then
      match l.more with
      | 0 => loopNext pc ls
      | n + 1 => (l.first, { l with more := n } :: ls)
    else (pc + 1, l :: ls)

/-- The core goes on to the next instruction. DESIGN CHOICE, log entry 47. -/
def Core.advance (x : Core) : Core :=
  let r := loopNext x.pc x.loops
  { x with pc := r.1 % 8192, loops := r.2 }

/-- Core `c` issues the instruction at its index, if that is class `cls`, OP `op`; a word that R265 does not
list traps as ILLEGAL whichever row issues it. -/
def State.issue (s : State) (c cls op : Nat) (body : Nat → Nat → Core → IsaOut) : State :=
  let x := s.core c
  let w := x.word
  if !(x.mode == .running || x.mode == .quiescing) then s
  else if !isaListed w then s.coreTrap c 1
  else if bits w 63 60 ≠ cls ∨ bits w 59 54 ≠ op then s
  else if !isaReservedOk w then s.coreTrap c 1
  else
    let s' := s.drawFree
    match body w (s.freeNat 128) { x with paused := false } with
    | .trap k => s'.coreTrap c k
    | .stall => s
    | .next y => s'.setCore c y.advance
    | .jump y pc => s'.setCore c { y with pc := pc % 8192 }
    | .yield y => (s'.setCore c y).coreYield c
    | .halt y => ((s'.setCore c y).coreCommit c).kernelEnd c 1 0

/-- An instruction row: it happens on a powered module. -/
def isa (t c cls op : Nat) (body : Nat → Nat → Core → IsaOut) (s : State) : Host.Outcome State Fault Refusal :=
  happens t (fun s => s.issue c cls op body) s

/-- The end of a computation that may trap. -/
def IsaOut.ofExcept : Except Nat Core → IsaOut
  | .error k => .trap k
  | .ok x => .next x

/-! ## Scalar class -/

/-- SD ← SA op B, where B is SB or IMM (R264, R265). DESIGN CHOICE, log entry 46. -/
def isaScalar (f : Nat → Nat → Nat → Nat) (w free : Nat) (x : Core) : IsaOut :=
  let b := if bits w 38 38 = 1 then bits w 31 0 else x.s (bits w 43 39)
  .next (x.setS (bits w 53 49) (f (x.s (bits w 48 44)) b free))

/-- A shift; for an amount of 32 or more the spec states no result. DESIGN CHOICE, log entry 37. -/
def shiftBy (f : Nat → Nat → Nat) (a b free : Nat) : Nat := if b < 32 then f a b else free

/-- ADD (R265). -/
def execIsaAdd (t core : Nat) (s : State) : Host.Outcome State Fault Refusal :=
  isa t core 0 0 (isaScalar (fun a b _ => a + b)) s

/-- SUB (R265). -/
def execIsaSub (t core : Nat) (s : State) : Host.Outcome State Fault Refusal :=
  isa t core 0 1 (isaScalar (fun a b _ => a + 2 ^ 32 - b)) s

/-- AND (R265). -/
def execIsaAnd (t core : Nat) (s : State) : Host.Outcome State Fault Refusal :=
  isa t core 0 2 (isaScalar (fun a b _ => a &&& b)) s

/-- OR (R265). -/
def execIsaOr (t core : Nat) (s : State) : Host.Outcome State Fault Refusal :=
  isa t core 0 3 (isaScalar (fun a b _ => a ||| b)) s

/-- XOR (R265). -/
def execIsaXor (t core : Nat) (s : State) : Host.Outcome State Fault Refusal :=
  isa t core 0 4 (isaScalar (fun a b _ => a ^^^ b)) s

/-- SHL (R265). -/
def execIsaShl (t core : Nat) (s : State) : Host.Outcome State Fault Refusal :=
  isa t core 0 5 (isaScalar (shiftBy fun a b => a * 2 ^ b)) s

/-- SHRA (R265). Arithmetic shift right. -/
def execIsaShra (t core : Nat) (s : State) : Host.Outcome State Fault Refusal :=
  isa t core 0 6 (isaScalar (shiftBy fun a b => unsign 32 (signed 32 a / (2 ^ b : Int)))) s

/-- SHRL (R265). -/
def execIsaShrl (t core : Nat) (s : State) : Host.Outcome State Fault Refusal :=
  isa t core 0 7 (isaScalar (shiftBy fun a b => a / 2 ^ b)) s

/-- MUL (R265). Low 32 bits of the product. -/
def execIsaMul (t core : Nat) (s : State) : Host.Outcome State Fault Refusal :=
  isa t core 0 8 (isaScalar (fun a b _ => a * b)) s

/-- MULH (R265). High 32 bits of the signed product. -/
def execIsaMulh (t core : Nat) (s : State) : Host.Outcome State Fault Refusal :=
  isa t core 0 9 (isaScalar (fun a b _ => unsign 32 (signed 32 a * signed 32 b / (2 ^ 32 : Int)))) s

/-- MIN (R265). The operands are signed, as in CMPLT. -/
def execIsaMin (t core : Nat) (s : State) : Host.Outcome State Fault Refusal :=
  isa t core 0 10 (isaScalar (fun a b _ => unsign 32 (min (signed 32 a) (signed 32 b)))) s

/-- MAX (R265). The operands are signed, as in CMPLT. -/
def execIsaMax (t core : Nat) (s : State) : Host.Outcome State Fault Refusal :=
  isa t core 0 11 (isaScalar (fun a b _ => unsign 32 (max (signed 32 a) (signed 32 b)))) s

/-- CMPEQ (R265). -/
def execIsaCmpeq (t core : Nat) (s : State) : Host.Outcome State Fault Refusal :=
  isa t core 0 12 (isaScalar (fun a b _ => bit (a == b))) s

/-- CMPLT (R265). -/
def execIsaCmplt (t core : Nat) (s : State) : Host.Outcome State Fault Refusal :=
  isa t core 0 13 (isaScalar (fun a b _ => bit (decide (signed 32 a < signed 32 b)))) s

/-- CMPLTU (R265). -/
def execIsaCmpltu (t core : Nat) (s : State) : Host.Outcome State Fault Refusal :=
  isa t core 0 14 (isaScalar (fun a b _ => bit (decide (a < b)))) s

/-- LI: SD ← IMM (R265). -/
def execIsaLi (t core : Nat) (s : State) : Host.Outcome State Fault Refusal :=
  isa t core 0 0x0F (fun w _ x => .next (x.setS (bits w 53 49) (bits w 31 0))) s

/-- Special register `i` (R260). -/
def Core.special (x : Core) (now i : Nat) : Nat :=
  match i with
  | 0 => x.cycles now
  | 1 => x.maxi.value
  | 2 => x.maxi.index
  | 3 => x.mini.value
  | 4 => x.mini.index
  | 5 => bit x.accSat + 2 * bit x.vSat
  | 6 => x.sr6
  | _ => x.sr7

/-- Writes special register `i`; a write of SR5 clears the sticky bits (R260, R263). -/
def Core.setSpecial (x : Core) (now i v : Nat) : Core :=
  match i with
  | 0 => { x with cycleBase := v, since := now }
  | 1 => { x with maxi := { x.maxi with value := v } }
  | 2 => { x with maxi := { x.maxi with index := v } }
  | 3 => { x with mini := { x.mini with value := v } }
  | 4 => { x with mini := { x.mini with index := v } }
  | 5 => { x with accSat := false, vSat := false }
  | 6 => { x with sr6 := v }
  | _ => { x with sr7 := v }

/-- MFS: SD ← SR[IMM] (R265); an IMM above 7 names no special register and traps. -/
def execIsaMfs (t core : Nat) (s : State) : Host.Outcome State Fault Refusal :=
  isa t core 0 0x10 (fun w _ x =>
    if 7 < bits w 31 0 then .trap 1 else .next (x.setS (bits w 53 49) (x.special (s.advance t).now (bits w 31 0)))) s

/-- MTS: SR[IMM] ← SA (R265). -/
def execIsaMts (t core : Nat) (s : State) : Host.Outcome State Fault Refusal :=
  isa t core 0 0x11 (fun w _ x =>
    if 7 < bits w 31 0 then .trap 1
    else .next (x.setSpecial (s.advance t).now (bits w 31 0) (x.s (bits w 48 44)))) s

/-! ## The move slot (R264) -/

/-- A vector load or store beside the main operation: `x` gave the operands, `y` is the core after the main
operation. A loaded register that the main operation also writes is undefined. -/
def moveSlot (w free : Nat) (x y : Core) (written : Option Nat) : Except Nat Core :=
  let vr := bits w 23 20
  match bits w 25 24 with
  | 1 =>
    let r := y.address (bits w 19 17) (bits w 16 15) (free % 2 ^ 32)
    match y.accessTrap r.1 16 16 false with
    | some k => .error k
    | none => .ok (r.2.setV vr (if written = some vr then Lanes.ofNat 16 free else lanesOf (x.bytes r.1 16)))
  | 2 => y.store (bits w 19 17) (bits w 16 15) 16 (free % 2 ^ 32) (x.v vr).bytes
  | _ => .ok y

/-! ## Memory class -/

/-- Runs a memory instruction: its own access, then the move slot. -/
def isaMemory (size align : Nat) (f : List Byte → Core → Core) (written : Nat → Option Nat) (w free : Nat) (x : Core) :
    IsaOut :=
  match x.load (bits w 48 46) (bits w 45 44) size align (free / 2 ^ 32 % 2 ^ 32) with
  | .error k => .trap k
  | .ok (b, y) => IsaOut.ofExcept (moveSlot w free x (f b y) (written w))

/-- Runs a storing memory instruction. -/
def isaStore (align : Nat) (b : Core → List Byte) (w free : Nat) (x : Core) : IsaOut :=
  match x.store (bits w 48 46) (bits w 45 44) align (free / 2 ^ 32 % 2 ^ 32) (b x) with
  | .error k => .trap k
  | .ok y => IsaOut.ofExcept (moveSlot w free x y none)

/-- LDS: a 4-byte load (R265). -/
def execIsaLds (t core : Nat) (s : State) : Host.Outcome State Fault Refusal :=
  isa t core 1 0 (fun w => isaMemory 4 4 (fun b y => y.setS (bits w 53 49) (leNat b)) (fun _ => none) w) s

/-- STS: a 4-byte store (R265). -/
def execIsaSts (t core : Nat) (s : State) : Host.Outcome State Fault Refusal :=
  isa t core 1 1 (fun w => isaStore 4 (fun x => leBytes 4 (x.s (bits w 53 49))) w) s

/-- LDV: a 16-byte load (R265). -/
def execIsaLdv (t core : Nat) (s : State) : Host.Outcome State Fault Refusal :=
  isa t core 1 2 (fun w =>
    isaMemory 16 16 (fun b y => y.setV (bits w 52 49) (lanesOf b)) (fun w => some (bits w 52 49)) w) s

/-- STV: a 16-byte store (R265). -/
def execIsaStv (t core : Nat) (s : State) : Host.Outcome State Fault Refusal :=
  isa t core 1 3 (fun w => isaStore 16 (fun x => (x.v (bits w 52 49)).bytes) w) s

/-- LDC: one complex value broadcast to the four lanes (R265). -/
def execIsaLdc (t core : Nat) (s : State) : Host.Outcome State Fault Refusal :=
  isa t core 1 4 (fun w =>
    isaMemory 4 4 (fun b y => y.setV (bits w 52 49) (Lanes.map {} fun _ => cplxOf b)) (fun w => some (bits w 52 49)) w) s

/-- STA: lane 0 of an accumulator, I then Q, each sign-extended to 64 bits (R265). -/
def execIsaSta (t core : Nat) (s : State) : Host.Outcome State Fault Refusal :=
  isa t core 1 5 (fun w => isaStore 16 (fun x =>
    let c := (x.a (bits w 50 49)).l0
    pack [(8, unsign 64 c.re), (8, unsign 64 c.im)]) w) s

/-! ## Vector, accumulator and reduce classes -/

/-- Operand B: VB, or 16 bytes through a generator when MB is 1 (R265). -/
def operandB (w free : Nat) (x : Core) : Except Nat (Lanes × Core) :=
  if bits w 40 40 = 0 then .ok (x.v (bits w 44 41), x)
  else
    match x.load (bits w 39 37) (bits w 36 35) 16 16 (free / 2 ^ 32 % 2 ^ 32) with
    | .error k => .error k
    | .ok (b, y) => .ok (lanesOf b, y)

/-- Runs an instruction with operand B: `f old b core` is the main operation on the core whose generator has
stepped. -/
def isaVector (f : Core → Lanes → Core → Core) (written : Nat → Option Nat) (w free : Nat) (x : Core) : IsaOut :=
  match operandB w free x with
  | .error k => .trap k
  | .ok (b, y) => IsaOut.ofExcept (moveSlot w free x (f x b y) (written w))

/-- The vector destination of a word. -/
def destV (w : Nat) : Option Nat := some (bits w 52 49)

/-- round(v / 2^15), convergent. -/
def round15 (v : Int) : Int := roundEvenInt v (2 ^ 15)

/-- CADD: saturating lanewise sum (R265). -/
def execIsaCadd (t core : Nat) (s : State) : Host.Outcome State Fault Refusal :=
  isa t core 2 0 (fun w => isaVector (fun x b y => y.setSat (bits w 52 49)
    (Lanes.zip Cplx.add (x.v (bits w 48 45)) b)) destV w) s

/-- CSUB: saturating lanewise difference (R265). -/
def execIsaCsub (t core : Nat) (s : State) : Host.Outcome State Fault Refusal :=
  isa t core 2 1 (fun w => isaVector (fun x b y => y.setSat (bits w 52 49)
    (Lanes.zip Cplx.sub (x.v (bits w 48 45)) b)) destV w) s

/-- CMUL: round(VA × B / 2^15), saturating (R265). -/
def execIsaCmul (t core : Nat) (s : State) : Host.Outcome State Fault Refusal :=
  isa t core 2 2 (fun w => isaVector (fun x b y => y.setSat (bits w 52 49)
    (Lanes.zip (fun p q => (p.mul q).map round15) (x.v (bits w 48 45)) b)) destV w) s

/-- CMULJ: round(VA × conj(B) / 2^15), saturating (R265). -/
def execIsaCmulj (t core : Nat) (s : State) : Host.Outcome State Fault Refusal :=
  isa t core 2 3 (fun w => isaVector (fun x b y => y.setSat (bits w 52 49)
    (Lanes.zip (fun p q => (p.mul q.conj).map round15) (x.v (bits w 48 45)) b)) destV w) s

/-- CONJ: the conjugate of B, saturating (R265). -/
def execIsaConj (t core : Nat) (s : State) : Host.Outcome State Fault Refusal :=
  isa t core 2 4 (fun w => isaVector (fun _ b y =>
    let r := b.map fun z => { z with im := clamp16 (-z.im) }
    ({ y with vSat := y.vSat || r != b.map Cplx.conj } : Core).setV (bits w 52 49) r) destV w) s

/-- VMOV: vD ← B (R265). -/
def execIsaVmov (t core : Nat) (s : State) : Host.Outcome State Fault Refusal :=
  isa t core 2 5 (fun w => isaVector (fun _ b y => y.setV (bits w 52 49) b) destV w) s

/-- VPOWR: I ← round(|B|² / 2^15), saturating; Q ← 0 (R265). -/
def execIsaVpowr (t core : Nat) (s : State) : Host.Outcome State Fault Refusal :=
  isa t core 2 6 (fun w => isaVector (fun _ b y =>
    y.setSat (bits w 52 49) (b.map fun z => { re := round15 z.norm, im := 0 })) destV w) s

/-- CMAC: four exact complex multiply-accumulates (R266). -/
def execIsaCmac (t core : Nat) (s : State) : Host.Outcome State Fault Refusal :=
  isa t core 3 0 (fun w => isaVector (fun x b y =>
    y.setAcc (bits w 50 49) (Lanes.zip Cplx.add (x.a (bits w 50 49)) (Lanes.zip Cplx.mul (x.v (bits w 48 45)) b)))
    (fun _ => none) w) s

/-- CMACJ: four exact conjugate multiply-accumulates (R266). -/
def execIsaCmacj (t core : Nat) (s : State) : Host.Outcome State Fault Refusal :=
  isa t core 3 1 (fun w => isaVector (fun x b y =>
    y.setAcc (bits w 50 49) (Lanes.zip Cplx.add (x.a (bits w 50 49))
      (Lanes.zip (fun p q => p.mul q.conj) (x.v (bits w 48 45)) b))) (fun _ => none) w) s

/-- TAPMV (R267): one FIR tap for four outputs, then the shift-in of one sample through the move slot. -/
def isaTapmv (w free : Nat) (x : Core) : IsaOut :=
  let va := bits w 48 45
  let d := bits w 50 49
  if bits w 25 24 ≠ 1 ∨ bits w 23 20 ≠ va then .trap 1
  else
    let h := if bits w 40 40 = 0 then Except.ok ((x.v (bits w 44 41)).l0, x)
      else match x.load (bits w 39 37) (bits w 36 35) 4 4 (free / 2 ^ 32 % 2 ^ 32) with
        | .error k => .error k
        | .ok (b, y) => .ok (cplxOf b, y)
    match h with
    | .error k => .trap k
    | .ok (h, y) =>
      match y.load (bits w 19 17) (bits w 16 15) 4 4 (free % 2 ^ 32) with
      | .error k => .trap k
      | .ok (b, z) =>
        let v := x.v va
        let acc := Lanes.zip Cplx.add (x.a d) (v.map fun p => p.mul h)
        .next ((z.setAcc d acc).setV va { l0 := cplxOf b, l1 := v.l0, l2 := v.l1, l3 := v.l2 })

/-- TAPMV (R267). -/
def execIsaTapmv (t core : Nat) (s : State) : Host.Outcome State Fault Refusal := isa t core 3 2 isaTapmv s

/-- Runs an instruction without operand B. -/
def isaUnary (f : Core → Core) (written : Option Nat) (w free : Nat) (x : Core) : IsaOut :=
  IsaOut.ofExcept (moveSlot w free x (f x) written)

/-- ACCZ: clears an accumulator (R265). -/
def execIsaAccz (t core : Nat) (s : State) : Host.Outcome State Fault Refusal :=
  isa t core 3 3 (fun w => isaUnary (fun x => { x with accs := x.accs.set (bits w 50 49) {} }) none w) s

/-- ACCR: vD ← saturate(round(aVA / 2^IMM6)); an IMM6 above 47 is not listed and traps (R265). -/
def execIsaAccr (t core : Nat) (s : State) : Host.Outcome State Fault Refusal :=
  isa t core 3 4 (fun w free x =>
    if 47 < bits w 31 26 then .trap 1
    else isaUnary (fun x => x.setSat (bits w 52 49)
      ((x.a (bits w 46 45)).map fun z => z.map fun v => roundEvenInt v (2 ^ bits w 31 26))) (destV w) w free x) s

/-- ACCS: the four lanes of aVA summed into lane 0 of aD (R265). -/
def execIsaAccs (t core : Nat) (s : State) : Host.Outcome State Fault Refusal :=
  isa t core 3 5 (fun w => isaUnary (fun x =>
    let l := x.a (bits w 46 45)
    x.setAcc (bits w 50 49) { l0 := (l.l0.add l.l1).add (l.l2.add l.l3) }) none w) s

/-- A candidate of a running maximum or minimum (R268); `better` is strict. -/
def RunKey.offer (r : RunKey) (empty : Bool) (better : Nat → Nat → Bool) (value index : Nat) : RunKey :=
  if empty || better value r.value then { r with value, index } else r

/-- The key of a lane: |x|² unsigned, or I signed as 32 bits (R268). -/
def runKey (mode : Nat) (z : Cplx) : Nat := if mode = 0 then z.norm.toNat else unsign 32 z.re

/-- Compares the four lanes of B in lane order and adds 4 to the count (R268). -/
def RunKey.scan (r : RunKey) (mode : Nat) (less : Bool) (l : Lanes) : RunKey :=
  let r := if mode / 4 = 1 then { r with count := 0 } else r
  let cmp (a b : Nat) : Bool :=
    let lt (p q : Nat) : Bool := if mode % 4 = 0 then decide (p < q) else decide (signed 32 p < signed 32 q)
    if less then lt a b else lt b a
  let r' := (List.zip (List.range 4) l.list).foldl (fun k e =>
    k.offer (r.count == 0 && e.1 == 0) cmp (runKey (mode % 4) e.2) ((r.count + e.1) % 2 ^ 32)) r
  { r' with count := (r.count + 4) % 2 ^ 32 }

/-- MAXI (R268). A MODE [1:0] above 1 is not listed and traps. -/
def execIsaMaxi (t core : Nat) (s : State) : Host.Outcome State Fault Refusal :=
  isa t core 4 0 (fun w free x =>
    if 1 < bits w 33 32 then .trap 1
    else isaVector (fun _ b y => { y with maxi := y.maxi.scan (bits w 34 32) false b }) (fun _ => none) w free x) s

/-- MINI (R268). -/
def execIsaMini (t core : Nat) (s : State) : Host.Outcome State Fault Refusal :=
  isa t core 4 1 (fun w free x =>
    if 1 < bits w 33 32 then .trap 1
    else isaVector (fun _ b y => { y with mini := y.mini.scan (bits w 34 32) true b }) (fun _ => none) w free x) s

/-- Redundant sign bits of a component of `n + 1` bits (R269). -/
def headroom (n : Nat) (v : Int) : Nat :=
  let m := if v < 0 then (-v - 1).toNat else v.toNat
  n - (if m = 0 then 0 else Nat.log2 m + 1)

/-- The smallest headroom over the eight components. -/
def Lanes.headroom (n : Nat) (l : Lanes) : Nat :=
  l.list.foldl (fun k z => min k (min (Sys2Proof.Machine.headroom n z.re) (Sys2Proof.Machine.headroom n z.im))) n

/-- EXPB (R269). -/
def execIsaExpb (t core : Nat) (s : State) : Host.Outcome State Fault Refusal :=
  isa t core 4 2 (fun w =>
    let put (h : Nat) (y : Core) : Core :=
      y.setS (bits w 53 49) (if bits w 32 32 = 1 then h else min (y.s (bits w 53 49)) h)
    if bits w 33 33 = 1 then isaUnary (fun x => put ((x.a (bits w 46 45)).headroom 47) x) none w
    else isaVector (fun _ b y => put (b.headroom 15) y) (fun _ => none) w) s

/-- SHFB (R269): each component shifted by s[VA], left with saturation or right with rounding. -/
def execIsaShfb (t core : Nat) (s : State) : Host.Outcome State Fault Refusal :=
  isa t core 4 3 (fun w => isaVector (fun x b y =>
    let n := max (-31) (min 31 (signed 32 (x.s (bits w 48 45))))
    y.setSat (bits w 52 49) (b.map fun z => z.map fun v =>
      if 0 ≤ n then v * 2 ^ n.toNat else roundEvenInt v (2 ^ (-n).toNat))) destV w) s

/-! ## Control class -/

/-- COND holds (R264). -/
def isaCond (cond a b : Nat) : Bool :=
  match cond with
  | 0 => true
  | 1 => a == b
  | 2 => a != b
  | 3 => decide (signed 32 a < signed 32 b)
  | 4 => decide (signed 32 b ≤ signed 32 a)
  | 5 => decide (a < b)
  | _ => decide (b ≤ a)

/-- BR: to TARGET when SA COND SB holds (R265); a COND above 6 is not listed and traps. -/
def execIsaBr (t core : Nat) (s : State) : Host.Outcome State Fault Refusal :=
  isa t core 5 0 (fun w _ x =>
    if 6 < bits w 43 40 then .trap 1
    else if isaCond (bits w 43 40) (x.s (bits w 53 49)) (x.s (bits w 48 44)) then .jump x (bits w 31 0)
    else .next x) s

/-- JMP (R265). -/
def execIsaJmp (t core : Nat) (s : State) : Host.Outcome State Fault Refusal :=
  isa t core 5 1 (fun w _ x => .jump x (bits w 31 0)) s

/-- LOOP: the instructions up to TARGET, SA times; with 0 the core goes on as after TARGET, so that an outer loop that
ends there still repeats; a fifth level of nesting traps (R265). DESIGN CHOICE, log entry 47. -/
def execIsaLoop (t core : Nat) (s : State) : Host.Outcome State Fault Refusal :=
  isa t core 5 2 (fun w _ x =>
    match x.s (bits w 53 49) with
    | 0 =>
      let r := loopNext (bits w 31 0) x.loops
      .jump { x with loops := r.2 } r.1
    | n + 1 =>
      if 4 ≤ x.loops.length then .trap 1
      else .jump { x with loops := { first := x.pc + 1, last := bits w 31 0, more := n } :: x.loops } (x.pc + 1)) s

/-- WAIT: stalls until each named port holds a block, then makes the oldest of each current (R272). -/
def execIsaWait (t core : Nat) (s : State) : Host.Outcome State Fault Refusal :=
  isa t core 5 3 (fun w _ x =>
    let named := maskBits 2 (bits w 1 0)
    if named.any fun p => (x.port p).slots.isEmpty then .stall
    else .next (named.foldl (fun (x : Core) p => { x with ports := x.ports.set p { x.port p with current := true } }) x)) s

/-- YIELD (R272). -/
def execIsaYield (t core : Nat) (s : State) : Host.Outcome State Fault Refusal :=
  isa t core 5 4 (fun _ _ x => .yield x) s

/-- Flags of the current blocks, joined (R274). -/
def Core.currentFlags (x : Core) : Nat :=
  [0, 1].foldl (fun f p =>
    let q := x.port p
    if q.current then f ||| (q.slots.head?.elim 0 InBlock.flags) else f) 0

/-- The header that the hardware completes (R274). -/
def Core.recordBytes (x : Core) (core : Nat) (b : List Byte) : List Byte :=
  b.take 16 ++ (if x.k.flagsOwn then (b.drop 16).take 4 else leBytes 4 x.currentFlags) ++
    leBytes 4 (x.records + x.staged.length) ++ leBytes 2 core ++ b.drop 26

/-- EMIT (R274). DESIGN CHOICE, log entry 47. -/
def execIsaEmit (t core : Nat) (s : State) : Host.Outcome State Fault Refusal :=
  isa t core 5 5 (fun w _ x =>
    let a := x.s (bits w 53 49)
    let n := x.k.record
    if n = 0 ∨ dataBytes < a + n ∨ 16384 < (x.staged.length + 1) * n then .trap 2
    else if a % 16 ≠ 0 then .trap 3
    else .next { x with staged := x.staged ++ [x.recordBytes core (x.bytes a n)] }) s

/-- MBOX (R275). -/
def execIsaMbox (t core : Nat) (s : State) : Host.Outcome State Fault Refusal :=
  isa t core 5 6 (fun w _ x =>
    let a := x.s (bits w 53 49)
    if dataBytes < a + 32 ∨ 4 ≤ x.messages.length then .trap 2
    else if a % 32 ≠ 0 then .trap 3
    else .next { x with messages := x.messages ++ [x.bytes a 32] }) s

/-- SETAG: agAG.FIELD ← SA (R265). -/
def execIsaSetag (t core : Nat) (s : State) : Host.Outcome State Fault Refusal :=
  isa t core 5 7 (fun w _ x =>
    let i := bits w 39 37
    let g := x.ags.get i {}
    let v := x.s (bits w 53 49)
    let g := match bits w 36 35 with
      | 0 => { g with base := v }
      | 1 => { g with len := v }
      | 2 => { g with stride := v }
      | _ => { g with ptr := v }
    .next { x with ags := x.ags.set i g }) s

/-- HALT: commits as YIELD does, then stops the kernel (R265). -/
def execIsaHalt (t core : Nat) (s : State) : Host.Outcome State Fault Refusal :=
  isa t core 5 8 (fun _ _ x => .halt x) s

/-- NOP (R265). -/
def execIsaNop (t core : Nat) (s : State) : Host.Outcome State Fault Refusal :=
  isa t core 5 9 (fun _ _ x => .next x) s

end Sys2Proof.Machine
end

