-- ==== Sys2Proof/Machine/Dispatch.lean ====
section
/-! DEFINITION. The one match from a command to its meaning, in the order of the opcode table. -/

namespace Sys2Proof.Machine

def exec (i : Instr) (s : State) : Host.Outcome State Fault Refusal :=
  match i with
  | .feedPresent t feedB => Sys2Proof.Machine.execFeedPresent t feedB s
  | .feedLost t feedB => Sys2Proof.Machine.execFeedLost t feedB s
  | .feedRestored t feedB => Sys2Proof.Machine.execFeedRestored t feedB s
  | .shutdownNLow t => Sys2Proof.Machine.execShutdownNLow t s
  | .shutdownNRise t => Sys2Proof.Machine.execShutdownNRise t s
  | .powerGood t => Sys2Proof.Machine.execPowerGood t s
  | .secureBoot t verified carrier => Sys2Proof.Machine.execSecureBoot t verified carrier s
  | .functionReady t readyBit values means mems stuck => Sys2Proof.Machine.execFunctionReady t readyBit values means mems stuck s
  | .readyTimeout t readyBit cls pool unit detail => Sys2Proof.Machine.execReadyTimeout t readyBit cls pool unit detail s
  | .perstNAssert t => Sys2Proof.Machine.execPerstNAssert t s
  | .perstNRelease t => Sys2Proof.Machine.execPerstNRelease t s
  | .hotReset t => Sys2Proof.Machine.execHotReset t s
  | .functionLevelReset t fn => Sys2Proof.Machine.execFunctionLevelReset t fn s
  | .functionD3hot t fn linkL2 => Sys2Proof.Machine.execFunctionD3hot t fn linkL2 s
  | .functionD0 t fn => Sys2Proof.Machine.execFunctionD0 t fn s
  | .standbyWake t bits => Sys2Proof.Machine.execStandbyWake t bits s
  | .linkL0Reached t width speed => Sys2Proof.Machine.execLinkL0Reached t width speed s
  | .pcieLaneFailure t lanes width => Sys2Proof.Machine.execPcieLaneFailure t lanes width s
  | .aliveToggle t => Sys2Proof.Machine.execAliveToggle t s
  | .thermalWarning t => Sys2Proof.Machine.execThermalWarning t s
  | .thermalThrottleStep t hot => Sys2Proof.Machine.execThermalThrottleStep t hot s
  | .thermalTrip t channel => Sys2Proof.Machine.execThermalTrip t channel s
  | .tapInstructionLoad t instruction => Sys2Proof.Machine.execTapInstructionLoad t instruction s
  | .tapTestLogicReset t => Sys2Proof.Machine.execTapTestLogicReset t s
  | .doorbellWrite t fn chan value hostBytes => Sys2Proof.Machine.execDoorbellWrite t fn chan value hostBytes s
  | .servicePairWake t pair => Sys2Proof.Machine.execServicePairWake t pair s
  | .commandTimeout t fn tag => Sys2Proof.Machine.execCommandTimeout t fn tag s
  | .chanStateClear t fn chan value full => Sys2Proof.Machine.execChanStateClear t fn chan value full s
  | .lockAliasRead t fn chan agent first width => Sys2Proof.Machine.execLockAliasRead t fn chan agent first width s
  | .lockAliasWrite t fn chan agent width => Sys2Proof.Machine.execLockAliasWrite t fn chan agent width s
  | .lockForcedRelease t fn chan value width => Sys2Proof.Machine.execLockForcedRelease t fn chan value width s
  | .timeLatchWrite t fn full => Sys2Proof.Machine.execTimeLatchWrite t fn full s
  | .ringConsWrite t fn completion ring value => Sys2Proof.Machine.execRingConsWrite t fn completion ring value s
  | .ringOverflowClear t fn ring value full => Sys2Proof.Machine.execRingOverflowClear t fn ring value full s
  | .ringCoalesceTimeout t fn completion ring => Sys2Proof.Machine.execRingCoalesceTimeout t fn completion ring s
  | .updateStrobeWrite t mask => Sys2Proof.Machine.execUpdateStrobeWrite t mask s
  | .strobeOccurrenceApply t group unit vecs => Sys2Proof.Machine.execStrobeOccurrenceApply t group unit vecs s
  | .keyUnlockWrite t fn value => Sys2Proof.Machine.execKeyUnlockWrite t fn value s
  | .fcwEnableWrite t value full => Sys2Proof.Machine.execFcwEnableWrite t value full s
  | .fcwStatusClear t value full => Sys2Proof.Machine.execFcwStatusClear t value full s
  | .fcwResyncWrite t mask full => Sys2Proof.Machine.execFcwResyncWrite t mask full s
  | .resyncComplete t => Sys2Proof.Machine.execResyncComplete t s
  | .registerWrite t fn offset bytes => Sys2Proof.Machine.execRegisterWrite t fn offset bytes s
  | .apertureRead t addr length => Sys2Proof.Machine.execApertureRead t addr length s
  | .apertureWrite t addr bytes => Sys2Proof.Machine.execApertureWrite t addr bytes s
  | .smbAlertStatusClear t value holds => Sys2Proof.Machine.execSmbAlertStatusClear t value holds s
  | .smbAlertResponse t => Sys2Proof.Machine.execSmbAlertResponse t s
  | .sysHello t fn tag => Sys2Proof.Machine.execSysHello t fn tag s
  | .sysQueryReady t fn tag => Sys2Proof.Machine.execSysQueryReady t fn tag s
  | .sysGetInfo t fn tag => Sys2Proof.Machine.execSysGetInfo t fn tag s
  | .sysSetEventRing t fn tag => Sys2Proof.Machine.execSysSetEventRing t fn tag s
  | .sysResetFunction t fn tag => Sys2Proof.Machine.execSysResetFunction t fn tag s
  | .sysNop t fn tag => Sys2Proof.Machine.execSysNop t fn tag s
  | .clockSetRef t fn tag => Sys2Proof.Machine.execClockSetRef t fn tag s
  | .clockGetStatus t fn tag freqOffset oscDiff => Sys2Proof.Machine.execClockGetStatus t fn tag freqOffset oscDiff s
  | .clockSetTime t fn tag => Sys2Proof.Machine.execClockSetTime t fn tag s
  | .clockSetOutput t fn tag => Sys2Proof.Machine.execClockSetOutput t fn tag s
  | .clockLoadRamp t fn tag => Sys2Proof.Machine.execClockLoadRamp t fn tag s
  | .clockStartRamp t fn tag crossingFault => Sys2Proof.Machine.execClockStartRamp t fn tag crossingFault s
  | .clockStopRamp t fn tag => Sys2Proof.Machine.execClockStopRamp t fn tag s
  | .clockSetVectorClock t fn tag => Sys2Proof.Machine.execClockSetVectorClock t fn tag s
  | .ocxoHardFault t osc => Sys2Proof.Machine.execOcxoHardFault t osc s
  | .ocxoSoftFault t farther => Sys2Proof.Machine.execOcxoSoftFault t farther s
  | .warmReached t ms => Sys2Proof.Machine.execWarmReached t ms s
  | .refInQualified t freq farther => Sys2Proof.Machine.execRefInQualified t freq farther s
  | .ppsInQualified t farther => Sys2Proof.Machine.execPpsInQualified t farther s
  | .refInLost t => Sys2Proof.Machine.execRefInLost t s
  | .ppsInLost t => Sys2Proof.Machine.execPpsInLost t s
  | .ppsEdge t stamp => Sys2Proof.Machine.execPpsEdge t stamp s
  | .ppsOutSecond t => Sys2Proof.Machine.execPpsOutSecond t s
  | .ppsOutPulseEnd t => Sys2Proof.Machine.execPpsOutPulseEnd t s
  | .synthBandSearchDone t source => Sys2Proof.Machine.execSynthBandSearchDone t source s
  | .synthLockDetected t source => Sys2Proof.Machine.execSynthLockDetected t source s
  | .synthLockLost t source => Sys2Proof.Machine.execSynthLockLost t source s
  | .synthReacquireTimeout t source => Sys2Proof.Machine.execSynthReacquireTimeout t source s
  | .sampleSynthFault t unit lostLock => Sys2Proof.Machine.execSampleSynthFault t unit lostLock s
  | .idleCoreLocked t gen => Sys2Proof.Machine.execIdleCoreLocked t gen s
  | .rampScheduledStart t gen => Sys2Proof.Machine.execRampScheduledStart t gen s
  | .rampUpdate t gen => Sys2Proof.Machine.execRampUpdate t gen s
  | .rampSegmentEnd t gen => Sys2Proof.Machine.execRampSegmentEnd t gen s
  | .rampProfileEnd t gen => Sys2Proof.Machine.execRampProfileEnd t gen s
  | .inputSetRange t fn tag => Sys2Proof.Machine.execInputSetRange t fn tag s
  | .inputGetStatus t fn tag temp => Sys2Proof.Machine.execInputGetStatus t fn tag temp s
  | .inputEnable t fn tag => Sys2Proof.Machine.execInputEnable t fn tag s
  | .inputDisable t fn tag => Sys2Proof.Machine.execInputDisable t fn tag s
  | .inputRangeSwitch t input => Sys2Proof.Machine.execInputRangeSwitch t input s
  | .rotationStep t input slice => Sys2Proof.Machine.execRotationStep t input slice s
  | .sliceHandoverComplete t input within => Sys2Proof.Machine.execSliceHandoverComplete t input within s
  | .sliceFailure t input slice faultTick => Sys2Proof.Machine.execSliceFailure t input slice faultTick s
  | .coldSpareReady t input => Sys2Proof.Machine.execColdSpareReady t input s
  | .inputOverdrive t input samples firstPositive flips protect => Sys2Proof.Machine.execInputOverdrive t input samples firstPositive flips protect s
  | .protectionRelease t input => Sys2Proof.Machine.execProtectionRelease t input s
  | .overrangeIntervalClose t input => Sys2Proof.Machine.execOverrangeIntervalClose t input s
  | .ddcConfigure t fn tag => Sys2Proof.Machine.execDdcConfigure t fn tag s
  | .ddcSetDelay t fn tag => Sys2Proof.Machine.execDdcSetDelay t fn tag s
  | .ddcEnable t fn tag => Sys2Proof.Machine.execDdcEnable t fn tag s
  | .ddcDisable t fn tag => Sys2Proof.Machine.execDdcDisable t fn tag s
  | .ddcGetStatus t fn tag codes => Sys2Proof.Machine.execDdcGetStatus t fn tag codes s
  | .ddcScheduledChange t ddc => Sys2Proof.Machine.execDdcScheduledChange t ddc s
  | .ddcDatapathFault t input unit => Sys2Proof.Machine.execDdcDatapathFault t input unit s
  | .pressConfigure t fn tag => Sys2Proof.Machine.execPressConfigure t fn tag s
  | .pressLoadWindow t fn tag table => Sys2Proof.Machine.execPressLoadWindow t fn tag table s
  | .pressLoadPfb t fn tag table => Sys2Proof.Machine.execPressLoadPfb t fn tag table s
  | .pressMapChannels t fn tag => Sys2Proof.Machine.execPressMapChannels t fn tag s
  | .pressEnable t fn tag => Sys2Proof.Machine.execPressEnable t fn tag s
  | .pressDisable t fn tag => Sys2Proof.Machine.execPressDisable t fn tag s
  | .pressFrameRelease t job ovrSeen unsettled exponent codes => Sys2Proof.Machine.execPressFrameRelease t job ovrSeen unsettled exponent codes s
  | .pressPipelineFault t unit => Sys2Proof.Machine.execPressPipelineFault t unit s
  | .specConfigureDetector t fn tag => Sys2Proof.Machine.execSpecConfigureDetector t fn tag s
  | .specConfigureDensity t fn tag => Sys2Proof.Machine.execSpecConfigureDensity t fn tag s
  | .specClearDensity t fn tag => Sys2Proof.Machine.execSpecClearDensity t fn tag s
  | .specReadTrace t fn tag => Sys2Proof.Machine.execSpecReadTrace t fn tag s
  | .specPeakSearch t fn tag => Sys2Proof.Machine.execSpecPeakSearch t fn tag s
  | .specEnable t fn tag => Sys2Proof.Machine.execSpecEnable t fn tag s
  | .specDisable t fn tag => Sys2Proof.Machine.execSpecDisable t fn tag s
  | .spectrumAccept t job powers => Sys2Proof.Machine.execSpectrumAccept t job powers s
  | .integrationEnd t trace => Sys2Proof.Machine.execIntegrationEnd t trace s
  | .decayBoundary t plane => Sys2Proof.Machine.execDecayBoundary t plane s
  | .densityClearApply t plane => Sys2Proof.Machine.execDensityClearApply t plane s
  | .trigConfigure t fn tag => Sys2Proof.Machine.execTrigConfigure t fn tag s
  | .trigLoadMask t fn tag table => Sys2Proof.Machine.execTrigLoadMask t fn tag table s
  | .trigRoute t fn tag => Sys2Proof.Machine.execTrigRoute t fn tag s
  | .trigArm t fn tag => Sys2Proof.Machine.execTrigArm t fn tag s
  | .trigDisarm t fn tag => Sys2Proof.Machine.execTrigDisarm t fn tag s
  | .trigForce t fn tag => Sys2Proof.Machine.execTrigForce t fn tag s
  | .trigGetStatus t fn tag => Sys2Proof.Machine.execTrigGetStatus t fn tag s
  | .trigScheduledArm t unit => Sys2Proof.Machine.execTrigScheduledArm t unit s
  | .triggerDecision t unit samples powers => Sys2Proof.Machine.execTriggerDecision t unit samples powers s
  | .forcedDecision t unit => Sys2Proof.Machine.execForcedDecision t unit s
  | .sorrelForceMessage t core => Sys2Proof.Machine.execSorrelForceMessage t core s
  | .unitRearm t unit => Sys2Proof.Machine.execUnitRearm t unit s
  | .holdoffEnd t unit => Sys2Proof.Machine.execHoldoffEnd t unit s
  | .sequencePendingExpiry t unit => Sys2Proof.Machine.execSequencePendingExpiry t unit s
  | .trigInEdge t rising => Sys2Proof.Machine.execTrigInEdge t rising s
  | .trigOutPulseEnd t => Sys2Proof.Machine.execTrigOutPulseEnd t s
  | .voterDisagreement t voter => Sys2Proof.Machine.execVoterDisagreement t voter s
  | .triggerEventIntervalClose t unit => Sys2Proof.Machine.execTriggerEventIntervalClose t unit s
  | .acqCreateContext t fn tag => Sys2Proof.Machine.execAcqCreateContext t fn tag s
  | .acqArm t fn tag => Sys2Proof.Machine.execAcqArm t fn tag s
  | .acqStop t fn tag => Sys2Proof.Machine.execAcqStop t fn tag s
  | .acqDestroy t fn tag => Sys2Proof.Machine.execAcqDestroy t fn tag s
  | .acqLoadTestMask t fn tag table => Sys2Proof.Machine.execAcqLoadTestMask t fn tag table s
  | .acqGetStatus t fn tag => Sys2Proof.Machine.execAcqGetStatus t fn tag s
  | .acqScheduledArm t context => Sys2Proof.Machine.execAcqScheduledArm t context s
  | .ringFilled t context => Sys2Proof.Machine.execRingFilled t context s
  | .segmentTrigger t context => Sys2Proof.Machine.execSegmentTrigger t context s
  | .segmentEnd t context count first endTick settled flags codes => Sys2Proof.Machine.execSegmentEnd t context count first endTick settled flags codes s
  | .contextRearm t context => Sys2Proof.Machine.execContextRearm t context s
  | .gapBegin t context cause element start ticks count => Sys2Proof.Machine.execGapBegin t context cause element start ticks count s
  | .stagingDrainTimeout t context element start ticks count => Sys2Proof.Machine.execStagingDrainTimeout t context element start ticks count s
  | .segmentEventIntervalClose t context => Sys2Proof.Machine.execSegmentEventIntervalClose t context s
  | .gapEventIntervalClose t context => Sys2Proof.Machine.execGapEventIntervalClose t context s
  | .contextStateRebuild t context => Sys2Proof.Machine.execContextStateRebuild t context s
  | .sorrelLoadKernel t fn tag image => Sys2Proof.Machine.execSorrelLoadKernel t fn tag image s
  | .sorrelStart t fn tag => Sys2Proof.Machine.execSorrelStart t fn tag s
  | .sorrelStop t fn tag => Sys2Proof.Machine.execSorrelStop t fn tag s
  | .sorrelBind t fn tag => Sys2Proof.Machine.execSorrelBind t fn tag s
  | .sorrelGetStatus t fn tag => Sys2Proof.Machine.execSorrelGetStatus t fn tag s
  | .sorrelScheduledStart t core => Sys2Proof.Machine.execSorrelScheduledStart t core s
  | .inputBlockArrival t core port index mapped ovr unsettled settled codes => Sys2Proof.Machine.execInputBlockArrival t core port index mapped ovr unsettled settled codes s
  | .coreFault t core quad => Sys2Proof.Machine.execCoreFault t core quad s
  | .activationCreditExhausted t core => Sys2Proof.Machine.execActivationCreditExhausted t core s
  | .isaAdd t core => Sys2Proof.Machine.execIsaAdd t core s
  | .isaSub t core => Sys2Proof.Machine.execIsaSub t core s
  | .isaAnd t core => Sys2Proof.Machine.execIsaAnd t core s
  | .isaOr t core => Sys2Proof.Machine.execIsaOr t core s
  | .isaXor t core => Sys2Proof.Machine.execIsaXor t core s
  | .isaShl t core => Sys2Proof.Machine.execIsaShl t core s
  | .isaShra t core => Sys2Proof.Machine.execIsaShra t core s
  | .isaShrl t core => Sys2Proof.Machine.execIsaShrl t core s
  | .isaMul t core => Sys2Proof.Machine.execIsaMul t core s
  | .isaMulh t core => Sys2Proof.Machine.execIsaMulh t core s
  | .isaMin t core => Sys2Proof.Machine.execIsaMin t core s
  | .isaMax t core => Sys2Proof.Machine.execIsaMax t core s
  | .isaCmpeq t core => Sys2Proof.Machine.execIsaCmpeq t core s
  | .isaCmplt t core => Sys2Proof.Machine.execIsaCmplt t core s
  | .isaCmpltu t core => Sys2Proof.Machine.execIsaCmpltu t core s
  | .isaLi t core => Sys2Proof.Machine.execIsaLi t core s
  | .isaMfs t core => Sys2Proof.Machine.execIsaMfs t core s
  | .isaMts t core => Sys2Proof.Machine.execIsaMts t core s
  | .isaLds t core => Sys2Proof.Machine.execIsaLds t core s
  | .isaSts t core => Sys2Proof.Machine.execIsaSts t core s
  | .isaLdv t core => Sys2Proof.Machine.execIsaLdv t core s
  | .isaStv t core => Sys2Proof.Machine.execIsaStv t core s
  | .isaLdc t core => Sys2Proof.Machine.execIsaLdc t core s
  | .isaSta t core => Sys2Proof.Machine.execIsaSta t core s
  | .isaCadd t core => Sys2Proof.Machine.execIsaCadd t core s
  | .isaCsub t core => Sys2Proof.Machine.execIsaCsub t core s
  | .isaCmul t core => Sys2Proof.Machine.execIsaCmul t core s
  | .isaCmulj t core => Sys2Proof.Machine.execIsaCmulj t core s
  | .isaConj t core => Sys2Proof.Machine.execIsaConj t core s
  | .isaVmov t core => Sys2Proof.Machine.execIsaVmov t core s
  | .isaVpowr t core => Sys2Proof.Machine.execIsaVpowr t core s
  | .isaCmac t core => Sys2Proof.Machine.execIsaCmac t core s
  | .isaCmacj t core => Sys2Proof.Machine.execIsaCmacj t core s
  | .isaTapmv t core => Sys2Proof.Machine.execIsaTapmv t core s
  | .isaAccz t core => Sys2Proof.Machine.execIsaAccz t core s
  | .isaAccr t core => Sys2Proof.Machine.execIsaAccr t core s
  | .isaAccs t core => Sys2Proof.Machine.execIsaAccs t core s
  | .isaMaxi t core => Sys2Proof.Machine.execIsaMaxi t core s
  | .isaMini t core => Sys2Proof.Machine.execIsaMini t core s
  | .isaExpb t core => Sys2Proof.Machine.execIsaExpb t core s
  | .isaShfb t core => Sys2Proof.Machine.execIsaShfb t core s
  | .isaBr t core => Sys2Proof.Machine.execIsaBr t core s
  | .isaJmp t core => Sys2Proof.Machine.execIsaJmp t core s
  | .isaLoop t core => Sys2Proof.Machine.execIsaLoop t core s
  | .isaWait t core => Sys2Proof.Machine.execIsaWait t core s
  | .isaYield t core => Sys2Proof.Machine.execIsaYield t core s
  | .isaEmit t core => Sys2Proof.Machine.execIsaEmit t core s
  | .isaMbox t core => Sys2Proof.Machine.execIsaMbox t core s
  | .isaSetag t core => Sys2Proof.Machine.execIsaSetag t core s
  | .isaHalt t core => Sys2Proof.Machine.execIsaHalt t core s
  | .isaNop t core => Sys2Proof.Machine.execIsaNop t core s
  | .patDefineSegment t fn tag => Sys2Proof.Machine.execPatDefineSegment t fn tag s
  | .patWriteSegment t fn tag table => Sys2Proof.Machine.execPatWriteSegment t fn tag table s
  | .patLoadTable t fn tag => Sys2Proof.Machine.execPatLoadTable t fn tag s
  | .patDefineSite t fn tag => Sys2Proof.Machine.execPatDefineSite t fn tag s
  | .patStart t fn tag => Sys2Proof.Machine.execPatStart t fn tag s
  | .patStop t fn tag vecs => Sys2Proof.Machine.execPatStop t fn tag vecs s
  | .patRequestJump t fn tag vecs => Sys2Proof.Machine.execPatRequestJump t fn tag vecs s
  | .patGetResult t fn tag index => Sys2Proof.Machine.execPatGetResult t fn tag index s
  | .patLoadTimesets t fn tag table => Sys2Proof.Machine.execPatLoadTimesets t fn tag table s
  | .patScheduledStart t site vcount => Sys2Proof.Machine.execPatScheduledStart t site vcount s
  | .decisionPoint t site => Sys2Proof.Machine.execDecisionPoint t site s
  | .segmentBoundary t site last => Sys2Proof.Machine.execSegmentBoundary t site last s
  | .triggerJumpArrival t site index => Sys2Proof.Machine.execTriggerJumpArrival t site index s
  | .siteEventArrival t site launch => Sys2Proof.Machine.execSiteEventArrival t site launch s
  | .refillLate t site index device => Sys2Proof.Machine.execRefillLate t site index device s
  | .sitePark t site index => Sys2Proof.Machine.execSitePark t site index s
  | .trellisDiscover t fn tag => Sys2Proof.Machine.execTrellisDiscover t fn tag s
  | .trellisGetStatus t fn tag => Sys2Proof.Machine.execTrellisGetStatus t fn tag s
  | .trellisConfigureCapture t fn tag => Sys2Proof.Machine.execTrellisConfigureCapture t fn tag s
  | .trellisDeskew t fn tag means => Sys2Proof.Machine.execTrellisDeskew t fn tag means s
  | .upstreamCodeword t lane levels errors corrected discarded => Sys2Proof.Machine.execUpstreamCodeword t lane levels errors corrected discarded s
  | .idleFrame t lane frame => Sys2Proof.Machine.execIdleFrame t lane frame s
  | .identFrame t lane frame => Sys2Proof.Machine.execIdentFrame t lane frame s
  | .progressFrame t lane frame => Sys2Proof.Machine.execProgressFrame t lane frame s
  | .failFrame t lane frame => Sys2Proof.Machine.execFailFrame t lane frame s
  | .captureFrame t lane frame => Sys2Proof.Machine.execCaptureFrame t lane frame s
  | .matchFrame t lane frame => Sys2Proof.Machine.execMatchFrame t lane frame s
  | .receiptFrame t lane frame vecs => Sys2Proof.Machine.execReceiptFrame t lane frame vecs s
  | .eventFrame t lane frame index => Sys2Proof.Machine.execEventFrame t lane frame index s
  | .countersFrame t lane frame => Sys2Proof.Machine.execCountersFrame t lane frame s
  | .loopReplyFrame t lane frame rtt => Sys2Proof.Machine.execLoopReplyFrame t lane frame rtt s
  | .faultFrame t lane frame => Sys2Proof.Machine.execFaultFrame t lane frame s
  | .reliableResendTimeout t device => Sys2Proof.Machine.execReliableResendTimeout t device s
  | .laneDown t lane upstream => Sys2Proof.Machine.execLaneDown t lane upstream s
  | .deviceLost t device => Sys2Proof.Machine.execDeviceLost t device s
  | .sidePortFailure t pair => Sys2Proof.Machine.execSidePortFailure t pair s
  | .stimDefineSegment t fn tag => Sys2Proof.Machine.execStimDefineSegment t fn tag s
  | .stimWriteSegment t fn tag table => Sys2Proof.Machine.execStimWriteSegment t fn tag table s
  | .stimLoadTable t fn tag => Sys2Proof.Machine.execStimLoadTable t fn tag s
  | .stimStart t fn tag => Sys2Proof.Machine.execStimStart t fn tag s
  | .stimStop t fn tag => Sys2Proof.Machine.execStimStop t fn tag s
  | .stimRequestJump t fn tag => Sys2Proof.Machine.execStimRequestJump t fn tag s
  | .stimScheduledStart t output => Sys2Proof.Machine.execStimScheduledStart t output s
  | .stimDecisionPoint t output => Sys2Proof.Machine.execStimDecisionPoint t output s
  | .stimBoundary t output => Sys2Proof.Machine.execStimBoundary t output s
  | .stimTriggerJumpArrival t output => Sys2Proof.Machine.execStimTriggerJumpArrival t output s
  | .stimRefillLate t output => Sys2Proof.Machine.execStimRefillLate t output s
  | .stimPark t output => Sys2Proof.Machine.execStimPark t output s
  | .vineConfigure t fn tag => Sys2Proof.Machine.execVineConfigure t fn tag s
  | .vineCalibrateSkew t fn tag => Sys2Proof.Machine.execVineCalibrateSkew t fn tag s
  | .vineGetStatus t fn tag => Sys2Proof.Machine.execVineGetStatus t fn tag s
  | .vineScheduleSync t fn tag => Sys2Proof.Machine.execVineScheduleSync t fn tag s
  | .epochEdge t => Sys2Proof.Machine.execEpochEdge t s
  | .epochFrameReceived t number crc arrival => Sys2Proof.Machine.execEpochFrameReceived t number crc arrival s
  | .vineEventFrameReceived t payload crc => Sys2Proof.Machine.execVineEventFrameReceived t payload crc s
  | .delayFrameReceived t delay crc => Sys2Proof.Machine.execDelayFrameReceived t delay crc s
  | .vineEventSend t => Sys2Proof.Machine.execVineEventSend t s
  | .echoPulseSend t stamp => Sys2Proof.Machine.execEchoPulseSend t stamp s
  | .echoPulseReturn t stamp => Sys2Proof.Machine.execEchoPulseReturn t stamp s
  | .vineNeighbourLost t cause => Sys2Proof.Machine.execVineNeighbourLost t cause s
  | .vineSignalsReturn t phase => Sys2Proof.Machine.execVineSignalsReturn t phase s
  | .tiuConfigureChannel t fn tag => Sys2Proof.Machine.execTiuConfigureChannel t fn tag s
  | .tiuStart t fn tag => Sys2Proof.Machine.execTiuStart t fn tag s
  | .tiuStop t fn tag => Sys2Proof.Machine.execTiuStop t fn tag s
  | .tiuReadStats t fn tag => Sys2Proof.Machine.execTiuReadStats t fn tag s
  | .tiuGetStatus t fn tag highMv lowMv rate => Sys2Proof.Machine.execTiuGetStatus t fn tag highMv lowMv rate s
  | .tiuScheduledStart t channel => Sys2Proof.Machine.execTiuScheduledStart t channel s
  | .tiuEdge t channel levels fraction unsettled => Sys2Proof.Machine.execTiuEdge t channel levels fraction unsettled s
  | .interpolatorRotationStep t group => Sys2Proof.Machine.execInterpolatorRotationStep t group s
  | .interpolatorFailure t group unit => Sys2Proof.Machine.execInterpolatorFailure t group unit s
  | .statsBlockComplete t channel => Sys2Proof.Machine.execStatsBlockComplete t channel s
  | .tiuStatsIntervalClose t channel => Sys2Proof.Machine.execTiuStatsIntervalClose t channel s
  | .monConfigureComparator t fn tag => Sys2Proof.Machine.execMonConfigureComparator t fn tag s
  | .monLoadSequence t fn tag => Sys2Proof.Machine.execMonLoadSequence t fn tag s
  | .monStartSequence t fn tag => Sys2Proof.Machine.execMonStartSequence t fn tag s
  | .monStopSequence t fn tag => Sys2Proof.Machine.execMonStopSequence t fn tag s
  | .monRead t fn tag => Sys2Proof.Machine.execMonRead t fn tag s
  | .monSetReference t fn tag => Sys2Proof.Machine.execMonSetReference t fn tag s
  | .monScheduledStart t => Sys2Proof.Machine.execMonScheduledStart t s
  | .comparatorChange t comp input stamp => Sys2Proof.Machine.execComparatorChange t comp input stamp s
  | .m3Tick t comp input stamp => Sys2Proof.Machine.execM3Tick t comp input stamp s
  | .comparatorThresholdApply t comp readback => Sys2Proof.Machine.execComparatorThresholdApply t comp readback s
  | .blankingWindowClose t comp => Sys2Proof.Machine.execBlankingWindowClose t comp s
  | .comparatorEventIntervalClose t comp => Sys2Proof.Machine.execComparatorEventIntervalClose t comp s
  | .wakeRequest t => Sys2Proof.Machine.execWakeRequest t s
  | .conversionComplete t code outside => Sys2Proof.Machine.execConversionComplete t code outside s
  | .entryDelayExpiry t => Sys2Proof.Machine.execEntryDelayExpiry t s
  | .housekeepingConversion t => Sys2Proof.Machine.execHousekeepingConversion t s
  | .recoveryConversion t => Sys2Proof.Machine.execRecoveryConversion t s
  | .referenceSettled t => Sys2Proof.Machine.execReferenceSettled t s
  | .cellarAllocate t fn tag => Sys2Proof.Machine.execCellarAllocate t fn tag s
  | .cellarFree t fn tag => Sys2Proof.Machine.execCellarFree t fn tag s
  | .cellarGetStatus t fn tag temps => Sys2Proof.Machine.execCellarGetStatus t fn tag temps s
  | .cellarSetOperatingPoint t fn tag => Sys2Proof.Machine.execCellarSetOperatingPoint t fn tag s
  | .regionZeroComplete t base => Sys2Proof.Machine.execRegionZeroComplete t base s
  | .cellarRequest t port addr size write data serve activates => Sys2Proof.Machine.execCellarRequest t port addr size write data serve activates s
  | .urgencyLevelRise t => Sys2Proof.Machine.execUrgencyLevelRise t s
  | .writeBufferMergeTimeout t stripe => Sys2Proof.Machine.execWriteBufferMergeTimeout t stripe s
  | .patrolScrub t corrected rebuilt => Sys2Proof.Machine.execPatrolScrub t corrected rebuilt s
  | .refreshWindowStart t => Sys2Proof.Machine.execRefreshWindowStart t s
  | .rowHammerThreshold t stack bank => Sys2Proof.Machine.execRowHammerThreshold t stack bank s
  | .retrainPauseStart t channel => Sys2Proof.Machine.execRetrainPauseStart t channel s
  | .retrainPauseEnd t channel trained fill => Sys2Proof.Machine.execRetrainPauseEnd t channel trained fill s
  | .pseudoChannelFailure t stack pc => Sys2Proof.Machine.execPseudoChannelFailure t stack pc s
  | .stackFailure t stack => Sys2Proof.Machine.execStackFailure t stack s
  | .rebuildComplete t stack => Sys2Proof.Machine.execRebuildComplete t stack s
  | .stackOpPointServing t stack => Sys2Proof.Machine.execStackOpPointServing t stack s
  | .stackBufferDrained t stack fill => Sys2Proof.Machine.execStackBufferDrained t stack fill s
  | .flowCreate t fn tag => Sys2Proof.Machine.execFlowCreate t fn tag s
  | .flowEnable t fn tag => Sys2Proof.Machine.execFlowEnable t fn tag s
  | .flowDisable t fn tag => Sys2Proof.Machine.execFlowDisable t fn tag s
  | .flowDestroy t fn tag => Sys2Proof.Machine.execFlowDestroy t fn tag s
  | .flowPostDescriptors t fn tag => Sys2Proof.Machine.execFlowPostDescriptors t fn tag s
  | .flowGetStatus t fn tag => Sys2Proof.Machine.execFlowGetStatus t fn tag s
  | .descriptorFetched t flow bytes index => Sys2Proof.Machine.execDescriptorFetched t flow bytes index s
  | .producerUnitArrival t flow => Sys2Proof.Machine.execProducerUnitArrival t flow s
  | .burstAdmission t => Sys2Proof.Machine.execBurstAdmission t s
  | .burstCompletion t flow offset data => Sys2Proof.Machine.execBurstCompletion t flow offset data s
  | .burstError t flow offset => Sys2Proof.Machine.execBurstError t flow offset s
  | .hostReadTimeout t flow => Sys2Proof.Machine.execHostReadTimeout t flow s
  | .streamConfigurePort t fn tag => Sys2Proof.Machine.execStreamConfigurePort t fn tag s
  | .streamBindFlow t fn tag => Sys2Proof.Machine.execStreamBindFlow t fn tag s
  | .streamGetStatus t fn tag => Sys2Proof.Machine.execStreamGetStatus t fn tag s
  | .portLinkUp t port => Sys2Proof.Machine.execPortLinkUp t port s
  | .packetFlushTimeout t flow => Sys2Proof.Machine.execPacketFlushTimeout t flow s
  | .packetTransmit t port flow => Sys2Proof.Machine.execPacketTransmit t port flow s
  | .heartbeatTimer t port => Sys2Proof.Machine.execHeartbeatTimer t port s
  | .portFailure t port cause => Sys2Proof.Machine.execPortFailure t port cause s
  | .arpRequestReceived t port senderMac senderIp target => Sys2Proof.Machine.execArpRequestReceived t port senderMac senderIp target s
  | .neighbourSolicitationReceived t port senderMac senderIp target => Sys2Proof.Machine.execNeighbourSolicitationReceived t port senderMac senderIp target s
  | .pauseFrameReceived t port => Sys2Proof.Machine.execPauseFrameReceived t port s
  | .otherFrameReceived t port => Sys2Proof.Machine.execOtherFrameReceived t port s
  | .dispSetTiming t fn tag => Sys2Proof.Machine.execDispSetTiming t fn tag s
  | .dispSetGenlock t fn tag => Sys2Proof.Machine.execDispSetGenlock t fn tag s
  | .dispConfigureLayer t fn tag image => Sys2Proof.Machine.execDispConfigureLayer t fn tag image s
  | .dispSetPalette t fn tag => Sys2Proof.Machine.execDispSetPalette t fn tag s
  | .dispEnable t fn tag pixelHz edid => Sys2Proof.Machine.execDispEnable t fn tag pixelHz edid s
  | .dispDisable t fn tag => Sys2Proof.Machine.execDispDisable t fn tag s
  | .latchLine t => Sys2Proof.Machine.execLatchLine t s
  | .matchLineReached t => Sys2Proof.Machine.execMatchLineReached t s
  | .frameEnd t => Sys2Proof.Machine.execFrameEnd t s
  | .lineUnderrun t line => Sys2Proof.Machine.execLineUnderrun t line s
  | .overlayFetchFault t line => Sys2Proof.Machine.execOverlayFetchFault t line s
  | .genlockEdge t locked => Sys2Proof.Machine.execGenlockEdge t locked s
  | .genlockLost t => Sys2Proof.Machine.execGenlockLost t s
  | .hpdUnplug t => Sys2Proof.Machine.execHpdUnplug t s
  | .hpdReturn t => Sys2Proof.Machine.execHpdReturn t s
  | .scanoutMismatch t copy => Sys2Proof.Machine.execScanoutMismatch t copy s
  | .budgetSetPowerCap t fn tag => Sys2Proof.Machine.execBudgetSetPowerCap t fn tag s
  | .budgetGrant t fn tag => Sys2Proof.Machine.execBudgetGrant t fn tag s
  | .budgetRevoke t fn tag => Sys2Proof.Machine.execBudgetRevoke t fn tag s
  | .budgetReadLedger t fn tag => Sys2Proof.Machine.execBudgetReadLedger t fn tag s
  | .budgetGetCapacity t fn tag => Sys2Proof.Machine.execBudgetGetCapacity t fn tag s
  | .budgetPeriodBoundary t => Sys2Proof.Machine.execBudgetPeriodBoundary t s
  | .ageingInterval t flow => Sys2Proof.Machine.execAgeingInterval t flow s
  | .latencyTargetReached t kind object resource => Sys2Proof.Machine.execLatencyTargetReached t kind object resource s
  | .urgentIntervalClose t kind object => Sys2Proof.Machine.execUrgentIntervalClose t kind object s
  | .ledgerUpdate t power total energies => Sys2Proof.Machine.execLedgerUpdate t power total energies s
  | .throttleStageAdvance t => Sys2Proof.Machine.execThrottleStageAdvance t s
  | .throttleStageRelease t => Sys2Proof.Machine.execThrottleStageRelease t s
  | .faultReadLog t fn tag => Sys2Proof.Machine.execFaultReadLog t fn tag s
  | .faultGetHealth t fn tag => Sys2Proof.Machine.execFaultGetHealth t fn tag s
  | .faultInject t fn tag => Sys2Proof.Machine.execFaultInject t fn tag s
  | .faultClearLog t fn tag => Sys2Proof.Machine.execFaultClearLog t fn tag s
  | .injectedUnitRestore t cls pool unit passed => Sys2Proof.Machine.execInjectedUnitRestore t cls pool unit passed s
  | .stewardPairHalt t pair => Sys2Proof.Machine.execStewardPairHalt t pair s
  | .stewardTakeoverComplete t => Sys2Proof.Machine.execStewardTakeoverComplete t s
  | .sramScrubPass t corrected => Sys2Proof.Machine.execSramScrubPass t corrected s
  | .uncorrectableSramWord t duplicated cls pool unit detail => Sys2Proof.Machine.execUncorrectableSramWord t duplicated cls pool unit detail s
  | .fabricPllFault t pair unit stops => Sys2Proof.Machine.execFabricPllFault t pair unit stops s
  | .regulatorPhaseFault t rail phase => Sys2Proof.Machine.execRegulatorPhaseFault t rail phase s
  | .dieLinkLaneFault t direction lane => Sys2Proof.Machine.execDieLinkLaneFault t direction lane s
  | .checkedHalfMismatch t pair half => Sys2Proof.Machine.execCheckedHalfMismatch t pair half s
  | .spareUnitFault t cls pool unit => Sys2Proof.Machine.execSpareUnitFault t cls pool unit s
  | .outOfScopeFault t detail => Sys2Proof.Machine.execOutOfScopeFault t detail s
  | .calRun t fn tag failed values means => Sys2Proof.Machine.execCalRun t fn tag failed values means s
  | .calGetRecord t fn tag => Sys2Proof.Machine.execCalGetRecord t fn tag s
  | .calSetSchedule t fn tag => Sys2Proof.Machine.execCalSetSchedule t fn tag s
  | .scheduledCalibration t cls units failed values means => Sys2Proof.Machine.execScheduledCalibration t cls units failed values means s
  | .idScan t fn tag mems stuck => Sys2Proof.Machine.execIdScan t fn tag mems stuck s
  | .idReadRecord t fn tag mem stuck => Sys2Proof.Machine.execIdReadRecord t fn tag mem stuck s
  | .secGetCertificate t fn tag => Sys2Proof.Machine.execSecGetCertificate t fn tag s
  | .secAttest t fn tag => Sys2Proof.Machine.execSecAttest t fn tag s
  | .secUpdateFirmware t fn tag image blown => Sys2Proof.Machine.execSecUpdateFirmware t fn tag image blown s
  | .stewardRestartComplete t ready => Sys2Proof.Machine.execStewardRestartComplete t ready s
  | .secSetOwnerKey t fn tag => Sys2Proof.Machine.execSecSetOwnerKey t fn tag s
  | .secGetCounters t fn tag => Sys2Proof.Machine.execSecGetCounters t fn tag s
  | .servicePairSleep t pair => Sys2Proof.Machine.execServicePairSleep t pair s
  | .firstSettledOutput t ddc => Sys2Proof.Machine.execFirstSettledOutput t ddc s
  | .codewordBoundaryFound t lane words => Sys2Proof.Machine.execCodewordBoundaryFound t lane words s
  | .markerCodeword t => Sys2Proof.Machine.execMarkerCodeword t s
  | .dpLinkTrained t lanes rate => Sys2Proof.Machine.execDpLinkTrained t lanes rate s
  | .echoTurnaround t => Sys2Proof.Machine.execEchoTurnaround t s
  | .vineFrameSent t => Sys2Proof.Machine.execVineFrameSent t s
  | .disciplineLoopLocked t => Sys2Proof.Machine.execDisciplineLoopLocked t s

end Sys2Proof.Machine
end

