-- ==== Sys2Proof/Machine/Step.lean ====
section
/-! DEFINITION. One step: the command at the front of the queue is carried out on the state with the rest of the
queue; with an empty queue the block idles. -/

namespace Sys2Proof.Machine

/-- The state with another queue of waiting commands. DESIGN CHOICE, log entry 10. -/
def State.withPending (s : State) (q : List Instr) : State := { s with pending := q }

/-- One step of the block. DESIGN CHOICE, log entries 1 and 10. -/
def step (s : State) : Host.Outcome State Fault Refusal :=
  match s.pending with
  | [] => .next s
  | i :: q => exec i (s.withPending q)

/-- The command that a word spells goes to the front of the queue; where it spells none nothing changes.
DESIGN CHOICE, log entry 2. -/
def State.withFetchWord (s : State) (nbits w : Nat) : State :=
  match decodeTableWord nbits w with
  | some i => s.withPending (i :: s.pending)
  | none => s

end Sys2Proof.Machine
end

