-- ==== Sys2Proof/Safety.lean ====
section
/-! DEFINITION. What counts as a safe run, and the forms in which statements say that a command completes: every
command is answered with a next state, and the memories stay in their canonical form. -/

namespace Sys2Proof.Machine

/-- The byte memories that a function's windows hold are in canonical form. -/
def Func.memoryWf (f : Func) : Bool := f.msixTable.wf && f.chans.all fun e => e.2.area.wf

/-- The byte memories of the module are in canonical form: Cellar, the waveform memory of both outputs, and the byte
arrays of the register windows. A Sorrel core's data memory is a map of its own form, since after a takeover a byte
that is not listed reads as a free value. -/
def State.memoryWf (s : State) : Bool :=
  s.cellarMem.wf && (s.stim.all fun e => e.2.wave.wf) && (s.host.fns.all fun e => e.2.memoryWf)

/-- A step from `s` answers a next state. -/
def State.answers (s : State) : Prop := ∃ s', step s = .next s'

/-- Command `tag` of function `fn` is `c`, accepted with opcode `op`; it has not started, a Steward pair runs, and
neither an earlier command, a fence, DEPEND nor a takeover holds it back or has aborted it, and its deadline has not
passed (R55, R60, R62, R514). -/
def State.mayRun (s : State) (op fn tag : Nat) (c : Cmd) : Bool :=
  s.cmdOf fn tag == some c && c.opcode == op && !c.started && s.stewardRuns && !s.blocked c && !c.dependFailed &&
    !s.pastDeadline c

/-- A mailbox command that may run, on operands and a state for which `ok` holds, answers the next state `after`.
Both see the state at the row's tick. -/
def Completes (i : Nat → Nat → Nat → Instr) (op : Nat) (ok : Cmd → State → Bool) (after : Cmd → State → State) : Prop :=
  ∀ (s : State) (t fn tag : Nat) (c : Cmd), s.powered = true → (s.advance t).mayRun op fn tag c = true →
    ok c (s.advance t) = true → exec (i t fn tag) s = .next (after c (s.advance t))

/-- A row that is no mailbox command, in a powered module for whose state `ok` holds, answers the next state
`after`. Both see the state at the row's tick. -/
def Happens (i : Nat → Instr) (ok : State → Bool) (after : State → State) : Prop :=
  ∀ (s : State) (t : Nat), s.powered = true → ok (s.advance t) = true → exec (i t) s = .next (after (s.advance t))

/-- A row that can happen in any power state, in a state for which `ok` holds, answers the next state `after`. -/
def Occurs (i : Nat → Instr) (ok : State → Bool) (after : State → State) : Prop :=
  ∀ (s : State) (t : Nat), ok (s.advance t) = true → exec (i t) s = .next (after (s.advance t))

end Sys2Proof.Machine
end

