-- ==== Sys2Proof/Conditions.lean ====
section
/-! DEFINITION. When a command executes normally: for each mailbox verb the conditions on its parameter block and on
the state under which the spec gives it its effect, and for the other rows the situation they stand for. The statements
take these as hypotheses. -/

namespace Sys2Proof.Cond

open Sys2Proof.Machine

/-- A doorbell with DOORBELL bit 0 set reaches a channel that exists, on a function whose mailboxes are ready. -/
def doorbell (fn chan value : Nat) (a : State) : Bool :=
  a.chanReachable fn chan && a.readyBit (1 + fn) && value.testBit 0

/-- `MB.CHAN_STATE` of a channel that exists is written with all bytes enabled. -/
def chanStateClear (fn chan : Nat) (full : Bool) (a : State) : Bool := a.chanReachable fn chan && full

/-- A register of the window of a function is written with all bytes enabled. -/
def fullWrite (fn : Nat) (full : Bool) (a : State) : Bool := a.hostAccess && full && decide (fn < 2)

/-- A ring of a function that exists is written. -/
def ringWrite (fn ring : Nat) (a : State) : Bool := a.hostAccess && decide (fn < 2) && decide (ring < 16)

/-- COAL_TIME has passed since the first unsignalled entry of an enabled ring (R41). -/
def coalesce (fn : Nat) (completion : Bool) (ring : Nat) (a : State) : Bool :=
  let r := (a.func fn).ring completion ring
  a.canWrite && r.enabled && r.coalTime != 0 && r.unsignalled != 0 && r.fill != 0 &&
    decide (r.since + r.coalTime * ticksPerUs ≤ a.now)

/-- Every unit of a group that has not taken the pending occurrence can take it, and no configuring command of the
block is in flight (R22, R84). -/
def occurrence (group : Nat) (o : Occ) (a : State) : Bool :=
  decide (group < 32) && a.fcw.occ.find group == some o && !a.groupHeld group &&
    ((a.groupUnits group).filter fun u => !o.taken.contains u).all fun u => a.unitReady group u

/-- `SYS.HELLO` waits at channel `n` as command `c`, with nothing that holds it back, room for its 48 bytes and the
module's major version (R60, R62, R67). -/
def hello (fn tag n : Nat) (c : Cmd) (a : State) : Bool :=
  a.atAckChan fn tag 0x0101 == some (n, c) && a.channelServed fn n && !a.blocked c && !c.dependFailed && !a.pastDeadline c &&
    decide (48 ≤ c.room) &&
    u16 c.payload 0 == Config.interfaceVersion.toNat / 65536

/-- `SYS.SET_EVENT_RING` waits at channel `n` as command `c`, with nothing that holds it back, a payload of the stated
length and valid fields (R60, R62, R70, R594). -/
def setRing (fn tag n : Nat) (c : Cmd) (a : State) : Bool :=
  a.atAckChan fn tag 0x0104 == some (n, c) && a.channelServed fn n && !a.blocked c && !c.dependFailed && !a.pastDeadline c &&
    c.payload.length == 40 + 2 * u16 c.payload 6 &&
    !(RingSetup.of c.payload).bad fn (a.func fn) c.payload

/-- A service pair that runs and serves no channel with work (R35). -/
def pairSleeps (pair : Nat) (a : State) : Bool :=
  a.stewardRuns && decide (pair < 5) && !a.ft.haltedPairs.contains pair && !a.ft.asleep.contains pair && a.pairIdle pair

/-- The deadline of a command that has not started passes, and the command is not one that a deadline never ends
(R62). -/
def timesOut (fn tag : Nat) (c : Cmd) (a : State) : Bool :=
  a.cmdOf fn tag == some c && a.channelServed fn c.chan && decide (c.deadline ≤ a.now) && !endlessOp c && !c.started

/-- WAIT_MASK names implemented bits only, and every one of them is set (R68). -/
def sysQueryReady (c : Cmd) (a : State) : Bool :=
  decide (u64 c.payload 0 < 2 ^ 31) && a.ready.toNat &&& u64 c.payload 0 == u64 c.payload 0

/-- Page 0 or 1, reserved bytes zero, and room for its 64 bytes (R69). -/
def sysGetInfo (c : Cmd) (_ : State) : Bool :=
  decide (u16 c.payload 0 ≤ 1) && zeros c.payload 2 2 && decide (64 ≤ c.room)

/-- FUNCTION and OBJECT name objects that can be reset, and none has a consumer outside what is reset (R71). -/
def sysResetFunction (c : Cmd) (a : State) : Bool :=
  let fam := u8 c.payload 0
  let obj := u32 c.payload 4
  zeros c.payload 1 3 && resetCount fam != 0 && (obj == 0xFFFFFFFF || decide (obj < resetCount fam)) &&
    (a.resetList fam obj).all fun n => (a.resetConsumer fam n (if obj = 0xFFFFFFFF then fam else 0)).isNone

/-- Every field of `CLOCK.SET_REF` is in range, and the module is no Vine MEMBER (R106, R361). -/
def clockSetRef (c : Cmd) (a : State) : Bool :=
  let p := c.payload
  decide (u8 p 0 ≤ 4) && decide (u8 p 1 ≤ 6) && decide (u8 p 2 ≤ 2) && decide (u8 p 3 ≤ 1) && zeros p 12 4 &&
    (u32 p 8 == 0 || (decide (100 ≤ u32 p 8) && decide (u32 p 8 ≤ 60000))) && !a.vineMember

/-- KIND 1: a tick is named, and the loop holds no PPS phase (R108). -/
def clockSetTimeTick (c : Cmd) (a : State) : Bool :=
  u8 c.payload 0 == 1 && zeros c.payload 1 7 && a.ck.mode != 3 && a.ck.mode != 4 && !(a.ck.mode == 1 && a.ck.ppsQual)

/-- KIND 0: the edge named is among the stamped ones, and has stamp `st` (R108). -/
def clockSetTimeEdge (st : Stamp) (c : Cmd) (a : State) : Bool :=
  u8 c.payload 0 == 0 && zeros c.payload 1 7 &&
    (a.ck.ppsStamps.find? fun x => x.1 == u64 c.payload 8) == some (u64 c.payload 8, st)

/-- The fields of `CLOCK.SET_OUTPUT` for a synthesised output that runs no ramp are in range (R109). -/
def clockSetOutput (c : Cmd) (a : State) : Bool :=
  let p := c.payload
  decide (u8 p 0 ≤ 1) && decide (u8 p 1 ≤ 1) && decide (u8 p 2 ≤ 2) && zeros p 3 5 && zeros p 16 8 &&
    decide (10000000000 ≤ u64 p 8) && decide (u64 p 8 ≤ 12800000000000) &&
    (a.gen (u8 p 0 + 1)).ramp != .running && (a.gen (u8 p 0 + 1)).ramp != .armed

/-- `CLOCK.SET_OUTPUT` for PPS_OUT (R109). -/
def clockSetPpsOut (c : Cmd) (_ : State) : Bool :=
  let p := c.payload
  u8 p 0 == 2 && decide (u8 p 1 ≤ 1) && zeros p 3 5 && zeros p 16 8

/-- The fields of `CLOCK.LOAD_RAMP` are in range, its length fits its count, and the bank is not running (R110). -/
def clockLoadRamp (c : Cmd) (a : State) : Bool :=
  let p := c.payload
  let n := u16 p 4
  p.length == 16 + 24 * n && decide (u8 p 0 ≤ 2) && decide (u8 p 1 ≤ 1) && decide (u16 p 2 ≤ 255) && n != 0 &&
    decide (n ≤ 170) && decide (u16 p 2 + n ≤ 256) && u16 p 6 != 0 && decide (u16 p 6 ≤ 256) &&
    decide (u32 p 8 ≤ 65535) && zeros p 12 4 &&
    (((records n 24 (p.drop 16)).map rampSegOf).all fun r =>
      decide (r.dur % 10 = 0 ∧ 100 ≤ r.dur ∧ r.dur ≤ 1000000000000)) &&
    !((a.gen (u8 p 0)).ramp == .running && (a.gen (u8 p 0)).bank == u8 p 1)

/-- A ramp can be armed: fields in range, the generator enabled and idle, every segment within the generator's range
and steps 50 µs apart, the start far enough ahead, and the pattern sites' allotments cover its highest frequency
(R104, R111). -/
def clockStartRamp (c : Cmd) (a : State) : Bool :=
  let p := c.payload
  let g := u8 p 0
  let x := a.gen g
  let b := x.banks.get (u8 p 1) {}
  let w : Sched := { mode := u8 p 2, at_ := u64 p 8 }
  decide (g ≤ 2) && decide (u8 p 1 ≤ 1) && decide (u8 p 2 ≤ 2) && zeros p 3 5 && zeros p 16 8 && b.length != 0 &&
    x.ramp != .running && x.ramp != .armed && x.enabled && !(g == 0 && a.cal.deskewRunning) &&
    (minOpt (rampRangeFault (genRange g).1 (genRange g).2 0 b.profile) b.stepFault).isNone &&
    (w.mode == 0 || (a.startTick w).all fun t => decide (a.now + 100 * ticksPerUs ≤ t)) &&
    (g != 0 || a.patCovers (topFreq b.profile))

/-- The fields of `CLOCK.STOP_RAMP` are in range (R112). -/
def clockStopRamp (c : Cmd) (_ : State) : Bool :=
  decide (u8 c.payload 0 ≤ 2) && decide (u8 c.payload 1 ≤ 1) && zeros c.payload 2 2

/-- The ramp of a generator runs and its profile does not end now, or it has ended within the last 10 ns (R112). -/
def rampStops (g : Nat) (a : State) : Bool :=
  let x := a.gen g
  (x.ramp == .running && !(x.profileEnd.any fun e => decide (e ≤ a.now))) ||
    (x.ramp == .done && x.endedAt.any fun e => decide (a.now < e + 256))

/-- The fields of `CLOCK.SET_VECTOR_CLOCK` are in range, no deskew measurement and no ramp runs, and the sites' demands
allow the change (R113). -/
def clockSetVectorClock (c : Cmd) (a : State) : Bool :=
  let p := c.payload
  decide (u8 p 8 ≤ 1) && zeros p 10 6 && (u8 p 8 == 0 || (decide (100000000000 ≤ u64 p 0) && decide (u64 p 0 ≤ 1600000000000))) &&
    !a.cal.deskewRunning && (a.gen 0).ramp != .running && (a.gen 0).ramp != .armed &&
    (if u8 p 8 = 0 then !a.anySiteRuns else a.patCovers (u64 p 0))

/-- An oscillator that is in use and not the last one (R89). -/
def oscillator (osc : Nat) (a : State) : Bool :=
  decide (osc ≤ 1) && !a.isRetired ⟨13, 0, osc⟩ && a.sparesLeft 13 0 != 0

/-- A reference frequency that the setting of REF_FREQ accepts (R93). -/
def refFreq (freq : Nat) (a : State) : Bool :=
  (freq == 1 || freq == 2) && (a.ck.refFreq == 0 || a.ck.refFreq == freq)

/-- The segment of a running ramp has lasted its DURATION (R103). -/
def rampSegOver (gen : Nat) (a : State) : Bool :=
  let x := a.gen gen
  decide (gen ≤ 2) && x.ramp == .running &&
    decide (((x.banks.get x.bank {}).segs.get x.seg {}).dur ≤ x.elapsedNs a.now)

/-- `INPUT.SET_RANGE` with fields in range on an input that is ready (R131). -/
def inputSetRange (c : Cmd) (a : State) : Bool :=
  let p := c.payload
  decide (u8 p 0 ≤ 3) && decide (u8 p 1 ≤ 2) && decide (u8 p 2 ≤ 2) && zeros p 3 5 &&
    !a.tooSoon { mode := u8 p 2, at_ := u64 p 8 } && a.readyBit (7 + u8 p 0)

/-- An input that exists and is ready is named, reserved bytes zero (R132, R134). -/
def inputNamed (c : Cmd) (a : State) : Bool :=
  decide (u8 c.payload 0 ≤ 3) && zeros c.payload 1 3 && a.readyBit (7 + u8 c.payload 0)

/-- `INPUT.ENABLE` with fields in range names a ready input (R133). -/
def inputToEnable (c : Cmd) (a : State) : Bool :=
  let p := c.payload
  decide (u8 p 0 ≤ 3) && (decide (u8 p 1 ≤ 2) || u8 p 1 == 0xFF) && zeros p 2 2 && a.readyBit (7 + u8 p 0)

/-- `INPUT.ENABLE` of a ready input whose energy fits (R129, R133). -/
def inputEnable (c : Cmd) (a : State) : Bool :=
  inputToEnable c a && (a.input (u8 c.payload 0)).mode != .running && (a.declare [inputDecl (u8 c.payload 0)]).isOk

/-- A slice in service in a running input fails while slice `v` can take its position (R123). -/
def sliceFailure (input slice v : Nat) (a : State) : Bool :=
  decide (input ≤ 3) && decide (slice ≤ 33) && !a.isRetired ⟨1, input, slice⟩ && (a.input input).mode == .running &&
    ((a.input input).slice slice).role == .active && a.sparesLeft 1 input != 0 && (a.input input).spareSlice == some v

/-- Rotation runs on a running input in which no slice is being trimmed, slice `k` is the calibration spare, the next
step is not step 33 and slice `slice` serves (R121). -/
def rotation (input slice k : Nat) (a : State) : Bool :=
  let x := a.input input
  decide (input ≤ 3) && x.mode == .running && !x.paused && !a.calFrozen input && (x.inRole .trimming).isNone &&
    x.inRole .calSpare == some k && decide (x.calStep < 32) && decide (slice < 34) && (x.slice slice).role == .active

/-- Slice `k` of a running input is entering the position that slice `j` still holds (R122). -/
def handover (input k j : Nat) (a : State) : Bool :=
  let x := a.input input
  x.mode == .running && x.inRole .handover == some k &&
    ((List.range 34).find? fun n => (x.slice n).role == .active && (x.slice n).pos == (x.slice k).pos) == some j

/-- Overrange samples begin in a running input without protection (R126, R128). -/
def overdrive (input samples : Nat) (a : State) : Bool :=
  let x := (a.input input).countRun a.now
  decide (input ≤ 3) && x.mode == .running && samples != 0 && !x.protection

/-- The overrange interval of an input, opened at tick `o`, has lasted 1 µs (R128). -/
def ovrInterval (input o : Nat) (a : State) : Bool :=
  (a.input input).ovrOpen == some o && decide (o + ticksPerUs ≤ a.now)

/-- A DDC that exists and is not lent is named, reserved bytes zero (R154, R155). -/
def ddcNamed (c : Cmd) (a : State) : Bool :=
  decide (u8 c.payload 0 ≤ 31) && zeros c.payload 1 3 && !(a.ddc (u8 c.payload 0)).lent

/-- `DDC.CONFIGURE` with fields in range on a DDC that is not lent; a running one changes rate only without consumers
(R151). -/
def ddcConfigure (c : Cmd) (a : State) : Bool :=
  let p := c.payload
  let x := a.ddc (u8 p 0)
  decide (u8 p 0 ≤ 31) && decide (u8 p 1 ≤ 2) && decide (u8 p 2 ≤ 2) && decide (u8 p 3 ≤ 1) &&
    (if u8 p 3 = 0 then decide (1 ≤ u8 p 4 ∧ u8 p 4 ≤ 16) else decide (u8 p 4 ≤ 15)) && decide (u8 p 5 ≤ 24) &&
    decide (u8 p 6 ≤ 1) && zeros p 7 1 && zeros p 14 2 && zeros p 20 4 && zeros p 30 2 && !x.lent &&
    (!(x.running && (u8 p 2 != x.format || u8 p 3 != x.form || u8 p 4 != x.k)) || (a.ddcConsumer (u8 p 0) 0 false).isNone)

/-- `DDC.SET_DELAY` with fields in range on a DDC that is not lent (R152). -/
def ddcSetDelay (c : Cmd) (a : State) : Bool :=
  let p := c.payload
  decide (u8 p 0 ≤ 31) && decide (u8 p 1 ≤ 2) && decide (-4096 ≤ s16 p 2) && decide (s16 p 2 ≤ 4095) && zeros p 5 3 &&
    !a.tooSoon { mode := u8 p 1, at_ := u64 p 8 } && !(a.ddc (u8 p 0)).lent

/-- `DDC.ENABLE` with fields in range on a DDC that is not lent (R153). -/
def ddcToEnable (c : Cmd) (a : State) : Bool :=
  let p := c.payload
  decide (u8 p 0 ≤ 31) && decide (u8 p 1 ≤ 2) && zeros p 2 6 && !a.tooSoon { mode := u8 p 1, at_ := u64 p 8 } &&
    !(a.ddc (u8 p 0)).lent

/-- `DDC.ENABLE` of a DDC that is off on a running input, where its energy fits (R153). -/
def ddcEnable (c : Cmd) (a : State) : Bool :=
  let d := u8 c.payload 0
  ddcToEnable c a && !(a.ddc d).running && (a.inputs.get (d / 8) {}).mode == .running && (a.declare [ddcDecl d]).isOk

/-- Unit `u` of input `i`, in service, fails under DDC `d` while the pool's spare unit is `v` (R148). -/
def ddcFails (i u d v : Nat) (a : State) : Bool :=
  let owner := (span (8 * i) 8).find? fun d => (a.ddc d).physical d == u && !(a.ddc d).lent && !(a.ddc d).dead
  decide (i ≤ 3) && decide (u ≤ 8) && !a.isRetired ⟨2, i, u⟩ && owner == some d && a.sparesLeft 2 i != 0 &&
    a.spareDdcUnit i == some v

/-- The first settled output of a running DDC is out (R147). -/
def settled (d : Nat) (a : State) : Bool :=
  let x := a.ddc d
  decide (d < 32) && x.running && x.unsettled && !x.dead && x.produced x.firstSettled a.now

/-- The delay of a running DDC that is due: its tick or epoch is reached, and no enable is at an end (R152). -/
def ddcDelay (d : Nat) (i : Int) (f : Nat) (w : Sched) (a : State) : Bool :=
  let x := a.ddc d
  decide (d ≤ 31) && x.starting == none && x.running && !x.produced 0 a.now && x.delayNext == some (i, f, w) && a.reached w

/-- The job number `PRESS.CONFIGURE` is about: the one it names, or the lowest free one (R179). -/
def pressJob (c : Cmd) (a : State) : Nat :=
  if u8 c.payload 0 = 0xFF then
    (lowestFree (fun n => a.press.jobs.has n || a.namedEarlier c (.pressJob n)) 32 0).getD 32
  else u8 c.payload 0

/-- The job that the fields of `PRESS.CONFIGURE` describe (R179). -/
def pressJobOf (c : Cmd) : PressJob :=
  let p := c.payload
  { kind := u8 p 2, srcKind := u8 p 3, source := u8 p 4, size := u8 p 5, overlap := u8 p 6, taps := u8 p 7
    format := u8 p 8, order := u8 p 9, half := u8 p 10 }

/-- The fields of a `PRESS.CONFIGURE` block are in range (R179). -/
def pressFields (c : Cmd) : Bool :=
  let p := c.payload
  let x := pressJobOf c
  decide (x.srcKind ≤ 1) && (if x.srcKind = 0 then decide (x.source ≤ 3) else decide (x.source ≤ 31)) &&
    (if x.kind = 1 then decide (6 ≤ x.size) && decide (x.size ≤ 16) && decide (x.overlap ≤ 2) && decide (x.taps ≤ 3)
      else x.kind == 0 && decide (8 ≤ x.size) && decide (x.size ≤ 16) && decide (x.overlap ≤ 3) && x.taps == 0) &&
    decide (x.format ≤ 3) && (if x.srcKind = 0 then x.order == 0 && decide (x.half ≤ 1)
      else decide (x.order ≤ 1) && x.half == 0) && zeros p 11 5

/-- `PRESS.CONFIGURE` of a new or configured job: fields in range, coefficients in the memory left, tables long enough
and a place on the pipelines (R160, R167, R173, R179). -/
def pressConfigure (c : Cmd) (a : State) : Bool :=
  let p := c.payload
  let x := pressJobOf c
  let j := pressJob c a
  (decide (u8 p 0 ≤ 31) || u8 p 0 == 0xFF) && u8 p 1 == 0 && decide (j < 32) &&
    pressFields c && (x.kind == 1 || !a.tableShort x.input x.points) &&
    (!a.press.jobs.has j || (a.job j).mode == .configured) &&
    decide (a.press.jobs.foldl (fun n e => if e.1 = j then n else n + e.2.coefficients) x.coefficients ≤ 4194304) &&
    (a.placeJob j x).isSome && decide (32 ≤ c.room)

/-- The bank that `PRESS.LOAD_WINDOW` names is in use: it is the live bank of its input, or of a job, while an FFT job of
the input is not at rest (R180). -/
def bankLive (c : Cmd) (a : State) : Bool :=
  (a.press.jobs.filter fun e => e.2.kind == 0 && e.2.input == u8 c.payload 0).any fun e => e.2.mode != .configured &&
    (a.press.select.get (u8 c.payload 0) 0 == u8 c.payload 1 || a.jobBank e.2 == u8 c.payload 1)

/-- A window other than a user table for a bank that no running job uses (R180). -/
def pressWindow (c : Cmd) (a : State) : Bool :=
  let p := c.payload
  decide (u8 p 0 ≤ 3) && decide (u8 p 1 ≤ 1) && decide (u8 p 2 < 5) && (u8 p 2 != 4 || decide (u8 p 3 ≤ 15)) &&
    zeros p 6 2 && zeros p 16 16 &&
    !bankLive c a

/-- A user table of binary32 words below 2 for a bank that no running job uses, long enough for every FFT job of the
input (R167, R180). -/
def pressTable (table : List Byte) (c : Cmd) (a : State) : Bool :=
  let p := c.payload
  let n := 2 ^ u8 p 5
  let jobs := a.press.jobs.filter fun e => e.2.kind == 0 && e.2.input == u8 p 0
  decide (u8 p 0 ≤ 3) && decide (u8 p 1 ≤ 1) && u8 p 2 == 5 && decide (u8 p 4 ≤ 1) && decide (8 ≤ u8 p 5) &&
    decide (u8 p 5 ≤ 16) && (if u8 p 4 = 1 then a.inRegion (u64 p 8) (4 * n) else u64 p 8 % 8 == 0) &&
    zeros p 6 2 && zeros p 16 16 &&
    !bankLive c a &&
    !(jobs.any fun e => decide (n < e.2.points)) &&
    ((a.tableWords (u8 p 4 == 1) (u64 p 8) n table).findIdx? fun w => !f32Below2 w).isNone

/-- A prototype for a PFB job that is configured (R181). -/
def pressPfb (table : List Byte) (c : Cmd) (a : State) : Bool :=
  let p := c.payload
  let x := a.job (u8 p 0)
  decide (u8 p 0 ≤ 31) && decide (u8 p 1 ≤ 1) && zeros p 2 2 && zeros p 16 8 && a.press.jobs.has (u8 p 0) &&
    x.kind == 1 && x.mode == .configured && u32 p 4 == x.coefficients &&
    (if u8 p 1 = 1 then a.inRegion (u64 p 8) (4 * u32 p 4) else u64 p 8 % 8 == 0) &&
    ((a.tableWords (u8 p 1 == 1) (u64 p 8) (u32 p 4) table).findIdx? fun w => !f32Below2 w).isNone

/-- The entries of a `PRESS.MAP_CHANNELS` block (R182). -/
def mapEntries (c : Cmd) : List Nat := (records (u16 c.payload 2) 4 (c.payload.drop 16)).map leNat

/-- The map of the job that `PRESS.MAP_CHANNELS` leaves (R182). -/
def newMap (c : Cmd) (a : State) : KMap Nat :=
  (List.zip (span (u32 c.payload 4) (u16 c.payload 2)) (mapEntries c)).foldl (fun m e =>
    if e.2.testBit 16 then KMap.set m e.1 (e.2 % 65536) else KMap.del m e.1) (a.job (u8 c.payload 0)).map

/-- Map entries for bins of a configured job to flows that exist and are free (R174, R182). -/
def pressMap (c : Cmd) (a : State) : Bool :=
  let p := c.payload
  let x := a.job (u8 p 0)
  let n := u16 p 2
  p.length == 16 + 4 * n && decide (u8 p 0 ≤ 31) && zeros p 1 1 && n != 0 && decide (n ≤ 1020) &&
    decide (u32 p 4 ≤ 65535) && zeros p 8 8 && !((mapEntries c).any fun e => decide (2 ^ 17 ≤ e)) &&
    a.press.jobs.has (u8 p 0) && x.mode == .configured && decide (u32 p 4 + n ≤ x.bins) &&
    !(((mapEntries c).filter fun e => e.testBit 16).any fun e => decide (49151 < e % 65536) || !a.flowExists (e % 65536)) &&
    !(((mapEntries c).filter fun e => e.testBit 16).any fun e => a.flowTaken (e % 65536) (u8 p 0)) &&
    decide (a.press.jobs.foldl (fun k e => if e.1 = u8 p 0 then k else k + e.2.map.length) (newMap c a).length ≤ 262144)

/-- Frame 0's origin for `PRESS.ENABLE` at once: the first hop boundary of the source's grid 10 µs ahead (R163). -/
def pressOrigin (j : Nat) (a : State) : Nat :=
  let x := a.job j
  let ddc := a.ddc x.source
  let base := if x.srcKind = 1 ∧ ddc.origin % ddc.ratio ≠ 0 then ddc.origin else 0
  let per := x.hop * a.pressTs x
  base + (a.now + 10 * ticksPerUs - base + per - 1) / per * per

/-- `PRESS.ENABLE` with origin `g` of a job that is not running, from a source that is: at once or at the tick that WHEN
names, where the energy fits and every mapped flow carries its share (R177, R183). -/
def pressEnable (g : Nat) (c : Cmd) (a : State) : Bool :=
  let p := c.payload
  let j := u8 p 0
  let x := a.job j
  let w : Sched := { mode := u8 p 1, at_ := u64 p 8 }
  decide (j ≤ 31) && decide (u8 p 1 ≤ 2) && !a.tooSoon w && zeros p 2 6 && a.press.jobs.has j && x.mode != .running && x.mode != .quiescing &&
    (if x.srcKind = 0 then (a.inputs.get x.source {}).mode == .running else (a.ddc x.source).running) &&
    (if u8 p 1 = 0 then some (pressOrigin j a) else a.startTick w) == some g &&
    (x.srcKind != 1 || (decide ((a.ddc x.source).origin ≤ g) && (g - (a.ddc x.source).origin) % (a.ddc x.source).ratio == 0)) &&
    (a.declare [a.pressDecl j]).isOk &&
    ((x.map.map Prod.snd).eraseDups.all fun f => a.flowCarries f (a.mapRate x (x.map.filter fun e => e.2 == f).length))

/-- `PRESS.DISABLE` of a job that exists and has no consumer (R184). -/
def pressDisable (c : Cmd) (a : State) : Bool :=
  let p := c.payload
  decide (u8 p 0 ≤ 31) && decide (u8 p 1 ≤ 1) && zeros p 2 2 && a.press.jobs.has (u8 p 0) &&
    ((a.job (u8 p 0)).mode == .configured || (a.pressConsumer (u8 p 0) 0).isNone)

/-- Every sample of the next frame of a job that is on has been taken, and `codes` holds the converter's codes for it
(R163). -/
def frameDue (job : Nat) (codes : List Int) (a : State) : Bool :=
  let x := a.job job
  a.press.jobs.has job && (x.mode == .running || x.mode == .starting) && x.stopAt == none && a.frameThere x x.frame &&
    decide (a.frameCodes x ≤ codes.length)

/-- The last frame of a job that is stopping is complete (R73, R163). -/
def lastFrame (job : Nat) (codes : List Int) (a : State) : Bool :=
  let x := a.job job
  a.press.jobs.has job && x.mode == .quiescing && x.stopAt == some (x.frame + 1) && a.frameThere x x.frame &&
    decide (a.frameCodes x ≤ codes.length)

/-- The bins of all configured traces if trace `n` took the ones `SPEC.CONFIGURE_DETECTOR` names (R203). -/
def traceBins (c : Cmd) (a : State) : Nat :=
  a.spec.traces.foldl (fun k e => if e.1 = u8 c.payload 0 || !e.2.configured then k else k + e.2.bins) (u32 c.payload 12)

/-- `SPEC.CONFIGURE_DETECTOR` with fields in range, of a disabled trace on an existing job that has the bins, with
storage left (R203, R204). -/
def specDetector (c : Cmd) (a : State) : Bool :=
  let p := c.payload
  decide (u8 p 0 ≤ 63) && decide (u8 p 1 ≤ 31) && decide (u8 p 2 ≤ 5) && decide (u8 p 3 ≤ 1) && decide (u8 p 4 ≤ 1) &&
    (u8 p 2 != 5 || u8 p 4 == 0) && decide (u8 p 5 ≤ 1) && zeros p 6 2 && decide (u32 p 8 ≤ 65535) && u32 p 12 != 0 &&
    decide (u32 p 12 ≤ 65536) && u64 p 16 != 0 && decide (u64 p 16 ≤ 4294967296) &&
    (decide (u32 p 28 ≤ 49151) || u32 p 28 == 0xFFFFFFFF) && zeros p 32 16 && !(a.trace (u8 p 0)).enabled &&
    a.press.jobs.has (u8 p 1) && decide (u32 p 8 + u32 p 12 ≤ (a.job (u8 p 1)).bins) && decide (traceBins c a ≤ 1048576)

/-- The plane that `SPEC.CONFIGURE_DENSITY` describes (R205). -/
def planeOf (c : Cmd) : Plane :=
  let p := c.payload
  { configured := true, parts := u8 p 1, job := u8 p 2, exclude := (u8 p 3).testBit 0, clampHigh := (u8 p 3).testBit 1
    clampLow := (u8 p 3).testBit 2, top := s16 p 4, step := u16 p 6, firstBin := u32 p 8, bins := u32 p 12
    decim := u32 p 16, decayUs := u32 p 20, decayShift := u8 p 24 }

/-- The load of the planes if `SPEC.CONFIGURE_DENSITY` takes effect, as a fraction in bin updates a second (R196). -/
def densityLoad (c : Cmd) (a : State) : Nat × Nat :=
  (a.spec.planes.filter fun e => e.1 != u8 c.payload 0 && e.2.configured).foldl (fun f e => fracAdd f (a.planeLoad e.2))
    (a.planeLoad (planeOf c))

/-- `SPEC.CONFIGURE_DENSITY` with fields in range, of a disabled plane, of the same partitioning as the others while one is enabled, within
the update rate (R193, R196, R205). -/
def specDensity (c : Cmd) (a : State) : Bool :=
  let p := c.payload
  let n := u8 p 0
  let x := planeOf c
  decide (n ≤ 3) && decide (u8 p 1 ≤ 2) && decide (x.job ≤ 31) && decide (u8 p 3 ≤ 7) && x.step != 0 &&
    decide (x.step ≤ 256) && decide (x.firstBin ≤ 65535) && x.bins != 0 && decide (x.bins ≤ 65536) && x.decim != 0 &&
    decide (x.decim ≤ 65536) &&
    (x.decayUs == 0 || (decide (10 ≤ x.decayUs) && decide (x.decayUs ≤ 100000000) && x.decayShift != 0 &&
      decide (x.decayShift ≤ 31))) &&
    zeros p 25 7 && !(a.plane n).enabled && decide (n < partitions (u8 p 1)) &&
    !(((a.spec.planes.filter fun e => e.1 != n && e.2.configured).any fun e => e.2.parts != u8 p 1) &&
      a.spec.planes.any fun e => e.2.enabled) &&
    decide ((densityLoad c a).1 ≤ 204800000000 * (densityLoad c a).2)

/-- A result of a trace that is configured and has completed more than SEQ results where the command waits for one
(R207). -/
def readTrace (c : Cmd) (a : State) : Bool :=
  let p := c.payload
  u8 p 0 == 0 && decide (u8 p 1 ≤ 3) && zeros p 2 2 && decide (u32 p 4 ≤ 63) && zeros p 20 4 &&
    (a.trace (u32 p 4)).configured && (!(u8 p 1).testBit 0 || decide (u32 p 8 < (a.trace (u32 p 4)).seq))

/-- Bytes of a read go to the result region and fit it, or to a region of Cellar that holds them (R207). -/
def readTo (cellar : Bool) (length : Nat) (c : Cmd) (a : State) : Bool :=
  (u8 c.payload 1).testBit 1 == cellar &&
    (if cellar then u64 c.payload 24 % 64 == 0 && a.inRegion (u64 c.payload 24) length else decide (length ≤ c.room))

/-- A rectangle of a plane (R207). -/
def readPlane (c : Cmd) (a : State) : Bool :=
  let p := c.payload
  let n := u32 p 4
  u8 p 0 == 1 && (u8 p 1 == 0 || u8 p 1 == 2) && zeros p 2 2 && decide (n ≤ 3) && zeros p 20 4 && decide (n < partitions (a.plane n).parts) &&
    decide (u16 p 12 ≤ 1023) && u16 p 14 != 0 && decide (u16 p 12 + u16 p 14 ≤ 1024) && u16 p 18 != 0 &&
    decide (u16 p 16 + u16 p 18 ≤ (a.plane n).width)

/-- The rectangle that `SPEC.READ_TRACE` names (R207). -/
def rectangle (c : Cmd) (a : State) : List Byte :=
  let p := c.payload
  a.densityBytes (u32 p 4) (u16 p 12) (u16 p 14) (u16 p 16) (u16 p 18)

/-- Peak search with fields in range on a configured trace, where its energy fits (R201, R208). -/
def peakSearch (c : Cmd) (a : State) : Bool :=
  let p := c.payload
  let n := u8 p 0
  decide (n ≤ 63) && u8 p 1 == 0 && zeros p 12 4 && u16 p 2 != 0 && decide (u16 p 2 ≤ 64) &&
    ((a.trace n).detector == 5 || decide (u32 p 8 ≤ 32767)) && (a.trace n).configured && (a.declare [peakDecl n]).isOk

/-- A configured job runs. -/
def jobRuns (j : Nat) (a : State) : Bool := a.press.jobs.has j && (a.job j).mode == .running

/-- What a trace declares (R201). -/
def traceDecl (n : Nat) : Decl := { fam := 6, obj := n, group := n, first := 200000, each := 200000 }

/-- What a density plane declares (R201). -/
def planeDecl (n : Nat) : Decl := { fam := 6, obj := 512 + n, group := 512, first := 6000000, each := 1000000 }

/-- The fields of `SPEC.ENABLE` are in range (R209). -/
def specEnableFields (c : Cmd) : Bool :=
  let p := c.payload
  decide (u8 p 0 ≤ 1) && decide (u8 p 1 ≤ if u8 p 0 = 0 then 63 else 3) && decide (u8 p 2 ≤ 1) && zeros p 3 5

/-- `SPEC.ENABLE` of a configured disabled trace on a running job, where energy and flow suffice (R209). -/
def enableTrace (c : Cmd) (a : State) : Bool :=
  let n := u8 c.payload 1
  specEnableFields c && u8 c.payload 0 == 0 && !(a.trace n).enabled && (a.trace n).configured && jobRuns (a.trace n).job a &&
    (a.declare [traceDecl n]).isOk && !((a.trace n).flow.any fun f => !a.flowCarries f (a.traceRate (a.trace n)))

/-- `SPEC.ENABLE` of a configured disabled plane on a running job, in the partitioning of the enabled ones (R209). -/
def enablePlane (c : Cmd) (a : State) : Bool :=
  let n := u8 c.payload 1
  specEnableFields c && u8 c.payload 0 == 1 && !(a.plane n).enabled && (a.plane n).configured && jobRuns (a.plane n).job a &&
    !(a.spec.planes.any fun e => e.2.enabled && e.2.parts != (a.plane n).parts) && (a.declare [planeDecl n]).isOk

/-- `SPEC.DISABLE` of a trace or plane without consumers (R210). -/
def specDisable (c : Cmd) (a : State) : Bool :=
  let n := u8 c.payload 1
  decide (u8 c.payload 0 ≤ 1) && decide (n ≤ if u8 c.payload 0 = 0 then 63 else 3) && zeros c.payload 2 2 &&
    (a.specConsumer (u8 c.payload 0) n 0).isNone

/-- `TRIG.CONFIGURE` with fields in range, of a unit out of service whose source is configured (R213, R228). -/
def trigConfigure (c : Cmd) (a : State) : Bool :=
  let p := c.payload
  let u := u8 p 0
  let k := u8 p 1
  let src := u16 p 2
  let hold := u64 p 28
  let compat := (u8 p 5).testBit 0
  let byCount := (u8 p 5).testBit 1
  let seqOk (n : Nat) : Bool := n != u && (a.tunit n).mode != .unconfigured && (a.tunit n).kind != 14
  decide (u ≤ 63) && decide (k ≤ 14) && decide (src ≤ trigSourceMax k) &&
    decide (u8 p 4 ≤ if [0, 1, 5, 6, 7].contains k then 2 else 1) && decide (u8 p 5 ≤ 15) && zeros p 6 2 &&
    decide (u64 p 8 ≤ 2 ^ 48) && decide (u64 p 16 ≤ 2 ^ 48) && decide (u64 p 8 ≤ u64 p 16) && u32 p 24 != 0 &&
    decide (u32 p 24 ≤ 16777216) &&
    (!compat || (if byCount then hold != 0 && decide (hold < 2 ^ 32) else decide (64 ≤ hold) && decide (hold ≤ 2 ^ 48))) &&
    u32 p 40 != 0 && decide (u32 p 40 ≤ 65536) && u32 p 44 != 0 && decide (u32 p 44 ≤ u32 p 40) &&
    (!(k == 6 || k == 7) || decide (u32 p 36 + u32 p 40 ≤ (a.job src).bins)) && (k != 14 || decide (u16 p 60 ≤ 63)) && zeros p 62 2 &&
    !(a.tunit u).inService && (if k = 14 then seqOk src && seqOk (u16 p 60) else a.trigSourceOk k src)

/-- The unit that `TRIG.CONFIGURE` describes, before its live values (R228). -/
def trigUnitOf (c : Cmd) (a : State) : TrigUnit :=
  let p := c.payload
  let fl := u8 p 5
  { a.tunit (u8 p 0) with
    mode := .configured, kind := u8 p 1, source := u16 p 2, source2 := u16 p 60, edge := u8 p 4, compat := fl.testBit 0
    byCount := fl.testBit 1, exclude := fl.testBit 2, outside := fl.testBit 3, timeMin := u64 p 8, timeMax := u64 p 16
    count := u32 p 24, holdoff := u64 p 28, bandFirst := u32 p 36, bandCount := u32 p 40, minBins := u32 p 44 }

/-- The points of a mask table: upper and lower limit (R216, R229). -/
def maskPoints (table : List Byte) (c : Cmd) (a : State) : List (Int × Int) :=
  (a.tableWords (u8 c.payload 2 == 1) (u64 c.payload 8) (u32 c.payload 4) table).map fun w => (signed 16 w, signed 16 (w / 65536))

/-- `TRIG.LOAD_MASK` for a mask unit that is not using the bank, a point for each of its bins, none with its upper
limit below its lower, and memory for them (R229). -/
def trigLoadMask (table : List Byte) (c : Cmd) (a : State) : Bool :=
  let p := c.payload
  let x := a.tunit (u8 p 0)
  decide (u8 p 0 ≤ 63) && decide (u8 p 1 ≤ 1) && decide (u8 p 2 ≤ 1) && zeros p 3 1 &&
    (if u8 p 2 = 1 then a.inRegion (u64 p 8) (4 * u32 p 4) else u64 p 8 % 8 == 0) &&
    !(x.inService && x.bank == u8 p 1) && x.mode != .unconfigured && x.kind == 7 && u32 p 4 == x.bandCount &&
    decide (a.trig.masks.foldl (fun k e => if e.1 = u8 p 0 * 2 + u8 p 1 then k else k + e.2.length) (u32 p 4) ≤ 2097152) &&
    ((maskPoints table c a).findIdx? fun m => decide (m.1 < m.2)).isNone

/-- The route that `TRIG.ROUTE` describes (R230). -/
def routeOf (c : Cmd) : Route :=
  let p := c.payload
  { out := (u8 p 1).testBit 0, vine := if (u8 p 1).testBit 1 then some (u8 p 3) else none, stim := u8 p 2, comps := u16 p 4
    sites := field p 16 32 }

/-- `TRIG.ROUTE` with fields in range (R225, R230). -/
def trigRoute (c : Cmd) : Bool :=
  let p := c.payload
  decide (u8 p 0 ≤ 63) && decide (u8 p 1 ≤ 15) && decide (u8 p 2 ≤ 3) && decide (u8 p 3 ≤ 7) && zeros p 6 2 &&
    (!(u8 p 1).testBit 2 || (decide (4 ≤ u32 p 8) && decide (u32 p 8 ≤ 1000000))) && zeros p 12 4

/-- The fields of `TRIG.ARM` are in range (R231). -/
def trigArmFields (c : Cmd) : Bool :=
  let p := c.payload
  decide (u8 p 0 ≤ 63) && decide (u8 p 1 ≤ 2) && decide (u8 p 2 ≤ 2) && decide (u8 p 3 ≤ 1) &&
    (u8 p 1 != 2 || u32 p 4 != 0) && zeros p 16 8

/-- When `TRIG.ARM` is to act (R231). -/
def trigArmAt (c : Cmd) : Sched := { mode := u8 c.payload 2, at_ := u64 c.payload 8 }

/-- `TRIG.ARM` of a configured unit out of service, where its energy fits and its time is one that can be met (R231). -/
def trigArm (c : Cmd) (a : State) : Bool :=
  let x := a.tunit (u8 c.payload 0)
  trigArmFields c && x.mode != .unconfigured && !x.inService && (a.startTick (trigArmAt c)).isSome &&
    !a.tooSoon (trigArmAt c) && (a.declare [trigDecl (u8 c.payload 0)]).isOk

/-- The state of a unit after `TRIG.DISARM` (R232). -/
def disarmed (c : Cmd) (a : State) : TrigMode :=
  if (u8 c.payload 1).testBit 0 || (a.tunit (u8 c.payload 0)).mode == .unconfigured then .unconfigured else .configured

/-- `TRIG.DISARM` of a unit that nothing uses (R232). -/
def trigDisarm (c : Cmd) (a : State) : Bool :=
  decide (u8 c.payload 0 ≤ 63) && decide (u8 c.payload 1 ≤ 1) && zeros c.payload 2 2 &&
    (a.unitConsumer (u8 c.payload 0) 0).isNone

/-- A unit exists, reserved bytes zero (R233). -/
def trigNamed (c : Cmd) : Bool := decide (u8 c.payload 0 ≤ 63) && zeros c.payload 1 3

/-- A unit that detects values of a sampled source is in service. -/
def samples (u : Nat) (a : State) : Bool := (a.tunit u).inService && decide (u ≤ 63) && decide ((a.tunit u).kind ≤ 5)

/-- A sequence unit is in service. -/
def sequence (u : Nat) (a : State) : Bool :=
  let x := a.tunit u
  x.inService && decide (u ≤ 63) && x.kind == 14

/-- A unit that watches the frames of a Press job is in service. -/
def frames (u : Nat) (a : State) : Bool :=
  let x := a.tunit u
  x.inService && decide (u ≤ 63) && decide (6 ≤ x.kind) && decide (x.kind ≤ 7)

/-- The event interval of a unit, opened at tick `o`, has lasted 1 µs (R234). -/
def evInterval (u o : Nat) (a : State) : Bool :=
  (a.tunit u).evOpen == some o && decide (o + ticksPerUs ≤ a.now)

/-- A force of unit `u` waits and the unit is not in its re-arm time (R221). -/
def forced (u : Nat) (c : Cmd) (a : State) : Bool :=
  a.forceCmd u == some c && !((a.tunit u).mode == .armed && (a.tunit u).dead.isSome)

/-- The context number of `ACQ.CREATE_CONTEXT`: the one it names or the lowest free one (R252). -/
def ctxNumber (c : Cmd) (a : State) : Nat :=
  if u16 c.payload 0 = 0xFFFF then
    (lowestFree (fun n => a.ctxs.has n || a.namedEarlier c (.context n)) 4096 0).getD 4096
  else u16 c.payload 0

/-- The context that `ACQ.CREATE_CONTEXT` describes (R252). -/
def ctxOf (c : Cmd) (a : State) : Ctx :=
  let p := c.payload
  { srcKind := u8 p 2, source := u16 p 4, start := u8 p 3, flow := if u8 p 6 = 1 then some (u32 p 36) else none
    wrap := (u8 p 7).testBit 0, stopOnViolation := (u8 p 7).testBit 1, mask := u64 p 8, length := u64 p 16, pre := u64 p 24
    segments := u32 p 32, region := u64 p 40, regionBytes := u64 p 48, gapCapacity := u32 p 56
    percent := if u8 p 60 = 0 then 100 else u8 p 60, events := u8 p 61 == 1, format := a.acqFormat (u8 p 2) (u16 p 4)
    element := (a.acqElement (u8 p 2) (u16 p 4)).getD 0 }

/-- `ACQ.CREATE_CONTEXT` of a free context with fields in range, on a configured source, in a region that holds the
ring, the segments and the gap list (R244, R245, R252). -/
def createContext (c : Cmd) (a : State) : Bool :=
  let p := c.payload
  let x := ctxOf c a
  let n := ctxNumber c a
  (decide (u16 p 0 ≤ 4095) || u16 p 0 == 0xFFFF) && decide (u8 p 2 ≤ 5) && decide (x.start ≤ 2) &&
    decide (u16 p 4 ≤ [3, 31, 31, 63, 63, 63].getD (u8 p 2) 0) && decide (u8 p 6 ≤ 1) && decide (u8 p 7 ≤ 3) &&
    (if x.start = 0 then x.mask != 0 else x.mask == 0 && x.pre == 0) && decide (64 ≤ x.length) &&
    decide (x.length ≤ 4294967296) && decide (x.pre ≤ x.length) && x.segments != 0 && decide (x.segments ≤ 1048576) &&
    (if u8 p 6 = 1 then decide (u32 p 36 ≤ 49151) && !x.wrap && x.gapCapacity == 0 else u32 p 36 == 0xFFFFFFFF) &&
    x.region % 4096 == 0 && decide (x.gapCapacity ≤ 65536) && decide (u8 p 60 ≤ 100) && decide (u8 p 61 ≤ 1) &&
    zeros p 62 2 && decide (n < 4096) && !a.ctxs.has n && (a.acqElement (u8 p 2) (u16 p 4)).isSome &&
    a.inRegion x.region x.regionBytes && (x.flow.all fun f => a.flowExists f && !a.flowTakenBy f n) &&
    decide (x.needed ≤ x.regionBytes)

/-- When `ACQ.ARM` is to act (R253). -/
def acqArmAt (c : Cmd) : Sched := { mode := u8 c.payload 2, at_ := u64 c.payload 8 }

/-- The fields of `ACQ.ARM` are in range (R253). -/
def acqArmFields (c : Cmd) : Bool := decide (u16 c.payload 0 ≤ 4095) && decide (u8 c.payload 2 ≤ 2) && zeros c.payload 3 5

/-- `ACQ.ARM` of an idle context whose source and units serve, at a time that can be met, where its energy fits
(R249, R253). -/
def acqArm (c : Cmd) (a : State) : Bool :=
  let n := u16 c.payload 0
  let x := a.ctx n
  acqArmFields c && a.ctxs.has n && !x.mode.active && a.acqSourceOn x.srcKind x.source &&
    !((maskBits 64 x.mask).any fun u => (a.tunit u).mode == .unconfigured) && (a.startTick (acqArmAt c)).isSome &&
    !a.tooSoon (acqArmAt c) && (a.declare [acqDecl n]).isOk

/-- The state in which an armed context holds its energy and its allotments, where they fit (R248, R249). -/
def acqGranted (n : Nat) (a : State) : Option State :=
  match a.declare [acqDecl n] with
  | .ok b => b.allot (actKey kindContext n) (a.acqDemand (a.ctx n))
  | .error _ => none

/-- The arm of context `n` is due. -/
def acqDue (n : Nat) (w : Sched) (a : State) : Bool := (a.ctx n).sched == some w && a.reached w

/-- The arm of context `n` is due and lacks what it needs, with status and RESULT word `e`. -/
def acqLacks (n : Nat) (w : Sched) (e : Status × Nat) (a : State) : Bool :=
  acqDue n w a && match a.acqAdmit n with
    | .error x => x == e
    | .ok _ => false

/-- A run of `count` elements that cannot enter the staging, at place `k` of the stream (R246). -/
def gapRun (k cause count : Nat) : GapEntry := { first := k, cause, elements := count }

/-- Place of element 0 of the segment in capture. -/
def segmentZero (n : Nat) (a : State) : Nat := (a.segmentFirst (a.ctx n)).getD (a.nextPlace (a.ctx n) - (a.ctx n).pre)

/-- A segment of context `n` is in capture or runs to its end under a stop. -/
def storing (n : Nat) (a : State) : Bool :=
  a.ctxs.has n && ((a.ctx n).mode == .capturing || (a.ctx n).mode == .quiescing) && !(a.ctx n).rearming

/-- A run of unstored elements begins, with cause 1 or 2, at a place of the stream that is there or lies on the source's
grid (R246). -/
def gapAt (n k cause count : Nat) (a : State) : Bool :=
  let x := a.ctx n
  a.ctxs.has n && (cause == 1 || cause == 2) && count != 0 &&
    ((a.acqGrid x).isSome || decide (x.dropped ≤ k ∧ k < a.nextPlace x))

/-- The segment event interval of a context, opened at tick `o`, has lasted 1 µs (R257). -/
def segInterval (n o : Nat) (a : State) : Bool := (a.ctx n).segOpen == some o && decide (o + ticksPerUs ≤ a.now)

/-- The gap event interval of a context, opened at tick `o`, has lasted 1 µs (R257). -/
def gapInterval (n o : Nat) (a : State) : Bool := (a.ctx n).gapOpen == some o && decide (o + ticksPerUs ≤ a.now)

/-- `ACQ.STOP` or `ACQ.DESTROY` of a context that exists (R254). -/
def acqStop (c : Cmd) (a : State) : Bool :=
  decide (u16 c.payload 0 ≤ 4095) && decide (u8 c.payload 2 ≤ 1) && zeros c.payload 3 1 && a.ctxs.has (u16 c.payload 0)

/-- A segment of context `n` is in capture. -/
def inSegment (n : Nat) (a : State) : Bool := (a.ctx n).mode == .capturing && !(a.ctx n).rearming

/-- `ACQ.STOP` or `ACQ.DESTROY` of a context in a record, with no segment in capture. -/
def acqStopActive (c : Cmd) (a : State) : Bool :=
  acqStop c a && (a.ctx (u16 c.payload 0)).mode.active && !inSegment (u16 c.payload 0) a

/-- The flow of context `n` has not accepted all that the context gave it. -/
def flowHolds (n : Nat) (a : State) : Bool := (a.ctx n).flow.any fun f => a.flowQueue f != 0

/-- A stop lets the segment in capture end, with TRUNCATE at the element that it has reached (R250). -/
def stopAtEnd (c : Cmd) (a : State) : State :=
  let n := u16 c.payload 0
  a.setCtx n { a.ctx n with
    mode := .quiescing, cut := if u8 c.payload 2 == 1 then some (a.cutHere (a.ctx n)) else none }

/-- A stop waits for the flow of the context (R250). -/
def stopDraining (c : Cmd) (a : State) : State :=
  let n := u16 c.payload 0
  a.setCtx n { a.ctx n with
    mode := .quiescing, rearming := true, pending := none, trigger := none, drainSince := some a.now }

/-- A stop ends the record and frees what the context held (R250, R254). -/
def stopRecord (c : Cmd) (a : State) : State :=
  let n := u16 c.payload 0
  ((a.recordEnd n 3 .done).undeclare 8 n).release (actKey kindContext n)

/-- A stop of a context in no record: a scheduled arm is dropped (R254). -/
def stopIdle (c : Cmd) (a : State) : State :=
  let n := u16 c.payload 0
  ((a.setCtx n { a.ctx n with sched := none }).undeclare 8 n).release (actKey kindContext n)

/-- The points of a test mask (R247, R255). -/
def testPoints (table : List Byte) (c : Cmd) (a : State) : List (Int × Int) :=
  let p := c.payload
  let size := if u8 p 2 = 1 then 8 else 4
  (records (u32 p 4) size (if u8 p 3 = 1 then a.cellarMem.readBytes (u64 p 16) (size * u32 p 4) else table)).map fun b =>
    if u8 p 2 = 1 then (s32 b 0, s32 b 4) else (s16 b 0, s16 b 2)

/-- `ACQ.LOAD_TEST_MASK` of points that fit the source of an idle context, none with its upper limit below its lower,
and memory for them (R255). -/
def testMask (table : List Byte) (c : Cmd) (a : State) : Bool :=
  let p := c.payload
  let n := u16 p 0
  let x := a.ctx n
  let k := u32 p 4
  decide (n ≤ 4095) && (u8 p 2 == 1 || u8 p 2 == 2) && decide (u8 p 3 ≤ 1) && k != 0 && decide (k ≤ 65536) &&
    (if u8 p 3 = 1 then a.inRegion (u64 p 16) ((if u8 p 2 = 1 then 8 else 4) * k) else u64 p 16 % 8 == 0) &&
    zeros p 12 4 && a.ctxs.has n && !x.mode.active && (if u8 p 2 = 1 then decide (x.srcKind ≤ 1) else x.srcKind == 2) &&
    decide (u32 p 8 + k ≤ if u8 p 2 = 1 then x.length else (a.job x.source).bins) &&
    ((testPoints table c a).findIdx? fun m => decide (m.1 < m.2)).isNone &&
    decide (a.ctxs.foldl (fun m e => if e.1 = n then m else m + (e.2.test.elim 0 fun t => t.points.length)) k ≤ 1048576)

/-- All elements of the segment of context `n` are there: what storing it leaves (R242 to R247). -/
def segmentKept (n : Nat) (codes : List Int) (a : State) : Option (State × Ctx × Bool) :=
  if storing n a then
    (a.segmentElements (a.ctx n) codes).map fun es =>
      (a.contiguousArm n).segmentStore n (((a.segmentSpan (a.ctx n)).map Prod.fst).getD 0) es
  else none

/-- All elements of the segment of context `n` are there, and storing it leaves what `ok` says. -/
def segmentEnds (n : Nat) (codes : List Int) (ok : Ctx → Bool → Bool) (a : State) : Bool :=
  (segmentKept n codes a).any fun r => ok r.2.1 r.2.2

/-- Context `n` may start its next segment or is to be held: it re-arms, or a hold of it has ended (R242, R251). -/
def rearmDue (n : Nat) (a : State) : Bool :=
  let x := a.ctx n
  a.ctxs.has n && ((x.mode == .capturing && x.rearming) || (x.mode == .held && !x.hold) ||
    (x.mode == .armed && x.start != 0 && !x.hold))

/-- Context `n` with its dead time counted, ready for its next segment (R239, R242). -/
def rearmed (n : Nat) (a : State) : Ctx :=
  let x := a.ctx n
  { x with
    rearming := false, dead := if x.start = 2 then 0 else x.prevEnd.elim 0 fun e => a.now - e.tick, pending := none
    begun := if x.start = 2 && !x.wasHeld then (x.prevEnd.map Stamp.tick).getD a.now else a.now }

/-- What the flow of a quiescing context has not accepted 100 µs after the end of its segment: the units that stay
offered, each with a gap in place of its elements, and the gaps noted (R250). -/
def unaccepted (n f : Nat) (a : State) : State × List FlowUnit :=
  (a.offered.get f []).foldl (fun r u =>
    let head := (u.bytes.drop (u.bytes.length - u.trailer)).take 64
    let g : GapEntry := { segment := u64 head 0, start := r.1.lift u.stamp.tick, ticks := u.spanTicks, cause := 3
                          elements := u64 head 32 }
    ((r.1.noteGap n g).1, r.2 ++ [u.unaccepted g])) (a, [])

/-- The staging of quiescing flow context `n` has had 100 µs since tick `o` to drain into flow `f` (R250). -/
def drainOver (n f o : Nat) (a : State) : Bool :=
  (a.ctx n).flow == some f && (a.ctx n).drainSince == some o && (a.ctx n).mode == .quiescing && decide (o + 2560000 ≤ a.now)

/-- The bytes of the image that `SORREL.LOAD_KERNEL` names. -/
def kernelImage (image : List Byte) (c : Cmd) (a : State) : List Byte :=
  if u8 c.payload 8 = 1 then a.cellarMem.readBytes (u64 c.payload 16) (u32 c.payload 12) else image

/-- `SORREL.LOAD_KERNEL` of an image that is consistent and that the owner policy allows, for cores that are neither lent
nor running and whose records fit the contexts that take them (R279, R280). -/
def loadKernel (image : List Byte) (c : Cmd) (a : State) : Bool :=
  let p := c.payload
  let cores := maskBits 64 (u64 p 0)
  let k := (kernelOf (kernelImage image c a) (u32 p 12)).getD {}
  !cores.isEmpty && decide (u8 p 8 ≤ 1) && zeros p 9 3 &&
    (if u8 p 8 = 1 then a.inRegion (u64 p 16) (u32 p 12) else u64 p 16 % 8 == 0) && !(cores.any fun n => (a.core n).lent) &&
    !(cores.any fun n => (a.core n).mode == .running || (a.core n).mode == .quiescing) &&
    (kernelOf (kernelImage image c a) (u32 p 12)).isSome && a.kernelAllowed (kernelImage image c a) k &&
    (a.ctxs.find? fun e => e.2.srcKind == 5 && cores.contains e.2.source && e.2.element != k.record).isNone

/-- The input port that `SORREL.BIND` describes (R281). -/
def bindPort (c : Cmd) : InPort :=
  let p := c.payload
  { kind := u8 p 2, source := u8 p 3, elements := u32 p 4, firstBin := u32 p 8, bins := u32 p 12 }

/-- The core that `SORREL.BIND` leaves, its port being `port` (R281). -/
def bindCore (c : Cmd) (a : State) : Core :=
  let p := c.payload
  let x := a.core (u8 p 0)
  match u8 p 1 with
  | 2 => { x with flow := if u32 p 16 = 0xFFFFFFFF then none else some (u32 p 16), outRecords := u32 p 20 }
  | 3 => { x with forceMask := u64 p 24 }
  | 4 => { x with region := some (u64 p 32, u64 p 40) }
  | _ => { x with ports := x.ports.set (u8 p 1) (if u8 p 2 = 0 then {} else bindPort c) }

/-- `SORREL.BIND` of an input port of a core that is not running: it is unbound, or its source is configured and in range
and its blocks are no longer than the kernel's slots, and the region holds what the core needs (R281). -/
def bindInput (c : Cmd) (a : State) : Bool :=
  let x := a.core (u8 c.payload 0)
  let q := bindPort c
  decide (u8 c.payload 0 ≤ 63) && decide (u8 c.payload 1 ≤ 1) && !x.lent && x.mode != .running && x.mode != .quiescing &&
    (q.kind == 0 ||
      (decide (q.source ≤ 31) &&
        (if q.kind = 1 then decide (64 ≤ q.elements) && decide (q.elements ≤ 8192) && (a.ddc q.source).configured
          else q.kind == 2 && q.bins != 0 && decide (q.bins ≤ 8192) && a.press.jobs.has q.source) &&
        (x.kernel.isNone || decide (a.blockBytes q ≤ x.k.slotBytes)) &&
        (bindCore c a).region.all fun r => decide (a.regionNeeded (bindCore c a) ≤ r.2)))

/-- A core that is neither lent nor running is named. -/
def idleCore (c : Cmd) (a : State) : Bool :=
  let x := a.core (u8 c.payload 0)
  decide (u8 c.payload 0 ≤ 63) && !x.lent && x.mode != .running && x.mode != .quiescing

/-- The parameters of `SORREL.START`. -/
def startParams (c : Cmd) : List Byte := (c.payload.drop 16).take (u16 c.payload 2)

/-- When `SORREL.START` is to act (R282). -/
def startAt (c : Cmd) : Sched := { mode := u8 c.payload 1, at_ := u64 c.payload 8 }

/-- The state in which core `n` holds its allotments and its energy, where they fit (R276, R278). -/
def coreGranted (n : Nat) (a : State) : Option State :=
  match a.allot (actKey kindKernel n) (a.kernelDemand (a.core n)) with
  | some b => match b.declare [a.coreDecl n] with
    | .ok d => some d
    | .error _ => none
  | none => none

/-- `SORREL.START` of a loaded core with a source on port 0, enabled sources and a region, at a time that can be met,
where allotments and energy fit (R282). -/
def sorrelStart (c : Cmd) (a : State) : Bool :=
  let p := c.payload
  let x := a.core (u8 p 0)
  p.length == 16 + u16 p 2 && decide (u8 p 0 ≤ 63) && decide (u8 p 1 ≤ 2) && decide (u16 p 2 ≤ 256) && zeros p 4 4 &&
    !x.lent && x.mode != .running && x.kernel.isSome && (x.port 0).kind != 0 && a.portOn (x.port 0) && a.portOn (x.port 1) &&
    x.region.isSome && !x.dead && (a.startTick (startAt c)).isSome && !a.tooSoon (startAt c) &&
    (coreGranted (u8 p 0) a).isSome

/-- `SORREL.BIND` of the output, the force mask or the region of a core that is not running (R281). -/
def bindOther (c : Cmd) (a : State) : Bool :=
  let p := c.payload
  idleCore c a &&
    (if u8 p 1 = 2 then decide (u32 p 20 ≤ 1024) &&
        (u32 p 16 == 0xFFFFFFFF || (decide (u32 p 16 ≤ 49151) && a.flowExists (u32 p 16)))
      else if u8 p 1 = 4 then u64 p 32 % 4096 == 0 && a.inRegion (u64 p 32) (u64 p 40) &&
        decide (a.regionNeeded (bindCore c a) ≤ u64 p 40)
      else u8 p 1 == 3)

/-- `SORREL.STOP` of a core that is not lent (R283). -/
def stopFields (c : Cmd) (a : State) : Bool :=
  decide (u8 c.payload 0 ≤ 63) && decide (u8 c.payload 1 ≤ 1) && zeros c.payload 2 2 && !(a.core (u8 c.payload 0)).lent

/-- `SORREL.STOP` of a running core without consumers (R283). -/
def sorrelStop (c : Cmd) (a : State) : Bool :=
  stopFields c a && (a.core (u8 c.payload 0)).mode == .running && (a.coreConsumer (u8 c.payload 0) 0).isNone

/-- Visible core `c` stands on physical core `u`, which fails and is not yet retired. -/
def failsUnder (u c : Nat) (a : State) : Bool :=
  decide (u ≤ 67) && !a.isRetired ⟨4, 0, u⟩ && ((List.range 64).find? fun c =>
    (a.core c).physical c == u && !(a.core c).lent && !(a.core c).dead) == some c

/-- Visible core `c` goes on with physical core `v`; a kernel that runs is rerun there from its last commit (R277). -/
def moved (c v : Nat) (a : State) : State :=
  let y := { a.core c with phys := some v }
  if (a.core c).mode == .running || (a.core c).mode == .quiescing then
    (a.setCore c (a.rerun y a.freeDrawn)).drawFree
  else a.setCore c y

/-- The first spare that is not `u`. -/
def spareFor (u : Nat) (a : State) : Option Nat := (List.range 68).find? fun v => v != u && a.spareCore v

/-- The block of a port's next elements, where they are there (R273). -/
def inputBlock (core port index : Nat) (mapped : Bool) (codes : List Int) (a : State) : Option InBlock :=
  let q := (a.core core).port port
  (a.nextBlock q index codes).map fun k =>
    let e := a.blockElements q k.exponent k.raw
    let n := e.1.length / 4
    let settled := k.marks.length - (k.marks.reverse.findIdx? Prod.snd).getD k.marks.length
    let flags := bit (k.marks.any Prod.fst) + 2 * bit (k.marks.any Prod.snd) + 4 * bit (a.provisionalAt k.tick) + 8 * bit q.gap +
      16 * bit mapped
    { port, flags := flags % 16, place := q.ringNext
      bytes := pack [(8, k.index), (16, stampNat { tick := k.tick }), (2, n), (1, unsign 8 e.2), (1, flags),
        (4, min settled n)] ++ e.1 ++ if mapped then flagMap k.marks else [] }

/-- A port of a block, with the elements that it takes gone from where they waited (R273). -/
def taken (core port : Nat) (a : State) : InPort :=
  let q := (a.core core).port port
  if q.kind = 2 then { q with frames := q.frames.drop 1 } else q

/-- A port of a core in service is bound. -/
def bound (core port : Nat) (a : State) : Bool :=
  decide (port ≤ 1) && ((a.core core).port port).kind != 0 &&
    ((a.core core).mode == .running || (a.core core).mode == .quiescing)

/-- A force that a kernel has released may be made: the unit is in its mask and in service, and a Steward runs (R275). -/
def mayForce (core u : Nat) (a : State) : Bool :=
  decide (u < 64) && (a.core core).forceMask.testBit u && (a.tunit u).inService && a.stewardRuns

/-- A core as it is when it issues an instruction: no longer paused. -/
def issuing (core : Nat) (a : State) : Core := { a.core core with paused := false }

/-- Core `core` runs, and the word at its index is a valid one of class `cls`, OP `op` (R264, R265, R271). -/
def issues (core cls op : Nat) (a : State) : Bool :=
  let w := (issuing core a).word
  ((a.core core).mode == .running || (a.core core).mode == .quiescing) && isaListed w && bits w 63 60 == cls &&
    bits w 59 54 == op && isaReservedOk w

/-- What an instruction makes of its core, from the word, a free value of 128 bits and the core; none where it does not
complete. -/
abbrev Effect := Nat → Nat → Core → Option Core

/-- The effect of the instruction that core `core` issues. -/
def effect (r : Effect) (core : Nat) (a : State) : Option Core := r (issuing core a).word (a.freeNat 128) (issuing core a)

/-- Wherever core `core` issues an instruction of class `cls`, OP `op`, that completes with effect `r`, the row leaves
that core, and it goes on to the next instruction. -/
def Runs (i : Nat → Nat → Instr) (cls op : Nat) (r : Effect) : Prop :=
  ∀ core : Nat, Happens (fun t => i t core) (fun a => issues core cls op a && (effect r core a).isSome)
    (fun a => a.drawFree.setCore core ((effect r core a).getD {}).advance)

/-- SD ← `f` of SA and of B, which is SB or IMM (R264, R265). -/
def scalar (f : Nat → Nat → Nat → Nat) : Effect := fun w free x =>
  some (x.setS (bits w 53 49) (f (x.s (bits w 48 44)) (if bits w 38 38 = 1 then bits w 31 0 else x.s (bits w 43 39)) free))

/-- The core after the move slot, where it does not trap (R264). -/
def move (w free : Nat) (x y : Core) (written : Option Nat) : Option Core := (moveSlot w free x y written).toOption

/-- A load of `size` bytes through the generator of the word, its result put where `f` says, then the move slot. -/
def load (size align : Nat) (f : Nat → List Byte → Core → Core) (written : Nat → Option Nat) : Effect := fun w free x =>
  match x.load (bits w 48 46) (bits w 45 44) size align (free / 2 ^ 32 % 2 ^ 32) with
  | .ok (b, y) => move w free x (f w b y) (written w)
  | .error _ => none

/-- A store of the bytes that `f` takes from the core, then the move slot. -/
def store (align : Nat) (f : Nat → Core → List Byte) : Effect := fun w free x =>
  match x.store (bits w 48 46) (bits w 45 44) align (free / 2 ^ 32 % 2 ^ 32) (f w x) with
  | .ok y => move w free x y none
  | .error _ => none

/-- An operation on operand B, a register or 16 bytes from memory, then the move slot. -/
def vector (f : Nat → Core → Lanes → Core → Core) (written : Nat → Option Nat) : Effect := fun w free x =>
  match operandB w free x with
  | .ok (b, y) => move w free x (f w x b y) (written w)
  | .error _ => none

/-- An operation without operand B, then the move slot. -/
def unary (f : Nat → Core → Core) (written : Nat → Option Nat) : Effect := fun w free x => move w free x (f w x) (written w)

/-- The effect where a condition on the word holds. -/
def given (ok : Nat → Core → Bool) (r : Effect) : Effect := fun w free x => if ok w x then r w free x else none

/-- vD ← a lanewise function of vA and B, with saturation. -/
def lanewise (f : Cplx → Cplx → Cplx) : Effect :=
  vector (fun w x b y => y.setSat (bits w 52 49) (Lanes.zip f (x.v (bits w 48 45)) b)) destV

/-- No register is written by the main operation. -/
def noV (_ : Nat) : Option Nat := none

/-- The tap coefficient of TAPMV, a lane of a register or one value from memory, and the core after that access (R267). -/
def tap (w free : Nat) (x : Core) : Option (Cplx × Core) :=
  if bits w 40 40 = 0 then some ((x.v (bits w 44 41)).l0, x)
  else
    match x.load (bits w 39 37) (bits w 36 35) 4 4 (free / 2 ^ 32 % 2 ^ 32) with
    | .ok (b, y) => some (cplxOf b, y)
    | .error _ => none

/-- TAPMV: the accumulator takes the product of each lane and the coefficient; then the sample the move slot loads is
shifted in below the others (R267). -/
def tapmv : Effect := fun w free x =>
  match tap w free x with
  | some (h, y) =>
    match y.load (bits w 19 17) (bits w 16 15) 4 4 (free % 2 ^ 32) with
    | .ok (b, z) =>
      let v := x.v (bits w 48 45)
      some ((z.setAcc (bits w 50 49) (Lanes.zip Cplx.add (x.a (bits w 50 49)) (v.map fun p => p.mul h))).setV (bits w 48 45)
        { l0 := cplxOf b, l1 := v.l0, l2 := v.l1, l3 := v.l2 })
    | .error _ => none
  | none => none

/-- The record that EMIT reads fits data memory and the output buffer and is aligned (R274). -/
def emits (w : Nat) (x : Core) : Bool :=
  let a := x.s (bits w 53 49)
  x.k.record != 0 && decide (a + x.k.record ≤ dataBytes) && decide ((x.staged.length + 1) * x.k.record ≤ 16384) && a % 16 == 0

/-- The message that MBOX reads fits data memory and is aligned, and fewer than four wait (R275). -/
def posts (w : Nat) (x : Core) : Bool :=
  let a := x.s (bits w 53 49)
  decide (a + 32 ≤ dataBytes) && decide (x.messages.length < 4) && a % 32 == 0

/-- The master widths of the sites that `PAT.DEFINE_SEGMENT` names. -/
def segWidths (c : Cmd) (a : State) : List Nat := (sitesIn (field c.payload 32 32)).map fun i => (a.site i).pins.length

/-- The PE memory of the segment that `PAT.DEFINE_SEGMENT` describes, or the device that has too little (R307). -/
def segMemory (c : Cmd) (a : State) : Except Nat (KMap (Nat × Nat)) :=
  let p := c.payload
  a.allocPe (u16 p 0) (if (u8 p 2).testBit 0 then u32 p 8 else u32 p 4) (if (u8 p 2).testBit 0 then 0 else 639)
    (a.segPairs (field p 32 32)) []

/-- `PAT.DEFINE_SEGMENT` of a segment that is not active, its fields in range, its sites defined and of one width, with
PE memory for it (R307). -/
def defineSegment (c : Cmd) (a : State) : Bool :=
  let p := c.payload
  let ws := segWidths c a
  decide (u8 p 2 ≤ 1) && zeros p 3 1 && zeros p 12 4 && zeros p 24 8 && decide (64 ≤ u32 p 4) &&
    (if u8 p 2 = 1 then decide (4096 ≤ u32 p 8) && decide (u32 p 8 ≤ 1048576) else u32 p 8 == 0) && u64 p 16 % 64 == 0 &&
    a.inRegion (u64 p 16) (u32 p 4 * vectorBytes (ws.headD 0)) && a.readyBit 18 && !a.segActive (u16 p 0) &&
    !((sitesIn (field p 32 32)).any fun i => (a.site i).mode == .undefined) && (ws.all fun w => w == ws.headD 0) &&
    (segMemory c a).isOk

/-- The vectors that `PAT.WRITE_SEGMENT` carries. -/
def newVectors (table : List Byte) (c : Cmd) (a : State) : List (List Byte) :=
  let p := c.payload
  let vb := vectorBytes (a.segWidth (a.seg (u16 p 0)))
  records (u32 p 4) vb (if u8 p 2 = 1 then a.cellarMem.readBytes (u64 p 16) (u32 p 4 * vb) else table)

/-- `PAT.WRITE_SEGMENT` of vectors that the segment, which is not active, has room for (R291, R308). -/
def writeFields (c : Cmd) (a : State) : Bool :=
  let p := c.payload
  let g := a.seg (u16 p 0)
  decide (u8 p 2 ≤ 1) && zeros p 3 1 && zeros p 12 4 && (u8 p 2 == 1 || u64 p 16 % 8 == 0) && a.readyBit 18 &&
    a.pat.segs.has (u16 p 0) && decide (u32 p 8 + u32 p 4 ≤ g.length) &&
    (u8 p 2 == 0 || a.inRegion (u64 p 16) (u32 p 4 * vectorBytes (a.segWidth g))) && !a.segActive (u16 p 0)

/-- The first vector that `PAT.WRITE_SEGMENT` carries whose bytes or states are not as R289 asks. -/
def badVector (table : List Byte) (c : Cmd) (a : State) : Option Nat :=
  (newVectors table c a).findIdx? fun v => !vectorOk (a.segWidth (a.seg (u16 c.payload 0))) v

/-- The vectors that `PAT.WRITE_SEGMENT` writes: those before the first that is not valid (R308). -/
def validVectors (table : List Byte) (c : Cmd) (a : State) : List (List Byte) :=
  match badVector table c a with
  | some k => (newVectors table c a).take k
  | none => newVectors table c a

/-- The state in which the table has been read, the master holds the vectors, and a held segment's slices are on their way
(R308). -/
def written (table : List Byte) (c : Cmd) (a : State) : State :=
  let p := c.payload
  let g := a.seg (u16 p 0)
  let vb := vectorBytes (a.segWidth g)
  let h := a.hostLoad c (u64 p 16) (u32 p 4 * vb) (u8 p 2 == 1)
  let b := h.keepCellar (h.cellarMem.writeBytes (g.master + u32 p 8 * vb) (validVectors table c a).flatten)
  if g.streamed then b else b.writeSlices (u16 p 0) (u32 p 8) (validVectors table c a).length

/-- A `PAT.LOAD_TABLE` of entries for segments that exist and are not active, with fields in range (R291, R309). -/
def loadTable (c : Cmd) (a : State) : Bool :=
  let p := c.payload
  p.length == 8 + 24 * u16 p 0 && zeros p 2 6 && decide (u16 p 0 ≤ 170) &&
    (records (u16 p 0) 24 (p.drop 8)).all fun e =>
      decide (u8 e 2 ≤ 31) && zeros e 3 1 && decide (u32 e 4 ≤ 16777216) && decide (u32 e 8 < 2 ^ 17) && zeros e 14 2 &&
        zeros e 20 4 && a.pat.segs.has (u16 e 0) && decide (u32 e 16 < (a.seg (u16 e 0)).length) && !a.segActive (u16 e 0)

/-- The pins that `PAT.DEFINE_SITE` lists. -/
def newPins (c : Cmd) : List Nat := (records (u16 c.payload 2) 2 (c.payload.drop 8)).map leNat

/-- The site is undefined, idle, done or stopped. -/
def siteFree (n : Nat) (a : State) : Bool :=
  let m := (a.site n).mode
  m == .undefined || m == .idle || m == .done || m == .stopped

/-- `PAT.DEFINE_SITE` of up to 256 pins on at most four usable devices, none of them another site's, of a site that is
free; a site that segments name keeps its width (R287, R310). -/
def defineSite (c : Cmd) (a : State) : Bool :=
  let p := c.payload
  let pins := newPins c
  let devs := devicesOf pins
  p.length == 8 + 2 * u16 p 2 && u8 p 1 == 0 && zeros p 4 4 && u16 p 2 != 0 && decide (u16 p 2 ≤ 256) &&
    !(pins.any fun q => decide (q > 4095)) && noRepeat pins && decide (devs.length ≤ 4) && a.readyBit 18 &&
    siteFree (u8 p 0) a && (a.pat.sites.find? fun e => e.1 != u8 p 0 && e.2.pins.any pins.contains).isNone &&
    (devs.find? fun d => !a.peUsable d).isNone &&
    (u16 p 2 == (a.site (u8 p 0)).pins.length || !(a.pat.segs.any fun g => g.2.sites.testBit (u8 p 0)))

/-- The sites that a command names in its first 32 bytes. -/
def sitesNamed (c : Cmd) : List Nat := sitesIn (field c.payload 0 32)

/-- VEC_MAX of `PAT.START`: the one it names, or the vector clock's frequency (R305). -/
def vecMax (c : Cmd) (a : State) : Nat := if u64 c.payload 48 = 0 then (a.gen 0).freq else u64 c.payload 48

/-- The frequency at which a start is admitted: VEC_MAX, or the highest of a ramp of the vector clock that runs or is
armed where that is higher (R104, R297). -/
def topFreq (c : Cmd) (a : State) : Nat := max (vecMax c a) (a.gen 0).rampTop

/-- When `PAT.START` is to act (R305). -/
def patStartAt (c : Cmd) : Sched := { mode := u8 c.payload 34, at_ := u64 c.payload 40 }

/-- What a site declares (R302). -/
def siteDecl (n : Nat) : Decl := { fam := 0x0A, obj := n, group := n / 32, first := 2500000, each := 50000 }

/-- The state in which the sites of a start hold their allotments and energy, where they fit (R297, R302, R335). -/
def sitesGranted (c : Cmd) (a : State) : Option State :=
  match a.admitSites (topFreq c a) ((reach a.pat.segs (u16 c.payload 32)).any fun r => (a.seg r).streamed) (sitesNamed c) with
  | some b => match b.declare ((sitesNamed c).map siteDecl) with
    | .ok d => some d
    | .error _ => none
  | none => none

/-- An edge lies four vectors or more after the start of its vector at VEC_MAX (R305, R332). -/
def lateEdge (vm v : Nat) : Bool := v != 4294967295 && decide (4 * 10 ^ 15 ≤ v * vm)

/-- `PAT.START` of idle sites on usable devices, with the vector clock on and no deskew running, of a segment from which
only segments of those sites can be reached, none with a condition shorter than 2 H, no edge too late, at a time that
can be met, where allotments and energy fit (R293, R297, R302, R305). -/
def patStart (c : Cmd) (a : State) : Bool :=
  let p := c.payload
  let names := sitesNamed c
  let vm := vecMax c a
  let h := horizonOf (topFreq c a)
  !names.isEmpty && decide (u8 p 34 ≤ 2) && zeros p 35 5 && zeros p 56 8 &&
    (u64 p 48 == 0 || (decide (100000000000 ≤ vm) && decide (vm ≤ 1600000000000))) && a.readyBit 18 &&
    !a.cal.deskewRunning && (a.gen 0).enabled &&
    (names.all fun n => (a.site n).mode != .undefined && !(a.site n).mode.live && (a.site n).mode != .quiescing &&
      (devicesOf (a.site n).pins).all a.peUsable) &&
    (a.startTick (patStartAt c)).isSome &&
    ((reach a.pat.segs (u16 p 32)).all fun r => (match a.pat.segs.find r with
      | some g => names.all fun n => g.sites.testBit n
      | none => false) && ((a.seg r).cond == 0 || decide (2 * h ≤ (a.seg r).length))) &&
    (names.all fun n => (a.site n).sets.all fun e =>
      !lateEdge vm e.2.on && !lateEdge vm e.2.data && !lateEdge vm e.2.off && !lateEdge vm e.2.strobe) &&
    decide ((a.gen 0).freq ≤ vm) && !a.tooSoon (patStartAt c) && (sitesGranted c a).isSome

/-- The sites of a state after `PAT.STOP` has asked each running one to stop or to park (R303, R306). -/
def stopping (vecs : List (Nat × Nat)) (c : Cmd) (a : State) : State :=
  (sitesNamed c).foldl (fun s n =>
    if (s.site n).mode != .running then s
    else if u8 c.payload 32 = 1 then s.parkLater n .stopped (indexIn vecs n)
    else
      let v := indexIn vecs n
      let s := s.settleMatches n ((s.site n).play.base + v)
      s.setSite n { s.site n with play := (s.site n).play.askStop (s.seg (s.site n).play.seg) v }) a

/-- Some site that a stop names has not come to its end. -/
def stillBusy (c : Cmd) (a : State) : Bool := (sitesNamed c).any fun n => (a.site n).mode.live || (a.site n).mode == .quiescing

/-- The time sets that `PAT.LOAD_TIMESETS` carries. -/
def newSets (table : List Byte) (c : Cmd) (a : State) : List (List Byte) :=
  let p := c.payload
  records (u8 p 2) 16 (if u8 p 3 = 1 then a.cellarMem.readBytes (u64 p 8) (16 * u8 p 2) else table)

/-- An edge of a time set is below 40 ns or unused (R312). -/
def edgeOk (v : Nat) : Bool := decide (v ≤ 39999) || v == 4294967295

/-- `PAT.LOAD_TIMESETS` for a site that is defined and idle (R312). -/
def loadTimesets (table : List Byte) (c : Cmd) (a : State) : Bool :=
  let p := c.payload
  let x := a.site (u8 p 0)
  decide (u8 p 1 ≤ 63) && u8 p 2 != 0 && decide (u8 p 1 + u8 p 2 ≤ 64) && decide (u8 p 3 ≤ 1) && zeros p 6 2 && zeros p 16 8 &&
    (if u8 p 3 = 1 then a.inRegion (u64 p 8) (16 * u8 p 2) else u64 p 8 % 8 == 0) && a.readyBit 18 &&
    x.mode != .undefined && !x.mode.live && x.mode != .quiescing &&
    (u16 p 4 == 0xFFFF || decide (u16 p 4 < x.pins.length)) &&
    ((newSets table c a).all fun r => edgeOk (u32 r 0) && edgeOk (u32 r 4) && edgeOk (u32 r 8) && edgeOk (u32 r 12))

/-- The start `c` of sites waits for site `site`, the vector clock is not being zeroed, and its time has come (R305). -/
def launches (site : Nat) (c : Cmd) (rest : List Cmd) (a : State) : Bool :=
  (a.startedCmds 0x0A05 fun c => (field c.payload 0 32).testBit site) == c :: rest && !(a.gen 0).zeroing &&
    a.reached (patStartAt c)

/-- The state in which a site has recognised the match requests up to the end of its iteration. -/
def atEnd (n : Nat) (a : State) : State := a.settleMatches n ((a.site n).play.base + (a.seg (a.site n).play.seg).length)

/-- A running site has chosen what follows its iteration. -/
def chose (n : Nat) (ch : PlayChoice) (a : State) : Bool :=
  (a.site n).mode == .running && (a.site n).play.chosen.isSome && ((atEnd n a).site n).play.chosen == some ch

/-- Vectors launched at the end of the iteration that a site plays. -/
def launched (n : Nat) (a : State) : Nat := ((atEnd n a).site n).play.base + (a.seg (a.site n).play.seg).length

/-- The launch of the last vector of the iteration, not before anything stamped earlier in the run (R19). -/
def lastLaunch (n : Nat) (last : Stamp) (a : State) : Stamp := (atEnd n a).nextStamp ((atEnd n a).site n).seen last

/-- Site `n` enters segment `u` by choice `ch` at the end of an iteration (R295). -/
def entered (n u : Nat) (ch : PlayChoice) (last : Stamp) (a b : State) : State :=
  let d := b.endStream n (some (launched n a))
  let x := d.site n
  let e := d.setSite n { x with
    play := x.play.cross d.pat.segs ch, vectors := launched n a, seen := lastLaunch n last a }
  e.setSite n { e.site n with path := (launched n a, u, (e.seg u).length) :: (e.site n).path }

/-- Site `n` is about to launch the vector of its iteration with index `k`, at which it parks in state `m`. -/
def parksAt (n k : Nat) (m : SiteMode) (a : State) : Bool :=
  let x := a.site n
  x.mode == .running && x.due == some m && x.play.parkAt == some (x.play.base + k)

/-- The devices that `TRELLIS.DISCOVER` trains: those it names that are not UP, or all with RETRAIN (R338). -/
def trainNames (c : Cmd) (a : State) : List Nat :=
  (discoverNames c).filter fun n => u8 c.payload 8 == 1 || (a.peDev n).mode != .up

/-- `TRELLIS.DISCOVER` of devices none of which serves a site or carries a buddy that does, where their energy fits
(R337, R338). -/
def discover (c : Cmd) (a : State) : Bool :=
  decide (u8 c.payload 8 ≤ 1) && zeros c.payload 9 7 && ((trainNames c a).all fun n => (a.peDev n).mode != .up ||
    ((a.sitesOn n).isEmpty && (!a.carrying n || (a.sitesOn (buddyOf n)).isEmpty))) &&
    (a.declare ((trainNames c a).map peDecl)).isOk

/-- Sites with a pin on device `n`. -/
def sitesWith (n : Nat) (a : State) : List Nat :=
  (a.pat.sites.filter fun e => e.2.pins.any fun q => q / 64 == n).map Prod.fst

/-- The capture settings that `TRELLIS.CONFIGURE_CAPTURE` describes (R340). -/
def captureOf (c : Cmd) : CaptureCfg :=
  let p := c.payload
  { flags := u8 p 1, capacity := u32 p 4, failAt := u64 p 8, capAt := u64 p 16, capBytes := u64 p 24
    failRate := u32 p 32, capRate := u32 p 36 }

/-- `TRELLIS.CONFIGURE_CAPTURE` with fields in range of a site that is not running and whose demand is admitted
(R335, R340). -/
def configureCapture (c : Cmd) (a : State) : Bool :=
  let p := c.payload
  let k := captureOf c
  let x := a.site (u8 p 0)
  decide (k.flags ≤ 7) && zeros p 2 2 && zeros p 40 8 && decide (k.capacity ≤ 16777216) && decide (k.failRate ≤ 1000000) &&
    decide (k.capRate ≤ 1000000) && k.failAt % 64 == 0 && k.capAt % 64 == 0 &&
    (!k.flags.testBit 0 || a.inRegion k.failAt (64 + 32 * k.capacity)) &&
    (!k.flags.testBit 1 || (decide (64 ≤ k.capBytes) && a.inRegion k.capAt k.capBytes)) && !x.mode.live && x.mode != .quiescing &&
    ((a.captureDemand (u8 p 0) k).isEmpty || (a.allot (actKey kindSite (u8 p 0)) (a.captureDemand (u8 p 0) k)).isSome)

/-- The devices that `TRELLIS.DESKEW` is about. -/
def deskewDevs (c : Cmd) (a : State) : List Nat :=
  if u8 c.payload 1 = 0xFF then (List.range 64).filter fun d => (a.peDev d).linked else [u8 c.payload 1]

/-- The channels that `TRELLIS.DESKEW` ACTION 0 measures. -/
def deskewUnits (c : Cmd) (a : State) : List Nat := (deskewDevs c a).flatMap fun d => span (64 * d) (a.peDev d).channels

/-- `TRELLIS.DESKEW` ACTION 0 of linked devices that serve no site and carry no TIU lane, with the vector clock on, no
deskew running and room for a result that is asked for (R333, R341). -/
def deskew (c : Cmd) (a : State) : Bool :=
  u8 c.payload 0 == 0 && (decide (u8 c.payload 1 ≤ 63) || u8 c.payload 1 == 0xFF) && zeros c.payload 4 12 &&
    (c.resultAddr == 0 || decide (256 ≤ c.resultLimit)) && !a.cal.deskewRunning &&
    ((deskewDevs c a).all fun d => (a.peDev d).linked) && (a.gen 0).enabled &&
    ((deskewDevs c a).all fun d => (a.sitesOn d).isEmpty) && ((deskewDevs c a).find? a.tiuConfigured).isNone

/-- `TRELLIS.DESKEW` that routes a channel of a linked device to the reference, or ends the route (R341). -/
def deskewRoute (c : Cmd) (a : State) : Bool :=
  let p := c.payload
  (u8 p 0 == 1 && decide (u8 p 2 ≤ 63) && decide (u8 p 3 ≤ 2) || u8 p 0 == 2) && decide (u8 p 1 ≤ 63) && zeros p 4 12 &&
    (a.peDev (u8 p 1)).linked

/-- `TRELLIS.GET_STATUS` with COUNTERS and room for them (R339). -/
def countersAsked (c : Cmd) : Bool :=
  decide (u8 c.payload 0 ≤ 63) && u8 c.payload 1 == 1 && zeros c.payload 2 2 && decide (384 ≤ c.room)

/-- The device that an upstream frame is from: the lane's, or the buddy it carries (R330). -/
def sender (lane : Nat) (frame : List Byte) : Nat := if u8 frame 1 % 2 = 1 then buddyOf lane else lane

/-- A frame of 64 bytes with its CRC, of a type, on an upstream lane that is up, from a device with a path (R319). -/
def goodFrame (lane type : Nat) (frame : List Byte) (a : State) : Bool :=
  decide (lane ≤ 63) && (a.peDev lane).upUp &&
    ((a.peDev (sender lane frame)).linked || (a.peDev (sender lane frame)).mode == .training) && frame.length == 64 &&
    frameCrc (frame.take 62) == u16 frame 62 && u8 frame 0 == type

/-- The payload of a frame. -/
def framePayload (frame : List Byte) : List Byte := (frame.drop 8).take 54

/-- The state in which a frame's ACK has been taken (R321). -/
def ackTaken (lane : Nat) (frame : List Byte) (a : State) : State :=
  let n := sender lane frame
  ((a.setPe n ((a.peDev n).acked (u16 frame 4))).finishRoutes n).finishZero

/-- The frame acts: a class U frame always, a reliable one with the FSEQ expected, a class S one with a SEQ_ID not seen
(R321, R325). -/
def fresh (lane cls : Nat) (frame : List Byte) (a : State) : Bool :=
  let d := (ackTaken lane frame a).peDev (sender lane frame)
  if cls = 1 then u16 frame 2 == d.rxSeq
  else if cls = 2 then !d.seen.contains (u16 (framePayload frame) 0)
  else true

/-- The state in which such a frame has been noted as received (R321, R325). -/
def received (lane cls : Nat) (frame : List Byte) (a : State) : State :=
  let b := ackTaken lane frame a
  let n := sender lane frame
  let d := b.peDev n
  if cls = 1 then b.setPe n { d with rxSeq := (d.rxSeq + 1) % 65536 }
  else if cls = 2 then b.setPe n { d with seen := (u16 (framePayload frame) 0 :: d.seen).take 64 }
  else b

/-- A frame of a type and class acts as `act` says on the device, the payload and the state in which it has been
received; out of order or seen before, only its ACK is taken; with a wrong CRC it is only counted. -/
def FrameActs (i : Nat → Nat → List Byte → Instr) (type cls : Nat) (act : Nat → List Byte → State → State) : Prop :=
  ∀ (lane : Nat) (frame : List Byte),
    Happens (fun t => i t lane frame) (fun a => goodFrame lane type frame a && fresh lane cls frame a)
      (fun a => act (sender lane frame) (framePayload frame) (received lane cls frame a)) ∧
    Happens (fun t => i t lane frame) (fun a => goodFrame lane type frame a && !fresh lane cls frame a) (ackTaken lane frame) ∧
    Happens (fun t => i t lane frame)
      (fun a => decide (lane ≤ 63) && (a.peDev lane).upUp &&
        (frame.length != 64 || frameCrc (frame.take 62) != u16 frame 62))
      (fun a => a.badFrame lane 1)

/-- The state in which a direction of lane `n` is down. -/
def downAt (n : Nat) (up : Bool) (a : State) : State :=
  a.setPe n (if up then { a.peDev n with upUp := false } else { a.peDev n with downUp := false })

/-- A direction of lane `n` that was up fails. -/
def dirFails (n : Nat) (up : Bool) (a : State) : Bool :=
  decide (n ≤ 63) && (if up then (a.peDev n).upUp else (a.peDev n).downUp)

/-- The device whose lane fails can go on over its side port, which works and does not carry its buddy (R330). -/
def canReroute (n : Nat) (up : Bool) (a : State) : Bool := !(downAt n up a).carrying n && (downAt n up a).sideUp n

/-- The direction of a lane as a unit of class 10 (R513). -/
def laneUnit (n : Nat) (up : Bool) : Unit3 := ⟨10, n / 2, 2 * (n % 2) + bit up⟩

/-- A fault of a direction of a lane, masked, and logged once. -/
def laneMasked (n : Nat) (up : Bool) (a : State) : State :=
  if a.isRetired (laneUnit n up) then a else a.faultMasked (laneUnit n up) { logical := n }

/-- A lane trains whose upstream direction is not up yet. -/
def laneTraining (lane : Nat) (a : State) : Bool :=
  decide (lane ≤ 63) && (a.peDev lane).trainSince.isSome && !(a.peDev lane).upUp

/-- Devices of a pair that their side port keeps in service. -/
def onSide (pair : Nat) (a : State) : List Nat := [2 * pair, 2 * pair + 1].filter fun n => (a.peDev n).mode == .rerouted

/-- A side port that works and is not retired. -/
def sideWorks (pair : Nat) (a : State) : Bool :=
  decide (pair ≤ 31) && !a.sideDead.contains pair && !a.isRetired ⟨10, pair, 4⟩

/-- The segment that `STIM.DEFINE_SEGMENT` describes (R353). -/
def stimSegment (c : Cmd) : Segment :=
  let p := c.payload
  { start := u32 p 4, length := u32 p 8, ring := u32 p 12, master := u64 p 16, streamed := (u8 p 1).testBit 0 }

/-- `STIM.DEFINE_SEGMENT` with fields in range, of a segment that is not active, in waveform memory that no other one
uses (R345, R353). -/
def stimDefine (c : Cmd) (a : State) : Bool :=
  let p := c.payload
  let g := stimSegment c
  let x := a.stimOut (u8 p 0)
  decide (u8 p 0 ≤ 1) && decide (u8 p 1 ≤ 1) && decide (u16 p 2 ≤ 4095) && zeros p 24 8 && decide (g.start ≤ 16777184) &&
    g.start % 32 == 0 && decide (128 ≤ g.length) && decide (g.length ≤ 4294967264) && g.length % 32 == 0 &&
    decide (g.start + g.waveSize ≤ 16777216) &&
    (if g.streamed then decide (65536 ≤ g.ring) && decide (g.ring ≤ 4194304) && g.ring % 32 == 0 && g.master % 64 == 0 &&
      a.inRegion g.master (2 * g.length) else g.ring == 0) &&
    a.stimReady (u8 p 0) && !x.active (u16 p 2) &&
    (x.segs.find? fun e => e.1 != u16 p 2 && !clearOf [(e.2.start, e.2.waveSize)] g.start g.waveSize).isNone

/-- `STIM.WRITE_SEGMENT` of samples that the segment, which is not active, has room for (R354). -/
def stimWrite (c : Cmd) (a : State) : Bool :=
  let p := c.payload
  let x := a.stimOut (u8 p 3)
  decide (u8 p 2 ≤ 1) && decide (u8 p 3 ≤ 1) && decide (u16 p 0 ≤ 4095) && zeros p 12 4 &&
    (if u8 p 2 = 1 then a.inRegion (u64 p 16) (2 * u32 p 4) else u64 p 16 % 8 == 0) && a.stimReady (u8 p 3) &&
    x.segs.has (u16 p 0) && decide (u32 p 8 + u32 p 4 ≤ (x.segs.get (u16 p 0) {}).length) && !x.active (u16 p 0)

/-- The samples that `STIM.WRITE_SEGMENT` carries. -/
def stimSamples (table : List Byte) (c : Cmd) (a : State) : List Byte :=
  let p := c.payload
  if u8 p 2 = 1 then a.cellarMem.readBytes (u64 p 16) (2 * u32 p 4) else table.take (2 * u32 p 4)

/-- A `STIM.LOAD_TABLE` of entries for segments that exist and are not active, with fields in range (R346, R355). -/
def stimTable (c : Cmd) (a : State) : Bool :=
  let p := c.payload
  let x := a.stimOut (u8 p 2)
  p.length == 8 + 24 * u16 p 0 && decide (u8 p 2 ≤ 1) && zeros p 3 5 && decide (u16 p 0 ≤ 170) && a.stimReady (u8 p 2) &&
    (records (u16 p 0) 24 (p.drop 8)).all fun e =>
      decide (u16 e 0 ≤ 4095) && decide (u8 e 2 ≤ 3) && zeros e 3 1 && decide (u32 e 4 ≤ 16777216) &&
        bits (u32 e 8) 15 12 == 0 && decide (u32 e 8 < 2 ^ 17) && decide (u16 e 12 ≤ 4095) && zeros e 16 8 &&
        x.segs.has (u16 e 0) && !x.active (u16 e 0)

/-- The outputs that a STIM command names. -/
def outputs (c : Cmd) : List Nat := maskBits 2 (u8 c.payload 0)

/-- The segment at which `STIM.START` starts an output. -/
def stimSeg (c : Cmd) (o : Nat) : Nat := u16 c.payload (4 + 2 * o)

/-- The attenuation that `STIM.START` gives an output. -/
def stimAtten (c : Cmd) (o : Nat) : Nat := u8 c.payload 3 / 4 ^ o % 4

/-- When `STIM.START` is to act (R356). -/
def stimAt (c : Cmd) : Sched := { mode := u8 c.payload 2, at_ := u64 c.payload 8 }

/-- What an output declares (R351). -/
def stimDecl (o : Nat) : Decl := { fam := 0x0C, obj := o, group := o, first := 6500000, each := 6500000 }

/-- The state in which the outputs of a start hold their allotments and energy, where they fit (R348, R351). -/
def stimGranted (c : Cmd) (a : State) : Option State :=
  match admitStim (stimSeg c) (outputs c) a with
  | some b => match b.declare ((outputs c).map stimDecl) with
    | .ok d => some d
    | .error _ => none
  | none => none

/-- `STIM.START` of ready outputs that are idle or stopped, at segments from which none that is missing or too short for
its condition can be reached, at a time that can be met, where allotments and energy fit (R347, R349, R356). -/
def stimStart (c : Cmd) (a : State) : Bool :=
  let p := c.payload
  decide (u8 p 0 ≤ 3) && u8 p 1 == 0 && decide (u8 p 2 ≤ 2) && decide (u8 p 3 ≤ 15) && stimAtten c 0 != 3 && stimAtten c 1 != 3 &&
    ((outputs c).all fun o => decide (stimSeg c o ≤ 4095) && a.stimReady o &&
      ((a.stimOut o).mode == .idle || (a.stimOut o).mode == .stopped)) && zeros p 16 8 && (a.startTick (stimAt c)).isSome &&
    ((outputs c).findSome? fun o => (a.stimOut o).badSegment (stimSeg c o)).isNone && !a.tooSoon (stimAt c) &&
    (stimGranted c a).isSome

/-- The outputs of a state after `STIM.STOP` has reached them (R357). -/
def stimStopping (c : Cmd) (a : State) : State :=
  (outputs c).foldl (fun s o => s.stimQuiesce o (u8 c.payload 1 == 1)) a

/-- `STIM.STOP` of ready outputs (R357). -/
def stimStop (c : Cmd) (a : State) : Bool :=
  decide (u8 c.payload 0 ≤ 3) && decide (u8 c.payload 1 ≤ 1) && zeros c.payload 2 2 && (outputs c).all fun o => a.stimReady o

/-- A running output has played its iteration to the end and chosen what follows it. -/
def stimChose (o : Nat) (ch : PlayChoice) (a : State) : Bool :=
  (a.stimOut o).mode == .running && (a.stimOut o).play.chosen == some ch && decide ((a.stimOut o).cur.length ≤ a.stimIndex o)

/-- Samples that an output has played before its iteration, and those of its iteration. -/
def stimTotal (o : Nat) (a : State) : Nat := (a.stimOut o).play.base + (a.stimOut o).cur.length

/-- The state in which the samples of an output's iteration have reached its connector (R14, R344). -/
def stimPlayed (o : Nat) (a : State) : State := a.stimShow o (stimTotal o a)

/-- The state in which an output that has played its iteration has entered the segment of a choice (R345, R348). -/
def stimEntered (o : Nat) (ch : PlayChoice) (a : State) : State :=
  ((stimPlayed o a).setStim o { (stimPlayed o a).stimOut o with
    play := (a.stimOut o).play.cross (a.stimOut o).segs ch
    entry := stimTotal o a
    filled := 0 }).stimFill o

/-- The start segment that `STIM.START` names is locked by a write under way (R346). -/
def startLocked (c : Cmd) (o : Nat) (a : State) : Bool := ((a.stimOut o).segs.get (stimSeg c o) {}).locked

/-- Output `o` waits for its start at the segment that `STIM.START` names (R347, R356). -/
def stimStarting (c : Cmd) (o : Nat) (a : State) : State :=
  let x := a.stimOut o
  (a.setStim o { x with
    mode := .starting
    before := some (x.mode, x.play)
    play := { x.play.start (stimSeg c o) 64 with chosen := if startLocked c o a then some .locked else none }
    atten := stimAtten c o
    played := 0
    shown := 0
    entry := 0
    filled := 0 }).stimShadows o

/-- The write of `STIM.WRITE_SEGMENT` is under way: the bytes are where the segment keeps its samples, waveform memory or
the Cellar master, and the segment is locked (R346, R354). -/
def stimWriting (table : List Byte) (c : Cmd) (a : State) : State :=
  let p := c.payload
  let x := a.stimOut (u8 p 3)
  let g := x.segs.get (u16 p 0) {}
  let y := { x with segs := x.segs.set (u16 p 0) { g with locked := true } }
  let b := a.hostLoad c (u64 p 16) (2 * u32 p 4) (u8 p 2 == 1)
  if g.streamed then
    (b.keepCellar (b.cellarMem.writeBytes (g.master + 2 * u32 p 8) (stimSamples table c a))).setStim (u8 p 3) y
  else
    b.setStim (u8 p 3) { y with wave := Memory.writeBytes x.wave (2 * (g.start + u32 p 8)) (stimSamples table c a) }

/-- The epoch reference of a master: the ORIGIN it names, or the next multiple of an epoch 10 ms ahead (R361, R366). -/
def vineOrigin (c : Cmd) (a : State) : Nat :=
  if u64 c.payload 16 = 0 then (a.now + 10 * ticksPerMs + epochTicks - 1) / epochTicks * epochTicks
  else a.lift (u64 c.payload 16)

/-- LINK_DELAY of a member: the one it names, or the calibrated one (R365, R366). -/
def vineDelay (c : Cmd) (a : State) : Option Nat := if u64 c.payload 24 = 0 then a.cableDelay 2 0 else some (u64 c.payload 24)

/-- What the Vine chain declares. -/
def vineDecl : Decl := { fam := 0x0D, obj := 0, group := 0, first := 1000000, each := 1000000 }

/-- `VINE.CONFIGURE` of a role that the module does not change without leaving the chain, where its energy fits (R366). -/
def vineConfigure (role : Nat) (c : Cmd) (a : State) : Bool :=
  u8 c.payload 0 == role && zeros c.payload 1 7 && (a.vine.role == 0 || a.vine.role == role) && (a.declare [vineDecl]).isOk

/-- The schedule that `VINE.SCHEDULE_SYNC` describes (R369). -/
def vineSchedule (c : Cmd) : VineSchedule :=
  let p := c.payload
  { epoch := u64 p 0, period := u32 p 8, count := u32 p 12, send := u8 p 16 == 1, code := u8 p 17 }

/-- An epoch edge at `tick` of epoch `e` has been reached by a module of the chain. -/
def epochDue (e tick : Nat) (a : State) : Bool := a.vine.ref == some (e, tick) && a.vine.role != 0 && decide (tick ≤ a.now)

/-- A member receives an EPOCH frame whose header edge arrives at `arrival`, where it expects epoch `e`. -/
def expected (e : Nat) (arrival : Stamp) (a : State) : Bool :=
  a.vine.role == 2 && a.expectedEpoch (a.full arrival) == some e

/-- The state in which a frame whose CRC-8 is not that of its payload has been counted (R360). -/
def badCrc (a : State) : State := a.setVine { a.vine with crcErrors := satAdd 32 a.vine.crcErrors 1 }

/-- A frame of `n` payload bits arrives with its CRC-8, or with another one (R360). -/
def crcGood (n payload crc : Nat) : Bool := crc == vineCrc n payload

/-- A member has one of its signals, cause 1 VINE_REF_IN or 2 VINE_SYNC_IN, or has not lost a neighbour (R364). -/
def losable (cause : Nat) (a : State) : Bool :=
  a.vine.role == 2 && (cause == 1 || cause == 2) && (!a.vine.holdover || (if cause = 1 then a.vine.refIn else a.vine.syncIn))

/-- Operands that `TIU.CONFIGURE_CHANNEL` takes, on a channel that does not run (R388). -/
def tiuConfigure (c : Cmd) (a : State) : Bool :=
  let p := c.payload
  let n := u8 p 0
  let g := tiuCfgOf p
  decide (n ≤ 63) && decide (g.source ≤ 1) && decide (g.comparator ≤ 15) && decide (g.power ≤ 1) && decide (g.high ≤ 16383) &&
    decide (g.low ≤ 16383) && decide (g.hyst ≤ 40) && decide (g.term ≤ 1) && decide (g.vtt ≤ 2000) &&
    decide (g.function ≤ 6) && g.edges != 0 && decide (g.edges ≤ 15) && decide (g.edgeA ≤ 3) && decide (g.edgeB ≤ 3) &&
    decide (g.other ≤ 63) && decide (u8 p 17 ≤ 1) && decide (u8 p 18 ≤ 1) && zeros p 19 1 &&
    (decide (u32 p 20 ≤ 49151) || g.flow.isNone) && g.n != 0 && decide (g.n ≤ 1099511627776) && decide (g.rate ≤ 250000) &&
    (g.function != 3 || g.gate != 0) && (g.function != 6 || g.nominal != 0) && zeros p 56 8 && g.edges.testBit g.edgeA &&
    !a.tiuHeld n && (a.tiuChan n).mode != .running && (a.tiuChan n).mode != .starting && (a.tiuChan n).mode != .quiescing

/-- The channels that a `TIU.START` names and that do not run yet. -/
def tiuNew (c : Cmd) (a : State) : List Nat := (maskBits 64 (u64 c.payload 0)).filter fun n => !a.tiuLive n

/-- The state in which the flows and the energy of these channels are admitted; none where they are not (R385, R389). -/
def tiuAdmitted (ns : List Nat) (a : State) : Option State :=
  match admitTiu ns a with
  | none => none
  | some b => (b.declare (ns.map fun n => { fam := 0x0E, obj := n, group := n / 16, first := 600000, each := 100000 })).toOption

/-- `TIU.START` of configured channels that have their partners, in good time (R382, R385, R389). -/
def tiuStart (c : Cmd) (a : State) : Bool :=
  let p := c.payload
  let names := maskBits 64 (u64 p 0)
  let w : Sched := { mode := u8 p 8, at_ := u64 p 16 }
  let live := (List.range 64).filter fun n => a.tiuLive n
  !names.isEmpty && decide (w.mode ≤ 2) && zeros p 9 7 && !a.tooSoon w && !names.any (fun n => a.tiuHeld n) &&
    !names.any (fun n => (a.tiuChan n).mode == .unconfigured) && !(tiuNew c a).any (a.tiuLacksB names) &&
    (a.startTick w).isSome && decide (a.tiuRates (live ++ tiuNew c a) ≤ 2000000) && (tiuAdmitted (tiuNew c a) a).isSome

/-- The front end of channel `n` serves its function: it runs, on its own input, and no measurement holds it (R373, R388). -/
def tiuOnFront (n : Nat) (a : State) : Bool :=
  decide (n ≤ 63) && !a.tiuHeld n && (a.tiuChan n).mode == .running && (a.tiuChan n).cfg.source == 0

/-- The state in which the pair that converts a channel's edges is known to have failed, where it has (R380). -/
def tiuJudged (n : Nat) (failed : Bool) (a : State) : State := if failed then a.tiuSuspect n else a

/-- An edge of a kind that a running channel stamps. -/
def tiuTakes (n code : Nat) (a : State) : Bool :=
  (a.tiuChan n).mode == .running && !a.tiuHeld n && (a.tiuChan n).cfg.edges.testBit code && decide (code ≤ 3)

/-- The edge lies in the dead time of the channel's last one (R374). -/
def tiuDeadAt (n time : Nat) (a : State) : Bool := (a.tiuChan n).lastTime.any fun l => decide (time < l + tiuDead)

/-- A statistics block is complete; the event interval of its channel is open or not, and its events are on or off. -/
def tiuClosing (n : Nat) (b : TiuBlock) (rest : List TiuBlock) (events opened : Bool) (a : State) : Bool :=
  (a.tiuChan n).core.closing == b :: rest && (a.tiuChan n).cfg.events == events && (a.tiuChan n).evOpen.isSome == opened

/-- A channel whose oldest complete block has been latched (R383). -/
def tiuLatch (b : TiuBlock) (rest : List TiuBlock) (x : TiuChan) : TiuChan :=
  let core : TiuCore := { x.core with closing := rest }
  { x with core, base := core, recent := [], latched := some b, blocks := wrapAdd 64 x.blocks 1 }

/-- Pair `unit` of a group is there to fail; 16 is the spare. -/
def tiuPairFails (group unit : Nat) (a : State) : Bool :=
  decide (group ≤ 3) && decide (unit ≤ 16) && !a.isRetired ⟨19, group, unit⟩

/-- The state in which an echo measurement that used the spare pair has ended (R363, R380). -/
def spareWithdrawn (group : Nat) (a : State) : State :=
  if a.vineHold group && a.sparesLeft 19 group != 0 then
    match a.vine.cal with
    | some k => a.vineCalEnd { k with count := 0 }
    | none => a
  else a

/-- What a group is after a pair of it has failed: the spare takes the channel where there is one (R380). -/
def tiuGroupAfter (group unit : Nat) (a : State) : TiuGroup :=
  let g := a.tiuGroup group
  let g : TiuGroup := { g with suspect := g.suspect.filter (· != unit) }
  if unit = 16 then { g with frozen := true, dead := g.dead ++ g.taken.toList, taken := none }
  else if a.sparesLeft 19 group != 0 then { g with frozen := true, taken := some (16 * group + unit) }
  else { g with dead := g.dead ++ [16 * group + unit] }

/-- The channels that a `TIU.STOP` names. -/
def tiuNamed (c : Cmd) : List Nat := maskBits 64 (u64 c.payload 0)

/-- The state in which a `TIU.STOP` has reached its channels, and those that are then not quiescent (R386, R390). -/
def tiuStopped (c : Cmd) (a : State) : State := (tiuNamed c).foldl State.tiuQuiesce a

/-- Named channels that keep complete blocks to latch. -/
def tiuBusy (c : Cmd) (a : State) : List Nat := (tiuNamed c).filter fun n => ((tiuStopped c a).tiuChan n).mode == .quiescing

/-- `TIU.STOP` of channels that nothing consumes (R390). -/
def tiuStop (c : Cmd) (a : State) : Bool := !(tiuNamed c).any (fun n => a.tiuHeld n) && (a.tiuConsumer (tiuNamed c)).isNone

/-- STATE of R392. -/
def tiuState (n : Nat) (a : State) : Nat :=
  if a.tiuHeld n then 4
  else match (a.tiuChan n).mode with
    | .unconfigured => 0
    | .running => 2
    | .quiescing => 3
    | _ => 1

/-- The statistics interval of a channel, opened at tick `o`, has lasted 1 µs (R393). -/
def tiuInterval (n o : Nat) (a : State) : Bool := (a.tiuChan n).evOpen == some o && decide (o + ticksPerUs ≤ a.now)

/-- The first coarse edge at or after the tick at which a `TIU.START` is to act (R389). -/
def tiuEdgeOf (c : Cmd) (a : State) : Nat := (a.dueTick { mode := u8 c.payload 8, at_ := u64 c.payload 16 } + 63) / 64 * 64

/-- Operands that `MON.CONFIGURE_COMPARATOR` takes (R408). -/
def monComparator (c : Cmd) : Bool :=
  let p := c.payload
  decide (u8 p 0 ≤ 15) && decide (u8 p 1 ≤ 4) && decide (u16 p 2 ≤ 4095) && decide (u8 p 4 ≤ 63) && decide (u8 p 5 ≤ 3) &&
    decide (u8 p 7 ≤ 15) && bits (u8 p 7) 3 2 != 3 &&
    (u8 p 5 == 0 || (decide (10 ≤ u32 p 8) && decide (u32 p 8 ≤ 1000000))) &&
    (u8 p 1 != 4 || (u32 p 12 != 0 && decide (u32 p 12 ≤ 1000000))) && zeros p 16 16

/-- Comparator `x` stays in M3 with the ticks that it has (R396). -/
def keepsTicks (p : List Byte) (x : Comparator) : Bool := x.mode == 4 && x.tickUs == u32 p 12

/-- Comparator `x` with the settings of a payload at tick `now`, from which the ticks of M3 count where it enters it. -/
def monSettings (p : List Byte) (now : Nat) (x : Comparator) : Comparator :=
  { x with
    mode := u8 p 1
    thresh := u16 p 2
    hyst := u8 p 4
    blankSource := u8 p 5
    blankSite := u8 p 6
    forward := u8 p 7
    blankNs := u32 p 8
    tickUs := u32 p 12
    tickFrom := if keepsTicks p x then x.tickFrom else now
    decided := if keepsTicks p x then x.decided else 0 }

/-- The state in which the energy of a comparator that leaves M-off is declared (R396, R408). -/
def monDeclared (c : Cmd) (a : State) : Option State :=
  let w := compPower (u8 c.payload 1) (u32 c.payload 12)
  (a.declare [{ fam := 0x0F, obj := u8 c.payload 0, group := u8 c.payload 0, first := w, each := w }]).toOption

/-- `MON.LOAD_SEQUENCE` of a table part within range, for a flow that exists, while the sequence is idle (R409). -/
def monLoad (c : Cmd) (a : State) : Bool :=
  let p := c.payload
  let first := u8 p 0
  let count := u8 p 1
  p.length == 16 + 8 * count && decide (first ≤ 127) && count != 0 && decide (first + count ≤ 128) && u8 p 2 != 0 &&
    decide (u8 p 2 ≤ 128) && zeros p 3 1 && zeros p 10 6 &&
    (u32 p 4 == 0xFFFFFFFF || (decide (u32 p 4 ≤ 49151) && a.flowExists (u32 p 4))) &&
    (records count 8 (p.drop 16)).all monEntryOk && !a.mon.running && !a.mon.quiescing

/-- The state in which the sequence's flow and energy are admitted (R410). -/
def monAdmitted (a : State) : Option State :=
  let r := match a.mon.flow with
    | some f => a.allot (actKey kindFlow f) (a.flowDemand f a.mon.rate)
    | none => some a
  r.bind fun b => (b.declare [{ fam := 0x0F, obj := 16, group := 16, first := 250000, each := 250000 }]).toOption

/-- `MON.START_SEQUENCE` of a whole table with the reference on, in good time (R410). -/
def monStart (c : Cmd) (a : State) : Bool :=
  let w : Sched := { mode := u8 c.payload 0, at_ := u64 c.payload 8 }
  decide (w.mode ≤ 2) && zeros c.payload 1 7 && !a.tooSoon w && !a.mon.running && a.mon.loaded && a.mon.refOn &&
    (a.startTick w).isSome && (monAdmitted a).isSome

/-- The stamp of what comparator `k` decides on detecting it at `tick`: that less the response of its mode, and never
before the one given earlier (R19, R396). -/
def compStamp (k tick : Nat) (a : State) : Stamp := (a.compStamped k (Machine.compStamp (a.comp k).mode tick)).1

/-- The state in which that stamp has been given. -/
def compSeen (k tick : Nat) (a : State) : State := (a.compStamped k (Machine.compStamp (a.comp k).mode tick)).2

/-- A settled comparator whose input has left its band on the side that its output does not show (R395). -/
def compTurns (k : Nat) (input : Int) (a : State) : Bool :=
  let c := a.comp k
  c.mode != 0 && c.settled && (if c.out then c.place input == 0 else c.place input == 2)

/-- A comparator that is on and not settled, with its input at this place about its band (R397). -/
def compUnsettled (k place : Nat) (input : Int) (a : State) : Bool :=
  (a.comp k).mode != 0 && !(a.comp k).settled && (a.comp k).place input == place

/-- The M3 tick that has come, counted from when the mode was entered (R396). -/
def m3Index (k : Nat) (a : State) : Nat := (a.now - (a.comp k).tickFrom) / ((a.comp k).tickUs * ticksPerUs)

/-- The comparator is in M3, and a tick at which it has not decided has come. -/
def m3Due (k : Nat) (a : State) : Bool := (a.comp k).mode == 4 && decide ((a.comp k).decided < m3Index k a)

/-- A blanking window that ends at tick `w` has come to its end. -/
def windowOver (k w : Nat) (a : State) : Bool := (a.comp k).window == some w && decide (w ≤ a.now)

/-- The output of a settled comparator is not the one that was forwarded last. -/
def changeLeft (k : Nat) (a : State) : Bool := (a.comp k).settled && (a.comp k).out != (a.comp k).shown

/-- The state in which the window of a comparator has closed. -/
def windowClosed (k : Nat) (a : State) : State := a.setComp k { a.comp k with window := none, firstDue := false }

/-- The event interval of a comparator, opened at tick `o`, has lasted 1 µs (R414). -/
def compInterval (k o : Nat) (a : State) : Bool := (a.comp k).evOpen == some o && decide (o + ticksPerUs ≤ a.now)

/-- The converter's state once a conversion has been taken: `outside` is 1 above the range and 2 below it (R401, R405). -/
def converted (code outside : Nat) (a : State) : Mon :=
  let m := a.mon
  { m with
    first := if m.convs = 0 then m.since else m.first, since := m.since + conversionTicks, convs := m.convs + 1
    sum := m.sum + (if outside = 1 then 65535 else if outside = 2 then 0 else code % 65536)
    outside := m.outside ||| (if outside = 1 then 1 else if outside = 2 then 2 else 0)
    lastOver := outside == 1 || outside == 2
    overranges := if outside = 1 ∨ outside = 2 then wrapAdd 32 m.overranges 1 else m.overranges }

/-- The 500 ns of the conversion in progress have passed. -/
def convDue (a : State) : Bool := a.mon.phase == .converting && decide (a.mon.since + conversionTicks ≤ a.now)

/-- The state that a conversion leads to: the last of a result gives the result, and the last result of an entry's visit
leads to the next entry (R402, R406). -/
def convEnds (code outside : Nat) (a : State) : State :=
  let b := a.setMon (converted code outside a)
  let e := a.mon.at_ a.mon.entry
  if a.mon.convs + 1 < 2 ^ e.avg then b
  else if b.monResult.mon.results < e.rep then b.monResult
  else b.monResult.monNextEntry

/-- The sequence is at an entry boundary that has had no housekeeping conversion (R403). -/
def atBoundary (a : State) : Bool :=
  !a.mon.kept && (a.mon.phase != .converting || (a.mon.convs == 0 && a.mon.results == 0))

/-- Operands that `CELLAR.ALLOCATE` takes (R429). -/
def cellarAllocate (c : Cmd) : Bool :=
  let p := c.payload
  let n := u64 p 0
  decide (4096 ≤ n) && decide (n ≤ cellarBytes) && n % 4096 == 0 && decide (u8 p 16 ≤ 7) &&
    (!(u8 p 16).testBit 1 || (u8 p 16).testBit 0) && zeros p 18 6 &&
    (if u64 p 8 == ones64 then decide (12 ≤ u8 p 17) && decide (u8 p 17 ≤ 30)
     else u64 p 8 % 4096 == 0 && decide (u64 p 8 + n ≤ cellarBytes))

/-- The base that `CELLAR.ALLOCATE` gives: the one asked for, where it is free, or the lowest free one (R429). -/
def cellarBase (c : Cmd) (a : State) : Option Nat :=
  let p := c.payload
  if u64 p 8 == ones64 then a.freeBase (u64 p 0) (u8 p 17)
  else if a.overlaps (u64 p 8) (u64 p 0) then none
  else some (u64 p 8)

/-- The region of a `CELLAR.ALLOCATE`. -/
def cellarRegion (p : List Byte) : Region :=
  { bytes := u64 p 0, flags := u8 p 16, label := u64 p 24, zeroing := (u8 p 16).testBit 2 }

/-- `CELLAR.FREE` of a region that nothing uses, FORCE apart, which PF1 alone may ask for (R430). -/
def cellarFree (r : Region) (c : Cmd) (a : State) : Bool :=
  let p := c.payload
  a.regions.find (u64 p 0) == some r && decide (u8 p 8 ≤ 1) && zeros p 9 7 && !(u8 p 8 == 1 && c.fn == 0) &&
    (a.regionUser (u64 p 0) r).isNone && (u8 p 8 == 1 || !a.displayUses (u64 p 0) r)

/-- The DATA_RATE that `CELLAR.SET_OPERATING_POINT` asks for. -/
def cellarRate (c : Cmd) (a : State) : Nat := if u8 c.payload 0 = 255 then a.cellarOp else u8 c.payload 0

/-- `CELLAR.SET_OPERATING_POINT` that the allotments and the energy allow, with every stack in service (R432). -/
def cellarSetOp (c : Cmd) (a : State) : Bool :=
  let p := c.payload
  let r := cellarRate c a
  (decide (u8 p 0 ≤ 2) || u8 p 0 == 255) && zeros p 1 3 &&
    (u32 p 4 == 0 || (decide (256 ≤ u32 p 4) && decide (u32 p 4 ≤ 4096))) && !(List.range 4).any a.stackRetired && !a.rebuilding &&
    (r == a.cellarOp || decide (a.cellarAdmitted ≤ resourceCounted r 0 false)) &&
    (decide (a.cellarOp ≤ r) || a.shortfall a.bud r == 0)

/-- The state with the row-hammer threshold of a `CELLAR.SET_OPERATING_POINT`; 0 leaves it. -/
def cellarThreshold (c : Cmd) (a : State) : State :=
  if u32 c.payload 4 = 0 then a else a.setCell { a.cell with threshold := u32 c.payload 4 }

/-- Pseudo-channel `pc` of stack `k` is in service. -/
def pcServes (k pc : Nat) (a : State) : Bool :=
  decide (k ≤ 3) && decide (pc ≤ 31) && !a.isRetired ⟨8, k, pc⟩ && !a.stackRetired k

/-- The spare pseudo-channel of stack `k` is in service; it serves for another or not (R426). -/
def spareServes (k : Nat) (used : Bool) (a : State) : Bool :=
  decide (k ≤ 3) && !a.isRetired ⟨8, k, 32⟩ && !a.stackRetired k && (a.stack k).replaced.isSome == used

/-- A retraining pause of `channel` can begin: nothing postpones it, the channel's turn in the round has not come, and the
last pause began 781.25 µs ago (R424). -/
def canPause (channel : Nat) (a : State) : Bool :=
  decide (channel ≤ 63) && !a.rebuilding && a.cell.change.isNone && a.cell.pause.isNone && !a.stackRetired (channel / 16) &&
    !a.cell.paused.contains channel && a.cell.pausedAt.all fun p => decide (p + pauseSpacing ≤ a.now)

/-- The channels that the round has retrained; a round of all of them is followed by the next (R424). -/
def roundAfter (channel : Nat) (a : State) : List Nat :=
  if a.retrained.all (channel :: a.cell.paused).contains then [] else channel :: a.cell.paused

/-- The pause of `channel`, begun at `since`, has trained it in at most 400 ns (R424). -/
def pauseTrained (trained : Bool) (since : Nat) (a : State) : Bool := trained && decide (a.now ≤ since + pauseLimit)

/-- The state in which the pause of `channel` is over; `fails` is the failures in succession that then stand. -/
def pauseOver (channel since fill retrains fails : Nat) (a : State) : State :=
  let x := a.stack (channel / 16)
  (a.setCell { a.cell with pause := none }).setStack (channel / 16) { x with
    retrains := retrains
    pauseMax := max x.pauseMax (min 400 (ticksToNs (a.now - since)))
    bufferPeak := max x.bufferPeak fill
    fails := x.fails.set (channel % 16) fails }

/-- Failures of the pauses of `channel` in succession. -/
def pauseFails (channel : Nat) (a : State) : Nat := (a.stack (channel / 16)).fails.get (channel % 16) 0

/-- The entries that `CELLAR.GET_STATUS` of KIND 1 writes: the regions from the one asked for, as many as fit (R431). -/
def regionsAsked (c : Cmd) (a : State) : List (Nat × Region) :=
  (a.regions.drop (u32 c.payload 4)).take (min 2048 (c.room / 32))

/-- The flow that `FLOW.CREATE` names, with the settings of its payload (R434, R448). -/
def flowOf (c : Cmd) : Flow :=
  let p := c.payload
  { fn := c.fn, src := u8 p 4, dst := u8 p 5, space := u8 p 6, check := u8 p 7, priority := u8 p 8, noSnoop := u8 p 9 == 1
    burst := u16 p 10, rate := u64 p 16, label := u64 p 24 }

/-- `FLOW.CREATE` of flow `n`, which is free and is the one asked for or the lowest (R448). -/
def flowCreate (n : Nat) (c : Cmd) (a : State) : Bool :=
  let p := c.payload
  let x := flowOf c
  n == (if u32 p 0 = 0xFFFFFFFF then
      (lowestFree (fun n => a.flowExists n || a.namedEarlier c (.flow n)) 49152 0).getD 49152
    else u32 p 0) && decide (n ≤ 49151) && !a.flowExists n && decide (x.src ≤ 2) && decide (x.dst ≤ 2) &&
    !(x.src == 1 && x.dst == 1) && (x.direct || decide (x.space ≤ 1)) && decide (x.check ≤ 2) && decide (x.priority ≤ 7) &&
    decide (u8 p 9 ≤ 1) && decide (64 ≤ x.burst) && decide (x.burst ≤ 4096) && x.burst % 64 == 0 && zeros p 12 4

/-- The DATA_RATE of an ENABLE: the one it names, or the flow's. -/
def flowRate (c : Cmd) (a : State) : Nat :=
  if u64 c.payload 8 = 0 then (a.flow (u32 c.payload 0)).rate else u64 c.payload 8

/-- The state in which the flow of an ENABLE is admitted: its rate, where it asks for one or holds none, and its energy
(R447, R449, R461). -/
def flowAdmitted (c : Cmd) (a : State) : Option State :=
  let f := u32 c.payload 0
  let act := actKey kindFlow f
  let r := if !(!a.holds act || u64 c.payload 8 != 0) then some a
    else if (a.flow f).dst = 0 && !a.spareUp then none
    else a.allot act (a.flowDemand f (flowRate c a))
  r.bind fun b => (b.declare [flowDecl f]).toOption

/-- `FLOW.ENABLE` of a flow that does not run, bound where it leads to a port (R449). -/
def flowEnable (c : Cmd) (a : State) : Bool :=
  let f := u32 c.payload 0
  let x := a.flow f
  decide (f ≤ 49151) && zeros c.payload 4 4 && a.flowExists f && !(x.mode == .quiescing) && !(x.mode == .enabled) &&
    (x.dst != 0 || x.bind.isSome) && (flowAdmitted c a).isSome

/-- The flow that a command names exists. -/
def flowNamed (c : Cmd) (a : State) : Bool := decide (u32 c.payload 0 ≤ 49151) && a.flowExists (u32 c.payload 0)

/-- A flow exists and is not being brought to rest. -/
def flowThere (c : Cmd) (a : State) : Bool := flowNamed c a && (a.flow (u32 c.payload 0)).mode != .quiescing

/-- The next descriptor address of flow `x` is `addr`, of `left` in its chain, with the chains `rest` after it. -/
def nextDescr (x : Flow) (addr left : Nat) (rest : List (Nat × Nat)) : Bool :=
  match x.chain, x.chains with
  | some c, cs => c == (addr, left) && cs == rest
  | none, c :: cs => c == (addr, left) && cs == rest
  | none, [] => false

/-- A flow that fetches descriptors has room for one more, which is at `addr` (R437). -/
def fetches (f addr left : Nat) (rest : List (Nat × Nat)) (a : State) : Bool :=
  let x := a.flow f
  nextDescr x addr left rest && (x.mode == .enabled || x.mode == .paused || x.mode == .quiescing) &&
    decide (x.fetched.length < 8)

/-- The 64 bytes of a descriptor at `addr`: from Cellar, or what host memory returns. -/
def descrBytes (x : Flow) (addr : Nat) (bytes : List Byte) (a : State) : List Byte :=
  if x.space = 1 then a.cellarMem.readBytes addr 64 else bytes

/-- The index list of a gather descriptor: from Cellar for a flow that reads there, or what host memory returns (R439). -/
def descrIndex (x : Flow) (b : List Byte) (index : List Nat) (a : State) : List Nat :=
  if !(u8 b 0).testBit 1 then []
  else if x.src = 2 then
    (records (min 16777216 (u32 b 40)) 4 (a.cellarMem.readBytes (u64 b 32) (4 * min 16777216 (u32 b 40)))).map leNat
  else index

/-- The descriptor that flow `f` fetches from `addr`. -/
def descrFetched (f addr : Nat) (bytes : List Byte) (index : List Nat) (a : State) : Descr :=
  let x := a.flow f
  let b := descrBytes x addr bytes a
  a.descrOf x addr b (descrIndex x b index a)

/-- A flow can take the next unit of its producer: it is enabled, has nothing buffered and, unless it leads from a producer
to a port, a descriptor posted (R435). -/
def takesUnit (f : Nat) (u : FlowUnit) (rest : List FlowUnit) (a : State) : Bool :=
  let x := a.flow f
  a.offered.get f [] == u :: rest && x.mode == .enabled && x.src == 0 && x.buffer.isEmpty &&
    (x.direct || x.cur.isSome || !x.fetched.isEmpty || x.chain.isSome || !x.chains.isEmpty)

/-- Burst `b` of a flow that moves `m` lies in regions that can be reached, or had been granted its completion (R420, R430,
R439). -/
def burstGood (x : Flow) (m : Moving) (b : Burst) (a : State) : Bool :=
  b.granted || ((x.src != 2 || a.sourceOk m.desc b.offset b.size) &&
    (x.dst != 2 || a.inRegion (m.desc.dest + b.offset) b.size))

/-- The bytes of a burst: those its producer gave, what host memory returns, or what Cellar holds (R438). -/
def burstBytes (x : Flow) (m : Moving) (b : Burst) (data : List Byte) (a : State) : List Byte :=
  match x.src with
  | 0 => b.bytes
  | 1 => (data ++ leBytes b.size 0).take b.size
  | _ => (m.desc.sourceAt b.offset b.size).map a.cellarMem.read

/-- The state in which those bytes are at the destination; a port takes them when the descriptor ends. -/
def burstWritten (x : Flow) (m : Moving) (b : Burst) (bytes : List Byte) (a : State) : State :=
  if x.dst = 0 then a
  else if x.dst = 2 && b.granted then a.keepCellar (a.cellarMem.writeBytes (m.desc.dest + b.offset) bytes)
  else a.flowWrite x (x.dst == 2) (m.desc.dest + b.offset) bytes

/-- A running flow moves `m` and burst `b` of it, at `offset`, is in flight. -/
def inFlight (f offset : Nat) (m : Moving) (b : Burst) (a : State) : Bool :=
  (a.flow f).cur == some m && m.flight.find? (fun x => x.offset == offset) == some b && b.offset == offset

/-- A running flow moves `m` and the burst at `offset` is in flight. -/
def moving (f offset : Nat) (m : Moving) (a : State) : Bool :=
  (a.flow f).cur == some m && m.flight.any fun b => b.offset == offset

/-- `STREAM.CONFIGURE_PORT` of a port that no flow is bound to and that is not failed (R466). -/
def streamConfigure (c : Cmd) (a : State) : Bool :=
  let p := c.payload
  let n := u8 p 0
  decide (n ≤ 4) && decide (u8 p 1 ≤ 2) && decide (u8 p 2 ≤ 3) && zeros p 58 6 && (a.boundTo n).isEmpty &&
    !((a.port n).mode == .failed) && (u8 p 1 != 2 || !(List.range 5).any fun q => q != n && (a.port q).role == 2)

/-- The settings that a port with a role needs (R466). -/
def streamFields (p : List Byte) : Bool :=
  u8 p 3 != 0 && (!(u8 p 2).testBit 1 || (u16 p 10 != 0 && decide (u16 p 10 ≤ 4094))) && ((u8 p 2).testBit 0 || zeros p 44 12)

/-- Port `x` with the settings of a payload, training unless it is up. -/
def streamSettings (p : List Byte) (x : Port) : Port :=
  { x with
    mode := if x.mode = .up then .up else .training, role := u8 p 1, flags := u8 p 2, ttl := u8 p 3
    mac := (p.drop 4).take 6, hbVlan := u16 p 10, ip4 := (p.drop 12).take 4, ip6 := (p.drop 16).take 16
    hbMac := (p.drop 32).take 6, hbDstUdp := u16 p 38, hbIp := (p.drop 40).take 16, hbSrcUdp := u16 p 56 }

/-- The energy of a port. -/
def portDecl (n : Nat) : Decl := { fam := 0x12, obj := n, group := n, first := 4500000, each := 4500000 }

/-- The binding that `STREAM.BIND_FLOW` describes (R467). -/
def streamBinding (p : List Byte) : Binding :=
  { port := u8 p 4, flags := u8 p 5, dscp := u8 p 6, pcp := u8 p 7, vlan := u16 p 8, payloadMax := u16 p 10
    srcUdp := u16 p 12, dstUdp := u16 p 14, dstMac := (p.drop 16).take 6, flushUs := u16 p 22, dstIp := (p.drop 24).take 16 }

/-- `STREAM.BIND_FLOW` of a flow toward a port that does not run (R467). -/
def streamFlow (c : Cmd) (a : State) : Bool :=
  let p := c.payload
  let x := a.flow (u32 p 0)
  decide (u32 p 0 ≤ 49151) && decide (u8 p 4 ≤ 4) && decide (u8 p 5 ≤ 15) && zeros p 40 8 && a.flowExists (u32 p 0) &&
    (x.mode == .created || x.mode == .disabled) && x.dst == 0

/-- A binding within range, of a flow whose source allows it. -/
def streamBind (c : Cmd) (a : State) : Bool :=
  let p := c.payload
  let b := streamBinding p
  !b.flags.testBit 3 && decide (b.dscp ≤ 63) && decide (b.pcp ≤ 7) &&
    (!b.flags.testBit 1 || (b.vlan != 0 && decide (b.vlan ≤ 4094))) && b.flushUs != 0 && decide (b.flushUs ≤ 1000) &&
    decide (252 ≤ b.payloadMax) && b.payloadMax % 12 == 0 && decide (frameBytes b.flags b.payloadMax ≤ 9216) &&
    (b.flags.testBit 0 || zeros p 28 12) && (!b.flags.testBit 2 || (a.flow (u32 p 0)).src == 2)

/-- A port that is up. -/
def portUp (n : Nat) (a : State) : Bool := (a.port n).mode == .up

/-- Port `n` is up and can fail. -/
def portFails (n : Nat) (a : State) : Bool := portUp n a && decide (n ≤ 4) && !a.isRetired ⟨11, 0, n⟩

/-- The spare port that is up and carries none, but for port `n` (R463). -/
def sparePort (n : Nat) (a : State) : Option Nat :=
  (List.range 5).find? fun q => q != n && (a.port q).role == 2 && (a.port q).mode == .up && (a.port q).carrying.isNone

/-- The packets of port `n` that were sent in the last 2 µs (R463). -/
def lastSent (n : Nat) (a : State) : List Packet := (a.port n).recent.filter fun k => decide (a.now ≤ k.sent + replayTicks)

/-- The state in which port `n` has failed and `q` carries its flows, which are bound to it from now on (R463). -/
def carriedOn (n q : Nat) (a : State) : State :=
  let b := a.setPort n { a.port n with mode := .failed }
  let d := b.setPort q { b.port q with carrying := some n }
  (a.boundTo n).foldl (fun s f => s.setFlow f { s.flow f with
    bind := (s.flow f).bind.map fun k => { k with port := q, failover := true } }) d

/-- The neighbour advertisement that answers a solicitation from `ip` (R455). -/
def advertisement (face : Port) (mac ip : List Byte) : List Byte :=
  let icmp (c : Nat) : List Byte :=
    packBe [(1, 136), (1, 0), (2, c), (4, 0x60000000)] ++ face.ip6 ++ packBe [(1, 2), (1, 1)] ++ face.mac
  let sum := inetSum (face.ip6 ++ ip ++ packBe [(4, 32), (3, 0), (1, 58)] ++ icmp 0)
  etherHead mac face.mac none 0x86DD ++ packBe [(4, 6 * 2 ^ 28), (2, 32), (1, 58), (1, 255)] ++ face.ip6 ++ ip ++ icmp sum

/-- The body of a heartbeat (R462). -/
def heartbeat (n : Nat) (a : State) : List Byte :=
  let x := a.port n
  pack [(1, x.role), (1, x.carrying.getD 255), (1, a.grade), (1, 0), (4, (a.boundTo n).length), (8, x.packets)]

/-- The timing that `DISP.SET_TIMING` describes (R471, R483). -/
def dispTiming (p : List Byte) : DispTiming :=
  { hActive := u16 p 0, hFront := u16 p 2, hSync := u16 p 4, hBack := u16 p 6, vActive := u16 p 8, vFront := u16 p 10
    vSync := u16 p 12, vBack := u16 p 14, clock := u32 p 16, flags := u8 p 20, matchLine := u16 p 22, background := u32 p 24 }

/-- A timing within range, for a disabled display (R471, R483). -/
def dispSetTiming (c : Cmd) (a : State) : Bool :=
  let p := c.payload
  let t := dispTiming p
  let area := t.hTotal * t.vTotal
  decide (640 ≤ t.hActive) && decide (t.hActive ≤ 3840) && decide (8 ≤ t.hSync) && decide (480 ≤ t.vActive) &&
    decide (t.vActive ≤ 2160) && t.vSync != 0 && decide (25000 ≤ t.clock) && decide (t.clock ≤ 600000) && decide (t.flags ≤ 3) &&
    zeros p 21 1 && zeros p 27 1 && zeros p 28 4 && decide (t.hTotal ≤ 8192) && decide (t.vActive + 4 ≤ t.vTotal) &&
    decide (239 * area ≤ t.clock * 10000) && decide (t.clock * 1000 ≤ 120 * area) &&
    decide (t.hActive * t.vActive * 3 ≤ 25165824) && (t.matchLine == 65535 || decide (t.matchLine < t.vTotal)) &&
    a.disp.mode == .disabled

/-- Operands that `DISP.SET_GENLOCK` takes (R472, R484). -/
def dispSetGenlock (c : Cmd) (a : State) : Bool :=
  let p := c.payload
  decide (u8 p 0 ≤ 1) && decide (u8 p 1 ≤ 1) && zeros p 6 10 &&
    a.disp.timing.all fun t => decide (u16 p 2 < t.vTotal) && decide (u16 p 4 < t.hTotal)

/-- The display with the genlock settings of a payload. -/
def genlocked (p : List Byte) (d : Disp) : Disp :=
  { d with genlock := u8 p 0, edge := u8 p 1, syncLine := u16 p 2, offset := u16 p 4 }

/-- The cursor image that `DISP.CONFIGURE_LAYER` loads is in Cellar (R485). -/
def cursorCellar (c : Cmd) : Bool := u8 c.payload 28 == 1

/-- The layer that `DISP.CONFIGURE_LAYER` describes; the cursor is 64 by 64, with the image that it loads (R485). -/
def dispLayer (image : List Byte) (c : Cmd) (a : State) : DispLayer :=
  let p := c.payload
  let cursor := u8 p 0 == 3
  { flags := u8 p 1
    width := if cursor then 64 else u16 p 2
    height := if cursor then 64 else u16 p 4
    plane := u8 p 6
    shift := u8 p 7
    colFirst := u16 p 8
    colCount := u16 p 10
    rowFirst := u16 p 12
    rowCount := u16 p 14
    traces := u64 p 16
    top := s16 p 24
    step := u16 p 26
    image := if !cursor then []
      else if cursorCellar c then a.cellarMem.readBytes (u64 p 32) 16384
      else image.take 16384 }

/-- A density layer within range, of a configured plane (R474, R485). -/
def densityLayer (l : DispLayer) (a : State) : Bool :=
  decide (l.plane ≤ 3) && decide (l.shift ≤ 31) && l.colCount != 0 && l.rowCount != 0 && decide (l.rowFirst + l.rowCount ≤ 1024) &&
    (a.plane l.plane).configured && decide (l.colFirst + l.colCount ≤ (a.plane l.plane).width)

/-- A trace layer within range, of at most eight configured traces none of which counts (R475, R485). -/
def traceLayer (l : DispLayer) (a : State) : Bool :=
  decide ((maskBits 64 l.traces).length ≤ 8) && l.step != 0 && decide (l.step ≤ 2560) &&
    (maskBits 64 l.traces).all fun u => (a.trace u).configured && (a.trace u).detector != 5

/-- `DISP.CONFIGURE_LAYER` with fields in range, within the active area where that is known (R485). -/
def dispLayerOk (c : Cmd) (a : State) : Bool :=
  let p := c.payload
  let n := u8 p 0
  let l := dispLayer [] c a
  decide (n ≤ 3) && decide (l.flags ≤ 3) && (!l.flags.testBit 0 || n == 2) && (!l.flags.testBit 1 || n == 0) &&
    l.width != 0 && l.height != 0 && zeros p 29 3 && zeros p 40 8 &&
    (n == 3 || a.disp.timing.all fun t => decide (l.width ≤ t.hActive) && decide (l.height ≤ t.vActive)) &&
    (n != 0 || densityLayer l a) && (n != 1 || traceLayer l a) &&
    (n != 3 || (decide (u8 p 28 ≤ 1) && u64 p 32 % 8 == 0 && (!cursorCellar c || a.inRegion (u64 p 32) 16384)))

/-- The state in which what a visible overlay of an enabled display then needs of Cellar is admitted (R481, R485). -/
def layerGranted (c : Cmd) (a : State) : Option State :=
  let l := dispLayer [] c a
  if a.disp.mode != .disabled && u8 c.payload 0 == 2 && (a.disp.place 2).visible then
    a.allot (actKey kindDisplay 0) [(0, (a.disp.timing.getD {}).overlayRate l.width l.height)]
  else some a

/-- That state, once the image of the cursor has been loaded. -/
def layerLoaded (c : Cmd) (a : State) : State :=
  let b := (layerGranted c a).getD a
  if u8 c.payload 0 = 3 then b.hostLoad c (u64 c.payload 32) 16384 (cursorCellar c) else b

/-- Operands that `DISP.SET_PALETTE` takes (R486). -/
def dispSetPalette (c : Cmd) : Bool :=
  let p := c.payload
  let n := u16 p 4
  p.length == 8 + 4 * n && decide (u8 p 0 ≤ 1) && zeros p 1 1 && zeros p 6 2 && n != 0 && decide (n ≤ 1022) &&
    decide (u16 p 2 + n ≤ if u8 p 0 = 0 then 1024 else 8)

/-- The palette entries of a `DISP.SET_PALETTE`. -/
def paletteEntries (p : List Byte) : List (Nat × Nat) :=
  (List.range (u16 p 4)).map fun k => (u8 p 0 * 1024 + u16 p 2 + k, u32 p (8 + 4 * k))

/-- The state in which the energy of the display, and what a visible overlay needs of Cellar, are admitted (R481, R487). -/
def dispGranted (a : State) : Option State :=
  match a.declare [{ fam := 0x13, obj := 0, group := 0, first := 5000000, each := 5000000 }] with
  | .error _ => none
  | .ok b =>
    if (a.disp.place 2).visible then
      b.allot (actKey kindDisplay 0)
        [(0, (a.disp.timing.getD {}).overlayRate (a.disp.layer 2).width (a.disp.layer 2).height)]
    else some b

/-- `DISP.ENABLE` of a disabled display with a timing and a sink, where energy and allotment fit (R487). -/
def dispEnable (c : Cmd) (a : State) : Bool :=
  u8 c.payload 0 == 0 && zeros c.payload 1 7 && a.disp.mode == .disabled && a.disp.timing.isSome && a.disp.hpd &&
    (dispGranted a).isSome

/-- The 256 bytes of EDID that a query writes where there is room for them (R487). -/
def edidAsked (edid : List Byte) (c : Cmd) : List Byte := if 320 ≤ c.room then (edid ++ leBytes 256 0).take 256 else []

/-- A frame leaves: the display runs, or runs on to the end of its frame (R488). -/
def scans (a : State) : Bool := a.disp.mode == .running || a.disp.mode == .quiescing

/-- The lines of the frame in the buffer as they leave, with the late ones as background (R477, R489). -/
def frameLines (a : State) : List (List Nat) :=
  let d := a.disp
  let t := d.timing.getD {}
  ((List.range d.buffer.length).zip d.buffer).map fun e =>
    if d.late.contains e.1 then List.replicate t.hActive t.background else e.2

/-- The state in which the frame that was composed has left, with EV_FRAME (R489). -/
def frameLeft (a : State) : State :=
  let d := a.disp
  if d.latched = d.frame then
    ((a.setDisp { d with frame := d.frame + 1 }).emit (.displayFrame d.frame (frameLines a))).event 0x1303 0
      (d.frame % 2 ^ 48 + 2 ^ 48 * bit (!d.late.isEmpty))
  else a

/-- An active line of the frame that leaves is late for the first time (R477). -/
def lineLate (line : Nat) (a : State) : Bool :=
  scans a && a.disp.latched == a.disp.frame && !a.disp.late.contains line && decide (line < (a.disp.timing.getD {}).vActive)

/-- The state in which the sink has gone (R470). -/
def sinkGone (a : State) : State := a.setDisp { a.disp with hpd := false, lanes := 0, rate := 0 }

/-- The state in which the settings of a latch line are in force: those completed since the last one, then an occurrence
of group 22, where no DISP command in flight holds it back. -/
def latched (a : State) : State :=
  let b := ((a.setDisp { a.disp with vblank := a.stampNow }).latchSettings).event 0x1301 0 ((a.disp.frame - 1) % 2 ^ 48)
  let b := if a.groupHeld 22 then b
    else match b.fcw.occ.find 22 with
      | some o => (b.dispTake o.words).occApplied 22
      | none => b
  b.latchOverlay

/-- A link that is trained for a display that waits for it, with its command or commands. -/
def trained (lanes rate : Nat) (a : State) : Bool :=
  a.disp.mode == .training && a.disp.hpd && [1, 2, 4].contains lanes && rate != 0 && decide (rate ≤ 4)

/-- Operands that `BUDGET.SET_POWER_CAP` takes, with a cap that covers what is declared (R503). -/
def budgetCap (c : Cmd) (a : State) : Bool :=
  let p := c.payload
  (u16 p 0 == 0 || (decide (150 ≤ u16 p 0) && decide (u16 p 0 ≤ 560))) && decide (u8 p 2 ≤ 100) && decide (u8 p 3 ≤ 64) &&
    decide (u8 p 4 ≤ 1) && zeros p 5 3 && (u16 p 0 == 0 || decide (a.bud.declared100 a.powerOp ≤ u16 p 0 * 100000000))

/-- A setting that 0 leaves as it is. -/
def kept (asked old : Nat) : Nat := if asked = 0 then old else asked

/-- Operands that `BUDGET.GRANT` takes for an activity that exists (R504). -/
def budgetActivity (c : Cmd) (a : State) : Bool :=
  let p := c.payload
  let slot (r : Nat) : Nat := u64 p (16 + 8 * r)
  let only (r k : Nat) : Bool := slot r == keepRate || slot r == 0 || u8 p 0 == k
  activityInRange (u8 p 0) (u32 p 4) && decide (u8 p 1 ≤ 7) && zeros p 2 2 && zeros p 8 8 && slot 1 == keepRate &&
    only 3 kindSite && only 7 kindKernel && a.activityExists (u8 p 0) (u32 p 4) && !((u8 p 1).testBit 0 && c.fn == 0)

/-- The allotments with the rates of a GRANT. -/
def granted (c : Cmd) (a : State) : Budget :=
  let p := c.payload
  let x : Alloc := { rates := a.grantRates (u8 p 0) (u32 p 4) p, override := (u8 p 1).testBit 0 }
  { a.bud with allocs := a.bud.allocs.set (actKey (u8 p 0) (u32 p 4)) x }

/-- `BUDGET.GRANT` that lowers nothing of the calibration's, fits, and adds energy only where it fits (R494, R504). -/
def budgetGrant (c : Cmd) (a : State) : Bool :=
  let p := c.payload
  let kind := u8 p 0
  let act := actKey kind (u32 p 4)
  let held := (a.alloc act).rates
  let new := a.grantRates kind (u32 p 4) p
  budgetActivity c a && !(u8 p 1).testBit 2 && !(kind == kindCal && held.any fun e => decide (new.get e.1 0 < e.2)) &&
    a.fits act (new.filter fun e => e.1 != 8) ((u8 p 1).testBit 0) &&
    !(decide (held.get 8 0 < new.get 8 0) && a.shortfall (granted c a) a.powerOp != 0)

/-- `BUDGET.REVOKE` of an activity that exists, and not of the calibration's (R505). -/
def budgetRevoke (c : Cmd) (a : State) : Bool :=
  let p := c.payload
  activityInRange (u8 p 0) (u32 p 4) && zeros p 1 3 && u8 p 0 != kindCal && a.activityExists (u8 p 0) (u32 p 4)

/-- The state in which the stop of the owner that a REVOKE names leaves the module when it ends at once. -/
def stoppedOwner (c : Cmd) (a : State) : Option State :=
  match ownerStop c (u8 c.payload 0) (u32 c.payload 4) a with
  | .done _ _ b => some b
  | _ => none

/-- The state in which that stop leaves the module when it goes on, with what it notes of the command. -/
def stoppingOwner (c : Cmd) (a : State) : Option (Nat × List Nat × State) :=
  match ownerStop c (u8 c.payload 0) (u32 c.payload 4) a with
  | .running n d b => some (n, d, b)
  | _ => none

/-- Work of an activity that holds the resource is late (R497). -/
def late (kind obj res : Nat) (a : State) : Bool :=
  (a.alloc (actKey kind obj)).rates.get res 0 != 0 && (!(kind == kindFlow && res == 2) || a.flowLate obj)

/-- That work is urgent from here on. -/
def hurried (kind obj res : Nat) (a : State) : State :=
  if kind = kindFlow ∧ res = 2 then a.setFlow obj { a.flow obj with urgent := true } else a

/-- `FAULT.READ_LOG` with room for an entry (R528). -/
def faultReadLog (c : Cmd) : Bool :=
  let p := c.payload
  u16 p 8 != 0 && decide (u16 p 8 ≤ 1024) && decide (u8 p 10 ≤ 1) && zeros p 11 5 && decide (128 ≤ c.room)

/-- The entries that `FAULT.READ_LOG` writes. -/
def faultEntries (c : Cmd) (a : State) : List LogEntry :=
  let p := c.payload
  (a.ft.log.filter fun e => decide (u64 p 0 ≤ e.seq) && (u8 p 10 == 0 || e.kind == 2)).take (min (u16 p 8) ((c.room - 64) / 64))

/-- `FAULT.INJECT` of a unit in service, in a pool with a spare, that nothing makes wait: a slice in use has a spare that is
warm, and no takeover of a Steward pair runs (R530). -/
def faultInject (c : Cmd) (a : State) : Bool :=
  let u := a.injectUnit c.payload
  zeros c.payload 1 1 && zeros c.payload 6 2 && ! [7, 16, 17, 22].contains u.cls && poolCount u.cls != 0 && a.inService u &&
    a.sparesLeft u.cls u.pool != 0 &&
    !(u.cls == 1 && ((a.input u.pool).slice u.unit).role == .active && (a.input u.pool).spareSlice.isNone) &&
    (u.cls != 6 || a.ft.takeover.isEmpty)

/-- The state after the fault that `FAULT.INJECT` makes. -/
def injected (c : Cmd) (a : State) : State := a.failUnit (a.injectUnit c.payload) true

/-- The fault state that `FAULT.CLEAR_LOG` leaves (R531). -/
def faultCleared (c : Cmd) (a : State) : FaultState :=
  let fl := u8 c.payload 0
  let f := { a.ft with log := [], cleared := a.ft.written }
  let f := if fl.testBit 1 then { f with masked := 0, unmasked := 0, correctedSram := 0, faults := [] } else f
  if fl.testBit 0 then { f with selfTest := f.injected } else f

/-- `CAL.RUN` of units that nothing uses, of functions that are ready (R541). -/
def calRun (c : Cmd) (a : State) : Bool :=
  let p := c.payload
  let units := span (u16 p 2) (u16 p 4)
  calRangeOk p 9 && units.all (fun u => a.readyBit (calBit (u8 p 0) u)) && !(u8 p 0 == 8 && a.cal.deskewRunning) &&
    units.all fun u => (a.calUser (u8 p 0) u).isNone

/-- The units that `CAL.RUN` names and that are there. -/
def calUnits (c : Cmd) (a : State) : List Nat :=
  (span (u16 c.payload 2) (u16 c.payload 4)).filter fun u => a.calPresent (u8 c.payload 0) u

/-- Those of `units` that fall outside their limits. -/
def outside (units failed : List Nat) : List Nat := units.filter fun u => failed.contains u

/-- Those that do not. -/
def inside (units failed : List Nat) : List Nat := units.filter fun u => !failed.contains u

/-- Units of a class that have fallen due, are idle and can be trimmed (R543). -/
def calDue (cls : Nat) (units : List Nat) (a : State) : List Nat :=
  units.filter fun u => decide (u < calSize cls) && a.readyBit (calBit cls u) && a.calDue cls u && (a.calUser cls u).isNone &&
    a.calPresent cls u && (cls != 8 || a.deskewable u)

/-- A scheduled pass may begin (R538, R544). -/
def calPass (cls : Nat) (units : List Nat) (a : State) : Bool :=
  a.stewardRuns && !(calDue cls units a).isEmpty && !a.cal.deskewRunning && !(cls == 8 && a.cal.runs.any fun r => r.why == 3)

/-- `CAL.SET_SCHEDULE` of a mode that the class accepts (R543). -/
def calSchedule (c : Cmd) (a : State) : Bool :=
  let p := c.payload
  (calModes (u8 p 0)).contains (u8 p 1) && zeros p 3 1 && (u8 p 1 != 3 || (decide (1 ≤ u8 p 2) && decide (u8 p 2 ≤ 20))) &&
    (u8 p 1 != 2 || (decide (10 ≤ u32 p 4) && decide (u32 p 4 ≤ 604800))) && a.readyBit (calBit (u8 p 0) 0)

/-- What `CAL.RUN` or a scheduled pass over `units` leaves: the trims, and EV_CAL_DONE with both counts. -/
def calibrated (cls : Nat) (units failed : List Nat) (values : List (Nat × Nat)) (scheduled : Bool) (a : State) : State :=
  (a.calUnits cls units failed values).evCalDone cls (units.length - (outside units failed).length)
    (outside units failed).length scheduled

/-- A Steward pair that works. -/
def pairWorks (v : Nat) (a : State) : Bool :=
  a.pw.steward && decide (v ≤ 4) && !a.ft.haltedPairs.contains v && !a.isRetired ⟨6, 0, v⟩

/-- The faults that a PLL's own twin is there for, or not. -/
def pllServes (pair unit : Nat) (a : State) : Bool :=
  decide (pair ≤ 9) && decide (unit ≤ 1) && !a.isRetired ⟨15, pair, unit⟩

/-- The self-test of a unit has ended; `b` is the state it leaves. -/
def tested (u : Unit3) (b : State) : State := { b with ft := { b.ft with selfTest := b.ft.selfTest.filter (· != u) } }

/-- A unit of a class of whole units that has not failed yet. -/
def unitServes (u : Unit3) (a : State) : Bool := decide (u.pool < poolCount u.cls ∧ u.unit < poolUnits u.cls) && !a.isRetired u

/-- `SEC.SET_OWNER_KEY` that the counter, the reserved bytes and the owner's signature allow (R566). -/
def secOwner (c : Cmd) (a : State) : Bool :=
  let p := c.payload
  decide (u8 p 0 ≤ 1) && decide (u8 p 1 ≤ 3) && zeros p 2 2 && zeros p 141 3 && (u8 p 0 != 1 || zeros p 8 133) &&
    u32 p 4 == a.counter 1 && a.ownerAuth p && decide (a.counter 1 < 64)

/-- `SEC.UPDATE_FIRMWARE` with ACTION `act` and its reserved bytes zero (R565). -/
def secUpdate (act : Nat) (c : Cmd) : Bool := u8 c.payload 0 == act && zeros c.payload 2 2 && zeros c.payload 16 8

/-- The report of `SEC.ATTEST` (R564). -/
def report (c : Cmd) (a : State) : List Byte :=
  a.attestBody (c.payload.take 64) ++ deviceSignature (a.attestBody (c.payload.take 64))

/-- The state after the scan of `ID.SCAN` (R554). -/
def scanned (mems : List (Nat × List Byte)) (stuck : List Nat) (c : Cmd) (a : State) : State :=
  a.scanBuses (maskBits 4 (if u8 c.payload 0 = 0 then 15 else u8 c.payload 0)) mems stuck

/-- Operands of `ID.READ_RECORD` in range, and room for the `out` that it writes (R555). -/
def idRead (out : List Byte) (c : Cmd) : Bool :=
  decide (u8 c.payload 0 ≤ 3) && decide (u8 c.payload 1 ≤ 7) && decide (u8 c.payload 2 ≤ 1) && zeros c.payload 3 1 &&
    decide (out.length ≤ c.room)

/-- What `ID.READ_RECORD` writes: the entry, and the record of a memory that answers, from the cache or from the device
(R555). -/
def idRecord (mem : Option (List Byte)) (stuck : Bool) (c : Cmd) (a : State) : List Byte :=
  let k := 8 * u8 c.payload 0 + u8 c.payload 1
  let d := if u8 c.payload 2 = 1 then idDevOf a.sec.owner mem stuck else a.idDev k
  d.entry k ++ (if d.status = 0 ∨ d.status = 8 then [] else d.bytes)

/-- The image that `SEC.UPDATE_FIRMWARE` loads: what host memory returns, or what Cellar holds (R565). -/
def firmware (image : List Byte) (c : Cmd) (a : State) : List Byte :=
  if u8 c.payload 1 = 1 then a.cellarMem.readBytes (u64 c.payload 8) (u32 c.payload 4) else image

/-- An image may be loaded: from host memory, or from a Cellar region outside recovery (R565). -/
def loadable (c : Cmd) (a : State) : Bool :=
  secUpdate 0 c && (u8 c.payload 1 == 0 ||
    (u8 c.payload 1 == 1 && !a.sec.recovery && a.inRegion (u64 c.payload 8) (u32 c.payload 4)))

/-- Records of a scan that are valid. -/
def validRecords (a : State) : Nat := ((List.range 32).filter fun k => (a.idDev k).status == 1 || (a.idDev k).status == 2).length

/-- Bring-up waits for secure boot, and the boot ROM accepts the slots `ok`. -/
def booting (ok : List Nat) (a : State) : Bool := a.pw.state == .starting && !a.pw.steward && ok.all (a.bootable ok ·)

/-- A function that becomes ready for the first time, at power-up. -/
def firstReady (b : Nat) (a : State) : Bool := a.canReady b && (a.resetsOf b).isEmpty

/-- A function that a reset has quiesced becomes ready again. -/
def readyAgain (b : Nat) (a : State) : Bool := a.canReady b && !(a.resetsOf b).isEmpty

/-- A bit has been set, with its event, and the resets that wait for it complete. -/
def announced (b : Nat) (a : State) : State := ((a.setReady b).event 0x0101 0 b).finishResets b

/-- A function has failed to come up. -/
def missing (b : Nat) (a : State) : State := { a with pw := { a.pw with failed := a.pw.failed ||| 2 ^ b } }

/-- What boundary scan that holds the module in reset with `i` leaves of it (R559). -/
def scanHeld (i : TapInstr) (a : State) : State :=
  ({ a with
    stim := a.stim.mapVals (fun _ x => x.silent)
    sec := { a.sec with tap := i, tapHeld := true }
    ck := { a.ck with ppsOutHigh := false }
    pw := { a.pw with tickRunning := false, alive := false } } : State).linkDown

/-- Function `fn` goes to D3hot, the link with it where `l2` says so. -/
def asleep (fn : Nat) (l2 : Bool) (a : State) : State :=
  let b := a.setFunc fn { a.func fn with d3hot := true }
  if l2 then { b with host := { b.host with link := .l2 } } else b

/-- The module may stand by: it is idle, and both functions are in D3hot (R580). -/
def mayStandBy (a : State) : Bool :=
  a.pw.state == .running && (a.func 0).d3hot && (a.func 1).d3hot && a.standbyDomains && a.cell.change.isNone

/-- What a running image of slot `k` makes of a module; `fallback` says that the other slot was asked for. -/
def booted (k : Nat) (fallback : Bool) (carrier : List Byte) (a : State) : State :=
  ({ a with
    host := { a.host with clocking := clockingOf carrier }
    sec := { a.sec with
      runningSlot := k, fallback, recovery := false, staged := a.sec.staged && k == a.sec.runningSlot } } : State).stewardUp

/-- The rows that act whatever the power state: the feeds, SHUTDOWN_N, the end of the supply's start, and the
boundary scan chain (R569, R578). -/
def actsUnpowered : Instr → Bool
  | .feedPresent .. | .feedLost .. | .feedRestored .. | .shutdownNLow .. | .shutdownNRise .. | .powerGood ..
  | .tapInstructionLoad .. | .tapTestLogicReset .. => true
  | _ => false

end Sys2Proof.Cond
end

