-- ==== Sys2Proof/Effects.lean ====
section
/-! DEFINITION. What the statements say that each command does: the next state, from the command and the state at the
row's tick. -/

namespace Sys2Proof

open Sys2Proof.Machine

/-- What `doorbellWrite` does (`DoorbellAndChannelRows`). -/
abbrev Eff.doorbellWrite (fn : Nat) (chan : Nat) (hostBytes : List Byte) (a : State) : State :=
  ((a.setChan fn chan { a.chan fn chan with
    valid := false, awaiting := true, ackSeq := wrapAdd 32 (a.chan fn chan).ackSeq 1,
    snapshot := some ((a.chan fn chan).take hostBytes) }).readPayload fn ((a.chan fn chan).take hostBytes)).serveChan fn chan

/-- What `doorbellWrite` does (`DoorbellAndChannelRows`). -/
abbrev Eff.doorbellWrite2 (fn : Nat) (chan : Nat) (a : State) : State :=
  a.setChan fn chan { a.chan fn chan with doorbellNoLock := true }

/-- What `doorbellWrite` does (`DoorbellAndChannelRows`). -/
abbrev Eff.doorbellWrite3 (fn : Nat) (chan : Nat) (a : State) : State :=
  a.setChan fn chan { a.chan fn chan with doorbellLost := true }

/-- What `chanStateClear` does (`DoorbellAndChannelRows`). -/
abbrev Eff.chanStateClear (fn : Nat) (chan : Nat) (value : Nat) (a : State) : State :=
  a.setChan fn chan { a.chan fn chan with
    doorbellLost := (a.chan fn chan).doorbellLost && !value.testBit 16
    doorbellNoLock := (a.chan fn chan).doorbellNoLock && !value.testBit 17
    lockBroken := (a.chan fn chan).lockBroken && !value.testBit 18 }

/-- What `timeLatchWrite` does (`DoorbellAndChannelRows`). -/
abbrev Eff.timeLatchWrite (fn : Nat) (a : State) : State :=
  a.setFunc fn { a.func fn with timeLatched := a.stampNow }

/-- What `ringConsWrite` does (`RingAndWindowRows`). -/
abbrev Eff.ringConsWrite (fn : Nat) (ring : Nat) (value : Nat) (a : State) : State :=
  let r : Ring := { (a.func fn).ring true ring with cons := value % 2 ^ 32, since := a.now }
  let r : Ring := { r with unsignalled := r.fill }
  let b := a.setFunc fn ((a.func fn).setRing true ring r)
  (if r.enabled && r.signals then b.signalRing fn true ring else b).flushCompl fn

/-- What `ringConsWrite` does (`RingAndWindowRows`). -/
abbrev Eff.ringConsWrite2 (fn : Nat) (ring : Nat) (value : Nat) (a : State) : State :=
  let r : Ring := { (a.func fn).ring false ring with cons := value % 2 ^ 32, since := a.now }
  let r : Ring := { r with unsignalled := r.fill }
  let b := a.setFunc fn ((a.func fn).setRing false ring r)
  (if r.enabled && r.signals then b.signalRing fn false ring else b).flushEr fn ring

/-- What `ringOverflowClear` does (`RingAndWindowRows`). -/
abbrev Eff.ringOverflowClear (fn : Nat) (ring : Nat) (a : State) : State :=
  a.setFunc fn ((a.func fn).setRing false ring { (a.func fn).ring false ring with overflow := false })

/-- What `ringCoalesceTimeout` does (`RingAndWindowRows`). -/
abbrev Eff.ringCoalesceTimeout (fn : Nat) (completion : Bool) (ring : Nat) (a : State) : State :=
  (a.setFunc fn ((a.func fn).setRing completion ring
    { (a.func fn).ring completion ring with unsignalled := 0 })).message fn
      ((a.func fn).ring completion ring).vector

/-- What `registerWrite` does (`RingAndWindowRows`). -/
abbrev Eff.registerWrite (fn : Nat) (offset : Nat) (b0 : Byte) (b1 : Byte) (b2 : Byte) (b3 : Byte) (a : State) : State :=
  (a.writeConfig fn offset (leNat [b0, b1, b2, b3])).msixRelease fn

/-- What `registerWrite` does (`RingAndWindowRows`). -/
abbrev Eff.registerWrite2 (fn : Nat) (ring : Nat) (k : Nat) (completion : Bool) (b : Byte) (a : State) : State :=
  a.consWrite fn completion ring (mergeBytes ((a.func fn).ring completion ring).cons k [b])

/-- What `registerWrite` does (`RingAndWindowRows`). -/
abbrev Eff.registerWrite3 (fn : Nat) (n : Nat) (k : Nat) (b : Byte) (a : State) : State :=
  a.setChan fn n { a.chan fn n with area := (a.chan fn n).area.write k b }

/-- What `registerWrite` does (`RingAndWindowRows`). -/
abbrev Eff.registerWrite4 (k : Nat) (b : Byte) (a : State) : State :=
  (a.setFunc 0 { a.func 0 with
    msixTable := (a.func 0).msixTable.write (0x8000 + k) (msixFlip (0x8000 + k) b) }).msixRelease 0

/-- What `registerWrite` does (`RingAndWindowRows`). -/
abbrev Eff.registerWrite5 (bytes : List Byte) (a : State) : State :=
  { a with pw := { a.pw with alertMask := u8 bytes 0 % 32 } }

/-- What `apertureRead` does (`RingAndWindowRows`). -/
abbrev Eff.apertureRead (addr : Nat) (length : Nat) (a : State) : State :=
  (a.emit (.readData ((span addr length).map fun k =>
    if a.apertureOpen k false && a.cellarReadable k 1 then a.cellarMem.read k else 0#8))).chargeAperture
      ((span addr length).filter fun k => a.apertureOpen k false).length length 6

/-- What `apertureWrite` does (`RingAndWindowRows`). -/
abbrev Eff.apertureWrite (addr : Nat) (bytes : List Byte) (a : State) : State :=
  (a.apertureWrite addr bytes).chargeAperture
    (partialCost ((span addr bytes.length).filter fun k => a.apertureOpen k true).length) bytes.length 5

/-- What `keyUnlockWrite` does (`FastControlRows`). -/
abbrev Eff.keyUnlockWrite (fn : Nat) (value : Nat) (a : State) : State :=
  a.setFunc fn { a.func fn with keyOpen := value == 0x7840 }

/-- What `fcwEnableWrite` does (`FastControlRows`). -/
abbrev Eff.fcwEnableWrite (value : Nat) (a : State) : State :=
  (a.setFunc 0 { a.func 0 with keyOpen := false }).setFcw { a.fcw with enable := value.testBit 0 }

/-- What `fcwEnableWrite` does (`FastControlRows`). -/
abbrev Eff.fcwEnableWrite2 (a : State) : State :=
  a.setFcw { a.fcw with keyRefused := true }

/-- What `updateStrobeWrite` does (`FastControlRows`). -/
abbrev Eff.updateStrobeWrite (mask : Nat) (a : State) : State :=
  (maskBits 32 mask).foldl (fun b g => b.strobe g) a

/-- What `fcwResyncWrite` does (`FastControlRows`). -/
abbrev Eff.fcwResyncWrite (mask : Nat) (a : State) : State :=
  a.setFcw { a.fcw with resyncBusy := true, resyncMask := mask % 2 ^ 32 }

/-- What `fcwResyncWrite` does (`FastControlRows`). -/
abbrev Eff.fcwResyncWrite2 (a : State) : State :=
  a.setFcw { a.fcw with rwpDropped := true }

/-- What `resyncComplete` does (`FastControlRows`). -/
abbrev Eff.resyncComplete (a : State) : State :=
  let b := (maskBits 32 a.fcw.resyncMask).foldl (fun b g => b.resyncGroup g) a
  b.setFcw { b.fcw with resyncBusy := false }

/-- What `fcwStatusClear` does (`FastControlRows`). -/
abbrev Eff.fcwStatusClear (value : Nat) (a : State) : State :=
  a.setFcw { a.fcw with
    keyRefused := a.fcw.keyRefused && !value.testBit 2
    rwpDropped := a.fcw.rwpDropped && !value.testBit 3 }

/-- What `strobeOccurrenceApply` does (`FastControlRows`). -/
abbrev Eff.strobeOccurrenceApply (group : Nat) (o : Occ) (vecs : List (Nat × Nat)) (a : State) : State :=
  (((a.groupUnits group).filter fun u => !o.taken.contains u).foldl
    (fun b u => b.takeUnit group u (indexIn vecs u) o.words) a).occTaken group
      ((a.groupUnits group).filter fun u => !o.taken.contains u)

/-- What `sysHello` does (`AcknowledgedRows`). -/
abbrev Eff.sysHello (fn : Nat) (n : Nat) (c : Cmd) (a : State) : State :=
  ((a.withSession fn).writeResult c ((a.withSession fn).helloBytes fn)).ack fn n .ok c.tag

/-- What `sysSetEventRing` does (`AcknowledgedRows`). -/
abbrev Eff.sysSetEventRing (fn : Nat) (n : Nat) (c : Cmd) (a : State) : State :=
  (a.ringOn fn (RingSetup.of c.payload)).ack fn n .ok c.tag

/-- What `sysSetEventRing` does (`AcknowledgedRows`). -/
abbrev Eff.sysSetEventRing2 (fn : Nat) (n : Nat) (c : Cmd) (a : State) : State :=
  (a.ringOff fn (RingSetup.of c.payload).completion (RingSetup.of c.payload).index).ack fn n .ok c.tag

/-- What `servicePairWake` does (`AcknowledgedRows`). -/
abbrev Eff.servicePairWake (pair : Nat) (a : State) : State :=
  ({ a with ft := { a.ft with asleep := a.ft.asleep.filter (· != pair) } } : State).serveChans

/-- What `servicePairSleep` does (`AcknowledgedRows`). -/
abbrev Eff.servicePairSleep (pair : Nat) (a : State) : State :=
  { a with ft := { a.ft with asleep := a.ft.asleep ++ [pair] } }

/-- What `commandTimeout` does (`AcknowledgedRows`). -/
abbrev Eff.commandTimeout (c : Cmd) (a : State) : State :=
  a.finish c .timeout (if c.opcode = 0x0102 then a.ready.toNat else 0)

/-- What `sysGetInfo` does (`SysVerbsComplete`). -/
abbrev Eff.sysGetInfo (c : Cmd) (a : State) : State :=
  (a.writeResult c (if u16 c.payload 0 = 0 then a.infoPage0 else infoPage1)).finish c .ok 64

/-- What `sysResetFunction` does (`SysVerbsComplete`). -/
abbrev Eff.sysResetFunction (c : Cmd) (a : State) : State :=
  let fam := u8 c.payload 0
  let obj := u32 c.payload 4
  let names := a.resetList fam obj
  let b := names.foldl (fun b n => b.resetQuiesce fam n)
    (((a.clearReady (resetMask fam obj)).forgive (resetMask fam obj)).markStarted c (2 ^ 32 * a.now) (names.map (resetKey fam)))
  let d := names.foldl (fun b n => if b.resetBusy fam n then b else b.restDone (resetKey fam n) 0) b
  match d.host.cmds.find? fun e => e.seq == c.seq with
  | some e => d.markStarted c (if names.isEmpty then 0 else e.aux) e.named
  | none => d.markStarted c 0 []

/-- What `clockSetRef` does (`ClockVerbsComplete`). -/
abbrev Eff.clockSetRef (c : Cmd) (a : State) : State :=
  let p := c.payload
  let turned := u8 p 3 != a.ck.ppsEdge
  let off := u8 p 2 != 0 && u8 p 2 != a.ck.refDetected
  let uses := ({ a.ck with mode := u8 p 0 } : Clock).usesCause
  let cause := if off && a.ck.refQual && uses 1 then 1 else if turned && a.ck.ppsQual then 2 else 0
  let k : Clock := { a.ck with
      mode := u8 p 0, bandwidth := u8 p 1, refFreq := u8 p 2, ppsEdge := u8 p 3, ppsDelay := s32 p 4
      qualMs := if u32 p 8 = 0 then 1000 else u32 p 8
      ppsQual := if turned then false else a.ck.ppsQual, ppsRun := if turned then 0 else a.ck.ppsRun
      refQual := a.ck.refQual && !off }
  (({ a with ck := k } : State).loopUpdate cause).drawFree.finish c .ok
    (k.detected (a.freeNat 2))

/-- What `clockGetStatus` does (`ClockVerbsComplete`). -/
abbrev Eff.clockGetStatus (freqOffset : Nat) (oscDiff : Nat) (c : Cmd) (a : State) : State :=
  (a.drawFree.writeResult c (a.clockStatus freqOffset oscDiff)).finish c .ok 0

/-- What `clockSetTime` does (`ClockVerbsComplete`). -/
abbrev Eff.clockSetTime (c : Cmd) (a : State) : State :=
  (a.bindTime { tick := a.lift (u64 c.payload 8) } (u64 c.payload 16) false).finish c .ok (u64 c.payload 8)

/-- What `clockSetTime` does (`ClockVerbsComplete`). -/
abbrev Eff.clockSetTime2 (st : Stamp) (c : Cmd) (a : State) : State :=
  (a.bindTime st (u64 c.payload 16) true).finish c .ok st.tick

/-- What `clockSetOutput` does (`ClockVerbsComplete`). -/
abbrev Eff.clockSetOutput (c : Cmd) (a : State) : State :=
  ({ a with ck := { a.ck with
    ppsOutOn := u8 c.payload 1 == 1, ppsOutHigh := a.ck.ppsOutHigh && u8 c.payload 1 == 1 } } : State).finish c .ok 0

/-- What `clockSetOutput` does (`ClockVerbsComplete`). -/
abbrev Eff.clockSetOutput2 (c : Cmd) (a : State) : State :=
  (a.muteGen (u8 c.payload 0 + 1)).finish c .ok 0

/-- What `clockSetOutput` does (`ClockVerbsComplete`). -/
abbrev Eff.clockSetOutput3 (c : Cmd) (a : State) : State :=
  let f := achieved (u64 c.payload 8)
  let r := a.tune (u8 c.payload 0 + 1) f (u8 c.payload 2)
  if r.2 then r.1.markStarted c 0 [] else r.1.finish c .ok f

/-- What `clockLoadRamp` does (`ClockVerbsComplete`). -/
abbrev Eff.clockLoadRamp (c : Cmd) (a : State) : State :=
  let p := c.payload
  let x := a.gen (u8 p 0)
  let segs := (List.zip (span (u16 p 2) (u16 p 4)) ((records (u16 p 4) 24 (p.drop 16)).map rampSegOf)).foldl
    (fun m e => KMap.set m e.1 e.2) (x.banks.get (u8 p 1) {}).segs
  (a.setGen (u8 p 0) { x with
    banks := x.banks.set (u8 p 1) { segs, length := u16 p 6, rep := u32 p 8 } }).finish c .ok 0

/-- What `clockStartRamp` does (`ClockVerbsComplete`). -/
abbrev Eff.clockStartRamp (c : Cmd) (a : State) : State :=
  let p := c.payload
  let x := a.gen (u8 p 0)
  (a.setGen (u8 p 0) { x with
    ramp := .armed, bank := u8 p 1, sched := { mode := u8 p 2, at_ := u64 p 8 }, freqBefore := x.freq }).markStarted
      c 0 []

/-- What `clockStopRamp` does (`ClockVerbsComplete`). -/
abbrev Eff.clockStopRamp (c : Cmd) (a : State) : State :=
  let y := a.gen (u8 c.payload 0)
  let x : ClockGen := if y.ramp = .done then y else { y with ramp := .stopped }
  if u8 c.payload 1 = 0 ∨ x.freq = x.freqBefore then (a.setGen (u8 c.payload 0) x).finish c .ok x.freq
  else (a.setGen (u8 c.payload 0) { x with nextFreq := some x.freqBefore }).markStarted c 0 []

/-- What `clockStopRamp` does (`ClockVerbsComplete`). -/
abbrev Eff.clockStopRamp2 (c : Cmd) (a : State) : State :=
  a.finish c .ok (a.gen (u8 c.payload 0)).freq

/-- What `clockSetVectorClock` does (`ClockVerbsComplete`). -/
abbrev Eff.clockSetVectorClock (c : Cmd) (a : State) : State :=
  let f := achieved (u64 c.payload 0)
  let r := a.tune 0 f (u8 c.payload 9)
  if r.2 then r.1.markStarted c 0 [] else r.1.finish c .ok f

/-- What `ocxoHardFault` does (`ReferenceRows`). -/
abbrev Eff.ocxoHardFault (osc : Nat) (a : State) : State :=
  ({ a with ck := { a.ck with
    oscStopped := a.ck.oscStopped.filter (· != osc) ++ [osc]
    oscDead := a.ck.oscDead ++ [osc] } } : State).faultMasked ⟨13, 0, osc⟩ {}

/-- What `ocxoHardFault` does (`ReferenceRows`). -/
abbrev Eff.ocxoHardFault2 (osc : Nat) (a : State) : State :=
  (({ a with ck := { a.ck with
    oscStopped := a.ck.oscStopped.filter (· != osc) ++ [osc]
    oscDead := a.ck.oscDead ++ [osc], activeOsc := 1 - osc } } : State).event
    0x0204 (6 + (1 - osc)) (6 + osc)).faultMasked ⟨13, 0, osc⟩ { takenBy := 1 - osc }

/-- What `warmReached` does (`ReferenceRows`). -/
abbrev Eff.warmReached (ms : Nat) (a : State) : State :=
  ((({ a with ck := { a.ck with warmAt := some a.now } } : State).event 0x0201 0 (ms % 2 ^ 32)).setReady
    4).event 0x0101 0 4

/-- What `refInQualified` does (`ReferenceRows`). -/
abbrev Eff.refInQualified (freq : Nat) (farther : Nat) (a : State) : State :=
  (({ a with ck := { a.ck with refDetected := freq, refQual := true } } : State).loopUpdate 0).settleOsc
    farther

/-- What `refInLost` does (`ReferenceRows`). -/
abbrev Eff.refInLost (a : State) : State :=
  ({ a with ck := { a.ck with refDetected := 0, refQual := false } } : State).loopUpdate 1

/-- What `ppsInQualified` does (`ReferenceRows`). -/
abbrev Eff.ppsInQualified (farther : Nat) (a : State) : State :=
  (({ a with ck := { a.ck with ppsQual := true } } : State).loopUpdate 0).settleOsc farther

/-- What `ppsInLost` does (`ReferenceRows`). -/
abbrev Eff.ppsInLost (a : State) : State :=
  ({ a with ck := { a.ck with ppsQual := false, ppsRun := 0 } } : State).loopUpdate 2

/-- What `ppsOutSecond` does (`ReferenceRows`). -/
abbrev Eff.ppsOutSecond (a : State) : State :=
  { a with ck := { a.ck with ppsOutHigh := true } }

/-- What `ppsOutPulseEnd` does (`ReferenceRows`). -/
abbrev Eff.ppsOutPulseEnd (a : State) : State :=
  { a with ck := { a.ck with ppsOutHigh := false } }

/-- What `disciplineLoopLocked` does (`ReferenceRows`). -/
abbrev Eff.disciplineLoopLocked (a : State) : State :=
  ({ a with ck := { a.ck with tb := .locked } } : State).evLock 0 2

/-- What `synthBandSearchDone` does (`SynthesiserRows`). -/
abbrev Eff.synthBandSearchDone (g : Nat) (a : State) : State :=
  a.setGen g { a.gen g with settling := true }

/-- What `synthBandSearchDone` does (`SynthesiserRows`). -/
abbrev Eff.synthBandSearchDone2 (n : Nat) (a : State) : State :=
  { a with ck := { a.ck with
    sampleSettling := a.ck.sampleSettling.filter (· != n) ++ [n] } }

/-- What `synthLockDetected` does (`SynthesiserRows`). -/
abbrev Eff.synthLockDetected (g : Nat) (a : State) : State :=
  (a.setSynth g { a.gen g with settling := false } .locked).finishGen g

/-- What `synthLockDetected` does (`SynthesiserRows`). -/
abbrev Eff.synthLockDetected2 (a : State) : State :=
  (a.vcZero.setSynth 0 { a.gen 0 with settling := false, zeroing := true } .locked).finishZero

/-- What `synthLockLost` does (`SynthesiserRows`). -/
abbrev Eff.synthLockLost (g : Nat) (a : State) : State :=
  a.setSynth g { a.gen g with stuck := false } .coasting

/-- What `synthReacquireTimeout` does (`SynthesiserRows`). -/
abbrev Eff.synthReacquireTimeout (g : Nat) (a : State) : State :=
  a.setGen g { a.gen g with stuck := true }

/-- What `sampleSynthFault` does (`SynthesiserRows`). -/
abbrev Eff.sampleSynthFault (a : State) : State :=
  let b := a.setSample 0 .muted
  (({ b with ck := { b.ck with primary := 1 } } : State).event 0x0204 2 1).faultMasked ⟨14, 0, 0⟩ { takenBy := 1 }

/-- What `idleCoreLocked` does (`SynthesiserRows`). -/
abbrev Eff.idleCoreLocked (g : Nat) (f : Nat) (a : State) : State :=
  (a.setSynth g { a.gen g with freq := f, nextFreq := none, stuck := false } .locked).finishGen g

/-- What `rampUpdate` does (`SynthesiserRows`). -/
abbrev Eff.rampUpdate (g : Nat) (a : State) : State :=
  let x := a.gen g
  let r := (x.banks.get x.bank {}).segs.get x.seg {}
  a.setGen g (x.drive (r.freqAt (min (x.elapsedNs a.now) r.dur)))

/-- What `rampSegmentEnd` does (`SynthesiserRows`). -/
abbrev Eff.rampSegmentEnd (g : Nat) (a : State) : State :=
  let x := a.gen g
  let b := x.banks.get x.bank {}
  a.setGen g (({ x with
    seg := x.seg + 1, segStart := x.segStart + (b.segs.get x.seg {}).dur * 128 / 5 } : ClockGen).drive
      (b.segs.get (x.seg + 1) {}).start)

/-- What `rampProfileEnd` does (`SynthesiserRows`). -/
abbrev Eff.rampProfileEnd (g : Nat) (a : State) : State :=
  let x := a.gen g
  let b := x.banks.get x.bank {}
  let e := x.segStart + (b.segs.get x.seg {}).dur * 128 / 5
  (a.setGen g (({ x with ramp := .done, endedAt := some e } : ClockGen).drive b.finalFreq)).event 0x0205 (3 + g)
    (g + 2 ^ 8 * x.bank + 2 ^ 16 * (b.finalFreq % 2 ^ 44))

/-- What `inputSetRange` does (`InputVerbsComplete`). -/
abbrev Eff.inputSetRange (c : Cmd) (a : State) : State :=
  (a.setInput (u8 c.payload 0) { a.input (u8 c.payload 0) with range := u8 c.payload 1 }).finish c .ok 0

/-- What `inputSetRange` does (`InputVerbsComplete`). -/
abbrev Eff.inputSetRange2 (c : Cmd) (a : State) : State :=
  (a.switchRange (u8 c.payload 0) (u8 c.payload 1)).finish c .ok a.now

/-- What `inputSetRange` does (`InputVerbsComplete`). -/
abbrev Eff.inputSetRange3 (c : Cmd) (a : State) : State :=
  (a.setInput (u8 c.payload 0) { a.input (u8 c.payload 0) with
    pending := some (u8 c.payload 1, { mode := u8 c.payload 2, at_ := u64 c.payload 8 }) }).markStarted c 0 []

/-- What `inputGetStatus` does (`InputVerbsComplete`). -/
abbrev Eff.inputGetStatus (temp : Nat) (c : Cmd) (a : State) : State :=
  let b := a.countRun (u8 c.payload 0)
  (b.writeResult c (b.inputStatus (u8 c.payload 0) temp)).finish c .ok 0

/-- What `inputEnable` does (`InputVerbsComplete`). -/
abbrev Eff.inputEnable (c : Cmd) (a : State) : State :=
  let i := u8 c.payload 0
  let x := a.input i
  match a.declare [inputDecl i] with
  | .ok b =>
    let y : RfInput := { x with
      mode := .enabling, range := if u8 c.payload 1 = 0xFF then x.range else u8 c.payload 1, waiting := []
      ovrSamples := 0, protectCount := 0, protection := false, run := none, marks := [], loose := []
      lostAt := if x.positionLost then some a.now else none }
    let d := x.waiting.foldl (fun b w => b.sliceFailRunning i w.1 w.2 false false) (b.setInput i y)
    let z := d.input i
    let z := match (if z.calStep < 33 && !d.calFrozen i then z.inRole .calSpare else none) with
      | some k => z.setSlice k { z.slice k with role := .trimming }
      | none => z
    let e := (d.setInput i z).serveWaiting i
    if (e.input i).waiting.isEmpty then
      (e.setInput i { e.input i with mode := .running, firstSample := a.now, settledFrom := a.now }).finish c .ok a.now
    else e.markStarted c 0 []
  | .error _ => a

/-- What `inputEnable` does (`InputVerbsComplete`). -/
abbrev Eff.inputEnable2 (c : Cmd) (a : State) : State :=
  a.finish c .ok (a.input (u8 c.payload 0)).firstSample

/-- What `inputDisable` does (`InputVerbsComplete`). -/
abbrev Eff.inputDisable (c : Cmd) (a : State) : State :=
  (a.inputQuiesce (u8 c.payload 0)).finish c .quiesced 0

/-- What `inputRangeSwitch` does (`InputRows`). -/
abbrev Eff.inputRangeSwitch (i : Nat) (r : Nat) (a : State) : State :=
  let b := a.switchRange i r
  b.finishAll (b.startedCmds 0x0301 fun c => u8 c.payload 0 == i) .ok fun _ => a.now

/-- What `rotationStep` does (`InputRows`). -/
abbrev Eff.rotationStep (i : Nat) (slice : Nat) (k : Nat) (a : State) : State :=
  let x := { a.input i with calStep := (a.input i).calStep + 1 }
  (a.setInput i (x.setSlice k { x.slice k with role := .handover, pos := (x.slice slice).pos })).calServed 1
    (64 * i + ((a.input i).calStep + 1))

/-- What `sliceHandoverComplete` does (`InputRows`). -/
abbrev Eff.sliceHandoverComplete (i : Nat) (k : Nat) (j : Nat) (a : State) : State :=
  let x := a.input i
  a.setInput i ((x.setSlice k { x.slice k with role := .active, missed := 0 }).setSlice j
    { x.slice j with role := .trimming })

/-- What `sliceFailure` does (`InputRows`). -/
abbrev Eff.sliceFailure (i : Nat) (k : Nat) (v : Nat) (since : Nat) (a : State) : State :=
  let x := a.input i
  let sl := x.slice k
  let y := x.setSlice k { sl with role := .retired }
  let y := { y with paused := (y.inRole .coldSpare).isSome, frozen := decide (a.sparesLeft 1 i ≤ 1) }
  let y := y.setSlice v { role := .active, pos := sl.pos }
  let y := { y with settledFrom := max y.settledFrom a.now, loose := y.loose ++ [(since, a.now)] }
  (((a.setInput i y).ddcInputStep i a.now 7).faultMasked ⟨1, i, k⟩
    { takenBy := v, logical := i, detail := sl.pos, intervalStart := since, intervalTicks := a.now - since }).serveWaiting
      i

/-- What `coldSpareReady` does (`InputRows`). -/
abbrev Eff.coldSpareReady (i : Nat) (k : Nat) (a : State) : State :=
  let x := a.input i
  ((a.setInput i { x.setSlice k { x.slice k with role := .calSpare } with paused := false }).calTrim 1
    (i * 34 + k) 0 0).serveWaiting i

/-- What `inputOverdrive` does (`InputRows`). -/
abbrev Eff.inputOverdrive (i : Nat) (n : Nat) (positive : Bool) (flips : List Nat) (protect : Bool) (a : State) : State :=
  let b := a.closeAll i
  let x := (b.input i).countRun b.now
  let stop := if protect then none else some (b.now + n)
  let r : OvrRun := { start := b.now, stop, counted := b.now + 1, signs := signsFrom b.now positive flips
                      protectFrom := if protect then some b.now else none }
  let y : RfInput := { x with
    protection := x.protection || protect
    protectCount := if protect then satAdd 32 x.protectCount 1 else x.protectCount
    run := some r, ovrOpen := some b.now, ovrCount := 0, ovrFlags := 0
    ovrSamples := satAdd 64 x.ovrSamples 1, lastOvr := b.stampNow }
  (b.setInput i y).eventAt 0x0301 i b.stampNow (ovrDetail 1 0 (r.flagsIn b.now (b.now + 1)))

/-- What `inputOverdrive` does (`InputRows`). -/
abbrev Eff.inputOverdrive2 (i : Nat) (n : Nat) (positive : Bool) (flips : List Nat) (protect : Bool) (a : State) : State :=
  let b := a.closeAll i
  let x := (b.input i).countRun b.now
  let stop := if protect then none else some (b.now + n)
  let r : OvrRun := { start := b.now, stop, counted := b.now, signs := signsFrom b.now positive flips
                      protectFrom := if protect then some b.now else none }
  b.setInput i { x with
    protection := x.protection || protect
    protectCount := if protect then satAdd 32 x.protectCount 1 else x.protectCount
    run := some r }

/-- What `inputOverdrive` does (`InputRows`). -/
abbrev Eff.inputOverdrive3 (i : Nat) (positive : Bool) (flips : List Nat) (r : OvrRun) (a : State) : State :=
  let b := a.closeAll i
  let x := (b.input i).countRun b.now
  let signs := (r.signs.filter fun e => decide (e.1 < b.now)) ++ signsFrom b.now positive flips
  b.setInput i { x with
    protection := true, protectCount := satAdd 32 x.protectCount 1
    run := some { r with stop := none, signs, protectFrom := some b.now } }

/-- What `protectionRelease` does (`InputRows`). -/
abbrev Eff.protectionRelease (i : Nat) (a : State) : State :=
  let x := a.input i
  let y : RfInput := { x with
    protection := false, run := x.run.map fun (r : OvrRun) => ({ r with stop := some a.now } : OvrRun) }
  a.setInput i (y.countRun a.now)

/-- What `overrangeIntervalClose` does (`InputRows`). -/
abbrev Eff.overrangeIntervalClose (i : Nat) (o : Nat) (a : State) : State :=
  a.setInput i { (a.input i).countRun (o + ticksPerUs) with ovrOpen := none, ovrFlags := 0 }

/-- What `overrangeIntervalClose` does (`InputRows`). -/
abbrev Eff.overrangeIntervalClose2 (i : Nat) (o : Nat) (a : State) : State :=
  let e := o + ticksPerUs
  let x := (a.input i).countRun e
  (a.setInput i { x with ovrOpen := some e, ovrCount := 0, ovrFlags := 0 }).eventAt 0x0301 i { tick := e }
    (ovrDetail x.ovrCount 1 x.ovrFlags)

/-- What `ddcConfigure` does (`DdcVerbsAndRows`). -/
abbrev Eff.ddcConfigure (c : Cmd) (a : State) : State :=
  let p := c.payload
  let d := u8 p 0
  let rate := u8 p 2 != (a.ddc d).format || u8 p 3 != (a.ddc d).form || u8 p 4 != (a.ddc d).k
  let s := if rate then (a.countSeen d).satSkip d else a.countSeen d
  let x := (s.ddc d).keepEra s.now
  let y := x.retune s.now (u64 p 8) (u32 p 16) (u8 p 6) false
  let y := { y with
    configured := true, source := u8 p 1, format := u8 p 2, form := u8 p 3, k := u8 p 4, gain := u8 p 5, tone := u64 p 24 }
  let b := if rate then s.trigDdcRate d else s
  let y : Ddc := if x.running then { y.changeAt (max b.now (b.ddcClean d y)) 3 with
      points := b.now :: x.points, ovrUpTo := y.nextIndex b.now
      satUpTo := if rate then y.nextIndex b.now else x.satUpTo }
    else y
  if x.running then ((b.setDdc d y).ddcShadows d).finish c .ok b.now
  else ((b.setDdc d y).ddcShadows d).finish c .ok 0

/-- What `ddcSetDelay` does (`DdcVerbsAndRows`). -/
abbrev Eff.ddcSetDelay (c : Cmd) (a : State) : State :=
  (a.setDdc (u8 c.payload 0) { a.ddc (u8 c.payload 0) with
    delayInt := s16 c.payload 2, delayFrac := u8 c.payload 4 }).finish c .ok 0

/-- What `ddcSetDelay` does (`DdcVerbsAndRows`). -/
abbrev Eff.ddcSetDelay2 (c : Cmd) (a : State) : State :=
  (a.setDdc (u8 c.payload 0) ((a.ddc (u8 c.payload 0)).setDelay a.now (s16 c.payload 2) (u8 c.payload 4))).finish
    c .ok a.now

/-- What `ddcSetDelay` does (`DdcVerbsAndRows`). -/
abbrev Eff.ddcSetDelay3 (c : Cmd) (a : State) : State :=
  (a.setDdc (u8 c.payload 0) { a.ddc (u8 c.payload 0) with
    delayNext := some (s16 c.payload 2, u8 c.payload 4, { mode := u8 c.payload 1, at_ := u64 c.payload 8 }) }).markStarted
      c 0 []

/-- What `ddcEnable` does (`DdcVerbsAndRows`). -/
abbrev Eff.ddcEnable (c : Cmd) (a : State) : State :=
  let d := u8 c.payload 0
  let r := (a.ddc d).ratio
  match a.declare [ddcDecl d] with
  | .ok b => (b.setDdc d { a.ddc d with
      starting := some ((a.now + 10 * ticksPerUs + r - 1) / r * r) }).markStarted c 0 []
  | .error _ => a

/-- What `ddcEnable` does (`DdcVerbsAndRows`). -/
abbrev Eff.ddcEnable2 (g : Nat) (c : Cmd) (a : State) : State :=
  match a.declare [ddcDecl (u8 c.payload 0)] with
  | .ok b => (b.setDdc (u8 c.payload 0) { a.ddc (u8 c.payload 0) with starting := some g }).markStarted c 0 []
  | .error _ => a

/-- What `ddcEnable` does (`DdcVerbsAndRows`). -/
abbrev Eff.ddcEnable3 (c : Cmd) (a : State) : State :=
  a.finish c .ok (a.ddc (u8 c.payload 0)).origin

/-- What `ddcDisable` does (`DdcVerbsAndRows`). -/
abbrev Eff.ddcDisable (c : Cmd) (a : State) : State :=
  (a.ddcQuiesce (u8 c.payload 0)).finish c .quiesced 0

/-- What `ddcGetStatus` does (`DdcVerbsAndRows`). -/
abbrev Eff.ddcGetStatus (codes : List Int) (c : Cmd) (a : State) : State :=
  let b := (a.countSeen (u8 c.payload 0)).countClamped (u8 c.payload 0) codes
  (b.writeResult c (b.ddcStatus (u8 c.payload 0))).finish c .ok 0

/-- What `ddcScheduledChange` does (`DdcVerbsAndRows`). -/
abbrev Eff.ddcScheduledChange (d : Nat) (i : Int) (f : Nat) (w : Sched) (a : State) : State :=
  let b := a.setDdc d ((a.ddc d).setDelay (a.dueTick w) i f)
  b.finishAll (b.ddcCmds 0x0402 d) .ok fun _ => a.dueTick w

/-- What `ddcScheduledChange` does (`DdcVerbsAndRows`). -/
abbrev Eff.ddcScheduledChange2 (d : Nat) (a : State) : State :=
  a.finishAll (a.ddcCmds 0x0403 d) .ok fun _ => (a.ddc d).origin

/-- What `firstSettledOutput` does (`DdcVerbsAndRows`). -/
abbrev Eff.firstSettledOutput (d : Nat) (a : State) : State :=
  let x := a.ddc d
  (a.setDdc d { x with unsettled := false }).eventAt 0x0401 d { tick := x.stampOf x.firstSettled }
    (x.firstSettled % 2 ^ 48 + 2 ^ 48 * x.cause)

/-- What `ddcDatapathFault` does (`DdcVerbsAndRows`). -/
abbrev Eff.ddcDatapathFault (i : Nat) (u : Nat) (d : Nat) (v : Nat) (a : State) : State :=
  let x := a.ddc d
  let y : Ddc := { x with unit := some v }
  let y := if x.running then y.changeAt a.now 6 else y
  (a.setDdc d y).faultMasked ⟨2, i, u⟩
    { takenBy := v, logical := d, intervalStart := if x.running then a.now else 0
      intervalTicks := if x.running then y.stampOf y.firstSettled - a.now else 0 }

/-- What `pressConfigure` does (`PressVerbsComplete`). -/
abbrev Eff.pressConfigure (c : Cmd) (a : State) : State :=
  let x := Cond.pressJobOf c
  let j := Cond.pressJob c a
  let old := a.job j
  let keep := a.press.jobs.has j && old.kind == x.kind && old.size == x.size
  let b := (a.setJob j { x with pipes := (a.placeJob j x).getD [], map := if keep then old.map else []
                                proto := if keep then old.proto else none }).pipeFreed
  a.conclude c (.dataIfAsked (b.jobStatus j) (b.jobWord j) b)

/-- What `pressConfigure` does (`PressVerbsComplete`). -/
abbrev Eff.pressConfigure2 (c : Cmd) (a : State) : State :=
  a.conclude c (.dataIfAsked (a.jobStatus (u8 c.payload 0)) (a.jobWord (u8 c.payload 0)) a)

/-- What `pressLoadWindow` does (`PressVerbsComplete`). -/
abbrev Eff.pressLoadWindow (c : Cmd) (a : State) : State :=
  let p := c.payload
  let w : WindowBank := { kind := u8 p 2, beta := if u8 p 2 = 4 then u8 p 3 else 0 }
  ({ a with press := { a.press with banks := a.press.banks.set (u8 p 0 * 2 + u8 p 1) w } } : State).finish c .ok
    (windowResult w)

/-- What `pressLoadWindow` does (`PressVerbsComplete`). -/
abbrev Eff.pressLoadWindow2 (table : List Byte) (c : Cmd) (a : State) : State :=
  let p := c.payload
  let words := a.tableWords (u8 p 4 == 1) (u64 p 8) (2 ^ u8 p 5) table
  let w : WindowBank := { kind := 5, beta := 0, lengthLog2 := u8 p 5, table := words.map f32Coefficient }
  let b := a.hostLoad c (u64 p 8) (4 * 2 ^ u8 p 5) (u8 p 4 == 1)
  ({ b with press := { b.press with banks := b.press.banks.set (u8 p 0 * 2 + u8 p 1) w } } : State).finish c .ok
    (windowResult w)

/-- What `pressLoadPfb` does (`PressVerbsComplete`). -/
abbrev Eff.pressLoadPfb (table : List Byte) (c : Cmd) (a : State) : State :=
  let p := c.payload
  let b := a.hostLoad c (u64 p 8) (4 * u32 p 4) (u8 p 1 == 1)
  (b.setJob (u8 p 0) { a.job (u8 p 0) with
    proto := some (a.tableWords (u8 p 1 == 1) (u64 p 8) (u32 p 4) table) }).finish c .ok 0

/-- What `pressLoadPfb` does (`PressVerbsComplete`). -/
abbrev Eff.pressLoadPfb2 (c : Cmd) (a : State) : State :=
  (a.setJob (u8 c.payload 0) { a.job (u8 c.payload 0) with proto := none }).finish c .ok 0

/-- What `pressMapChannels` does (`PressVerbsComplete`). -/
abbrev Eff.pressMapChannels (c : Cmd) (a : State) : State :=
  (a.setJob (u8 c.payload 0) { a.job (u8 c.payload 0) with map := Cond.newMap c a }).finish c .ok 0

/-- What `pressEnable` does (`PressVerbsComplete`). -/
abbrev Eff.pressEnable (g : Nat) (c : Cmd) (a : State) : State :=
  let j := u8 c.payload 0
  match a.declare [a.pressDecl j] with
  | .ok b => (b.setJob j { a.job j with
      mode := .starting, origin := g, frame := 0, ovrFrames := 0, unsettledFrames := 0, tag := {}
      queue := [], stopAt := none
      windows := if (a.job j).kind = 0 then
          [a.liveWindow (a.job j).input (a.press.select.get (a.job j).input 0) 0]
        else [] }).markStarted c 0 []
  | .error _ => a

/-- What `pressEnable` does (`PressVerbsComplete`). -/
abbrev Eff.pressEnable2 (c : Cmd) (a : State) : State :=
  a.finish c .ok (a.job (u8 c.payload 0)).origin

/-- What `pressDisable` does (`PressVerbsComplete`). -/
abbrev Eff.pressDisable (c : Cmd) (a : State) : State :=
  let b := a.jobStop (u8 c.payload 0) (u8 c.payload 1 == 1)
  if (b.job (u8 c.payload 0)).mode = .quiescing then b.markStarted c 0 [] else b.finish c .quiesced 0

/-- What `pressFrameRelease` does (`PressRows`). -/
abbrev Eff.pressFrameRelease (job : Nat) (codes : List Int) (a : State) : State :=
  let x := a.job job
  let f := a.makeFrame job x.frame codes
  let b := a.setJob job { x with
    mode := .running, frame := x.frame + 1, tag := f.tag, ovrFrames := satAdd 32 x.ovrFrames (bit f.tag.ovr)
    unsettledFrames := satAdd 32 x.unsettledFrames (bit f.tag.unsettled) }
  ((b.offerFrame f).pressFlows x f.tag f.values).finishAll (b.startedCmds 0x0505 fun c => u8 c.payload 0 == job) .ok
    fun _ => x.origin

/-- What `pressFrameRelease` does (`PressRows`). -/
abbrev Eff.pressFrameRelease2 (job : Nat) (codes : List Int) (a : State) : State :=
  let x := a.job job
  let f := a.makeFrame job x.frame codes
  let b := a.setJob job { x with
    frame := x.frame + 1, tag := f.tag, ovrFrames := satAdd 32 x.ovrFrames (bit f.tag.ovr)
    unsettledFrames := satAdd 32 x.unsettledFrames (bit f.tag.unsettled) }
  (((b.offerFrame f).pressFlows x f.tag f.values).finishAll (b.startedCmds 0x0505 fun c => u8 c.payload 0 == job) .ok
    fun _ => x.origin).jobRest job

/-- What `pressPipelineFault` does (`PressRows`). -/
abbrev Eff.pressPipelineFault (u : Nat) (a : State) : State :=
  ({ a with press := { a.press with spare := none } } : State).faultIn ⟨3, 0, u⟩ {}

/-- What `pressPipelineFault` does (`PressRows`). -/
abbrev Eff.pressPipelineFault2 (u : Nat) (v : Nat) (a : State) : State :=
  let b := a.movePipe u v
  ({ b with press := { b.press with spare := none } } : State).faultMasked ⟨3, 0, u⟩
    { logical := ((a.press.jobs.find? fun e => e.2.pipes.contains u).map Prod.fst).getD 0xFFFF, takenBy := v }

/-- What `specConfigureDetector` does (`SpecVerbsComplete`). -/
abbrev Eff.specConfigureDetector (c : Cmd) (a : State) : State :=
  let p := c.payload
  (a.setTrace (u8 p 0) { a.trace (u8 p 0) with
    configured := true, job := u8 p 1, detector := u8 p 2, mode := u8 p 3, output := u8 p 4
    exclude := u8 p 5 == 1, firstBin := u32 p 8, bins := u32 p 12, integration := u64 p 16
    countLevel := s32 p 24, flow := if u32 p 28 = 0xFFFFFFFF then none else some (u32 p 28) }).finish c .ok 0

/-- What `specConfigureDensity` does (`SpecVerbsComplete`). -/
abbrev Eff.specConfigureDensity (c : Cmd) (a : State) : State :=
  let n := u8 c.payload 0
  let shadow := a.fcw.shadow.get 0x4200 0
  ((a.setPlane n (Cond.planeOf c)).setShadow 0x4200 (if shadow.testBit n then shadow - 2 ^ n else shadow)).finish c .ok
    ((Cond.densityLoad c a).1 / ((Cond.densityLoad c a).2 * 1000000))

/-- What `specClearDensity` does (`SpecVerbsComplete`). -/
abbrev Eff.specClearDensity (c : Cmd) (a : State) : State :=
  let named := (maskBits 4 (u8 c.payload 0)).filter fun p => (a.plane p).enabled
  (named.foldl (fun s p => s.setPlane p { s.plane p with clearAfter := some s.now }) a).markStarted c 0 named

/-- What `specReadTrace` does (`SpecVerbsComplete`). -/
abbrev Eff.specReadTrace (c : Cmd) (a : State) : State :=
  let r := a.traceBytes (u32 c.payload 4)
  (r.2.writeResult c r.1).finish c .ok r.1.length

/-- What `specReadTrace` does (`SpecVerbsComplete`). -/
abbrev Eff.specReadTrace2 (c : Cmd) (a : State) : State :=
  let r := a.traceBytes (u32 c.payload 4)
  (r.2.keepCellar (r.2.cellarMem.writeBytes (u64 c.payload 24) r.1)).finish c .ok r.1.length

/-- What `specReadTrace` does (`SpecVerbsComplete`). -/
abbrev Eff.specReadTrace3 (c : Cmd) (a : State) : State :=
  let n := u32 c.payload 4
  let b := if (a.plane n).enabled then a.setPlane n (a.decayed n) else a
  (b.writeResult c (Cond.rectangle c a)).finish c .ok (Cond.rectangle c a).length

/-- What `specReadTrace` does (`SpecVerbsComplete`). -/
abbrev Eff.specReadTrace4 (c : Cmd) (a : State) : State :=
  let n := u32 c.payload 4
  let b := if (a.plane n).enabled then a.setPlane n (a.decayed n) else a
  (b.keepCellar (b.cellarMem.writeBytes (u64 c.payload 24) (Cond.rectangle c a))).finish c .ok
    (Cond.rectangle c a).length

/-- What `specPeakSearch` does (`SpecVerbsComplete`). -/
abbrev Eff.specPeakSearch (c : Cmd) (a : State) : State :=
  let p := c.payload
  match a.declare [peakDecl (u8 p 0)] with
  | .ok b => (b.setTrace (u8 p 0) { a.trace (u8 p 0) with
      peakOn := true, maxPeaks := u16 p 2, threshold := u32 p 4, excursion := u32 p 8 }).finish c .ok 0
  | .error _ => a

/-- What `specPeakSearch` does (`SpecVerbsComplete`). -/
abbrev Eff.specPeakSearch2 (c : Cmd) (a : State) : State :=
  ((a.setTrace (u8 c.payload 0) { a.trace (u8 c.payload 0) with peakOn := false }).undeclare 6
    (256 + u8 c.payload 0)).finish c .quiesced 0

/-- What `specPeakSearch` does (`SpecVerbsComplete`). -/
abbrev Eff.specPeakSearch3 (c : Cmd) (a : State) : State :=
  (a.writeResult c ((a.trace (u8 c.payload 0)).peakBytes (u8 c.payload 0))).finish c .ok 0

/-- What `specEnable` does (`SpecVerbsComplete`). -/
abbrev Eff.specEnable (c : Cmd) (a : State) : State :=
  let n := u8 c.payload 1
  match a.declare [Cond.traceDecl n] with
  | .ok b => (b.setTrace n { a.trace n with
      enabled := true, starting := some (if u8 c.payload 2 = 0 then 0 else u64 c.payload 8), started := 0
      ended := false, seq := 0, n := 0, acc := [], cur := {}, result := none }).markStarted c 0 []
  | .error _ => a

/-- What `specEnable` does (`SpecVerbsComplete`). -/
abbrev Eff.specEnable2 (c : Cmd) (a : State) : State :=
  let n := u8 c.payload 1
  match a.declare [Cond.planeDecl n] with
  | .ok b => (b.setPlane n { a.plane n with
      enabled := true, starting := some (if u8 c.payload 2 = 0 then 0 else u64 c.payload 8), cells := [], origin := none
      seen := 0, decays := 0, lastDecay := 0, clearAfter := none, clearPoint := 0, seq := 0, above := 0, below := 0
      frozen := 0, satInc := 0, ovr := false, unsettled := false }).markStarted c 0 []
  | .error _ => a

/-- What `specDisable` does (`SpecVerbsComplete`). -/
abbrev Eff.specDisable (c : Cmd) (a : State) : State :=
  (if u8 c.payload 0 = 0 then a.traceQuiesce (u8 c.payload 1) else a.planeQuiesce (u8 c.payload 1)).finish c
    .quiesced 0

/-- What `spectrumAccept` does (`SpecRows`). -/
abbrev Eff.spectrumAccept (job : Nat) (f : PressFrame) (rest : List PressFrame) (a : State) : State :=
  let powers := f.powers (a.job job).format
  let takers := (a.spec.planes.filter fun e => e.2.enabled && e.2.job == job).map Prod.fst
  let s := a.setJob job { a.job job with queue := rest }
  let b : State := { s with spec := { a.spec with
    traces := a.spec.traces.mapVals fun _ x =>
      if x.job = job then x.feed f.tag (a.provisionalAt f.tag.tick) powers else x
    planes := a.spec.planes.mapVals fun p x => if x.job = job then x.feed f.tag (a.freezeAt p) powers else x } }
  let b := if a.groupHeld 23 || takers.isEmpty then b else b.occTaken 23 (takers.map fun p => 4096 + p)
  let d := b.resultFlows a
  (d.finishAll (d.startedCmds 0x0606 fun c =>
    if u8 c.payload 0 = 0 then (b.trace (u8 c.payload 1)).starting.isNone else (b.plane (u8 c.payload 1)).starting.isNone)
    .ok fun c => if u8 c.payload 0 = 0 then (d.trace (u8 c.payload 1)).started
      else (d.plane (u8 c.payload 1)).origin.getD 0).finishClears

/-- What `integrationEnd` does (`SpecRows`). -/
abbrev Eff.integrationEnd (n : Nat) (a : State) : State :=
  (a.setTrace n (a.trace n).complete).resultFlows a

/-- What `decayBoundary` does (`SpecRows`). -/
abbrev Eff.decayBoundary (p : Nat) (a : State) : State :=
  let x := a.plane p
  a.setPlane p (if x.clearAfter.isNone then x.decayTo (min a.now (a.nextSpectrum x.job)) else x)

/-- What `densityClearApply` does (`SpecRows`). -/
abbrev Eff.densityClearApply (p : Nat) (f : PressFrame) (a : State) : State :=
  (a.setPlane p ((a.plane p).clearAt f.tag.tick)).finishClears

/-- What `trigConfigure` does (`TrigVerbsComplete`). -/
abbrev Eff.trigConfigure (c : Cmd) (a : State) : State :=
  let p := c.payload
  let o := trigOffset (u8 p 0)
  let words : KMap Nat := [(o, u32 p 48), (o + 4, u32 p 52), (o + 8, u16 p 56), (o + 12, u16 p 58),
    (o + 16, (a.tunit (u8 p 0)).bank)]
  let y := ((Cond.trigUnitOf c a).loadLive words o).restart
  ((y.shadowWords o).foldl (fun b e => b.setShadow e.1 e.2) (a.setTunit (u8 p 0) y)).finish c .ok 0

/-- What `trigLoadMask` does (`TrigVerbsComplete`). -/
abbrev Eff.trigLoadMask (table : List Byte) (c : Cmd) (a : State) : State :=
  let p := c.payload
  let b := a.hostLoad c (u64 p 8) (4 * u32 p 4) (u8 p 2 == 1)
  ({ b with trig := { b.trig with
    masks := b.trig.masks.set (u8 p 0 * 2 + u8 p 1) (Cond.maskPoints table c a) } } : State).finish c .ok 0

/-- What `trigRoute` does (`TrigVerbsComplete`). -/
abbrev Eff.trigRoute (c : Cmd) (a : State) : State :=
  let u := u8 c.payload 0
  let x := a.tunit u
  let b : State := if (u8 c.payload 1).testBit 2 then
      { a with trig := { a.trig with pulseNs := u32 c.payload 8, outLow := (u8 c.payload 1).testBit 3 } } else a
  (b.setTunit u (if x.inService && !x.waiting then { x with nextRoute := some (Cond.routeOf c) }
    else { x with route := Cond.routeOf c, nextRoute := none })).finish c .ok 0

/-- What `trigArm` does (`TrigVerbsComplete`). -/
abbrev Eff.trigArm (c : Cmd) (a : State) : State :=
  let p := c.payload
  match a.declare [trigDecl (u8 p 0)] with
  | .ok b => (b.trigArmNow (u8 p 0) (u8 p 1) (u32 p 4) (u8 p 3 == 1)).finish c .ok a.now
  | .error _ => a

/-- What `trigArm` does (`TrigVerbsComplete`). -/
abbrev Eff.trigArm2 (c : Cmd) (a : State) : State :=
  let p := c.payload
  match a.declare [trigDecl (u8 p 0)] with
  | .ok b => (b.setTunit (u8 p 0) { a.tunit (u8 p 0) with
      sched := some (u8 p 1, u32 p 4, u8 p 3 == 1, Cond.trigArmAt c) }).markStarted c 0 []
  | .error _ => a

/-- What `trigArm` does (`TrigVerbsComplete`). -/
abbrev Eff.trigArm3 (c : Cmd) (a : State) : State :=
  a.finish c .ok (a.tunit (u8 c.payload 0)).armedAt

/-- What `trigDisarm` does (`TrigVerbsComplete`). -/
abbrev Eff.trigDisarm (c : Cmd) (a : State) : State :=
  (a.trigQuiesce (u8 c.payload 0) (Cond.disarmed c a)).finish c .quiesced 0

/-- What `trigDisarm` does (`TrigVerbsComplete`). -/
abbrev Eff.trigDisarm2 (c : Cmd) (a : State) : State :=
  (a.trigQuiesce (u8 c.payload 0) .quiescing).markStarted c 0 []

/-- What `trigGetStatus` does (`TrigVerbsComplete`). -/
abbrev Eff.trigGetStatus (c : Cmd) (a : State) : State :=
  (a.writeResult c (a.trigStatus (u8 c.payload 0))).finish c .ok 0

/-- What `triggerDecision` does (`TrigDecisions`). -/
abbrev Eff.triggerDecision (u : Nat) (xs : List Sample) (a : State) : State :=
  xs.foldl (fun b n =>
    match b.sampleSeen (a.tunit u) n with
    | some v =>
      if (b.tunit u).inService then
        ((b.tunit u).detect v).2.foldl (fun d c => d.condition u c)
          (b.setTunit u { b.tunit u with det := ((b.tunit u).detect v).1 })
      else b
    | none => b) a

/-- What `triggerDecision` does (`TrigDecisions`). -/
abbrev Eff.triggerDecision2 (u : Nat) (a : State) : State :=
  (a.tunit u).frames.foldl (fun b f =>
    let y := b.tunit u
    if y.inService then
      let r := y.frame (b.trig.masks.get (u * 2 + y.bank) []) f.tag (f.powers (b.job y.source).format)
      r.2.foldl (fun d c => d.condition u c) (b.setTunit u { y with det := r.1 })
    else b) (a.setTunit u { a.tunit u with frames := [] })

/-- What `trigInEdge` does (`TrigDecisions`). -/
abbrev Eff.trigInEdge (rising : Bool) (a : State) : State :=
  a.offerTrig 8 0 (some rising) a.stampNow false

/-- What `forcedDecision` does (`TrigDecisions`). -/
abbrev Eff.forcedDecision (u : Nat) (c : Cmd) (a : State) : State :=
  ((a.decideOne u { at_ := a.now * 65536 } true).1.sequences [(u, { at_ := a.now * 65536 })]).finish c .ok
    a.now

/-- What `forcedDecision` does (`TrigDecisions`). -/
abbrev Eff.forcedDecision2 (u : Nat) (c : Cmd) (a : State) : State :=
  (a.decideOne u { at_ := a.now * 65536 } true).1.finish c .aborted 0

/-- What `forcedDecision` does (`TrigDecisions`). -/
abbrev Eff.forcedDecision3 (u : Nat) (a : State) : State :=
  let b : State := { a with trig := { a.trig with kernelForces := a.trig.kernelForces.erase u } }
  let r := b.decideOne u { at_ := b.now * 65536 } true
  if r.2 then r.1.sequences [(u, { at_ := b.now * 65536 })] else r.1

/-- What `unitRearm` does (`TrigRows`). -/
abbrev Eff.unitRearm (u : Nat) (d : Nat) (a : State) : State :=
  a.setTunit u ((a.tunit u).rearm (d + 32))

/-- What `sequencePendingExpiry` does (`TrigRows`). -/
abbrev Eff.sequencePendingExpiry (u : Nat) (a : State) : State :=
  (a.sequenceTry u).setTunit u { (a.sequenceTry u).tunit u with pendingA := none }

/-- What `trigScheduledArm` does (`TrigRows`). -/
abbrev Eff.trigScheduledArm (u : Nat) (mode : Nat) (target : Nat) (ev : Bool) (a : State) : State :=
  let b := a.trigArmNow u mode target ev
  b.finishAll (b.startedCmds 0x0704 fun c => u8 c.payload 0 == u) .ok fun _ => a.now

/-- What `trigOutPulseEnd` does (`TrigRows`). -/
abbrev Eff.trigOutPulseEnd (a : State) : State :=
  let b : State := { a with trig := { a.trig with pulse := none, drivers := [] } }
  let d := ((a.trig.units.filter fun x => x.2.mode == .quiescing).map Prod.fst).foldl (fun b u =>
    ((b.setTunit u { b.tunit u with mode := .configured }).undeclare 7 u).restDone (resetKey 7 u) 0) b
  let cs := d.startedCmds 0x0705 fun _ => true
  (cs.foldl (fun b c =>
    if (u8 c.payload 1).testBit 0 then
      b.setTunit (u8 c.payload 0) { b.tunit (u8 c.payload 0) with mode := .unconfigured }
    else b) d).finishAll cs .quiesced fun _ => 0

/-- What `voterDisagreement` does (`TrigRows`). -/
abbrev Eff.voterDisagreement (v : Nat) (a : State) : State :=
  ({ a with trig := { a.trig with voters := a.trig.voters - 2 ^ v } } : State).faultMasked ⟨5, 0, v⟩
    {}

/-- What `voterDisagreement` does (`TrigRows`). -/
abbrev Eff.voterDisagreement2 (v : Nat) (a : State) : State :=
  let b := ({ a with trig := { a.trig with split := true } } : State).faultUnmasked ⟨5, 0, v⟩ {}
  { b with ft := { b.ft with retired := b.ft.retired.filter (· != ⟨5, 0, v⟩), injected := a.ft.injected } }

/-- What `voterDisagreement` does (`TrigRows`). -/
abbrev Eff.voterDisagreement3 (v : Nat) (a : State) : State :=
  (({ a with trig := { a.trig with ended := true } } : State).pulseDone.bitsLost (2 ^ 14)).faultUnmasked
    ⟨5, 0, v⟩ {}

/-- What `triggerEventIntervalClose` does (`TrigRows`). -/
abbrev Eff.triggerEventIntervalClose (u : Nat) (a : State) : State :=
  a.setTunit u { a.tunit u with evOpen := none }

/-- What `triggerEventIntervalClose` does (`TrigRows`). -/
abbrev Eff.triggerEventIntervalClose2 (u : Nat) (o : Nat) (a : State) : State :=
  (a.setTunit u { a.tunit u with
    evOpen := some (o + ticksPerUs), evCount := 0, evFlags := 0, evBin := 0 }).eventAt 0x0701 u
    { tick := o + ticksPerUs }
    ((a.tunit u).evCount + 2 ^ 32 + 2 ^ 33 * (a.tunit u).evFlags + 2 ^ 36 * (a.tunit u).evBin)

/-- What `acqCreateContext` does (`AcqVerbsComplete`). -/
abbrev Eff.acqCreateContext (c : Cmd) (a : State) : State :=
  let n := Cond.ctxNumber c a
  let x := Cond.ctxOf c a
  let o := 0x5000 + n / 32 * 4
  let w := a.fcw.shadow.get o 0
  ((a.setCtx n x).setShadow o (if w.testBit (n % 32) then w - 2 ^ (n % 32) else w)).finish c .ok (n + 2 ^ 16 * x.needed)

/-- What `acqArm` does (`AcqVerbsComplete`). -/
abbrev Eff.acqArm (c : Cmd) (a : State) : State :=
  (((Cond.acqGranted (u16 c.payload 0) a).getD a).acqStartRecord (u16 c.payload 0)).finish c .ok a.now

/-- What `acqArm` does (`AcqVerbsComplete`). -/
abbrev Eff.acqArm2 (c : Cmd) (a : State) : State :=
  (((Cond.acqGranted (u16 c.payload 0) a).getD a).acqStartRecord (u16 c.payload 0)).markStarted c 0 []

/-- What `acqArm` does (`AcqVerbsComplete`). -/
abbrev Eff.acqArm3 (c : Cmd) (a : State) : State :=
  (a.setCtx (u16 c.payload 0) { a.ctx (u16 c.payload 0) with
    sched := some (Cond.acqArmAt c) }).markStarted c 0 []

/-- What `acqArm` does (`AcqVerbsComplete`). -/
abbrev Eff.acqArm4 (c : Cmd) (a : State) : State :=
  a.finish c .ok (a.ctx (u16 c.payload 0)).armedAt

/-- What `acqStop` does (`AcqVerbsComplete`). -/
abbrev Eff.acqStop (c : Cmd) (a : State) : State :=
  (Cond.stopAtEnd c a).markStarted c 0 []

/-- What `acqStop` does (`AcqVerbsComplete`). -/
abbrev Eff.acqStop2 (c : Cmd) (a : State) : State :=
  (Cond.stopDraining c a).markStarted c 0 []

/-- What `acqStop` does (`AcqVerbsComplete`). -/
abbrev Eff.acqStop3 (c : Cmd) (a : State) : State :=
  (Cond.stopRecord c a).finish c .quiesced ((Cond.stopRecord c a).ctx (u16 c.payload 0)).index

/-- What `acqStop` does (`AcqVerbsComplete`). -/
abbrev Eff.acqStop4 (c : Cmd) (a : State) : State :=
  (Cond.stopIdle c a).finish c .quiesced ((Cond.stopIdle c a).ctx (u16 c.payload 0)).index

/-- What `acqDestroy` does (`AcqVerbsComplete`). -/
abbrev Eff.acqDestroy (c : Cmd) (a : State) : State :=
  (Cond.stopAtEnd c a).markStarted c 0 []

/-- What `acqDestroy` does (`AcqVerbsComplete`). -/
abbrev Eff.acqDestroy2 (c : Cmd) (a : State) : State :=
  (Cond.stopDraining c a).markStarted c 0 []

/-- What `acqDestroy` does (`AcqVerbsComplete`). -/
abbrev Eff.acqDestroy3 (c : Cmd) (a : State) : State :=
  ({ Cond.stopRecord c a with ctxs := (Cond.stopRecord c a).ctxs.del (u16 c.payload 0) } : State).finish c .quiesced
    ((Cond.stopRecord c a).ctx (u16 c.payload 0)).index

/-- What `acqDestroy` does (`AcqVerbsComplete`). -/
abbrev Eff.acqDestroy4 (c : Cmd) (a : State) : State :=
  ({ Cond.stopIdle c a with ctxs := (Cond.stopIdle c a).ctxs.del (u16 c.payload 0) } : State).finish c .quiesced
    ((Cond.stopIdle c a).ctx (u16 c.payload 0)).index

/-- What `acqLoadTestMask` does (`AcqVerbsComplete`). -/
abbrev Eff.acqLoadTestMask (table : List Byte) (c : Cmd) (a : State) : State :=
  let p := c.payload
  let b := a.hostLoad c (u64 p 16) ((if u8 p 2 = 1 then 8 else 4) * u32 p 4) (u8 p 3 == 1)
  (b.setCtx (u16 p 0) { a.ctx (u16 p 0) with
    test := some { kind := u8 p 2, first := u32 p 8, points := Cond.testPoints table c a } }).finish c .ok 0

/-- What `acqLoadTestMask` does (`AcqVerbsComplete`). -/
abbrev Eff.acqLoadTestMask2 (c : Cmd) (a : State) : State :=
  (a.setCtx (u16 c.payload 0) { a.ctx (u16 c.payload 0) with test := none }).finish c .ok 0

/-- What `acqGetStatus` does (`AcqVerbsComplete`). -/
abbrev Eff.acqGetStatus (c : Cmd) (a : State) : State :=
  (a.writeResult c (a.acqStatus (u16 c.payload 0))).finish c .ok 0

/-- What `ringFilled` does (`AcqSegmentsAndRows`). -/
abbrev Eff.ringFilled (n : Nat) (a : State) : State :=
  (a.setCtx n { a.ctx n with mode := .armed, ringFull := true, armedAt := a.now }).finishArm n a.now

/-- What `ringFilled` does (`AcqSegmentsAndRows`). -/
abbrev Eff.ringFilled2 (n : Nat) (a : State) : State :=
  a.setCtx n { a.ctx n with ringFull := true }

/-- What `segmentTrigger` does (`AcqSegmentsAndRows`). -/
abbrev Eff.segmentTrigger (n : Nat) (a : State) : State :=
  (a.setCtx n { a.ctx n with
    mode := .capturing, trigger := (a.ctx n).pending, pending := none }).ringGaps n

/-- What `segmentEnd` does (`AcqSegmentsAndRows`). -/
abbrev Eff.segmentEnd (n : Nat) (r : State × Ctx × Bool) (_ : State) : State :=
  let b := r.1.setCtx n { r.2.1 with rearming := true }
  if r.2.1.events && r.2.1.segOpen.isNone then b.segmentEvent n else b

/-- What `segmentEnd` does (`AcqSegmentsAndRows`). -/
abbrev Eff.segmentEnd2 (n : Nat) (r : State × Ctx × Bool) (_ : State) : State :=
  (r.1.setCtx n r.2.1).recordEnd n 1 .done

/-- What `segmentEnd` does (`AcqSegmentsAndRows`). -/
abbrev Eff.segmentEnd3 (n : Nat) (r : State × Ctx × Bool) (_ : State) : State :=
  (r.1.setCtx n { r.2.1 with maskStop := some (r.2.1.index - 1) }).recordEnd n 2 .maskStopped

/-- What `segmentEnd` does (`AcqSegmentsAndRows`). -/
abbrev Eff.segmentEnd4 (n : Nat) (r : State × Ctx × Bool) (_ : State) : State :=
  ((r.1.setCtx n r.2.1).recordEnd n 3 .quiescing).acqStopped n

/-- What `segmentEnd` does (`AcqSegmentsAndRows`). -/
abbrev Eff.segmentEnd5 (n : Nat) (r : State × Ctx × Bool) (a : State) : State :=
  r.1.setCtx n { r.2.1 with rearming := true, drainSince := some a.now }

/-- What `contextRearm` does (`AcqSegmentsAndRows`). -/
abbrev Eff.contextRearm (n : Nat) (a : State) : State :=
  a.setCtx n { a.ctx n with mode := .held, rearming := false, wasHeld := true }

/-- What `contextRearm` does (`AcqSegmentsAndRows`). -/
abbrev Eff.contextRearm2 (n : Nat) (a : State) : State :=
  (a.setCtx n { Cond.rearmed n a with
    mode := .armed, armedAt := if (a.ctx n).prevEnd.isNone then a.now else (a.ctx n).armedAt }).finishArm n a.now

/-- What `contextRearm` does (`AcqSegmentsAndRows`). -/
abbrev Eff.contextRearm3 (n : Nat) (a : State) : State :=
  a.setCtx n { Cond.rearmed n a with mode := .filling }

/-- What `contextRearm` does (`AcqSegmentsAndRows`). -/
abbrev Eff.contextRearm4 (n : Nat) (a : State) : State :=
  let b := (a.setCtx n { Cond.rearmed n a with mode := .capturing, trigger := none, ringFull := true }).ringGaps n
  if (a.ctx n).start = 2 then b.contiguousArm n else b.finishArm n a.now

/-- What `contextRearm` does (`AcqSegmentsAndRows`). -/
abbrev Eff.contextRearm5 (n : Nat) (k : Nat) (a : State) : State :=
  (a.setCtx n { a.ctx n with armedAt := k }).finishArm n k

/-- What `gapBegin` does (`AcqSegmentsAndRows`). -/
abbrev Eff.gapBegin (n : Nat) (cause : Nat) (el : Nat) (count : Nat) (g : GapEntry) (a : State) : State :=
  (a.setCtx n { a.ctx n with
    ringGaps := (a.ctx n).ringGaps ++ [Cond.gapRun (Cond.segmentZero n a + el) cause count] }).addGap n g

/-- What `gapBegin` does (`AcqSegmentsAndRows`). -/
abbrev Eff.gapBegin2 (n : Nat) (cause : Nat) (el : Nat) (count : Nat) (a : State) : State :=
  a.setCtx n { a.ctx n with ringGaps := (a.ctx n).ringGaps ++ [Cond.gapRun el cause count] }

/-- What `stagingDrainTimeout` does (`AcqSegmentsAndRows`). -/
abbrev Eff.stagingDrainTimeout (n : Nat) (f : Nat) (a : State) : State :=
  let r := Cond.unaccepted n f a
  ({ r.1 with offered := if r.2.isEmpty then r.1.offered else r.1.offered.set f r.2 } : State).acqDrained n

/-- What `acqScheduledArm` does (`AcqSegmentsAndRows`). -/
abbrev Eff.acqScheduledArm (n : Nat) (a : State) : State :=
  let b := ((Cond.acqGranted n a).getD a).acqStartRecord n
  if b.armedNow n then b.finishArm n a.now else b

/-- What `acqScheduledArm` does (`AcqSegmentsAndRows`). -/
abbrev Eff.acqScheduledArm2 (n : Nat) (e : Status × Nat) (a : State) : State :=
  (a.setCtx n { a.ctx n with sched := none }).finishAll
    (a.startedCmds 0x0802 fun c => u16 c.payload 0 == n) e.1 fun _ => e.2

/-- What `segmentEventIntervalClose` does (`AcqSegmentsAndRows`). -/
abbrev Eff.segmentEventIntervalClose (n : Nat) (a : State) : State :=
  a.setCtx n { a.ctx n with segOpen := none }

/-- What `segmentEventIntervalClose` does (`AcqSegmentsAndRows`). -/
abbrev Eff.segmentEventIntervalClose2 (n : Nat) (o : Nat) (a : State) : State :=
  (a.segmentEvent n).setCtx n { (a.segmentEvent n).ctx n with segOpen := some (o + ticksPerUs) }

/-- What `gapEventIntervalClose` does (`AcqSegmentsAndRows`). -/
abbrev Eff.gapEventIntervalClose (n : Nat) (a : State) : State :=
  a.setCtx n { a.ctx n with gapOpen := none }

/-- What `gapEventIntervalClose` does (`AcqSegmentsAndRows`). -/
abbrev Eff.gapEventIntervalClose2 (n : Nat) (o : Nat) (a : State) : State :=
  (a.setCtx n { a.ctx n with gapOpen := none, gapPending := 0 }).eventAt 0x0803 n
    { tick := o + ticksPerUs } ((a.ctx n).gapPending + 2 ^ 32 + 2 ^ 33 * (a.ctx n).gapCause)

/-- What `sorrelLoadKernel` does (`SorrelVerbsComplete`). -/
abbrev Eff.sorrelLoadKernel (image : List Byte) (c : Cmd) (a : State) : State :=
  let p := c.payload
  let k := (kernelOf (Cond.kernelImage image c a) (u32 p 12)).getD {}
  ((maskBits 64 (u64 p 0)).foldl (fun b n =>
  b.setCore n (({ b.core n with mode := .loaded, kernel := some k } : Core).put 0 k.init))
    (a.hostLoad c (u64 p 16) (u32 p 12) (u8 p 8 == 1))).finish c .ok (leNat (k.digest.take 8))

/-- What `sorrelBind` does (`SorrelVerbsComplete`). -/
abbrev Eff.sorrelBind (c : Cmd) (a : State) : State :=
  (a.setCore (u8 c.payload 0) (Cond.bindCore c a)).finish c .ok (a.regionNeeded (Cond.bindCore c a))

/-- What `sorrelStart` does (`SorrelVerbsComplete`). -/
abbrev Eff.sorrelStart (c : Cmd) (a : State) : State :=
  (((Cond.coreGranted (u8 c.payload 0) a).getD a).coreStart (u8 c.payload 0) (Cond.startParams c) a.now).finish
    c .ok a.now

/-- What `sorrelStart` does (`SorrelVerbsComplete`). -/
abbrev Eff.sorrelStart2 (c : Cmd) (a : State) : State :=
  (((Cond.coreGranted (u8 c.payload 0) a).getD a).setCore (u8 c.payload 0) { a.core (u8 c.payload 0) with
    sched := some (Cond.startAt c, Cond.startParams c) }).markStarted c 0 []

/-- What `sorrelStart` does (`SorrelVerbsComplete`). -/
abbrev Eff.sorrelStart3 (c : Cmd) (a : State) : State :=
  a.finish c .ok (a.core (u8 c.payload 0)).startedAt

/-- What `sorrelStop` does (`SorrelVerbsComplete`). -/
abbrev Eff.sorrelStop (c : Cmd) (a : State) : State :=
  ((a.setCore (u8 c.payload 0) (a.core (u8 c.payload 0)).revert).kernelEnd (u8 c.payload 0) 3 0).finish c
    .quiesced 0

/-- What `sorrelStop` does (`SorrelVerbsComplete`). -/
abbrev Eff.sorrelStop2 (c : Cmd) (a : State) : State :=
  (a.setCore (u8 c.payload 0) { a.core (u8 c.payload 0) with mode := .quiescing, atCommit := true }).markStarted
    c 0 []

/-- What `sorrelGetStatus` does (`SorrelVerbsComplete`). -/
abbrev Eff.sorrelGetStatus (c : Cmd) (a : State) : State :=
  (a.writeResult c (a.coreStatus (u8 c.payload 0))).finish c .ok 0

/-- What `inputBlockArrival` does (`SorrelRows`). -/
abbrev Eff.inputBlockArrival (n : Nat) (port : Nat) (b : InBlock) (a : State) : State :=
  let x := a.core n
  let q := Cond.taken n port a
  let ring := a.ringOf x port
  let y := { x with ports := x.ports.set port { q with
    gap := false, waiting := q.waiting ++ [b], ringNext := q.ringNext + b.bytes.length } }
  (a.keepCellar (ringWrite a.cellarMem ring.1 ring.2 q.ringNext b.bytes)).setCore n (y.fillSlots port 1)

/-- What `inputBlockArrival` does (`SorrelRows`). -/
abbrev Eff.inputBlockArrival2 (n : Nat) (port : Nat) (a : State) : State :=
  a.setCore n { a.core n with
    gaps := satAdd 64 (a.core n).gaps 1
    ports := (a.core n).ports.set port { Cond.taken n port a with gap := true } }

/-- What `activationCreditExhausted` does (`SorrelRows`). -/
abbrev Eff.activationCreditExhausted (n : Nat) (a : State) : State :=
  a.setCore n { a.core n with paused := true }

/-- What `sorrelForceMessage` does (`SorrelRows`). -/
abbrev Eff.sorrelForceMessage (n : Nat) (u : Nat) (rest : List Nat) (a : State) : State :=
  let b := a.setCore n { a.core n with forces := rest }
  { b with trig := { b.trig with kernelForces := b.trig.kernelForces ++ [u] } }

/-- What `sorrelForceMessage` does (`SorrelRows`). -/
abbrev Eff.sorrelForceMessage2 (n : Nat) (rest : List Nat) (a : State) : State :=
  let b := a.setCore n { a.core n with forces := rest }
  b.setCore n { b.core n with forcesRefused := wrapAdd 32 (a.core n).forcesRefused 1 }

/-- What `coreFault` does (`SorrelRows`). -/
abbrev Eff.coreFault (u : Nat) (c : Nat) (v : Nat) (a : State) : State :=
  (Cond.moved c v a).faultMasked ⟨4, 0, u⟩ { takenBy := v, logical := c }

/-- What `coreFault` does (`SorrelRows`). -/
abbrev Eff.coreFault2 (u : Nat) (a : State) : State :=
  (span (u / 4 * 4) 4).foldl (fun b v => b.coreFail v false) a

/-- What `sorrelScheduledStart` does (`SorrelRows`). -/
abbrev Eff.sorrelScheduledStart (n : Nat) (w : Sched) (params : List Byte) (a : State) : State :=
  let b := a.coreStart n params (a.dueTick w)
  b.finishAll (b.startedCmds 0x0902 fun c => u8 c.payload 0 == n) .ok fun _ => a.dueTick w

/-- What `isaMfs` does (`ScalarAndMemoryInstructions`). -/
abbrev Eff.isaMfs (core : Nat) (a : State) : State :=
  let x := Cond.issuing core a
  a.drawFree.setCore core (x.setS (bits x.word 53 49) (x.special a.now (bits x.word 31 0))).advance

/-- What `isaMts` does (`ScalarAndMemoryInstructions`). -/
abbrev Eff.isaMts (core : Nat) (a : State) : State :=
  let x := Cond.issuing core a
  a.drawFree.setCore core (x.setSpecial a.now (bits x.word 31 0) (x.s (bits x.word 48 44))).advance

/-- What `isaBr` does (`ControlInstructions`). -/
abbrev Eff.isaBr (core : Nat) (a : State) : State :=
  let x := Cond.issuing core a
  a.drawFree.setCore core { x with pc := bits x.word 31 0 % 8192 }

/-- What `isaJmp` does (`ControlInstructions`). -/
abbrev Eff.isaJmp (core : Nat) (a : State) : State :=
  let x := Cond.issuing core a
  a.drawFree.setCore core { x with pc := bits x.word 31 0 % 8192 }

/-- What `isaLoop` does (`ControlInstructions`). -/
abbrev Eff.isaLoop (core : Nat) (n : Nat) (a : State) : State :=
  let x := Cond.issuing core a
  let l : LoopFrame := { first := x.pc + 1, last := bits x.word 31 0, more := n }
  a.drawFree.setCore core { x with loops := l :: x.loops, pc := (x.pc + 1) % 8192 }

/-- What `isaLoop` does (`ControlInstructions`). -/
abbrev Eff.isaLoop2 (core : Nat) (a : State) : State :=
  let x := Cond.issuing core a
  let r := loopNext (bits x.word 31 0) x.loops
  a.drawFree.setCore core { x with pc := r.1 % 8192, loops := r.2 }

/-- What `isaYield` does (`ControlInstructions`). -/
abbrev Eff.isaYield (core : Nat) (a : State) : State :=
  (a.drawFree.setCore core (Cond.issuing core a)).coreYield core

/-- What `isaEmit` does (`ControlInstructions`). -/
abbrev Eff.isaEmit (core : Nat) (a : State) : State :=
  let x := Cond.issuing core a
  a.drawFree.setCore core ({ x with staged := x.staged ++
    [x.recordBytes core (x.bytes (x.s (bits x.word 53 49)) x.k.record)] } : Core).advance

/-- What `isaHalt` does (`ControlInstructions`). -/
abbrev Eff.isaHalt (core : Nat) (a : State) : State :=
  ((a.drawFree.setCore core (Cond.issuing core a)).coreCommit core).kernelEnd core 1 0

/-- What `patDefineSegment` does (`PatVerbsComplete`). -/
abbrev Eff.patDefineSegment (c : Cmd) (a : State) : State :=
  let p := c.payload
  match Cond.segMemory c a with
  | .ok pe => (a.setSeg (u16 p 0) { length := u32 p 4, streamed := u8 p 2 == 1, ring := u32 p 8, master := u64 p 16
                                    sites := field p 32 32, pe }).finish c .ok
      (u32 p 4 * vectorBytes ((Cond.segWidths c a).headD 0))
  | .error _ => a

/-- What `patDefineSegment` does (`PatVerbsComplete`). -/
abbrev Eff.patDefineSegment2 (c : Cmd) (a : State) : State :=
  ({ a with pat := { a.pat with segs := a.pat.segs.del (u16 c.payload 0) } } : State).finish c .ok 0

/-- What `patWriteSegment` does (`PatVerbsComplete`). -/
abbrev Eff.patWriteSegment (table : List Byte) (c : Cmd) (a : State) : State :=
  (Cond.written table c a).finish c .ok 0

/-- What `patWriteSegment` does (`PatVerbsComplete`). -/
abbrev Eff.patWriteSegment2 (table : List Byte) (k : Nat) (c : Cmd) (a : State) : State :=
  (Cond.written table c a).finish c .badParam (u32 c.payload 8 + k)

/-- What `patWriteSegment` does (`PatVerbsComplete`). -/
abbrev Eff.patWriteSegment3 (table : List Byte) (c : Cmd) (a : State) : State :=
  ((Cond.written table c a).setSeg (u16 c.payload 0) { a.seg (u16 c.payload 0) with
    locked := true }).markStarted c ((Cond.badVector table c a).elim 0 fun k => u32 c.payload 8 + k + 1) []

/-- What `patLoadTable` does (`PatVerbsComplete`). -/
abbrev Eff.patLoadTable (c : Cmd) (a : State) : State :=
  ((records (u16 c.payload 0) 24 (c.payload.drop 8)).foldl (fun b e =>
    b.setSeg (u16 e 0) { b.seg (u16 e 0) with
      cond := u8 e 2, rep := u32 e 4, next := if (u32 e 8).testBit 16 then none else some (u32 e 8 % 65536)
      target := u16 e 12, park := u32 e 16 }) a).finish c .ok 0

/-- What `patDefineSite` does (`PatVerbsComplete`). -/
abbrev Eff.patDefineSite (c : Cmd) (a : State) : State :=
  let n := u8 c.payload 0
  let pins := Cond.newPins c
  let b := (a.sendSiteMap n [] ((devicesOf (a.site n).pins).filter fun d => !(devicesOf pins).contains d)).sendSiteMap n
    pins (devicesOf pins)
  ((b.setSite n { mode := .idle, pins, play := { reqSeq := (a.site n).play.reqSeq } }).siteShadows n).finish c .ok 0

/-- What `patDefineSite` does (`PatVerbsComplete`). -/
abbrev Eff.patDefineSite2 (c : Cmd) (a : State) : State :=
  let n := u8 c.payload 0
  let b := a.sendSiteMap n [] (devicesOf (a.site n).pins)
  ((((b.setSite n { play := { reqSeq := (a.site n).play.reqSeq } }).siteShadows n).release
    (actKey kindSite n)).finishPatStops).finish c .ok 0

/-- What `patLoadTimesets` does (`PatVerbsComplete`). -/
abbrev Eff.patLoadTimesets (table : List Byte) (c : Cmd) (a : State) : State :=
  let p := c.payload
  let x := a.site (u8 p 0)
  ((a.hostLoad c (u64 p 8) (16 * u8 p 2) (u8 p 3 == 1)).setSite (u8 p 0) { x with
    sets := (if u16 p 4 = 0xFFFF then List.range x.pins.length else [u16 p 4]).foldl (fun m q =>
      (List.zip (span (u8 p 1) (u8 p 2)) (Cond.newSets table c a)).foldl (fun m e =>
        m.set (q * 64 + e.1) { on := u32 e.2 0, data := u32 e.2 4, off := u32 e.2 8, strobe := u32 e.2 12 }) m)
      x.sets }).finish c .ok 0

/-- What `patStart` does (`PatVerbsComplete`). -/
abbrev Eff.patStart (c : Cmd) (a : State) : State :=
  let b := (Cond.sitesGranted c a).getD a
  ((Cond.sitesNamed c).foldl (fun s n =>
    let x := s.site n
    (((s.setSite n { x with
      mode := .starting, before := some (x.mode, x.play), vecMax := Cond.topFreq c a, vc0 := b.freeNat 48
      play := x.play.start (u16 c.payload 32) (horizonOf (Cond.topFreq c a)), cap := x.nextCap
      due := none }).siteShadows n).sendTimesets n).sendStart n) b.drawFree).markStarted c 0 []

/-- What `patStop` does (`PatVerbsComplete`). -/
abbrev Eff.patStop (vecs : List (Nat × Nat)) (c : Cmd) (a : State) : State :=
  (Cond.stopping vecs c a).markStarted c 0 []

/-- What `patStop` does (`PatVerbsComplete`). -/
abbrev Eff.patStop2 (vecs : List (Nat × Nat)) (c : Cmd) (a : State) : State :=
  ((Cond.sitesNamed c).foldl (fun b n => b.release (actKey kindSite n)) (Cond.stopping vecs c a)).finish c
    .quiesced 0

/-- What `patRequestJump` does (`PatVerbsComplete`). -/
abbrev Eff.patRequestJump (vecs : List (Nat × Nat)) (c : Cmd) (a : State) : State :=
  ((Cond.sitesNamed c).foldl (fun b n => b.siteAsk n 64 (targetOf (u16 c.payload 32)) (indexIn vecs n)) a).finish
    c .ok ((Cond.sitesNamed c).filter fun n => (a.site n).mode != .running).length

/-- What `patGetResult` does (`PatVerbsComplete`). -/
abbrev Eff.patGetResult (index : Nat) (c : Cmd) (a : State) : State :=
  let b := a.settleMatches (u8 c.payload 0) ((a.site (u8 c.payload 0)).play.base + index)
  (b.writeResult c (b.siteStatus (u8 c.payload 0) index)).finish c .ok 0

/-- What `patScheduledStart` does (`PatRows`). -/
abbrev Eff.patScheduledStart (c : Cmd) (a : State) : State :=
  (((Cond.sitesNamed c).filter fun n => (a.site n).mode == .starting).foldl
    (fun b n => (b.launchSite n).siteShadows n) a).finish c .ok a.now

/-- What `triggerJumpArrival` does (`PatRows`). -/
abbrev Eff.triggerJumpArrival (site : Nat) (index : Nat) (j : Nat × Nat) (a : State) : State :=
  ({ a with trig := { a.trig with jumps := a.trig.jumps.erase j } } : State).siteAsk site j.2 none index

/-- What `siteEventArrival` does (`PatRows`). -/
abbrev Eff.siteEventArrival (site : Nat) (launch : Stamp) (a : State) : State :=
  let st := a.nextStamp (a.site site).seen launch
  ((a.setSite site { a.site site with seen := st }).offerTrig 12 site none st false).openSiteBlanking site

/-- What `decisionPoint` does (`PatRows`). -/
abbrev Eff.decisionPoint (site : Nat) (a : State) : State :=
  let b := a.settleMatches site ((a.site site).play.base + (a.seg (a.site site).play.seg).length - (a.site site).play.horizon)
  let x := b.site site
  let ch := x.play.decide b.pat.segs fun g => g.sites.testBit site
  let d := b.setSite site { x with play := { x.play with chosen := some ch } }
  let at_ := x.play.base + (b.seg x.play.seg).length
  match ch with
  | .enter u => d.sendNext site u at_ false
  | .jump u => d.sendNext site u at_ false
  | .stop => d.sendPark site at_ x.play.seg
  | .locked => d.sendPark site at_ x.play.seg
  | .missing => d.sendPark site at_ x.play.seg
  | _ => d

/-- What `segmentBoundary` does (`PatRows`). -/
abbrev Eff.segmentBoundary (site : Nat) (last : Stamp) (a : State) : State :=
  let b := Cond.atEnd site a
  let x := b.site site
  b.setSite site { x with
    play := x.play.cross b.pat.segs .again, vectors := Cond.launched site a, seen := Cond.lastLaunch site last a }

/-- What `segmentBoundary` does (`PatRows`). -/
abbrev Eff.segmentBoundary2 (site : Nat) (u : Nat) (last : Stamp) (a : State) : State :=
  Cond.entered site u (.enter u) last a (Cond.atEnd site a)

/-- What `segmentBoundary` does (`PatRows`). -/
abbrev Eff.segmentBoundary3 (site : Nat) (u : Nat) (last : Stamp) (r : JumpReq) (a : State) : State :=
  Cond.entered site u (.jump u) last a ((Cond.atEnd site a).event 0x0A03 site (r.detail u))

/-- What `segmentBoundary` does (`PatRows`). -/
abbrev Eff.segmentBoundary4 (site : Nat) (last : Stamp) (a : State) : State :=
  (Cond.atEnd site a).siteEnds site (Cond.launched site a) (Cond.lastLaunch site last a) .done

/-- What `segmentBoundary` does (`PatRows`). -/
abbrev Eff.segmentBoundary5 (site : Nat) (a : State) : State :=
  (Cond.atEnd site a).siteEnds site (Cond.launched site a) (Cond.atEnd site a).stampNow .stopped

/-- What `segmentBoundary` does (`PatRows`). -/
abbrev Eff.segmentBoundary6 (site : Nat) (a : State) : State :=
  (Cond.atEnd site a).siteStall site (a.seg (a.site site).play.seg).length 0xFF 2

/-- What `refillLate` does (`PatRows`). -/
abbrev Eff.refillLate (site : Nat) (index : Nat) (device : Nat) (a : State) : State :=
  (a.setSite site { a.site site with short := device }).parkLater site .stalled index

/-- What `sitePark` does (`PatRows`). -/
abbrev Eff.sitePark (site : Nat) (index : Nat) (a : State) : State :=
  a.siteStall site index (a.site site).short 1

/-- What `sitePark` does (`PatRows`). -/
abbrev Eff.sitePark2 (site : Nat) (index : Nat) (m : SiteMode) (a : State) : State :=
  a.siteEnds site ((a.site site).play.base + index) a.stampNow m

/-- What `trellisDiscover` does (`TrellisVerbsComplete`). -/
abbrev Eff.trellisDiscover (c : Cmd) (a : State) : State :=
  match a.declare ((Cond.trainNames c a).map peDecl) with
  | .ok b => b.finish c .ok a.peMask
  | .error _ => a

/-- What `trellisDiscover` does (`TrellisVerbsComplete`). -/
abbrev Eff.trellisDiscover2 (c : Cmd) (a : State) : State :=
  match a.declare ((Cond.trainNames c a).map peDecl) with
  | .ok b => ((Cond.trainNames c a).foldl (fun s n => s.peTrain n) b).markStarted c 0 []
  | .error _ => a

/-- What `trellisGetStatus` does (`TrellisVerbsComplete`). -/
abbrev Eff.trellisGetStatus (c : Cmd) (a : State) : State :=
  (a.drawFree.writeResult c (a.peStatus (u8 c.payload 0) false)).finish c .ok 0

/-- What `trellisGetStatus` does (`TrellisVerbsComplete`). -/
abbrev Eff.trellisGetStatus2 (c : Cmd) (a : State) : State :=
  (a.drawFree.writeResult c (a.peStatus (u8 c.payload 0) true)).finish c .ok 0

/-- What `trellisGetStatus` does (`TrellisVerbsComplete`). -/
abbrev Eff.trellisGetStatus3 (c : Cmd) (a : State) : State :=
  ((Cond.sitesWith (u8 c.payload 0) a).foldl (fun s i => s.peSendR (u8 c.payload 0) 0x0B [BitVec.ofNat 8 i])
    a).markStarted c (Cond.sitesWith (u8 c.payload 0) a).length []

/-- What `trellisConfigureCapture` does (`TrellisVerbsComplete`). -/
abbrev Eff.trellisConfigureCapture (c : Cmd) (a : State) : State :=
  let n := u8 c.payload 0
  let d := a.captureDemand n (Cond.captureOf c)
  let b := if d.isEmpty then a else (a.allot (actKey kindSite n) d).getD a
  (b.setSite n { a.site n with nextCap := Cond.captureOf c }).finish c .ok 0

/-- What `trellisDeskew` does (`TrellisVerbsComplete`). -/
abbrev Eff.trellisDeskew (c : Cmd) (a : State) : State :=
  (a.measureAll (runsOf (Cond.deskewUnits c a) 1)).markStarted c (Cond.deskewUnits c a).length
    ((runsOf (Cond.deskewUnits c a) 1).map DeskewRun.device)

/-- What `trellisDeskew` does (`TrellisVerbsComplete`). -/
abbrev Eff.trellisDeskew2 (c : Cmd) (a : State) : State :=
  a.conclude c (.dataIfAsked (a.deskewBytes ((Cond.deskewDevs c a).headD 0)) 0 a)

/-- What `trellisDeskew` does (`TrellisVerbsComplete`). -/
abbrev Eff.trellisDeskew3 (c : Cmd) (a : State) : State :=
  (a.sendRoute (u8 c.payload 1) (routeOf c.payload)).markStarted c 0 []

/-- What `markerCodeword` does (`TrellisLinkRows`). -/
abbrev Eff.markerCodeword (a : State) : State :=
  ((List.range 64).foldl (fun s n =>
    let d := s.peDev n
    let s := if d.moveBack && d.mode == .rerouted then
        ((s.setPe n { d with moveBack := false }).peMode n .up).event 0x0B02 n (buddyOf n + 2 ^ 10)
      else s
    let s := if d.trainSince.any fun t0 => decide (t0 + 50 * ticksPerMs ≤ s.now) then s.peGiveUp n else s
    if s.laneOn n then s.emit (.trellisLine n (lineLevels (s.laneHeader n none) (s.markerPayload n))) else s)
      a).peResets.finishDiscover.stimBeat

/-- What `upstreamCodeword` does (`TrellisLinkRows`). -/
abbrev Eff.upstreamCodeword (lane : Nat) (errors : List (Nat × Nat)) (header : Nat) (payload : List Byte) (a : State) : State :=
  let b := a.countBad lane (header.testBit 5)
  let d := b.peDev lane
  let frames := if header.testBit 7 then [] else records 10 64 payload
  let x := { d with
    credits := d.credits + (if header.testBit 7 then 0 else bits header 15 8)
    corrUp := satAdd 64 d.corrUp (bit (!errors.isEmpty))
    badUp := satAdd 64 d.badUp (frames.filter fun f => !upstreamType (u8 f 0)).length }
  let e := (sendWaiting x.toSend (b.setPe lane x) lane).laneUp lane (header.testBit 6)
  if !header.testBit 6 && d.trainSince.isNone then e.laneDown lane false false else e

/-- What `upstreamCodeword` does (`TrellisLinkRows`). -/
abbrev Eff.upstreamCodeword2 (lane : Nat) (a : State) : State :=
  (a.badFrame lane 1).countBad lane false

/-- What `laneDown` does (`TrellisLinkRows`). -/
abbrev Eff.laneDown (n : Nat) (up : Bool) (a : State) : State :=
  Cond.laneMasked n up (Cond.downAt n up a)

/-- What `laneDown` does (`TrellisLinkRows`). -/
abbrev Eff.laneDown2 (n : Nat) (up : Bool) (a : State) : State :=
  let d := (Cond.downAt n up a).peDev n
  let b := ((Cond.downAt n up a).peMode n .rerouted).peResend n
  let b := (b.peDev n).bulk.foldl (fun s e => s.bulkRewind n e.1) b
  Cond.laneMasked n up (b.event 0x0B02 n (buddyOf n + 2 ^ 8 * bit (!d.downUp) + 2 ^ 9 * bit (!d.upUp)))

/-- What `laneDown` does (`TrellisLinkRows`). -/
abbrev Eff.laneDown3 (n : Nat) (up : Bool) (a : State) : State :=
  let b := Cond.downAt n up a
  (if b.isRetired (Cond.laneUnit n up) then b else b.faultUnmasked (Cond.laneUnit n up) { logical := n }).peLoseBoth n 3 0

/-- What `deviceLost` does (`TrellisLinkRows`). -/
abbrev Eff.deviceLost (n : Nat) (a : State) : State :=
  (a.peLose n 1 0).peLose (buddyOf n) 1 0

/-- What `sidePortFailure` does (`TrellisLinkRows`). -/
abbrev Eff.sidePortFailure (pair : Nat) (a : State) : State :=
  ({ a with sideDead := a.sideDead ++ [pair] } : State).faultMasked ⟨10, pair, 4⟩ {}

/-- What `sidePortFailure` does (`TrellisLinkRows`). -/
abbrev Eff.sidePortFailure2 (pair : Nat) (a : State) : State :=
  (Cond.onSide pair a).foldl (fun s n => s.peLose n 1 0)
    (({ a with sideDead := a.sideDead ++ [pair] } : State).faultUnmasked ⟨10, pair, 4⟩
      { logical := (Cond.onSide pair a).headD 0xFFFF })

/-- What `stimDefineSegment` does (`StimVerbsComplete`). -/
abbrev Eff.stimDefineSegment (c : Cmd) (a : State) : State :=
  (a.setStim (u8 c.payload 0) { a.stimOut (u8 c.payload 0) with
    segs := (a.stimOut (u8 c.payload 0)).segs.set (u16 c.payload 2) (Cond.stimSegment c) }).finish c .ok 0

/-- What `stimDefineSegment` does (`StimVerbsComplete`). -/
abbrev Eff.stimDefineSegment2 (c : Cmd) (a : State) : State :=
  (a.setStim (u8 c.payload 0) { a.stimOut (u8 c.payload 0) with
    segs := (a.stimOut (u8 c.payload 0)).segs.del (u16 c.payload 2) }).finish c .ok 0

/-- What `stimWriteSegment` does (`StimVerbsComplete`). -/
abbrev Eff.stimWriteSegment (table : List Byte) (c : Cmd) (a : State) : State :=
  (Cond.stimWriting table c a).markStarted c 0 []

/-- What `stimLoadTable` does (`StimVerbsComplete`). -/
abbrev Eff.stimLoadTable (c : Cmd) (a : State) : State :=
  let x := a.stimOut (u8 c.payload 2)
  let segs := (records (u16 c.payload 0) 24 (c.payload.drop 8)).foldl (fun (m : KMap Segment) e =>
    m.set (u16 e 0) { m.get (u16 e 0) {} with
      cond := u8 e 2, rep := u32 e 4, next := if (u32 e 8).testBit 16 then none else some (u32 e 8 % 4096)
      target := u16 e 12, park := u16 e 14 }) x.segs
  (a.setStim (u8 c.payload 2) { x with segs }).finish c .ok 0

/-- What `stimStart` does (`StimVerbsComplete`). -/
abbrev Eff.stimStart (c : Cmd) (a : State) : State :=
  (a.writeResult c (a.stimBlock 0 ++ a.stimBlock 1)).finish c .ok 0

/-- What `stimStart` does (`StimVerbsComplete`). -/
abbrev Eff.stimStart2 (c : Cmd) (a : State) : State :=
  ((Cond.outputs c).foldl (fun s o => Cond.stimStarting c o s) ((Cond.stimGranted c a).getD a)).markStarted c 0 []

/-- What `stimStart` does (`StimVerbsComplete`). -/
abbrev Eff.stimStart3 (c : Cmd) (a : State) : State :=
  ((Cond.stimGranted c a).getD a).finish c .ok a.now

/-- What `stimStop` does (`StimVerbsComplete`). -/
abbrev Eff.stimStop (c : Cmd) (a : State) : State :=
  (Cond.stimStopping c a).markStarted c 0 []

/-- What `stimStop` does (`StimVerbsComplete`). -/
abbrev Eff.stimStop2 (c : Cmd) (a : State) : State :=
  (Cond.stimStopping c a).finish c .quiesced 0

/-- What `stimRequestJump` does (`StimVerbsComplete`). -/
abbrev Eff.stimRequestJump (c : Cmd) (a : State) : State :=
  let v := u16 c.payload 2
  ((Cond.outputs c).foldl (fun s o => s.stimAsk o 64 (if v = 0xFFFF then none else some v)) a).finish c .ok
    ((Cond.outputs c).filter fun o => (a.stimOut o).mode != .running).length

/-- What `stimScheduledStart` does (`StimRows`). -/
abbrev Eff.stimScheduledStart (c : Cmd) (a : State) : State :=
  (((maskBits 2 (u8 c.payload 0)).filter fun n => (a.stimOut n).mode == .starting).foldl (fun s n =>
    let x := s.stimOut n
    let b := s.setStim n { x with mode := .running, before := none, start := a.dueTick (Cond.stimAt c) }
    (if x.play.chosen = some .locked then b.stimEnds n 0 .stalled 4 false else b.stimFill n).stimShadows n)
    a).finish c .ok (a.dueTick (Cond.stimAt c))

/-- What `stimTriggerJumpArrival` does (`StimRows`). -/
abbrev Eff.stimTriggerJumpArrival (o : Nat) (j : Nat × Nat) (a : State) : State :=
  ({ a with trig := { a.trig with jumps := a.trig.jumps.erase j } } : State).stimAsk o j.2 none

/-- What `stimDecisionPoint` does (`StimRows`). -/
abbrev Eff.stimDecisionPoint (o : Nat) (a : State) : State :=
  let x := a.stimOut o
  a.setStim o { x with play := { x.play with chosen := some (x.play.decide x.segs fun _ => true) } }

/-- What `stimBoundary` does (`StimRows`). -/
abbrev Eff.stimBoundary (o : Nat) (a : State) : State :=
  ((Cond.stimPlayed o a).setStim o { (Cond.stimPlayed o a).stimOut o with
    play := (a.stimOut o).play.cross (a.stimOut o).segs .again }).stimFill o

/-- What `stimBoundary` does (`StimRows`). -/
abbrev Eff.stimBoundary2 (o : Nat) (u : Nat) (r : JumpReq) (a : State) : State :=
  let b := (Cond.stimPlayed o a).eventAt 0x0A03 (256 + o) { tick := (a.stimOut o).start + Cond.stimTotal o a } (r.detail u)
  (b.setStim o { b.stimOut o with
    play := (a.stimOut o).play.cross (a.stimOut o).segs (.jump u)
    entry := Cond.stimTotal o a
    filled := 0 }).stimFill o

/-- What `stimBoundary` does (`StimRows`). -/
abbrev Eff.stimBoundary3 (o : Nat) (a : State) : State :=
  (Cond.stimPlayed o a).stimEnds o (Cond.stimTotal o a) .done 1 true

/-- What `stimBoundary` does (`StimRows`). -/
abbrev Eff.stimBoundary4 (o : Nat) (a : State) : State :=
  (Cond.stimPlayed o a).stimEnds o (Cond.stimTotal o a) .stopped 2 false

/-- What `stimBoundary` does (`StimRows`). -/
abbrev Eff.stimBoundary5 (o : Nat) (a : State) : State :=
  (Cond.stimPlayed o a).stimEnds o (Cond.stimTotal o a) .stalled 4 false

/-- What `stimBoundary` does (`StimRows`). -/
abbrev Eff.stimBoundary6 (o : Nat) (a : State) : State :=
  (Cond.stimPlayed o a).stimEnds o (Cond.stimTotal o a) .stalled 5 false

/-- What `stimRefillLate` does (`StimRows`). -/
abbrev Eff.stimRefillLate (o : Nat) (a : State) : State :=
  let n := a.now - (a.stimOut o).start + 64
  (a.stimShow o n).stimEnds o n .stalled 3 false

/-- What `stimPark` does (`StimRows`). -/
abbrev Eff.stimPark (o : Nat) (n : Nat) (a : State) : State :=
  (a.stimShow o n).stimEnds o n .stopped 2 false

/-- What `vineConfigure` does (`VineVerbsComplete`). -/
abbrev Eff.vineConfigure (c : Cmd) (a : State) : State :=
  match a.declare [Cond.vineDecl] with
  | .ok b => (b.setVine { configured := true, role := 1, ref := some (u64 c.payload 8, Cond.vineOrigin c a) }).markStarted c 0 []
  | .error _ => a

/-- What `vineConfigure` does (`VineVerbsComplete`). -/
abbrev Eff.vineConfigure2 (delay : Nat) (c : Cmd) (a : State) : State :=
  match a.declare [Cond.vineDecl] with
  | .ok b =>
    let d := b.setVine { configured := true, role := 2, delay := delay }
    (({ d with ck := { d.ck with ppsQual := false, ppsRun := 0 } } : State).loopUpdate 0).markStarted c
      (if a.vine.role = 2 then a.vine.delay + 1 else 0) []
  | .error _ => a

/-- What `vineConfigure` does (`VineVerbsComplete`). -/
abbrev Eff.vineConfigure3 (c : Cmd) (a : State) : State :=
  let b := (a.setVine { configured := true }).undeclare 0x0D 0
  (if a.vineMember then b.loopUpdate 0 else b).finish c .quiesced 0

/-- What `vineCalibrateSkew` does (`VineVerbsComplete`). -/
abbrev Eff.vineCalibrateSkew (c : Cmd) (a : State) : State :=
  (a.setVine { a.vine with
    cal := some { start := u64 c.payload 0, echoes := u16 c.payload 8, measure := (u8 c.payload 10).testBit 0
                  echoIn := (u8 c.payload 10).testBit 1 } }).markStarted c 0 []

/-- What `vineGetStatus` does (`VineVerbsComplete`). -/
abbrev Eff.vineGetStatus (c : Cmd) (a : State) : State :=
  (a.writeResult c a.vine.status).finish c .ok 0

/-- What `vineScheduleSync` does (`VineVerbsComplete`). -/
abbrev Eff.vineScheduleSync (c : Cmd) (a : State) : State :=
  (a.setVine { a.vine with sched := some (Cond.vineSchedule c) }).finish c .ok 0

/-- What `vineScheduleSync` does (`VineVerbsComplete`). -/
abbrev Eff.vineScheduleSync2 (c : Cmd) (a : State) : State :=
  (a.setVine { a.vine with sched := none }).finish c .ok 0

/-- What `epochEdge` does (`VineRows`). -/
abbrev Eff.epochEdge (e : Nat) (tick : Nat) (a : State) : State :=
  let n := e + (a.now - tick) / epochTicks
  let at_ := tick + (a.now - tick) / epochTicks * epochTicks
  let v : Vine := { a.vine with ref := some (n, at_), epoch := n, epochTick := at_, sending := true }
  let b := ((a.setVine v.slew).emit (.vineTx 0 (vineFrame 0 n))).fireSync n at_
  let b := if b.vine.role = 1 then b.finishVine at_ else b
  match b.vine.cal with
  | some k => if k.start + k.echoes ≤ n then b.vineCalEnd k else b
  | none => b

/-- What `vineFrameSent` does (`VineRows`). -/
abbrev Eff.vineFrameSent (a : State) : State :=
  a.setVine { a.vine with sending := false }

/-- What `vineEventSend` does (`VineRows`). -/
abbrev Eff.vineEventSend (f : VineFrame) (rest : List VineFrame) (a : State) : State :=
  (a.setVine { a.vine with
    queue := rest, sending := true, sent := if f.kind = 1 then satAdd 64 a.vine.sent 1 else a.vine.sent }).emit
      (.vineTx f.kind (vineFrame f.kind f.payload))

/-- What `vineEventFrameReceived` does (`VineRows`). -/
abbrev Eff.vineEventFrameReceived (payload : Nat) (e : Nat) (tick : Nat) (a : State) : State :=
  let edge := tick - (e + 4 - bits payload 4 3) % 4 * epochTicks
  let st : Stamp := { tick := edge + bits payload 29 5, fine := bits payload 45 30 }
  (a.offerTrig 11 (bits payload 2 0) none st false).vineQueue { payload := payload % 2 ^ 46 }

/-- What `delayFrameReceived` does (`VineRows`). -/
abbrev Eff.delayFrameReceived (delay : Nat) (a : State) : State :=
  a.setVine { a.vine with target := some (delay % 2 ^ 48) }

/-- What `epochFrameReceived` does (`VineRows`). -/
abbrev Eff.epochFrameReceived (n : Nat) (arrival : Stamp) (a : State) : State :=
  (a.setVine { a.vine with wrong := 0 }).vineEpoch n (a.full arrival)

/-- What `epochFrameReceived` does (`VineRows`). -/
abbrev Eff.epochFrameReceived2 (e : Nat) (arrival : Stamp) (a : State) : State :=
  (a.setVine { a.vine with wrong := a.vine.wrong + 1 }).vineEpoch e (a.full arrival)

/-- What `epochFrameReceived` does (`VineRows`). -/
abbrev Eff.epochFrameReceived3 (n : Nat) (e : Nat) (arrival : Stamp) (a : State) : State :=
  (a.epochJump e n).vineEpoch n (a.full arrival)

/-- What `epochFrameReceived` does (`VineRows`). -/
abbrev Eff.epochFrameReceived4 (e : Nat) (arrival : Stamp) (a : State) : State :=
  ((Cond.badCrc a).setVine { (Cond.badCrc a).vine with wrong := 0 }).vineEpoch e (a.full arrival)

/-- What `echoPulseSend` does (`VineRows`). -/
abbrev Eff.echoPulseSend (st : Stamp) (k : VineCal) (a : State) : State :=
  (a.setVine { a.vine with cal := some { k with sent := some (stampFine (a.full st)) } }).emit (.vineTx 3 [])

/-- What `echoPulseReturn` does (`VineRows`). -/
abbrev Eff.echoPulseReturn (st : Stamp) (k : VineCal) (s0 : Nat) (a : State) : State :=
  a.setVine { a.vine with
    cal := some { k with sent := none, sum := k.sum + (stampFine (a.full st) - s0), count := k.count + 1 } }

/-- What `echoPulseReturn` does (`VineRows`). -/
abbrev Eff.echoPulseReturn2 (st : Stamp) (k : VineCal) (s0 : Nat) (a : State) : State :=
  a.vineCalEnd { k with
    sent := none
    sum := k.sum + (stampFine (a.full st) - s0)
    count := k.count + 1 }

/-- What `vineNeighbourLost` does (`VineRows`). -/
abbrev Eff.vineNeighbourLost (cause : Nat) (a : State) : State :=
  let b := a.setVine { a.vine with
    holdover := true, aligned := false, refIn := a.vine.refIn && cause != 1, syncIn := a.vine.syncIn && cause != 2 }
  b.enterHoldover.event 0x0D02 0 cause

/-- What `vineSignalsReturn` does (`VineRows`). -/
abbrev Eff.vineSignalsReturn (phase : Int) (a : State) : State :=
  let near := decide (phase.natAbs ≤ alignWindow)
  (a.setVine { a.vine with refIn := true, syncIn := true, holdover := !near, stale := !near, phase }).loopUpdate 0

/-- What `tiuConfigureChannel` does (`TiuVerbsComplete`). -/
abbrev Eff.tiuConfigureChannel (c : Cmd) (a : State) : State :=
  (a.setTiu (u8 c.payload 0) ((a.tiuChan (u8 c.payload 0)).fresh .configured (tiuCfgOf c.payload))).finish c
    .ok 0

/-- What `tiuStart` does (`TiuVerbsComplete`). -/
abbrev Eff.tiuStart (c : Cmd) (a : State) : State :=
  let ns := Cond.tiuNew c a
  (ns.foldl (fun s n => s.setTiu n { s.tiuChan n with mode := .starting }) ((Cond.tiuAdmitted ns a).getD a)).markStarted
    c 0 ns

/-- What `tiuStop` does (`TiuVerbsComplete`). -/
abbrev Eff.tiuStop (c : Cmd) (a : State) : State :=
  (Cond.tiuStopped c a).finish c .quiesced 0

/-- What `tiuStop` does (`TiuVerbsComplete`). -/
abbrev Eff.tiuStop2 (c : Cmd) (a : State) : State :=
  (Cond.tiuStopped c a).markStarted c 0 (Cond.tiuBusy c a)

/-- What `tiuReadStats` does (`TiuVerbsComplete`). -/
abbrev Eff.tiuReadStats (c : Cmd) (a : State) : State :=
  let n := u8 c.payload 0
  let x := a.tiuChan n
  let part := (u8 c.payload 1).testBit 1
  (a.writeResult c (x.stats n (if part then x.core.block else x.latched.getD {}) (!part && x.latched.isSome)
    (a.tiuFrozen (n / 16)))).finish c .ok 0

/-- What `tiuGetStatus` does (`TiuVerbsComplete`). -/
abbrev Eff.tiuGetStatus (high : Nat) (low : Nat) (c : Cmd) (a : State) : State :=
  let n := u8 c.payload 0
  let x := a.tiuChan n
  (a.writeResult c (pack [(1, n), (1, Cond.tiuState n a),
    (1, bit (a.spareServes n) + 2 * bit (a.tiuFrozen (n / 16)) + 4 * bit (a.vineHold (n / 16))),
    (1, a.sparesLeft 19 (n / 16)), (2, high), (2, low), (8, x.stamps), (8, x.missed), (8, x.dropped),
    (4, (a.tiuGroup (n / 16)).rotations), (4, (x.recentTicks a.now).length), (16, stampNat x.last), (8, 0)])).finish
      c .ok 0

/-- What `tiuEdge` does (`TiuRows`). -/
abbrev Eff.tiuEdge (n : Nat) (fraction : Nat) (levels : List Int) (failed : Bool) (a : State) : State :=
  let b := Cond.tiuJudged n failed a
  let p := (b.tiuChan n).path (b.tiuChan n).cfg levels
  p.2.foldl (fun s code => s.tiuEdge n code (b.tiuTime fraction)) (b.setTiu n p.1)

/-- What `tiuEdge` does (`TiuRows`). -/
abbrev Eff.tiuEdge2 (n : Nat) (fraction : Nat) (levels : List Int) (failed : Bool) (a : State) : State :=
  let b := Cond.tiuJudged n failed a
  let p := (b.tiuChan n).path (b.heldCfg n) levels
  let d := b.setTiu n p.1
  let time := b.tiuTime fraction
  if p.2.contains 0 && !Cond.tiuDeadAt n time d then
    (d.setTiu n { d.tiuChan n with lastTime := some time }).deskewStamp n time
  else d

/-- What `statsBlockComplete` does (`TiuRows`). -/
abbrev Eff.statsBlockComplete (n : Nat) (b : TiuBlock) (rest : List TiuBlock) (a : State) : State :=
  let x := a.tiuChan n
  let y : TiuChan := { Cond.tiuLatch b rest x with
    evOpen := some a.now
    evBlocks := 0
    evLate := none }
  ((a.setTiu n y).eventAt 0x0E01 n b.last (tiuEventDetail b (x.evBlocks + 1))).tiuRest n

/-- What `statsBlockComplete` does (`TiuRows`). -/
abbrev Eff.statsBlockComplete2 (n : Nat) (b : TiuBlock) (rest : List TiuBlock) (a : State) : State :=
  let x := a.tiuChan n
  let y : TiuChan := { Cond.tiuLatch b rest x with
    evBlocks := x.evBlocks + 1
    evLate := some b }
  (a.setTiu n y).tiuRest n

/-- What `statsBlockComplete` does (`TiuRows`). -/
abbrev Eff.statsBlockComplete3 (n : Nat) (b : TiuBlock) (rest : List TiuBlock) (a : State) : State :=
  (a.setTiu n (Cond.tiuLatch b rest (a.tiuChan n))).tiuRest n

/-- What `tiuStatsIntervalClose` does (`TiuRows`). -/
abbrev Eff.tiuStatsIntervalClose (n : Nat) (o : Nat) (b : TiuBlock) (a : State) : State :=
  (a.setTiu n { a.tiuChan n with evOpen := some (o + ticksPerUs), evBlocks := 0, evLate := none }).eventAt
    0x0E01 n b.last (tiuEventDetail b (a.tiuChan n).evBlocks)

/-- What `tiuStatsIntervalClose` does (`TiuRows`). -/
abbrev Eff.tiuStatsIntervalClose2 (n : Nat) (a : State) : State :=
  a.setTiu n { a.tiuChan n with evOpen := none }

/-- What `tiuScheduledStart` does (`TiuRows`). -/
abbrev Eff.tiuScheduledStart (c : Cmd) (a : State) : State :=
  (c.named.foldl (fun s m => s.setTiu m ((s.tiuChan m).fresh .running (s.tiuChan m).cfg)) a).finish c .ok
    (Cond.tiuEdgeOf c a)

/-- What `interpolatorRotationStep` does (`TiuRows`). -/
abbrev Eff.interpolatorRotationStep (group : Nat) (a : State) : State :=
  let g := a.tiuGroup group
  let next := (g.step + 1) % 17
  ((a.setTiuGroup group { g with
    step := next, rotations := if g.step = 16 then wrapAdd 32 g.rotations 1 else g.rotations }).calTrim 4
      (if g.step < 16 then 16 * group + g.step else 64 + group) 0 0).calServed 4 (32 * group + next)

/-- What `interpolatorFailure` does (`TiuRows`). -/
abbrev Eff.interpolatorFailure (group : Nat) (unit : Nat) (a : State) : State :=
  let spare := a.sparesLeft 19 group != 0
  ((Cond.spareWithdrawn group a).setTiuGroup group (Cond.tiuGroupAfter group unit a)).faultIn ⟨19, group, unit⟩
    { takenBy := if unit < 16 ∧ spare = true then 16 else 0xFFFF
      logical := if unit < 16 then 16 * group + unit else 0xFFFF
      injected := false }

/-- What `monConfigureComparator` does (`MonVerbsComplete`). -/
abbrev Eff.monConfigureComparator (c : Cmd) (a : State) : State :=
  (a.setComp (u8 c.payload 0) (Cond.monSettings c.payload a.now (a.comp (u8 c.payload 0)))).markStarted c 0 []

/-- What `monConfigureComparator` does (`MonVerbsComplete`). -/
abbrev Eff.monConfigureComparator2 (c : Cmd) (a : State) : State :=
  (((Cond.monDeclared c a).getD a).setComp (u8 c.payload 0)
    { Cond.monSettings c.payload a.now (a.comp (u8 c.payload 0)) with
      out := false, settled := false, evaluated := false, inBand := false, window := none, shown := false
      firstDue := false, changes := 0, blanked := 0 }).markStarted c 0 []

/-- What `monConfigureComparator` does (`MonVerbsComplete`). -/
abbrev Eff.monConfigureComparator3 (c : Cmd) (a : State) : State :=
  ((a.setComp (u8 c.payload 0)
    { Cond.monSettings c.payload a.now (a.comp (u8 c.payload 0)) with window := none }).undeclare 0x0F (u8 c.payload 0)).markStarted
      c 0 []

/-- What `monLoadSequence` does (`MonVerbsComplete`). -/
abbrev Eff.monLoadSequence (c : Cmd) (a : State) : State :=
  let p := c.payload
  let n := u8 p 1
  a.setMon { a.mon with
    entries := ((List.range n).zip (records n 8 (p.drop 16))).foldl (fun (m : KMap MonEntry) (ib : Nat × List Byte) =>
      m.set (u8 p 0 + ib.1)
        { channel := u8 ib.2 0, select := u8 ib.2 1, rep := u16 ib.2 2, delay := u16 ib.2 4, avg := u8 ib.2 6
          shift := u8 ib.2 7 }) a.mon.entries
    length := u8 p 2, flow := if u32 p 4 = 0xFFFFFFFF then none else some (u32 p 4), every := u16 p 8 } |>.finish c .ok 0

/-- What `monStartSequence` does (`MonVerbsComplete`). -/
abbrev Eff.monStartSequence (c : Cmd) (a : State) : State :=
  ((Cond.monAdmitted a).getD a).markStarted c 0 []

/-- What `monStopSequence` does (`MonVerbsComplete`). -/
abbrev Eff.monStopSequence (c : Cmd) (a : State) : State :=
  (a.setMon { a.mon with quiescing := true }).markStarted c 0 []

/-- What `monRead` does (`MonVerbsComplete`). -/
abbrev Eff.monRead (c : Cmd) (a : State) : State :=
  (a.writeResult c ((List.range 16).flatMap fun k => (a.comp k).bytes)).finish c .ok 0

/-- What `monRead` does (`MonVerbsComplete`). -/
abbrev Eff.monRead2 (c : Cmd) (a : State) : State :=
  a.conclude c (.data (a.mon.header a.now ++ (List.range 128).flatMap fun e =>
    a.mon.records.get e (leBytes 16 0)) 0 a)

/-- What `monSetReference` does (`MonVerbsComplete`). -/
abbrev Eff.monSetReference (c : Cmd) (a : State) : State :=
  ((a.setMon { a.mon with refOn := false, refSettled := false }).undeclare 0x0F 17).finish c .ok 0

/-- What `monSetReference` does (`MonVerbsComplete`). -/
abbrev Eff.monSetReference2 (c : Cmd) (a : State) : State :=
  match a.declare [{ fam := 0x0F, obj := 17, group := 17, first := 50000, each := 50000 }] with
  | .ok b => (b.setMon { b.mon with refOn := true, refTick := a.now, refSettled := false }).finish c .ok a.now
  | .error _ => a

/-- What `m3Tick` does (`ComparatorRows`). -/
abbrev Eff.m3Tick (k : Nat) (input : Int) (a : State) : State :=
  (a.setComp k { a.comp k with decided := Cond.m3Index k a }).evaluate k input
    ((a.comp k).tickFrom + Cond.m3Index k a * ((a.comp k).tickUs * ticksPerUs))

/-- What `blankingWindowClose` does (`ComparatorRows`). -/
abbrev Eff.blankingWindowClose (k : Nat) (w : Nat) (a : State) : State :=
  let p := (Cond.windowClosed k a).compStamped k { tick := w }
  p.2.forward k p.1 (a.comp k).firstDue true

/-- What `comparatorEventIntervalClose` does (`ComparatorRows`). -/
abbrev Eff.comparatorEventIntervalClose (k : Nat) (o : Nat) (a : State) : State :=
  let c := a.comp k
  (a.setComp k { c with evOpen := some (o + ticksPerUs), evCount := 0, evFlags := 0 }).eventAt 0x0F01 k
    { tick := o + ticksPerUs } (c.evCount + 2 ^ 32 + 2 ^ 33 * bit c.shown + 2 ^ 34 * c.evFlags)

/-- What `comparatorEventIntervalClose` does (`ComparatorRows`). -/
abbrev Eff.comparatorEventIntervalClose2 (k : Nat) (a : State) : State :=
  a.setComp k { a.comp k with evOpen := none }

/-- What `wakeRequest` does (`ComparatorRows`). -/
abbrev Eff.wakeRequest (a : State) : State :=
  let b := a.setMon { a.mon with wake := false }
  { b with pw := { b.pw with wakeDue := true }
           host := { b.host with wakeAsserted := b.host.wakeAsserted || b.host.link != .l0 } }

/-- What `comparatorThresholdApply` does (`ComparatorRows`). -/
abbrev Eff.comparatorThresholdApply (k : Nat) (readback : Nat) (a : State) : State :=
  let b := a.setComp k { a.comp k with live := (a.comp k).thresh, readback := readback % 65536 }
  b.finishAll (b.startedCmds 0x0F01 fun d => u8 d.payload 0 == k) .ok fun _ => readback % 65536

/-- What `conversionComplete` does (`MonitorRows`). -/
abbrev Eff.conversionComplete (code : Nat) (outside : Nat) (a : State) : State :=
  if a.mon.quiescing then (Cond.convEnds code outside a).monRest else Cond.convEnds code outside a

/-- What `entryDelayExpiry` does (`MonitorRows`). -/
abbrev Eff.entryDelayExpiry (a : State) : State :=
  a.setMon { a.mon with phase := .converting, since := a.mon.since + a.mon.delayTicks }

/-- What `recoveryConversion` does (`MonitorRows`). -/
abbrev Eff.recoveryConversion (a : State) : State :=
  let b := a.setMon { a.mon with
    phase := .converting
    recovered := true
    lastOver := false
    since := a.mon.since + recoveryTicks
    recoveries := wrapAdd 32 a.mon.recoveries 1 }
  if a.mon.quiescing then b.monRest else b

/-- What `housekeepingConversion` does (`MonitorRows`). -/
abbrev Eff.housekeepingConversion (a : State) : State :=
  a.setMon { a.mon with housekeeping := a.now }

/-- What `housekeepingConversion` does (`MonitorRows`). -/
abbrev Eff.housekeepingConversion2 (a : State) : State :=
  a.setMon { a.mon with housekeeping := a.now, kept := true }

/-- What `housekeepingConversion` does (`MonitorRows`). -/
abbrev Eff.housekeepingConversion3 (a : State) : State :=
  a.setMon { a.mon with housekeeping := a.now, kept := true, since := a.mon.since + conversionTicks }

/-- What `referenceSettled` does (`MonitorRows`). -/
abbrev Eff.referenceSettled (a : State) : State :=
  a.setMon { a.mon with refSettled := true }

/-- What `monScheduledStart` does (`MonitorRows`). -/
abbrev Eff.monScheduledStart (c : Cmd) (a : State) : State :=
  let first := a.dueTick { mode := u8 c.payload 0, at_ := u64 c.payload 8 }
  (a.setMon { a.mon with
    running := true, quiescing := false, phase := .converting, entry := 0, results := 0, since := first, kept := false
    convs := 0, sum := 0, outside := 0, lastOver := false, recovered := false, evFlags := 0 }).finish c .ok first

/-- What `cellarAllocate` does (`CellarCommands`). -/
abbrev Eff.cellarAllocate (base : Nat) (c : Cmd) (a : State) : State :=
  ({ a with regions := a.regions.set base (Cond.cellarRegion c.payload) } : State).finish c .ok base

/-- What `cellarAllocate` does (`CellarCommands`). -/
abbrev Eff.cellarAllocate2 (base : Nat) (c : Cmd) (a : State) : State :=
  ({ a with regions := a.regions.set base (Cond.cellarRegion c.payload) } : State).markStarted c base []

/-- What `cellarFree` does (`CellarCommands`). -/
abbrev Eff.cellarFree (c : Cmd) (a : State) : State :=
  ({ a with regions := a.regions.del (u64 c.payload 0) } : State).finish c .quiesced 0

/-- What `cellarFree` does (`CellarCommands`). -/
abbrev Eff.cellarFree2 (r : Region) (c : Cmd) (a : State) : State :=
  ((a.grantBursts (u64 c.payload 0) r).setRegion (u64 c.payload 0) { r with freeing := true }).markStarted c
    (u64 c.payload 0) []

/-- What `cellarGetStatus` does (`CellarCommands`). -/
abbrev Eff.cellarGetStatus (temps : List Int) (c : Cmd) (a : State) : State :=
  (a.writeResult c
    (a.cellarHeader ++ (List.range 4).flatMap fun k => a.stackBytes k (temps.getD k 0))).finish c .ok 0

/-- What `cellarGetStatus` does (`CellarCommands`). -/
abbrev Eff.cellarGetStatus2 (c : Cmd) (a : State) : State :=
  (a.writeResult c ((Cond.regionsAsked c a).flatMap regionEntry)).finish c .ok
    (Cond.regionsAsked c a).length

/-- What `cellarSetOperatingPoint` does (`CellarCommands`). -/
abbrev Eff.cellarSetOperatingPoint (c : Cmd) (a : State) : State :=
  (Cond.cellarThreshold c a).finish c .ok 0

/-- What `cellarSetOperatingPoint` does (`CellarCommands`). -/
abbrev Eff.cellarSetOperatingPoint2 (c : Cmd) (a : State) : State :=
  let b := Cond.cellarThreshold c a
  ((b.setCell { b.cell with change := some { rate := Cond.cellarRate c a, since := a.now } }).setStack 0
    { b.stack 0 with phase := .selfRefresh }).markStarted c (Cond.cellarRate c a) []

/-- What `cellarRequest` does (`CellarCommands`). -/
abbrev Eff.cellarRequest (port : Nat) (addr : Nat) (size : Nat) (serve : Nat) (write : Bool) (data : List Byte) (rows : List (Nat × Nat)) (a : State) : State :=
  (serveReqs serve (a.setCell { a.cell with
    waiting := a.cell.waiting ++ [{ port, addr, size, write, data, at_ := a.now }] }).climb).activations rows

/-- What `cellarRequest` does (`CellarCommands`). -/
abbrev Eff.cellarRequest2 (serve : Nat) (rows : List (Nat × Nat)) (a : State) : State :=
  (serveReqs serve a.climb).activations rows

/-- What `writeBufferMergeTimeout` does (`CellarCommands`). -/
abbrev Eff.writeBufferMergeTimeout (stripe : Nat) (mask : Nat) (a : State) : State :=
  a.setCell { a.cell with
    merging := a.cell.merging.del stripe, partials := wrapAdd 64 a.cell.partials (partialBytes mask) }

/-- What `urgencyLevelRise` does (`CellarCommands`). -/
abbrev Eff.urgencyLevelRise (a : State) : State :=
  a.setCell { a.cell with
    waiting := a.cell.waiting.map fun r => { r with level := max r.level (urgencyLevel r.port (a.now - r.at_)) } }

/-- What `regionZeroComplete` does (`CellarCommands`). -/
abbrev Eff.regionZeroComplete (base : Nat) (r : Region) (a : State) : State :=
  let b := ({ a with regions := a.regions.set base { r with zeroing := false } } : State).keepCellar
    (a.cellarMem.zero base r.bytes)
  b.finishAll (a.startedCmds 0x1001 fun c => c.aux == base) .ok fun _ => base

/-- What `patrolScrub` does (`CellarStacks`). -/
abbrev Eff.patrolScrub (corrected : List Nat) (rebuilt : List Nat) (a : State) : State :=
  let b := (List.range 4).foldl (fun s k => s.setStack k { s.stack k with
    corrected := wrapAdd 64 (s.stack k).corrected (corrected.getD k 0)
    reconstructed := wrapAdd 64 (s.stack k).reconstructed (rebuilt.getD k 0) }) a
  b.setCell { b.cell with scrubs := wrapAdd 32 b.cell.scrubs 1 }

/-- What `refreshWindowStart` does (`CellarStacks`). -/
abbrev Eff.refreshWindowStart (a : State) : State :=
  a.setCell { a.cell with stackMap := a.cell.stackMap.mapVals fun _ x => { x with banks := [] } }

/-- What `rowHammerThreshold` does (`CellarStacks`). -/
abbrev Eff.rowHammerThreshold (k : Nat) (bank : Nat) (row : Nat) (a : State) : State :=
  let x := a.stack k
  a.setStack k { x with
    banks := x.banks.set bank ((x.banks.get bank []).map fun f => if f.1 = row then (f.1, 0) else f)
    neighbours := wrapAdd 64 x.neighbours 1 }

/-- What `pseudoChannelFailure` does (`CellarStacks`). -/
abbrev Eff.pseudoChannelFailure (k : Nat) (pc : Nat) (a : State) : State :=
  (a.setStack k { a.stack k with replaced := some pc, rebuilding := true, rebuilt := 0, rebuildFrom := a.now }).faultMasked ⟨8, k, pc⟩
    { takenBy := 32, logical := pc, injected := false }

/-- What `pseudoChannelFailure` does (`CellarStacks`). -/
abbrev Eff.pseudoChannelFailure2 (k : Nat) (a : State) : State :=
  a.faultIn ⟨8, k, 32⟩ { injected := false }

/-- What `stackFailure` does (`CellarStacks`). -/
abbrev Eff.stackFailure (k : Nat) (a : State) : State :=
  let b := (a.setStack k { a.stack k with rebuilding := false, phase := .serving }).faultIn ⟨9, 0, k⟩
    { logical := k, injected := false }
  if (a.stack k).phase = .serving then b else b.opPointNext k

/-- What `rebuildComplete` does (`CellarStacks`). -/
abbrev Eff.rebuildComplete (k : Nat) (a : State) : State :=
  a.setStack k { a.stack k with rebuilding := false, rebuilt := pcBytes }

/-- What `retrainPauseStart` does (`CellarStacks`). -/
abbrev Eff.retrainPauseStart (channel : Nat) (a : State) : State :=
  a.setCell { a.cell with
    pause := some (channel, a.now)
    pausedAt := some a.now
    paused := Cond.roundAfter channel a }

/-- What `retrainPauseEnd` does (`CellarStacks`). -/
abbrev Eff.retrainPauseEnd (channel : Nat) (fill : Nat) (since : Nat) (a : State) : State :=
  ((Cond.pauseOver channel since fill (wrapAdd 32 (a.stack (channel / 16)).retrains 1) 0 a).calTrim 9 channel 0
    0).calServed 9 channel

/-- What `retrainPauseEnd` does (`CellarStacks`). -/
abbrev Eff.retrainPauseEnd2 (channel : Nat) (fill : Nat) (since : Nat) (a : State) : State :=
  Cond.pauseOver channel since fill (a.stack (channel / 16)).retrains (Cond.pauseFails channel a + 1) a

/-- What `retrainPauseEnd` does (`CellarStacks`). -/
abbrev Eff.retrainPauseEnd3 (channel : Nat) (fill : Nat) (since : Nat) (a : State) : State :=
  (((Cond.pauseOver channel since fill (a.stack (channel / 16)).retrains 0 a).losePc (channel / 16)
    (2 * (channel % 16)) false).calFailed 9 channel).calServed 9 channel

/-- What `stackOpPointServing` does (`CellarStacks`). -/
abbrev Eff.stackOpPointServing (k : Nat) (a : State) : State :=
  a.setStack k { a.stack k with phase := .draining }

/-- What `stackBufferDrained` does (`CellarStacks`). -/
abbrev Eff.stackBufferDrained (k : Nat) (fill : Nat) (a : State) : State :=
  (a.setStack k { a.stack k with
    phase := .serving, bufferPeak := max (a.stack k).bufferPeak fill }).opPointNext k

/-- What `flowCreate` does (`FlowVerbsAndBursts`). -/
abbrev Eff.flowCreate (n : Nat) (c : Cmd) (a : State) : State :=
  (a.setFlow n (Cond.flowOf c)).finish c .ok n

/-- What `flowEnable` does (`FlowVerbsAndBursts`). -/
abbrev Eff.flowEnable (c : Cmd) (a : State) : State :=
  let f := u32 c.payload 0
  (((((Cond.flowAdmitted c a).getD a).setFlow f { a.flow f with
    mode := .enabled, gate := true, gateRefused := false, rate := Cond.flowRate c a, haltCause := 0, haltDesc := 0
    slack := 0, readySince := a.now }).setShadowBit (0x8000 + f / 32 * 4) (f % 32) true).flowStart f).finish c .ok a.now

/-- What `flowEnable` does (`FlowVerbsAndBursts`). -/
abbrev Eff.flowEnable2 (c : Cmd) (a : State) : State :=
  let f := u32 c.payload 0
  (a.setShadowBit (0x8000 + f / 32 * 4) (f % 32) (a.flow f).gate).finish c .ok a.now

/-- What `flowDisable` does (`FlowVerbsAndBursts`). -/
abbrev Eff.flowDisable (c : Cmd) (a : State) : State :=
  ((a.markStarted c 0 []).flowQuiesce (u32 c.payload 0) 1).markStarted c 0 []

/-- What `flowDestroy` does (`FlowVerbsAndBursts`). -/
abbrev Eff.flowDestroy (c : Cmd) (a : State) : State :=
  ((a.markStarted c 0 []).flowQuiesce (u32 c.payload 0) 2).markStarted c 0 []

/-- What `flowPostDescriptors` does (`FlowVerbsAndBursts`). -/
abbrev Eff.flowPostDescriptors (c : Cmd) (a : State) : State :=
  let f := u32 c.payload 0
  let y := { a.flow f with chains := (a.flow f).chains ++ [(u64 c.payload 8, u32 c.payload 4)] }
  (a.setFlow f y).finish c .ok y.queued

/-- What `flowGetStatus` does (`FlowVerbsAndBursts`). -/
abbrev Eff.flowGetStatus (c : Cmd) (a : State) : State :=
  (a.writeResult c (a.flowStatus (u32 c.payload 0))).finish c .ok 0

/-- What `descriptorFetched` does (`FlowVerbsAndBursts`). -/
abbrev Eff.descriptorFetched (f : Nat) (addr : Nat) (left : Nat) (rest : List (Nat × Nat)) (bytes : List Byte) (index : List Nat) (a : State) : State :=
  let x := a.flow f
  let bs := Cond.descrBytes x addr bytes a
  let d := Cond.descrFetched f addr bytes index a
  let chain := if d.bad || u64 bs 24 == 0 || decide (left ≤ 1) then none else some (u64 bs 24, left - 1)
  let b := a.setFlow f { x with chain, chains := rest, fetched := x.fetched ++ [d] }
  let b := if x.space = 1 then b else b.emit (.hostRead x.fn addr 64 false)
  let b := if x.src = 1 && (u8 bs 0).testBit 1 && !d.bad then
      b.emit (.hostRead x.fn (u64 bs 32) (4 * u32 bs 40) false)
    else b
  if x.mode = .quiescing then b.flowSettle f else b.flowStart f

/-- What `producerUnitArrival` does (`FlowVerbsAndBursts`). -/
abbrev Eff.producerUnitArrival (f : Nat) (u : FlowUnit) (rest : List FlowUnit) (a : State) : State :=
  let b : State := { a with offered := if rest.isEmpty then a.offered.del f else a.offered.set f rest }
  let d := b.setFlow f { a.flow f with buffer := [u], readySince := a.now }
  if rest.isEmpty then d.flowAccepted f else d

/-- What `burstAdmission` does (`FlowVerbsAndBursts`). -/
abbrev Eff.burstAdmission (f : Nat) (n : Nat) (slack : Bool) (a : State) : State :=
  let bud := a.bud.spendBurst f n (a.flow f) slack
  let b : State := { a with
    bud := { bud with aged := bud.aged.del f }
    rack := { a.rack with last := a.rack.last.set (a.flow f).priority f } }
  (b.issueBurst f n slack).flowSettle f

/-- What `burstCompletion` does (`FlowVerbsAndBursts`). -/
abbrev Eff.burstCompletion (f : Nat) (offset : Nat) (b : Burst) (m : Moving) (data : List Byte) (a : State) : State :=
  let x := a.flow f
  let bytes := Cond.burstBytes x m b data a
  (((Cond.burstWritten x m b bytes a).setFlow f { x with
    moved := wrapAdd 64 x.moved b.size
    cur := some { m with flight := m.flight.filter fun e => e.offset != offset
                         data := m.data.set offset bytes } }).flowSettle f).settleFrees

/-- What `burstError` does (`FlowVerbsAndBursts`). -/
abbrev Eff.burstError (f : Nat) (offset : Nat) (m : Moving) (a : State) : State :=
  ((a.setFlow f { a.flow f with
    cur := some { m with
      flight := m.flight.filter fun b => b.offset != offset
      failed := some (match m.failed with
        | some o => min o offset
        | none => offset)
      late := if m.failed.isSome then m.late else m.issued == m.desc.length } }).flowSettle f).settleFrees

/-- What `hostReadTimeout` does (`FlowVerbsAndBursts`). -/
abbrev Eff.hostReadTimeout (f : Nat) (m : Moving) (a : State) : State :=
  ((m.flight.filter fun b => decide (b.since + 10 * ticksPerMs ≤ a.now)).map Burst.offset).foldl
    (fun s o => s.burstFails f o) a

/-- What `streamConfigurePort` does (`StreamPorts`). -/
abbrev Eff.streamConfigurePort (c : Cmd) (a : State) : State :=
  let n := u8 c.payload 0
  let up := (a.port n).mode == .up
  match a.declare [Cond.portDecl n] with
  | .ok b =>
    let d := b.setPort n (Cond.streamSettings c.payload (a.port n))
    if up then d.finish c .ok 0 else d.markStarted c 0 []
  | .error _ => a

/-- What `streamConfigurePort` does (`StreamPorts`). -/
abbrev Eff.streamConfigurePort2 (c : Cmd) (a : State) : State :=
  let n := u8 c.payload 0
  ((a.setPort n { a.port n with mode := .off, role := 0, carrying := none }).undeclare 0x12 n).finish c .quiesced 0

/-- What `streamBindFlow` does (`StreamPorts`). -/
abbrev Eff.streamBindFlow (c : Cmd) (a : State) : State :=
  (a.setFlow (u32 c.payload 0)
    { a.flow (u32 c.payload 0) with bind := some { Cond.streamBinding c.payload with levelAt := a.now } }).finish c .ok 0

/-- What `streamBindFlow` does (`StreamPorts`). -/
abbrev Eff.streamBindFlow2 (c : Cmd) (a : State) : State :=
  (a.setFlow (u32 c.payload 0) { a.flow (u32 c.payload 0) with bind := none }).finish c .ok 0

/-- What `streamGetStatus` does (`StreamPorts`). -/
abbrev Eff.streamGetStatus (c : Cmd) (a : State) : State :=
  let n := u8 c.payload 0
  let x := a.port n
  (a.writeResult c (pack [(1, n), (1, x.role), (1, x.mode.code), (1, x.carrying.getD 255), (4, (a.boundTo n).length),
    (8, x.packets), (8, x.wireBytes), (8, x.heartbeats), (8, x.pauseRx), (4, x.answered), (4, x.discarded),
    (8, x.replayed), (8, a.bud.allocs.foldl (fun k e => k + e.2.rates.get (96 + n) 0) 0)])).finish c .ok 0

/-- What `portLinkUp` does (`StreamPorts`). -/
abbrev Eff.portLinkUp (n : Nat) (a : State) : State :=
  (a.setPort n { a.port n with mode := .up }).finishAll
    (a.startedCmds 0x1201 fun c => u8 c.payload 0 == n) .ok fun _ => 0

/-- What `packetTransmit` does (`StreamPorts`). -/
abbrev Eff.packetTransmit (n : Nat) (f : Nat) (b : Binding) (b2 : Binding) (k : Packet) (a : State) : State :=
  ((a.setFlow f { a.flow f with bind := some (a.paid f b k b2) }).setPort n
    { a.port n with last := some f }).sendPacket n b k false

/-- What `packetFlushTimeout` does (`StreamPorts`). -/
abbrev Eff.packetFlushTimeout (f : Nat) (b : Binding) (a : State) : State :=
  a.setFlow f { a.flow f with bind := some { b with flush := true } }

/-- What `heartbeatTimer` does (`StreamPorts`). -/
abbrev Eff.heartbeatTimer (n : Nat) (a : State) : State :=
  let x := a.port n
  let k : Packet := { flow := 0xFFFFFFFF, seq := x.heartbeats, format := 0xFF, stamp := a.stampNow
                      flags := 4 * bit a.provisional, payload := Cond.heartbeat n a }
  let d : Datagram := { ipv6 := x.flags.testBit 0, vlan := if x.flags.testBit 1 then some (0, x.hbVlan) else none
                        dscp := 0, dstMac := x.hbMac, dstIp := x.hbIp, srcUdp := x.hbSrcUdp, dstUdp := x.hbDstUdp }
  let b := a.setPort n { x with
    heartbeats := wrapAdd 64 x.heartbeats 1
    wireBytes := wrapAdd 64 x.wireBytes (16 + if d.ipv6 then 154 else 134)
    lastBeat := some a.now }
  b.emit (.ethFrame n (d.frame (b.faceOf n) (k.header n ++ Cond.heartbeat n a)))

/-- What `arpRequestReceived` does (`StreamPorts`). -/
abbrev Eff.arpRequestReceived (n : Nat) (mac : List Byte) (ip : List Byte) (a : State) : State :=
  a.answerFrame n (etherHead mac (a.faceOf n).mac none 0x0806 ++
    packBe [(2, 1), (2, 0x0800), (1, 6), (1, 4), (2, 2)] ++ (a.faceOf n).mac ++ (a.faceOf n).ip4 ++ mac ++ ip)

/-- What `neighbourSolicitationReceived` does (`StreamPorts`). -/
abbrev Eff.neighbourSolicitationReceived (n : Nat) (mac : List Byte) (ip : List Byte) (a : State) : State :=
  a.answerFrame n (Cond.advertisement (a.faceOf n) mac ip)

/-- What `pauseFrameReceived` does (`StreamPorts`). -/
abbrev Eff.pauseFrameReceived (n : Nat) (a : State) : State :=
  a.setPort n { a.port n with pauseRx := wrapAdd 64 (a.port n).pauseRx 1 }

/-- What `portFailure` does (`StreamPorts`). -/
abbrev Eff.portFailure (n : Nat) (q : Nat) (cause : Nat) (a : State) : State :=
  let ks := Cond.lastSent n a
  ((((Cond.carriedOn n q a).movePortRates n q).replay q ks).event 0x1201 n
    (q + 2 ^ 8 * cause + 2 ^ 16 * (a.boundTo n).length + 2 ^ 48 * min ks.length 65535)).faultMasked ⟨11, 0, n⟩
      { takenBy := q, logical := n, injected := false }

/-- What `portFailure` does (`StreamPorts`). -/
abbrev Eff.portFailure2 (n : Nat) (a : State) : State :=
  (a.setPort n { a.port n with mode := .failed }).faultIn ⟨11, 0, n⟩ { logical := n, injected := false }

/-- What `dispSetTiming` does (`DisplayVerbs`). -/
abbrev Eff.dispSetTiming (c : Cmd) (a : State) : State :=
  (a.setDisp { a.disp with timing := some (Cond.dispTiming c.payload) }).finish c .ok 0

/-- What `dispSetGenlock` does (`DisplayVerbs`). -/
abbrev Eff.dispSetGenlock (c : Cmd) (a : State) : State :=
  (a.setDisp (Cond.genlocked c.payload a.disp)).finish c .ok 0

/-- What `dispSetGenlock` does (`DisplayVerbs`). -/
abbrev Eff.dispSetGenlock2 (c : Cmd) (a : State) : State :=
  (a.setDisp (Cond.genlocked c.payload a.disp)).markStarted c a.disp.genlockWord []

/-- What `dispConfigureLayer` does (`DisplayVerbs`). -/
abbrev Eff.dispConfigureLayer (image : List Byte) (c : Cmd) (a : State) : State :=
  let b := Cond.layerLoaded c a
  (b.setDisp { b.disp with
    layers := b.disp.layers.set (u8 c.payload 0) (Cond.dispLayer image c a) }).finish c .ok 0

/-- What `dispConfigureLayer` does (`DisplayVerbs`). -/
abbrev Eff.dispConfigureLayer2 (image : List Byte) (c : Cmd) (a : State) : State :=
  let b := Cond.layerLoaded c a
  (b.setDisp { b.disp with
    nextLayers := b.disp.nextLayers.set (u8 c.payload 0) (Cond.dispLayer image c a) }).markStarted c 0 []

/-- What `dispSetPalette` does (`DisplayVerbs`). -/
abbrev Eff.dispSetPalette (c : Cmd) (a : State) : State :=
  (a.setDisp { a.disp with
    palette := (Cond.paletteEntries c.payload).foldl (fun (m : KMap Nat) e => m.set e.1 e.2) a.disp.palette }).finish c .ok 0

/-- What `dispSetPalette` does (`DisplayVerbs`). -/
abbrev Eff.dispSetPalette2 (c : Cmd) (a : State) : State :=
  (a.setDisp { a.disp with
    nextPalette := a.disp.nextPalette ++ Cond.paletteEntries c.payload }).markStarted c 0 []

/-- What `dispEnable` does (`DisplayVerbs`). -/
abbrev Eff.dispEnable (c : Cmd) (a : State) : State :=
  let d : Disp := { a.disp with
    mode := .training
    frame := 0
    latched := 0
    matched := none
    underruns := 0
    faults := 0
    faulted := false
    late := []
    vblank := {} }
  (((Cond.dispGranted a).getD a).setDisp d).markStarted c 0 []

/-- What `dispEnable` does (`DisplayVerbs`). -/
abbrev Eff.dispEnable2 (hz : Nat) (edid : List Byte) (c : Cmd) (a : State) : State :=
  (a.writeResult c (a.disp.status hz ++ Cond.edidAsked edid c)).finish c .ok 0

/-- What `dispDisable` does (`DisplayVerbs`). -/
abbrev Eff.dispDisable (c : Cmd) (a : State) : State :=
  (a.setDisp { a.disp with mode := .quiescing }).markStarted c 0 []

/-- What `matchLineReached` does (`DisplayRows`). -/
abbrev Eff.matchLineReached (tm : DispTiming) (a : State) : State :=
  (a.setDisp { a.disp with matched := some (a.disp.frameAt tm.matchLine) }).event 0x1302 0
    (a.disp.frameAt tm.matchLine % 2 ^ 48)

/-- What `lineUnderrun` does (`DisplayRows`). -/
abbrev Eff.lineUnderrun (line : Nat) (a : State) : State :=
  let b := a.setDisp { a.disp with late := a.disp.late ++ [line], underruns := satAdd 32 a.disp.underruns 1 }
  if a.disp.late.isEmpty then b.event 0x1304 0 (line + 2 ^ 16 * (a.disp.frame % 2 ^ 48)) else b

/-- What `overlayFetchFault` does (`DisplayRows`). -/
abbrev Eff.overlayFetchFault (line : Nat) (a : State) : State :=
  let d := a.disp
  let t := d.timing.getD {}
  let buffer := ((List.range d.buffer.length).zip d.buffer).map fun e =>
    if line ≤ e.1 && (d.rowOf 2 (d.layer 2).height e.1).isSome then List.replicate t.hActive t.background else e.2
  (a.setDisp { d with faulted := true, buffer }).layerFault line
    (if d.bufferHeld && !a.inRegion (d.place 2).buffer 4 then 1 else 2)

/-- What `genlockEdge` does (`DisplayRows`). -/
abbrev Eff.genlockEdge (a : State) : State :=
  (a.setDisp { a.disp with genlock := 2 }).finishAll (a.startedCmds 0x1302 fun _ => true) .ok fun _ => 0

/-- What `hpdUnplug` does (`DisplayRows`). -/
abbrev Eff.hpdUnplug (a : State) : State :=
  (Cond.sinkGone a).setDisp { (Cond.sinkGone a).disp with mode := .training }

/-- What `dpLinkTrained` does (`DisplayRows`). -/
abbrev Eff.dpLinkTrained (lanes : Nat) (rate : Nat) (a : State) : State :=
  let b := (a.setDisp { a.disp with mode := .running, lanes, rate }).latchSettings.latchOverlay.settingsDone
  b.finishAll (a.startedCmds 0x1305 fun _ => true) .ok fun _ => b.now

/-- What `dpLinkTrained` does (`DisplayRows`). -/
abbrev Eff.dpLinkTrained2 (a : State) : State :=
  a.dispRest.finishAll (a.startedCmds 0x1305 fun _ => true) .noResource fun _ => 0

/-- What `scanoutMismatch` does (`DisplayRows`). -/
abbrev Eff.scanoutMismatch (copy : Nat) (a : State) : State :=
  (a.setDisp { a.disp with spared := true }).faultIn ⟨18, 0, copy⟩ { injected := false }

/-- What `budgetSetPowerCap` does (`BudgetAndLedger`). -/
abbrev Eff.budgetSetPowerCap (c : Cmd) (a : State) : State :=
  let p := c.payload
  let old := a.bud.nextCap.getD (a.bud.capW, a.bud.periodUs, a.bud.ageing)
  (a.setBud { a.bud with
    nextCap := some (Cond.kept (u16 p 0) old.1, Cond.kept (u8 p 2) old.2.1, Cond.kept (u8 p 3) old.2.2)
    peakReset := a.bud.peakReset || u8 p 4 == 1 }).markStarted c 0 []

/-- What `budgetGrant` does (`BudgetAndLedger`). -/
abbrev Eff.budgetGrant (c : Cmd) (a : State) : State :=
  (a.setBud (Cond.granted c a)).markStarted c 0 []

/-- What `budgetGrant` does (`BudgetAndLedger`). -/
abbrev Eff.budgetGrant2 (c : Cmd) (a : State) : State :=
  (a.writeResult c (pack ((List.range 9).map fun r =>
    (8, a.slotRate (actKey (u8 c.payload 0) (u32 c.payload 4)) r)))).finish c .ok 0

/-- What `budgetRevoke` does (`BudgetAndLedger`). -/
abbrev Eff.budgetRevoke (c : Cmd) (a : State) : State :=
  (((Cond.stoppedOwner c a).getD a).release (actKey (u8 c.payload 0) (u32 c.payload 4))).finish c .quiesced 0

/-- What `budgetRevoke` does (`BudgetAndLedger`). -/
abbrev Eff.budgetRevoke2 (c : Cmd) (a : State) : State :=
  let r := (Cond.stoppingOwner c a).getD (0, [], a)
  r.2.2.markStarted c r.1 r.2.1

/-- What `budgetRevoke` does (`BudgetAndLedger`). -/
abbrev Eff.budgetRevoke3 (c : Cmd) (a : State) : State :=
  (a.setDisp { a.disp with mode := .quiescing }).markStarted c 0 []

/-- What `budgetReadLedger` does (`BudgetAndLedger`). -/
abbrev Eff.budgetReadLedger (c : Cmd) (a : State) : State :=
  ((a.setBud { a.bud with peakReset := a.bud.peakReset || u8 c.payload 0 == 1 }).writeResult c
    a.bud.ledger).finish c .ok a.bud.boundary

/-- What `budgetGetCapacity` does (`BudgetAndLedger`). -/
abbrev Eff.budgetGetCapacity (c : Cmd) (a : State) : State :=
  (a.writeResult c a.capacityBytes).finish c .ok 0

/-- What `budgetPeriodBoundary` does (`BudgetAndLedger`). -/
abbrev Eff.budgetPeriodBoundary (a : State) : State :=
  let b := a.setBud { a.bud.adopt.load with periodAt := a.now - (a.now - a.bud.periodAt) % (a.bud.periodUs * ticksPerUs) }
  let d := b.finishAll (b.startedCmds 0x1401 fun _ => true) .ok fun _ => 0
  d.finishAll (b.startedCmds 0x1402 fun _ => true) .ok fun _ => 0

/-- What `ageingInterval` does (`BudgetAndLedger`). -/
abbrev Eff.ageingInterval (f : Nat) (a : State) : State :=
  a.setBud { a.bud with aged := a.bud.aged.set f (a.bud.aged.get f 0 + 1) }

/-- What `latencyTargetReached` does (`BudgetAndLedger`). -/
abbrev Eff.latencyTargetReached (kind : Nat) (obj : Nat) (res : Nat) (a : State) : State :=
  let b := Cond.hurried kind obj res a
  (b.setBud { b.bud with
    urgent := b.bud.urgent ++ [{ act := actKey kind obj, res, opened := b.now }] }).event 0x1401 obj
      (urgentDetail res kind 1 0)

/-- What `latencyTargetReached` does (`BudgetAndLedger`). -/
abbrev Eff.latencyTargetReached2 (kind : Nat) (obj : Nat) (res : Nat) (a : State) : State :=
  let b := Cond.hurried kind obj res a
  b.setBud { b.bud with
    urgent := b.bud.urgent.map fun i => if i.act = actKey kind obj then { i with count := i.count + 1 } else i }

/-- What `urgentIntervalClose` does (`BudgetAndLedger`). -/
abbrev Eff.urgentIntervalClose (kind : Nat) (obj : Nat) (i : UrgentInterval) (a : State) : State :=
  let next : UrgentInterval := { i with opened := i.opened + ticksPerUs, count := 0 }
  (a.setBud { a.bud with
    urgent := (a.bud.urgent.filter fun j => j.act != actKey kind obj) ++ [next] }).eventAt 0x1401 obj
      { tick := i.opened + ticksPerUs } (urgentDetail i.res kind i.count 1)

/-- What `urgentIntervalClose` does (`BudgetAndLedger`). -/
abbrev Eff.urgentIntervalClose2 (kind : Nat) (obj : Nat) (a : State) : State :=
  a.setBud { a.bud with urgent := a.bud.urgent.filter fun j => j.act != actKey kind obj }

/-- What `ledgerUpdate` does (`BudgetAndLedger`). -/
abbrev Eff.ledgerUpdate (power : Nat) (total : Nat) (energies : List (Nat × Nat)) (a : State) : State :=
  let b := a.bud
  a.setBud { b with
    ledgerCap := b.capW, ledgerPeriod := b.periodUs + 2 ^ 8 * b.ageing, ledgerDeclared := a.declaredMw
    ledgerStatus := a.ledgerStatusNow, ledgerEffective := a.effectiveCap, boundary := a.now - a.now % ticksPerMs
    powerMw := power % 2 ^ 32
    peakMw := if b.peakReset then power % 2 ^ 32 else max b.peakMw (power % 2 ^ 32)
    peakReset := false
    meters := energies.foldl (fun (m : KMap Nat) e =>
      if e.1 ≤ 102 then m.set e.1 (wrapAdd 48 (m.get e.1 0) e.2) else m) b.meters
    total := wrapAdd 48 b.total total, above := decide (a.effectiveCap * 1000 < power)
    belowMs := if power * 100 < a.effectiveCap * 1000 * 95 then b.belowMs + 1 else 0 }

/-- What `throttleStageAdvance` does (`BudgetAndLedger`). -/
abbrev Eff.throttleStageAdvance (a : State) : State :=
  (a.setBud { a.bud with stage := a.bud.stage + 1, above := false, belowMs := 0 }).event 0x1402 0
    (a.bud.stage + 1 + 2 ^ 8 * a.bud.powerMw)

/-- What `throttleStageRelease` does (`BudgetAndLedger`). -/
abbrev Eff.throttleStageRelease (a : State) : State :=
  (a.setBud { a.bud with stage := a.bud.stage - 1, above := false, belowMs := 0 }).event 0x1402 0
    (a.bud.stage - 1 + 2 ^ 8 * a.bud.powerMw)

/-- What `faultReadLog` does (`FaultsAndCalibration`). -/
abbrev Eff.faultReadLog (c : Cmd) (a : State) : State :=
  (a.writeResult c (a.ft.header ++ (Cond.faultEntries c a).flatMap LogEntry.bytes)).finish c .ok
    (Cond.faultEntries c a).length

/-- What `faultGetHealth` does (`FaultsAndCalibration`). -/
abbrev Eff.faultGetHealth (c : Cmd) (a : State) : State :=
  (a.writeResult c a.healthBytes).finish c .ok a.health

/-- What `faultInject` does (`FaultsAndCalibration`). -/
abbrev Eff.faultInject (c : Cmd) (a : State) : State :=
  (Cond.injected c a).finish c .ok a.ft.written

/-- What `faultInject` does (`FaultsAndCalibration`). -/
abbrev Eff.faultInject2 (c : Cmd) (a : State) : State :=
  (Cond.injected c a).markStarted c a.ft.written []

/-- What `faultClearLog` does (`FaultsAndCalibration`). -/
abbrev Eff.faultClearLog (c : Cmd) (a : State) : State :=
  ({ a with ft := Cond.faultCleared c a } : State).finish c .ok 0

/-- What `faultClearLog` does (`FaultsAndCalibration`). -/
abbrev Eff.faultClearLog2 (c : Cmd) (a : State) : State :=
  ({ a with ft := Cond.faultCleared c a } : State).markStarted c 0 []

/-- What `calRun` does (`FaultsAndCalibration`). -/
abbrev Eff.calRun (failed : List Nat) (values : List (Nat × Nat)) (c : Cmd) (a : State) : State :=
  let todo := Cond.calUnits c a
  let bad := (Cond.outside todo failed).length
  (Cond.calibrated (u8 c.payload 0) todo failed values false a).finish c .ok (todo.length - bad + 2 ^ 32 * bad)

/-- What `calRun` does (`FaultsAndCalibration`). -/
abbrev Eff.calRun2 (failed : List Nat) (values : List (Nat × Nat)) (w : Nat) (ws : List Nat) (c : Cmd) (a : State) : State :=
  let cls := u8 c.payload 0
  let idle := (span (u16 c.payload 2) (u16 c.payload 4)).filter fun u => !a.calInService cls u && a.calPresent cls u
  (a.calUnits cls idle failed values).markStarted c 0 (w :: ws)

/-- What `calRun` does (`FaultsAndCalibration`). -/
abbrev Eff.calRun3 (failed : List Nat) (c : Cmd) (a : State) : State :=
  let todo := Cond.calUnits c a
  let good := Cond.inside todo failed
  ((a.calUnits 8 (Cond.outside todo failed) failed []).measureAll (runsOf good 2)).markStarted c
    (good.length + 2 ^ 32 * (Cond.outside todo failed).length) ((runsOf good 2).map DeskewRun.device)

/-- What `calGetRecord` does (`FaultsAndCalibration`). -/
abbrev Eff.calGetRecord (c : Cmd) (a : State) : State :=
  let cls := u8 c.payload 0
  let units := span (u16 c.payload 2) (min (u16 c.payload 4) ((c.room - 16) / 32))
  (a.writeResult c (pack [(1, cls), (3, 0), (4, units.length), (8, a.cal.doneTick)] ++
    units.flatMap fun u => (a.cal.recs.get (cls * 65536 + u) {}).entry cls u)).finish c .ok units.length

/-- What `calSetSchedule` does (`FaultsAndCalibration`). -/
abbrev Eff.calSetSchedule (c : Cmd) (a : State) : State :=
  let x : CalSchedule := { mode := u8 c.payload 1, deltaC := u8 c.payload 2, periodS := u32 c.payload 4 }
  ({ a with cal := { a.cal with sched := a.cal.sched.set (u8 c.payload 0) x } } : State).finish c .ok 0

/-- What `scheduledCalibration` does (`FaultsAndCalibration`). -/
abbrev Eff.scheduledCalibration (cls : Nat) (units : List Nat) (failed : List Nat) (values : List (Nat × Nat)) (a : State) : State :=
  Cond.calibrated cls (Cond.calDue cls units a) failed values true a

/-- What `scheduledCalibration` does (`FaultsAndCalibration`). -/
abbrev Eff.scheduledCalibration2 (units : List Nat) (failed : List Nat) (a : State) : State :=
  let todo := Cond.calDue 8 units a
  let good := Cond.inside todo failed
  let b : State := { a with cal := { a.cal with passed := good.length, missed := (Cond.outside todo failed).length } }
  (b.calUnits 8 (Cond.outside todo failed) failed []).measureAll (runsOf good 3)

/-- What `stewardPairHalt` does (`FaultsAndCalibration`). -/
abbrev Eff.stewardPairHalt (v : Nat) (a : State) : State :=
  let asleep := a.ft.asleep.filter (· != v)
  ({ a with
    ft := { a.ft with haltedPairs := a.ft.haltedPairs ++ [v], asleep }
    pw := { a.pw with alive := false } } : State).faultIn ⟨6, 0, v⟩ {}

/-- What `stewardPairHalt` does (`FaultsAndCalibration`). -/
abbrev Eff.stewardPairHalt2 (v : Nat) (a : State) : State :=
  let asleep := a.ft.asleep.filter (· != v)
  ({ a with ft := { a.ft with haltedPairs := a.ft.haltedPairs ++ [v], asleep } } : State).faultIn ⟨6, 0, v⟩ {}

/-- What `stewardPairHalt` does (`FaultsAndCalibration`). -/
abbrev Eff.stewardPairHalt3 (v : Nat) (q : Nat) (a : State) : State :=
  let served := a.servedPairs v
  ({ a with ft := { a.ft with
    haltedPairs := a.ft.haltedPairs ++ [v], asleep := (a.ft.asleep.filter (· != v)).filter (· != q)
    servedBy := served.foldl (fun m p => KMap.set m p q) a.ft.servedBy
    takeover := a.ft.takeover ++ served.filter fun p => !a.ft.takeover.contains p
    takeoverSince := if a.ft.takeover.isEmpty then a.now else a.ft.takeoverSince } } : State).faultIn ⟨6, 0, v⟩
      { takenBy := q, logical := served.headD 0xFFFF }

/-- What `stewardTakeoverComplete` does (`FaultsAndCalibration`). -/
abbrev Eff.stewardTakeoverComplete (a : State) : State :=
  let b : State := { a with host := { a.host with cmds := a.host.cmds.map a.extendDeadline }
                            ft := { a.ft with takeover := [] } }
  (b.finishAll (b.startedCmds 0x1503 fun _ => true) .ok Cmd.aux).serveChans

/-- What `sramScrubPass` does (`FaultsAndCalibration`). -/
abbrev Eff.sramScrubPass (n : Nat) (a : State) : State :=
  { a with ft := { a.ft with correctedSram := satAdd 64 a.ft.correctedSram n } }

/-- What `fabricPllFault` does (`FaultsAndCalibration`). -/
abbrev Eff.fabricPllFault (pair : Nat) (unit : Nat) (a : State) : State :=
  (a.faultIn ⟨15, pair, unit⟩ {}).domainStops pair

/-- What `regulatorPhaseFault` does (`FaultsAndCalibration`). -/
abbrev Eff.regulatorPhaseFault (rail : Nat) (phase : Nat) (a : State) : State :=
  ({ a with ft := { a.ft with
    phaseFaults := a.ft.phaseFaults.set rail (a.ft.phaseFaults.get rail 0 + 1) } } : State).faultIn ⟨16, rail, phase⟩
      { detail := rail }

/-- What `dieLinkLaneFault` does (`FaultsAndCalibration`). -/
abbrev Eff.dieLinkLaneFault (dir : Nat) (lane : Nat) (a : State) : State :=
  a.faultIn ⟨20, dir, lane⟩ { injected := false }

/-- What `checkedHalfMismatch` does (`FaultsAndCalibration`). -/
abbrev Eff.checkedHalfMismatch (pair : Nat) (half : Nat) (a : State) : State :=
  a.faultIn ⟨21, pair, half⟩ { injected := false }

/-- What `injectedUnitRestore` does (`FaultsAndCalibration`). -/
abbrev Eff.injectedUnitRestore (u : Unit3) (a : State) : State :=
  let b := Cond.tested u a
  b.finishAll (b.startedCmds 0x1504 fun _ => true) .ok Cmd.aux

/-- What `injectedUnitRestore` does (`FaultsAndCalibration`). -/
abbrev Eff.injectedUnitRestore2 (u : Unit3) (a : State) : State :=
  let b := Cond.tested u ((a.unitBack u).restoreUnit u true)
  let d := (b.startedCmds 0x1504 fun _ => true).foldl (fun s c => s.markStarted c (c.aux + 1) []) b
  if b.ft.selfTest.isEmpty then d.finishAll (d.startedCmds 0x1504 fun _ => true) .ok Cmd.aux else d

/-- What `idScan` does (`IdentityAndSecurity`). -/
abbrev Eff.idScan (mems : List (Nat × List Byte)) (stuck : List Nat) (c : Cmd) (a : State) : State :=
  (Cond.scanned mems stuck c a).finish c .ok (Cond.validRecords (Cond.scanned mems stuck c a))

/-- What `idScan` does (`IdentityAndSecurity`). -/
abbrev Eff.idScan2 (mems : List (Nat × List Byte)) (stuck : List Nat) (c : Cmd) (a : State) : State :=
  let b := Cond.scanned mems stuck c a
  (b.writeResult c (b.idEntries.take (c.room / 32 * 32))).finish c .ok (Cond.validRecords b)

/-- What `idReadRecord` does (`IdentityAndSecurity`). -/
abbrev Eff.idReadRecord (mem : Option (List Byte)) (stuck : Bool) (c : Cmd) (a : State) : State :=
  let out := Cond.idRecord mem stuck c a
  (a.writeResult c out).finish c .ok out.length

/-- What `secGetCertificate` does (`IdentityAndSecurity`). -/
abbrev Eff.secGetCertificate (c : Cmd) (a : State) : State :=
  (a.writeResult c (Config.certificate (u8 c.payload 0))).finish c .ok (Config.certificate (u8 c.payload 0)).length

/-- What `secAttest` does (`IdentityAndSecurity`). -/
abbrev Eff.secAttest (c : Cmd) (a : State) : State :=
  (a.writeResult c (Cond.report c a)).finish c .ok 0

/-- What `secUpdateFirmware` does (`IdentityAndSecurity`). -/
abbrev Eff.secUpdateFirmware (c : Cmd) (a : State) : State :=
  (a.hostLoad c (u64 c.payload 8) (u32 c.payload 4) (u8 c.payload 1 = 1)).finish c .denied 0

/-- What `secUpdateFirmware` does (`IdentityAndSecurity`). -/
abbrev Eff.secUpdateFirmware2 (x : FwSlot) (c : Cmd) (a : State) : State :=
  ((a.hostLoad c (u64 c.payload 8) (u32 c.payload 4) (u8 c.payload 1 = 1)).stage x).finish c .ok 0

/-- What `secUpdateFirmware` does (`IdentityAndSecurity`). -/
abbrev Eff.secUpdateFirmware3 (c : Cmd) (a : State) : State :=
  (a.setSec { a.sec with active := 1 - a.sec.runningSlot }).finish c .ok 0

/-- What `secUpdateFirmware` does (`IdentityAndSecurity`). -/
abbrev Eff.secUpdateFirmware4 (blown : Nat) (c : Cmd) (a : State) : State :=
  if (a.blowFuses blown).committed then (a.blowFuses blown).finish c .ok 0
    else (a.blowFuses blown).markStarted c 0 []

/-- What `secSetOwnerKey` does (`IdentityAndSecurity`). -/
abbrev Eff.secSetOwnerKey (c : Cmd) (a : State) : State :=
  let p := c.payload
  let b := a.setCounter 1 (a.counter 1 + 1)
  let owner : Option OwnerKey := if u8 p 0 = 1 then none else some { key := (p.drop 8).take 133, policy := u8 p 1 }
  (b.setSec { b.sec with owner }).finish c .ok (a.counter 1 + 1)

/-- What `secGetCounters` does (`IdentityAndSecurity`). -/
abbrev Eff.secGetCounters (c : Cmd) (a : State) : State :=
  (a.writeResult c a.counterBytes).finish c .ok (a.counter 0 + 256 * a.counter 1)

/-- What `stewardRestartComplete` does (`IdentityAndSecurity`). -/
abbrev Eff.stewardRestartComplete (ready : List Nat) (a : State) : State :=
  ([1, 2, 28].filter fun b => ready.contains b).foldl (fun s b => (s.setReady b).event 0x0101 0 b)
    (a.setSec { a.sec with runningSlot := a.sec.active, staged := false, fallback := false, restarting := false })

/-- What `feedPresent` does (`SupplyBootAndReadiness`). -/
abbrev Eff.feedPresent (b : Bool) (a : State) : State :=
  let d := a.setFeed b true; { d with pw := { d.pw with rising := true } }

/-- What `feedPresent` does (`SupplyBootAndReadiness`). -/
abbrev Eff.feedPresent2 (b : Bool) (a : State) : State :=
  let d := a.setFeed b true; { d with pw := { d.pw with state := .heldShutdown } }

/-- What `feedLost` does (`SupplyBootAndReadiness`). -/
abbrev Eff.feedLost (b : Bool) (a : State) : State :=
  ((a.setFeed b false).setAlert 16).faultIn (feedUnit b) {}

/-- What `feedRestored` does (`SupplyBootAndReadiness`). -/
abbrev Eff.feedRestored (b : Bool) (a : State) : State :=
  ((a.setFeed b true).setAlert 16).restoreUnit (feedUnit b) false

/-- What `shutdownNLow` does (`SupplyBootAndReadiness`). -/
abbrev Eff.shutdownNLow (a : State) : State :=
  ({ a with pw := { a.pw with shutdownLow := true } } : State).cold .heldShutdown

/-- What `shutdownNLow` does (`SupplyBootAndReadiness`). -/
abbrev Eff.shutdownNLow2 (a : State) : State :=
  { a with pw := { a.pw with shutdownLow := true } }

/-- What `shutdownNRise` does (`SupplyBootAndReadiness`). -/
abbrev Eff.shutdownNRise (a : State) : State :=
  { a with pw := { a.pw with shutdownLow := false, rising := true } }

/-- What `shutdownNRise` does (`SupplyBootAndReadiness`). -/
abbrev Eff.shutdownNRise2 (a : State) : State :=
  { a with pw := { a.pw with shutdownLow := false } }

/-- What `powerGood` does (`SupplyBootAndReadiness`). -/
abbrev Eff.powerGood (a : State) : State :=
  let v := (a.press.lastSpare + 8) % 9
  let b := a.cold .starting
  { b with
    press := { spare := some v, lastSpare := v }, ck := { b.ck with sampleA := .searching, sampleB := .searching } }

/-- What `secureBoot` does (`SupplyBootAndReadiness`). -/
abbrev Eff.secureBoot (carrier : List Byte) (a : State) : State :=
  Cond.booted a.sec.active false carrier a

/-- What `secureBoot` does (`SupplyBootAndReadiness`). -/
abbrev Eff.secureBoot2 (carrier : List Byte) (a : State) : State :=
  Cond.booted (1 - a.sec.active) true carrier a

/-- What `secureBoot` does (`SupplyBootAndReadiness`). -/
abbrev Eff.secureBoot3 (carrier : List Byte) (a : State) : State :=
  ({ a with
    host := { a.host with clocking := clockingOf carrier }
    sec := { a.sec with recovery := true } } : State).stewardUp

/-- What `functionReady` does (`SupplyBootAndReadiness`). -/
abbrev Eff.functionReady (b : Nat) (values : List Nat) (a : State) : State :=
  Cond.announced b ((a.served b).calibrated b values)

/-- What `functionReady` does (`SupplyBootAndReadiness`). -/
abbrev Eff.functionReady2 (mems : List (Nat × List Byte)) (stuck : List Nat) (a : State) : State :=
  Cond.announced 30 (a.scanBuses (List.range 4) mems stuck).discoverAll

/-- What `functionReady` does (`SupplyBootAndReadiness`). -/
abbrev Eff.functionReady3 (a : State) : State :=
  (((a.setReady 29).event 0x0101 0 29).calDone).finishResets 29

/-- What `functionReady` does (`SupplyBootAndReadiness`). -/
abbrev Eff.functionReady4 (b : Nat) (a : State) : State :=
  Cond.announced b (((a.resetsOf b).foldl (fun s c => s.freshFor b c) a).served b)

/-- What `readyTimeout` does (`SupplyBootAndReadiness`). -/
abbrev Eff.readyTimeout (b : Nat) (detail : Nat) (a : State) : State :=
  let d := (Cond.missing b a).outOfScope { detail, selfTest := true }
  d.finishAll (d.resetsOf b) .notReady Cmd.aux

/-- What `readyTimeout` does (`SupplyBootAndReadiness`). -/
abbrev Eff.readyTimeout2 (detail : Nat) (a : State) : State :=
  let d := ((Cond.missing 30 a).outOfScope { detail, selfTest := true }).discoverAll
  d.finishAll (d.resetsOf 30) .notReady Cmd.aux

/-- What `readyTimeout` does (`SupplyBootAndReadiness`). -/
abbrev Eff.readyTimeout3 (b : Nat) (detail : Nat) (u : Unit3) (a : State) : State :=
  let d := (Cond.missing b a).faultUnmasked u { detail, selfTest := true }
  d.finishAll (d.resetsOf b) .notReady Cmd.aux

/-- What `tapInstructionLoad` does (`SupplyBootAndReadiness`). -/
abbrev Eff.tapInstructionLoad (i : Nat) (a : State) : State :=
  { a with sec := { a.sec with tap := tapOf i } }

/-- What `tapTestLogicReset` does (`SupplyBootAndReadiness`). -/
abbrev Eff.tapTestLogicReset (a : State) : State :=
  let d := a.powerGood
  { d with
    ft := { log := a.ft.log, written := a.ft.written, cleared := a.ft.cleared }
    cal := { recs := a.cal.recs }, sec := { d.sec with tap := .idcode }
    host := { d.host with fns := a.host.fns.mapVals fun _ f => f.afterReset } }

/-- What `tapTestLogicReset` does (`SupplyBootAndReadiness`). -/
abbrev Eff.tapTestLogicReset2 (a : State) : State :=
  { a with sec := { a.sec with tap := .idcode } }

/-- What `perstNAssert` does (`ResetsLinkAndThermal`). -/
abbrev Eff.perstNAssert (a : State) : State :=
  let d := ((a.resetFn 0).resetFn 1).linkDown
  ({ d with host := { d.host with perst := true, wakeAsserted := false } } : State).leaveStandby

/-- What `perstNRelease` does (`ResetsLinkAndThermal`). -/
abbrev Eff.perstNRelease (a : State) : State :=
  { a with host := { a.host with perst := false } }

/-- What `hotReset` does (`ResetsLinkAndThermal`). -/
abbrev Eff.hotReset (a : State) : State :=
  (((a.resetFn 0).resetFn 1).linkDown).leaveStandby

/-- What `linkL0Reached` does (`ResetsLinkAndThermal`). -/
abbrev Eff.linkL0Reached (width : Nat) (speed : Nat) (a : State) : State :=
  ((({ a with host := { a.host with
    link := .l0, wakeAsserted := false, linkWidth := width, linkSpeed := speed,
    narrowed := a.halfDead 0 || a.halfDead 1 } } : State).flushAll
      0).flushAll 1)

/-- What `pcieLaneFailure` does (`ResetsLinkAndThermal`). -/
abbrev Eff.pcieLaneFailure (lane : Nat) (a : State) : State :=
  ({ a with host := { a.host with
    linkWidth := min a.host.linkWidth 8, narrowed := true } } : State).faultMasked ⟨12, 0, lane⟩ { injected := false }

/-- What `pcieLaneFailure` does (`ResetsLinkAndThermal`). -/
abbrev Eff.pcieLaneFailure2 (lane : Nat) (a : State) : State :=
  ({ a with host := { a.host with linkWidth := 4, narrowed := true } } : State).faultUnmasked ⟨12, 0, lane⟩
    { injected := false }

/-- What `functionD0` does (`ResetsLinkAndThermal`). -/
abbrev Eff.functionD0 (fn : Nat) (a : State) : State :=
  (a.setFunc fn { a.func fn with d3hot := false }).leaveStandby

/-- What `standbyWake` does (`ResetsLinkAndThermal`). -/
abbrev Eff.standbyWake (bits : Nat) (a : State) : State :=
  (maskBits 27 (bits &&& a.leaveStandby.pw.cleared)).foldl (fun s b => s.wakeBit b) a.leaveStandby

/-- What `standbyWake` does (`ResetsLinkAndThermal`). -/
abbrev Eff.standbyWake2 (bits : Nat) (a : State) : State :=
  (maskBits 27 (bits &&& a.pw.cleared)).foldl (fun s b => s.wakeBit b) a

/-- What `aliveToggle` does (`ResetsLinkAndThermal`). -/
abbrev Eff.aliveToggle (a : State) : State :=
  { a with pw := { a.pw with alive := !a.pw.alive } }

/-- What `thermalThrottleStep` does (`ResetsLinkAndThermal`). -/
abbrev Eff.thermalThrottleStep (a : State) : State :=
  let d := a.setAlert 2
  { d with pw := { d.pw with thermalCap := some (a.effectiveCap - 10), capAt := some a.now } }

/-- What `thermalThrottleStep` does (`ResetsLinkAndThermal`). -/
abbrev Eff.thermalThrottleStep2 (w : Nat) (a : State) : State :=
  { a with pw := { a.pw with
    thermalCap := if a.bud.capW ≤ w + 10 then none else some (w + 10)
    capAt := some a.now } }

/-- What `thermalTrip` does (`ResetsLinkAndThermal`). -/
abbrev Eff.thermalTrip (channel : Nat) (a : State) : State :=
  let muted := (List.range 3).filter fun g => (a.gen g).synth != .muted
  let d := ((muted.foldl (fun s g => s.evLock (3 + g) 0) a.tripAll).clearReady switchedBits).setAlert 4
  let d := d.outOfScope { detail := channel }
  d.finishAll (d.host.cmds.filter tripped) .notReady fun _ => 0

/-- What `smbAlertStatusClear` does (`ResetsLinkAndThermal`). -/
abbrev Eff.smbAlertStatusClear (value : Nat) (holds : Nat) (a : State) : State :=
  { a with pw := { a.pw with
    alertStatus := (a.pw.alertStatus - (a.pw.alertStatus &&& value)) ||| (a.pw.alertStatus &&& value &&& holds) } }

end Sys2Proof
end

