-- ==== Sys2Proof/WellFormed.lean ====
section
/-! DEFINITION. Which commands are well formed: every operand that numbers a function, a tag or an object lies in the
range the spec gives it, and every stamp has the widths of R6. What a command does when an operand is out of range is
part of its meaning; `exec` is total. -/

namespace Sys2Proof

/-- A stamp has 64 bits of ticks and 16 fine bits (R6). -/
def Stamp.wf (x : Stamp) : Bool := decide (x.tick < 2 ^ 64) && decide (x.fine < 2 ^ 16)

/-- Two functions (R27), and tags of 16 bits (R53). -/
def commandWf (fn tag : Nat) : Bool := decide (fn < 2) && decide (tag < 65536)

/-- An object number below the number of objects of its kind. -/
def below (n k : Nat) : Bool := decide (n < k)

/-- The function and tag of the mailbox command that a row carries out, for the rows that carry one out. -/
def Instr.command? (i : Instr) : Option (Nat × Nat) :=
  match i with
  | .feedPresent _ _ => none
  | .feedLost _ _ => none
  | .feedRestored _ _ => none
  | .shutdownNLow _ => none
  | .shutdownNRise _ => none
  | .powerGood _ => none
  | .secureBoot _ _ _ => none
  | .functionReady _ _ _ _ _ _ => none
  | .readyTimeout _ _ _ _ _ _ => none
  | .perstNAssert _ => none
  | .perstNRelease _ => none
  | .hotReset _ => none
  | .functionLevelReset _ _ => none
  | .functionD3hot _ _ _ => none
  | .functionD0 _ _ => none
  | .standbyWake _ _ => none
  | .linkL0Reached _ _ _ => none
  | .pcieLaneFailure _ _ _ => none
  | .aliveToggle _ => none
  | .thermalWarning _ => none
  | .thermalThrottleStep _ _ => none
  | .thermalTrip _ _ => none
  | .tapInstructionLoad _ _ => none
  | .tapTestLogicReset _ => none
  | .doorbellWrite _ _ _ _ _ => none
  | .servicePairWake _ _ => none
  | .commandTimeout _ fn tag => some (fn, tag)
  | .chanStateClear _ _ _ _ _ => none
  | .lockAliasRead _ _ _ _ _ _ => none
  | .lockAliasWrite _ _ _ _ _ => none
  | .lockForcedRelease _ _ _ _ _ => none
  | .timeLatchWrite _ _ _ => none
  | .ringConsWrite _ _ _ _ _ => none
  | .ringOverflowClear _ _ _ _ _ => none
  | .ringCoalesceTimeout _ _ _ _ => none
  | .updateStrobeWrite _ _ => none
  | .strobeOccurrenceApply _ _ _ _ => none
  | .keyUnlockWrite _ _ _ => none
  | .fcwEnableWrite _ _ _ => none
  | .fcwStatusClear _ _ _ => none
  | .fcwResyncWrite _ _ _ => none
  | .resyncComplete _ => none
  | .registerWrite _ _ _ _ => none
  | .apertureRead _ _ _ => none
  | .apertureWrite _ _ _ => none
  | .smbAlertStatusClear _ _ _ => none
  | .smbAlertResponse _ => none
  | .sysHello _ fn tag => some (fn, tag)
  | .sysQueryReady _ fn tag => some (fn, tag)
  | .sysGetInfo _ fn tag => some (fn, tag)
  | .sysSetEventRing _ fn tag => some (fn, tag)
  | .sysResetFunction _ fn tag => some (fn, tag)
  | .sysNop _ fn tag => some (fn, tag)
  | .clockSetRef _ fn tag => some (fn, tag)
  | .clockGetStatus _ fn tag _ _ => some (fn, tag)
  | .clockSetTime _ fn tag => some (fn, tag)
  | .clockSetOutput _ fn tag => some (fn, tag)
  | .clockLoadRamp _ fn tag => some (fn, tag)
  | .clockStartRamp _ fn tag _ => some (fn, tag)
  | .clockStopRamp _ fn tag => some (fn, tag)
  | .clockSetVectorClock _ fn tag => some (fn, tag)
  | .ocxoHardFault _ _ => none
  | .ocxoSoftFault _ _ => none
  | .warmReached _ _ => none
  | .refInQualified _ _ _ => none
  | .ppsInQualified _ _ => none
  | .refInLost _ => none
  | .ppsInLost _ => none
  | .ppsEdge _ _ => none
  | .ppsOutSecond _ => none
  | .ppsOutPulseEnd _ => none
  | .synthBandSearchDone _ _ => none
  | .synthLockDetected _ _ => none
  | .synthLockLost _ _ => none
  | .synthReacquireTimeout _ _ => none
  | .sampleSynthFault _ _ _ => none
  | .idleCoreLocked _ _ => none
  | .rampScheduledStart _ _ => none
  | .rampUpdate _ _ => none
  | .rampSegmentEnd _ _ => none
  | .rampProfileEnd _ _ => none
  | .inputSetRange _ fn tag => some (fn, tag)
  | .inputGetStatus _ fn tag _ => some (fn, tag)
  | .inputEnable _ fn tag => some (fn, tag)
  | .inputDisable _ fn tag => some (fn, tag)
  | .inputRangeSwitch _ _ => none
  | .rotationStep _ _ _ => none
  | .sliceHandoverComplete _ _ _ => none
  | .sliceFailure _ _ _ _ => none
  | .coldSpareReady _ _ => none
  | .inputOverdrive _ _ _ _ _ _ => none
  | .protectionRelease _ _ => none
  | .overrangeIntervalClose _ _ => none
  | .ddcConfigure _ fn tag => some (fn, tag)
  | .ddcSetDelay _ fn tag => some (fn, tag)
  | .ddcEnable _ fn tag => some (fn, tag)
  | .ddcDisable _ fn tag => some (fn, tag)
  | .ddcGetStatus _ fn tag _ => some (fn, tag)
  | .ddcScheduledChange _ _ => none
  | .ddcDatapathFault _ _ _ => none
  | .pressConfigure _ fn tag => some (fn, tag)
  | .pressLoadWindow _ fn tag _ => some (fn, tag)
  | .pressLoadPfb _ fn tag _ => some (fn, tag)
  | .pressMapChannels _ fn tag => some (fn, tag)
  | .pressEnable _ fn tag => some (fn, tag)
  | .pressDisable _ fn tag => some (fn, tag)
  | .pressFrameRelease _ _ _ _ _ _ => none
  | .pressPipelineFault _ _ => none
  | .specConfigureDetector _ fn tag => some (fn, tag)
  | .specConfigureDensity _ fn tag => some (fn, tag)
  | .specClearDensity _ fn tag => some (fn, tag)
  | .specReadTrace _ fn tag => some (fn, tag)
  | .specPeakSearch _ fn tag => some (fn, tag)
  | .specEnable _ fn tag => some (fn, tag)
  | .specDisable _ fn tag => some (fn, tag)
  | .spectrumAccept _ _ _ => none
  | .integrationEnd _ _ => none
  | .decayBoundary _ _ => none
  | .densityClearApply _ _ => none
  | .trigConfigure _ fn tag => some (fn, tag)
  | .trigLoadMask _ fn tag _ => some (fn, tag)
  | .trigRoute _ fn tag => some (fn, tag)
  | .trigArm _ fn tag => some (fn, tag)
  | .trigDisarm _ fn tag => some (fn, tag)
  | .trigForce _ fn tag => some (fn, tag)
  | .trigGetStatus _ fn tag => some (fn, tag)
  | .trigScheduledArm _ _ => none
  | .triggerDecision _ _ _ _ => none
  | .forcedDecision _ _ => none
  | .sorrelForceMessage _ _ => none
  | .unitRearm _ _ => none
  | .holdoffEnd _ _ => none
  | .sequencePendingExpiry _ _ => none
  | .trigInEdge _ _ => none
  | .trigOutPulseEnd _ => none
  | .voterDisagreement _ _ => none
  | .triggerEventIntervalClose _ _ => none
  | .acqCreateContext _ fn tag => some (fn, tag)
  | .acqArm _ fn tag => some (fn, tag)
  | .acqStop _ fn tag => some (fn, tag)
  | .acqDestroy _ fn tag => some (fn, tag)
  | .acqLoadTestMask _ fn tag _ => some (fn, tag)
  | .acqGetStatus _ fn tag => some (fn, tag)
  | .acqScheduledArm _ _ => none
  | .ringFilled _ _ => none
  | .segmentTrigger _ _ => none
  | .segmentEnd _ _ _ _ _ _ _ _ => none
  | .contextRearm _ _ => none
  | .gapBegin _ _ _ _ _ _ _ => none
  | .stagingDrainTimeout _ _ _ _ _ _ => none
  | .segmentEventIntervalClose _ _ => none
  | .gapEventIntervalClose _ _ => none
  | .contextStateRebuild _ _ => none
  | .sorrelLoadKernel _ fn tag _ => some (fn, tag)
  | .sorrelStart _ fn tag => some (fn, tag)
  | .sorrelStop _ fn tag => some (fn, tag)
  | .sorrelBind _ fn tag => some (fn, tag)
  | .sorrelGetStatus _ fn tag => some (fn, tag)
  | .sorrelScheduledStart _ _ => none
  | .inputBlockArrival _ _ _ _ _ _ _ _ _ => none
  | .coreFault _ _ _ => none
  | .activationCreditExhausted _ _ => none
  | .isaAdd _ _ => none
  | .isaSub _ _ => none
  | .isaAnd _ _ => none
  | .isaOr _ _ => none
  | .isaXor _ _ => none
  | .isaShl _ _ => none
  | .isaShra _ _ => none
  | .isaShrl _ _ => none
  | .isaMul _ _ => none
  | .isaMulh _ _ => none
  | .isaMin _ _ => none
  | .isaMax _ _ => none
  | .isaCmpeq _ _ => none
  | .isaCmplt _ _ => none
  | .isaCmpltu _ _ => none
  | .isaLi _ _ => none
  | .isaMfs _ _ => none
  | .isaMts _ _ => none
  | .isaLds _ _ => none
  | .isaSts _ _ => none
  | .isaLdv _ _ => none
  | .isaStv _ _ => none
  | .isaLdc _ _ => none
  | .isaSta _ _ => none
  | .isaCadd _ _ => none
  | .isaCsub _ _ => none
  | .isaCmul _ _ => none
  | .isaCmulj _ _ => none
  | .isaConj _ _ => none
  | .isaVmov _ _ => none
  | .isaVpowr _ _ => none
  | .isaCmac _ _ => none
  | .isaCmacj _ _ => none
  | .isaTapmv _ _ => none
  | .isaAccz _ _ => none
  | .isaAccr _ _ => none
  | .isaAccs _ _ => none
  | .isaMaxi _ _ => none
  | .isaMini _ _ => none
  | .isaExpb _ _ => none
  | .isaShfb _ _ => none
  | .isaBr _ _ => none
  | .isaJmp _ _ => none
  | .isaLoop _ _ => none
  | .isaWait _ _ => none
  | .isaYield _ _ => none
  | .isaEmit _ _ => none
  | .isaMbox _ _ => none
  | .isaSetag _ _ => none
  | .isaHalt _ _ => none
  | .isaNop _ _ => none
  | .patDefineSegment _ fn tag => some (fn, tag)
  | .patWriteSegment _ fn tag _ => some (fn, tag)
  | .patLoadTable _ fn tag => some (fn, tag)
  | .patDefineSite _ fn tag => some (fn, tag)
  | .patStart _ fn tag => some (fn, tag)
  | .patStop _ fn tag _ => some (fn, tag)
  | .patRequestJump _ fn tag _ => some (fn, tag)
  | .patGetResult _ fn tag _ => some (fn, tag)
  | .patLoadTimesets _ fn tag _ => some (fn, tag)
  | .patScheduledStart _ _ _ => none
  | .decisionPoint _ _ => none
  | .segmentBoundary _ _ _ => none
  | .triggerJumpArrival _ _ _ => none
  | .siteEventArrival _ _ _ => none
  | .refillLate _ _ _ _ => none
  | .sitePark _ _ _ => none
  | .trellisDiscover _ fn tag => some (fn, tag)
  | .trellisGetStatus _ fn tag => some (fn, tag)
  | .trellisConfigureCapture _ fn tag => some (fn, tag)
  | .trellisDeskew _ fn tag _ => some (fn, tag)
  | .upstreamCodeword _ _ _ _ _ _ => none
  | .idleFrame _ _ _ => none
  | .identFrame _ _ _ => none
  | .progressFrame _ _ _ => none
  | .failFrame _ _ _ => none
  | .captureFrame _ _ _ => none
  | .matchFrame _ _ _ => none
  | .receiptFrame _ _ _ _ => none
  | .eventFrame _ _ _ _ => none
  | .countersFrame _ _ _ => none
  | .loopReplyFrame _ _ _ _ => none
  | .faultFrame _ _ _ => none
  | .reliableResendTimeout _ _ => none
  | .laneDown _ _ _ => none
  | .deviceLost _ _ => none
  | .sidePortFailure _ _ => none
  | .stimDefineSegment _ fn tag => some (fn, tag)
  | .stimWriteSegment _ fn tag _ => some (fn, tag)
  | .stimLoadTable _ fn tag => some (fn, tag)
  | .stimStart _ fn tag => some (fn, tag)
  | .stimStop _ fn tag => some (fn, tag)
  | .stimRequestJump _ fn tag => some (fn, tag)
  | .stimScheduledStart _ _ => none
  | .stimDecisionPoint _ _ => none
  | .stimBoundary _ _ => none
  | .stimTriggerJumpArrival _ _ => none
  | .stimRefillLate _ _ => none
  | .stimPark _ _ => none
  | .vineConfigure _ fn tag => some (fn, tag)
  | .vineCalibrateSkew _ fn tag => some (fn, tag)
  | .vineGetStatus _ fn tag => some (fn, tag)
  | .vineScheduleSync _ fn tag => some (fn, tag)
  | .epochEdge _ => none
  | .epochFrameReceived _ _ _ _ => none
  | .vineEventFrameReceived _ _ _ => none
  | .delayFrameReceived _ _ _ => none
  | .vineEventSend _ => none
  | .echoPulseSend _ _ => none
  | .echoPulseReturn _ _ => none
  | .vineNeighbourLost _ _ => none
  | .vineSignalsReturn _ _ => none
  | .tiuConfigureChannel _ fn tag => some (fn, tag)
  | .tiuStart _ fn tag => some (fn, tag)
  | .tiuStop _ fn tag => some (fn, tag)
  | .tiuReadStats _ fn tag => some (fn, tag)
  | .tiuGetStatus _ fn tag _ _ _ => some (fn, tag)
  | .tiuScheduledStart _ _ => none
  | .tiuEdge _ _ _ _ _ => none
  | .interpolatorRotationStep _ _ => none
  | .interpolatorFailure _ _ _ => none
  | .statsBlockComplete _ _ => none
  | .tiuStatsIntervalClose _ _ => none
  | .monConfigureComparator _ fn tag => some (fn, tag)
  | .monLoadSequence _ fn tag => some (fn, tag)
  | .monStartSequence _ fn tag => some (fn, tag)
  | .monStopSequence _ fn tag => some (fn, tag)
  | .monRead _ fn tag => some (fn, tag)
  | .monSetReference _ fn tag => some (fn, tag)
  | .monScheduledStart _ => none
  | .comparatorChange _ _ _ _ => none
  | .m3Tick _ _ _ _ => none
  | .comparatorThresholdApply _ _ _ => none
  | .blankingWindowClose _ _ => none
  | .comparatorEventIntervalClose _ _ => none
  | .wakeRequest _ => none
  | .conversionComplete _ _ _ => none
  | .entryDelayExpiry _ => none
  | .housekeepingConversion _ => none
  | .recoveryConversion _ => none
  | .referenceSettled _ => none
  | .cellarAllocate _ fn tag => some (fn, tag)
  | .cellarFree _ fn tag => some (fn, tag)
  | .cellarGetStatus _ fn tag _ => some (fn, tag)
  | .cellarSetOperatingPoint _ fn tag => some (fn, tag)
  | .regionZeroComplete _ _ => none
  | .cellarRequest _ _ _ _ _ _ _ _ => none
  | .urgencyLevelRise _ => none
  | .writeBufferMergeTimeout _ _ => none
  | .patrolScrub _ _ _ => none
  | .refreshWindowStart _ => none
  | .rowHammerThreshold _ _ _ => none
  | .retrainPauseStart _ _ => none
  | .retrainPauseEnd _ _ _ _ => none
  | .pseudoChannelFailure _ _ _ => none
  | .stackFailure _ _ => none
  | .rebuildComplete _ _ => none
  | .stackOpPointServing _ _ => none
  | .stackBufferDrained _ _ _ => none
  | .flowCreate _ fn tag => some (fn, tag)
  | .flowEnable _ fn tag => some (fn, tag)
  | .flowDisable _ fn tag => some (fn, tag)
  | .flowDestroy _ fn tag => some (fn, tag)
  | .flowPostDescriptors _ fn tag => some (fn, tag)
  | .flowGetStatus _ fn tag => some (fn, tag)
  | .descriptorFetched _ _ _ _ => none
  | .producerUnitArrival _ _ => none
  | .burstAdmission _ => none
  | .burstCompletion _ _ _ _ => none
  | .burstError _ _ _ => none
  | .hostReadTimeout _ _ => none
  | .streamConfigurePort _ fn tag => some (fn, tag)
  | .streamBindFlow _ fn tag => some (fn, tag)
  | .streamGetStatus _ fn tag => some (fn, tag)
  | .portLinkUp _ _ => none
  | .packetFlushTimeout _ _ => none
  | .packetTransmit _ _ _ => none
  | .heartbeatTimer _ _ => none
  | .portFailure _ _ _ => none
  | .arpRequestReceived _ _ _ _ _ => none
  | .neighbourSolicitationReceived _ _ _ _ _ => none
  | .pauseFrameReceived _ _ => none
  | .otherFrameReceived _ _ => none
  | .dispSetTiming _ fn tag => some (fn, tag)
  | .dispSetGenlock _ fn tag => some (fn, tag)
  | .dispConfigureLayer _ fn tag _ => some (fn, tag)
  | .dispSetPalette _ fn tag => some (fn, tag)
  | .dispEnable _ fn tag _ _ => some (fn, tag)
  | .dispDisable _ fn tag => some (fn, tag)
  | .latchLine _ => none
  | .matchLineReached _ => none
  | .frameEnd _ => none
  | .lineUnderrun _ _ => none
  | .overlayFetchFault _ _ => none
  | .genlockEdge _ _ => none
  | .genlockLost _ => none
  | .hpdUnplug _ => none
  | .hpdReturn _ => none
  | .scanoutMismatch _ _ => none
  | .budgetSetPowerCap _ fn tag => some (fn, tag)
  | .budgetGrant _ fn tag => some (fn, tag)
  | .budgetRevoke _ fn tag => some (fn, tag)
  | .budgetReadLedger _ fn tag => some (fn, tag)
  | .budgetGetCapacity _ fn tag => some (fn, tag)
  | .budgetPeriodBoundary _ => none
  | .ageingInterval _ _ => none
  | .latencyTargetReached _ _ _ _ => none
  | .urgentIntervalClose _ _ _ => none
  | .ledgerUpdate _ _ _ _ => none
  | .throttleStageAdvance _ => none
  | .throttleStageRelease _ => none
  | .faultReadLog _ fn tag => some (fn, tag)
  | .faultGetHealth _ fn tag => some (fn, tag)
  | .faultInject _ fn tag => some (fn, tag)
  | .faultClearLog _ fn tag => some (fn, tag)
  | .injectedUnitRestore _ _ _ _ _ => none
  | .stewardPairHalt _ _ => none
  | .stewardTakeoverComplete _ => none
  | .sramScrubPass _ _ => none
  | .uncorrectableSramWord _ _ _ _ _ _ => none
  | .fabricPllFault _ _ _ _ => none
  | .regulatorPhaseFault _ _ _ => none
  | .dieLinkLaneFault _ _ _ => none
  | .checkedHalfMismatch _ _ _ => none
  | .spareUnitFault _ _ _ _ => none
  | .outOfScopeFault _ _ => none
  | .calRun _ fn tag _ _ _ => some (fn, tag)
  | .calGetRecord _ fn tag => some (fn, tag)
  | .calSetSchedule _ fn tag => some (fn, tag)
  | .scheduledCalibration _ _ _ _ _ _ => none
  | .idScan _ fn tag _ _ => some (fn, tag)
  | .idReadRecord _ fn tag _ _ => some (fn, tag)
  | .secGetCertificate _ fn tag => some (fn, tag)
  | .secAttest _ fn tag => some (fn, tag)
  | .secUpdateFirmware _ fn tag _ _ => some (fn, tag)
  | .stewardRestartComplete _ _ => none
  | .secSetOwnerKey _ fn tag => some (fn, tag)
  | .secGetCounters _ fn tag => some (fn, tag)
  | .servicePairSleep _ _ => none
  | .firstSettledOutput _ _ => none
  | .codewordBoundaryFound _ _ _ => none
  | .markerCodeword _ => none
  | .dpLinkTrained _ _ _ => none
  | .echoTurnaround _ => none
  | .vineFrameSent _ => none
  | .disciplineLoopLocked _ => none

/-- The tick of module time at which a row happens. -/
def Instr.time (i : Instr) : Nat :=
  match i with
  | .feedPresent t _ => t
  | .feedLost t _ => t
  | .feedRestored t _ => t
  | .shutdownNLow t => t
  | .shutdownNRise t => t
  | .powerGood t => t
  | .secureBoot t _ _ => t
  | .functionReady t _ _ _ _ _ => t
  | .readyTimeout t _ _ _ _ _ => t
  | .perstNAssert t => t
  | .perstNRelease t => t
  | .hotReset t => t
  | .functionLevelReset t _ => t
  | .functionD3hot t _ _ => t
  | .functionD0 t _ => t
  | .standbyWake t _ => t
  | .linkL0Reached t _ _ => t
  | .pcieLaneFailure t _ _ => t
  | .aliveToggle t => t
  | .thermalWarning t => t
  | .thermalThrottleStep t _ => t
  | .thermalTrip t _ => t
  | .tapInstructionLoad t _ => t
  | .tapTestLogicReset t => t
  | .doorbellWrite t _ _ _ _ => t
  | .servicePairWake t _ => t
  | .commandTimeout t _ _ => t
  | .chanStateClear t _ _ _ _ => t
  | .lockAliasRead t _ _ _ _ _ => t
  | .lockAliasWrite t _ _ _ _ => t
  | .lockForcedRelease t _ _ _ _ => t
  | .timeLatchWrite t _ _ => t
  | .ringConsWrite t _ _ _ _ => t
  | .ringOverflowClear t _ _ _ _ => t
  | .ringCoalesceTimeout t _ _ _ => t
  | .updateStrobeWrite t _ => t
  | .strobeOccurrenceApply t _ _ _ => t
  | .keyUnlockWrite t _ _ => t
  | .fcwEnableWrite t _ _ => t
  | .fcwStatusClear t _ _ => t
  | .fcwResyncWrite t _ _ => t
  | .resyncComplete t => t
  | .registerWrite t _ _ _ => t
  | .apertureRead t _ _ => t
  | .apertureWrite t _ _ => t
  | .smbAlertStatusClear t _ _ => t
  | .smbAlertResponse t => t
  | .sysHello t _ _ => t
  | .sysQueryReady t _ _ => t
  | .sysGetInfo t _ _ => t
  | .sysSetEventRing t _ _ => t
  | .sysResetFunction t _ _ => t
  | .sysNop t _ _ => t
  | .clockSetRef t _ _ => t
  | .clockGetStatus t _ _ _ _ => t
  | .clockSetTime t _ _ => t
  | .clockSetOutput t _ _ => t
  | .clockLoadRamp t _ _ => t
  | .clockStartRamp t _ _ _ => t
  | .clockStopRamp t _ _ => t
  | .clockSetVectorClock t _ _ => t
  | .ocxoHardFault t _ => t
  | .ocxoSoftFault t _ => t
  | .warmReached t _ => t
  | .refInQualified t _ _ => t
  | .ppsInQualified t _ => t
  | .refInLost t => t
  | .ppsInLost t => t
  | .ppsEdge t _ => t
  | .ppsOutSecond t => t
  | .ppsOutPulseEnd t => t
  | .synthBandSearchDone t _ => t
  | .synthLockDetected t _ => t
  | .synthLockLost t _ => t
  | .synthReacquireTimeout t _ => t
  | .sampleSynthFault t _ _ => t
  | .idleCoreLocked t _ => t
  | .rampScheduledStart t _ => t
  | .rampUpdate t _ => t
  | .rampSegmentEnd t _ => t
  | .rampProfileEnd t _ => t
  | .inputSetRange t _ _ => t
  | .inputGetStatus t _ _ _ => t
  | .inputEnable t _ _ => t
  | .inputDisable t _ _ => t
  | .inputRangeSwitch t _ => t
  | .rotationStep t _ _ => t
  | .sliceHandoverComplete t _ _ => t
  | .sliceFailure t _ _ _ => t
  | .coldSpareReady t _ => t
  | .inputOverdrive t _ _ _ _ _ => t
  | .protectionRelease t _ => t
  | .overrangeIntervalClose t _ => t
  | .ddcConfigure t _ _ => t
  | .ddcSetDelay t _ _ => t
  | .ddcEnable t _ _ => t
  | .ddcDisable t _ _ => t
  | .ddcGetStatus t _ _ _ => t
  | .ddcScheduledChange t _ => t
  | .ddcDatapathFault t _ _ => t
  | .pressConfigure t _ _ => t
  | .pressLoadWindow t _ _ _ => t
  | .pressLoadPfb t _ _ _ => t
  | .pressMapChannels t _ _ => t
  | .pressEnable t _ _ => t
  | .pressDisable t _ _ => t
  | .pressFrameRelease t _ _ _ _ _ => t
  | .pressPipelineFault t _ => t
  | .specConfigureDetector t _ _ => t
  | .specConfigureDensity t _ _ => t
  | .specClearDensity t _ _ => t
  | .specReadTrace t _ _ => t
  | .specPeakSearch t _ _ => t
  | .specEnable t _ _ => t
  | .specDisable t _ _ => t
  | .spectrumAccept t _ _ => t
  | .integrationEnd t _ => t
  | .decayBoundary t _ => t
  | .densityClearApply t _ => t
  | .trigConfigure t _ _ => t
  | .trigLoadMask t _ _ _ => t
  | .trigRoute t _ _ => t
  | .trigArm t _ _ => t
  | .trigDisarm t _ _ => t
  | .trigForce t _ _ => t
  | .trigGetStatus t _ _ => t
  | .trigScheduledArm t _ => t
  | .triggerDecision t _ _ _ => t
  | .forcedDecision t _ => t
  | .sorrelForceMessage t _ => t
  | .unitRearm t _ => t
  | .holdoffEnd t _ => t
  | .sequencePendingExpiry t _ => t
  | .trigInEdge t _ => t
  | .trigOutPulseEnd t => t
  | .voterDisagreement t _ => t
  | .triggerEventIntervalClose t _ => t
  | .acqCreateContext t _ _ => t
  | .acqArm t _ _ => t
  | .acqStop t _ _ => t
  | .acqDestroy t _ _ => t
  | .acqLoadTestMask t _ _ _ => t
  | .acqGetStatus t _ _ => t
  | .acqScheduledArm t _ => t
  | .ringFilled t _ => t
  | .segmentTrigger t _ => t
  | .segmentEnd t _ _ _ _ _ _ _ => t
  | .contextRearm t _ => t
  | .gapBegin t _ _ _ _ _ _ => t
  | .stagingDrainTimeout t _ _ _ _ _ => t
  | .segmentEventIntervalClose t _ => t
  | .gapEventIntervalClose t _ => t
  | .contextStateRebuild t _ => t
  | .sorrelLoadKernel t _ _ _ => t
  | .sorrelStart t _ _ => t
  | .sorrelStop t _ _ => t
  | .sorrelBind t _ _ => t
  | .sorrelGetStatus t _ _ => t
  | .sorrelScheduledStart t _ => t
  | .inputBlockArrival t _ _ _ _ _ _ _ _ => t
  | .coreFault t _ _ => t
  | .activationCreditExhausted t _ => t
  | .isaAdd t _ => t
  | .isaSub t _ => t
  | .isaAnd t _ => t
  | .isaOr t _ => t
  | .isaXor t _ => t
  | .isaShl t _ => t
  | .isaShra t _ => t
  | .isaShrl t _ => t
  | .isaMul t _ => t
  | .isaMulh t _ => t
  | .isaMin t _ => t
  | .isaMax t _ => t
  | .isaCmpeq t _ => t
  | .isaCmplt t _ => t
  | .isaCmpltu t _ => t
  | .isaLi t _ => t
  | .isaMfs t _ => t
  | .isaMts t _ => t
  | .isaLds t _ => t
  | .isaSts t _ => t
  | .isaLdv t _ => t
  | .isaStv t _ => t
  | .isaLdc t _ => t
  | .isaSta t _ => t
  | .isaCadd t _ => t
  | .isaCsub t _ => t
  | .isaCmul t _ => t
  | .isaCmulj t _ => t
  | .isaConj t _ => t
  | .isaVmov t _ => t
  | .isaVpowr t _ => t
  | .isaCmac t _ => t
  | .isaCmacj t _ => t
  | .isaTapmv t _ => t
  | .isaAccz t _ => t
  | .isaAccr t _ => t
  | .isaAccs t _ => t
  | .isaMaxi t _ => t
  | .isaMini t _ => t
  | .isaExpb t _ => t
  | .isaShfb t _ => t
  | .isaBr t _ => t
  | .isaJmp t _ => t
  | .isaLoop t _ => t
  | .isaWait t _ => t
  | .isaYield t _ => t
  | .isaEmit t _ => t
  | .isaMbox t _ => t
  | .isaSetag t _ => t
  | .isaHalt t _ => t
  | .isaNop t _ => t
  | .patDefineSegment t _ _ => t
  | .patWriteSegment t _ _ _ => t
  | .patLoadTable t _ _ => t
  | .patDefineSite t _ _ => t
  | .patStart t _ _ => t
  | .patStop t _ _ _ => t
  | .patRequestJump t _ _ _ => t
  | .patGetResult t _ _ _ => t
  | .patLoadTimesets t _ _ _ => t
  | .patScheduledStart t _ _ => t
  | .decisionPoint t _ => t
  | .segmentBoundary t _ _ => t
  | .triggerJumpArrival t _ _ => t
  | .siteEventArrival t _ _ => t
  | .refillLate t _ _ _ => t
  | .sitePark t _ _ => t
  | .trellisDiscover t _ _ => t
  | .trellisGetStatus t _ _ => t
  | .trellisConfigureCapture t _ _ => t
  | .trellisDeskew t _ _ _ => t
  | .upstreamCodeword t _ _ _ _ _ => t
  | .idleFrame t _ _ => t
  | .identFrame t _ _ => t
  | .progressFrame t _ _ => t
  | .failFrame t _ _ => t
  | .captureFrame t _ _ => t
  | .matchFrame t _ _ => t
  | .receiptFrame t _ _ _ => t
  | .eventFrame t _ _ _ => t
  | .countersFrame t _ _ => t
  | .loopReplyFrame t _ _ _ => t
  | .faultFrame t _ _ => t
  | .reliableResendTimeout t _ => t
  | .laneDown t _ _ => t
  | .deviceLost t _ => t
  | .sidePortFailure t _ => t
  | .stimDefineSegment t _ _ => t
  | .stimWriteSegment t _ _ _ => t
  | .stimLoadTable t _ _ => t
  | .stimStart t _ _ => t
  | .stimStop t _ _ => t
  | .stimRequestJump t _ _ => t
  | .stimScheduledStart t _ => t
  | .stimDecisionPoint t _ => t
  | .stimBoundary t _ => t
  | .stimTriggerJumpArrival t _ => t
  | .stimRefillLate t _ => t
  | .stimPark t _ => t
  | .vineConfigure t _ _ => t
  | .vineCalibrateSkew t _ _ => t
  | .vineGetStatus t _ _ => t
  | .vineScheduleSync t _ _ => t
  | .epochEdge t => t
  | .epochFrameReceived t _ _ _ => t
  | .vineEventFrameReceived t _ _ => t
  | .delayFrameReceived t _ _ => t
  | .vineEventSend t => t
  | .echoPulseSend t _ => t
  | .echoPulseReturn t _ => t
  | .vineNeighbourLost t _ => t
  | .vineSignalsReturn t _ => t
  | .tiuConfigureChannel t _ _ => t
  | .tiuStart t _ _ => t
  | .tiuStop t _ _ => t
  | .tiuReadStats t _ _ => t
  | .tiuGetStatus t _ _ _ _ _ => t
  | .tiuScheduledStart t _ => t
  | .tiuEdge t _ _ _ _ => t
  | .interpolatorRotationStep t _ => t
  | .interpolatorFailure t _ _ => t
  | .statsBlockComplete t _ => t
  | .tiuStatsIntervalClose t _ => t
  | .monConfigureComparator t _ _ => t
  | .monLoadSequence t _ _ => t
  | .monStartSequence t _ _ => t
  | .monStopSequence t _ _ => t
  | .monRead t _ _ => t
  | .monSetReference t _ _ => t
  | .monScheduledStart t => t
  | .comparatorChange t _ _ _ => t
  | .m3Tick t _ _ _ => t
  | .comparatorThresholdApply t _ _ => t
  | .blankingWindowClose t _ => t
  | .comparatorEventIntervalClose t _ => t
  | .wakeRequest t => t
  | .conversionComplete t _ _ => t
  | .entryDelayExpiry t => t
  | .housekeepingConversion t => t
  | .recoveryConversion t => t
  | .referenceSettled t => t
  | .cellarAllocate t _ _ => t
  | .cellarFree t _ _ => t
  | .cellarGetStatus t _ _ _ => t
  | .cellarSetOperatingPoint t _ _ => t
  | .regionZeroComplete t _ => t
  | .cellarRequest t _ _ _ _ _ _ _ => t
  | .urgencyLevelRise t => t
  | .writeBufferMergeTimeout t _ => t
  | .patrolScrub t _ _ => t
  | .refreshWindowStart t => t
  | .rowHammerThreshold t _ _ => t
  | .retrainPauseStart t _ => t
  | .retrainPauseEnd t _ _ _ => t
  | .pseudoChannelFailure t _ _ => t
  | .stackFailure t _ => t
  | .rebuildComplete t _ => t
  | .stackOpPointServing t _ => t
  | .stackBufferDrained t _ _ => t
  | .flowCreate t _ _ => t
  | .flowEnable t _ _ => t
  | .flowDisable t _ _ => t
  | .flowDestroy t _ _ => t
  | .flowPostDescriptors t _ _ => t
  | .flowGetStatus t _ _ => t
  | .descriptorFetched t _ _ _ => t
  | .producerUnitArrival t _ => t
  | .burstAdmission t => t
  | .burstCompletion t _ _ _ => t
  | .burstError t _ _ => t
  | .hostReadTimeout t _ => t
  | .streamConfigurePort t _ _ => t
  | .streamBindFlow t _ _ => t
  | .streamGetStatus t _ _ => t
  | .portLinkUp t _ => t
  | .packetFlushTimeout t _ => t
  | .packetTransmit t _ _ => t
  | .heartbeatTimer t _ => t
  | .portFailure t _ _ => t
  | .arpRequestReceived t _ _ _ _ => t
  | .neighbourSolicitationReceived t _ _ _ _ => t
  | .pauseFrameReceived t _ => t
  | .otherFrameReceived t _ => t
  | .dispSetTiming t _ _ => t
  | .dispSetGenlock t _ _ => t
  | .dispConfigureLayer t _ _ _ => t
  | .dispSetPalette t _ _ => t
  | .dispEnable t _ _ _ _ => t
  | .dispDisable t _ _ => t
  | .latchLine t => t
  | .matchLineReached t => t
  | .frameEnd t => t
  | .lineUnderrun t _ => t
  | .overlayFetchFault t _ => t
  | .genlockEdge t _ => t
  | .genlockLost t => t
  | .hpdUnplug t => t
  | .hpdReturn t => t
  | .scanoutMismatch t _ => t
  | .budgetSetPowerCap t _ _ => t
  | .budgetGrant t _ _ => t
  | .budgetRevoke t _ _ => t
  | .budgetReadLedger t _ _ => t
  | .budgetGetCapacity t _ _ => t
  | .budgetPeriodBoundary t => t
  | .ageingInterval t _ => t
  | .latencyTargetReached t _ _ _ => t
  | .urgentIntervalClose t _ _ => t
  | .ledgerUpdate t _ _ _ => t
  | .throttleStageAdvance t => t
  | .throttleStageRelease t => t
  | .faultReadLog t _ _ => t
  | .faultGetHealth t _ _ => t
  | .faultInject t _ _ => t
  | .faultClearLog t _ _ => t
  | .injectedUnitRestore t _ _ _ _ => t
  | .stewardPairHalt t _ => t
  | .stewardTakeoverComplete t => t
  | .sramScrubPass t _ => t
  | .uncorrectableSramWord t _ _ _ _ _ => t
  | .fabricPllFault t _ _ _ => t
  | .regulatorPhaseFault t _ _ => t
  | .dieLinkLaneFault t _ _ => t
  | .checkedHalfMismatch t _ _ => t
  | .spareUnitFault t _ _ _ => t
  | .outOfScopeFault t _ => t
  | .calRun t _ _ _ _ _ => t
  | .calGetRecord t _ _ => t
  | .calSetSchedule t _ _ => t
  | .scheduledCalibration t _ _ _ _ _ => t
  | .idScan t _ _ _ _ => t
  | .idReadRecord t _ _ _ _ => t
  | .secGetCertificate t _ _ => t
  | .secAttest t _ _ => t
  | .secUpdateFirmware t _ _ _ _ => t
  | .stewardRestartComplete t _ => t
  | .secSetOwnerKey t _ _ => t
  | .secGetCounters t _ _ => t
  | .servicePairSleep t _ => t
  | .firstSettledOutput t _ => t
  | .codewordBoundaryFound t _ _ => t
  | .markerCodeword t => t
  | .dpLinkTrained t _ _ => t
  | .echoTurnaround t => t
  | .vineFrameSent t => t
  | .disciplineLoopLocked t => t

/-- The well-formed commands. -/
def Instr.wf (i : Instr) : Bool :=
  match i with
  | .feedPresent _ _ => true
  | .feedLost _ _ => true
  | .feedRestored _ _ => true
  | .shutdownNLow _ => true
  | .shutdownNRise _ => true
  | .powerGood _ => true
  | .secureBoot _ _ _ => true
  | .functionReady _ readyBit _ _ _ _ => below readyBit 64
  | .readyTimeout _ readyBit _ _ _ _ => below readyBit 64
  | .perstNAssert _ => true
  | .perstNRelease _ => true
  | .hotReset _ => true
  | .functionLevelReset _ fn => below fn 2
  | .functionD3hot _ fn _ => below fn 2
  | .functionD0 _ fn => below fn 2
  | .standbyWake _ _ => true
  | .linkL0Reached _ _ _ => true
  | .pcieLaneFailure _ _ _ => true
  | .aliveToggle _ => true
  | .thermalWarning _ => true
  | .thermalThrottleStep _ _ => true
  | .thermalTrip _ _ => true
  | .tapInstructionLoad _ _ => true
  | .tapTestLogicReset _ => true
  | .doorbellWrite _ fn _ _ _ => below fn 2
  | .servicePairWake _ _ => true
  | .commandTimeout _ fn tag => commandWf fn tag
  | .chanStateClear _ fn _ _ _ => below fn 2
  | .lockAliasRead _ fn _ _ _ _ => below fn 2
  | .lockAliasWrite _ fn _ _ _ => below fn 2
  | .lockForcedRelease _ fn _ _ _ => below fn 2
  | .timeLatchWrite _ fn _ => below fn 2
  | .ringConsWrite _ fn _ ring _ => below fn 2 && below ring 16
  | .ringOverflowClear _ fn ring _ _ => below fn 2 && below ring 16
  | .ringCoalesceTimeout _ fn _ ring => below fn 2 && below ring 16
  | .updateStrobeWrite _ _ => true
  | .strobeOccurrenceApply _ _ _ _ => true
  | .keyUnlockWrite _ fn _ => below fn 2
  | .fcwEnableWrite _ _ _ => true
  | .fcwStatusClear _ _ _ => true
  | .fcwResyncWrite _ _ _ => true
  | .resyncComplete _ => true
  | .registerWrite _ fn _ _ => below fn 6 && fn != 3
  | .apertureRead _ _ _ => true
  | .apertureWrite _ _ _ => true
  | .smbAlertStatusClear _ _ _ => true
  | .smbAlertResponse _ => true
  | .sysHello _ fn tag => commandWf fn tag
  | .sysQueryReady _ fn tag => commandWf fn tag
  | .sysGetInfo _ fn tag => commandWf fn tag
  | .sysSetEventRing _ fn tag => commandWf fn tag
  | .sysResetFunction _ fn tag => commandWf fn tag
  | .sysNop _ fn tag => commandWf fn tag
  | .clockSetRef _ fn tag => commandWf fn tag
  | .clockGetStatus _ fn tag _ _ => commandWf fn tag
  | .clockSetTime _ fn tag => commandWf fn tag
  | .clockSetOutput _ fn tag => commandWf fn tag
  | .clockLoadRamp _ fn tag => commandWf fn tag
  | .clockStartRamp _ fn tag _ => commandWf fn tag
  | .clockStopRamp _ fn tag => commandWf fn tag
  | .clockSetVectorClock _ fn tag => commandWf fn tag
  | .ocxoHardFault _ osc => below osc 3
  | .ocxoSoftFault _ _ => true
  | .warmReached _ _ => true
  | .refInQualified _ _ _ => true
  | .ppsInQualified _ _ => true
  | .refInLost _ => true
  | .ppsInLost _ => true
  | .ppsEdge _ stamp => stamp.wf
  | .ppsOutSecond _ => true
  | .ppsOutPulseEnd _ => true
  | .synthBandSearchDone _ _ => true
  | .synthLockDetected _ _ => true
  | .synthLockLost _ _ => true
  | .synthReacquireTimeout _ _ => true
  | .sampleSynthFault _ _ _ => true
  | .idleCoreLocked _ gen => below gen 3
  | .rampScheduledStart _ gen => below gen 3
  | .rampUpdate _ gen => below gen 3
  | .rampSegmentEnd _ gen => below gen 3
  | .rampProfileEnd _ gen => below gen 3
  | .inputSetRange _ fn tag => commandWf fn tag
  | .inputGetStatus _ fn tag _ => commandWf fn tag
  | .inputEnable _ fn tag => commandWf fn tag
  | .inputDisable _ fn tag => commandWf fn tag
  | .inputRangeSwitch _ input => below input 4
  | .rotationStep _ input _ => below input 4
  | .sliceHandoverComplete _ input _ => below input 4
  | .sliceFailure _ input _ _ => below input 4
  | .coldSpareReady _ input => below input 4
  | .inputOverdrive _ input _ _ _ _ => below input 4
  | .protectionRelease _ input => below input 4
  | .overrangeIntervalClose _ input => below input 4
  | .ddcConfigure _ fn tag => commandWf fn tag
  | .ddcSetDelay _ fn tag => commandWf fn tag
  | .ddcEnable _ fn tag => commandWf fn tag
  | .ddcDisable _ fn tag => commandWf fn tag
  | .ddcGetStatus _ fn tag _ => commandWf fn tag
  | .ddcScheduledChange _ ddc => below ddc 32
  | .ddcDatapathFault _ input _ => below input 4
  | .pressConfigure _ fn tag => commandWf fn tag
  | .pressLoadWindow _ fn tag _ => commandWf fn tag
  | .pressLoadPfb _ fn tag _ => commandWf fn tag
  | .pressMapChannels _ fn tag => commandWf fn tag
  | .pressEnable _ fn tag => commandWf fn tag
  | .pressDisable _ fn tag => commandWf fn tag
  | .pressFrameRelease _ job _ _ _ _ => below job 32
  | .pressPipelineFault _ _ => true
  | .specConfigureDetector _ fn tag => commandWf fn tag
  | .specConfigureDensity _ fn tag => commandWf fn tag
  | .specClearDensity _ fn tag => commandWf fn tag
  | .specReadTrace _ fn tag => commandWf fn tag
  | .specPeakSearch _ fn tag => commandWf fn tag
  | .specEnable _ fn tag => commandWf fn tag
  | .specDisable _ fn tag => commandWf fn tag
  | .spectrumAccept _ job _ => below job 32
  | .integrationEnd _ trace => below trace 64
  | .decayBoundary _ plane => below plane 4
  | .densityClearApply _ plane => below plane 4
  | .trigConfigure _ fn tag => commandWf fn tag
  | .trigLoadMask _ fn tag _ => commandWf fn tag
  | .trigRoute _ fn tag => commandWf fn tag
  | .trigArm _ fn tag => commandWf fn tag
  | .trigDisarm _ fn tag => commandWf fn tag
  | .trigForce _ fn tag => commandWf fn tag
  | .trigGetStatus _ fn tag => commandWf fn tag
  | .trigScheduledArm _ _ => true
  | .triggerDecision _ _ _ _ => true
  | .forcedDecision _ _ => true
  | .sorrelForceMessage _ core => below core 64
  | .unitRearm _ _ => true
  | .holdoffEnd _ _ => true
  | .sequencePendingExpiry _ _ => true
  | .trigInEdge _ _ => true
  | .trigOutPulseEnd _ => true
  | .voterDisagreement _ _ => true
  | .triggerEventIntervalClose _ _ => true
  | .acqCreateContext _ fn tag => commandWf fn tag
  | .acqArm _ fn tag => commandWf fn tag
  | .acqStop _ fn tag => commandWf fn tag
  | .acqDestroy _ fn tag => commandWf fn tag
  | .acqLoadTestMask _ fn tag _ => commandWf fn tag
  | .acqGetStatus _ fn tag => commandWf fn tag
  | .acqScheduledArm _ context => below context 4096
  | .ringFilled _ context => below context 4096
  | .segmentTrigger _ context => below context 4096
  | .segmentEnd _ context _ _ _ _ _ _ => below context 4096
  | .contextRearm _ context => below context 4096
  | .gapBegin _ context _ _ _ _ _ => below context 4096
  | .stagingDrainTimeout _ context _ _ _ _ => below context 4096
  | .segmentEventIntervalClose _ context => below context 4096
  | .gapEventIntervalClose _ context => below context 4096
  | .contextStateRebuild _ context => below context 4096
  | .sorrelLoadKernel _ fn tag _ => commandWf fn tag
  | .sorrelStart _ fn tag => commandWf fn tag
  | .sorrelStop _ fn tag => commandWf fn tag
  | .sorrelBind _ fn tag => commandWf fn tag
  | .sorrelGetStatus _ fn tag => commandWf fn tag
  | .sorrelScheduledStart _ core => below core 64
  | .inputBlockArrival _ core _ _ _ _ _ _ _ => below core 64
  | .coreFault _ core _ => below core 64
  | .activationCreditExhausted _ core => below core 64
  | .isaAdd _ core => below core 64
  | .isaSub _ core => below core 64
  | .isaAnd _ core => below core 64
  | .isaOr _ core => below core 64
  | .isaXor _ core => below core 64
  | .isaShl _ core => below core 64
  | .isaShra _ core => below core 64
  | .isaShrl _ core => below core 64
  | .isaMul _ core => below core 64
  | .isaMulh _ core => below core 64
  | .isaMin _ core => below core 64
  | .isaMax _ core => below core 64
  | .isaCmpeq _ core => below core 64
  | .isaCmplt _ core => below core 64
  | .isaCmpltu _ core => below core 64
  | .isaLi _ core => below core 64
  | .isaMfs _ core => below core 64
  | .isaMts _ core => below core 64
  | .isaLds _ core => below core 64
  | .isaSts _ core => below core 64
  | .isaLdv _ core => below core 64
  | .isaStv _ core => below core 64
  | .isaLdc _ core => below core 64
  | .isaSta _ core => below core 64
  | .isaCadd _ core => below core 64
  | .isaCsub _ core => below core 64
  | .isaCmul _ core => below core 64
  | .isaCmulj _ core => below core 64
  | .isaConj _ core => below core 64
  | .isaVmov _ core => below core 64
  | .isaVpowr _ core => below core 64
  | .isaCmac _ core => below core 64
  | .isaCmacj _ core => below core 64
  | .isaTapmv _ core => below core 64
  | .isaAccz _ core => below core 64
  | .isaAccr _ core => below core 64
  | .isaAccs _ core => below core 64
  | .isaMaxi _ core => below core 64
  | .isaMini _ core => below core 64
  | .isaExpb _ core => below core 64
  | .isaShfb _ core => below core 64
  | .isaBr _ core => below core 64
  | .isaJmp _ core => below core 64
  | .isaLoop _ core => below core 64
  | .isaWait _ core => below core 64
  | .isaYield _ core => below core 64
  | .isaEmit _ core => below core 64
  | .isaMbox _ core => below core 64
  | .isaSetag _ core => below core 64
  | .isaHalt _ core => below core 64
  | .isaNop _ core => below core 64
  | .patDefineSegment _ fn tag => commandWf fn tag
  | .patWriteSegment _ fn tag _ => commandWf fn tag
  | .patLoadTable _ fn tag => commandWf fn tag
  | .patDefineSite _ fn tag => commandWf fn tag
  | .patStart _ fn tag => commandWf fn tag
  | .patStop _ fn tag _ => commandWf fn tag
  | .patRequestJump _ fn tag _ => commandWf fn tag
  | .patGetResult _ fn tag _ => commandWf fn tag
  | .patLoadTimesets _ fn tag _ => commandWf fn tag
  | .patScheduledStart _ site _ => below site 256
  | .decisionPoint _ site => below site 256
  | .segmentBoundary _ site last => below site 256 && last.wf
  | .triggerJumpArrival _ site _ => below site 256
  | .siteEventArrival _ site launch => below site 256 && launch.wf
  | .refillLate _ site _ device => below site 256 && below device 64
  | .sitePark _ site _ => below site 256
  | .trellisDiscover _ fn tag => commandWf fn tag
  | .trellisGetStatus _ fn tag => commandWf fn tag
  | .trellisConfigureCapture _ fn tag => commandWf fn tag
  | .trellisDeskew _ fn tag _ => commandWf fn tag
  | .upstreamCodeword _ _ _ _ _ _ => true
  | .idleFrame _ _ _ => true
  | .identFrame _ _ _ => true
  | .progressFrame _ _ _ => true
  | .failFrame _ _ _ => true
  | .captureFrame _ _ _ => true
  | .matchFrame _ _ _ => true
  | .receiptFrame _ _ _ _ => true
  | .eventFrame _ _ _ _ => true
  | .countersFrame _ _ _ => true
  | .loopReplyFrame _ _ _ _ => true
  | .faultFrame _ _ _ => true
  | .reliableResendTimeout _ device => below device 64
  | .laneDown _ _ _ => true
  | .deviceLost _ device => below device 64
  | .sidePortFailure _ _ => true
  | .stimDefineSegment _ fn tag => commandWf fn tag
  | .stimWriteSegment _ fn tag _ => commandWf fn tag
  | .stimLoadTable _ fn tag => commandWf fn tag
  | .stimStart _ fn tag => commandWf fn tag
  | .stimStop _ fn tag => commandWf fn tag
  | .stimRequestJump _ fn tag => commandWf fn tag
  | .stimScheduledStart _ output => below output 2
  | .stimDecisionPoint _ output => below output 2
  | .stimBoundary _ output => below output 2
  | .stimTriggerJumpArrival _ output => below output 2
  | .stimRefillLate _ output => below output 2
  | .stimPark _ output => below output 2
  | .vineConfigure _ fn tag => commandWf fn tag
  | .vineCalibrateSkew _ fn tag => commandWf fn tag
  | .vineGetStatus _ fn tag => commandWf fn tag
  | .vineScheduleSync _ fn tag => commandWf fn tag
  | .epochEdge _ => true
  | .epochFrameReceived _ _ _ arrival => arrival.wf
  | .vineEventFrameReceived _ _ _ => true
  | .delayFrameReceived _ _ _ => true
  | .vineEventSend _ => true
  | .echoPulseSend _ stamp => stamp.wf
  | .echoPulseReturn _ stamp => stamp.wf
  | .vineNeighbourLost _ _ => true
  | .vineSignalsReturn _ _ => true
  | .tiuConfigureChannel _ fn tag => commandWf fn tag
  | .tiuStart _ fn tag => commandWf fn tag
  | .tiuStop _ fn tag => commandWf fn tag
  | .tiuReadStats _ fn tag => commandWf fn tag
  | .tiuGetStatus _ fn tag _ _ _ => commandWf fn tag
  | .tiuScheduledStart _ _ => true
  | .tiuEdge _ _ _ _ _ => true
  | .interpolatorRotationStep _ _ => true
  | .interpolatorFailure _ _ _ => true
  | .statsBlockComplete _ _ => true
  | .tiuStatsIntervalClose _ _ => true
  | .monConfigureComparator _ fn tag => commandWf fn tag
  | .monLoadSequence _ fn tag => commandWf fn tag
  | .monStartSequence _ fn tag => commandWf fn tag
  | .monStopSequence _ fn tag => commandWf fn tag
  | .monRead _ fn tag => commandWf fn tag
  | .monSetReference _ fn tag => commandWf fn tag
  | .monScheduledStart _ => true
  | .comparatorChange _ comp _ _ => below comp 16
  | .m3Tick _ comp _ _ => below comp 16
  | .comparatorThresholdApply _ comp _ => below comp 16
  | .blankingWindowClose _ comp => below comp 16
  | .comparatorEventIntervalClose _ comp => below comp 16
  | .wakeRequest _ => true
  | .conversionComplete _ _ _ => true
  | .entryDelayExpiry _ => true
  | .housekeepingConversion _ => true
  | .recoveryConversion _ => true
  | .referenceSettled _ => true
  | .cellarAllocate _ fn tag => commandWf fn tag
  | .cellarFree _ fn tag => commandWf fn tag
  | .cellarGetStatus _ fn tag _ => commandWf fn tag
  | .cellarSetOperatingPoint _ fn tag => commandWf fn tag
  | .regionZeroComplete _ _ => true
  | .cellarRequest _ _ _ _ _ _ _ _ => true
  | .urgencyLevelRise _ => true
  | .writeBufferMergeTimeout _ _ => true
  | .patrolScrub _ _ _ => true
  | .refreshWindowStart _ => true
  | .rowHammerThreshold _ stack _ => below stack 4
  | .retrainPauseStart _ _ => true
  | .retrainPauseEnd _ _ _ _ => true
  | .pseudoChannelFailure _ stack pc => below stack 4 && below pc 33
  | .stackFailure _ stack => below stack 4
  | .rebuildComplete _ stack => below stack 4
  | .stackOpPointServing _ stack => below stack 4
  | .stackBufferDrained _ stack _ => below stack 4
  | .flowCreate _ fn tag => commandWf fn tag
  | .flowEnable _ fn tag => commandWf fn tag
  | .flowDisable _ fn tag => commandWf fn tag
  | .flowDestroy _ fn tag => commandWf fn tag
  | .flowPostDescriptors _ fn tag => commandWf fn tag
  | .flowGetStatus _ fn tag => commandWf fn tag
  | .descriptorFetched _ flow _ _ => below flow 49152
  | .producerUnitArrival _ flow => below flow 49152
  | .burstAdmission _ => true
  | .burstCompletion _ flow _ _ => below flow 49152
  | .burstError _ flow _ => below flow 49152
  | .hostReadTimeout _ flow => below flow 49152
  | .streamConfigurePort _ fn tag => commandWf fn tag
  | .streamBindFlow _ fn tag => commandWf fn tag
  | .streamGetStatus _ fn tag => commandWf fn tag
  | .portLinkUp _ _ => true
  | .packetFlushTimeout _ flow => below flow 49152
  | .packetTransmit _ _ flow => below flow 49152
  | .heartbeatTimer _ _ => true
  | .portFailure _ _ _ => true
  | .arpRequestReceived _ _ _ _ _ => true
  | .neighbourSolicitationReceived _ _ _ _ _ => true
  | .pauseFrameReceived _ _ => true
  | .otherFrameReceived _ _ => true
  | .dispSetTiming _ fn tag => commandWf fn tag
  | .dispSetGenlock _ fn tag => commandWf fn tag
  | .dispConfigureLayer _ fn tag _ => commandWf fn tag
  | .dispSetPalette _ fn tag => commandWf fn tag
  | .dispEnable _ fn tag _ _ => commandWf fn tag
  | .dispDisable _ fn tag => commandWf fn tag
  | .latchLine _ => true
  | .matchLineReached _ => true
  | .frameEnd _ => true
  | .lineUnderrun _ _ => true
  | .overlayFetchFault _ _ => true
  | .genlockEdge _ _ => true
  | .genlockLost _ => true
  | .hpdUnplug _ => true
  | .hpdReturn _ => true
  | .scanoutMismatch _ _ => true
  | .budgetSetPowerCap _ fn tag => commandWf fn tag
  | .budgetGrant _ fn tag => commandWf fn tag
  | .budgetRevoke _ fn tag => commandWf fn tag
  | .budgetReadLedger _ fn tag => commandWf fn tag
  | .budgetGetCapacity _ fn tag => commandWf fn tag
  | .budgetPeriodBoundary _ => true
  | .ageingInterval _ flow => below flow 49152
  | .latencyTargetReached _ _ _ _ => true
  | .urgentIntervalClose _ _ _ => true
  | .ledgerUpdate _ _ _ _ => true
  | .throttleStageAdvance _ => true
  | .throttleStageRelease _ => true
  | .faultReadLog _ fn tag => commandWf fn tag
  | .faultGetHealth _ fn tag => commandWf fn tag
  | .faultInject _ fn tag => commandWf fn tag
  | .faultClearLog _ fn tag => commandWf fn tag
  | .injectedUnitRestore _ _ _ _ _ => true
  | .stewardPairHalt _ _ => true
  | .stewardTakeoverComplete _ => true
  | .sramScrubPass _ _ => true
  | .uncorrectableSramWord _ _ _ _ _ _ => true
  | .fabricPllFault _ _ _ _ => true
  | .regulatorPhaseFault _ _ _ => true
  | .dieLinkLaneFault _ _ _ => true
  | .checkedHalfMismatch _ _ _ => true
  | .spareUnitFault _ _ _ _ => true
  | .outOfScopeFault _ _ => true
  | .calRun _ fn tag _ _ _ => commandWf fn tag
  | .calGetRecord _ fn tag => commandWf fn tag
  | .calSetSchedule _ fn tag => commandWf fn tag
  | .scheduledCalibration _ _ _ _ _ _ => true
  | .idScan _ fn tag _ _ => commandWf fn tag
  | .idReadRecord _ fn tag _ _ => commandWf fn tag
  | .secGetCertificate _ fn tag => commandWf fn tag
  | .secAttest _ fn tag => commandWf fn tag
  | .secUpdateFirmware _ fn tag _ _ => commandWf fn tag
  | .stewardRestartComplete _ _ => true
  | .secSetOwnerKey _ fn tag => commandWf fn tag
  | .secGetCounters _ fn tag => commandWf fn tag
  | .servicePairSleep _ _ => true
  | .firstSettledOutput _ ddc => below ddc 32
  | .codewordBoundaryFound _ _ _ => true
  | .markerCodeword _ => true
  | .dpLinkTrained _ _ _ => true
  | .echoTurnaround _ => true
  | .vineFrameSent _ => true
  | .disciplineLoopLocked _ => true

end Sys2Proof
end

