-- ==== Sys2Proof/Certificates/Slice0/Obligations.lean ====
section
/-! DEFINITION. The statements for the provers: what each command does, when it completes, and what every step keeps. -/

open Sys2Proof Sys2Proof.Machine

/-- A step takes the command at the front of the queue and answers what `exec` answers on the state with the rest of the queue; on an empty queue the block idles (log entry 1). -/
def Obligations.StepRunsFront : Prop :=
  (∀ (c : Instr) (q : List Instr) (s : State), step (s.withPending (c :: q)) = exec c (s.withPending q)) ∧
  ∀ s : State, s.pending = [] → step s = .next s

/-- What each access to a lock alias does (R36). -/
def Obligations.LockAliases : Prop :=
  ∀ (s : State) (t fn chan agent first width value : Nat), s.powered = true →
    (s.advance t).chanReachable fn chan = true → (s.advance t).readyBit 0 = true →
    let a := s.advance t
    let x := a.chan fn chan
    let shown (v : Nat) : State → State := fun b => b.emit (.readData (((leBytes 4 v).drop first).take width))
    (1 ≤ agent → agent ≤ 255 → width ≤ 4 → (x.owner = 0 → exec (.lockAliasRead t fn chan agent first width) s =
        .next (shown 0 (a.setChan fn chan { x with owner := agent }))) ∧
      (x.owner = agent → exec (.lockAliasRead t fn chan agent first width) s = .next (shown 0 a)) ∧
      (x.owner ≠ 0 → x.owner ≠ agent → exec (.lockAliasRead t fn chan agent first width) s = .next (shown x.owner a))) ∧
    (width ≤ 4 → exec (.lockAliasRead t fn chan 0 first width) s = .next (shown x.owner a)) ∧
    (4 < width → agent ≤ 255 →
      exec (.lockAliasRead t fn chan agent first width) s = .next (a.emit (.readData (leBytes width 0)))) ∧
    (1 ≤ agent → agent ≤ 255 → exec (.lockAliasWrite t fn chan agent width) s =
        .next (if width = 4 ∧ x.owner = agent then a.setChan fn chan { x with owner := 0 } else a)) ∧
    exec (.lockForcedRelease t fn chan value width) s = .next (if width = 4 ∧ x.owner ≠ 0 ∧ value = x.owner then
        a.setChan fn chan { x with owner := 0, lockBroken := true } else a)

/-- The doorbell, the channel status bits and the time latch (R33, R34, R37, R31, R75). Where the rules leave a point open, this is the model's choice: log entries 16, 18, 23 and 103. -/
def Obligations.DoorbellAndChannelRows : Prop :=
  (∀ (fn chan value : Nat) (hostBytes : List Byte), Happens (.doorbellWrite · fn chan value hostBytes)
      (fun a => Cond.doorbell fn chan value a && (a.chan fn chan).owner != 0 && !(a.chan fn chan).awaiting)
      (Eff.doorbellWrite fn chan hostBytes)) ∧
  (∀ (fn chan value : Nat) (hostBytes : List Byte), Happens (.doorbellWrite · fn chan value hostBytes)
      (fun a => Cond.doorbell fn chan value a && (a.chan fn chan).owner == 0)
      (Eff.doorbellWrite2 fn chan)) ∧
  (∀ (fn chan value : Nat) (hostBytes : List Byte), Happens (.doorbellWrite · fn chan value hostBytes)
      (fun a => Cond.doorbell fn chan value a && (a.chan fn chan).owner != 0 && (a.chan fn chan).awaiting)
      (Eff.doorbellWrite3 fn chan)) ∧
  (∀ (fn chan value : Nat) (full : Bool),
    Happens (.chanStateClear · fn chan value full) (Cond.chanStateClear fn chan full)
      (Eff.chanStateClear fn chan value)) ∧
  ∀ (fn : Nat) (full : Bool), Happens (.timeLatchWrite · fn full) (Cond.fullWrite fn full) (Eff.timeLatchWrite fn)

/-- Rings, coalescing and the register windows (R39, R41, R42, R46, R75, R76, R585). Where the rules leave a point open, this is the model's choice: log entries 21, 22, 89, 97 and 122. -/
def Obligations.RingAndWindowRows : Prop :=
  ((∀ (fn ring value : Nat), Happens (.ringConsWrite · fn true ring value) (Cond.ringWrite fn ring)
      (Eff.ringConsWrite fn ring value)) ∧
  (∀ (fn ring value : Nat), Happens (.ringConsWrite · fn false ring value) (Cond.ringWrite fn ring)
      (Eff.ringConsWrite2 fn ring value)) ∧
  (∀ (fn ring value : Nat),
    Happens (.ringOverflowClear · fn ring value true) (fun a => Cond.ringWrite fn ring a && value.testBit 1)
      (Eff.ringOverflowClear fn ring)) ∧
  ∀ (fn : Nat) (completion : Bool) (ring : Nat),
    Happens (.ringCoalesceTimeout · fn completion ring) (Cond.coalesce fn completion ring)
      (Eff.ringCoalesceTimeout fn completion ring)) ∧
  (∀ (fn offset : Nat) (bytes : List Byte),
    Happens (.registerWrite · fn offset bytes) (fun a => a.hostAccess && decide (fn < 2))
      (fun a => a.writeRegs fn offset (bytes.take 8))) ∧
  (∀ (fn offset : Nat) (b0 b1 b2 b3 : Byte), Happens (fun t => .registerWrite t (fn + 4) offset [b0, b1, b2, b3])
      (fun a => a.hostAccess && decide (fn < 2) && offset % 4 == 0)
      (Eff.registerWrite fn offset b0 b1 b2 b3)) ∧
  (∀ (fn ring k : Nat) (completion : Bool) (b : Byte),
    Happens (fun t => .registerWrite t fn (0x6000 + 0x200 * bit completion + 0x20 * ring + 4 + k) [b])
      (fun a => Cond.ringWrite fn ring a && decide (k < 4))
      (Eff.registerWrite2 fn ring k completion b)) ∧
  (∀ (fn ring k : Nat) (completion : Bool) (b : Byte),
    Happens (fun t => .registerWrite t fn (0x6000 + 0x200 * bit completion + 0x20 * ring + 0x10 + k) [b])
      (fun a => Cond.ringWrite fn ring a && decide (k < 4))
      (fun a => a.coalWrite fn completion ring k [b])) ∧
  (∀ (fn n k : Nat) (b : Byte), Happens (fun t => .registerWrite t fn (0x1000 + 0x100 * n + k) [b])
      (fun a => a.hostAccess && decide (fn < 2) && decide (n < chanCount fn) && decide (k < 0xC0))
      (Eff.registerWrite3 fn n k b)) ∧
  (∀ (k : Nat) (b : Byte),
    Happens (fun t => .registerWrite t 0 (0x8000 + k) [b]) (fun a => a.hostAccess && decide (k < 0x8000))
      (Eff.registerWrite4 k b)) ∧
  (∀ bytes : List Byte, Happens (.registerWrite · 2 9 bytes) (fun _ => true) (Eff.registerWrite5 bytes)) ∧
  (∀ addr length : Nat, Happens (.apertureRead · addr length) (fun a => a.hostAccess && decide (length ≤ 4096))
      (Eff.apertureRead addr length)) ∧
  ∀ (addr : Nat) (bytes : List Byte), Happens (.apertureWrite · addr bytes) (fun a => a.hostAccess)
      (Eff.apertureWrite addr bytes)

/-- The fast control window: key, enable, strobes, occurrences, resync and status bits (R76, R77, R78, R81, R83, R84, R85, R87). Where the rules leave a point open, this is the model's choice: log entries 15, 22, 23 and 105. -/
def Obligations.FastControlRows : Prop :=
  (∀ fn value : Nat, Happens (.keyUnlockWrite · fn value) (Cond.fullWrite fn true) (Eff.keyUnlockWrite fn value)) ∧
  (∀ value : Nat, Happens (.fcwEnableWrite · value true) (fun a => a.hostAccess && (a.func 0).keyOpen)
      (Eff.fcwEnableWrite value)) ∧
  (∀ value : Nat, Happens (.fcwEnableWrite · value true) (fun a => a.hostAccess && !(a.func 0).keyOpen)
      Eff.fcwEnableWrite2) ∧
  (∀ mask : Nat, Happens (.updateStrobeWrite · mask) (fun a => a.hostAccess && a.fcw.enable)
      (Eff.updateStrobeWrite mask)) ∧
  (∀ mask : Nat, Happens (.fcwResyncWrite · mask true) (fun a => a.hostAccess && !a.fcw.resyncBusy)
      (Eff.fcwResyncWrite mask)) ∧
  (∀ mask : Nat, Happens (.fcwResyncWrite · mask true) (fun a => a.hostAccess && a.fcw.resyncBusy)
      Eff.fcwResyncWrite2) ∧
  Happens .resyncComplete (fun a => a.fcw.resyncBusy) Eff.resyncComplete ∧
  (∀ value : Nat, Happens (.fcwStatusClear · value true) (fun a => a.hostAccess) (Eff.fcwStatusClear value)) ∧
  ∀ (group : Nat) (o : Occ) (vecs : List (Nat × Nat)),
    Happens (.strobeOccurrenceApply · group none vecs) (Cond.occurrence group o)
      (Eff.strobeOccurrenceApply group o vecs)

/-- HELLO, SET_EVENT_RING, service pairs and command time-outs (R35, R56, R59, R62, R67, R70). Where the rules leave a point open, this is the model's choice: log entries 14, 16, 24, 102 and 116. -/
def Obligations.AcknowledgedRows : Prop :=
  (∀ (fn tag n : Nat) (c : Cmd), Happens (.sysHello · fn tag) (Cond.hello fn tag n c) (Eff.sysHello fn n c)) ∧
  (∀ (fn tag n : Nat) (c : Cmd), Happens (.sysSetEventRing · fn tag)
      (fun a => Cond.setRing fn tag n c a && (RingSetup.of c.payload).sizeLog2 != 0 &&
        !((a.func fn).ring (RingSetup.of c.payload).completion (RingSetup.of c.payload).index).enabled)
      (Eff.sysSetEventRing fn n c)) ∧
  (∀ (fn tag n : Nat) (c : Cmd), Happens (.sysSetEventRing · fn tag)
      (fun a => Cond.setRing fn tag n c a && (RingSetup.of c.payload).sizeLog2 == 0)
      (Eff.sysSetEventRing2 fn n c)) ∧
  (∀ pair : Nat, Happens (.servicePairWake · pair) (fun a => a.ft.asleep.contains pair) (Eff.servicePairWake pair)) ∧
  (∀ pair : Nat, Happens (.servicePairSleep · pair) (Cond.pairSleeps pair) (Eff.servicePairSleep pair)) ∧
  ∀ (fn tag : Nat) (c : Cmd), Happens (.commandTimeout · fn tag) (Cond.timesOut fn tag c) (Eff.commandTimeout c)

/-- The SYS verbs complete with their RESULT words (R68, R69, R71, R72). Where the rules leave a point open, this is the model's choice: log entries 8, 12, 25, 34, 100, 104, 116 and 117. -/
def Obligations.SysVerbsComplete : Prop :=
  Completes .sysQueryReady 0x0102 Cond.sysQueryReady (fun c a => a.finish c .ok a.ready.toNat) ∧
  Completes .sysGetInfo 0x0103 Cond.sysGetInfo Eff.sysGetInfo ∧
  Completes .sysNop 0x0106 (fun _ _ => true) (fun c a => a.finish c .ok a.now) ∧
  Completes .sysResetFunction 0x0105 Cond.sysResetFunction Eff.sysResetFunction

/-- The CLOCK verbs have the effect their rules give (R104, R106, R107, R108, R109, R110, R111, R112, R113). Where the rules leave a point open, this is the model's choice: log entries 26, 27, 28, 90, 108, 109, 110 and 118. -/
def Obligations.ClockVerbsComplete : Prop :=
  Completes .clockSetRef 0x0201 Cond.clockSetRef Eff.clockSetRef ∧
  (∀ freqOffset oscDiff : Nat,
    Completes (.clockGetStatus · · · freqOffset oscDiff) 0x0202 (fun c _ => decide (96 ≤ c.room))
      (Eff.clockGetStatus freqOffset oscDiff)) ∧
  Completes .clockSetTime 0x0203 Cond.clockSetTimeTick Eff.clockSetTime ∧
  (∀ st : Stamp, Completes .clockSetTime 0x0203 (Cond.clockSetTimeEdge st) (Eff.clockSetTime2 st)) ∧
  Completes .clockSetOutput 0x0204 Cond.clockSetPpsOut Eff.clockSetOutput ∧
  Completes .clockSetOutput 0x0204 (fun c a => Cond.clockSetOutput c a && u8 c.payload 1 == 0) Eff.clockSetOutput2 ∧
  Completes .clockSetOutput 0x0204 (fun c a => Cond.clockSetOutput c a && u8 c.payload 1 == 1) Eff.clockSetOutput3 ∧
  Completes .clockLoadRamp 0x0205 Cond.clockLoadRamp Eff.clockLoadRamp ∧
  Completes (.clockStartRamp · · · none) 0x0206 Cond.clockStartRamp Eff.clockStartRamp ∧
  Completes .clockStopRamp 0x0207 (fun c a => Cond.clockStopRamp c a && Cond.rampStops (u8 c.payload 0) a)
    Eff.clockStopRamp ∧
  Completes .clockStopRamp 0x0207 (fun c a => Cond.clockStopRamp c a && (a.gen (u8 c.payload 0)).ramp != .running &&
      !Cond.rampStops (u8 c.payload 0) a)
    Eff.clockStopRamp2 ∧
  Completes .clockSetVectorClock 0x0208 (fun c a => Cond.clockSetVectorClock c a && u8 c.payload 8 == 0)
    (fun c a => (a.muteGen 0).finish c .ok 0) ∧
  Completes .clockSetVectorClock 0x0208 (fun c a => Cond.clockSetVectorClock c a && u8 c.payload 8 == 1)
    Eff.clockSetVectorClock

/-- Oscillators, references, the discipline loop and PPS (R89, R90, R91, R92, R93, R94, R96, R98). Where the rules leave a point open, this is the model's choice: log entries 26, 27, 74, 99 and 106. -/
def Obligations.ReferenceRows : Prop :=
  (∀ osc : Nat, Happens (.ocxoHardFault · osc) (fun a => Cond.oscillator osc a && osc != a.ck.activeOsc)
      (Eff.ocxoHardFault osc)) ∧
  (∀ osc : Nat, Happens (.ocxoHardFault · osc) (fun a => Cond.oscillator osc a && osc == a.ck.activeOsc)
      (Eff.ocxoHardFault2 osc)) ∧
  (∀ farther : Nat, Happens (.ocxoSoftFault · farther)
      (fun a => a.ck.warmAt.isSome && a.ck.oscDead.isEmpty && !a.ck.oscDisagree && a.refInUse) (fun a => a.oscFail farther false)) ∧
  (∀ ms : Nat, Happens (.warmReached · ms)
      (fun a => a.ck.warmAt.isNone && !a.readyBit 4 && !a.sec.recovery && !a.pw.failed.testBit 4)
      (Eff.warmReached ms)) ∧
  (∀ freq farther : Nat, Happens (.refInQualified · freq farther) (Cond.refFreq freq)
      (Eff.refInQualified freq farther)) ∧
  Happens .refInLost (fun a => a.ck.refQual) Eff.refInLost ∧
  (∀ farther : Nat,
    Happens (.ppsInQualified · farther) (fun a => decide (3 ≤ a.ck.ppsRun) && !a.ck.ppsQual && a.ck.heldPhase.isSome)
      (Eff.ppsInQualified farther)) ∧
  Happens .ppsInLost (fun a => a.ck.ppsQual) Eff.ppsInLost ∧
  (∀ stamp : Stamp,
    Happens (.ppsEdge · stamp) (fun a => !a.vineMember) (fun a => a.ppsEdge (a.full stamp) a.ck.ppsDelay)) ∧
  Happens .ppsOutSecond (fun a => a.ck.ppsOutOn && a.ck.atSecond a.now) Eff.ppsOutSecond ∧
  Happens .ppsOutPulseEnd (fun a => a.ck.ppsOutHigh) Eff.ppsOutPulseEnd ∧
  Happens .disciplineLoopLocked (fun a => a.ck.tb == .acquiring && a.loopUsable) Eff.disciplineLoopLocked

/-- Synthesiser locks and frequency ramps (R99, R100, R101, R102, R103, R111). Where the rules leave a point open, this is the model's choice: log entries 28, 108 and 109. -/
def Obligations.SynthesiserRows : Prop :=
  (∀ g : Nat, Happens (.synthBandSearchDone · (3 + g)) (fun a => decide (g ≤ 2) && (a.gen g).synth == .searching)
      (Eff.synthBandSearchDone g)) ∧
  (∀ n : Nat, Happens (.synthBandSearchDone · (1 + n)) (fun a => decide (n ≤ 1) && a.ck.sample n == .searching)
      (Eff.synthBandSearchDone2 n)) ∧
  (∀ g : Nat, Happens (.synthLockDetected · (3 + g)) (fun a => decide (1 ≤ g) && decide (g ≤ 2) &&
      (a.gen g).synth == .searching && (a.gen g).settling)
      (Eff.synthLockDetected g)) ∧
  Happens (.synthLockDetected · 3) (fun a => (a.gen 0).synth == .searching && (a.gen 0).settling)
    Eff.synthLockDetected2 ∧
  (∀ n : Nat, Happens (.synthLockDetected · (1 + n))
      (fun a => decide (n ≤ 1) && a.ck.sample n == .searching && a.ck.sampleSettling.contains n &&
        !a.isRetired ⟨14, 0, n⟩ && a.pw.tickRunning)
      (fun a => (a.setSample n .locked).sampleFirst)) ∧
  (∀ n : Nat, Happens (.synthLockDetected · (1 + n))
      (fun a => decide (n ≤ 1) && a.ck.sample n == .coasting && !a.isRetired ⟨14, 0, n⟩ && a.pw.tickRunning)
      (fun a => (a.setSample n .locked).sampleFirst)) ∧
  (∀ g : Nat, Happens (.synthLockLost · (3 + g)) (fun a => decide (g ≤ 2) && (a.gen g).synth == .locked)
      (Eff.synthLockLost g)) ∧
  (∀ g : Nat, Happens (.synthReacquireTimeout · (3 + g)) (fun a => decide (g ≤ 2) && (a.gen g).synth == .coasting)
      (Eff.synthReacquireTimeout g)) ∧
  (∀ lostLock : Bool, Happens (.sampleSynthFault · 0 lostLock)
      (fun a => !a.isRetired ⟨14, 0, 0⟩ && a.sparesLeft 14 0 != 0 && a.ck.primary == 0)
      Eff.sampleSynthFault) ∧
  (∀ (g f : Nat), Happens (.idleCoreLocked · g) (fun a => decide (g ≤ 2) && (a.gen g).nextFreq == some f)
      (Eff.idleCoreLocked g f)) ∧
  (∀ g : Nat, Happens (.idleCoreLocked · g)
      (fun a => decide (g ≤ 2) && (a.gen g).nextFreq == none && (a.gen g).ramp == .armed && (a.gen g).sched.mode == 0)
      (fun a => a.beginRamp g)) ∧
  (∀ g : Nat, Happens (.rampScheduledStart · g)
      (fun a => decide (g ≤ 2) && (a.gen g).ramp == .armed && (a.gen g).sched.mode != 0 && a.reached (a.gen g).sched)
      (fun a => a.beginRamp g)) ∧
  (∀ g : Nat, Happens (.rampUpdate · g) (fun a => decide (g ≤ 2) && (a.gen g).ramp == .running) (Eff.rampUpdate g)) ∧
  (∀ g : Nat, Happens (.rampSegmentEnd · g)
      (fun a => Cond.rampSegOver g a && decide ((a.gen g).seg + 1 < ((a.gen g).banks.get (a.gen g).bank {}).length))
      (Eff.rampSegmentEnd g)) ∧
  ∀ g : Nat, Happens (.rampProfileEnd · g)
      (fun a => Cond.rampSegOver g a && (a.gen g).seg + 1 == ((a.gen g).banks.get (a.gen g).bank {}).length &&
        ((a.gen g).banks.get (a.gen g).bank {}).rep == (a.gen g).reps + 1 &&
        decide ((a.gen g).segStart + (((a.gen g).banks.get (a.gen g).bank {}).segs.get (a.gen g).seg {}).dur * 128 / 5 ≤ a.now))
      (Eff.rampProfileEnd g)

/-- The INPUT verbs have the effect their rules give (R129, R130, R131, R132, R133, R134). Where the rules leave a point open, this is the model's choice: log entries 31, 92, 119, 120 and 121. -/
def Obligations.InputVerbsComplete : Prop :=
  Completes .inputSetRange 0x0301
    (fun c a => Cond.inputSetRange c a && u8 c.payload 1 == (a.input (u8 c.payload 0)).range) (fun c a => a.finish c .ok 0) ∧
  Completes .inputSetRange 0x0301
    (fun c a => Cond.inputSetRange c a && u8 c.payload 1 != (a.input (u8 c.payload 0)).range &&
      (a.input (u8 c.payload 0)).mode != .running)
    Eff.inputSetRange ∧
  Completes .inputSetRange 0x0301
    (fun c a => Cond.inputSetRange c a && u8 c.payload 1 != (a.input (u8 c.payload 0)).range &&
      (a.input (u8 c.payload 0)).mode == .running && u8 c.payload 2 == 0)
    Eff.inputSetRange2 ∧
  Completes .inputSetRange 0x0301
    (fun c a => Cond.inputSetRange c a && u8 c.payload 1 != (a.input (u8 c.payload 0)).range &&
      (a.input (u8 c.payload 0)).mode == .running && u8 c.payload 2 != 0)
    Eff.inputSetRange3 ∧
  (∀ temp : Nat, Completes (.inputGetStatus · · · temp) 0x0302 (fun c a => Cond.inputNamed c a && decide (128 ≤ c.room))
      (Eff.inputGetStatus temp)) ∧
  Completes .inputEnable 0x0303 Cond.inputEnable Eff.inputEnable ∧
  Completes .inputEnable 0x0303 (fun c a => Cond.inputToEnable c a && (a.input (u8 c.payload 0)).mode == .running)
    Eff.inputEnable2 ∧
  Completes .inputDisable 0x0304
    (fun c a => Cond.inputNamed c a && (a.input (u8 c.payload 0)).mode == .running && (a.inputConsumer (u8 c.payload 0) 0).isNone)
    Eff.inputDisable

/-- Range switches, slice rotation, slice failure and overrange (R117, R121, R122, R123, R126, R127, R128, R513). Where the rules leave a point open, this is the model's choice: log entries 11, 31 and 91. -/
def Obligations.InputRows : Prop :=
  (∀ (i r : Nat) (w : Sched),
    Happens (.inputRangeSwitch · i) (fun a => (a.input i).pending == some (r, w) && a.reached w)
      (Eff.inputRangeSwitch i r)) ∧
  (∀ i slice k : Nat, Happens (.rotationStep · i slice) (Cond.rotation i slice k) (Eff.rotationStep i slice k)) ∧
  (∀ i k j : Nat, Happens (.sliceHandoverComplete · i true) (Cond.handover i k j) (Eff.sliceHandoverComplete i k j)) ∧
  (∀ i k v since : Nat, Happens (.sliceFailure · i k since) (Cond.sliceFailure i k v) (Eff.sliceFailure i k v since)) ∧
  (∀ i k : Nat, Happens (.coldSpareReady · i) (fun a => (a.input i).inRole .coldSpare == some k)
      (Eff.coldSpareReady i k)) ∧
  (∀ (i n : Nat) (positive : Bool) (flips : List Nat) (protect : Bool),
    Happens (.inputOverdrive · i n positive flips protect)
      (fun a => Cond.overdrive i n (a.closeAll i) && (((a.closeAll i).input i).countRun (a.closeAll i).now).run.isNone &&
        (((a.closeAll i).input i).countRun (a.closeAll i).now).ovrOpen.isNone)
      (Eff.inputOverdrive i n positive flips protect)) ∧
  (∀ (i n : Nat) (positive : Bool) (flips : List Nat) (protect : Bool),
    Happens (.inputOverdrive · i n positive flips protect)
      (fun a => Cond.overdrive i n (a.closeAll i) && (((a.closeAll i).input i).countRun (a.closeAll i).now).run.isNone &&
        (((a.closeAll i).input i).countRun (a.closeAll i).now).ovrOpen.isSome)
      (Eff.inputOverdrive2 i n positive flips protect)) ∧
  (∀ (i n : Nat) (positive : Bool) (flips : List Nat) (r : OvrRun), Happens (.inputOverdrive · i n positive flips true)
      (fun a => Cond.overdrive i n (a.closeAll i) && (((a.closeAll i).input i).countRun (a.closeAll i).now).run == some r)
      (Eff.inputOverdrive3 i positive flips r)) ∧
  (∀ i : Nat, Happens (.protectionRelease · i) (fun a => (a.input i).protection) (Eff.protectionRelease i)) ∧
  (∀ i o : Nat, Happens (.overrangeIntervalClose · i)
      (fun a => Cond.ovrInterval i o a && ((a.input i).countRun (o + ticksPerUs)).ovrCount == 0)
      (Eff.overrangeIntervalClose i o)) ∧
  ∀ i o : Nat, Happens (.overrangeIntervalClose · i)
      (fun a => Cond.ovrInterval i o a && ((a.input i).countRun (o + ticksPerUs)).ovrCount != 0)
      (Eff.overrangeIntervalClose2 i o)

/-- The DDC verbs and the rows of the down-converters (R149, R151, R152, R153, R154, R155, R147, R148, R156). Where the rules leave a point open, this is the model's choice: log entries 29, 30, 31, 111, 120, 125 and 126. -/
def Obligations.DdcVerbsAndRows : Prop :=
  (Completes .ddcConfigure 0x0401 Cond.ddcConfigure Eff.ddcConfigure ∧
  Completes .ddcSetDelay 0x0402 (fun c a => Cond.ddcSetDelay c a && !(a.ddc (u8 c.payload 0)).running) Eff.ddcSetDelay ∧
  Completes .ddcSetDelay 0x0402
    (fun c a => Cond.ddcSetDelay c a && (a.ddc (u8 c.payload 0)).running && u8 c.payload 1 == 0)
    Eff.ddcSetDelay2 ∧
  Completes .ddcSetDelay 0x0402
    (fun c a => Cond.ddcSetDelay c a && (a.ddc (u8 c.payload 0)).running && u8 c.payload 1 != 0)
    Eff.ddcSetDelay3 ∧
  Completes .ddcEnable 0x0403 (fun c a => Cond.ddcEnable c a && u8 c.payload 1 == 0) Eff.ddcEnable ∧
  (∀ g : Nat, Completes .ddcEnable 0x0403 (fun c a => Cond.ddcEnable c a && u8 c.payload 1 != 0 &&
        a.startTick { mode := u8 c.payload 1, at_ := u64 c.payload 8 } == some g)
      (Eff.ddcEnable2 g)) ∧
  Completes .ddcEnable 0x0403 (fun c a => Cond.ddcToEnable c a && (a.ddc (u8 c.payload 0)).running) Eff.ddcEnable3 ∧
  Completes .ddcDisable 0x0404
    (fun c a => Cond.ddcNamed c a && (a.ddc (u8 c.payload 0)).running && (a.ddcConsumer (u8 c.payload 0) 0 true).isNone)
    Eff.ddcDisable ∧
  Completes .ddcDisable 0x0404 (fun c a => Cond.ddcNamed c a && !(a.ddc (u8 c.payload 0)).running)
    (fun c a => a.finish c .quiesced 0) ∧
  ∀ codes : List Int, Completes (.ddcGetStatus · · · codes) 0x0405
      (fun c a => Cond.ddcNamed c a && decide (64 ≤ c.room))
      (Eff.ddcGetStatus codes)) ∧
  (∀ (d : Nat) (i : Int) (f : Nat) (w : Sched), Happens (.ddcScheduledChange · d) (Cond.ddcDelay d i f w)
      (Eff.ddcScheduledChange d i f w)) ∧
  (∀ d g : Nat, Happens (.ddcScheduledChange · d)
      (fun a => decide (d ≤ 31) && (a.ddc d).starting == some g && decide (g ≤ a.now) &&
        !((a.ddcStart d g).ddc d).produced 0 a.now && (a.ddc d).delayNext == none)
      (fun a => a.ddcStart d g)) ∧
  (∀ d : Nat, Happens (.ddcScheduledChange · d)
      (fun a => decide (d ≤ 31) && (a.ddc d).starting == none && (a.ddc d).running && (a.ddc d).produced 0 a.now &&
        (a.ddc d).delayNext == none)
      (Eff.ddcScheduledChange2 d)) ∧
  (∀ d : Nat, Happens (.firstSettledOutput · d) (Cond.settled d) (Eff.firstSettledOutput d)) ∧
  (∀ i u d v : Nat, Happens (.ddcDatapathFault · i u) (Cond.ddcFails i u d v) (Eff.ddcDatapathFault i u d v)) ∧
  ∀ i u : Nat, Happens (.ddcDatapathFault · i u) (fun a => decide (i ≤ 3) && decide (u ≤ 8) && !a.isRetired ⟨2, i, u⟩ &&
        (span (8 * i) 8).all fun d => (a.ddc d).physical d != u)
      (fun a => a.faultIn ⟨2, i, u⟩ {})

/-- The PRESS verbs have the effect their rules give (R160, R167, R174, R177, R179, R180, R181, R182, R183, R184). Where the rules leave a point open, this is the model's choice: log entries 31, 33, 112 and 140. -/
def Obligations.PressVerbsComplete : Prop :=
  Completes .pressConfigure 0x0501 Cond.pressConfigure Eff.pressConfigure ∧
  Completes .pressConfigure 0x0501
    (fun c a => decide (u8 c.payload 0 ≤ 31) && Cond.pressFields c && u8 c.payload 1 == 1 &&
      a.press.jobs.has (u8 c.payload 0))
    Eff.pressConfigure2 ∧
  (∀ table : List Byte, Completes (.pressLoadWindow · · · table) 0x0502 Cond.pressWindow Eff.pressLoadWindow) ∧
  (∀ table : List Byte, Completes (.pressLoadWindow · · · table) 0x0502 (Cond.pressTable table)
      (Eff.pressLoadWindow2 table)) ∧
  (∀ table : List Byte, Completes (.pressLoadPfb · · · table) 0x0503 (Cond.pressPfb table) (Eff.pressLoadPfb table)) ∧
  (∀ table : List Byte, Completes (.pressLoadPfb · · · table) 0x0503
      (fun c a => decide (u8 c.payload 0 ≤ 31) && u8 c.payload 1 == 2 && zeros c.payload 2 2 && zeros c.payload 16 8 &&
        a.press.jobs.has (u8 c.payload 0) && (a.job (u8 c.payload 0)).kind == 1 &&
        (a.job (u8 c.payload 0)).mode == .configured)
      Eff.pressLoadPfb2) ∧
  Completes .pressMapChannels 0x0504 Cond.pressMap Eff.pressMapChannels ∧
  (∀ g : Nat, Completes .pressEnable 0x0505 (Cond.pressEnable g) (Eff.pressEnable g)) ∧
  Completes .pressEnable 0x0505
    (fun c a => decide (u8 c.payload 0 ≤ 31) && decide (u8 c.payload 1 ≤ 2) && zeros c.payload 2 6 &&
      a.press.jobs.has (u8 c.payload 0) && (a.job (u8 c.payload 0)).mode == .running)
    Eff.pressEnable2 ∧
  Completes .pressDisable 0x0506 Cond.pressDisable Eff.pressDisable ∧
  Completes .pressDisable 0x0506
    (fun c a => decide (u8 c.payload 0 ≤ 31) && decide (u8 c.payload 1 ≤ 1) && zeros c.payload 2 2 &&
      !a.press.jobs.has (u8 c.payload 0))
    (fun c a => a.finish c .quiesced 0)

/-- Frames leave with their tags and a failed pipeline is replaced (R163, R165, R174, R176). Where the rules leave a point open, this is the model's choice: log entries 11, 31, 112 and 140. -/
def Obligations.PressRows : Prop :=
  (∀ (job : Nat) (codes : List Int), Happens (.pressFrameRelease · job () () () codes) (Cond.frameDue job codes)
      (Eff.pressFrameRelease job codes)) ∧
  (∀ (job : Nat) (codes : List Int), Happens (.pressFrameRelease · job () () () codes) (Cond.lastFrame job codes)
      (Eff.pressFrameRelease2 job codes)) ∧
  (∀ (a : State) (job k : Nat) (codes : List Int),
    let x := a.job job
    let f := a.makeFrame job k codes
    f.tag.job = job ∧ f.tag.index = k ∧ f.tag.tick = x.origin + k * (x.hop * a.pressTs x) ∧ f.tag.bins = x.bins ∧
      (x.deadAt k = true → f.tag.unsettled = true ∧
        f.values = (List.replicate x.bins (0, 0)).flatMap (binBytes x.format 1 f.tag.exponent))) ∧
  (∀ u : Nat, Happens (.pressPipelineFault · u)
      (fun a => decide (u ≤ 8) && !a.isRetired ⟨3, 0, u⟩ && a.press.spare == some u)
      (Eff.pressPipelineFault u)) ∧
  ∀ u v : Nat, Happens (.pressPipelineFault · u)
      (fun a => decide (u ≤ 8) && !a.isRetired ⟨3, 0, u⟩ && a.press.spare == some v && u != v && a.sparesLeft 3 0 != 0)
      (Eff.pressPipelineFault2 u v)

/-- The SPEC verbs have the effect their rules give (R193, R199, R200, R201, R203, R204, R205, R206, R207, R208, R209, R210). Where the rules leave a point open, this is the model's choice: log entries 37, 38 and 39. -/
def Obligations.SpecVerbsComplete : Prop :=
  Completes .specConfigureDetector 0x0601 Cond.specDetector Eff.specConfigureDetector ∧
  Completes .specConfigureDensity 0x0602 Cond.specDensity Eff.specConfigureDensity ∧
  Completes .specClearDensity 0x0603 (fun c a => decide (u8 c.payload 0 ≤ 15) && zeros c.payload 1 3 &&
      ((maskBits 4 (u8 c.payload 0)).filter fun p => (a.plane p).enabled).isEmpty)
    (fun c a => a.finish c .ok 0) ∧
  Completes .specClearDensity 0x0603 (fun c a => decide (u8 c.payload 0 ≤ 15) && zeros c.payload 1 3 &&
      !((maskBits 4 (u8 c.payload 0)).filter fun p => (a.plane p).enabled).isEmpty)
    Eff.specClearDensity ∧
  Completes .specReadTrace 0x0604
    (fun c a => Cond.readTrace c a && Cond.readTo false (a.traceBytes (u32 c.payload 4)).1.length c a)
    Eff.specReadTrace ∧
  Completes .specReadTrace 0x0604
    (fun c a => Cond.readTrace c a && Cond.readTo true (a.traceBytes (u32 c.payload 4)).1.length c (a.traceBytes (u32 c.payload 4)).2)
    Eff.specReadTrace2 ∧
  Completes .specReadTrace 0x0604 (fun c a => Cond.readPlane c a && Cond.readTo false (Cond.rectangle c a).length c a)
    Eff.specReadTrace3 ∧
  Completes .specReadTrace 0x0604 (fun c a =>
      let n := u32 c.payload 4
      Cond.readPlane c a && Cond.readTo true (Cond.rectangle c a).length c
        (if (a.plane n).enabled then a.setPlane n (a.decayed n) else a))
    Eff.specReadTrace4 ∧
  Completes .specPeakSearch 0x0605 Cond.peakSearch Eff.specPeakSearch ∧
  Completes .specPeakSearch 0x0605
    (fun c _ => decide (u8 c.payload 0 ≤ 63) && u8 c.payload 1 == 1 && zeros c.payload 12 4)
    Eff.specPeakSearch2 ∧
  Completes .specPeakSearch 0x0605
    (fun c a => decide (u8 c.payload 0 ≤ 63) && u8 c.payload 1 == 2 && zeros c.payload 12 4 && decide (528 ≤ c.room) &&
      decide (((a.trace (u8 c.payload 0)).peakBytes (u8 c.payload 0)).length ≤ c.room))
    Eff.specPeakSearch3 ∧
  Completes .specEnable 0x0606 Cond.enableTrace Eff.specEnable ∧
  Completes .specEnable 0x0606 Cond.enablePlane Eff.specEnable2 ∧
  Completes .specDisable 0x0607 Cond.specDisable Eff.specDisable

/-- Spectra reach their traces and planes, integrations end and planes decay (R186, R189, R190, R192, R198, R199, R206). Where the rules leave a point open, this is the model's choice: log entries 11, 36, 39 and 40. -/
def Obligations.SpecRows : Prop :=
  (∀ (job : Nat) (f : PressFrame) (rest : List PressFrame),
    Happens (.spectrumAccept · job ()) (fun a => (a.job job).queue == f :: rest && a.readyBit 13)
      (Eff.spectrumAccept job f rest)) ∧
  (∀ n : Nat, Happens (.integrationEnd · n) (fun a => (a.trace n).full) (Eff.integrationEnd n)) ∧
  (∀ n : Nat, Happens (.integrationEnd · n) (fun a => !(a.trace n).full) (fun a => a)) ∧
  (∀ p : Nat, Happens (.decayBoundary · p) (fun a => (a.plane p).enabled) (Eff.decayBoundary p)) ∧
  ∀ (p : Nat) (f : PressFrame) (rest : List PressFrame), Happens (.densityClearApply · p)
      (fun a => (a.plane p).enabled && (a.job (a.plane p).job).queue == f :: rest)
      (Eff.densityClearApply p f)

/-- The TRIG verbs have the effect their rules give (R213, R221, R225, R227, R228, R229, R230, R231, R232, R233). Where the rules leave a point open, this is the model's choice: log entries 43 and 113. -/
def Obligations.TrigVerbsComplete : Prop :=
  Completes .trigConfigure 0x0701 Cond.trigConfigure Eff.trigConfigure ∧
  (∀ table : List Byte, Completes (.trigLoadMask · · · table) 0x0702 (Cond.trigLoadMask table)
      (Eff.trigLoadMask table)) ∧
  Completes .trigRoute 0x0703 (fun c _ => Cond.trigRoute c) Eff.trigRoute ∧
  Completes .trigArm 0x0704 (fun c a => Cond.trigArm c a && u8 c.payload 2 == 0) Eff.trigArm ∧
  Completes .trigArm 0x0704 (fun c a => Cond.trigArm c a && u8 c.payload 2 != 0) Eff.trigArm2 ∧
  Completes .trigArm 0x0704 (fun c a => Cond.trigArmFields c && (a.tunit (u8 c.payload 0)).inService) Eff.trigArm3 ∧
  Completes .trigDisarm 0x0705
    (fun c a => Cond.trigDisarm c a && !(a.trig.pulse.isSome && a.trig.drivers == [u8 c.payload 0]))
    Eff.trigDisarm ∧
  Completes .trigDisarm 0x0705
    (fun c a => Cond.trigDisarm c a && a.trig.pulse.isSome && a.trig.drivers == [u8 c.payload 0])
    Eff.trigDisarm2 ∧
  Completes .trigForce 0x0706 (fun c a => Cond.trigNamed c && (a.tunit (u8 c.payload 0)).inService)
    (fun c a => a.markStarted c 0 []) ∧
  Completes .trigGetStatus 0x0707 (fun c _ => Cond.trigNamed c && decide (64 ≤ c.room)) Eff.trigGetStatus

/-- Conditions become decisions, and decisions reach their targets (R213, R215, R219, R220, R221, R222, R223). Where the rules leave a point open, this is the model's choice: log entries 41 and 42. -/
def Obligations.TrigDecisions : Prop :=
  (∀ (u : Nat) (xs : List Sample), Happens (.triggerDecision · u xs ()) (Cond.samples u) (Eff.triggerDecision u xs)) ∧
  (∀ (u : Nat) (xs : List Sample), Happens (.triggerDecision · u xs ()) (Cond.frames u) (Eff.triggerDecision2 u)) ∧
  (∀ u : Nat, Happens (fun t => .triggerDecision t u [] ()) (Cond.sequence u) (fun a => a.sequenceTry u)) ∧
  (∀ (a : State) (u : Nat) (c : TrigCond), (a.tunit u).waiting = true → (a.tunit u).count ≤ (a.tunit u).progress + 1 →
    a.condition u c = if (a.decideOne u c false).2 then (a.decideOne u c false).1.sequences [(u, c)]
      else (a.decideOne u c false).1) ∧
  (∀ (a : State) (u : Nat) (c : TrigCond), (a.tunit u).waiting = true → (a.tunit u).progress + 1 < (a.tunit u).count →
    a.condition u c = a.setTunit u { a.tunit u with progress := (a.tunit u).progress + 1 }) ∧
  (∀ (a : State) (u : Nat) (c : TrigCond), (a.tunit u).mode = .armed → (a.tunit u).dead.isSome = true →
    a.condition u c = a.setTunit u { a.tunit u with missed := satAdd 64 (a.tunit u).missed 1 }) ∧
  (∀ (a : State) (u : Nat) (c : TrigCond), (a.tunit u).mode = .holdoff → a.condition u c = a.setTunit u { a.tunit u with
      missed := satAdd 64 (a.tunit u).missed 1, heldOff := (a.tunit u).heldOff + 1 }) ∧
  (∀ rising : Bool, Happens (.trigInEdge · rising) (fun _ => true) (Eff.trigInEdge rising)) ∧
  (∀ (u : Nat) (c : Cmd), Happens (.forcedDecision · u) (fun a => Cond.forced u c a && !(a.tunit u).inService)
      (fun a => a.finish c .badState 0)) ∧
  (∀ (u : Nat) (c : Cmd), Happens (.forcedDecision · u)
      (fun a => Cond.forced u c a && (a.tunit u).inService && (a.decideOne u { at_ := a.now * 65536 } true).2)
      (Eff.forcedDecision u c)) ∧
  (∀ (u : Nat) (c : Cmd), Happens (.forcedDecision · u)
      (fun a => Cond.forced u c a && (a.tunit u).inService && !(a.decideOne u { at_ := a.now * 65536 } true).2)
      (Eff.forcedDecision2 u c)) ∧
  ∀ u : Nat, Happens (.forcedDecision · u)
      (fun a => (a.forceCmd u).isNone && a.trig.kernelForces.contains u && (a.tunit u).inService &&
        !((a.tunit u).mode == .armed && (a.tunit u).dead.isSome))
      (Eff.forcedDecision3 u)

/-- Units re-arm, wait, expire and report, and voters fail (R218, R220, R222, R223, R225, R231, R232, R234, R513). Where the rules leave a point open, this is the model's choice: log entries 41, 43 and 127. -/
def Obligations.TrigRows : Prop :=
  (∀ u d : Nat, Happens (.unitRearm · u)
      (fun a => (a.tunit u).mode == .armed && (a.tunit u).dead == some d && decide (d + 32 ≤ a.now))
      (Eff.unitRearm u d)) ∧
  (∀ u d : Nat, Happens (.holdoffEnd · u)
      (fun a => (a.tunit u).mode == .holdoff && !(a.tunit u).byCount && (a.tunit u).dead == some d &&
        decide (d + (a.tunit u).holdoff ≤ a.now))
      (fun a => a.setTunit u ((a.tunit u).rearm a.now))) ∧
  (∀ u : Nat, Happens (.holdoffEnd · u)
      (fun a => (a.tunit u).mode == .holdoff && (a.tunit u).byCount && decide ((a.tunit u).holdoff ≤ (a.tunit u).heldOff))
      (fun a => a.setTunit u ((a.tunit u).rearm a.now))) ∧
  (∀ (u : Nat) (c : TrigCond), Happens (.sequencePendingExpiry · u)
      (fun a => (a.tunit u).pendingA == some c && decide (c.at_ + (a.tunit u).timeMax * 65536 < a.now * 65536))
      (Eff.sequencePendingExpiry u)) ∧
  (∀ (u mode target : Nat) (ev : Bool) (w : Sched),
    Happens (.trigScheduledArm · u) (fun a => (a.tunit u).sched == some (mode, target, ev, w) && a.reached w)
      (Eff.trigScheduledArm u mode target ev)) ∧
  (∀ e : Nat, Happens .trigOutPulseEnd (fun a => a.trig.pulse == some e && decide (e ≤ a.now)) Eff.trigOutPulseEnd) ∧
  (∀ v : Nat, Happens (.voterDisagreement · v)
      (fun a => decide (v ≤ 2) && !a.isRetired ⟨5, 0, v⟩ && !a.trig.ended && a.sparesLeft 5 0 != 0)
      (Eff.voterDisagreement v)) ∧
  (∀ v : Nat, Happens (.voterDisagreement · v)
      (fun a => decide (v ≤ 2) && !a.isRetired ⟨5, 0, v⟩ && !a.trig.ended && a.sparesLeft 5 0 == 0 && !a.trig.split)
      (Eff.voterDisagreement2 v)) ∧
  (∀ v : Nat, Happens (.voterDisagreement · v)
      (fun a => decide (v ≤ 2) && !a.isRetired ⟨5, 0, v⟩ && !a.trig.ended && a.sparesLeft 5 0 == 0 && a.trig.split)
      (Eff.voterDisagreement3 v)) ∧
  (∀ u o : Nat, Happens (.triggerEventIntervalClose · u) (fun a => Cond.evInterval u o a && (a.tunit u).evCount == 0)
      (Eff.triggerEventIntervalClose u)) ∧
  ∀ u o : Nat, Happens (.triggerEventIntervalClose · u) (fun a => Cond.evInterval u o a && (a.tunit u).evCount != 0)
      (Eff.triggerEventIntervalClose2 u o)

/-- The ACQ verbs have the effect their rules give (R244, R245, R248, R249, R250, R252, R253, R254, R255, R256). Where the rules leave a point open, this is the model's choice: log entries 44 and 45. -/
def Obligations.AcqVerbsComplete : Prop :=
  Completes .acqCreateContext 0x0801 Cond.createContext Eff.acqCreateContext ∧
  Completes .acqArm 0x0802
    (fun c a => Cond.acqArm c a && (Cond.acqGranted (u16 c.payload 0) a).isSome && u8 c.payload 2 == 0 &&
      (((Cond.acqGranted (u16 c.payload 0) a).getD a).acqStartRecord (u16 c.payload 0)).armedNow (u16 c.payload 0))
    Eff.acqArm ∧
  Completes .acqArm 0x0802
    (fun c a => Cond.acqArm c a && (Cond.acqGranted (u16 c.payload 0) a).isSome && u8 c.payload 2 == 0 &&
      !(((Cond.acqGranted (u16 c.payload 0) a).getD a).acqStartRecord (u16 c.payload 0)).armedNow (u16 c.payload 0))
    Eff.acqArm2 ∧
  Completes .acqArm 0x0802
    (fun c a => Cond.acqArm c a && (Cond.acqGranted (u16 c.payload 0) a).isSome && u8 c.payload 2 != 0)
    Eff.acqArm3 ∧
  Completes .acqArm 0x0802 (fun c a => Cond.acqArm c a && (Cond.acqGranted (u16 c.payload 0) a).isNone)
    (fun c a => a.finish c .noAllotment 0) ∧
  Completes .acqArm 0x0802
    (fun c a => Cond.acqArmFields c && a.ctxs.has (u16 c.payload 0) && (a.ctx (u16 c.payload 0)).mode.active)
    Eff.acqArm4 ∧
  Completes .acqStop 0x0803 (fun c a => Cond.acqStop c a && Cond.inSegment (u16 c.payload 0) a) Eff.acqStop ∧
  Completes .acqStop 0x0803 (fun c a => Cond.acqStop c a && (a.ctx (u16 c.payload 0)).mode == .quiescing)
    (fun c a => a.markStarted c 0 []) ∧
  Completes .acqStop 0x0803 (fun c a => Cond.acqStopActive c a && Cond.flowHolds (u16 c.payload 0) a) Eff.acqStop2 ∧
  Completes .acqStop 0x0803 (fun c a => Cond.acqStopActive c a && !Cond.flowHolds (u16 c.payload 0) a) Eff.acqStop3 ∧
  Completes .acqStop 0x0803 (fun c a => Cond.acqStop c a && !(a.ctx (u16 c.payload 0)).mode.counts) Eff.acqStop4 ∧
  Completes .acqDestroy 0x0804 (fun c a => Cond.acqStop c a && Cond.inSegment (u16 c.payload 0) a) Eff.acqDestroy ∧
  Completes .acqDestroy 0x0804 (fun c a => Cond.acqStop c a && (a.ctx (u16 c.payload 0)).mode == .quiescing)
    (fun c a => a.markStarted c 0 []) ∧
  Completes .acqDestroy 0x0804 (fun c a => Cond.acqStopActive c a && Cond.flowHolds (u16 c.payload 0) a)
    Eff.acqDestroy2 ∧
  Completes .acqDestroy 0x0804 (fun c a => Cond.acqStopActive c a && !Cond.flowHolds (u16 c.payload 0) a)
    Eff.acqDestroy3 ∧
  Completes .acqDestroy 0x0804 (fun c a => Cond.acqStop c a && !(a.ctx (u16 c.payload 0)).mode.counts) Eff.acqDestroy4 ∧
  (∀ table : List Byte, Completes (.acqLoadTestMask · · · table) 0x0805 (Cond.testMask table)
      (Eff.acqLoadTestMask table)) ∧
  (∀ table : List Byte, Completes (.acqLoadTestMask · · · table) 0x0805
      (fun c a => decide (u16 c.payload 0 ≤ 4095) && u8 c.payload 2 == 0 && zeros c.payload 12 4 &&
        a.ctxs.has (u16 c.payload 0) && !(a.ctx (u16 c.payload 0)).mode.active)
      Eff.acqLoadTestMask2) ∧
  Completes .acqGetStatus 0x0806
    (fun c a => decide (u16 c.payload 0 ≤ 4095) && zeros c.payload 2 2 && a.ctxs.has (u16 c.payload 0) && decide (96 ≤ c.room))
    Eff.acqGetStatus

/-- Segments, triggers and the other rows of the acquisition contexts (R238, R239, R240, R242, R243, R246, R247, R251, R249, R250, R253, R257). Where the rules leave a point open, this is the model's choice: log entries 11, 44, 45, 65, 91 and 111. -/
def Obligations.AcqSegmentsAndRows : Prop :=
  ((∀ n : Nat, Happens (.ringFilled · n) (fun a => a.ringThere (a.ctx n) && (a.ctx n).mode == .filling)
      (Eff.ringFilled n)) ∧
  (∀ n : Nat, Happens (.ringFilled · n) (fun a => a.ringThere (a.ctx n) && (a.ctx n).mode == .held)
      (Eff.ringFilled2 n)) ∧
  (∀ n : Nat, Happens (.segmentTrigger · n) (fun a => (a.ctx n).mode == .armed && (a.ctx n).pending.isSome)
      (Eff.segmentTrigger n)) ∧
  (∀ (a : State) (n place : Nat) (es : List Element), (a.ctx n).flow = none → (a.acqGrid (a.ctx n)).isSome = true →
    let first := (es.head?.map Element.stamp).getD {}
    let last := (es.getLast?.map Element.stamp).getD
      { tick := (a.ctx n).startStamp / 65536, fine := (a.ctx n).startStamp % 65536 }
    let ends : Stamp := { last with tick := a.lift last.tick + a.acqPeriod (a.ctx n) }
    let m := a.lostGaps n es ends.tick
    let x := m.ctx n
    let kept := ((List.zip (List.range es.length) es).filter fun e => !x.unstored e.1).map Prod.snd
    let start : Stamp := match x.trigger with
      | some (_, d, _) => { tick := d.at_ / 65536, fine := d.at_ % 65536 }
      | none => first
    let gone := min (place + es.length - x.pre - x.dropped) x.recent.length
    let y : Ctx := { x with prov := m.provisionalAt start.tick, recent := x.recent.drop gone, dropped := x.dropped + gone }
    let fail := x.test.any fun q => (List.zip (List.range es.length) (es.map Element.bytes)).any fun e =>
      !x.unstored e.1 && m.elementFails y q e.1 e.2
    let dead := if x.start = 2 && x.wasHeld then x.prevEnd.elim 0 fun e => m.lift first.tick - e.tick else x.dead
    let base := x.region + x.ring + x.index % x.segments * x.slot
    let head := y.header n first (x.pre != 0 && x.trigger.isSome && x.prevNext.any fun e => decide (place < e)) es.length
      (min (firstSettled es) es.length) (bit (kept.any Element.ovr || x.trigger.any fun e => e.2.1.ovr))
      (bit (kept.any Element.unsettled || x.trigger.any fun e => e.2.1.unsettled)) (bit fail) dead
    let b := m.keepCellar ((writeElements y m.cellarMem (base + 64) 0 (es.map Element.bytes)).writeBytes base head)
    a.segmentStore n place es = (b.keepCellar (b.ringAfter y place es b.cellarMem), { y with
         index := x.index + 1, prevEnd := some ends
         prevNext := some (place + es.length), gaps := [], listFull := false, trigger := none
         deadSum := satAdd 64 x.deadSum dead, dead := 0, wasHeld := false, lastTrigger := start
         maskFails := satAdd 64 x.maskFails (bit fail), segPending := x.segPending + 1, segFail := x.segFail || fail },
       fail)) ∧
  (∀ (n : Nat) (codes : List Int) (r : State × Ctx × Bool), Happens (.segmentEnd · n () () () () () codes)
      (fun a => Cond.segmentKept n codes a == some r && r.2.1.mode != .quiescing && !(r.2.2 && r.2.1.stopOnViolation) &&
        (r.2.1.wrap || decide (r.2.1.index < r.2.1.segments)))
      (Eff.segmentEnd n r)) ∧
  (∀ (n : Nat) (codes : List Int) (r : State × Ctx × Bool), Happens (.segmentEnd · n () () () () () codes)
      (fun a => Cond.segmentKept n codes a == some r && r.2.1.mode != .quiescing && !(r.2.2 && r.2.1.stopOnViolation) &&
        !r.2.1.wrap && decide (r.2.1.segments ≤ r.2.1.index))
      (Eff.segmentEnd2 n r)) ∧
  (∀ (n : Nat) (codes : List Int) (r : State × Ctx × Bool), Happens (.segmentEnd · n () () () () () codes)
      (fun a => Cond.segmentKept n codes a == some r && r.2.1.mode != .quiescing && r.2.2 && r.2.1.stopOnViolation)
      (Eff.segmentEnd3 n r)) ∧
  (∀ (n : Nat) (codes : List Int) (r : State × Ctx × Bool), Happens (.segmentEnd · n () () () () () codes)
      (fun a => Cond.segmentKept n codes a == some r && r.2.1.mode == .quiescing && r.2.1.flow.isNone)
      (Eff.segmentEnd4 n r)) ∧
  (∀ (n : Nat) (codes : List Int) (r : State × Ctx × Bool), Happens (.segmentEnd · n () () () () () codes)
      (fun a => Cond.segmentKept n codes a == some r && r.2.1.mode == .quiescing && r.2.1.flow.isSome)
      (Eff.segmentEnd5 n r)) ∧
  (∀ n : Nat, Happens (.contextRearm · n) (fun a => Cond.rearmDue n a && (a.ctx n).hold) (Eff.contextRearm n)) ∧
  (∀ n : Nat, Happens (.contextRearm · n)
      (fun a => Cond.rearmDue n a && !(a.ctx n).hold && (a.ctx n).start == 0 && (a.ctx n).ringFull)
      (Eff.contextRearm2 n)) ∧
  (∀ n : Nat, Happens (.contextRearm · n)
      (fun a => Cond.rearmDue n a && !(a.ctx n).hold && (a.ctx n).start == 0 && !(a.ctx n).ringFull)
      (Eff.contextRearm3 n)) ∧
  (∀ n : Nat, Happens (.contextRearm · n) (fun a => Cond.rearmDue n a && !(a.ctx n).hold && (a.ctx n).start != 0)
      (Eff.contextRearm4 n)) ∧
  (∀ n k : Nat, Happens (.contextRearm · n) (fun a => !Cond.rearmDue n a && a.elementZero (a.ctx n) == some k)
      (Eff.contextRearm5 n k))) ∧
  (∀ (n cause el count : Nat) (g : GapEntry), Happens (.gapBegin · n cause el () () count)
      (fun a => Cond.storing n a && Cond.gapAt n (Cond.segmentZero n a + el) cause count a &&
        a.gapIn (a.ctx n) (Cond.segmentZero n a) (a.ctx n).length (Cond.gapRun (Cond.segmentZero n a + el) cause count) == some g)
      (Eff.gapBegin n cause el count g)) ∧
  (∀ n cause el count : Nat, Happens (.gapBegin · n cause el () () count)
      (fun a => !Cond.storing n a && (a.ctx n).mode.active && Cond.gapAt n el cause count a)
      (Eff.gapBegin2 n cause el count)) ∧
  (∀ n f o : Nat, Happens (.stagingDrainTimeout · n () () () ()) (Cond.drainOver n f o) (Eff.stagingDrainTimeout n f)) ∧
  (∀ (n : Nat) (w : Sched), Happens (.acqScheduledArm · n) (fun a => Cond.acqDue n w a && (Cond.acqGranted n a).isSome)
      (Eff.acqScheduledArm n)) ∧
  (∀ (n : Nat) (w : Sched) (e : Status × Nat), Happens (.acqScheduledArm · n) (Cond.acqLacks n w e)
      (Eff.acqScheduledArm2 n e)) ∧
  (∀ n o : Nat, Happens (.segmentEventIntervalClose · n) (fun a => Cond.segInterval n o a && (a.ctx n).segPending == 0)
      (Eff.segmentEventIntervalClose n)) ∧
  (∀ n o : Nat, Happens (.segmentEventIntervalClose · n) (fun a => Cond.segInterval n o a && (a.ctx n).segPending != 0)
      (Eff.segmentEventIntervalClose2 n o)) ∧
  (∀ n o : Nat, Happens (.gapEventIntervalClose · n) (fun a => Cond.gapInterval n o a && (a.ctx n).gapPending == 0)
      (Eff.gapEventIntervalClose n)) ∧
  (∀ n o : Nat, Happens (.gapEventIntervalClose · n) (fun a => Cond.gapInterval n o a && (a.ctx n).gapPending != 0)
      (Eff.gapEventIntervalClose2 n o)) ∧
  ∀ n : Nat, Happens (.contextStateRebuild · n) (fun _ => true) (fun a => a.faultWord n)

/-- The SORREL verbs have the effect their rules give (R271, R276, R278, R279, R280, R281, R282, R283, R284). Where the rules leave a point open, this is the model's choice: log entries 48, 49 and 128. -/
def Obligations.SorrelVerbsComplete : Prop :=
  (∀ image : List Byte, Completes (.sorrelLoadKernel · · · image) 0x0901 (Cond.loadKernel image)
      (Eff.sorrelLoadKernel image)) ∧
  Completes .sorrelBind 0x0904 (fun c a => Cond.bindInput c a || Cond.bindOther c a) Eff.sorrelBind ∧
  Completes .sorrelStart 0x0902 (fun c a => Cond.sorrelStart c a && u8 c.payload 1 == 0) Eff.sorrelStart ∧
  Completes .sorrelStart 0x0902 (fun c a => Cond.sorrelStart c a && u8 c.payload 1 != 0) Eff.sorrelStart2 ∧
  Completes .sorrelStart 0x0902
    (fun c a => c.payload.length == 16 + u16 c.payload 2 && decide (u8 c.payload 0 ≤ 63) && decide (u8 c.payload 1 ≤ 2) &&
      decide (u16 c.payload 2 ≤ 256) && zeros c.payload 4 4 && !(a.core (u8 c.payload 0)).lent &&
      (a.core (u8 c.payload 0)).mode == .running)
    Eff.sorrelStart3 ∧
  Completes .sorrelStop 0x0903 (fun c a => Cond.sorrelStop c a && u8 c.payload 1 == 0) Eff.sorrelStop ∧
  Completes .sorrelStop 0x0903 (fun c a => Cond.sorrelStop c a && u8 c.payload 1 == 1) Eff.sorrelStop2 ∧
  Completes .sorrelStop 0x0903 (fun c a => Cond.stopFields c a && (a.core (u8 c.payload 0)).mode != .running)
    (fun c a => a.finish c .quiesced 0) ∧
  Completes .sorrelGetStatus 0x0905
    (fun c a => decide (u8 c.payload 0 ≤ 63) && zeros c.payload 1 3 && !(a.core (u8 c.payload 0)).lent && decide (96 ≤ c.room))
    Eff.sorrelGetStatus

/-- Blocks arrive, activations pause, forces are made and cores fail (R259, R273, R275, R276, R277, R282, R520). Where the rules leave a point open, this is the model's choice: log entries 48, 111 and 128. -/
def Obligations.SorrelRows : Prop :=
  (∀ (n port index : Nat) (mapped : Bool) (codes : List Int) (b : InBlock),
    Happens (.inputBlockArrival · n port index mapped () () () codes)
      (fun a => Cond.bound n port a && Cond.inputBlock n port index mapped codes a == some b &&
        decide ((Cond.taken n port a).ringBytes + b.bytes.length ≤ (a.ringOf (a.core n) port).2))
      (Eff.inputBlockArrival n port b)) ∧
  (∀ (n port index : Nat) (mapped : Bool) (codes : List Int) (b : InBlock),
    Happens (.inputBlockArrival · n port index mapped () () () codes)
      (fun a => Cond.bound n port a && Cond.inputBlock n port index mapped codes a == some b &&
        decide ((a.ringOf (a.core n) port).2 < (Cond.taken n port a).ringBytes + b.bytes.length))
      (Eff.inputBlockArrival2 n port)) ∧
  (∀ n : Nat, Happens (.activationCreditExhausted · n)
      (fun a => (a.core n).mode == .running && decide ((a.core n).k.maxCycles ≤ (a.core n).cycles a.now))
      (Eff.activationCreditExhausted n)) ∧
  (∀ (n u : Nat) (rest : List Nat),
    Happens (.sorrelForceMessage · n) (fun a => (a.core n).forces == u :: rest && Cond.mayForce n u a)
      (Eff.sorrelForceMessage n u rest)) ∧
  (∀ (n u : Nat) (rest : List Nat), Happens (.sorrelForceMessage · n)
      (fun a => (a.core n).forces == u :: rest && !Cond.mayForce n u a)
      (Eff.sorrelForceMessage2 n rest)) ∧
  (∀ u : Nat, Happens (.coreFault · u false)
      (fun a => decide (u ≤ 67) && !a.isRetired ⟨4, 0, u⟩ && ((List.range 64).find? fun c =>
        (a.core c).physical c == u && !(a.core c).lent && !(a.core c).dead).isNone)
      (fun a => a.faultIn ⟨4, 0, u⟩ {})) ∧
  (∀ u c v : Nat, Happens (.coreFault · u false)
      (fun a => Cond.failsUnder u c a && Cond.spareFor u a == some v && a.sparesLeft 4 0 != 0)
      (Eff.coreFault u c v)) ∧
  (∀ u : Nat, Happens (.coreFault · u true) (fun _ => true) (Eff.coreFault2 u)) ∧
  ∀ (n : Nat) (w : Sched) (params : List Byte),
    Happens (.sorrelScheduledStart · n) (fun a => (a.core n).sched == some (w, params) && a.reached w)
      (Eff.sorrelScheduledStart n w params)

/-- Scalar and memory instructions of a Sorrel core (R260, R263, R264, R265, R261, R262). Where the rules leave a point open, this is the model's choice: log entries 5, 37 and 46. -/
def Obligations.ScalarAndMemoryInstructions : Prop :=
  (Cond.Runs .isaAdd 0 0 (Cond.scalar fun p q _ => p + q) ∧
  Cond.Runs .isaSub 0 1 (Cond.scalar fun p q _ => p + 2 ^ 32 - q) ∧
  Cond.Runs .isaAnd 0 2 (Cond.scalar fun p q _ => p &&& q) ∧
  Cond.Runs .isaOr 0 3 (Cond.scalar fun p q _ => p ||| q) ∧
  Cond.Runs .isaXor 0 4 (Cond.scalar fun p q _ => p ^^^ q) ∧
  Cond.Runs .isaShl 0 5 (Cond.scalar fun p q free => if q < 32 then p * 2 ^ q else free) ∧
  Cond.Runs .isaShra 0 6 (Cond.scalar fun p q free => if q < 32 then unsign 32 (signed 32 p / (2 ^ q : Int)) else free) ∧
  Cond.Runs .isaShrl 0 7 (Cond.scalar fun p q free => if q < 32 then p / 2 ^ q else free) ∧
  Cond.Runs .isaMul 0 8 (Cond.scalar fun p q _ => p * q) ∧
  Cond.Runs .isaMulh 0 9 (Cond.scalar fun p q _ => unsign 32 (signed 32 p * signed 32 q / (2 ^ 32 : Int))) ∧
  Cond.Runs .isaMin 0 10 (Cond.scalar fun p q _ => unsign 32 (min (signed 32 p) (signed 32 q))) ∧
  Cond.Runs .isaMax 0 11 (Cond.scalar fun p q _ => unsign 32 (max (signed 32 p) (signed 32 q))) ∧
  Cond.Runs .isaCmpeq 0 12 (Cond.scalar fun p q _ => if p = q then 1 else 0) ∧
  Cond.Runs .isaCmplt 0 13 (Cond.scalar fun p q _ => if signed 32 p < signed 32 q then 1 else 0) ∧
  Cond.Runs .isaCmpltu 0 14 (Cond.scalar fun p q _ => if p < q then 1 else 0) ∧
  Cond.Runs .isaLi 0 15 (fun w _ x => some (x.setS (bits w 53 49) (bits w 31 0))) ∧
  (∀ core : Nat,
    Happens (.isaMfs · core) (fun a => Cond.issues core 0 16 a && decide (bits (Cond.issuing core a).word 31 0 ≤ 7))
      (Eff.isaMfs core)) ∧
  ∀ core : Nat,
    Happens (.isaMts · core) (fun a => Cond.issues core 0 17 a && decide (bits (Cond.issuing core a).word 31 0 ≤ 7))
      (Eff.isaMts core)) ∧
  Cond.Runs .isaLds 1 0 (Cond.load 4 4 (fun w b y => y.setS (bits w 53 49) (leNat b)) Cond.noV) ∧
  Cond.Runs .isaSts 1 1 (Cond.store 4 fun w x => leBytes 4 (x.s (bits w 53 49))) ∧
  Cond.Runs .isaLdv 1 2 (Cond.load 16 16 (fun w b y => y.setV (bits w 52 49) (lanesOf b)) destV) ∧
  Cond.Runs .isaStv 1 3 (Cond.store 16 fun w x => (x.v (bits w 52 49)).bytes) ∧
  Cond.Runs .isaLdc 1 4 (Cond.load 4 4
    (fun w b y => y.setV (bits w 52 49) { l0 := cplxOf b, l1 := cplxOf b, l2 := cplxOf b, l3 := cplxOf b }) destV) ∧
  Cond.Runs .isaSta 1 5 (Cond.store 16 fun w x =>
    leBytes 8 (unsign 64 (x.a (bits w 50 49)).l0.re) ++ leBytes 8 (unsign 64 (x.a (bits w 50 49)).l0.im))

/-- Vector and accumulator instructions of a Sorrel core (R263, R264, R265, R268, R269, R266, R267). Where the rules leave a point open, this is the model's choice: log entries 5, 37 and 46. -/
def Obligations.VectorAndAccumulatorInstructions : Prop :=
  (Cond.Runs .isaCadd 2 0 (Cond.lanewise Cplx.add) ∧
  Cond.Runs .isaCsub 2 1 (Cond.lanewise Cplx.sub) ∧
  Cond.Runs .isaCmul 2 2 (Cond.lanewise fun p q => (p.mul q).map round15) ∧
  Cond.Runs .isaCmulj 2 3 (Cond.lanewise fun p q => (p.mul q.conj).map round15) ∧
  Cond.Runs .isaConj 2 4 (Cond.vector (fun w _ b y =>
    let r := b.map fun z => { z with im := clamp16 (-z.im) }
    ({ y with vSat := y.vSat || r != b.map Cplx.conj } : Core).setV (bits w 52 49) r) destV) ∧
  Cond.Runs .isaVmov 2 5 (Cond.vector (fun w _ b y => y.setV (bits w 52 49) b) destV) ∧
  Cond.Runs .isaVpowr 2 6 (Cond.vector (fun w _ b y =>
    y.setSat (bits w 52 49) (b.map fun z => { re := round15 z.norm, im := 0 })) destV) ∧
  Cond.Runs .isaMaxi 4 0 (Cond.given (fun w _ => decide (bits w 33 32 ≤ 1))
    (Cond.vector (fun w _ b y => { y with maxi := y.maxi.scan (bits w 34 32) false b }) Cond.noV)) ∧
  Cond.Runs .isaMini 4 1 (Cond.given (fun w _ => decide (bits w 33 32 ≤ 1))
    (Cond.vector (fun w _ b y => { y with mini := y.mini.scan (bits w 34 32) true b }) Cond.noV)) ∧
  Cond.Runs .isaExpb 4 2 (Cond.given (fun w _ => bits w 33 33 == 0) (Cond.vector (fun w _ b y =>
    y.setS (bits w 53 49) (if bits w 32 32 = 1 then b.headroom 15 else min (y.s (bits w 53 49)) (b.headroom 15))) Cond.noV)) ∧
  Cond.Runs .isaExpb 4 2 (Cond.given (fun w _ => bits w 33 33 == 1) (Cond.unary (fun w x =>
    x.setS (bits w 53 49) (if bits w 32 32 = 1 then (x.a (bits w 46 45)).headroom 47
      else min (x.s (bits w 53 49)) ((x.a (bits w 46 45)).headroom 47))) Cond.noV)) ∧
  Cond.Runs .isaShfb 4 3 (Cond.vector (fun w x b y =>
    let n := max (-31) (min 31 (signed 32 (x.s (bits w 48 45))))
    y.setSat (bits w 52 49) (b.map fun z => z.map fun v =>
      if 0 ≤ n then v * 2 ^ n.toNat else roundEvenInt v (2 ^ (-n).toNat))) destV)) ∧
  Cond.Runs .isaCmac 3 0 (Cond.vector (fun w x b y => y.setAcc (bits w 50 49)
    (Lanes.zip Cplx.add (x.a (bits w 50 49)) (Lanes.zip Cplx.mul (x.v (bits w 48 45)) b))) Cond.noV) ∧
  Cond.Runs .isaCmacj 3 1 (Cond.vector (fun w x b y => y.setAcc (bits w 50 49)
    (Lanes.zip Cplx.add (x.a (bits w 50 49)) (Lanes.zip (fun p q => p.mul q.conj) (x.v (bits w 48 45)) b))) Cond.noV) ∧
  Cond.Runs .isaTapmv 3 2 (Cond.given (fun w _ => bits w 25 24 == 1 && bits w 23 20 == bits w 48 45) Cond.tapmv) ∧
  Cond.Runs .isaAccz 3 3 (Cond.unary (fun w x => { x with accs := x.accs.set (bits w 50 49) {} }) Cond.noV) ∧
  Cond.Runs .isaAccr 3 4 (Cond.given (fun w _ => decide (bits w 31 26 ≤ 47)) (Cond.unary (fun w x =>
    x.setSat (bits w 52 49) ((x.a (bits w 46 45)).map fun z => z.map fun v => roundEvenInt v (2 ^ bits w 31 26))) destV)) ∧
  Cond.Runs .isaAccs 3 5 (Cond.unary (fun w x =>
    let l := x.a (bits w 46 45)
    x.setAcc (bits w 50 49) { l0 := (l.l0.add l.l1).add (l.l2.add l.l3) }) Cond.noV)

/-- Control instructions branch, wait, emit and commit (R264, R265, R271, R272, R274, R275). Where the rules leave a point open, this is the model's choice: log entries 46 and 47. -/
def Obligations.ControlInstructions : Prop :=
  (∀ core : Nat, Happens (.isaBr · core) (fun a =>
        let x := Cond.issuing core a
        let w := x.word
        Cond.issues core 5 0 a && decide (bits w 43 40 ≤ 6) && isaCond (bits w 43 40) (x.s (bits w 53 49)) (x.s (bits w 48 44)))
      (Eff.isaBr core)) ∧
  Cond.Runs .isaBr 5 0 (Cond.given (fun w x => decide (bits w 43 40 ≤ 6) &&
    !isaCond (bits w 43 40) (x.s (bits w 53 49)) (x.s (bits w 48 44))) fun _ _ x => some x) ∧
  (∀ core : Nat, Happens (.isaJmp · core) (Cond.issues core 5 1) (Eff.isaJmp core)) ∧
  (∀ core n : Nat, Happens (.isaLoop · core) (fun a =>
        let x := Cond.issuing core a
        Cond.issues core 5 2 a && x.s (bits x.word 53 49) == n + 1 && decide (x.loops.length < 4))
      (Eff.isaLoop core n)) ∧
  (∀ core : Nat, Happens (.isaLoop · core)
      (fun a => Cond.issues core 5 2 a && (Cond.issuing core a).s (bits (Cond.issuing core a).word 53 49) == 0)
      (Eff.isaLoop2 core)) ∧
  (∀ core : Nat, Happens (.isaWait · core) (fun a =>
        let x := Cond.issuing core a
        Cond.issues core 5 3 a && (maskBits 2 (bits x.word 1 0)).any fun p => (x.port p).slots.isEmpty)
      (fun a => a)) ∧
  Cond.Runs .isaWait 5 3 (Cond.given (fun w x => !(maskBits 2 (bits w 1 0)).any fun p => (x.port p).slots.isEmpty)
    fun w _ x => some ((maskBits 2 (bits w 1 0)).foldl (fun (x : Core) p =>
      { x with ports := x.ports.set p { x.port p with current := true } }) x)) ∧
  (∀ core : Nat, Happens (.isaYield · core) (Cond.issues core 5 4) (Eff.isaYield core)) ∧
  (∀ core : Nat, Happens (.isaEmit · core)
      (fun a => Cond.issues core 5 5 a && Cond.emits (Cond.issuing core a).word (Cond.issuing core a))
      (Eff.isaEmit core)) ∧
  Cond.Runs .isaMbox 5 6 (Cond.given Cond.posts fun w _ x =>
    some { x with messages := x.messages ++ [x.bytes (x.s (bits w 53 49)) 32] }) ∧
  Cond.Runs .isaSetag 5 7 (fun w _ x =>
    let i := bits w 39 37
    let g := x.ags.get i {}
    let v := x.s (bits w 53 49)
    some { x with ags := x.ags.set i (if bits w 36 35 = 0 then { g with base := v } else if bits w 36 35 = 1 then { g with len := v }
      else if bits w 36 35 = 2 then { g with stride := v } else { g with ptr := v }) }) ∧
  (∀ core : Nat, Happens (.isaHalt · core) (Cond.issues core 5 8) (Eff.isaHalt core)) ∧
  Cond.Runs .isaNop 5 9 fun _ _ x => some x

/-- The PAT verbs have the effect their rules give (R287, R291, R297, R303, R305, R306, R307, R308, R309, R310, R311, R313). Where the rules leave a point open, this is the model's choice: log entries 50, 52, 54, 55, 124 and 130. -/
def Obligations.PatVerbsComplete : Prop :=
  Completes .patDefineSegment 0x0A01 Cond.defineSegment Eff.patDefineSegment ∧
  Completes .patDefineSegment 0x0A01
    (fun c a => (u8 c.payload 2 == 2 || u8 c.payload 2 == 3) && zeros c.payload 3 1 && zeros c.payload 12 4 && zeros c.payload 24 8 &&
      a.readyBit 18 && !a.segActive (u16 c.payload 0))
    Eff.patDefineSegment2 ∧
  (∀ table : List Byte, Completes (.patWriteSegment · · · table) 0x0A02
      (fun c a => Cond.writeFields c a && (Cond.badVector table c a).isNone && !(Cond.written table c a).writeWaits (u16 c.payload 0))
      (Eff.patWriteSegment table)) ∧
  (∀ (table : List Byte) (k : Nat), Completes (.patWriteSegment · · · table) 0x0A02
      (fun c a => Cond.writeFields c a && Cond.badVector table c a == some k &&
        !(Cond.written table c a).writeWaits (u16 c.payload 0))
      (Eff.patWriteSegment2 table k)) ∧
  (∀ table : List Byte, Completes (.patWriteSegment · · · table) 0x0A02
      (fun c a => Cond.writeFields c a && (Cond.written table c a).writeWaits (u16 c.payload 0))
      (Eff.patWriteSegment3 table)) ∧
  Completes .patLoadTable 0x0A03 Cond.loadTable Eff.patLoadTable ∧
  Completes .patDefineSite 0x0A04 Cond.defineSite Eff.patDefineSite ∧
  Completes .patDefineSite 0x0A04
    (fun c a => c.payload.length == 8 + 2 * u16 c.payload 2 && u8 c.payload 1 == 1 && zeros c.payload 4 4 && a.readyBit 18 &&
      Cond.siteFree (u8 c.payload 0) a)
    Eff.patDefineSite2 ∧
  (∀ table : List Byte, Completes (.patLoadTimesets · · · table) 0x0A09 (Cond.loadTimesets table)
      (Eff.patLoadTimesets table)) ∧
  Completes .patStart 0x0A05 Cond.patStart Eff.patStart ∧
  (∀ vecs : List (Nat × Nat), Completes (.patStop · · · vecs) 0x0A06
      (fun c a => decide (u8 c.payload 32 ≤ 1) && zeros c.payload 33 3 && Cond.stillBusy c (Cond.stopping vecs c a))
      (Eff.patStop vecs)) ∧
  (∀ vecs : List (Nat × Nat), Completes (.patStop · · · vecs) 0x0A06
      (fun c a => decide (u8 c.payload 32 ≤ 1) && zeros c.payload 33 3 && !Cond.stillBusy c (Cond.stopping vecs c a))
      (Eff.patStop2 vecs)) ∧
  (∀ vecs : List (Nat × Nat), Completes (.patRequestJump · · · vecs) 0x0A07 (fun c _ => zeros c.payload 34 2)
      (Eff.patRequestJump vecs)) ∧
  ∀ index : Nat, Completes (.patGetResult · · · index) 0x0A08 (fun c _ => zeros c.payload 1 3 && decide (64 ≤ c.room))
      (Eff.patGetResult index)

/-- Sites start, decide, cross, park and stall (R289, R290, R294, R295, R298, R299, R300, R303, R305). Where the rules leave a point open, this is the model's choice: log entries 50, 51, 52, 53 and 115. -/
def Obligations.PatRows : Prop :=
  (∀ (site : Nat) (c : Cmd) (rest : List Cmd), Happens (.patScheduledStart · site ()) (Cond.launches site c rest)
      (Eff.patScheduledStart c)) ∧
  (∀ (site index : Nat) (j : Nat × Nat), Happens (.triggerJumpArrival · site index)
      (fun a => decide (site ≤ 255) && (a.trig.jumps.find? fun j => j.1 == site) == some j)
      (Eff.triggerJumpArrival site index j)) ∧
  (∀ (site : Nat) (launch : Stamp), Happens (.siteEventArrival · site launch) (fun _ => true)
      (Eff.siteEventArrival site launch)) ∧
  (∀ site : Nat,
    Happens (.decisionPoint · site) (fun a => (a.site site).mode == .running && (a.site site).play.chosen.isNone)
      (Eff.decisionPoint site)) ∧
  (∀ (site : Nat) (last : Stamp), Happens (.segmentBoundary · site last) (Cond.chose site .again)
      (Eff.segmentBoundary site last)) ∧
  (∀ (site u : Nat) (last : Stamp), Happens (.segmentBoundary · site last) (Cond.chose site (.enter u))
      (Eff.segmentBoundary2 site u last)) ∧
  (∀ (site u : Nat) (last : Stamp) (r : JumpReq), Happens (.segmentBoundary · site last)
      (fun a => Cond.chose site (.jump u) a && ((Cond.atEnd site a).site site).play.jump == some r)
      (Eff.segmentBoundary3 site u last r)) ∧
  (∀ (site : Nat) (last : Stamp), Happens (.segmentBoundary · site last) (Cond.chose site .finish)
      (Eff.segmentBoundary4 site last)) ∧
  (∀ (site : Nat) (last : Stamp), Happens (.segmentBoundary · site last) (Cond.chose site .stop)
      (Eff.segmentBoundary5 site)) ∧
  (∀ (site : Nat) (last : Stamp),
    Happens (.segmentBoundary · site last) (fun a => Cond.chose site .locked a || Cond.chose site .missing a)
      (Eff.segmentBoundary6 site)) ∧
  (∀ site index device : Nat, Happens (.refillLate · site index device)
      (fun a => (a.site site).mode == .running && (a.site site).due.isNone &&
        a.refillShort site device (index + (a.site site).play.horizon))
      (Eff.refillLate site index device)) ∧
  (∀ (a : State) (n index : Nat) (m : SiteMode),
    (a.site n).mode = .running → (a.site n).due = none → (a.site n).play.parkAt = none →
    a.parkLater n m index =
      let x := a.site n
      let to_ := x.play.base + index + x.play.horizon
      let b := a.setSite n { x with due := some m, play := { x.play with parkAt := some to_ } }
      b.sendPark n to_ (x.play.segAt (b.seg x.play.seg).length to_)) ∧
  (∀ site index : Nat, Happens (.sitePark · site index) (Cond.parksAt site index .stalled) (Eff.sitePark site index)) ∧
  ∀ (site index : Nat) (m : SiteMode), m ≠ .stalled → Happens (.sitePark · site index) (Cond.parksAt site index m)
      (Eff.sitePark2 site index m)

/-- The TRELLIS verbs have the effect their rules give (R333, R335, R337, R338, R339, R340, R341). Where the rules leave a point open, this is the model's choice: log entries 54, 55, 56, 57, 58, 96, 132 and 135. -/
def Obligations.TrellisVerbsComplete : Prop :=
  Completes .trellisDiscover 0x0B01 (fun c a => Cond.discover c a && (Cond.trainNames c a).isEmpty)
    Eff.trellisDiscover ∧
  Completes .trellisDiscover 0x0B01 (fun c a => Cond.discover c a && !(Cond.trainNames c a).isEmpty)
    Eff.trellisDiscover2 ∧
  Completes .trellisGetStatus 0x0B02
    (fun c a => decide (u8 c.payload 0 ≤ 63) && u8 c.payload 1 == 0 && zeros c.payload 2 2 &&
      decide ((a.peStatus (u8 c.payload 0) false).length ≤ c.room))
    Eff.trellisGetStatus ∧
  Completes .trellisGetStatus 0x0B02
    (fun c a => Cond.countersAsked c && ((Cond.sitesWith (u8 c.payload 0) a).isEmpty || !(a.peDev (u8 c.payload 0)).linked) &&
      decide ((a.peStatus (u8 c.payload 0) true).length ≤ c.room))
    Eff.trellisGetStatus2 ∧
  Completes .trellisGetStatus 0x0B02
    (fun c a => Cond.countersAsked c && !(Cond.sitesWith (u8 c.payload 0) a).isEmpty && (a.peDev (u8 c.payload 0)).linked)
    Eff.trellisGetStatus3 ∧
  Completes .trellisConfigureCapture 0x0B03 Cond.configureCapture Eff.trellisConfigureCapture ∧
  Completes (fun t fn tag => .trellisDeskew t fn tag ()) 0x0B04
    (fun c a => Cond.deskew c a && !(Cond.deskewUnits c a).isEmpty)
    Eff.trellisDeskew ∧
  Completes (fun t fn tag => .trellisDeskew t fn tag ()) 0x0B04
    (fun c a => Cond.deskew c a && (Cond.deskewUnits c a).isEmpty)
    Eff.trellisDeskew2 ∧
  Completes (fun t fn tag => .trellisDeskew t fn tag ()) 0x0B04 Cond.deskewRoute Eff.trellisDeskew3

/-- Lanes come up, carry codewords, fail and are rerouted (R317, R318, R321, R322, R329, R330, R331, R338). Where the rules leave a point open, this is the model's choice: log entries 56, 57, 129, 131, 132 and 134. -/
def Obligations.TrellisLinkRows : Prop :=
  (∀ (lane : Nat) (words : List (List Nat × List (Nat × Nat))) (header : Nat) (payload : List Byte),
    boundaryFound words = true → (words.getLast?.bind fun w => lineDecode w.1 w.2) = some (header, payload) →
    Happens (.codewordBoundaryFound · lane words) (Cond.laneTraining lane)
      (fun a => a.laneUp lane (header.testBit 6))) ∧
  (∀ (a : State) (lane : Nat), (a.peDev lane).trainSince.isSome = true → (a.peDev lane).downUp = false →
    a.laneUp lane false = a.setPe lane { a.peDev lane with upUp := true, downUp := false } ∧
    a.laneUp lane true = (List.range 16).foldl (fun s k =>
      s.emitFrame lane (peFrame 0x0C 0 0 (a.peDev lane).ack (leBytes 4 k)))
        (a.setPe lane { a.peDev lane with upUp := true, downUp := true })) ∧
  Happens .markerCodeword (fun a => a.now % 32768 == 0 && a.pw.tickRunning) Eff.markerCodeword ∧
  (∀ (lane : Nat) (levels : List Nat) (errors : List (Nat × Nat)) (header : Nat) (payload : List Byte),
    lineDecode levels errors = some (header, payload) →
    Happens (.upstreamCodeword · lane levels errors () ()) (fun a => decide (lane ≤ 63) && (a.peDev lane).upUp)
      (Eff.upstreamCodeword lane errors header payload)) ∧
  (∀ (lane : Nat) (levels : List Nat) (errors : List (Nat × Nat)), lineDecode levels errors = none →
    Happens (.upstreamCodeword · lane levels errors () ())
      (fun a => decide (lane ≤ 63) && (a.peDev lane).upUp) (Eff.upstreamCodeword2 lane)) ∧
  (∀ n : Nat, Happens (.reliableResendTimeout · n) (fun a => a.laneOn n && (a.peDev n).overdue a.now)
      (fun a => a.peResend n)) ∧
  (∀ (lane : Nat) (up : Bool),
    Happens (.laneDown · lane up) (fun a => Cond.dirFails lane up a && (a.peDev lane).mode == .rerouted)
      (Cond.downAt lane up)) ∧
  (∀ (n : Nat) (up : Bool), Happens (.laneDown · n up)
      (fun a => Cond.dirFails n up a && (a.peDev n).mode != .rerouted && (a.peDev n).mode != .up)
      (Eff.laneDown n up)) ∧
  (∀ (n : Nat) (up : Bool), Happens (.laneDown · n up)
      (fun a => Cond.dirFails n up a && (a.peDev n).mode == .up && Cond.canReroute n up a)
      (Eff.laneDown2 n up)) ∧
  (∀ (n : Nat) (up : Bool), Happens (.laneDown · n up)
      (fun a => Cond.dirFails n up a && (a.peDev n).mode == .up && !Cond.canReroute n up a)
      (Eff.laneDown3 n up)) ∧
  (∀ n : Nat, Happens (.deviceLost · n)
    (fun a => !(a.peDev n).linked && (a.peDev n).mode != .training && !a.carrying n) (fun a => a)) ∧
  (∀ n : Nat, Happens (.deviceLost · n)
    (fun a => ((a.peDev n).linked || (a.peDev n).mode == .training) && !a.carrying n) (fun a => a.peLose n 1 0)) ∧
  (∀ n : Nat, Happens (.deviceLost · n) (fun a => a.carrying n) (Eff.deviceLost n)) ∧
  (∀ pair : Nat, Happens (.sidePortFailure · pair) (fun a => Cond.sideWorks pair a && (Cond.onSide pair a).isEmpty)
      (Eff.sidePortFailure pair)) ∧
  ∀ pair : Nat, Happens (.sidePortFailure · pair) (fun a => Cond.sideWorks pair a && !(Cond.onSide pair a).isEmpty)
      (Eff.sidePortFailure2 pair)

/-- An upstream frame that is in order acts once (R294, R319, R320, R321, R323, R325, R327, R331, R334, R335). Where the rules leave a point open, this is the model's choice: log entries 53 and 56. -/
def Obligations.TrellisFrames : Prop :=
  Cond.FrameActs .idleFrame 0x00 0 (fun _ _ s => s) ∧
  Cond.FrameActs .identFrame 0x10 1 (fun n p s =>
    let d := s.peDev n
    let x := { d with
      vendor := u16 p 0, model := u16 p 2, channels := u8 p 6, memory := field p 8 6
      credits := d.credits + u16 p 14 - d.advertised, advertised := u16 p 14, ident := true }
    (sendWaiting x.toSend (s.setPe n x) n).peServe n) ∧
  (∀ rtt : Nat, Cond.FrameActs (fun t lane frame => .loopReplyFrame t lane frame rtt) 0x18 0 (fun n _ s => s.loopReply n rtt)) ∧
  Cond.FrameActs .failFrame 0x12 1 (fun n p s => (records 3 16 p).foldl (fun s r => s.failRecord n r) s) ∧
  Cond.FrameActs .captureFrame 0x13 1 (fun n p s =>
    (records 2 24 p).foldl (fun s r => if u8 r 0 = 0xFF ∧ u64 r 8 = 0 ∧ u64 r 16 = 0 then s else s.capRecord n r) s) ∧
  Cond.FrameActs .progressFrame 0x11 0 (fun n p s =>
    let i := u8 p 0
    let x := s.site i
    let d := s.peDev n
    if !x.pins.any fun q => q / 64 == n then s
    else (((s.setPe n { d with
          unlisted := satAdd 64 d.unlisted (u32 p 8 - x.unlisted.get n 0)
          capLost := satAdd 64 d.capLost (u32 p 12 - x.capLost.get n 0) }).setSite i { x with
        complete := x.complete.set n ((x.cycleOf (field p 2 6)).elim 0 fun c => c + 1)
        anyFail := x.anyFail || (u8 p 1).testBit 0
        unlisted := x.unlisted.set n (u32 p 8), capLost := x.capLost.set n (u32 p 12) }).capHeaders i).siteSettle i) ∧
  Cond.FrameActs .matchFrame 0x14 2 (fun n p s =>
    let i := u8 p 2
    let x := s.site i
    match (if x.mode = .running then x.cycleOf (field p 4 6) else none) with
    | none => s
    | some c =>
      let old := x.matchIn.get c ([], false)
      let new := (n :: old.1, old.2 || (u8 p 3).testBit 0)
      if (devicesOf x.pins).all new.1.contains then s.setSite i { x with
          matchIn := x.matchIn.del c, matches_ := x.matches_ ++ [(c + x.play.horizon, if new.2 then 67 else 66)] }
      else s.setSite i { x with matchIn := x.matchIn.set c new }) ∧
  (∀ vecs : List (Nat × Nat), Cond.FrameActs (fun t lane frame => .receiptFrame t lane frame vecs) 0x15 0 (fun n p s =>
    ((records 6 8 p).foldl (fun s r =>
      let c := u8 r 0
      let d := s.peDev n
      let old := d.bulk.get c {}
      let b : Bulk := { old with confirmed := field r 2 6, data := old.data.drop (field r 2 6 - old.confirmed) }
      let e := s.setPe n { d with bulk := d.bulk.set c b }
      if !d.bulk.has c then s
      else if (u8 r 1).testBit 0 then e.bulkRewind n c
      else if !b.write then e.refillChannel n c (indexIn vecs b.site)
      else if b.sent ≤ b.confirmed then e.setPe n { d with bulk := d.bulk.del c }
      else e) s).finishWrites)) ∧
  (∀ index : Nat, Cond.FrameActs (fun t lane frame => .eventFrame t lane frame index) 0x16 2 (fun n p s =>
    if (s.site (u8 p 2)).pins.any fun q => q / 64 == n then s.siteAsk (u8 p 2) 68 (targetOf (u16 p 4)) index else s)) ∧
  Cond.FrameActs .countersFrame 0x17 1 (fun n p s =>
    let on := (pinsOn (s.site (u8 p 0)).pins n).map Prod.snd
    let counts := (List.zip (span (u8 p 1) 12) ((records 12 4 (p.drop 4)).map leNat)).foldl
      (fun m e => if on.contains e.1 then KMap.set m e.1 e.2 else m) (s.peDev n).counts
    let s := s.setPe n { s.peDev n with counts }
    if 52 ≤ u8 p 1 then s.countersIn n false else s) ∧
  Cond.FrameActs .faultFrame 0x1F 1 (fun n p s => s.peLoseBoth n 2 (u16 p 0))

/-- The STIM verbs have the effect their rules give (R345, R346, R348, R351, R352, R353, R354, R355, R356, R357, R358). Where the rules leave a point open, this is the model's choice: log entries 59 and 134. -/
def Obligations.StimVerbsComplete : Prop :=
  Completes .stimDefineSegment 0x0C01 Cond.stimDefine Eff.stimDefineSegment ∧
  Completes .stimDefineSegment 0x0C01
    (fun c a => decide (u8 c.payload 0 ≤ 1) && (u8 c.payload 1 == 2 || u8 c.payload 1 == 3) && decide (u16 c.payload 2 ≤ 4095) &&
      zeros c.payload 24 8 && a.stimReady (u8 c.payload 0) && !(a.stimOut (u8 c.payload 0)).active (u16 c.payload 2))
    Eff.stimDefineSegment2 ∧
  (∀ table : List Byte, Completes (.stimWriteSegment · · · table) 0x0C02 Cond.stimWrite (Eff.stimWriteSegment table)) ∧
  (∀ a : State, a.finishStimWrites = (a.startedCmds 0x0C02 fun _ => true).foldl (fun s c =>
    let x := s.stimOut (u8 c.payload 3)
    (s.setStim (u8 c.payload 3) { x with
      segs := x.segs.set (u16 c.payload 0) { x.segs.get (u16 c.payload 0) {} with locked := false } }).finish c .ok 0) a) ∧
  Completes .stimLoadTable 0x0C03 Cond.stimTable Eff.stimLoadTable ∧
  Completes .stimStart 0x0C04
    (fun c a => decide (u8 c.payload 0 ≤ 3) && u8 c.payload 1 == 1 && decide ((a.stimBlock 0 ++ a.stimBlock 1).length ≤ c.room))
    Eff.stimStart ∧
  Completes .stimStart 0x0C04 (fun c a => Cond.stimStart c a && !(Cond.outputs c).isEmpty) Eff.stimStart2 ∧
  Completes .stimStart 0x0C04 (fun c a => Cond.stimStart c a && (Cond.outputs c).isEmpty) Eff.stimStart3 ∧
  Completes .stimStop 0x0C05
    (fun c a => Cond.stimStop c a && (Cond.outputs c).any fun o => ((Cond.stimStopping c a).stimOut o).mode.live)
    Eff.stimStop ∧
  Completes .stimStop 0x0C05
    (fun c a => Cond.stimStop c a && !(Cond.outputs c).any fun o => ((Cond.stimStopping c a).stimOut o).mode.live)
    Eff.stimStop2 ∧
  Completes .stimRequestJump 0x0C06
    (fun c a => decide (u8 c.payload 0 ≤ 3) && zeros c.payload 1 1 && (Cond.outputs c).all fun o => a.stimReady o)
    Eff.stimRequestJump

/-- Outputs start, decide, cross, park and stall (R345, R347, R348, R349, R350, R356, R357). Where the rules leave a point open, this is the model's choice: log entries 50, 51, 59, 115 and 134. -/
def Obligations.StimRows : Prop :=
  (∀ (o : Nat) (c : Cmd) (rest : List Cmd), Happens (.stimScheduledStart · o)
      (fun a => (a.startedCmds 0x0C04 fun c => (u8 c.payload 0).testBit o) == c :: rest && a.reached (Cond.stimAt c))
      (Eff.stimScheduledStart c)) ∧
  (∀ (o : Nat) (j : Nat × Nat), Happens (.stimTriggerJumpArrival · o)
      (fun a => decide (o ≤ 1) && (a.trig.jumps.find? fun j => j.1 == 256 + o) == some j)
      (Eff.stimTriggerJumpArrival o j)) ∧
  (∀ o : Nat, Happens (.stimDecisionPoint · o)
      (fun a => (a.stimOut o).mode == .running && (a.stimOut o).play.chosen.isNone &&
        decide ((a.stimOut o).cur.length ≤ a.stimIndex o + 64))
      (Eff.stimDecisionPoint o)) ∧
  (∀ o : Nat, Happens (.stimBoundary · o) (Cond.stimChose o .again) (Eff.stimBoundary o)) ∧
  (∀ o u : Nat, Happens (.stimBoundary · o) (Cond.stimChose o (.enter u)) (Cond.stimEntered o (.enter u))) ∧
  (∀ (o u : Nat) (r : JumpReq),
    Happens (.stimBoundary · o) (fun a => Cond.stimChose o (.jump u) a && (a.stimOut o).play.jump == some r)
      (Eff.stimBoundary2 o u r)) ∧
  (∀ o : Nat, Happens (.stimBoundary · o) (Cond.stimChose o .finish) (Eff.stimBoundary3 o)) ∧
  (∀ o : Nat, Happens (.stimBoundary · o) (Cond.stimChose o .stop) (Eff.stimBoundary4 o)) ∧
  (∀ o : Nat, Happens (.stimBoundary · o) (Cond.stimChose o .locked) (Eff.stimBoundary5 o)) ∧
  (∀ o : Nat, Happens (.stimBoundary · o) (Cond.stimChose o .missing) (Eff.stimBoundary6 o)) ∧
  (∀ o : Nat, Happens (.stimRefillLate · o) (fun a => (a.stimOut o).mode == .running && (a.stimOut o).cur.streamed)
      (Eff.stimRefillLate o)) ∧
  ∀ o n : Nat, Happens (.stimPark · o)
      (fun a => (a.stimOut o).mode == .running && (a.stimOut o).parkAt == some n && decide (n ≤ a.now - (a.stimOut o).start))
      (Eff.stimPark o n)

/-- The VINE verbs have the effect their rules give (R361, R363, R364, R365, R366, R367, R368, R369). Where the rules leave a point open, this is the model's choice: log entries 60 and 62. -/
def Obligations.VineVerbsComplete : Prop :=
  Completes .vineConfigure 0x0D01 (Cond.vineConfigure 1) Eff.vineConfigure ∧
  (∀ delay : Nat,
    Completes .vineConfigure 0x0D01 (fun c a => Cond.vineConfigure 2 c a && Cond.vineDelay c a == some delay)
      (Eff.vineConfigure2 delay)) ∧
  Completes .vineConfigure 0x0D01 (fun c _ => u8 c.payload 0 == 0 && zeros c.payload 1 7) Eff.vineConfigure3 ∧
  Completes .vineCalibrateSkew 0x0D02
    (fun c a => decide (64 ≤ u16 c.payload 8) && decide (u16 c.payload 8 ≤ 4096) && decide (u8 c.payload 10 ≤ 3) &&
      zeros c.payload 11 5 && decide (a.vine.epoch + 100 ≤ u64 c.payload 0) && a.vine.role != 0)
    Eff.vineCalibrateSkew ∧
  Completes .vineGetStatus 0x0D03 (fun c _ => decide (64 ≤ c.room)) Eff.vineGetStatus ∧
  Completes .vineScheduleSync 0x0D04 (fun c a =>
      let x := Cond.vineSchedule c
      decide (u8 c.payload 16 ≤ 1) && decide (u8 c.payload 17 ≤ 7) && zeros c.payload 18 6 && x.count != 0 && x.period != 0 &&
        decide (x.period ≤ 1000000) && decide (a.vine.epoch + 100 ≤ x.epoch))
    Eff.vineScheduleSync ∧
  Completes .vineScheduleSync 0x0D04
    (fun c _ => decide (u8 c.payload 16 ≤ 1) && decide (u8 c.payload 17 ≤ 7) && zeros c.payload 18 6 && u32 c.payload 12 == 0)
    Eff.vineScheduleSync2

/-- Epochs, events, delays and echoes on the Vine chain (R360, R361, R362, R363, R364, R366, R369). Where the rules leave a point open, this is the model's choice: log entries 60, 61, 62 and 98. -/
def Obligations.VineRows : Prop :=
  (∀ e tick : Nat, Happens .epochEdge (Cond.epochDue e tick) (Eff.epochEdge e tick)) ∧
  Happens .vineFrameSent (fun _ => true) Eff.vineFrameSent ∧
  (∀ (f : VineFrame) (rest : List VineFrame),
    Happens .vineEventSend (fun a => a.vine.queue == f :: rest && !a.vine.sending && a.vineMaySend)
      (Eff.vineEventSend f rest)) ∧
  (∀ payload crc e tick : Nat, Happens (.vineEventFrameReceived · payload crc)
      (fun a => a.vine.role == 2 && Cond.crcGood 46 payload crc && a.vine.ref == some (e, tick))
      (Eff.vineEventFrameReceived payload e tick)) ∧
  (∀ payload crc : Nat,
    Happens (.vineEventFrameReceived · payload crc) (fun a => a.vine.role == 2 && !Cond.crcGood 46 payload crc)
      Cond.badCrc) ∧
  (∀ delay crc : Nat, Happens (.delayFrameReceived · delay crc) (fun a => a.vine.role == 2 && Cond.crcGood 48 delay crc)
      (Eff.delayFrameReceived delay)) ∧
  (∀ delay crc : Nat,
    Happens (.delayFrameReceived · delay crc) (fun a => a.vine.role == 2 && !Cond.crcGood 48 delay crc) Cond.badCrc) ∧
  (∀ (n e crc : Nat) (arrival : Stamp), n < 2 ^ 64 → crc = vineCrc 64 n →
    Happens (.epochFrameReceived · n crc arrival) (fun a => Cond.expected e arrival a && n == e)
      (Eff.epochFrameReceived n arrival) ∧
    Happens (.epochFrameReceived · n crc arrival)
      (fun a => Cond.expected e arrival a && n != e && decide (a.vine.wrong < 2))
      (Eff.epochFrameReceived2 e arrival) ∧
    Happens (.epochFrameReceived · n crc arrival)
      (fun a => Cond.expected e arrival a && n != e && decide (2 ≤ a.vine.wrong))
      (Eff.epochFrameReceived3 n e arrival) ∧
    Happens (.epochFrameReceived · n crc arrival)
      (fun a => a.vine.role == 2 && (a.expectedEpoch (a.full arrival)).isNone)
      (fun a => a.vineEpoch n (a.full arrival))) ∧
  (∀ (n e crc : Nat) (arrival : Stamp), n < 2 ^ 64 → crc ≠ vineCrc 64 n →
    Happens (.epochFrameReceived · n crc arrival) (fun a => Cond.expected e arrival (Cond.badCrc a))
      (Eff.epochFrameReceived4 e arrival)) ∧
  (∀ (st : Stamp) (k : VineCal), Happens (.echoPulseSend · st)
      (fun a => a.vine.cal == some k && k.measure && decide (k.start ≤ a.vine.epoch) && decide (a.vine.epoch < k.start + k.echoes))
      (Eff.echoPulseSend st k)) ∧
  (∀ (st : Stamp) (k : VineCal) (s0 : Nat), Happens (.echoPulseReturn · st)
      (fun a => a.vine.cal == some k && k.sent == some s0 && k.count + 1 != k.echoes)
      (Eff.echoPulseReturn st k s0)) ∧
  (∀ (st : Stamp) (k : VineCal) (s0 : Nat), Happens (.echoPulseReturn · st)
      (fun a => a.vine.cal == some k && k.sent == some s0 && k.count + 1 == k.echoes)
      (Eff.echoPulseReturn2 st k s0)) ∧
  (∀ k : VineCal, Happens .echoTurnaround (fun a => a.vine.cal == some k && k.echoIn) (fun a => a.emit (.vineTx 4 []))) ∧
  (∀ cause : Nat, Happens (.vineNeighbourLost · cause) (Cond.losable cause) (Eff.vineNeighbourLost cause)) ∧
  ∀ phase : Int, Happens (.vineSignalsReturn · phase) (fun a => a.vine.role == 2 && a.vine.holdover)
      (Eff.vineSignalsReturn phase)

/-- The TIU verbs have the effect their rules give (R382, R383, R385, R386, R388, R389, R390, R391, R392). Where the rules leave a point open, this is the model's choice: log entries 63 and 64. -/
def Obligations.TiuVerbsComplete : Prop :=
  Completes .tiuConfigureChannel 0x0E01 Cond.tiuConfigure Eff.tiuConfigureChannel ∧
  Completes .tiuStart 0x0E02 Cond.tiuStart Eff.tiuStart ∧
  Completes .tiuStop 0x0E03 (fun c a => Cond.tiuStop c a && (Cond.tiuBusy c a).isEmpty) Eff.tiuStop ∧
  Completes .tiuStop 0x0E03 (fun c a => Cond.tiuStop c a && !(Cond.tiuBusy c a).isEmpty) Eff.tiuStop2 ∧
  (∀ (a : State) (n : Nat), (a.tiuChan n).mode = .running → (a.tiuChan n).core.closing ≠ [] →
    a.tiuQuiesce n = a.setTiu n { a.tiuChan n with mode := .quiescing }) ∧
  Completes .tiuReadStats 0x0E04 (fun c a =>
      let p := c.payload
      decide (u8 p 0 ≤ 63) && decide (u8 p 1 ≤ 3) && zeros p 2 6 && !a.tiuHeld (u8 p 0) &&
        (!(u8 p 1).testBit 0 || decide (u64 p 8 < (a.tiuChan (u8 p 0)).blocks)) && decide (96 ≤ c.room))
    Eff.tiuReadStats ∧
  ∀ high low : Nat, Completes (fun t fn tag => .tiuGetStatus t fn tag high low ()) 0x0E05
      (fun c _ => decide (u8 c.payload 0 ≤ 63) && zeros c.payload 1 3 && decide (64 ≤ c.room))
      (Eff.tiuGetStatus high low)

/-- Edges, statistics blocks and interpolator rotation of the time-interval unit (R374, R375, R376, R377, R378, R379, R380, R383, R389, R393). Where the rules leave a point open, this is the model's choice: log entries 63, 64, 135, 136 and 137. -/
def Obligations.TiuRows : Prop :=
  (∀ (n fraction : Nat) (levels : List Int) (failed : Bool),
    Happens (.tiuEdge · n levels fraction failed) (Cond.tiuOnFront n) (Eff.tiuEdge n fraction levels failed)) ∧
  (∀ (a : State) (n code time : Nat), Cond.tiuTakes n code a = true → Cond.tiuDeadAt n time a = false →
    a.tiuEdge n code time =
      let x := a.tiuChan n
      let st := tiuStampOf time
      let uns := a.tiuUnsettled n
      let e : TiuStamp := { time, unsettled := uns, prov := a.provisionalAt st.tick }
      let y : TiuChan := { x with
        stamps := wrapAdd 64 x.stamps 1
        lastTime := some time
        last := st
        rated := a.now :: x.recentTicks a.now }
      (((a.setTiu n y).tiuMeasure n code e).tiuDeliver n code e).offerTrig 9 n none st uns) ∧
  (∀ (a : State) (n code time : Nat), Cond.tiuTakes n code a = true → Cond.tiuDeadAt n time a = true →
    a.tiuEdge n code time = a.setTiu n { a.tiuChan n with missed := satAdd 64 (a.tiuChan n).missed 1 }) ∧
  (∀ (n fraction : Nat) (levels : List Int) (failed : Bool),
    Happens (.tiuEdge · n levels fraction failed) (fun a => decide (n ≤ 63) && a.tiuHeld n)
      (Eff.tiuEdge2 n fraction levels failed)) ∧
  (∀ (n : Nat) (b : TiuBlock) (rest : List TiuBlock),
    Happens (.statsBlockComplete · n) (Cond.tiuClosing n b rest true false) (Eff.statsBlockComplete n b rest)) ∧
  (∀ (n : Nat) (b : TiuBlock) (rest : List TiuBlock),
    Happens (.statsBlockComplete · n) (Cond.tiuClosing n b rest true true) (Eff.statsBlockComplete2 n b rest)) ∧
  (∀ (n : Nat) (b : TiuBlock) (rest : List TiuBlock) (opened : Bool),
    Happens (.statsBlockComplete · n) (Cond.tiuClosing n b rest false opened) (Eff.statsBlockComplete3 n b rest)) ∧
  (∀ (n o : Nat) (b : TiuBlock),
    Happens (.tiuStatsIntervalClose · n) (fun a => Cond.tiuInterval n o a && (a.tiuChan n).evLate == some b)
      (Eff.tiuStatsIntervalClose n o b)) ∧
  (∀ n o : Nat, Happens (.tiuStatsIntervalClose · n) (fun a => Cond.tiuInterval n o a && (a.tiuChan n).evLate.isNone)
      (Eff.tiuStatsIntervalClose2 n)) ∧
  (∀ (n : Nat) (c : Cmd) (rest : List Cmd), Happens (.tiuScheduledStart · n)
      (fun a => (a.startedCmds 0x0E02 fun d => (u64 d.payload 0).testBit n) == c :: rest &&
        a.reached { mode := u8 c.payload 8, at_ := u64 c.payload 16 } && decide (Cond.tiuEdgeOf c a ≤ a.now))
      (Eff.tiuScheduledStart c)) ∧
  (∀ group : Nat, Happens (.interpolatorRotationStep · group)
      (fun a => decide (group ≤ 3) && !a.tiuFrozen group && !a.vineHold group)
      (Eff.interpolatorRotationStep group)) ∧
  ∀ group unit : Nat, Happens (.interpolatorFailure · group unit) (Cond.tiuPairFails group unit)
      (Eff.interpolatorFailure group unit)

/-- The MON verbs have the effect their rules give (R395, R396, R404, R407, R408, R409, R410, R411, R412, R413). Where the rules leave a point open, this is the model's choice: log entries 64 and 138. -/
def Obligations.MonVerbsComplete : Prop :=
  Completes .monConfigureComparator 0x0F01
    (fun c a => Cond.monComparator c && u8 c.payload 1 != 0 && (a.comp (u8 c.payload 0)).mode != 0)
    Eff.monConfigureComparator ∧
  Completes .monConfigureComparator 0x0F01
    (fun c a => Cond.monComparator c && u8 c.payload 1 != 0 && (a.comp (u8 c.payload 0)).mode == 0 && (Cond.monDeclared c a).isSome)
    Eff.monConfigureComparator2 ∧
  Completes .monConfigureComparator 0x0F01
    (fun c a => Cond.monComparator c && u8 c.payload 1 == 0 && (a.compConsumer (u8 c.payload 0)).isNone)
    Eff.monConfigureComparator3 ∧
  Completes .monLoadSequence 0x0F02 Cond.monLoad Eff.monLoadSequence ∧
  Completes .monStartSequence 0x0F03 Cond.monStart Eff.monStartSequence ∧
  Completes .monStartSequence 0x0F03 (fun c a => decide (u8 c.payload 0 ≤ 2) && zeros c.payload 1 7 &&
      !a.tooSoon { mode := u8 c.payload 0, at_ := u64 c.payload 8 } && a.mon.running)
    (fun c a => a.finish c .ok a.now) ∧
  Completes .monStopSequence 0x0F04 (fun _ a => !a.mon.running) (fun c a => a.finish c .quiesced 0) ∧
  Completes .monStopSequence 0x0F04
    (fun _ a => a.mon.running && (a.mon.phase == .converting || a.mon.phase == .recovering))
    Eff.monStopSequence ∧
  Completes .monStopSequence 0x0F04 (fun _ a => a.mon.running && (a.mon.phase == .idle || a.mon.phase == .delaying))
    (fun c a => a.monRest.finish c .quiesced 0) ∧
  Completes .monRead 0x0F05 (fun c _ => u8 c.payload 0 == 0 && zeros c.payload 1 3 && decide (256 ≤ c.room))
    Eff.monRead ∧
  Completes .monRead 0x0F05 (fun c _ => u8 c.payload 0 == 1 && zeros c.payload 1 3 && decide (16 + 128 * 16 ≤ c.room))
    Eff.monRead2 ∧
  Completes .monSetReference 0x0F06 (fun c a => u8 c.payload 0 == 0 && zeros c.payload 1 3 && !a.mon.running)
    Eff.monSetReference ∧
  Completes .monSetReference 0x0F06 (fun c a => u8 c.payload 0 == 1 && zeros c.payload 1 3 &&
      (a.declare [{ fam := 0x0F, obj := 17, group := 17, first := 50000, each := 50000 }]).isOk)
    Eff.monSetReference2

/-- Comparators: changes, blanking, events and wake requests (R395, R396, R397, R398, R399, R408, R414). Where the rules leave a point open, this is the model's choice: log entries 64, 91 and 138. -/
def Obligations.ComparatorRows : Prop :=
  (∀ (k : Nat) (input : Int),
    Happens (.comparatorChange · k input ()) (fun a => decide ((a.comp k).mode < 4)) (fun a => a.evaluate k input a.now)) ∧
  (∀ (k : Nat) (input : Int), Happens (.comparatorChange · k input ()) (fun a => (a.comp k).mode == 4) (fun a => a)) ∧
  (∀ (k : Nat) (input : Int), Happens (.m3Tick · k input ()) (Cond.m3Due k) (Eff.m3Tick k input)) ∧
  (∀ (k : Nat) (input : Int), Happens (.m3Tick · k input ()) (fun a => !Cond.m3Due k a) (fun a => a)) ∧
  (∀ (a : State) (k tick : Nat) (input : Int), Cond.compTurns k input a = true → a.evaluate k input tick =
      let b := Cond.compSeen k tick a
      (b.setComp k { b.comp k with out := !(a.comp k).out }).compChange k (Cond.compStamp k tick a) false) ∧
  (∀ (a : State) (k tick : Nat) (input : Int), Cond.compUnsettled k 2 input a = true → a.evaluate k input tick =
      let b := Cond.compSeen k tick a
      let y : Comparator := { b.comp k with
        settled := true
        evaluated := true
        inBand := false
        out := true }
      (b.setComp k y).compChange k (Cond.compStamp k tick a) true) ∧
  (∀ (a : State) (k tick : Nat) (input : Int), Cond.compUnsettled k 0 input a = true → a.evaluate k input tick =
      let b := Cond.compSeen k tick a
      let y : Comparator := { b.comp k with
        settled := true
        evaluated := true
        inBand := false
        out := false }
      (b.setComp k y).compEvent k (Cond.compStamp k tick a) 0 true false) ∧
  (∀ (a : State) (k tick : Nat) (input : Int), Cond.compUnsettled k 1 input a = true → a.evaluate k input tick =
      let b := Cond.compSeen k tick a
      b.setComp k { b.comp k with
        inBand := (a.comp k).inBand || !(a.comp k).evaluated
        evaluated := true }) ∧
  (∀ (a : State) (k : Nat) (st : Stamp) (first : Bool), (a.comp k).window = none →
    a.compChange k st first = a.forward k st first false) ∧
  (∀ (a : State) (k w : Nat) (st : Stamp) (first : Bool), (a.comp k).window = some w →
    a.compChange k st first = a.setComp k { a.comp k with
      blanked := wrapAdd 32 (a.comp k).blanked 1
      firstDue := (a.comp k).firstDue || first }) ∧
  (∀ k w : Nat, Happens (.blankingWindowClose · k) (fun a => Cond.windowOver k w a && Cond.changeLeft k a)
      (Eff.blankingWindowClose k w)) ∧
  (∀ k w : Nat,
    Happens (.blankingWindowClose · k) (fun a => Cond.windowOver k w a && !Cond.changeLeft k a) (Cond.windowClosed k)) ∧
  (∀ k o : Nat, Happens (.comparatorEventIntervalClose · k)
      (fun a => Cond.compInterval k o a && ((a.comp k).evCount != 0 || (a.comp k).evFlags != 0))
      (Eff.comparatorEventIntervalClose k o)) ∧
  (∀ k o : Nat, Happens (.comparatorEventIntervalClose · k)
      (fun a => Cond.compInterval k o a && (a.comp k).evCount == 0 && (a.comp k).evFlags == 0)
      (Eff.comparatorEventIntervalClose2 k)) ∧
  Happens .wakeRequest (fun a => a.mon.wake) Eff.wakeRequest ∧
  ∀ k readback : Nat, Happens (.comparatorThresholdApply · k readback) (fun _ => decide (k ≤ 15))
      (Eff.comparatorThresholdApply k readback)

/-- The monitor converter: conversions, results, entries and passes (R401, R402, R403, R404, R405, R406, R410, R414). Where the rules leave a point open, this is the model's choice: log entry 64. -/
def Obligations.MonitorRows : Prop :=
  (∀ code outside : Nat, Happens (.conversionComplete · code outside) Cond.convDue
      (Eff.conversionComplete code outside)) ∧
  Happens .entryDelayExpiry (fun a => a.mon.phase == .delaying && decide (a.mon.since + a.mon.delayTicks ≤ a.now))
    Eff.entryDelayExpiry ∧
  Happens .recoveryConversion (fun a => a.mon.phase == .recovering && decide (a.mon.since + recoveryTicks ≤ a.now))
    Eff.recoveryConversion ∧
  Happens .housekeepingConversion (fun a => a.mon.phase == .idle) Eff.housekeepingConversion ∧
  Happens .housekeepingConversion (fun a => Cond.atBoundary a && a.mon.phase != .idle && a.mon.roomy)
    Eff.housekeepingConversion2 ∧
  Happens .housekeepingConversion
    (fun a => Cond.atBoundary a && !a.mon.roomy && decide (a.mon.housekeeping + 10 * ticksPerMs ≤ a.now))
    Eff.housekeepingConversion3 ∧
  Happens .housekeepingConversion (fun a => a.mon.phase == .converting && a.mon.convs != 0) (fun a => a) ∧
  Happens .referenceSettled (fun a => a.mon.refOn && decide (a.mon.refTick + refSettleTicks ≤ a.now))
    Eff.referenceSettled ∧
  ∀ (c : Cmd) (rest : List Cmd), Happens .monScheduledStart
      (fun a => (a.startedCmds 0x0F03 fun _ => true) == c :: rest && a.reached { mode := u8 c.payload 0, at_ := u64 c.payload 8 })
      (Eff.monScheduledStart c)

/-- The CELLAR verbs, requests at the ports and the write buffer (R418, R419, R420, R421, R422, R423, R428, R429, R430, R431, R432). Where the rules leave a point open, this is the model's choice: log entries 3, 31, 65 and 66. -/
def Obligations.CellarCommands : Prop :=
  (∀ base : Nat, Completes .cellarAllocate 0x1001
      (fun c a => Cond.cellarAllocate c && Cond.cellarBase c a == some base && decide (a.regions.length < 65536) &&
        !(u8 c.payload 16).testBit 2)
      (Eff.cellarAllocate base)) ∧
  (∀ base : Nat, Completes .cellarAllocate 0x1001
      (fun c a => Cond.cellarAllocate c && Cond.cellarBase c a == some base && decide (a.regions.length < 65536) &&
        (u8 c.payload 16).testBit 2)
      (Eff.cellarAllocate2 base)) ∧
  (∀ r : Region, Completes .cellarFree 0x1002 (fun c a => Cond.cellarFree r c a && !a.regionBusy (u64 c.payload 0) r)
      Eff.cellarFree) ∧
  (∀ r : Region, Completes .cellarFree 0x1002 (fun c a => Cond.cellarFree r c a && a.regionBusy (u64 c.payload 0) r)
      (Eff.cellarFree2 r)) ∧
  (∀ temps : List Int, Completes (.cellarGetStatus · · · temps) 0x1003
      (fun c _ => u8 c.payload 0 == 0 && zeros c.payload 1 3 && decide (256 ≤ c.room))
      (Eff.cellarGetStatus temps)) ∧
  (∀ temps : List Int, Completes (.cellarGetStatus · · · temps) 0x1003
      (fun c a => u8 c.payload 0 == 1 && zeros c.payload 1 3 && decide (((Cond.regionsAsked c a).flatMap regionEntry).length ≤ c.room))
      Eff.cellarGetStatus2) ∧
  Completes .cellarSetOperatingPoint 0x1004 (fun c a => Cond.cellarSetOp c a && Cond.cellarRate c a == a.cellarOp)
    Eff.cellarSetOperatingPoint ∧
  Completes .cellarSetOperatingPoint 0x1004 (fun c a => Cond.cellarSetOp c a && Cond.cellarRate c a != a.cellarOp)
    Eff.cellarSetOperatingPoint2 ∧
  (∀ (port addr size serve : Nat) (write : Bool) (data : List Byte) (rows : List (Nat × Nat)),
    Happens (.cellarRequest · port addr size write data serve rows)
      (fun a => a.readyBit 6 && size != 0 && decide (port ≤ 15))
      (Eff.cellarRequest port addr size serve write data rows)) ∧
  (∀ (port addr size serve : Nat) (write : Bool) (data : List Byte) (rows : List (Nat × Nat)),
    Happens (.cellarRequest · port addr size write data serve rows)
      (fun a => a.readyBit 6 && (size == 0 || decide (15 < port)))
      (Eff.cellarRequest2 serve rows)) ∧
  (∀ (r : CellarReq) (rs : List CellarReq) (m : KMap Nat), outstanding (r :: rs) m =
      if m.get (stackOf r.addr) 0 < 2048 then
        r :: outstanding rs (m.set (stackOf r.addr) (m.get (stackOf r.addr) 0 + 1))
      else outstanding rs m) ∧
  (∀ stripe mask since : Nat, Happens (.writeBufferMergeTimeout · stripe)
      (fun a => a.cell.merging.find stripe == some (mask, since) && decide (since + 2 * ticksPerUs ≤ a.now))
      (Eff.writeBufferMergeTimeout stripe mask)) ∧
  Happens .urgencyLevelRise (fun _ => true) Eff.urgencyLevelRise ∧
  ∀ (base : Nat) (r : Region),
    Happens (.regionZeroComplete · base) (fun a => a.regions.find base == some r && r.zeroing)
      (Eff.regionZeroComplete base r)

/-- Cellar's stacks: scrub, row disturbance, failures, rebuilds, retraining and a change of operating point (R418, R423, R424, R425, R426, R428, R429, R513). Where the rules leave a point open, this is the model's choice: log entries 31, 65 and 139. -/
def Obligations.CellarStacks : Prop :=
  (∀ corrected rebuilt : List Nat, Happens (.patrolScrub · corrected rebuilt) (fun _ => true)
      (Eff.patrolScrub corrected rebuilt)) ∧
  Happens .refreshWindowStart (fun _ => true) Eff.refreshWindowStart ∧
  (∀ (k bank row n : Nat), Happens (.rowHammerThreshold · k bank)
      (fun a => ((a.stack k).banks.get bank []).find? (fun e => decide (a.cell.threshold ≤ e.2)) == some (row, n))
      (Eff.rowHammerThreshold k bank row)) ∧
  (∀ k pc : Nat, Happens (.pseudoChannelFailure · k pc) (fun a => Cond.pcServes k pc a && a.sparesLeft 8 k != 0)
      (Eff.pseudoChannelFailure k pc)) ∧
  (∀ k pc : Nat, Happens (.pseudoChannelFailure · k pc) (fun a => Cond.pcServes k pc a && a.sparesLeft 8 k == 0)
      (fun a => a.loseStack k false)) ∧
  (∀ k : Nat, Happens (.pseudoChannelFailure · k 32) (Cond.spareServes k true) (fun a => a.loseStack k false)) ∧
  (∀ k : Nat, Happens (.pseudoChannelFailure · k 32) (Cond.spareServes k false) (Eff.pseudoChannelFailure2 k)) ∧
  (∀ k : Nat, Happens (.stackFailure · k) (fun a => decide (k ≤ 3) && !a.stackRetired k) (Eff.stackFailure k)) ∧
  (∀ k : Nat, Happens (.rebuildComplete · k) (fun a => (a.stack k).rebuilding) (Eff.rebuildComplete k)) ∧
  (∀ channel : Nat, Happens (.retrainPauseStart · channel) (Cond.canPause channel) (Eff.retrainPauseStart channel)) ∧
  (∀ (channel fill since : Nat) (trained : Bool), Happens (.retrainPauseEnd · channel trained fill)
      (fun a => a.cell.pause == some (channel, since) && Cond.pauseTrained trained since a)
      (Eff.retrainPauseEnd channel fill since)) ∧
  (∀ (channel fill since : Nat) (trained : Bool), Happens (.retrainPauseEnd · channel trained fill)
      (fun a => a.cell.pause == some (channel, since) && !Cond.pauseTrained trained since a && decide (Cond.pauseFails channel a < 2))
      (Eff.retrainPauseEnd2 channel fill since)) ∧
  (∀ (channel fill since : Nat) (trained : Bool), Happens (.retrainPauseEnd · channel trained fill)
      (fun a => a.cell.pause == some (channel, since) && !Cond.pauseTrained trained since a && Cond.pauseFails channel a == 2)
      (Eff.retrainPauseEnd3 channel fill since)) ∧
  (∀ k : Nat, Happens (.stackOpPointServing · k) (fun a => (a.stack k).phase == .selfRefresh)
      (Eff.stackOpPointServing k)) ∧
  ∀ k fill : Nat, Happens (.stackBufferDrained · k fill) (fun a => (a.stack k).phase == .draining)
      (Eff.stackBufferDrained k fill)

/-- The FLOW verbs, descriptors, units and bursts of Racking (R435, R437, R438, R439, R440, R443, R444, R447, R448, R449, R450, R451). Where the rules leave a point open, this is the model's choice: log entries 67, 71 and 122. -/
def Obligations.FlowVerbsAndBursts : Prop :=
  (∀ n : Nat, Completes .flowCreate 0x1101 (Cond.flowCreate n) (Eff.flowCreate n)) ∧
  Completes .flowEnable 0x1102 Cond.flowEnable Eff.flowEnable ∧
  Completes .flowEnable 0x1102
    (fun c a => Cond.flowThere c a && zeros c.payload 4 4 && (a.flow (u32 c.payload 0)).mode == .enabled &&
      ((a.flow (u32 c.payload 0)).dst != 0 || (a.flow (u32 c.payload 0)).bind.isSome))
    Eff.flowEnable2 ∧
  Completes .flowDisable 0x1103 (fun c a => Cond.flowThere c a && (a.flow (u32 c.payload 0)).mode != .disabled)
    Eff.flowDisable ∧
  Completes .flowDisable 0x1103 (fun c a => Cond.flowNamed c a && (a.flow (u32 c.payload 0)).mode == .quiescing)
    (fun c a => a.markStarted c 0 []) ∧
  Completes .flowDisable 0x1103 (fun c a => Cond.flowNamed c a && (a.flow (u32 c.payload 0)).mode == .disabled)
    (fun c a => a.finish c .quiesced 0) ∧
  Completes .flowDestroy 0x1104 (fun c a => Cond.flowThere c a && (a.producersOf (u32 c.payload 0)).isEmpty)
    Eff.flowDestroy ∧
  Completes .flowPostDescriptors 0x1105 (fun c a =>
      let p := c.payload
      Cond.flowThere c a && u32 p 4 != 0 && decide (u32 p 4 ≤ 65535) && u64 p 8 % 64 == 0 && !(a.flow (u32 p 0)).direct &&
        decide ((a.flow (u32 p 0)).chains.length < 16))
    Eff.flowPostDescriptors ∧
  Completes .flowGetStatus 0x1106 (fun c a => Cond.flowNamed c a && decide (64 ≤ c.room)) Eff.flowGetStatus ∧
  (∀ (f addr left : Nat) (rest : List (Nat × Nat)) (bytes : List Byte) (index : List Nat),
    Happens (.descriptorFetched · f bytes index) (Cond.fetches f addr left rest)
      (Eff.descriptorFetched f addr left rest bytes index)) ∧
  (∀ (f : Nat) (u : FlowUnit) (rest : List FlowUnit), Happens (.producerUnitArrival · f) (Cond.takesUnit f u rest)
      (Eff.producerUnitArrival f u rest)) ∧
  (∀ (f n : Nat) (slack : Bool), Happens .burstAdmission
      (fun a => decide (a.inFlight < 4096) && a.chooseFlow == some (f, slack) && (a.flow f).ready == some n)
      (Eff.burstAdmission f n slack)) ∧
  (∀ (f offset : Nat) (b : Burst) (m : Moving) (data : List Byte), Happens (.burstCompletion · f offset data)
      (fun a => Cond.inFlight f offset m b a && Cond.burstGood (a.flow f) m b a)
      (Eff.burstCompletion f offset b m data)) ∧
  (∀ (f offset : Nat) (b : Burst) (m : Moving) (data : List Byte), Happens (.burstCompletion · f offset data)
      (fun a => Cond.inFlight f offset m b a && !Cond.burstGood (a.flow f) m b a) (fun a => a.burstFails f offset)) ∧
  (∀ (f offset : Nat) (m : Moving), Happens (.burstError · f offset) (Cond.moving f offset m)
      (Eff.burstError f offset m)) ∧
  ∀ (f : Nat) (m : Moving), Happens (.hostReadTimeout · f) (fun a => (a.flow f).cur == some m && (a.flow f).src == 1)
      (Eff.hostReadTimeout f m)

/-- The STREAM verbs, packets, heartbeats, received frames and failover of the ports (R455, R459, R460, R461, R462, R463, R464, R465, R466, R467, R468). Where the rules leave a point open, this is the model's choice: log entries 67, 68 and 69. -/
def Obligations.StreamPorts : Prop :=
  Completes .streamConfigurePort 0x1201
    (fun c a => Cond.streamConfigure c a && u8 c.payload 1 != 0 && Cond.streamFields c.payload &&
      (a.declare [Cond.portDecl (u8 c.payload 0)]).isOk)
    Eff.streamConfigurePort ∧
  Completes .streamConfigurePort 0x1201 (fun c a => Cond.streamConfigure c a && u8 c.payload 1 == 0)
    Eff.streamConfigurePort2 ∧
  Completes .streamBindFlow 0x1202
    (fun c a => Cond.streamFlow c a && Cond.streamBind c a && (a.port (u8 c.payload 4)).role == 1 && Cond.portUp (u8 c.payload 4) a)
    Eff.streamBindFlow ∧
  Completes .streamBindFlow 0x1202 (fun c a => Cond.streamFlow c a && (u8 c.payload 5).testBit 3) Eff.streamBindFlow2 ∧
  Completes .streamGetStatus 0x1203 (fun c _ => decide (u8 c.payload 0 ≤ 4) && zeros c.payload 1 3 && decide (64 ≤ c.room))
    Eff.streamGetStatus ∧
  (∀ n : Nat, Happens (.portLinkUp · n) (fun a => (a.port n).mode == .training) (Eff.portLinkUp n)) ∧
  (∀ (n f : Nat) (b b2 : Binding) (k : Packet), Happens (.packetTransmit · n f)
      (fun a => (a.flow f).bind == some b && b.port == n && Cond.portUp n a && b.next f == some (k, b2) && a.maySend n f)
      (Eff.packetTransmit n f b b2 k)) ∧
  (∀ (f : Nat) (b : Binding),
    Happens (.packetFlushTimeout · f) (fun a => (a.flow f).bind == some b && !b.queue.isEmpty &&
        decide (b.openAt + b.flushUs * ticksPerUs ≤ a.now))
      (Eff.packetFlushTimeout f b)) ∧
  (∀ n : Nat,
    Happens (.heartbeatTimer · n) (fun a => Cond.portUp n a && (a.port n).role != 0 && (a.port n).beatDue a.now)
      (Eff.heartbeatTimer n)) ∧
  (∀ (n : Nat) (mac ip target : List Byte),
    Happens (.arpRequestReceived · n mac ip target) (fun a => Cond.portUp n a && (a.faceOf n).ip4 == target)
      (Eff.arpRequestReceived n mac ip)) ∧
  (∀ (n : Nat) (mac ip target : List Byte),
    Happens (.arpRequestReceived · n mac ip target) (fun a => Cond.portUp n a && (a.faceOf n).ip4 != target)
      (fun a => a.discardFrame n)) ∧
  (∀ (n : Nat) (mac ip target : List Byte),
    Happens (.neighbourSolicitationReceived · n mac ip target) (fun a => Cond.portUp n a && (a.faceOf n).ip6 == target)
      (Eff.neighbourSolicitationReceived n mac ip)) ∧
  (∀ (n : Nat) (mac ip target : List Byte),
    Happens (.neighbourSolicitationReceived · n mac ip target) (fun a => Cond.portUp n a && (a.faceOf n).ip6 != target)
      (fun a => a.discardFrame n)) ∧
  (∀ n : Nat, Happens (.otherFrameReceived · n) (Cond.portUp n) (fun a => a.discardFrame n)) ∧
  (∀ n : Nat, Happens (.pauseFrameReceived · n) (Cond.portUp n) (Eff.pauseFrameReceived n)) ∧
  (∀ n q cause : Nat, Happens (.portFailure · n cause)
      (fun a => Cond.portFails n a && (a.port n).role == 1 && Cond.sparePort n a == some q)
      (Eff.portFailure n q cause)) ∧
  ∀ n cause : Nat, Happens (.portFailure · n cause)
      (fun a => Cond.portFails n a && ((a.port n).role != 1 || (Cond.sparePort n a).isNone))
      (Eff.portFailure2 n)

/-- The DISP verbs have the effect their rules give (R471, R472, R478, R481, R483, R484, R485, R486, R487, R488). Where the rules leave a point open, this is the model's choice: log entry 70. -/
def Obligations.DisplayVerbs : Prop :=
  Completes .dispSetTiming 0x1301 Cond.dispSetTiming Eff.dispSetTiming ∧
  Completes .dispSetGenlock 0x1302 (fun c a => Cond.dispSetGenlock c a && u8 c.payload 0 == 0) Eff.dispSetGenlock ∧
  Completes .dispSetGenlock 0x1302 (fun c a => Cond.dispSetGenlock c a && u8 c.payload 0 == 1) Eff.dispSetGenlock2 ∧
  (∀ image : List Byte, Completes (.dispConfigureLayer · · · image) 0x1303
      (fun c a => Cond.dispLayerOk c a && a.disp.mode == .disabled)
      (Eff.dispConfigureLayer image)) ∧
  (∀ image : List Byte, Completes (.dispConfigureLayer · · · image) 0x1303
      (fun c a => Cond.dispLayerOk c a && a.disp.mode != .disabled && (Cond.layerGranted c a).isSome)
      (Eff.dispConfigureLayer2 image)) ∧
  Completes .dispSetPalette 0x1304 (fun c a => Cond.dispSetPalette c && a.disp.mode == .disabled) Eff.dispSetPalette ∧
  Completes .dispSetPalette 0x1304 (fun c a => Cond.dispSetPalette c && a.disp.mode != .disabled) Eff.dispSetPalette2 ∧
  (∀ (hz : Nat) (edid : List Byte), Completes (.dispEnable · · · hz edid) 0x1305 Cond.dispEnable Eff.dispEnable) ∧
  (∀ (hz : Nat) (edid : List Byte), Completes (.dispEnable · · · hz edid) 0x1305
      (fun c a => u8 c.payload 0 == 0 && zeros c.payload 1 7 &&
        (a.disp.mode == .running || a.disp.mode == .training)) (fun c a => a.finish c .ok a.now)) ∧
  (∀ (hz : Nat) (edid : List Byte), Completes (.dispEnable · · · hz edid) 0x1305
      (fun c _ => u8 c.payload 0 == 1 && zeros c.payload 1 7 && decide (64 ≤ c.room))
      (Eff.dispEnable2 hz edid)) ∧
  Completes .dispDisable 0x1306 (fun _ a => a.disp.mode == .disabled) (fun c a => a.finish c .quiesced 0) ∧
  Completes .dispDisable 0x1306 (fun _ a => a.disp.mode == .training) (fun c a => a.dispRest.finish c .quiesced 0) ∧
  Completes .dispDisable 0x1306 (fun _ a => Cond.scans a) Eff.dispDisable

/-- The display's frames, faults, genlock and link (R470, R472, R475, R476, R477, R478, R479, R480, R481, R485, R486, R489). Where the rules leave a point open, this is the model's choice: log entry 70. -/
def Obligations.DisplayRows : Prop :=
  Happens .latchLine (fun a => a.disp.mode == .running && a.disp.latched != a.disp.frame)
    (fun a => (Cond.latched a).settingsDone) ∧
  (∀ tm : DispTiming,
    Happens .matchLineReached (fun a => Cond.scans a && a.disp.timing == some tm && decide (tm.matchLine < tm.vTotal) &&
        a.disp.matched != some (a.disp.frameAt tm.matchLine))
      (Eff.matchLineReached tm)) ∧
  Happens .frameEnd (fun a => a.disp.mode == .running) Cond.frameLeft ∧
  Happens .frameEnd (fun a => a.disp.mode == .quiescing) (fun a => (Cond.frameLeft a).dispRest) ∧
  (∀ line : Nat, Happens (.lineUnderrun · line) (Cond.lineLate line) (Eff.lineUnderrun line)) ∧
  (∀ line : Nat, Happens (.overlayFetchFault · line)
      (fun a => Cond.scans a && a.disp.overlayOn && !a.disp.faulted && !a.overlayLineOk line)
      (Eff.overlayFetchFault line)) ∧
  Happens (.genlockEdge · true) (fun a => a.disp.genlock != 0 && Cond.scans a) Eff.genlockEdge ∧
  Happens (.genlockEdge · false) (fun a => a.disp.genlock == 3 && Cond.scans a)
    (fun a => a.setDisp { a.disp with genlock := 1 }) ∧
  Happens .genlockLost (fun a => a.disp.genlock == 1 || a.disp.genlock == 2) (fun a => a.setDisp { a.disp with genlock := 3 }) ∧
  Happens .hpdUnplug (fun a => a.disp.mode == .running) Eff.hpdUnplug ∧
  Happens .hpdUnplug (fun a => a.disp.mode == .quiescing) (fun a => (Cond.sinkGone a).dispRest) ∧
  Happens .hpdUnplug (fun a => !Cond.scans a) Cond.sinkGone ∧
  Happens .hpdReturn (fun _ => true) (fun a => a.setDisp { a.disp with hpd := true }) ∧
  (∀ lanes rate : Nat, Happens (.dpLinkTrained · lanes rate)
      (fun a => Cond.trained lanes rate a && decide ((a.disp.timing.getD {}).clock * 24 ≤ linkKbps lanes rate))
      (Eff.dpLinkTrained lanes rate)) ∧
  (∀ lanes rate : Nat, Happens (.dpLinkTrained · lanes rate)
      (fun a => Cond.trained lanes rate a && decide (linkKbps lanes rate < (a.disp.timing.getD {}).clock * 24) &&
        !(a.startedCmds 0x1305 fun _ => true).isEmpty)
      Eff.dpLinkTrained2) ∧
  ∀ copy : Nat, Happens (.scanoutMismatch · copy) (fun a => decide (copy ≤ 1) && !a.isRetired ⟨18, 0, copy⟩)
      (Eff.scanoutMismatch copy)

/-- The BUDGET verbs, credits, urgency, the ledger and throttling (R491, R494, R495, R496, R497, R501, R502, R503, R504, R505, R506, R507). Where the rules leave a point open, this is the model's choice: log entries 32, 71, 72 and 73. -/
def Obligations.BudgetAndLedger : Prop :=
  Completes .budgetSetPowerCap 0x1401 Cond.budgetCap Eff.budgetSetPowerCap ∧
  Completes .budgetGrant 0x1402 Cond.budgetGrant Eff.budgetGrant ∧
  Completes .budgetGrant 0x1402
    (fun c a => Cond.budgetActivity c a && (u8 c.payload 1).testBit 2 && decide (72 ≤ c.room))
    Eff.budgetGrant2 ∧
  Completes .budgetRevoke 0x1403 (fun c a => Cond.budgetRevoke c a && (Cond.stoppedOwner c a).isSome) Eff.budgetRevoke ∧
  Completes .budgetRevoke 0x1403 (fun c a => Cond.budgetRevoke c a && (Cond.stoppingOwner c a).isSome)
    Eff.budgetRevoke2 ∧
  Completes .budgetRevoke 0x1403
    (fun c a => u8 c.payload 0 == 5 && u32 c.payload 4 == 0 && zeros c.payload 1 3 && a.disp.mode == .running)
    Eff.budgetRevoke3 ∧
  Completes .budgetReadLedger 0x1404
    (fun c _ => decide (u8 c.payload 0 ≤ 1) && zeros c.payload 1 3 && decide (1088 ≤ c.room))
    Eff.budgetReadLedger ∧
  Completes .budgetGetCapacity 0x1405 (fun c _ => decide (320 ≤ c.room)) Eff.budgetGetCapacity ∧
  Happens .budgetPeriodBoundary (fun a => decide (a.bud.nextBoundary ≤ a.now)) Eff.budgetPeriodBoundary ∧
  (∀ f : Nat, Happens (.ageingInterval · f)
      (fun a => (a.flow f).ready.isSome && !(a.flow f).urgent && a.bud.credits.get (burstCredit f) 0 == 0 &&
        decide ((a.flow f).readySince + (a.bud.aged.get f 0 + 1) * a.bud.ageTicks ≤ a.now))
      (Eff.ageingInterval f)) ∧
  (∀ kind obj res : Nat, Happens (.latencyTargetReached · kind obj res)
      (fun a => Cond.late kind obj res a && !a.bud.urgent.any fun i => i.act == actKey kind obj)
      (Eff.latencyTargetReached kind obj res)) ∧
  (∀ kind obj res : Nat, Happens (.latencyTargetReached · kind obj res)
      (fun a => Cond.late kind obj res a && a.bud.urgent.any fun i => i.act == actKey kind obj)
      (Eff.latencyTargetReached2 kind obj res)) ∧
  (∀ (kind obj : Nat) (i : UrgentInterval), Happens (.urgentIntervalClose · kind obj)
      (fun a => a.bud.urgent.find? (fun j => j.act == actKey kind obj) == some i && decide (i.opened + ticksPerUs ≤ a.now) &&
        i.count != 0)
      (Eff.urgentIntervalClose kind obj i)) ∧
  (∀ (kind obj : Nat) (i : UrgentInterval), Happens (.urgentIntervalClose · kind obj)
      (fun a => a.bud.urgent.find? (fun j => j.act == actKey kind obj) == some i && decide (i.opened + ticksPerUs ≤ a.now) &&
        i.count == 0)
      (Eff.urgentIntervalClose2 kind obj)) ∧
  (∀ (power total : Nat) (energies : List (Nat × Nat)),
    Happens (.ledgerUpdate · power total energies) (fun a => decide (a.bud.boundary < a.now - a.now % ticksPerMs))
      (Eff.ledgerUpdate power total energies)) ∧
  Happens .throttleStageAdvance (fun a => a.bud.above && decide (a.bud.stage < 3)) Eff.throttleStageAdvance ∧
  Happens .throttleStageRelease (fun a => decide (10 ≤ a.bud.belowMs) && decide (0 < a.bud.stage))
    Eff.throttleStageRelease

/-- The FAULT and CAL verbs, faults that no block of its own handles, and takeovers (R512, R514, R515, R516, R517, R518, R519, R528, R530, R531, R541, R543). Where the rules leave a point open, this is the model's choice: log entries 35, 74, 75 and 88. -/
def Obligations.FaultsAndCalibration : Prop :=
  Completes .faultReadLog 0x1501 (fun c _ => Cond.faultReadLog c) Eff.faultReadLog ∧
  Completes .faultGetHealth 0x1502 (fun c _ => decide (208 ≤ c.room)) Eff.faultGetHealth ∧
  Completes .faultInject 0x1503
    (fun c a => Cond.faultInject c a && ((a.injectUnit c.payload).cls != 6 || (Cond.injected c a).ft.takeover.isEmpty))
    Eff.faultInject ∧
  Completes .faultInject 0x1503
    (fun c a => Cond.faultInject c a && (a.injectUnit c.payload).cls == 6 && !(Cond.injected c a).ft.takeover.isEmpty)
    Eff.faultInject2 ∧
  Completes .faultClearLog 0x1504
    (fun c a => decide (u8 c.payload 0 ≤ 3) && zeros c.payload 1 3 && (!(u8 c.payload 0).testBit 0 || a.ft.injected.isEmpty))
    Eff.faultClearLog ∧
  Completes .faultClearLog 0x1504
    (fun c a => decide (u8 c.payload 0 ≤ 3) && zeros c.payload 1 3 && (u8 c.payload 0).testBit 0 && !a.ft.injected.isEmpty)
    Eff.faultClearLog2 ∧
  (∀ (failed : List Nat) (values : List (Nat × Nat)),
    Completes (fun t fn tag => .calRun t fn tag failed values ()) 0x1601
      (fun c a => Cond.calRun c a && (a.calWaits (u8 c.payload 0) (span (u16 c.payload 2) (u16 c.payload 4))).isEmpty &&
        (u8 c.payload 0 != 8 || (Cond.inside (Cond.calUnits c a) failed).isEmpty))
      (Eff.calRun failed values)) ∧
  (∀ (failed : List Nat) (values : List (Nat × Nat)) (w : Nat) (ws : List Nat),
    Completes (fun t fn tag => .calRun t fn tag failed values ()) 0x1601
      (fun c a => Cond.calRun c a && a.calWaits (u8 c.payload 0) (span (u16 c.payload 2) (u16 c.payload 4)) == w :: ws)
      (Eff.calRun2 failed values w ws)) ∧
  (∀ (failed : List Nat) (values : List (Nat × Nat)),
    Completes (fun t fn tag => .calRun t fn tag failed values ()) 0x1601
      (fun c a => Cond.calRun c a && u8 c.payload 0 == 8 && !(Cond.inside (Cond.calUnits c a) failed).isEmpty &&
        (Cond.inside (Cond.calUnits c a) failed).all fun u => a.deskewable u)
      (Eff.calRun3 failed)) ∧
  Completes .calGetRecord 0x1602 (fun c _ => calRangeOk c.payload 10 && decide (48 ≤ c.room)) Eff.calGetRecord ∧
  Completes .calSetSchedule 0x1603 Cond.calSchedule Eff.calSetSchedule ∧
  (∀ (cls : Nat) (units failed : List Nat) (values : List (Nat × Nat)),
    Happens (.scheduledCalibration · cls units failed values ())
      (fun a => Cond.calPass cls units a && (cls != 8 || (Cond.inside (Cond.calDue cls units a) failed).isEmpty))
      (Eff.scheduledCalibration cls units failed values)) ∧
  (∀ (units failed : List Nat) (values : List (Nat × Nat)), Happens (.scheduledCalibration · 8 units failed values ())
      (fun a => Cond.calPass 8 units a && !(Cond.inside (Cond.calDue 8 units a) failed).isEmpty)
      (Eff.scheduledCalibration2 units failed)) ∧
  (∀ v : Nat, Happens (.stewardPairHalt · v) (fun a => Cond.pairWorks v a && (a.heirOf v).isNone)
      (Eff.stewardPairHalt v)) ∧
  (∀ v : Nat,
    Happens (.stewardPairHalt · v) (fun a => Cond.pairWorks v a && (a.heirOf v).isSome && (a.servedPairs v).isEmpty)
      (Eff.stewardPairHalt2 v)) ∧
  (∀ v q : Nat,
    Happens (.stewardPairHalt · v) (fun a => Cond.pairWorks v a && a.heirOf v == some q && !(a.servedPairs v).isEmpty)
      (Eff.stewardPairHalt3 v q)) ∧
  Happens .stewardTakeoverComplete (fun a => !a.ft.takeover.isEmpty) Eff.stewardTakeoverComplete ∧
  (∀ cls pool unit : Nat,
    Happens (.spareUnitFault · cls pool unit) (fun _ => true) (fun a => a.failUnit ⟨cls, pool, unit⟩ false)) ∧
  (∀ n : Nat, Happens (.sramScrubPass · n) (fun _ => true) (Eff.sramScrubPass n)) ∧
  (∀ cls pool unit detail : Nat,
    Happens (.uncorrectableSramWord · true cls pool unit detail) (fun _ => true) (fun a => a.faultWord detail)) ∧
  (∀ cls pool unit detail : Nat, Happens (.uncorrectableSramWord · false cls pool unit detail) (fun _ => true)
      (fun a => a.failUnit ⟨cls, pool, unit⟩ false)) ∧
  (∀ (pair unit : Nat), Happens (.fabricPllFault · pair unit true)
      (fun a => Cond.pllServes pair unit a && a.sparesLeft 15 pair == 0)
      (Eff.fabricPllFault pair unit)) ∧
  (∀ (pair unit : Nat) (stops : Bool), Happens (.fabricPllFault · pair unit stops)
      (fun a => Cond.pllServes pair unit a && !(stops && a.sparesLeft 15 pair == 0))
      (fun a => a.faultIn ⟨15, pair, unit⟩ {})) ∧
  (∀ rail phase : Nat, Happens (.regulatorPhaseFault · rail phase)
      (fun a => decide (rail ≤ 12) && decide (phase ≤ 6) && !a.isRetired ⟨16, rail, phase⟩)
      (Eff.regulatorPhaseFault rail phase)) ∧
  (∀ dir lane : Nat, Happens (.dieLinkLaneFault · dir lane) (Cond.unitServes ⟨20, dir, lane⟩)
      (Eff.dieLinkLaneFault dir lane)) ∧
  (∀ pair half : Nat, Happens (.checkedHalfMismatch · pair half) (Cond.unitServes ⟨21, pair, half⟩)
      (Eff.checkedHalfMismatch pair half)) ∧
  (∀ detail : Nat, Happens (.outOfScopeFault · detail) (fun _ => true) (fun a => a.outOfScope { detail })) ∧
  (∀ u : Unit3, Happens (fun t => .injectedUnitRestore t u.cls u.pool u.unit false)
      (fun a => a.ft.selfTest.contains u && !(Cond.tested u a).ft.selfTest.isEmpty) (Cond.tested u)) ∧
  (∀ u : Unit3, Happens (fun t => .injectedUnitRestore t u.cls u.pool u.unit false)
      (fun a => a.ft.selfTest.contains u && (Cond.tested u a).ft.selfTest.isEmpty)
      (Eff.injectedUnitRestore u)) ∧
  ∀ u : Unit3, Happens (fun t => .injectedUnitRestore t u.cls u.pool u.unit true) (fun a => a.ft.selfTest.contains u)
      (Eff.injectedUnitRestore2 u)

/-- The ID and SEC verbs and the Steward restart (R551, R552, R554, R555, R557, R558, R560, R563, R564, R565, R566, R567). Where the rules leave a point open, this is the model's choice: log entries 33, 76, 77, 78, 79 and 114. -/
def Obligations.IdentityAndSecurity : Prop :=
  (∀ (mems : List (Nat × List Byte)) (stuck : List Nat), Completes (.idScan · · · mems stuck) 0x1701
      (fun c _ => decide (u8 c.payload 0 ≤ 15) && zeros c.payload 1 3 && decide (c.room < 32))
      (Eff.idScan mems stuck)) ∧
  (∀ (mems : List (Nat × List Byte)) (stuck : List Nat), Completes (.idScan · · · mems stuck) 0x1701
      (fun c _ => decide (u8 c.payload 0 ≤ 15) && zeros c.payload 1 3 && decide (32 ≤ c.room))
      (Eff.idScan2 mems stuck)) ∧
  (∀ (mem : Option (List Byte)) (stuck : Bool), Completes (.idReadRecord · · · mem stuck) 0x1702
      (fun c a => Cond.idRead (Cond.idRecord mem stuck c a) c)
      (Eff.idReadRecord mem stuck)) ∧
  Completes .secGetCertificate 0x1801
    (fun c _ => decide (u8 c.payload 0 ≤ 2) && zeros c.payload 1 3 && decide ((Config.certificate (u8 c.payload 0)).length ≤ c.room))
    Eff.secGetCertificate ∧
  Completes .secAttest 0x1802 (fun c a => decide ((Cond.report c a).length ≤ c.room)) Eff.secAttest ∧
  (∀ (image : List Byte) (blown : Nat), Completes (.secUpdateFirmware · · · image blown) 0x1803
      (fun c a => Cond.loadable c a && (imageOf (Cond.firmware image c a) (u32 c.payload 4) (a.counter 0)).isNone)
      Eff.secUpdateFirmware) ∧
  (∀ (image : List Byte) (blown : Nat) (x : FwSlot), Completes (.secUpdateFirmware · · · image blown) 0x1803
      (fun c a => Cond.loadable c a && imageOf (Cond.firmware image c a) (u32 c.payload 4) (a.counter 0) == some x)
      (Eff.secUpdateFirmware2 x)) ∧
  (∀ (image : List Byte) (blown : Nat), Completes (.secUpdateFirmware · · · image blown) 0x1803
      (fun c a => Cond.secUpdate 1 c && a.sec.staged)
      Eff.secUpdateFirmware3) ∧
  (∀ (image : List Byte) (blown : Nat), Completes (.secUpdateFirmware · · · image blown) 0x1803
      (fun c a => Cond.secUpdate 2 c && a.sec.staged && !a.othersHold && a.host.cmds.all fun d => d.seq == c.seq)
      (fun c a => a.restartBegin.finish c .ok 0)) ∧
  (∀ (image : List Byte) (blown : Nat), Completes (.secUpdateFirmware · · · image blown) 0x1803
      (fun c a => Cond.secUpdate 3 c && !a.sec.recovery)
      (Eff.secUpdateFirmware4 blown)) ∧
  (∀ (s : State) (t fn tag blown : Nat) (image : List Byte) (c : Cmd), s.powered = true →
    (s.advance t).cmdOf fn tag = some c → c.started = true → c.opcode = 0x1803 → u8 c.payload 0 = 3 →
    (s.advance t).stewardRuns = true →
    exec (.secUpdateFirmware t fn tag image blown) s =
      .next (let b := (s.advance t).blowFuses blown; if b.committed then b.finish c .ok 0 else b)) ∧
  Completes .secSetOwnerKey 0x1804 Cond.secOwner Eff.secSetOwnerKey ∧
  Completes .secGetCounters 0x1805 (fun c _ => decide (64 ≤ c.room)) Eff.secGetCounters ∧
  (∀ ready : List Nat,
    Happens (.stewardRestartComplete · ready) (fun a => a.sec.restarting && a.sec.recovery) State.restartKept) ∧
  ∀ ready : List Nat, Happens (.stewardRestartComplete · ready) (fun a => a.sec.restarting && !a.sec.recovery)
      (Eff.stewardRestartComplete ready)

/-- Feeds, shutdown, power good, secure boot, readiness and boundary scan (R27, R159, R517, R533, R535, R557, R559, R576, R577, R592). Where the rules leave a point open, this is the model's choice: log entries 80, 81, 85, 86, 95, 114 and 133. -/
def Obligations.SupplyBootAndReadiness : Prop :=
  (∀ b : Bool, Occurs (.feedPresent · b) (fun a => a.isOff && !a.pw.shutdownLow) (Eff.feedPresent b)) ∧
  (∀ b : Bool, Occurs (.feedPresent · b) (fun a => a.isOff && a.pw.shutdownLow) (Eff.feedPresent2 b)) ∧
  (∀ b : Bool, Occurs (.feedLost · b) (fun a => a.pw.feed b && !a.pw.feed (!b))
    (fun a => (a.setFeed b false).cold .unpowered)) ∧
  (∀ b : Bool, Occurs (.feedLost · b) (fun a => a.pw.feed b && a.pw.feed (!b) && a.powered && a.pw.steward)
    (Eff.feedLost b)) ∧
  (∀ b : Bool, Occurs (.feedLost · b) (fun a => a.pw.feed b && a.pw.feed (!b) && !(a.powered && a.pw.steward))
    (fun a => a.setFeed b false)) ∧
  (∀ b : Bool, Occurs (.feedRestored · b) (fun a => !a.isOff && !a.pw.feed b && a.isRetired (feedUnit b))
    (Eff.feedRestored b)) ∧
  (∀ b : Bool, Occurs (.feedRestored · b) (fun a => !a.isOff && !a.pw.feed b && !a.isRetired (feedUnit b))
    (fun a => a.setFeed b true)) ∧
  Occurs .shutdownNLow (fun a => a.pw.feedA || a.pw.feedB) Eff.shutdownNLow ∧
  Occurs .shutdownNLow (fun a => !(a.pw.feedA || a.pw.feedB)) Eff.shutdownNLow2 ∧
  Occurs .shutdownNRise (fun a => a.isOff && (a.pw.feedA || a.pw.feedB)) Eff.shutdownNRise ∧
  Occurs .shutdownNRise (fun a => !(a.isOff && (a.pw.feedA || a.pw.feedB))) Eff.shutdownNRise2 ∧
  Occurs .powerGood (fun a => a.isOff && a.pw.rising && !a.pw.shutdownLow && (a.pw.feedA || a.pw.feedB)) Eff.powerGood ∧
  (∀ (ok : List Nat) (carrier : List Byte),
    Happens (.secureBoot · ok carrier) (fun a => Cond.booting ok a && ok.contains a.sec.active)
      (Eff.secureBoot carrier)) ∧
  (∀ (ok : List Nat) (carrier : List Byte), Happens (.secureBoot · ok carrier)
      (fun a => Cond.booting ok a && !ok.contains a.sec.active && ok.contains (1 - a.sec.active))
      (Eff.secureBoot2 carrier)) ∧
  (∀ carrier : List Byte, Happens (fun t => .secureBoot t [] carrier) (Cond.booting []) (Eff.secureBoot3 carrier)) ∧
  (∀ (b : Nat) (values : List Nat) (mems : List (Nat × List Byte)) (stuck : List Nat),
    Happens (.functionReady · b values () mems stuck) (fun a => Cond.firstReady b a && b != 29 && b != 30)
      (Eff.functionReady b values)) ∧
  (∀ (values : List Nat) (mems : List (Nat × List Byte)) (stuck : List Nat),
    Happens (.functionReady · 30 values () mems stuck) (Cond.firstReady 30) (Eff.functionReady2 mems stuck)) ∧
  (∀ (values : List Nat) (mems : List (Nat × List Byte)) (stuck : List Nat),
    Happens (.functionReady · 29 values () mems stuck) (Cond.firstReady 29) Eff.functionReady3) ∧
  (∀ (b : Nat) (values : List Nat) (mems : List (Nat × List Byte)) (stuck : List Nat),
    Happens (.functionReady · b values () mems stuck) (fun a => Cond.readyAgain b a && b != 29 && b != 30)
      (Eff.functionReady4 b)) ∧
  (∀ b detail : Nat, Happens (.readyTimeout · b 22 0 0 detail) (fun a => a.canFail b && b != 30)
      (Eff.readyTimeout b detail)) ∧
  (∀ detail : Nat, Happens (.readyTimeout · 30 22 0 0 detail) (fun a => a.canFail 30) (Eff.readyTimeout2 detail)) ∧
  (∀ (b detail : Nat) (u : Unit3), Happens (fun t => .readyTimeout t b u.cls u.pool u.unit detail)
      (fun a => a.canFail b && b != 30 && decide (u.pool < poolCount u.cls ∧ u.unit < poolUnits u.cls) && !a.isRetired u)
      (Eff.readyTimeout3 b detail u)) ∧
  Occurs (.tapInstructionLoad · 3) (fun a => !a.isOff) (Cond.scanHeld .extest) ∧
  Occurs (.tapInstructionLoad · 4) (fun a => !a.isOff) (Cond.scanHeld .clamp) ∧
  (∀ i : Nat, Occurs (.tapInstructionLoad · i) (fun a => !a.isOff && i != 3 && i != 4) (Eff.tapInstructionLoad i)) ∧
  Occurs .tapTestLogicReset (fun a => !a.isOff && a.sec.tapHeld) Eff.tapTestLogicReset ∧
  Occurs .tapTestLogicReset (fun a => !a.isOff && !a.sec.tapHeld) Eff.tapTestLogicReset2

/-- Function resets, the PCIe link, standby, thermal limits and the alert contact (R26, R27, R45, R513, R536, R573, R580, R582, R583, R585, R586). Where the rules leave a point open, this is the model's choice: log entries 17, 82, 83, 84, 100, 101 and 117. -/
def Obligations.ResetsLinkAndThermal : Prop :=
  Happens .perstNAssert (fun a => a.pw.state == .running) Eff.perstNAssert ∧
  Happens .perstNRelease (fun _ => true) Eff.perstNRelease ∧
  Happens .hotReset (fun _ => true) Eff.hotReset ∧
  (∀ fn : Nat, Happens (.functionLevelReset · fn) (fun _ => decide (fn < 2)) (fun a => a.resetFn fn)) ∧
  (∀ width speed : Nat, Happens (.linkL0Reached · width speed)
      (fun a => !a.host.perst && !a.host.untrainable && a.linkWidths.contains width && decide (1 ≤ speed) && decide (speed ≤ 5))
      (Eff.linkL0Reached width speed)) ∧
  (∀ lane width : Nat, Happens (fun t => .pcieLaneFailure t [lane] width)
      (fun a => decide (lane ≤ 15) && !a.halfDead (lane / 8) && !a.halfDead (1 - lane / 8))
      (Eff.pcieLaneFailure lane)) ∧
  (∀ (lane width : Nat), Happens (fun t => .pcieLaneFailure t [lane] width)
      (fun a => decide (lane ≤ 15) && !a.halfDead (lane / 8) && a.halfDead (1 - lane / 8) && decide (4 ≤ width) &&
        a.host.linkWidth != 0)
      (Eff.pcieLaneFailure2 lane)) ∧
  (∀ (fn : Nat) (l2 : Bool),
    Happens (.functionD3hot · fn l2) (fun a => decide (fn ≤ 1) && Cond.mayStandBy (Cond.asleep fn l2 a))
      (fun a => (Cond.asleep fn l2 a).enterStandby)) ∧
  (∀ (fn : Nat) (l2 : Bool),
    Happens (.functionD3hot · fn l2) (fun a => decide (fn ≤ 1) && !Cond.mayStandBy (Cond.asleep fn l2 a))
      (Cond.asleep fn l2)) ∧
  (∀ fn : Nat, Happens (.functionD0 · fn) (fun _ => decide (fn ≤ 1)) (Eff.functionD0 fn)) ∧
  (∀ bits : Nat, Happens (.standbyWake · bits) (fun a => a.pw.state == .standby && a.pw.wakeDue)
      (Eff.standbyWake bits)) ∧
  (∀ bits : Nat, Happens (.standbyWake · bits) (fun a => a.pw.state == .running && !a.pw.wakeDue)
      (Eff.standbyWake2 bits)) ∧
  Happens .aliveToggle (fun a => a.stewardRuns && !a.sec.recovery) Eff.aliveToggle ∧
  Happens .thermalWarning (fun _ => true) (fun a => a.setAlert 1) ∧
  Happens (.thermalThrottleStep · true) (fun a => a.pw.stepDue a.now) Eff.thermalThrottleStep ∧
  (∀ w : Nat, Happens (.thermalThrottleStep · false) (fun a => a.pw.stepDue a.now && a.pw.thermalCap == some w)
      (Eff.thermalThrottleStep2 w)) ∧
  (∀ channel : Nat, Happens (.thermalTrip · channel) (fun a => a.pw.state != .thermalTrip) (Eff.thermalTrip channel)) ∧
  (∀ value holds : Nat, Happens (.smbAlertStatusClear · value holds) (fun _ => true)
      (Eff.smbAlertStatusClear value holds)) ∧
  Happens .smbAlertResponse (fun a => a.smbAlertN) (fun a => a.emit (.smbus 0x2C))

/-- Cellar, the waveform memories and the byte arrays of the windows stay in canonical form: every step from a state that has them so, reachable or not, keeps it, whichever command stands in front. Where the rules leave a point open, this is the model's choice: log entry 3. -/
def Obligations.MemoriesStayCanonical : Prop :=
  ∀ s s' : State, s.memoryWf = true → step s = .next s' → s'.memoryWf = true

/-- What State.reset holds: nothing runs, and each register of the windows at the reset value its table gives (R27, R31, R36, R75, R81, R578). Where the rules leave a point open, this is the model's choice: log entries 4 and 97. -/
def Obligations.ResetState : Prop :=
  State.reset.memoryWf = true ∧ State.reset.powered = false ∧ State.reset.pending = [] ∧ State.reset.host.cmds = [] ∧
    State.reset.now = 0 ∧ State.reset.pw.tickRunning = false ∧ State.reset.ready = 0 ∧ State.reset.regions = [] ∧
    State.reset.host.link = .down ∧
    (∀ fn : Nat, (State.reset.func fn).session = 0 ∧ (State.reset.func fn).keyOpen = false ∧
      (∀ n : Nat, (State.reset.chan fn n).owner = 0 ∧ (State.reset.chan fn n).awaiting = false) ∧
      (∀ c i, ((State.reset.func fn).ring c i).enabled = false)) ∧
    State.reset.fcw.enable = true ∧ State.reset.fcw.keyRefused = false ∧ State.reset.fcw.rwpDropped = false ∧
    State.reset.fcw.resyncBusy = false ∧ State.reset.fcw.resyncMask = 0 ∧ State.reset.fcw.occ = [] ∧
    (∀ g : Nat, State.reset.fcw.strobeSeq.get g 0 = 0 ∧ State.reset.fcw.applied.get g 0 = 0) ∧
    (∀ o : Nat, State.reset.fcw.shadow.get o (shadowReset o) =
      if 0x3000 ≤ o ∧ o < 0x4020 ∧ o % 0x10 = 4 then 0xFFFF else 0)

/-- No command ends a run: `step` answers a next state on every state with a command waiting, and the queue left is what stood behind it; the block idles on an empty queue (log entry 1). -/
def Obligations.EveryCommandAnswers : Prop :=
  (∀ (c : Instr) (q : List Instr) (s : State), ∃ s', step (s.withPending (c :: q)) = .next s' ∧ s'.pending = q) ∧
  ∀ s : State, s.answers

/-- TICK runs forward or starts again from 0, what was sent is never taken back, and free values are never drawn twice (R88, R90). Where the rules leave a point open, this is the model's choice: log entries 5, 6 and 7. -/
def Obligations.ClockOutputsAndFreeValues : Prop :=
  ∀ (i : Instr) (s s' : State), exec i s = .next s' →
    (s.now ≤ s'.now ∨ s'.now = 0) ∧ s.out <:+ s'.out ∧ s.freeDrawn ≤ s'.freeDrawn

/-- In a module that is not powered, or that the boundary scan chain holds, every other row leaves the whole state as it was. Where the rules leave a point open, this is the model's choice: log entries 8 and 86. -/
def Obligations.WithoutPowerNothingHappens : Prop :=
  ∀ (i : Instr) (s : State), s.powered = false → Cond.actsUnpowered i = false → exec i s = .next s

/-- The key of the fast control window, and a posted write while the register is busy (R77, R78). -/
def Obligations.KeyAndPostedWrites : Prop :=
  ∀ (s : State) (t : Nat), s.powered = true → (s.advance t).hostAccess = true →
    let a := s.advance t
    (∀ fn value : Nat, fn < 2 → exec (.keyUnlockWrite t fn value) s =
      .next (a.setFunc fn { a.func fn with keyOpen := decide (value = 0x7840) })) ∧
    (∀ value : Nat, (a.func 0).keyOpen = true → exec (.fcwEnableWrite t value true) s =
      .next ((a.setFunc 0 { a.func 0 with keyOpen := false }).setFcw { a.fcw with enable := value.testBit 0 })) ∧
    (∀ value : Nat, (a.func 0).keyOpen = false → exec (.fcwEnableWrite t value true) s =
      .next (a.setFcw { a.fcw with keyRefused := true })) ∧
    (∀ value : Nat, exec (.fcwEnableWrite t value false) s = .next a) ∧
    (∀ mask : Nat, a.fcw.resyncBusy = true → exec (.fcwResyncWrite t mask true) s =
      .next (a.setFcw { a.fcw with rwpDropped := true }))

/-- R197: an increment raises one cell by 1 and stops at 0xFFFF_FFFF; an increment that is lost raises SAT_INCREMENTS by 1, which stops at 0xFFFF_FFFF too; every other cell keeps its count. -/
def Obligations.DensityCellsSaturate : Prop :=
  ∀ (x : Plane) (row col : Nat), x.cells.get (row * 4096 + col) 0 ≤ 0xFFFFFFFF → x.satInc ≤ 0xFFFFFFFF →
    (x.increment row col).cells.get (row * 4096 + col) 0 = min (x.cells.get (row * 4096 + col) 0 + 1) 0xFFFFFFFF ∧
    (x.increment row col).satInc =
      (if x.cells.get (row * 4096 + col) 0 = 0xFFFFFFFF then min (x.satInc + 1) 0xFFFFFFFF else x.satInc) ∧
    ∀ k : Nat, k ≠ row * 4096 + col → (x.increment row col).cells.get k 0 = x.cells.get k 0

/-- A new session number is nonzero and differs from the function's previous one, which a reset remembers (R59). Where the rules leave a point open, this is the model's choice: log entry 14. -/
def Obligations.SessionNumbersAreNew : Prop :=
  (∀ (s : State) (fn : Nat), (s.func fn).session ≠ 0 → s.withSession fn = s) ∧
  (∀ (s : State) (fn : Nat), (s.func fn).session = 0 → ∃ n : Nat, n ≠ 0 ∧ n ≠ (s.func fn).lastSession ∧ n < 2 ^ 32 ∧
      (s.withSession fn).func fn = { s.func fn with session := n } ∧
      ∀ k : Nat, k ≠ fn → (s.withSession fn).func k = s.func k) ∧
  ∀ (f : Func), f.session ≠ 0 → f.afterReset.session = 0 ∧ f.afterReset.lastSession = f.session
end

