-- ==== Sys2Proof/Laws/Bytes.lean ====
section
/-! SUPPORT. Lengths of little-endian fields and blocks. -/

namespace Sys2Proof.Machine

/-- A little-endian field has the bytes it is given. -/
@[simp] theorem leBytes_length (n v : Nat) : (leBytes n v).length = n := by
  induction n generalizing v with
  | zero => rfl
  | succ n ih => simp [leBytes, ih]

/-- A block is as long as its fields together. -/
theorem pack_length (l : List (Nat × Nat)) : (pack l).length = (l.map Prod.fst).sum := by
  induction l with
  | nil => rfl
  | cons e l ih => simp [pack, ih]

/-- A stamp takes 16 bytes. -/
@[simp] theorem stampBytes_length (st : Stamp) : (stampBytes st).length = 16 := by simp [stampBytes]

end Sys2Proof.Machine
end

