-- ==== Sys2Proof/Laws/Maps.lean ====
section
/-! SUPPORT. Laws of finite maps: what a lookup gives after `set`, `del` and `mapVals`, and what holds of every entry. -/

namespace Sys2Proof

variable {α : Type}

/-- A key that was set holds its new value. -/
@[simp] theorem KMap.get_set_self (m : KMap α) (k : Nat) (v d : α) : (m.set k v).get k d = v := by
  induction m with
  | nil => simp [KMap.set, KMap.get]
  | cons e m ih =>
    obtain ⟨j, w⟩ := e
    simp only [KMap.set]
    split
    · simp [KMap.get]
    · split
      · simp [KMap.get]
      · rename_i h; simp [KMap.get, Ne.symm h, ih]

/-- Every other key holds what it held. -/
theorem KMap.get_set_ne (m : KMap α) {k j : Nat} (v d : α) (h : j ≠ k) : (m.set k v).get j d = m.get j d := by
  induction m with
  | nil => simp [KMap.set, KMap.get, Ne.symm h]
  | cons e m ih =>
    obtain ⟨i, w⟩ := e
    simp only [KMap.set]
    split
    · simp [KMap.get, Ne.symm h]
    · split
      · rename_i hk; subst hk; simp [KMap.get, Ne.symm h]
      · simp only [KMap.get]; split <;> simp [ih]

/-- A key that was set is listed with its value. -/
@[simp] theorem KMap.find_set_self (m : KMap α) (k : Nat) (v : α) : (m.set k v).find k = some v := by
  induction m with
  | nil => simp [KMap.set, KMap.find]
  | cons e m ih =>
    obtain ⟨j, w⟩ := e
    simp only [KMap.set]
    split
    · simp [KMap.find]
    · split
      · simp [KMap.find]
      · rename_i h; simp [KMap.find, Ne.symm h, ih]

/-- What holds of every entry goes on holding when a value for which it holds is set. -/
theorem KMap.all_set {m : KMap α} {p : Nat × α → Bool} (k : Nat) (v : α) (hm : m.all p = true) (hv : p (k, v) = true) :
    (m.set k v).all p = true := by
  induction m with
  | nil => simpa [KMap.set] using hv
  | cons e m ih =>
    obtain ⟨j, w⟩ := e
    simp only [List.all_cons, Bool.and_eq_true] at hm
    simp only [KMap.set]
    split
    · simp only [List.all_cons, hv, hm, Bool.and_self]
    · split
      · simp only [List.all_cons, hv, hm, Bool.and_self]
      · simp only [List.all_cons, hm, ih hm.2, Bool.and_self]

/-- What holds of every entry goes on holding when one is taken out. -/
theorem KMap.all_del {m : KMap α} {p : Nat × α → Bool} (k : Nat) (hm : m.all p = true) : (m.del k).all p = true := by
  induction m with
  | nil => rfl
  | cons e m ih =>
    obtain ⟨j, w⟩ := e
    simp only [List.all_cons, Bool.and_eq_true] at hm
    simp only [KMap.del]
    split
    · exact hm.2
    · simp only [List.all_cons, hm, ih hm.2, Bool.and_self]

/-- What holds of every listed value, and of the value for the others, holds of what a lookup gives. -/
theorem KMap.all_get {m : KMap α} {p : α → Bool} (k : Nat) (d : α) (hm : (m.all fun e => p e.2) = true) (hd : p d = true) :
    p (m.get k d) = true := by
  induction m with
  | nil => exact hd
  | cons e m ih =>
    obtain ⟨j, w⟩ := e
    simp only [List.all_cons, Bool.and_eq_true] at hm
    simp only [KMap.get]
    split
    · exact hm.1
    · exact ih hm.2

/-- What holds of every entry holds of the entries that a change keeps it of. -/
theorem KMap.all_mapVals {f : Nat → α → α} {p : α → Bool} {m : KMap α} (hf : ∀ k x, p x = true → p (f k x) = true)
    (h : (m.all fun e => p e.2) = true) : ((m.mapVals f).all fun e => p e.2) = true := by
  unfold KMap.mapVals
  simp only [List.all_map, List.all_eq_true, Function.comp] at h ⊢
  exact fun e he => hf _ _ (h e he)

end Sys2Proof
end

