-- ==== Sys2Proof/Laws/State.lean ====
section
/-! SUPPORT. What each update of the state leaves as it was, one conjunct per field, and what its own unit reads as
after it; no proof unfolds a record update. -/

namespace Sys2Proof.Machine

@[simp] theorem State.emit_frame (s : State) (o : Out) :
    (s.emit o).pending = s.pending ∧ (s.emit o).now = s.now ∧ (s.emit o).freeDrawn = s.freeDrawn ∧
    (s.emit o).pw = s.pw ∧ (s.emit o).ready = s.ready ∧ (s.emit o).host = s.host ∧ (s.emit o).fcw = s.fcw ∧
    (s.emit o).ck = s.ck ∧ (s.emit o).inputs = s.inputs ∧ (s.emit o).ddcs = s.ddcs ∧ (s.emit o).press = s.press ∧
    (s.emit o).spec = s.spec ∧ (s.emit o).trig = s.trig ∧ (s.emit o).ctxs = s.ctxs ∧ (s.emit o).cores = s.cores ∧
    (s.emit o).pat = s.pat ∧ (s.emit o).pe = s.pe ∧ (s.emit o).sideDead = s.sideDead ∧ (s.emit o).stim = s.stim ∧
    (s.emit o).vine = s.vine ∧ (s.emit o).tiu = s.tiu ∧ (s.emit o).tiuGroups = s.tiuGroups ∧ (s.emit o).mon = s.mon ∧
    (s.emit o).offered = s.offered ∧ (s.emit o).rack = s.rack ∧ (s.emit o).ports = s.ports ∧
    (s.emit o).disp = s.disp ∧ (s.emit o).cellarMem = s.cellarMem ∧ (s.emit o).regions = s.regions ∧
    (s.emit o).cell = s.cell ∧ (s.emit o).bud = s.bud ∧ (s.emit o).cellarOp = s.cellarOp ∧ (s.emit o).ft = s.ft ∧
    (s.emit o).cal = s.cal ∧ (s.emit o).sec = s.sec :=
  ⟨rfl, rfl, rfl, rfl, rfl, rfl, rfl, rfl, rfl, rfl, rfl, rfl, rfl, rfl, rfl, rfl, rfl, rfl, rfl, rfl, rfl, rfl,
    rfl, rfl, rfl, rfl, rfl, rfl, rfl, rfl, rfl, rfl, rfl, rfl, rfl⟩

@[simp] theorem State.drawFree_frame (s : State) :
    s.drawFree.pending = s.pending ∧ s.drawFree.now = s.now ∧ s.drawFree.out = s.out ∧ s.drawFree.pw = s.pw ∧
    s.drawFree.ready = s.ready ∧ s.drawFree.host = s.host ∧ s.drawFree.fcw = s.fcw ∧ s.drawFree.ck = s.ck ∧
    s.drawFree.inputs = s.inputs ∧ s.drawFree.ddcs = s.ddcs ∧ s.drawFree.press = s.press ∧ s.drawFree.spec = s.spec ∧
    s.drawFree.trig = s.trig ∧ s.drawFree.ctxs = s.ctxs ∧ s.drawFree.cores = s.cores ∧ s.drawFree.pat = s.pat ∧
    s.drawFree.pe = s.pe ∧ s.drawFree.sideDead = s.sideDead ∧ s.drawFree.stim = s.stim ∧ s.drawFree.vine = s.vine ∧
    s.drawFree.tiu = s.tiu ∧ s.drawFree.tiuGroups = s.tiuGroups ∧ s.drawFree.mon = s.mon ∧
    s.drawFree.offered = s.offered ∧ s.drawFree.rack = s.rack ∧ s.drawFree.ports = s.ports ∧
    s.drawFree.disp = s.disp ∧ s.drawFree.cellarMem = s.cellarMem ∧ s.drawFree.regions = s.regions ∧
    s.drawFree.cell = s.cell ∧ s.drawFree.bud = s.bud ∧ s.drawFree.cellarOp = s.cellarOp ∧ s.drawFree.ft = s.ft ∧
    s.drawFree.cal = s.cal ∧ s.drawFree.sec = s.sec :=
  ⟨rfl, rfl, rfl, rfl, rfl, rfl, rfl, rfl, rfl, rfl, rfl, rfl, rfl, rfl, rfl, rfl, rfl, rfl, rfl, rfl, rfl, rfl,
    rfl, rfl, rfl, rfl, rfl, rfl, rfl, rfl, rfl, rfl, rfl, rfl, rfl⟩

@[simp] theorem State.withPending_frame (s : State) (q : List Instr) :
    (s.withPending q).now = s.now ∧ (s.withPending q).out = s.out ∧ (s.withPending q).freeDrawn = s.freeDrawn ∧
    (s.withPending q).pw = s.pw ∧ (s.withPending q).ready = s.ready ∧ (s.withPending q).host = s.host ∧
    (s.withPending q).fcw = s.fcw ∧ (s.withPending q).ck = s.ck ∧ (s.withPending q).inputs = s.inputs ∧
    (s.withPending q).ddcs = s.ddcs ∧ (s.withPending q).press = s.press ∧ (s.withPending q).spec = s.spec ∧
    (s.withPending q).trig = s.trig ∧ (s.withPending q).ctxs = s.ctxs ∧ (s.withPending q).cores = s.cores ∧
    (s.withPending q).pat = s.pat ∧ (s.withPending q).pe = s.pe ∧ (s.withPending q).sideDead = s.sideDead ∧
    (s.withPending q).stim = s.stim ∧ (s.withPending q).vine = s.vine ∧ (s.withPending q).tiu = s.tiu ∧
    (s.withPending q).tiuGroups = s.tiuGroups ∧ (s.withPending q).mon = s.mon ∧
    (s.withPending q).offered = s.offered ∧ (s.withPending q).rack = s.rack ∧ (s.withPending q).ports = s.ports ∧
    (s.withPending q).disp = s.disp ∧ (s.withPending q).cellarMem = s.cellarMem ∧
    (s.withPending q).regions = s.regions ∧ (s.withPending q).cell = s.cell ∧ (s.withPending q).bud = s.bud ∧
    (s.withPending q).cellarOp = s.cellarOp ∧ (s.withPending q).ft = s.ft ∧ (s.withPending q).cal = s.cal ∧
    (s.withPending q).sec = s.sec :=
  ⟨rfl, rfl, rfl, rfl, rfl, rfl, rfl, rfl, rfl, rfl, rfl, rfl, rfl, rfl, rfl, rfl, rfl, rfl, rfl, rfl, rfl, rfl,
    rfl, rfl, rfl, rfl, rfl, rfl, rfl, rfl, rfl, rfl, rfl, rfl, rfl⟩

@[simp] theorem State.setReady_frame (s : State) (b : Nat) :
    (s.setReady b).pending = s.pending ∧ (s.setReady b).now = s.now ∧ (s.setReady b).out = s.out ∧
    (s.setReady b).freeDrawn = s.freeDrawn ∧ (s.setReady b).pw = s.pw ∧ (s.setReady b).host = s.host ∧
    (s.setReady b).fcw = s.fcw ∧ (s.setReady b).ck = s.ck ∧ (s.setReady b).inputs = s.inputs ∧
    (s.setReady b).ddcs = s.ddcs ∧ (s.setReady b).press = s.press ∧ (s.setReady b).spec = s.spec ∧
    (s.setReady b).trig = s.trig ∧ (s.setReady b).ctxs = s.ctxs ∧ (s.setReady b).cores = s.cores ∧
    (s.setReady b).pat = s.pat ∧ (s.setReady b).pe = s.pe ∧ (s.setReady b).sideDead = s.sideDead ∧
    (s.setReady b).stim = s.stim ∧ (s.setReady b).vine = s.vine ∧ (s.setReady b).tiu = s.tiu ∧
    (s.setReady b).tiuGroups = s.tiuGroups ∧ (s.setReady b).mon = s.mon ∧ (s.setReady b).offered = s.offered ∧
    (s.setReady b).rack = s.rack ∧ (s.setReady b).ports = s.ports ∧ (s.setReady b).disp = s.disp ∧
    (s.setReady b).cellarMem = s.cellarMem ∧ (s.setReady b).regions = s.regions ∧ (s.setReady b).cell = s.cell ∧
    (s.setReady b).bud = s.bud ∧ (s.setReady b).cellarOp = s.cellarOp ∧ (s.setReady b).ft = s.ft ∧
    (s.setReady b).cal = s.cal ∧ (s.setReady b).sec = s.sec :=
  ⟨rfl, rfl, rfl, rfl, rfl, rfl, rfl, rfl, rfl, rfl, rfl, rfl, rfl, rfl, rfl, rfl, rfl, rfl, rfl, rfl, rfl, rfl,
    rfl, rfl, rfl, rfl, rfl, rfl, rfl, rfl, rfl, rfl, rfl, rfl, rfl⟩

@[simp] theorem State.setAlert_frame (s : State) (m : Nat) :
    (s.setAlert m).pending = s.pending ∧ (s.setAlert m).now = s.now ∧ (s.setAlert m).out = s.out ∧
    (s.setAlert m).freeDrawn = s.freeDrawn ∧ (s.setAlert m).ready = s.ready ∧ (s.setAlert m).host = s.host ∧
    (s.setAlert m).fcw = s.fcw ∧ (s.setAlert m).ck = s.ck ∧ (s.setAlert m).inputs = s.inputs ∧
    (s.setAlert m).ddcs = s.ddcs ∧ (s.setAlert m).press = s.press ∧ (s.setAlert m).spec = s.spec ∧
    (s.setAlert m).trig = s.trig ∧ (s.setAlert m).ctxs = s.ctxs ∧ (s.setAlert m).cores = s.cores ∧
    (s.setAlert m).pat = s.pat ∧ (s.setAlert m).pe = s.pe ∧ (s.setAlert m).sideDead = s.sideDead ∧
    (s.setAlert m).stim = s.stim ∧ (s.setAlert m).vine = s.vine ∧ (s.setAlert m).tiu = s.tiu ∧
    (s.setAlert m).tiuGroups = s.tiuGroups ∧ (s.setAlert m).mon = s.mon ∧ (s.setAlert m).offered = s.offered ∧
    (s.setAlert m).rack = s.rack ∧ (s.setAlert m).ports = s.ports ∧ (s.setAlert m).disp = s.disp ∧
    (s.setAlert m).cellarMem = s.cellarMem ∧ (s.setAlert m).regions = s.regions ∧ (s.setAlert m).cell = s.cell ∧
    (s.setAlert m).bud = s.bud ∧ (s.setAlert m).cellarOp = s.cellarOp ∧ (s.setAlert m).ft = s.ft ∧
    (s.setAlert m).cal = s.cal ∧ (s.setAlert m).sec = s.sec :=
  ⟨rfl, rfl, rfl, rfl, rfl, rfl, rfl, rfl, rfl, rfl, rfl, rfl, rfl, rfl, rfl, rfl, rfl, rfl, rfl, rfl, rfl, rfl,
    rfl, rfl, rfl, rfl, rfl, rfl, rfl, rfl, rfl, rfl, rfl, rfl, rfl⟩

@[simp] theorem State.setFeed_frame (s : State) (b on : Bool) :
    (s.setFeed b on).pending = s.pending ∧ (s.setFeed b on).now = s.now ∧ (s.setFeed b on).out = s.out ∧
    (s.setFeed b on).freeDrawn = s.freeDrawn ∧ (s.setFeed b on).ready = s.ready ∧ (s.setFeed b on).host = s.host ∧
    (s.setFeed b on).fcw = s.fcw ∧ (s.setFeed b on).ck = s.ck ∧ (s.setFeed b on).inputs = s.inputs ∧
    (s.setFeed b on).ddcs = s.ddcs ∧ (s.setFeed b on).press = s.press ∧ (s.setFeed b on).spec = s.spec ∧
    (s.setFeed b on).trig = s.trig ∧ (s.setFeed b on).ctxs = s.ctxs ∧ (s.setFeed b on).cores = s.cores ∧
    (s.setFeed b on).pat = s.pat ∧ (s.setFeed b on).pe = s.pe ∧ (s.setFeed b on).sideDead = s.sideDead ∧
    (s.setFeed b on).stim = s.stim ∧ (s.setFeed b on).vine = s.vine ∧ (s.setFeed b on).tiu = s.tiu ∧
    (s.setFeed b on).tiuGroups = s.tiuGroups ∧ (s.setFeed b on).mon = s.mon ∧ (s.setFeed b on).offered = s.offered ∧
    (s.setFeed b on).rack = s.rack ∧ (s.setFeed b on).ports = s.ports ∧ (s.setFeed b on).disp = s.disp ∧
    (s.setFeed b on).cellarMem = s.cellarMem ∧ (s.setFeed b on).regions = s.regions ∧
    (s.setFeed b on).cell = s.cell ∧ (s.setFeed b on).bud = s.bud ∧ (s.setFeed b on).cellarOp = s.cellarOp ∧
    (s.setFeed b on).ft = s.ft ∧ (s.setFeed b on).cal = s.cal ∧ (s.setFeed b on).sec = s.sec :=
  by cases b <;> exact ⟨rfl, rfl, rfl, rfl, rfl, rfl, rfl, rfl, rfl, rfl, rfl, rfl, rfl, rfl, rfl, rfl, rfl, rfl,
    rfl, rfl, rfl, rfl, rfl, rfl, rfl, rfl, rfl, rfl, rfl, rfl, rfl, rfl, rfl, rfl, rfl⟩

@[simp] theorem State.setFunc_frame (s : State) (k : Nat) (x : Func) :
    (s.setFunc k x).pending = s.pending ∧ (s.setFunc k x).now = s.now ∧ (s.setFunc k x).out = s.out ∧
    (s.setFunc k x).freeDrawn = s.freeDrawn ∧ (s.setFunc k x).pw = s.pw ∧ (s.setFunc k x).ready = s.ready ∧
    (s.setFunc k x).fcw = s.fcw ∧ (s.setFunc k x).ck = s.ck ∧ (s.setFunc k x).inputs = s.inputs ∧
    (s.setFunc k x).ddcs = s.ddcs ∧ (s.setFunc k x).press = s.press ∧ (s.setFunc k x).spec = s.spec ∧
    (s.setFunc k x).trig = s.trig ∧ (s.setFunc k x).ctxs = s.ctxs ∧ (s.setFunc k x).cores = s.cores ∧
    (s.setFunc k x).pat = s.pat ∧ (s.setFunc k x).pe = s.pe ∧ (s.setFunc k x).sideDead = s.sideDead ∧
    (s.setFunc k x).stim = s.stim ∧ (s.setFunc k x).vine = s.vine ∧ (s.setFunc k x).tiu = s.tiu ∧
    (s.setFunc k x).tiuGroups = s.tiuGroups ∧ (s.setFunc k x).mon = s.mon ∧ (s.setFunc k x).offered = s.offered ∧
    (s.setFunc k x).rack = s.rack ∧ (s.setFunc k x).ports = s.ports ∧ (s.setFunc k x).disp = s.disp ∧
    (s.setFunc k x).cellarMem = s.cellarMem ∧ (s.setFunc k x).regions = s.regions ∧ (s.setFunc k x).cell = s.cell ∧
    (s.setFunc k x).bud = s.bud ∧ (s.setFunc k x).cellarOp = s.cellarOp ∧ (s.setFunc k x).ft = s.ft ∧
    (s.setFunc k x).cal = s.cal ∧ (s.setFunc k x).sec = s.sec :=
  ⟨rfl, rfl, rfl, rfl, rfl, rfl, rfl, rfl, rfl, rfl, rfl, rfl, rfl, rfl, rfl, rfl, rfl, rfl, rfl, rfl, rfl, rfl,
    rfl, rfl, rfl, rfl, rfl, rfl, rfl, rfl, rfl, rfl, rfl, rfl, rfl⟩

@[simp] theorem State.setFunc_same (s : State) (k : Nat) (x : Func) : (s.setFunc k x).func k = x :=
  KMap.get_set_self ..

theorem State.setFunc_other (s : State) (k : Nat) (x : Func) {j : Nat} (h : j ≠ k) : (s.setFunc k x).func j = s.func j :=
  KMap.get_set_ne _ _ _ h

@[simp] theorem State.setFcw_frame (s : State) (x : Fcw) :
    (s.setFcw x).pending = s.pending ∧ (s.setFcw x).now = s.now ∧ (s.setFcw x).out = s.out ∧
    (s.setFcw x).freeDrawn = s.freeDrawn ∧ (s.setFcw x).pw = s.pw ∧ (s.setFcw x).ready = s.ready ∧
    (s.setFcw x).host = s.host ∧ (s.setFcw x).ck = s.ck ∧ (s.setFcw x).inputs = s.inputs ∧
    (s.setFcw x).ddcs = s.ddcs ∧ (s.setFcw x).press = s.press ∧ (s.setFcw x).spec = s.spec ∧
    (s.setFcw x).trig = s.trig ∧ (s.setFcw x).ctxs = s.ctxs ∧ (s.setFcw x).cores = s.cores ∧
    (s.setFcw x).pat = s.pat ∧ (s.setFcw x).pe = s.pe ∧ (s.setFcw x).sideDead = s.sideDead ∧
    (s.setFcw x).stim = s.stim ∧ (s.setFcw x).vine = s.vine ∧ (s.setFcw x).tiu = s.tiu ∧
    (s.setFcw x).tiuGroups = s.tiuGroups ∧ (s.setFcw x).mon = s.mon ∧ (s.setFcw x).offered = s.offered ∧
    (s.setFcw x).rack = s.rack ∧ (s.setFcw x).ports = s.ports ∧ (s.setFcw x).disp = s.disp ∧
    (s.setFcw x).cellarMem = s.cellarMem ∧ (s.setFcw x).regions = s.regions ∧ (s.setFcw x).cell = s.cell ∧
    (s.setFcw x).bud = s.bud ∧ (s.setFcw x).cellarOp = s.cellarOp ∧ (s.setFcw x).ft = s.ft ∧
    (s.setFcw x).cal = s.cal ∧ (s.setFcw x).sec = s.sec :=
  ⟨rfl, rfl, rfl, rfl, rfl, rfl, rfl, rfl, rfl, rfl, rfl, rfl, rfl, rfl, rfl, rfl, rfl, rfl, rfl, rfl, rfl, rfl,
    rfl, rfl, rfl, rfl, rfl, rfl, rfl, rfl, rfl, rfl, rfl, rfl, rfl⟩

@[simp] theorem State.setGen_frame (s : State) (k : Nat) (x : ClockGen) :
    (s.setGen k x).pending = s.pending ∧ (s.setGen k x).now = s.now ∧ (s.setGen k x).out = s.out ∧
    (s.setGen k x).freeDrawn = s.freeDrawn ∧ (s.setGen k x).pw = s.pw ∧ (s.setGen k x).ready = s.ready ∧
    (s.setGen k x).host = s.host ∧ (s.setGen k x).fcw = s.fcw ∧ (s.setGen k x).inputs = s.inputs ∧
    (s.setGen k x).ddcs = s.ddcs ∧ (s.setGen k x).press = s.press ∧ (s.setGen k x).spec = s.spec ∧
    (s.setGen k x).trig = s.trig ∧ (s.setGen k x).ctxs = s.ctxs ∧ (s.setGen k x).cores = s.cores ∧
    (s.setGen k x).pat = s.pat ∧ (s.setGen k x).pe = s.pe ∧ (s.setGen k x).sideDead = s.sideDead ∧
    (s.setGen k x).stim = s.stim ∧ (s.setGen k x).vine = s.vine ∧ (s.setGen k x).tiu = s.tiu ∧
    (s.setGen k x).tiuGroups = s.tiuGroups ∧ (s.setGen k x).mon = s.mon ∧ (s.setGen k x).offered = s.offered ∧
    (s.setGen k x).rack = s.rack ∧ (s.setGen k x).ports = s.ports ∧ (s.setGen k x).disp = s.disp ∧
    (s.setGen k x).cellarMem = s.cellarMem ∧ (s.setGen k x).regions = s.regions ∧ (s.setGen k x).cell = s.cell ∧
    (s.setGen k x).bud = s.bud ∧ (s.setGen k x).cellarOp = s.cellarOp ∧ (s.setGen k x).ft = s.ft ∧
    (s.setGen k x).cal = s.cal ∧ (s.setGen k x).sec = s.sec :=
  ⟨rfl, rfl, rfl, rfl, rfl, rfl, rfl, rfl, rfl, rfl, rfl, rfl, rfl, rfl, rfl, rfl, rfl, rfl, rfl, rfl, rfl, rfl,
    rfl, rfl, rfl, rfl, rfl, rfl, rfl, rfl, rfl, rfl, rfl, rfl, rfl⟩

@[simp] theorem State.setGen_same (s : State) (k : Nat) (x : ClockGen) : (s.setGen k x).gen k = x :=
  KMap.get_set_self ..

theorem State.setGen_other (s : State) (k : Nat) (x : ClockGen) {j : Nat} (h : j ≠ k) : (s.setGen k x).gen j = s.gen j :=
  KMap.get_set_ne _ _ _ h

@[simp] theorem State.setInput_frame (s : State) (k : Nat) (x : RfInput) :
    (s.setInput k x).pending = s.pending ∧ (s.setInput k x).now = s.now ∧ (s.setInput k x).out = s.out ∧
    (s.setInput k x).freeDrawn = s.freeDrawn ∧ (s.setInput k x).pw = s.pw ∧ (s.setInput k x).ready = s.ready ∧
    (s.setInput k x).host = s.host ∧ (s.setInput k x).fcw = s.fcw ∧ (s.setInput k x).ck = s.ck ∧
    (s.setInput k x).ddcs = s.ddcs ∧ (s.setInput k x).press = s.press ∧ (s.setInput k x).spec = s.spec ∧
    (s.setInput k x).trig = s.trig ∧ (s.setInput k x).ctxs = s.ctxs ∧ (s.setInput k x).cores = s.cores ∧
    (s.setInput k x).pat = s.pat ∧ (s.setInput k x).pe = s.pe ∧ (s.setInput k x).sideDead = s.sideDead ∧
    (s.setInput k x).stim = s.stim ∧ (s.setInput k x).vine = s.vine ∧ (s.setInput k x).tiu = s.tiu ∧
    (s.setInput k x).tiuGroups = s.tiuGroups ∧ (s.setInput k x).mon = s.mon ∧ (s.setInput k x).offered = s.offered ∧
    (s.setInput k x).rack = s.rack ∧ (s.setInput k x).ports = s.ports ∧ (s.setInput k x).disp = s.disp ∧
    (s.setInput k x).cellarMem = s.cellarMem ∧ (s.setInput k x).regions = s.regions ∧
    (s.setInput k x).cell = s.cell ∧ (s.setInput k x).bud = s.bud ∧ (s.setInput k x).cellarOp = s.cellarOp ∧
    (s.setInput k x).ft = s.ft ∧ (s.setInput k x).cal = s.cal ∧ (s.setInput k x).sec = s.sec :=
  ⟨rfl, rfl, rfl, rfl, rfl, rfl, rfl, rfl, rfl, rfl, rfl, rfl, rfl, rfl, rfl, rfl, rfl, rfl, rfl, rfl, rfl, rfl,
    rfl, rfl, rfl, rfl, rfl, rfl, rfl, rfl, rfl, rfl, rfl, rfl, rfl⟩

@[simp] theorem State.setInput_same (s : State) (k : Nat) (x : RfInput) : (s.setInput k x).input k = x :=
  KMap.get_set_self ..

theorem State.setInput_other (s : State) (k : Nat) (x : RfInput) {j : Nat} (h : j ≠ k) : (s.setInput k x).input j = s.input j :=
  KMap.get_set_ne _ _ _ h

@[simp] theorem State.setDdc_frame (s : State) (k : Nat) (x : Ddc) :
    (s.setDdc k x).pending = s.pending ∧ (s.setDdc k x).now = s.now ∧ (s.setDdc k x).out = s.out ∧
    (s.setDdc k x).freeDrawn = s.freeDrawn ∧ (s.setDdc k x).pw = s.pw ∧ (s.setDdc k x).ready = s.ready ∧
    (s.setDdc k x).host = s.host ∧ (s.setDdc k x).fcw = s.fcw ∧ (s.setDdc k x).ck = s.ck ∧
    (s.setDdc k x).inputs = s.inputs ∧ (s.setDdc k x).press = s.press ∧ (s.setDdc k x).spec = s.spec ∧
    (s.setDdc k x).trig = s.trig ∧ (s.setDdc k x).ctxs = s.ctxs ∧ (s.setDdc k x).cores = s.cores ∧
    (s.setDdc k x).pat = s.pat ∧ (s.setDdc k x).pe = s.pe ∧ (s.setDdc k x).sideDead = s.sideDead ∧
    (s.setDdc k x).stim = s.stim ∧ (s.setDdc k x).vine = s.vine ∧ (s.setDdc k x).tiu = s.tiu ∧
    (s.setDdc k x).tiuGroups = s.tiuGroups ∧ (s.setDdc k x).mon = s.mon ∧ (s.setDdc k x).offered = s.offered ∧
    (s.setDdc k x).rack = s.rack ∧ (s.setDdc k x).ports = s.ports ∧ (s.setDdc k x).disp = s.disp ∧
    (s.setDdc k x).cellarMem = s.cellarMem ∧ (s.setDdc k x).regions = s.regions ∧ (s.setDdc k x).cell = s.cell ∧
    (s.setDdc k x).bud = s.bud ∧ (s.setDdc k x).cellarOp = s.cellarOp ∧ (s.setDdc k x).ft = s.ft ∧
    (s.setDdc k x).cal = s.cal ∧ (s.setDdc k x).sec = s.sec :=
  ⟨rfl, rfl, rfl, rfl, rfl, rfl, rfl, rfl, rfl, rfl, rfl, rfl, rfl, rfl, rfl, rfl, rfl, rfl, rfl, rfl, rfl, rfl,
    rfl, rfl, rfl, rfl, rfl, rfl, rfl, rfl, rfl, rfl, rfl, rfl, rfl⟩

@[simp] theorem State.setDdc_same (s : State) (k : Nat) (x : Ddc) : (s.setDdc k x).ddc k = x :=
  KMap.get_set_self ..

theorem State.setDdc_other (s : State) (k : Nat) (x : Ddc) {j : Nat} (h : j ≠ k) : (s.setDdc k x).ddc j = s.ddc j :=
  KMap.get_set_ne _ _ _ h

@[simp] theorem State.setJob_frame (s : State) (k : Nat) (x : PressJob) :
    (s.setJob k x).pending = s.pending ∧ (s.setJob k x).now = s.now ∧ (s.setJob k x).out = s.out ∧
    (s.setJob k x).freeDrawn = s.freeDrawn ∧ (s.setJob k x).pw = s.pw ∧ (s.setJob k x).ready = s.ready ∧
    (s.setJob k x).host = s.host ∧ (s.setJob k x).fcw = s.fcw ∧ (s.setJob k x).ck = s.ck ∧
    (s.setJob k x).inputs = s.inputs ∧ (s.setJob k x).ddcs = s.ddcs ∧ (s.setJob k x).spec = s.spec ∧
    (s.setJob k x).trig = s.trig ∧ (s.setJob k x).ctxs = s.ctxs ∧ (s.setJob k x).cores = s.cores ∧
    (s.setJob k x).pat = s.pat ∧ (s.setJob k x).pe = s.pe ∧ (s.setJob k x).sideDead = s.sideDead ∧
    (s.setJob k x).stim = s.stim ∧ (s.setJob k x).vine = s.vine ∧ (s.setJob k x).tiu = s.tiu ∧
    (s.setJob k x).tiuGroups = s.tiuGroups ∧ (s.setJob k x).mon = s.mon ∧ (s.setJob k x).offered = s.offered ∧
    (s.setJob k x).rack = s.rack ∧ (s.setJob k x).ports = s.ports ∧ (s.setJob k x).disp = s.disp ∧
    (s.setJob k x).cellarMem = s.cellarMem ∧ (s.setJob k x).regions = s.regions ∧ (s.setJob k x).cell = s.cell ∧
    (s.setJob k x).bud = s.bud ∧ (s.setJob k x).cellarOp = s.cellarOp ∧ (s.setJob k x).ft = s.ft ∧
    (s.setJob k x).cal = s.cal ∧ (s.setJob k x).sec = s.sec :=
  ⟨rfl, rfl, rfl, rfl, rfl, rfl, rfl, rfl, rfl, rfl, rfl, rfl, rfl, rfl, rfl, rfl, rfl, rfl, rfl, rfl, rfl, rfl,
    rfl, rfl, rfl, rfl, rfl, rfl, rfl, rfl, rfl, rfl, rfl, rfl, rfl⟩

@[simp] theorem State.setJob_same (s : State) (k : Nat) (x : PressJob) : (s.setJob k x).job k = x :=
  KMap.get_set_self ..

theorem State.setJob_other (s : State) (k : Nat) (x : PressJob) {j : Nat} (h : j ≠ k) : (s.setJob k x).job j = s.job j :=
  KMap.get_set_ne _ _ _ h

@[simp] theorem State.setTrace_frame (s : State) (k : Nat) (x : Trace) :
    (s.setTrace k x).pending = s.pending ∧ (s.setTrace k x).now = s.now ∧ (s.setTrace k x).out = s.out ∧
    (s.setTrace k x).freeDrawn = s.freeDrawn ∧ (s.setTrace k x).pw = s.pw ∧ (s.setTrace k x).ready = s.ready ∧
    (s.setTrace k x).host = s.host ∧ (s.setTrace k x).fcw = s.fcw ∧ (s.setTrace k x).ck = s.ck ∧
    (s.setTrace k x).inputs = s.inputs ∧ (s.setTrace k x).ddcs = s.ddcs ∧ (s.setTrace k x).press = s.press ∧
    (s.setTrace k x).trig = s.trig ∧ (s.setTrace k x).ctxs = s.ctxs ∧ (s.setTrace k x).cores = s.cores ∧
    (s.setTrace k x).pat = s.pat ∧ (s.setTrace k x).pe = s.pe ∧ (s.setTrace k x).sideDead = s.sideDead ∧
    (s.setTrace k x).stim = s.stim ∧ (s.setTrace k x).vine = s.vine ∧ (s.setTrace k x).tiu = s.tiu ∧
    (s.setTrace k x).tiuGroups = s.tiuGroups ∧ (s.setTrace k x).mon = s.mon ∧ (s.setTrace k x).offered = s.offered ∧
    (s.setTrace k x).rack = s.rack ∧ (s.setTrace k x).ports = s.ports ∧ (s.setTrace k x).disp = s.disp ∧
    (s.setTrace k x).cellarMem = s.cellarMem ∧ (s.setTrace k x).regions = s.regions ∧
    (s.setTrace k x).cell = s.cell ∧ (s.setTrace k x).bud = s.bud ∧ (s.setTrace k x).cellarOp = s.cellarOp ∧
    (s.setTrace k x).ft = s.ft ∧ (s.setTrace k x).cal = s.cal ∧ (s.setTrace k x).sec = s.sec :=
  ⟨rfl, rfl, rfl, rfl, rfl, rfl, rfl, rfl, rfl, rfl, rfl, rfl, rfl, rfl, rfl, rfl, rfl, rfl, rfl, rfl, rfl, rfl,
    rfl, rfl, rfl, rfl, rfl, rfl, rfl, rfl, rfl, rfl, rfl, rfl, rfl⟩

@[simp] theorem State.setTrace_same (s : State) (k : Nat) (x : Trace) : (s.setTrace k x).trace k = x :=
  KMap.get_set_self ..

theorem State.setTrace_other (s : State) (k : Nat) (x : Trace) {j : Nat} (h : j ≠ k) : (s.setTrace k x).trace j = s.trace j :=
  KMap.get_set_ne _ _ _ h

@[simp] theorem State.setPlane_frame (s : State) (k : Nat) (x : Plane) :
    (s.setPlane k x).pending = s.pending ∧ (s.setPlane k x).now = s.now ∧ (s.setPlane k x).out = s.out ∧
    (s.setPlane k x).freeDrawn = s.freeDrawn ∧ (s.setPlane k x).pw = s.pw ∧ (s.setPlane k x).ready = s.ready ∧
    (s.setPlane k x).host = s.host ∧ (s.setPlane k x).fcw = s.fcw ∧ (s.setPlane k x).ck = s.ck ∧
    (s.setPlane k x).inputs = s.inputs ∧ (s.setPlane k x).ddcs = s.ddcs ∧ (s.setPlane k x).press = s.press ∧
    (s.setPlane k x).trig = s.trig ∧ (s.setPlane k x).ctxs = s.ctxs ∧ (s.setPlane k x).cores = s.cores ∧
    (s.setPlane k x).pat = s.pat ∧ (s.setPlane k x).pe = s.pe ∧ (s.setPlane k x).sideDead = s.sideDead ∧
    (s.setPlane k x).stim = s.stim ∧ (s.setPlane k x).vine = s.vine ∧ (s.setPlane k x).tiu = s.tiu ∧
    (s.setPlane k x).tiuGroups = s.tiuGroups ∧ (s.setPlane k x).mon = s.mon ∧ (s.setPlane k x).offered = s.offered ∧
    (s.setPlane k x).rack = s.rack ∧ (s.setPlane k x).ports = s.ports ∧ (s.setPlane k x).disp = s.disp ∧
    (s.setPlane k x).cellarMem = s.cellarMem ∧ (s.setPlane k x).regions = s.regions ∧
    (s.setPlane k x).cell = s.cell ∧ (s.setPlane k x).bud = s.bud ∧ (s.setPlane k x).cellarOp = s.cellarOp ∧
    (s.setPlane k x).ft = s.ft ∧ (s.setPlane k x).cal = s.cal ∧ (s.setPlane k x).sec = s.sec :=
  ⟨rfl, rfl, rfl, rfl, rfl, rfl, rfl, rfl, rfl, rfl, rfl, rfl, rfl, rfl, rfl, rfl, rfl, rfl, rfl, rfl, rfl, rfl,
    rfl, rfl, rfl, rfl, rfl, rfl, rfl, rfl, rfl, rfl, rfl, rfl, rfl⟩

@[simp] theorem State.setPlane_same (s : State) (k : Nat) (x : Plane) : (s.setPlane k x).plane k = x :=
  KMap.get_set_self ..

theorem State.setPlane_other (s : State) (k : Nat) (x : Plane) {j : Nat} (h : j ≠ k) : (s.setPlane k x).plane j = s.plane j :=
  KMap.get_set_ne _ _ _ h

@[simp] theorem State.setTunit_frame (s : State) (k : Nat) (x : TrigUnit) :
    (s.setTunit k x).pending = s.pending ∧ (s.setTunit k x).now = s.now ∧ (s.setTunit k x).out = s.out ∧
    (s.setTunit k x).freeDrawn = s.freeDrawn ∧ (s.setTunit k x).pw = s.pw ∧ (s.setTunit k x).ready = s.ready ∧
    (s.setTunit k x).host = s.host ∧ (s.setTunit k x).fcw = s.fcw ∧ (s.setTunit k x).ck = s.ck ∧
    (s.setTunit k x).inputs = s.inputs ∧ (s.setTunit k x).ddcs = s.ddcs ∧ (s.setTunit k x).press = s.press ∧
    (s.setTunit k x).spec = s.spec ∧ (s.setTunit k x).ctxs = s.ctxs ∧ (s.setTunit k x).cores = s.cores ∧
    (s.setTunit k x).pat = s.pat ∧ (s.setTunit k x).pe = s.pe ∧ (s.setTunit k x).sideDead = s.sideDead ∧
    (s.setTunit k x).stim = s.stim ∧ (s.setTunit k x).vine = s.vine ∧ (s.setTunit k x).tiu = s.tiu ∧
    (s.setTunit k x).tiuGroups = s.tiuGroups ∧ (s.setTunit k x).mon = s.mon ∧ (s.setTunit k x).offered = s.offered ∧
    (s.setTunit k x).rack = s.rack ∧ (s.setTunit k x).ports = s.ports ∧ (s.setTunit k x).disp = s.disp ∧
    (s.setTunit k x).cellarMem = s.cellarMem ∧ (s.setTunit k x).regions = s.regions ∧
    (s.setTunit k x).cell = s.cell ∧ (s.setTunit k x).bud = s.bud ∧ (s.setTunit k x).cellarOp = s.cellarOp ∧
    (s.setTunit k x).ft = s.ft ∧ (s.setTunit k x).cal = s.cal ∧ (s.setTunit k x).sec = s.sec :=
  ⟨rfl, rfl, rfl, rfl, rfl, rfl, rfl, rfl, rfl, rfl, rfl, rfl, rfl, rfl, rfl, rfl, rfl, rfl, rfl, rfl, rfl, rfl,
    rfl, rfl, rfl, rfl, rfl, rfl, rfl, rfl, rfl, rfl, rfl, rfl, rfl⟩

@[simp] theorem State.setTunit_same (s : State) (k : Nat) (x : TrigUnit) : (s.setTunit k x).tunit k = x :=
  KMap.get_set_self ..

theorem State.setTunit_other (s : State) (k : Nat) (x : TrigUnit) {j : Nat} (h : j ≠ k) : (s.setTunit k x).tunit j = s.tunit j :=
  KMap.get_set_ne _ _ _ h

@[simp] theorem State.setCtx_frame (s : State) (k : Nat) (x : Ctx) :
    (s.setCtx k x).pending = s.pending ∧ (s.setCtx k x).now = s.now ∧ (s.setCtx k x).out = s.out ∧
    (s.setCtx k x).freeDrawn = s.freeDrawn ∧ (s.setCtx k x).pw = s.pw ∧ (s.setCtx k x).ready = s.ready ∧
    (s.setCtx k x).host = s.host ∧ (s.setCtx k x).fcw = s.fcw ∧ (s.setCtx k x).ck = s.ck ∧
    (s.setCtx k x).inputs = s.inputs ∧ (s.setCtx k x).ddcs = s.ddcs ∧ (s.setCtx k x).press = s.press ∧
    (s.setCtx k x).spec = s.spec ∧ (s.setCtx k x).trig = s.trig ∧ (s.setCtx k x).cores = s.cores ∧
    (s.setCtx k x).pat = s.pat ∧ (s.setCtx k x).pe = s.pe ∧ (s.setCtx k x).sideDead = s.sideDead ∧
    (s.setCtx k x).stim = s.stim ∧ (s.setCtx k x).vine = s.vine ∧ (s.setCtx k x).tiu = s.tiu ∧
    (s.setCtx k x).tiuGroups = s.tiuGroups ∧ (s.setCtx k x).mon = s.mon ∧ (s.setCtx k x).offered = s.offered ∧
    (s.setCtx k x).rack = s.rack ∧ (s.setCtx k x).ports = s.ports ∧ (s.setCtx k x).disp = s.disp ∧
    (s.setCtx k x).cellarMem = s.cellarMem ∧ (s.setCtx k x).regions = s.regions ∧ (s.setCtx k x).cell = s.cell ∧
    (s.setCtx k x).bud = s.bud ∧ (s.setCtx k x).cellarOp = s.cellarOp ∧ (s.setCtx k x).ft = s.ft ∧
    (s.setCtx k x).cal = s.cal ∧ (s.setCtx k x).sec = s.sec :=
  ⟨rfl, rfl, rfl, rfl, rfl, rfl, rfl, rfl, rfl, rfl, rfl, rfl, rfl, rfl, rfl, rfl, rfl, rfl, rfl, rfl, rfl, rfl,
    rfl, rfl, rfl, rfl, rfl, rfl, rfl, rfl, rfl, rfl, rfl, rfl, rfl⟩

@[simp] theorem State.setCtx_same (s : State) (k : Nat) (x : Ctx) : (s.setCtx k x).ctx k = x :=
  KMap.get_set_self ..

theorem State.setCtx_other (s : State) (k : Nat) (x : Ctx) {j : Nat} (h : j ≠ k) : (s.setCtx k x).ctx j = s.ctx j :=
  KMap.get_set_ne _ _ _ h

@[simp] theorem State.setCore_frame (s : State) (k : Nat) (x : Core) :
    (s.setCore k x).pending = s.pending ∧ (s.setCore k x).now = s.now ∧ (s.setCore k x).out = s.out ∧
    (s.setCore k x).freeDrawn = s.freeDrawn ∧ (s.setCore k x).pw = s.pw ∧ (s.setCore k x).ready = s.ready ∧
    (s.setCore k x).host = s.host ∧ (s.setCore k x).fcw = s.fcw ∧ (s.setCore k x).ck = s.ck ∧
    (s.setCore k x).inputs = s.inputs ∧ (s.setCore k x).ddcs = s.ddcs ∧ (s.setCore k x).press = s.press ∧
    (s.setCore k x).spec = s.spec ∧ (s.setCore k x).trig = s.trig ∧ (s.setCore k x).ctxs = s.ctxs ∧
    (s.setCore k x).pat = s.pat ∧ (s.setCore k x).pe = s.pe ∧ (s.setCore k x).sideDead = s.sideDead ∧
    (s.setCore k x).stim = s.stim ∧ (s.setCore k x).vine = s.vine ∧ (s.setCore k x).tiu = s.tiu ∧
    (s.setCore k x).tiuGroups = s.tiuGroups ∧ (s.setCore k x).mon = s.mon ∧ (s.setCore k x).offered = s.offered ∧
    (s.setCore k x).rack = s.rack ∧ (s.setCore k x).ports = s.ports ∧ (s.setCore k x).disp = s.disp ∧
    (s.setCore k x).cellarMem = s.cellarMem ∧ (s.setCore k x).regions = s.regions ∧ (s.setCore k x).cell = s.cell ∧
    (s.setCore k x).bud = s.bud ∧ (s.setCore k x).cellarOp = s.cellarOp ∧ (s.setCore k x).ft = s.ft ∧
    (s.setCore k x).cal = s.cal ∧ (s.setCore k x).sec = s.sec :=
  ⟨rfl, rfl, rfl, rfl, rfl, rfl, rfl, rfl, rfl, rfl, rfl, rfl, rfl, rfl, rfl, rfl, rfl, rfl, rfl, rfl, rfl, rfl,
    rfl, rfl, rfl, rfl, rfl, rfl, rfl, rfl, rfl, rfl, rfl, rfl, rfl⟩

@[simp] theorem State.setCore_same (s : State) (k : Nat) (x : Core) : (s.setCore k x).core k = x :=
  KMap.get_set_self ..

theorem State.setCore_other (s : State) (k : Nat) (x : Core) {j : Nat} (h : j ≠ k) : (s.setCore k x).core j = s.core j :=
  KMap.get_set_ne _ _ _ h

@[simp] theorem State.setSite_frame (s : State) (k : Nat) (x : Site) :
    (s.setSite k x).pending = s.pending ∧ (s.setSite k x).now = s.now ∧ (s.setSite k x).out = s.out ∧
    (s.setSite k x).freeDrawn = s.freeDrawn ∧ (s.setSite k x).pw = s.pw ∧ (s.setSite k x).ready = s.ready ∧
    (s.setSite k x).host = s.host ∧ (s.setSite k x).fcw = s.fcw ∧ (s.setSite k x).ck = s.ck ∧
    (s.setSite k x).inputs = s.inputs ∧ (s.setSite k x).ddcs = s.ddcs ∧ (s.setSite k x).press = s.press ∧
    (s.setSite k x).spec = s.spec ∧ (s.setSite k x).trig = s.trig ∧ (s.setSite k x).ctxs = s.ctxs ∧
    (s.setSite k x).cores = s.cores ∧ (s.setSite k x).pe = s.pe ∧ (s.setSite k x).sideDead = s.sideDead ∧
    (s.setSite k x).stim = s.stim ∧ (s.setSite k x).vine = s.vine ∧ (s.setSite k x).tiu = s.tiu ∧
    (s.setSite k x).tiuGroups = s.tiuGroups ∧ (s.setSite k x).mon = s.mon ∧ (s.setSite k x).offered = s.offered ∧
    (s.setSite k x).rack = s.rack ∧ (s.setSite k x).ports = s.ports ∧ (s.setSite k x).disp = s.disp ∧
    (s.setSite k x).cellarMem = s.cellarMem ∧ (s.setSite k x).regions = s.regions ∧ (s.setSite k x).cell = s.cell ∧
    (s.setSite k x).bud = s.bud ∧ (s.setSite k x).cellarOp = s.cellarOp ∧ (s.setSite k x).ft = s.ft ∧
    (s.setSite k x).cal = s.cal ∧ (s.setSite k x).sec = s.sec :=
  ⟨rfl, rfl, rfl, rfl, rfl, rfl, rfl, rfl, rfl, rfl, rfl, rfl, rfl, rfl, rfl, rfl, rfl, rfl, rfl, rfl, rfl, rfl,
    rfl, rfl, rfl, rfl, rfl, rfl, rfl, rfl, rfl, rfl, rfl, rfl, rfl⟩

@[simp] theorem State.setSite_same (s : State) (k : Nat) (x : Site) : (s.setSite k x).site k = x :=
  KMap.get_set_self ..

theorem State.setSite_other (s : State) (k : Nat) (x : Site) {j : Nat} (h : j ≠ k) : (s.setSite k x).site j = s.site j :=
  KMap.get_set_ne _ _ _ h

@[simp] theorem State.setSeg_frame (s : State) (k : Nat) (x : Segment) :
    (s.setSeg k x).pending = s.pending ∧ (s.setSeg k x).now = s.now ∧ (s.setSeg k x).out = s.out ∧
    (s.setSeg k x).freeDrawn = s.freeDrawn ∧ (s.setSeg k x).pw = s.pw ∧ (s.setSeg k x).ready = s.ready ∧
    (s.setSeg k x).host = s.host ∧ (s.setSeg k x).fcw = s.fcw ∧ (s.setSeg k x).ck = s.ck ∧
    (s.setSeg k x).inputs = s.inputs ∧ (s.setSeg k x).ddcs = s.ddcs ∧ (s.setSeg k x).press = s.press ∧
    (s.setSeg k x).spec = s.spec ∧ (s.setSeg k x).trig = s.trig ∧ (s.setSeg k x).ctxs = s.ctxs ∧
    (s.setSeg k x).cores = s.cores ∧ (s.setSeg k x).pe = s.pe ∧ (s.setSeg k x).sideDead = s.sideDead ∧
    (s.setSeg k x).stim = s.stim ∧ (s.setSeg k x).vine = s.vine ∧ (s.setSeg k x).tiu = s.tiu ∧
    (s.setSeg k x).tiuGroups = s.tiuGroups ∧ (s.setSeg k x).mon = s.mon ∧ (s.setSeg k x).offered = s.offered ∧
    (s.setSeg k x).rack = s.rack ∧ (s.setSeg k x).ports = s.ports ∧ (s.setSeg k x).disp = s.disp ∧
    (s.setSeg k x).cellarMem = s.cellarMem ∧ (s.setSeg k x).regions = s.regions ∧ (s.setSeg k x).cell = s.cell ∧
    (s.setSeg k x).bud = s.bud ∧ (s.setSeg k x).cellarOp = s.cellarOp ∧ (s.setSeg k x).ft = s.ft ∧
    (s.setSeg k x).cal = s.cal ∧ (s.setSeg k x).sec = s.sec :=
  ⟨rfl, rfl, rfl, rfl, rfl, rfl, rfl, rfl, rfl, rfl, rfl, rfl, rfl, rfl, rfl, rfl, rfl, rfl, rfl, rfl, rfl, rfl,
    rfl, rfl, rfl, rfl, rfl, rfl, rfl, rfl, rfl, rfl, rfl, rfl, rfl⟩

@[simp] theorem State.setSeg_same (s : State) (k : Nat) (x : Segment) : (s.setSeg k x).seg k = x :=
  KMap.get_set_self ..

theorem State.setSeg_other (s : State) (k : Nat) (x : Segment) {j : Nat} (h : j ≠ k) : (s.setSeg k x).seg j = s.seg j :=
  KMap.get_set_ne _ _ _ h

@[simp] theorem State.setPe_frame (s : State) (k : Nat) (x : PeDev) :
    (s.setPe k x).pending = s.pending ∧ (s.setPe k x).now = s.now ∧ (s.setPe k x).out = s.out ∧
    (s.setPe k x).freeDrawn = s.freeDrawn ∧ (s.setPe k x).pw = s.pw ∧ (s.setPe k x).ready = s.ready ∧
    (s.setPe k x).host = s.host ∧ (s.setPe k x).fcw = s.fcw ∧ (s.setPe k x).ck = s.ck ∧
    (s.setPe k x).inputs = s.inputs ∧ (s.setPe k x).ddcs = s.ddcs ∧ (s.setPe k x).press = s.press ∧
    (s.setPe k x).spec = s.spec ∧ (s.setPe k x).trig = s.trig ∧ (s.setPe k x).ctxs = s.ctxs ∧
    (s.setPe k x).cores = s.cores ∧ (s.setPe k x).pat = s.pat ∧ (s.setPe k x).sideDead = s.sideDead ∧
    (s.setPe k x).stim = s.stim ∧ (s.setPe k x).vine = s.vine ∧ (s.setPe k x).tiu = s.tiu ∧
    (s.setPe k x).tiuGroups = s.tiuGroups ∧ (s.setPe k x).mon = s.mon ∧ (s.setPe k x).offered = s.offered ∧
    (s.setPe k x).rack = s.rack ∧ (s.setPe k x).ports = s.ports ∧ (s.setPe k x).disp = s.disp ∧
    (s.setPe k x).cellarMem = s.cellarMem ∧ (s.setPe k x).regions = s.regions ∧ (s.setPe k x).cell = s.cell ∧
    (s.setPe k x).bud = s.bud ∧ (s.setPe k x).cellarOp = s.cellarOp ∧ (s.setPe k x).ft = s.ft ∧
    (s.setPe k x).cal = s.cal ∧ (s.setPe k x).sec = s.sec :=
  ⟨rfl, rfl, rfl, rfl, rfl, rfl, rfl, rfl, rfl, rfl, rfl, rfl, rfl, rfl, rfl, rfl, rfl, rfl, rfl, rfl, rfl, rfl,
    rfl, rfl, rfl, rfl, rfl, rfl, rfl, rfl, rfl, rfl, rfl, rfl, rfl⟩

@[simp] theorem State.setPe_same (s : State) (k : Nat) (x : PeDev) : (s.setPe k x).peDev k = x :=
  KMap.get_set_self ..

theorem State.setPe_other (s : State) (k : Nat) (x : PeDev) {j : Nat} (h : j ≠ k) : (s.setPe k x).peDev j = s.peDev j :=
  KMap.get_set_ne _ _ _ h

@[simp] theorem State.setStim_frame (s : State) (k : Nat) (x : StimOut) :
    (s.setStim k x).pending = s.pending ∧ (s.setStim k x).now = s.now ∧ (s.setStim k x).out = s.out ∧
    (s.setStim k x).freeDrawn = s.freeDrawn ∧ (s.setStim k x).pw = s.pw ∧ (s.setStim k x).ready = s.ready ∧
    (s.setStim k x).host = s.host ∧ (s.setStim k x).fcw = s.fcw ∧ (s.setStim k x).ck = s.ck ∧
    (s.setStim k x).inputs = s.inputs ∧ (s.setStim k x).ddcs = s.ddcs ∧ (s.setStim k x).press = s.press ∧
    (s.setStim k x).spec = s.spec ∧ (s.setStim k x).trig = s.trig ∧ (s.setStim k x).ctxs = s.ctxs ∧
    (s.setStim k x).cores = s.cores ∧ (s.setStim k x).pat = s.pat ∧ (s.setStim k x).pe = s.pe ∧
    (s.setStim k x).sideDead = s.sideDead ∧ (s.setStim k x).vine = s.vine ∧ (s.setStim k x).tiu = s.tiu ∧
    (s.setStim k x).tiuGroups = s.tiuGroups ∧ (s.setStim k x).mon = s.mon ∧ (s.setStim k x).offered = s.offered ∧
    (s.setStim k x).rack = s.rack ∧ (s.setStim k x).ports = s.ports ∧ (s.setStim k x).disp = s.disp ∧
    (s.setStim k x).cellarMem = s.cellarMem ∧ (s.setStim k x).regions = s.regions ∧ (s.setStim k x).cell = s.cell ∧
    (s.setStim k x).bud = s.bud ∧ (s.setStim k x).cellarOp = s.cellarOp ∧ (s.setStim k x).ft = s.ft ∧
    (s.setStim k x).cal = s.cal ∧ (s.setStim k x).sec = s.sec :=
  ⟨rfl, rfl, rfl, rfl, rfl, rfl, rfl, rfl, rfl, rfl, rfl, rfl, rfl, rfl, rfl, rfl, rfl, rfl, rfl, rfl, rfl, rfl,
    rfl, rfl, rfl, rfl, rfl, rfl, rfl, rfl, rfl, rfl, rfl, rfl, rfl⟩

@[simp] theorem State.setStim_same (s : State) (k : Nat) (x : StimOut) : (s.setStim k x).stimOut k = x :=
  KMap.get_set_self ..

theorem State.setStim_other (s : State) (k : Nat) (x : StimOut) {j : Nat} (h : j ≠ k) : (s.setStim k x).stimOut j = s.stimOut j :=
  KMap.get_set_ne _ _ _ h

@[simp] theorem State.setVine_frame (s : State) (x : Vine) :
    (s.setVine x).pending = s.pending ∧ (s.setVine x).now = s.now ∧ (s.setVine x).out = s.out ∧
    (s.setVine x).freeDrawn = s.freeDrawn ∧ (s.setVine x).pw = s.pw ∧ (s.setVine x).ready = s.ready ∧
    (s.setVine x).host = s.host ∧ (s.setVine x).fcw = s.fcw ∧ (s.setVine x).ck = s.ck ∧
    (s.setVine x).inputs = s.inputs ∧ (s.setVine x).ddcs = s.ddcs ∧ (s.setVine x).press = s.press ∧
    (s.setVine x).spec = s.spec ∧ (s.setVine x).trig = s.trig ∧ (s.setVine x).ctxs = s.ctxs ∧
    (s.setVine x).cores = s.cores ∧ (s.setVine x).pat = s.pat ∧ (s.setVine x).pe = s.pe ∧
    (s.setVine x).sideDead = s.sideDead ∧ (s.setVine x).stim = s.stim ∧ (s.setVine x).tiu = s.tiu ∧
    (s.setVine x).tiuGroups = s.tiuGroups ∧ (s.setVine x).mon = s.mon ∧ (s.setVine x).offered = s.offered ∧
    (s.setVine x).rack = s.rack ∧ (s.setVine x).ports = s.ports ∧ (s.setVine x).disp = s.disp ∧
    (s.setVine x).cellarMem = s.cellarMem ∧ (s.setVine x).regions = s.regions ∧ (s.setVine x).cell = s.cell ∧
    (s.setVine x).bud = s.bud ∧ (s.setVine x).cellarOp = s.cellarOp ∧ (s.setVine x).ft = s.ft ∧
    (s.setVine x).cal = s.cal ∧ (s.setVine x).sec = s.sec :=
  ⟨rfl, rfl, rfl, rfl, rfl, rfl, rfl, rfl, rfl, rfl, rfl, rfl, rfl, rfl, rfl, rfl, rfl, rfl, rfl, rfl, rfl, rfl,
    rfl, rfl, rfl, rfl, rfl, rfl, rfl, rfl, rfl, rfl, rfl, rfl, rfl⟩

@[simp] theorem State.setTiu_frame (s : State) (k : Nat) (x : TiuChan) :
    (s.setTiu k x).pending = s.pending ∧ (s.setTiu k x).now = s.now ∧ (s.setTiu k x).out = s.out ∧
    (s.setTiu k x).freeDrawn = s.freeDrawn ∧ (s.setTiu k x).pw = s.pw ∧ (s.setTiu k x).ready = s.ready ∧
    (s.setTiu k x).host = s.host ∧ (s.setTiu k x).fcw = s.fcw ∧ (s.setTiu k x).ck = s.ck ∧
    (s.setTiu k x).inputs = s.inputs ∧ (s.setTiu k x).ddcs = s.ddcs ∧ (s.setTiu k x).press = s.press ∧
    (s.setTiu k x).spec = s.spec ∧ (s.setTiu k x).trig = s.trig ∧ (s.setTiu k x).ctxs = s.ctxs ∧
    (s.setTiu k x).cores = s.cores ∧ (s.setTiu k x).pat = s.pat ∧ (s.setTiu k x).pe = s.pe ∧
    (s.setTiu k x).sideDead = s.sideDead ∧ (s.setTiu k x).stim = s.stim ∧ (s.setTiu k x).vine = s.vine ∧
    (s.setTiu k x).tiuGroups = s.tiuGroups ∧ (s.setTiu k x).mon = s.mon ∧ (s.setTiu k x).offered = s.offered ∧
    (s.setTiu k x).rack = s.rack ∧ (s.setTiu k x).ports = s.ports ∧ (s.setTiu k x).disp = s.disp ∧
    (s.setTiu k x).cellarMem = s.cellarMem ∧ (s.setTiu k x).regions = s.regions ∧ (s.setTiu k x).cell = s.cell ∧
    (s.setTiu k x).bud = s.bud ∧ (s.setTiu k x).cellarOp = s.cellarOp ∧ (s.setTiu k x).ft = s.ft ∧
    (s.setTiu k x).cal = s.cal ∧ (s.setTiu k x).sec = s.sec :=
  ⟨rfl, rfl, rfl, rfl, rfl, rfl, rfl, rfl, rfl, rfl, rfl, rfl, rfl, rfl, rfl, rfl, rfl, rfl, rfl, rfl, rfl, rfl,
    rfl, rfl, rfl, rfl, rfl, rfl, rfl, rfl, rfl, rfl, rfl, rfl, rfl⟩

@[simp] theorem State.setTiu_same (s : State) (k : Nat) (x : TiuChan) : (s.setTiu k x).tiuChan k = x :=
  KMap.get_set_self ..

theorem State.setTiu_other (s : State) (k : Nat) (x : TiuChan) {j : Nat} (h : j ≠ k) : (s.setTiu k x).tiuChan j = s.tiuChan j :=
  KMap.get_set_ne _ _ _ h

@[simp] theorem State.setTiuGroup_frame (s : State) (k : Nat) (x : TiuGroup) :
    (s.setTiuGroup k x).pending = s.pending ∧ (s.setTiuGroup k x).now = s.now ∧ (s.setTiuGroup k x).out = s.out ∧
    (s.setTiuGroup k x).freeDrawn = s.freeDrawn ∧ (s.setTiuGroup k x).pw = s.pw ∧
    (s.setTiuGroup k x).ready = s.ready ∧ (s.setTiuGroup k x).host = s.host ∧ (s.setTiuGroup k x).fcw = s.fcw ∧
    (s.setTiuGroup k x).ck = s.ck ∧ (s.setTiuGroup k x).inputs = s.inputs ∧ (s.setTiuGroup k x).ddcs = s.ddcs ∧
    (s.setTiuGroup k x).press = s.press ∧ (s.setTiuGroup k x).spec = s.spec ∧ (s.setTiuGroup k x).trig = s.trig ∧
    (s.setTiuGroup k x).ctxs = s.ctxs ∧ (s.setTiuGroup k x).cores = s.cores ∧ (s.setTiuGroup k x).pat = s.pat ∧
    (s.setTiuGroup k x).pe = s.pe ∧ (s.setTiuGroup k x).sideDead = s.sideDead ∧ (s.setTiuGroup k x).stim = s.stim ∧
    (s.setTiuGroup k x).vine = s.vine ∧ (s.setTiuGroup k x).tiu = s.tiu ∧ (s.setTiuGroup k x).mon = s.mon ∧
    (s.setTiuGroup k x).offered = s.offered ∧ (s.setTiuGroup k x).rack = s.rack ∧
    (s.setTiuGroup k x).ports = s.ports ∧ (s.setTiuGroup k x).disp = s.disp ∧
    (s.setTiuGroup k x).cellarMem = s.cellarMem ∧ (s.setTiuGroup k x).regions = s.regions ∧
    (s.setTiuGroup k x).cell = s.cell ∧ (s.setTiuGroup k x).bud = s.bud ∧ (s.setTiuGroup k x).cellarOp = s.cellarOp ∧
    (s.setTiuGroup k x).ft = s.ft ∧ (s.setTiuGroup k x).cal = s.cal ∧ (s.setTiuGroup k x).sec = s.sec :=
  ⟨rfl, rfl, rfl, rfl, rfl, rfl, rfl, rfl, rfl, rfl, rfl, rfl, rfl, rfl, rfl, rfl, rfl, rfl, rfl, rfl, rfl, rfl,
    rfl, rfl, rfl, rfl, rfl, rfl, rfl, rfl, rfl, rfl, rfl, rfl, rfl⟩

@[simp] theorem State.setComp_frame (s : State) (k : Nat) (x : Comparator) :
    (s.setComp k x).pending = s.pending ∧ (s.setComp k x).now = s.now ∧ (s.setComp k x).out = s.out ∧
    (s.setComp k x).freeDrawn = s.freeDrawn ∧ (s.setComp k x).pw = s.pw ∧ (s.setComp k x).ready = s.ready ∧
    (s.setComp k x).host = s.host ∧ (s.setComp k x).fcw = s.fcw ∧ (s.setComp k x).ck = s.ck ∧
    (s.setComp k x).inputs = s.inputs ∧ (s.setComp k x).ddcs = s.ddcs ∧ (s.setComp k x).press = s.press ∧
    (s.setComp k x).spec = s.spec ∧ (s.setComp k x).trig = s.trig ∧ (s.setComp k x).ctxs = s.ctxs ∧
    (s.setComp k x).cores = s.cores ∧ (s.setComp k x).pat = s.pat ∧ (s.setComp k x).pe = s.pe ∧
    (s.setComp k x).sideDead = s.sideDead ∧ (s.setComp k x).stim = s.stim ∧ (s.setComp k x).vine = s.vine ∧
    (s.setComp k x).tiu = s.tiu ∧ (s.setComp k x).tiuGroups = s.tiuGroups ∧ (s.setComp k x).offered = s.offered ∧
    (s.setComp k x).rack = s.rack ∧ (s.setComp k x).ports = s.ports ∧ (s.setComp k x).disp = s.disp ∧
    (s.setComp k x).cellarMem = s.cellarMem ∧ (s.setComp k x).regions = s.regions ∧ (s.setComp k x).cell = s.cell ∧
    (s.setComp k x).bud = s.bud ∧ (s.setComp k x).cellarOp = s.cellarOp ∧ (s.setComp k x).ft = s.ft ∧
    (s.setComp k x).cal = s.cal ∧ (s.setComp k x).sec = s.sec :=
  ⟨rfl, rfl, rfl, rfl, rfl, rfl, rfl, rfl, rfl, rfl, rfl, rfl, rfl, rfl, rfl, rfl, rfl, rfl, rfl, rfl, rfl, rfl,
    rfl, rfl, rfl, rfl, rfl, rfl, rfl, rfl, rfl, rfl, rfl, rfl, rfl⟩

@[simp] theorem State.setComp_same (s : State) (k : Nat) (x : Comparator) : (s.setComp k x).comp k = x :=
  KMap.get_set_self ..

theorem State.setComp_other (s : State) (k : Nat) (x : Comparator) {j : Nat} (h : j ≠ k) : (s.setComp k x).comp j = s.comp j :=
  KMap.get_set_ne _ _ _ h

@[simp] theorem State.setMon_frame (s : State) (x : Mon) :
    (s.setMon x).pending = s.pending ∧ (s.setMon x).now = s.now ∧ (s.setMon x).out = s.out ∧
    (s.setMon x).freeDrawn = s.freeDrawn ∧ (s.setMon x).pw = s.pw ∧ (s.setMon x).ready = s.ready ∧
    (s.setMon x).host = s.host ∧ (s.setMon x).fcw = s.fcw ∧ (s.setMon x).ck = s.ck ∧ (s.setMon x).inputs = s.inputs ∧
    (s.setMon x).ddcs = s.ddcs ∧ (s.setMon x).press = s.press ∧ (s.setMon x).spec = s.spec ∧
    (s.setMon x).trig = s.trig ∧ (s.setMon x).ctxs = s.ctxs ∧ (s.setMon x).cores = s.cores ∧
    (s.setMon x).pat = s.pat ∧ (s.setMon x).pe = s.pe ∧ (s.setMon x).sideDead = s.sideDead ∧
    (s.setMon x).stim = s.stim ∧ (s.setMon x).vine = s.vine ∧ (s.setMon x).tiu = s.tiu ∧
    (s.setMon x).tiuGroups = s.tiuGroups ∧ (s.setMon x).offered = s.offered ∧ (s.setMon x).rack = s.rack ∧
    (s.setMon x).ports = s.ports ∧ (s.setMon x).disp = s.disp ∧ (s.setMon x).cellarMem = s.cellarMem ∧
    (s.setMon x).regions = s.regions ∧ (s.setMon x).cell = s.cell ∧ (s.setMon x).bud = s.bud ∧
    (s.setMon x).cellarOp = s.cellarOp ∧ (s.setMon x).ft = s.ft ∧ (s.setMon x).cal = s.cal ∧ (s.setMon x).sec = s.sec :=
  ⟨rfl, rfl, rfl, rfl, rfl, rfl, rfl, rfl, rfl, rfl, rfl, rfl, rfl, rfl, rfl, rfl, rfl, rfl, rfl, rfl, rfl, rfl,
    rfl, rfl, rfl, rfl, rfl, rfl, rfl, rfl, rfl, rfl, rfl, rfl, rfl⟩

@[simp] theorem State.setFlow_frame (s : State) (k : Nat) (x : Flow) :
    (s.setFlow k x).pending = s.pending ∧ (s.setFlow k x).now = s.now ∧ (s.setFlow k x).out = s.out ∧
    (s.setFlow k x).freeDrawn = s.freeDrawn ∧ (s.setFlow k x).pw = s.pw ∧ (s.setFlow k x).ready = s.ready ∧
    (s.setFlow k x).host = s.host ∧ (s.setFlow k x).fcw = s.fcw ∧ (s.setFlow k x).ck = s.ck ∧
    (s.setFlow k x).inputs = s.inputs ∧ (s.setFlow k x).ddcs = s.ddcs ∧ (s.setFlow k x).press = s.press ∧
    (s.setFlow k x).spec = s.spec ∧ (s.setFlow k x).trig = s.trig ∧ (s.setFlow k x).ctxs = s.ctxs ∧
    (s.setFlow k x).cores = s.cores ∧ (s.setFlow k x).pat = s.pat ∧ (s.setFlow k x).pe = s.pe ∧
    (s.setFlow k x).sideDead = s.sideDead ∧ (s.setFlow k x).stim = s.stim ∧ (s.setFlow k x).vine = s.vine ∧
    (s.setFlow k x).tiu = s.tiu ∧ (s.setFlow k x).tiuGroups = s.tiuGroups ∧ (s.setFlow k x).mon = s.mon ∧
    (s.setFlow k x).offered = s.offered ∧ (s.setFlow k x).ports = s.ports ∧ (s.setFlow k x).disp = s.disp ∧
    (s.setFlow k x).cellarMem = s.cellarMem ∧ (s.setFlow k x).regions = s.regions ∧ (s.setFlow k x).cell = s.cell ∧
    (s.setFlow k x).bud = s.bud ∧ (s.setFlow k x).cellarOp = s.cellarOp ∧ (s.setFlow k x).ft = s.ft ∧
    (s.setFlow k x).cal = s.cal ∧ (s.setFlow k x).sec = s.sec :=
  ⟨rfl, rfl, rfl, rfl, rfl, rfl, rfl, rfl, rfl, rfl, rfl, rfl, rfl, rfl, rfl, rfl, rfl, rfl, rfl, rfl, rfl, rfl,
    rfl, rfl, rfl, rfl, rfl, rfl, rfl, rfl, rfl, rfl, rfl, rfl, rfl⟩

@[simp] theorem State.setFlow_same (s : State) (k : Nat) (x : Flow) : (s.setFlow k x).flow k = x :=
  KMap.get_set_self ..

theorem State.setFlow_other (s : State) (k : Nat) (x : Flow) {j : Nat} (h : j ≠ k) : (s.setFlow k x).flow j = s.flow j :=
  KMap.get_set_ne _ _ _ h

@[simp] theorem State.setPort_frame (s : State) (k : Nat) (x : Port) :
    (s.setPort k x).pending = s.pending ∧ (s.setPort k x).now = s.now ∧ (s.setPort k x).out = s.out ∧
    (s.setPort k x).freeDrawn = s.freeDrawn ∧ (s.setPort k x).pw = s.pw ∧ (s.setPort k x).ready = s.ready ∧
    (s.setPort k x).host = s.host ∧ (s.setPort k x).fcw = s.fcw ∧ (s.setPort k x).ck = s.ck ∧
    (s.setPort k x).inputs = s.inputs ∧ (s.setPort k x).ddcs = s.ddcs ∧ (s.setPort k x).press = s.press ∧
    (s.setPort k x).spec = s.spec ∧ (s.setPort k x).trig = s.trig ∧ (s.setPort k x).ctxs = s.ctxs ∧
    (s.setPort k x).cores = s.cores ∧ (s.setPort k x).pat = s.pat ∧ (s.setPort k x).pe = s.pe ∧
    (s.setPort k x).sideDead = s.sideDead ∧ (s.setPort k x).stim = s.stim ∧ (s.setPort k x).vine = s.vine ∧
    (s.setPort k x).tiu = s.tiu ∧ (s.setPort k x).tiuGroups = s.tiuGroups ∧ (s.setPort k x).mon = s.mon ∧
    (s.setPort k x).offered = s.offered ∧ (s.setPort k x).rack = s.rack ∧ (s.setPort k x).disp = s.disp ∧
    (s.setPort k x).cellarMem = s.cellarMem ∧ (s.setPort k x).regions = s.regions ∧ (s.setPort k x).cell = s.cell ∧
    (s.setPort k x).bud = s.bud ∧ (s.setPort k x).cellarOp = s.cellarOp ∧ (s.setPort k x).ft = s.ft ∧
    (s.setPort k x).cal = s.cal ∧ (s.setPort k x).sec = s.sec :=
  ⟨rfl, rfl, rfl, rfl, rfl, rfl, rfl, rfl, rfl, rfl, rfl, rfl, rfl, rfl, rfl, rfl, rfl, rfl, rfl, rfl, rfl, rfl,
    rfl, rfl, rfl, rfl, rfl, rfl, rfl, rfl, rfl, rfl, rfl, rfl, rfl⟩

@[simp] theorem State.setPort_same (s : State) (k : Nat) (x : Port) : (s.setPort k x).port k = x :=
  KMap.get_set_self ..

theorem State.setPort_other (s : State) (k : Nat) (x : Port) {j : Nat} (h : j ≠ k) : (s.setPort k x).port j = s.port j :=
  KMap.get_set_ne _ _ _ h

@[simp] theorem State.setDisp_frame (s : State) (x : Disp) :
    (s.setDisp x).pending = s.pending ∧ (s.setDisp x).now = s.now ∧ (s.setDisp x).out = s.out ∧
    (s.setDisp x).freeDrawn = s.freeDrawn ∧ (s.setDisp x).pw = s.pw ∧ (s.setDisp x).ready = s.ready ∧
    (s.setDisp x).host = s.host ∧ (s.setDisp x).fcw = s.fcw ∧ (s.setDisp x).ck = s.ck ∧
    (s.setDisp x).inputs = s.inputs ∧ (s.setDisp x).ddcs = s.ddcs ∧ (s.setDisp x).press = s.press ∧
    (s.setDisp x).spec = s.spec ∧ (s.setDisp x).trig = s.trig ∧ (s.setDisp x).ctxs = s.ctxs ∧
    (s.setDisp x).cores = s.cores ∧ (s.setDisp x).pat = s.pat ∧ (s.setDisp x).pe = s.pe ∧
    (s.setDisp x).sideDead = s.sideDead ∧ (s.setDisp x).stim = s.stim ∧ (s.setDisp x).vine = s.vine ∧
    (s.setDisp x).tiu = s.tiu ∧ (s.setDisp x).tiuGroups = s.tiuGroups ∧ (s.setDisp x).mon = s.mon ∧
    (s.setDisp x).offered = s.offered ∧ (s.setDisp x).rack = s.rack ∧ (s.setDisp x).ports = s.ports ∧
    (s.setDisp x).cellarMem = s.cellarMem ∧ (s.setDisp x).regions = s.regions ∧ (s.setDisp x).cell = s.cell ∧
    (s.setDisp x).bud = s.bud ∧ (s.setDisp x).cellarOp = s.cellarOp ∧ (s.setDisp x).ft = s.ft ∧
    (s.setDisp x).cal = s.cal ∧ (s.setDisp x).sec = s.sec :=
  ⟨rfl, rfl, rfl, rfl, rfl, rfl, rfl, rfl, rfl, rfl, rfl, rfl, rfl, rfl, rfl, rfl, rfl, rfl, rfl, rfl, rfl, rfl,
    rfl, rfl, rfl, rfl, rfl, rfl, rfl, rfl, rfl, rfl, rfl, rfl, rfl⟩

@[simp] theorem State.setCell_frame (s : State) (x : Cellar) :
    (s.setCell x).pending = s.pending ∧ (s.setCell x).now = s.now ∧ (s.setCell x).out = s.out ∧
    (s.setCell x).freeDrawn = s.freeDrawn ∧ (s.setCell x).pw = s.pw ∧ (s.setCell x).ready = s.ready ∧
    (s.setCell x).host = s.host ∧ (s.setCell x).fcw = s.fcw ∧ (s.setCell x).ck = s.ck ∧
    (s.setCell x).inputs = s.inputs ∧ (s.setCell x).ddcs = s.ddcs ∧ (s.setCell x).press = s.press ∧
    (s.setCell x).spec = s.spec ∧ (s.setCell x).trig = s.trig ∧ (s.setCell x).ctxs = s.ctxs ∧
    (s.setCell x).cores = s.cores ∧ (s.setCell x).pat = s.pat ∧ (s.setCell x).pe = s.pe ∧
    (s.setCell x).sideDead = s.sideDead ∧ (s.setCell x).stim = s.stim ∧ (s.setCell x).vine = s.vine ∧
    (s.setCell x).tiu = s.tiu ∧ (s.setCell x).tiuGroups = s.tiuGroups ∧ (s.setCell x).mon = s.mon ∧
    (s.setCell x).offered = s.offered ∧ (s.setCell x).rack = s.rack ∧ (s.setCell x).ports = s.ports ∧
    (s.setCell x).disp = s.disp ∧ (s.setCell x).cellarMem = s.cellarMem ∧ (s.setCell x).regions = s.regions ∧
    (s.setCell x).bud = s.bud ∧ (s.setCell x).cellarOp = s.cellarOp ∧ (s.setCell x).ft = s.ft ∧
    (s.setCell x).cal = s.cal ∧ (s.setCell x).sec = s.sec :=
  ⟨rfl, rfl, rfl, rfl, rfl, rfl, rfl, rfl, rfl, rfl, rfl, rfl, rfl, rfl, rfl, rfl, rfl, rfl, rfl, rfl, rfl, rfl,
    rfl, rfl, rfl, rfl, rfl, rfl, rfl, rfl, rfl, rfl, rfl, rfl, rfl⟩

@[simp] theorem State.setStack_frame (s : State) (k : Nat) (x : Stack) :
    (s.setStack k x).pending = s.pending ∧ (s.setStack k x).now = s.now ∧ (s.setStack k x).out = s.out ∧
    (s.setStack k x).freeDrawn = s.freeDrawn ∧ (s.setStack k x).pw = s.pw ∧ (s.setStack k x).ready = s.ready ∧
    (s.setStack k x).host = s.host ∧ (s.setStack k x).fcw = s.fcw ∧ (s.setStack k x).ck = s.ck ∧
    (s.setStack k x).inputs = s.inputs ∧ (s.setStack k x).ddcs = s.ddcs ∧ (s.setStack k x).press = s.press ∧
    (s.setStack k x).spec = s.spec ∧ (s.setStack k x).trig = s.trig ∧ (s.setStack k x).ctxs = s.ctxs ∧
    (s.setStack k x).cores = s.cores ∧ (s.setStack k x).pat = s.pat ∧ (s.setStack k x).pe = s.pe ∧
    (s.setStack k x).sideDead = s.sideDead ∧ (s.setStack k x).stim = s.stim ∧ (s.setStack k x).vine = s.vine ∧
    (s.setStack k x).tiu = s.tiu ∧ (s.setStack k x).tiuGroups = s.tiuGroups ∧ (s.setStack k x).mon = s.mon ∧
    (s.setStack k x).offered = s.offered ∧ (s.setStack k x).rack = s.rack ∧ (s.setStack k x).ports = s.ports ∧
    (s.setStack k x).disp = s.disp ∧ (s.setStack k x).cellarMem = s.cellarMem ∧
    (s.setStack k x).regions = s.regions ∧ (s.setStack k x).bud = s.bud ∧ (s.setStack k x).cellarOp = s.cellarOp ∧
    (s.setStack k x).ft = s.ft ∧ (s.setStack k x).cal = s.cal ∧ (s.setStack k x).sec = s.sec :=
  ⟨rfl, rfl, rfl, rfl, rfl, rfl, rfl, rfl, rfl, rfl, rfl, rfl, rfl, rfl, rfl, rfl, rfl, rfl, rfl, rfl, rfl, rfl,
    rfl, rfl, rfl, rfl, rfl, rfl, rfl, rfl, rfl, rfl, rfl, rfl, rfl⟩

@[simp] theorem State.setStack_same (s : State) (k : Nat) (x : Stack) : (s.setStack k x).stack k = x :=
  KMap.get_set_self ..

theorem State.setStack_other (s : State) (k : Nat) (x : Stack) {j : Nat} (h : j ≠ k) : (s.setStack k x).stack j = s.stack j :=
  KMap.get_set_ne _ _ _ h

@[simp] theorem State.setBud_frame (s : State) (x : Budget) :
    (s.setBud x).pending = s.pending ∧ (s.setBud x).now = s.now ∧ (s.setBud x).out = s.out ∧
    (s.setBud x).freeDrawn = s.freeDrawn ∧ (s.setBud x).pw = s.pw ∧ (s.setBud x).ready = s.ready ∧
    (s.setBud x).host = s.host ∧ (s.setBud x).fcw = s.fcw ∧ (s.setBud x).ck = s.ck ∧ (s.setBud x).inputs = s.inputs ∧
    (s.setBud x).ddcs = s.ddcs ∧ (s.setBud x).press = s.press ∧ (s.setBud x).spec = s.spec ∧
    (s.setBud x).trig = s.trig ∧ (s.setBud x).ctxs = s.ctxs ∧ (s.setBud x).cores = s.cores ∧
    (s.setBud x).pat = s.pat ∧ (s.setBud x).pe = s.pe ∧ (s.setBud x).sideDead = s.sideDead ∧
    (s.setBud x).stim = s.stim ∧ (s.setBud x).vine = s.vine ∧ (s.setBud x).tiu = s.tiu ∧
    (s.setBud x).tiuGroups = s.tiuGroups ∧ (s.setBud x).mon = s.mon ∧ (s.setBud x).offered = s.offered ∧
    (s.setBud x).rack = s.rack ∧ (s.setBud x).ports = s.ports ∧ (s.setBud x).disp = s.disp ∧
    (s.setBud x).cellarMem = s.cellarMem ∧ (s.setBud x).regions = s.regions ∧ (s.setBud x).cell = s.cell ∧
    (s.setBud x).cellarOp = s.cellarOp ∧ (s.setBud x).ft = s.ft ∧ (s.setBud x).cal = s.cal ∧ (s.setBud x).sec = s.sec :=
  ⟨rfl, rfl, rfl, rfl, rfl, rfl, rfl, rfl, rfl, rfl, rfl, rfl, rfl, rfl, rfl, rfl, rfl, rfl, rfl, rfl, rfl, rfl,
    rfl, rfl, rfl, rfl, rfl, rfl, rfl, rfl, rfl, rfl, rfl, rfl, rfl⟩

@[simp] theorem State.setSec_frame (s : State) (x : Security) :
    (s.setSec x).pending = s.pending ∧ (s.setSec x).now = s.now ∧ (s.setSec x).out = s.out ∧
    (s.setSec x).freeDrawn = s.freeDrawn ∧ (s.setSec x).pw = s.pw ∧ (s.setSec x).ready = s.ready ∧
    (s.setSec x).host = s.host ∧ (s.setSec x).fcw = s.fcw ∧ (s.setSec x).ck = s.ck ∧ (s.setSec x).inputs = s.inputs ∧
    (s.setSec x).ddcs = s.ddcs ∧ (s.setSec x).press = s.press ∧ (s.setSec x).spec = s.spec ∧
    (s.setSec x).trig = s.trig ∧ (s.setSec x).ctxs = s.ctxs ∧ (s.setSec x).cores = s.cores ∧
    (s.setSec x).pat = s.pat ∧ (s.setSec x).pe = s.pe ∧ (s.setSec x).sideDead = s.sideDead ∧
    (s.setSec x).stim = s.stim ∧ (s.setSec x).vine = s.vine ∧ (s.setSec x).tiu = s.tiu ∧
    (s.setSec x).tiuGroups = s.tiuGroups ∧ (s.setSec x).mon = s.mon ∧ (s.setSec x).offered = s.offered ∧
    (s.setSec x).rack = s.rack ∧ (s.setSec x).ports = s.ports ∧ (s.setSec x).disp = s.disp ∧
    (s.setSec x).cellarMem = s.cellarMem ∧ (s.setSec x).regions = s.regions ∧ (s.setSec x).cell = s.cell ∧
    (s.setSec x).bud = s.bud ∧ (s.setSec x).cellarOp = s.cellarOp ∧ (s.setSec x).ft = s.ft ∧ (s.setSec x).cal = s.cal :=
  ⟨rfl, rfl, rfl, rfl, rfl, rfl, rfl, rfl, rfl, rfl, rfl, rfl, rfl, rfl, rfl, rfl, rfl, rfl, rfl, rfl, rfl, rfl,
    rfl, rfl, rfl, rfl, rfl, rfl, rfl, rfl, rfl, rfl, rfl, rfl, rfl⟩

@[simp] theorem State.advance_frame (s : State) (t : Nat) :
    (s.advance t).pending = s.pending ∧ (s.advance t).out = s.out ∧ (s.advance t).freeDrawn = s.freeDrawn ∧
    (s.advance t).pw = s.pw ∧ (s.advance t).ready = s.ready ∧ (s.advance t).host = s.host ∧
    (s.advance t).fcw = s.fcw ∧ (s.advance t).ck = s.ck ∧ (s.advance t).inputs = s.inputs ∧
    (s.advance t).ddcs = s.ddcs ∧ (s.advance t).press = s.press ∧ (s.advance t).spec = s.spec ∧
    (s.advance t).trig = s.trig ∧ (s.advance t).ctxs = s.ctxs ∧ (s.advance t).cores = s.cores ∧
    (s.advance t).pat = s.pat ∧ (s.advance t).pe = s.pe ∧ (s.advance t).sideDead = s.sideDead ∧
    (s.advance t).stim = s.stim ∧ (s.advance t).vine = s.vine ∧ (s.advance t).tiu = s.tiu ∧
    (s.advance t).tiuGroups = s.tiuGroups ∧ (s.advance t).mon = s.mon ∧ (s.advance t).offered = s.offered ∧
    (s.advance t).rack = s.rack ∧ (s.advance t).ports = s.ports ∧ (s.advance t).disp = s.disp ∧
    (s.advance t).cellarMem = s.cellarMem ∧ (s.advance t).regions = s.regions ∧ (s.advance t).cell = s.cell ∧
    (s.advance t).bud = s.bud ∧ (s.advance t).cellarOp = s.cellarOp ∧ (s.advance t).ft = s.ft ∧
    (s.advance t).cal = s.cal ∧ (s.advance t).sec = s.sec := by
  unfold State.advance
  split <;> exact ⟨rfl, rfl, rfl, rfl, rfl, rfl, rfl, rfl, rfl, rfl, rfl, rfl, rfl, rfl, rfl, rfl, rfl, rfl, rfl, rfl, rfl,
    rfl, rfl, rfl, rfl, rfl, rfl, rfl, rfl, rfl, rfl, rfl, rfl, rfl, rfl⟩

theorem State.advance_now (s : State) (t : Nat) : s.now ≤ (s.advance t).now := by
  unfold State.advance
  split <;> simp <;> omega

end Sys2Proof.Machine
end

