-- ==== Sys2Proof/Laws/Gaps.lean ====
section
/-! SUPPORT. What an event leaves of the acquisition contexts, and what a gap leaves of its own (R246). -/

namespace Sys2Proof.Machine

/-- What is sent out leaves the contexts. -/
@[simp] theorem State.post_ctxs (s : State) (os : List Out) : (s.post os).ctxs = s.ctxs := by
  induction os with
  | nil => rfl
  | cons o os ih =>
    rw [← ih]
    cases o <;> first
      | rfl
      | (simp only [State.post, List.foldr_cons, State.message]; split <;> rfl)

/-- An event for one function leaves the contexts. -/
@[simp] theorem State.eventTo_ctxs (s : State) (fn : Nat) (e : EventRec) : (s.eventTo fn e).ctxs = s.ctxs := by
  unfold State.eventTo
  dsimp only
  split
  · unfold State.wakeIfDue
    split
    · exact State.post_ctxs _ _
    · exact State.post_ctxs _ _
  · rfl

/-- An event leaves the contexts. -/
@[simp] theorem State.eventAt_ctxs (s : State) (code source : Nat) (st : Stamp) (detail : Nat) :
    (s.eventAt code source st detail).ctxs = s.ctxs := by
  unfold State.eventAt
  split
  · simp
  · rfl

/-- A gap that is recorded leaves the flow of its context. -/
theorem State.addGap_flow (s : State) (n : Nat) (g : GapEntry) : ((s.addGap n g).ctx n).flow = (s.ctx n).flow := by
  have h : ∀ (t : State) (x : Ctx), ((t.setCtx n x).ctx n) = x := fun t x => by
    simp [State.setCtx, State.ctx]
  have e : ∀ (t : State) (c k : Nat) (st : Stamp) (d : Nat), (t.eventAt c k st d).ctx n = t.ctx n := fun t c k st d => by
    simp [State.ctx]
  unfold State.addGap State.noteGap
  dsimp only
  rw [h]
  split <;> split <;> simp only [h, e]

/-- What Cellar cannot take leaves the flow of its context. -/
theorem State.lostGaps_flow (s : State) (n : Nat) (elements : List Element) (endTick : Nat) :
    ((s.lostGaps n elements endTick).ctx n).flow = (s.ctx n).flow := by
  unfold State.lostGaps
  dsimp only
  split
  · rfl
  · generalize (s.ctx n).storedRuns elements.length = rs
    exact rs.foldlRecOn (motive := fun t : State => (t.ctx n).flow = (s.ctx n).flow) _ rfl
      (fun t ht _ _ => (State.addGap_flow t n _).trans ht)

end Sys2Proof.Machine
end

