-- ==== Sys2Proof/Laws/Rows.lean ====
section
/-! SUPPORT. What the two shared forms of a row do: a row of a powered module, and a mailbox command that may run. -/

namespace Sys2Proof.Machine

/-- A row of a powered module does what it says at its tick. -/
theorem whenPowered_on {s : State} (h : s.powered = true) (t : Nat) (f : State → State) :
    s.whenPowered t f = f (s.advance t) := by
  simp [State.whenPowered, h]

/-- Without power nothing happens. -/
theorem whenPowered_off {s : State} (h : s.powered = false) (t : Nat) (f : State → State) :
    s.whenPowered t f = s := by
  simp [State.whenPowered, h]

/-- A command that may run comes to what its meaning says. -/
theorem runVerb_mayRun {s : State} {t op fn tag : Nat} {c : Cmd} (body : Cmd → State → VerbOut)
    (h : s.powered = true) (hc : (s.advance t).mayRun op fn tag c = true) :
    s.runVerb t op fn tag body = (s.advance t).conclude c (body c (s.advance t)) := by
  simp only [State.mayRun, Bool.and_eq_true, Bool.not_eq_true', beq_iff_eq] at hc
  obtain ⟨⟨⟨⟨⟨h1, h2⟩, h3⟩, h4⟩, h5⟩, h6⟩ := hc
  simp [State.runVerb, whenPowered_on h, h1, h2, h3, h4, h5, h6]

/-! What each end of a meaning leaves (R54). -/

@[simp] theorem conclude_fail (s : State) (c : Cmd) (st : Status) (r : Nat) :
    s.conclude c (.fail st r) = s.finish c st r := rfl

@[simp] theorem conclude_done (s s' : State) (c : Cmd) (st : Status) (r : Nat) :
    s.conclude c (.done st r s') = s'.finish c st r := rfl

@[simp] theorem conclude_wait (s : State) (c : Cmd) : s.conclude c .wait = s := rfl

@[simp] theorem conclude_running (s s' : State) (c : Cmd) (aux : Nat) (named : List Nat) :
    s.conclude c (.running aux named s') = s'.markStarted c aux named := rfl

/-- A long result is written where there is room for it. -/
theorem conclude_data {c : Cmd} {bytes : List Byte} (h : bytes.length ≤ c.room) (s s' : State) (r : Nat) :
    s.conclude c (.data bytes r s') = (s'.writeResult c bytes).finish c .ok r := by
  simp [State.conclude, Nat.not_lt.mpr h]

/-- A long result for which there is no room ends the command with ST_BAD_LENGTH and the bytes it needs. -/
theorem conclude_data_short {c : Cmd} {bytes : List Byte} (h : c.room < bytes.length) (s s' : State) (r : Nat) :
    s.conclude c (.data bytes r s') = s.finish c .badLength bytes.length := by
  simp [State.conclude, h]

/-- A result that nobody asked for is not written. -/
theorem conclude_unasked {c : Cmd} (h : c.resultAddr = 0) (s s' : State) (bytes : List Byte) (r : Nat) :
    s.conclude c (.dataIfAsked bytes r s') = s'.finish c .ok r := by
  simp [State.conclude, h]

/-- A command that is not there changes nothing but the time. -/
theorem runVerb_absent {s : State} {t op fn tag : Nat} (body : Cmd → State → VerbOut) (h : s.powered = true)
    (hc : (s.advance t).cmdOf fn tag = none) : s.runVerb t op fn tag body = s.advance t := by
  simp [State.runVerb, whenPowered_on h, hc]

/-- A mailbox row completes where its meaning comes to the state that follows. -/
theorem completes_of {i : Nat → Nat → Nat → Instr} {op : Nat} {ok : Cmd → State → Bool} {after : Cmd → State → State}
    (body : Cmd → State → VerbOut) (hi : ∀ t fn tag s, exec (i t fn tag) s = verb t op fn tag body s)
    (hb : ∀ c a, ok c a = true → a.conclude c (body c a) = after c a) : Completes i op ok after := by
  intro s t fn tag c hp hr hk
  rw [hi, verb, runVerb_mayRun body hp hr, hb c _ hk]

/-- A row of a powered module completes where its effect is the state that follows. -/
theorem happens_of {i : Nat → Instr} {ok : State → Bool} {after : State → State} (f : State → State)
    (hi : ∀ t s, exec (i t) s = happens t f s) (hf : ∀ a, ok a = true → f a = after a) : Happens i ok after := by
  intro s t hp hk
  rw [hi, happens, whenPowered_on hp, hf _ hk]

end Sys2Proof.Machine
end

