-- ==== Sys2Proof/Laws/Issue.lean ====
section
/-! SUPPORT. What issuing a Sorrel instruction does and what an upstream Trellis frame does, said once: the statements about
single instructions and frames follow from these without unfolding `State.issue` or `State.onFrame`. -/

namespace Sys2Proof.Machine

/-- A core that issues the row's instruction does what the row's body answers (R265 to R270). -/
theorem State.issue_of_issues {core cls op : Nat} {a : State} (body : Nat → Nat → Core → IsaOut)
    (h : Cond.issues core cls op a = true) :
    a.issue core cls op body =
      match body (Cond.issuing core a).word (a.freeNat 128) (Cond.issuing core a) with
      | .trap k => a.drawFree.coreTrap core k
      | .stall => a
      | .next y => a.drawFree.setCore core y.advance
      | .jump y pc => a.drawFree.setCore core { y with pc := pc % 8192 }
      | .yield y => (a.drawFree.setCore core y).coreYield core
      | .halt y => ((a.drawFree.setCore core y).coreCommit core).kernelEnd core 1 0 := by
  simp only [Cond.issues, Bool.and_eq_true, beq_iff_eq, Bool.or_eq_true] at h
  obtain ⟨⟨⟨⟨h1, h2⟩, h3⟩, h4⟩, h5⟩ := h
  have hw : (Cond.issuing core a).word = (a.core core).word := rfl
  rw [hw] at h2 h3 h4 h5
  have hm : (!((a.core core).mode == .running || (a.core core).mode == .quiescing)) = false := by
    rcases h1 with h1 | h1 <;> simp [h1]
  unfold State.issue
  dsimp only
  rw [if_neg (by simp [hm]), if_neg (by simp [h2]), if_neg (by simp [h3, h4]), if_neg (by simp [h5])]
  rfl

/-- A core that does not issue the row's instruction is left alone, or traps on the word it is at. -/
theorem State.issue_of_not {core cls op : Nat} {a : State} (body : Nat → Nat → Core → IsaOut)
    (h : Cond.issues core cls op a = false) : a.issue core cls op body = a ∨ a.issue core cls op body = a.coreTrap core 1 := by
  have hw : (Cond.issuing core a).word = (a.core core).word := rfl
  simp only [Cond.issues, hw] at h
  unfold State.issue
  dsimp only
  split
  · exact .inl rfl
  · split
    · exact .inr rfl
    · split
      · exact .inl rfl
      · split
        · exact .inr rfl
        · exfalso
          simp_all

/-- An instruction whose body goes on to the next index wherever its effect is given runs there. -/
theorem runs_of {i : Nat → Nat → Instr} {cls op : Nat} {r : Cond.Effect} (body : Nat → Nat → Core → IsaOut)
    (hi : ∀ t core s, exec (i t core) s = isa t core cls op body s)
    (hb : ∀ w f x z, r w f x = some z → body w f x = .next z) : Cond.Runs i cls op r := by
  intro core
  apply happens_of (fun s => s.issue core cls op body) (fun t s => hi t core s)
  intro a h
  simp only [Bool.and_eq_true, Option.isSome_iff_exists] at h
  obtain ⟨h, z, hz⟩ := h
  rw [State.issue_of_issues body h, hb _ _ _ _ hz]
  simp [hz]

/-- A frame whose row is `State.onFrame` acts once when it is in order. -/
theorem frame_of {i : Nat → Nat → List Byte → Instr} {type cls : Nat} {act : Nat → List Byte → State → State}
    (hi : ∀ t lane frame s, exec (i t lane frame) s = happens t (fun s => s.onFrame lane type cls frame act) s) :
    Cond.FrameActs i type cls act := by
  intro lane frame
  refine ⟨?_, ?_, ?_⟩
  all_goals (apply happens_of _ (fun t s => hi t lane frame s); intro a h)
  · simp only [Cond.goodFrame, Cond.fresh, Cond.received, Cond.ackTaken, Cond.framePayload, Cond.sender, Bool.and_eq_true,
      decide_eq_true_eq, beq_iff_eq] at h ⊢
    unfold State.onFrame
    grind (splits := 30)
  · simp only [Cond.goodFrame, Cond.fresh, Cond.ackTaken, Cond.framePayload, Cond.sender, Bool.and_eq_true,
      decide_eq_true_eq, beq_iff_eq] at h ⊢
    unfold State.onFrame
    grind (splits := 30)
  · simp only [Bool.and_eq_true, decide_eq_true_eq] at h ⊢
    unfold State.onFrame
    grind (splits := 30)

end Sys2Proof.Machine
end

