-- ==== Sys2Proof/Laws/Memory.lean ====
section
/-! SUPPORT. Laws of byte memories: every operation keeps the canonical form, and a byte reads as it was last written. -/

namespace Sys2Proof.Machine

/-- A memory whose addresses rise from above `l` reads as blank up to `l`. -/
theorem Memory.read_below {m : Memory} {l a : Nat} (h : m.wfFrom (some l) = true) (ha : a ≤ l) : m.read a = Memory.blank := by
  cases m with
  | nil => rfl
  | cons e m =>
    obtain ⟨x, b⟩ := e
    simp only [Memory.wfFrom, Bool.and_eq_true, decide_eq_true_eq] at h
    have : ¬ x = a := by omega
    have : a < x := by omega
    simp [Memory.read, *]

/-- A lower bound may be lowered. -/
theorem Memory.wfFrom_mono {m : Memory} {l k : Nat} (h : m.wfFrom (some l) = true) (hk : k ≤ l) : m.wfFrom (some k) = true := by
  cases m with
  | nil => rfl
  | cons e m =>
    obtain ⟨x, b⟩ := e
    simp only [Memory.wfFrom, Bool.and_eq_true, decide_eq_true_eq] at h ⊢
    exact ⟨⟨by omega, h.1.2⟩, h.2⟩

/-- A memory that rises from a bound is canonical. -/
theorem Memory.wf_of_wfFrom {m : Memory} {l : Nat} (h : m.wfFrom (some l) = true) : m.wfFrom none = true := by
  cases m with
  | nil => rfl
  | cons e m =>
    obtain ⟨x, b⟩ := e
    simp only [Memory.wfFrom, Bool.and_eq_true, decide_eq_true_eq] at h ⊢
    exact ⟨⟨trivial, h.1.2⟩, h.2⟩

/-- A write above the bound keeps the form. -/
theorem Memory.write_wfFrom {m : Memory} {l a : Nat} (v : Byte) (h : m.wfFrom (some l) = true) (ha : l < a) :
    (m.write a v).wfFrom (some l) = true := by
  induction m generalizing l with
  | nil =>
    simp only [Memory.write]
    split
    · rfl
    · simp [Memory.wfFrom, *]
  | cons e m ih =>
    obtain ⟨x, b⟩ := e
    simp only [Memory.wfFrom, Bool.and_eq_true, decide_eq_true_eq, bne_iff_ne] at h
    simp only [Memory.write]
    split
    · split
      · simp [Memory.wfFrom, h]
      · simp [Memory.wfFrom, *]
    · split
      · split
        · exact Memory.wfFrom_mono h.2 (by omega)
        · simp only [Memory.wfFrom, Bool.and_eq_true, decide_eq_true_eq, bne_iff_ne]
          rename_i hx hv; subst hx
          exact ⟨⟨ha, hv⟩, h.2⟩
      · simp only [Memory.wfFrom, Bool.and_eq_true, decide_eq_true_eq, bne_iff_ne]
        exact ⟨h.1, ih h.2 (by omega)⟩

/-- A write keeps the canonical form. -/
theorem Memory.write_wf {m : Memory} (a : Nat) (v : Byte) (h : m.wf = true) : (m.write a v).wf = true := by
  cases m with
  | nil => simp only [Memory.write, Memory.wf]; split <;> simp [Memory.wfFrom, *]
  | cons e m =>
    obtain ⟨x, b⟩ := e
    simp only [Memory.wf, Memory.wfFrom, Bool.and_eq_true, Bool.true_and, bne_iff_ne] at h
    simp only [Memory.write, Memory.wf]
    split
    · split <;> simp [Memory.wfFrom, *]
    · split
      · split
        · exact Memory.wf_of_wfFrom h.2
        · rename_i hx hv; subst hx; simp [Memory.wfFrom, h, hv]
      · simp only [Memory.wfFrom, Bool.and_eq_true, Bool.true_and, bne_iff_ne]
        exact ⟨h.1, Memory.write_wfFrom v h.2 (by omega)⟩

/-- A block write keeps the canonical form. -/
theorem Memory.writeBytes_wf {m : Memory} (a : Nat) (bs : List Byte) (h : m.wf = true) : (m.writeBytes a bs).wf = true := by
  induction bs generalizing m a with
  | nil => exact h
  | cons b bs ih => exact ih _ (Memory.write_wf a b h)

/-- Dropping entries keeps the canonical form, above any bound. -/
theorem Memory.filter_wfFrom {m : Memory} {l : Option Nat} (p : Host.Cell → Bool) (h : m.wfFrom l = true) :
    Memory.wfFrom l (m.filter p) = true := by
  induction m generalizing l with
  | nil => rfl
  | cons e m ih =>
    obtain ⟨x, b⟩ := e
    have h' := h
    simp only [Memory.wfFrom, Bool.and_eq_true] at h
    simp only [List.filter]
    split
    · simp only [Memory.wfFrom, Bool.and_eq_true]; exact ⟨h.1, ih h.2⟩
    · have := ih h.2
      cases l with
      | none => exact Memory.wf_of_wfFrom this
      | some k => exact Memory.wfFrom_mono this (by have := h.1.1; simp at this; omega)

/-- Zeroing keeps the canonical form. -/
theorem Memory.zero_wf {m : Memory} (a n : Nat) (h : m.wf = true) : (m.zero a n).wf = true := Memory.filter_wfFrom _ h

/-- A byte reads as it was written. -/
theorem Memory.read_write_self {m : Memory} (a : Nat) (v : Byte) (h : m.wf = true) : (m.write a v).read a = v := by
  have key : ∀ (l : Option Nat) (m : Memory), m.wfFrom l = true → (m.write a v).read a = v := by
    intro l m
    induction m generalizing l with
    | nil => intro _; simp only [Memory.write]; split <;> simp [Memory.read, *]
    | cons e m ih =>
      obtain ⟨x, b⟩ := e
      intro h
      simp only [Memory.wfFrom, Bool.and_eq_true] at h
      simp only [Memory.write]
      split
      · split
        · rename_i hx hv; have : ¬ x = a := by omega
          simp [Memory.read, *]
        · simp [Memory.read]
      · split
        · rename_i hx
          split
          · rename_i hv; rw [Memory.read_below h.2 (by omega)]; exact hv.symm
          · simp [Memory.read]
        · rename_i h1 h2
          have : ¬ x = a := fun e => h2 e.symm
          simp only [Memory.read, this, h1, if_false]
          exact ih _ h.2
  exact key none m h

/-- Every other byte reads as before. -/
theorem Memory.read_write_ne {m : Memory} {a b : Nat} (v : Byte) (h : m.wf = true) (hab : b ≠ a) :
    (m.write a v).read b = m.read b := by
  have key : ∀ (l : Option Nat) (m : Memory), m.wfFrom l = true → (m.write a v).read b = m.read b := by
    intro l m
    induction m generalizing l with
    | nil => intro _; simp only [Memory.write]; split <;> simp [Memory.read, Ne.symm hab]
    | cons e m ih =>
      obtain ⟨x, c⟩ := e
      intro h
      simp only [Memory.wfFrom, Bool.and_eq_true] at h
      simp only [Memory.write]
      split
      · split
        · rfl
        · rename_i h1 _
          simp only [Memory.read, Ne.symm hab, if_false]
          split
          · have h2 : ¬ x = b := by omega
            have h3 : b < x := by omega
            simp [h2, h3]
          · rfl
      · split
        · rename_i hx; subst hx
          split
          · simp only [Memory.read, Ne.symm hab, if_false]
            split
            · exact Memory.read_below h.2 (by omega)
            · rfl
          · simp [Memory.read, Ne.symm hab]
        · simp only [Memory.read]
          split
          · rfl
          · split
            · rfl
            · exact ih _ h.2
  exact key none m h

/-- A run of operations that keep the canonical form keeps it. -/
theorem Memory.foldl_wf {α : Type} {g : Memory → α → Memory} {l : List α} {m : Memory}
    (hg : ∀ m x, m.wf = true → (g m x).wf = true) (h : m.wf = true) : (l.foldl g m).wf = true := by
  induction l generalizing m with
  | nil => exact h
  | cons x l ih => exact ih (hg _ _ h)

end Sys2Proof.Machine
end

