-- ==== Sys2Proof/Laws/Keeps.lean ====
section
/-! SUPPORT. What every operation of the model keeps, and that the operations over functions, channels, rings, outputs
and Cellar keep it: the invariant of every step comes from these. -/

namespace Sys2Proof.Machine

/-- What an operation keeps: the queue; the clock, unless it starts again from 0; what was sent; the free values drawn;
the canonical form of the memories. -/
structure Keeps (s s' : State) : Prop where
  pending : s'.pending = s.pending
  time : s'.now = s.now ∨ s'.now = 0
  out : s.out <:+ s'.out
  drawn : s.freeDrawn ≤ s'.freeDrawn
  mem : s.memoryWf = true → s'.memoryWf = true

theorem Keeps.refl (s : State) : Keeps s s := ⟨rfl, .inl rfl, List.suffix_refl _, Nat.le_refl _, id⟩

theorem Keeps.trans {r s t : State} (h : Keeps r s) (k : Keeps s t) : Keeps r t :=
  ⟨k.pending.trans h.pending,
   match k.time, h.time with
   | .inr e, _ => .inr e
   | .inl e, .inl f => .inl (e.trans f)
   | .inl e, .inr f => .inr (e.trans f),
   h.out.trans k.out, Nat.le_trans h.drawn k.drawn, fun e => k.mem (h.mem e)⟩

/-- An update of fields that `Keeps` does not look at. -/
theorem Keeps.upd {r s : State} {pw ready host fcw ck inputs ddcs press spec trig ctxs cores pat pe sideDead vine
    tiu tiuGroups mon offered rack ports disp regions cell bud cellarOp ft cal sec} (h : Keeps r s) (hf : host.fns =
    s.host.fns) :
    Keeps r (State.mk s.pending s.now s.out s.freeDrawn pw ready host fcw ck inputs ddcs press spec trig ctxs cores pat pe sideDead s.stim vine tiu tiuGroups mon offered rack ports disp s.cellarMem regions cell bud cellarOp ft cal sec) :=
  h.trans ⟨rfl, .inl rfl, List.suffix_refl _, Nat.le_refl _, fun e => by simpa [State.memoryWf, hf] using e⟩

theorem Keeps.ite {r a b : State} {c : Prop} [Decidable c] (ha : Keeps r a) (hb : Keeps r b) : Keeps r (if c then a else b) := by
  split <;> assumption

theorem Keeps.foldl {r s : State} {α : Type} {g : State → α → State} {l : List α} (hg : ∀ t x, Keeps r t → Keeps r (g t x)) (h : Keeps r s) :
    Keeps r (l.foldl g s) := by
  induction l generalizing s with
  | nil => exact h
  | cons x l ih => exact ih (hg _ _ h)

/-- The state in a pair that a run of operations hands on. -/
theorem Keeps.foldl_fst {r : State} {α β : Type} {g : State × β → α → State × β} {l : List α} {p : State × β}
    (hg : ∀ p x, Keeps r p.1 → Keeps r (g p x).1) (h : Keeps r p.1) : Keeps r (l.foldl g p).1 := by
  induction l generalizing p with
  | nil => exact h
  | cons x l ih => exact ih (hg _ _ h)

/-- The state in what a meaning comes to keeps it. -/
def VerbOut.Keeps (r : State) : VerbOut → Prop
  | .fail _ _ | .wait => True
  | .done _ _ s | .data _ _ s | .dataIfAsked _ _ s | .running _ _ s => Machine.Keeps r s

theorem State.drawFree_keeps {r s : State} (h : Keeps r s) : Keeps r s.drawFree :=
  h.trans ⟨rfl, .inl rfl, List.suffix_refl _, Nat.le_succ _, id⟩

theorem State.emit_keeps {r s : State} {o : Out} (h : Keeps r s) : Keeps r (s.emit o) :=
  h.trans ⟨rfl, .inl rfl, List.suffix_cons _ _, Nat.le_refl _, id⟩

theorem Func.memoryWf_congr {f g : Func} (hm : f.msixTable = g.msixTable) (hc : f.chans = g.chans) (h : g.memoryWf = true) :
    f.memoryWf = true := by
  simpa [Func.memoryWf, hm, hc] using h

theorem State.func_memoryWf {s : State} (fn : Nat) (h : s.memoryWf = true) : (s.func fn).memoryWf = true := by
  simp only [State.memoryWf, Bool.and_eq_true] at h
  exact KMap.all_get fn {} h.2 (by decide)

theorem State.chan_wf {s : State} (fn n : Nat) (h : s.memoryWf = true) : (s.chan fn n).area.wf = true := by
  have := State.func_memoryWf fn h
  simp only [Func.memoryWf, Bool.and_eq_true] at this
  exact KMap.all_get (p := fun c : Chan => c.area.wf) n {} this.2 (by decide)

theorem State.stim_wf {s : State} (o : Nat) (h : s.memoryWf = true) : (s.stimOut o).wave.wf = true := by
  simp only [State.memoryWf, Bool.and_eq_true] at h
  exact KMap.all_get (p := fun x : StimOut => x.wave.wf) o {} h.1.2 (by decide)

/-- A function may be replaced by one whose memories are in canonical form where the old one's were. -/
theorem State.setFunc_keeps_wf {r s : State} {fn : Nat} {f : Func} (h : Keeps r s)
    (hf : (s.func fn).memoryWf = true → f.memoryWf = true) : Keeps r (s.setFunc fn f) :=
  h.trans ⟨rfl, .inl rfl, List.suffix_refl _, Nat.le_refl _, fun e => by
    have hf' := hf (State.func_memoryWf fn e)
    simp only [State.memoryWf, Bool.and_eq_true] at e ⊢
    exact ⟨e.1, KMap.all_set fn f e.2 hf'⟩⟩

theorem State.setFunc_keeps {r s : State} {fn : Nat} {f : Func} (h : Keeps r s)
    (hm : f.msixTable = (s.func fn).msixTable) (hc : f.chans = (s.func fn).chans) : Keeps r (s.setFunc fn f) :=
  State.setFunc_keeps_wf h (Func.memoryWf_congr hm hc)

theorem State.message_keeps {r s : State} {fn v : Nat} (h : Keeps r s) : Keeps r (s.message fn v) := by
  unfold State.message
  try dsimp only
  exact Keeps.ite (State.setFunc_keeps h rfl rfl) (State.emit_keeps h)

theorem State.post_keeps {r s : State} {l : List Out} (h : Keeps r s) : Keeps r (s.post l) := by
  unfold State.post
  induction l with
  | nil => exact h
  | cons o l ih =>
    simp only [List.foldr_cons]
    split
    · exact State.message_keeps ih
    · exact State.emit_keeps ih

/-- The same with outputs. -/
theorem State.setFuncOut_keeps {r s : State} {fn : Nat} {f : Func} {l : List Out} (h : Keeps r s)
    (hm : f.msixTable = (s.func fn).msixTable) (hc : f.chans = (s.func fn).chans) :
    Keeps r ((s.setFunc fn f).post l) :=
  State.post_keeps (State.setFunc_keeps h hm hc)

theorem State.setChan_keeps_wf {r s : State} {fn n : Nat} {c : Chan} (h : Keeps r s)
    (hc : (s.chan fn n).area.wf = true → c.area.wf = true) : Keeps r (s.setChan fn n c) :=
  h.trans ⟨rfl, .inl rfl, List.suffix_refl _, Nat.le_refl _, fun e => by
    have hk := State.func_memoryWf fn e
    have hw := hc (State.chan_wf fn n e)
    refine ((State.setFunc_keeps_wf (r := s) (fn := fn) (Keeps.refl s) ?_).mem e)
    intro _
    simp only [Func.memoryWf, Bool.and_eq_true] at hk ⊢
    exact ⟨hk.1, KMap.all_set (p := fun e : Nat × Chan => e.2.area.wf) n c hk.2 hw⟩⟩

theorem State.setChan_keeps {r s : State} {fn n : Nat} {c : Chan} (h : Keeps r s) (hc : c.area = (s.chan fn n).area) :
    Keeps r (s.setChan fn n c) :=
  State.setChan_keeps_wf h (by rw [hc]; exact id)

theorem State.setStim_keeps_wf {r s : State} {o : Nat} {x : StimOut} (h : Keeps r s)
    (hx : (s.stimOut o).wave.wf = true → x.wave.wf = true) : Keeps r (s.setStim o x) :=
  h.trans ⟨rfl, .inl rfl, List.suffix_refl _, Nat.le_refl _, fun e => by
    have hw := hx (State.stim_wf o e)
    simp only [State.memoryWf, Bool.and_eq_true] at e ⊢
    exact ⟨⟨e.1.1, KMap.all_set (p := fun e : Nat × StimOut => e.2.wave.wf) o x e.1.2 hw⟩, e.2⟩⟩

/-- An output may be replaced by one whose waveform memory is in canonical form. -/
theorem State.setStim_keeps_of {r s : State} {o : Nat} {x : StimOut} (h : Keeps r s) (hx : r.memoryWf = true → x.wave.wf = true) :
    Keeps r (s.setStim o x) :=
  ⟨h.pending, h.time, h.out, h.drawn, fun e => by
    have h1 := h.mem e
    simp only [State.memoryWf, Bool.and_eq_true] at h1 ⊢
    exact ⟨⟨h1.1.1, KMap.all_set o x h1.1.2 (hx e)⟩, h1.2⟩⟩

theorem State.setStim_keeps {r s : State} {o : Nat} {x : StimOut} (h : Keeps r s) (hx : x.wave = (s.stimOut o).wave) :
    Keeps r (s.setStim o x) :=
  State.setStim_keeps_wf h (by rw [hx]; exact id)

theorem State.keepCellar_keeps {r s : State} {m : Memory} (h : Keeps r s) (hm : s.cellarMem.wf = true → m.wf = true) :
    Keeps r (s.keepCellar m) := by
  unfold State.keepCellar
  split
  · exact h
  · exact h.trans ⟨rfl, .inl rfl, List.suffix_refl _, Nat.le_refl _, fun e => by
      simp only [State.memoryWf, Bool.and_eq_true] at e ⊢
      exact ⟨⟨hm e.1.1, e.1.2⟩, e.2⟩⟩

theorem drainCompl_frame (fn now : Nat) (can : Bool) (cs : List ComplRec) (f : Func) (kept : List ComplRec) (o : List Out) :
    (drainCompl fn now can cs f kept o).1.msixTable = f.msixTable ∧ (drainCompl fn now can cs f kept o).1.chans = f.chans := by
  induction cs generalizing f kept o with
  | nil => exact ⟨rfl, rfl⟩
  | cons c cs ih =>
    simp only [drainCompl]
    split
    · exact ih ..
    · exact ih ..

theorem State.wakeIfDue_keeps {r s : State} {fn : Nat} (h : Keeps r s) : Keeps r (s.wakeIfDue fn) := by
  unfold State.wakeIfDue
  split
  · exact Keeps.upd h rfl
  · exact h

theorem State.eventTo_keeps {r s : State} {fn : Nat} {e : EventRec} (h : Keeps r s) : Keeps r (s.eventTo fn e) := by
  unfold State.eventTo
  dsimp only
  split
  · exact State.wakeIfDue_keeps (State.setFuncOut_keeps h rfl rfl)
  · exact h

theorem State.flushCompl_keeps {r s : State} {fn : Nat} (h : Keeps r s) : Keeps r (s.flushCompl fn) :=
  State.setFuncOut_keeps h (drainCompl_frame ..).1 (drainCompl_frame ..).2

theorem State.pushCompl_keeps {r s : State} {fn : Nat} {c : ComplRec} (h : Keeps r s) : Keeps r (s.pushCompl fn c) :=
  State.wakeIfDue_keeps (State.flushCompl_keeps (State.setFunc_keeps h rfl rfl))

theorem State.flushEr_keeps {r s : State} {fn i : Nat} (h : Keeps r s) : Keeps r (s.flushEr fn i) := by
  unfold State.flushEr
  dsimp only
  split
  · split
    · exact State.setFuncOut_keeps h rfl rfl
    · exact h
  · exact h

theorem State.eventAt_keeps {r s : State} {code source : Nat} {st : Stamp} {detail : Nat} (h : Keeps r s) :
    Keeps r (s.eventAt code source st detail) := by
  unfold State.eventAt
  dsimp only
  split
  · exact State.eventTo_keeps (State.eventTo_keeps h)
  · exact h

theorem State.event_keeps {r s : State} {code source : Nat} {detail : Nat} (h : Keeps r s) : Keeps r (s.event code source detail) :=
  State.eventAt_keeps h

theorem State.setAlert_keeps {r s : State} {b : Nat} (h : Keeps r s) : Keeps r (s.setAlert b) := Keeps.upd h rfl

theorem State.healthFrom_keeps {r s : State} {old : State} {always : Bool} (h : Keeps r s) : Keeps r (State.healthFrom old s always) := by
  have h1 : Keeps r (if s.grade != old.grade then s.setAlert 8 else s) := Keeps.ite (State.setAlert_keeps h) h
  unfold State.healthFrom
  dsimp only
  exact Keeps.ite (State.event_keeps h1) h1

end Sys2Proof.Machine
end

