-- ==== Sys2Proof/Laws/KeepsOps.lean ====
section
/-! SUPPORT. Each operation on the state keeps what `Keeps` says, one lemma per operation, in the order of the modules. -/

namespace Sys2Proof.Machine

theorem State.setReady_keeps {r : State} {s : State} {b : Nat} (h : Keeps r s) : Keeps r (State.setReady s b) := by
  unfold State.setReady
  try dsimp only
  repeat' ((with_reducible refine Keeps.upd ?_ rfl); first | with_reducible assumption | with_reducible apply Keeps.ite | with_reducible apply Keeps.foldl)

theorem State.clearReady_keeps {r : State} {s : State} {mask : Nat} (h : Keeps r s) : Keeps r (State.clearReady s
    mask) := by
  unfold State.clearReady
  try dsimp only
  repeat' ((with_reducible refine Keeps.upd ?_ rfl); first | with_reducible assumption | with_reducible apply Keeps.ite | with_reducible apply Keeps.foldl)

theorem State.bitsLost_keeps {r : State} {s : State} {mask : Nat} (h : Keeps r s) : Keeps r (State.bitsLost s mask)
    := by
  unfold State.bitsLost
  try dsimp only
  repeat' ((with_reducible refine Keeps.upd ?_ rfl); first | with_reducible assumption | with_reducible apply State.clearReady_keeps | with_reducible apply Keeps.ite | with_reducible apply Keeps.foldl)

theorem State.flushAll_keeps {r : State} {s : State} {fn : Nat} (h : Keeps r s) : Keeps r (State.flushAll s fn) := by
  unfold State.flushAll
  try dsimp only
  repeat' (first
      | (with_reducible first
        | assumption | apply State.flushEr_keeps | apply State.flushCompl_keeps | apply Keeps.foldl)
      | (intro _ _ _))

theorem State.writeResult_keeps {r : State} {s : State} {c : Cmd} {bytes : List Byte} (h : Keeps r s) : Keeps r
    (State.writeResult s c bytes) := by
  unfold State.writeResult
  try dsimp only
  repeat' (with_reducible first
        | assumption | apply State.emit_keeps)

theorem State.endCmd_keeps {r s : State} {c : Cmd} {st : Status} {result : Nat} (h : Keeps r s) :
    Keeps r (s.endCmd c st result) := by
  unfold State.endCmd
  extract_lets fns hs s1
  have h1 : Keeps r s1 := h.trans ⟨rfl, .inl rfl, List.suffix_refl _, Nat.le_refl _, fun e => by
    simp only [State.memoryWf, Bool.and_eq_true] at e ⊢
    refine ⟨e.1, KMap.all_mapVals (f := fun _ f => f.afterCmd c st) (p := Func.memoryWf) (fun _ f k => ?_) e.2⟩
    simp only [Func.memoryWf, Bool.and_eq_true] at k ⊢
    exact ⟨k.1, KMap.all_mapVals (f := fun _ (x : Chan) => { x with atAck := x.atAck.map fun d => d.after c st })
      (p := fun c : Chan => c.area.wf) (fun _ _ => id) k.2⟩⟩
  exact Keeps.ite h1 (State.pushCompl_keeps h1)

theorem State.finish_keeps {r : State} {s : State} {c : Cmd} {st : Status} {result : Nat} (h : Keeps r s) : Keeps r
    (State.finish s c st result) := by
  unfold State.finish
  try dsimp only
  repeat' (first
      | (with_reducible first
        | assumption | apply State.endCmd_keeps | apply Keeps.ite | apply Keeps.foldl)
      | (intro _ _ _))

theorem State.markStarted_keeps {r : State} {s : State} {c : Cmd} {aux : Nat} {named : List Nat} (h : Keeps r s) :
    Keeps r (State.markStarted s c aux named) := by
  unfold State.markStarted
  try dsimp only
  repeat' ((with_reducible refine Keeps.upd ?_ rfl); first | with_reducible assumption | with_reducible apply Keeps.ite | with_reducible apply Keeps.foldl)

theorem State.restDone_keeps {r : State} {s : State} {key aborted : Nat} (h : Keeps r s) : Keeps r (State.restDone s
    key aborted) := by
  unfold State.restDone
  try dsimp only
  repeat' ((with_reducible refine Keeps.upd ?_ rfl); first | with_reducible assumption | with_reducible apply Keeps.ite | with_reducible apply Keeps.foldl)

theorem State.finishAll_keeps {r : State} {s : State} {cs : List Cmd} {st : Status} (result : Cmd → Nat) (h : Keeps
    r s) : Keeps r (State.finishAll s cs st result) := by
  unfold State.finishAll
  try dsimp only
  repeat' (first
      | (with_reducible first
        | assumption | apply State.finish_keeps | apply Keeps.foldl)
      | (intro _ _ _))

theorem State.hostLoad_keeps {r : State} {s : State} {c : Cmd} {addr n : Nat} {cellar : Bool} (h : Keeps r s) :
    Keeps r (State.hostLoad s c addr n cellar) := by
  unfold State.hostLoad
  try dsimp only
  repeat' (with_reducible first
        | assumption | apply State.emit_keeps | apply Keeps.ite)

theorem State.logEntry_keeps {r : State} {s : State} {e : LogEntry} (h : Keeps r s) : Keeps r (State.logEntry s e) := by
  unfold State.logEntry
  try dsimp only
  repeat' ((with_reducible refine Keeps.upd ?_ rfl); first | with_reducible assumption | with_reducible apply Keeps.ite | with_reducible apply Keeps.foldl)

theorem State.faultMasked_keeps {r : State} {s : State} {u : Unit3} {i : FaultInfo} (h : Keeps r s) : Keeps r
    (State.faultMasked s u i) := by
  unfold State.faultMasked
  try dsimp only
  repeat' (first
      | with_reducible apply State.logEntry_keeps
      | ((with_reducible refine Keeps.upd ?_ rfl); first | with_reducible assumption | with_reducible apply State.drawFree_keeps | with_reducible apply State.logEntry_keeps | with_reducible apply State.eventAt_keeps | with_reducible apply State.healthFrom_keeps | with_reducible apply Keeps.ite | with_reducible apply Keeps.foldl))

theorem State.faultUnmasked_keeps {r : State} {s : State} {u : Unit3} {i : FaultInfo} (h : Keeps r s) : Keeps r
    (State.faultUnmasked s u i) := by
  unfold State.faultUnmasked
  try dsimp only
  repeat' ((with_reducible refine Keeps.upd ?_ rfl); first | with_reducible assumption | with_reducible apply State.healthFrom_keeps | with_reducible apply State.logEntry_keeps | with_reducible apply Keeps.ite | with_reducible apply Keeps.foldl)

theorem State.outOfScope_keeps {r : State} {s : State} {i : FaultInfo} (h : Keeps r s) : Keeps r (State.outOfScope s
    i) := by
  unfold State.outOfScope
  try dsimp only
  repeat' ((with_reducible refine Keeps.upd ?_ rfl); first | with_reducible assumption | with_reducible apply State.faultUnmasked_keeps | with_reducible apply Keeps.ite | with_reducible apply Keeps.foldl)

theorem State.faultWord_keeps {r : State} {s : State} {detail : Nat} (h : Keeps r s) : Keeps r (State.faultWord s
    detail) := by
  unfold State.faultWord
  try dsimp only
  repeat' ((with_reducible refine Keeps.upd ?_ rfl); first | with_reducible assumption | with_reducible apply State.logEntry_keeps | with_reducible apply State.healthFrom_keeps | with_reducible apply State.event_keeps | with_reducible apply Keeps.ite | with_reducible apply Keeps.foldl)

theorem State.faultIn_keeps {r : State} {s : State} {u : Unit3} {i : FaultInfo} (h : Keeps r s) : Keeps r
    (State.faultIn s u i) := by
  unfold State.faultIn
  try dsimp only
  repeat' (with_reducible first
        | assumption | apply State.faultUnmasked_keeps | apply State.faultMasked_keeps | apply Keeps.ite)

theorem State.settleFault_keeps {r : State} {s : State} {u : Unit3} (h : Keeps r s) : Keeps r (State.settleFault s
    u) := by
  unfold State.settleFault
  try dsimp only
  repeat' ((with_reducible refine Keeps.upd ?_ rfl); first | with_reducible assumption | with_reducible apply State.healthFrom_keeps | with_reducible apply Keeps.ite | with_reducible apply Keeps.foldl)

theorem State.restoreUnit_keeps {r : State} {s : State} {u : Unit3} {inj : Bool} (h : Keeps r s) : Keeps r
    (State.restoreUnit s u inj) := by
  unfold State.restoreUnit
  try dsimp only
  repeat' ((with_reducible refine Keeps.upd ?_ rfl); first | with_reducible assumption | with_reducible apply State.healthFrom_keeps | with_reducible apply State.logEntry_keeps | with_reducible apply Keeps.ite | with_reducible apply Keeps.foldl)

theorem State.release_keeps {r : State} {s : State} {act : Nat} (h : Keeps r s) : Keeps r (State.release s act) := by
  unfold State.release
  try dsimp only
  repeat' ((with_reducible refine Keeps.upd ?_ rfl); first | with_reducible assumption | with_reducible apply State.restDone_keeps | with_reducible apply State.finishAll_keeps | with_reducible apply Keeps.ite | with_reducible apply Keeps.foldl)

theorem State.undeclare_keeps {r : State} {s : State} {fam obj : Nat} (h : Keeps r s) : Keeps r (State.undeclare s
    fam obj) := by
  unfold State.undeclare
  try dsimp only
  repeat' ((with_reducible refine Keeps.upd ?_ rfl); first | with_reducible assumption | with_reducible apply Keeps.ite | with_reducible apply Keeps.foldl)

theorem State.setShadow_keeps {r : State} {s : State} {off v : Nat} (h : Keeps r s) : Keeps r (State.setShadow s off
    v) := by
  unfold State.setShadow
  try dsimp only
  repeat' ((with_reducible refine Keeps.upd ?_ rfl); first | with_reducible assumption | with_reducible apply Keeps.ite | with_reducible apply Keeps.foldl)

theorem State.vineQueue_keeps {r : State} {s : State} {f : VineFrame} (h : Keeps r s) : Keeps r (State.vineQueue s
    f) := by
  unfold State.vineQueue
  try dsimp only
  repeat' ((with_reducible refine Keeps.upd ?_ rfl); first | with_reducible assumption | with_reducible apply Keeps.ite | with_reducible apply Keeps.foldl)

theorem State.postVine_keeps {r : State} {s : State} {code : Nat} {st : Stamp} (h : Keeps r s) : Keeps r
    (State.postVine s code st) := by
  unfold State.postVine
  split
  · exact State.vineQueue_keeps h
  · exact h

theorem State.blankWhere_keeps {r : State} {s : State} (p : Nat → Comparator → Bool) (h : Keeps r s) : Keeps r
    (State.blankWhere s p) := by
  unfold State.blankWhere
  try dsimp only
  repeat' ((with_reducible refine Keeps.upd ?_ rfl); first | with_reducible assumption | with_reducible apply Keeps.ite | with_reducible apply Keeps.foldl)

theorem State.openBlanking_keeps {r : State} {s : State} {mask : Nat} (h : Keeps r s) : Keeps r (State.openBlanking
    s mask) := by
  unfold State.openBlanking
  try dsimp only
  repeat' (with_reducible first
        | assumption | apply State.blankWhere_keeps)

theorem State.openSiteBlanking_keeps {r : State} {s : State} {site : Nat} (h : Keeps r s) : Keeps r
    (State.openSiteBlanking s site) := by
  unfold State.openSiteBlanking
  try dsimp only
  repeat' (with_reducible first
        | assumption | apply State.blankWhere_keeps)

theorem State.trigDdcRate_keeps {r : State} {s : State} {d : Nat} (h : Keeps r s) : Keeps r (State.trigDdcRate s d)
    := by
  unfold State.trigDdcRate
  try dsimp only
  repeat' ((with_reducible refine Keeps.upd ?_ rfl); first | with_reducible assumption | with_reducible apply Keeps.ite | with_reducible apply Keeps.foldl)

theorem State.acqSees_keeps {r : State} {s : State} {u : Nat} {d : TrigCond} {forced : Bool} (h : Keeps r s) : Keeps
    r (State.acqSees s u d forced) := by
  unfold State.acqSees
  try dsimp only
  repeat' ((with_reducible refine Keeps.upd ?_ rfl); first | with_reducible assumption | with_reducible apply Keeps.ite | with_reducible apply Keeps.foldl)

theorem State.handToFlow_keeps {r : State} {s : State} {f : Nat} {u : FlowUnit} (h : Keeps r s) : Keeps r
    (State.handToFlow s f u) := by
  unfold State.handToFlow
  try dsimp only
  repeat' ((with_reducible refine Keeps.upd ?_ rfl); first | with_reducible assumption | with_reducible apply Keeps.ite | with_reducible apply Keeps.foldl)

theorem State.setShadowBit_keeps {r : State} {s : State} {off k : Nat} {b : Bool} (h : Keeps r s) : Keeps r
    (State.setShadowBit s off k b) := by
  unfold State.setShadowBit
  try dsimp only
  repeat' (with_reducible first
        | assumption | apply State.setShadow_keeps)

theorem State.offerElement_keeps {r s : State} {kind source : Nat} {e : Element} (h : Keeps r s) :
    Keeps r (s.offerElement kind source e) := by
  unfold State.offerElement
  refine Keeps.upd (State.keepCellar_keeps h (Memory.foldl_wf fun m c k => ?_)) rfl
  dsimp only
  split
  · unfold Ctx.writeRing
    split
    · exact k
    · exact Memory.writeBytes_wf _ _ k
  · exact k

theorem State.calTrim_keeps {r : State} {s : State} {cls index status value : Nat} (h : Keeps r s) : Keeps r
    (State.calTrim s cls index status value) := by
  unfold State.calTrim
  try dsimp only
  repeat' ((with_reducible refine Keeps.upd ?_ rfl); first | with_reducible assumption | with_reducible apply Keeps.ite | with_reducible apply Keeps.foldl)

theorem State.calFailed_keeps {r : State} {s : State} {cls index : Nat} (h : Keeps r s) : Keeps r (State.calFailed s
    cls index) := by
  unfold State.calFailed
  try dsimp only
  repeat' ((with_reducible refine Keeps.upd ?_ rfl); first | with_reducible assumption | with_reducible apply Keeps.ite | with_reducible apply Keeps.foldl)

theorem State.evCalDone_keeps {r : State} {s : State} {cls trimmed failed : Nat} {scheduled : Bool} (h : Keeps r s)
    : Keeps r (State.evCalDone s cls trimmed failed scheduled) := by
  unfold State.evCalDone
  try dsimp only
  repeat' (with_reducible first
        | assumption | apply State.event_keeps)

theorem State.calRunEnd_keeps {r : State} {s : State} {c : Cmd} (h : Keeps r s) : Keeps r (State.calRunEnd s c) := by
  unfold State.calRunEnd
  try dsimp only
  repeat' (with_reducible first
        | assumption | apply State.evCalDone_keeps | apply State.finish_keeps)

theorem State.calServed_keeps {r : State} {s : State} {cls key : Nat} (h : Keeps r s) : Keeps r (State.calServed s
    cls key) := by
  unfold State.calServed
  try dsimp only
  repeat' (first
      | (with_reducible first
        | assumption | apply State.calRunEnd_keeps | apply State.markStarted_keeps | apply Keeps.ite
        | apply Keeps.foldl)
      | (intro _ _ _))

theorem State.occApplied_keeps {r : State} {s : State} {g : Nat} (h : Keeps r s) : Keeps r (State.occApplied s g) := by
  unfold State.occApplied
  try dsimp only
  repeat' (first
      | ((with_reducible refine Keeps.upd ?_ rfl); first | with_reducible assumption | with_reducible apply Keeps.ite | with_reducible apply Keeps.foldl)
      | split)

theorem State.occTaken_keeps {r : State} {s : State} {g : Nat} {units : List Nat} (h : Keeps r s) : Keeps r
    (State.occTaken s g units) := by
  unfold State.occTaken
  try dsimp only
  repeat' (first
      | ((with_reducible refine Keeps.upd ?_ rfl); first | with_reducible assumption | with_reducible apply State.occApplied_keeps | with_reducible apply Keeps.ite | with_reducible apply Keeps.foldl)
      | split)

theorem State.setDdc_keeps {r : State} {s : State} {d : Nat} {x : Ddc} (h : Keeps r s) : Keeps r (State.setDdc s d
    x) := by
  unfold State.setDdc
  try dsimp only
  repeat' ((with_reducible refine Keeps.upd ?_ rfl); first | with_reducible assumption | with_reducible apply Keeps.ite | with_reducible apply Keeps.foldl)

theorem State.countSeen_keeps {r : State} {s : State} {d : Nat} (h : Keeps r s) : Keeps r (State.countSeen s d) := by
  unfold State.countSeen
  try dsimp only
  repeat' (with_reducible first
        | assumption | apply State.setDdc_keeps | apply Keeps.ite)

theorem State.satSkip_keeps {r : State} {s : State} {d : Nat} (h : Keeps r s) : Keeps r (State.satSkip s d) := by
  unfold State.satSkip
  try dsimp only
  repeat' (with_reducible first
        | assumption | apply State.drawFree_keeps | apply State.setDdc_keeps | apply Keeps.ite)

theorem State.ddcStart_keeps {r : State} {s : State} {d g : Nat} (h : Keeps r s) : Keeps r (State.ddcStart s d g) := by
  unfold State.ddcStart
  try dsimp only
  repeat' (with_reducible first
        | assumption | apply State.setDdc_keeps)

theorem State.ddcShadows_keeps {r : State} {s : State} {d : Nat} (h : Keeps r s) : Keeps r (State.ddcShadows s d) := by
  unfold State.ddcShadows
  try dsimp only
  repeat' (with_reducible first
        | assumption | apply State.setShadow_keeps)

theorem State.ddcTake_keeps {r : State} {s : State} {d : Nat} {words : KMap Nat} (h : Keeps r s) : Keeps r
    (State.ddcTake s d words) := by
  unfold State.ddcTake
  try dsimp only
  repeat' (with_reducible first
        | assumption | apply State.setDdc_keeps | apply Keeps.ite)

theorem State.ddcInputStep_keeps {r : State} {s : State} {input settled cause : Nat} (h : Keeps r s) : Keeps r
    (State.ddcInputStep s input settled cause) := by
  unfold State.ddcInputStep
  try dsimp only
  repeat' (first
      | (with_reducible first
        | assumption | apply State.setDdc_keeps | apply Keeps.ite | apply Keeps.foldl)
      | (intro _ _ _))

theorem State.ddcFail_keeps {r : State} {s : State} {i u : Nat} {inj : Bool} (h : Keeps r s) : Keeps r
    (State.ddcFail s i u inj) := by
  unfold State.ddcFail
  try dsimp only
  repeat' (first
      | ((with_reducible refine Keeps.upd ?_ rfl); first | with_reducible assumption | with_reducible apply State.faultIn_keeps | with_reducible apply State.setDdc_keeps | with_reducible apply State.faultMasked_keeps | with_reducible apply State.faultUnmasked_keeps | with_reducible apply Keeps.ite | with_reducible apply Keeps.foldl)
      | split)

theorem State.ddcFreed_keeps {r : State} {s : State} {b : Nat} (h : Keeps r s) : Keeps r (State.ddcFreed s b) := by
  unfold State.ddcFreed
  try dsimp only
  repeat' (first
      | (with_reducible first
        | assumption | apply State.setDdc_keeps)
      | split)

theorem State.ddcQuiesce_keeps {r : State} {s : State} {d : Nat} (h : Keeps r s) : Keeps r (State.ddcQuiesce s d) := by
  unfold State.ddcQuiesce
  try dsimp only
  repeat' (with_reducible first
        | assumption | apply State.setDdc_keeps | apply State.undeclare_keeps | apply State.ddcFreed_keeps)

theorem State.setInput_keeps {r : State} {s : State} {i : Nat} {x : RfInput} (h : Keeps r s) : Keeps r
    (State.setInput s i x) := by
  unfold State.setInput
  try dsimp only
  repeat' ((with_reducible refine Keeps.upd ?_ rfl); first | with_reducible assumption | with_reducible apply Keeps.ite | with_reducible apply Keeps.foldl)

theorem State.switchRange_keeps {r s : State} {i q : Nat} (h : Keeps r s) : Keeps r (s.switchRange i q) :=
  State.ddcInputStep_keeps (State.setInput_keeps h)

theorem State.sliceFailRunning_keeps {r : State} {s : State} {i k since : Nat} {interval inj : Bool} (h : Keeps r s)
    : Keeps r (State.sliceFailRunning s i k since interval inj) := by
  unfold State.sliceFailRunning
  try dsimp only
  repeat' (first
      | (with_reducible first
        | assumption | apply State.setInput_keeps | apply State.faultUnmasked_keeps
        | apply State.ddcInputStep_keeps | apply State.faultMasked_keeps | apply State.faultIn_keeps)
      | split)

theorem State.inputFlows_keeps {r : State} {s : State} {i : Nat} (h : Keeps r s) : Keeps r (State.inputFlows s i) := by
  unfold State.inputFlows
  try dsimp only
  repeat' (with_reducible first
        | assumption | apply State.setInput_keeps | apply State.finishAll_keeps)

theorem State.serveWaiting_keeps {r : State} {s : State} {i : Nat} (h : Keeps r s) : Keeps r (State.serveWaiting s
    i) := by
  unfold State.serveWaiting
  try dsimp only
  repeat' (first
      | (with_reducible first
        | assumption | apply State.sliceFailRunning_keeps | apply State.setInput_keeps
        | apply State.inputFlows_keeps | apply Keeps.ite | apply Keeps.foldl)
      | (intro _ _ _))

theorem State.sliceFail_keeps {r : State} {s : State} {i k since : Nat} {inj : Bool} (h : Keeps r s) : Keeps r
    (State.sliceFail s i k since inj) := by
  unfold State.sliceFail
  try dsimp only
  repeat' (with_reducible first
        | assumption | apply State.sliceFailRunning_keeps | apply State.serveWaiting_keeps
        | apply State.setInput_keeps | apply Keeps.ite)

theorem State.countRun_keeps {r : State} {s : State} {i : Nat} (h : Keeps r s) : Keeps r (State.countRun s i) := by
  unfold State.countRun
  try dsimp only
  repeat' (with_reducible first
        | assumption | apply State.setInput_keeps)

theorem State.closeInterval_keeps {r : State} {s : State} {i o : Nat} (h : Keeps r s) : Keeps r (State.closeInterval
    s i o) := by
  unfold State.closeInterval
  try dsimp only
  repeat' (with_reducible first
        | assumption | apply State.setInput_keeps | apply State.eventAt_keeps | apply Keeps.ite)

theorem State.closeDue_keeps {r : State} {n i : Nat} {s : State} (h : Keeps r s) : Keeps r (State.closeDue n i s) := by
  induction n generalizing s with
  | zero => exact h
  | succ n ih =>
    unfold State.closeDue
    split
    · exact Keeps.ite (ih (State.closeInterval_keeps h)) h
    · exact h

theorem State.closeAll_keeps {r s : State} {i : Nat} (h : Keeps r s) : Keeps r (s.closeAll i) := by
  unfold State.closeAll
  split
  · exact State.closeDue_keeps h
  · exact h

theorem State.inputQuiesce_keeps {r : State} {s : State} {i : Nat} (h : Keeps r s) : Keeps r (State.inputQuiesce s
    i) := by
  unfold State.inputQuiesce
  try dsimp only
  repeat' (with_reducible first
        | assumption | apply State.setInput_keeps | apply State.undeclare_keeps)

theorem State.countClamped_keeps {r : State} {s : State} {d : Nat} {codes : List Int} (h : Keeps r s) : Keeps r
    (State.countClamped s d codes) := by
  unfold State.countClamped
  try dsimp only
  repeat' (with_reducible first
        | assumption | apply State.setDdc_keeps | apply Keeps.ite)

theorem State.setJob_keeps {r : State} {s : State} {j : Nat} {x : PressJob} (h : Keeps r s) : Keeps r (State.setJob
    s j x) := by
  unfold State.setJob
  try dsimp only
  repeat' ((with_reducible refine Keeps.upd ?_ rfl); first | with_reducible assumption | with_reducible apply Keeps.ite | with_reducible apply Keeps.foldl)

theorem State.movePipe_keeps {r : State} {s : State} {u v : Nat} (h : Keeps r s) : Keeps r (State.movePipe s u v) := by
  unfold State.movePipe
  try dsimp only
  repeat' ((with_reducible refine Keeps.upd ?_ rfl); first | with_reducible assumption | with_reducible apply Keeps.ite | with_reducible apply Keeps.foldl)

theorem State.movePipes_keeps {r : State} {n : Nat} {s : State} (h : Keeps r s) : Keeps r (State.movePipes n s) := by
  induction n generalizing s with
  | zero => exact h
  | succ n ih =>
    unfold State.movePipes
    split
    · exact ih (Keeps.upd (State.movePipe_keeps h) rfl)
    · exact h

theorem State.pipeFreed_keeps {r s : State} (h : Keeps r s) : Keeps r s.pipeFreed := State.movePipes_keeps h

theorem State.pressFlows_keeps {r : State} {s : State} {x : PressJob} {tag : FrameTag} {values : List Byte} (h :
    Keeps r s) : Keeps r (State.pressFlows s x tag values) := by
  unfold State.pressFlows
  try dsimp only
  repeat' (first
      | (with_reducible first
        | assumption | apply State.handToFlow_keeps | apply Keeps.foldl)
      | (intro _ _ _))

theorem State.offerFrame_keeps {r : State} {s : State} {f : PressFrame} (h : Keeps r s) : Keeps r (State.offerFrame
    s f) := by
  unfold State.offerFrame
  try dsimp only
  repeat' ((with_reducible refine Keeps.upd ?_ rfl); first | with_reducible assumption | with_reducible apply State.setJob_keeps | with_reducible apply State.offerElement_keeps | with_reducible apply Keeps.ite | with_reducible apply Keeps.foldl)

theorem State.pipeFail_keeps {r : State} {s : State} {u : Nat} {inj : Bool} (h : Keeps r s) : Keeps r
    (State.pipeFail s u inj) := by
  unfold State.pipeFail
  try dsimp only
  repeat' (first
      | ((with_reducible refine Keeps.upd ?_ rfl); first | with_reducible assumption | with_reducible apply State.faultIn_keeps | with_reducible apply State.movePipe_keeps | with_reducible apply State.faultMasked_keeps | with_reducible apply State.faultUnmasked_keeps | with_reducible apply Keeps.ite | with_reducible apply Keeps.foldl)
      | split)

theorem State.jobQuiesce_keeps {r : State} {s : State} {j : Nat} {free : Bool} (h : Keeps r s) : Keeps r
    (State.jobQuiesce s j free) := by
  unfold State.jobQuiesce
  try dsimp only
  repeat' ((with_reducible refine Keeps.upd ?_ rfl); first | with_reducible assumption | with_reducible apply State.undeclare_keeps | with_reducible apply State.pipeFreed_keeps | with_reducible apply State.setJob_keeps | with_reducible apply Keeps.ite | with_reducible apply Keeps.foldl)

theorem State.jobRest_keeps {r : State} {s : State} {j : Nat} (h : Keeps r s) : Keeps r (State.jobRest s j) := by
  unfold State.jobRest
  try dsimp only
  repeat' (with_reducible first
        | assumption | apply State.jobQuiesce_keeps | apply State.finishAll_keeps | apply State.restDone_keeps)

theorem State.jobStop_keeps {r : State} {s : State} {j : Nat} {free : Bool} (h : Keeps r s) : Keeps r (State.jobStop
    s j free) := by
  unfold State.jobStop
  try dsimp only
  repeat' (with_reducible first
        | assumption | apply State.setJob_keeps | apply State.jobQuiesce_keeps | apply Keeps.ite)

theorem State.pressTake_keeps {r : State} {s : State} {i : Nat} {words : KMap Nat} (h : Keeps r s) : Keeps r
    (State.pressTake s i words) := by
  unfold State.pressTake
  try dsimp only
  repeat' ((with_reducible refine Keeps.upd ?_ rfl); first | with_reducible assumption | with_reducible apply Keeps.ite | with_reducible apply Keeps.foldl)

theorem State.jobTake_keeps {r : State} {s : State} {j : Nat} {words : KMap Nat} (h : Keeps r s) : Keeps r
    (State.jobTake s j words) := by
  unfold State.jobTake
  try dsimp only
  repeat' (with_reducible first
        | assumption | apply State.setJob_keeps)

theorem State.setTrace_keeps {r : State} {s : State} {n : Nat} {x : Trace} (h : Keeps r s) : Keeps r (State.setTrace
    s n x) := by
  unfold State.setTrace
  try dsimp only
  repeat' ((with_reducible refine Keeps.upd ?_ rfl); first | with_reducible assumption | with_reducible apply Keeps.ite | with_reducible apply Keeps.foldl)

theorem State.setPlane_keeps {r : State} {s : State} {p : Nat} {x : Plane} (h : Keeps r s) : Keeps r (State.setPlane
    s p x) := by
  unfold State.setPlane
  try dsimp only
  repeat' ((with_reducible refine Keeps.upd ?_ rfl); first | with_reducible assumption | with_reducible apply Keeps.ite | with_reducible apply Keeps.foldl)

theorem State.finishClears_keeps {r : State} {s : State} (h : Keeps r s) : Keeps r (State.finishClears s) := by
  unfold State.finishClears
  try dsimp only
  repeat' (with_reducible first
        | assumption | apply State.finishAll_keeps)

theorem State.specTake_keeps {r : State} {s : State} {p : Nat} {words : KMap Nat} (h : Keeps r s) : Keeps r
    (State.specTake s p words) := by
  unfold State.specTake
  try dsimp only
  repeat' (with_reducible first
        | assumption | apply State.setPlane_keeps)

theorem State.sendResult_keeps {r s : State} {n : Nat} {x : Trace} {q : TraceResult} (h : Keeps r s) :
    Keeps r (s.sendResult n x q) := by
  unfold State.sendResult
  dsimp only
  split
  · exact State.offerElement_keeps h
  · exact Keeps.ite (State.handToFlow_keeps (State.handToFlow_keeps (State.offerElement_keeps h)))
      (State.handToFlow_keeps (State.offerElement_keeps h))

theorem State.resultFlows_keeps {r s : State} {old : State} (h : Keeps r s) : Keeps r (s.resultFlows old) := by
  unfold State.resultFlows
  refine Keeps.foldl (fun t n k => ?_) h
  dsimp only
  split
  · exact Keeps.ite k (State.sendResult_keeps k)
  · exact k

theorem State.traceDrain_keeps {r : State} {s : State} {n : Nat} (h : Keeps r s) : Keeps r (State.traceDrain s n) := by
  unfold State.traceDrain
  try dsimp only
  repeat' (first
      | (with_reducible first
        | assumption | apply State.setTrace_keeps | apply State.resultFlows_keeps | apply Keeps.ite
        | apply Keeps.foldl)
      | (intro _ _ _))

theorem State.traceQuiesce_keeps {r : State} {s : State} {n : Nat} (h : Keeps r s) : Keeps r (State.traceQuiesce s
    n) := by
  unfold State.traceQuiesce
  try dsimp only
  repeat' (with_reducible first
        | assumption | apply State.traceDrain_keeps | apply State.setTrace_keeps | apply State.undeclare_keeps)

theorem State.planeQuiesce_keeps {r : State} {s : State} {p : Nat} (h : Keeps r s) : Keeps r (State.planeQuiesce s
    p) := by
  unfold State.planeQuiesce
  try dsimp only
  repeat' (with_reducible first
        | assumption | apply State.setPlane_keeps | apply State.undeclare_keeps | apply State.finishClears_keeps)

theorem State.setTunit_keeps {r : State} {s : State} {u : Nat} {x : TrigUnit} (h : Keeps r s) : Keeps r
    (State.setTunit s u x) := by
  unfold State.setTunit
  try dsimp only
  repeat' ((with_reducible refine Keeps.upd ?_ rfl); first | with_reducible assumption | with_reducible apply Keeps.ite | with_reducible apply Keeps.foldl)

theorem State.trigEvent_keeps {r : State} {s : State} {u : Nat} {c : TrigCond} {forced : Bool} (h : Keeps r s) :
    Keeps r (State.trigEvent s u c forced) := by
  unfold State.trigEvent
  try dsimp only
  repeat' (with_reducible first
        | assumption | apply State.setTunit_keeps | apply State.eventAt_keeps | apply Keeps.ite)

theorem State.trigTargets_keeps {r : State} {s : State} {u : Nat} {c : TrigCond} (h : Keeps r s) : Keeps r
    (State.trigTargets s u c) := by
  unfold State.trigTargets
  try dsimp only
  repeat' (first
      | ((with_reducible refine Keeps.upd ?_ rfl); first | with_reducible assumption | with_reducible apply State.postVine_keeps | with_reducible apply State.openBlanking_keeps | with_reducible apply Keeps.ite | with_reducible apply Keeps.foldl)
      | split)

theorem State.trigDone_keeps {r : State} {s : State} {u : Nat} (h : Keeps r s) : Keeps r (State.trigDone s u) := by
  unfold State.trigDone
  try dsimp only
  repeat' (with_reducible first
        | assumption | apply State.setTunit_keeps | apply State.undeclare_keeps)

theorem State.decideOne_keeps {r s : State} {u : Nat} {c : TrigCond} {forced : Bool} (h : Keeps r s) :
    Keeps r (s.decideOne u c forced).1 := by
  unfold State.decideOne
  dsimp only
  split
  · exact State.setTunit_keeps h
  · split
    · exact State.setTunit_keeps (State.drawFree_keeps h)
    · have h1 : Keeps r (if s.trig.split then s.drawFree else s) := Keeps.ite (State.drawFree_keeps h) h
      have h2 (x : State) (n : Nat) (y : TrigUnit) (k : Keeps r x) :
          Keeps r (((({ x with trig := { x.trig with serial := n } } : State).setTunit u y).trigEvent u c forced).trigTargets u c |>.acqSees
            u c forced) :=
        State.acqSees_keeps (State.trigTargets_keeps (State.trigEvent_keeps (State.setTunit_keeps (Keeps.upd k rfl))))
      exact Keeps.ite (State.trigDone_keeps (h2 _ _ _ h1)) (h2 _ _ _ h1)

theorem State.conditionOne_keeps {r s : State} {u : Nat} {c : TrigCond} (h : Keeps r s) : Keeps r (s.conditionOne u
    c).1 := by
  unfold State.conditionOne
  dsimp only
  split
  · split
    · exact State.setTunit_keeps h
    · split
      · exact State.setTunit_keeps h
      · exact State.decideOne_keeps h
  · exact State.setTunit_keeps h
  · exact h

theorem State.sequenceMet_keeps {r s : State} {q : Nat} {a b : TrigCond} (h : Keeps r s) : Keeps r (s.sequenceMet q
    a b) :=
  State.conditionOne_keeps (State.setTunit_keeps h)

theorem State.sequenceTry_keeps {r : State} {s : State} {q : Nat} (h : Keeps r s) : Keeps r (State.sequenceTry s q)
    := by
  unfold State.sequenceTry
  try dsimp only
  repeat' (first
      | (with_reducible first
        | assumption | apply State.setTunit_keeps | apply State.sequenceMet_keeps)
      | split)

theorem State.sequenceA_keeps {r : State} {s : State} {q : Nat} {c : TrigCond} (h : Keeps r s) : Keeps r
    (State.sequenceA s q c) := by
  unfold State.sequenceA
  try dsimp only
  repeat' (with_reducible first
        | assumption | apply State.setTunit_keeps | apply State.sequenceTry_keeps | apply Keeps.ite)

theorem State.sequenceB_keeps {r : State} {s : State} {q : Nat} {c : TrigCond} (h : Keeps r s) : Keeps r
    (State.sequenceB s q c) := by
  unfold State.sequenceB
  try dsimp only
  repeat' (with_reducible first
        | assumption | apply State.sequenceTry_keeps | apply State.setTunit_keeps)

theorem State.sequences_keeps {r : State} {s : State} {ds : List (Nat × TrigCond)} (h : Keeps r s) : Keeps r
    (State.sequences s ds) := by
  unfold State.sequences
  try dsimp only
  repeat' (first
      | (with_reducible first
        | assumption | apply State.sequenceB_keeps | apply State.sequenceA_keeps | apply Keeps.ite
        | apply Keeps.foldl)
      | (intro _ _ _))

theorem State.condition_keeps {r s : State} {u : Nat} {c : TrigCond} (h : Keeps r s) : Keeps r (s.condition u c) :=
  Keeps.ite (State.sequences_keeps (State.conditionOne_keeps h)) (State.conditionOne_keeps h)

theorem State.offerTrig_keeps {r s : State} {kind source : Nat} {rising : Option Bool} {st : Stamp} {uns : Bool} (h
    : Keeps r s) :
    Keeps r (s.offerTrig kind source rising st uns) := by
  unfold State.offerTrig
  dsimp only
  refine State.sequences_keeps ?_
  suffices H : ∀ (l : List Nat) (p : State × List (Nat × TrigCond)), Keeps r p.1 →
      Keeps r (l.foldl (fun (r : State × List (Nat × TrigCond)) u =>
        let x := r.1.tunit u
        let dir := match rising with
          | some up => up == (x.edge == 0)
          | none => true
        if x.kind == kind && x.source == source && dir && !(x.exclude && uns) then
          let d := r.1.conditionOne u { at_ := stampFine st, unsettled := uns }
          (d.1, if d.2 then r.2 ++ [(u, { at_ := stampFine st, unsettled := uns })] else r.2)
        else r) p).1 from H _ _ h
  intro l
  induction l with
  | nil => exact fun _ k => k
  | cons u l ih =>
    intro p k
    refine ih _ ?_
    dsimp only
    split
    all_goals
      split
      · exact State.conditionOne_keeps k
      · exact k

theorem State.trigTake_keeps {r : State} {s : State} {u : Nat} {words : KMap Nat} (h : Keeps r s) : Keeps r
    (State.trigTake s u words) := by
  unfold State.trigTake
  try dsimp only
  repeat' (with_reducible first
        | assumption | apply State.setTunit_keeps)

theorem State.pulseDone_keeps {r : State} {s : State} (h : Keeps r s) : Keeps r (State.pulseDone s) := by
  unfold State.pulseDone
  try dsimp only
  repeat' (first
      | (intro _ _ _)
      | ((with_reducible refine Keeps.upd ?_ rfl); first | with_reducible assumption | with_reducible apply State.setTunit_keeps | with_reducible apply State.undeclare_keeps | with_reducible apply State.restDone_keeps | with_reducible apply State.finishAll_keeps | with_reducible apply Keeps.ite | with_reducible apply Keeps.foldl))

theorem State.voterFail_keeps {r : State} {s : State} {v : Nat} {inj : Bool} (h : Keeps r s) : Keeps r
    (State.voterFail s v inj) := by
  unfold State.voterFail
  try dsimp only
  repeat' ((with_reducible refine Keeps.upd ?_ rfl); first | with_reducible assumption | with_reducible apply State.faultMasked_keeps | with_reducible apply State.faultUnmasked_keeps | with_reducible apply State.pulseDone_keeps | with_reducible apply State.bitsLost_keeps | with_reducible apply Keeps.ite | with_reducible apply Keeps.foldl)

theorem State.trigArmNow_keeps {r : State} {s : State} {u mode target : Nat} {events : Bool} (h : Keeps r s) : Keeps
    r (State.trigArmNow s u mode target events) := by
  unfold State.trigArmNow
  try dsimp only
  repeat' (with_reducible first
        | assumption | apply State.setTunit_keeps)

theorem State.trigQuiesce_keeps {r : State} {s : State} {u : Nat} {mode : TrigMode} (h : Keeps r s) : Keeps r
    (State.trigQuiesce s u mode) := by
  unfold State.trigQuiesce
  try dsimp only
  repeat' (with_reducible first
        | assumption | apply State.setTunit_keeps | apply State.undeclare_keeps | apply Keeps.ite)

theorem State.setCtx_keeps {r : State} {s : State} {n : Nat} {x : Ctx} (h : Keeps r s) : Keeps r (State.setCtx s n
    x) := by
  unfold State.setCtx
  try dsimp only
  repeat' ((with_reducible refine Keeps.upd ?_ rfl); first | with_reducible assumption | with_reducible apply Keeps.ite | with_reducible apply Keeps.foldl)

theorem State.segmentEvent_keeps {r : State} {s : State} {n : Nat} (h : Keeps r s) : Keeps r (State.segmentEvent s
    n) := by
  unfold State.segmentEvent
  try dsimp only
  repeat' (with_reducible first
        | assumption | apply State.setCtx_keeps | apply State.eventAt_keeps)

theorem State.recordEvents_keeps {r : State} {s : State} {n reason : Nat} (h : Keeps r s) : Keeps r
    (State.recordEvents s n reason) := by
  unfold State.recordEvents
  try dsimp only
  repeat' (with_reducible first
        | assumption | apply State.segmentEvent_keeps | apply State.eventAt_keeps | apply Keeps.ite)

/-- A write of bytes keeps the Cellar's form. -/
theorem State.keepWrite_keeps {r s : State} {a : Nat} {bs : List Byte} (h : Keeps r s) :
    Keeps r (s.keepCellar (s.cellarMem.writeBytes a bs)) :=
  State.keepCellar_keeps h (Memory.writeBytes_wf _ _)

theorem State.noteGap_keeps {r s : State} {n : Nat} {g : GapEntry} (h : Keeps r s) : Keeps r (s.noteGap n g).1 := by
  unfold State.noteGap
  dsimp only
  have h1 (k : Option Nat) (b : List Byte) (a : Nat → Nat) : Keeps r (match k with
      | some k => s.keepCellar (s.cellarMem.writeBytes (a k) b)
      | none => s) := by
    cases k with
    | none => exact h
    | some k => exact State.keepWrite_keeps h
  exact Keeps.ite (State.setCtx_keeps (h1 _ _ fun k => (s.ctx n).gapBase + k * 32))
    (State.eventAt_keeps (State.setCtx_keeps (h1 _ _ fun k => (s.ctx n).gapBase + k * 32)))

theorem State.addGap_keeps {r s : State} {n : Nat} {g : GapEntry} (h : Keeps r s) : Keeps r (s.addGap n g) :=
  State.setCtx_keeps (State.noteGap_keeps h)

theorem State.ringGaps_keeps {r : State} {s : State} {n : Nat} (h : Keeps r s) : Keeps r (State.ringGaps s n) := by
  unfold State.ringGaps
  try dsimp only
  repeat' (first
      | (with_reducible first
        | assumption | apply State.setCtx_keeps | apply State.addGap_keeps | apply Keeps.foldl)
      | (intro _ _ _))

theorem State.settleGaps_keeps {r s : State} {n : Nat} {elements : List Element} {endTick : Nat} (h : Keeps r s) :
    Keeps r (s.settleGaps n elements endTick) := by
  unfold State.settleGaps
  dsimp only
  refine Keeps.ite h (State.setCtx_keeps (State.keepCellar_keeps h (Memory.foldl_wf fun m x e => ?_)))
  split
  · exact Memory.writeBytes_wf _ _ e
  · exact e

theorem State.acqStopped_keeps {r : State} {s : State} {n : Nat} (h : Keeps r s) : Keeps r (State.acqStopped s n) := by
  unfold State.acqStopped
  try dsimp only
  repeat' ((with_reducible refine Keeps.upd ?_ rfl); first | with_reducible assumption | with_reducible apply State.setCtx_keeps | with_reducible apply State.release_keeps | with_reducible apply State.finishAll_keeps | with_reducible apply Keeps.ite | with_reducible apply Keeps.foldl)

theorem State.recordEnd_keeps {r : State} {s : State} {n reason : Nat} {mode : CtxMode} (h : Keeps r s) : Keeps r
    (State.recordEnd s n reason mode) := by
  unfold State.recordEnd
  try dsimp only
  repeat' (with_reducible first
        | assumption | apply State.recordEvents_keeps | apply State.undeclare_keeps | apply State.setCtx_keeps)

theorem State.finishArm_keeps {r : State} {s : State} {n tick : Nat} (h : Keeps r s) : Keeps r (State.finishArm s n
    tick) := by
  unfold State.finishArm
  try dsimp only
  repeat' (with_reducible first
        | assumption | apply State.finishAll_keeps)

theorem State.contiguousArm_keeps {r : State} {s : State} {n : Nat} (h : Keeps r s) : Keeps r (State.contiguousArm s
    n) := by
  unfold State.contiguousArm
  try dsimp only
  repeat' (first
      | (with_reducible first
        | assumption | apply State.setCtx_keeps | apply State.finishArm_keeps)
      | split)

theorem State.acqDrained_keeps {r : State} {s : State} {n : Nat} (h : Keeps r s) : Keeps r (State.acqDrained s n) := by
  unfold State.acqDrained
  try dsimp only
  repeat' (with_reducible first
        | assumption | apply State.recordEnd_keeps | apply State.acqStopped_keeps | apply Keeps.ite)

theorem State.flowAccepted_keeps {r : State} {s : State} {f : Nat} (h : Keeps r s) : Keeps r (State.flowAccepted s
    f) := by
  unfold State.flowAccepted
  try dsimp only
  repeat' (with_reducible first
        | assumption | apply State.acqDrained_keeps | apply Keeps.foldl)

theorem State.acqTake_keeps {r : State} {s : State} {n : Nat} {words : KMap Nat} (h : Keeps r s) : Keeps r
    (State.acqTake s n words) := by
  unfold State.acqTake
  try dsimp only
  repeat' (with_reducible first
        | assumption | apply State.setCtx_keeps | apply Keeps.ite)

theorem State.acqStartRecord_keeps {r : State} {s : State} {n : Nat} (h : Keeps r s) : Keeps r (State.acqStartRecord
    s n) := by
  unfold State.acqStartRecord
  try dsimp only
  repeat' (with_reducible first
        | assumption | apply State.setCtx_keeps)

theorem State.setPe_keeps {r : State} {s : State} {n : Nat} {d : PeDev} (h : Keeps r s) : Keeps r (State.setPe s n
    d) := by
  unfold State.setPe
  try dsimp only
  repeat' ((with_reducible refine Keeps.upd ?_ rfl); first | with_reducible assumption | with_reducible apply Keeps.ite | with_reducible apply Keeps.foldl)

theorem State.peChanged_keeps {r s old : State} {ns : List Nat} (h : Keeps r s) : Keeps r (s.peChanged old ns) :=
  Keeps.foldl (fun _ _ k => Keeps.ite k (State.setPe_keeps k)) h

theorem State.peMode_keeps {r : State} {s : State} {n : Nat} {m : PeMode} (h : Keeps r s) : Keeps r (State.peMode s
    n m) := by
  unfold State.peMode
  try dsimp only
  repeat' (with_reducible first
        | assumption | apply State.setPe_keeps | apply State.peChanged_keeps)

theorem State.emitFrame_keeps {r : State} {s : State} {lane : Nat} {frame : List Byte} (h : Keeps r s) : Keeps r
    (State.emitFrame s lane frame) := by
  unfold State.emitFrame
  try dsimp only
  repeat' (with_reducible first
        | assumption | apply State.emit_keeps)

theorem State.peSend_keeps {r : State} {s : State} {n type reliable fseq : Nat} {payload : List Byte} (h : Keeps r
    s) : Keeps r (State.peSend s n type reliable fseq payload) := by
  unfold State.peSend
  try dsimp only
  repeat' (with_reducible first
        | assumption | apply State.emitFrame_keeps | apply Keeps.ite)

theorem State.peSendU_keeps {r : State} {s : State} {n type : Nat} {payload : List Byte} (h : Keeps r s) : Keeps r
    (State.peSendU s n type payload) := by
  unfold State.peSendU
  try dsimp only
  repeat' (with_reducible first
        | assumption | apply State.peSend_keeps)

theorem sendWaiting_keeps {r : State} {k : Nat} {s : State} {n : Nat} (h : Keeps r s) : Keeps r (sendWaiting k s n)
    := by
  induction k generalizing s with
  | zero => exact h
  | succ k ih =>
    unfold sendWaiting
    dsimp only
    split
    · exact h
    · split
      · exact ih (State.peSend_keeps (State.setPe_keeps h))
      · exact h
      · exact ih (State.peSend_keeps (State.setPe_keeps h))

theorem State.peSendR_keeps {r s : State} {n type : Nat} {payload : List Byte} (h : Keeps r s) :
    Keeps r (s.peSendR n type payload) :=
  Keeps.ite (sendWaiting_keeps (State.setPe_keeps h)) h

theorem State.declare_keeps {r s t : State} {ds : List Decl} (h : Keeps r s) (e : s.declare ds = .ok t) : Keeps r t
    := by
  unfold State.declare at e
  dsimp only at e
  split at e
  · cases e
    exact Keeps.upd h rfl
  · cases e

theorem State.peSendS_keeps {r : State} {s : State} {n type : Nat} {rest : List Byte} (h : Keeps r s) : Keeps r
    (State.peSendS s n type rest) := by
  unfold State.peSendS
  try dsimp only
  repeat' (with_reducible first
        | assumption | apply State.setPe_keeps | apply State.peSend_keeps | apply State.emitFrame_keeps
        | apply Keeps.ite)

theorem State.vcZero_keeps {r : State} {s : State} (h : Keeps r s) : Keeps r (State.vcZero s) := by
  unfold State.vcZero
  try dsimp only
  repeat' (first
      | (with_reducible first
        | assumption | apply State.setPe_keeps | apply State.peSendR_keeps | apply Keeps.ite | apply Keeps.foldl)
      | (intro _ _ _))

theorem State.peResend_keeps {r : State} {s : State} {n : Nat} (h : Keeps r s) : Keeps r (State.peResend s n) := by
  unfold State.peResend
  try dsimp only
  repeat' (with_reducible first
        | assumption | apply sendWaiting_keeps | apply State.setPe_keeps)

theorem State.peInit_keeps {r : State} {s : State} {n : Nat} {body : List Byte} (h : Keeps r s) : Keeps r
    (State.peInit s n body) := by
  unfold State.peInit
  try dsimp only
  repeat' (with_reducible first
        | assumption | apply sendWaiting_keeps | apply State.setPe_keeps)

theorem State.emitBulk_keeps {r : State} {s : State} {n c : Nat} {bytes : List Byte} (h : Keeps r s) : Keeps r
    (State.emitBulk s n c bytes) := by
  unfold State.emitBulk
  try dsimp only
  repeat' (first
      | (with_reducible first
        | assumption | apply State.emit_keeps | apply Keeps.foldl)
      | (intro _ _ _))

theorem State.bulkSend_keeps {r : State} {s : State} {n c : Nat} {bytes : List Byte} (h : Keeps r s) : Keeps r
    (State.bulkSend s n c bytes) := by
  unfold State.bulkSend
  try dsimp only
  repeat' (with_reducible first
        | assumption | apply State.setPe_keeps | apply State.emitBulk_keeps | apply Keeps.ite)

theorem State.bulkOpen_keeps {r : State} {s : State} {n site seg base ring start : Nat} {write : Bool} {bytes : List
    Byte} (h : Keeps r s) : Keeps r (State.bulkOpen s n site seg base ring start write bytes) := by
  unfold State.bulkOpen
  try dsimp only
  repeat' (with_reducible first
        | assumption | apply State.setPe_keeps | apply State.peSendR_keeps | apply State.bulkSend_keeps
        | apply Keeps.ite)

theorem State.bulkRewind_keeps {r : State} {s : State} {n c : Nat} (h : Keeps r s) : Keeps r (State.bulkRewind s n
    c) := by
  unfold State.bulkRewind
  try dsimp only
  repeat' (with_reducible first
        | assumption | apply State.setPe_keeps | apply State.peSendR_keeps | apply State.emitBulk_keeps)

theorem State.setGen_keeps {r : State} {s : State} {g : Nat} {x : ClockGen} (h : Keeps r s) : Keeps r (State.setGen
    s g x) := by
  unfold State.setGen
  try dsimp only
  repeat' ((with_reducible refine Keeps.upd ?_ rfl); first | with_reducible assumption | with_reducible apply Keeps.ite | with_reducible apply Keeps.foldl)

theorem State.evLock_keeps {r : State} {s : State} {source st : Nat} (h : Keeps r s) : Keeps r (State.evLock s
    source st) := by
  unfold State.evLock
  try dsimp only
  repeat' (with_reducible first
        | assumption | apply State.event_keeps)

theorem State.setSynth_keeps {r : State} {s : State} {g : Nat} {x : ClockGen} {st : SynthState} (h : Keeps r s) :
    Keeps r (State.setSynth s g x st) := by
  unfold State.setSynth
  try dsimp only
  repeat' (with_reducible first
        | assumption | apply State.setGen_keeps | apply State.evLock_keeps | apply Keeps.ite)

theorem State.holdWords_keeps {r : State} {s : State} (h : Keeps r s) : Keeps r (State.holdWords s) := by
  unfold State.holdWords
  try dsimp only
  repeat' ((with_reducible refine Keeps.upd ?_ rfl); first | with_reducible assumption | with_reducible apply State.drawFree_keeps | with_reducible apply Keeps.ite | with_reducible apply Keeps.foldl)

theorem State.enterHoldover_keeps {r : State} {s : State} (h : Keeps r s) : Keeps r (State.enterHoldover s) := by
  unfold State.enterHoldover
  try dsimp only
  repeat' ((with_reducible refine Keeps.upd ?_ rfl); first | with_reducible assumption | with_reducible apply State.holdWords_keeps | with_reducible apply Keeps.ite | with_reducible apply Keeps.foldl)

theorem State.loopUpdate_keeps {r : State} {s : State} {cause : Nat} (h : Keeps r s) : Keeps r (State.loopUpdate s
    cause) := by
  unfold State.loopUpdate
  try dsimp only
  repeat' (first
      | ((with_reducible refine Keeps.upd ?_ rfl); first | with_reducible assumption | with_reducible apply State.holdWords_keeps | with_reducible apply State.evLock_keeps | with_reducible apply State.enterHoldover_keeps | with_reducible apply State.event_keeps | with_reducible apply Keeps.ite | with_reducible apply Keeps.foldl)
      | split)

theorem State.setSample_keeps {r : State} {s : State} {unit : Nat} {st : SynthState} (h : Keeps r s) : Keeps r
    (State.setSample s unit st) := by
  unfold State.setSample
  try dsimp only
  repeat' ((with_reducible refine Keeps.upd ?_ rfl); first | with_reducible assumption | with_reducible apply State.evLock_keeps | with_reducible apply Keeps.ite | with_reducible apply Keeps.foldl)

theorem State.coastAll_keeps {r : State} {s : State} (h : Keeps r s) : Keeps r (State.coastAll s) := by
  unfold State.coastAll
  try dsimp only
  repeat' (first
      | (with_reducible first
        | assumption | apply State.setSample_keeps | apply State.setSynth_keeps | apply Keeps.ite
        | apply Keeps.foldl)
      | (intro _ _ _))

theorem State.oscFail_keeps {r : State} {s : State} {osc : Nat} {inj : Bool} (h : Keeps r s) : Keeps r
    (State.oscFail s osc inj) := by
  unfold State.oscFail
  try dsimp only
  repeat' ((with_reducible refine Keeps.upd ?_ rfl); first | with_reducible assumption | with_reducible apply State.enterHoldover_keeps | with_reducible apply State.coastAll_keeps | with_reducible apply State.faultUnmasked_keeps | with_reducible apply State.event_keeps | with_reducible apply State.faultMasked_keeps | with_reducible apply Keeps.ite | with_reducible apply Keeps.foldl)

theorem State.settleOsc_keeps {r : State} {s : State} {farther : Nat} (h : Keeps r s) : Keeps r (State.settleOsc s
    farther) := by
  unfold State.settleOsc
  try dsimp only
  repeat' ((with_reducible refine Keeps.upd ?_ rfl); first | with_reducible assumption | with_reducible apply State.settleFault_keeps | with_reducible apply State.oscFail_keeps | with_reducible apply Keeps.ite | with_reducible apply Keeps.foldl)

theorem State.raiseReady_keeps {r : State} {s : State} {b : Nat} (h : Keeps r s) : Keeps r (State.raiseReady s b) := by
  unfold State.raiseReady
  try dsimp only
  repeat' (with_reducible first
        | assumption | apply State.setReady_keeps | apply State.event_keeps | apply Keeps.ite)

theorem State.ppsEdge_keeps {r : State} {s : State} {stamp : Stamp} {delay : Int} (h : Keeps r s) : Keeps r
    (State.ppsEdge s stamp delay) := by
  unfold State.ppsEdge
  try dsimp only
  repeat' (first
      | ((with_reducible refine Keeps.upd ?_ rfl); first | with_reducible assumption | with_reducible apply State.loopUpdate_keeps | with_reducible apply Keeps.ite | with_reducible apply Keeps.foldl)
      | split)

theorem State.finishGen_keeps {r : State} {s : State} {g : Nat} (h : Keeps r s) : Keeps r (State.finishGen s g) := by
  unfold State.finishGen
  try dsimp only
  repeat' (with_reducible first
        | assumption | apply State.finishAll_keeps)

theorem State.sampleFail_keeps {r : State} {s : State} {unit : Nat} {lostLock inj : Bool} (h : Keeps r s) : Keeps r
    (State.sampleFail s unit lostLock inj) := by
  unfold State.sampleFail
  try dsimp only
  repeat' ((with_reducible refine Keeps.upd ?_ rfl); first | with_reducible assumption | with_reducible apply State.setSample_keeps | with_reducible apply State.faultUnmasked_keeps | with_reducible apply State.event_keeps | with_reducible apply State.faultMasked_keeps | with_reducible apply Keeps.ite | with_reducible apply Keeps.foldl)

theorem State.passToIdle_keeps {r : State} {s : State} {g f : Nat} (h : Keeps r s) : Keeps r (State.passToIdle s g
    f) := by
  unfold State.passToIdle
  try dsimp only
  repeat' (with_reducible first
        | assumption | apply State.setSynth_keeps)

theorem State.beginRamp_keeps {r : State} {s : State} {g : Nat} (h : Keeps r s) : Keeps r (State.beginRamp s g) := by
  unfold State.beginRamp
  try dsimp only
  repeat' (with_reducible first
        | assumption | apply State.setGen_keeps | apply State.passToIdle_keeps | apply State.finishAll_keeps)

theorem State.endRamp_keeps {r : State} {s : State} {g e : Nat} (h : Keeps r s) : Keeps r (State.endRamp s g e) := by
  unfold State.endRamp
  try dsimp only
  repeat' (with_reducible first
        | assumption | apply State.setGen_keeps | apply State.event_keeps)

theorem State.rampDue_keeps {r : State} {s : State} {g : Nat} (h : Keeps r s) : Keeps r (State.rampDue s g) := by
  unfold State.rampDue
  try dsimp only
  repeat' (first
      | (with_reducible first
        | assumption | apply State.endRamp_keeps)
      | split)

theorem State.bindTime_keeps {r : State} {s : State} {st : Stamp} {S : Nat} {edge : Bool} (h : Keeps r s) : Keeps r
    (State.bindTime s st S edge) := by
  unfold State.bindTime
  try dsimp only
  repeat' ((with_reducible refine Keeps.upd ?_ rfl); first | with_reducible assumption | with_reducible apply State.loopUpdate_keeps | with_reducible apply Keeps.ite | with_reducible apply Keeps.foldl)

theorem State.muteGen_keeps {r : State} {s : State} {g : Nat} (h : Keeps r s) : Keeps r (State.muteGen s g) := by
  unfold State.muteGen
  try dsimp only
  repeat' (with_reducible first
        | assumption | apply State.setSynth_keeps)

theorem State.setSite_keeps {r : State} {s : State} {n : Nat} {x : Site} (h : Keeps r s) : Keeps r (State.setSite s
    n x) := by
  unfold State.setSite
  try dsimp only
  repeat' ((with_reducible refine Keeps.upd ?_ rfl); first | with_reducible assumption | with_reducible apply Keeps.ite | with_reducible apply Keeps.foldl)

theorem State.setSeg_keeps {r : State} {s : State} {n : Nat} {g : Segment} (h : Keeps r s) : Keeps r (State.setSeg s
    n g) := by
  unfold State.setSeg
  try dsimp only
  repeat' ((with_reducible refine Keeps.upd ?_ rfl); first | with_reducible assumption | with_reducible apply Keeps.ite | with_reducible apply Keeps.foldl)

theorem State.siteShadows_keeps {r : State} {s : State} {n : Nat} (h : Keeps r s) : Keeps r (State.siteShadows s n)
    := by
  unfold State.siteShadows
  try dsimp only
  repeat' (with_reducible first
        | assumption | apply State.setShadow_keeps)

theorem State.sendPark_keeps {r : State} {s : State} {n cycle seg : Nat} (h : Keeps r s) : Keeps r (State.sendPark s
    n cycle seg) := by
  unfold State.sendPark
  try dsimp only
  repeat' (first
      | (with_reducible first
        | assumption | apply State.peSendS_keeps | apply Keeps.foldl)
      | (intro _ _ _))

theorem State.refillChannel_keeps {r : State} {s : State} {d c index : Nat} (h : Keeps r s) : Keeps r
    (State.refillChannel s d c index) := by
  unfold State.refillChannel
  try dsimp only
  repeat' (with_reducible first
        | assumption | apply State.bulkSend_keeps)

theorem State.sendNext_keeps {r : State} {s : State} {n t cycle : Nat} {start : Bool} (h : Keeps r s) : Keeps r
    (State.sendNext s n t cycle start) := by
  unfold State.sendNext
  try dsimp only
  repeat' (first
      | (with_reducible first
        | assumption | apply State.bulkOpen_keeps | apply State.refillChannel_keeps | apply State.peSendS_keeps
        | apply Keeps.ite | apply Keeps.foldl)
      | (intro _ _ _))

theorem State.endStream_keeps {r : State} {s : State} {n : Nat} {place : Option Nat} (h : Keeps r s) : Keeps r
    (State.endStream s n place) := by
  unfold State.endStream
  try dsimp only
  repeat' (first
      | (with_reducible first
        | assumption | apply State.setPe_keeps | apply Keeps.foldl)
      | (intro _ _ _))

theorem State.finishPatStops_keeps {r : State} {s : State} (h : Keeps r s) : Keeps r (State.finishPatStops s) := by
  unfold State.finishPatStops
  try dsimp only
  repeat' (first
      | (with_reducible first
        | assumption | apply State.release_keeps | apply State.finishAll_keeps | apply Keeps.foldl)
      | (intro _ _ _))

theorem State.siteDone_keeps {r : State} {s : State} {n : Nat} {m : SiteMode} (h : Keeps r s) : Keeps r
    (State.siteDone s n m) := by
  unfold State.siteDone
  try dsimp only
  repeat' (with_reducible first
        | assumption | apply State.setSite_keeps | apply State.undeclare_keeps | apply State.eventAt_keeps
        | apply State.finishPatStops_keeps)

theorem State.siteSettle_keeps {r : State} {s : State} {n : Nat} (h : Keeps r s) : Keeps r (State.siteSettle s n) := by
  unfold State.siteSettle
  try dsimp only
  repeat' (first
      | (with_reducible first
        | assumption | apply State.siteDone_keeps)
      | split)

theorem State.siteEnds_keeps {r : State} {s : State} {n vectors : Nat} {st : Stamp} {m : SiteMode} (h : Keeps r s) :
    Keeps r (State.siteEnds s n vectors st m) := by
  unfold State.siteEnds
  try dsimp only
  repeat' (with_reducible first
        | assumption | apply State.endStream_keeps | apply State.setSite_keeps | apply State.siteSettle_keeps)

theorem State.siteStall_keeps {r : State} {s : State} {n index device cause : Nat} (h : Keeps r s) : Keeps r
    (State.siteStall s n index device cause) := by
  unfold State.siteStall
  try dsimp only
  repeat' (with_reducible first
        | assumption | apply State.event_keeps | apply State.siteEnds_keeps)

theorem State.settleMatches_keeps {r : State} {s : State} {n place : Nat} (h : Keeps r s) : Keeps r
    (State.settleMatches s n place) := by
  unfold State.settleMatches
  try dsimp only
  repeat' (with_reducible first
        | assumption | apply State.setSite_keeps)

theorem State.siteAsk_keeps {r : State} {s : State} {n cause : Nat} {target : Option Nat} {v : Nat} (h : Keeps r s)
    : Keeps r (State.siteAsk s n cause target v) := by
  unfold State.siteAsk
  try dsimp only
  repeat' (with_reducible first
        | assumption | apply State.settleMatches_keeps | apply State.setSite_keeps | apply Keeps.ite)

theorem State.parkLater_keeps {r : State} {s : State} {n : Nat} {m : SiteMode} {index : Nat} (h : Keeps r s) : Keeps
    r (State.parkLater s n m index) := by
  unfold State.parkLater
  try dsimp only
  repeat' (with_reducible first
        | assumption | apply State.setSite_keeps | apply State.sendPark_keeps | apply Keeps.ite)

theorem State.parkSoon_keeps {r : State} {s : State} {n : Nat} {m : SiteMode} (h : Keeps r s) : Keeps r
    (State.parkSoon s n m) := by
  unfold State.parkSoon
  try dsimp only
  repeat' (with_reducible first
        | assumption | apply State.parkLater_keeps | apply State.drawFree_keeps | apply Keeps.ite)

theorem State.patTake_keeps {r : State} {s : State} {n index : Nat} {words : KMap Nat} (h : Keeps r s) : Keeps r
    (State.patTake s n index words) := by
  unfold State.patTake
  try dsimp only
  repeat' (with_reducible first
        | assumption | apply State.setSite_keeps | apply State.siteAsk_keeps | apply Keeps.ite)

theorem State.writeSlices_keeps {r : State} {s : State} {n first count : Nat} (h : Keeps r s) : Keeps r
    (State.writeSlices s n first count) := by
  unfold State.writeSlices
  try dsimp only
  repeat' (first
      | (with_reducible first
        | assumption | apply State.bulkOpen_keeps | apply Keeps.foldl)
      | (intro _ _ _))

theorem State.finishWrites_keeps {r : State} {s : State} (h : Keeps r s) : Keeps r (State.finishWrites s) := by
  unfold State.finishWrites
  try dsimp only
  repeat' (first
      | (with_reducible first
        | assumption | apply State.setSeg_keeps | apply State.finish_keeps | apply Keeps.ite | apply Keeps.foldl)
      | (intro _ _ _))

theorem State.sendSiteMap_keeps {r : State} {s : State} {n : Nat} {pins devs : List Nat} (h : Keeps r s) : Keeps r
    (State.sendSiteMap s n pins devs) := by
  unfold State.sendSiteMap
  try dsimp only
  repeat' (first
      | (with_reducible first
        | assumption | apply State.peSendR_keeps | apply Keeps.foldl)
      | (intro _ _ _))

theorem State.sendTimesets_keeps {r : State} {s : State} {n : Nat} (h : Keeps r s) : Keeps r (State.sendTimesets s
    n) := by
  unfold State.sendTimesets
  try dsimp only
  repeat' (first
      | (with_reducible first
        | assumption | apply State.peSendR_keeps | apply Keeps.foldl)
      | (intro _ _ _))

theorem State.sendStart_keeps {r : State} {s : State} {n : Nat} (h : Keeps r s) : Keeps r (State.sendStart s n) := by
  unfold State.sendStart
  try dsimp only
  repeat' (with_reducible first
        | assumption | apply State.setSite_keeps | apply State.sendPark_keeps | apply State.sendNext_keeps
        | apply Keeps.ite)

theorem State.launchSite_keeps {r : State} {s : State} {n : Nat} (h : Keeps r s) : Keeps r (State.launchSite s n) := by
  unfold State.launchSite
  try dsimp only
  repeat' (with_reducible first
        | assumption | apply State.setSite_keeps | apply State.siteEnds_keeps | apply State.siteStall_keeps
        | apply Keeps.ite)

theorem State.stimShadows_keeps {r : State} {s : State} {o : Nat} (h : Keeps r s) : Keeps r (State.stimShadows s o)
    := by
  unfold State.stimShadows
  try dsimp only
  repeat' (with_reducible first
        | assumption | apply State.setShadow_keeps)

theorem State.finishStimStops_keeps {r : State} {s : State} (h : Keeps r s) : Keeps r (State.finishStimStops s) := by
  unfold State.finishStimStops
  try dsimp only
  repeat' (with_reducible first
        | assumption | apply State.finishAll_keeps)

theorem State.stimOff_keeps {r : State} {s : State} {o : Nat} (h : Keeps r s) : Keeps r (State.stimOff s o) := by
  unfold State.stimOff
  try dsimp only
  repeat' (with_reducible first
        | assumption | apply State.setStim_keeps | apply State.undeclare_keeps | apply State.release_keeps | rfl)

theorem State.stimEnds_keeps {r : State} {s : State} {o n : Nat} {m : StimMode} {cause : Nat} {last : Bool} (h :
    Keeps r s) : Keeps r (State.stimEnds s o n m cause last) := by
  unfold State.stimEnds
  try dsimp only
  repeat' (with_reducible first
        | assumption | apply State.setStim_keeps | apply State.eventAt_keeps | apply State.stimOff_keeps
        | apply State.finishStimStops_keeps | rfl | apply Keeps.ite)

theorem State.stimFill_keeps {r s : State} {o : Nat} (h : Keeps r s) : Keeps r (s.stimFill o) := by
  unfold State.stimFill
  dsimp only
  exact Keeps.ite (State.setStim_keeps_wf h (Memory.foldl_wf fun _ _ => Memory.writeBytes_wf _ _)) h

theorem State.stimPlay_keeps {r : State} {k : Nat} {s : State} {o n : Nat} (h : Keeps r s) : Keeps r (State.stimPlay
    k s o n) := by
  induction k generalizing s with
  | zero => exact h
  | succ k ih =>
    unfold State.stimPlay
    extract_lets x g more
    exact Keeps.ite h (ih (State.stimFill_keeps (State.setStim_keeps (State.emit_keeps h) rfl)))

theorem State.stimShow_keeps {r s : State} {o n : Nat} (h : Keeps r s) : Keeps r (s.stimShow o n) :=
  State.stimPlay_keeps h

theorem State.stimTick_keeps {r : State} {s : State} {o : Nat} (h : Keeps r s) : Keeps r (State.stimTick s o) := by
  unfold State.stimTick
  try dsimp only
  repeat' (with_reducible first
        | assumption | apply State.stimShow_keeps | apply Keeps.ite)

theorem State.stimAsk_keeps {r : State} {s : State} {o cause : Nat} {target : Option Nat} (h : Keeps r s) : Keeps r
    (State.stimAsk s o cause target) := by
  unfold State.stimAsk
  try dsimp only
  repeat' (with_reducible first
        | assumption | apply State.setStim_keeps | rfl | apply Keeps.ite)

theorem State.stimTake_keeps {r : State} {s : State} {o : Nat} {words : KMap Nat} (h : Keeps r s) : Keeps r
    (State.stimTake s o words) := by
  unfold State.stimTake
  try dsimp only
  repeat' (with_reducible first
        | assumption | apply State.setStim_keeps | apply State.stimAsk_keeps | rfl | apply Keeps.ite)

theorem State.finishStimWrites_keeps {r : State} {s : State} (h : Keeps r s) : Keeps r (State.finishStimWrites s) := by
  unfold State.finishStimWrites
  try dsimp only
  repeat' (first
      | (with_reducible first
        | assumption | apply State.setStim_keeps | apply State.finish_keeps | rfl | apply Keeps.foldl)
      | (intro _ _ _))

theorem State.stimLaunch_keeps {r : State} {s : State} {o g : Nat} (h : Keeps r s) : Keeps r (State.stimLaunch s o
    g) := by
  unfold State.stimLaunch
  try dsimp only
  repeat' (with_reducible first
        | assumption | apply State.setStim_keeps | apply State.stimEnds_keeps | apply State.stimFill_keeps
        | apply State.stimShadows_keeps | rfl | apply Keeps.ite)

theorem State.stimQuiesce_keeps {r : State} {s : State} {o : Nat} {immediate : Bool} (h : Keeps r s) : Keeps r
    (State.stimQuiesce s o immediate) := by
  unfold State.stimQuiesce
  try dsimp only
  repeat' (first
      | (with_reducible first
        | assumption | apply State.setStim_keeps | apply State.stimOff_keeps | rfl)
      | split)

theorem State.setCell_keeps {r : State} {s : State} {c : Cellar} (h : Keeps r s) : Keeps r (State.setCell s c) := by
  unfold State.setCell
  try dsimp only
  repeat' ((with_reducible refine Keeps.upd ?_ rfl); first | with_reducible assumption | with_reducible apply Keeps.ite | with_reducible apply Keeps.foldl)

theorem State.setStack_keeps {r : State} {s : State} {k : Nat} {x : Stack} (h : Keeps r s) : Keeps r (State.setStack
    s k x) := by
  unfold State.setStack
  try dsimp only
  repeat' (with_reducible first
        | assumption | apply State.setCell_keeps)

theorem State.countRebuilt_keeps {r : State} {s : State} {a n : Nat} (h : Keeps r s) : Keeps r (State.countRebuilt s
    a n) := by
  unfold State.countRebuilt
  try dsimp only
  repeat' (first
      | (with_reducible first
        | assumption | apply State.setStack_keeps | apply Keeps.foldl)
      | (intro _ _ _))

theorem State.mergeWrite_keeps {r : State} {s : State} {a n : Nat} (h : Keeps r s) : Keeps r (State.mergeWrite s a
    n) := by
  unfold State.mergeWrite
  try dsimp only
  repeat' (first
      | (with_reducible first
        | assumption | apply State.setCell_keeps | apply Keeps.ite | apply Keeps.foldl)
      | (intro _ _ _))

theorem State.serveReq_keeps {r : State} {s : State} {q : CellarReq} (h : Keeps r s) : Keeps r (s.serveReq q) := by
  unfold State.serveReq
  dsimp only
  split
  · exact Keeps.ite (State.mergeWrite_keeps (State.keepWrite_keeps h)) h
  · exact State.emit_keeps (State.countRebuilt_keeps h)

theorem serveReqs_keeps {r : State} {n : Nat} {s : State} (h : Keeps r s) : Keeps r (serveReqs n s) := by
  induction n generalizing s with
  | zero => exact h
  | succ n ih =>
    unfold serveReqs
    split
    · exact h
    · exact ih (State.serveReq_keeps (State.setCell_keeps h))

theorem State.activations_keeps {r : State} {s : State} {l : List (Nat × Nat)} (h : Keeps r s) : Keeps r
    (State.activations s l) := by
  unfold State.activations
  try dsimp only
  repeat' (first
      | (with_reducible first
        | assumption | apply State.setStack_keeps | apply Keeps.foldl)
      | (intro _ _ _))

theorem State.climb_keeps {r : State} {s : State} (h : Keeps r s) : Keeps r (State.climb s) := by
  unfold State.climb
  try dsimp only
  repeat' (with_reducible first
        | assumption | apply State.setCell_keeps)

theorem State.opPointDone_keeps {r : State} {s : State} (h : Keeps r s) : Keeps r (State.opPointDone s) := by
  unfold State.opPointDone
  try dsimp only
  repeat' (first
      | ((with_reducible refine Keeps.upd ?_ rfl); first | with_reducible assumption | with_reducible apply State.setCell_keeps | with_reducible apply State.finishAll_keeps | with_reducible apply Keeps.ite | with_reducible apply Keeps.foldl)
      | split)

theorem State.opPointNext_keeps {r : State} {s : State} {k : Nat} (h : Keeps r s) : Keeps r (State.opPointNext s k)
    := by
  unfold State.opPointNext
  try dsimp only
  repeat' (first
      | (with_reducible first
        | assumption | apply State.setStack_keeps | apply State.opPointDone_keeps)
      | split)

theorem State.loseStack_keeps {r : State} {s : State} {k : Nat} {inj : Bool} (h : Keeps r s) : Keeps r
    (State.loseStack s k inj) := by
  unfold State.loseStack
  try dsimp only
  repeat' (with_reducible first
        | assumption | apply State.setStack_keeps | apply State.faultIn_keeps | apply State.opPointNext_keeps
        | apply Keeps.ite)

theorem State.losePc_keeps {r : State} {s : State} {k pc : Nat} {inj : Bool} (h : Keeps r s) : Keeps r (State.losePc
    s k pc inj) := by
  unfold State.losePc
  try dsimp only
  repeat' (first
      | (with_reducible first
        | assumption | apply State.faultIn_keeps | apply State.loseStack_keeps | apply State.setStack_keeps
        | apply State.faultMasked_keeps)
      | split)

theorem State.setRuns_keeps {r : State} {s : State} {rs : List DeskewRun} (h : Keeps r s) : Keeps r (State.setRuns s
    rs) := by
  unfold State.setRuns
  try dsimp only
  repeat' ((with_reducible refine Keeps.upd ?_ rfl); first | with_reducible assumption | with_reducible apply Keeps.ite | with_reducible apply Keeps.foldl)

theorem State.sendRoute_keeps {root : State} {s : State} {n : Nat} {r : Nat × Nat} (h : Keeps root s) : Keeps root
    (State.sendRoute s n r) := by
  unfold State.sendRoute
  try dsimp only
  repeat' (with_reducible first
        | assumption | apply State.peSendR_keeps)

theorem State.deskewPlay_keeps {root : State} {s : State} {r : DeskewRun} (h : Keeps root s) : Keeps root
    (State.deskewPlay s r) := by
  unfold State.deskewPlay
  try dsimp only
  repeat' (with_reducible first
        | assumption | apply State.drawFree_keeps | apply State.peSendR_keeps | apply State.emitBulk_keeps
        | apply State.peSendS_keeps | apply State.sendRoute_keeps)

theorem State.measureBegin_keeps {r : State} {s : State} {n : Nat} (h : Keeps r s) : Keeps r (State.measureBegin s
    n) := by
  unfold State.measureBegin
  try dsimp only
  repeat' (first
      | (with_reducible first
        | assumption | apply State.setPe_keeps | apply State.setRuns_keeps | apply State.drawFree_keeps
        | apply State.deskewPlay_keeps)
      | split)

theorem State.measureGo_keeps {r : State} {s : State} (h : Keeps r s) : Keeps r (State.measureGo s) := by
  unfold State.measureGo
  try dsimp only
  repeat' (first
      | (with_reducible first
        | assumption | apply State.measureBegin_keeps)
      | split)

theorem State.measureAll_keeps {r : State} {s : State} {rs : List DeskewRun} (h : Keeps r s) : Keeps r
    (State.measureAll s rs) := by
  unfold State.measureAll
  try dsimp only
  repeat' (with_reducible first
        | assumption | apply State.setRuns_keeps | apply State.measureGo_keeps)

theorem State.deskewPin_keeps {r : State} {s : State} {n c : Nat} {a b : Int} (h : Keeps r s) : Keeps r
    (State.deskewPin s n c a b) := by
  unfold State.deskewPin
  try dsimp only
  repeat' (with_reducible first
        | assumption | apply State.setPe_keeps | apply State.calTrim_keeps)

theorem State.measured_keeps {r : State} {s : State} {n lost : Nat} {c : Cmd} (h : Keeps r s) : Keeps r
    (State.measured s n lost c) := by
  unfold State.measured
  try dsimp only
  repeat' (with_reducible first
        | assumption | apply State.markStarted_keeps | apply State.writeResult_keeps | apply State.finish_keeps
        | apply State.evCalDone_keeps | apply Keeps.ite)

theorem State.measureEnds_keeps {root s : State} {r : DeskewRun} {lost : Nat} (h : Keeps root s) :
    Keeps root (s.measureEnds r lost) := by
  have h1 : Keeps root (s.setRuns (dropRun r.device s.cal.runs)) := State.setRuns_keeps h
  have ho (l : List Cmd) : Keeps root ((l.head?.map fun c =>
      (s.setRuns (dropRun r.device s.cal.runs)).measured r.device lost c).getD (s.setRuns (dropRun r.device s.cal.runs))) := by
    cases l with
    | nil => exact h1
    | cons c l => exact State.measured_keeps h1
  unfold State.measureEnds
  refine State.measureGo_keeps ?_
  dsimp only
  split
  · exact Keeps.ite h1 (Keeps.upd (State.setSynth_keeps h1) rfl)
  · exact ho _
  · exact ho _
  · exact Keeps.ite (Keeps.upd h1 rfl) (State.evCalDone_keeps (Keeps.upd h1 rfl))

theorem State.measureLost_keeps {r : State} {s : State} {n : Nat} (h : Keeps r s) : Keeps r (State.measureLost s n)
    := by
  unfold State.measureLost
  try dsimp only
  repeat' (first
      | (with_reducible first
        | assumption | apply State.measureEnds_keeps | apply Keeps.foldl)
      | (intro _ _ _))

theorem State.pinMeasured_keeps {root : State} {s : State} {r : DeskewRun} (h : Keeps root s) : Keeps root
    (State.pinMeasured s r) := by
  unfold State.pinMeasured
  try dsimp only
  repeat' (first
      | (with_reducible first
        | assumption | apply State.deskewPin_keeps | apply State.peSendR_keeps | apply State.sendRoute_keeps
        | apply State.measureEnds_keeps | apply State.setRuns_keeps | apply State.deskewPlay_keeps)
      | split)

theorem State.deskewStamp_keeps {r : State} {s : State} {n time : Nat} (h : Keeps r s) : Keeps r (State.deskewStamp
    s n time) := by
  unfold State.deskewStamp
  try dsimp only
  repeat' (first
      | (with_reducible first
        | assumption | apply State.setRuns_keeps | apply State.sendRoute_keeps | apply State.pinMeasured_keeps)
      | split)

theorem State.setVine_keeps {r : State} {s : State} {v : Vine} (h : Keeps r s) : Keeps r (State.setVine s v) := by
  unfold State.setVine
  try dsimp only
  repeat' ((with_reducible refine Keeps.upd ?_ rfl); first | with_reducible assumption | with_reducible apply Keeps.ite | with_reducible apply Keeps.foldl)

theorem State.finishVine_keeps {r : State} {s : State} {result : Nat} (h : Keeps r s) : Keeps r (State.finishVine s
    result) := by
  unfold State.finishVine
  try dsimp only
  repeat' (with_reducible first
        | assumption | apply State.finishAll_keeps)

theorem State.vineCalEnd_keeps {r : State} {s : State} {c : VineCal} (h : Keeps r s) : Keeps r (State.vineCalEnd s
    c) := by
  unfold State.vineCalEnd
  try dsimp only
  repeat' (with_reducible first
        | assumption | apply State.setVine_keeps | apply State.calTrim_keeps | apply State.loopUpdate_keeps
        | apply State.finishAll_keeps | apply State.vineQueue_keeps | apply Keeps.ite)

theorem State.fireSync_keeps {r : State} {s : State} {n edge : Nat} (h : Keeps r s) : Keeps r (State.fireSync s n
    edge) := by
  unfold State.fireSync
  try dsimp only
  repeat' (first
      | (with_reducible first
        | assumption | apply State.setVine_keeps | apply State.eventAt_keeps | apply State.vineQueue_keeps)
      | split)

theorem State.vineEpoch_keeps {r : State} {s : State} {n : Nat} {arrival : Stamp} (h : Keeps r s) : Keeps r
    (State.vineEpoch s n arrival) := by
  unfold State.vineEpoch
  try dsimp only
  repeat' (with_reducible first
        | assumption | apply State.setVine_keeps | apply State.loopUpdate_keeps | apply State.ppsEdge_keeps
        | apply State.finishVine_keeps | apply Keeps.ite)

theorem State.setTiu_keeps {r : State} {s : State} {n : Nat} {x : TiuChan} (h : Keeps r s) : Keeps r (State.setTiu s
    n x) := by
  unfold State.setTiu
  try dsimp only
  repeat' ((with_reducible refine Keeps.upd ?_ rfl); first | with_reducible assumption | with_reducible apply Keeps.ite | with_reducible apply Keeps.foldl)

theorem State.setTiuGroup_keeps {r : State} {s : State} {g : Nat} {x : TiuGroup} (h : Keeps r s) : Keeps r
    (State.setTiuGroup s g x) := by
  unfold State.setTiuGroup
  try dsimp only
  repeat' ((with_reducible refine Keeps.upd ?_ rfl); first | with_reducible assumption | with_reducible apply Keeps.ite | with_reducible apply Keeps.foldl)

theorem State.tiuMeasure_keeps {r : State} {s : State} {n code : Nat} {a : TiuStamp} (h : Keeps r s) : Keeps r
    (State.tiuMeasure s n code a) := by
  unfold State.tiuMeasure
  try dsimp only
  repeat' (first
      | (with_reducible first
        | assumption | apply State.setTiu_keeps | apply Keeps.foldl)
      | (intro _ _ _))

theorem State.tiuDeliver_keeps {r : State} {s : State} {n code : Nat} {a : TiuStamp} (h : Keeps r s) : Keeps r
    (State.tiuDeliver s n code a) := by
  unfold State.tiuDeliver
  try dsimp only
  repeat' (first
      | (with_reducible first
        | assumption | apply State.drawFree_keeps | apply State.setTiu_keeps | apply State.offerElement_keeps
        | apply State.handToFlow_keeps)
      | split)

theorem State.tiuEdge_keeps {r : State} {s : State} {n code time : Nat} (h : Keeps r s) : Keeps r (State.tiuEdge s n
    code time) := by
  unfold State.tiuEdge
  try dsimp only
  repeat' (with_reducible first
        | assumption | apply State.setTiu_keeps | apply State.tiuMeasure_keeps | apply State.tiuDeliver_keeps
        | apply State.offerTrig_keeps | apply Keeps.ite)

theorem State.tiuSuspect_keeps {r : State} {s : State} {n : Nat} (h : Keeps r s) : Keeps r (State.tiuSuspect s n) := by
  unfold State.tiuSuspect
  try dsimp only
  repeat' (with_reducible first
        | assumption | apply State.setTiuGroup_keeps | apply Keeps.ite)

theorem State.heldEdge_keeps {r : State} {s : State} {n time : Nat} (h : Keeps r s) : Keeps r (State.heldEdge s n
    time) := by
  unfold State.heldEdge
  try dsimp only
  repeat' (with_reducible first
        | assumption | apply State.setTiu_keeps | apply State.deskewStamp_keeps | apply Keeps.ite)

theorem State.tiuRest_keeps {r : State} {s : State} {n : Nat} (h : Keeps r s) : Keeps r (State.tiuRest s n) := by
  unfold State.tiuRest
  try dsimp only
  repeat' (first
      | (with_reducible first
        | assumption | apply State.setTiu_keeps | apply State.undeclare_keeps | apply State.restDone_keeps
        | apply State.finish_keeps | apply State.markStarted_keeps | apply Keeps.ite | apply Keeps.foldl)
      | (intro _ _ _))

theorem State.tiuQuiesce_keeps {r : State} {s : State} {n : Nat} (h : Keeps r s) : Keeps r (State.tiuQuiesce s n) := by
  unfold State.tiuQuiesce
  try dsimp only
  repeat' (with_reducible first
        | assumption | apply State.setTiu_keeps | apply State.tiuRest_keeps | apply Keeps.ite)

theorem State.tiuFail_keeps {r : State} {s : State} {group unit : Nat} {inj : Bool} (h : Keeps r s) : Keeps r
    (State.tiuFail s group unit inj) := by
  unfold State.tiuFail
  try dsimp only
  repeat' (first
      | (with_reducible first
        | assumption | apply State.vineCalEnd_keeps | apply State.setTiuGroup_keeps | apply State.faultIn_keeps)
      | split)

theorem State.setComp_keeps {r : State} {s : State} {k : Nat} {c : Comparator} (h : Keeps r s) : Keeps r
    (State.setComp s k c) := by
  unfold State.setComp
  try dsimp only
  repeat' ((with_reducible refine Keeps.upd ?_ rfl); first | with_reducible assumption | with_reducible apply Keeps.ite | with_reducible apply Keeps.foldl)

theorem State.setMon_keeps {r : State} {s : State} {m : Mon} (h : Keeps r s) : Keeps r (State.setMon s m) := by
  unfold State.setMon
  try dsimp only
  repeat' ((with_reducible refine Keeps.upd ?_ rfl); first | with_reducible assumption | with_reducible apply Keeps.ite | with_reducible apply Keeps.foldl)

theorem State.compEvent_keeps {r : State} {s : State} {k : Nat} {st : Stamp} {count : Nat} {first blanked : Bool} (h
    : Keeps r s) : Keeps r (State.compEvent s k st count first blanked) := by
  unfold State.compEvent
  try dsimp only
  repeat' (with_reducible first
        | assumption | apply State.setComp_keeps | apply State.eventAt_keeps | apply Keeps.ite)

theorem State.forward_keeps {r : State} {s : State} {k : Nat} {st : Stamp} {first blanked : Bool} (h : Keeps r s) :
    Keeps r (State.forward s k st first blanked) := by
  unfold State.forward
  try dsimp only
  repeat' (first
      | (with_reducible first
        | assumption | apply State.setComp_keeps | apply State.tiuEdge_keeps | apply State.offerTrig_keeps
        | apply State.compEvent_keeps | apply State.setMon_keeps | apply Keeps.ite | apply Keeps.foldl)
      | (intro _ _ _))

theorem State.compChange_keeps {r : State} {s : State} {k : Nat} {st : Stamp} {first : Bool} (h : Keeps r s) : Keeps
    r (State.compChange s k st first) := by
  unfold State.compChange
  try dsimp only
  repeat' (with_reducible first
        | assumption | apply State.setComp_keeps | apply State.forward_keeps | apply Keeps.ite)

theorem State.compStamped_keeps {r s : State} {k : Nat} {st : Stamp} (h : Keeps r s) : Keeps r (s.compStamped k st).2 :=
  State.setComp_keeps h

theorem State.evaluate_keeps {r s : State} {k : Nat} {input : Int} {tick : Nat} (h : Keeps r s) :
    Keeps r (s.evaluate k input tick) := by
  unfold State.evaluate
  extract_lets p st s1 c pos y
  have h1 : Keeps r s1 := State.compStamped_keeps h
  have h2 (z : Comparator) : Keeps r (s1.setComp k z) := State.setComp_keeps h1
  repeat' split
  all_goals first
    | exact h
    | exact h1
    | exact h2 _
    | exact State.compChange_keeps (h2 _)
    | exact State.compEvent_keeps (h2 _)

theorem State.monResult_keeps {r : State} {s : State} (h : Keeps r s) : Keeps r (State.monResult s) := by
  unfold State.monResult
  try dsimp only
  repeat' (first
      | (with_reducible first
        | assumption | apply State.setMon_keeps | apply State.handToFlow_keeps)
      | split)

theorem State.monPassEnd_keeps {r : State} {s : State} (h : Keeps r s) : Keeps r (State.monPassEnd s) := by
  unfold State.monPassEnd
  try dsimp only
  repeat' (with_reducible first
        | assumption | apply State.setMon_keeps | apply State.eventAt_keeps | apply Keeps.ite)

theorem State.monNextEntry_keeps {r : State} {s : State} (h : Keeps r s) : Keeps r (State.monNextEntry s) := by
  unfold State.monNextEntry
  try dsimp only
  repeat' (with_reducible first
        | assumption | apply State.monPassEnd_keeps | apply State.setMon_keeps | apply Keeps.ite)

theorem State.monRest_keeps {r : State} {s : State} (h : Keeps r s) : Keeps r (State.monRest s) := by
  unfold State.monRest
  try dsimp only
  repeat' (with_reducible first
        | assumption | apply State.setMon_keeps | apply State.undeclare_keeps | apply State.restDone_keeps
        | apply State.finishAll_keeps)

theorem State.setPort_keeps {r : State} {s : State} {p : Nat} {x : Port} (h : Keeps r s) : Keeps r (State.setPort s
    p x) := by
  unfold State.setPort
  try dsimp only
  repeat' ((with_reducible refine Keeps.upd ?_ rfl); first | with_reducible assumption | with_reducible apply Keeps.ite | with_reducible apply Keeps.foldl)

theorem State.sendPacket_keeps {r : State} {s : State} {p : Nat} {b : Binding} {k : Packet} {replay : Bool} (h :
    Keeps r s) : Keeps r (State.sendPacket s p b k replay) := by
  unfold State.sendPacket
  try dsimp only
  repeat' (with_reducible first
        | assumption | apply State.setPort_keeps | apply State.emit_keeps)

theorem State.writeConfig_keeps {r : State} {s : State} {fn off v : Nat} (h : Keeps r s) : Keeps r
    (State.writeConfig s fn off v) := by
  unfold State.writeConfig
  try dsimp only
  repeat' (first
      | (with_reducible first
        | assumption | apply State.setFunc_keeps | rfl)
      | split)

theorem State.setFlow_keeps {r : State} {s : State} {f : Nat} {x : Flow} (h : Keeps r s) : Keeps r (State.setFlow s
    f x) := by
  unfold State.setFlow
  try dsimp only
  repeat' ((with_reducible refine Keeps.upd ?_ rfl); first | with_reducible assumption | with_reducible apply Keeps.ite | with_reducible apply Keeps.foldl)

theorem State.setRegion_keeps {r s : State} {b : Nat} {x : Region} (h : Keeps r s) : Keeps r (s.setRegion b x) :=
  Keeps.upd h rfl

theorem State.flowWrite_keeps {r s : State} {x : Flow} {cellar : Bool} {a : Nat} {bs : List Byte} (h : Keeps r s) :
    Keeps r (s.flowWrite x cellar a bs) := by
  unfold State.flowWrite
  split
  · exact Keeps.foldl (fun _ _ k => State.emit_keeps k) h
  · exact Keeps.ite (State.keepWrite_keeps h) h

theorem State.descrDone_keeps {r : State} {s : State} {f : Nat} {d : Descr} {st : Status} {wb : List Byte} (h :
    Keeps r s) : Keeps r (State.descrDone s f d st wb) := by
  unfold State.descrDone
  try dsimp only
  repeat' (with_reducible first
        | assumption | apply State.flowWrite_keeps | apply State.setFlow_keeps | apply State.event_keeps
        | apply Keeps.ite)

theorem State.flowHalt_keeps {r : State} {s : State} {f cause addr : Nat} (h : Keeps r s) : Keeps r (State.flowHalt
    s f cause addr) := by
  unfold State.flowHalt
  try dsimp only
  repeat' (with_reducible first
        | assumption | apply State.setFlow_keeps | apply State.undeclare_keeps | apply State.event_keeps)

theorem State.flowStart_keeps {r : State} {s : State} {f : Nat} (h : Keeps r s) : Keeps r (State.flowStart s f) := by
  unfold State.flowStart
  try dsimp only
  repeat' (first
      | (with_reducible first
        | assumption | apply State.setFlow_keeps | apply State.flowHalt_keeps)
      | split)

theorem State.sendRest_keeps {r : State} {n f : Nat} {s : State} (h : Keeps r s) : Keeps r (State.sendRest n f s) := by
  induction n generalizing s with
  | zero => exact h
  | succ n ih =>
    unfold State.sendRest
    dsimp only
    split
    · exact h
    · split
      · exact h
      · split
        · exact h
        · exact ih (State.sendPacket_keeps (State.setFlow_keeps h))

theorem State.drainPort_keeps {r s : State} {f : Nat} (h : Keeps r s) : Keeps r (s.drainPort f) := by
  unfold State.drainPort
  split
  · exact State.sendRest_keeps h
  · exact h

theorem State.flowQuiet_keeps {r : State} {s : State} {f : Nat} (h : Keeps r s) : Keeps r (State.flowQuiet s f) := by
  unfold State.flowQuiet
  try dsimp only
  repeat' (first
      | ((with_reducible refine Keeps.upd ?_ rfl); first | with_reducible assumption | with_reducible apply State.drainPort_keeps | with_reducible apply State.event_keeps | with_reducible apply State.undeclare_keeps | with_reducible apply State.setShadowBit_keeps | with_reducible apply State.setFlow_keeps | with_reducible apply State.finishAll_keeps | with_reducible apply State.release_keeps | with_reducible apply State.restDone_keeps | with_reducible apply Keeps.ite | with_reducible apply Keeps.foldl)
      | split)

theorem State.moveEnd_keeps {r : State} {s : State} {f : Nat} {m : Moving} (h : Keeps r s) : Keeps r (State.moveEnd
    s f m) := by
  unfold State.moveEnd
  try dsimp only
  repeat' (first
      | (with_reducible first
        | assumption | apply State.flowWrite_keeps | apply State.setFlow_keeps | apply State.descrDone_keeps
        | apply State.flowHalt_keeps | apply State.flowStart_keeps)
      | split)

theorem State.abortFetched_keeps {r : State} {s : State} {f : Nat} (h : Keeps r s) : Keeps r (State.abortFetched s
    f) := by
  unfold State.abortFetched
  try dsimp only
  repeat' (first
      | (with_reducible first
        | assumption | apply State.descrDone_keeps | apply State.setFlow_keeps | apply Keeps.foldl)
      | (intro _ _ _))

theorem State.flowSettle_keeps {r : State} {s : State} {f : Nat} (h : Keeps r s) : Keeps r (State.flowSettle s f) := by
  unfold State.flowSettle
  try dsimp only
  repeat' (first
      | (with_reducible first
        | assumption | apply State.moveEnd_keeps | apply State.abortFetched_keeps | apply State.flowQuiet_keeps)
      | split)

theorem State.flowQuiesce_keeps {r : State} {s : State} {f reason : Nat} (h : Keeps r s) : Keeps r
    (State.flowQuiesce s f reason) := by
  unfold State.flowQuiesce
  try dsimp only
  repeat' (with_reducible first
        | assumption | apply State.setFlow_keeps | apply State.flowSettle_keeps)

theorem State.readHost_keeps {r : State} {s : State} {x : Flow} {d : Descr} {o n : Nat} (h : Keeps r s) : Keeps r
    (State.readHost s x d o n) := by
  unfold State.readHost
  try dsimp only
  repeat' (first
      | (with_reducible first
        | assumption | apply State.emit_keeps | apply Keeps.ite | apply Keeps.foldl)
      | (intro _ _ _))

theorem State.issueBurst_keeps {r : State} {s : State} {f n : Nat} {slack : Bool} (h : Keeps r s) : Keeps r
    (State.issueBurst s f n slack) := by
  unfold State.issueBurst
  try dsimp only
  repeat' (first
      | (with_reducible first
        | assumption | apply State.setFlow_keeps | apply State.readHost_keeps)
      | split)

theorem State.grantBursts_keeps {r s : State} {base : Nat} {x : Region} (h : Keeps r s) : Keeps r (s.grantBursts
    base x) :=
  Keeps.upd h rfl

theorem State.settleFrees_keeps {r : State} {s : State} (h : Keeps r s) : Keeps r (State.settleFrees s) := by
  unfold State.settleFrees
  try dsimp only
  repeat' (first
      | (intro _ _ _)
      | ((with_reducible refine Keeps.upd ?_ rfl); first | with_reducible assumption | with_reducible apply State.finishAll_keeps | with_reducible apply Keeps.ite | with_reducible apply Keeps.foldl))

theorem State.burstFails_keeps {r : State} {s : State} {f offset : Nat} (h : Keeps r s) : Keeps r (State.burstFails
    s f offset) := by
  unfold State.burstFails
  try dsimp only
  repeat' (first
      | (with_reducible first
        | assumption | apply State.setFlow_keeps | apply State.flowSettle_keeps | apply State.settleFrees_keeps)
      | split)

theorem State.burstDone_keeps {r : State} {s : State} {f offset : Nat} {data : List Byte} (h : Keeps r s) : Keeps r
    (State.burstDone s f offset data) := by
  unfold State.burstDone
  try dsimp only
  repeat' (first
      | with_reducible assumption | exact Memory.writeBytes_wf _ _
      | (with_reducible first
        | apply State.burstFails_keeps | apply State.keepCellar_keeps | apply State.flowWrite_keeps
        | apply State.setFlow_keeps | apply State.flowSettle_keeps | apply State.settleFrees_keeps)
      | split)

theorem State.flowTake_keeps {r : State} {s : State} {f : Nat} {words : KMap Nat} (h : Keeps r s) : Keeps r
    (State.flowTake s f words) := by
  unfold State.flowTake
  try dsimp only
  repeat' (first
      | (with_reducible first
        | assumption | apply State.setFlow_keeps)
      | split)

theorem State.discardFrame_keeps {r : State} {s : State} {p : Nat} (h : Keeps r s) : Keeps r (State.discardFrame s
    p) := by
  unfold State.discardFrame
  try dsimp only
  repeat' (with_reducible first
        | assumption | apply State.setPort_keeps)

theorem State.answerFrame_keeps {r : State} {s : State} {p : Nat} {frame : List Byte} (h : Keeps r s) : Keeps r
    (State.answerFrame s p frame) := by
  unfold State.answerFrame
  try dsimp only
  repeat' (with_reducible first
        | assumption | apply State.setPort_keeps | apply State.emit_keeps)

theorem State.movePortRates_keeps {r : State} {s : State} {p q : Nat} (h : Keeps r s) : Keeps r (State.movePortRates
    s p q) := by
  unfold State.movePortRates
  try dsimp only
  repeat' ((with_reducible refine Keeps.upd ?_ rfl); first | with_reducible assumption | with_reducible apply Keeps.ite | with_reducible apply Keeps.foldl)

theorem State.replay_keeps {r : State} {s : State} {q : Nat} {ks : List Packet} (h : Keeps r s) : Keeps r
    (State.replay s q ks) := by
  unfold State.replay
  try dsimp only
  repeat' (first
      | (with_reducible first
        | assumption | apply State.setFlow_keeps | apply State.sendPacket_keeps | apply Keeps.foldl)
      | (intro _ _ _) | split)

theorem State.portFail_keeps {r : State} {s : State} {p cause : Nat} {inj : Bool} (h : Keeps r s) : Keeps r
    (State.portFail s p cause inj) := by
  unfold State.portFail
  try dsimp only
  repeat' (first
      | (with_reducible first
        | assumption | apply State.setPort_keeps | apply State.setFlow_keeps | apply State.movePortRates_keeps
        | apply State.replay_keeps | apply State.event_keeps | apply State.faultMasked_keeps
        | apply State.faultIn_keeps | apply Keeps.foldl)
      | (intro _ _ _) | split)

theorem State.setDisp_keeps {r : State} {s : State} {d : Disp} (h : Keeps r s) : Keeps r (State.setDisp s d) := by
  unfold State.setDisp
  try dsimp only
  repeat' ((with_reducible refine Keeps.upd ?_ rfl); first | with_reducible assumption | with_reducible apply Keeps.ite | with_reducible apply Keeps.foldl)

theorem State.compose_keeps {r : State} {s : State} (h : Keeps r s) : Keeps r (State.compose s) := by
  unfold State.compose
  try dsimp only
  repeat' (with_reducible first
        | assumption | apply State.setDisp_keeps)

theorem State.dispTake_keeps {r : State} {s : State} {words : KMap Nat} (h : Keeps r s) : Keeps r (State.dispTake s
    words) := by
  unfold State.dispTake
  try dsimp only
  repeat' (with_reducible first
        | assumption | apply State.setDisp_keeps | apply State.event_keeps | apply Keeps.ite)

theorem State.layerFault_keeps {r : State} {s : State} {line cause : Nat} (h : Keeps r s) : Keeps r
    (State.layerFault s line cause) := by
  unfold State.layerFault
  try dsimp only
  repeat' (with_reducible first
        | assumption | apply State.setDisp_keeps | apply State.event_keeps | apply Keeps.ite)

theorem State.latchSettings_keeps {r : State} {s : State} (h : Keeps r s) : Keeps r (State.latchSettings s) := by
  unfold State.latchSettings
  try dsimp only
  repeat' (with_reducible first
        | assumption | apply State.setDisp_keeps)

theorem State.latchOverlay_keeps {r : State} {s : State} (h : Keeps r s) : Keeps r (State.latchOverlay s) := by
  unfold State.latchOverlay
  try dsimp only
  repeat' (with_reducible first
        | assumption | apply State.setDisp_keeps | apply State.layerFault_keeps | apply State.compose_keeps
        | apply Keeps.ite)

theorem State.settingsDone_keeps {r : State} {s : State} (h : Keeps r s) : Keeps r (State.settingsDone s) := by
  unfold State.settingsDone
  try dsimp only
  repeat' (with_reducible first
        | assumption | apply State.finishAll_keeps)

theorem State.dispRest_keeps {r : State} {s : State} (h : Keeps r s) : Keeps r (State.dispRest s) := by
  unfold State.dispRest
  try dsimp only
  repeat' (with_reducible first
        | assumption | apply State.latchSettings_keeps | apply State.settingsDone_keeps
        | apply State.setDisp_keeps | apply State.undeclare_keeps | apply State.release_keeps
        | apply State.finishAll_keeps)

theorem State.scanoutFail_keeps {r : State} {s : State} {copy : Nat} {inj : Bool} (h : Keeps r s) : Keeps r
    (State.scanoutFail s copy inj) := by
  unfold State.scanoutFail
  try dsimp only
  repeat' (with_reducible first
        | assumption | apply State.setDisp_keeps | apply State.faultIn_keeps | apply Keeps.ite)

theorem State.setCore_keeps {r : State} {s : State} {c : Nat} {x : Core} (h : Keeps r s) : Keeps r (State.setCore s
    c x) := by
  unfold State.setCore
  try dsimp only
  repeat' ((with_reducible refine Keeps.upd ?_ rfl); first | with_reducible assumption | with_reducible apply Keeps.ite | with_reducible apply Keeps.foldl)

theorem State.mirror_keeps {r s : State} {x : Core} {old : KMap Byte} (h : Keeps r s) : Keeps r (s.mirror x old) :=
  State.keepCellar_keeps h (Memory.foldl_wf fun _ _ => Memory.writeBytes_wf _ _)

theorem State.coreOff_keeps {r : State} {s : State} {c : Nat} (h : Keeps r s) : Keeps r (State.coreOff s c) := by
  unfold State.coreOff
  try dsimp only
  repeat' (with_reducible first
        | assumption | apply State.undeclare_keeps | apply State.release_keeps)

theorem State.coreFreed_keeps {r : State} {s : State} {c : Nat} (h : Keeps r s) : Keeps r (State.coreFreed s c) := by
  unfold State.coreFreed
  try dsimp only
  repeat' (first
      | (with_reducible first
        | assumption | apply State.setCore_keeps)
      | split)

theorem State.kernelEnd_keeps {r : State} {s : State} {c cause trap : Nat} (h : Keeps r s) : Keeps r
    (State.kernelEnd s c cause trap) := by
  unfold State.kernelEnd
  try dsimp only
  repeat' (with_reducible first
        | assumption | apply State.setCore_keeps | apply State.coreOff_keeps | apply State.event_keeps
        | apply State.finishAll_keeps)

theorem State.coreTrap_keeps {r : State} {s : State} {c kind : Nat} (h : Keeps r s) : Keeps r (State.coreTrap s c
    kind) := by
  unfold State.coreTrap
  try dsimp only
  repeat' (with_reducible first
        | assumption | apply State.setCore_keeps | apply State.kernelEnd_keeps)

theorem State.releaseRecords_keeps {r : State} {s : State} {c : Nat} (h : Keeps r s) : Keeps r (State.releaseRecords
    s c) := by
  unfold State.releaseRecords
  try dsimp only
  repeat' (first
      | (with_reducible first
        | assumption | apply State.offerElement_keeps | apply State.handToFlow_keeps | apply State.setCore_keeps
        | apply Keeps.foldl)
      | (intro _ _ _) | split)

theorem State.coreCommit_keeps {r : State} {s : State} {c : Nat} (h : Keeps r s) : Keeps r (State.coreCommit s c) := by
  unfold State.coreCommit
  try dsimp only
  repeat' (with_reducible first
        | assumption | apply State.releaseRecords_keeps | apply State.mirror_keeps | apply State.setCore_keeps)

theorem State.coreYield_keeps {r : State} {s : State} {c : Nat} (h : Keeps r s) : Keeps r (State.coreYield s c) := by
  unfold State.coreYield
  try dsimp only
  repeat' (with_reducible first
        | assumption | apply State.coreCommit_keeps | apply State.kernelEnd_keeps | apply State.setCore_keeps
        | apply Keeps.ite)

theorem State.coreFail_keeps {r : State} {s : State} {u : Nat} {inj : Bool} (h : Keeps r s) : Keeps r
    (State.coreFail s u inj) := by
  unfold State.coreFail
  try dsimp only
  repeat' (first
      | ((with_reducible refine Keeps.upd ?_ rfl); first | with_reducible assumption | with_reducible apply State.faultIn_keeps | with_reducible apply State.setCore_keeps | with_reducible apply State.drawFree_keeps | with_reducible apply State.faultMasked_keeps | with_reducible apply State.kernelEnd_keeps | with_reducible apply State.faultUnmasked_keeps | with_reducible apply Keeps.ite | with_reducible apply Keeps.foldl)
      | split)

theorem State.coreStart_keeps {r : State} {s : State} {n : Nat} {params : List Byte} {at_ : Nat} (h : Keeps r s) :
    Keeps r (State.coreStart s n params at_) := by
  unfold State.coreStart
  try dsimp only
  repeat' (with_reducible first
        | assumption | apply State.mirror_keeps | apply State.setCore_keeps)

theorem State.setBud_keeps {r : State} {s : State} {b : Budget} (h : Keeps r s) : Keeps r (State.setBud s b) := by
  unfold State.setBud
  try dsimp only
  repeat' ((with_reducible refine Keeps.upd ?_ rfl); first | with_reducible assumption | with_reducible apply Keeps.ite | with_reducible apply Keeps.foldl)

theorem State.enterStage_keeps {r : State} {s : State} {n : Nat} (h : Keeps r s) : Keeps r (State.enterStage s n) := by
  unfold State.enterStage
  try dsimp only
  repeat' (with_reducible first
        | assumption | apply State.setBud_keeps | apply State.event_keeps)

theorem State.setFcw_keeps {r : State} {s : State} {f : Fcw} (h : Keeps r s) : Keeps r (State.setFcw s f) := by
  unfold State.setFcw
  try dsimp only
  repeat' ((with_reducible refine Keeps.upd ?_ rfl); first | with_reducible assumption | with_reducible apply Keeps.ite | with_reducible apply Keeps.foldl)

theorem State.writeShadow_keeps {r : State} {s : State} {off : Nat} {bs : List Byte} (h : Keeps r s) : Keeps r
    (State.writeShadow s off bs) := by
  unfold State.writeShadow
  try dsimp only
  repeat' (with_reducible first
        | assumption | apply State.setShadow_keeps | apply Keeps.ite)

theorem State.strobe_keeps {r : State} {s : State} {g : Nat} (h : Keeps r s) : Keeps r (State.strobe s g) := by
  unfold State.strobe
  try dsimp only
  repeat' (with_reducible first
        | assumption | apply State.setFcw_keeps)

theorem State.takeUnit_keeps {r : State} {s : State} {g u index : Nat} {words : KMap Nat} (h : Keeps r s) : Keeps r
    (State.takeUnit s g u index words) := by
  unfold State.takeUnit
  try dsimp only
  repeat' (with_reducible first
        | assumption | apply State.trigTake_keeps | apply State.ddcTake_keeps | apply State.pressTake_keeps
        | apply State.jobTake_keeps | apply State.patTake_keeps | apply State.stimTake_keeps
        | apply State.dispTake_keeps | apply State.acqTake_keeps | apply State.specTake_keeps
        | apply State.flowTake_keeps | apply Keeps.ite)

theorem State.resyncGroup_keeps {r : State} {s : State} {g : Nat} (h : Keeps r s) : Keeps r (State.resyncGroup s g)
    := by
  unfold State.resyncGroup
  try dsimp only
  repeat' (first
      | (with_reducible first
        | assumption | apply State.setShadow_keeps | apply Keeps.foldl)
      | (intro _ _ _))

theorem State.resetFcw_keeps {r : State} {s : State} (h : Keeps r s) : Keeps r (State.resetFcw s) := by
  unfold State.resetFcw
  try dsimp only
  repeat' (with_reducible first
        | assumption | apply State.resyncGroup_keeps | apply State.setFcw_keeps | apply Keeps.foldl)

theorem Func.setRing_msix (f : Func) (c : Bool) (i : Nat) (x : Ring) : (f.setRing c i x).msixTable = f.msixTable := by
  unfold Func.setRing; split <;> rfl

theorem Func.setRing_chans (f : Func) (c : Bool) (i : Nat) (x : Ring) : (f.setRing c i x).chans = f.chans := by
  unfold Func.setRing; split <;> rfl

theorem State.setRing_keeps {r s : State} {fn : Nat} {c : Bool} {i : Nat} {x : Ring} (h : Keeps r s) :
    Keeps r (s.setFunc fn ((s.func fn).setRing c i x)) :=
  State.setFunc_keeps h (Func.setRing_msix ..) (Func.setRing_chans ..)

theorem State.signalRing_keeps {r s : State} {fn : Nat} {completion : Bool} {i : Nat} (h : Keeps r s) :
    Keeps r (s.signalRing fn completion i) :=
  State.message_keeps (State.setRing_keeps h)

theorem State.consWrite_keeps {r s : State} {fn : Nat} {completion : Bool} {ring value : Nat} (h : Keeps r s) :
    Keeps r (s.consWrite fn completion ring value) := by
  unfold State.consWrite
  dsimp only
  have h2 (x : Ring) (c : Bool) : Keeps r (if c then (s.setFunc fn ((s.func fn).setRing completion ring x)).signalRing fn completion ring
      else s.setFunc fn ((s.func fn).setRing completion ring x)) :=
    Keeps.ite (State.signalRing_keeps (State.setRing_keeps h)) (State.setRing_keeps h)
  exact Keeps.ite (State.flushCompl_keeps (h2 _ _)) (State.flushEr_keeps (h2 _ _))

theorem State.coalWrite_keeps {r s : State} {fn : Nat} {completion : Bool} {i k : Nat} {bs : List Byte} (h : Keeps r
    s) :
    Keeps r (s.coalWrite fn completion i k bs) :=
  Keeps.ite (State.signalRing_keeps (State.setRing_keeps h)) (State.setRing_keeps h)

theorem State.msixRelease_keeps {r : State} {s : State} {fn : Nat} (h : Keeps r s) : Keeps r (State.msixRelease s
    fn) := by
  unfold State.msixRelease
  try dsimp only
  repeat' (first
      | (with_reducible first
        | assumption | apply State.emit_keeps | apply State.setFunc_keeps | rfl | apply Keeps.foldl)
      | (intro _ _ _))

theorem State.writeRegByte_keeps {r s : State} {fn off : Nat} {b : Byte} (h : Keeps r s) : Keeps r (s.writeRegByte
    fn off b) := by
  unfold State.writeRegByte
  dsimp only
  split
  · exact Keeps.ite (State.writeShadow_keeps h) h
  · split
    · exact Keeps.ite (State.setChan_keeps_wf h (Memory.write_wf _ _)) h
    · refine Keeps.ite (State.msixRelease_keeps (State.setFunc_keeps_wf h fun k => ?_)) h
      simp only [Func.memoryWf, Bool.and_eq_true] at k ⊢
      exact ⟨Memory.write_wf _ _ k.1, k.2⟩

theorem State.writeRegBytes_keeps {r s : State} {fn off : Nat} {bs : List Byte} (h : Keeps r s) :
    Keeps r (s.writeRegBytes fn off bs) := by
  induction bs generalizing s off with
  | nil => exact h
  | cons b bs ih => exact ih (State.writeRegByte_keeps h)

theorem State.apertureWrite_keeps {r s : State} {a : Nat} {bs : List Byte} (h : Keeps r s) : Keeps r
    (s.apertureWrite a bs) := by
  induction bs generalizing s a with
  | nil => exact h
  | cons b bs ih => exact ih (Keeps.ite (State.keepCellar_keeps h (Memory.write_wf _ _)) h)

theorem State.writeRegWord_keeps {r s : State} {fn w k : Nat} {bs : List Byte} (h : Keeps r s) :
    Keeps r (s.writeRegWord fn w k bs) :=
  Keeps.ite h (Keeps.ite (State.consWrite_keeps h) (Keeps.ite (State.coalWrite_keeps h) (State.writeRegBytes_keeps h)))

theorem State.writeRegs_keeps {r : State} {s : State} {fn off : Nat} {bs : List Byte} (h : Keeps r s) : Keeps r
    (State.writeRegs s fn off bs) := by
  unfold State.writeRegs
  try dsimp only
  repeat' (with_reducible first
        | assumption | apply State.writeRegWord_keeps)

theorem State.chargeAperture_keeps {r : State} {s : State} {cellar link key : Nat} (h : Keeps r s) : Keeps r
    (State.chargeAperture s cellar link key) := by
  unfold State.chargeAperture
  try dsimp only
  repeat' ((with_reducible refine Keeps.upd ?_ rfl); first | with_reducible assumption | with_reducible apply Keeps.ite | with_reducible apply Keeps.foldl)

theorem State.ack_keeps {r : State} {s : State} {fn chan : Nat} {st : Status} {tag : Nat} (h : Keeps r s) : Keeps r
    (State.ack s fn chan st tag) := by
  unfold State.ack
  try dsimp only
  repeat' (with_reducible first
        | assumption | apply State.setChan_keeps | rfl)

theorem State.checkSnapshot_keeps {r : State} {s : State} {fn chan : Nat} {x : Snapshot} (h : Keeps r s) : Keeps r
    (State.checkSnapshot s fn chan x) := by
  unfold State.checkSnapshot
  try dsimp only
  repeat' (first
      | with_reducible rfl
      | ((with_reducible refine Keeps.upd ?_ rfl); first | with_reducible assumption | with_reducible apply State.ack_keeps | with_reducible apply State.setChan_keeps | with_reducible apply Keeps.ite | with_reducible apply Keeps.foldl)
      | split)

theorem State.serveChan_keeps {r : State} {s : State} {fn chan : Nat} (h : Keeps r s) : Keeps r (State.serveChan s
    fn chan) := by
  unfold State.serveChan
  try dsimp only
  repeat' (first
      | (with_reducible first
        | assumption | apply State.checkSnapshot_keeps)
      | split)

theorem State.serveChans_keeps {r : State} {s : State} (h : Keeps r s) : Keeps r (State.serveChans s) := by
  unfold State.serveChans
  try dsimp only
  repeat' (first
      | (with_reducible first
        | assumption | apply State.serveChan_keeps | apply Keeps.foldl)
      | (intro _ _ _))

theorem State.readPayload_keeps {r : State} {s : State} {fn : Nat} {x : Snapshot} (h : Keeps r s) : Keeps r
    (State.readPayload s fn x) := by
  unfold State.readPayload
  try dsimp only
  repeat' (with_reducible first
        | assumption | apply State.emit_keeps | apply Keeps.ite)

theorem State.unMember_keeps {r : State} {s : State} {aux : Nat} (h : Keeps r s) : Keeps r (State.unMember s aux) := by
  unfold State.unMember
  try dsimp only
  repeat' ((with_reducible refine Keeps.upd ?_ rfl); first | with_reducible assumption | with_reducible apply State.undeclare_keeps | with_reducible apply State.loopUpdate_keeps | with_reducible apply Keeps.ite | with_reducible apply Keeps.foldl)

theorem State.unPort_keeps {r : State} {s : State} {n : Nat} (h : Keeps r s) : Keeps r (State.unPort s n) := by
  unfold State.unPort
  try dsimp only
  repeat' ((with_reducible refine Keeps.upd ?_ rfl); first | with_reducible assumption | with_reducible apply State.undeclare_keeps | with_reducible apply Keeps.ite | with_reducible apply Keeps.foldl)

theorem State.withSession_keeps {r s : State} {fn : Nat} (h : Keeps r s) : Keeps r (s.withSession fn) := by
  unfold State.withSession
  dsimp only
  split
  · exact h
  · exact State.setFunc_keeps (State.drawFree_keeps h) rfl rfl

theorem State.ringOn_keeps {r s : State} {fn : Nat} {x : RingSetup} (h : Keeps r s) : Keeps r (s.ringOn fn x) := by
  unfold State.ringOn
  extract_lets f q y f1 f2
  have hm : f2.msixTable = f.msixTable := by
    simp only [f2]; split <;> exact Func.setRing_msix ..
  have hc : f2.chans = f.chans := by
    simp only [f2]; split <;> exact Func.setRing_chans ..
  have h1 : Keeps r (s.setFunc fn f2) := State.setFunc_keeps h hm hc
  exact Keeps.ite (State.flushCompl_keeps h1) h1

theorem State.ringOff_keeps {r s : State} {fn : Nat} {completion : Bool} {i : Nat} (h : Keeps r s) :
    Keeps r (s.ringOff fn completion i) := by
  unfold State.ringOff
  extract_lets f x f0 f1 f2 back
  have hm : f0.msixTable = f.msixTable := Func.setRing_msix ..
  have hc : f0.chans = f.chans := Func.setRing_chans ..
  have h2 : Keeps r (s.setFunc fn f2) := State.setFunc_keeps h hm hc
  refine Keeps.ite (State.setFunc_keeps h hm hc) (Keeps.ite h2 (Keeps.foldl (fun t e k => ?_) h2))
  exact State.post_keeps (State.setFunc_keeps k rfl rfl)

theorem State.finishDiscover_keeps {r : State} {s : State} (h : Keeps r s) : Keeps r (State.finishDiscover s) := by
  unfold State.finishDiscover
  try dsimp only
  repeat' (with_reducible first
        | assumption | apply State.finishAll_keeps)

theorem State.peTrain_keeps {r : State} {s : State} {n : Nat} (h : Keeps r s) : Keeps r (State.peTrain s n) := by
  unfold State.peTrain
  try dsimp only
  repeat' (with_reducible first
        | assumption | apply State.setPe_keeps | apply State.peMode_keeps | apply State.measureLost_keeps
        | apply Keeps.ite)

theorem State.peGiveUp_keeps {r : State} {s : State} {n : Nat} (h : Keeps r s) : Keeps r (State.peGiveUp s n) := by
  unfold State.peGiveUp
  try dsimp only
  repeat' (with_reducible first
        | assumption | apply State.setPe_keeps | apply State.peMode_keeps | apply State.undeclare_keeps
        | apply Keeps.ite)

theorem State.laneRepaired_keeps {r : State} {s : State} {n : Nat} (h : Keeps r s) : Keeps r (State.laneRepaired s
    n) := by
  unfold State.laneRepaired
  try dsimp only
  repeat' ((with_reducible refine Keeps.upd ?_ rfl); first | with_reducible assumption | with_reducible apply State.restoreUnit_keeps | with_reducible apply State.drawFree_keeps | with_reducible apply Keeps.ite | with_reducible apply Keeps.foldl)

theorem State.peServe_keeps {r : State} {s : State} {n : Nat} (h : Keeps r s) : Keeps r (State.peServe s n) := by
  unfold State.peServe
  try dsimp only
  repeat' (with_reducible first
        | assumption | apply State.laneRepaired_keeps | apply State.calTrim_keeps | apply State.setPe_keeps
        | apply State.finishDiscover_keeps | apply State.peMode_keeps | apply State.peSendR_keeps
        | apply Keeps.ite)

theorem State.laneUp_keeps {r : State} {s : State} {lane : Nat} {rxOk : Bool} (h : Keeps r s) : Keeps r
    (State.laneUp s lane rxOk) := by
  unfold State.laneUp
  try dsimp only
  repeat' (first
      | (with_reducible first
        | assumption | apply State.setPe_keeps | apply State.emitFrame_keeps | apply Keeps.ite | apply Keeps.foldl)
      | (intro _ _ _))

theorem State.loopReply_keeps {r : State} {s : State} {n rtt : Nat} (h : Keeps r s) : Keeps r (State.loopReply s n
    rtt) := by
  unfold State.loopReply
  try dsimp only
  repeat' (with_reducible first
        | assumption | apply State.setPe_keeps | apply State.peGiveUp_keeps | apply State.finishDiscover_keeps
        | apply State.peInit_keeps | apply State.peServe_keeps | apply Keeps.ite)

theorem State.finishRoutes_keeps {r : State} {s : State} {n : Nat} (h : Keeps r s) : Keeps r (State.finishRoutes s
    n) := by
  unfold State.finishRoutes
  try dsimp only
  repeat' (with_reducible first
        | assumption | apply State.setPe_keeps | apply State.finishAll_keeps | apply Keeps.ite)

theorem State.countersIn_keeps {r : State} {s : State} {n : Nat} {all : Bool} (h : Keeps r s) : Keeps r
    (State.countersIn s n all) := by
  unfold State.countersIn
  try dsimp only
  repeat' (first
      | (with_reducible first
        | assumption | apply State.drawFree_keeps | apply State.writeResult_keeps | apply State.finish_keeps
        | apply State.markStarted_keeps | apply Keeps.ite | apply Keeps.foldl)
      | (intro _ _ _))

theorem State.finishZero_keeps {r : State} {s : State} (h : Keeps r s) : Keeps r (State.finishZero s) := by
  unfold State.finishZero
  try dsimp only
  repeat' (with_reducible first
        | assumption | apply State.setGen_keeps | apply State.finishGen_keeps | apply State.measureGo_keeps
        | apply Keeps.ite)

theorem State.loseResults_keeps {r : State} {s : State} {n : Nat} (h : Keeps r s) : Keeps r (State.loseResults s n)
    := by
  unfold State.loseResults
  try dsimp only
  repeat' (first
      | (with_reducible first
        | assumption | apply State.setSite_keeps | apply State.siteSettle_keeps | apply Keeps.foldl)
      | (intro _ _ _))

theorem State.peLose_keeps {r : State} {s : State} {n cause code : Nat} (h : Keeps r s) : Keeps r (State.peLose s n
    cause code) := by
  unfold State.peLose
  try dsimp only
  repeat' (first
      | (with_reducible first
        | assumption | apply State.setPe_keeps | apply State.peMode_keeps | apply State.undeclare_keeps
        | apply State.event_keeps | apply State.parkSoon_keeps | apply State.loseResults_keeps
        | apply State.finishWrites_keeps | apply State.finishRoutes_keeps | apply State.countersIn_keeps
        | apply State.measureLost_keeps | apply State.finishDiscover_keeps | apply State.finishZero_keeps
        | apply Keeps.ite | apply Keeps.foldl)
      | (intro _ _ _))

theorem State.peLoseBoth_keeps {r : State} {s : State} {n cause code : Nat} (h : Keeps r s) : Keeps r
    (State.peLoseBoth s n cause code) := by
  unfold State.peLoseBoth
  try dsimp only
  repeat' (with_reducible first
        | assumption | apply State.peLose_keeps | apply Keeps.ite)

theorem State.laneDown_keeps {r : State} {s : State} {n : Nat} {up inj : Bool} (h : Keeps r s) : Keeps r
    (State.laneDown s n up inj) := by
  unfold State.laneDown
  try dsimp only
  repeat' (first
      | (with_reducible first
        | assumption | apply State.setPe_keeps | apply State.faultMasked_keeps | apply State.peMode_keeps
        | apply State.peResend_keeps | apply State.bulkRewind_keeps | apply State.event_keeps
        | apply State.faultUnmasked_keeps | apply State.peLoseBoth_keeps | apply Keeps.ite | apply Keeps.foldl)
      | (intro _ _ _))

theorem State.sideFail_keeps {r : State} {s : State} {pair : Nat} {inj : Bool} (h : Keeps r s) : Keeps r
    (State.sideFail s pair inj) := by
  unfold State.sideFail
  try dsimp only
  repeat' (first
      | (intro _ _ _)
      | ((with_reducible refine Keeps.upd ?_ rfl); first | with_reducible assumption | with_reducible apply State.faultMasked_keeps | with_reducible apply State.peLose_keeps | with_reducible apply State.faultUnmasked_keeps | with_reducible apply Keeps.ite | with_reducible apply Keeps.foldl))

theorem State.peSafe_keeps {r s : State} {n : Nat} (h : Keeps r s) : Keeps r (s.peSafe n) := by
  unfold State.peSafe
  extract_lets s0 d s1 s2
  have h1 : Keeps r s1 := State.peMode_keeps (State.setPe_keeps (Keeps.ite (State.peLose_keeps h) h))
  have h2 : Keeps r s2 := by
    simp only [s2]
    split
    · exact State.peTrain_keeps (State.declare_keeps h1 (by assumption))
    · exact h1
  exact State.restDone_keeps h2

theorem State.peReset_keeps {r : State} {s : State} {n : Nat} (h : Keeps r s) : Keeps r (State.peReset s n) := by
  unfold State.peReset
  try dsimp only
  repeat' (first
      | (with_reducible first
        | assumption | apply State.setPe_keeps | apply State.parkSoon_keeps | apply State.peSafe_keeps
        | apply Keeps.ite | apply Keeps.foldl)
      | (intro _ _ _))

theorem State.peResets_keeps {r : State} {s : State} (h : Keeps r s) : Keeps r (State.peResets s) := by
  unfold State.peResets
  try dsimp only
  repeat' (first
      | (with_reducible first
        | assumption | apply State.peSafe_keeps | apply Keeps.ite | apply Keeps.foldl)
      | (intro _ _ _))

theorem State.stimBeat_keeps {r : State} {s : State} (h : Keeps r s) : Keeps r (State.stimBeat s) := by
  unfold State.stimBeat
  try dsimp only
  repeat' (with_reducible first
        | assumption | apply State.stimTick_keeps | apply State.finishStimWrites_keeps)

theorem State.badFrame_keeps {r : State} {s : State} {n k : Nat} (h : Keeps r s) : Keeps r (State.badFrame s n k) := by
  unfold State.badFrame
  try dsimp only
  repeat' (with_reducible first
        | assumption | apply State.setPe_keeps)

theorem State.countBad_keeps {r : State} {s : State} {n : Nat} {live : Bool} (h : Keeps r s) : Keeps r
    (State.countBad s n live) := by
  unfold State.countBad
  try dsimp only
  repeat' (with_reducible first
        | assumption | apply State.setPe_keeps | apply State.laneDown_keeps | apply Keeps.ite)

theorem State.onFrame_keeps {r s : State} {lane type cls : Nat} {frame : List Byte} (act : Nat → List Byte → State →
    State)
    (ha : ∀ n p x, Keeps r x → Keeps r (act n p x)) (h : Keeps r s) : Keeps r (s.onFrame lane type cls frame act) := by
  unfold State.onFrame
  extract_lets n d p s1 d1
  have h1 : Keeps r s1 := State.finishZero_keeps (State.finishRoutes_keeps (State.setPe_keeps h))
  split
  · exact h
  · split
    · exact State.badFrame_keeps h
    · split
      · exact h
      · split
        · exact Keeps.ite (ha _ _ _ (State.setPe_keeps h1)) h1
        · split
          · exact Keeps.ite h1 (ha _ _ _ (State.setPe_keeps h1))
          · exact ha _ _ _ h1

theorem State.capHeaders_keeps {r s : State} {n : Nat} (h : Keeps r s) : Keeps r (s.capHeaders n) := by
  unfold State.capHeaders
  extract_lets x devs lost m1 m2
  refine State.keepCellar_keeps h fun e => ?_
  have h1 : m1.wf = true := by
    simp only [m1]; split
    · exact Memory.writeBytes_wf _ _ e
    · exact e
  simp only [m2]; split
  · exact Memory.writeBytes_wf _ _ h1
  · exact h1

theorem State.failRecord_keeps {r s : State} {dev : Nat} {q : List Byte} (h : Keeps r s) : Keeps r (s.failRecord dev
    q) := by
  unfold State.failRecord
  dsimp only
  split
  · exact h
  · split
    · exact State.setSite_keeps h
    · split
      · exact State.capHeaders_keeps (State.setSite_keeps (State.keepWrite_keeps h))
      · exact State.capHeaders_keeps (State.setSite_keeps h)

theorem State.capRecord_keeps {r s : State} {dev : Nat} {q : List Byte} (h : Keeps r s) : Keeps r (s.capRecord dev
    q) := by
  unfold State.capRecord
  extract_lets n x slots
  split
  · exact h
  · extract_lets put
    have hp (t : State) (k : Nat) (ht : Keeps r t) : Keeps r (put t k) :=
      Keeps.ite (State.setSite_keeps (State.keepWrite_keeps ht)) (State.setSite_keeps ht)
    exact State.capHeaders_keeps (hp _ _ (hp _ _ h))

theorem State.acqQuiesce_keeps {r s : State} {n : Nat} {truncate : Bool} (h : Keeps r s) : Keeps r (s.acqQuiesce n
    truncate).1 := by
  unfold State.acqQuiesce
  dsimp only
  repeat' split
  all_goals first | exact h | exact State.setCtx_keeps h | exact State.recordEnd_keeps h

theorem State.resetQuiesce_keeps {r : State} {s : State} {fam n : Nat} (h : Keeps r s) : Keeps r (State.resetQuiesce
    s fam n) := by
  unfold State.resetQuiesce
  try dsimp only
  repeat' (first
      | (with_reducible first
        | assumption | apply State.acqQuiesce_keeps | apply State.inputQuiesce_keeps
        | apply State.ddcQuiesce_keeps | apply State.jobStop_keeps | apply State.traceQuiesce_keeps
        | apply State.planeQuiesce_keeps | apply State.trigQuiesce_keeps | apply State.setCore_keeps
        | apply State.kernelEnd_keeps | apply State.parkSoon_keeps | apply State.peReset_keeps
        | apply State.stimQuiesce_keeps | apply State.tiuQuiesce_keeps | apply State.undeclare_keeps
        | apply State.setMon_keeps | apply State.monRest_keeps | apply State.flowQuiesce_keeps
        | apply State.setPort_keeps | apply State.dispRest_keeps | apply State.setDisp_keeps)
      | split)

theorem State.forgive_keeps {r : State} {s : State} {mask : Nat} (h : Keeps r s) : Keeps r (State.forgive s mask) := by
  unfold State.forgive
  try dsimp only
  repeat' ((with_reducible refine Keeps.upd ?_ rfl); first | with_reducible assumption | with_reducible apply Keeps.ite | with_reducible apply Keeps.foldl)

theorem State.reloadShadows_keeps {r : State} {s : State} {g lo hi : Nat} (h : Keeps r s) : Keeps r
    (State.reloadShadows s g lo hi) := by
  unfold State.reloadShadows
  try dsimp only
  repeat' (first
      | (with_reducible first
        | assumption | apply State.setShadow_keeps | apply Keeps.foldl)
      | (intro _ _ _))

theorem State.dropTrigMasks_keeps {r : State} {s : State} {n : Nat} (h : Keeps r s) : Keeps r (State.dropTrigMasks s
    n) := by
  unfold State.dropTrigMasks
  try dsimp only
  repeat' ((with_reducible refine Keeps.upd ?_ rfl); first | with_reducible assumption | with_reducible apply Keeps.ite | with_reducible apply Keeps.foldl)

theorem State.delStim_keeps {r s : State} {n : Nat} (h : Keeps r s) : Keeps r { s with stim := s.stim.del n } :=
  h.trans ⟨rfl, .inl rfl, List.suffix_refl _, Nat.le_refl _, fun e => by
    simp only [State.memoryWf, Bool.and_eq_true] at e ⊢
    exact ⟨⟨e.1.1, KMap.all_del n e.1.2⟩, e.2⟩⟩

theorem State.freshObject_keeps {r s : State} {fam n : Nat} (h : Keeps r s) : Keeps r (s.freshObject fam n) := by
  unfold State.freshObject
  repeat' (first
      | (with_reducible first
        | apply State.reloadShadows_keeps | apply State.setShadowBit_keeps | apply State.dropTrigMasks_keeps
        | apply State.release_keeps | apply State.coreFreed_keeps | apply State.delStim_keeps
        | apply State.pipeFreed_keeps)
      | split | exact Keeps.upd h rfl | exact Keeps.upd (State.release_keeps h) rfl)

theorem State.freshFamily_keeps {r : State} {s : State} {fam : Nat} (h : Keeps r s) : Keeps r (State.freshFamily s
    fam) := by
  unfold State.freshFamily
  try dsimp only
  repeat' (first
      | ((with_reducible refine Keeps.upd ?_ rfl); first | with_reducible assumption | with_reducible apply Keeps.ite | with_reducible apply Keeps.foldl)
      | split)

theorem State.endDiscovery_keeps {r : State} {s : State} (h : Keeps r s) : Keeps r (State.endDiscovery s) := by
  unfold State.endDiscovery
  try dsimp only
  repeat' (first
      | (with_reducible first
        | assumption | apply State.peGiveUp_keeps | apply State.finishDiscover_keeps | apply Keeps.ite
        | apply Keeps.foldl)
      | (intro _ _ _))

theorem State.freshFor_keeps {r : State} {s : State} {b : Nat} {c : Cmd} (h : Keeps r s) : Keeps r (State.freshFor s
    b c) := by
  unfold State.freshFor
  try dsimp only
  repeat' (first
      | (with_reducible first
        | assumption | apply State.freshObject_keeps | apply State.freshFamily_keeps | apply Keeps.ite
        | apply Keeps.foldl)
      | (intro _ _ _))

theorem State.finishResets_keeps {r : State} {s : State} {b : Nat} (h : Keeps r s) : Keeps r (State.finishResets s
    b) := by
  unfold State.finishResets
  try dsimp only
  repeat' (with_reducible first
        | assumption | apply State.finishAll_keeps)

theorem State.resetFn_keeps {r s : State} {fn : Nat} (h : Keeps r s) : Keeps r (s.resetFn fn) := by
  unfold State.resetFn
  extract_lets cmds hs s1 flows s2
  have h1 : Keeps r s1 :=
    State.setFunc_keeps_wf (Keeps.upd h rfl) fun _ => rfl
  have h2 : Keeps r s2 := Keeps.foldl (fun t f k => State.flowQuiesce_keeps k) h1
  exact Keeps.ite (State.resetFcw_keeps h2) h2

theorem State.linkDown_keeps {r : State} {s : State} (h : Keeps r s) : Keeps r (State.linkDown s) := by
  unfold State.linkDown
  try dsimp only
  repeat' ((with_reducible refine Keeps.upd ?_ rfl); first | with_reducible assumption | with_reducible apply Keeps.ite | with_reducible apply Keeps.foldl)

theorem State.leaveStandby_keeps {r : State} {s : State} (h : Keeps r s) : Keeps r (State.leaveStandby s) := by
  unfold State.leaveStandby
  try dsimp only
  repeat' ((with_reducible refine Keeps.upd ?_ rfl); first | with_reducible assumption | with_reducible apply Keeps.ite | with_reducible apply Keeps.foldl)

theorem State.pcieLaneFail_keeps {r : State} {s : State} {width lane : Nat} {inj : Bool} (h : Keeps r s) : Keeps r
    (State.pcieLaneFail s width lane inj) := by
  unfold State.pcieLaneFail
  try dsimp only
  repeat' ((with_reducible refine Keeps.upd ?_ rfl); first | with_reducible assumption | with_reducible apply State.faultUnmasked_keeps | with_reducible apply State.faultMasked_keeps | with_reducible apply Keeps.ite | with_reducible apply Keeps.foldl)

theorem State.enterStandby_keeps {r : State} {s : State} (h : Keeps r s) : Keeps r (State.enterStandby s) := by
  unfold State.enterStandby
  try dsimp only
  repeat' ((with_reducible refine Keeps.upd ?_ rfl); first | with_reducible assumption | with_reducible apply State.clearReady_keeps | with_reducible apply Keeps.ite | with_reducible apply Keeps.foldl)

theorem State.wakeBit_keeps {r : State} {s : State} {b : Nat} (h : Keeps r s) : Keeps r (State.wakeBit s b) := by
  unfold State.wakeBit
  try dsimp only
  repeat' ((with_reducible refine Keeps.upd ?_ rfl); first | with_reducible assumption | with_reducible apply State.setReady_keeps | with_reducible apply State.event_keeps | with_reducible apply State.finishResets_keeps | with_reducible apply Keeps.ite | with_reducible apply Keeps.foldl)

theorem State.scanDev_keeps {r : State} {s : State} {k : Nat} {d : IdDev} (h : Keeps r s) : Keeps r (State.scanDev s
    k d) := by
  unfold State.scanDev
  try dsimp only
  repeat' ((with_reducible refine Keeps.upd ?_ rfl); first | with_reducible assumption | with_reducible apply State.event_keeps | with_reducible apply Keeps.ite | with_reducible apply Keeps.foldl)

theorem State.scanBuses_keeps {r : State} {s : State} {buses : List Nat} {mems : List (Nat × List Byte)} {stuck :
    List Nat} (h : Keeps r s) : Keeps r (State.scanBuses s buses mems stuck) := by
  unfold State.scanBuses
  try dsimp only
  repeat' (first
      | (intro _ _ _)
      | ((with_reducible refine Keeps.upd ?_ rfl); first | with_reducible assumption | with_reducible apply State.scanDev_keeps | with_reducible apply Keeps.ite | with_reducible apply Keeps.foldl))

theorem State.cold_keeps {r s : State} {st : PowerState} (h : Keeps r s) : Keeps r (s.cold st) :=
  h.trans ⟨rfl, .inr rfl, List.suffix_refl _, Nat.le_refl _, fun _ => rfl⟩

theorem State.setFeed_keeps {r : State} {s : State} {feedB on : Bool} (h : Keeps r s) : Keeps r (State.setFeed s
    feedB on) := by
  unfold State.setFeed
  try dsimp only
  repeat' ((with_reducible refine Keeps.upd ?_ rfl); first | with_reducible assumption | with_reducible apply Keeps.ite | with_reducible apply Keeps.foldl)

theorem State.rise_keeps {r : State} {s : State} (h : Keeps r s) : Keeps r (State.rise s) := by
  unfold State.rise
  try dsimp only
  repeat' ((with_reducible refine Keeps.upd ?_ rfl); first | with_reducible assumption | with_reducible apply Keeps.ite | with_reducible apply Keeps.foldl)

theorem State.powerGood_keeps {r : State} {s : State} (h : Keeps r s) : Keeps r (State.powerGood s) := by
  unfold State.powerGood
  try dsimp only
  repeat' ((with_reducible refine Keeps.upd ?_ rfl); first | with_reducible assumption | with_reducible apply State.cold_keeps | with_reducible apply Keeps.ite | with_reducible apply Keeps.foldl)

theorem State.stewardUp_keeps {r : State} {s : State} (h : Keeps r s) : Keeps r (State.stewardUp s) := by
  unfold State.stewardUp
  try dsimp only
  repeat' ((with_reducible refine Keeps.upd ?_ rfl); first | with_reducible assumption | with_reducible apply State.faultIn_keeps | with_reducible apply Keeps.ite | with_reducible apply Keeps.foldl)

theorem State.calAll_keeps {r : State} {s : State} {cls : Nat} {units values : List Nat} (h : Keeps r s) : Keeps r
    (State.calAll s cls units values) := by
  unfold State.calAll
  try dsimp only
  repeat' (first
      | (with_reducible first
        | assumption | apply State.calTrim_keeps | apply Keeps.foldl)
      | (intro _ _ _))

theorem State.discoverAll_keeps {r s : State} (h : Keeps r s) : Keeps r s.discoverAll := by
  unfold State.discoverAll
  refine Keeps.foldl (fun t n k => ?_) h
  split
  · exact State.peTrain_keeps (State.declare_keeps k (by assumption))
  · exact k

theorem State.sampleFirst_keeps {r s : State} (h : Keeps r s) : Keeps r s.sampleFirst := by
  unfold State.sampleFirst
  split
  · exact h
  · exact h.trans ⟨rfl, .inr rfl, List.suffix_refl _, Nat.le_refl _, id⟩

theorem State.sampleClockUp_keeps {r s : State} (h : Keeps r s) : Keeps r s.sampleClockUp := by
  unfold State.sampleClockUp
  exact State.sampleFirst_keeps (Keeps.foldl (fun t n k => Keeps.ite (State.setSample_keeps k) k) h)

theorem State.deskewStart_keeps {r : State} {s : State} (h : Keeps r s) : Keeps r (State.deskewStart s) := by
  unfold State.deskewStart
  try dsimp only
  repeat' ((with_reducible refine Keeps.upd ?_ rfl); first | with_reducible assumption | with_reducible apply State.setSynth_keeps | with_reducible apply Keeps.ite | with_reducible apply Keeps.foldl)

theorem State.calDone_keeps {r : State} {s : State} (h : Keeps r s) : Keeps r (State.calDone s) := by
  unfold State.calDone
  try dsimp only
  repeat' ((with_reducible refine Keeps.upd ?_ rfl); first | with_reducible assumption | with_reducible apply State.event_keeps | with_reducible apply Keeps.ite | with_reducible apply Keeps.foldl)

theorem State.calibrated_keeps {r : State} {s : State} {b : Nat} {values : List Nat} (h : Keeps r s) : Keeps r
    (State.calibrated s b values) := by
  unfold State.calibrated
  try dsimp only
  repeat' (first
      | (with_reducible first
        | assumption | apply State.calAll_keeps | apply State.deskewStart_keeps | apply State.calTrim_keeps)
      | split)

theorem State.served_keeps {r : State} {s : State} {b : Nat} (h : Keeps r s) : Keeps r (State.served s b) := by
  unfold State.served
  try dsimp only
  repeat' (first
      | (with_reducible first
        | assumption | apply State.sampleClockUp_keeps | apply State.setInput_keeps
        | apply State.endDiscovery_keeps)
      | split)

theorem State.tripAll_keeps {r s : State} (h : Keeps r s) : Keeps r s.tripAll :=
  h.trans ⟨rfl, .inl rfl, List.suffix_refl _, Nat.le_refl _, fun e => by
    simp only [State.memoryWf, Bool.and_eq_true] at e
    have e2 := e.2
    have e1 := e.1.2
    simp only [State.memoryWf, Bool.and_eq_true]
    exact ⟨⟨rfl, KMap.all_mapVals (f := fun _ (x : StimOut) => x.retained) (p := fun x : StimOut => x.wave.wf) (fun _ _ k => k) e1⟩, e2⟩⟩

theorem State.restartKept_keeps {r s : State} (h : Keeps r s) : Keeps r s.restartKept := by
  have k : Keeps r s.powerGood := State.powerGood_keeps h
  refine k.trans ⟨rfl, .inl rfl, List.suffix_refl _, Nat.le_refl _, fun e => ?_⟩
  simp only [State.memoryWf, Bool.and_eq_true] at e ⊢
  refine ⟨e.1, ?_⟩
  unfold State.restartKept KMap.mapVals
  simp only [List.all_map, List.all_eq_true]
  exact fun _ _ => rfl

theorem State.pairHalt_keeps {r : State} {s : State} {v : Nat} {inj : Bool} (h : Keeps r s) : Keeps r
    (State.pairHalt s v inj) := by
  unfold State.pairHalt
  try dsimp only
  repeat' (first
      | ((with_reducible refine Keeps.upd ?_ rfl); first | with_reducible assumption | with_reducible apply State.served_keeps | with_reducible apply State.faultIn_keeps | with_reducible apply Keeps.ite | with_reducible apply Keeps.foldl)
      | split)

theorem State.halfFail_keeps {r : State} {s : State} {u : Unit3} {inj : Bool} (h : Keeps r s) : Keeps r
    (State.halfFail s u inj) := by
  unfold State.halfFail
  try dsimp only
  repeat' (with_reducible first
        | assumption | apply State.faultIn_keeps | apply Keeps.ite)

theorem State.phaseFail_keeps {r : State} {s : State} {rail phase : Nat} (h : Keeps r s) : Keeps r (State.phaseFail
    s rail phase) := by
  unfold State.phaseFail
  try dsimp only
  repeat' ((with_reducible refine Keeps.upd ?_ rfl); first | with_reducible assumption | with_reducible apply State.faultIn_keeps | with_reducible apply Keeps.ite | with_reducible apply Keeps.foldl)

theorem State.failUnit_keeps {r : State} {s : State} {u : Unit3} {inj : Bool} (h : Keeps r s) : Keeps r
    (State.failUnit s u inj) := by
  unfold State.failUnit
  try dsimp only
  repeat' (first
      | (with_reducible first
        | assumption | apply State.sliceFail_keeps | apply State.ddcFail_keeps | apply State.pipeFail_keeps
        | apply State.coreFail_keeps | apply State.voterFail_keeps | apply State.pairHalt_keeps
        | apply State.losePc_keeps | apply State.loseStack_keeps | apply State.sideFail_keeps
        | apply State.laneDown_keeps | apply State.portFail_keeps | apply State.pcieLaneFail_keeps
        | apply State.oscFail_keeps | apply State.sampleFail_keeps | apply State.phaseFail_keeps
        | apply State.scanoutFail_keeps | apply State.tiuFail_keeps | apply State.halfFail_keeps)
      | split)

theorem State.domainStops_keeps {r : State} {s : State} {pair : Nat} (h : Keeps r s) : Keeps r (State.domainStops s
    pair) := by
  unfold State.domainStops
  try dsimp only
  repeat' (first
      | (with_reducible first
        | assumption | apply State.loseStack_keeps | apply State.pairHalt_keeps | apply State.bitsLost_keeps
        | apply State.linkDown_keeps | apply Keeps.ite | apply Keeps.foldl)
      | (intro _ _ _))

theorem State.unitBack_keeps {r : State} {s : State} {u : Unit3} (h : Keeps r s) : Keeps r (State.unitBack s u) := by
  unfold State.unitBack
  try dsimp only
  repeat' (first
      | ((with_reducible refine Keeps.upd ?_ rfl); first | with_reducible assumption | with_reducible apply State.setInput_keeps | with_reducible apply State.setStack_keeps | with_reducible apply State.setPe_keeps | with_reducible apply State.setPort_keeps | with_reducible apply State.setSample_keeps | with_reducible apply State.setTiuGroup_keeps | with_reducible apply Keeps.ite | with_reducible apply Keeps.foldl)
      | split)

theorem State.calFault_keeps {r : State} {s : State} {cls index : Nat} (h : Keeps r s) : Keeps r (State.calFault s
    cls index) := by
  unfold State.calFault
  try dsimp only
  repeat' (first
      | (with_reducible first
        | assumption | apply State.calFailed_keeps | apply State.sliceFail_keeps | apply State.tiuFail_keeps
        | apply State.laneDown_keeps | apply State.losePc_keeps | apply State.outOfScope_keeps)
      | split)

theorem State.calOne_keeps {r : State} {s : State} {cls : Nat} {failed : List Nat} {values : List (Nat × Nat)}
    {index : Nat} (h : Keeps r s) : Keeps r (State.calOne s cls failed values index) := by
  unfold State.calOne
  try dsimp only
  repeat' (with_reducible first
        | assumption | apply State.calFault_keeps | apply State.calTrim_keeps | apply Keeps.ite)

theorem State.calUnits_keeps {r : State} {s : State} {cls : Nat} {units failed : List Nat} {values : List (Nat ×
    Nat)} (h : Keeps r s) : Keeps r (State.calUnits s cls units failed values) := by
  unfold State.calUnits
  try dsimp only
  repeat' (first
      | (with_reducible first
        | assumption | apply State.calOne_keeps | apply Keeps.foldl)
      | (intro _ _ _))

theorem State.calPins_keeps {r : State} {s : State} {units failed : List Nat} {why : Nat} (h : Keeps r s) : Keeps r
    (State.calPins s units failed why) := by
  unfold State.calPins
  try dsimp only
  repeat' (with_reducible first
        | assumption | apply State.calUnits_keeps | apply State.measureAll_keeps)

theorem State.unschedule_keeps {r s t : State} {c : Cmd} (h : Keeps r s) (e : s.unschedule c = some t) : Keeps r t := by
  unfold State.unschedule at e
  dsimp only at e
  repeat' split at e
  all_goals
    first
    | (cases e; done)
    | (obtain ⟨_, _, e⟩ := Option.map_eq_some_iff.mp e
       subst e
       exact State.setVine_keeps h)
    | (injection e with e
       subst e
       repeat' (first
         | with_reducible assumption
         | with_reducible apply State.setGen_keeps
         | with_reducible apply State.setInput_keeps
         | with_reducible apply State.setDdc_keeps
         | with_reducible apply State.undeclare_keeps
         | with_reducible apply State.jobQuiesce_keeps
         | with_reducible apply State.setTunit_keeps
         | with_reducible apply State.release_keeps
         | with_reducible apply State.setCtx_keeps
         | with_reducible apply State.setCore_keeps
         | with_reducible apply State.setSite_keeps
         | with_reducible apply State.stimOff_keeps
         | (refine State.setStim_keeps_of ?_ fun e => State.stim_wf _ (Keeps.mem (by with_reducible assumption) e))
         | with_reducible apply State.setVine_keeps
         | with_reducible apply State.setTiu_keeps
         | with_reducible apply Keeps.ite
         | with_reducible apply Keeps.foldl
         | intro _ _ _))

theorem State.skipEpochs_keeps {r s : State} {lo hi : Nat} (h : Keeps r s) : Keeps r (s.skipEpochs lo hi) := by
  unfold State.skipEpochs
  refine Keeps.foldl (fun t c k => ?_) h
  split
  · exact State.finish_keeps (State.unschedule_keeps k (by assumption))
  · exact k

theorem State.epochJump_keeps {r : State} {s : State} {e n : Nat} (h : Keeps r s) : Keeps r (State.epochJump s e n)
    := by
  unfold State.epochJump
  try dsimp only
  repeat' (with_reducible first
        | assumption | apply State.setVine_keeps | apply State.skipEpochs_keeps)

theorem State.setSec_keeps {r : State} {s : State} {x : Security} (h : Keeps r s) : Keeps r (State.setSec s x) := by
  unfold State.setSec
  try dsimp only
  repeat' ((with_reducible refine Keeps.upd ?_ rfl); first | with_reducible assumption | with_reducible apply Keeps.ite | with_reducible apply Keeps.foldl)

theorem State.setCounter_keeps {r : State} {s : State} {n v : Nat} (h : Keeps r s) : Keeps r (State.setCounter s n
    v) := by
  unfold State.setCounter
  try dsimp only
  repeat' (with_reducible first
        | assumption | apply State.setSec_keeps)

theorem State.restartBegin_keeps {r s : State} (h : Keeps r s) : Keeps r s.restartBegin := by
  unfold State.restartBegin
  extract_lets s1
  have h0 (x : State) (fn : Nat) (k : Keeps r x) : Keeps r (x.setFunc fn (x.func fn).endSession) := State.setFunc_keeps k rfl rfl
  have e : (s.setFunc 0 (s.func 0).endSession).func 1 = s.func 1 := by
    simp only [State.func, State.setFunc]
    rw [KMap.get_set_ne _ _ _ (by decide)]
  have h1 : Keeps r s1 := by
    have := h0 _ 1 (h0 s 0 h)
    rw [e] at this
    exact this
  exact State.clearReady_keeps (State.setSec_keeps h1)

theorem State.stage_keeps {r : State} {s : State} {x : FwSlot} (h : Keeps r s) : Keeps r (State.stage s x) := by
  unfold State.stage
  try dsimp only
  repeat' (with_reducible first
        | assumption | apply State.setSec_keeps | apply State.restartBegin_keeps | apply Keeps.ite)

theorem State.blowFuses_keeps {r : State} {s : State} {blown : Nat} (h : Keeps r s) : Keeps r (State.blowFuses s
    blown) := by
  unfold State.blowFuses
  try dsimp only
  repeat' (with_reducible first
        | assumption | apply State.setCounter_keeps)

theorem State.commitOn_keeps {r : State} {s : State} {c : Cmd} {blown : Nat} (h : Keeps r s) : Keeps r
    (State.commitOn s c blown) := by
  unfold State.commitOn
  try dsimp only
  repeat' (with_reducible first
        | assumption | apply State.blowFuses_keeps | apply State.finish_keeps | apply Keeps.ite)

theorem State.issue_keeps {r : State} {s : State} {c cls op : Nat} (body : Nat → Nat → Core → IsaOut) (h : Keeps r
    s) : Keeps r (State.issue s c cls op body) := by
  unfold State.issue
  try dsimp only
  repeat' (first
      | (with_reducible first
        | assumption | apply State.coreTrap_keeps | apply State.drawFree_keeps | apply State.setCore_keeps
        | apply State.coreYield_keeps | apply State.coreCommit_keeps | apply State.kernelEnd_keeps)
      | split)

end Sys2Proof.Machine
end

