-- ==== Sys2Proof/Laws/KeepsVerbs.lean ====
section
/-! SUPPORT. The meaning of each mailbox verb keeps what `Keeps` says, and so does each form of a row: `happens_goes`,
`anywhere_goes` and `verb_goes` take a row's body to what the row does to the queue, the clock, the outputs, the free
values and the memories. -/

namespace Sys2Proof.Machine

theorem VerbOut.keeps_fail {r : State} {st : Status} {n : Nat} : VerbOut.Keeps r (.fail st n) := trivial
theorem VerbOut.keeps_wait {r : State} : VerbOut.Keeps r .wait := trivial
theorem VerbOut.keeps_done {r s : State} {st : Status} {n : Nat} (h : Machine.Keeps r s) : VerbOut.Keeps r (.done st
    n s) := h
theorem VerbOut.keeps_data {r s : State} {b : List Byte} {n : Nat} (h : Machine.Keeps r s) : VerbOut.Keeps r (.data
    b n s) := h
theorem VerbOut.keeps_dataIfAsked {r s : State} {b : List Byte} {n : Nat} (h : Machine.Keeps r s) : VerbOut.Keeps r
    (.dataIfAsked b n s) := h
theorem VerbOut.keeps_running {r s : State} {a : Nat} {b : List Nat} (h : Machine.Keeps r s) : VerbOut.Keeps r
    (.running a b s) := h

theorem VerbOut.keeps_ite {r : State} {a b : VerbOut} {c : Prop} [Decidable c] (ha : VerbOut.Keeps r a) (hb :
    VerbOut.Keeps r b) :
    VerbOut.Keeps r (if c then a else b) := by
  split <;> assumption

theorem orElse_keeps {r : State} {l : List (Bool × Status)} {v : VerbOut} (h : VerbOut.Keeps r v) : VerbOut.Keeps r
    (orElse l v) := by
  induction l with
  | nil => exact h
  | cons x l ih => exact VerbOut.keeps_ite trivial ih

/-- What every command does to the queue, the clock, the outputs, the free values and the memories. -/
structure Goes (s s' : State) : Prop where
  pending : s'.pending = s.pending
  time : s.now ≤ s'.now ∨ s'.now = 0
  out : s.out <:+ s'.out
  drawn : s.freeDrawn ≤ s'.freeDrawn
  mem : s.memoryWf = true → s'.memoryWf = true

theorem Goes.refl (s : State) : Goes s s := ⟨rfl, .inl (Nat.le_refl _), List.suffix_refl _, Nat.le_refl _, id⟩

theorem Keeps.goes {s s' : State} {t : Nat} (h : Keeps (s.advance t) s') : Goes s s' := by
  have hp : (s.advance t).pending = s.pending := by unfold State.advance; split <;> rfl
  have hn : s.now ≤ (s.advance t).now := by unfold State.advance; split <;> simp <;> omega
  have ho : (s.advance t).out = s.out := by unfold State.advance; split <;> rfl
  have hd : (s.advance t).freeDrawn = s.freeDrawn := by unfold State.advance; split <;> rfl
  have hm : (s.advance t).memoryWf = s.memoryWf := by unfold State.advance; split <;> rfl
  refine ⟨h.pending.trans hp, ?_, ho ▸ h.out, hd ▸ h.drawn, fun e => h.mem (hm.trans e)⟩
  cases h.time with
  | inl e => left; omega
  | inr e => exact .inr e

/-- A row answers a next state, and it `Goes` there. -/
def OGoes (s : State) (o : Host.Outcome State Fault Refusal) : Prop := ∃ s', o = .next s' ∧ Goes s s'

theorem happens_goes {t : Nat} {f : State → State} {s : State} (hf : ∀ x, Keeps x (f x)) : OGoes s (happens t f s) := by
  refine ⟨_, rfl, ?_⟩
  unfold State.whenPowered
  split
  · exact (hf _).goes
  · exact Goes.refl _

theorem anywhere_goes {t : Nat} {f : State → State} {s : State} (hf : ∀ x, Keeps x (f x)) : OGoes s (anywhere t f s) :=
  ⟨_, rfl, (hf _).goes⟩

theorem State.conclude_keeps {r s : State} {c : Cmd} {v : VerbOut} (h : Keeps r s) (hv : VerbOut.Keeps r v) :
    Keeps r (s.conclude c v) := by
  unfold State.conclude
  split <;> (try simp only [VerbOut.Keeps] at hv)
  · exact State.finish_keeps h
  · exact State.finish_keeps hv
  · exact Keeps.ite (State.finish_keeps h) (State.finish_keeps (State.writeResult_keeps hv))
  · exact Keeps.ite (State.finish_keeps hv) (Keeps.ite (State.finish_keeps h) (State.finish_keeps (State.writeResult_keeps hv)))
  · exact h
  · exact State.markStarted_keeps hv

theorem verb_goes {t op fn tag : Nat} {body : Cmd → State → VerbOut} {s : State}
    (hb : ∀ r c x, Keeps r x → VerbOut.Keeps r (body c x)) : OGoes s (verb t op fn tag body s) := by
  refine ⟨_, rfl, ?_⟩
  unfold State.runVerb State.whenPowered
  split
  · refine Keeps.goes (t := t) ?_
    dsimp only
    split
    · exact Keeps.refl _
    · exact Keeps.ite (Keeps.refl _) (Keeps.ite (State.finish_keeps (Keeps.refl _))
        (Keeps.ite (State.finish_keeps (Keeps.refl _))
          (State.conclude_keeps (Keeps.refl _) (hb _ _ _ (Keeps.refl _)))))
  · exact Goes.refl _

theorem State.allot_keeps {r s t : State} {act : Nat} {d : KMap Nat} (h : Keeps r s) (e : s.allot act d = some t) :
    Keeps r t := by
  unfold State.allot at e
  dsimp only at e
  split at e
  · cases e
    exact Keeps.upd h rfl
  · cases e

theorem State.tune_keeps {r s : State} {g f level : Nat} (h : Keeps r s) : Keeps r (s.tune g f level).1 := by
  unfold State.tune
  dsimp only
  split
  · split <;> exact State.setGen_keeps h
  · exact State.setGen_keeps h
  · exact State.setSynth_keeps h
  · exact State.setGen_keeps h

theorem State.admitSites_keeps {r s t : State} {v : Nat} {b : Bool} {l : List Nat} (h : Keeps r s) (e : s.admitSites
    v b l = some t) :
    Keeps r t := by
  induction l generalizing s with
  | nil => unfold State.admitSites at e; cases e; exact h
  | cons n l ih =>
    unfold State.admitSites at e
    dsimp only at e
    split at e
    · refine ih ?_ e
      rename_i s' hs
      by_cases hd : (addDemand (if b = true then s.siteDemand n v else []) (s.captureDemand n (s.site n).nextCap)).isEmpty = true
      · rw [if_pos hd] at hs
        cases hs; exact h
      · rw [if_neg hd] at hs
        exact State.allot_keeps h hs
    · cases e

theorem admitStim_keeps {r s t : State} {f : Nat → Nat} {l : List Nat} (h : Keeps r s) (e : admitStim f l s = some
    t) : Keeps r t := by
  induction l generalizing s with
  | nil => cases e; exact h
  | cons n l ih =>
    unfold admitStim at e
    dsimp only at e
    split at e
    · refine ih ?_ e
      rename_i s' hs
      split at hs
      · exact State.allot_keeps h hs
      · cases hs; exact h
    · cases e

theorem admitTiu_keeps {r s t : State} {l : List Nat} (h : Keeps r s) (e : admitTiu l s = some t) : Keeps r t := by
  induction l generalizing s with
  | nil => cases e; exact h
  | cons n l ih =>
    unfold admitTiu at e
    dsimp only at e
    split at e
    · exact ih h e
    · split at e
      · exact ih (State.allot_keeps h (by assumption)) e
      · cases e

theorem State.traceBytes_keeps {r s : State} {n : Nat} (h : Keeps r s) : Keeps r (s.traceBytes n).2 := by
  unfold State.traceBytes
  dsimp only
  split
  · exact State.drawFree_keeps h
  · exact h

theorem State.unroute_keeps {r s t : State} {n : Nat} (h : Keeps r s) (e : s.unroute n = some t) : Keeps r t := by
  unfold State.unroute at e
  dsimp only at e
  split at e
  · cases e
    exact State.setPe_keeps h
  · cases e

theorem State.unstart_keeps {r s t : State} {c : Cmd} (h : Keeps r s) (e : s.unstart c = some t) : Keeps r t := by
  unfold State.unstart at e
  repeat' split at e
  all_goals
    first
    | (cases e; done)
    | exact State.unroute_keeps h e
    | (injection e with e
       subst e
       repeat' (first
         | with_reducible assumption
         | with_reducible apply State.unMember_keeps
         | with_reducible apply State.unPort_keeps
         | exact Keeps.upd h rfl))

theorem State.acqAdmit_keeps {r s t : State} {n : Nat} (h : Keeps r s) (e : s.acqAdmit n = .ok t) : Keeps r t := by
  unfold State.acqAdmit at e
  split at e
  · cases e
  · rename_i s1 h1
    split at e
    · cases e
    · rename_i s2 h2
      cases e
      exact State.allot_keeps (State.declare_keeps h h1) h2

theorem ddcConfigure_keeps {r : State} {c : Cmd} {s : State} (h : Keeps r s) : VerbOut.Keeps r (ddcConfigure c s) := by
  unfold ddcConfigure
  try dsimp only
  repeat' (first
      | (with_reducible first
        | assumption | apply State.countSeen_keeps | apply State.satSkip_keeps | apply State.trigDdcRate_keeps
        | apply State.setDdc_keeps | apply State.ddcShadows_keeps | exact VerbOut.keeps_fail
        | apply VerbOut.keeps_done)
      | split)

theorem ddcSetDelay_keeps {r : State} {c : Cmd} {s : State} (h : Keeps r s) : VerbOut.Keeps r (ddcSetDelay c s) := by
  unfold ddcSetDelay
  try dsimp only
  repeat' (with_reducible first
        | assumption | apply State.setDdc_keeps | exact VerbOut.keeps_fail | apply VerbOut.keeps_done
        | apply VerbOut.keeps_running | apply VerbOut.keeps_ite)

theorem ddcEnable_keeps {r : State} {c : Cmd} {s : State} (h : Keeps r s) : VerbOut.Keeps r (ddcEnable c s) := by
  unfold ddcEnable
  try dsimp only
  repeat' (first
      | (with_reducible first
        | assumption | apply State.setDdc_keeps | exact VerbOut.keeps_fail | apply VerbOut.keeps_done
        | apply VerbOut.keeps_running)
      | (refine State.declare_keeps ?_ (by with_reducible assumption)) | split)

theorem ddcDisable_keeps {r : State} {c : Cmd} {s : State} (h : Keeps r s) : VerbOut.Keeps r (ddcDisable c s) := by
  unfold ddcDisable
  try dsimp only
  repeat' (first
      | (with_reducible first
        | assumption | apply State.ddcQuiesce_keeps | exact VerbOut.keeps_fail | apply VerbOut.keeps_done)
      | split)

theorem inputSetRange_keeps {r : State} {c : Cmd} {s : State} (h : Keeps r s) : VerbOut.Keeps r (inputSetRange c s)
    := by
  unfold inputSetRange
  try dsimp only
  repeat' (with_reducible first
        | assumption | apply State.setInput_keeps | apply State.switchRange_keeps | exact VerbOut.keeps_fail
        | apply VerbOut.keeps_done | apply VerbOut.keeps_running | apply VerbOut.keeps_ite)

theorem inputGetStatus_keeps {r : State} {temp : Nat} {c : Cmd} {s : State} (h : Keeps r s) : VerbOut.Keeps r
    (inputGetStatus temp c s) := by
  unfold inputGetStatus
  try dsimp only
  repeat' (with_reducible first
        | assumption | apply State.countRun_keeps | exact VerbOut.keeps_fail | apply VerbOut.keeps_data
        | apply VerbOut.keeps_ite)

theorem inputEnable_keeps {r : State} {c : Cmd} {s : State} (h : Keeps r s) : VerbOut.Keeps r (inputEnable c s) := by
  unfold inputEnable
  try dsimp only
  repeat' (first
      | (with_reducible first
        | assumption | apply State.sliceFailRunning_keeps | apply State.setInput_keeps
        | apply State.serveWaiting_keeps | exact VerbOut.keeps_fail | apply VerbOut.keeps_done
        | apply VerbOut.keeps_running | apply Keeps.foldl)
      | (intro _ _ _) | (refine State.declare_keeps ?_ (by with_reducible assumption)) | split)

theorem inputDisable_keeps {r : State} {c : Cmd} {s : State} (h : Keeps r s) : VerbOut.Keeps r (inputDisable c s) := by
  unfold inputDisable
  try dsimp only
  repeat' (first
      | (with_reducible first
        | assumption | apply State.inputQuiesce_keeps | exact VerbOut.keeps_fail | apply VerbOut.keeps_done)
      | split)

theorem ddcGetStatus_keeps {r : State} {codes : List Int} {c : Cmd} {s : State} (h : Keeps r s) : VerbOut.Keeps r
    (ddcGetStatus codes c s) := by
  unfold ddcGetStatus
  try dsimp only
  repeat' (with_reducible first
        | assumption | apply State.countSeen_keeps | apply State.countClamped_keeps | exact VerbOut.keeps_fail
        | apply VerbOut.keeps_data | apply VerbOut.keeps_ite)

theorem pressConfigure_keeps {r : State} {c : Cmd} {s : State} (h : Keeps r s) : VerbOut.Keeps r (pressConfigure c
    s) := by
  unfold pressConfigure
  try dsimp only
  repeat' (first
      | (with_reducible first
        | assumption | apply State.setJob_keeps | apply State.pipeFreed_keeps | exact VerbOut.keeps_fail
        | apply VerbOut.keeps_dataIfAsked | apply VerbOut.keeps_ite)
      | split)

theorem pressLoadWindow_keeps {r : State} {host : List Byte} {c : Cmd} {s : State} (h : Keeps r s) : VerbOut.Keeps r
    (pressLoadWindow host c s) := by
  unfold pressLoadWindow
  try dsimp only
  repeat' (first
      | (with_reducible first
        | exact VerbOut.keeps_fail | apply VerbOut.keeps_done)
      | ((with_reducible refine Keeps.upd ?_ rfl); first | with_reducible assumption | with_reducible exact Keeps.refl _ | with_reducible apply State.hostLoad_keeps | with_reducible apply Keeps.ite | with_reducible apply Keeps.foldl)
      | split)

theorem pressLoadPfb_keeps {r : State} {host : List Byte} {c : Cmd} {s : State} (h : Keeps r s) : VerbOut.Keeps r
    (pressLoadPfb host c s) := by
  unfold pressLoadPfb
  try dsimp only
  repeat' (first
      | (with_reducible first
        | assumption | apply State.setJob_keeps | apply State.hostLoad_keeps | exact VerbOut.keeps_fail
        | apply VerbOut.keeps_done)
      | split)

theorem pressMapChannels_keeps {r : State} {c : Cmd} {s : State} (h : Keeps r s) : VerbOut.Keeps r (pressMapChannels
    c s) := by
  unfold pressMapChannels
  try dsimp only
  repeat' (with_reducible first
        | assumption | apply State.setJob_keeps | exact VerbOut.keeps_fail | apply VerbOut.keeps_done
        | apply VerbOut.keeps_ite)

theorem pressEnable_keeps {r : State} {c : Cmd} {s : State} (h : Keeps r s) : VerbOut.Keeps r (pressEnable c s) := by
  unfold pressEnable
  try dsimp only
  repeat' (first
      | (with_reducible first
        | assumption | apply State.setJob_keeps | exact VerbOut.keeps_fail | exact VerbOut.keeps_wait
        | apply VerbOut.keeps_done | apply VerbOut.keeps_running)
      | (refine State.declare_keeps ?_ (by with_reducible assumption)) | split)

theorem pressDisable_keeps {r : State} {c : Cmd} {s : State} (h : Keeps r s) : VerbOut.Keeps r (pressDisable c s) := by
  unfold pressDisable
  try dsimp only
  repeat' (first
      | (with_reducible first
        | assumption | apply State.jobStop_keeps | exact VerbOut.keeps_fail | apply VerbOut.keeps_done
        | apply VerbOut.keeps_running)
      | split)

theorem specConfigureDetector_keeps {r : State} {c : Cmd} {s : State} (h : Keeps r s) : VerbOut.Keeps r
    (specConfigureDetector c s) := by
  unfold specConfigureDetector
  try dsimp only
  repeat' (with_reducible first
        | assumption | apply State.setTrace_keeps | exact VerbOut.keeps_fail | apply VerbOut.keeps_done
        | apply VerbOut.keeps_ite)

theorem specConfigureDensity_keeps {r : State} {c : Cmd} {s : State} (h : Keeps r s) : VerbOut.Keeps r
    (specConfigureDensity c s) := by
  unfold specConfigureDensity
  try dsimp only
  repeat' (with_reducible first
        | assumption | apply State.setPlane_keeps | apply State.setShadow_keeps | exact VerbOut.keeps_fail
        | apply VerbOut.keeps_done | apply VerbOut.keeps_ite)

theorem specClearDensity_keeps {r : State} {c : Cmd} {s : State} (h : Keeps r s) : VerbOut.Keeps r (specClearDensity
    c s) := by
  unfold specClearDensity
  try dsimp only
  repeat' (first
      | (with_reducible first
        | assumption | apply State.setPlane_keeps | exact VerbOut.keeps_fail | apply VerbOut.keeps_done
        | apply VerbOut.keeps_running | apply VerbOut.keeps_ite | apply Keeps.foldl)
      | (intro _ _ _))

theorem specReadTrace_keeps {r : State} {c : Cmd} {s : State} (h : Keeps r s) : VerbOut.Keeps r (specReadTrace c s)
    := by
  unfold specReadTrace
  try dsimp only
  repeat' (first
      | (with_reducible first
        | assumption | apply State.keepCellar_keeps | apply State.traceBytes_keeps | apply State.setPlane_keeps
        | exact VerbOut.keeps_fail | exact VerbOut.keeps_wait | apply VerbOut.keeps_done
        | apply VerbOut.keeps_data | apply VerbOut.keeps_ite)
      | exact Memory.writeBytes_wf _ _ | with_reducible apply Keeps.ite)

theorem specPeakSearch_keeps {r : State} {c : Cmd} {s : State} (h : Keeps r s) : VerbOut.Keeps r (specPeakSearch c
    s) := by
  unfold specPeakSearch
  try dsimp only
  repeat' (first
      | (with_reducible first
        | assumption | apply State.setTrace_keeps | apply State.undeclare_keeps | exact VerbOut.keeps_fail
        | apply VerbOut.keeps_done | apply VerbOut.keeps_data)
      | (refine State.declare_keeps ?_ (by with_reducible assumption)) | split)

theorem specEnable_keeps {r : State} {c : Cmd} {s : State} (h : Keeps r s) : VerbOut.Keeps r (specEnable c s) := by
  unfold specEnable
  try dsimp only
  repeat' (first
      | (with_reducible first
        | assumption | apply State.setTrace_keeps | apply State.setPlane_keeps | exact VerbOut.keeps_fail
        | apply VerbOut.keeps_done | apply VerbOut.keeps_running)
      | (refine State.declare_keeps ?_ (by with_reducible assumption)) | split)

theorem specDisable_keeps {r : State} {c : Cmd} {s : State} (h : Keeps r s) : VerbOut.Keeps r (specDisable c s) := by
  unfold specDisable
  try dsimp only
  repeat' (first
      | (with_reducible first
        | assumption | apply State.traceQuiesce_keeps | apply State.planeQuiesce_keeps | exact VerbOut.keeps_fail
        | apply VerbOut.keeps_done)
      | split)

theorem trigConfigure_keeps {r : State} {c : Cmd} {s : State} (h : Keeps r s) : VerbOut.Keeps r (trigConfigure c s)
    := by
  unfold trigConfigure
  try dsimp only
  repeat' (first
      | (with_reducible first
        | assumption | apply State.setShadow_keeps | apply State.setTunit_keeps | exact VerbOut.keeps_fail
        | apply VerbOut.keeps_done | apply VerbOut.keeps_ite | apply Keeps.foldl)
      | (intro _ _ _))

theorem trigLoadMask_keeps {r : State} {host : List Byte} {c : Cmd} {s : State} (h : Keeps r s) : VerbOut.Keeps r
    (trigLoadMask host c s) := by
  unfold trigLoadMask
  try dsimp only
  repeat' (first
      | (with_reducible first
        | exact VerbOut.keeps_fail | apply VerbOut.keeps_done)
      | ((with_reducible refine Keeps.upd ?_ rfl); first | with_reducible assumption | with_reducible exact Keeps.refl _ | with_reducible apply State.hostLoad_keeps | with_reducible apply Keeps.ite | with_reducible apply Keeps.foldl)
      | split)

theorem trigRoute_keeps {r : State} {c : Cmd} {s : State} (h : Keeps r s) : VerbOut.Keeps r (trigRoute c s) := by
  unfold trigRoute
  try dsimp only
  repeat' (first
      | (with_reducible first
        | exact VerbOut.keeps_fail | apply VerbOut.keeps_done | apply VerbOut.keeps_ite)
      | ((with_reducible refine Keeps.upd ?_ rfl); first | with_reducible assumption | with_reducible exact Keeps.refl _ | with_reducible apply State.setTunit_keeps | with_reducible apply Keeps.ite | with_reducible apply Keeps.foldl))

theorem trigArm_keeps {r : State} {c : Cmd} {s : State} (h : Keeps r s) : VerbOut.Keeps r (trigArm c s) := by
  unfold trigArm
  try dsimp only
  repeat' (first
      | (with_reducible first
        | assumption | apply State.trigArmNow_keeps | apply State.setTunit_keeps | exact VerbOut.keeps_fail
        | apply VerbOut.keeps_done | apply VerbOut.keeps_running)
      | (refine State.declare_keeps ?_ (by with_reducible assumption)) | split)

theorem trigDisarm_keeps {r : State} {c : Cmd} {s : State} (h : Keeps r s) : VerbOut.Keeps r (trigDisarm c s) := by
  unfold trigDisarm
  try dsimp only
  repeat' (first
      | (with_reducible first
        | assumption | apply State.trigQuiesce_keeps | exact VerbOut.keeps_fail | apply VerbOut.keeps_done
        | apply VerbOut.keeps_running)
      | split)

theorem trigForce_keeps {r : State} {c : Cmd} {s : State} (h : Keeps r s) : VerbOut.Keeps r (trigForce c s) := by
  unfold trigForce
  try dsimp only
  repeat' (with_reducible first
        | assumption | exact VerbOut.keeps_fail | apply VerbOut.keeps_running | apply VerbOut.keeps_ite)

theorem trigGetStatus_keeps {r : State} {c : Cmd} {s : State} (h : Keeps r s) : VerbOut.Keeps r (trigGetStatus c s)
    := by
  unfold trigGetStatus
  try dsimp only
  repeat' (with_reducible first
        | assumption | exact VerbOut.keeps_fail | apply VerbOut.keeps_data | apply VerbOut.keeps_ite)

theorem acqCreateContext_keeps {r : State} {c : Cmd} {s : State} (h : Keeps r s) : VerbOut.Keeps r (acqCreateContext
    c s) := by
  unfold acqCreateContext
  try dsimp only
  repeat' (first
      | (with_reducible first
        | assumption | apply State.setCtx_keeps | apply State.setShadow_keeps | exact VerbOut.keeps_fail
        | apply VerbOut.keeps_done | apply VerbOut.keeps_ite)
      | split)

theorem acqArm_keeps {r : State} {c : Cmd} {s : State} (h : Keeps r s) : VerbOut.Keeps r (acqArm c s) := by
  unfold acqArm
  try dsimp only
  repeat' (first
      | (with_reducible first
        | assumption | apply State.acqStartRecord_keeps | apply State.setCtx_keeps | exact VerbOut.keeps_fail
        | apply VerbOut.keeps_done | apply VerbOut.keeps_running)
      | (refine State.acqAdmit_keeps ?_ (by with_reducible assumption)) | split)

theorem acqStop_keeps {r : State} {destroy : Bool} {c : Cmd} {s : State} (h : Keeps r s) : VerbOut.Keeps r (acqStop
    destroy c s) := by
  unfold acqStop
  try dsimp only
  repeat' (first
      | (with_reducible first
        | exact VerbOut.keeps_fail | apply VerbOut.keeps_done | apply VerbOut.keeps_running
        | apply VerbOut.keeps_ite)
      | ((with_reducible refine Keeps.upd ?_ rfl); first | with_reducible assumption | with_reducible exact Keeps.refl _ | with_reducible apply State.acqQuiesce_keeps | with_reducible apply State.undeclare_keeps | with_reducible apply State.release_keeps | with_reducible apply Keeps.ite | with_reducible apply Keeps.foldl))

theorem acqLoadTestMask_keeps {r : State} {host : List Byte} {c : Cmd} {s : State} (h : Keeps r s) : VerbOut.Keeps r
    (acqLoadTestMask host c s) := by
  unfold acqLoadTestMask
  try dsimp only
  repeat' (first
      | (with_reducible first
        | assumption | apply State.setCtx_keeps | apply State.hostLoad_keeps | exact VerbOut.keeps_fail
        | apply VerbOut.keeps_done)
      | split)

theorem acqGetStatus_keeps {r : State} {c : Cmd} {s : State} (h : Keeps r s) : VerbOut.Keeps r (acqGetStatus c s) := by
  unfold acqGetStatus
  try dsimp only
  repeat' (with_reducible first
        | assumption | exact VerbOut.keeps_fail | apply VerbOut.keeps_data | apply VerbOut.keeps_ite)

theorem clockSetRef_keeps {r : State} {c : Cmd} {s : State} (h : Keeps r s) : VerbOut.Keeps r (clockSetRef c s) := by
  unfold clockSetRef
  try dsimp only
  repeat' (first
      | (with_reducible first
        | apply orElse_keeps | apply VerbOut.keeps_done)
      | ((with_reducible refine Keeps.upd ?_ rfl); first | with_reducible assumption | with_reducible exact Keeps.refl _ | with_reducible apply orElse_keeps | with_reducible apply State.ppsEdge_keeps | with_reducible apply State.loopUpdate_keeps | with_reducible apply State.drawFree_keeps | with_reducible apply Keeps.ite | with_reducible apply Keeps.foldl))

theorem clockSetTime_keeps {r : State} {c : Cmd} {s : State} (h : Keeps r s) : VerbOut.Keeps r (clockSetTime c s) := by
  unfold clockSetTime
  try dsimp only
  repeat' (first
      | (with_reducible first
        | assumption | apply State.bindTime_keeps | exact VerbOut.keeps_fail | exact VerbOut.keeps_wait
        | apply VerbOut.keeps_done)
      | split)

theorem clockSetOutput_keeps {r : State} {c : Cmd} {s : State} (h : Keeps r s) : VerbOut.Keeps r (clockSetOutput c
    s) := by
  unfold clockSetOutput
  try dsimp only
  repeat' (first
      | (with_reducible first
        | exact VerbOut.keeps_fail | apply VerbOut.keeps_done | apply VerbOut.keeps_running
        | apply VerbOut.keeps_ite)
      | ((with_reducible refine Keeps.upd ?_ rfl); first | with_reducible assumption | with_reducible exact Keeps.refl _ | with_reducible apply State.muteGen_keeps | with_reducible apply State.tune_keeps | with_reducible apply Keeps.ite | with_reducible apply Keeps.foldl))

theorem clockLoadRamp_keeps {r : State} {c : Cmd} {s : State} (h : Keeps r s) : VerbOut.Keeps r (clockLoadRamp c s)
    := by
  unfold clockLoadRamp
  try dsimp only
  repeat' (with_reducible first
        | assumption | apply State.setGen_keeps | exact VerbOut.keeps_fail | apply VerbOut.keeps_done
        | apply VerbOut.keeps_ite)

theorem clockStartRamp_keeps {r : State} {crossing : Option Nat} {c : Cmd} {s : State} (h : Keeps r s) :
    VerbOut.Keeps r (clockStartRamp crossing c s) := by
  unfold clockStartRamp
  try dsimp only
  repeat' (first
      | (with_reducible first
        | assumption | apply State.setGen_keeps | exact VerbOut.keeps_fail | exact VerbOut.keeps_wait
        | apply VerbOut.keeps_running)
      | split)

theorem clockStopRamp_keeps {r : State} {c : Cmd} {s : State} (h : Keeps r s) : VerbOut.Keeps r (clockStopRamp c s)
    := by
  unfold clockStopRamp
  try dsimp only
  repeat' (with_reducible first
        | assumption | apply State.rampDue_keeps | apply State.setGen_keeps | exact VerbOut.keeps_fail
        | apply VerbOut.keeps_done | apply VerbOut.keeps_running | apply VerbOut.keeps_ite)

theorem clockSetVectorClock_keeps {r : State} {c : Cmd} {s : State} (h : Keeps r s) : VerbOut.Keeps r
    (clockSetVectorClock c s) := by
  unfold clockSetVectorClock
  try dsimp only
  repeat' (with_reducible first
        | assumption | apply State.muteGen_keeps | apply State.tune_keeps | exact VerbOut.keeps_fail
        | exact VerbOut.keeps_wait | apply VerbOut.keeps_done | apply VerbOut.keeps_running
        | apply VerbOut.keeps_ite)

theorem patDefineSegment_keeps {r : State} {c : Cmd} {s : State} (h : Keeps r s) : VerbOut.Keeps r (patDefineSegment
    c s) := by
  unfold patDefineSegment
  try dsimp only
  repeat' (first
      | (with_reducible first
        | exact VerbOut.keeps_fail | apply VerbOut.keeps_done)
      | ((with_reducible refine Keeps.upd ?_ rfl); first | with_reducible assumption | with_reducible exact Keeps.refl _ | with_reducible apply State.setSeg_keeps | with_reducible apply Keeps.ite | with_reducible apply Keeps.foldl)
      | split)

theorem patWriteSegment_keeps {r : State} {host : List Byte} {c : Cmd} {s : State} (h : Keeps r s) : VerbOut.Keeps r
    (patWriteSegment host c s) := by
  unfold patWriteSegment
  try dsimp only
  repeat' (first
      | (with_reducible first
        | assumption | apply State.hostLoad_keeps | apply State.keepCellar_keeps | apply State.writeSlices_keeps
        | apply State.setSeg_keeps | exact VerbOut.keeps_fail | apply VerbOut.keeps_done
        | apply VerbOut.keeps_running | apply VerbOut.keeps_ite)
      | exact Memory.writeBytes_wf _ _ | split)

theorem patLoadTable_keeps {r : State} {c : Cmd} {s : State} (h : Keeps r s) : VerbOut.Keeps r (patLoadTable c s) := by
  unfold patLoadTable
  try dsimp only
  repeat' (first
      | (with_reducible first
        | assumption | apply State.setSeg_keeps | exact VerbOut.keeps_fail | apply VerbOut.keeps_done
        | apply Keeps.foldl)
      | (intro _ _ _) | split)

theorem patDefineSite_keeps {r : State} {c : Cmd} {s : State} (h : Keeps r s) : VerbOut.Keeps r (patDefineSite c s)
    := by
  unfold patDefineSite
  try dsimp only
  repeat' (first
      | (with_reducible first
        | assumption | apply State.sendSiteMap_keeps | apply State.setSite_keeps | apply State.siteShadows_keeps
        | apply State.release_keeps | apply State.finishPatStops_keeps | exact VerbOut.keeps_fail
        | apply VerbOut.keeps_done)
      | split)

theorem patLoadTimesets_keeps {r : State} {host : List Byte} {c : Cmd} {s : State} (h : Keeps r s) : VerbOut.Keeps r
    (patLoadTimesets host c s) := by
  unfold patLoadTimesets
  try dsimp only
  repeat' (with_reducible first
        | assumption | apply State.hostLoad_keeps | apply State.setSite_keeps | exact VerbOut.keeps_fail
        | apply VerbOut.keeps_done | apply VerbOut.keeps_ite)

theorem patStart_keeps {r : State} {c : Cmd} {s : State} (h : Keeps r s) : VerbOut.Keeps r (patStart c s) := by
  unfold patStart
  try dsimp only
  repeat' (first
      | (with_reducible first
        | assumption | apply State.setSite_keeps | apply State.siteShadows_keeps | apply State.sendTimesets_keeps
        | apply State.sendStart_keeps | apply State.drawFree_keeps | exact VerbOut.keeps_fail
        | exact VerbOut.keeps_wait | apply VerbOut.keeps_running | apply Keeps.foldl)
      | (intro _ _ _) | (refine State.admitSites_keeps ?_ (by with_reducible assumption))
      | (refine State.declare_keeps ?_ (by with_reducible assumption)) | split)

theorem patStop_keeps {r : State} {vecs : List (Nat × Nat)} {c : Cmd} {s : State} (h : Keeps r s) : VerbOut.Keeps r
    (patStop vecs c s) := by
  unfold patStop
  try dsimp only
  repeat' (first
      | (with_reducible first
        | assumption | apply State.parkLater_keeps | apply State.settleMatches_keeps | apply State.setSite_keeps
        | apply State.release_keeps | exact VerbOut.keeps_fail | apply VerbOut.keeps_done
        | apply VerbOut.keeps_running | apply VerbOut.keeps_ite | apply Keeps.ite | apply Keeps.foldl)
      | (intro _ _ _))

theorem patRequestJump_keeps {r : State} {vecs : List (Nat × Nat)} {c : Cmd} {s : State} (h : Keeps r s) :
    VerbOut.Keeps r (patRequestJump vecs c s) := by
  unfold patRequestJump
  try dsimp only
  repeat' (first
      | (with_reducible first
        | assumption | apply State.siteAsk_keeps | exact VerbOut.keeps_fail | apply VerbOut.keeps_done
        | apply VerbOut.keeps_ite | apply Keeps.foldl)
      | (intro _ _ _))

theorem patGetResult_keeps {r : State} {index : Nat} {c : Cmd} {s : State} (h : Keeps r s) : VerbOut.Keeps r
    (patGetResult index c s) := by
  unfold patGetResult
  try dsimp only
  repeat' (with_reducible first
        | assumption | apply State.settleMatches_keeps | exact VerbOut.keeps_fail | apply VerbOut.keeps_data
        | apply VerbOut.keeps_ite)

theorem stimDefineSegment_keeps {r : State} {c : Cmd} {s : State} (h : Keeps r s) : VerbOut.Keeps r
    (stimDefineSegment c s) := by
  unfold stimDefineSegment
  try dsimp only
  repeat' (first
      | (with_reducible first
        | assumption | apply State.setStim_keeps | exact VerbOut.keeps_fail | apply VerbOut.keeps_done | rfl)
      | split)

theorem stimWriteSegment_keeps {r : State} {host : List Byte} {c : Cmd} {s : State} (h : Keeps r s) :
    VerbOut.Keeps r (stimWriteSegment host c s) := by
  unfold stimWriteSegment
  extract_lets p n o count first addr cellar x g bytes s1 y
  refine VerbOut.keeps_ite trivial (VerbOut.keeps_ite trivial (VerbOut.keeps_ite trivial
    (VerbOut.keeps_ite trivial (VerbOut.keeps_ite trivial ?_))))
  have h1 : Keeps r s1 := State.hostLoad_keeps h
  exact VerbOut.keeps_ite
    (VerbOut.keeps_running (State.setStim_keeps_of (State.keepWrite_keeps h1) fun e => State.stim_wf o (h.mem e)))
    (VerbOut.keeps_running (State.setStim_keeps_of h1 fun e => Memory.writeBytes_wf _ _ (State.stim_wf o (h.mem e))))

theorem stimLoadTable_keeps {r : State} {c : Cmd} {s : State} (h : Keeps r s) : VerbOut.Keeps r (stimLoadTable c s)
    := by
  unfold stimLoadTable
  try dsimp only
  repeat' (first
      | (with_reducible first
        | assumption | apply State.setStim_keeps | exact VerbOut.keeps_fail | apply VerbOut.keeps_done | rfl)
      | split)

theorem stimStart_keeps {r : State} {c : Cmd} {s : State} (h : Keeps r s) : VerbOut.Keeps r (stimStart c s) := by
  unfold stimStart
  try dsimp only
  repeat' (first
      | (with_reducible first
        | assumption | apply State.setStim_keeps | apply State.stimShadows_keeps | exact VerbOut.keeps_fail
        | apply VerbOut.keeps_data | apply VerbOut.keeps_running | rfl | apply Keeps.foldl)
      | (intro _ _ _) | (refine admitStim_keeps ?_ (by with_reducible assumption))
      | (refine State.declare_keeps ?_ (by with_reducible assumption)) | split)

theorem stimStop_keeps {r : State} {c : Cmd} {s : State} (h : Keeps r s) : VerbOut.Keeps r (stimStop c s) := by
  unfold stimStop
  try dsimp only
  repeat' (first
      | (with_reducible first
        | assumption | apply State.stimQuiesce_keeps | exact VerbOut.keeps_fail | apply VerbOut.keeps_done
        | apply VerbOut.keeps_running | apply VerbOut.keeps_ite | apply Keeps.foldl)
      | (intro _ _ _))

theorem stimRequestJump_keeps {r : State} {c : Cmd} {s : State} (h : Keeps r s) : VerbOut.Keeps r (stimRequestJump c
    s) := by
  unfold stimRequestJump
  try dsimp only
  repeat' (first
      | (with_reducible first
        | assumption | apply State.stimAsk_keeps | exact VerbOut.keeps_fail | apply VerbOut.keeps_done
        | apply VerbOut.keeps_ite | apply Keeps.foldl)
      | (intro _ _ _))

theorem cellarAllocate_keeps {r : State} {c : Cmd} {s : State} (h : Keeps r s) : VerbOut.Keeps r (cellarAllocate c
    s) := by
  unfold cellarAllocate
  try dsimp only
  repeat' (first
      | (with_reducible first
        | exact VerbOut.keeps_fail | apply VerbOut.keeps_done | apply VerbOut.keeps_running)
      | ((with_reducible refine Keeps.upd ?_ rfl); first | with_reducible assumption | with_reducible exact Keeps.refl _ | with_reducible apply Keeps.ite | with_reducible apply Keeps.foldl)
      | split)

theorem cellarGetStatus_keeps {r : State} {temps : List Int} {c : Cmd} {s : State} (h : Keeps r s) : VerbOut.Keeps r
    (cellarGetStatus temps c s) := by
  unfold cellarGetStatus
  try dsimp only
  repeat' (with_reducible first
        | assumption | exact VerbOut.keeps_fail | apply VerbOut.keeps_data | apply VerbOut.keeps_ite)

theorem cellarSetOperatingPoint_keeps {r : State} {c : Cmd} {s : State} (h : Keeps r s) : VerbOut.Keeps r
    (cellarSetOperatingPoint c s) := by
  unfold cellarSetOperatingPoint
  try dsimp only
  repeat' (with_reducible first
        | assumption | apply State.setCell_keeps | apply State.setStack_keeps | exact VerbOut.keeps_fail
        | exact VerbOut.keeps_wait | apply VerbOut.keeps_done | apply VerbOut.keeps_running
        | apply VerbOut.keeps_ite | apply Keeps.ite)

theorem vineConfigure_keeps {r : State} {c : Cmd} {s : State} (h : Keeps r s) : VerbOut.Keeps r (vineConfigure c s)
    := by
  unfold vineConfigure
  try dsimp only
  repeat' (first
      | (with_reducible first
        | exact VerbOut.keeps_fail | apply VerbOut.keeps_done | apply VerbOut.keeps_running)
      | ((with_reducible refine Keeps.upd ?_ rfl); first | with_reducible assumption | with_reducible exact Keeps.refl _ | with_reducible apply State.setVine_keeps | with_reducible apply State.undeclare_keeps | with_reducible apply State.loopUpdate_keeps | with_reducible apply Keeps.ite | with_reducible apply Keeps.foldl)
      | (refine State.declare_keeps ?_ (by with_reducible assumption)) | split)

theorem vineCalibrateSkew_keeps {r : State} {c : Cmd} {s : State} (h : Keeps r s) : VerbOut.Keeps r
    (vineCalibrateSkew c s) := by
  unfold vineCalibrateSkew
  try dsimp only
  repeat' (with_reducible first
        | assumption | apply State.setVine_keeps | exact VerbOut.keeps_fail | apply VerbOut.keeps_running
        | apply VerbOut.keeps_ite)

theorem vineScheduleSync_keeps {r : State} {c : Cmd} {s : State} (h : Keeps r s) : VerbOut.Keeps r (vineScheduleSync
    c s) := by
  unfold vineScheduleSync
  try dsimp only
  repeat' (with_reducible first
        | assumption | apply State.setVine_keeps | exact VerbOut.keeps_fail | apply VerbOut.keeps_done
        | apply VerbOut.keeps_ite)

theorem tiuConfigure_keeps {r : State} {c : Cmd} {s : State} (h : Keeps r s) : VerbOut.Keeps r (tiuConfigure c s) := by
  unfold tiuConfigure
  try dsimp only
  repeat' (with_reducible first
        | assumption | apply State.setTiu_keeps | exact VerbOut.keeps_fail | exact VerbOut.keeps_wait
        | apply VerbOut.keeps_done | apply VerbOut.keeps_ite)

theorem tiuStart_keeps {r : State} {c : Cmd} {s : State} (h : Keeps r s) : VerbOut.Keeps r (tiuStart c s) := by
  unfold tiuStart
  try dsimp only
  repeat' (first
      | (with_reducible first
        | assumption | apply State.setTiu_keeps | exact VerbOut.keeps_fail | exact VerbOut.keeps_wait
        | apply VerbOut.keeps_running | apply Keeps.foldl)
      | (intro _ _ _) | (refine admitTiu_keeps ?_ (by with_reducible assumption))
      | (refine State.declare_keeps ?_ (by with_reducible assumption)) | split)

theorem tiuStop_keeps {r : State} {c : Cmd} {s : State} (h : Keeps r s) : VerbOut.Keeps r (tiuStop c s) := by
  unfold tiuStop
  try dsimp only
  repeat' (first
      | (with_reducible first
        | assumption | apply State.tiuQuiesce_keeps | exact VerbOut.keeps_fail | exact VerbOut.keeps_wait
        | apply VerbOut.keeps_done | apply VerbOut.keeps_running | apply Keeps.foldl)
      | split)

theorem tiuReadStats_keeps {r : State} {c : Cmd} {s : State} (h : Keeps r s) : VerbOut.Keeps r (tiuReadStats c s) := by
  unfold tiuReadStats
  try dsimp only
  repeat' (with_reducible first
        | assumption | exact VerbOut.keeps_fail | exact VerbOut.keeps_wait | apply VerbOut.keeps_data
        | apply VerbOut.keeps_ite)

theorem tiuGetStatus_keeps {r : State} {highMv lowMv : Nat} {c : Cmd} {s : State} (h : Keeps r s) : VerbOut.Keeps r
    (tiuGetStatus highMv lowMv c s) := by
  unfold tiuGetStatus
  try dsimp only
  repeat' (with_reducible first
        | assumption | exact VerbOut.keeps_fail | apply VerbOut.keeps_data | apply VerbOut.keeps_ite)

theorem monConfigureComparator_keeps {r : State} {c : Cmd} {s : State} (h : Keeps r s) : VerbOut.Keeps r
    (monConfigureComparator c s) := by
  unfold monConfigureComparator
  try dsimp only
  repeat' (first
      | (with_reducible first
        | assumption | apply State.setComp_keeps | apply State.undeclare_keeps | exact VerbOut.keeps_fail
        | apply VerbOut.keeps_running)
      | (refine State.declare_keeps ?_ (by with_reducible assumption)) | split)

theorem monLoadSequence_keeps {r : State} {c : Cmd} {s : State} (h : Keeps r s) : VerbOut.Keeps r (monLoadSequence c
    s) := by
  unfold monLoadSequence
  try dsimp only
  repeat' (with_reducible first
        | assumption | apply State.setMon_keeps | exact VerbOut.keeps_fail | apply VerbOut.keeps_done
        | apply VerbOut.keeps_ite)

theorem monStartSequence_keeps {r : State} {c : Cmd} {s : State} (h : Keeps r s) : VerbOut.Keeps r (monStartSequence
    c s) := by
  unfold monStartSequence
  try dsimp only
  repeat' (first
      | (with_reducible first
        | assumption | exact VerbOut.keeps_fail | apply VerbOut.keeps_done)
      | (refine State.allot_keeps ?_ (by with_reducible assumption))
      | (refine State.declare_keeps ?_ (by with_reducible assumption)) | (cases ‹some (_ : State) = some _›)
      | split at ‹(_ : Option State) = some _› | split)

theorem monStopSequence_keeps {r : State} {c0 : Cmd} {s : State} (h : Keeps r s) : VerbOut.Keeps r (monStopSequence
    c0 s) := by
  unfold monStopSequence
  try dsimp only
  repeat' (with_reducible first
        | assumption | apply State.setMon_keeps | apply State.monRest_keeps | apply VerbOut.keeps_done
        | apply VerbOut.keeps_running | apply VerbOut.keeps_ite)

theorem monRead_keeps {r : State} {c : Cmd} {s : State} (h : Keeps r s) : VerbOut.Keeps r (monRead c s) := by
  unfold monRead
  try dsimp only
  repeat' (with_reducible first
        | assumption | exact VerbOut.keeps_fail | apply VerbOut.keeps_data | apply VerbOut.keeps_ite)

theorem monSetReference_keeps {r : State} {c : Cmd} {s : State} (h : Keeps r s) : VerbOut.Keeps r (monSetReference c
    s) := by
  unfold monSetReference
  try dsimp only
  repeat' (first
      | (with_reducible first
        | assumption | apply State.setMon_keeps | apply State.undeclare_keeps | exact VerbOut.keeps_fail
        | apply VerbOut.keeps_done)
      | (refine State.declare_keeps ?_ (by with_reducible assumption)) | split)

theorem flowCreate_keeps {r : State} {c : Cmd} {s : State} (h : Keeps r s) : VerbOut.Keeps r (flowCreate c s) := by
  unfold flowCreate
  try dsimp only
  repeat' (with_reducible first
        | assumption | apply State.setFlow_keeps | exact VerbOut.keeps_fail | apply VerbOut.keeps_done
        | apply VerbOut.keeps_ite)

theorem flowEnable_keeps {r : State} {c : Cmd} {s : State} (h : Keeps r s) : VerbOut.Keeps r (flowEnable c s) := by
  unfold flowEnable
  try dsimp only
  repeat' (first
      | (with_reducible first
        | assumption | apply State.setShadowBit_keeps | apply State.setFlow_keeps | apply State.flowStart_keeps
        | exact VerbOut.keeps_fail | exact VerbOut.keeps_wait | apply VerbOut.keeps_done)
      | (refine State.allot_keeps ?_ (by with_reducible assumption))
      | (refine State.declare_keeps ?_ (by with_reducible assumption)) | (cases ‹some (_ : State) = some _›)
      | (cases ‹(none : Option State) = some _›) | split at ‹(_ : Option State) = some _› | split)

theorem State.flowStop_keeps {r : State} {s : State} {c : Cmd} {f reason : Nat} (h : Keeps r s) : VerbOut.Keeps r
    (State.flowStop s c f reason) := by
  unfold State.flowStop
  try dsimp only
  repeat' (with_reducible first
        | assumption | apply State.markStarted_keeps | apply State.flowQuiesce_keeps | apply VerbOut.keeps_running)

theorem flowDisable_keeps {r : State} {destroy : Bool} {c : Cmd} {s : State} (h : Keeps r s) : VerbOut.Keeps r
    (flowDisable destroy c s) := by
  unfold flowDisable
  try dsimp only
  repeat' (first
      | (with_reducible first
        | assumption | apply State.flowStop_keeps | exact VerbOut.keeps_fail | exact VerbOut.keeps_wait
        | apply VerbOut.keeps_done | apply VerbOut.keeps_running)
      | split)

theorem flowPostDescriptors_keeps {r : State} {c : Cmd} {s : State} (h : Keeps r s) : VerbOut.Keeps r
    (flowPostDescriptors c s) := by
  unfold flowPostDescriptors
  try dsimp only
  repeat' (with_reducible first
        | assumption | apply State.setFlow_keeps | exact VerbOut.keeps_fail | exact VerbOut.keeps_wait
        | apply VerbOut.keeps_done | apply VerbOut.keeps_ite)

theorem flowGetStatus_keeps {r : State} {c : Cmd} {s : State} (h : Keeps r s) : VerbOut.Keeps r (flowGetStatus c s)
    := by
  unfold flowGetStatus
  try dsimp only
  repeat' (with_reducible first
        | assumption | exact VerbOut.keeps_fail | apply VerbOut.keeps_data | apply VerbOut.keeps_ite)

theorem streamConfigurePort_keeps {r : State} {c : Cmd} {s : State} (h : Keeps r s) : VerbOut.Keeps r
    (streamConfigurePort c s) := by
  unfold streamConfigurePort
  try dsimp only
  repeat' (first
      | (with_reducible first
        | assumption | apply State.setPort_keeps | apply State.undeclare_keeps | exact VerbOut.keeps_fail
        | apply VerbOut.keeps_done | apply VerbOut.keeps_running)
      | (refine State.declare_keeps ?_ (by with_reducible assumption)) | split)

theorem streamBindFlow_keeps {r : State} {c : Cmd} {s : State} (h : Keeps r s) : VerbOut.Keeps r (streamBindFlow c
    s) := by
  unfold streamBindFlow
  try dsimp only
  repeat' (with_reducible first
        | assumption | apply State.setFlow_keeps | exact VerbOut.keeps_fail | apply VerbOut.keeps_done
        | apply VerbOut.keeps_ite)

theorem streamGetStatus_keeps {r : State} {c : Cmd} {s : State} (h : Keeps r s) : VerbOut.Keeps r (streamGetStatus c
    s) := by
  unfold streamGetStatus
  try dsimp only
  repeat' (with_reducible first
        | assumption | exact VerbOut.keeps_fail | apply VerbOut.keeps_data | apply VerbOut.keeps_ite)

theorem dispSetTiming_keeps {r : State} {c : Cmd} {s : State} (h : Keeps r s) : VerbOut.Keeps r (dispSetTiming c s)
    := by
  unfold dispSetTiming
  try dsimp only
  repeat' (with_reducible first
        | assumption | apply State.setDisp_keeps | exact VerbOut.keeps_fail | apply VerbOut.keeps_done
        | apply VerbOut.keeps_ite)

theorem dispSetGenlock_keeps {r : State} {c : Cmd} {s : State} (h : Keeps r s) : VerbOut.Keeps r (dispSetGenlock c
    s) := by
  unfold dispSetGenlock
  try dsimp only
  repeat' (with_reducible first
        | assumption | apply State.setDisp_keeps | exact VerbOut.keeps_fail | apply VerbOut.keeps_done
        | apply VerbOut.keeps_running | apply VerbOut.keeps_ite)

theorem dispConfigureLayer_keeps {r : State} {image : List Byte} {c : Cmd} {s : State} (h : Keeps r s) :
    VerbOut.Keeps r (dispConfigureLayer image c s) := by
  unfold dispConfigureLayer
  try dsimp only
  repeat' (first
      | (with_reducible first
        | assumption | apply State.hostLoad_keeps | apply State.setDisp_keeps | exact VerbOut.keeps_fail
        | apply VerbOut.keeps_done | apply VerbOut.keeps_running)
      | (refine State.allot_keeps ?_ (by with_reducible assumption)) | (cases ‹some (_ : State) = some _›)
      | split at ‹(_ : Option State) = some _› | split)

theorem dispSetPalette_keeps {r : State} {c : Cmd} {s : State} (h : Keeps r s) : VerbOut.Keeps r (dispSetPalette c
    s) := by
  unfold dispSetPalette
  try dsimp only
  repeat' (with_reducible first
        | assumption | apply State.setDisp_keeps | exact VerbOut.keeps_fail | apply VerbOut.keeps_done
        | apply VerbOut.keeps_running | apply VerbOut.keeps_ite)

theorem dispEnable_keeps {r : State} {pixelHz : Nat} {edid : List Byte} {c : Cmd} {s : State} (h : Keeps r s) :
    VerbOut.Keeps r (dispEnable pixelHz edid c s) := by
  unfold dispEnable
  try dsimp only
  repeat' (first
      | (with_reducible first
        | assumption | apply State.setDisp_keeps | exact VerbOut.keeps_fail | apply VerbOut.keeps_done
        | apply VerbOut.keeps_data | apply VerbOut.keeps_running)
      | (refine State.declare_keeps ?_ (by with_reducible assumption))
      | (refine State.allot_keeps ?_ (by with_reducible assumption)) | (cases ‹some (_ : State) = some _›)
      | split at ‹(_ : Option State) = some _› | split)

theorem dispDisable_keeps {r : State} {c0 : Cmd} {s : State} (h : Keeps r s) : VerbOut.Keeps r (dispDisable c0 s) := by
  unfold dispDisable
  try dsimp only
  repeat' (first
      | (with_reducible first
        | assumption | apply State.dispRest_keeps | apply State.setDisp_keeps | apply VerbOut.keeps_done
        | apply VerbOut.keeps_running)
      | split)

theorem sorrelLoadKernel_keeps {r : State} {host : List Byte} {c : Cmd} {s : State} (h : Keeps r s) : VerbOut.Keeps
    r (sorrelLoadKernel host c s) := by
  unfold sorrelLoadKernel
  try dsimp only
  repeat' (first
      | (with_reducible first
        | assumption | apply State.hostLoad_keeps | apply State.setCore_keeps | exact VerbOut.keeps_fail
        | apply VerbOut.keeps_done | apply Keeps.foldl)
      | (intro _ _ _) | split)

theorem sorrelBind_keeps {r : State} {c : Cmd} {s : State} (h : Keeps r s) : VerbOut.Keeps r (sorrelBind c s) := by
  unfold sorrelBind
  try dsimp only
  repeat' (with_reducible first
        | assumption | apply State.setCore_keeps | exact VerbOut.keeps_fail | apply VerbOut.keeps_done
        | apply VerbOut.keeps_ite)

theorem sorrelStart_keeps {r : State} {c : Cmd} {s : State} (h : Keeps r s) : VerbOut.Keeps r (sorrelStart c s) := by
  unfold sorrelStart
  try dsimp only
  repeat' (first
      | (with_reducible first
        | assumption | apply State.coreStart_keeps | apply State.setCore_keeps | exact VerbOut.keeps_fail
        | apply VerbOut.keeps_done | apply VerbOut.keeps_running)
      | (refine State.allot_keeps ?_ (by with_reducible assumption))
      | (refine State.declare_keeps ?_ (by with_reducible assumption)) | split)

theorem sorrelStop_keeps {r : State} {c : Cmd} {s : State} (h : Keeps r s) : VerbOut.Keeps r (sorrelStop c s) := by
  unfold sorrelStop
  try dsimp only
  repeat' (first
      | (with_reducible first
        | assumption | apply State.setCore_keeps | apply State.kernelEnd_keeps | exact VerbOut.keeps_fail
        | apply VerbOut.keeps_done | apply VerbOut.keeps_running)
      | split)

theorem sorrelGetStatus_keeps {r : State} {c : Cmd} {s : State} (h : Keeps r s) : VerbOut.Keeps r (sorrelGetStatus c
    s) := by
  unfold sorrelGetStatus
  try dsimp only
  repeat' (with_reducible first
        | assumption | exact VerbOut.keeps_fail | apply VerbOut.keeps_data | apply VerbOut.keeps_ite)

theorem budgetSetPowerCap_keeps {r : State} {c : Cmd} {s : State} (h : Keeps r s) : VerbOut.Keeps r
    (budgetSetPowerCap c s) := by
  unfold budgetSetPowerCap
  try dsimp only
  repeat' (with_reducible first
        | assumption | apply State.setBud_keeps | exact VerbOut.keeps_fail | apply VerbOut.keeps_running
        | apply VerbOut.keeps_ite)

theorem budgetGrant_keeps {r : State} {c : Cmd} {s : State} (h : Keeps r s) : VerbOut.Keeps r (budgetGrant c s) := by
  unfold budgetGrant
  try dsimp only
  repeat' (with_reducible first
        | assumption | apply State.setBud_keeps | exact VerbOut.keeps_fail | exact VerbOut.keeps_wait
        | apply VerbOut.keeps_data | apply VerbOut.keeps_running | apply VerbOut.keeps_ite)

theorem ownerStop_keeps {r : State} {c : Cmd} {kind obj : Nat} {s : State} (h : Keeps r s) : VerbOut.Keeps r
    (ownerStop c kind obj s) := by
  unfold ownerStop
  try dsimp only
  repeat' (first
      | (with_reducible first
        | assumption | apply acqStop_keeps | apply State.flowStop_keeps | apply patStop_keeps
        | apply sorrelStop_keeps | apply dispDisable_keeps | apply stimStop_keeps | apply State.setFlow_keeps
        | exact VerbOut.keeps_wait | apply VerbOut.keeps_done)
      | split)

theorem budgetRevoke_keeps {r : State} {c : Cmd} {s : State} (h : Keeps r s) : VerbOut.Keeps r (budgetRevoke c s) := by
  unfold budgetRevoke
  dsimp only
  refine VerbOut.keeps_ite trivial (VerbOut.keeps_ite trivial (VerbOut.keeps_ite trivial ?_))
  have hk := ownerStop_keeps (c := c) (kind := u8 c.payload 0) (obj := u32 c.payload 4) h
  split
  · rename_i e
    rw [e] at hk
    exact State.release_keeps hk
  · exact hk

theorem budgetReadLedger_keeps {r : State} {c : Cmd} {s : State} (h : Keeps r s) : VerbOut.Keeps r (budgetReadLedger
    c s) := by
  unfold budgetReadLedger
  try dsimp only
  repeat' (with_reducible first
        | assumption | apply State.setBud_keeps | exact VerbOut.keeps_fail | apply VerbOut.keeps_data
        | apply VerbOut.keeps_ite)

theorem cellarFree_keeps {r : State} {c : Cmd} {s : State} (h : Keeps r s) : VerbOut.Keeps r (cellarFree c s) := by
  unfold cellarFree
  try dsimp only
  repeat' (first
      | (with_reducible first
        | exact VerbOut.keeps_fail | apply VerbOut.keeps_done | apply VerbOut.keeps_running)
      | ((with_reducible refine Keeps.upd ?_ rfl); first | with_reducible assumption | with_reducible exact Keeps.refl _ | with_reducible apply State.grantBursts_keeps | with_reducible apply State.setRegion_keeps | with_reducible apply Keeps.ite | with_reducible apply Keeps.foldl)
      | split)

theorem trellisDiscover_keeps {r : State} {c : Cmd} {s : State} (h : Keeps r s) : VerbOut.Keeps r (trellisDiscover c
    s) := by
  unfold trellisDiscover
  try dsimp only
  repeat' (first
      | (with_reducible first
        | assumption | apply State.peTrain_keeps | exact VerbOut.keeps_fail | apply VerbOut.keeps_running
        | apply Keeps.foldl)
      | (refine State.declare_keeps ?_ (by with_reducible assumption)) | split)

theorem trellisGetStatus_keeps {r : State} {c : Cmd} {s : State} (h : Keeps r s) : VerbOut.Keeps r (trellisGetStatus
    c s) := by
  unfold trellisGetStatus
  try dsimp only
  repeat' (first
      | (with_reducible first
        | assumption | apply State.drawFree_keeps | apply State.peSendR_keeps | exact VerbOut.keeps_fail
        | apply VerbOut.keeps_data | apply VerbOut.keeps_running | apply VerbOut.keeps_ite | apply Keeps.foldl)
      | (intro _ _ _))

theorem trellisConfigureCapture_keeps {r : State} {c : Cmd} {s : State} (h : Keeps r s) : VerbOut.Keeps r
    (trellisConfigureCapture c s) := by
  unfold trellisConfigureCapture
  try dsimp only
  repeat' (first
      | (with_reducible first
        | assumption | apply State.setSite_keeps | exact VerbOut.keeps_fail | apply VerbOut.keeps_done)
      | (refine State.allot_keeps ?_ (by with_reducible assumption)) | (cases ‹some (_ : State) = some _›)
      | split at ‹(_ : Option State) = some _› | split)

theorem trellisDeskew_keeps {r : State} {c : Cmd} {s : State} (h : Keeps r s) : VerbOut.Keeps r (trellisDeskew c s)
    := by
  unfold trellisDeskew
  try dsimp only
  repeat' (first
      | (with_reducible first
        | assumption | apply State.measureAll_keeps | apply State.sendRoute_keeps | exact VerbOut.keeps_fail
        | exact VerbOut.keeps_wait | apply VerbOut.keeps_dataIfAsked | apply VerbOut.keeps_running)
      | split)

theorem sysQueryReady_keeps {r : State} {c : Cmd} {s : State} (h : Keeps r s) : VerbOut.Keeps r (sysQueryReady c s)
    := by
  unfold sysQueryReady
  try dsimp only
  repeat' (with_reducible first
        | assumption | exact VerbOut.keeps_fail | exact VerbOut.keeps_wait | apply VerbOut.keeps_done
        | apply VerbOut.keeps_ite)

theorem sysGetInfo_keeps {r : State} {c : Cmd} {s : State} (h : Keeps r s) : VerbOut.Keeps r (sysGetInfo c s) := by
  unfold sysGetInfo
  try dsimp only
  repeat' (with_reducible first
        | assumption | exact VerbOut.keeps_fail | apply VerbOut.keeps_data | apply VerbOut.keeps_ite)

theorem sysNop_keeps {r : State} {c0 : Cmd} {s : State} (h : Keeps r s) : VerbOut.Keeps r (sysNop c0 s) := by
  unfold sysNop
  try dsimp only
  repeat' (with_reducible first
        | assumption | apply VerbOut.keeps_done)

theorem sysResetFunction_keeps {r : State} {c : Cmd} {s : State} (h : Keeps r s) : VerbOut.Keeps r (sysResetFunction
    c s) := by
  unfold sysResetFunction
  try dsimp only
  repeat' (first
      | (with_reducible first
        | assumption | apply State.clearReady_keeps | apply State.forgive_keeps | apply State.markStarted_keeps
        | apply State.resetQuiesce_keeps | apply State.restDone_keeps | exact VerbOut.keeps_fail
        | apply VerbOut.keeps_running | apply Keeps.foldl)
      | (intro _ _ _) | split)

theorem idScan_keeps {r : State} {mems : List (Nat × List Byte)} {stuck : List Nat} {c : Cmd} {s : State} (h : Keeps
    r s) : VerbOut.Keeps r (idScan mems stuck c s) := by
  unfold idScan
  try dsimp only
  repeat' (with_reducible first
        | assumption | apply State.scanBuses_keeps | apply State.writeResult_keeps | exact VerbOut.keeps_fail
        | apply VerbOut.keeps_done | apply VerbOut.keeps_ite | apply Keeps.ite)

theorem idReadRecord_keeps {r : State} {mem : Option (List Byte)} {stuck : Bool} {c : Cmd} {s : State} (h : Keeps r
    s) : VerbOut.Keeps r (idReadRecord mem stuck c s) := by
  unfold idReadRecord
  try dsimp only
  repeat' (with_reducible first
        | assumption | exact VerbOut.keeps_fail | apply VerbOut.keeps_data | apply VerbOut.keeps_ite)

theorem faultReadLog_keeps {r : State} {c : Cmd} {s : State} (h : Keeps r s) : VerbOut.Keeps r (faultReadLog c s) := by
  unfold faultReadLog
  try dsimp only
  repeat' (with_reducible first
        | assumption | exact VerbOut.keeps_fail | apply VerbOut.keeps_data | apply VerbOut.keeps_ite)

theorem faultInject_keeps {r : State} {c : Cmd} {s : State} (h : Keeps r s) : VerbOut.Keeps r (faultInject c s) := by
  unfold faultInject
  try dsimp only
  repeat' (with_reducible first
        | assumption | apply State.failUnit_keeps | exact VerbOut.keeps_fail | exact VerbOut.keeps_wait
        | apply VerbOut.keeps_done | apply VerbOut.keeps_running | apply VerbOut.keeps_ite)

theorem faultClearLog_keeps {r : State} {c : Cmd} {s : State} (h : Keeps r s) : VerbOut.Keeps r (faultClearLog c s)
    := by
  unfold faultClearLog
  try dsimp only
  repeat' (first
      | (with_reducible first
        | exact VerbOut.keeps_fail | apply VerbOut.keeps_done | apply VerbOut.keeps_running
        | apply VerbOut.keeps_ite)
      | ((with_reducible refine Keeps.upd ?_ rfl); first | with_reducible assumption | with_reducible exact Keeps.refl _ | with_reducible apply Keeps.ite | with_reducible apply Keeps.foldl))

theorem calRun_keeps {r : State} {failed : List Nat} {values : List (Nat × Nat)} {c : Cmd} {s : State} (h : Keeps r
    s) : VerbOut.Keeps r (calRun failed values c s) := by
  unfold calRun
  try dsimp only
  repeat' (first
      | (with_reducible first
        | assumption | apply State.calUnits_keeps | apply State.calPins_keeps | apply State.evCalDone_keeps
        | exact VerbOut.keeps_fail | exact VerbOut.keeps_wait | apply VerbOut.keeps_done
        | apply VerbOut.keeps_running)
      | split)

theorem calGetRecord_keeps {r : State} {c : Cmd} {s : State} (h : Keeps r s) : VerbOut.Keeps r (calGetRecord c s) := by
  unfold calGetRecord
  try dsimp only
  repeat' (with_reducible first
        | assumption | exact VerbOut.keeps_fail | apply VerbOut.keeps_data | apply VerbOut.keeps_ite)

theorem calSetSchedule_keeps {r : State} {c : Cmd} {s : State} (h : Keeps r s) : VerbOut.Keeps r (calSetSchedule c
    s) := by
  unfold calSetSchedule
  try dsimp only
  repeat' (first
      | (with_reducible first
        | exact VerbOut.keeps_fail | apply VerbOut.keeps_done | apply VerbOut.keeps_ite)
      | ((with_reducible refine Keeps.upd ?_ rfl); first | with_reducible assumption | with_reducible exact Keeps.refl _ | with_reducible apply Keeps.ite | with_reducible apply Keeps.foldl))

theorem secGetCertificate_keeps {r : State} {c : Cmd} {s : State} (h : Keeps r s) : VerbOut.Keeps r
    (secGetCertificate c s) := by
  unfold secGetCertificate
  try dsimp only
  repeat' (with_reducible first
        | assumption | exact VerbOut.keeps_fail | apply VerbOut.keeps_data | apply VerbOut.keeps_ite)

theorem secAttest_keeps {r : State} {c : Cmd} {s : State} (h : Keeps r s) : VerbOut.Keeps r (secAttest c s) := by
  unfold secAttest
  try dsimp only
  repeat' (with_reducible first
        | assumption | apply VerbOut.keeps_data)

theorem secUpdateFirmware_keeps {r : State} {image : List Byte} {blown : Nat} {c : Cmd} {s : State} (h : Keeps r s)
    : VerbOut.Keeps r (secUpdateFirmware image blown c s) := by
  unfold secUpdateFirmware
  try dsimp only
  repeat' (first
      | (with_reducible first
        | assumption | apply State.hostLoad_keeps | apply State.stage_keeps | apply State.blowFuses_keeps
        | apply State.setSec_keeps | apply State.restartBegin_keeps | exact VerbOut.keeps_fail
        | apply VerbOut.keeps_done | apply VerbOut.keeps_running)
      | split)

theorem secSetOwnerKey_keeps {r : State} {c : Cmd} {s : State} (h : Keeps r s) : VerbOut.Keeps r (secSetOwnerKey c
    s) := by
  unfold secSetOwnerKey
  try dsimp only
  repeat' (with_reducible first
        | assumption | apply State.setCounter_keeps | apply State.setSec_keeps | exact VerbOut.keeps_fail
        | apply VerbOut.keeps_done | apply VerbOut.keeps_ite)

theorem writeElements_wf {x : Ctx} {m : Memory} {base i : Nat} {l : List (List Byte)} (h : m.wf = true) :
    (writeElements x m base i l).wf = true := by
  induction l generalizing m i with
  | nil => exact h
  | cons b l ih =>
    unfold writeElements
    refine ih ?_
    split
    · exact h
    · exact Memory.writeBytes_wf _ _ h

theorem State.ringAfter_wf {s : State} {x : Ctx} {first : Nat} {els : List Element} {m : Memory} (h : m.wf = true) :
    (s.ringAfter x first els m).wf = true := by
  unfold State.ringAfter
  split
  · dsimp only
    refine Memory.foldl_wf (fun m e k => ?_) h
    split
    · exact k
    · exact Memory.writeBytes_wf _ _ k
  · exact h

theorem State.lostGaps_keeps {r s : State} {n : Nat} {elements : List Element} {endTick : Nat} (h : Keeps r s) :
    Keeps r (s.lostGaps n elements endTick) :=
  Keeps.ite h (Keeps.foldl (fun _ _ k => State.addGap_keeps k) h)

theorem State.segmentStore_keeps {r s : State} {n place : Nat} {elements : List Element} (h : Keeps r s) :
    Keeps r (s.segmentStore n place elements).1 := by
  unfold State.segmentStore
  dsimp only
  refine State.keepCellar_keeps ?_ State.ringAfter_wf
  split
  · exact State.handToFlow_keeps (State.lostGaps_keeps (State.settleGaps_keeps h))
  · exact State.keepCellar_keeps (State.lostGaps_keeps (State.settleGaps_keeps h)) fun e =>
      Memory.writeBytes_wf _ _ (writeElements_wf e)

theorem ringWrite_wf {m : Memory} {base size k : Nat} {b : List Byte} (h : m.wf = true) : (ringWrite m base size k
    b).wf = true :=
  Memory.writeBytes_wf _ _ (Memory.writeBytes_wf _ _ h)

end Sys2Proof.Machine
end

