-- ==== Sys2Proof/Laws/Line.lean ====
section
/-! SUPPORT. A codeword that is encoded and received without errors decodes to its header and payload (R316 to R318). -/

namespace Sys2Proof.Machine

/-! ## The field and the parity -/

/-- Doubling stays in the field. -/
theorem gfTwice_lt {a : Nat} (h : a < 1024) : gfTwice a < 1024 := by
  unfold gfTwice
  split
  · omega
  · exact Nat.xor_lt_two_pow (n := 10) (by omega) (by decide)

/-- A product lies in the field. -/
theorem gfMul_lt {a : Nat} (b : Nat) (h : a < 1024) : gfMul a b < 1024 := by
  have key : ∀ (l : List Nat) (r : Nat × Nat), r.1 < 1024 → r.2 < 1024 →
      (l.foldl (fun (r : Nat × Nat) i => (if b.testBit i then r.1 ^^^ r.2 else r.1, gfTwice r.2)) r).1 < 1024 := by
    intro l
    induction l with
    | nil => intro r h1 _; exact h1
    | cons i l ih =>
      intro r h1 h2
      rw [List.foldl_cons]
      refine ih _ ?_ (gfTwice_lt h2)
      dsimp only
      split
      · exact Nat.xor_lt_two_pow (n := 10) h1 h2
      · exact h1
  exact key _ _ (by simp) h

/-- The parity of message symbols of the field is 30 symbols of the field. -/
theorem rsParity_ok {m : List Nat} (h : ∀ c ∈ m, c < 1024) :
    (rsParity m).length = 30 ∧ ∀ c ∈ rsParity m, c < 1024 := by
  have tail : rsGenerator.length = 31 := by decide +kernel
  have step : ∀ (l r : List Nat), (∀ c ∈ l, c < 1024) → (r.length = 30 ∧ ∀ c ∈ r, c < 1024) →
      ((l.foldl (fun r m =>
        let f := r.headD 0 ^^^ m
        ((r.drop 1 ++ [0]).zip (rsGenerator.drop 1)).map fun (e : Nat × Nat) => e.1 ^^^ gfMul f e.2) r).length = 30 ∧
      ∀ c ∈ (l.foldl (fun r m =>
        let f := r.headD 0 ^^^ m
        ((r.drop 1 ++ [0]).zip (rsGenerator.drop 1)).map fun (e : Nat × Nat) => e.1 ^^^ gfMul f e.2) r), c < 1024) := by
    intro l
    induction l with
    | nil => intro r _ hr; exact hr
    | cons m l ih =>
      intro r hl hr
      rw [List.foldl_cons]
      refine ih _ (fun c hc => hl c (List.mem_cons_of_mem m hc)) ⟨?_, ?_⟩
      · simp [tail, hr.1]
      · intro c hc
        simp only [List.mem_map] at hc
        obtain ⟨e, he, rfl⟩ := hc
        have h1 : e.1 < 1024 := by
          have := (List.of_mem_zip (a := e.1) (b := e.2) he).1
          simp only [List.mem_append, List.mem_singleton] at this
          rcases this with h | h
          · exact hr.2 _ (List.mem_of_mem_drop h)
          · omega
        have h2 : r.headD 0 < 1024 := by
          cases r with
          | nil => decide
          | cons a _ => exact hr.2 a List.mem_cons_self
        exact Nat.xor_lt_two_pow (n := 10) h1
          (gfMul_lt _ (Nat.xor_lt_two_pow (n := 10) h2 (hl m List.mem_cons_self)))
  refine step m _ h ⟨by simp, ?_⟩
  intro c hc
  rw [List.eq_of_mem_replicate hc]
  decide

/-- A message with its parity behind it belongs to the code. -/
theorem rsValid_encode {m : List Nat} (hl : m.length = 514) (h : ∀ c ∈ m, c < 1024) :
    rsValid (m ++ rsParity m) = true := by
  simp [rsValid, hl, (rsParity_ok h).1]

/-- A word that is received without errors decodes to its message. -/
theorem rsDecode_encode {m : List Nat} (hl : m.length = 514) (h : ∀ c ∈ m, c < 1024) :
    rsDecode (m ++ rsParity m) [] = some m := by
  simp [rsDecode, rsValid_encode hl h, hl]

/-! ## Levels and symbols -/

/-- The PAM4 mapping is undone by its inverse. -/
theorem pam4_inverse (x : Nat) : pam4Bits (pam4Level x) = x % 4 := by
  have : x % 4 = 0 ∨ x % 4 = 1 ∨ x % 4 = 2 ∨ x % 4 = 3 := by omega
  rcases this with h | h | h | h <;> simp [pam4Level, pam4Bits, h]

/-- Five levels for each of a list of symbols stand one after another. -/
theorem levels_getD (w : List Nat) (k i : Nat) (hi : i < 5) (hk : k < w.length) :
    (w.flatMap symbolLevels).getD (5 * k + i) 0 = (symbolLevels (w.getD k 0)).getD i 0 := by
  induction w generalizing k with
  | nil => simp at hk
  | cons a w ih =>
    have hlen : (symbolLevels a).length = 5 := by simp [symbolLevels]
    rw [List.flatMap_cons]
    cases k with
    | zero => simp [List.getD_eq_getElem?_getD, List.getElem?_append_left (hlen ▸ hi : i < _)]
    | succ k =>
      have h1 : 5 * (k + 1) + i = (symbolLevels a).length + (5 * k + i) := by omega
      rw [h1, List.getD_eq_getElem?_getD, List.getElem?_append_right (by omega), Nat.add_sub_cancel_left,
        ← List.getD_eq_getElem?_getD, ih k (by simpa using hk), List.getD_cons_succ]

/-- A symbol is what its levels say. -/
theorem symbol_levels {c : Nat} (h : c < 1024) :
    (List.range 5).foldl (fun a i => a + pam4Bits ((symbolLevels c).getD i 0) * 4 ^ i) 0 = c := by
  simp only [symbolLevels, List.range_succ, List.range_zero, List.nil_append, List.cons_append, List.map_cons, List.map_nil,
    List.foldl_cons, List.foldl_nil, List.getD_cons_zero, List.getD_cons_succ, pam4_inverse]
  omega

/-- The symbols of the levels of 544 symbols are those symbols. -/
theorem lineSymbols_levels {w : List Nat} (hl : w.length = 544) (h : ∀ c ∈ w, c < 1024) :
    lineSymbols (w.flatMap symbolLevels) = w := by
  apply List.ext_getElem
  · simp [lineSymbols, hl]
  · intro k h1 h2
    have hk : k < w.length := h2
    have hc : w.getD k 0 = w[k] := by simp [List.getD_eq_getElem?_getD, hk]
    simp only [lineSymbols, List.getElem_map, List.getElem_range]
    rw [← symbol_levels (h _ (List.getElem_mem hk)), ← hc]
    have key : ∀ (l : List Nat) (a : Nat), (∀ i ∈ l, i < 5) →
        l.foldl (fun a i => a + pam4Bits ((w.flatMap symbolLevels).getD (5 * k + i) 0) * 4 ^ i) a =
          l.foldl (fun a i => a + pam4Bits ((symbolLevels (w.getD k 0)).getD i 0) * 4 ^ i) a := by
      intro l
      induction l with
      | nil => intros; rfl
      | cons i l ih =>
        intro a hi
        rw [List.foldl_cons, List.foldl_cons, levels_getD w k i (hi i List.mem_cons_self) hk,
          ih _ fun j hj => hi j (List.mem_cons_of_mem i hj)]
    exact key _ _ fun i hi => List.mem_range.mp hi

/-! ## Header and payload -/

/-- A number is what its ten-bit digits say. -/
theorem digits_value (k n : Nat) :
    ((List.range k).map fun i => n / 2 ^ (10 * i) % 1024).reverse.foldl (fun a c => a * 1024 + c) 0 = n % 2 ^ (10 * k) := by
  induction k generalizing n with
  | zero => simp [Nat.mod_one]
  | succ k ih =>
    have hd : ∀ i, n / 2 ^ (10 * (i + 1)) = n / 1024 / 2 ^ (10 * i) := by
      intro i
      rw [Nat.div_div_eq_div_mul, show 10 * (i + 1) = 10 + 10 * i by omega, Nat.pow_add]
    rw [List.range_succ_eq_map, List.map_cons, List.map_map, List.reverse_cons, List.foldl_append]
    simp only [Function.comp_def, Nat.succ_eq_add_one, hd, ih, List.foldl_cons, List.foldl_nil, Nat.mul_zero, Nat.pow_zero,
      Nat.div_one]
    rw [show 10 * (k + 1) = 10 + 10 * k by omega, Nat.pow_add, show (2 : Nat) ^ 10 = 1024 from rfl, Nat.mod_mul]
    omega

/-- The number of bytes is below 256 to the power of their count. -/
theorem leNat_lt (p : List Byte) : leNat p < 256 ^ p.length := by
  induction p with
  | nil => decide
  | cons b p ih =>
    have := b.isLt
    simp only [leNat, List.length_cons, Nat.pow_succ]
    omega

/-- Bytes are the little-endian bytes of their number. -/
theorem leBytes_leNat (p : List Byte) : leBytes p.length (leNat p) = p := by
  induction p with
  | nil => rfl
  | cons b p ih =>
    have h := b.isLt
    simp only [List.length_cons, leBytes, leNat]
    rw [show (b.toNat + 256 * leNat p) / 256 = leNat p by omega, ih]
    congr 1
    apply BitVec.eq_of_toNat_eq
    simp only [BitVec.toNat_ofNat]
    omega

/-- A message of 20 header bits and 640 payload bytes gives both back. -/
theorem messageOf_symbols (h : Nat) {p : List Byte} (hp : p.length = 640) :
    messageOf (messageSymbols h p) = (h % 2 ^ 20, p) := by
  have hlt := leNat_lt p
  rw [hp] at hlt
  have h1 : h % 2 ^ 20 < 2 ^ 20 := Nat.mod_lt _ (by decide)
  have hn : h % 2 ^ 20 + 2 ^ 20 * leNat p < 2 ^ (10 * 514) := by
    have e : (2 : Nat) ^ (10 * 514) = 2 ^ 20 * 256 ^ 640 := by
      rw [show (256 : Nat) = 2 ^ 8 by decide, ← Nat.pow_mul, ← Nat.pow_add]
    rw [e]
    calc h % 2 ^ 20 + 2 ^ 20 * leNat p < 2 ^ 20 + 2 ^ 20 * leNat p := by omega
      _ = 2 ^ 20 * (leNat p + 1) := by rw [Nat.mul_add, Nat.mul_one, Nat.add_comm]
      _ ≤ 2 ^ 20 * 256 ^ 640 := Nat.mul_le_mul_left _ hlt
  have h2 : messageOf (messageSymbols h p) =
      ((h % 2 ^ 20 + 2 ^ 20 * leNat p) % 2 ^ 20, leBytes 640 ((h % 2 ^ 20 + 2 ^ 20 * leNat p) / 2 ^ 20)) := by
    simp only [messageOf, messageSymbols]
    rw [digits_value 514, Nat.mod_eq_of_lt hn]
  rw [h2, Nat.add_mul_mod_self_left, Nat.mod_eq_of_lt h1, Nat.add_mul_div_left _ _ (by decide), Nat.div_eq_of_lt h1,
    Nat.zero_add]
  have := leBytes_leNat p
  rw [hp] at this
  rw [this]

/-- The symbols of a message lie in the field, 514 of them. -/
theorem messageSymbols_ok (h : Nat) (p : List Byte) :
    (messageSymbols h p).length = 514 ∧ ∀ c ∈ messageSymbols h p, c < 1024 := by
  refine ⟨by simp [messageSymbols], ?_⟩
  intro c hc
  simp only [messageSymbols, List.mem_map] at hc
  obtain ⟨k, _, rfl⟩ := hc
  exact Nat.mod_lt _ (by decide)

/-- What the line carries for a codeword is 2,720 levels. -/
theorem levels_length (w : List Nat) : (w.flatMap symbolLevels).length = 5 * w.length := by
  induction w with
  | nil => rfl
  | cons a w ih =>
    have hlen : (symbolLevels a).length = 5 := by simp [symbolLevels]
    rw [List.flatMap_cons, List.length_append, ih, hlen, List.length_cons]
    omega

/-- The levels of a codeword, received without errors, decode to its message. -/
theorem rsDecode_levels (h : Nat) (p : List Byte) :
    (lineLevels h p).length = 2720 ∧ rsDecode (lineSymbols (lineLevels h p)) [] = some (messageSymbols h p) := by
  obtain ⟨h1, h2⟩ := messageSymbols_ok h p
  obtain ⟨h3, h4⟩ := rsParity_ok h2
  have hw : (messageSymbols h p ++ rsParity (messageSymbols h p)).length = 544 := by rw [List.length_append, h1, h3]
  have hb : ∀ c ∈ messageSymbols h p ++ rsParity (messageSymbols h p), c < 1024 := by
    intro c hc
    rcases List.mem_append.mp hc with h | h
    · exact h2 c h
    · exact h4 c h
  have e : lineLevels h p = (messageSymbols h p ++ rsParity (messageSymbols h p)).flatMap symbolLevels := rfl
  rw [e]
  exact ⟨by rw [levels_length, hw], by rw [lineSymbols_levels hw hb, rsDecode_encode h1 h2]⟩

/-- CHECK of a header is that of its 20 bits. -/
theorem header_bits (h : Nat) :
    h % 2 ^ 20 % 65536 = h % 65536 ∧ bits (h % 2 ^ 20) 19 16 = bits h 19 16 := by
  refine ⟨Nat.mod_mod_of_dvd _ (by decide), ?_⟩
  simp only [bits, Nat.shiftRight_eq_div_pow]
  omega

/-- What a receiver sees of a word that decodes to a message whose CHECK is right. -/
theorem lineDecode_of {w m : List Nat} {v : Nat} {p : List Byte} (hl : w.length = 2720)
    (hd : rsDecode (lineSymbols w) [] = some m) (hm : messageOf m = (v, p))
    (hk : headerCheck (v % 65536) = bits v 19 16) : lineDecode w [] = some (v, p) := by
  unfold lineDecode
  rw [if_pos hl, hd]
  dsimp only
  rw [hm]
  exact if_pos hk

/-- A codeword whose header has the right CHECK decodes, without errors, to its header and payload. -/
theorem lineDecode_levels {h : Nat} {p : List Byte} (hp : p.length = 640)
    (hc : headerCheck (h % 65536) = bits h 19 16) : lineDecode (lineLevels h p) [] = some (h % 2 ^ 20, p) :=
  lineDecode_of (rsDecode_levels h p).1 (rsDecode_levels h p).2 (messageOf_symbols h hp)
    (by rw [(header_bits h).1, (header_bits h).2, hc])

end Sys2Proof.Machine
end

