-- ==== Sys2Proof/Laws/PerInstr.lean ====
section
/-! SUPPORT. Facts about the commands as syntax, one lemma for each constructor. -/

namespace Sys2Proof.Laws.Named

/-- A well-formed row that carries out a mailbox command names a function that exists and a 16-bit tag (R27, R53). -/
def Statement (i : Instr) : Prop := ∀ k, i.wf = true → i.command? = some k → k.1 < 2 ∧ k.2 < 65536

/-- The form of the lemmas below for rows that carry out a command. -/
theorem of_wf {fn tag : Nat} {k : Nat × Nat} (h : commandWf fn tag = true) (hk : some (fn, tag) = some k) :
    k.1 < 2 ∧ k.2 < 65536 := by
  cases hk
  simpa [commandWf] using h

theorem feedPresent (t : Nat) (feedB : Bool) : Statement (.feedPresent t feedB) := fun _ _ hk => nomatch hk
theorem feedLost (t : Nat) (feedB : Bool) : Statement (.feedLost t feedB) := fun _ _ hk => nomatch hk
theorem feedRestored (t : Nat) (feedB : Bool) : Statement (.feedRestored t feedB) := fun _ _ hk => nomatch hk
theorem shutdownNLow (t : Nat) : Statement (.shutdownNLow t) := fun _ _ hk => nomatch hk
theorem shutdownNRise (t : Nat) : Statement (.shutdownNRise t) := fun _ _ hk => nomatch hk
theorem powerGood (t : Nat) : Statement (.powerGood t) := fun _ _ hk => nomatch hk
theorem secureBoot (t : Nat) (verified : List Nat) (carrier : List Byte) : Statement (.secureBoot t verified carrier) := fun _ _ hk => nomatch hk
theorem functionReady (t : Nat) (readyBit : Nat) (values : List Nat) (means : Computed) (mems : List (Nat × List Byte)) (stuck : List Nat) : Statement (.functionReady t readyBit values means mems stuck) := fun _ _ hk => nomatch hk
theorem readyTimeout (t : Nat) (readyBit : Nat) (cls : Nat) (pool : Nat) (unit : Nat) (detail : Nat) : Statement (.readyTimeout t readyBit cls pool unit detail) := fun _ _ hk => nomatch hk
theorem perstNAssert (t : Nat) : Statement (.perstNAssert t) := fun _ _ hk => nomatch hk
theorem perstNRelease (t : Nat) : Statement (.perstNRelease t) := fun _ _ hk => nomatch hk
theorem hotReset (t : Nat) : Statement (.hotReset t) := fun _ _ hk => nomatch hk
theorem functionLevelReset (t : Nat) (fn : Nat) : Statement (.functionLevelReset t fn) := fun _ _ hk => nomatch hk
theorem functionD3hot (t : Nat) (fn : Nat) (linkL2 : Bool) : Statement (.functionD3hot t fn linkL2) := fun _ _ hk => nomatch hk
theorem functionD0 (t : Nat) (fn : Nat) : Statement (.functionD0 t fn) := fun _ _ hk => nomatch hk
theorem standbyWake (t : Nat) (bits : Nat) : Statement (.standbyWake t bits) := fun _ _ hk => nomatch hk
theorem linkL0Reached (t : Nat) (width : Nat) (speed : Nat) : Statement (.linkL0Reached t width speed) := fun _ _ hk => nomatch hk
theorem pcieLaneFailure (t : Nat) (lanes : List Nat) (width : Nat) : Statement (.pcieLaneFailure t lanes width) := fun _ _ hk => nomatch hk
theorem aliveToggle (t : Nat) : Statement (.aliveToggle t) := fun _ _ hk => nomatch hk
theorem thermalWarning (t : Nat) : Statement (.thermalWarning t) := fun _ _ hk => nomatch hk
theorem thermalThrottleStep (t : Nat) (hot : Bool) : Statement (.thermalThrottleStep t hot) := fun _ _ hk => nomatch hk
theorem thermalTrip (t : Nat) (channel : Nat) : Statement (.thermalTrip t channel) := fun _ _ hk => nomatch hk
theorem tapInstructionLoad (t : Nat) (instruction : Nat) : Statement (.tapInstructionLoad t instruction) := fun _ _ hk => nomatch hk
theorem tapTestLogicReset (t : Nat) : Statement (.tapTestLogicReset t) := fun _ _ hk => nomatch hk
theorem doorbellWrite (t : Nat) (fn : Nat) (chan : Nat) (value : Nat) (hostBytes : List Byte) : Statement (.doorbellWrite t fn chan value hostBytes) := fun _ _ hk => nomatch hk
theorem servicePairWake (t : Nat) (pair : Nat) : Statement (.servicePairWake t pair) := fun _ _ hk => nomatch hk
theorem commandTimeout (t : Nat) (fn : Nat) (tag : Nat) : Statement (.commandTimeout t fn tag) := fun _ h hk => of_wf h hk
theorem chanStateClear (t : Nat) (fn : Nat) (chan : Nat) (value : Nat) (full : Bool) : Statement (.chanStateClear t fn chan value full) := fun _ _ hk => nomatch hk
theorem lockAliasRead (t : Nat) (fn : Nat) (chan : Nat) (agent : Nat) (first : Nat) (width : Nat) : Statement (.lockAliasRead t fn chan agent first width) := fun _ _ hk => nomatch hk
theorem lockAliasWrite (t : Nat) (fn : Nat) (chan : Nat) (agent : Nat) (width : Nat) : Statement (.lockAliasWrite t fn chan agent width) := fun _ _ hk => nomatch hk
theorem lockForcedRelease (t : Nat) (fn : Nat) (chan : Nat) (value : Nat) (width : Nat) : Statement (.lockForcedRelease t fn chan value width) := fun _ _ hk => nomatch hk
theorem timeLatchWrite (t : Nat) (fn : Nat) (full : Bool) : Statement (.timeLatchWrite t fn full) := fun _ _ hk => nomatch hk
theorem ringConsWrite (t : Nat) (fn : Nat) (completion : Bool) (ring : Nat) (value : Nat) : Statement (.ringConsWrite t fn completion ring value) := fun _ _ hk => nomatch hk
theorem ringOverflowClear (t : Nat) (fn : Nat) (ring : Nat) (value : Nat) (full : Bool) : Statement (.ringOverflowClear t fn ring value full) := fun _ _ hk => nomatch hk
theorem ringCoalesceTimeout (t : Nat) (fn : Nat) (completion : Bool) (ring : Nat) : Statement (.ringCoalesceTimeout t fn completion ring) := fun _ _ hk => nomatch hk
theorem updateStrobeWrite (t : Nat) (mask : Nat) : Statement (.updateStrobeWrite t mask) := fun _ _ hk => nomatch hk
theorem strobeOccurrenceApply (t : Nat) (group : Nat) (unit : Option Nat) (vecs : List (Nat × Nat)) : Statement (.strobeOccurrenceApply t group unit vecs) := fun _ _ hk => nomatch hk
theorem keyUnlockWrite (t : Nat) (fn : Nat) (value : Nat) : Statement (.keyUnlockWrite t fn value) := fun _ _ hk => nomatch hk
theorem fcwEnableWrite (t : Nat) (value : Nat) (full : Bool) : Statement (.fcwEnableWrite t value full) := fun _ _ hk => nomatch hk
theorem fcwStatusClear (t : Nat) (value : Nat) (full : Bool) : Statement (.fcwStatusClear t value full) := fun _ _ hk => nomatch hk
theorem fcwResyncWrite (t : Nat) (mask : Nat) (full : Bool) : Statement (.fcwResyncWrite t mask full) := fun _ _ hk => nomatch hk
theorem resyncComplete (t : Nat) : Statement (.resyncComplete t) := fun _ _ hk => nomatch hk
theorem registerWrite (t : Nat) (fn : Nat) (offset : Nat) (bytes : List Byte) : Statement (.registerWrite t fn offset bytes) := fun _ _ hk => nomatch hk
theorem apertureRead (t : Nat) (addr : Nat) (length : Nat) : Statement (.apertureRead t addr length) := fun _ _ hk => nomatch hk
theorem apertureWrite (t : Nat) (addr : Nat) (bytes : List Byte) : Statement (.apertureWrite t addr bytes) := fun _ _ hk => nomatch hk
theorem smbAlertStatusClear (t : Nat) (value : Nat) (holds : Nat) : Statement (.smbAlertStatusClear t value holds) := fun _ _ hk => nomatch hk
theorem smbAlertResponse (t : Nat) : Statement (.smbAlertResponse t) := fun _ _ hk => nomatch hk
theorem sysHello (t : Nat) (fn : Nat) (tag : Nat) : Statement (.sysHello t fn tag) := fun _ h hk => of_wf h hk
theorem sysQueryReady (t : Nat) (fn : Nat) (tag : Nat) : Statement (.sysQueryReady t fn tag) := fun _ h hk => of_wf h hk
theorem sysGetInfo (t : Nat) (fn : Nat) (tag : Nat) : Statement (.sysGetInfo t fn tag) := fun _ h hk => of_wf h hk
theorem sysSetEventRing (t : Nat) (fn : Nat) (tag : Nat) : Statement (.sysSetEventRing t fn tag) := fun _ h hk => of_wf h hk
theorem sysResetFunction (t : Nat) (fn : Nat) (tag : Nat) : Statement (.sysResetFunction t fn tag) := fun _ h hk => of_wf h hk
theorem sysNop (t : Nat) (fn : Nat) (tag : Nat) : Statement (.sysNop t fn tag) := fun _ h hk => of_wf h hk
theorem clockSetRef (t : Nat) (fn : Nat) (tag : Nat) : Statement (.clockSetRef t fn tag) := fun _ h hk => of_wf h hk
theorem clockGetStatus (t : Nat) (fn : Nat) (tag : Nat) (freqOffset : Nat) (oscDiff : Nat) : Statement (.clockGetStatus t fn tag freqOffset oscDiff) := fun _ h hk => of_wf h hk
theorem clockSetTime (t : Nat) (fn : Nat) (tag : Nat) : Statement (.clockSetTime t fn tag) := fun _ h hk => of_wf h hk
theorem clockSetOutput (t : Nat) (fn : Nat) (tag : Nat) : Statement (.clockSetOutput t fn tag) := fun _ h hk => of_wf h hk
theorem clockLoadRamp (t : Nat) (fn : Nat) (tag : Nat) : Statement (.clockLoadRamp t fn tag) := fun _ h hk => of_wf h hk
theorem clockStartRamp (t : Nat) (fn : Nat) (tag : Nat) (crossingFault : Option Nat) : Statement (.clockStartRamp t fn tag crossingFault) := fun _ h hk => of_wf h hk
theorem clockStopRamp (t : Nat) (fn : Nat) (tag : Nat) : Statement (.clockStopRamp t fn tag) := fun _ h hk => of_wf h hk
theorem clockSetVectorClock (t : Nat) (fn : Nat) (tag : Nat) : Statement (.clockSetVectorClock t fn tag) := fun _ h hk => of_wf h hk
theorem ocxoHardFault (t : Nat) (osc : Nat) : Statement (.ocxoHardFault t osc) := fun _ _ hk => nomatch hk
theorem ocxoSoftFault (t : Nat) (farther : Nat) : Statement (.ocxoSoftFault t farther) := fun _ _ hk => nomatch hk
theorem warmReached (t : Nat) (ms : Nat) : Statement (.warmReached t ms) := fun _ _ hk => nomatch hk
theorem refInQualified (t : Nat) (freq : Nat) (farther : Nat) : Statement (.refInQualified t freq farther) := fun _ _ hk => nomatch hk
theorem ppsInQualified (t : Nat) (farther : Nat) : Statement (.ppsInQualified t farther) := fun _ _ hk => nomatch hk
theorem refInLost (t : Nat) : Statement (.refInLost t) := fun _ _ hk => nomatch hk
theorem ppsInLost (t : Nat) : Statement (.ppsInLost t) := fun _ _ hk => nomatch hk
theorem ppsEdge (t : Nat) (stamp : Stamp) : Statement (.ppsEdge t stamp) := fun _ _ hk => nomatch hk
theorem ppsOutSecond (t : Nat) : Statement (.ppsOutSecond t) := fun _ _ hk => nomatch hk
theorem ppsOutPulseEnd (t : Nat) : Statement (.ppsOutPulseEnd t) := fun _ _ hk => nomatch hk
theorem synthBandSearchDone (t : Nat) (source : Nat) : Statement (.synthBandSearchDone t source) := fun _ _ hk => nomatch hk
theorem synthLockDetected (t : Nat) (source : Nat) : Statement (.synthLockDetected t source) := fun _ _ hk => nomatch hk
theorem synthLockLost (t : Nat) (source : Nat) : Statement (.synthLockLost t source) := fun _ _ hk => nomatch hk
theorem synthReacquireTimeout (t : Nat) (source : Nat) : Statement (.synthReacquireTimeout t source) := fun _ _ hk => nomatch hk
theorem sampleSynthFault (t : Nat) (unit : Nat) (lostLock : Bool) : Statement (.sampleSynthFault t unit lostLock) := fun _ _ hk => nomatch hk
theorem idleCoreLocked (t : Nat) (gen : Nat) : Statement (.idleCoreLocked t gen) := fun _ _ hk => nomatch hk
theorem rampScheduledStart (t : Nat) (gen : Nat) : Statement (.rampScheduledStart t gen) := fun _ _ hk => nomatch hk
theorem rampUpdate (t : Nat) (gen : Nat) : Statement (.rampUpdate t gen) := fun _ _ hk => nomatch hk
theorem rampSegmentEnd (t : Nat) (gen : Nat) : Statement (.rampSegmentEnd t gen) := fun _ _ hk => nomatch hk
theorem rampProfileEnd (t : Nat) (gen : Nat) : Statement (.rampProfileEnd t gen) := fun _ _ hk => nomatch hk
theorem inputSetRange (t : Nat) (fn : Nat) (tag : Nat) : Statement (.inputSetRange t fn tag) := fun _ h hk => of_wf h hk
theorem inputGetStatus (t : Nat) (fn : Nat) (tag : Nat) (temp : Nat) : Statement (.inputGetStatus t fn tag temp) := fun _ h hk => of_wf h hk
theorem inputEnable (t : Nat) (fn : Nat) (tag : Nat) : Statement (.inputEnable t fn tag) := fun _ h hk => of_wf h hk
theorem inputDisable (t : Nat) (fn : Nat) (tag : Nat) : Statement (.inputDisable t fn tag) := fun _ h hk => of_wf h hk
theorem inputRangeSwitch (t : Nat) (input : Nat) : Statement (.inputRangeSwitch t input) := fun _ _ hk => nomatch hk
theorem rotationStep (t : Nat) (input : Nat) (slice : Nat) : Statement (.rotationStep t input slice) := fun _ _ hk => nomatch hk
theorem sliceHandoverComplete (t : Nat) (input : Nat) (within : Bool) : Statement (.sliceHandoverComplete t input within) := fun _ _ hk => nomatch hk
theorem sliceFailure (t : Nat) (input : Nat) (slice : Nat) (faultTick : Nat) : Statement (.sliceFailure t input slice faultTick) := fun _ _ hk => nomatch hk
theorem coldSpareReady (t : Nat) (input : Nat) : Statement (.coldSpareReady t input) := fun _ _ hk => nomatch hk
theorem inputOverdrive (t : Nat) (input : Nat) (samples : Nat) (firstPositive : Bool) (flips : List Nat) (protect : Bool) : Statement (.inputOverdrive t input samples firstPositive flips protect) := fun _ _ hk => nomatch hk
theorem protectionRelease (t : Nat) (input : Nat) : Statement (.protectionRelease t input) := fun _ _ hk => nomatch hk
theorem overrangeIntervalClose (t : Nat) (input : Nat) : Statement (.overrangeIntervalClose t input) := fun _ _ hk => nomatch hk
theorem ddcConfigure (t : Nat) (fn : Nat) (tag : Nat) : Statement (.ddcConfigure t fn tag) := fun _ h hk => of_wf h hk
theorem ddcSetDelay (t : Nat) (fn : Nat) (tag : Nat) : Statement (.ddcSetDelay t fn tag) := fun _ h hk => of_wf h hk
theorem ddcEnable (t : Nat) (fn : Nat) (tag : Nat) : Statement (.ddcEnable t fn tag) := fun _ h hk => of_wf h hk
theorem ddcDisable (t : Nat) (fn : Nat) (tag : Nat) : Statement (.ddcDisable t fn tag) := fun _ h hk => of_wf h hk
theorem ddcGetStatus (t : Nat) (fn : Nat) (tag : Nat) (codes : List Int) : Statement (.ddcGetStatus t fn tag codes) := fun _ h hk => of_wf h hk
theorem ddcScheduledChange (t : Nat) (ddc : Nat) : Statement (.ddcScheduledChange t ddc) := fun _ _ hk => nomatch hk
theorem ddcDatapathFault (t : Nat) (input : Nat) (unit : Nat) : Statement (.ddcDatapathFault t input unit) := fun _ _ hk => nomatch hk
theorem pressConfigure (t : Nat) (fn : Nat) (tag : Nat) : Statement (.pressConfigure t fn tag) := fun _ h hk => of_wf h hk
theorem pressLoadWindow (t : Nat) (fn : Nat) (tag : Nat) (table : List Byte) : Statement (.pressLoadWindow t fn tag table) := fun _ h hk => of_wf h hk
theorem pressLoadPfb (t : Nat) (fn : Nat) (tag : Nat) (table : List Byte) : Statement (.pressLoadPfb t fn tag table) := fun _ h hk => of_wf h hk
theorem pressMapChannels (t : Nat) (fn : Nat) (tag : Nat) : Statement (.pressMapChannels t fn tag) := fun _ h hk => of_wf h hk
theorem pressEnable (t : Nat) (fn : Nat) (tag : Nat) : Statement (.pressEnable t fn tag) := fun _ h hk => of_wf h hk
theorem pressDisable (t : Nat) (fn : Nat) (tag : Nat) : Statement (.pressDisable t fn tag) := fun _ h hk => of_wf h hk
theorem pressFrameRelease (t : Nat) (job : Nat) (ovrSeen : Computed) (unsettled : Computed) (exponent : Computed) (codes : List Int) : Statement (.pressFrameRelease t job ovrSeen unsettled exponent codes) := fun _ _ hk => nomatch hk
theorem pressPipelineFault (t : Nat) (unit : Nat) : Statement (.pressPipelineFault t unit) := fun _ _ hk => nomatch hk
theorem specConfigureDetector (t : Nat) (fn : Nat) (tag : Nat) : Statement (.specConfigureDetector t fn tag) := fun _ h hk => of_wf h hk
theorem specConfigureDensity (t : Nat) (fn : Nat) (tag : Nat) : Statement (.specConfigureDensity t fn tag) := fun _ h hk => of_wf h hk
theorem specClearDensity (t : Nat) (fn : Nat) (tag : Nat) : Statement (.specClearDensity t fn tag) := fun _ h hk => of_wf h hk
theorem specReadTrace (t : Nat) (fn : Nat) (tag : Nat) : Statement (.specReadTrace t fn tag) := fun _ h hk => of_wf h hk
theorem specPeakSearch (t : Nat) (fn : Nat) (tag : Nat) : Statement (.specPeakSearch t fn tag) := fun _ h hk => of_wf h hk
theorem specEnable (t : Nat) (fn : Nat) (tag : Nat) : Statement (.specEnable t fn tag) := fun _ h hk => of_wf h hk
theorem specDisable (t : Nat) (fn : Nat) (tag : Nat) : Statement (.specDisable t fn tag) := fun _ h hk => of_wf h hk
theorem spectrumAccept (t : Nat) (job : Nat) (powers : Computed) : Statement (.spectrumAccept t job powers) := fun _ _ hk => nomatch hk
theorem integrationEnd (t : Nat) (trace : Nat) : Statement (.integrationEnd t trace) := fun _ _ hk => nomatch hk
theorem decayBoundary (t : Nat) (plane : Nat) : Statement (.decayBoundary t plane) := fun _ _ hk => nomatch hk
theorem densityClearApply (t : Nat) (plane : Nat) : Statement (.densityClearApply t plane) := fun _ _ hk => nomatch hk
theorem trigConfigure (t : Nat) (fn : Nat) (tag : Nat) : Statement (.trigConfigure t fn tag) := fun _ h hk => of_wf h hk
theorem trigLoadMask (t : Nat) (fn : Nat) (tag : Nat) (table : List Byte) : Statement (.trigLoadMask t fn tag table) := fun _ h hk => of_wf h hk
theorem trigRoute (t : Nat) (fn : Nat) (tag : Nat) : Statement (.trigRoute t fn tag) := fun _ h hk => of_wf h hk
theorem trigArm (t : Nat) (fn : Nat) (tag : Nat) : Statement (.trigArm t fn tag) := fun _ h hk => of_wf h hk
theorem trigDisarm (t : Nat) (fn : Nat) (tag : Nat) : Statement (.trigDisarm t fn tag) := fun _ h hk => of_wf h hk
theorem trigForce (t : Nat) (fn : Nat) (tag : Nat) : Statement (.trigForce t fn tag) := fun _ h hk => of_wf h hk
theorem trigGetStatus (t : Nat) (fn : Nat) (tag : Nat) : Statement (.trigGetStatus t fn tag) := fun _ h hk => of_wf h hk
theorem trigScheduledArm (t : Nat) (unit : Nat) : Statement (.trigScheduledArm t unit) := fun _ _ hk => nomatch hk
theorem triggerDecision (t : Nat) (unit : Nat) (samples : List Sample) (powers : Computed) : Statement (.triggerDecision t unit samples powers) := fun _ _ hk => nomatch hk
theorem forcedDecision (t : Nat) (unit : Nat) : Statement (.forcedDecision t unit) := fun _ _ hk => nomatch hk
theorem sorrelForceMessage (t : Nat) (core : Nat) : Statement (.sorrelForceMessage t core) := fun _ _ hk => nomatch hk
theorem unitRearm (t : Nat) (unit : Nat) : Statement (.unitRearm t unit) := fun _ _ hk => nomatch hk
theorem holdoffEnd (t : Nat) (unit : Nat) : Statement (.holdoffEnd t unit) := fun _ _ hk => nomatch hk
theorem sequencePendingExpiry (t : Nat) (unit : Nat) : Statement (.sequencePendingExpiry t unit) := fun _ _ hk => nomatch hk
theorem trigInEdge (t : Nat) (rising : Bool) : Statement (.trigInEdge t rising) := fun _ _ hk => nomatch hk
theorem trigOutPulseEnd (t : Nat) : Statement (.trigOutPulseEnd t) := fun _ _ hk => nomatch hk
theorem voterDisagreement (t : Nat) (voter : Nat) : Statement (.voterDisagreement t voter) := fun _ _ hk => nomatch hk
theorem triggerEventIntervalClose (t : Nat) (unit : Nat) : Statement (.triggerEventIntervalClose t unit) := fun _ _ hk => nomatch hk
theorem acqCreateContext (t : Nat) (fn : Nat) (tag : Nat) : Statement (.acqCreateContext t fn tag) := fun _ h hk => of_wf h hk
theorem acqArm (t : Nat) (fn : Nat) (tag : Nat) : Statement (.acqArm t fn tag) := fun _ h hk => of_wf h hk
theorem acqStop (t : Nat) (fn : Nat) (tag : Nat) : Statement (.acqStop t fn tag) := fun _ h hk => of_wf h hk
theorem acqDestroy (t : Nat) (fn : Nat) (tag : Nat) : Statement (.acqDestroy t fn tag) := fun _ h hk => of_wf h hk
theorem acqLoadTestMask (t : Nat) (fn : Nat) (tag : Nat) (table : List Byte) : Statement (.acqLoadTestMask t fn tag table) := fun _ h hk => of_wf h hk
theorem acqGetStatus (t : Nat) (fn : Nat) (tag : Nat) : Statement (.acqGetStatus t fn tag) := fun _ h hk => of_wf h hk
theorem acqScheduledArm (t : Nat) (context : Nat) : Statement (.acqScheduledArm t context) := fun _ _ hk => nomatch hk
theorem ringFilled (t : Nat) (context : Nat) : Statement (.ringFilled t context) := fun _ _ hk => nomatch hk
theorem segmentTrigger (t : Nat) (context : Nat) : Statement (.segmentTrigger t context) := fun _ _ hk => nomatch hk
theorem segmentEnd (t : Nat) (context : Nat) (count : Computed) (first : Computed) (endTick : Computed) (settled : Computed) (flags : Computed) (codes : List Int) : Statement (.segmentEnd t context count first endTick settled flags codes) := fun _ _ hk => nomatch hk
theorem contextRearm (t : Nat) (context : Nat) : Statement (.contextRearm t context) := fun _ _ hk => nomatch hk
theorem gapBegin (t : Nat) (context : Nat) (cause : Nat) (element : Nat) (start : Computed) (ticks : Computed) (count : Nat) : Statement (.gapBegin t context cause element start ticks count) := fun _ _ hk => nomatch hk
theorem stagingDrainTimeout (t : Nat) (context : Nat) (element : Computed) (start : Computed) (ticks : Computed) (count : Computed) : Statement (.stagingDrainTimeout t context element start ticks count) := fun _ _ hk => nomatch hk
theorem segmentEventIntervalClose (t : Nat) (context : Nat) : Statement (.segmentEventIntervalClose t context) := fun _ _ hk => nomatch hk
theorem gapEventIntervalClose (t : Nat) (context : Nat) : Statement (.gapEventIntervalClose t context) := fun _ _ hk => nomatch hk
theorem contextStateRebuild (t : Nat) (context : Nat) : Statement (.contextStateRebuild t context) := fun _ _ hk => nomatch hk
theorem sorrelLoadKernel (t : Nat) (fn : Nat) (tag : Nat) (image : List Byte) : Statement (.sorrelLoadKernel t fn tag image) := fun _ h hk => of_wf h hk
theorem sorrelStart (t : Nat) (fn : Nat) (tag : Nat) : Statement (.sorrelStart t fn tag) := fun _ h hk => of_wf h hk
theorem sorrelStop (t : Nat) (fn : Nat) (tag : Nat) : Statement (.sorrelStop t fn tag) := fun _ h hk => of_wf h hk
theorem sorrelBind (t : Nat) (fn : Nat) (tag : Nat) : Statement (.sorrelBind t fn tag) := fun _ h hk => of_wf h hk
theorem sorrelGetStatus (t : Nat) (fn : Nat) (tag : Nat) : Statement (.sorrelGetStatus t fn tag) := fun _ h hk => of_wf h hk
theorem sorrelScheduledStart (t : Nat) (core : Nat) : Statement (.sorrelScheduledStart t core) := fun _ _ hk => nomatch hk
theorem inputBlockArrival (t : Nat) (core : Nat) (port : Nat) (index : Nat) (mapped : Bool) (ovr : Computed) (unsettled : Computed) (settled : Computed) (codes : List Int) : Statement (.inputBlockArrival t core port index mapped ovr unsettled settled codes) := fun _ _ hk => nomatch hk
theorem coreFault (t : Nat) (core : Nat) (quad : Bool) : Statement (.coreFault t core quad) := fun _ _ hk => nomatch hk
theorem activationCreditExhausted (t : Nat) (core : Nat) : Statement (.activationCreditExhausted t core) := fun _ _ hk => nomatch hk
theorem isaAdd (t : Nat) (core : Nat) : Statement (.isaAdd t core) := fun _ _ hk => nomatch hk
theorem isaSub (t : Nat) (core : Nat) : Statement (.isaSub t core) := fun _ _ hk => nomatch hk
theorem isaAnd (t : Nat) (core : Nat) : Statement (.isaAnd t core) := fun _ _ hk => nomatch hk
theorem isaOr (t : Nat) (core : Nat) : Statement (.isaOr t core) := fun _ _ hk => nomatch hk
theorem isaXor (t : Nat) (core : Nat) : Statement (.isaXor t core) := fun _ _ hk => nomatch hk
theorem isaShl (t : Nat) (core : Nat) : Statement (.isaShl t core) := fun _ _ hk => nomatch hk
theorem isaShra (t : Nat) (core : Nat) : Statement (.isaShra t core) := fun _ _ hk => nomatch hk
theorem isaShrl (t : Nat) (core : Nat) : Statement (.isaShrl t core) := fun _ _ hk => nomatch hk
theorem isaMul (t : Nat) (core : Nat) : Statement (.isaMul t core) := fun _ _ hk => nomatch hk
theorem isaMulh (t : Nat) (core : Nat) : Statement (.isaMulh t core) := fun _ _ hk => nomatch hk
theorem isaMin (t : Nat) (core : Nat) : Statement (.isaMin t core) := fun _ _ hk => nomatch hk
theorem isaMax (t : Nat) (core : Nat) : Statement (.isaMax t core) := fun _ _ hk => nomatch hk
theorem isaCmpeq (t : Nat) (core : Nat) : Statement (.isaCmpeq t core) := fun _ _ hk => nomatch hk
theorem isaCmplt (t : Nat) (core : Nat) : Statement (.isaCmplt t core) := fun _ _ hk => nomatch hk
theorem isaCmpltu (t : Nat) (core : Nat) : Statement (.isaCmpltu t core) := fun _ _ hk => nomatch hk
theorem isaLi (t : Nat) (core : Nat) : Statement (.isaLi t core) := fun _ _ hk => nomatch hk
theorem isaMfs (t : Nat) (core : Nat) : Statement (.isaMfs t core) := fun _ _ hk => nomatch hk
theorem isaMts (t : Nat) (core : Nat) : Statement (.isaMts t core) := fun _ _ hk => nomatch hk
theorem isaLds (t : Nat) (core : Nat) : Statement (.isaLds t core) := fun _ _ hk => nomatch hk
theorem isaSts (t : Nat) (core : Nat) : Statement (.isaSts t core) := fun _ _ hk => nomatch hk
theorem isaLdv (t : Nat) (core : Nat) : Statement (.isaLdv t core) := fun _ _ hk => nomatch hk
theorem isaStv (t : Nat) (core : Nat) : Statement (.isaStv t core) := fun _ _ hk => nomatch hk
theorem isaLdc (t : Nat) (core : Nat) : Statement (.isaLdc t core) := fun _ _ hk => nomatch hk
theorem isaSta (t : Nat) (core : Nat) : Statement (.isaSta t core) := fun _ _ hk => nomatch hk
theorem isaCadd (t : Nat) (core : Nat) : Statement (.isaCadd t core) := fun _ _ hk => nomatch hk
theorem isaCsub (t : Nat) (core : Nat) : Statement (.isaCsub t core) := fun _ _ hk => nomatch hk
theorem isaCmul (t : Nat) (core : Nat) : Statement (.isaCmul t core) := fun _ _ hk => nomatch hk
theorem isaCmulj (t : Nat) (core : Nat) : Statement (.isaCmulj t core) := fun _ _ hk => nomatch hk
theorem isaConj (t : Nat) (core : Nat) : Statement (.isaConj t core) := fun _ _ hk => nomatch hk
theorem isaVmov (t : Nat) (core : Nat) : Statement (.isaVmov t core) := fun _ _ hk => nomatch hk
theorem isaVpowr (t : Nat) (core : Nat) : Statement (.isaVpowr t core) := fun _ _ hk => nomatch hk
theorem isaCmac (t : Nat) (core : Nat) : Statement (.isaCmac t core) := fun _ _ hk => nomatch hk
theorem isaCmacj (t : Nat) (core : Nat) : Statement (.isaCmacj t core) := fun _ _ hk => nomatch hk
theorem isaTapmv (t : Nat) (core : Nat) : Statement (.isaTapmv t core) := fun _ _ hk => nomatch hk
theorem isaAccz (t : Nat) (core : Nat) : Statement (.isaAccz t core) := fun _ _ hk => nomatch hk
theorem isaAccr (t : Nat) (core : Nat) : Statement (.isaAccr t core) := fun _ _ hk => nomatch hk
theorem isaAccs (t : Nat) (core : Nat) : Statement (.isaAccs t core) := fun _ _ hk => nomatch hk
theorem isaMaxi (t : Nat) (core : Nat) : Statement (.isaMaxi t core) := fun _ _ hk => nomatch hk
theorem isaMini (t : Nat) (core : Nat) : Statement (.isaMini t core) := fun _ _ hk => nomatch hk
theorem isaExpb (t : Nat) (core : Nat) : Statement (.isaExpb t core) := fun _ _ hk => nomatch hk
theorem isaShfb (t : Nat) (core : Nat) : Statement (.isaShfb t core) := fun _ _ hk => nomatch hk
theorem isaBr (t : Nat) (core : Nat) : Statement (.isaBr t core) := fun _ _ hk => nomatch hk
theorem isaJmp (t : Nat) (core : Nat) : Statement (.isaJmp t core) := fun _ _ hk => nomatch hk
theorem isaLoop (t : Nat) (core : Nat) : Statement (.isaLoop t core) := fun _ _ hk => nomatch hk
theorem isaWait (t : Nat) (core : Nat) : Statement (.isaWait t core) := fun _ _ hk => nomatch hk
theorem isaYield (t : Nat) (core : Nat) : Statement (.isaYield t core) := fun _ _ hk => nomatch hk
theorem isaEmit (t : Nat) (core : Nat) : Statement (.isaEmit t core) := fun _ _ hk => nomatch hk
theorem isaMbox (t : Nat) (core : Nat) : Statement (.isaMbox t core) := fun _ _ hk => nomatch hk
theorem isaSetag (t : Nat) (core : Nat) : Statement (.isaSetag t core) := fun _ _ hk => nomatch hk
theorem isaHalt (t : Nat) (core : Nat) : Statement (.isaHalt t core) := fun _ _ hk => nomatch hk
theorem isaNop (t : Nat) (core : Nat) : Statement (.isaNop t core) := fun _ _ hk => nomatch hk
theorem patDefineSegment (t : Nat) (fn : Nat) (tag : Nat) : Statement (.patDefineSegment t fn tag) := fun _ h hk => of_wf h hk
theorem patWriteSegment (t : Nat) (fn : Nat) (tag : Nat) (table : List Byte) : Statement (.patWriteSegment t fn tag table) := fun _ h hk => of_wf h hk
theorem patLoadTable (t : Nat) (fn : Nat) (tag : Nat) : Statement (.patLoadTable t fn tag) := fun _ h hk => of_wf h hk
theorem patDefineSite (t : Nat) (fn : Nat) (tag : Nat) : Statement (.patDefineSite t fn tag) := fun _ h hk => of_wf h hk
theorem patStart (t : Nat) (fn : Nat) (tag : Nat) : Statement (.patStart t fn tag) := fun _ h hk => of_wf h hk
theorem patStop (t : Nat) (fn : Nat) (tag : Nat) (vecs : List (Nat × Nat)) : Statement (.patStop t fn tag vecs) := fun _ h hk => of_wf h hk
theorem patRequestJump (t : Nat) (fn : Nat) (tag : Nat) (vecs : List (Nat × Nat)) : Statement (.patRequestJump t fn tag vecs) := fun _ h hk => of_wf h hk
theorem patGetResult (t : Nat) (fn : Nat) (tag : Nat) (index : Nat) : Statement (.patGetResult t fn tag index) := fun _ h hk => of_wf h hk
theorem patLoadTimesets (t : Nat) (fn : Nat) (tag : Nat) (table : List Byte) : Statement (.patLoadTimesets t fn tag table) := fun _ h hk => of_wf h hk
theorem patScheduledStart (t : Nat) (site : Nat) (vcount : Computed) : Statement (.patScheduledStart t site vcount) := fun _ _ hk => nomatch hk
theorem decisionPoint (t : Nat) (site : Nat) : Statement (.decisionPoint t site) := fun _ _ hk => nomatch hk
theorem segmentBoundary (t : Nat) (site : Nat) (last : Stamp) : Statement (.segmentBoundary t site last) := fun _ _ hk => nomatch hk
theorem triggerJumpArrival (t : Nat) (site : Nat) (index : Nat) : Statement (.triggerJumpArrival t site index) := fun _ _ hk => nomatch hk
theorem siteEventArrival (t : Nat) (site : Nat) (launch : Stamp) : Statement (.siteEventArrival t site launch) := fun _ _ hk => nomatch hk
theorem refillLate (t : Nat) (site : Nat) (index : Nat) (device : Nat) : Statement (.refillLate t site index device) := fun _ _ hk => nomatch hk
theorem sitePark (t : Nat) (site : Nat) (index : Nat) : Statement (.sitePark t site index) := fun _ _ hk => nomatch hk
theorem trellisDiscover (t : Nat) (fn : Nat) (tag : Nat) : Statement (.trellisDiscover t fn tag) := fun _ h hk => of_wf h hk
theorem trellisGetStatus (t : Nat) (fn : Nat) (tag : Nat) : Statement (.trellisGetStatus t fn tag) := fun _ h hk => of_wf h hk
theorem trellisConfigureCapture (t : Nat) (fn : Nat) (tag : Nat) : Statement (.trellisConfigureCapture t fn tag) := fun _ h hk => of_wf h hk
theorem trellisDeskew (t : Nat) (fn : Nat) (tag : Nat) (means : Computed) : Statement (.trellisDeskew t fn tag means) := fun _ h hk => of_wf h hk
theorem upstreamCodeword (t : Nat) (lane : Nat) (levels : List Nat) (errors : List (Nat × Nat)) (corrected : Computed) (discarded : Computed) : Statement (.upstreamCodeword t lane levels errors corrected discarded) := fun _ _ hk => nomatch hk
theorem idleFrame (t : Nat) (lane : Nat) (frame : List Byte) : Statement (.idleFrame t lane frame) := fun _ _ hk => nomatch hk
theorem identFrame (t : Nat) (lane : Nat) (frame : List Byte) : Statement (.identFrame t lane frame) := fun _ _ hk => nomatch hk
theorem progressFrame (t : Nat) (lane : Nat) (frame : List Byte) : Statement (.progressFrame t lane frame) := fun _ _ hk => nomatch hk
theorem failFrame (t : Nat) (lane : Nat) (frame : List Byte) : Statement (.failFrame t lane frame) := fun _ _ hk => nomatch hk
theorem captureFrame (t : Nat) (lane : Nat) (frame : List Byte) : Statement (.captureFrame t lane frame) := fun _ _ hk => nomatch hk
theorem matchFrame (t : Nat) (lane : Nat) (frame : List Byte) : Statement (.matchFrame t lane frame) := fun _ _ hk => nomatch hk
theorem receiptFrame (t : Nat) (lane : Nat) (frame : List Byte) (vecs : List (Nat × Nat)) : Statement (.receiptFrame t lane frame vecs) := fun _ _ hk => nomatch hk
theorem eventFrame (t : Nat) (lane : Nat) (frame : List Byte) (index : Nat) : Statement (.eventFrame t lane frame index) := fun _ _ hk => nomatch hk
theorem countersFrame (t : Nat) (lane : Nat) (frame : List Byte) : Statement (.countersFrame t lane frame) := fun _ _ hk => nomatch hk
theorem loopReplyFrame (t : Nat) (lane : Nat) (frame : List Byte) (rtt : Nat) : Statement (.loopReplyFrame t lane frame rtt) := fun _ _ hk => nomatch hk
theorem faultFrame (t : Nat) (lane : Nat) (frame : List Byte) : Statement (.faultFrame t lane frame) := fun _ _ hk => nomatch hk
theorem reliableResendTimeout (t : Nat) (device : Nat) : Statement (.reliableResendTimeout t device) := fun _ _ hk => nomatch hk
theorem laneDown (t : Nat) (lane : Nat) (upstream : Bool) : Statement (.laneDown t lane upstream) := fun _ _ hk => nomatch hk
theorem deviceLost (t : Nat) (device : Nat) : Statement (.deviceLost t device) := fun _ _ hk => nomatch hk
theorem sidePortFailure (t : Nat) (pair : Nat) : Statement (.sidePortFailure t pair) := fun _ _ hk => nomatch hk
theorem stimDefineSegment (t : Nat) (fn : Nat) (tag : Nat) : Statement (.stimDefineSegment t fn tag) := fun _ h hk => of_wf h hk
theorem stimWriteSegment (t : Nat) (fn : Nat) (tag : Nat) (table : List Byte) : Statement (.stimWriteSegment t fn tag table) := fun _ h hk => of_wf h hk
theorem stimLoadTable (t : Nat) (fn : Nat) (tag : Nat) : Statement (.stimLoadTable t fn tag) := fun _ h hk => of_wf h hk
theorem stimStart (t : Nat) (fn : Nat) (tag : Nat) : Statement (.stimStart t fn tag) := fun _ h hk => of_wf h hk
theorem stimStop (t : Nat) (fn : Nat) (tag : Nat) : Statement (.stimStop t fn tag) := fun _ h hk => of_wf h hk
theorem stimRequestJump (t : Nat) (fn : Nat) (tag : Nat) : Statement (.stimRequestJump t fn tag) := fun _ h hk => of_wf h hk
theorem stimScheduledStart (t : Nat) (output : Nat) : Statement (.stimScheduledStart t output) := fun _ _ hk => nomatch hk
theorem stimDecisionPoint (t : Nat) (output : Nat) : Statement (.stimDecisionPoint t output) := fun _ _ hk => nomatch hk
theorem stimBoundary (t : Nat) (output : Nat) : Statement (.stimBoundary t output) := fun _ _ hk => nomatch hk
theorem stimTriggerJumpArrival (t : Nat) (output : Nat) : Statement (.stimTriggerJumpArrival t output) := fun _ _ hk => nomatch hk
theorem stimRefillLate (t : Nat) (output : Nat) : Statement (.stimRefillLate t output) := fun _ _ hk => nomatch hk
theorem stimPark (t : Nat) (output : Nat) : Statement (.stimPark t output) := fun _ _ hk => nomatch hk
theorem vineConfigure (t : Nat) (fn : Nat) (tag : Nat) : Statement (.vineConfigure t fn tag) := fun _ h hk => of_wf h hk
theorem vineCalibrateSkew (t : Nat) (fn : Nat) (tag : Nat) : Statement (.vineCalibrateSkew t fn tag) := fun _ h hk => of_wf h hk
theorem vineGetStatus (t : Nat) (fn : Nat) (tag : Nat) : Statement (.vineGetStatus t fn tag) := fun _ h hk => of_wf h hk
theorem vineScheduleSync (t : Nat) (fn : Nat) (tag : Nat) : Statement (.vineScheduleSync t fn tag) := fun _ h hk => of_wf h hk
theorem epochEdge (t : Nat) : Statement (.epochEdge t) := fun _ _ hk => nomatch hk
theorem epochFrameReceived (t : Nat) (number : Nat) (crc : Nat) (arrival : Stamp) : Statement (.epochFrameReceived t number crc arrival) := fun _ _ hk => nomatch hk
theorem vineEventFrameReceived (t : Nat) (payload : Nat) (crc : Nat) : Statement (.vineEventFrameReceived t payload crc) := fun _ _ hk => nomatch hk
theorem delayFrameReceived (t : Nat) (delay : Nat) (crc : Nat) : Statement (.delayFrameReceived t delay crc) := fun _ _ hk => nomatch hk
theorem vineEventSend (t : Nat) : Statement (.vineEventSend t) := fun _ _ hk => nomatch hk
theorem echoPulseSend (t : Nat) (stamp : Stamp) : Statement (.echoPulseSend t stamp) := fun _ _ hk => nomatch hk
theorem echoPulseReturn (t : Nat) (stamp : Stamp) : Statement (.echoPulseReturn t stamp) := fun _ _ hk => nomatch hk
theorem vineNeighbourLost (t : Nat) (cause : Nat) : Statement (.vineNeighbourLost t cause) := fun _ _ hk => nomatch hk
theorem vineSignalsReturn (t : Nat) (phase : Int) : Statement (.vineSignalsReturn t phase) := fun _ _ hk => nomatch hk
theorem tiuConfigureChannel (t : Nat) (fn : Nat) (tag : Nat) : Statement (.tiuConfigureChannel t fn tag) := fun _ h hk => of_wf h hk
theorem tiuStart (t : Nat) (fn : Nat) (tag : Nat) : Statement (.tiuStart t fn tag) := fun _ h hk => of_wf h hk
theorem tiuStop (t : Nat) (fn : Nat) (tag : Nat) : Statement (.tiuStop t fn tag) := fun _ h hk => of_wf h hk
theorem tiuReadStats (t : Nat) (fn : Nat) (tag : Nat) : Statement (.tiuReadStats t fn tag) := fun _ h hk => of_wf h hk
theorem tiuGetStatus (t : Nat) (fn : Nat) (tag : Nat) (highMv : Nat) (lowMv : Nat) (rate : Computed) : Statement (.tiuGetStatus t fn tag highMv lowMv rate) := fun _ h hk => of_wf h hk
theorem tiuScheduledStart (t : Nat) (channel : Nat) : Statement (.tiuScheduledStart t channel) := fun _ _ hk => nomatch hk
theorem tiuEdge (t : Nat) (channel : Nat) (levels : List Int) (fraction : Nat) (unsettled : Bool) : Statement (.tiuEdge t channel levels fraction unsettled) := fun _ _ hk => nomatch hk
theorem interpolatorRotationStep (t : Nat) (group : Nat) : Statement (.interpolatorRotationStep t group) := fun _ _ hk => nomatch hk
theorem interpolatorFailure (t : Nat) (group : Nat) (unit : Nat) : Statement (.interpolatorFailure t group unit) := fun _ _ hk => nomatch hk
theorem statsBlockComplete (t : Nat) (channel : Nat) : Statement (.statsBlockComplete t channel) := fun _ _ hk => nomatch hk
theorem tiuStatsIntervalClose (t : Nat) (channel : Nat) : Statement (.tiuStatsIntervalClose t channel) := fun _ _ hk => nomatch hk
theorem monConfigureComparator (t : Nat) (fn : Nat) (tag : Nat) : Statement (.monConfigureComparator t fn tag) := fun _ h hk => of_wf h hk
theorem monLoadSequence (t : Nat) (fn : Nat) (tag : Nat) : Statement (.monLoadSequence t fn tag) := fun _ h hk => of_wf h hk
theorem monStartSequence (t : Nat) (fn : Nat) (tag : Nat) : Statement (.monStartSequence t fn tag) := fun _ h hk => of_wf h hk
theorem monStopSequence (t : Nat) (fn : Nat) (tag : Nat) : Statement (.monStopSequence t fn tag) := fun _ h hk => of_wf h hk
theorem monRead (t : Nat) (fn : Nat) (tag : Nat) : Statement (.monRead t fn tag) := fun _ h hk => of_wf h hk
theorem monSetReference (t : Nat) (fn : Nat) (tag : Nat) : Statement (.monSetReference t fn tag) := fun _ h hk => of_wf h hk
theorem monScheduledStart (t : Nat) : Statement (.monScheduledStart t) := fun _ _ hk => nomatch hk
theorem comparatorChange (t : Nat) (comp : Nat) (input : Int) (stamp : Computed) : Statement (.comparatorChange t comp input stamp) := fun _ _ hk => nomatch hk
theorem m3Tick (t : Nat) (comp : Nat) (input : Int) (stamp : Computed) : Statement (.m3Tick t comp input stamp) := fun _ _ hk => nomatch hk
theorem comparatorThresholdApply (t : Nat) (comp : Nat) (readback : Nat) : Statement (.comparatorThresholdApply t comp readback) := fun _ _ hk => nomatch hk
theorem blankingWindowClose (t : Nat) (comp : Nat) : Statement (.blankingWindowClose t comp) := fun _ _ hk => nomatch hk
theorem comparatorEventIntervalClose (t : Nat) (comp : Nat) : Statement (.comparatorEventIntervalClose t comp) := fun _ _ hk => nomatch hk
theorem wakeRequest (t : Nat) : Statement (.wakeRequest t) := fun _ _ hk => nomatch hk
theorem conversionComplete (t : Nat) (code : Nat) (outside : Nat) : Statement (.conversionComplete t code outside) := fun _ _ hk => nomatch hk
theorem entryDelayExpiry (t : Nat) : Statement (.entryDelayExpiry t) := fun _ _ hk => nomatch hk
theorem housekeepingConversion (t : Nat) : Statement (.housekeepingConversion t) := fun _ _ hk => nomatch hk
theorem recoveryConversion (t : Nat) : Statement (.recoveryConversion t) := fun _ _ hk => nomatch hk
theorem referenceSettled (t : Nat) : Statement (.referenceSettled t) := fun _ _ hk => nomatch hk
theorem cellarAllocate (t : Nat) (fn : Nat) (tag : Nat) : Statement (.cellarAllocate t fn tag) := fun _ h hk => of_wf h hk
theorem cellarFree (t : Nat) (fn : Nat) (tag : Nat) : Statement (.cellarFree t fn tag) := fun _ h hk => of_wf h hk
theorem cellarGetStatus (t : Nat) (fn : Nat) (tag : Nat) (temps : List Int) : Statement (.cellarGetStatus t fn tag temps) := fun _ h hk => of_wf h hk
theorem cellarSetOperatingPoint (t : Nat) (fn : Nat) (tag : Nat) : Statement (.cellarSetOperatingPoint t fn tag) := fun _ h hk => of_wf h hk
theorem regionZeroComplete (t : Nat) (base : Nat) : Statement (.regionZeroComplete t base) := fun _ _ hk => nomatch hk
theorem cellarRequest (t : Nat) (port : Nat) (addr : Nat) (size : Nat) (write : Bool) (data : List Byte) (serve : Nat) (activates : List (Nat × Nat)) : Statement (.cellarRequest t port addr size write data serve activates) := fun _ _ hk => nomatch hk
theorem urgencyLevelRise (t : Nat) : Statement (.urgencyLevelRise t) := fun _ _ hk => nomatch hk
theorem writeBufferMergeTimeout (t : Nat) (stripe : Nat) : Statement (.writeBufferMergeTimeout t stripe) := fun _ _ hk => nomatch hk
theorem patrolScrub (t : Nat) (corrected : List Nat) (rebuilt : List Nat) : Statement (.patrolScrub t corrected rebuilt) := fun _ _ hk => nomatch hk
theorem refreshWindowStart (t : Nat) : Statement (.refreshWindowStart t) := fun _ _ hk => nomatch hk
theorem rowHammerThreshold (t : Nat) (stack : Nat) (bank : Nat) : Statement (.rowHammerThreshold t stack bank) := fun _ _ hk => nomatch hk
theorem retrainPauseStart (t : Nat) (channel : Nat) : Statement (.retrainPauseStart t channel) := fun _ _ hk => nomatch hk
theorem retrainPauseEnd (t : Nat) (channel : Nat) (trained : Bool) (fill : Nat) : Statement (.retrainPauseEnd t channel trained fill) := fun _ _ hk => nomatch hk
theorem pseudoChannelFailure (t : Nat) (stack : Nat) (pc : Nat) : Statement (.pseudoChannelFailure t stack pc) := fun _ _ hk => nomatch hk
theorem stackFailure (t : Nat) (stack : Nat) : Statement (.stackFailure t stack) := fun _ _ hk => nomatch hk
theorem rebuildComplete (t : Nat) (stack : Nat) : Statement (.rebuildComplete t stack) := fun _ _ hk => nomatch hk
theorem stackOpPointServing (t : Nat) (stack : Nat) : Statement (.stackOpPointServing t stack) := fun _ _ hk => nomatch hk
theorem stackBufferDrained (t : Nat) (stack : Nat) (fill : Nat) : Statement (.stackBufferDrained t stack fill) := fun _ _ hk => nomatch hk
theorem flowCreate (t : Nat) (fn : Nat) (tag : Nat) : Statement (.flowCreate t fn tag) := fun _ h hk => of_wf h hk
theorem flowEnable (t : Nat) (fn : Nat) (tag : Nat) : Statement (.flowEnable t fn tag) := fun _ h hk => of_wf h hk
theorem flowDisable (t : Nat) (fn : Nat) (tag : Nat) : Statement (.flowDisable t fn tag) := fun _ h hk => of_wf h hk
theorem flowDestroy (t : Nat) (fn : Nat) (tag : Nat) : Statement (.flowDestroy t fn tag) := fun _ h hk => of_wf h hk
theorem flowPostDescriptors (t : Nat) (fn : Nat) (tag : Nat) : Statement (.flowPostDescriptors t fn tag) := fun _ h hk => of_wf h hk
theorem flowGetStatus (t : Nat) (fn : Nat) (tag : Nat) : Statement (.flowGetStatus t fn tag) := fun _ h hk => of_wf h hk
theorem descriptorFetched (t : Nat) (flow : Nat) (bytes : List Byte) (index : List Nat) : Statement (.descriptorFetched t flow bytes index) := fun _ _ hk => nomatch hk
theorem producerUnitArrival (t : Nat) (flow : Nat) : Statement (.producerUnitArrival t flow) := fun _ _ hk => nomatch hk
theorem burstAdmission (t : Nat) : Statement (.burstAdmission t) := fun _ _ hk => nomatch hk
theorem burstCompletion (t : Nat) (flow : Nat) (offset : Nat) (data : List Byte) : Statement (.burstCompletion t flow offset data) := fun _ _ hk => nomatch hk
theorem burstError (t : Nat) (flow : Nat) (offset : Nat) : Statement (.burstError t flow offset) := fun _ _ hk => nomatch hk
theorem hostReadTimeout (t : Nat) (flow : Nat) : Statement (.hostReadTimeout t flow) := fun _ _ hk => nomatch hk
theorem streamConfigurePort (t : Nat) (fn : Nat) (tag : Nat) : Statement (.streamConfigurePort t fn tag) := fun _ h hk => of_wf h hk
theorem streamBindFlow (t : Nat) (fn : Nat) (tag : Nat) : Statement (.streamBindFlow t fn tag) := fun _ h hk => of_wf h hk
theorem streamGetStatus (t : Nat) (fn : Nat) (tag : Nat) : Statement (.streamGetStatus t fn tag) := fun _ h hk => of_wf h hk
theorem portLinkUp (t : Nat) (port : Nat) : Statement (.portLinkUp t port) := fun _ _ hk => nomatch hk
theorem packetFlushTimeout (t : Nat) (flow : Nat) : Statement (.packetFlushTimeout t flow) := fun _ _ hk => nomatch hk
theorem packetTransmit (t : Nat) (port : Nat) (flow : Nat) : Statement (.packetTransmit t port flow) := fun _ _ hk => nomatch hk
theorem heartbeatTimer (t : Nat) (port : Nat) : Statement (.heartbeatTimer t port) := fun _ _ hk => nomatch hk
theorem portFailure (t : Nat) (port : Nat) (cause : Nat) : Statement (.portFailure t port cause) := fun _ _ hk => nomatch hk
theorem arpRequestReceived (t : Nat) (port : Nat) (senderMac : List Byte) (senderIp : List Byte) (target : List Byte) : Statement (.arpRequestReceived t port senderMac senderIp target) := fun _ _ hk => nomatch hk
theorem neighbourSolicitationReceived (t : Nat) (port : Nat) (senderMac : List Byte) (senderIp : List Byte) (target : List Byte) : Statement (.neighbourSolicitationReceived t port senderMac senderIp target) := fun _ _ hk => nomatch hk
theorem pauseFrameReceived (t : Nat) (port : Nat) : Statement (.pauseFrameReceived t port) := fun _ _ hk => nomatch hk
theorem otherFrameReceived (t : Nat) (port : Nat) : Statement (.otherFrameReceived t port) := fun _ _ hk => nomatch hk
theorem dispSetTiming (t : Nat) (fn : Nat) (tag : Nat) : Statement (.dispSetTiming t fn tag) := fun _ h hk => of_wf h hk
theorem dispSetGenlock (t : Nat) (fn : Nat) (tag : Nat) : Statement (.dispSetGenlock t fn tag) := fun _ h hk => of_wf h hk
theorem dispConfigureLayer (t : Nat) (fn : Nat) (tag : Nat) (image : List Byte) : Statement (.dispConfigureLayer t fn tag image) := fun _ h hk => of_wf h hk
theorem dispSetPalette (t : Nat) (fn : Nat) (tag : Nat) : Statement (.dispSetPalette t fn tag) := fun _ h hk => of_wf h hk
theorem dispEnable (t : Nat) (fn : Nat) (tag : Nat) (pixelHz : Nat) (edid : List Byte) : Statement (.dispEnable t fn tag pixelHz edid) := fun _ h hk => of_wf h hk
theorem dispDisable (t : Nat) (fn : Nat) (tag : Nat) : Statement (.dispDisable t fn tag) := fun _ h hk => of_wf h hk
theorem latchLine (t : Nat) : Statement (.latchLine t) := fun _ _ hk => nomatch hk
theorem matchLineReached (t : Nat) : Statement (.matchLineReached t) := fun _ _ hk => nomatch hk
theorem frameEnd (t : Nat) : Statement (.frameEnd t) := fun _ _ hk => nomatch hk
theorem lineUnderrun (t : Nat) (line : Nat) : Statement (.lineUnderrun t line) := fun _ _ hk => nomatch hk
theorem overlayFetchFault (t : Nat) (line : Nat) : Statement (.overlayFetchFault t line) := fun _ _ hk => nomatch hk
theorem genlockEdge (t : Nat) (locked : Bool) : Statement (.genlockEdge t locked) := fun _ _ hk => nomatch hk
theorem genlockLost (t : Nat) : Statement (.genlockLost t) := fun _ _ hk => nomatch hk
theorem hpdUnplug (t : Nat) : Statement (.hpdUnplug t) := fun _ _ hk => nomatch hk
theorem hpdReturn (t : Nat) : Statement (.hpdReturn t) := fun _ _ hk => nomatch hk
theorem scanoutMismatch (t : Nat) (copy : Nat) : Statement (.scanoutMismatch t copy) := fun _ _ hk => nomatch hk
theorem budgetSetPowerCap (t : Nat) (fn : Nat) (tag : Nat) : Statement (.budgetSetPowerCap t fn tag) := fun _ h hk => of_wf h hk
theorem budgetGrant (t : Nat) (fn : Nat) (tag : Nat) : Statement (.budgetGrant t fn tag) := fun _ h hk => of_wf h hk
theorem budgetRevoke (t : Nat) (fn : Nat) (tag : Nat) : Statement (.budgetRevoke t fn tag) := fun _ h hk => of_wf h hk
theorem budgetReadLedger (t : Nat) (fn : Nat) (tag : Nat) : Statement (.budgetReadLedger t fn tag) := fun _ h hk => of_wf h hk
theorem budgetGetCapacity (t : Nat) (fn : Nat) (tag : Nat) : Statement (.budgetGetCapacity t fn tag) := fun _ h hk => of_wf h hk
theorem budgetPeriodBoundary (t : Nat) : Statement (.budgetPeriodBoundary t) := fun _ _ hk => nomatch hk
theorem ageingInterval (t : Nat) (flow : Nat) : Statement (.ageingInterval t flow) := fun _ _ hk => nomatch hk
theorem latencyTargetReached (t : Nat) (kind : Nat) (object : Nat) (resource : Nat) : Statement (.latencyTargetReached t kind object resource) := fun _ _ hk => nomatch hk
theorem urgentIntervalClose (t : Nat) (kind : Nat) (object : Nat) : Statement (.urgentIntervalClose t kind object) := fun _ _ hk => nomatch hk
theorem ledgerUpdate (t : Nat) (power : Nat) (total : Nat) (energies : List (Nat × Nat)) : Statement (.ledgerUpdate t power total energies) := fun _ _ hk => nomatch hk
theorem throttleStageAdvance (t : Nat) : Statement (.throttleStageAdvance t) := fun _ _ hk => nomatch hk
theorem throttleStageRelease (t : Nat) : Statement (.throttleStageRelease t) := fun _ _ hk => nomatch hk
theorem faultReadLog (t : Nat) (fn : Nat) (tag : Nat) : Statement (.faultReadLog t fn tag) := fun _ h hk => of_wf h hk
theorem faultGetHealth (t : Nat) (fn : Nat) (tag : Nat) : Statement (.faultGetHealth t fn tag) := fun _ h hk => of_wf h hk
theorem faultInject (t : Nat) (fn : Nat) (tag : Nat) : Statement (.faultInject t fn tag) := fun _ h hk => of_wf h hk
theorem faultClearLog (t : Nat) (fn : Nat) (tag : Nat) : Statement (.faultClearLog t fn tag) := fun _ h hk => of_wf h hk
theorem injectedUnitRestore (t : Nat) (cls : Nat) (pool : Nat) (unit : Nat) (passed : Bool) : Statement (.injectedUnitRestore t cls pool unit passed) := fun _ _ hk => nomatch hk
theorem stewardPairHalt (t : Nat) (pair : Nat) : Statement (.stewardPairHalt t pair) := fun _ _ hk => nomatch hk
theorem stewardTakeoverComplete (t : Nat) : Statement (.stewardTakeoverComplete t) := fun _ _ hk => nomatch hk
theorem sramScrubPass (t : Nat) (corrected : Nat) : Statement (.sramScrubPass t corrected) := fun _ _ hk => nomatch hk
theorem uncorrectableSramWord (t : Nat) (duplicated : Bool) (cls : Nat) (pool : Nat) (unit : Nat) (detail : Nat) : Statement (.uncorrectableSramWord t duplicated cls pool unit detail) := fun _ _ hk => nomatch hk
theorem fabricPllFault (t : Nat) (pair : Nat) (unit : Nat) (stops : Bool) : Statement (.fabricPllFault t pair unit stops) := fun _ _ hk => nomatch hk
theorem regulatorPhaseFault (t : Nat) (rail : Nat) (phase : Nat) : Statement (.regulatorPhaseFault t rail phase) := fun _ _ hk => nomatch hk
theorem dieLinkLaneFault (t : Nat) (direction : Nat) (lane : Nat) : Statement (.dieLinkLaneFault t direction lane) := fun _ _ hk => nomatch hk
theorem checkedHalfMismatch (t : Nat) (pair : Nat) (half : Nat) : Statement (.checkedHalfMismatch t pair half) := fun _ _ hk => nomatch hk
theorem spareUnitFault (t : Nat) (cls : Nat) (pool : Nat) (unit : Nat) : Statement (.spareUnitFault t cls pool unit) := fun _ _ hk => nomatch hk
theorem outOfScopeFault (t : Nat) (detail : Nat) : Statement (.outOfScopeFault t detail) := fun _ _ hk => nomatch hk
theorem calRun (t : Nat) (fn : Nat) (tag : Nat) (failed : List Nat) (values : List (Nat × Nat)) (means : Computed) : Statement (.calRun t fn tag failed values means) := fun _ h hk => of_wf h hk
theorem calGetRecord (t : Nat) (fn : Nat) (tag : Nat) : Statement (.calGetRecord t fn tag) := fun _ h hk => of_wf h hk
theorem calSetSchedule (t : Nat) (fn : Nat) (tag : Nat) : Statement (.calSetSchedule t fn tag) := fun _ h hk => of_wf h hk
theorem scheduledCalibration (t : Nat) (cls : Nat) (units : List Nat) (failed : List Nat) (values : List (Nat × Nat)) (means : Computed) : Statement (.scheduledCalibration t cls units failed values means) := fun _ _ hk => nomatch hk
theorem idScan (t : Nat) (fn : Nat) (tag : Nat) (mems : List (Nat × List Byte)) (stuck : List Nat) : Statement (.idScan t fn tag mems stuck) := fun _ h hk => of_wf h hk
theorem idReadRecord (t : Nat) (fn : Nat) (tag : Nat) (mem : Option (List Byte)) (stuck : Bool) : Statement (.idReadRecord t fn tag mem stuck) := fun _ h hk => of_wf h hk
theorem secGetCertificate (t : Nat) (fn : Nat) (tag : Nat) : Statement (.secGetCertificate t fn tag) := fun _ h hk => of_wf h hk
theorem secAttest (t : Nat) (fn : Nat) (tag : Nat) : Statement (.secAttest t fn tag) := fun _ h hk => of_wf h hk
theorem secUpdateFirmware (t : Nat) (fn : Nat) (tag : Nat) (image : List Byte) (blown : Nat) : Statement (.secUpdateFirmware t fn tag image blown) := fun _ h hk => of_wf h hk
theorem stewardRestartComplete (t : Nat) (ready : List Nat) : Statement (.stewardRestartComplete t ready) := fun _ _ hk => nomatch hk
theorem secSetOwnerKey (t : Nat) (fn : Nat) (tag : Nat) : Statement (.secSetOwnerKey t fn tag) := fun _ h hk => of_wf h hk
theorem secGetCounters (t : Nat) (fn : Nat) (tag : Nat) : Statement (.secGetCounters t fn tag) := fun _ h hk => of_wf h hk
theorem servicePairSleep (t : Nat) (pair : Nat) : Statement (.servicePairSleep t pair) := fun _ _ hk => nomatch hk
theorem firstSettledOutput (t : Nat) (ddc : Nat) : Statement (.firstSettledOutput t ddc) := fun _ _ hk => nomatch hk
theorem codewordBoundaryFound (t : Nat) (lane : Nat) (words : List (List Nat × List (Nat × Nat))) : Statement (.codewordBoundaryFound t lane words) := fun _ _ hk => nomatch hk
theorem markerCodeword (t : Nat) : Statement (.markerCodeword t) := fun _ _ hk => nomatch hk
theorem dpLinkTrained (t : Nat) (lanes : Nat) (rate : Nat) : Statement (.dpLinkTrained t lanes rate) := fun _ _ hk => nomatch hk
theorem echoTurnaround (t : Nat) : Statement (.echoTurnaround t) := fun _ _ hk => nomatch hk
theorem vineFrameSent (t : Nat) : Statement (.vineFrameSent t) := fun _ _ hk => nomatch hk
theorem disciplineLoopLocked (t : Nat) : Statement (.disciplineLoopLocked t) := fun _ _ hk => nomatch hk

end Sys2Proof.Laws.Named
end

