-- ==== Sys2Proof/Machine/Regs.lean ====
section
/-! DEFINITION. What a read of a register window or of the management bus returns (R28 to R33, R39, R75, R76, R80,
R81, R501, R526, R562, R585). These reads change nothing; reads of a lock alias and of the aperture are commands of
their own. -/

namespace Sys2Proof.Machine

/-- Byte `k` of a block at offset 0 of its area; bytes beyond its end read zero (R76). DESIGN CHOICE, log entry 89. -/
def blockByte (block : List Byte) (k : Nat) : Byte := block.getD k 0#8

/-- Byte `k` of a little-endian number. -/
def numByte (v k : Nat) : Byte := BitVec.ofNat 8 (v / 256 ^ k)

/-- The identity area, 0x000 to 0x073 (R30); `TIME_LATCH` is write-only. -/
def State.identArea (s : State) (fn : Nat) : List Byte :=
  pack [(4, 0x7840), (4, Config.interfaceVersion.toNat), (8, 0)] ++ partNumber ++ serialNumber ++
    pack [(4, s.fwVersion), (12, 0), (8, s.ready.toNat), (8, s.health), (16, 0), (16, stampNat (s.func fn).timeLatched),
      (4, s.linkStatus)]

/-- Byte `k` of a mailbox channel (R32, R33); `MB.DOORBELL` is write-only. -/
def State.chanByte (s : State) (fn n k : Nat) : Byte :=
  let c := s.chan fn n
  if k < 0xC0 then c.area.read k
  else
    let awake := s.stewardRuns && !s.ft.asleep.contains (s.pairOf fn n)
    blockByte (pack [(4, 0), (4, c.ackWord), (4, c.stateWord awake), (4, c.ackSeq)]) (k - 0xC0)

/-- A ring's control block (R39). -/
def Ring.block (r : Ring) : List Byte :=
  pack [(4, r.prod), (4, r.cons), (4, r.flagWord), (4, r.lost), (4, r.coalWord)]

/-- Byte `k` of the fast control window, from 0x2_0000 (R80, R81); a shadow reads as the shadow. -/
def State.fcwByte (s : State) (k : Nat) : Byte :=
  let w := k / 4 * 4
  let v :=
    if w = 0x08 then s.fcwStatus
    else if w = 0x0C then bit s.fcw.enable
    else if w = 0x10 then s.fcw.resyncMask
    else if w = 0x14 then s.fcwPending
    else if w = 0x18 then s.fcwHeld
    else if 0x40 ≤ w ∧ w < 0xC0 then s.fcw.strobeSeq.get ((w - 0x40) / 4) 0
    else if 0xC0 ≤ w ∧ w < 0x140 then s.fcw.applied.get ((w - 0xC0) / 4) 0
    else if (groupOf w).isSome then s.fcw.shadow.get w (shadowReset w)
    else 0
  numByte v (k % 4)

/-- Byte `k` of the fault log window, from 0xC000 (R526): slot i shows the latest entry whose SEQ is i modulo 127. -/
def State.flogByte (s : State) (k : Nat) : Byte :=
  if k < 0x40 then blockByte s.ft.header k
  else
    let slot := (k - 0x40) / 0x40
    match s.ft.log.reverse.find? fun e => e.seq % 127 == slot && decide (s.ft.written ≤ e.seq + 127) with
    | some e => blockByte e.bytes (k % 0x40)
    | none => 0#8

/-- The security status area, from 0xF000 (R562). -/
def State.secArea (s : State) : List Byte :=
  let run := s.fwSlot s.sec.runningSlot
  let stagedVersion := if s.sec.staged then (s.fwSlot (1 - s.sec.runningSlot)).version else 0
  pack [(4, s.secState), (4, run.svn), (4, s.counter 0 + 256 * s.counter 1), (4, stagedVersion), (48, 0)] ++ run.digest

/-- Byte `off` of the window of function `fn` (R28, R29, R75, R76).
PRESUMED, log entry 21. DESIGN CHOICE, log entry 89. -/
def State.regByte (s : State) (fn off : Nat) : Byte :=
  let f := s.func fn
  let chan := (off - 0x1000) / 0x100
  if off < 0x1000 then blockByte (s.identArea fn) off
  else if chan < chanCount fn then s.chanByte fn chan (off % 0x100)
  else if 0x6000 ≤ off ∧ off < 0x6400 then
    blockByte (f.ring (decide (0x6200 ≤ off)) ((off - 0x6000) / 0x20 % 16)).block (off % 0x20)
  else if inMsixTable fn off then msixFlip off (f.msixTable.read off)
  else if 0x7000 ≤ off ∧ off < 0x7000 + vectorCount fn / 8 then f.pendingByte (off - 0x7000)
  else if fn = 0 then (if 0x20000 ≤ off ∧ off < 0x40000 then s.fcwByte (off - 0x20000) else 0#8)
  else if 0xC000 ≤ off ∧ off < 0xE000 then s.flogByte (off - 0xC000)
  else if 0xE000 ≤ off ∧ off < 0xF000 then blockByte s.bud.ledger (off - 0xE000)
  else if 0xF000 ≤ off ∧ off < 0x10000 then blockByte s.secArea (off - 0xF000)
  else 0#8

/-- The little-endian value that a read of `n` bytes at `off` returns. -/
def State.regRead (s : State) (fn off n : Nat) : Nat := leNat ((span off n).map fun k => s.regByte fn k)

/-- What a read of an SMBus command code returns, little-endian (R585). The feed voltages and temperatures are measured:
`volts` gives the two feeds in 10 mV, and `temps` the six temperatures. -/
def State.smbRead (s : State) (volts temps : List Nat) (code : Nat) : List Byte :=
  match code with
  | 0x00 => leBytes 2 0x7840
  | 0x01 => leBytes 1 s.smbState
  | 0x02 => leBytes 1 (s.grade + 4 * bit (s.exposedMap != 0))
  | 0x03 => leBytes 4 s.ready.toNat
  | 0x04 => leBytes 4 s.bud.powerMw
  | 0x05 => leBytes 2 (volts.getD 0 0)
  | 0x06 => leBytes 2 (volts.getD 1 0)
  | 0x07 => pack ((List.range 8).map fun k => (1, temps.getD k 0))
  | 0x08 => leBytes 1 s.pw.alertStatus
  | 0x09 => leBytes 1 s.pw.alertMask
  | 0x0A => serialNumber
  | _ => []

end Sys2Proof.Machine
end

