-- ==== Sys2Proof/Tests/Slice0.lean ====
section
/-! SUPPORT. Tests of the model. Expected results come from the spec's examples and tables; the theorems named
`witness_…` show a state and operands that meet the hypotheses of a statement. -/

namespace Sys2Proof.Tests

open Sys2Proof.Machine

/-! ## States the tests are built from -/

/-- A module in service: powered from both feeds, every function ready, the link up. -/
def up : State :=
  { pw := { state := .running, feedA := true, feedB := true, steward := true, tickRunning := true, alive := true }
    ready := 0x7FFFFFFF#64, now := 1000000, host := { link := .l0, linkWidth := 16, linkSpeed := 5 } }

/-- The accepted command that a payload makes, with room for every result. -/
def cmd (op : Nat) (p : List Byte) : Cmd :=
  { fn := 0, chan := 0, tag := 5, opcode := op, payload := p, resultAddr := 4096, resultLimit := 65536, seq := 0, deadline := 2 ^ 40 }

/-- A state in which one command is accepted. -/
def withCmd (s : State) (c : Cmd) : State := { s with host := { s.host with cmds := [c] } }

/-- The hypotheses of `Completes`: a powered module, a command that may run, and operands and a state for which `ok`
holds. -/
def meets (s : State) (c : Cmd) (ok : Cmd → State → Bool) : Bool :=
  let s := withCmd s c
  s.powered && (s.advance 0).mayRun c.opcode c.fn c.tag c && ok c (s.advance 0)

/-- The hypotheses of `Happens`: a powered module for whose state `ok` holds. -/
def holds (s : State) (ok : State → Bool) : Bool := s.powered && ok (s.advance 0)

/-- An outcome is a next state of which `p` holds. -/
def after (o : Host.Outcome State Fault Refusal) (p : State → Bool) : Bool :=
  match o with
  | .next s => p s
  | _ => false

/-! ## Ill-formed rows: one for each check of `Instr.wf`, with the operand just beyond its range -/

theorem test_ill_formed_first : ([
    .functionReady 0 64 [] () [] [], .functionLevelReset 0 2, .commandTimeout 0 2 0, .commandTimeout 0 0 65536,
    .ringConsWrite 0 0 false 16 0, .registerWrite 0 3 0 [], .ocxoHardFault 0 3, .ppsEdge 0 { tick := 2 ^ 64 },
    .ppsEdge 0 { fine := 65536 }, .idleCoreLocked 0 3, .inputRangeSwitch 0 4, .ddcScheduledChange 0 32] : List Instr).all (fun i => !i.wf) = true := by decide

theorem test_ill_formed_second : ([
    .pressFrameRelease 0 32 () () () [], .integrationEnd 0 64, .decayBoundary 0 4, .sorrelForceMessage 0 64,
    .acqScheduledArm 0 4096, .patScheduledStart 0 256 (), .refillLate 0 0 0 64, .stimScheduledStart 0 2,
    .comparatorChange 0 16 0 (), .rowHammerThreshold 0 4 0, .pseudoChannelFailure 0 0 33,
    .descriptorFetched 0 49152 [] []] : List Instr).all (fun i => !i.wf) = true := by decide


theorem test_ill_formed_third : ([
    .segmentBoundary 0 256 {}, .segmentBoundary 0 0 { fine := 65536 }, .siteEventArrival 0 0 { fine := 65536 },
    .epochFrameReceived 0 0 0 { tick := 2 ^ 64 }, .echoPulseSend 0 { fine := 65536 }, .deviceLost 0 64,
    .reliableResendTimeout 0 64, .stimPark 0 2, .refillLate 0 256 0 0, .firstSettledOutput 0 32] : List Instr).all (fun i => !i.wf) = true := by decide

/-! ## Host windows -/

/-- `up` with the lock of channel NS5 held by agent 7 (the example of R37). -/
def locked : State := up.setChan 0 5 { owner := 7 }

/-- R36 and the example of R37: a free lock, one held by the reader, and one held by another agent. -/
theorem witness_LockAliases : up.powered ∧ (up.advance 0).chanReachable 0 5 = true ∧ (up.advance 0).readyBit 0 = true ∧
    ((up.advance 0).chan 0 5).owner = 0 ∧ ((locked.advance 0).chan 0 5).owner = 7 ∧
    (locked.advance 0).chanReachable 0 5 = true ∧ (locked.advance 0).chanReachable 1 15 = true := by decide

theorem test_lock_taken_and_refused :
    after (exec (.lockAliasRead 0 0 5 3 0 4) locked) fun s =>
      s.out.head? == some (.readData [7#8, 0#8, 0#8, 0#8]) && (s.chan 0 5).owner == 7 := by decide

theorem witness_DoorbellAndChannelRows :
    holds locked (fun a => Cond.doorbell 0 5 1 a && (a.chan 0 5).owner != 0 && !(a.chan 0 5).awaiting) ∧
    holds up (fun a => Cond.doorbell 0 63 3 a && (a.chan 0 63).owner == 0) ∧
    holds (up.setChan 0 5 { owner := 7, awaiting := true })
      (fun a => Cond.doorbell 0 5 1 a && (a.chan 0 5).owner != 0 && (a.chan 0 5).awaiting) ∧
    holds up (Cond.chanStateClear 1 15 true) ∧ holds up (Cond.fullWrite 1 true) := by decide

/-- `up` with completion ring 0 of PF0 enabled, one entry in it unsignalled and a wait of 1 µs. -/
def ringed : State :=
  up.setFunc 0 { crs := [(0, { enabled := true, sizeLog2 := 4, prod := 1, unsignalled := 1, coalTime := 1, coalCount := 2 })] }

theorem witness_RingAndWindowRows :
    holds up (Cond.ringWrite 0 15) ∧ holds up (fun a => Cond.ringWrite 1 0 a && (2 : Nat).testBit 1) ∧
    holds ringed (Cond.coalesce 0 true 0) := by decide

theorem witness_RingAndWindowRows_rest :
    holds up (fun a => a.hostAccess && decide (1 < 2)) ∧
    holds up (fun a => a.hostAccess && decide (1 < 2) && decide (15 < chanCount 1) && decide (0xBF < 0xC0)) ∧
    holds up (fun a => a.hostAccess && decide (0x7FFF < 0x8000)) ∧ holds up (fun _ => true) ∧
    holds up (fun a => a.hostAccess && decide (1 < 2) && 0x24 % 4 == 0) ∧
    holds up (fun a => Cond.ringWrite 1 15 a && decide (3 < 4)) ∧
    holds up (fun a => a.hostAccess && decide (4096 ≤ 4096)) ∧ holds up (fun a => a.hostAccess) := by decide

theorem witness_FastControlRows :
    holds up (Cond.fullWrite 0 true) ∧ holds (up.setFunc 0 { keyOpen := true }) (fun a => a.hostAccess && (a.func 0).keyOpen) ∧
    holds up (fun a => a.hostAccess && !(a.func 0).keyOpen) ∧ holds up (fun a => a.hostAccess && a.fcw.enable) ∧
    holds up (fun a => a.hostAccess && !a.fcw.resyncBusy) ∧
    holds (up.setFcw { resyncBusy := true }) (fun a => a.hostAccess && a.fcw.resyncBusy) ∧
    holds (up.setFcw { resyncBusy := true }) (fun a => a.fcw.resyncBusy) ∧
    holds (up.setFcw { occ := [(31, { seq := 1 })] }) (Cond.occurrence 31 { seq := 1 }) := by decide

/-- `up` with a command of function 0 waiting at channel 0 to be carried out before VALID. -/
def atAck (c : Cmd) : State := up.setChan 0 0 { owner := 1, awaiting := true, atAck := some c }

/-- `SYS.SET_EVENT_RING` for completion ring 15 with 2^`size` entries. -/
def ringCmd (size : Nat) : Cmd :=
  cmd 0x0104 (pack [(1, 1), (1, 15), (1, size), (1, 0), (2, 0xFFFF), (2, 0), (8, 4096), (8, 8), (8, 2 ^ 63), (8, 0)])

/-- `SYS.HELLO` with the module's own major version. -/
def helloCmd : Cmd := cmd 0x0101 (leBytes 2 (Config.interfaceVersion.toNat / 65536) ++ [0#8, 0#8])

theorem u16_leBytes (v : Nat) (h : v < 65536) (l : List Byte) : u16 (leBytes 2 v ++ l) 0 = v := by
  simp [u16, field, leBytes, leNat]
  omega

theorem witness_hello : holds (atAck helloCmd) (Cond.hello 0 5 0 helloCmd) := by
  have h1 : ((atAck helloCmd).advance 0).atAckChan 0 5 0x0101 = some (0, helloCmd) := rfl
  have h2 : ((atAck helloCmd).advance 0).channelServed 0 0 = true := rfl
  have h3 : (atAck helloCmd).powered = true := rfl
  have h4 : u16 helloCmd.payload 0 = Config.interfaceVersion.toNat / 65536 := by
    have := Config.interfaceVersion.isLt
    exact u16_leBytes _ (by omega) _
  have h5 : (48 : Nat) ≤ helloCmd.room := by decide
  have h6 : ((atAck helloCmd).advance 0).blocked helloCmd = false := rfl
  have h7 : helloCmd.dependFailed = false := rfl
  have h8 : ((atAck helloCmd).advance 0).pastDeadline helloCmd = false := by decide
  simp [holds, Cond.hello, h1, h2, h3, h4, h5, h6, h7, h8]

theorem witness_AcknowledgedRows :
    holds (atAck (ringCmd 16)) (fun a => Cond.setRing 0 5 0 (ringCmd 16) a && (RingSetup.of (ringCmd 16).payload).sizeLog2 != 0 &&
      !((a.func 0).ring (RingSetup.of (ringCmd 16).payload).completion (RingSetup.of (ringCmd 16).payload).index).enabled) ∧
    holds (atAck (ringCmd 0)) (fun a => Cond.setRing 0 5 0 (ringCmd 0) a && (RingSetup.of (ringCmd 0).payload).sizeLog2 == 0) ∧
    holds { up with ft := { up.ft with asleep := [4] } } (fun a => a.ft.asleep.contains 4) ∧
    holds up (Cond.pairSleeps 4) ∧
    holds (withCmd up { cmd 0x0102 [] with deadline := up.now })
      (Cond.timesOut 0 5 { cmd 0x0102 [] with deadline := up.now }) := by decide

/-! ## SYS and CLOCK -/

theorem witness_SysVerbsComplete :
    meets up (cmd 0x0102 (pack [(8, 2 ^ 31 - 1)])) Cond.sysQueryReady ∧ meets up (cmd 0x0103 (pack [(4, 1)])) Cond.sysGetInfo ∧
    meets up (cmd 0x0106 []) (fun _ _ => true) ∧
    meets up (cmd 0x0105 (pack [(1, 4), (3, 0), (4, 31)])) Cond.sysResetFunction := by decide

/-- `up` with generator `g` as given. -/
def withGen (g : Nat) (x : ClockGen) : State := up.setGen g x

/-- A generator that is enabled and locked, with one segment of 1 ms in bank 0. -/
def ramped : ClockGen :=
  { enabled := true, synth := .locked, freq := 10000000000
    banks := [(0, { length := 1, rep := 1, segs := [(0, { start := 10000000000, slope := 0, dur := 1000000 })] })] }

theorem witness_ClockVerbsComplete :
    meets up (cmd 0x0201 (pack [(1, 4), (1, 6), (1, 2), (1, 1), (4, 0), (4, 60000), (4, 0)])) Cond.clockSetRef ∧
    meets up (cmd 0x0202 []) (fun c _ => decide (96 ≤ c.room)) ∧
    meets up (cmd 0x0203 (pack [(8, 1), (8, 7), (8, 9)])) Cond.clockSetTimeTick ∧
    meets { up with ck := { up.ck with ppsStamps := [(3, {})] } } (cmd 0x0203 (pack [(8, 0), (8, 3), (8, 9)]))
      (Cond.clockSetTimeEdge {}) ∧
    meets up (cmd 0x0204 (pack [(1, 2), (1, 1), (22, 0)])) Cond.clockSetPpsOut ∧
    meets up (cmd 0x0204 (pack [(1, 1), (1, 0), (6, 0), (8, 10000000000), (8, 0)])) (fun c a => Cond.clockSetOutput c a && u8 c.payload 1 == 0) ∧
    meets up (cmd 0x0204 (pack [(1, 0), (1, 1), (6, 0), (8, 12800000000000), (8, 0)]))
      (fun c a => Cond.clockSetOutput c a && u8 c.payload 1 == 1) ∧
    meets up (cmd 0x0205 (pack [(1, 2), (1, 1), (2, 255), (2, 1), (2, 256), (4, 65535), (4, 0), (8, 0), (8, 0), (8, 100)]))
      Cond.clockLoadRamp ∧
    meets (withGen 1 ramped) (cmd 0x0206 (pack [(1, 1), (23, 0)])) Cond.clockStartRamp ∧
    meets (withGen 2 { ramped with ramp := .running }) (cmd 0x0207 (pack [(1, 2), (1, 1), (2, 0)]))
      (fun c a => Cond.clockStopRamp c a && Cond.rampStops (u8 c.payload 0) a) ∧
    meets up (cmd 0x0207 (pack [(1, 2), (1, 1), (2, 0)]))
      (fun c a => Cond.clockStopRamp c a && (a.gen (u8 c.payload 0)).ramp != .running &&
        !Cond.rampStops (u8 c.payload 0) a) ∧
    meets up (cmd 0x0208 (pack [(16, 0)])) (fun c a => Cond.clockSetVectorClock c a && u8 c.payload 8 == 0) ∧
    meets up (cmd 0x0208 (pack [(8, 1600000000000), (1, 1), (7, 0)]))
      (fun c a => Cond.clockSetVectorClock c a && u8 c.payload 8 == 1) := by decide

/-- `up` with the clock state as given. -/
def withClock (k : Clock) : State := { up with ck := k }

theorem witness_ReferenceRows :
    holds up (fun a => Cond.oscillator 1 a && 1 != a.ck.activeOsc) ∧ holds up (fun a => Cond.oscillator 0 a && 0 == a.ck.activeOsc) ∧
    holds (withClock { mode := 2, refQual := true, warmAt := some 0 })
      (fun a => a.ck.warmAt.isSome && a.ck.oscDead.isEmpty && !a.ck.oscDisagree && a.refInUse) ∧
    holds { up with ready := 0#64 }
      (fun a => a.ck.warmAt.isNone && !a.readyBit 4 && !a.sec.recovery && !a.pw.failed.testBit 4) ∧ holds up (Cond.refFreq 2) ∧
    holds (withClock { refQual := true }) (fun a => a.ck.refQual) ∧
    holds (withClock { ppsRun := 3, heldPhase := some 0 })
      (fun a => decide (3 ≤ a.ck.ppsRun) && !a.ck.ppsQual && a.ck.heldPhase.isSome) ∧
    holds (withClock { ppsQual := true }) (fun a => a.ck.ppsQual) ∧ holds up (fun a => !a.vineMember) ∧
    holds { withClock { ppsOutOn := true } with now := 25600000000 }
      (fun a => a.ck.ppsOutOn && a.ck.atSecond a.now) ∧
    holds (withClock { ppsOutHigh := true }) (fun a => a.ck.ppsOutHigh) ∧
    holds (withClock { mode := 2, refQual := true, tb := .acquiring }) (fun a => a.ck.tb == .acquiring && a.loopUsable) := by
  decide

/-- A ramp whose one segment has just ended. -/
def rampEnd : State :=
  { withGen 2 { ramped with ramp := .running, segStart := 0 } with now := 25600000 }

theorem witness_SynthesiserRows :
    holds (withGen 2 { synth := .searching }) (fun a => decide (2 ≤ 2) && (a.gen 2).synth == .searching) ∧
    holds (withClock { sampleB := .searching }) (fun a => decide (1 ≤ 1) && a.ck.sample 1 == .searching) ∧
    holds (withGen 2 { synth := .searching, settling := true })
      (fun a => decide (1 ≤ 2) && decide (2 ≤ 2) && (a.gen 2).synth == .searching && (a.gen 2).settling) ∧
    holds (withGen 0 { synth := .searching, settling := true })
      (fun a => (a.gen 0).synth == .searching && (a.gen 0).settling) ∧
    holds (withClock { sampleB := .searching, sampleSettling := [1] })
      (fun a => decide (1 ≤ 1) && a.ck.sample 1 == .searching && a.ck.sampleSettling.contains 1 &&
        !a.isRetired ⟨14, 0, 1⟩ && a.pw.tickRunning) ∧
    holds (withClock { sampleB := .coasting })
      (fun a => decide (1 ≤ 1) && a.ck.sample 1 == .coasting && !a.isRetired ⟨14, 0, 1⟩ && a.pw.tickRunning) ∧
    holds (withGen 0 { synth := .locked }) (fun a => decide (0 ≤ 2) && (a.gen 0).synth == .locked) ∧
    holds (withGen 0 { synth := .coasting }) (fun a => decide (0 ≤ 2) && (a.gen 0).synth == .coasting) ∧
    holds up (fun a => !a.isRetired ⟨14, 0, 0⟩ && a.sparesLeft 14 0 != 0 && a.ck.primary == 0) ∧
    holds (withGen 1 { nextFreq := some 5 }) (fun a => decide (1 ≤ 2) && (a.gen 1).nextFreq == some 5) ∧
    holds (withGen 1 { ramp := .armed })
      (fun a => decide (1 ≤ 2) && (a.gen 1).nextFreq == none && (a.gen 1).ramp == .armed && (a.gen 1).sched.mode == 0) ∧
    holds (withGen 1 { ramp := .armed, sched := { mode := 1, at_ := 5 } })
      (fun a => decide (1 ≤ 2) && (a.gen 1).ramp == .armed && (a.gen 1).sched.mode != 0 && a.reached (a.gen 1).sched) ∧
    holds (withGen 1 { ramp := .running }) (fun a => decide (1 ≤ 2) && (a.gen 1).ramp == .running) ∧
    holds { rampEnd with ck := { rampEnd.ck with gens := [(2, { ramped with
        ramp := .running, banks := [(0, { length := 2, rep := 1 })] })] } }
      (fun a => Cond.rampSegOver 2 a && decide ((a.gen 2).seg + 1 < ((a.gen 2).banks.get (a.gen 2).bank {}).length)) ∧
    holds rampEnd (fun a => Cond.rampSegOver 2 a && (a.gen 2).seg + 1 == ((a.gen 2).banks.get (a.gen 2).bank {}).length &&
      ((a.gen 2).banks.get (a.gen 2).bank {}).rep == (a.gen 2).reps + 1 &&
      decide ((a.gen 2).segStart + (((a.gen 2).banks.get (a.gen 2).bank {}).segs.get (a.gen 2).seg {}).dur * 128 / 5 ≤ a.now)) := by
  decide

/-! ## INPUT and DDC -/

/-- `up` with input `i` as given. -/
def withInput (i : Nat) (x : RfInput) : State := up.setInput i x

/-- `up` with DDC `d` as given, on a running input. -/
def withDdc (d : Nat) (x : Ddc) : State := (up.setInput (d / 8) { mode := .running }).setDdc d x

theorem witness_InputVerbsComplete :
    meets up (cmd 0x0301 (pack [(1, 3), (1, 0), (14, 0)]))
      (fun c a => Cond.inputSetRange c a && u8 c.payload 1 == (a.input (u8 c.payload 0)).range) ∧
    meets up (cmd 0x0301 (pack [(1, 3), (1, 2), (14, 0)]))
      (fun c a => Cond.inputSetRange c a && u8 c.payload 1 != (a.input (u8 c.payload 0)).range &&
        (a.input (u8 c.payload 0)).mode != .running) ∧
    meets (withInput 3 { mode := .running }) (cmd 0x0301 (pack [(1, 3), (1, 2), (14, 0)]))
      (fun c a => Cond.inputSetRange c a && u8 c.payload 1 != (a.input (u8 c.payload 0)).range &&
        (a.input (u8 c.payload 0)).mode == .running && u8 c.payload 2 == 0) ∧
    meets (withInput 3 { mode := .running }) (cmd 0x0301 (pack [(1, 3), (1, 2), (1, 1), (5, 0), (8, 2 ^ 40)]))
      (fun c a => Cond.inputSetRange c a && u8 c.payload 1 != (a.input (u8 c.payload 0)).range &&
        (a.input (u8 c.payload 0)).mode == .running && u8 c.payload 2 != 0) ∧
    meets up (cmd 0x0302 (pack [(4, 3)])) (fun c a => Cond.inputNamed c a && decide (128 ≤ c.room)) ∧
    meets (withInput 3 { mode := .disabled }) (cmd 0x0303 (pack [(1, 3), (1, 0xFF), (2, 0)])) Cond.inputEnable ∧
    meets (withInput 0 { mode := .running }) (cmd 0x0303 (pack [(1, 0), (1, 2), (2, 0)]))
      (fun c a => Cond.inputToEnable c a && (a.input (u8 c.payload 0)).mode == .running) ∧
    meets (withInput 0 { mode := .running }) (cmd 0x0304 (pack [(4, 0)]))
      (fun c a => Cond.inputNamed c a && (a.input (u8 c.payload 0)).mode == .running &&
        (a.inputConsumer (u8 c.payload 0) 0).isNone) := by decide

theorem witness_InputRows :
    holds (withInput 3 { mode := .running, pending := some (2, { mode := 0 }) })
      (fun a => (a.input 3).pending == some (2, { mode := 0 }) && a.reached { mode := 0 }) ∧
    holds (withInput 3 { mode := .running, calStep := 31 }) (Cond.rotation 3 31 32) ∧
    holds (withInput 0 { mode := .running, slices := [(32, { role := .handover, pos := 4 })] }) (Cond.handover 0 32 4) ∧
    holds (withInput 3 { mode := .running }) (Cond.sliceFailure 3 31 32) ∧
    holds up (fun a => (a.input 3).inRole .coldSpare == some 33) ∧
    holds (withInput 3 { mode := .running })
      (fun a => Cond.overdrive 3 1 (a.closeAll 3) && (((a.closeAll 3).input 3).countRun (a.closeAll 3).now).run.isNone &&
        (((a.closeAll 3).input 3).countRun (a.closeAll 3).now).ovrOpen.isNone) ∧
    holds (withInput 3 { mode := .running, ovrOpen := some 999999 })
      (fun a => Cond.overdrive 3 1 (a.closeAll 3) && (((a.closeAll 3).input 3).countRun (a.closeAll 3).now).run.isNone &&
        (((a.closeAll 3).input 3).countRun (a.closeAll 3).now).ovrOpen.isSome) ∧
    holds (withInput 3 { mode := .running, run := some { start := 1000000, stop := some 1000007, counted := 1000000 } })
      (fun a => Cond.overdrive 3 1 (a.closeAll 3) && (((a.closeAll 3).input 3).countRun (a.closeAll 3).now).run ==
        some { start := 1000000, stop := some 1000007, counted := 1000000 }) ∧
    holds (withInput 3 { mode := .running, protection := true }) (fun a => (a.input 3).protection) ∧
    holds (withInput 3 { mode := .running, ovrOpen := some 974400 })
      (fun a => Cond.ovrInterval 3 974400 a && ((a.input 3).countRun 1000000).ovrCount == 0) ∧
    holds (withInput 3 { mode := .running, ovrOpen := some 974400, ovrCount := 1 })
      (fun a => Cond.ovrInterval 3 974400 a && ((a.input 3).countRun 1000000).ovrCount != 0) := by decide

theorem witness_DdcVerbsAndRows :
    meets (withDdc 31 { running := true }) (cmd 0x0401 (pack [(1, 31), (1, 2), (1, 2), (1, 1), (1, 15), (1, 24), (1, 1), (1, 0),
      (6, 2 ^ 48 - 1), (2, 0), (4, 5), (4, 0), (6, 7), (2, 0)])) Cond.ddcConfigure ∧
    meets up (cmd 0x0402 (pack [(1, 31), (1, 0), (2, 4095), (12, 0)]))
      (fun c a => Cond.ddcSetDelay c a && !(a.ddc (u8 c.payload 0)).running) ∧
    meets (withDdc 31 { running := true }) (cmd 0x0402 (pack [(1, 31), (1, 0), (2, 65536 - 4096), (12, 0)]))
      (fun c a => Cond.ddcSetDelay c a && (a.ddc (u8 c.payload 0)).running && u8 c.payload 1 == 0) ∧
    meets (withDdc 0 { running := true }) (cmd 0x0402 (pack [(1, 0), (1, 1), (2, 1), (4, 0), (8, 2 ^ 40)]))
      (fun c a => Cond.ddcSetDelay c a && (a.ddc (u8 c.payload 0)).running && u8 c.payload 1 != 0) ∧
    meets (withDdc 31 {}) (cmd 0x0403 (pack [(1, 31), (15, 0)])) (fun c a => Cond.ddcEnable c a && u8 c.payload 1 == 0) ∧
    meets (withDdc 31 {}) (cmd 0x0403 (pack [(1, 31), (1, 1), (6, 0), (8, 2 ^ 40)]))
      (fun c a => Cond.ddcEnable c a && u8 c.payload 1 != 0 &&
        a.startTick { mode := u8 c.payload 1, at_ := u64 c.payload 8 } == some (2 ^ 40)) ∧
    meets (withDdc 31 { running := true }) (cmd 0x0403 (pack [(1, 31), (15, 0)]))
      (fun c a => Cond.ddcToEnable c a && (a.ddc (u8 c.payload 0)).running) ∧
    meets (withDdc 31 { running := true }) (cmd 0x0404 (pack [(4, 31)]))
      (fun c a => Cond.ddcNamed c a && (a.ddc (u8 c.payload 0)).running && (a.ddcConsumer (u8 c.payload 0) 0 true).isNone) ∧
    meets up (cmd 0x0404 (pack [(4, 31)])) (fun c a => Cond.ddcNamed c a && !(a.ddc (u8 c.payload 0)).running) ∧
    meets up (cmd 0x0405 (pack [(4, 31)])) (fun c a => Cond.ddcNamed c a && decide (64 ≤ c.room)) := by decide

theorem witness_DdcVerbsAndRows_rest :
    holds (withDdc 31 { running := true, origin := 1000000, delayNext := some (5, 6, {}) })
      (Cond.ddcDelay 31 5 6 {}) ∧
    holds (withDdc 31 { starting := some 1000000 })
      (fun a => decide (31 ≤ 31) && (a.ddc 31).starting == some 1000000 && decide (1000000 ≤ a.now) &&
        !((a.ddcStart 31 1000000).ddc 31).produced 0 a.now && (a.ddc 31).delayNext == none) ∧
    holds (withDdc 31 { running := true })
      (fun a => decide (31 ≤ 31) && (a.ddc 31).starting == none && (a.ddc 31).running && (a.ddc 31).produced 0 a.now &&
        (a.ddc 31).delayNext == none) ∧
    holds (withDdc 31 { running := true, unsettled := true }) (Cond.settled 31) ∧
    holds (withDdc 31 { running := true }) (Cond.ddcFails 3 7 31 8) ∧
    holds up (fun a => decide (3 ≤ 3) && decide (8 ≤ 8) && !a.isRetired ⟨2, 3, 8⟩ &&
      (span (8 * 3) 8).all fun d => (a.ddc d).physical d != 8) := by decide

/-! ## PRESS -/

/-- `up` with input 3 running and job `j` as given. -/
def withJob (j : Nat) (x : PressJob) : State := (withInput 3 { mode := .running }).setJob j x

set_option maxRecDepth 8000 in
theorem witness_PressVerbsComplete :
    meets up (cmd 0x0501 (pack [(1, 0xFF), (1, 0), (1, 0), (1, 0), (1, 3), (1, 16), (1, 3), (1, 0), (1, 3), (1, 0), (1, 1), (5, 0)]))
      Cond.pressConfigure ∧
    meets (withJob 31 {}) (cmd 0x0501 (pack [(1, 31), (1, 0), (1, 1), (1, 1), (1, 31), (1, 6), (1, 2), (1, 3), (1, 3), (1, 1), (1, 0), (5, 0)]))
      Cond.pressConfigure ∧
    meets (withJob 31 {}) (cmd 0x0501 (pack [(1, 31), (1, 1), (1, 0), (1, 0), (1, 3), (1, 8), (10, 0)]))
      (fun c a => decide (u8 c.payload 0 ≤ 31) && Cond.pressFields c && u8 c.payload 1 == 1 && a.press.jobs.has (u8 c.payload 0)) ∧
    meets up (cmd 0x0502 (pack [(1, 3), (1, 1), (1, 4), (1, 15), (28, 0)])) Cond.pressWindow ∧
    meets up (cmd 0x0502 (pack [(1, 3), (1, 1), (1, 5), (1, 0), (1, 0), (1, 8), (26, 0)]))
      (Cond.pressTable []) ∧
    meets (withJob 31 { kind := 1, size := 6, taps := 0 }) (cmd 0x0503 (pack [(1, 31), (1, 0), (2, 0), (4, 256), (16, 0)]))
      (Cond.pressPfb []) ∧
    meets (withJob 31 { kind := 1 }) (cmd 0x0503 (pack [(1, 31), (1, 2), (22, 0)]))
      (fun c a => decide (u8 c.payload 0 ≤ 31) && u8 c.payload 1 == 2 && zeros c.payload 2 2 && zeros c.payload 16 8 &&
        a.press.jobs.has (u8 c.payload 0) && (a.job (u8 c.payload 0)).kind == 1 &&
        (a.job (u8 c.payload 0)).mode == .configured) ∧
    meets (withJob 31 { size := 8 }) (cmd 0x0504 (pack [(1, 31), (1, 0), (2, 1), (4, 255), (8, 0), (4, 0)])) Cond.pressMap ∧
    meets (withJob 31 { size := 16, srcKind := 0, source := 3, pipes := [0] }) (cmd 0x0505 (pack [(1, 31), (15, 0)]))
      (Cond.pressEnable 1310720) ∧
    meets (withJob 31 { size := 16, srcKind := 0, source := 3, pipes := [0] }) (cmd 0x0505 (pack [(1, 31), (1, 1), (6, 0), (8, 2 ^ 40)]))
      (Cond.pressEnable (2 ^ 40)) ∧
    meets (withJob 31 { mode := .running }) (cmd 0x0505 (pack [(1, 31), (1, 2), (14, 0)]))
      (fun c a => decide (u8 c.payload 0 ≤ 31) && decide (u8 c.payload 1 ≤ 2) && zeros c.payload 2 6 &&
        a.press.jobs.has (u8 c.payload 0) && (a.job (u8 c.payload 0)).mode == .running) ∧
    meets (withJob 31 { mode := .running }) (cmd 0x0506 (pack [(1, 31), (1, 1), (2, 0)])) Cond.pressDisable ∧
    meets up (cmd 0x0506 (pack [(1, 31), (3, 0)]))
      (fun c a => decide (u8 c.payload 0 ≤ 31) && decide (u8 c.payload 1 ≤ 1) && zeros c.payload 2 2 &&
        !a.press.jobs.has (u8 c.payload 0)) := by decide

/-- A state in which pipeline 8 is the spare. -/
def withSpare (s : State) : State := { s with press := { s.press with spare := some 8 } }

set_option maxRecDepth 8000 in
theorem witness_PressRows :
    holds (withJob 31 { mode := .running, srcKind := 0, source := 3, size := 8, origin := 999744 })
      (Cond.frameDue 31 (List.replicate 256 0)) ∧
    holds (withJob 31 { mode := .quiescing, stopAt := some 1, srcKind := 0, source := 3, size := 8, origin := 999744 })
      (Cond.lastFrame 31 (List.replicate 256 0)) ∧
    holds (withSpare up) (fun a => decide (8 ≤ 8) && !a.isRetired ⟨3, 0, 8⟩ && a.press.spare == some 8) ∧
    holds (withSpare (withJob 31 { pipes := [7] }))
      (fun a => decide (7 ≤ 8) && !a.isRetired ⟨3, 0, 7⟩ && a.press.spare == some 8 && 7 != 8 && a.sparesLeft 3 0 != 0) := by
  decide

/-! ## SPEC -/

/-- `up` with trace `n` as given and job 0 running. -/
def withTrace (n : Nat) (x : Trace) : State := (withJob 0 { mode := .running, size := 8, frame := 1 }).setTrace n x

/-- `up` with density plane `p` as given and job 0 running. -/
def withPlane (p : Nat) (x : Plane) : State := (withJob 0 { mode := .running, size := 8, frame := 1 }).setPlane p x

/-- A state in which a region of Cellar holds bytes 0 to 4095. -/
def withRegion (s : State) : State := { s with regions := [(0, { bytes := 4096 })] }

set_option maxRecDepth 4000 in
theorem witness_SpecVerbsComplete :
    meets (withTrace 63 {}) (cmd 0x0601 (pack [(1, 63), (1, 0), (1, 5), (1, 1), (1, 0), (1, 1), (2, 0), (4, 0), (4, 256), (8, 2 ^ 32),
      (4, 0), (4, 0xFFFFFFFF), (16, 0)])) Cond.specDetector ∧
    meets (withPlane 3 {}) (cmd 0x0602 (pack [(1, 3), (1, 2), (1, 31), (1, 7), (2, 0), (2, 256), (4, 65535), (4, 65536), (4, 65536),
      (4, 100000000), (1, 31), (7, 0)])) Cond.specDensity ∧
    meets up (cmd 0x0603 (pack [(1, 15), (3, 0)]))
      (fun c a => decide (u8 c.payload 0 ≤ 15) && zeros c.payload 1 3 &&
        ((maskBits 4 (u8 c.payload 0)).filter fun p => (a.plane p).enabled).isEmpty) ∧
    meets (withPlane 3 { enabled := true }) (cmd 0x0603 (pack [(1, 15), (3, 0)]))
      (fun c a => decide (u8 c.payload 0 ≤ 15) && zeros c.payload 1 3 &&
        !((maskBits 4 (u8 c.payload 0)).filter fun p => (a.plane p).enabled).isEmpty) ∧
    meets (withTrace 63 { configured := true, bins := 1, seq := 4, result := some { points := [9] } })
      (cmd 0x0604 (pack [(1, 0), (1, 1), (2, 0), (4, 63), (4, 3), (20, 0)]))
      (fun c a => Cond.readTrace c a && Cond.readTo false (a.traceBytes (u32 c.payload 4)).1.length c a) ∧
    meets (withRegion (withTrace 63 { configured := true, bins := 1, seq := 4, result := some { points := [9] } }))
      (cmd 0x0604 (pack [(1, 0), (1, 3), (2, 0), (4, 63), (4, 3), (12, 0), (8, 1024)]))
      (fun c a => Cond.readTrace c a && Cond.readTo true (a.traceBytes (u32 c.payload 4)).1.length c (a.traceBytes (u32 c.payload 4)).2) ∧
    meets (withPlane 3 { parts := 2 }) (cmd 0x0604 (pack [(1, 1), (1, 0), (2, 0), (4, 3), (4, 0), (2, 1023), (2, 1), (2, 1023), (2, 1), (12, 0)]))
      (fun c a => Cond.readPlane c a && Cond.readTo false (Cond.rectangle c a).length c a) ∧
    meets (withRegion (withPlane 3 { parts := 2 })) (cmd 0x0604 (pack [(1, 1), (1, 2), (2, 0), (4, 3), (4, 0), (2, 1023), (2, 1), (2, 0), (2, 1), (4, 0), (8, 64)]))
      (fun c a =>
        let n := u32 c.payload 4
        Cond.readPlane c a && Cond.readTo true (Cond.rectangle c a).length c
          (if (a.plane n).enabled then a.setPlane n (a.decayed n) else a)) ∧
    meets (withTrace 63 { configured := true }) (cmd 0x0605 (pack [(1, 63), (1, 0), (2, 64), (4, 0), (4, 32767), (4, 0)]))
      Cond.peakSearch ∧
    meets up (cmd 0x0605 (pack [(1, 63), (1, 1), (14, 0)]))
      (fun c _ => decide (u8 c.payload 0 ≤ 63) && u8 c.payload 1 == 1 && zeros c.payload 12 4) ∧
    meets up (cmd 0x0605 (pack [(1, 63), (1, 2), (14, 0)]))
      (fun c a => decide (u8 c.payload 0 ≤ 63) && u8 c.payload 1 == 2 && zeros c.payload 12 4 && decide (528 ≤ c.room) &&
        decide (((a.trace (u8 c.payload 0)).peakBytes (u8 c.payload 0)).length ≤ c.room)) ∧
    meets (withTrace 63 { configured := true }) (cmd 0x0606 (pack [(1, 0), (1, 63), (14, 0)])) Cond.enableTrace ∧
    meets (withPlane 3 { configured := true }) (cmd 0x0606 (pack [(1, 1), (1, 3), (1, 1), (5, 0), (8, 7)])) Cond.enablePlane ∧
    meets up (cmd 0x0607 (pack [(1, 1), (1, 3), (2, 0)])) Cond.specDisable := by decide

/-- A state in which a frame of job 0 waits for SPEC. -/
def framed (s : State) : State := s.setJob 0 { s.job 0 with queue := [{}] }

theorem witness_SpecRows :
    holds (framed (withTrace 63 { enabled := true })) (fun a => (a.job 0).queue == {} :: [] && a.readyBit 13) ∧
    holds (withTrace 63 { enabled := true, integration := 1, n := 1 }) (fun a => (a.trace 63).full) ∧
    holds (withTrace 63 { enabled := true, integration := 2, n := 1 }) (fun a => !(a.trace 63).full) ∧
    holds (withPlane 3 { enabled := true }) (fun a => (a.plane 3).enabled) ∧
    holds (framed (withPlane 3 { enabled := true, clearAfter := some 5 }))
      (fun a => (a.plane 3).enabled && (a.job (a.plane 3).job).queue == {} :: []) := by decide

/-! ## TRIG -/

/-- `up` with trigger unit `u` as given and input 3 running. -/
def withUnit (u : Nat) (x : TrigUnit) : State := (withInput 3 { mode := .running }).setTunit u x

/-- A state in which a command has started. -/
def running (s : State) (c : Cmd) : State := withCmd s { c with started := true }

/-- A TRIG.FORCE of unit 63 in progress. -/
def forcing : Cmd := { cmd 0x0706 (pack [(1, 63), (3, 0)]) with started := true }

theorem witness_TrigVerbsComplete :
    meets (withUnit 63 {}) (cmd 0x0701 (pack [(1, 63), (1, 0), (2, 3), (1, 2), (1, 15), (2, 0), (8, 0), (8, 2 ^ 48), (4, 2 ^ 24),
      (8, 2 ^ 32 - 1), (4, 0), (4, 1), (4, 1), (4, 5), (4, 0), (2, 3), (6, 0)])) Cond.trigConfigure ∧
    meets (withUnit 63 { mode := .configured, kind := 7, bandCount := 1 }) (cmd 0x0702 (pack [(1, 63), (1, 1), (2, 0), (4, 1), (8, 8)]))
      (Cond.trigLoadMask [0, 0, 0, 0]) ∧
    meets (withUnit 63 {}) (cmd 0x0703 (pack [(1, 63), (1, 15), (1, 3), (1, 7), (4, 0), (4, 1000000), (36, 0)]))
      (fun c _ => Cond.trigRoute c) ∧
    meets (withUnit 63 { mode := .configured }) (cmd 0x0704 (pack [(1, 63), (1, 2), (1, 0), (1, 1), (4, 1), (16, 0)]))
      (fun c a => Cond.trigArm c a && u8 c.payload 2 == 0) ∧
    meets (withUnit 63 { mode := .done }) (cmd 0x0704 (pack [(1, 63), (1, 2), (1, 1), (1, 1), (4, 1), (8, 2 ^ 40), (8, 0)]))
      (fun c a => Cond.trigArm c a && u8 c.payload 2 != 0) ∧
    meets (withUnit 63 { mode := .holdoff }) (cmd 0x0704 (pack [(1, 63), (23, 0)]))
      (fun c a => Cond.trigArmFields c && (a.tunit (u8 c.payload 0)).inService) ∧
    meets (withUnit 63 { mode := .armed }) (cmd 0x0705 (pack [(1, 63), (1, 1), (2, 0)]))
      (fun c a => Cond.trigDisarm c a && !(a.trig.pulse.isSome && a.trig.drivers == [u8 c.payload 0])) ∧
    meets { withUnit 63 { mode := .armed } with trig := { units := [(63, { mode := .armed })], pulse := some 5, drivers := [63] } }
      (cmd 0x0705 (pack [(1, 63), (3, 0)]))
      (fun c a => Cond.trigDisarm c a && a.trig.pulse.isSome && a.trig.drivers == [u8 c.payload 0]) ∧
    meets (withUnit 63 { mode := .armed }) (cmd 0x0706 (pack [(1, 63), (3, 0)]))
      (fun c a => Cond.trigNamed c && (a.tunit (u8 c.payload 0)).inService) ∧
    meets up (cmd 0x0707 (pack [(1, 63), (3, 0)])) (fun c _ => Cond.trigNamed c && decide (64 ≤ c.room)) := by decide

theorem witness_TrigDecisions :
    holds (withUnit 63 { mode := .armed, kind := 0 }) (Cond.samples 63) ∧
    holds ((withJob 0 { mode := .running, size := 8, frame := 1 }).setTunit 63 { mode := .armed, kind := 6 }) (Cond.frames 63) ∧
    holds (withUnit 63 { mode := .armed, kind := 14 }) (Cond.sequence 63) ∧
    ((withUnit 63 { mode := .armed, count := 2 }).tunit 63).waiting ∧
    ((withUnit 63 { mode := .armed, count := 2, progress := 1 }).tunit 63).waiting ∧
    ((withUnit 63 { mode := .armed, count := 2, progress := 1 }).tunit 63).count ≤
      ((withUnit 63 { mode := .armed, count := 2, progress := 1 }).tunit 63).progress + 1 ∧
    ((withUnit 63 { mode := .armed, count := 2 }).tunit 63).progress + 1 < ((withUnit 63 { mode := .armed, count := 2 }).tunit 63).count ∧
    ((withUnit 63 { mode := .armed, dead := some 4 }).tunit 63).mode = .armed ∧
    ((withUnit 63 { mode := .armed, dead := some 4 }).tunit 63).dead.isSome ∧
    ((withUnit 63 { mode := .holdoff }).tunit 63).mode = .holdoff ∧
    holds (withCmd (withUnit 63 {}) forcing) (fun a => Cond.forced 63 forcing a && !(a.tunit 63).inService) ∧
    holds (withCmd (withUnit 63 { mode := .armed }) forcing)
      (fun a => Cond.forced 63 forcing a && (a.tunit 63).inService && (a.decideOne 63 { at_ := a.now * 65536 } true).2) ∧
    holds (withCmd { withUnit 63 {} with trig := { units := [(63, { mode := .armed })], ended := true } } forcing)
      (fun a => Cond.forced 63 forcing a && (a.tunit 63).inService &&
        !(a.decideOne 63 { at_ := a.now * 65536 } true).2) ∧
    holds { withUnit 63 {} with trig := { units := [(63, { mode := .armed })], kernelForces := [63] } }
      (fun a => (a.forceCmd 63).isNone && a.trig.kernelForces.contains 63 && (a.tunit 63).inService &&
        !((a.tunit 63).mode == .armed && (a.tunit 63).dead.isSome)) := by decide

theorem witness_TrigRows :
    holds (withUnit 63 { mode := .armed, dead := some 999968 })
      (fun a => (a.tunit 63).mode == .armed && (a.tunit 63).dead == some 999968 && decide (999968 + 32 ≤ a.now)) ∧
    holds (withUnit 63 { mode := .holdoff, dead := some 999936, holdoff := 64 })
      (fun a => (a.tunit 63).mode == .holdoff && !(a.tunit 63).byCount && (a.tunit 63).dead == some 999936 &&
        decide (999936 + (a.tunit 63).holdoff ≤ a.now)) ∧
    holds (withUnit 63 { mode := .holdoff, byCount := true, holdoff := 2, heldOff := 2 })
      (fun a => (a.tunit 63).mode == .holdoff && (a.tunit 63).byCount && decide ((a.tunit 63).holdoff ≤ (a.tunit 63).heldOff)) ∧
    holds (withUnit 63 { pendingA := some { at_ := 65535999999 }, timeMax := 0 })
      (fun a => (a.tunit 63).pendingA == some { at_ := 65535999999 } &&
        decide (65535999999 + (a.tunit 63).timeMax * 65536 < a.now * 65536)) ∧
    holds (withUnit 63 { mode := .configured, sched := some (2, 1, true, {}) })
      (fun a => (a.tunit 63).sched == some (2, 1, true, {}) && a.reached {}) ∧
    holds { up with trig := { pulse := some 1000000 } } (fun a => a.trig.pulse == some 1000000 && decide (1000000 ≤ a.now)) ∧
    holds up (fun a => decide (2 ≤ 2) && !a.isRetired ⟨5, 0, 2⟩ && !a.trig.ended && a.sparesLeft 5 0 != 0) ∧
    holds { up with ft := { spares := [(poolKey 5 0, 0)] } }
      (fun a => decide (2 ≤ 2) && !a.isRetired ⟨5, 0, 2⟩ && !a.trig.ended && a.sparesLeft 5 0 == 0 && !a.trig.split) ∧
    holds { up with ft := { spares := [(poolKey 5 0, 0)] }, trig := { split := true } }
      (fun a => decide (2 ≤ 2) && !a.isRetired ⟨5, 0, 2⟩ && !a.trig.ended && a.sparesLeft 5 0 == 0 && a.trig.split) ∧
    holds (withUnit 63 { evOpen := some 974400 }) (fun a => Cond.evInterval 63 974400 a && (a.tunit 63).evCount == 0) ∧
    holds (withUnit 63 { evOpen := some 974400, evCount := 1 })
      (fun a => Cond.evInterval 63 974400 a && (a.tunit 63).evCount != 0) := by
  decide

/-! ## ACQ -/

/-- `up` with acquisition context `n` as given, a Cellar region and input 3 running. -/
def withCtx (n : Nat) (x : Ctx) : State :=
  { ((withInput 3 { mode := .running }).setCtx n x) with regions := [(0, { bytes := 65536 })] }

/-- A context that is armed without a trigger. -/
def freeCtx : Ctx := { srcKind := 0, source := 3, start := 1, length := 64, segments := 2, element := 2, region := 0 }

theorem witness_AcqVerbsComplete :
    meets (withCtx 4094 {}) (cmd 0x0801 (pack [(2, 4095), (1, 0), (1, 1), (2, 3), (1, 0), (1, 2), (8, 0), (8, 64), (8, 0), (4, 1),
      (4, 0xFFFFFFFF), (8, 0), (8, 65536), (4, 1), (1, 100), (1, 1), (2, 0)])) Cond.createContext ∧
    meets (withCtx 4095 { freeCtx with segments := 0 }) (cmd 0x0802 (pack [(2, 4095), (14, 0)]))
      (fun c a => Cond.acqArm c a && (Cond.acqGranted (u16 c.payload 0) a).isSome && u8 c.payload 2 == 0 &&
        (((Cond.acqGranted (u16 c.payload 0) a).getD a).acqStartRecord (u16 c.payload 0)).armedNow (u16 c.payload 0)) ∧
    meets (withCtx 4095 { freeCtx with start := 2 }) (cmd 0x0802 (pack [(2, 4095), (14, 0)]))
      (fun c a => Cond.acqArm c a && (Cond.acqGranted (u16 c.payload 0) a).isSome && u8 c.payload 2 == 0 &&
        !(((Cond.acqGranted (u16 c.payload 0) a).getD a).acqStartRecord (u16 c.payload 0)).armedNow (u16 c.payload 0)) ∧
    meets (withCtx 4095 freeCtx) (cmd 0x0802 (pack [(2, 4095), (1, 1), (5, 0), (8, 2 ^ 40)]))
      (fun c a => Cond.acqArm c a && (Cond.acqGranted (u16 c.payload 0) a).isSome && u8 c.payload 2 != 0) ∧
    meets { withCtx 4095 { freeCtx with element := 2 ^ 40 } with regions := [] }
      (cmd 0x0802 (pack [(2, 4095), (14, 0)])) (fun c a => Cond.acqArm c a && (Cond.acqGranted (u16 c.payload 0) a).isNone) ∧
    meets (withCtx 4095 { mode := .held }) (cmd 0x0802 (pack [(2, 4095), (14, 0)]))
      (fun c a => Cond.acqArmFields c && a.ctxs.has (u16 c.payload 0) && (a.ctx (u16 c.payload 0)).mode.active) ∧
    meets (withCtx 4095 { mode := .capturing }) (cmd 0x0803 (pack [(2, 4095), (1, 1), (1, 0)]))
      (fun c a => Cond.acqStop c a && Cond.inSegment (u16 c.payload 0) a) ∧
    meets (withCtx 4095 { mode := .quiescing }) (cmd 0x0804 (pack [(2, 4095), (1, 1), (1, 0)]))
      (fun c a => Cond.acqStop c a && (a.ctx (u16 c.payload 0)).mode == .quiescing) ∧
    meets { withCtx 4095 { mode := .armed, flow := some 2 } with offered := [(2, [{}])] }
      (cmd 0x0803 (pack [(2, 4095), (1, 1), (1, 0)]))
      (fun c a => Cond.acqStopActive c a && Cond.flowHolds (u16 c.payload 0) a) ∧
    meets (withCtx 4095 { mode := .armed }) (cmd 0x0804 (pack [(2, 4095), (1, 1), (1, 0)]))
      (fun c a => Cond.acqStopActive c a && !Cond.flowHolds (u16 c.payload 0) a) ∧
    meets (withCtx 4095 {}) (cmd 0x0804 (pack [(2, 4095), (2, 0)]))
      (fun c a => Cond.acqStop c a && !(a.ctx (u16 c.payload 0)).mode.counts) ∧
    meets (withCtx 4095 freeCtx) (cmd 0x0805 (pack [(2, 4095), (1, 1), (1, 0), (4, 1), (4, 63), (12, 0)]))
      (Cond.testMask (pack [(8, 0)])) ∧
    meets (withCtx 4095 {}) (cmd 0x0805 (pack [(2, 4095), (22, 0)]))
      (fun c a => decide (u16 c.payload 0 ≤ 4095) && u8 c.payload 2 == 0 && zeros c.payload 12 4 &&
        a.ctxs.has (u16 c.payload 0) && !(a.ctx (u16 c.payload 0)).mode.active) ∧
    meets (withCtx 4095 {}) (cmd 0x0806 (pack [(2, 4095), (2, 0)]))
      (fun c a => decide (u16 c.payload 0 ≤ 4095) && zeros c.payload 2 2 && a.ctxs.has (u16 c.payload 0) &&
        decide (96 ≤ c.room)) := by decide

theorem witness_AcqSegmentsAndRows :
    holds (withCtx 4095 { mode := .filling }) (fun a => a.ringThere (a.ctx 4095) && (a.ctx 4095).mode == .filling) ∧
    holds (withCtx 4095 { mode := .held }) (fun a => a.ringThere (a.ctx 4095) && (a.ctx 4095).mode == .held) ∧
    holds (withCtx 4095 { mode := .armed, pending := some (3, {}, false) })
      (fun a => (a.ctx 4095).mode == .armed && (a.ctx 4095).pending.isSome) ∧
    ((withCtx 4095 freeCtx).ctx 4095).flow = none ∧
    ((withCtx 4095 freeCtx).acqGrid ((withCtx 4095 freeCtx).ctx 4095)).isSome ∧
    holds (withCtx 4095 { freeCtx with mode := .capturing, length := 1 })
      (Cond.segmentEnds 4095 [7] fun x f => x.mode != .quiescing && !(f && x.stopOnViolation) && (x.wrap || decide (x.index < x.segments))) ∧
    holds (withCtx 4095 { freeCtx with mode := .capturing, length := 1, index := 1 })
      (Cond.segmentEnds 4095 [7] fun x f => x.mode != .quiescing && !(f && x.stopOnViolation) && !x.wrap &&
        decide (x.segments ≤ x.index)) ∧
    holds (withCtx 4095 { freeCtx with
        mode := .capturing, length := 1, stopOnViolation := true, test := some { kind := 1, first := 0, points := [(6, 0)] } })
      (Cond.segmentEnds 4095 [7] fun x f => x.mode != .quiescing && f && x.stopOnViolation) ∧
    holds (withCtx 4095 { freeCtx with mode := .quiescing, length := 1 })
      (Cond.segmentEnds 4095 [7] fun x _ => x.mode == .quiescing && x.flow.isNone) ∧
    holds (withCtx 4095 { freeCtx with mode := .quiescing, length := 1, flow := some 2 })
      (Cond.segmentEnds 4095 [7] fun x _ => x.mode == .quiescing && x.flow.isSome) ∧
    holds (withCtx 4095 { mode := .capturing, rearming := true, hold := true })
      (fun a => Cond.rearmDue 4095 a && (a.ctx 4095).hold) ∧
    holds (withCtx 4095 { mode := .capturing, rearming := true, ringFull := true })
      (fun a => Cond.rearmDue 4095 a && !(a.ctx 4095).hold && (a.ctx 4095).start == 0 && (a.ctx 4095).ringFull) ∧
    holds (withCtx 4095 { mode := .held })
      (fun a => Cond.rearmDue 4095 a && !(a.ctx 4095).hold && (a.ctx 4095).start == 0 && !(a.ctx 4095).ringFull) ∧
    holds (withCtx 4095 { mode := .held, start := 2 })
      (fun a => Cond.rearmDue 4095 a && !(a.ctx 4095).hold && (a.ctx 4095).start != 0) ∧
    holds (withCtx 4095 { freeCtx with mode := .capturing, start := 2, begun := 999999 })
      (fun a => !Cond.rearmDue 4095 a && a.elementZero (a.ctx 4095) == some 999999) := by decide

theorem witness_AcqSegmentsAndRows_rest :
    holds (withCtx 4095 { freeCtx with mode := .capturing })
      (fun a => Cond.storing 4095 a && Cond.gapAt 4095 (Cond.segmentZero 4095 a + 63) 2 9 a &&
        a.gapIn (a.ctx 4095) (Cond.segmentZero 4095 a) (a.ctx 4095).length
          (Cond.gapRun (Cond.segmentZero 4095 a + 63) 2 9) == some { start := 63, ticks := 1, first := 63, cause := 2, elements := 1 }) ∧
    holds (withCtx 4095 { freeCtx with mode := .filling, pre := 1 })
      (fun a => !Cond.storing 4095 a && (a.ctx 4095).mode.active && Cond.gapAt 4095 5 1 3 a) ∧
    holds { withCtx 4095 { mode := .quiescing, flow := some 49151, drainSince := some 0 } with now := 2560000 }
      (Cond.drainOver 4095 49151 0) ∧
    holds (withCtx 4095 { sched := some {} }) (fun a => Cond.acqDue 4095 {} a && (Cond.acqGranted 4095 a).isSome) ∧
    holds { withCtx 4095 { freeCtx with element := 2 ^ 40, sched := some {} } with regions := [] }
      (Cond.acqLacks 4095 {} (.noAllotment, 0)) ∧
    holds (withCtx 4095 { segOpen := some 974400 })
      (fun a => Cond.segInterval 4095 974400 a && (a.ctx 4095).segPending == 0) ∧
    holds (withCtx 4095 { segOpen := some 974400, segPending := 1 })
      (fun a => Cond.segInterval 4095 974400 a && (a.ctx 4095).segPending != 0) ∧
    holds (withCtx 4095 { gapOpen := some 974400 })
      (fun a => Cond.gapInterval 4095 974400 a && (a.ctx 4095).gapPending == 0) ∧
    holds (withCtx 4095 { gapOpen := some 974400, gapPending := 1 })
      (fun a => Cond.gapInterval 4095 974400 a && (a.ctx 4095).gapPending != 0) := by
  decide

/-! ## SORREL -/

/-- `up` with Sorrel core `n` as given, a Cellar region and DDC 0 running. -/
def withCore (n : Nat) (x : Core) : State :=
  { ((withInput 0 { mode := .running }).setDdc 0 { running := true, configured := true }).setCore n x with
    regions := [(0, { bytes := 65536 })] }

/-- A core with a kernel, a source and a region. -/
def loadedCore : Core :=
  { mode := .loaded, kernel := some { maxCycles := 100 }, ports := [(0, { kind := 1, source := 0, elements := 8192 })]
    region := some (0, 65536) }

/-- A core that takes frames of job 0, one of which waits. -/
def frameCore : Core := { loadedCore with ports := [(0, { kind := 2, source := 0, bins := 1, frames := [{ values := [1, 2, 3, 4] }] })] }

/-- The smallest image: one instruction, no INIT, no STATE, one port. -/
def image : List Byte :=
  pack [(4, 0x4C4B5253), (2, 1), (2, 0), (4, 8), (4, 0), (4, 0), (4, 0), (4, 100), (4, 0), (16, 0), (4, 0), (4, 0xFFFFFFFF),
    (4, 64), (1, 8), (67, 0), (8, 0)]

set_option maxRecDepth 4000 in
theorem witness_SorrelVerbsComplete :
    meets (withCore 63 {}) (cmd 0x0901 (pack [(8, 2 ^ 63), (1, 0), (3, 0), (4, 136), (8, 8)]))
      (Cond.loadKernel image) ∧
    meets (withCore 63 {}) (cmd 0x0904 (pack [(1, 63), (1, 1), (1, 1), (1, 0), (4, 8192), (40, 0)]))
      (fun c a => Cond.bindInput c a || Cond.bindOther c a) ∧
    meets (withCore 63 {}) (cmd 0x0904 (pack [(1, 63), (1, 1), (46, 0)])) Cond.bindInput ∧
    meets (withCore 63 {}) (cmd 0x0904 (pack [(1, 63), (1, 2), (14, 0), (4, 0xFFFFFFFF), (4, 1024), (24, 0)])) Cond.bindOther ∧
    meets (withCore 63 {}) (cmd 0x0904 (pack [(1, 63), (1, 3), (46, 0)])) Cond.bindOther ∧
    meets (withCore 63 {}) (cmd 0x0904 (pack [(1, 63), (1, 4), (30, 0), (8, 4096), (8, 61440)])) Cond.bindOther ∧
    meets (withCore 63 loadedCore) (cmd 0x0902 (pack [(1, 63), (1, 0), (2, 4), (12, 0), (4, 9)]))
      (fun c a => Cond.sorrelStart c a && u8 c.payload 1 == 0) ∧
    meets (withCore 63 loadedCore) (cmd 0x0902 (pack [(1, 63), (1, 1), (2, 0), (4, 0), (8, 2 ^ 40)]))
      (fun c a => Cond.sorrelStart c a && u8 c.payload 1 != 0) ∧
    meets (withCore 63 { mode := .running }) (cmd 0x0902 (pack [(1, 63), (15, 0)]))
      (fun c a => c.payload.length == 16 + u16 c.payload 2 && decide (u8 c.payload 0 ≤ 63) && decide (u8 c.payload 1 ≤ 2) &&
        decide (u16 c.payload 2 ≤ 256) && zeros c.payload 4 4 && !(a.core (u8 c.payload 0)).lent &&
        (a.core (u8 c.payload 0)).mode == .running) ∧
    meets (withCore 63 { mode := .running }) (cmd 0x0903 (pack [(4, 63)]))
      (fun c a => Cond.sorrelStop c a && u8 c.payload 1 == 0) ∧
    meets (withCore 63 { mode := .running }) (cmd 0x0903 (pack [(1, 63), (1, 1), (2, 0)]))
      (fun c a => Cond.sorrelStop c a && u8 c.payload 1 == 1) ∧
    meets (withCore 63 {}) (cmd 0x0903 (pack [(4, 63)]))
      (fun c a => Cond.stopFields c a && (a.core (u8 c.payload 0)).mode != .running) ∧
    meets up (cmd 0x0905 (pack [(4, 63)]))
      (fun c a => decide (u8 c.payload 0 ≤ 63) && zeros c.payload 1 3 && !(a.core (u8 c.payload 0)).lent &&
        decide (96 ≤ c.room)) := by decide

set_option maxRecDepth 4000 in
theorem witness_SorrelRows :
    holds (withCore 63 { frameCore with mode := .running })
      (fun a => Cond.bound 63 0 a && (Cond.inputBlock 63 0 0 true [] a).any fun b =>
        decide ((Cond.taken 63 0 a).ringBytes + b.bytes.length ≤ (a.ringOf (a.core 63) 0).2)) ∧
    holds (withCore 63 { frameCore with mode := .running, region := none })
      (fun a => Cond.bound 63 0 a && (Cond.inputBlock 63 0 0 true [] a).any fun b =>
        decide ((a.ringOf (a.core 63) 0).2 < (Cond.taken 63 0 a).ringBytes + b.bytes.length)) ∧
    holds (withCore 63 { mode := .running, cycleBase := 2000000 })
      (fun a => (a.core 63).mode == .running && decide ((a.core 63).k.maxCycles ≤ (a.core 63).cycles a.now)) ∧
    holds ((withCore 63 { forces := [62], forceMask := 2 ^ 62 }).setTunit 62 { mode := .armed })
      (fun a => (a.core 63).forces == [62] && Cond.mayForce 63 62 a) ∧
    holds (withCore 63 { forces := [62] })
      (fun a => (a.core 63).forces == [62] && !Cond.mayForce 63 62 a) ∧
    holds up (fun a => decide (67 ≤ 67) && !a.isRetired ⟨4, 0, 67⟩ && ((List.range 64).find? fun c =>
      (a.core c).physical c == 67 && !(a.core c).lent && !(a.core c).dead).isNone) ∧
    holds up (fun a => Cond.failsUnder 63 63 a && Cond.spareFor 63 a == some 64 && a.sparesLeft 4 0 != 0) ∧
    holds (withCore 63 { sched := some ({}, [1]) }) (fun a => (a.core 63).sched == some ({}, [1]) && a.reached {}) := by
  decide

/-! ## Sorrel instructions -/

/-- `up` with core 63 about to issue the word of class `cls`, OP `op` and further bits `rest`. -/
def issue (cls op rest : Nat) : State :=
  withCore 63 { mode := .running, kernel := some { code := [cls * 2 ^ 60 + op * 2 ^ 54 + rest], record := 48 } }

/-- Core 63 issues a valid word of that class and OP, and its effect completes. -/
def issued (cls op rest : Nat) (r : Cond.Effect) : Bool :=
  holds (issue cls op rest) fun a => Cond.issues 63 cls op a && (Cond.effect r 63 a).isSome

/-- Every scalar instruction, SD 31, SA 1, immediate 9. -/
theorem witness_ScalarAndMemoryInstructions :
    ((List.range 15).all fun op => issued 0 op (31 * 2 ^ 49 + 2 ^ 44 + 2 ^ 38 + 9) (Cond.scalar fun p q _ => p + q)) ∧
    issued 0 15 (31 * 2 ^ 49 + 9) (fun w _ x => some (x.setS (bits w 53 49) (bits w 31 0))) ∧
    holds (issue 0 16 (31 * 2 ^ 49 + 7))
      (fun a => Cond.issues 63 0 16 a && decide (bits (Cond.issuing 63 a).word 31 0 ≤ 7)) ∧
    holds (issue 0 17 (31 * 2 ^ 44 + 7))
      (fun a => Cond.issues 63 0 17 a && decide (bits (Cond.issuing 63 a).word 31 0 ≤ 7)) := by decide

/-- Every memory instruction, with generator 7. -/
theorem witness_ScalarAndMemoryInstructions_rest :
    issued 1 0 (7 * 2 ^ 46) (Cond.load 4 4 (fun w b y => y.setS (bits w 53 49) (leNat b)) Cond.noV) ∧
    issued 1 1 (7 * 2 ^ 46) (Cond.store 4 fun w x => leBytes 4 (x.s (bits w 53 49))) ∧
    issued 1 2 (7 * 2 ^ 46 + 15 * 2 ^ 49 + 2 ^ 24) (Cond.load 16 16 (fun w b y => y.setV (bits w 52 49) (lanesOf b)) destV) ∧
    issued 1 3 (7 * 2 ^ 46 + 2 * 2 ^ 24) (Cond.store 16 fun w x => (x.v (bits w 52 49)).bytes) ∧
    issued 1 4 (7 * 2 ^ 46) (Cond.load 4 4
      (fun w b y => y.setV (bits w 52 49) { l0 := cplxOf b, l1 := cplxOf b, l2 := cplxOf b, l3 := cplxOf b }) destV) ∧
    issued 1 5 (7 * 2 ^ 46) (Cond.store 16 fun w x =>
      leBytes 8 (unsign 64 (x.a (bits w 50 49)).l0.re) ++ leBytes 8 (unsign 64 (x.a (bits w 50 49)).l0.im)) := by decide

/-- Vector instructions: operand B from a register and from memory, with and without the move slot. -/
theorem witness_VectorAndAccumulatorInstructions :
    ((List.range 7).all fun op => issued 2 op (15 * 2 ^ 41) (Cond.lanewise Cplx.add)) ∧
    ((List.range 7).all fun op => issued 2 op (2 ^ 40 + 2 ^ 24) (Cond.lanewise Cplx.add)) ∧
    issued 4 0 (5 * 2 ^ 32) (Cond.given (fun w _ => decide (bits w 33 32 ≤ 1))
      (Cond.vector (fun w _ b y => { y with maxi := y.maxi.scan (bits w 34 32) false b }) Cond.noV)) ∧
    issued 4 1 (5 * 2 ^ 32) (Cond.given (fun w _ => decide (bits w 33 32 ≤ 1))
      (Cond.vector (fun w _ b y => { y with mini := y.mini.scan (bits w 34 32) true b }) Cond.noV)) ∧
    issued 4 2 (2 ^ 32) (Cond.given (fun w _ => bits w 33 33 == 0) (Cond.vector (fun w _ b y =>
      y.setS (bits w 53 49) (if bits w 32 32 = 1 then b.headroom 15 else min (y.s (bits w 53 49)) (b.headroom 15))) Cond.noV)) ∧
    issued 4 2 (3 * 2 ^ 32) (Cond.given (fun w _ => bits w 33 33 == 1) (Cond.unary (fun w x =>
      x.setS (bits w 53 49) (if bits w 32 32 = 1 then (x.a (bits w 46 45)).headroom 47
        else min (x.s (bits w 53 49)) ((x.a (bits w 46 45)).headroom 47))) Cond.noV)) ∧
    issued 4 3 0 (Cond.vector (fun w _ b y => y.setV (bits w 52 49) b) destV) := by decide

theorem witness_VectorAndAccumulatorInstructions_rest :
    issued 3 0 (3 * 2 ^ 49) (Cond.vector (fun w x b y => y.setAcc (bits w 50 49)
      (Lanes.zip Cplx.add (x.a (bits w 50 49)) (Lanes.zip Cplx.mul (x.v (bits w 48 45)) b))) Cond.noV) ∧
    issued 3 1 (3 * 2 ^ 49) (Cond.vector (fun w x b y => y.setAcc (bits w 50 49)
      (Lanes.zip Cplx.add (x.a (bits w 50 49)) (Lanes.zip (fun p q => p.mul q.conj) (x.v (bits w 48 45)) b))) Cond.noV) ∧
    issued 3 2 (15 * 2 ^ 45 + 2 ^ 24 + 15 * 2 ^ 20)
      (Cond.given (fun w _ => bits w 25 24 == 1 && bits w 23 20 == bits w 48 45) Cond.tapmv) ∧
    issued 3 3 0 (Cond.unary (fun w x => { x with accs := x.accs.set (bits w 50 49) {} }) Cond.noV) ∧
    issued 3 4 (47 * 2 ^ 26) (Cond.given (fun w _ => decide (bits w 31 26 ≤ 47)) (Cond.unary (fun w x =>
      x.setSat (bits w 52 49) ((x.a (bits w 46 45)).map fun z => z.map fun v => roundEvenInt v (2 ^ bits w 31 26))) destV)) ∧
    issued 3 5 0 (Cond.unary (fun w x =>
      let l := x.a (bits w 46 45)
      x.setAcc (bits w 50 49) { l0 := (l.l0.add l.l1).add (l.l2.add l.l3) }) Cond.noV) := by decide

theorem witness_ControlInstructions :
    holds (issue 5 0 (6 * 2 ^ 40 + 9))
      (fun a =>
        let x := Cond.issuing 63 a
        let w := x.word
        Cond.issues 63 5 0 a && decide (bits w 43 40 ≤ 6) && isaCond (bits w 43 40) (x.s (bits w 53 49)) (x.s (bits w 48 44))) ∧
    issued 5 0 (5 * 2 ^ 40) (Cond.given (fun w x => decide (bits w 43 40 ≤ 6) &&
      !isaCond (bits w 43 40) (x.s (bits w 53 49)) (x.s (bits w 48 44))) fun _ _ x => some x) ∧
    holds (issue 5 1 (2 ^ 32 - 1)) (Cond.issues 63 5 1) ∧
    holds (withCore 63 { mode := .running, sregs := [(1, 3)], kernel := some { code := [5 * 2 ^ 60 + 2 * 2 ^ 54 + 2 ^ 49 + 4] } })
      (fun a =>
        let x := Cond.issuing 63 a
        Cond.issues 63 5 2 a && x.s (bits x.word 53 49) == 2 + 1 && decide (x.loops.length < 4)) ∧
    holds (issue 5 2 4)
      (fun a => Cond.issues 63 5 2 a && (Cond.issuing 63 a).s (bits (Cond.issuing 63 a).word 53 49) == 0) ∧
    holds (issue 5 3 3)
      (fun a =>
        let x := Cond.issuing 63 a
        Cond.issues 63 5 3 a && (maskBits 2 (bits x.word 1 0)).any fun p => (x.port p).slots.isEmpty) ∧
    issued 5 3 0 (Cond.given (fun w x => !(maskBits 2 (bits w 1 0)).any fun p => (x.port p).slots.isEmpty)
      fun _ _ x => some x) ∧
    holds (issue 5 4 0) (Cond.issues 63 5 4) ∧
    holds (issue 5 5 0)
      (fun a => Cond.issues 63 5 5 a && Cond.emits (Cond.issuing 63 a).word (Cond.issuing 63 a)) ∧
    issued 5 6 0 (Cond.given Cond.posts fun w _ x =>
      some { x with messages := x.messages ++ [x.bytes (x.s (bits w 53 49)) 32] }) ∧
    issued 5 7 (7 * 2 ^ 37 + 3 * 2 ^ 35) (fun _ _ x => some x) ∧
    holds (issue 5 8 0) (Cond.issues 63 5 8) ∧
    issued 5 9 0 (fun _ _ x => some x) := by decide

/-! ## PAT -/

/-- `up` with pattern site `n` as given, a Cellar region, every PE device linked and ready, and the vector clock on. -/
def withSite (n : Nat) (x : Site) : State :=
  let s : State := { up with ready := 0x7FFFFFFF#64, regions := [(0, { bytes := 65536 })], pe := [(0, { mode := .up, memory := 2 ^ 24 })] }
  let s := s.setSite n x
  { s with ck := { s.ck with gens := [(0, { enabled := true, freq := 1000000000000 })] } }

/-- `withSite` with segment 65535 of two conditions. -/
def withSeg (n : Nat) (x : Site) (g : Segment) : State := (withSite n x).setSeg 65535 g

set_option maxRecDepth 4000 in
theorem witness_PatVerbsComplete :
    meets (withSite 255 { mode := .idle, pins := [63] }) (cmd 0x0A01 (pack [(2, 65535), (1, 0), (1, 0), (4, 64), (8, 0), (8, 64), (8, 0),
      (32, 2 ^ 255)])) Cond.defineSegment ∧
    meets up (cmd 0x0A01 (pack [(2, 65535), (1, 2), (61, 0)]))
      (fun c a => (u8 c.payload 2 == 2 || u8 c.payload 2 == 3) && zeros c.payload 3 1 && zeros c.payload 12 4 &&
        zeros c.payload 24 8 && a.readyBit 18 && !a.segActive (u16 c.payload 0)) ∧
    meets (withSeg 255 { mode := .idle, pins := [63] } { length := 64, streamed := true, sites := 2 ^ 255 })
      (cmd 0x0A02 (pack [(2, 65535), (2, 0), (4, 1), (4, 63), (4, 0), (8, 8)]))
      (fun c a => Cond.writeFields c a && (Cond.badVector (pack [(16, 0)]) c a).isNone && !(Cond.written (pack [(16, 0)]) c a).writeWaits (u16 c.payload 0)) ∧
    meets (withSeg 255 { mode := .idle, pins := [63] } { length := 64, sites := 2 ^ 255 })
      (cmd 0x0A02 (pack [(2, 65535), (2, 0), (4, 1), (4, 63), (4, 0), (8, 8)]))
      (fun c a => Cond.writeFields c a && (Cond.written (pack [(16, 0)]) c a).writeWaits (u16 c.payload 0)) ∧
    meets (withSeg 255 { mode := .idle, pins := [63] } { length := 64, streamed := true, sites := 2 ^ 255 })
      (cmd 0x0A02 (pack [(2, 65535), (2, 0), (4, 1), (4, 63), (4, 0), (8, 8)]))
      (fun c a => Cond.writeFields c a && Cond.badVector (pack [(8, 0), (8, 8)]) c a == some 0 &&
        !(Cond.written (pack [(8, 0), (8, 8)]) c a).writeWaits (u16 c.payload 0)) ∧
    meets (withSeg 255 {} { length := 64 }) (cmd 0x0A03 (pack [(2, 1), (6, 0), (2, 65535), (1, 31), (1, 0), (4, 2 ^ 24), (4, 2 ^ 17 - 1),
      (2, 9), (2, 0), (4, 63), (4, 0)])) Cond.loadTable ∧
    meets (withSite 255 {}) (cmd 0x0A04 (pack [(1, 255), (1, 0), (2, 1), (4, 0), (2, 63)])) Cond.defineSite ∧
    meets (withSite 255 { mode := .done }) (cmd 0x0A04 (pack [(1, 255), (1, 1), (6, 0)]))
      (fun c a => c.payload.length == 8 + 2 * u16 c.payload 2 && u8 c.payload 1 == 1 && zeros c.payload 4 4 && a.readyBit 18 &&
        Cond.siteFree (u8 c.payload 0) a) ∧
    meets (withSite 255 { mode := .idle, pins := [63] }) (cmd 0x0A09 (pack [(1, 255), (1, 63), (1, 1), (1, 0), (2, 0xFFFF), (2, 0), (8, 8), (8, 0)]))
      (Cond.loadTimesets (pack [(4, 39999), (4, 0), (4, 0xFFFFFFFF), (4, 7)])) ∧
    meets (withSeg 255 { mode := .idle, pins := [63] } { length := 64, sites := 2 ^ 255 })
      (cmd 0x0A05 (pack [(32, 2 ^ 255), (2, 65535), (30, 0)])) Cond.patStart ∧
    meets (withSeg 255 { mode := .running } { length := 64 }) (cmd 0x0A06 (pack [(32, 2 ^ 255), (4, 1)]))
      (fun c a => decide (u8 c.payload 32 ≤ 1) && zeros c.payload 33 3 && Cond.stillBusy c (Cond.stopping [(255, 3)] c a)) ∧
    meets (withSite 255 {}) (cmd 0x0A06 (pack [(32, 2 ^ 255), (4, 1)]))
      (fun c a => decide (u8 c.payload 32 ≤ 1) && zeros c.payload 33 3 && !Cond.stillBusy c (Cond.stopping [(255, 3)] c a)) ∧
    meets (withSeg 255 { mode := .running } { length := 64 }) (cmd 0x0A07 (pack [(32, 2 ^ 255), (4, 0)]))
      (fun c _ => zeros c.payload 34 2) ∧
    meets (withSite 255 {}) (cmd 0x0A08 (pack [(4, 255)])) (fun c _ => zeros c.payload 1 3 && decide (64 ≤ c.room)) := by decide

/-- A PAT.START of site 255 in progress. -/
def starting : Cmd := { cmd 0x0A05 (pack [(32, 2 ^ 255), (2, 65535), (30, 0)]) with started := true }

/-- A running site in segment 65535 that has made this choice. -/
def choosing (ch : PlayChoice) : State :=
  withSeg 255 { mode := .running, play := { seg := 65535, chosen := some ch, jump := some { cause := 64, place := 3 } } } { length := 64 }

set_option maxRecDepth 4000 in
theorem witness_PatRows :
    holds (withCmd (withSite 255 { mode := .starting }) starting)
      (Cond.launches 255 starting []) ∧
    holds { withSite 255 { mode := .running } with trig := { jumps := [(255, 63)] } }
      (fun a => decide (255 ≤ 255) && (a.trig.jumps.find? fun j => j.1 == 255) == some (255, 63)) ∧
    holds (withSeg 255 { mode := .running, play := { seg := 65535 } } { length := 64 })
      (fun a => (a.site 255).mode == .running && (a.site 255).play.chosen.isNone) ∧
    ([.again, .enter 9, .jump 9, .finish, .stop, .locked, .missing].all fun ch => holds (choosing ch) (Cond.chose 255 ch)) ∧
    holds (choosing (.jump 9)) (fun a => ((Cond.atEnd 255 a).site 255).play.jump == some { cause := 64, place := 3 }) ∧
    holds ((withSeg 255 { mode := .running, pins := [63], play := { seg := 65535, horizon := 64 } } { length := 64, streamed := true }).setPe 0
      { mode := .up, bulk := [(7, { site := 255 })] })
      (fun a => (a.site 255).mode == .running && (a.site 255).due.isNone && a.refillShort 255 0 (0 + (a.site 255).play.horizon)) ∧
    ((choosing .again).site 255).mode = .running ∧ ((choosing .again).site 255).due = none ∧
    ((choosing .again).site 255).play.parkAt = none ∧
    ([.stalled, .stopped, .lost].all fun m => holds
      (withSite 255 { mode := .running, play := { parkAt := some 70, base := 64 }, due := some m }) (Cond.parksAt 255 6 m)) := by decide

/-! ## TRELLIS -/

/-- `up` with PE device `n` as given. -/
def withPe (n : Nat) (d : PeDev) : State := { withSite 255 {} with pe := [(n, d)] }

/-- A frame of a type from device 63 with FSEQ 5, its payload zero. -/
def frameOf (type : Nat) : List Byte := peFrame type 0 5 0 []

set_option maxRecDepth 40000 in
theorem witness_TrellisVerbsComplete :
    meets (withPe 63 { mode := .up }) (cmd 0x0B01 (pack [(8, 2 ^ 63), (8, 0)]))
      (fun c a => Cond.discover c a && (Cond.trainNames c a).isEmpty) ∧
    meets (withPe 63 { mode := .up }) (cmd 0x0B01 (pack [(8, 2 ^ 63), (1, 1), (7, 0)]))
      (fun c a => Cond.discover c a && !(Cond.trainNames c a).isEmpty) ∧
    meets (withPe 63 {}) (cmd 0x0B02 (pack [(4, 63)]))
      (fun c a => decide (u8 c.payload 0 ≤ 63) && u8 c.payload 1 == 0 && zeros c.payload 2 2 &&
        decide ((a.peStatus (u8 c.payload 0) false).length ≤ c.room)) ∧
    meets (withPe 63 {}) (cmd 0x0B02 (pack [(1, 63), (1, 1), (2, 0)]))
      (fun c a => Cond.countersAsked c && ((Cond.sitesWith (u8 c.payload 0) a).isEmpty || !(a.peDev (u8 c.payload 0)).linked) &&
        decide ((a.peStatus (u8 c.payload 0) true).length ≤ c.room)) ∧
    meets (withSite 255 { pins := [0] }) (cmd 0x0B02 (pack [(1, 0), (1, 1), (2, 0)]))
      (fun c a => Cond.countersAsked c && !(Cond.sitesWith (u8 c.payload 0) a).isEmpty && (a.peDev (u8 c.payload 0)).linked) ∧
    meets (withSite 255 {}) (cmd 0x0B03 (pack [(1, 255), (1, 7), (2, 0), (4, 1), (8, 0), (8, 128), (8, 128), (4, 1000000), (4, 1), (8, 0)]))
      Cond.configureCapture ∧
    meets (withPe 63 { mode := .up, channels := 2 }) (cmd 0x0B04 (pack [(1, 0), (1, 0xFF), (14, 0)]))
      (fun c a => Cond.deskew c a && !(Cond.deskewUnits c a).isEmpty) ∧
    meets (withPe 63 { mode := .up, channels := 0 }) (cmd 0x0B04 (pack [(1, 0), (1, 63), (14, 0)]))
      (fun c a => Cond.deskew c a && (Cond.deskewUnits c a).isEmpty) ∧
    meets (withPe 63 { mode := .up }) (cmd 0x0B04 (pack [(1, 1), (1, 63), (1, 63), (1, 2), (12, 0)])) Cond.deskewRoute := by
  decide

/-- A codeword header with CW_INDEX `k`, RX_OK and 9 credits. -/
def header (k : Nat) : Nat := codewordHeader k true true false 9

/-- A payload of zeros. -/
def quiet : List Byte := List.replicate 640 0#8

theorem quiet_length : quiet.length = 640 := List.length_replicate

/-- Sixteen codewords received without errors. -/
def sixteen : List (List Nat × List (Nat × Nat)) :=
  (List.range 16).map fun k => (lineLevels (header k) quiet, [])

set_option maxRecDepth 40000 in
theorem header_check : ∀ k ∈ List.range 16, headerCheck (header k % 65536) = bits (header k) 19 16 := by decide

theorem header_decodes (k : Nat) (hk : k ∈ List.range 16) :
    lineDecode (lineLevels (header k) quiet) [] = some (header k % 2 ^ 20, quiet) :=
  lineDecode_levels quiet_length (header_check k hk)

theorem headers_decode : ∀ l : List Nat, (∀ k ∈ l, k ∈ List.range 16) →
    ((l.map fun k => (lineLevels (header k) quiet, ([] : List (Nat × Nat)))).filterMap fun w =>
      (lineDecode w.1 w.2).map Prod.fst) = l.map fun k => header k % 2 ^ 20
  | [], _ => rfl
  | k :: l, h => by
    rw [List.map_cons, List.map_cons, List.filterMap_cons_some (b := header k % 2 ^ 20)
      (by rw [header_decodes k (h k List.mem_cons_self), Option.map_some]),
      headers_decode l fun j hj => h j (List.mem_cons_of_mem k hj)]

set_option maxRecDepth 40000 in
theorem witness_TrellisBoundary : boundaryFound sixteen = true ∧
    (sixteen.getLast?.bind fun w => lineDecode w.1 w.2) = some (header 15 % 2 ^ 20, quiet) := by
  constructor
  · unfold boundaryFound sixteen
    rw [headers_decode _ fun _ h => h, List.length_map]
    decide
  · unfold sixteen
    rw [List.getLast?_map, show (List.range 16).getLast? = some 15 from by decide, Option.map_some, Option.bind_some,
      header_decodes 15 (List.mem_range.2 (by omega))]

theorem witness_TrellisNoise : lineDecode [] [] = none := by decide

set_option maxRecDepth 40000 in
theorem witness_TrellisLinkRows :
    holds (withPe 63 { mode := .training, trainSince := some 5 }) (Cond.laneTraining 63) ∧
    ((withPe 63 { mode := .training, trainSince := some 5 }).peDev 63).trainSince.isSome ∧
    ((withPe 63 { mode := .training, trainSince := some 5 }).peDev 63).downUp = false ∧
    holds { withPe 63 {} with now := 32768 * 40 } (fun a => a.now % 32768 == 0 && a.pw.tickRunning) ∧
    holds (withPe 63 { mode := .up, upUp := true }) (fun a => decide (63 ≤ 63) && (a.peDev 63).upUp) ∧
    holds (withPe 63 { mode := .training, unacked := [{}] }) (fun a => a.laneOn 63 && (a.peDev 63).overdue a.now) ∧
    holds (withPe 63 { mode := .rerouted, downUp := true })
      (fun a => Cond.dirFails 63 false a && (a.peDev 63).mode == .rerouted) ∧
    holds (withPe 63 { mode := .training, upUp := true })
      (fun a => Cond.dirFails 63 true a && (a.peDev 63).mode != .rerouted && (a.peDev 63).mode != .up) ∧
    holds { withPe 63 {} with pe := [(62, { mode := .up }), (63, { mode := .up, upUp := true, downUp := true })] }
      (fun a => Cond.dirFails 63 true a && (a.peDev 63).mode == .up && Cond.canReroute 63 true a) ∧
    holds (withPe 63 { mode := .up, upUp := true })
      (fun a => Cond.dirFails 63 true a && (a.peDev 63).mode == .up && !Cond.canReroute 63 true a) ∧
    holds (withPe 63 {}) (fun a => !(a.peDev 63).linked && (a.peDev 63).mode != .training && !a.carrying 63) ∧
    holds (withPe 63 { mode := .up })
      (fun a => ((a.peDev 63).linked || (a.peDev 63).mode == .training) && !a.carrying 63) ∧
    holds { withPe 63 {} with pe := [(62, { mode := .rerouted }), (63, { mode := .up })] } (fun a => a.carrying 63) ∧
    holds (withPe 63 {}) (fun a => Cond.sideWorks 31 a && (Cond.onSide 31 a).isEmpty) ∧
    holds (withPe 63 { mode := .rerouted }) (fun a => Cond.sideWorks 31 a && !(Cond.onSide 31 a).isEmpty) := by decide

set_option maxRecDepth 40000 in
theorem witness_TrellisFrames :
    ((List.all [(0x00, 0), (0x10, 1), (0x18, 0), (0x12, 1), (0x13, 1), (0x11, 0), (0x14, 2), (0x15, 0), (0x16, 2), (0x17, 1), (0x1F, 1)]
      fun e : Nat × Nat => holds (withPe 63 { mode := .up, upUp := true, rxSeq := 5 })
        fun a => Cond.goodFrame 63 e.1 (frameOf e.1) a && Cond.fresh 63 e.2 (frameOf e.1) a)) ∧
    ((List.all [(0x10, 1), (0x14, 2)] fun e : Nat × Nat => holds (withPe 63 { mode := .up, upUp := true, rxSeq := 4, seen := [0] })
        fun a => Cond.goodFrame 63 e.1 (frameOf e.1) a && !Cond.fresh 63 e.2 (frameOf e.1) a)) ∧
    holds (withPe 63 { mode := .up, upUp := true })
      (fun a => decide (63 ≤ 63) && (a.peDev 63).upUp && ((List.replicate 64 (0#8)).length != 64 ||
        frameCrc ((List.replicate 64 0#8).take 62) != u16 (List.replicate 64 0#8) 62)) := by
  decide

/-! ## STIM -/

/-- `up` with stimulus output 1 as given. -/
def withStim (x : StimOut) : State := up.setStim 1 x

/-- A STIM.START of output 1 in progress. -/
def playing : Cmd := { cmd 0x0C04 (pack [(1, 2), (23, 0)]) with started := true }

/-- A running output 1 that has made this choice. -/
def stimChoosing (ch : PlayChoice) : State :=
  withStim { mode := .running, play := { seg := 4095, chosen := some ch }, segs := [(4095, { length := 128, streamed := true })] }

/-- Samples from host memory to the last place of segment 4095 of output 1. -/
def oneSample : Cmd := cmd 0x0C02 (pack [(2, 4095), (1, 0), (1, 1), (4, 1), (4, 127), (4, 0), (8, 8)])

theorem witness_StimVerbsComplete :
    meets up (cmd 0x0C01 (pack [(1, 1), (1, 0), (2, 4095), (4, 16777088), (4, 128), (4, 0), (16, 0)])) Cond.stimDefine ∧
    meets up (cmd 0x0C01 (pack [(1, 1), (1, 2), (2, 4095), (28, 0)]))
      (fun c a => decide (u8 c.payload 0 ≤ 1) && (u8 c.payload 1 == 2 || u8 c.payload 1 == 3) && decide (u16 c.payload 2 ≤ 4095) &&
        zeros c.payload 24 8 && a.stimReady (u8 c.payload 0) && !(a.stimOut (u8 c.payload 0)).active (u16 c.payload 2)) ∧
    meets (withStim { segs := [(4095, { length := 128, streamed := true })] }) oneSample Cond.stimWrite ∧
    meets (withStim { segs := [(4095, { length := 128 })] }) oneSample Cond.stimWrite ∧
    meets (withStim { segs := [(4095, { length := 128 })] })
      (cmd 0x0C03 (pack [(2, 1), (1, 1), (5, 0), (2, 4095), (1, 3), (1, 0), (4, 2 ^ 24), (4, 2 ^ 16), (2, 4095), (2, 9), (8, 0)]))
      Cond.stimTable ∧
    meets up (cmd 0x0C04 (pack [(1, 0), (1, 1), (22, 0)]))
      (fun c a => decide (u8 c.payload 0 ≤ 3) && u8 c.payload 1 == 1 &&
        decide ((a.stimBlock 0 ++ a.stimBlock 1).length ≤ c.room)) ∧
    meets (withStim { segs := [(4095, { length := 128, cond := 1, target := 4095 })] })
      (cmd 0x0C04 (pack [(1, 2), (2, 0), (1, 8), (2, 0), (2, 4095), (16, 0)]))
      (fun c a => Cond.stimStart c a && !(Cond.outputs c).isEmpty) ∧
    meets up (cmd 0x0C04 (pack [(24, 0)])) (fun c a => Cond.stimStart c a && (Cond.outputs c).isEmpty) ∧
    meets (withStim { mode := .running }) (cmd 0x0C05 (pack [(1, 3), (1, 1), (2, 0)]))
      (fun c a => Cond.stimStop c a && (Cond.outputs c).any fun o => ((Cond.stimStopping c a).stimOut o).mode.live) ∧
    meets (withStim { mode := .done }) (cmd 0x0C05 (pack [(1, 3), (1, 1), (2, 0)]))
      (fun c a => Cond.stimStop c a && !(Cond.outputs c).any fun o => ((Cond.stimStopping c a).stimOut o).mode.live) ∧
    meets up (cmd 0x0C06 (pack [(1, 3), (1, 0), (2, 0xFFFF)]))
      (fun c a => decide (u8 c.payload 0 ≤ 3) && zeros c.payload 1 1 && (Cond.outputs c).all fun o => a.stimReady o) := by decide

theorem witness_StimRows :
    holds (withCmd (withStim { mode := .starting }) playing)
      (fun a => (a.startedCmds 0x0C04 fun c => (u8 c.payload 0).testBit 1) == [playing] && a.reached (Cond.stimAt playing)) ∧
    holds { withStim {} with trig := { jumps := [(257, 9)] } }
      (fun a => decide (1 ≤ 1) && (a.trig.jumps.find? fun j => j.1 == 256 + 1) == some (257, 9)) ∧
    holds (withStim { mode := .running }) (fun a => (a.stimOut 1).mode == .running && (a.stimOut 1).play.chosen.isNone &&
      decide ((a.stimOut 1).cur.length ≤ a.stimIndex 1 + 64)) ∧
    ([.again, .enter 7, .finish, .stop, .locked, .missing].all fun ch => holds (stimChoosing ch) (Cond.stimChose 1 ch)) ∧
    holds (withStim { mode := .running, play := { chosen := some (.jump 7), jump := some { cause := 65 } } })
      (fun a => Cond.stimChose 1 (.jump 7) a && (a.stimOut 1).play.jump == some { cause := 65 }) ∧
    holds (stimChoosing .again) (fun a => (a.stimOut 1).mode == .running && (a.stimOut 1).cur.streamed) ∧
    holds (withStim { mode := .running, parkAt := some 9 })
      (fun a => (a.stimOut 1).mode == .running && (a.stimOut 1).parkAt == some 9 &&
        decide (9 ≤ a.now - (a.stimOut 1).start)) := by decide

/-! ## VINE -/

/-- `up` in this Vine state. -/
def withVine (v : Vine) : State := up.setVine v

theorem witness_VineVerbsComplete :
    meets up (cmd 0x0D01 (pack [(1, 1), (31, 0)])) (Cond.vineConfigure 1) ∧
    meets up (cmd 0x0D01 (pack [(1, 2), (23, 0), (8, 77)]))
      (fun c a => Cond.vineConfigure 2 c a && Cond.vineDelay c a == some 77) ∧
    meets (withVine { role := 1 }) (cmd 0x0D01 (pack [(32, 0)])) (fun c _ => u8 c.payload 0 == 0 && zeros c.payload 1 7) ∧
    meets (withVine { role := 1, epoch := 5 }) (cmd 0x0D02 (pack [(8, 105), (2, 4096), (1, 3), (5, 0)]))
      (fun c a => decide (64 ≤ u16 c.payload 8) && decide (u16 c.payload 8 ≤ 4096) && decide (u8 c.payload 10 ≤ 3) &&
        zeros c.payload 11 5 && decide (a.vine.epoch + 100 ≤ u64 c.payload 0) && a.vine.role != 0) ∧
    meets up (cmd 0x0D03 []) (fun c _ => decide (64 ≤ c.room)) ∧
    meets (withVine { epoch := 5 }) (cmd 0x0D04 (pack [(8, 105), (4, 1000000), (4, 2), (1, 1), (1, 7), (6, 0)]))
      (fun c a =>
        let x := Cond.vineSchedule c
        decide (u8 c.payload 16 ≤ 1) && decide (u8 c.payload 17 ≤ 7) && zeros c.payload 18 6 && x.count != 0 && x.period != 0 &&
          decide (x.period ≤ 1000000) && decide (a.vine.epoch + 100 ≤ x.epoch)) ∧
    meets up (cmd 0x0D04 (pack [(24, 0)]))
      (fun c _ => decide (u8 c.payload 16 ≤ 1) && decide (u8 c.payload 17 ≤ 7) && zeros c.payload 18 6 && u32 c.payload 12 == 0) := by
  decide

/-- A stamp in `up`, which has just been reset. -/
def soon : Stamp := { tick := 1000001 }

set_option maxRecDepth 40000 in
theorem witness_VineRows :
    holds (withVine { role := 2, ref := some (9, 1000000) }) (Cond.epochDue 9 1000000) ∧
    holds (withVine { role := 1, ref := some (9, 1000000), queue := [{ payload := 3 }] })
      (fun a => a.vine.queue == [{ payload := 3 }] && !a.vine.sending && a.vineMaySend) ∧
    holds (withVine { role := 2, ref := some (9, 1000000) })
      (fun a => a.vine.role == 2 && Cond.crcGood 46 5 (vineCrc 46 5) && a.vine.ref == some (9, 1000000)) ∧
    holds (withVine { role := 2 }) (fun a => a.vine.role == 2 && !Cond.crcGood 46 5 (vineCrc 46 5 + 1)) ∧
    holds (withVine { role := 2 }) (fun a => a.vine.role == 2 && Cond.crcGood 48 5 (vineCrc 48 5)) ∧
    holds (withVine { role := 2 }) (fun a => a.vine.role == 2 && !Cond.crcGood 48 5 (vineCrc 48 5 + 1)) ∧
    (9 < 2 ^ 64 ∧ vineCrc 64 9 = vineCrc 64 9 ∧ vineCrc 64 9 + 1 ≠ vineCrc 64 9) ∧
    holds (withVine { role := 2, ref := some (9, 1000000) }) (fun a => Cond.expected 9 soon a && 9 == 9) ∧
    holds (withVine { role := 2, ref := some (9, 1000000) })
      (fun a => Cond.expected 9 soon a && 12 != 9 && decide (a.vine.wrong < 2)) ∧
    holds (withVine { role := 2, ref := some (9, 1000000), wrong := 2 })
      (fun a => Cond.expected 9 soon a && 12 != 9 && decide (2 ≤ a.vine.wrong)) ∧
    holds (withVine { role := 2 }) (fun a => a.vine.role == 2 && (a.expectedEpoch (a.full soon)).isNone) ∧
    holds (withVine { role := 2, ref := some (9, 1000000) }) (fun a => Cond.expected 9 soon (Cond.badCrc a)) ∧
    holds (withVine { epoch := 4, cal := some { start := 3, echoes := 2, measure := true } })
      (fun a => a.vine.cal == some { start := 3, echoes := 2, measure := true } && true && decide (3 ≤ a.vine.epoch) &&
        decide (a.vine.epoch < 3 + 2)) ∧
    holds (withVine { cal := some { echoes := 2, sent := some 5 } })
      (fun a => a.vine.cal == some { echoes := 2, sent := some 5 } && some 5 == some 5 && 0 + 1 != 2) ∧
    holds (withVine { cal := some { echoes := 1, sent := some 5 } })
      (fun a => a.vine.cal == some { echoes := 1, sent := some 5 } && some 5 == some 5 && 0 + 1 == 1) ∧
    holds (withVine { cal := some { echoIn := true } }) (fun a => a.vine.cal == some { echoIn := true } && true) ∧
    holds (withVine { role := 2 }) (Cond.losable 2) ∧
    holds (withVine { role := 2, holdover := true, refIn := true }) (Cond.losable 1) ∧
    holds (withVine { role := 2, holdover := true }) (fun a => a.vine.role == 2 && a.vine.holdover) := by decide

/-! ## TIU -/

/-- `up` with TIU channel `n`. -/
def withTiu (n : Nat) (x : TiuChan) : State := up.setTiu n x

/-- A channel that stamps every edge code and measures intervals to its own second edge. -/
def tiuCfg : TiuCfg := { edges := 15, function := 1, other := 63, edgeB := 1, n := 1, rate := 1000, events := true }

/-- A `TIU.START` of channel 63 that has been admitted. -/
def tiuStarting : Cmd := { cmd 0x0E02 (pack [(8, 2 ^ 63), (16, 0)]) with started := true, named := [63] }

theorem witness_TiuVerbsComplete :
    meets up (cmd 0x0E01 (pack [(1, 63), (3, 0), (2, 16383), (2, 0), (1, 40), (1, 1), (2, 2000), (1, 6), (1, 15), (1, 3), (1, 3),
      (1, 63), (3, 0), (4, 0xFFFFFFFF), (8, 1099511627776), (4, 250000), (4, 0), (8, 1), (16, 0)])) Cond.tiuConfigure ∧
    meets (withTiu 63 { mode := .configured, cfg := tiuCfg }) (cmd 0x0E02 (pack [(8, 2 ^ 63), (16, 0)]))
      Cond.tiuStart ∧
    meets (withTiu 63 { mode := .running, cfg := tiuCfg }) (cmd 0x0E02 (pack [(8, 2 ^ 63), (16, 0)])) Cond.tiuStart ∧
    meets (withTiu 63 { mode := .running, cfg := tiuCfg }) (cmd 0x0E03 (pack [(8, 2 ^ 63)]))
      (fun c a => Cond.tiuStop c a && (Cond.tiuBusy c a).isEmpty) ∧
    meets (withTiu 63 { mode := .running, cfg := tiuCfg, core := { closing := [{}] } }) (cmd 0x0E03 (pack [(8, 2 ^ 63)]))
      (fun c a => Cond.tiuStop c a && !(Cond.tiuBusy c a).isEmpty) ∧
    (((withTiu 63 { mode := .running, core := { closing := [{}] } }).tiuChan 63).mode = .running ∧
      ((withTiu 63 { mode := .running, core := { closing := [{}] } }).tiuChan 63).core.closing ≠ []) ∧
    meets (withTiu 63 { blocks := 8 }) (cmd 0x0E04 (pack [(1, 63), (1, 3), (6, 0), (8, 7)]))
      (fun c a =>
        let p := c.payload
        decide (u8 p 0 ≤ 63) && decide (u8 p 1 ≤ 3) && zeros p 2 6 && !a.tiuHeld (u8 p 0) &&
          (!(u8 p 1).testBit 0 || decide (u64 p 8 < (a.tiuChan (u8 p 0)).blocks)) && decide (96 ≤ c.room)) ∧
    meets up (cmd 0x0E05 (pack [(1, 63), (3, 0)]))
      (fun c _ => decide (u8 c.payload 0 ≤ 63) && zeros c.payload 1 3 && decide (64 ≤ c.room)) := by decide

/-- Channel 63 serves a pin-deskew measurement. -/
def tiuMeasuring : State := { up with cal := { up.cal with runs := [{ device := 63, playing := true }] } }

theorem witness_TiuRows :
    holds (withTiu 63 { mode := .running, cfg := tiuCfg }) (Cond.tiuOnFront 63) ∧
    (Cond.tiuTakes 63 3 (withTiu 63 { mode := .running, cfg := tiuCfg, lastTime := some 5 }) ∧
      Cond.tiuDeadAt 63 40005 (withTiu 63 { mode := .running, cfg := tiuCfg, lastTime := some 5 }) = false ∧
      Cond.tiuDeadAt 63 40004 (withTiu 63 { mode := .running, cfg := tiuCfg, lastTime := some 5 }) = true) ∧
    holds tiuMeasuring (fun a => decide (63 ≤ 63) && a.tiuHeld 63) ∧
    holds (withTiu 63 { cfg := tiuCfg, core := { closing := [{}] } }) (Cond.tiuClosing 63 {} [] true false) ∧
    holds (withTiu 63 { cfg := tiuCfg, core := { closing := [{}] }, evOpen := some 0 }) (Cond.tiuClosing 63 {} [] true true) ∧
    holds (withTiu 63 { core := { closing := [{}] } }) (Cond.tiuClosing 63 {} [] false false) ∧
    holds (withTiu 63 { evOpen := some 974400, evLate := some {}, evBlocks := 1 })
      (fun a => Cond.tiuInterval 63 974400 a && (a.tiuChan 63).evLate == some {}) ∧
    holds (withTiu 63 { evOpen := some 974400 })
      (fun a => Cond.tiuInterval 63 974400 a && (a.tiuChan 63).evLate.isNone) ∧
    holds (withCmd (withTiu 63 { mode := .starting, cfg := tiuCfg }) tiuStarting)
      (fun a => (a.startedCmds 0x0E02 fun d => (u64 d.payload 0).testBit 63) == [tiuStarting] &&
        a.reached { mode := 0, at_ := 0 } && decide (Cond.tiuEdgeOf tiuStarting a ≤ a.now)) ∧
    holds up (fun a => decide (3 ≤ 3) && !a.tiuFrozen 3 && !a.vineHold 3) ∧
    holds up (Cond.tiuPairFails 3 15) ∧
    holds up (Cond.tiuPairFails 3 16) := by decide

/-! ## MON -/

/-- `up` with comparator `k`. -/
def withComp (k : Nat) (x : Comparator) : State := up.setComp k x

/-- `up` with this monitor. -/
def withMon (m : Mon) : State := up.setMon m

/-- A table of one entry: 2 results of 4 conversions each. -/
def table : KMap MonEntry := [(0, { channel := 43, select := 3, rep := 2, delay := 7, avg := 2 })]

/-- A `MON.START_SEQUENCE` that has been admitted. -/
def monStarting : Cmd := { cmd 0x0F03 (pack [(16, 0)]) with started := true }

theorem witness_MonVerbsComplete :
    meets (withComp 15 { mode := 3 }) (cmd 0x0F01 (pack [(1, 15), (1, 4), (2, 4095), (1, 63), (1, 3), (1, 255), (1, 7), (4, 10),
      (4, 1000000), (16, 0)]))
      (fun c a => Cond.monComparator c && u8 c.payload 1 != 0 && (a.comp (u8 c.payload 0)).mode != 0) ∧
    meets up (cmd 0x0F01 (pack [(1, 15), (1, 1), (30, 0)]))
      (fun c a => Cond.monComparator c && u8 c.payload 1 != 0 && (a.comp (u8 c.payload 0)).mode == 0 &&
        (Cond.monDeclared c a).isSome) ∧
    meets (withComp 15 { mode := 3 }) (cmd 0x0F01 (pack [(1, 15), (31, 0)]))
      (fun c a => Cond.monComparator c && u8 c.payload 1 == 0 && (a.compConsumer (u8 c.payload 0)).isNone) ∧
    meets up (cmd 0x0F02 (pack [(1, 127), (1, 1), (1, 128), (1, 0), (4, 0xFFFFFFFF), (2, 3), (6, 0),
      (1, 35), (1, 31), (2, 256), (2, 7), (1, 8), (1, 8)])) Cond.monLoad ∧
    meets (withMon { entries := table, length := 1, refOn := true }) (cmd 0x0F03 (pack [(16, 0)])) Cond.monStart ∧
    meets (withMon { running := true }) (cmd 0x0F03 (pack [(16, 0)]))
      (fun c a => decide (u8 c.payload 0 ≤ 2) && zeros c.payload 1 7 &&
        !a.tooSoon { mode := u8 c.payload 0, at_ := u64 c.payload 8 } && a.mon.running) ∧
    meets up (cmd 0x0F04 []) (fun _ a => !a.mon.running) ∧
    meets (withMon { running := true, phase := .recovering }) (cmd 0x0F04 [])
      (fun _ a => a.mon.running && (a.mon.phase == .converting || a.mon.phase == .recovering)) ∧
    meets (withMon { running := true, phase := .delaying }) (cmd 0x0F04 [])
      (fun _ a => a.mon.running && (a.mon.phase == .idle || a.mon.phase == .delaying)) ∧
    meets up (cmd 0x0F05 (pack [(4, 0)])) (fun c _ => u8 c.payload 0 == 0 && zeros c.payload 1 3 && decide (256 ≤ c.room)) ∧
    meets up (cmd 0x0F05 (pack [(1, 1), (3, 0)]))
      (fun c _ => u8 c.payload 0 == 1 && zeros c.payload 1 3 && decide (16 + 128 * 16 ≤ c.room)) ∧
    meets up (cmd 0x0F06 (pack [(4, 0)])) (fun c a => u8 c.payload 0 == 0 && zeros c.payload 1 3 && !a.mon.running) ∧
    meets up (cmd 0x0F06 (pack [(1, 1), (3, 0)]))
      (fun c a => u8 c.payload 0 == 1 && zeros c.payload 1 3 &&
        (a.declare [{ fam := 0x0F, obj := 17, group := 17, first := 50000, each := 50000 }]).isOk) := by decide

theorem witness_ComparatorRows :
    holds (withComp 15 { mode := 3 }) (fun a => decide ((a.comp 15).mode < 4)) ∧
    holds (withComp 15 { mode := 4 }) (fun a => (a.comp 15).mode == 4) ∧
    holds (withComp 15 { mode := 4, tickUs := 1, tickFrom := 974400 }) (Cond.m3Due 15) ∧
    holds (withComp 15 { mode := 4, tickUs := 1, tickFrom := 974401 }) (fun a => !Cond.m3Due 15 a) ∧
    Cond.compTurns 15 1 (withComp 15 { mode := 3, settled := true }) ∧
    Cond.compTurns 15 (-1) (withComp 15 { mode := 1, settled := true, out := true }) ∧
    Cond.compUnsettled 15 2 1 (withComp 15 { mode := 3 }) ∧ Cond.compUnsettled 15 0 (-1) (withComp 15 { mode := 3 }) ∧
    Cond.compUnsettled 15 1 0 (withComp 15 { mode := 3 }) ∧
    ((withComp 15 {}).comp 15).window = none ∧ ((withComp 15 { window := some 9 }).comp 15).window = some 9 ∧
    holds (withComp 15 { mode := 3, settled := true, out := true, window := some 1000000 })
      (fun a => Cond.windowOver 15 1000000 a && Cond.changeLeft 15 a) ∧
    holds (withComp 15 { mode := 3, window := some 1000000 })
      (fun a => Cond.windowOver 15 1000000 a && !Cond.changeLeft 15 a) ∧
    holds (withComp 15 { evOpen := some 974400, evCount := 1 })
      (fun a => Cond.compInterval 15 974400 a && ((a.comp 15).evCount != 0 || (a.comp 15).evFlags != 0)) ∧
    holds (withComp 15 { evOpen := some 974400 })
      (fun a => Cond.compInterval 15 974400 a && (a.comp 15).evCount == 0 && (a.comp 15).evFlags == 0) ∧
    holds (withMon { wake := true }) (fun a => a.mon.wake) ∧ holds up (fun _ => decide (15 ≤ 15)) := by decide

theorem witness_MonitorRows :
    holds (withMon { entries := table, length := 1, running := true, phase := .converting, convs := 3 }) Cond.convDue ∧
    holds (withMon { phase := .delaying })
      (fun a => a.mon.phase == .delaying && decide (a.mon.since + a.mon.delayTicks ≤ a.now)) ∧
    holds (withMon { phase := .recovering })
      (fun a => a.mon.phase == .recovering && decide (a.mon.since + recoveryTicks ≤ a.now)) ∧
    holds up (fun a => a.mon.phase == .idle) ∧
    holds (withMon { phase := .recovering }) (fun a => Cond.atBoundary a && a.mon.phase != .idle && a.mon.roomy) ∧
    holds { withMon { phase := .converting } with now := 2 ^ 40 }
      (fun a => Cond.atBoundary a && !a.mon.roomy && decide (a.mon.housekeeping + 10 * ticksPerMs ≤ a.now)) ∧
    holds (withMon { phase := .converting, convs := 1 }) (fun a => a.mon.phase == .converting && a.mon.convs != 0) ∧
    holds ({ withMon { refOn := true } with now := refSettleTicks }) (fun a => a.mon.refOn && decide (a.mon.refTick + refSettleTicks ≤ a.now)) ∧
    holds (withCmd up monStarting)
      (fun a => (a.startedCmds 0x0F03 fun _ => true) == [monStarting] && a.reached { mode := 0, at_ := 0 }) := by decide

/-! ## CELLAR -/

/-- `up` with a region of 4 KiB at 8,192. -/
def withCellarRegion (r : Region) : State := { up with regions := [(8192, r)] }

/-- `up` with stack `k`. -/
def withStack (k : Nat) (x : Stack) : State := up.setStack k x

/-- A request at port 5 for the first byte of Cellar, on stack 1. -/
def req1 : CellarReq := { port := 5, addr := 0, size := 1, write := false, data := [], at_ := 0 }

theorem witness_CellarCommands :
    meets (withCellarRegion { bytes := 4096 }) (cmd 0x1001 (pack [(8, 4096), (8, ones64), (1, 3), (1, 13), (6, 0), (8, 7)]))
      (fun c a => Cond.cellarAllocate c && Cond.cellarBase c a == some 0 && decide (a.regions.length < 65536) &&
        !(u8 c.payload 16).testBit 2) ∧
    meets (withCellarRegion { bytes := 4096 }) (cmd 0x1001 (pack [(8, 4096), (8, cellarBytes - 4096), (1, 4), (1, 0), (6, 0), (8, 7)]))
      (fun c a => Cond.cellarAllocate c && Cond.cellarBase c a == some 77309407232 && decide (a.regions.length < 65536) &&
        (u8 c.payload 16).testBit 2) ∧
    meets (withCellarRegion { bytes := 4096 }) (cmd 0x1002 (pack [(8, 8192), (8, 0)])) (fun c a => Cond.cellarFree { bytes := 4096 } c a && !a.regionBusy 8192 { bytes := 4096 }) ∧
    meets { withCellarRegion { bytes := 4096 } with
        rack := { up.rack with flows := [(3, { src := 1, dst := 2, cur := some { desc := { dest := 8200 }, flight := [{ size := 64 }] } })] } } (cmd 0x1002 (pack [(8, 8192), (8, 0)]))
      (fun c a => Cond.cellarFree { bytes := 4096 } c a && a.regionBusy 8192 { bytes := 4096 }) ∧
    meets up (cmd 0x1003 (pack [(4, 0)])) (fun c _ => u8 c.payload 0 == 0 && zeros c.payload 1 3 && decide (256 ≤ c.room)) ∧
    meets (withCellarRegion { bytes := 4096 }) (cmd 0x1003 (pack [(1, 1), (7, 0)]))
      (fun c a => u8 c.payload 0 == 1 && zeros c.payload 1 3 &&
        decide (((Cond.regionsAsked c a).flatMap regionEntry).length ≤ c.room)) ∧
    meets up (cmd 0x1004 (pack [(1, 255), (3, 0), (4, 4096)])) (fun c a => Cond.cellarSetOp c a && Cond.cellarRate c a == a.cellarOp) ∧
    meets up (cmd 0x1004 (pack [(1, 1), (3, 0), (4, 256)])) (fun c a => Cond.cellarSetOp c a && Cond.cellarRate c a != a.cellarOp) ∧
    holds up (fun a => a.readyBit 6 && 1 != 0 && decide (15 ≤ 15)) ∧
    holds up (fun a => a.readyBit 6 && (1 == 0 || decide (15 < 16))) ∧
    holds (up.setCell { up.cell with merging := [(3, (1, 1000000 - 2 * ticksPerUs))] })
      (fun a => a.cell.merging.find 3 == some (1, 1000000 - 2 * ticksPerUs) &&
        decide (1000000 - 2 * ticksPerUs + 2 * ticksPerUs ≤ a.now)) ∧
    holds (withCellarRegion { bytes := 4096, zeroing := true })
      (fun a => a.regions.find 8192 == some { bytes := 4096, zeroing := true } && true) := by decide

theorem test_outstanding_limit :
    outstanding [req1, { req1 with addr := 256 }] [(1, 2047)] = [req1, { req1 with addr := 256 }] ∧
    outstanding [req1, { req1 with addr := 256 }] [(1, 2048)] = [{ req1 with addr := 256 }] := by decide

theorem witness_CellarStacks :
    holds (withStack 3 { banks := [(7, [(9, 2048)])] })
      (fun a => ((a.stack 3).banks.get 7 []).find? (fun e => decide (a.cell.threshold ≤ e.2)) == some (9, 2048)) ∧
    holds up (fun a => Cond.pcServes 3 31 a && a.sparesLeft 8 3 != 0) ∧
    holds ({ up with ft := { up.ft with spares := [(poolKey 8 3, 0)] } }) (fun a => Cond.pcServes 3 31 a && a.sparesLeft 8 3 == 0) ∧
    holds (withStack 3 { replaced := some 9 }) (Cond.spareServes 3 true) ∧ holds up (Cond.spareServes 3 false) ∧
    holds up (fun a => decide (3 ≤ 3) && !a.stackRetired 3) ∧
    holds (withStack 3 { rebuilding := true }) (fun a => (a.stack 3).rebuilding) ∧
    holds up (Cond.canPause 63) ∧
    holds (up.setCell { up.cell with pause := some (63, 989760) })
      (fun a => a.cell.pause == some (63, 989760) && Cond.pauseTrained true 989760 a) ∧
    holds (up.setCell { up.cell with pause := some (63, 989759) })
      (fun a => a.cell.pause == some (63, 989759) && !Cond.pauseTrained true 989759 a && decide (Cond.pauseFails 63 a < 2)) ∧
    holds ((withStack 3 { fails := [(15, 2)] }).setCell
        { (withStack 3 { fails := [(15, 2)] }).cell with pause := some (63, 999900) })
      (fun a => a.cell.pause == some (63, 999900) && !Cond.pauseTrained false 999900 a && Cond.pauseFails 63 a == 2) ∧
    holds (withStack 3 { phase := .selfRefresh }) (fun a => (a.stack 3).phase == .selfRefresh) ∧
    holds (withStack 3 { phase := .draining }) (fun a => (a.stack 3).phase == .draining) := by decide

/-! ## FLOW -/

/-- `up` with flow `f`. -/
def withFlow (f : Nat) (x : Flow) : State := up.setFlow f x

/-- The descriptor of 128 bytes that the flows of the tests move. -/
def descr : Descr := { addr := 4096, control := 1, element := 0, length := 128, source := 64, dest := 8192, tag := 7, index := [], bad := false }

/-- A descriptor in progress with one burst in flight. -/
def oneBurst : Moving := { desc := descr, issued := 64, flight := [{ offset := 0, size := 64, since := 5, bytes := [] }] }

theorem witness_FlowVerbsAndBursts :
    meets up (cmd 0x1101 (pack [(4, 49151), (1, 1), (1, 2), (1, 1), (1, 2), (1, 7), (1, 1), (2, 4096), (4, 0), (8, 1000), (8, 7)]))
      (Cond.flowCreate 49151) ∧
    meets (withFlow 49151 { src := 1, dst := 2, burst := 64, rate := 1000 }) (cmd 0x1102 (pack [(4, 49151), (4, 0), (8, 0)]))
      Cond.flowEnable ∧
    meets (withFlow 49151 { src := 1, dst := 2, mode := .enabled }) (cmd 0x1102 (pack [(4, 49151), (4, 0), (8, 0)]))
      (fun c a => Cond.flowThere c a && zeros c.payload 4 4 && (a.flow (u32 c.payload 0)).mode == .enabled &&
        ((a.flow (u32 c.payload 0)).dst != 0 || (a.flow (u32 c.payload 0)).bind.isSome)) ∧
    meets (withFlow 49151 { src := 1, dst := 2, mode := .enabled }) (cmd 0x1103 (pack [(4, 49151)]))
      (fun c a => Cond.flowThere c a && (a.flow (u32 c.payload 0)).mode != .disabled) ∧
    meets (withFlow 49151 { src := 1, dst := 2, mode := .quiescing }) (cmd 0x1103 (pack [(4, 49151)]))
      (fun c a => Cond.flowNamed c a && (a.flow (u32 c.payload 0)).mode == .quiescing) ∧
    meets (withFlow 49151 { src := 1, dst := 2, mode := .disabled }) (cmd 0x1103 (pack [(4, 49151)]))
      (fun c a => Cond.flowNamed c a && (a.flow (u32 c.payload 0)).mode == .disabled) ∧
    meets (withFlow 49151 { src := 1, dst := 2 }) (cmd 0x1104 (pack [(4, 49151)]))
      (fun c a => Cond.flowThere c a && (a.producersOf (u32 c.payload 0)).isEmpty) ∧
    meets (withFlow 49151 { src := 1, dst := 2, chains := List.replicate 15 (64, 1) }) (cmd 0x1105 (pack [(4, 49151), (4, 65535), (8, 64)]))
      (fun c a =>
        let p := c.payload
        Cond.flowThere c a && u32 p 4 != 0 && decide (u32 p 4 ≤ 65535) && u64 p 8 % 64 == 0 && !(a.flow (u32 p 0)).direct &&
          decide ((a.flow (u32 p 0)).chains.length < 16)) ∧
    meets (withFlow 49151 {}) (cmd 0x1106 (pack [(4, 49151)]))
      (fun c a => Cond.flowNamed c a && decide (64 ≤ c.room)) ∧
    holds (withFlow 3 { src := 1, dst := 2, mode := .enabled, chains := [(4096, 2)] }) (Cond.fetches 3 4096 2 []) ∧
    holds (withFlow 3 { src := 2, dst := 1, space := 1, mode := .quiescing, chain := some (4096, 2) }) (Cond.fetches 3 4096 2 []) ∧
    holds ({ withFlow 3 { mode := .enabled } with offered := [(3, [{ bytes := [1#8] }])] }) (Cond.takesUnit 3 { bytes := [1#8] } []) ∧
    holds (withFlow 3 { mode := .enabled, burst := 64, buffer := [{ bytes := [1#8] }] })
      (fun a => decide (a.inFlight < 4096) && a.chooseFlow == some (3, true) && (a.flow 3).ready == some 1) ∧
    holds ({ withFlow 3 { src := 1, dst := 2, mode := .enabled, cur := some oneBurst } with regions := [(8192, { bytes := 4096 })] })
      (fun a => Cond.inFlight 3 0 oneBurst { offset := 0, size := 64, since := 5, bytes := [] } a &&
        Cond.burstGood (a.flow 3) oneBurst { offset := 0, size := 64, since := 5, bytes := [] } a) ∧
    holds (withFlow 3 { src := 1, dst := 2, mode := .enabled, cur := some oneBurst })
      (fun a => Cond.inFlight 3 0 oneBurst { offset := 0, size := 64, since := 5, bytes := [] } a &&
        !Cond.burstGood (a.flow 3) oneBurst { offset := 0, size := 64, since := 5, bytes := [] } a) ∧
    holds (withFlow 3 { src := 1, dst := 2, mode := .enabled, cur := some oneBurst }) (Cond.moving 3 0 oneBurst) ∧
    holds (withFlow 3 { src := 1, cur := some oneBurst }) (fun a => (a.flow 3).cur == some oneBurst && (a.flow 3).src == 1) := by
  decide

/-! ## STREAM -/

/-- `up` with port `p`. -/
def withPort (p : Nat) (x : Port) : State := up.setPort p x

/-- A port in its stream role with the address 10.0.0.9. -/
def streamPort : Port := { mode := .up, role := 1, ttl := 64, ip4 := [10#8, 0#8, 0#8, 9#8] }

/-- A binding with one byte queued. -/
def oneByte : Binding := { port := 4, payloadMax := 252, flushUs := 1, flush := true, queue := [{ bytes := [1#8] }] }

theorem witness_StreamPorts :
    meets up (cmd 0x1201 (pack [(1, 4), (1, 1), (1, 2), (1, 1), (6, 5), (2, 4094), (52, 0)]))
      (fun c a => Cond.streamConfigure c a && u8 c.payload 1 != 0 && Cond.streamFields c.payload &&
        (a.declare [Cond.portDecl (u8 c.payload 0)]).isOk) ∧
    meets (withPort 4 streamPort) (cmd 0x1201 (pack [(1, 4), (63, 0)]))
      (fun c a => Cond.streamConfigure c a && u8 c.payload 1 == 0) ∧
    meets ((withPort 4 streamPort).setFlow 49151 {}) (cmd 0x1202 (pack [(4, 49151), (1, 4), (1, 2), (1, 63), (1, 7), (2, 1), (2, 9096),
      (10, 0), (2, 1000), (24, 0)]))
      (fun c a => Cond.streamFlow c a && Cond.streamBind c a && (a.port (u8 c.payload 4)).role == 1 &&
        Cond.portUp (u8 c.payload 4) a) ∧
    meets (withFlow 49151 { mode := .disabled }) (cmd 0x1202 (pack [(4, 49151), (1, 4), (1, 8), (42, 0)]))
      (fun c a => Cond.streamFlow c a && (u8 c.payload 5).testBit 3) ∧
    meets up (cmd 0x1203 (pack [(1, 4), (3, 0)]))
      (fun c _ => decide (u8 c.payload 0 ≤ 4) && zeros c.payload 1 3 && decide (64 ≤ c.room)) ∧
    holds (withPort 4 { mode := .training }) (fun a => (a.port 4).mode == .training) ∧
    holds ((withPort 4 streamPort).setFlow 3 { bind := some oneByte })
      (fun a => (a.flow 3).bind == some oneByte && oneByte.port == 4 && Cond.portUp 4 a &&
        oneByte.next 3 == some ({ flow := 3, flags := 32, count := 1, payload := [1#8] }, { oneByte with seq := 1, queue := [], flush := false }) &&
        a.maySend 4 3) ∧
    holds (withFlow 3 { bind := some { oneByte with openAt := 974400 } })
      (fun a => (a.flow 3).bind == some { oneByte with openAt := 974400 } && !oneByte.queue.isEmpty && decide (974400 + 1 * ticksPerUs ≤ a.now)) ∧
    holds (withPort 4 streamPort) (fun a => Cond.portUp 4 a && (a.port 4).role != 0 && (a.port 4).beatDue a.now) ∧
    holds (withPort 4 streamPort) (fun a => Cond.portUp 4 a && (a.faceOf 4).ip4 == [10#8, 0#8, 0#8, 9#8]) ∧
    holds (withPort 4 streamPort) (fun a => Cond.portUp 4 a && (a.faceOf 4).ip4 != [10#8, 0#8, 0#8, 8#8]) ∧
    holds (withPort 4 { streamPort with ip6 := [1#8] }) (fun a => Cond.portUp 4 a && (a.faceOf 4).ip6 == [1#8]) ∧
    holds (withPort 4 streamPort) (fun a => Cond.portUp 4 a && (a.faceOf 4).ip6 != [1#8]) ∧
    holds ((withPort 4 streamPort).setPort 0 { mode := .up, role := 2 })
      (fun a => Cond.portFails 4 a && (a.port 4).role == 1 && Cond.sparePort 4 a == some 0) ∧
    holds (withPort 4 streamPort) (fun a => Cond.portFails 4 a && ((a.port 4).role != 1 || (Cond.sparePort 4 a).isNone)) := by
  decide

/-! ## DISP -/

/-- `up` with this display. -/
def withDisp (d : Disp) : State := up.setDisp d

/-- 1920 by 1080 at 60 Hz. -/
def hd : DispTiming :=
  { hActive := 1920, hFront := 88, hSync := 44, hBack := 148, vActive := 1080, vFront := 4, vSync := 5, vBack := 36
    clock := 148500, matchLine := 1124 }

/-- A `DISP.ENABLE` that has been admitted. -/
def enabling : Cmd := { cmd 0x1305 (pack [(8, 0)]) with started := true }

theorem witness_DisplayVerbs :
    meets up (cmd 0x1301 (pack [(2, 1920), (2, 88), (2, 44), (2, 148), (2, 1080), (2, 4), (2, 5), (2, 36), (4, 148500), (1, 3),
      (1, 0), (2, 1124), (3, 77), (5, 0)])) Cond.dispSetTiming ∧
    meets (withDisp { timing := some hd }) (cmd 0x1302 (pack [(1, 0), (1, 1), (2, 1124), (2, 2199), (10, 0)]))
      (fun c a => Cond.dispSetGenlock c a && u8 c.payload 0 == 0) ∧
    meets (withDisp { timing := some hd }) (cmd 0x1302 (pack [(1, 1), (1, 1), (2, 1124), (2, 2199), (10, 0)]))
      (fun c a => Cond.dispSetGenlock c a && u8 c.payload 0 == 1) ∧
    meets (withDisp { timing := some hd }) (cmd 0x1303 (pack [(1, 2), (1, 1), (2, 1920), (2, 1080), (42, 0)]))
      (fun c a => Cond.dispLayerOk c a && a.disp.mode == .disabled) ∧
    meets (withDisp { timing := some hd, mode := .running }) (cmd 0x1303 (pack [(1, 3), (63, 0)]))
      (fun c a => Cond.dispLayerOk c a && a.disp.mode != .disabled && (Cond.layerGranted c a).isSome) ∧
    meets (withTrace 63 { configured := true }) (cmd 0x1303 (pack [(1, 1), (1, 0), (2, 9), (2, 9), (10, 0), (8, 2 ^ 63), (2, 0), (2, 2560), (20, 0)]))
      (fun c a => Cond.dispLayerOk c a && a.disp.mode == .disabled) ∧
    meets (withPlane 3 { configured := true }) (cmd 0x1303 (pack [(1, 0), (1, 2), (2, 9), (2, 9), (1, 3), (1, 31), (2, 0), (2, 4096), (2, 0), (2, 1024), (32, 0)]))
      (fun c a => Cond.dispLayerOk c a && a.disp.mode == .disabled) ∧
    meets up (cmd 0x1304 (pack [(1, 1), (1, 0), (2, 7), (2, 1), (2, 0), (4, 9)]))
      (fun c a => Cond.dispSetPalette c && a.disp.mode == .disabled) ∧
    meets (withDisp { mode := .running }) (cmd 0x1304 (pack [(1, 0), (1, 0), (2, 1023), (2, 1), (2, 0), (4, 9)]))
      (fun c a => Cond.dispSetPalette c && a.disp.mode != .disabled) ∧
    meets (withDisp { timing := some hd, hpd := true }) (cmd 0x1305 (pack [(8, 0)])) Cond.dispEnable ∧
    meets (withDisp { mode := .running }) (cmd 0x1305 (pack [(8, 0)]))
      (fun c a => u8 c.payload 0 == 0 && zeros c.payload 1 7 && (a.disp.mode == .running || a.disp.mode == .training)) ∧
    meets up { cmd 0x1305 (pack [(1, 1), (7, 0)]) with resultLimit := 319 }
      (fun c _ => u8 c.payload 0 == 1 && zeros c.payload 1 7 && decide (64 ≤ c.room)) ∧
    meets up (cmd 0x1306 []) (fun _ a => a.disp.mode == .disabled) ∧
    meets (withDisp { mode := .training }) (cmd 0x1306 []) (fun _ a => a.disp.mode == .training) ∧
    meets (withDisp { mode := .running }) (cmd 0x1306 []) (fun _ a => Cond.scans a) := by
  decide

theorem witness_DisplayRows :
    holds (withDisp { mode := .running, timing := some hd })
      (fun a => Cond.scans a && a.disp.timing == some hd && decide (hd.matchLine < hd.vTotal) &&
        a.disp.matched != some (a.disp.frameAt hd.matchLine)) ∧
    holds (withDisp { mode := .running, frame := 1 }) (fun a => a.disp.mode == .running && a.disp.latched != a.disp.frame) ∧
    holds (withDisp { mode := .running }) (fun a => a.disp.mode == .running) ∧
    holds (withDisp { mode := .quiescing }) (fun a => a.disp.mode == .quiescing) ∧
    holds up (fun a => !Cond.scans a) ∧
    holds (withDisp { mode := .running, timing := some hd }) (Cond.lineLate 1079) ∧
    holds (withDisp { mode := .running, timing := some hd, layers := [(2, { width := 64, height := 2 })],
                      places := [(2, { stride := 256, visible := true })] })
      (fun a => Cond.scans a && a.disp.overlayOn && !a.disp.faulted && !a.overlayLineOk 1) ∧
    holds (withDisp { mode := .quiescing, genlock := 1 }) (fun a => a.disp.genlock != 0 && Cond.scans a) ∧
    holds (withDisp { mode := .running, genlock := 3 }) (fun a => a.disp.genlock == 3 && Cond.scans a) ∧
    holds (withDisp { genlock := 1 }) (fun a => a.disp.genlock == 1 || a.disp.genlock == 2) ∧
    holds (withCmd (withDisp { mode := .training, hpd := true, timing := some hd }) enabling)
      (fun a => Cond.trained 2 2 a && decide ((a.disp.timing.getD {}).clock * 24 ≤ linkKbps 2 2)) ∧
    holds (withCmd (withDisp { mode := .training, hpd := true, timing := some hd }) enabling)
      (fun a => Cond.trained 1 2 a && decide (linkKbps 1 2 < (a.disp.timing.getD {}).clock * 24) &&
        !(a.startedCmds 0x1305 fun _ => true).isEmpty) ∧
    holds up (fun a => decide (1 ≤ 1) && !a.isRetired ⟨18, 0, 1⟩) := by decide

/-! ## BUDGET -/

/-- `up` with this power manager. -/
def withBud (b : Budget) : State := up.setBud b

/-- A GRANT to the display of these rates, slot by slot. -/
def grant (flags energy : Nat) : Cmd :=
  cmd 0x1402 (pack [(1, 5), (1, flags), (14, 0), (8, 1000), (8, keepRate), (8, keepRate), (8, 0), (8, keepRate), (8, keepRate),
    (8, keepRate), (8, 0), (8, energy)])

theorem witness_BudgetAndLedger :
    meets up (cmd 0x1401 (pack [(2, 560), (1, 100), (1, 64), (1, 1), (3, 0)])) Cond.budgetCap ∧
    meets up (grant 0 keepRate) Cond.budgetGrant ∧ meets up (grant 0 1000) Cond.budgetGrant ∧
    meets up (grant 4 keepRate)
      (fun c a => Cond.budgetActivity c a && (u8 c.payload 1).testBit 2 && decide (72 ≤ c.room)) ∧
    meets up (cmd 0x1403 (pack [(1, 5), (7, 0)])) (fun c a => Cond.budgetRevoke c a && (Cond.stoppedOwner c a).isSome) ∧
    meets up (cmd 0x1403 (pack [(1, 7), (7, 0)])) (fun c a => Cond.budgetRevoke c a && (Cond.stoppedOwner c a).isSome) ∧
    meets (withFlow 3 { mode := .enabled, bind := some {}, burst := 64 }) (cmd 0x1403 (pack [(1, 2), (3, 0), (4, 3)]))
      (fun c a => Cond.budgetRevoke c a && (Cond.stoppingOwner c a).isSome) ∧
    meets (withDisp { mode := .running }) (cmd 0x1403 (pack [(1, 5), (7, 0)]))
      (fun c a => u8 c.payload 0 == 5 && u32 c.payload 4 == 0 && zeros c.payload 1 3 && a.disp.mode == .running) ∧
    meets up (cmd 0x1404 (pack [(1, 1), (3, 0)]))
      (fun c _ => decide (u8 c.payload 0 ≤ 1) && zeros c.payload 1 3 && decide (1088 ≤ c.room)) ∧
    meets up (cmd 0x1405 []) (fun c _ => decide (320 ≤ c.room)) ∧
    holds { up with now := 30000000 } (fun a => decide (a.bud.nextBoundary ≤ a.now)) ∧
    holds { up with now := 30000000 } (fun a => decide (a.bud.boundary < a.now - a.now % ticksPerMs)) ∧
    holds { withFlow 3 { mode := .enabled, burst := 64, buffer := [{ bytes := [1#8] }] } with now := 30000000 }
      (fun a => (a.flow 3).ready.isSome && !(a.flow 3).urgent && a.bud.credits.get (burstCredit 3) 0 == 0 &&
        decide ((a.flow 3).readySince + (a.bud.aged.get 3 0 + 1) * a.bud.ageTicks ≤ a.now)) ∧
    holds ((withFlow 3 { mode := .enabled, burst := 64, buffer := [{ bytes := [1#8] }] }).setBud
        { allocs := [(actKey kindFlow 3, { rates := [(2, 7)] })], credits := [(burstCredit 3, 1)],
          urgent := [{ act := actKey kindFlow 3, res := 2, opened := 5 }] })
      (fun a => Cond.late kindFlow 3 2 a && a.bud.urgent.any fun i => i.act == actKey kindFlow 3) ∧
    holds (withBud { allocs := [(actKey 5 0, { rates := [(0, 7)] })] })
      (fun a => Cond.late 5 0 0 a && !a.bud.urgent.any fun i => i.act == actKey 5 0) ∧
    holds (withBud { allocs := [(actKey 5 0, { rates := [(0, 7)] })], urgent := [{ act := actKey 5 0, res := 0, opened := 5 }] })
      (fun a => Cond.late 5 0 0 a && a.bud.urgent.any fun i => i.act == actKey 5 0) ∧
    holds (withBud { urgent := [{ act := actKey 5 0, res := 0, opened := 5, count := 1 }] })
      (fun a => a.bud.urgent.find? (fun j => j.act == actKey 5 0) == some { act := actKey 5 0, res := 0, opened := 5, count := 1 } &&
        decide (5 + ticksPerUs ≤ a.now) && 1 != 0) ∧
    holds (withBud { urgent := [{ act := actKey 5 0, res := 0, opened := 5, count := 0 }] })
      (fun a => a.bud.urgent.find? (fun j => j.act == actKey 5 0) == some { act := actKey 5 0, res := 0, opened := 5, count := 0 } &&
        decide (5 + ticksPerUs ≤ a.now) && 0 == 0) ∧
    holds (withBud { above := true, stage := 2 }) (fun a => a.bud.above && decide (a.bud.stage < 3)) ∧
    holds (withBud { belowMs := 10, stage := 1 }) (fun a => decide (10 ≤ a.bud.belowMs) && decide (0 < a.bud.stage)) := by decide

/-! ## FAULT, CAL -/

/-- `up` with this fault state. -/
def withFt (f : FaultState) : State := { up with ft := f }

/-- A device whose pins can be measured: it is up, and the vector clock runs. -/
def deskewUp : State :=
  (up.setPe 2 { mode := .up, channels := 64 }).setGen 0 { up.gen 0 with enabled := true, freq := 1600000000000 }

theorem witness_FaultsAndCalibration :
    meets up (cmd 0x1501 (pack [(8, 1), (2, 1024), (1, 1), (5, 0)])) (fun c _ => Cond.faultReadLog c) ∧
    meets up (cmd 0x1502 []) (fun c _ => decide (208 ≤ c.room)) ∧
    meets up (cmd 0x1503 (pack [(1, 5), (1, 0), (2, 0), (2, 0xFFFF), (2, 0)]))
      (fun c a => Cond.faultInject c a && ((a.injectUnit c.payload).cls != 6 || (Cond.injected c a).ft.takeover.isEmpty)) ∧
    meets up (cmd 0x1503 (pack [(1, 1), (1, 0), (2, 3), (2, 2), (2, 0)]))
      (fun c a => Cond.faultInject c a && ((a.injectUnit c.payload).cls != 6 || (Cond.injected c a).ft.takeover.isEmpty)) ∧
    meets up (cmd 0x1503 (pack [(1, 6), (1, 0), (2, 0), (2, 0xFFFF), (2, 0)]))
      (fun c a => Cond.faultInject c a && (a.injectUnit c.payload).cls == 6 && !(Cond.injected c a).ft.takeover.isEmpty) ∧
    meets up (cmd 0x1504 (pack [(1, 3), (3, 0)]))
      (fun c a => decide (u8 c.payload 0 ≤ 3) && zeros c.payload 1 3 && (!(u8 c.payload 0).testBit 0 || a.ft.injected.isEmpty)) ∧
    meets (withFt { injected := [⟨5, 0, 1⟩] }) (cmd 0x1504 (pack [(1, 3), (3, 0)]))
      (fun c a => decide (u8 c.payload 0 ≤ 3) && zeros c.payload 1 3 && (u8 c.payload 0).testBit 0 && !a.ft.injected.isEmpty) ∧
    meets up (cmd 0x1601 (pack [(1, 2), (1, 0), (2, 11), (2, 1), (2, 0)]))
      (fun c a => Cond.calRun c a && (a.calWaits (u8 c.payload 0) (span (u16 c.payload 2) (u16 c.payload 4))).isEmpty &&
        (u8 c.payload 0 != 8 || (Cond.inside (Cond.calUnits c a) []).isEmpty)) ∧
    meets deskewUp (cmd 0x1601 (pack [(1, 8), (1, 0), (2, 130), (2, 2), (2, 0)]))
      (fun c a => Cond.calRun c a && u8 c.payload 0 == 8 && !(Cond.inside (Cond.calUnits c a) [130]).isEmpty &&
        (Cond.inside (Cond.calUnits c a) [130]).all fun u => a.deskewable u) ∧
    meets up (cmd 0x1601 (pack [(1, 4), (1, 0), (2, 67), (2, 1), (2, 0)]))
      (fun c a => Cond.calRun c a && a.calWaits (u8 c.payload 0) (span (u16 c.payload 2) (u16 c.payload 4)) == [96]) ∧
    meets up (cmd 0x1602 (pack [(1, 10), (1, 0), (2, 0), (2, 3), (2, 0)]))
      (fun c _ => calRangeOk c.payload 10 && decide (48 ≤ c.room)) ∧
    meets up (cmd 0x1603 (pack [(1, 8), (1, 2), (1, 0), (1, 0), (4, 604800)])) Cond.calSchedule ∧
    holds ({ up with cal := { up.cal with sched := [(6, { mode := 3, deltaC := 20 })] } })
      (fun a => Cond.calPass 6 [15] a && (6 != 8 || (Cond.inside (Cond.calDue 6 [15] a) [15]).isEmpty)) ∧
    holds ({ deskewUp with cal := { deskewUp.cal with sched := [(8, { mode := 3, deltaC := 20 })] } })
      (fun a => Cond.calPass 8 [130, 131] a && !(Cond.inside (Cond.calDue 8 [130, 131] a) [130]).isEmpty) ∧
    holds (withFt { haltedPairs := [0, 1, 2, 4] }) (fun a => Cond.pairWorks 3 a && (a.heirOf 3).isNone) ∧
    holds up (fun a => Cond.pairWorks 4 a && (a.heirOf 4).isSome && (a.servedPairs 4).isEmpty) ∧
    holds up (fun a => Cond.pairWorks 3 a && a.heirOf 3 == some 4 && !(a.servedPairs 3).isEmpty) ∧
    holds (withFt { takeover := [3] }) (fun a => !a.ft.takeover.isEmpty) ∧
    holds (withFt { spares := [(poolKey 15 9, 0)] })
      (fun a => Cond.pllServes 9 1 a && a.sparesLeft 15 9 == 0) ∧
    holds up (fun a => Cond.pllServes 0 0 a && !(true && a.sparesLeft 15 0 == 0)) ∧
    holds up (fun a => decide (12 ≤ 12) && decide (6 ≤ 6) && !a.isRetired ⟨16, 12, 6⟩) ∧
    holds up (Cond.unitServes ⟨20, 1, 135⟩) ∧ holds up (Cond.unitServes ⟨21, 9, 1⟩) ∧
    holds (withFt { selfTest := [⟨5, 0, 1⟩, ⟨4, 0, 7⟩] })
      (fun a => a.ft.selfTest.contains ⟨5, 0, 1⟩ && !(Cond.tested ⟨5, 0, 1⟩ a).ft.selfTest.isEmpty) ∧
    holds (withFt { selfTest := [⟨5, 0, 1⟩] })
      (fun a => a.ft.selfTest.contains ⟨5, 0, 1⟩ && (Cond.tested ⟨5, 0, 1⟩ a).ft.selfTest.isEmpty) := by decide

/-! ## ID, SEC -/

/-- `up` with this security state. -/
def withSec (x : Security) : State := up.setSec x

/-- A COMMIT that has started. -/
def committing : Cmd := { cmd 0x1803 (pack [(1, 3), (23, 0)]) with started := true }

set_option maxRecDepth 20000 in
theorem witness_IdentityAndSecurity :
    meets up { cmd 0x1701 (pack [(1, 15), (3, 0)]) with resultLimit := 31 }
      (fun c _ => decide (u8 c.payload 0 ≤ 15) && zeros c.payload 1 3 && decide (c.room < 32)) ∧
    meets up { cmd 0x1701 (pack [(1, 15), (3, 0)]) with resultLimit := 32 }
      (fun c _ => decide (u8 c.payload 0 ≤ 15) && zeros c.payload 1 3 && decide (32 ≤ c.room)) ∧
    meets up { cmd 0x1702 (pack [(1, 3), (1, 7), (2, 0)]) with resultLimit := 32 }
      (fun c a => Cond.idRead (Cond.idRecord none false c a) c) ∧
    meets up (cmd 0x1702 (pack [(1, 0), (1, 0), (1, 1), (1, 0)]))
      (fun c a => Cond.idRead (Cond.idRecord (some [1#8]) false c a) c) ∧
    meets up (cmd 0x1802 (leBytes 64 7)) (fun c a => decide ((Cond.report c a).length ≤ c.room)) ∧
    meets up (cmd 0x1803 (pack [(24, 0)])) 
      (fun c a => Cond.loadable c a && (imageOf (Cond.firmware [] c a) (u32 c.payload 4) (a.counter 0)).isNone) ∧
    meets { up with regions := [(64, { bytes := 256 })] } (cmd 0x1803 (pack [(1, 0), (1, 1), (2, 0), (4, 256), (8, 64), (8, 0)]))
      (fun c a => Cond.loadable c a && (imageOf (Cond.firmware [] c a) (u32 c.payload 4) (a.counter 0)).isNone) ∧
    meets (withSec { staged := true }) (cmd 0x1803 (pack [(1, 1), (23, 0)])) (fun c a => Cond.secUpdate 1 c && a.sec.staged) ∧
    meets (withSec { staged := true }) (cmd 0x1803 (pack [(1, 2), (23, 0)]))
      (fun c a => Cond.secUpdate 2 c && a.sec.staged && !a.othersHold && a.host.cmds.all fun d => d.seq == c.seq) ∧
    meets up (cmd 0x1803 (pack [(1, 3), (23, 0)])) (fun c a => Cond.secUpdate 3 c && !a.sec.recovery) ∧
    ((withCmd up committing).powered && ((withCmd up committing).advance 0).cmdOf 0 5 == some committing &&
      ((withCmd up committing).advance 0).stewardRuns) ∧
    meets (withSec { counters := [(1, 63)] }) (cmd 0x1804 (pack [(1, 0), (1, 3), (2, 0), (4, 63), (133, 5), (135, 0)])) Cond.secOwner ∧
    meets up (cmd 0x1805 []) (fun c _ => decide (64 ≤ c.room)) ∧
    holds (withSec { restarting := true }) (fun a => a.sec.restarting && !a.sec.recovery) ∧
    holds (withSec { restarting := true, recovery := true }) (fun a => a.sec.restarting && a.sec.recovery) := by decide

/-- A `SEC.GET_CERTIFICATE` with room for exactly the certificate it asks for. -/
def certCmd : Cmd := { cmd 0x1801 (pack [(1, 2), (3, 0)]) with resultLimit := (Config.certificate 2).length }

theorem witness_IdentityAndSecurity_certificate :
    meets up certCmd (fun c _ => decide (u8 c.payload 0 ≤ 2) && zeros c.payload 1 3 &&
      decide ((Config.certificate (u8 c.payload 0)).length ≤ c.room)) = true := by
  have hc : ((withCmd up certCmd).advance 0).cmdOf certCmd.fn certCmd.tag = some certCmd := rfl
  simp only [meets, State.mayRun, hc, beq_self_eq_true]
  exact decide_eq_true (Nat.le_refl (Config.certificate 2).length)

/-! ## Supply, resets, link -/

/-- A module with feed A whose rails rise. -/
def rising : State := { pw := { feedA := true, rising := true } }

/-- A module at power good, with images of SVN 9 and 3 in its slots and 3 in counter 0. -/
def atBoot : State :=
  { pw := { state := .starting, feedA := true, feedB := true }
    sec := { slots := [(0, { svn := 9 }), (1, { svn := 3 })], counters := [(0, 3)] } }

/-- The hypothesis of `Occurs`: `ok` holds of the state, whatever its power. -/
def occurs (s : State) (ok : State → Bool) : Bool := ok (s.advance 0)

/-- A module with both feeds whose rails rise. -/
def rising2 : State := { pw := { feedA := true, feedB := true, rising := true } }

/-- A `SYS.RESET_FUNCTION` of the DDCs that waits for their self-test. -/
def resetDdc : Cmd := { cmd 0x0105 (pack [(1, 4), (3, 0), (4, 0xFFFFFFFF)]) with started := true }

theorem witness_SupplyBootAndReadiness :
    occurs State.reset (fun a => a.isOff && !a.pw.shutdownLow) ∧
    occurs { pw := { shutdownLow := true } } (fun a => a.isOff && a.pw.shutdownLow) ∧
    occurs rising (fun a => a.pw.feed false && !a.pw.feed (!false)) ∧
    occurs up (fun a => a.pw.feed true && a.pw.feed (!true) && a.powered && a.pw.steward) ∧
    occurs (({ up with pw := { up.pw with feedB := false } } : State).faultIn (feedUnit true) {})
      (fun a => !a.isOff && !a.pw.feed true && a.isRetired (feedUnit true)) ∧
    occurs rising2 (fun a => a.pw.feed true && a.pw.feed (!true) && !(a.powered && a.pw.steward)) ∧
    occurs ({ up with pw := { up.pw with feedB := false } } : State)
      (fun a => !a.isOff && !a.pw.feed true && !a.isRetired (feedUnit true)) ∧
    occurs State.reset (fun a => !(a.pw.feedA || a.pw.feedB)) ∧
    occurs State.reset (fun a => !(a.isOff && (a.pw.feedA || a.pw.feedB))) ∧
    occurs up (fun a => a.pw.feedA || a.pw.feedB) ∧ occurs rising (fun a => a.isOff && (a.pw.feedA || a.pw.feedB)) ∧
    occurs rising (fun a => a.isOff && a.pw.rising && !a.pw.shutdownLow && (a.pw.feedA || a.pw.feedB)) ∧
    holds atBoot (fun a => Cond.booting [0, 1] a && [0, 1].contains a.sec.active) ∧
    holds atBoot (fun a => Cond.booting [1] a && ! [1].contains a.sec.active && [1].contains (1 - a.sec.active)) ∧
    holds atBoot (Cond.booting []) ∧
    holds { up with ready := 1#64 } (fun a => Cond.firstReady 5 a && 5 != 29 && 5 != 30) ∧
    holds { up with ready := 1#64 } (Cond.firstReady 30) ∧ holds { up with ready := 1#64 } (Cond.firstReady 29) ∧
    holds (withCmd { up with ready := 1#64 } resetDdc) (fun a => Cond.readyAgain 11 a && 11 != 29 && 11 != 30) ∧
    holds { up with ready := 1#64 } (fun a => a.canFail 28 && 28 != 30) ∧
    holds { up with ready := 1#64 } (fun a => a.canFail 4 && 4 != 30) ∧ holds { up with ready := 1#64 } (fun a => a.canFail 30) ∧
    holds { up with ready := 1#64 } (fun a => a.canFail 14 && 14 != 30 && decide (0 < poolCount 5 ∧ 2 < poolUnits 5) &&
      !a.isRetired ⟨5, 0, 2⟩) ∧
    occurs up (fun a => !a.isOff) ∧ occurs up (fun a => !a.isOff && 5 != 3 && 5 != 4) ∧ occurs up (fun a => !a.isOff && !a.sec.tapHeld) ∧
    occurs { up with sec := { up.sec with tapHeld := true } } (fun a => !a.isOff && a.sec.tapHeld) := by decide

/-- `up` with a link at ×8 after lane `n` has failed. -/
def halfGone (n : Nat) : State :=
  ({ up with host := { up.host with link := .l0, linkWidth := 8 } } : State).faultMasked ⟨12, 0, n⟩ {}

theorem witness_ResetsLinkAndThermal :
    holds up (fun a => a.pw.state == .running) ∧ holds up (fun _ => decide (1 < 2)) ∧
    holds up (fun a => !a.host.perst && !a.host.untrainable && a.linkWidths.contains 16 && decide (1 ≤ 5) && decide (5 ≤ 5)) ∧
    holds up (fun a => decide (15 ≤ 15) && !a.halfDead 1 && !a.halfDead 0) ∧ holds up (fun a => a.pw.stepDue a.now) ∧
    holds (halfGone 9) (fun a => decide (0 ≤ 15) && !a.halfDead 0 && a.halfDead 1 && decide (4 ≤ 4) && a.host.linkWidth != 0) ∧
    holds (halfGone 7) (fun a => decide (15 ≤ 15) && !a.halfDead 1 && a.halfDead 0 && decide (4 ≤ 16) && a.host.linkWidth != 0) ∧
    holds (up.setFunc 0 { up.func 0 with d3hot := true })
      (fun a => decide (1 ≤ 1) && Cond.mayStandBy (Cond.asleep 1 true a)) ∧
    holds up (fun a => decide (0 ≤ 1) && !Cond.mayStandBy (Cond.asleep 0 false a)) ∧
    holds up (fun a => a.pw.state == .running && !a.pw.wakeDue) ∧
    holds { up with pw := { up.pw with state := .standby, wakeDue := true, cleared := 64 } }
      (fun a => a.pw.state == .standby && a.pw.wakeDue) ∧
    holds up (fun a => a.stewardRuns && !a.sec.recovery) ∧
    holds { up with pw := { up.pw with thermalCap := some 300 } } (fun a => a.pw.stepDue a.now && a.pw.thermalCap == some 300) ∧
    holds up (fun a => a.pw.state != .thermalTrip) ∧
    holds { up with pw := { up.pw with alertStatus := 16 } } (fun a => a.smbAlertN) := by decide

/-- A state whose memories list something and that has a command in front. -/
theorem witness_MemoriesStayCanonical :
    let s := { up.withPending [.keyUnlockWrite 0 0 0x7840] with cellarMem := [(5, 9#8), (8, 1#8)] }
    s.memoryWf = true ∧ after (step s) fun s => (s.func 0).keyOpen := by decide

theorem witness_ClockOutputsAndFreeValues :
    after (exec (.lockAliasRead 2000000 0 5 3 0 4) up) fun s => s.now == 2000000 && s.out.length == 1 := by decide

theorem witness_WithoutPowerNothingHappens :
    State.reset.powered = false ∧ Cond.actsUnpowered (.keyUnlockWrite 0 0 0) = false := by decide

theorem witness_KeyAndPostedWrites : up.powered = true ∧ (up.advance 0).hostAccess = true ∧
    ((up.advance 0).func 0).keyOpen = false ∧ (((up.setFunc 0 { keyOpen := true }).advance 0).func 0).keyOpen = true ∧
    ((up.setFunc 0 { keyOpen := true }).advance 0).hostAccess = true ∧
    ((up.setFcw { resyncBusy := true }).advance 0).fcw.resyncBusy = true ∧
    ((up.setFcw { resyncBusy := true }).advance 0).hostAccess = true := by decide

theorem witness_DensityCellsSaturate :
    let x : Plane := { cells := [(4097, 0xFFFFFFFF)], satInc := 0xFFFFFFFF }
    x.cells.get (1 * 4096 + 1) 0 = 0xFFFFFFFF ∧ x.satInc ≤ 0xFFFFFFFF ∧ x.cells.get (1 * 4096 + 2) 0 ≤ 0xFFFFFFFF := by decide

theorem witness_SessionNumbersAreNew :
    (up.func 0).session = 0 ∧ ((up.setFunc 1 { session := 3 }).func 1).session ≠ 0 ∧ ({ session := 3 } : Func).session ≠ 0 := by
  decide

end Sys2Proof.Tests
end

section

namespace Sys2Proof.Machine

/-! # The canonical form of memories: no row and no verb loses it (log entry 3)

A row, however it ends, *goes* (`OGoes`): it answers a next state that keeps what `Keeps` names, the canonical form
among it. Each row's lemma follows the row's own branches and cites, operation by operation, the `_keeps` laws. -/

/-- Outputs that are held fall silent and keep their waveform memories (R559). -/
theorem State.silenceOutputs_keeps {r s : State} (h : Keeps r s) :
    Keeps r { s with stim := s.stim.mapVals fun _ x => x.silent } :=
  h.trans ⟨rfl, .inl rfl, List.suffix_refl _, Nat.le_refl _, fun e => by
    simp only [State.memoryWf, Bool.and_eq_true] at e ⊢
    exact ⟨⟨e.1.1, KMap.all_mapVals (p := fun x : StimOut => x.wave.wf) (fun _ _ => id) e.1.2⟩, e.2⟩⟩

/-! ### The down-converter bank -/

theorem execDdcDatapathFault_goes {t input unit : Nat} {s : State} : OGoes s
    (execDdcDatapathFault t input unit s) :=
  happens_goes fun s => State.ddcFail_keeps (Keeps.refl s)

theorem execFirstSettledOutput_goes {t ddc : Nat} {s : State} : OGoes s (execFirstSettledOutput t ddc s) :=
  happens_goes fun s => Keeps.ite (State.eventAt_keeps (State.setDdc_keeps (Keeps.refl s))) (Keeps.refl s)

theorem execDdcScheduledChange_goes {t ddc : Nat} {s : State} : OGoes s (execDdcScheduledChange t ddc s) :=
  happens_goes fun s => by
    refine Keeps.ite (Keeps.refl s) ?_
    extract_lets s0 x s1
    have h0 : Keeps s s0 := by
      unfold s0
      split
      · exact Keeps.ite (State.ddcStart_keeps (Keeps.refl s)) (Keeps.refl s)
      · exact Keeps.refl s
    have h1 : Keeps s s1 := Keeps.ite (State.finishAll_keeps _ h0) h0
    split
    · exact Keeps.ite (State.finishAll_keeps _ (State.setDdc_keeps h1)) h1
    · exact h1

/-! ### RF inputs and conversion -/

theorem execInputRangeSwitch_goes {t input : Nat} {s : State} : OGoes s (execInputRangeSwitch t input s) :=
  happens_goes fun s => by
    dsimp only
    split
    · exact Keeps.ite (State.finishAll_keeps _ (State.switchRange_keeps (Keeps.refl s))) (Keeps.refl s)
    · exact Keeps.refl s

theorem execRotationStep_goes {t input slice : Nat} {s : State} : OGoes s (execRotationStep t input slice s) :=
  happens_goes fun s => by
    refine Keeps.ite (Keeps.refl s) ?_
    extract_lets s1 x step y s2 s3
    have h1 : Keeps s s1 := by
      unfold s1
      split
      · exact State.calTrim_keeps (State.setInput_keeps (Keeps.refl s))
      · exact Keeps.refl s
    have h2 : Keeps s s2 := Keeps.ite (State.drawFree_keeps (State.calTrim_keeps h1)) h1
    have h3 : Keeps s s3 := by
      unfold s3
      split
      · exact Keeps.ite (State.setInput_keeps h2) (State.setInput_keeps h2)
      · exact State.setInput_keeps h2
    exact State.calServed_keeps h3

theorem execSliceFailure_goes {t input slice faultTick : Nat} {s : State} : OGoes s
    (execSliceFailure t input slice faultTick s) :=
  happens_goes fun s => State.sliceFail_keeps (Keeps.refl s)

theorem execSliceHandoverComplete_goes {t input : Nat} {within : Bool} {s : State} : OGoes s
    (execSliceHandoverComplete t input within s) :=
  happens_goes fun s => by
    extract_lets x
    split
    · exact Keeps.refl s
    · refine Keeps.ite ?_ (Keeps.ite (State.setInput_keeps (Keeps.refl s)) (State.sliceFail_keeps (Keeps.refl s)))
      dsimp only
      split
      · exact State.setInput_keeps (Keeps.refl s)
      · exact State.setInput_keeps (Keeps.refl s)

theorem execColdSpareReady_goes {t input : Nat} {s : State} : OGoes s (execColdSpareReady t input s) :=
  happens_goes fun s => by
    dsimp only
    split
    · exact Keeps.refl s
    · exact State.serveWaiting_keeps (State.calTrim_keeps (State.setInput_keeps (Keeps.refl s)))

theorem execInputOverdrive_goes {t input samples : Nat} {firstPositive : Bool} {flips : List Nat} {protect : Bool}
    {s : State} : OGoes s (execInputOverdrive t input samples firstPositive flips protect s) :=
  happens_goes fun s => by
    extract_lets s1 x
    have h1 : Keeps s s1 := State.closeAll_keeps (Keeps.refl s)
    refine Keeps.ite h1 ?_
    dsimp only
    split
    · exact State.setInput_keeps h1
    · exact Keeps.ite (State.setInput_keeps h1) (State.eventAt_keeps (State.setInput_keeps h1))

theorem execProtectionRelease_goes {t input : Nat} {s : State} : OGoes s (execProtectionRelease t input s) :=
  happens_goes fun s => Keeps.ite (Keeps.refl s) (State.setInput_keeps (Keeps.refl s))

theorem execOverrangeIntervalClose_goes {t input : Nat} {s : State} : OGoes s
    (execOverrangeIntervalClose t input s) :=
  happens_goes fun s => by
    split
    · exact Keeps.refl s
    · exact Keeps.ite (Keeps.refl s) (State.closeInterval_keeps (Keeps.refl s))

/-! ### The transform engine -/

theorem execPressPipelineFault_goes {t unit : Nat} {s : State} : OGoes s (execPressPipelineFault t unit s) :=
  happens_goes fun s => State.pipeFail_keeps (Keeps.refl s)

theorem execPressFrameRelease_goes {t job : Nat} {codes : List Int} {s : State} : OGoes s
    (execPressFrameRelease t job () () () codes s) :=
  happens_goes fun s => by
    refine Keeps.ite (Keeps.refl s) ?_
    extract_lets f mode s1 s2
    have h2 : Keeps s s2 := State.finishAll_keeps _ (State.pressFlows_keeps (State.offerFrame_keeps
      (State.setJob_keeps (Keeps.refl s))))
    exact Keeps.ite (State.jobRest_keeps h2) h2

/-! ### Traces and the density accumulator -/

theorem execDecayBoundary_goes {t plane : Nat} {s : State} : OGoes s (execDecayBoundary t plane s) :=
  happens_goes fun s => Keeps.ite (State.setPlane_keeps (Keeps.refl s)) (Keeps.refl s)

theorem execDensityClearApply_goes {t plane : Nat} {s : State} : OGoes s (execDensityClearApply t plane s) :=
  happens_goes fun s => by
    dsimp only
    split
    · exact Keeps.ite (State.finishClears_keeps (State.setPlane_keeps (Keeps.refl s))) (Keeps.refl s)
    · exact Keeps.refl s

theorem execSpectrumAccept_goes {t job : Nat} {s : State} : OGoes s (execSpectrumAccept t job () s) :=
  happens_goes fun s => by
    split
    · exact Keeps.refl s
    · refine Keeps.ite (Keeps.refl s) ?_
      extract_lets tag powers frozen s0 jobs spec s1 s2
      have h1 : Keeps s s1 := Keeps.upd (State.setJob_keeps (Keeps.refl s)) rfl
      have h2 : Keeps s s2 := Keeps.ite h1 (State.occTaken_keeps h1)
      exact State.finishClears_keeps (State.finishAll_keeps _ (State.resultFlows_keeps h2))

theorem execIntegrationEnd_goes {t trace : Nat} {s : State} : OGoes s (execIntegrationEnd t trace s) :=
  happens_goes fun s => Keeps.ite (State.resultFlows_keeps (State.setTrace_keeps (Keeps.refl s))) (Keeps.refl s)

/-! ### The trigger engine -/

theorem execTriggerDecision_goes {t unit : Nat} {samples : List Sample} {s : State} : OGoes s
    (execTriggerDecision t unit samples () s) :=
  happens_goes fun s => by
    extract_lets feed x
    have hfeed (a : State) (r : Detector × List TrigCond) (k : Keeps s a) : Keeps s (feed a r) :=
      Keeps.foldl (fun _ _ => State.condition_keeps) (State.setTunit_keeps k)
    refine Keeps.ite (Keeps.refl s) (Keeps.ite (Keeps.foldl (fun a n k => ?_) (Keeps.refl s))
      (Keeps.ite (Keeps.foldl (fun a f k => Keeps.ite (hfeed _ _ k) k) (State.setTunit_keeps (Keeps.refl s)))
        (Keeps.ite (State.sequenceTry_keeps (Keeps.refl s)) (Keeps.refl s))))
    split
    · exact Keeps.ite (hfeed _ _ k) k
    · exact k

theorem execForcedDecision_goes {t unit : Nat} {s : State} : OGoes s (execForcedDecision t unit s) :=
  happens_goes fun s => by
    extract_lets x make
    have hmake (a : State) (k : Keeps s a) : Keeps s (make a).1 := by
      unfold make
      split
      · exact Keeps.ite (State.sequences_keeps (State.decideOne_keeps k)) (State.decideOne_keeps k)
      · exact k
    refine Keeps.ite (Keeps.refl s) ?_
    split
    · exact Keeps.ite (State.finish_keeps (Keeps.refl s))
        (Keeps.ite (State.finish_keeps (hmake s (Keeps.refl s))) (State.finish_keeps (hmake s (Keeps.refl s))))
    · exact Keeps.ite (hmake _ (Keeps.upd (Keeps.refl s) rfl)) (Keeps.refl s)

theorem execUnitRearm_goes {t unit : Nat} {s : State} : OGoes s (execUnitRearm t unit s) :=
  happens_goes fun s => by
    dsimp only
    split
    · exact Keeps.ite (State.setTunit_keeps (Keeps.refl s)) (Keeps.refl s)
    · exact Keeps.refl s

theorem execHoldoffEnd_goes {t unit : Nat} {s : State} : OGoes s (execHoldoffEnd t unit s) :=
  happens_goes fun s => Keeps.ite (State.setTunit_keeps (Keeps.refl s)) (Keeps.refl s)

theorem execSequencePendingExpiry_goes {t unit : Nat} {s : State} : OGoes s (execSequencePendingExpiry t unit s) :=
  happens_goes fun s => by
    dsimp only
    split
    · exact Keeps.ite (State.setTunit_keeps (State.sequenceTry_keeps (Keeps.refl s))) (Keeps.refl s)
    · exact Keeps.refl s

theorem execTrigInEdge_goes {t : Nat} {rising : Bool} {s : State} : OGoes s (execTrigInEdge t rising s) :=
  happens_goes fun s => State.offerTrig_keeps (Keeps.refl s)

theorem execTrigOutPulseEnd_goes {t : Nat} {s : State} : OGoes s (execTrigOutPulseEnd t s) :=
  happens_goes fun s => by
    split
    · exact Keeps.ite (State.pulseDone_keeps (Keeps.refl s)) (Keeps.refl s)
    · exact Keeps.refl s

theorem execVoterDisagreement_goes {t voter : Nat} {s : State} : OGoes s (execVoterDisagreement t voter s) :=
  happens_goes fun s => State.voterFail_keeps (Keeps.refl s)

theorem execTriggerEventIntervalClose_goes {t unit : Nat} {s : State} : OGoes s
    (execTriggerEventIntervalClose t unit s) :=
  happens_goes fun s => by
    dsimp only
    split
    · exact Keeps.refl s
    · exact Keeps.ite (Keeps.refl s) (Keeps.ite (State.setTunit_keeps (Keeps.refl s))
        (State.eventAt_keeps (State.setTunit_keeps (Keeps.refl s))))

theorem execTrigScheduledArm_goes {t unit : Nat} {s : State} : OGoes s (execTrigScheduledArm t unit s) :=
  happens_goes fun s => by
    dsimp only
    split
    · exact Keeps.ite (State.finishAll_keeps _ (State.trigArmNow_keeps (Keeps.refl s))) (Keeps.refl s)
    · exact Keeps.refl s

/-! ### Acquisition contexts -/

theorem execSegmentEventIntervalClose_goes {t context : Nat} {s : State} : OGoes s
    (execSegmentEventIntervalClose t context s) :=
  happens_goes fun s => by
    dsimp only
    split
    · exact Keeps.refl s
    · exact Keeps.ite (Keeps.refl s) (Keeps.ite (State.setCtx_keeps (Keeps.refl s))
        (State.setCtx_keeps (State.segmentEvent_keeps (Keeps.refl s))))

theorem execGapEventIntervalClose_goes {t context : Nat} {s : State} : OGoes s
    (execGapEventIntervalClose t context s) :=
  happens_goes fun s => by
    dsimp only
    split
    · exact Keeps.refl s
    · exact Keeps.ite (Keeps.refl s) (Keeps.ite (State.setCtx_keeps (Keeps.refl s))
        (State.eventAt_keeps (State.setCtx_keeps (Keeps.refl s))))

theorem execGapBegin_goes {t context cause element : Nat} {count : Nat} {s : State} : OGoes s
    (execGapBegin t context cause element () () count s) :=
  happens_goes fun s => by
    refine Keeps.ite (Keeps.refl s) ?_
    extract_lets g s1
    have h1 : Keeps s s1 := State.setCtx_keeps (Keeps.refl s)
    split
    · exact State.addGap_keeps h1
    · exact h1

theorem execSegmentEnd_goes {t context : Nat} {codes : List Int} {s : State} : OGoes s (execSegmentEnd t context
    () () () () () codes s) :=
  happens_goes fun s => by
    extract_lets x inSegment
    split
    · exact Keeps.refl s
    · extract_lets r y s2
      have h1 : Keeps s r.1 := State.segmentStore_keeps (State.contiguousArm_keeps (Keeps.refl s))
      have h2 : Keeps s s2 := State.setCtx_keeps h1
      exact Keeps.ite (Keeps.ite (State.setCtx_keeps h1) (State.acqStopped_keeps (State.recordEnd_keeps h2)))
        (Keeps.ite (State.recordEnd_keeps (State.setCtx_keeps h1)) (Keeps.ite (State.recordEnd_keeps h2)
          (Keeps.ite (State.segmentEvent_keeps (State.setCtx_keeps h1)) (State.setCtx_keeps h1))))

theorem execSegmentTrigger_goes {t context : Nat} {s : State} : OGoes s (execSegmentTrigger t context s) :=
  happens_goes fun s => Keeps.ite (State.ringGaps_keeps (State.setCtx_keeps (Keeps.refl s))) (Keeps.refl s)

theorem execStagingDrainTimeout_goes {t context : Nat} {s : State} : OGoes s (execStagingDrainTimeout t context
    () () () () s) :=
  happens_goes fun s => by
    extract_lets x
    split
    · refine Keeps.ite ?_ (Keeps.refl s)
      extract_lets r
      have h1 : Keeps s r.1 := Keeps.foldl_fst (fun _ _ => State.noteGap_keeps) (Keeps.refl s)
      exact State.acqDrained_keeps (Keeps.upd h1 rfl)
    · exact Keeps.refl s

theorem execRingFilled_goes {t context : Nat} {s : State} : OGoes s (execRingFilled t context s) :=
  happens_goes fun s => Keeps.ite (Keeps.refl s) (Keeps.ite (State.finishArm_keeps (State.setCtx_keeps
    (Keeps.refl s))) (Keeps.ite (State.setCtx_keeps (Keeps.refl s)) (Keeps.refl s)))

theorem execContextRearm_goes {t context : Nat} {s : State} : OGoes s (execContextRearm t context s) :=
  happens_goes fun s => by
    have h1 (x : Ctx) : Keeps s (s.setCtx context x) := State.setCtx_keeps (Keeps.refl s)
    exact Keeps.ite (State.contiguousArm_keeps (Keeps.refl s)) (Keeps.ite (h1 _)
      (Keeps.ite (Keeps.ite (State.contiguousArm_keeps (State.ringGaps_keeps (h1 _)))
        (State.finishArm_keeps (State.ringGaps_keeps (h1 _)))) (Keeps.ite (State.finishArm_keeps (h1 _)) (h1 _))))

theorem execContextStateRebuild_goes {t context : Nat} {s : State} : OGoes s
    (execContextStateRebuild t context s) :=
  happens_goes fun s => State.faultWord_keeps (Keeps.refl s)

theorem execAcqScheduledArm_goes {t context : Nat} {s : State} : OGoes s (execAcqScheduledArm t context s) :=
  happens_goes fun s => by
    split
    · refine Keeps.ite ?_ (Keeps.refl s)
      split
      · exact State.finishAll_keeps _ (State.setCtx_keeps (Keeps.refl s))
      · next s0 h0 =>
        have h1 : Keeps s (s0.acqStartRecord context) :=
          State.acqStartRecord_keeps (State.acqAdmit_keeps (Keeps.refl s) h0)
        exact Keeps.ite (State.finishArm_keeps h1) h1
    · exact Keeps.refl s

/-! ### Time base and clock synthesis -/

theorem execDisciplineLoopLocked_goes {t : Nat} {s : State} : OGoes s (execDisciplineLoopLocked t s) :=
  happens_goes fun s => Keeps.ite (State.evLock_keeps (Keeps.upd (Keeps.refl s) rfl)) (Keeps.refl s)

theorem execOcxoHardFault_goes {t osc : Nat} {s : State} : OGoes s (execOcxoHardFault t osc s) :=
  happens_goes fun s => Keeps.ite (Keeps.refl s) (State.oscFail_keeps (Keeps.upd (Keeps.refl s) rfl))

theorem execOcxoSoftFault_goes {t farther : Nat} {s : State} : OGoes s (execOcxoSoftFault t farther s) :=
  happens_goes fun s => Keeps.ite (Keeps.refl s) (Keeps.ite (State.settleOsc_keeps (Keeps.refl s)) (Keeps.ite
    (State.oscFail_keeps (Keeps.refl s)) (Keeps.upd (State.faultUnmasked_keeps (Keeps.upd
    (Keeps.refl s) rfl)) rfl)))

theorem execWarmReached_goes {t ms : Nat} {s : State} : OGoes s (execWarmReached t ms s) :=
  happens_goes fun s => Keeps.ite (Keeps.refl s) (Keeps.ite (State.event_keeps (Keeps.upd (Keeps.refl s) rfl))
    (State.raiseReady_keeps (State.event_keeps (Keeps.upd (Keeps.refl s) rfl))))

theorem execRefInQualified_goes {t freq farther : Nat} {s : State} : OGoes s
    (execRefInQualified t freq farther s) :=
  happens_goes fun s => Keeps.ite (State.settleOsc_keeps (State.loopUpdate_keeps (Keeps.upd (Keeps.refl s) rfl)))
    (Keeps.refl s)

theorem execRefInLost_goes {t : Nat} {s : State} : OGoes s (execRefInLost t s) :=
  happens_goes fun s => State.loopUpdate_keeps (Keeps.upd (Keeps.refl s) rfl)

theorem execPpsInQualified_goes {t farther : Nat} {s : State} : OGoes s (execPpsInQualified t farther s) :=
  happens_goes fun s => by
    exact Keeps.ite (Keeps.refl s) (State.settleOsc_keeps (State.loopUpdate_keeps (Keeps.upd (Keeps.refl s) rfl)))

theorem execPpsInLost_goes {t : Nat} {s : State} : OGoes s (execPpsInLost t s) :=
  happens_goes fun s => State.loopUpdate_keeps (Keeps.upd (Keeps.refl s) rfl)

theorem execPpsEdge_goes {t : Nat} {stamp : Stamp} {s : State} : OGoes s (execPpsEdge t stamp s) :=
  happens_goes fun s => Keeps.ite (Keeps.refl s) (State.ppsEdge_keeps (Keeps.refl s))

theorem execPpsOutSecond_goes {t : Nat} {s : State} : OGoes s (execPpsOutSecond t s) :=
  happens_goes fun s => Keeps.ite (Keeps.upd (Keeps.refl s) rfl) (Keeps.refl s)

theorem execPpsOutPulseEnd_goes {t : Nat} {s : State} : OGoes s (execPpsOutPulseEnd t s) :=
  happens_goes fun s => Keeps.upd (Keeps.refl s) rfl

theorem execSynthBandSearchDone_goes {t source : Nat} {s : State} : OGoes s (execSynthBandSearchDone t source s) :=
  happens_goes fun s => Keeps.ite (Keeps.ite (Keeps.upd (Keeps.refl s) rfl) (Keeps.refl s)) (Keeps.ite (Keeps.ite
    (State.setGen_keeps (Keeps.refl s)) (Keeps.refl s)) (Keeps.refl s))

theorem execSynthLockLost_goes {t source : Nat} {s : State} : OGoes s (execSynthLockLost t source s) :=
  happens_goes fun s => Keeps.ite (State.sampleFail_keeps (Keeps.refl s)) (Keeps.ite (Keeps.ite
    (State.setSynth_keeps (Keeps.refl s)) (Keeps.refl s)) (Keeps.refl s))

theorem execSynthReacquireTimeout_goes {t source : Nat} {s : State} : OGoes s
    (execSynthReacquireTimeout t source s) :=
  happens_goes fun s => Keeps.ite (Keeps.ite (State.setGen_keeps (Keeps.refl s)) (Keeps.refl s)) (Keeps.refl s)

theorem execSampleSynthFault_goes {t unit : Nat} {lostLock : Bool} {s : State} : OGoes s
    (execSampleSynthFault t unit lostLock s) :=
  happens_goes fun s => State.sampleFail_keeps (Keeps.refl s)

theorem execIdleCoreLocked_goes {t gen : Nat} {s : State} : OGoes s (execIdleCoreLocked t gen s) :=
  happens_goes fun s => by
    refine Keeps.ite (Keeps.refl s) ?_
    dsimp only
    split
    · exact State.finishGen_keeps (State.passToIdle_keeps (Keeps.refl s))
    · exact Keeps.ite (State.beginRamp_keeps (Keeps.refl s)) (Keeps.refl s)

theorem execRampScheduledStart_goes {t gen : Nat} {s : State} : OGoes s (execRampScheduledStart t gen s) :=
  happens_goes fun s => Keeps.ite (State.beginRamp_keeps (Keeps.refl s)) (Keeps.refl s)

theorem execRampUpdate_goes {t gen : Nat} {s : State} : OGoes s (execRampUpdate t gen s) :=
  happens_goes fun s => Keeps.ite (State.setGen_keeps (Keeps.refl s)) (Keeps.refl s)

theorem execRampSegmentEnd_goes {t gen : Nat} {s : State} : OGoes s (execRampSegmentEnd t gen s) :=
  happens_goes fun s => Keeps.ite (Keeps.ite (State.setGen_keeps (Keeps.refl s)) (Keeps.ite (State.setGen_keeps
    (Keeps.refl s)) (Keeps.refl s))) (Keeps.refl s)

theorem execRampProfileEnd_goes {t gen : Nat} {s : State} : OGoes s (execRampProfileEnd t gen s) :=
  happens_goes fun s => Keeps.ite (State.rampDue_keeps (Keeps.refl s)) (Keeps.refl s)

/-! ### Pattern sites -/

theorem execTriggerJumpArrival_goes {t site index : Nat} {s : State} : OGoes s
    (execTriggerJumpArrival t site index s) :=
  happens_goes fun s => by
    split
    · exact Keeps.refl s
    · exact Keeps.ite (Keeps.refl s) (State.siteAsk_keeps (Keeps.upd (Keeps.refl s) rfl))

theorem execSiteEventArrival_goes {t site : Nat} {launch : Stamp} {s : State} : OGoes s
    (execSiteEventArrival t site launch s) :=
  happens_goes fun s => State.openSiteBlanking_keeps (State.offerTrig_keeps (State.setSite_keeps (Keeps.refl s)))

theorem execDecisionPoint_goes {t site : Nat} {s : State} : OGoes s (execDecisionPoint t site s) :=
  happens_goes fun s => by
    refine Keeps.ite (Keeps.refl s) ?_
    extract_lets s1 x c play s2 at_
    have h2 : Keeps s s2 := State.setSite_keeps (State.settleMatches_keeps (Keeps.refl s))
    clear_value s2 at_ c
    split
    · exact State.sendNext_keeps h2
    · exact State.sendNext_keeps h2
    · exact State.sendPark_keeps h2
    · exact State.sendPark_keeps h2
    · exact State.sendPark_keeps h2
    · exact h2

theorem execSegmentBoundary_goes {t site : Nat} {last : Stamp} {s : State} : OGoes s
    (execSegmentBoundary t site last s) :=
  happens_goes fun s => by
    refine Keeps.ite (Keeps.refl s) ?_
    extract_lets g s1 x total end_ go into
    have h1 : Keeps s s1 := State.settleMatches_keeps (Keeps.refl s)
    have hgo (a : State) (c : PlayChoice) (k : Keeps s a) : Keeps s (go a c) := State.setSite_keeps k
    have hinto (a : State) (u : Nat) (c : PlayChoice) (k : Keeps s a) : Keeps s (into a u c) :=
      State.setSite_keeps (hgo _ c (State.endStream_keeps k))
    split
    · exact hgo s1 _ h1
    · exact hinto s1 _ _ h1
    · refine hinto _ _ _ ?_
      split
      · exact State.event_keeps h1
      · exact h1
    · exact State.siteEnds_keeps h1
    · exact State.siteEnds_keeps h1
    · exact State.siteStall_keeps h1
    · exact State.siteStall_keeps h1
    · exact h1

theorem execRefillLate_goes {t site index device : Nat} {s : State} : OGoes s
    (execRefillLate t site index device s) :=
  happens_goes fun s => Keeps.ite (State.parkLater_keeps (State.setSite_keeps (Keeps.refl s))) (Keeps.refl s)

theorem execSitePark_goes {t site index : Nat} {s : State} : OGoes s (execSitePark t site index s) :=
  happens_goes fun s => by
    dsimp only
    split
    · exact Keeps.ite (Keeps.refl s) (Keeps.ite (State.siteStall_keeps (Keeps.refl s)) (State.siteEnds_keeps
          (Keeps.refl s)))
    · exact Keeps.refl s

theorem execPatScheduledStart_goes {t site : Nat} {s : State} : OGoes s (execPatScheduledStart t site () s) :=
  happens_goes fun s => by
    split
    · exact Keeps.refl s
    · exact Keeps.ite (State.finish_keeps (Keeps.foldl (fun _ _ k => State.siteShadows_keeps
          (State.launchSite_keeps k))
        (Keeps.refl s))) (Keeps.refl s)

/-! ### Stimulus outputs -/

theorem execStimTriggerJumpArrival_goes {t output : Nat} {s : State} : OGoes s
    (execStimTriggerJumpArrival t output s) :=
  happens_goes fun s => by
    split
    · exact Keeps.refl s
    · exact Keeps.ite (Keeps.refl s) (State.stimAsk_keeps (Keeps.upd (Keeps.refl s) rfl))

theorem execStimDecisionPoint_goes {t output : Nat} {s : State} : OGoes s (execStimDecisionPoint t output s) :=
  happens_goes fun s => Keeps.ite (Keeps.refl s) (State.setStim_keeps (Keeps.refl s) rfl)

theorem execStimBoundary_goes {t output : Nat} {s : State} : OGoes s (execStimBoundary t output s) :=
  happens_goes fun s => by
    extract_lets x total ended s1 go into
    have h1 : Keeps s s1 := Keeps.ite (State.stimShow_keeps (Keeps.refl s)) (Keeps.refl s)
    have hgo (a : State) (c : PlayChoice) (k : Keeps s a) : Keeps s (go a c) :=
      State.stimFill_keeps (State.setStim_keeps k rfl)
    have hinto (a : State) (c : PlayChoice) (k : Keeps s a) : Keeps s (into a c) :=
      State.stimFill_keeps (State.setStim_keeps k rfl)
    split
    · exact h1
    · exact hgo s1 _ h1
    · exact hinto s1 _ h1
    · refine hinto _ _ ?_
      split
      · exact State.eventAt_keeps h1
      · exact h1
    · exact State.stimEnds_keeps h1
    · exact State.stimEnds_keeps h1
    · exact State.stimEnds_keeps h1
    · exact State.stimEnds_keeps h1

theorem execStimRefillLate_goes {t output : Nat} {s : State} : OGoes s (execStimRefillLate t output s) :=
  happens_goes fun s => Keeps.ite (State.stimEnds_keeps (State.stimShow_keeps (Keeps.refl s))) (Keeps.refl s)

theorem execStimPark_goes {t output : Nat} {s : State} : OGoes s (execStimPark t output s) :=
  happens_goes fun s => by
    dsimp only
    split
    · exact Keeps.ite (State.stimEnds_keeps (State.stimShow_keeps (Keeps.refl s))) (Keeps.refl s)
    · exact Keeps.refl s

theorem execStimScheduledStart_goes {t output : Nat} {s : State} : OGoes s (execStimScheduledStart t output s) :=
  happens_goes fun s => by
    split
    · exact Keeps.refl s
    · exact Keeps.ite (State.finish_keeps (Keeps.foldl (fun _ _ k => State.stimLaunch_keeps k) (Keeps.refl s)))
        (Keeps.refl s)

/-! ### Cellar -/

theorem execWriteBufferMergeTimeout_goes {t stripe : Nat} {s : State} : OGoes s
    (execWriteBufferMergeTimeout t stripe s) :=
  happens_goes fun s => by
    split
    · exact Keeps.ite (State.setCell_keeps (Keeps.refl s)) (Keeps.refl s)
    · exact Keeps.refl s

theorem execCellarRequest_goes {t port addr size : Nat} {write : Bool} {data : List Byte} {serve : Nat} {activates
    : List (Nat × Nat)} {s : State} : OGoes s (execCellarRequest t port addr size write data serve activates s) :=
  happens_goes fun s => Keeps.ite (Keeps.refl s) (State.activations_keeps (serveReqs_keeps (State.climb_keeps
    (Keeps.ite (Keeps.refl s) (State.setCell_keeps (Keeps.refl s))))))

theorem execUrgencyLevelRise_goes {t : Nat} {s : State} : OGoes s (execUrgencyLevelRise t s) :=
  happens_goes fun s => State.climb_keeps (Keeps.refl s)

theorem execPatrolScrub_goes {t : Nat} {corrected rebuilt : List Nat} {s : State} : OGoes s
    (execPatrolScrub t corrected rebuilt s) :=
  happens_goes fun s => State.setCell_keeps (Keeps.foldl (fun _ _ => State.setStack_keeps) (Keeps.refl s))

theorem execRefreshWindowStart_goes {t : Nat} {s : State} : OGoes s (execRefreshWindowStart t s) :=
  happens_goes fun s => State.setCell_keeps (Keeps.refl s)

theorem execRowHammerThreshold_goes {t stack bank : Nat} {s : State} : OGoes s
    (execRowHammerThreshold t stack bank s) :=
  happens_goes fun s => by
    dsimp only
    split
    · exact Keeps.refl s
    · exact State.setStack_keeps (Keeps.refl s)

theorem execPseudoChannelFailure_goes {t stack pc : Nat} {s : State} : OGoes s
    (execPseudoChannelFailure t stack pc s) :=
  happens_goes fun s => State.losePc_keeps (Keeps.refl s)

theorem execStackFailure_goes {t stack : Nat} {s : State} : OGoes s (execStackFailure t stack s) :=
  happens_goes fun s => Keeps.ite (Keeps.refl s) (State.loseStack_keeps (Keeps.refl s))

theorem execRebuildComplete_goes {t stack : Nat} {s : State} : OGoes s (execRebuildComplete t stack s) :=
  happens_goes fun s => Keeps.ite (State.setStack_keeps (Keeps.refl s)) (Keeps.refl s)

theorem execRetrainPauseStart_goes {t channel : Nat} {s : State} : OGoes s (execRetrainPauseStart t channel s) :=
  happens_goes fun s => Keeps.ite (Keeps.refl s) (State.setCell_keeps (Keeps.refl s))

theorem execRetrainPauseEnd_goes {t channel : Nat} {trained : Bool} {fill : Nat} {s : State} : OGoes s
    (execRetrainPauseEnd t channel trained fill s) :=
  happens_goes fun s => by
    split
    · exact Keeps.refl s
    · refine Keeps.ite (Keeps.refl s) ?_
      have h1 (x : Cellar) (k : Nat) (y : Stack) : Keeps s ((s.setCell x).setStack k y) :=
        State.setStack_keeps (State.setCell_keeps (Keeps.refl s))
      exact Keeps.ite (State.calServed_keeps (State.calTrim_keeps (h1 ..)))
        (Keeps.ite (State.calServed_keeps (State.calFailed_keeps (State.losePc_keeps (h1 ..)))) (h1 ..))

theorem execRegionZeroComplete_goes {t base : Nat} {s : State} : OGoes s (execRegionZeroComplete t base s) :=
  happens_goes fun s => by
    split
    · exact Keeps.ite (State.finishAll_keeps _ (State.keepCellar_keeps (Keeps.upd (Keeps.refl s) rfl)
        (Memory.zero_wf _ _))) (Keeps.refl s)
    · exact Keeps.refl s

theorem execStackOpPointServing_goes {t stack : Nat} {s : State} : OGoes s (execStackOpPointServing t stack s) :=
  happens_goes fun s => Keeps.ite (State.setStack_keeps (Keeps.refl s)) (Keeps.refl s)

theorem execStackBufferDrained_goes {t stack fill : Nat} {s : State} : OGoes s
    (execStackBufferDrained t stack fill s) :=
  happens_goes fun s => Keeps.ite (Keeps.refl s) (State.opPointNext_keeps (State.setStack_keeps (Keeps.refl s)))

/-! ### The Vine chain -/

theorem execEchoPulseSend_goes {t : Nat} {stamp : Stamp} {s : State} : OGoes s (execEchoPulseSend t stamp s) :=
  happens_goes fun s => by
    split
    · exact Keeps.ite (State.emit_keeps (State.setVine_keeps (Keeps.refl s))) (Keeps.refl s)
    · exact Keeps.refl s

theorem execEchoPulseReturn_goes {t : Nat} {stamp : Stamp} {s : State} : OGoes s (execEchoPulseReturn t stamp s) :=
  happens_goes fun s => by
    split
    · split
      · exact Keeps.ite (State.vineCalEnd_keeps (Keeps.refl s)) (State.setVine_keeps (Keeps.refl s))
      · exact Keeps.refl s
    · exact Keeps.refl s

theorem execEchoTurnaround_goes {t : Nat} {s : State} : OGoes s (execEchoTurnaround t s) :=
  happens_goes fun s => by
    split
    · exact Keeps.ite (State.emit_keeps (Keeps.refl s)) (Keeps.refl s)
    · exact Keeps.refl s

theorem execEpochEdge_goes {t : Nat} {s : State} : OGoes s (execEpochEdge t s) :=
  happens_goes fun s => by
    split
    · exact Keeps.refl s
    · refine Keeps.ite (Keeps.refl s) ?_
      extract_lets n at_ vine s1 s2 s3 s4
      have h3 : Keeps s s3 :=
        State.fireSync_keeps (State.emit_keeps (State.setVine_keeps (State.setVine_keeps (Keeps.refl s))))
      have h4 : Keeps s s4 := Keeps.ite (State.finishVine_keeps h3) h3
      split
      · exact Keeps.ite (State.vineCalEnd_keeps h4) h4
      · exact h4

theorem execVineFrameSent_goes {t : Nat} {s : State} : OGoes s (execVineFrameSent t s) :=
  happens_goes fun s => State.setVine_keeps (Keeps.refl s)

theorem execVineEventSend_goes {t : Nat} {s : State} : OGoes s (execVineEventSend t s) :=
  happens_goes fun s => by
    split
    · exact Keeps.refl s
    · exact Keeps.ite (Keeps.refl s) (State.emit_keeps (State.setVine_keeps (Keeps.refl s)))

theorem execVineEventFrameReceived_goes {t payload crc : Nat} {s : State} : OGoes s
    (execVineEventFrameReceived t payload crc s) :=
  happens_goes fun s => by
    refine Keeps.ite (Keeps.refl s) (Keeps.ite (State.setVine_keeps (Keeps.refl s)) ?_)
    split
    · exact Keeps.refl s
    · exact State.vineQueue_keeps (State.offerTrig_keeps (Keeps.refl s))

theorem execDelayFrameReceived_goes {t delay crc : Nat} {s : State} : OGoes s
    (execDelayFrameReceived t delay crc s) :=
  happens_goes fun s => Keeps.ite (Keeps.refl s) (Keeps.ite (State.setVine_keeps (Keeps.refl s))
    (State.setVine_keeps (Keeps.refl s)))

theorem execVineNeighbourLost_goes {t cause : Nat} {s : State} : OGoes s (execVineNeighbourLost t cause s) :=
  happens_goes fun s => Keeps.ite (Keeps.refl s) (State.event_keeps (State.enterHoldover_keeps
    (State.setVine_keeps (Keeps.refl s))))

theorem execVineSignalsReturn_goes {t : Nat} {phase : Int} {s : State} : OGoes s
    (execVineSignalsReturn t phase s) :=
  happens_goes fun s => Keeps.ite (Keeps.refl s) (State.loopUpdate_keeps (State.setVine_keeps (Keeps.refl s)))

/-! ### The time-interval unit -/

theorem execTiuEdge_goes {t channel : Nat} {levels : List Int} {fraction : Nat} {unsettled : Bool} {s : State} :
    OGoes s (execTiuEdge t channel levels fraction unsettled s) :=
  happens_goes fun s => by
    refine Keeps.ite (Keeps.refl s) ?_
    extract_lets s1 x time
    have h1 : Keeps s s1 := Keeps.ite (State.tiuSuspect_keeps (Keeps.refl s)) (Keeps.refl s)
    exact Keeps.ite (Keeps.ite (State.heldEdge_keeps (State.setTiu_keeps h1)) (State.setTiu_keeps h1))
      (Keeps.ite (Keeps.foldl (fun _ _ => State.tiuEdge_keeps) (State.setTiu_keeps h1)) h1)

theorem execStatsBlockComplete_goes {t channel : Nat} {s : State} : OGoes s (execStatsBlockComplete t channel s) :=
  happens_goes fun s => by
    extract_lets x
    split
    · exact Keeps.refl s
    · exact State.tiuRest_keeps (Keeps.ite (State.setTiu_keeps (Keeps.refl s)) (Keeps.ite
        (State.setTiu_keeps (Keeps.refl s)) (State.eventAt_keeps (State.setTiu_keeps (Keeps.refl s)))))

theorem execTiuStatsIntervalClose_goes {t channel : Nat} {s : State} : OGoes s
    (execTiuStatsIntervalClose t channel s) :=
  happens_goes fun s => by
    extract_lets x
    split
    · exact Keeps.refl s
    · refine Keeps.ite (Keeps.refl s) ?_
      split
      · exact State.eventAt_keeps (State.setTiu_keeps (Keeps.refl s))
      · exact State.setTiu_keeps (Keeps.refl s)

theorem execInterpolatorRotationStep_goes {t group : Nat} {s : State} : OGoes s
    (execInterpolatorRotationStep t group s) :=
  happens_goes fun s => Keeps.ite (Keeps.refl s) (State.calServed_keeps (State.calTrim_keeps
    (State.setTiuGroup_keeps (Keeps.refl s))))

theorem execInterpolatorFailure_goes {t group unit : Nat} {s : State} : OGoes s
    (execInterpolatorFailure t group unit s) :=
  happens_goes fun s => State.tiuFail_keeps (Keeps.refl s)

theorem execTiuScheduledStart_goes {t channel : Nat} {s : State} : OGoes s (execTiuScheduledStart t channel s) :=
  happens_goes fun s => by
    split
    · exact Keeps.refl s
    · exact Keeps.ite (State.finish_keeps (Keeps.foldl (fun _ _ k => State.setTiu_keeps k) (Keeps.refl s)))
        (Keeps.refl s)

/-! ### Comparators and the monitor converter -/

theorem execComparatorChange_goes {t comp : Nat} {input : Int} {s : State} : OGoes s
    (execComparatorChange t comp input () s) :=
  happens_goes fun s => Keeps.ite (State.evaluate_keeps (Keeps.refl s)) (Keeps.refl s)

theorem execM3Tick_goes {t comp : Nat} {input : Int} {s : State} : OGoes s (execM3Tick t comp input () s) :=
  happens_goes fun s => Keeps.ite (Keeps.refl s) (State.evaluate_keeps (State.setComp_keeps (Keeps.refl s)))

theorem execBlankingWindowClose_goes {t comp : Nat} {s : State} : OGoes s (execBlankingWindowClose t comp s) :=
  happens_goes fun s => by
    extract_lets c
    split
    · exact Keeps.refl s
    · have h1 (x : Comparator) : Keeps s (s.setComp comp x) := State.setComp_keeps (Keeps.refl s)
      exact Keeps.ite (Keeps.refl s) (Keeps.ite (State.forward_keeps (State.compStamped_keeps (h1 _))) (h1 _))

theorem execComparatorEventIntervalClose_goes {t comp : Nat} {s : State} : OGoes s
    (execComparatorEventIntervalClose t comp s) :=
  happens_goes fun s => by
    dsimp only
    split
    · exact Keeps.refl s
    · exact Keeps.ite (Keeps.refl s) (Keeps.ite (State.setComp_keeps (Keeps.refl s))
        (State.eventAt_keeps (State.setComp_keeps (Keeps.refl s))))

theorem execWakeRequest_goes {t : Nat} {s : State} : OGoes s (execWakeRequest t s) :=
  happens_goes fun s => Keeps.ite (Keeps.refl s) (Keeps.upd (State.setMon_keeps (Keeps.refl s)) rfl)

theorem execComparatorThresholdApply_goes {t comp readback : Nat} {s : State} : OGoes s
    (execComparatorThresholdApply t comp readback s) :=
  happens_goes fun s => Keeps.ite (Keeps.refl s) (State.finishAll_keeps _ (State.setComp_keeps (Keeps.refl s)))

theorem execMonScheduledStart_goes {t : Nat} {s : State} : OGoes s (execMonScheduledStart t s) :=
  happens_goes fun s => by
    split
    · exact Keeps.refl s
    · exact Keeps.ite (State.finish_keeps (State.setMon_keeps (Keeps.refl s))) (Keeps.refl s)

theorem execConversionComplete_goes {t code outside : Nat} {s : State} : OGoes s
    (execConversionComplete t code outside s) :=
  happens_goes fun s => by
    refine Keeps.ite (Keeps.refl s) ?_
    extract_lets v m1 s1 x result s2
    have h1 : Keeps s s1 := State.setMon_keeps (Keeps.refl s)
    have h2 : Keeps s s2 := Keeps.ite h1 (Keeps.ite (State.monResult_keeps h1)
      (State.monNextEntry_keeps (State.monResult_keeps h1)))
    exact Keeps.ite (State.monRest_keeps h2) h2

theorem execEntryDelayExpiry_goes {t : Nat} {s : State} : OGoes s (execEntryDelayExpiry t s) :=
  happens_goes fun s => Keeps.ite (State.setMon_keeps (Keeps.refl s)) (Keeps.refl s)

theorem execRecoveryConversion_goes {t : Nat} {s : State} : OGoes s (execRecoveryConversion t s) :=
  happens_goes fun s => Keeps.ite (Keeps.refl s) (Keeps.ite (State.monRest_keeps (State.setMon_keeps
    (Keeps.refl s))) (State.setMon_keeps (Keeps.refl s)))

theorem execHousekeepingConversion_goes {t : Nat} {s : State} : OGoes s (execHousekeepingConversion t s) :=
  happens_goes fun s => Keeps.ite (State.setMon_keeps (Keeps.refl s)) (Keeps.ite (Keeps.refl s) (Keeps.ite
    (State.setMon_keeps (Keeps.refl s)) (Keeps.ite (State.setMon_keeps (Keeps.refl s)) (Keeps.refl s))))

theorem execReferenceSettled_goes {t : Nat} {s : State} : OGoes s (execReferenceSettled t s) :=
  happens_goes fun s => Keeps.ite (State.setMon_keeps (Keeps.refl s)) (Keeps.refl s)

/-! ### Racking -/

theorem execDescriptorFetched_goes {t flow : Nat} {bytes : List Byte} {index : List Nat} {s : State} : OGoes s
    (execDescriptorFetched t flow bytes index s) :=
  happens_goes fun s => by
    extract_lets x next
    clear_value next
    rcases next with _ | ⟨⟨addr, left⟩, rest⟩
    · exact Keeps.refl s
    · refine Keeps.ite (Keeps.refl s) ?_
      extract_lets b list d chain s1 s2 s3
      have h1 : Keeps s s1 := State.setFlow_keeps (Keeps.refl s)
      have h2 : Keeps s s2 := Keeps.ite h1 (State.emit_keeps h1)
      have h3 : Keeps s s3 := Keeps.ite (State.emit_keeps h2) h2
      exact Keeps.ite (State.flowSettle_keeps h3) (State.flowStart_keeps h3)

theorem execProducerUnitArrival_goes {t flow : Nat} {s : State} : OGoes s (execProducerUnitArrival t flow s) :=
  happens_goes fun s => by
    extract_lets x posted
    split
    · exact Keeps.refl s
    · refine Keeps.ite (Keeps.refl s) ?_
      extract_lets s1 s2
      have h2 : Keeps s s2 := State.setFlow_keeps (Keeps.upd (Keeps.refl s) rfl)
      exact Keeps.ite (State.flowAccepted_keeps h2) h2

theorem execBurstAdmission_goes {t : Nat} {s : State} : OGoes s (execBurstAdmission t s) :=
  happens_goes fun s => by
    refine Keeps.ite (Keeps.refl s) ?_
    split
    · exact Keeps.refl s
    · split
      · exact Keeps.refl s
      · exact State.flowSettle_keeps (State.issueBurst_keeps (Keeps.upd (Keeps.refl s) rfl))

theorem execBurstCompletion_goes {t flow offset : Nat} {data : List Byte} {s : State} : OGoes s
    (execBurstCompletion t flow offset data s) :=
  happens_goes fun s => State.burstDone_keeps (Keeps.refl s)

theorem execBurstError_goes {t flow offset : Nat} {s : State} : OGoes s (execBurstError t flow offset s) :=
  happens_goes fun s => State.burstFails_keeps (Keeps.refl s)

theorem execHostReadTimeout_goes {t flow : Nat} {s : State} : OGoes s (execHostReadTimeout t flow s) :=
  happens_goes fun s => by
    extract_lets x
    split
    · exact Keeps.refl s
    · exact Keeps.ite (Keeps.refl s) (Keeps.foldl (fun _ _ => State.burstFails_keeps) (Keeps.refl s))

/-! ### The stream ports -/

theorem execPacketTransmit_goes {t port flow : Nat} {s : State} : OGoes s (execPacketTransmit t port flow s) :=
  happens_goes fun s => by
    extract_lets x
    split
    · exact Keeps.refl s
    · refine Keeps.ite (Keeps.refl s) ?_
      split
      · exact Keeps.refl s
      · exact Keeps.ite (Keeps.refl s) (State.sendPacket_keeps (State.setPort_keeps (State.setFlow_keeps
            (Keeps.refl s))))

theorem execPacketFlushTimeout_goes {t flow : Nat} {s : State} : OGoes s (execPacketFlushTimeout t flow s) :=
  happens_goes fun s => by
    dsimp only
    split
    · exact Keeps.refl s
    · exact Keeps.ite (Keeps.refl s) (State.setFlow_keeps (Keeps.refl s))

theorem execHeartbeatTimer_goes {t port : Nat} {s : State} : OGoes s (execHeartbeatTimer t port s) :=
  happens_goes fun s => Keeps.ite (Keeps.refl s) (State.emit_keeps (State.setPort_keeps (Keeps.refl s)))

theorem execArpRequestReceived_goes {t port : Nat} {senderMac senderIp target : List Byte} {s : State} : OGoes s
    (execArpRequestReceived t port senderMac senderIp target s) :=
  happens_goes fun s => Keeps.ite (Keeps.refl s) (Keeps.ite (State.discardFrame_keeps (Keeps.refl s))
    (State.answerFrame_keeps (Keeps.refl s)))

theorem execNeighbourSolicitationReceived_goes {t port : Nat} {senderMac senderIp target : List Byte} {s : State}
    : OGoes s (execNeighbourSolicitationReceived t port senderMac senderIp target s) :=
  happens_goes fun s => Keeps.ite (Keeps.refl s) (Keeps.ite (State.discardFrame_keeps (Keeps.refl s))
    (State.answerFrame_keeps (Keeps.refl s)))

theorem execPauseFrameReceived_goes {t port : Nat} {s : State} : OGoes s (execPauseFrameReceived t port s) :=
  happens_goes fun s => Keeps.ite (Keeps.refl s) (State.setPort_keeps (Keeps.refl s))

theorem execOtherFrameReceived_goes {t port : Nat} {s : State} : OGoes s (execOtherFrameReceived t port s) :=
  happens_goes fun s => Keeps.ite (Keeps.refl s) (State.discardFrame_keeps (Keeps.refl s))

theorem execPortFailure_goes {t port cause : Nat} {s : State} : OGoes s (execPortFailure t port cause s) :=
  happens_goes fun s => Keeps.ite (State.portFail_keeps (Keeps.refl s)) (Keeps.refl s)

theorem execPortLinkUp_goes {t port : Nat} {s : State} : OGoes s (execPortLinkUp t port s) :=
  happens_goes fun s => Keeps.ite (State.finishAll_keeps _ (State.setPort_keeps (Keeps.refl s))) (Keeps.refl s)

/-! ### The display engine -/

theorem execLatchLine_goes {t : Nat} {s : State} : OGoes s (execLatchLine t s) :=
  happens_goes fun s => by
    refine Keeps.ite (Keeps.refl s) ?_
    extract_lets held s1 s2 s3
    have h2 : Keeps s s2 := State.event_keeps (State.latchSettings_keeps (State.setDisp_keeps (Keeps.refl s)))
    have h3 : Keeps s s3 := by
      refine Keeps.ite h2 ?_
      split
      · exact State.occApplied_keeps (State.dispTake_keeps h2)
      · exact h2
    exact State.settingsDone_keeps (State.latchOverlay_keeps h3)

theorem execMatchLineReached_goes {t : Nat} {s : State} : OGoes s (execMatchLineReached t s) :=
  happens_goes fun s => Keeps.ite (State.event_keeps (State.setDisp_keeps (Keeps.refl s))) (Keeps.refl s)

theorem execFrameEnd_goes {t : Nat} {s : State} : OGoes s (execFrameEnd t s) :=
  happens_goes fun s => by
    refine Keeps.ite (Keeps.refl s) ?_
    extract_lets lines s1
    have h1 : Keeps s s1 := Keeps.ite (Keeps.refl s) (State.event_keeps (State.emit_keeps (State.setDisp_keeps
        (Keeps.refl s))))
    exact Keeps.ite (State.dispRest_keeps h1) h1

theorem execLineUnderrun_goes {t line : Nat} {s : State} : OGoes s (execLineUnderrun t line s) :=
  happens_goes fun s => Keeps.ite (Keeps.refl s) (Keeps.ite (State.event_keeps (State.setDisp_keeps
    (Keeps.refl s))) (State.setDisp_keeps (Keeps.refl s)))

theorem execOverlayFetchFault_goes {t line : Nat} {s : State} : OGoes s (execOverlayFetchFault t line s) :=
  happens_goes fun s => Keeps.ite (Keeps.refl s) (State.layerFault_keeps (State.setDisp_keeps (Keeps.refl s)))

theorem execGenlockEdge_goes {t : Nat} {locked : Bool} {s : State} : OGoes s (execGenlockEdge t locked s) :=
  happens_goes fun s => Keeps.ite (Keeps.refl s) (Keeps.ite (State.finishAll_keeps _ (State.setDisp_keeps
    (Keeps.refl s))) (Keeps.ite (State.setDisp_keeps (Keeps.refl s)) (Keeps.refl s)))

theorem execGenlockLost_goes {t : Nat} {s : State} : OGoes s (execGenlockLost t s) :=
  happens_goes fun s => Keeps.ite (State.setDisp_keeps (Keeps.refl s)) (Keeps.refl s)

theorem execHpdUnplug_goes {t : Nat} {s : State} : OGoes s (execHpdUnplug t s) :=
  happens_goes fun s => Keeps.ite (State.setDisp_keeps (Keeps.refl s)) (Keeps.ite (State.dispRest_keeps
    (State.setDisp_keeps (Keeps.refl s))) (State.setDisp_keeps (Keeps.refl s)))

theorem execHpdReturn_goes {t : Nat} {s : State} : OGoes s (execHpdReturn t s) :=
  happens_goes fun s => State.setDisp_keeps (Keeps.refl s)

theorem execDpLinkTrained_goes {t lanes rate : Nat} {s : State} : OGoes s (execDpLinkTrained t lanes rate s) :=
  happens_goes fun s => by
    exact Keeps.ite (Keeps.refl s) (Keeps.ite (Keeps.ite (Keeps.refl s) (State.finishAll_keeps _ (State.dispRest_keeps
      (Keeps.refl s)))) (State.finishAll_keeps _ (State.settingsDone_keeps (State.latchOverlay_keeps
        (State.latchSettings_keeps (State.setDisp_keeps (Keeps.refl s)))))))

theorem execScanoutMismatch_goes {t copy : Nat} {s : State} : OGoes s (execScanoutMismatch t copy s) :=
  happens_goes fun s => State.scanoutFail_keeps (Keeps.refl s)

/-! ### Sorrel cores -/

theorem execInputBlockArrival_goes {t core port index : Nat} {mapped : Bool} {codes : List Int} {s : State} :
    OGoes s (execInputBlockArrival t core port index mapped () () () codes s) :=
  happens_goes fun s => by
    refine Keeps.ite (Keeps.refl s) ?_
    split
    · exact Keeps.refl s
    · exact Keeps.ite (State.setCore_keeps (Keeps.refl s))
        (State.setCore_keeps (State.keepCellar_keeps (Keeps.refl s) ringWrite_wf))

theorem execActivationCreditExhausted_goes {t core : Nat} {s : State} : OGoes s
    (execActivationCreditExhausted t core s) :=
  happens_goes fun s => Keeps.ite (State.setCore_keeps (Keeps.refl s)) (Keeps.refl s)

theorem execSorrelForceMessage_goes {t core : Nat} {s : State} : OGoes s (execSorrelForceMessage t core s) :=
  happens_goes fun s => by
    extract_lets x
    split
    · extract_lets s1
      have h1 : Keeps s s1 := State.setCore_keeps (Keeps.refl s)
      exact Keeps.ite (Keeps.upd h1 rfl) (State.setCore_keeps h1)
    · exact Keeps.refl s

theorem execCoreFault_goes {t core : Nat} {quad : Bool} {s : State} : OGoes s (execCoreFault t core quad s) :=
  happens_goes fun s => Keeps.ite (Keeps.foldl (fun _ _ => State.coreFail_keeps) (Keeps.refl s))
    (State.coreFail_keeps (Keeps.refl s))

theorem execSorrelScheduledStart_goes {t core : Nat} {s : State} : OGoes s (execSorrelScheduledStart t core s) :=
  happens_goes fun s => by
    split
    · exact Keeps.ite (State.finishAll_keeps _ (State.coreStart_keeps (Keeps.refl s))) (Keeps.refl s)
    · exact Keeps.refl s

/-! ### Allotments and energy -/

theorem execBudgetPeriodBoundary_goes {t : Nat} {s : State} : OGoes s (execBudgetPeriodBoundary t s) :=
  happens_goes fun s => Keeps.ite (Keeps.refl s) (State.finishAll_keeps _ (State.finishAll_keeps _
    (State.setBud_keeps (Keeps.refl s))))

theorem execAgeingInterval_goes {t flow : Nat} {s : State} : OGoes s (execAgeingInterval t flow s) :=
  happens_goes fun s => Keeps.ite (Keeps.refl s) (State.setBud_keeps (Keeps.refl s))

theorem execLatencyTargetReached_goes {t kind object resource : Nat} {s : State} : OGoes s
    (execLatencyTargetReached t kind object resource s) :=
  happens_goes fun s => Keeps.ite (Keeps.refl s) (Keeps.ite (State.setBud_keeps (Keeps.ite (State.setFlow_keeps
    (Keeps.refl s)) (Keeps.refl s))) (State.event_keeps (State.setBud_keeps (Keeps.ite (State.setFlow_keeps
    (Keeps.refl s)) (Keeps.refl s)))))

theorem execUrgentIntervalClose_goes {t kind object : Nat} {s : State} : OGoes s
    (execUrgentIntervalClose t kind object s) :=
  happens_goes fun s => by
    extract_lets act
    split
    · exact Keeps.refl s
    · exact Keeps.ite (Keeps.refl s) (Keeps.ite (State.setBud_keeps (Keeps.refl s))
        (State.eventAt_keeps (State.setBud_keeps (Keeps.refl s))))

theorem execLedgerUpdate_goes {t power total : Nat} {energies : List (Nat × Nat)} {s : State} : OGoes s
    (execLedgerUpdate t power total energies s) :=
  happens_goes fun s => Keeps.ite (Keeps.refl s) (State.setBud_keeps (Keeps.refl s))

theorem execThrottleStageAdvance_goes {t : Nat} {s : State} : OGoes s (execThrottleStageAdvance t s) :=
  happens_goes fun s => Keeps.ite (State.enterStage_keeps (Keeps.refl s)) (Keeps.refl s)

theorem execThrottleStageRelease_goes {t : Nat} {s : State} : OGoes s (execThrottleStageRelease t s) :=
  happens_goes fun s => Keeps.ite (State.enterStage_keeps (Keeps.refl s)) (Keeps.refl s)

/-! ### The fast control window -/

theorem execUpdateStrobeWrite_goes {t mask : Nat} {s : State} : OGoes s (execUpdateStrobeWrite t mask s) :=
  happens_goes fun s => Keeps.ite (Keeps.foldl (@State.strobe_keeps s) (Keeps.refl s)) (Keeps.refl s)

theorem execStrobeOccurrenceApply_goes {t group : Nat} {unit : Option Nat} {vecs : List
    (Nat × Nat)} {s : State} : OGoes s (execStrobeOccurrenceApply t group unit vecs s) :=
  happens_goes fun s => by
    split
    · exact Keeps.refl s
    · exact Keeps.ite (Keeps.refl s) (State.occTaken_keeps (Keeps.foldl (fun _ _ => State.takeUnit_keeps)
          (Keeps.refl s)))

theorem execKeyUnlockWrite_goes {t fn value : Nat} {s : State} : OGoes s (execKeyUnlockWrite t fn value s) :=
  happens_goes fun s => Keeps.ite (State.setFunc_keeps (Keeps.refl s) rfl rfl) (Keeps.refl s)

theorem execFcwEnableWrite_goes {t value : Nat} {full : Bool} {s : State} : OGoes s
    (execFcwEnableWrite t value full s) :=
  happens_goes fun s => Keeps.ite (Keeps.refl s) (Keeps.ite (State.setFcw_keeps (State.setFunc_keeps
    (Keeps.refl s) rfl rfl)) (State.setFcw_keeps (Keeps.refl s)))

theorem execFcwStatusClear_goes {t value : Nat} {full : Bool} {s : State} : OGoes s
    (execFcwStatusClear t value full s) :=
  happens_goes fun s => Keeps.ite (Keeps.refl s) (State.setFcw_keeps (Keeps.refl s))

theorem execFcwResyncWrite_goes {t mask : Nat} {full : Bool} {s : State} : OGoes s
    (execFcwResyncWrite t mask full s) :=
  happens_goes fun s => Keeps.ite (Keeps.refl s) (Keeps.ite (State.setFcw_keeps (Keeps.refl s))
    (State.setFcw_keeps (Keeps.refl s)))

theorem execResyncComplete_goes {t : Nat} {s : State} : OGoes s (execResyncComplete t s) :=
  happens_goes fun s => Keeps.ite (State.setFcw_keeps (Keeps.foldl (@State.resyncGroup_keeps s) (Keeps.refl s)))
    (Keeps.refl s)

/-! ### The host windows -/

theorem execLockAliasRead_goes {t fn chan agent first width : Nat} {s : State} : OGoes s
    (execLockAliasRead t fn chan agent first width s) :=
  happens_goes fun s => Keeps.ite (Keeps.refl s) (Keeps.ite (State.emit_keeps (Keeps.refl s)) (State.emit_keeps
    (Keeps.ite (State.setChan_keeps (Keeps.refl s) rfl) (Keeps.refl s))))

theorem execLockAliasWrite_goes {t fn chan agent width : Nat} {s : State} : OGoes s
    (execLockAliasWrite t fn chan agent width s) :=
  happens_goes fun s => Keeps.ite (State.setChan_keeps (Keeps.refl s) rfl) (Keeps.refl s)

theorem execLockForcedRelease_goes {t fn chan value width : Nat} {s : State} : OGoes s
    (execLockForcedRelease t fn chan value width s) :=
  happens_goes fun s => Keeps.ite (State.setChan_keeps (Keeps.refl s) rfl) (Keeps.refl s)

theorem execChanStateClear_goes {t fn chan value : Nat} {full : Bool} {s : State} : OGoes s
    (execChanStateClear t fn chan value full s) :=
  happens_goes fun s => Keeps.ite (State.setChan_keeps (Keeps.refl s) rfl) (Keeps.refl s)

theorem execTimeLatchWrite_goes {t fn : Nat} {full : Bool} {s : State} : OGoes s
    (execTimeLatchWrite t fn full s) :=
  happens_goes fun s => Keeps.ite (State.setFunc_keeps (Keeps.refl s) rfl rfl) (Keeps.refl s)

theorem execRingConsWrite_goes {t fn : Nat} {completion : Bool} {ring value : Nat} {s : State} : OGoes s
    (execRingConsWrite t fn completion ring value s) :=
  happens_goes fun s => Keeps.ite (Keeps.refl s) (State.consWrite_keeps (Keeps.refl s))

theorem execRingOverflowClear_goes {t fn ring value : Nat} {full : Bool} {s : State} : OGoes s
    (execRingOverflowClear t fn ring value full s) :=
  happens_goes fun s => Keeps.ite (State.setFunc_keeps (Keeps.refl s) rfl rfl) (Keeps.refl s)

theorem execRingCoalesceTimeout_goes {t fn : Nat} {completion : Bool} {ring : Nat} {s : State} : OGoes s
    (execRingCoalesceTimeout t fn completion ring s) :=
  happens_goes fun s => Keeps.ite (State.signalRing_keeps (Keeps.refl s)) (Keeps.refl s)

theorem execRegisterWrite_goes {t fn offset : Nat} {bytes : List Byte} {s : State} : OGoes s
    (execRegisterWrite t fn offset bytes s) :=
  happens_goes fun s => Keeps.ite (Keeps.upd (Keeps.refl s) rfl) (Keeps.ite (State.writeRegs_keeps
    (Keeps.refl s)) (Keeps.ite (State.msixRelease_keeps (State.writeConfig_keeps (Keeps.refl s))) (Keeps.refl s)))

theorem execApertureRead_goes {t addr length : Nat} {s : State} : OGoes s (execApertureRead t addr length s) :=
  happens_goes fun s => Keeps.ite (State.chargeAperture_keeps (State.emit_keeps (Keeps.refl s))) (Keeps.refl s)

theorem execApertureWrite_goes {t addr : Nat} {bytes : List Byte} {s : State} : OGoes s
    (execApertureWrite t addr bytes s) :=
  happens_goes fun s => Keeps.ite (State.chargeAperture_keeps (State.apertureWrite_keeps (Keeps.refl s)))
    (Keeps.refl s)

/-! ### Mailbox channels -/

theorem execDoorbellWrite_goes {t fn chan value : Nat} {hostBytes : List Byte} {s : State} : OGoes s
    (execDoorbellWrite t fn chan value hostBytes s) :=
  happens_goes fun s => Keeps.ite (Keeps.refl s) (Keeps.ite (State.setChan_keeps (Keeps.refl s) rfl) (Keeps.ite
    (State.setChan_keeps (Keeps.refl s) rfl) (State.serveChan_keeps (State.readPayload_keeps (State.setChan_keeps
    (Keeps.refl s) rfl)))))

theorem execServicePairWake_goes {t pair : Nat} {s : State} : OGoes s (execServicePairWake t pair s) :=
  happens_goes fun s => State.serveChans_keeps (Keeps.upd (Keeps.refl s) rfl)

theorem execServicePairSleep_goes {t pair : Nat} {s : State} : OGoes s (execServicePairSleep t pair s) :=
  happens_goes fun s => Keeps.ite (Keeps.upd (Keeps.refl s) rfl) (Keeps.refl s)

theorem execCommandTimeout_goes {t fn tag : Nat} {s : State} : OGoes s (execCommandTimeout t fn tag s) :=
  happens_goes fun s => by
    split
    · exact Keeps.refl s
    · refine Keeps.ite (Keeps.refl s) ?_
      split
      · next s1 h1 => exact State.finish_keeps (State.unstart_keeps (Keeps.refl s) h1)
      · exact Keeps.refl s

theorem execSysHello_goes {t fn tag : Nat} {s : State} : OGoes s (execSysHello t fn tag s) :=
  happens_goes fun s => by
    split
    · exact Keeps.refl s
    · exact Keeps.ite (Keeps.refl s) (Keeps.ite (State.ack_keeps (Keeps.refl s)) (Keeps.ite (State.ack_keeps
          (Keeps.refl s))
        (Keeps.ite (State.ack_keeps (Keeps.refl s)) (Keeps.ite (State.ack_keeps (Keeps.refl s))
          (State.ack_keeps (State.writeResult_keeps (State.withSession_keeps (Keeps.refl s))))))))

theorem execSysSetEventRing_goes {t fn tag : Nat} {s : State} : OGoes s (execSysSetEventRing t fn tag s) :=
  happens_goes fun s => by
    split
    · exact Keeps.refl s
    · have hk (n : Nat) (st : Status) (tag : Nat) : Keeps s (s.ack fn n st tag) := State.ack_keeps (Keeps.refl s)
      exact Keeps.ite (Keeps.refl s) (Keeps.ite (hk ..) (Keeps.ite (hk ..) (Keeps.ite (hk ..) (Keeps.ite (hk ..)
        (Keeps.ite (State.ack_keeps (State.ringOff_keeps (Keeps.refl s))) (Keeps.ite (hk ..)
          (State.ack_keeps (State.ringOn_keeps (Keeps.refl s)))))))))

/-! ### Trellis -/

theorem execCodewordBoundaryFound_goes {t lane : Nat} {words : List (List Nat × List
    (Nat × Nat))} {s : State} : OGoes s (execCodewordBoundaryFound t lane words s) :=
  happens_goes fun s => by
    split
    · exact Keeps.ite (Keeps.refl s) (State.laneUp_keeps (Keeps.refl s))
    · exact Keeps.refl s

theorem execLaneDown_goes {t lane : Nat} {upstream : Bool} {s : State} : OGoes s
    (execLaneDown t lane upstream s) :=
  happens_goes fun s => State.laneDown_keeps (Keeps.refl s)

theorem execDeviceLost_goes {t device : Nat} {s : State} : OGoes s (execDeviceLost t device s) :=
  happens_goes fun s => State.peLoseBoth_keeps (Keeps.refl s)

theorem execSidePortFailure_goes {t pair : Nat} {s : State} : OGoes s (execSidePortFailure t pair s) :=
  happens_goes fun s => State.sideFail_keeps (Keeps.refl s)

theorem execMarkerCodeword_goes {t : Nat} {s : State} : OGoes s (execMarkerCodeword t s) :=
  happens_goes fun s => by
    refine Keeps.ite (Keeps.refl s) (State.stimBeat_keeps (State.finishDiscover_keeps (State.peResets_keeps
      (Keeps.foldl (fun a n k => ?_) (Keeps.refl s)))))
    extract_lets d a1 a2
    have h1 : Keeps s a1 := Keeps.ite (State.event_keeps (State.peMode_keeps (State.setPe_keeps k))) k
    have h2 : Keeps s a2 := by
      unfold a2
      split
      · exact Keeps.ite (State.peGiveUp_keeps h1) h1
      · exact h1
    exact Keeps.ite (State.emit_keeps h2) h2

theorem execReliableResendTimeout_goes {t device : Nat} {s : State} : OGoes s
    (execReliableResendTimeout t device s) :=
  happens_goes fun s => Keeps.ite (State.peResend_keeps (Keeps.refl s)) (Keeps.refl s)

theorem execUpstreamCodeword_goes {t lane : Nat} {levels : List Nat} {errors : List
    (Nat × Nat)} {s : State} : OGoes s (execUpstreamCodeword t lane levels errors () () s) :=
  happens_goes fun s => by
    refine Keeps.ite (Keeps.refl s) ?_
    split
    · exact State.countBad_keeps (State.badFrame_keeps (Keeps.refl s))
    · extract_lets header s1 d frames d' s2
      have h2 : Keeps s s2 :=
        State.laneUp_keeps (sendWaiting_keeps (State.setPe_keeps (State.countBad_keeps (Keeps.refl s))))
      exact Keeps.ite (State.laneDown_keeps h2) h2

theorem execIdleFrame_goes {t lane : Nat} {frame : List Byte} {s : State} : OGoes s
    (execIdleFrame t lane frame s) :=
  happens_goes fun s => by
    exact State.onFrame_keeps _ (fun _ _ _ k => k) (Keeps.refl s)

theorem execIdentFrame_goes {t lane : Nat} {frame : List Byte} {s : State} : OGoes s
    (execIdentFrame t lane frame s) :=
  happens_goes fun s => by
    exact State.onFrame_keeps _ (fun _ _ _ k => State.peServe_keeps (sendWaiting_keeps (State.setPe_keeps k)))
        (Keeps.refl s)

theorem execLoopReplyFrame_goes {t lane : Nat} {frame : List Byte} {rtt : Nat} {s : State} : OGoes s
    (execLoopReplyFrame t lane frame rtt s) :=
  happens_goes fun s => State.onFrame_keeps _ (fun _ _ _ => State.loopReply_keeps) (Keeps.refl s)

theorem execFailFrame_goes {t lane : Nat} {frame : List Byte} {s : State} : OGoes s
    (execFailFrame t lane frame s) :=
  happens_goes fun s => State.onFrame_keeps _ (fun _ _ _ => Keeps.foldl fun _ _ => State.failRecord_keeps)
    (Keeps.refl s)

theorem execCaptureFrame_goes {t lane : Nat} {frame : List Byte} {s : State} : OGoes s
    (execCaptureFrame t lane frame s) :=
  happens_goes fun s => State.onFrame_keeps _ (fun _ _ _ => Keeps.foldl fun _ _ k => Keeps.ite k
    (State.capRecord_keeps k)) (Keeps.refl s)

theorem execProgressFrame_goes {t lane : Nat} {frame : List Byte} {s : State} : OGoes s
    (execProgressFrame t lane frame s) :=
  happens_goes fun s => by
    exact State.onFrame_keeps _ (fun _ _ _ k => Keeps.ite k
      (State.siteSettle_keeps (State.capHeaders_keeps (State.setSite_keeps (State.setPe_keeps k))))) (Keeps.refl s)

theorem execMatchFrame_goes {t lane : Nat} {frame : List Byte} {s : State} : OGoes s
    (execMatchFrame t lane frame s) :=
  happens_goes fun s => by
    refine State.onFrame_keeps _ (fun n p a k => ?_) (Keeps.refl s)
    dsimp only
    split
    · exact k
    · exact Keeps.ite (State.setSite_keeps k) (State.setSite_keeps k)

theorem execReceiptFrame_goes {t lane : Nat} {frame : List Byte} {vecs : List (Nat × Nat)} {s : State} : OGoes s
    (execReceiptFrame t lane frame vecs s) :=
  happens_goes fun s => by
    refine State.onFrame_keeps _ (fun n p a k => State.finishWrites_keeps (Keeps.foldl (fun b r k => ?_) k))
        (Keeps.refl s)
    have h1 (d : PeDev) : Keeps s (b.setPe n d) := State.setPe_keeps k
    exact Keeps.ite k (Keeps.ite (State.bulkRewind_keeps (h1 _)) (Keeps.ite (State.refillChannel_keeps (h1 _))
      (Keeps.ite (State.setPe_keeps (h1 _)) (h1 _))))

theorem execEventFrame_goes {t lane : Nat} {frame : List Byte} {index : Nat} {s : State} : OGoes s
    (execEventFrame t lane frame index s) :=
  happens_goes fun s => by
    exact State.onFrame_keeps _ (fun _ _ _ k => Keeps.ite (State.siteAsk_keeps k) k) (Keeps.refl s)

theorem execCountersFrame_goes {t lane : Nat} {frame : List Byte} {s : State} : OGoes s
    (execCountersFrame t lane frame s) :=
  happens_goes fun s => by
    exact State.onFrame_keeps _ (fun _ _ _ k => Keeps.ite (State.countersIn_keeps (State.setPe_keeps k))
      (State.setPe_keeps k)) (Keeps.refl s)

theorem execFaultFrame_goes {t lane : Nat} {frame : List Byte} {s : State} : OGoes s
    (execFaultFrame t lane frame s) :=
  happens_goes fun s => State.onFrame_keeps _ (fun _ _ _ => State.peLoseBoth_keeps) (Keeps.refl s)

/-! ### Function resets, the PCIe link and standby -/

theorem execPerstNAssert_goes {t : Nat} {s : State} : OGoes s (execPerstNAssert t s) :=
  happens_goes fun s => by
    have h1 : Keeps s ((s.resetFn 0).resetFn 1).linkDown :=
      State.linkDown_keeps (State.resetFn_keeps (State.resetFn_keeps (Keeps.refl s)))
    refine State.leaveStandby_keeps ?_
    with_reducible exact Keeps.upd h1 rfl

theorem execPerstNRelease_goes {t : Nat} {s : State} : OGoes s (execPerstNRelease t s) :=
  happens_goes fun s => Keeps.upd (Keeps.refl s) rfl

theorem execHotReset_goes {t : Nat} {s : State} : OGoes s (execHotReset t s) :=
  happens_goes fun s => State.leaveStandby_keeps (State.linkDown_keeps (State.resetFn_keeps (State.resetFn_keeps
    (Keeps.refl s))))

theorem execFunctionLevelReset_goes {t fn : Nat} {s : State} : OGoes s (execFunctionLevelReset t fn s) :=
  happens_goes fun s => Keeps.ite (State.resetFn_keeps (Keeps.refl s)) (Keeps.refl s)

theorem execLinkL0Reached_goes {t width speed : Nat} {s : State} : OGoes s (execLinkL0Reached t width speed s) :=
  happens_goes fun s => Keeps.ite (Keeps.refl s) (State.flushAll_keeps (State.flushAll_keeps (Keeps.upd
    (Keeps.refl s) rfl)))

theorem execPcieLaneFailure_goes {t : Nat} {lanes : List Nat} {width : Nat} {s : State} : OGoes s
    (execPcieLaneFailure t lanes width s) :=
  happens_goes fun s => Keeps.foldl (fun _ _ => State.pcieLaneFail_keeps) (Keeps.refl s)

theorem execFunctionD3hot_goes {t fn : Nat} {linkL2 : Bool} {s : State} : OGoes s
    (execFunctionD3hot t fn linkL2 s) :=
  happens_goes fun s => by
    refine Keeps.ite (Keeps.refl s) ?_
    extract_lets f s1 host s2
    have h1 : Keeps s s1 := State.setFunc_keeps (Keeps.refl s) rfl rfl
    have h2 : Keeps s s2 := Keeps.ite (Keeps.upd h1 rfl) h1
    exact Keeps.ite (State.enterStandby_keeps h2) h2

theorem execFunctionD0_goes {t fn : Nat} {s : State} : OGoes s (execFunctionD0 t fn s) :=
  happens_goes fun s => Keeps.ite (Keeps.refl s) (State.leaveStandby_keeps (State.setFunc_keeps
    (Keeps.refl s) rfl rfl))

theorem execStandbyWake_goes {t bits : Nat} {s : State} : OGoes s (execStandbyWake t bits s) :=
  happens_goes fun s => Keeps.ite (Keeps.foldl (@State.wakeBit_keeps s) (Keeps.ite (State.leaveStandby_keeps
    (Keeps.refl s)) (Keeps.refl s))) (Keeps.ite (State.leaveStandby_keeps (Keeps.refl s)) (Keeps.refl s))

/-! ### Supply, bring-up and thermal limits -/

theorem execFeedPresent_goes {t : Nat} {feedB : Bool} {s : State} : OGoes s (execFeedPresent t feedB s) :=
  anywhere_goes fun s => Keeps.ite (State.rise_keeps (State.setFeed_keeps (Keeps.refl s))) (Keeps.refl s)

theorem execFeedLost_goes {t : Nat} {feedB : Bool} {s : State} : OGoes s (execFeedLost t feedB s) :=
  anywhere_goes fun s => Keeps.ite (Keeps.refl s) (Keeps.ite (State.cold_keeps (State.setFeed_keeps
    (Keeps.refl s))) (Keeps.ite (State.setFeed_keeps (Keeps.refl s)) (State.faultIn_keeps (State.setAlert_keeps
    (State.setFeed_keeps (Keeps.refl s))))))

theorem execFeedRestored_goes {t : Nat} {feedB : Bool} {s : State} : OGoes s (execFeedRestored t feedB s) :=
  anywhere_goes fun s => Keeps.ite (Keeps.refl s) (Keeps.ite (State.restoreUnit_keeps (State.setAlert_keeps
    (State.setFeed_keeps (Keeps.refl s)))) (State.setFeed_keeps (Keeps.refl s)))

theorem execShutdownNLow_goes {t : Nat} {s : State} : OGoes s (execShutdownNLow t s) :=
  anywhere_goes fun s => Keeps.ite (State.cold_keeps (Keeps.upd (Keeps.refl s) rfl)) (Keeps.upd (Keeps.refl s) rfl)

theorem execShutdownNRise_goes {t : Nat} {s : State} : OGoes s (execShutdownNRise t s) :=
  anywhere_goes fun s => Keeps.ite (State.rise_keeps (Keeps.upd (Keeps.refl s) rfl)) (Keeps.upd (Keeps.refl s) rfl)

theorem execPowerGood_goes {t : Nat} {s : State} : OGoes s (execPowerGood t s) :=
  anywhere_goes fun s => Keeps.ite (State.powerGood_keeps (Keeps.refl s)) (Keeps.refl s)

theorem execSecureBoot_goes {t : Nat} {verified : List Nat} {carrier : List Byte} {s : State} : OGoes s
    (execSecureBoot t verified carrier s) :=
  happens_goes fun s => by
    refine Keeps.ite (Keeps.refl s) ?_
    extract_lets a host s1 sec boot
    have h1 : Keeps s s1 := Keeps.upd (Keeps.refl s) rfl
    have hboot (k : Nat) (fallback : Bool) : Keeps s (boot k fallback) := Keeps.upd h1 rfl
    exact State.stewardUp_keeps (Keeps.ite (hboot ..) (Keeps.ite (hboot ..) (Keeps.upd h1 rfl)))

theorem execSynthLockDetected_goes {t source : Nat} {s : State} : OGoes s (execSynthLockDetected t source s) :=
  happens_goes fun s => by
    refine Keeps.ite (Keeps.ite (Keeps.refl s) ?_) (Keeps.ite ?_ (Keeps.refl s))
    · have h1 (n : Nat) : Keeps s (s.setSample n .locked).sampleFirst :=
        State.sampleFirst_keeps (State.setSample_keeps (Keeps.refl s))
      exact Keeps.ite (State.raiseReady_keeps (h1 _)) (h1 _)
    · dsimp only
      split
      · exact Keeps.ite (Keeps.ite (State.finishZero_keeps (State.setSynth_keeps (State.vcZero_keeps (Keeps.refl s))))
          (State.finishGen_keeps (State.setSynth_keeps (Keeps.refl s)))) (Keeps.refl s)
      · exact Keeps.ite (Keeps.refl s) (State.setSynth_keeps (Keeps.refl s))
      · exact Keeps.refl s

theorem execFunctionReady_goes {t readyBit : Nat} {values : List Nat} {mems : List
    (Nat × List Byte)} {stuck : List Nat} {s : State} : OGoes s (execFunctionReady t readyBit values
    () mems stuck s) :=
  happens_goes fun s => by
    refine Keeps.ite (Keeps.refl s) ?_
    extract_lets resets s1 s2 s3 s4 s5 s6
    have h2 : Keeps s s2 := State.served_keeps (Keeps.foldl (fun _ _ => State.freshFor_keeps) (Keeps.refl s))
    have h3 : Keeps s s3 := Keeps.ite (State.calibrated_keeps h2) h2
    have h4 : Keeps s s4 := Keeps.ite (State.discoverAll_keeps (State.scanBuses_keeps h3)) h3
    have h5 : Keeps s s5 := State.event_keeps (State.setReady_keeps h4)
    exact State.finishResets_keeps (Keeps.ite (State.calDone_keeps h5) h5)

theorem execReadyTimeout_goes {t readyBit cls pool unit detail : Nat} {s : State} : OGoes s
    (execReadyTimeout t readyBit cls pool unit detail s) :=
  happens_goes fun s => by
    refine Keeps.ite (Keeps.refl s) ?_
    extract_lets pw s1 u i s2 s3
    have h1 : Keeps s s1 := Keeps.upd (Keeps.refl s) rfl
    have h2 : Keeps s s2 := Keeps.ite (Keeps.ite h1 (State.faultUnmasked_keeps h1)) (State.outOfScope_keeps h1)
    exact State.finishAll_keeps _ (Keeps.ite (State.discoverAll_keeps h2) h2)

theorem execAliveToggle_goes {t : Nat} {s : State} : OGoes s (execAliveToggle t s) :=
  happens_goes fun s => Keeps.ite (Keeps.upd (Keeps.refl s) rfl) (Keeps.refl s)

theorem execThermalWarning_goes {t : Nat} {s : State} : OGoes s (execThermalWarning t s) :=
  happens_goes fun s => State.setAlert_keeps (Keeps.refl s)

theorem execThermalThrottleStep_goes {t : Nat} {hot : Bool} {s : State} : OGoes s
    (execThermalThrottleStep t hot s) :=
  happens_goes fun s => by
    refine Keeps.ite (Keeps.refl s) (Keeps.ite (Keeps.upd (State.setAlert_keeps (Keeps.refl s)) rfl) ?_)
    split
    · exact Keeps.upd (Keeps.refl s) rfl
    · exact Keeps.refl s

theorem execThermalTrip_goes {t channel : Nat} {s : State} : OGoes s (execThermalTrip t channel s) :=
  happens_goes fun s => Keeps.ite (Keeps.refl s) (State.finishAll_keeps _ (State.outOfScope_keeps
    (State.setAlert_keeps (State.clearReady_keeps (Keeps.foldl (fun _ _ => State.evLock_keeps)
    (State.tripAll_keeps (Keeps.refl s)))))))

theorem execTapInstructionLoad_goes {t instruction : Nat} {s : State} : OGoes s
    (execTapInstructionLoad t instruction s) :=
  anywhere_goes fun s => by
    exact Keeps.ite (Keeps.refl s) (Keeps.ite (State.linkDown_keeps (Keeps.upd (State.silenceOutputs_keeps
        (Keeps.refl s)) rfl))
      (Keeps.upd (Keeps.refl s) rfl))

theorem execTapTestLogicReset_goes {t : Nat} {s : State} : OGoes s (execTapTestLogicReset t s) :=
  anywhere_goes fun s => Keeps.ite (Keeps.refl s) (Keeps.ite (Keeps.upd (State.restartKept_keeps
    (Keeps.refl s)) rfl) (Keeps.upd (Keeps.refl s) rfl))

theorem execSmbAlertStatusClear_goes {t value holds : Nat} {s : State} : OGoes s
    (execSmbAlertStatusClear t value holds s) :=
  happens_goes fun s => Keeps.upd (Keeps.refl s) rfl

theorem execSmbAlertResponse_goes {t : Nat} {s : State} : OGoes s (execSmbAlertResponse t s) :=
  happens_goes fun s => Keeps.ite (State.emit_keeps (Keeps.refl s)) (Keeps.refl s)

/-! ### Faults -/

theorem execStewardPairHalt_goes {t pair : Nat} {s : State} : OGoes s (execStewardPairHalt t pair s) :=
  happens_goes fun s => Keeps.ite (State.pairHalt_keeps (Keeps.refl s)) (Keeps.refl s)

theorem execStewardTakeoverComplete_goes {t : Nat} {s : State} : OGoes s (execStewardTakeoverComplete t s) :=
  happens_goes fun s => Keeps.ite (Keeps.refl s) (State.serveChans_keeps (State.finishAll_keeps Cmd.aux
    (Keeps.upd (Keeps.refl s) rfl)))

theorem execSpareUnitFault_goes {t cls pool unit : Nat} {s : State} : OGoes s
    (execSpareUnitFault t cls pool unit s) :=
  happens_goes fun s => State.failUnit_keeps (Keeps.refl s)

theorem execSramScrubPass_goes {t corrected : Nat} {s : State} : OGoes s (execSramScrubPass t corrected s) :=
  happens_goes fun s => Keeps.upd (Keeps.refl s) rfl

theorem execUncorrectableSramWord_goes {t : Nat} {duplicated : Bool} {cls pool unit detail : Nat} {s : State} :
    OGoes s (execUncorrectableSramWord t duplicated cls pool unit detail s) :=
  happens_goes fun s => Keeps.ite (State.faultWord_keeps (Keeps.refl s)) (State.failUnit_keeps (Keeps.refl s))

theorem execFabricPllFault_goes {t pair unit : Nat} {stops : Bool} {s : State} : OGoes s
    (execFabricPllFault t pair unit stops s) :=
  happens_goes fun s => Keeps.ite (Keeps.refl s) (Keeps.ite (State.domainStops_keeps (State.faultIn_keeps
    (Keeps.refl s))) (State.faultIn_keeps (Keeps.refl s)))

theorem execRegulatorPhaseFault_goes {t rail phase : Nat} {s : State} : OGoes s
    (execRegulatorPhaseFault t rail phase s) :=
  happens_goes fun s => State.phaseFail_keeps (Keeps.refl s)

theorem execDieLinkLaneFault_goes {t direction lane : Nat} {s : State} : OGoes s
    (execDieLinkLaneFault t direction lane s) :=
  happens_goes fun s => State.halfFail_keeps (Keeps.refl s)

theorem execCheckedHalfMismatch_goes {t pair half : Nat} {s : State} : OGoes s
    (execCheckedHalfMismatch t pair half s) :=
  happens_goes fun s => State.halfFail_keeps (Keeps.refl s)

theorem execOutOfScopeFault_goes {t detail : Nat} {s : State} : OGoes s (execOutOfScopeFault t detail s) :=
  happens_goes fun s => State.outOfScope_keeps (Keeps.refl s)

theorem execInjectedUnitRestore_goes {t cls pool unit : Nat} {passed : Bool} {s : State} : OGoes s
    (execInjectedUnitRestore t cls pool unit passed s) :=
  happens_goes fun s => by
    refine Keeps.ite (Keeps.refl s) ?_
    extract_lets s1 left ft s2 cs s3
    have h1 : Keeps s s1 := Keeps.ite (State.restoreUnit_keeps (State.unitBack_keeps (Keeps.refl s))) (Keeps.refl s)
    have h2 : Keeps s s2 := Keeps.upd h1 rfl
    have h3 : Keeps s s3 := Keeps.ite (Keeps.foldl (fun _ _ => State.markStarted_keeps) h2) h2
    exact Keeps.ite (State.finishAll_keeps _ h3) h3

/-! ### Calibration -/

theorem execScheduledCalibration_goes {t cls : Nat} {units failed : List Nat} {values : List
    (Nat × Nat)} {s : State} : OGoes s (execScheduledCalibration t cls units failed values () s) :=
  happens_goes fun s => Keeps.ite (Keeps.refl s) (Keeps.ite (State.calPins_keeps (Keeps.upd (Keeps.refl s) rfl))
    (State.evCalDone_keeps (State.calUnits_keeps (Keeps.refl s))))

/-! ### EPOCH frames -/

theorem execEpochFrameReceived_goes {t number crc : Nat} {arrival : Stamp} {s : State} : OGoes s
    (execEpochFrameReceived t number crc arrival s) :=
  happens_goes fun s => by
    refine Keeps.ite (Keeps.refl s) ?_
    extract_lets vine s1
    have h1 : Keeps s s1 := Keeps.ite (Keeps.refl s) (State.setVine_keeps (Keeps.refl s))
    split
    · exact Keeps.ite (State.vineEpoch_keeps h1) h1
    · exact Keeps.ite (State.vineEpoch_keeps (State.setVine_keeps h1)) (Keeps.ite
        (State.vineEpoch_keeps (State.setVine_keeps h1)) (Keeps.ite (State.vineEpoch_keeps (State.setVine_keeps h1))
          (State.vineEpoch_keeps (State.epochJump_keeps h1))))

/-! ### The Steward -/

theorem execStewardRestartComplete_goes {t : Nat} {ready : List Nat} {s : State} : OGoes s
    (execStewardRestartComplete t ready s) :=
  happens_goes fun s => Keeps.ite (Keeps.refl s) (Keeps.ite (State.restartKept_keeps (Keeps.refl s)) (Keeps.foldl
    (fun _ _ k => State.event_keeps (State.setReady_keeps k)) (State.setSec_keeps (Keeps.refl s))))

theorem execSecUpdateFirmware_goes {t fn tag : Nat} {image : List Byte} {blown : Nat} {s : State} : OGoes s
    (execSecUpdateFirmware t fn tag image blown s) := by
  unfold execSecUpdateFirmware
  split
  · split
    · exact happens_goes fun s => State.commitOn_keeps (Keeps.refl s)
    · exact verb_goes fun _ _ _ => secUpdateFirmware_keeps
  · exact happens_goes Keeps.refl

/-! ### Every command -/

theorem isa_goes {t core cls op : Nat} {body : Nat → Nat → Core → IsaOut} {s : State} : OGoes s
    (isa t core cls op body s) :=
  happens_goes fun s => State.issue_keeps body (Keeps.refl s)

/-- Every command is answered with a next state, and goes there. -/
theorem exec_goes (i : Instr) (s : State) : OGoes s (exec i s) := by
  cases i with
  | feedPresent => exact execFeedPresent_goes
  | feedLost => exact execFeedLost_goes
  | feedRestored => exact execFeedRestored_goes
  | shutdownNLow => exact execShutdownNLow_goes
  | shutdownNRise => exact execShutdownNRise_goes
  | powerGood => exact execPowerGood_goes
  | secureBoot => exact execSecureBoot_goes
  | functionReady => exact execFunctionReady_goes
  | readyTimeout => exact execReadyTimeout_goes
  | perstNAssert => exact execPerstNAssert_goes
  | perstNRelease => exact execPerstNRelease_goes
  | hotReset => exact execHotReset_goes
  | functionLevelReset => exact execFunctionLevelReset_goes
  | functionD3hot => exact execFunctionD3hot_goes
  | functionD0 => exact execFunctionD0_goes
  | standbyWake => exact execStandbyWake_goes
  | linkL0Reached => exact execLinkL0Reached_goes
  | pcieLaneFailure => exact execPcieLaneFailure_goes
  | aliveToggle => exact execAliveToggle_goes
  | thermalWarning => exact execThermalWarning_goes
  | thermalThrottleStep => exact execThermalThrottleStep_goes
  | thermalTrip => exact execThermalTrip_goes
  | tapInstructionLoad => exact execTapInstructionLoad_goes
  | tapTestLogicReset => exact execTapTestLogicReset_goes
  | doorbellWrite => exact execDoorbellWrite_goes
  | servicePairWake => exact execServicePairWake_goes
  | commandTimeout => exact execCommandTimeout_goes
  | chanStateClear => exact execChanStateClear_goes
  | lockAliasRead => exact execLockAliasRead_goes
  | lockAliasWrite => exact execLockAliasWrite_goes
  | lockForcedRelease => exact execLockForcedRelease_goes
  | timeLatchWrite => exact execTimeLatchWrite_goes
  | ringConsWrite => exact execRingConsWrite_goes
  | ringOverflowClear => exact execRingOverflowClear_goes
  | ringCoalesceTimeout => exact execRingCoalesceTimeout_goes
  | updateStrobeWrite => exact execUpdateStrobeWrite_goes
  | strobeOccurrenceApply => exact execStrobeOccurrenceApply_goes
  | keyUnlockWrite => exact execKeyUnlockWrite_goes
  | fcwEnableWrite => exact execFcwEnableWrite_goes
  | fcwStatusClear => exact execFcwStatusClear_goes
  | fcwResyncWrite => exact execFcwResyncWrite_goes
  | resyncComplete => exact execResyncComplete_goes
  | registerWrite => exact execRegisterWrite_goes
  | apertureRead => exact execApertureRead_goes
  | apertureWrite => exact execApertureWrite_goes
  | smbAlertStatusClear => exact execSmbAlertStatusClear_goes
  | smbAlertResponse => exact execSmbAlertResponse_goes
  | sysHello => exact execSysHello_goes
  | sysQueryReady => exact verb_goes fun _ _ _ => sysQueryReady_keeps
  | sysGetInfo => exact verb_goes fun _ _ _ => sysGetInfo_keeps
  | sysSetEventRing => exact execSysSetEventRing_goes
  | sysResetFunction => exact verb_goes fun _ _ _ => sysResetFunction_keeps
  | sysNop => exact verb_goes fun _ _ _ => sysNop_keeps
  | clockSetRef => exact verb_goes fun _ _ _ => clockSetRef_keeps
  | clockGetStatus => exact verb_goes fun _ _ _ h => VerbOut.keeps_data (State.drawFree_keeps h)
  | clockSetTime => exact verb_goes fun _ _ _ => clockSetTime_keeps
  | clockSetOutput => exact verb_goes fun _ _ _ => clockSetOutput_keeps
  | clockLoadRamp => exact verb_goes fun _ _ _ => clockLoadRamp_keeps
  | clockStartRamp => exact verb_goes fun _ _ _ => clockStartRamp_keeps
  | clockStopRamp => exact verb_goes fun _ _ _ => clockStopRamp_keeps
  | clockSetVectorClock => exact verb_goes fun _ _ _ => clockSetVectorClock_keeps
  | ocxoHardFault => exact execOcxoHardFault_goes
  | ocxoSoftFault => exact execOcxoSoftFault_goes
  | warmReached => exact execWarmReached_goes
  | refInQualified => exact execRefInQualified_goes
  | ppsInQualified => exact execPpsInQualified_goes
  | refInLost => exact execRefInLost_goes
  | ppsInLost => exact execPpsInLost_goes
  | ppsEdge => exact execPpsEdge_goes
  | ppsOutSecond => exact execPpsOutSecond_goes
  | ppsOutPulseEnd => exact execPpsOutPulseEnd_goes
  | synthBandSearchDone => exact execSynthBandSearchDone_goes
  | synthLockDetected => exact execSynthLockDetected_goes
  | synthLockLost => exact execSynthLockLost_goes
  | synthReacquireTimeout => exact execSynthReacquireTimeout_goes
  | sampleSynthFault => exact execSampleSynthFault_goes
  | idleCoreLocked => exact execIdleCoreLocked_goes
  | rampScheduledStart => exact execRampScheduledStart_goes
  | rampUpdate => exact execRampUpdate_goes
  | rampSegmentEnd => exact execRampSegmentEnd_goes
  | rampProfileEnd => exact execRampProfileEnd_goes
  | inputSetRange => exact verb_goes fun _ _ _ => inputSetRange_keeps
  | inputGetStatus => exact verb_goes fun _ _ _ => inputGetStatus_keeps
  | inputEnable => exact verb_goes fun _ _ _ => inputEnable_keeps
  | inputDisable => exact verb_goes fun _ _ _ => inputDisable_keeps
  | inputRangeSwitch => exact execInputRangeSwitch_goes
  | rotationStep => exact execRotationStep_goes
  | sliceHandoverComplete => exact execSliceHandoverComplete_goes
  | sliceFailure => exact execSliceFailure_goes
  | coldSpareReady => exact execColdSpareReady_goes
  | inputOverdrive => exact execInputOverdrive_goes
  | protectionRelease => exact execProtectionRelease_goes
  | overrangeIntervalClose => exact execOverrangeIntervalClose_goes
  | ddcConfigure => exact verb_goes fun _ _ _ => ddcConfigure_keeps
  | ddcSetDelay => exact verb_goes fun _ _ _ => ddcSetDelay_keeps
  | ddcEnable => exact verb_goes fun _ _ _ => ddcEnable_keeps
  | ddcDisable => exact verb_goes fun _ _ _ => ddcDisable_keeps
  | ddcGetStatus => exact verb_goes fun _ _ _ => ddcGetStatus_keeps
  | ddcScheduledChange => exact execDdcScheduledChange_goes
  | ddcDatapathFault => exact execDdcDatapathFault_goes
  | pressConfigure => exact verb_goes fun _ _ _ => pressConfigure_keeps
  | pressLoadWindow => exact verb_goes fun _ _ _ => pressLoadWindow_keeps
  | pressLoadPfb => exact verb_goes fun _ _ _ => pressLoadPfb_keeps
  | pressMapChannels => exact verb_goes fun _ _ _ => pressMapChannels_keeps
  | pressEnable => exact verb_goes fun _ _ _ => pressEnable_keeps
  | pressDisable => exact verb_goes fun _ _ _ => pressDisable_keeps
  | pressFrameRelease => exact execPressFrameRelease_goes
  | pressPipelineFault => exact execPressPipelineFault_goes
  | specConfigureDetector => exact verb_goes fun _ _ _ => specConfigureDetector_keeps
  | specConfigureDensity => exact verb_goes fun _ _ _ => specConfigureDensity_keeps
  | specClearDensity => exact verb_goes fun _ _ _ => specClearDensity_keeps
  | specReadTrace => exact verb_goes fun _ _ _ => specReadTrace_keeps
  | specPeakSearch => exact verb_goes fun _ _ _ => specPeakSearch_keeps
  | specEnable => exact verb_goes fun _ _ _ => specEnable_keeps
  | specDisable => exact verb_goes fun _ _ _ => specDisable_keeps
  | spectrumAccept => exact execSpectrumAccept_goes
  | integrationEnd => exact execIntegrationEnd_goes
  | decayBoundary => exact execDecayBoundary_goes
  | densityClearApply => exact execDensityClearApply_goes
  | trigConfigure => exact verb_goes fun _ _ _ => trigConfigure_keeps
  | trigLoadMask => exact verb_goes fun _ _ _ => trigLoadMask_keeps
  | trigRoute => exact verb_goes fun _ _ _ => trigRoute_keeps
  | trigArm => exact verb_goes fun _ _ _ => trigArm_keeps
  | trigDisarm => exact verb_goes fun _ _ _ => trigDisarm_keeps
  | trigForce => exact verb_goes fun _ _ _ => trigForce_keeps
  | trigGetStatus => exact verb_goes fun _ _ _ => trigGetStatus_keeps
  | trigScheduledArm => exact execTrigScheduledArm_goes
  | triggerDecision => exact execTriggerDecision_goes
  | forcedDecision => exact execForcedDecision_goes
  | sorrelForceMessage => exact execSorrelForceMessage_goes
  | unitRearm => exact execUnitRearm_goes
  | holdoffEnd => exact execHoldoffEnd_goes
  | sequencePendingExpiry => exact execSequencePendingExpiry_goes
  | trigInEdge => exact execTrigInEdge_goes
  | trigOutPulseEnd => exact execTrigOutPulseEnd_goes
  | voterDisagreement => exact execVoterDisagreement_goes
  | triggerEventIntervalClose => exact execTriggerEventIntervalClose_goes
  | acqCreateContext => exact verb_goes fun _ _ _ => acqCreateContext_keeps
  | acqArm => exact verb_goes fun _ _ _ => acqArm_keeps
  | acqStop => exact verb_goes fun _ _ _ => acqStop_keeps
  | acqDestroy => exact verb_goes fun _ _ _ => acqStop_keeps
  | acqLoadTestMask => exact verb_goes fun _ _ _ => acqLoadTestMask_keeps
  | acqGetStatus => exact verb_goes fun _ _ _ => acqGetStatus_keeps
  | acqScheduledArm => exact execAcqScheduledArm_goes
  | ringFilled => exact execRingFilled_goes
  | segmentTrigger => exact execSegmentTrigger_goes
  | segmentEnd => exact execSegmentEnd_goes
  | contextRearm => exact execContextRearm_goes
  | gapBegin => exact execGapBegin_goes
  | stagingDrainTimeout => exact execStagingDrainTimeout_goes
  | segmentEventIntervalClose => exact execSegmentEventIntervalClose_goes
  | gapEventIntervalClose => exact execGapEventIntervalClose_goes
  | contextStateRebuild => exact execContextStateRebuild_goes
  | sorrelLoadKernel => exact verb_goes fun _ _ _ => sorrelLoadKernel_keeps
  | sorrelStart => exact verb_goes fun _ _ _ => sorrelStart_keeps
  | sorrelStop => exact verb_goes fun _ _ _ => sorrelStop_keeps
  | sorrelBind => exact verb_goes fun _ _ _ => sorrelBind_keeps
  | sorrelGetStatus => exact verb_goes fun _ _ _ => sorrelGetStatus_keeps
  | sorrelScheduledStart => exact execSorrelScheduledStart_goes
  | inputBlockArrival => exact execInputBlockArrival_goes
  | coreFault => exact execCoreFault_goes
  | activationCreditExhausted => exact execActivationCreditExhausted_goes
  | isaAdd => exact isa_goes
  | isaSub => exact isa_goes
  | isaAnd => exact isa_goes
  | isaOr => exact isa_goes
  | isaXor => exact isa_goes
  | isaShl => exact isa_goes
  | isaShra => exact isa_goes
  | isaShrl => exact isa_goes
  | isaMul => exact isa_goes
  | isaMulh => exact isa_goes
  | isaMin => exact isa_goes
  | isaMax => exact isa_goes
  | isaCmpeq => exact isa_goes
  | isaCmplt => exact isa_goes
  | isaCmpltu => exact isa_goes
  | isaLi => exact isa_goes
  | isaMfs => exact isa_goes
  | isaMts => exact isa_goes
  | isaLds => exact isa_goes
  | isaSts => exact isa_goes
  | isaLdv => exact isa_goes
  | isaStv => exact isa_goes
  | isaLdc => exact isa_goes
  | isaSta => exact isa_goes
  | isaCadd => exact isa_goes
  | isaCsub => exact isa_goes
  | isaCmul => exact isa_goes
  | isaCmulj => exact isa_goes
  | isaConj => exact isa_goes
  | isaVmov => exact isa_goes
  | isaVpowr => exact isa_goes
  | isaCmac => exact isa_goes
  | isaCmacj => exact isa_goes
  | isaTapmv => exact isa_goes
  | isaAccz => exact isa_goes
  | isaAccr => exact isa_goes
  | isaAccs => exact isa_goes
  | isaMaxi => exact isa_goes
  | isaMini => exact isa_goes
  | isaExpb => exact isa_goes
  | isaShfb => exact isa_goes
  | isaBr => exact isa_goes
  | isaJmp => exact isa_goes
  | isaLoop => exact isa_goes
  | isaWait => exact isa_goes
  | isaYield => exact isa_goes
  | isaEmit => exact isa_goes
  | isaMbox => exact isa_goes
  | isaSetag => exact isa_goes
  | isaHalt => exact isa_goes
  | isaNop => exact isa_goes
  | patDefineSegment => exact verb_goes fun _ _ _ => patDefineSegment_keeps
  | patWriteSegment => exact verb_goes fun _ _ _ => patWriteSegment_keeps
  | patLoadTable => exact verb_goes fun _ _ _ => patLoadTable_keeps
  | patDefineSite => exact verb_goes fun _ _ _ => patDefineSite_keeps
  | patStart => exact verb_goes fun _ _ _ => patStart_keeps
  | patStop => exact verb_goes fun _ _ _ => patStop_keeps
  | patRequestJump => exact verb_goes fun _ _ _ => patRequestJump_keeps
  | patGetResult => exact verb_goes fun _ _ _ => patGetResult_keeps
  | patLoadTimesets => exact verb_goes fun _ _ _ => patLoadTimesets_keeps
  | patScheduledStart => exact execPatScheduledStart_goes
  | decisionPoint => exact execDecisionPoint_goes
  | segmentBoundary => exact execSegmentBoundary_goes
  | triggerJumpArrival => exact execTriggerJumpArrival_goes
  | siteEventArrival => exact execSiteEventArrival_goes
  | refillLate => exact execRefillLate_goes
  | sitePark => exact execSitePark_goes
  | trellisDiscover => exact verb_goes fun _ _ _ => trellisDiscover_keeps
  | trellisGetStatus => exact verb_goes fun _ _ _ => trellisGetStatus_keeps
  | trellisConfigureCapture => exact verb_goes fun _ _ _ => trellisConfigureCapture_keeps
  | trellisDeskew => exact verb_goes fun _ _ _ => trellisDeskew_keeps
  | upstreamCodeword => exact execUpstreamCodeword_goes
  | idleFrame => exact execIdleFrame_goes
  | identFrame => exact execIdentFrame_goes
  | progressFrame => exact execProgressFrame_goes
  | failFrame => exact execFailFrame_goes
  | captureFrame => exact execCaptureFrame_goes
  | matchFrame => exact execMatchFrame_goes
  | receiptFrame => exact execReceiptFrame_goes
  | eventFrame => exact execEventFrame_goes
  | countersFrame => exact execCountersFrame_goes
  | loopReplyFrame => exact execLoopReplyFrame_goes
  | faultFrame => exact execFaultFrame_goes
  | reliableResendTimeout => exact execReliableResendTimeout_goes
  | laneDown => exact execLaneDown_goes
  | deviceLost => exact execDeviceLost_goes
  | sidePortFailure => exact execSidePortFailure_goes
  | stimDefineSegment => exact verb_goes fun _ _ _ => stimDefineSegment_keeps
  | stimWriteSegment => exact verb_goes fun _ _ _ => stimWriteSegment_keeps
  | stimLoadTable => exact verb_goes fun _ _ _ => stimLoadTable_keeps
  | stimStart => exact verb_goes fun _ _ _ => stimStart_keeps
  | stimStop => exact verb_goes fun _ _ _ => stimStop_keeps
  | stimRequestJump => exact verb_goes fun _ _ _ => stimRequestJump_keeps
  | stimScheduledStart => exact execStimScheduledStart_goes
  | stimDecisionPoint => exact execStimDecisionPoint_goes
  | stimBoundary => exact execStimBoundary_goes
  | stimTriggerJumpArrival => exact execStimTriggerJumpArrival_goes
  | stimRefillLate => exact execStimRefillLate_goes
  | stimPark => exact execStimPark_goes
  | vineConfigure => exact verb_goes fun _ _ _ => vineConfigure_keeps
  | vineCalibrateSkew => exact verb_goes fun _ _ _ => vineCalibrateSkew_keeps
  | vineGetStatus => exact verb_goes fun _ _ _ => VerbOut.keeps_data
  | vineScheduleSync => exact verb_goes fun _ _ _ => vineScheduleSync_keeps
  | epochEdge => exact execEpochEdge_goes
  | epochFrameReceived => exact execEpochFrameReceived_goes
  | vineEventFrameReceived => exact execVineEventFrameReceived_goes
  | delayFrameReceived => exact execDelayFrameReceived_goes
  | vineEventSend => exact execVineEventSend_goes
  | echoPulseSend => exact execEchoPulseSend_goes
  | echoPulseReturn => exact execEchoPulseReturn_goes
  | vineNeighbourLost => exact execVineNeighbourLost_goes
  | vineSignalsReturn => exact execVineSignalsReturn_goes
  | tiuConfigureChannel => exact verb_goes fun _ _ _ => tiuConfigure_keeps
  | tiuStart => exact verb_goes fun _ _ _ => tiuStart_keeps
  | tiuStop => exact verb_goes fun _ _ _ => tiuStop_keeps
  | tiuReadStats => exact verb_goes fun _ _ _ => tiuReadStats_keeps
  | tiuGetStatus => exact verb_goes fun _ _ _ => tiuGetStatus_keeps
  | tiuScheduledStart => exact execTiuScheduledStart_goes
  | tiuEdge => exact execTiuEdge_goes
  | interpolatorRotationStep => exact execInterpolatorRotationStep_goes
  | interpolatorFailure => exact execInterpolatorFailure_goes
  | statsBlockComplete => exact execStatsBlockComplete_goes
  | tiuStatsIntervalClose => exact execTiuStatsIntervalClose_goes
  | monConfigureComparator => exact verb_goes fun _ _ _ => monConfigureComparator_keeps
  | monLoadSequence => exact verb_goes fun _ _ _ => monLoadSequence_keeps
  | monStartSequence => exact verb_goes fun _ _ _ => monStartSequence_keeps
  | monStopSequence => exact verb_goes fun _ _ _ => monStopSequence_keeps
  | monRead => exact verb_goes fun _ _ _ => monRead_keeps
  | monSetReference => exact verb_goes fun _ _ _ => monSetReference_keeps
  | monScheduledStart => exact execMonScheduledStart_goes
  | comparatorChange => exact execComparatorChange_goes
  | m3Tick => exact execM3Tick_goes
  | comparatorThresholdApply => exact execComparatorThresholdApply_goes
  | blankingWindowClose => exact execBlankingWindowClose_goes
  | comparatorEventIntervalClose => exact execComparatorEventIntervalClose_goes
  | wakeRequest => exact execWakeRequest_goes
  | conversionComplete => exact execConversionComplete_goes
  | entryDelayExpiry => exact execEntryDelayExpiry_goes
  | housekeepingConversion => exact execHousekeepingConversion_goes
  | recoveryConversion => exact execRecoveryConversion_goes
  | referenceSettled => exact execReferenceSettled_goes
  | cellarAllocate => exact verb_goes fun _ _ _ => cellarAllocate_keeps
  | cellarFree => exact verb_goes fun _ _ _ => cellarFree_keeps
  | cellarGetStatus => exact verb_goes fun _ _ _ => cellarGetStatus_keeps
  | cellarSetOperatingPoint => exact verb_goes fun _ _ _ => cellarSetOperatingPoint_keeps
  | regionZeroComplete => exact execRegionZeroComplete_goes
  | cellarRequest => exact execCellarRequest_goes
  | urgencyLevelRise => exact execUrgencyLevelRise_goes
  | writeBufferMergeTimeout => exact execWriteBufferMergeTimeout_goes
  | patrolScrub => exact execPatrolScrub_goes
  | refreshWindowStart => exact execRefreshWindowStart_goes
  | rowHammerThreshold => exact execRowHammerThreshold_goes
  | retrainPauseStart => exact execRetrainPauseStart_goes
  | retrainPauseEnd => exact execRetrainPauseEnd_goes
  | pseudoChannelFailure => exact execPseudoChannelFailure_goes
  | stackFailure => exact execStackFailure_goes
  | rebuildComplete => exact execRebuildComplete_goes
  | stackOpPointServing => exact execStackOpPointServing_goes
  | stackBufferDrained => exact execStackBufferDrained_goes
  | flowCreate => exact verb_goes fun _ _ _ => flowCreate_keeps
  | flowEnable => exact verb_goes fun _ _ _ => flowEnable_keeps
  | flowDisable => exact verb_goes fun _ _ _ => flowDisable_keeps
  | flowDestroy => exact verb_goes fun _ _ _ => flowDisable_keeps
  | flowPostDescriptors => exact verb_goes fun _ _ _ => flowPostDescriptors_keeps
  | flowGetStatus => exact verb_goes fun _ _ _ => flowGetStatus_keeps
  | descriptorFetched => exact execDescriptorFetched_goes
  | producerUnitArrival => exact execProducerUnitArrival_goes
  | burstAdmission => exact execBurstAdmission_goes
  | burstCompletion => exact execBurstCompletion_goes
  | burstError => exact execBurstError_goes
  | hostReadTimeout => exact execHostReadTimeout_goes
  | streamConfigurePort => exact verb_goes fun _ _ _ => streamConfigurePort_keeps
  | streamBindFlow => exact verb_goes fun _ _ _ => streamBindFlow_keeps
  | streamGetStatus => exact verb_goes fun _ _ _ => streamGetStatus_keeps
  | portLinkUp => exact execPortLinkUp_goes
  | packetFlushTimeout => exact execPacketFlushTimeout_goes
  | packetTransmit => exact execPacketTransmit_goes
  | heartbeatTimer => exact execHeartbeatTimer_goes
  | portFailure => exact execPortFailure_goes
  | arpRequestReceived => exact execArpRequestReceived_goes
  | neighbourSolicitationReceived => exact execNeighbourSolicitationReceived_goes
  | pauseFrameReceived => exact execPauseFrameReceived_goes
  | otherFrameReceived => exact execOtherFrameReceived_goes
  | dispSetTiming => exact verb_goes fun _ _ _ => dispSetTiming_keeps
  | dispSetGenlock => exact verb_goes fun _ _ _ => dispSetGenlock_keeps
  | dispConfigureLayer => exact verb_goes fun _ _ _ => dispConfigureLayer_keeps
  | dispSetPalette => exact verb_goes fun _ _ _ => dispSetPalette_keeps
  | dispEnable => exact verb_goes fun _ _ _ => dispEnable_keeps
  | dispDisable => exact verb_goes fun _ _ _ => dispDisable_keeps
  | latchLine => exact execLatchLine_goes
  | matchLineReached => exact execMatchLineReached_goes
  | frameEnd => exact execFrameEnd_goes
  | lineUnderrun => exact execLineUnderrun_goes
  | overlayFetchFault => exact execOverlayFetchFault_goes
  | genlockEdge => exact execGenlockEdge_goes
  | genlockLost => exact execGenlockLost_goes
  | hpdUnplug => exact execHpdUnplug_goes
  | hpdReturn => exact execHpdReturn_goes
  | scanoutMismatch => exact execScanoutMismatch_goes
  | budgetSetPowerCap => exact verb_goes fun _ _ _ => budgetSetPowerCap_keeps
  | budgetGrant => exact verb_goes fun _ _ _ => budgetGrant_keeps
  | budgetRevoke => exact verb_goes fun _ _ _ => budgetRevoke_keeps
  | budgetReadLedger => exact verb_goes fun _ _ _ => budgetReadLedger_keeps
  | budgetGetCapacity => exact verb_goes fun _ _ _ => VerbOut.keeps_data
  | budgetPeriodBoundary => exact execBudgetPeriodBoundary_goes
  | ageingInterval => exact execAgeingInterval_goes
  | latencyTargetReached => exact execLatencyTargetReached_goes
  | urgentIntervalClose => exact execUrgentIntervalClose_goes
  | ledgerUpdate => exact execLedgerUpdate_goes
  | throttleStageAdvance => exact execThrottleStageAdvance_goes
  | throttleStageRelease => exact execThrottleStageRelease_goes
  | faultReadLog => exact verb_goes fun _ _ _ => faultReadLog_keeps
  | faultGetHealth => exact verb_goes fun _ _ _ => VerbOut.keeps_data
  | faultInject => exact verb_goes fun _ _ _ => faultInject_keeps
  | faultClearLog => exact verb_goes fun _ _ _ => faultClearLog_keeps
  | injectedUnitRestore => exact execInjectedUnitRestore_goes
  | stewardPairHalt => exact execStewardPairHalt_goes
  | stewardTakeoverComplete => exact execStewardTakeoverComplete_goes
  | sramScrubPass => exact execSramScrubPass_goes
  | uncorrectableSramWord => exact execUncorrectableSramWord_goes
  | fabricPllFault => exact execFabricPllFault_goes
  | regulatorPhaseFault => exact execRegulatorPhaseFault_goes
  | dieLinkLaneFault => exact execDieLinkLaneFault_goes
  | checkedHalfMismatch => exact execCheckedHalfMismatch_goes
  | spareUnitFault => exact execSpareUnitFault_goes
  | outOfScopeFault => exact execOutOfScopeFault_goes
  | calRun => exact verb_goes fun _ _ _ => calRun_keeps
  | calGetRecord => exact verb_goes fun _ _ _ => calGetRecord_keeps
  | calSetSchedule => exact verb_goes fun _ _ _ => calSetSchedule_keeps
  | scheduledCalibration => exact execScheduledCalibration_goes
  | idScan => exact verb_goes fun _ _ _ => idScan_keeps
  | idReadRecord => exact verb_goes fun _ _ _ => idReadRecord_keeps
  | secGetCertificate => exact verb_goes fun _ _ _ => secGetCertificate_keeps
  | secAttest => exact verb_goes fun _ _ _ => secAttest_keeps
  | secUpdateFirmware => exact execSecUpdateFirmware_goes
  | stewardRestartComplete => exact execStewardRestartComplete_goes
  | secSetOwnerKey => exact verb_goes fun _ _ _ => secSetOwnerKey_keeps
  | secGetCounters => exact verb_goes fun _ _ _ => VerbOut.keeps_data
  | servicePairSleep => exact execServicePairSleep_goes
  | firstSettledOutput => exact execFirstSettledOutput_goes
  | codewordBoundaryFound => exact execCodewordBoundaryFound_goes
  | markerCodeword => exact execMarkerCodeword_goes
  | dpLinkTrained => exact execDpLinkTrained_goes
  | echoTurnaround => exact execEchoTurnaround_goes
  | vineFrameSent => exact execVineFrameSent_goes
  | disciplineLoopLocked => exact execDisciplineLoopLocked_goes

/-- A step keeps the canonical form: it halts, or it takes the command in front and runs its row (`exec_goes`). -/
theorem step_memoryWf {s s' : State} (h : step s = .next s') (hm : s.memoryWf = true) : s'.memoryWf = true := by
  unfold step at h
  split at h
  · cases h
    exact hm
  · next i q _ =>
    obtain ⟨t, ht, hg⟩ := exec_goes i (s.withPending q)
    rw [ht] at h
    cases h
    exact hg.mem hm

/-- Settles O53: every row and every verb keeps the memories in canonical form, and a step runs one of them. -/
theorem memoriesStayCanonical : Obligations.MemoriesStayCanonical := fun _ _ hm h => step_memoryWf h hm

end Sys2Proof.Machine

end

section

namespace Sys2Proof.Machine

/-! # The host interface: the state after reset, locks, doorbells and acknowledged commands -/

/-- Settles O54: each field of `State.reset` is read off; the one split is on the class of a resource. -/
theorem resetState : Obligations.ResetState := by
  refine ⟨rfl, rfl, rfl, rfl, rfl, rfl, rfl, rfl, rfl, fun fn => ⟨rfl, rfl, fun n => ⟨rfl, rfl⟩, fun c i => ?_⟩,
    rfl, rfl, rfl, rfl, rfl, rfl, fun g => ⟨rfl, rfl⟩, fun o => rfl⟩
  cases c <;> rfl

/-! ## What an access to a lock does (R36) -/

/-- A read of up to 32 bits shows the owner, and 0 to the agent that holds the lock or takes it. -/
theorem exec_lockAliasRead {t fn chan agent first width : Nat} {s : State} (hp : s.powered = true)
    (hc : (s.advance t).chanReachable fn chan = true) (hr : (s.advance t).readyBit 0 = true) (ha : agent ≤ 255)
    (hw : width ≤ 4) : exec (.lockAliasRead t fn chan agent first width) s =
      .next ((if agent ≠ 0 ∧ ((s.advance t).chan fn chan).owner = 0 then
          (s.advance t).setChan fn chan { (s.advance t).chan fn chan with owner := agent } else s.advance t).emit
        (.readData (((leBytes 4 (if agent = 0 then ((s.advance t).chan fn chan).owner
          else if ((s.advance t).chan fn chan).owner = agent then 0
            else ((s.advance t).chan fn chan).owner)).drop first).take width))) := by
  show execLockAliasRead t fn chan agent first width s = _
  unfold execLockAliasRead happens
  rw [whenPowered_on hp, if_neg (by simp [hc, ha]), if_neg (by simp [hr, hw])]

/-- A read wider than 32 bits returns zeros and takes nothing. -/
theorem exec_lockAliasRead_wide {t fn chan agent first width : Nat} {s : State} (hp : s.powered = true)
    (hc : (s.advance t).chanReachable fn chan = true) (ha : agent ≤ 255) (hw : 4 < width) :
    exec (.lockAliasRead t fn chan agent first width) s =
      .next ((s.advance t).emit (.readData (leBytes width 0))) := by
  show execLockAliasRead t fn chan agent first width s = _
  unfold execLockAliasRead happens
  rw [whenPowered_on hp, if_neg (by simp [hc, ha]), if_pos (by simp [hw])]

/-- Only a whole write by the owner releases the lock. -/
theorem exec_lockAliasWrite {t fn chan agent width : Nat} {s : State} (hp : s.powered = true)
    (hc : (s.advance t).chanReachable fn chan = true) (hr : (s.advance t).readyBit 0 = true) (h1 : 1 ≤ agent)
    (ha : agent ≤ 255) : exec (.lockAliasWrite t fn chan agent width) s =
      .next (if width = 4 ∧ ((s.advance t).chan fn chan).owner = agent then
        (s.advance t).setChan fn chan { (s.advance t).chan fn chan with owner := 0 } else s.advance t) := by
  show execLockAliasWrite t fn chan agent width s = _
  unfold execLockAliasWrite happens
  rw [whenPowered_on hp]
  simp only [hc, hr, Bool.true_and, Bool.and_eq_true, beq_iff_eq, bne_iff_ne, decide_eq_true_eq,
    Nat.ne_of_gt h1, Nat.lt_succ_of_le ha, ne_eq, not_false_eq_true, and_true]

/-- Forced release: only a whole write of the owner's number releases the lock, as broken. -/
theorem exec_lockForcedRelease {t fn chan value width : Nat} {s : State} (hp : s.powered = true)
    (hc : (s.advance t).chanReachable fn chan = true) (hr : (s.advance t).readyBit 0 = true) :
    exec (.lockForcedRelease t fn chan value width) s =
      .next (if width = 4 ∧ ((s.advance t).chan fn chan).owner ≠ 0 ∧ value = ((s.advance t).chan fn chan).owner then
        (s.advance t).setChan fn chan { (s.advance t).chan fn chan with owner := 0, lockBroken := true }
        else s.advance t) := by
  show execLockForcedRelease t fn chan value width s = _
  unfold execLockForcedRelease happens
  rw [whenPowered_on hp]
  simp only [hc, hr, Bool.true_and, Bool.and_eq_true, beq_iff_eq, bne_iff_ne, and_assoc]

/-- Settles O2: each access has its equation above, and its row chooses the branch of it. -/
theorem lockAliases : Obligations.LockAliases := by
  intro s t fn chan agent first width value hp hc hr
  dsimp only
  refine ⟨fun h1 ha hw => ?_, fun hw => ?_, fun hw ha => exec_lockAliasRead_wide hp hc ha hw,
    fun h1 ha => exec_lockAliasWrite hp hc hr h1 ha, exec_lockForcedRelease hp hc hr⟩
  · have hne : agent ≠ 0 := Nat.ne_of_gt h1
    rw [exec_lockAliasRead hp hc hr ha hw, if_neg hne]
    refine ⟨fun h0 => ?_, fun ho => ?_, fun h0 ho => ?_⟩
    · rw [if_pos ⟨hne, h0⟩, if_neg (h0 ▸ hne.symm), h0]
    · rw [if_neg (fun e => hne (ho ▸ e.2)), if_pos ho]
    · rw [if_neg (fun e => h0 e.2), if_neg ho]
  · rw [exec_lockAliasRead hp hc hr (Nat.zero_le _) hw, if_neg (fun e => e.1 rfl), if_pos rfl]

/-! ## Doorbells and channel status (R34, R37) -/

/-- A doorbell that rings passes the test at the head of its row. -/
theorem Cond.doorbell_reaches {fn chan value : Nat} {a : State} (h : Cond.doorbell fn chan value a = true) :
    ¬ (!a.chanReachable fn chan || !a.readyBit (1 + fn) || !value.testBit 0) = true := by
  simpa [Cond.doorbell, and_assoc] using h

/-- Settles O3: past the test that every doorbell passes, the row tests the lock first, then VALID and the doorbell that
is outstanding; the other two rows have one test each. -/
theorem doorbellAndChannelRows : Obligations.DoorbellAndChannelRows := by
  refine ⟨fun _ _ _ _ => happens_of _ (fun _ _ => rfl) fun a h => ?_,
    fun _ _ _ _ => happens_of _ (fun _ _ => rfl) fun a h => ?_,
    fun _ _ _ _ => happens_of _ (fun _ _ => rfl) fun a h => ?_,
    fun _ _ _ _ => happens_of _ (fun _ _ => rfl) fun _ h => if_pos h,
    fun _ _ => happens_of _ (fun _ _ => rfl) fun _ h => if_pos h⟩
  · simp only [Bool.and_eq_true, bne_iff_ne, Bool.not_eq_true'] at h
    obtain ⟨⟨hd, ho⟩, hw⟩ := h
    exact (if_neg (Cond.doorbell_reaches hd)).trans ((if_neg ho).trans (if_neg (by simp [hw])))
  · simp only [Bool.and_eq_true, beq_iff_eq] at h
    obtain ⟨hd, ho⟩ := h
    exact (if_neg (Cond.doorbell_reaches hd)).trans (if_pos ho)
  · simp only [Bool.and_eq_true, bne_iff_ne] at h
    obtain ⟨⟨hd, ho⟩, hw⟩ := h
    exact (if_neg (Cond.doorbell_reaches hd)).trans ((if_neg ho).trans (if_pos hw))

/-! ## Commands carried out at acknowledgement, service pairs and time-outs (R35, R56, R62, R67, R70) -/

/-- Settles O6: what a row requires decides every test of the row before its last branch. -/
theorem acknowledgedRows : Obligations.AcknowledgedRows := by
  refine ⟨fun _ _ _ _ => ?_, fun _ _ _ _ => ?_, fun _ _ _ _ => ?_, fun _ => ?_, fun _ => ?_, fun _ _ _ => ?_⟩
  · refine happens_of _ (fun _ _ => rfl) fun a h => ?_
    simp only [Cond.hello, Bool.and_eq_true, beq_iff_eq, Bool.not_eq_true', decide_eq_true_eq] at h
    obtain ⟨⟨⟨⟨⟨⟨hc, hs⟩, hb⟩, hd⟩, hp⟩, hr⟩, hv⟩ := h
    simp [hc, hs, hb, hd, hp, hv, Nat.not_lt.mpr hr]
  · refine happens_of _ (fun _ _ => rfl) fun a h => ?_
    simp only [Cond.setRing, Bool.and_eq_true, beq_iff_eq, bne_iff_ne, Bool.not_eq_true'] at h
    obtain ⟨⟨⟨⟨⟨⟨⟨⟨hc, hs⟩, hb⟩, hd⟩, hp⟩, hl⟩, hx⟩, hz⟩, he⟩ := h
    simp [hc, hs, hb, hd, hp, hl, hx, hz, he]
  · refine happens_of _ (fun _ _ => rfl) fun a h => ?_
    simp only [Cond.setRing, Bool.and_eq_true, beq_iff_eq, Bool.not_eq_true'] at h
    obtain ⟨⟨⟨⟨⟨⟨⟨hc, hs⟩, hb⟩, hd⟩, hp⟩, hl⟩, hx⟩, hz⟩ := h
    simp [hc, hs, hb, hd, hp, hl, hx, hz]
  · exact happens_of _ (fun _ _ => rfl) fun _ _ => rfl
  · exact happens_of _ (fun _ _ => rfl) fun _ h => if_pos h
  · refine happens_of _ (fun _ _ => rfl) fun a h => ?_
    simp only [Cond.timesOut, Bool.and_eq_true, beq_iff_eq, Bool.not_eq_true', decide_eq_true_eq] at h
    obtain ⟨⟨⟨⟨hc, hs⟩, hd⟩, he⟩, hn⟩ := h
    simp [hc, hs, he, hn, Nat.not_lt.mpr hd, State.unstart, State.endResult]

end Sys2Proof.Machine

end

section

namespace Sys2Proof.Machine

/-! # Rings, register windows and the aperture -/

/-! ## Rings (R39, R41) -/

/-- A write to a ring that exists passes the test at the head of its row. -/
theorem Cond.ringWrite_reaches {fn ring : Nat} {a : State} (h : Cond.ringWrite fn ring a = true) :
    ¬ (!a.hostAccess || decide (1 < fn) || decide (15 < ring)) = true := by
  simp only [Cond.ringWrite, Bool.and_eq_true, decide_eq_true_eq] at h
  obtain ⟨⟨ha, hf⟩, hr⟩ := h
  simp [ha]
  omega

theorem State.consWrite_completion (s : State) (fn ring value : Nat) :
    s.consWrite fn true ring value = Eff.ringConsWrite fn ring value s := by
  simp only [State.consWrite, Eff.ringConsWrite, if_true]

theorem State.consWrite_event (s : State) (fn ring value : Nat) :
    s.consWrite fn false ring value = Eff.ringConsWrite2 fn ring value s := by
  simp only [State.consWrite, Eff.ringConsWrite2, Bool.false_eq_true, if_false]

theorem happens_ringConsWrite (fn ring value : Nat) (completion : Bool) :
    Happens (.ringConsWrite · fn completion ring value) (Cond.ringWrite fn ring)
      (fun a => a.consWrite fn completion ring value) :=
  happens_of _ (fun _ _ => rfl) fun _ h => if_neg (Cond.ringWrite_reaches h)

theorem happens_ringOverflowClear (fn ring value : Nat) : Happens (.ringOverflowClear · fn ring value true)
    (fun a => Cond.ringWrite fn ring a && value.testBit 1) (Eff.ringOverflowClear fn ring) :=
  happens_of _ (fun _ _ => rfl) fun _ h => if_pos (by simpa [Cond.ringWrite] using h)

/-! ## Register writes (R75, R76) -/

/-- No byte of a register is enabled: the register is not written. -/
@[simp] theorem State.writeRegWord_nil (s : State) (fn w k : Nat) : s.writeRegWord fn w k [] = s := rfl

/-- A write of one byte reaches the register of its offset only. -/
theorem State.writeRegs_byte (s : State) (fn off : Nat) (b : Byte) :
    s.writeRegs fn off [b] = s.writeRegWord fn (off / 4 * 4) (off % 4) [b] := by
  obtain ⟨m, hm⟩ : ∃ m, 4 - off % 4 = m + 1 := ⟨3 - off % 4, by omega⟩
  unfold State.writeRegs
  simp only [hm, List.take_succ_cons, List.take_nil, List.drop_succ_cons, List.drop_nil, State.writeRegWord_nil]

/-- What the offset of byte `k` of the register at `r` in the block of a ring says of the byte, the register and the
ring (R39). -/
theorem ringOffset_facts (completion : Bool) (r : Nat) {ring k : Nat} (hring : ring < 16) (hr : r % 4 = 0)
    (hr' : r < 0x20) (hk : k < 4) :
    let off := 0x6000 + 0x200 * bit completion + 0x20 * ring + r + k
    off % 4 = k ∧ 0x6000 ≤ off / 4 * 4 ∧ off / 4 * 4 < 0x6400 ∧ off / 4 * 4 % 0x20 = r ∧
      (off / 4 * 4 - 0x6000) / 0x20 % 16 = ring ∧ decide (0x6200 ≤ off / 4 * 4) = completion := by
  cases completion <;> simp [bit] <;> omega

theorem State.writeRegWord_cons (s : State) (fn k : Nat) {w ring : Nat} {completion : Bool} (b : Byte)
    (hlo : 0x6000 ≤ w) (hhi : w < 0x6400) (hr : w % 0x20 = 4) (hi : (w - 0x6000) / 0x20 % 16 = ring)
    (hc : decide (0x6200 ≤ w) = completion) : s.writeRegWord fn w k [b] =
      s.consWrite fn completion ring (mergeBytes ((s.func fn).ring completion ring).cons k [b]) := by
  subst hi hc
  unfold State.writeRegWord
  rw [if_neg (by simp), if_pos ⟨hlo, hhi, hr⟩]

theorem State.writeRegWord_coal (s : State) (fn k : Nat) {w ring : Nat} {completion : Bool} (b : Byte)
    (hlo : 0x6000 ≤ w) (hhi : w < 0x6400) (hr : w % 0x20 = 0x10) (hi : (w - 0x6000) / 0x20 % 16 = ring)
    (hc : decide (0x6200 ≤ w) = completion) :
    s.writeRegWord fn w k [b] = s.coalWrite fn completion ring k [b] := by
  subst hi hc
  unfold State.writeRegWord
  rw [if_neg (by simp), if_neg (by omega), if_pos ⟨hlo, hhi, hr⟩]

/-- Outside the blocks of the rings a byte is written for itself. -/
theorem State.writeRegWord_plain (s : State) (fn k : Nat) {w : Nat} (b : Byte) (h : w < 0x6000 ∨ 0x6400 ≤ w) :
    s.writeRegWord fn w k [b] = s.writeRegByte fn (w + k) b := by
  unfold State.writeRegWord
  rw [if_neg (by simp), if_neg (by omega), if_neg (by omega)]
  rfl

theorem chanCount_le (fn : Nat) : chanCount fn ≤ 64 := by
  unfold chanCount
  split <;> omega

/-- A byte of the area of a mailbox channel is stored there. -/
theorem State.writeRegByte_chan (s : State) {fn n k : Nat} (b : Byte) (hn : n < chanCount fn) (hk : k < 0xC0) :
    s.writeRegByte fn (0x1000 + 0x100 * n + k) b =
      s.setChan fn n { s.chan fn n with area := (s.chan fn n).area.write k b } := by
  have hc := chanCount_le fn
  have e1 : (0x1000 + 0x100 * n + k - 0x1000) / 0x100 = n := by omega
  have e2 : (0x1000 + 0x100 * n + k) % 0x100 = k := by omega
  unfold State.writeRegByte
  dsimp only
  rw [e1, e2, if_neg (by omega), if_pos ⟨by omega, hn⟩, if_pos hk]

/-- A byte of the MSI-X table is stored, with the mask bits as the model keeps them, and releases what it unmasks. -/
theorem State.writeRegByte_msix (s : State) {k : Nat} (b : Byte) (hk : k < 0x8000) :
    s.writeRegByte 0 (0x8000 + k) b = (s.setFunc 0 { s.func 0 with
      msixTable := (s.func 0).msixTable.write (0x8000 + k) (msixFlip (0x8000 + k) b) }).msixRelease 0 := by
  have hc := chanCount_le 0
  unfold State.writeRegByte
  dsimp only
  rw [if_neg (by omega), if_neg (by omega), if_pos (by simp [inMsixTable]; omega)]

/-- A row that is carried out under `ok` is carried out under a stronger condition, with whatever is equal there. -/
theorem Happens.weaken {i : Nat → Instr} {ok ok' : State → Bool} {after after' : State → State}
    (h : Happens i ok after) (hok : ∀ a, ok' a = true → ok a = true) (ha : ∀ a, ok' a = true → after a = after' a) :
    Happens i ok' after' :=
  fun s t hp hk => (h s t hp (hok _ hk)).trans (by rw [ha _ hk])

/-- A register write of a function goes register by register. -/
theorem happens_registerWrite (fn offset : Nat) (bytes : List Byte) : Happens (.registerWrite · fn offset bytes)
    (fun a => a.hostAccess && decide (fn < 2)) (fun a => a.writeRegs fn offset (bytes.take 8)) := by
  refine happens_of _ (fun _ _ => rfl) fun a h => ?_
  have hfn : ¬ (fn = 2 ∧ offset = 9) := by
    simp only [Bool.and_eq_true, decide_eq_true_eq] at h
    omega
  exact (if_neg hfn).trans (if_pos h)

/-- A register write of one byte goes to the register of its offset. -/
theorem happens_registerWrite_byte (fn offset : Nat) (b : Byte) : Happens (.registerWrite · fn offset [b])
    (fun a => a.hostAccess && decide (fn < 2)) (fun a => a.writeRegWord fn (offset / 4 * 4) (offset % 4) [b]) :=
  (happens_registerWrite fn offset [b]).weaken (fun _ => id) fun a _ => a.writeRegs_byte fn offset b

/-- Function 4 + `fn` of a register write is the configuration space of function `fn`. -/
theorem happens_registerWrite_config (fn offset : Nat) (b0 b1 b2 b3 : Byte) :
    Happens (fun t => .registerWrite t (fn + 4) offset [b0, b1, b2, b3])
      (fun a => a.hostAccess && decide (fn < 2) && offset % 4 == 0) (Eff.registerWrite fn offset b0 b1 b2 b3) := by
  refine happens_of _ (fun _ _ => rfl) fun a h => ?_
  simp only [Bool.and_eq_true, decide_eq_true_eq, beq_iff_eq] at h
  obtain ⟨⟨ha, hf⟩, ho⟩ := h
  have hf : fn = 0 ∨ fn = 1 := by omega
  exact (if_neg (by omega)).trans ((if_neg (by simp)).trans (if_pos (by simp [ha, hf, ho])))

theorem happens_registerWrite_cons (fn ring k : Nat) (completion : Bool) (b : Byte) :
    Happens (fun t => .registerWrite t fn (0x6000 + 0x200 * bit completion + 0x20 * ring + 4 + k) [b])
      (fun a => Cond.ringWrite fn ring a && decide (k < 4)) (Eff.registerWrite2 fn ring k completion b) := by
  refine (happens_registerWrite_byte fn _ b).weaken (fun a h => ?_) fun a h => ?_
  · simp only [Cond.ringWrite, Bool.and_eq_true] at h ⊢
    exact h.1.1
  · simp only [Cond.ringWrite, Bool.and_eq_true, decide_eq_true_eq] at h
    obtain ⟨⟨-, hring⟩, hk⟩ := h
    obtain ⟨h1, h2, h3, h4, h5, h6⟩ := ringOffset_facts completion 4 hring rfl (by omega) hk
    rw [h1, State.writeRegWord_cons a fn k b h2 h3 h4 h5 h6]

theorem happens_registerWrite_coal (fn ring k : Nat) (completion : Bool) (b : Byte) :
    Happens (fun t => .registerWrite t fn (0x6000 + 0x200 * bit completion + 0x20 * ring + 0x10 + k) [b])
      (fun a => Cond.ringWrite fn ring a && decide (k < 4)) (fun a => a.coalWrite fn completion ring k [b]) := by
  refine (happens_registerWrite_byte fn _ b).weaken (fun a h => ?_) fun a h => ?_
  · simp only [Cond.ringWrite, Bool.and_eq_true] at h ⊢
    exact h.1.1
  · simp only [Cond.ringWrite, Bool.and_eq_true, decide_eq_true_eq] at h
    obtain ⟨⟨-, hring⟩, hk⟩ := h
    obtain ⟨h1, h2, h3, h4, h5, h6⟩ := ringOffset_facts completion 0x10 hring rfl (by omega) hk
    rw [h1, State.writeRegWord_coal a fn k b h2 h3 h4 h5 h6]

theorem happens_registerWrite_chan (fn n k : Nat) (b : Byte) :
    Happens (fun t => .registerWrite t fn (0x1000 + 0x100 * n + k) [b])
      (fun a => a.hostAccess && decide (fn < 2) && decide (n < chanCount fn) && decide (k < 0xC0))
      (Eff.registerWrite3 fn n k b) := by
  refine (happens_registerWrite_byte fn _ b).weaken (fun a h => ?_) fun a h => ?_
  · simp only [Bool.and_eq_true] at h ⊢
    exact h.1.1
  · simp only [Bool.and_eq_true, decide_eq_true_eq] at h
    obtain ⟨⟨-, hn⟩, hk⟩ := h
    have hc := chanCount_le fn
    rw [State.writeRegWord_plain a fn _ b (by omega), Nat.div_add_mod', State.writeRegByte_chan a b hn hk]

theorem happens_registerWrite_msix (k : Nat) (b : Byte) : Happens (fun t => .registerWrite t 0 (0x8000 + k) [b])
    (fun a => a.hostAccess && decide (k < 0x8000)) (Eff.registerWrite4 k b) := by
  refine (happens_registerWrite_byte 0 _ b).weaken (fun a h => ?_) fun a h => ?_
  · simp only [Bool.and_eq_true] at h ⊢
    exact ⟨h.1, rfl⟩
  · simp only [Bool.and_eq_true, decide_eq_true_eq] at h
    rw [State.writeRegWord_plain a 0 _ b (by omega), Nat.div_add_mod', State.writeRegByte_msix a b h.2]

/-! ## The aperture (R46) -/

theorem happens_apertureRead (addr length : Nat) : Happens (.apertureRead · addr length)
    (fun a => a.hostAccess && decide (length ≤ 4096)) (Eff.apertureRead addr length) := by
  refine happens_of _ (fun _ _ => rfl) fun a h => ?_
  simp only [Bool.and_eq_true, decide_eq_true_eq] at h
  obtain ⟨ha, hl⟩ := h
  dsimp only
  rw [if_pos ha, Nat.min_eq_left hl]
  rfl

/-- Settles O4: ring by ring, register by register and access by access. -/
theorem ringAndWindowRows : Obligations.RingAndWindowRows :=
  ⟨⟨fun fn ring value => (happens_ringConsWrite fn ring value true).weaken (fun _ => id) fun a _ =>
        a.consWrite_completion fn ring value,
      fun fn ring value => (happens_ringConsWrite fn ring value false).weaken (fun _ => id) fun a _ =>
        a.consWrite_event fn ring value,
      happens_ringOverflowClear, fun _ _ _ => happens_of _ (fun _ _ => rfl) fun _ h => if_pos h⟩,
    happens_registerWrite, happens_registerWrite_config, happens_registerWrite_cons, happens_registerWrite_coal,
    happens_registerWrite_chan, happens_registerWrite_msix,
    fun _ => happens_of _ (fun _ _ => rfl) fun _ _ => if_pos ⟨rfl, rfl⟩,
    happens_apertureRead, fun _ _ => happens_of _ (fun _ _ => rfl) fun _ h => if_pos h⟩

end Sys2Proof.Machine

end

section

namespace Sys2Proof.Machine

/-! # Supply, boot, readiness and boundary scan -/

/-- A row that can happen in any power state is `anywhere` on a function of the state, which is what the statement says
where the row's condition holds. -/
theorem occurs_of {i : Nat → Instr} {ok : State → Bool} {after : State → State} (f : State → State)
    (hi : ∀ t s, exec (i t) s = anywhere t f s) (hf : ∀ a, ok a = true → f a = after a) : Occurs i ok after := by
  intro s t hk
  rw [hi, anywhere, hf _ hk]

theorem ne_true_of_not {c : Bool} (h : (!c) = true) : ¬ c = true := Bool.eq_false_iff.mp ((Bool.not_eq_true' c).mp h)

/-! ## Feeds and SHUTDOWN_N (R517, R576, R577) -/

theorem State.rise_free {s : State} (h : s.pw.shutdownLow = false) :
    s.rise = { s with pw := { s.pw with rising := true } } := if_neg (by simp [h])

theorem State.rise_held {s : State} (h : s.pw.shutdownLow = true) :
    s.rise = { s with pw := { s.pw with state := .heldShutdown } } := if_pos h

@[simp] theorem State.setFeed_shutdownLow (s : State) (b on : Bool) :
    (s.setFeed b on).pw.shutdownLow = s.pw.shutdownLow := by
  cases b <;> rfl

@[simp] theorem State.setFeed_steward (s : State) (b on : Bool) : (s.setFeed b on).pw.steward = s.pw.steward := by
  cases b <;> rfl

@[simp] theorem State.setFeed_powered (s : State) (b on : Bool) : (s.setFeed b on).powered = s.powered := by
  cases b <;> rfl

/-- Without feed `b` the module has power where the other feed is present. -/
@[simp] theorem State.setFeed_lost (s : State) (b : Bool) :
    ((s.setFeed b false).pw.feedA || (s.setFeed b false).pw.feedB) = s.pw.feed (!b) := by
  cases b <;> simp [State.setFeed, Power.feed]

theorem occurs_feedPresent_free (b : Bool) :
    Occurs (.feedPresent · b) (fun a => a.isOff && !a.pw.shutdownLow) (Eff.feedPresent b) := by
  refine occurs_of _ (fun t s => (rfl : execFeedPresent t b s = _)) fun a h => ?_
  simp only [Bool.and_eq_true, Bool.not_eq_true'] at h
  exact (if_pos h.1).trans (State.rise_free ((State.setFeed_shutdownLow _ b true).trans h.2))

theorem occurs_feedPresent_held (b : Bool) :
    Occurs (.feedPresent · b) (fun a => a.isOff && a.pw.shutdownLow) (Eff.feedPresent2 b) := by
  refine occurs_of _ (fun t s => (rfl : execFeedPresent t b s = _)) fun a h => ?_
  simp only [Bool.and_eq_true] at h
  exact (if_pos h.1).trans (State.rise_held ((State.setFeed_shutdownLow _ b true).trans h.2))

theorem occurs_feedLost_last (b : Bool) : Occurs (.feedLost · b) (fun a => a.pw.feed b && !a.pw.feed (!b))
    (fun a => (a.setFeed b false).cold .unpowered) := by
  refine occurs_of _ (fun t s => (rfl : execFeedLost t b s = _)) fun a h => ?_
  simp only [Bool.and_eq_true, Bool.not_eq_true'] at h
  exact (if_neg (by simp [h.1])).trans (if_pos (by simp [h.2]))

theorem occurs_feedLost_fault (b : Bool) : Occurs (.feedLost · b)
    (fun a => a.pw.feed b && a.pw.feed (!b) && a.powered && a.pw.steward) (Eff.feedLost b) := by
  refine occurs_of _ (fun t s => (rfl : execFeedLost t b s = _)) fun a h => ?_
  simp only [Bool.and_eq_true] at h
  obtain ⟨⟨⟨hb, hn⟩, hp⟩, hs⟩ := h
  exact (if_neg (by simp [hb])).trans ((if_neg (by simp [hn])).trans (if_neg (by simp [hp, hs])))

theorem occurs_feedLost_quiet (b : Bool) : Occurs (.feedLost · b)
    (fun a => a.pw.feed b && a.pw.feed (!b) && !(a.powered && a.pw.steward)) (fun a => a.setFeed b false) := by
  refine occurs_of _ (fun t s => (rfl : execFeedLost t b s = _)) fun a h => ?_
  simp only [Bool.and_eq_true] at h
  obtain ⟨⟨hb, hn⟩, hs⟩ := h
  exact (if_neg (by simp [hb])).trans ((if_neg (by simp [hn])).trans (if_pos (by simpa using hs)))

theorem occurs_feedRestored_fault (b : Bool) : Occurs (.feedRestored · b)
    (fun a => !a.isOff && !a.pw.feed b && a.isRetired (feedUnit b)) (Eff.feedRestored b) := by
  refine occurs_of _ (fun t s => (rfl : execFeedRestored t b s = _)) fun a h => ?_
  simp only [Bool.and_eq_true, Bool.not_eq_true'] at h
  obtain ⟨⟨ho, hb⟩, hr⟩ := h
  exact (if_neg (by simp [ho, hb])).trans (if_pos hr)

theorem occurs_feedRestored_quiet (b : Bool) : Occurs (.feedRestored · b)
    (fun a => !a.isOff && !a.pw.feed b && !a.isRetired (feedUnit b)) (fun a => a.setFeed b true) := by
  refine occurs_of _ (fun t s => (rfl : execFeedRestored t b s = _)) fun a h => ?_
  simp only [Bool.and_eq_true, Bool.not_eq_true'] at h
  obtain ⟨⟨ho, hb⟩, hr⟩ := h
  exact (if_neg (by simp [ho, hb])).trans (if_neg (Bool.eq_false_iff.mp hr))

/-! ## Secure boot (R557) -/

/-- Bring-up waits for the boot ROM, and the slots that it finds bootable are those it verified. -/
theorem Cond.booting_facts {ok : List Nat} {a : State} (h : Cond.booting ok a = true) :
    ¬ (a.pw.state != .starting || a.pw.steward) = true ∧ ∀ k, a.bootable ok k = ok.contains k := by
  simp only [Cond.booting, Bool.and_eq_true, beq_iff_eq, Bool.not_eq_true', List.all_eq_true] at h
  obtain ⟨⟨hst, hsw⟩, hall⟩ := h
  refine ⟨by simp [hst, hsw], fun k => ?_⟩
  by_cases hk : k ∈ ok
  · rw [hall k hk, List.contains_iff_mem.mpr hk]
  · simp [State.bootable, hk]

theorem happens_secureBoot_active (ok : List Nat) (carrier : List Byte) : Happens (.secureBoot · ok carrier)
    (fun a => Cond.booting ok a && ok.contains a.sec.active) (Eff.secureBoot carrier) := by
  refine happens_of _ (fun _ _ => rfl) fun a h => ?_
  simp only [Bool.and_eq_true] at h
  obtain ⟨hb, hk⟩ := h
  obtain ⟨hwaits, hboot⟩ := Cond.booting_facts hb
  exact (if_neg hwaits).trans (congrArg State.stewardUp (if_pos ((hboot _).trans hk)))

theorem happens_secureBoot_other (ok : List Nat) (carrier : List Byte) : Happens (.secureBoot · ok carrier)
    (fun a => Cond.booting ok a && !ok.contains a.sec.active && ok.contains (1 - a.sec.active))
    (Eff.secureBoot2 carrier) := by
  refine happens_of _ (fun _ _ => rfl) fun a h => ?_
  simp only [Bool.and_eq_true] at h
  obtain ⟨⟨hb, hk⟩, hk'⟩ := h
  obtain ⟨hwaits, hboot⟩ := Cond.booting_facts hb
  exact (if_neg hwaits).trans (congrArg State.stewardUp
    ((if_neg (hboot _ ▸ ne_true_of_not hk)).trans (if_pos ((hboot _).trans hk'))))

theorem happens_secureBoot_recovery (carrier : List Byte) :
    Happens (fun t => .secureBoot t [] carrier) (Cond.booting []) (Eff.secureBoot3 carrier) := by
  refine happens_of _ (fun _ _ => rfl) fun a h => ?_
  obtain ⟨hwaits, hboot⟩ := Cond.booting_facts h
  have hnone (k : Nat) : ¬ a.bootable [] k = true := by simp [hboot]
  exact (if_neg hwaits).trans (congrArg State.stewardUp ((if_neg (hnone _)).trans (if_neg (hnone _))))

/-! ## Readiness (R535, R592) -/

/-- A function that becomes ready for the first time: served, calibrated, scanned where it is the identity scan, and
announced, with the end of calibration where it is bit 29. -/
theorem happens_functionReady_first (b : Nat) (values : List Nat) (mems : List (Nat × List Byte)) (stuck : List Nat) :
    Happens (.functionReady · b values () mems stuck) (Cond.firstReady b) (fun a =>
      let s3 := (a.served b).calibrated b values
      let s4 := if b = 30 then (s3.scanBuses (List.range 4) mems stuck).discoverAll else s3
      let s5 := (s4.setReady b).event 0x0101 0 b
      (if b = 29 then s5.calDone else s5).finishResets b) := by
  refine happens_of _ (fun _ _ => rfl) fun a h => ?_
  simp only [Cond.firstReady, Bool.and_eq_true, List.isEmpty_iff] at h
  obtain ⟨hc, hn⟩ := h
  refine (if_neg (by simp [hc])).trans ?_
  simp only [hn, List.foldl_nil, List.isEmpty_nil, if_true]

theorem happens_functionReady (b : Nat) (values : List Nat) (mems : List (Nat × List Byte)) (stuck : List Nat) :
    Happens (.functionReady · b values () mems stuck) (fun a => Cond.firstReady b a && b != 29 && b != 30)
      (Eff.functionReady b values) := by
  refine (happens_functionReady_first b values mems stuck).weaken (fun a h => ?_) fun a h => ?_
  all_goals simp only [Bool.and_eq_true, bne_iff_ne] at h; obtain ⟨⟨hr, h29⟩, h30⟩ := h
  · exact hr
  · simp only [if_neg h29, if_neg h30]
    rfl

/-- Bit 30 has nothing to serve and no units to calibrate. -/
theorem State.calibrated_scan (s : State) (values : List Nat) : (s.served 30).calibrated 30 values = s := rfl

theorem happens_functionReady_scan (values : List Nat) (mems : List (Nat × List Byte)) (stuck : List Nat) :
    Happens (.functionReady · 30 values () mems stuck) (Cond.firstReady 30) (Eff.functionReady2 mems stuck) :=
  (happens_functionReady_first 30 values mems stuck).weaken (fun _ => id) fun a _ => by
    simp only [State.calibrated_scan, if_true]
    rw [if_neg (by decide)]
    rfl

theorem happens_functionReady_calDone (values : List Nat) (mems : List (Nat × List Byte)) (stuck : List Nat) :
    Happens (.functionReady · 29 values () mems stuck) (Cond.firstReady 29) Eff.functionReady3 :=
  (happens_functionReady_first 29 values mems stuck).weaken (fun _ => id) fun _ _ => rfl

theorem happens_functionReady_again (b : Nat) (values : List Nat) (mems : List (Nat × List Byte)) (stuck : List Nat) :
    Happens (.functionReady · b values () mems stuck) (fun a => Cond.readyAgain b a && b != 29 && b != 30)
      (Eff.functionReady4 b) := by
  refine happens_of _ (fun _ _ => rfl) fun a h => ?_
  simp only [Cond.readyAgain, Bool.and_eq_true, bne_iff_ne] at h
  obtain ⟨⟨⟨hc, hn⟩, h29⟩, h30⟩ := h
  refine (if_neg (by simp [hc])).trans ?_
  simp only [if_neg h29, if_neg h30, if_neg (ne_true_of_not hn)]
  rfl

/-! ## Functions that fail (R592) -/

/-- A unit of the fault classes, when bit `b` may fail: its fault is logged unless the unit has been retired. -/
theorem happens_readyTimeout_unit (b detail : Nat) (u : Unit3) :
    Happens (fun t => .readyTimeout t b u.cls u.pool u.unit detail)
      (fun a => a.canFail b && b != 30 && decide (u.pool < poolCount u.cls ∧ u.unit < poolUnits u.cls) && !a.isRetired u)
      (Eff.readyTimeout3 b detail u) := by
  refine happens_of _ (fun _ _ => rfl) fun a h => ?_
  simp only [Bool.and_eq_true, bne_iff_ne, decide_eq_true_eq] at h
  obtain ⟨⟨⟨hc, h30⟩, hu⟩, hr⟩ := h
  have hr' : ¬ (Cond.missing b a).isRetired u = true := ne_true_of_not hr
  refine (if_neg (by simp [hc])).trans ?_
  simp only [if_neg h30, if_pos hu]
  exact congrArg (fun d : State => d.finishAll (d.resetsOf b) .notReady Cmd.aux) (if_neg hr')

/-- Class 22 has no pools: the fault is out of scope. -/
theorem happens_readyTimeout_outOfScope (b detail : Nat) : Happens (.readyTimeout · b 22 0 0 detail)
    (fun a => a.canFail b && b != 30) (Eff.readyTimeout b detail) := by
  refine happens_of _ (fun _ _ => rfl) fun a h => ?_
  simp only [Bool.and_eq_true, bne_iff_ne] at h
  obtain ⟨hc, h30⟩ := h
  refine (if_neg (by simp [hc])).trans ?_
  dsimp only
  rw [if_neg h30]
  rfl

theorem happens_readyTimeout_scan (detail : Nat) :
    Happens (.readyTimeout · 30 22 0 0 detail) (fun a => a.canFail 30) (Eff.readyTimeout2 detail) :=
  happens_of _ (fun _ _ => rfl) fun _ h => if_neg (by simp [h])

/-! ## Boundary scan (R559) -/

theorem tapOf_runs {i : Nat} (h3 : i ≠ 3) (h4 : i ≠ 4) : ¬ (tapOf i = .extest ∨ tapOf i = .clamp) := by
  unfold tapOf
  split <;> simp_all

theorem occurs_tapInstructionLoad_extest :
    Occurs (.tapInstructionLoad · 3) (fun a => !a.isOff) (Cond.scanHeld .extest) :=
  occurs_of _ (fun t s => (rfl : execTapInstructionLoad t 3 s = _)) fun _ h =>
    (if_neg (ne_true_of_not h)).trans (if_pos (Or.inl rfl))

theorem occurs_tapInstructionLoad_clamp :
    Occurs (.tapInstructionLoad · 4) (fun a => !a.isOff) (Cond.scanHeld .clamp) :=
  occurs_of _ (fun t s => (rfl : execTapInstructionLoad t 4 s = _)) fun _ h =>
    (if_neg (ne_true_of_not h)).trans (if_pos (Or.inr rfl))

theorem occurs_tapInstructionLoad_runs (i : Nat) : Occurs (.tapInstructionLoad · i)
    (fun a => !a.isOff && i != 3 && i != 4) (Eff.tapInstructionLoad i) := by
  refine occurs_of _ (fun t s => (rfl : execTapInstructionLoad t i s = _)) fun a h => ?_
  simp only [Bool.and_eq_true, bne_iff_ne] at h
  obtain ⟨⟨ho, h3⟩, h4⟩ := h
  exact (if_neg (ne_true_of_not ho)).trans (if_neg (tapOf_runs h3 h4))

theorem occurs_tapTestLogicReset_held :
    Occurs .tapTestLogicReset (fun a => !a.isOff && a.sec.tapHeld) Eff.tapTestLogicReset := by
  refine occurs_of _ (fun t s => (rfl : execTapTestLogicReset t s = _)) fun a h => ?_
  simp only [Bool.and_eq_true] at h
  exact (if_neg (ne_true_of_not h.1)).trans (if_pos h.2)

theorem occurs_tapTestLogicReset_runs :
    Occurs .tapTestLogicReset (fun a => !a.isOff && !a.sec.tapHeld) Eff.tapTestLogicReset2 := by
  refine occurs_of _ (fun t s => (rfl : execTapTestLogicReset t s = _)) fun a h => ?_
  simp only [Bool.and_eq_true] at h
  exact (if_neg (ne_true_of_not h.1)).trans (if_neg (ne_true_of_not h.2))

/-- Settles O51, row by row. -/
theorem supplyBootAndReadiness : Obligations.SupplyBootAndReadiness :=
  ⟨occurs_feedPresent_free, occurs_feedPresent_held, occurs_feedLost_last, occurs_feedLost_fault,
    occurs_feedLost_quiet, occurs_feedRestored_fault, occurs_feedRestored_quiet,
    occurs_of _ (fun t s => (rfl : execShutdownNLow t s = _)) fun _ h => if_pos h,
    occurs_of _ (fun t s => (rfl : execShutdownNLow t s = _)) fun _ h => if_neg (ne_true_of_not h),
    occurs_of _ (fun t s => (rfl : execShutdownNRise t s = _)) fun _ h => (if_pos h).trans (State.rise_free rfl),
    occurs_of _ (fun t s => (rfl : execShutdownNRise t s = _)) fun _ h => if_neg (ne_true_of_not h),
    occurs_of _ (fun t s => (rfl : execPowerGood t s = _)) fun _ h => if_pos h,
    happens_secureBoot_active, happens_secureBoot_other, happens_secureBoot_recovery,
    happens_functionReady, happens_functionReady_scan, happens_functionReady_calDone, happens_functionReady_again,
    happens_readyTimeout_outOfScope, happens_readyTimeout_scan, happens_readyTimeout_unit,
    occurs_tapInstructionLoad_extest, occurs_tapInstructionLoad_clamp, occurs_tapInstructionLoad_runs,
    occurs_tapTestLogicReset_held, occurs_tapTestLogicReset_runs⟩

end Sys2Proof.Machine

end

section

namespace Sys2Proof.Machine

/-! # Function resets, the link, standby, thermal limits and the alert contact -/

/-! ## The link (R26, R45) -/

theorem happens_linkL0Reached (width speed : Nat) : Happens (.linkL0Reached · width speed)
    (fun a => !a.host.perst && !a.host.untrainable && a.linkWidths.contains width && decide (1 ≤ speed) &&
      decide (speed ≤ 5))
    (Eff.linkL0Reached width speed) := by
  refine happens_of _ (fun _ _ => rfl) fun a h => ?_
  simp only [Bool.and_eq_true, Bool.not_eq_true', decide_eq_true_eq] at h
  obtain ⟨⟨⟨⟨hp, hu⟩, hw⟩, hlo⟩, hhi⟩ := h
  exact if_neg (by simp only [hp, hu, hw]; simp; omega)

/-- No lane of a half that goes on has been retired. -/
theorem State.isRetired_lane {s : State} {lane : Nat} (h : s.halfDead (lane / 8) = false) :
    s.isRetired ⟨12, 0, lane⟩ = false := by
  refine Bool.eq_false_iff.mpr fun hr => Bool.eq_false_iff.mp h ?_
  exact List.any_eq_true.mpr ⟨_, List.contains_iff_mem.mp hr, by simp⟩

/-- The first lane of a half passes the test at the head of a lane's failure. -/
theorem State.pcieLaneFail_reaches {s : State} {lane : Nat} (hl : lane ≤ 15) (h : s.halfDead (lane / 8) = false) :
    ¬ (decide (lane > 15) || s.isRetired ⟨12, 0, lane⟩ ||
      (s.halfDead (lane / 8) && !s.halfDead (1 - lane / 8))) = true := by
  simp [State.isRetired_lane h, h, hl]

theorem happens_pcieLaneFailure_half (lane width : Nat) : Happens (fun t => .pcieLaneFailure t [lane] width)
    (fun a => decide (lane ≤ 15) && !a.halfDead (lane / 8) && !a.halfDead (1 - lane / 8))
    (Eff.pcieLaneFailure lane) := by
  refine happens_of _ (fun _ _ => rfl) fun a h => ?_
  simp only [Bool.and_eq_true, decide_eq_true_eq, Bool.not_eq_true'] at h
  obtain ⟨⟨hl, hd⟩, ho⟩ := h
  show a.pcieLaneFail width lane false = _
  unfold State.pcieLaneFail
  exact (if_neg (by simpa using State.pcieLaneFail_reaches hl hd)).trans (if_neg (Bool.eq_false_iff.mp ho))

theorem happens_pcieLaneFailure_last (lane width : Nat) : Happens (fun t => .pcieLaneFailure t [lane] width)
    (fun a => decide (lane ≤ 15) && !a.halfDead (lane / 8) && a.halfDead (1 - lane / 8) && decide (4 ≤ width) &&
      a.host.linkWidth != 0) (Eff.pcieLaneFailure2 lane) := by
  refine happens_of _ (fun _ _ => rfl) fun a h => ?_
  simp only [Bool.and_eq_true, decide_eq_true_eq, Bool.not_eq_true', bne_iff_ne] at h
  obtain ⟨⟨⟨⟨hl, hd⟩, ho⟩, hw⟩, hup⟩ := h
  have hn : narrowWidth width = 4 := if_pos hw
  show a.pcieLaneFail width lane false = _
  unfold State.pcieLaneFail
  refine (if_neg (by simpa using State.pcieLaneFail_reaches hl hd)).trans ((if_pos ho).trans ?_)
  simp [hn, hd, hup]

/-! ## Standby (R536, R580) -/

theorem happens_functionD3hot_standby (fn : Nat) (l2 : Bool) : Happens (.functionD3hot · fn l2)
    (fun a => decide (fn ≤ 1) && Cond.mayStandBy (Cond.asleep fn l2 a))
    (fun a => (Cond.asleep fn l2 a).enterStandby) := by
  refine happens_of _ (fun _ _ => rfl) fun a h => ?_
  simp only [Bool.and_eq_true, decide_eq_true_eq] at h
  exact (if_neg (Nat.not_lt.mpr h.1)).trans (if_pos h.2)

theorem happens_functionD3hot_runs (fn : Nat) (l2 : Bool) : Happens (.functionD3hot · fn l2)
    (fun a => decide (fn ≤ 1) && !Cond.mayStandBy (Cond.asleep fn l2 a)) (Cond.asleep fn l2) := by
  refine happens_of _ (fun _ _ => rfl) fun a h => ?_
  simp only [Bool.and_eq_true, decide_eq_true_eq] at h
  exact (if_neg (Nat.not_lt.mpr h.1)).trans (if_neg (ne_true_of_not h.2))

theorem happens_functionD0 (fn : Nat) :
    Happens (.functionD0 · fn) (fun _ => decide (fn ≤ 1)) (Eff.functionD0 fn) :=
  happens_of _ (fun _ _ => rfl) fun _ h => if_neg (Nat.not_lt.mpr (of_decide_eq_true h))

theorem happens_standbyWake_due (bits : Nat) : Happens (.standbyWake · bits)
    (fun a => a.pw.state == .standby && a.pw.wakeDue) (Eff.standbyWake bits) := by
  refine happens_of _ (fun _ _ => rfl) fun a h => ?_
  simp only [Bool.and_eq_true, beq_iff_eq] at h
  obtain ⟨hs, hw⟩ := h
  have hrun : a.leaveStandby.pw.state = .running := by simp [State.leaveStandby, hs]
  simp only [if_pos hw, if_pos hrun]

theorem happens_standbyWake_running (bits : Nat) : Happens (.standbyWake · bits)
    (fun a => a.pw.state == .running && !a.pw.wakeDue) (Eff.standbyWake2 bits) := by
  refine happens_of _ (fun _ _ => rfl) fun a h => ?_
  simp only [Bool.and_eq_true, beq_iff_eq] at h
  simp only [if_neg (ne_true_of_not h.2), if_pos h.1]

/-! ## Thermal limits (R582, R583) -/

theorem happens_thermalThrottleStep_hot :
    Happens (.thermalThrottleStep · true) (fun a => a.pw.stepDue a.now) Eff.thermalThrottleStep :=
  happens_of _ (fun _ _ => rfl) fun _ h => (if_neg (by simp [h])).trans (if_pos rfl)

theorem happens_thermalThrottleStep_cool (w : Nat) : Happens (.thermalThrottleStep · false)
    (fun a => a.pw.stepDue a.now && a.pw.thermalCap == some w) (Eff.thermalThrottleStep2 w) := by
  refine happens_of _ (fun _ _ => rfl) fun a h => ?_
  simp only [Bool.and_eq_true, beq_iff_eq] at h
  obtain ⟨hd, hc⟩ := h
  refine (if_neg (by simp [hd])).trans ((if_neg Bool.false_ne_true).trans ?_)
  simp only [hc]

theorem happens_thermalTrip (channel : Nat) :
    Happens (.thermalTrip · channel) (fun a => a.pw.state != .thermalTrip) (Eff.thermalTrip channel) :=
  happens_of _ (fun _ _ => rfl) fun _ h => if_neg (bne_iff_ne.mp h)

/-- Settles O52, row by row. -/
theorem resetsLinkAndThermal : Obligations.ResetsLinkAndThermal :=
  ⟨happens_of _ (fun _ _ => rfl) fun _ _ => rfl, happens_of _ (fun _ _ => rfl) fun _ _ => rfl,
    happens_of _ (fun _ _ => rfl) fun _ _ => rfl,
    fun _ => happens_of _ (fun _ _ => rfl) fun _ h => if_pos (of_decide_eq_true h),
    happens_linkL0Reached, happens_pcieLaneFailure_half, happens_pcieLaneFailure_last,
    happens_functionD3hot_standby, happens_functionD3hot_runs, happens_functionD0,
    happens_standbyWake_due, happens_standbyWake_running,
    happens_of _ (fun _ _ => rfl) fun _ h => if_pos h, happens_of _ (fun _ _ => rfl) fun _ _ => rfl,
    happens_thermalThrottleStep_hot, happens_thermalThrottleStep_cool, happens_thermalTrip,
    fun _ _ => happens_of _ (fun _ _ => rfl) fun _ _ => rfl, happens_of _ (fun _ _ => rfl) fun _ h => if_pos h⟩

end Sys2Proof.Machine

end

section

namespace Sys2Proof.Machine

/-! # The command protocol: how a step answers, session numbers and the SYS verbs -/

/-! ## Every command is answered (log entries 1 and 8) -/

theorem step_withPending_cons (c : Instr) (q : List Instr) (s : State) :
    step (s.withPending (c :: q)) = exec c (s.withPending q) := rfl

theorem step_idle {s : State} (h : s.pending = []) : step s = .next s := by
  simp only [step, h]

/-- Settles O1: the two cases of `step`. -/
theorem stepRunsFront : Obligations.StepRunsFront := ⟨step_withPending_cons, fun _ => step_idle⟩

/-- A command in front is answered, whatever its row, and only it leaves the queue. -/
theorem step_takes_front (c : Instr) (q : List Instr) (s : State) :
    ∃ s', step (s.withPending (c :: q)) = .next s' ∧ s'.pending = q := by
  obtain ⟨s', hs, hg⟩ := exec_goes c (s.withPending q)
  exact ⟨s', hs, hg.pending⟩

theorem State.answers_all (s : State) : s.answers := by
  unfold State.answers
  cases hq : s.pending with
  | nil => exact ⟨s, step_idle hq⟩
  | cons c q =>
    obtain ⟨s', hs, -⟩ := step_takes_front c q s
    have hself : s.withPending (c :: q) = s := by rw [← hq]; rfl
    exact ⟨s', hself ▸ hs⟩

/-- Settles O55: every row answers and keeps the rest of the queue (`exec_goes`), and a step runs a row or idles. -/
theorem everyCommandAnswers : Obligations.EveryCommandAnswers := ⟨step_takes_front, State.answers_all⟩

/-! ## Session numbers (R59) -/

theorem sessionOf_lt (v last : Nat) : sessionOf v last < 2 ^ 32 := by
  unfold sessionOf
  dsimp only
  split
  · exact Nat.mod_lt _ (by decide)
  · split <;> exact Nat.mod_lt _ (by decide)

/-- Of the three successive numbers that `sessionOf` tries, 0 and the previous session refuse at most two. -/
theorem sessionOf_new (v last : Nat) : sessionOf v last ≠ 0 ∧ sessionOf v last ≠ last := by
  unfold sessionOf
  simp only [Bool.and_eq_true, bne_iff_ne]
  split
  · assumption
  · split
    · assumption
    · omega

/-- A function that has a session keeps it. -/
theorem State.withSession_kept {s : State} {fn : Nat} (h : (s.func fn).session ≠ 0) : s.withSession fn = s := if_pos h

/-- A function that has none is given a new number. -/
theorem State.withSession_created {s : State} {fn : Nat} (h : (s.func fn).session = 0) :
    s.withSession fn = s.drawFree.setFunc fn
      { s.func fn with session := sessionOf (s.freeNat 32) (s.func fn).lastSession } :=
  if_neg (not_not_intro h)

/-- Settles O60: the number is the one of `sessionOf`, and `setFunc` replaces the one function. -/
theorem sessionNumbersAreNew : Obligations.SessionNumbersAreNew := by
  refine ⟨fun _ _ => State.withSession_kept, fun s fn h => ?_, fun f h => ⟨rfl, if_neg h⟩⟩
  obtain ⟨hne, hnew⟩ := sessionOf_new (s.freeNat 32) (s.func fn).lastSession
  rw [State.withSession_created h]
  exact ⟨_, hne, hnew, sessionOf_lt _ _, State.setFunc_same _ _ _, fun _ hk => State.setFunc_other _ _ _ hk⟩

/-! ## The SYS verbs (R68, R69, R71, R72) -/

theorem sysQueryReady_met {c : Cmd} {a : State} (h : Cond.sysQueryReady c a = true) :
    sysQueryReady c a = .done .ok a.ready.toNat a := by
  simp only [Cond.sysQueryReady, Bool.and_eq_true, decide_eq_true_eq, beq_iff_eq] at h
  obtain ⟨hlt, hmet⟩ := h
  exact (if_neg (Nat.not_le.mpr hlt)).trans (if_pos hmet)

@[simp] theorem ascii16_length (x : List Nat) : (ascii16 x).length = 16 := by
  simp [ascii16]

/-- Both pages of `SYS.GET_INFO` take 64 bytes (R69). -/
theorem infoPage_length (n : Nat) (a : State) : (if n = 0 then a.infoPage0 else infoPage1).length = 64 := by
  split
  · simp [State.infoPage0, partNumber, serialNumber, pack_length]
  · simp [infoPage1, pack_length]

theorem sysGetInfo_page {c : Cmd} {a : State} (hpage : u16 c.payload 0 ≤ 1) (hz : zeros c.payload 2 2 = true) :
    sysGetInfo c a = .data (if u16 c.payload 0 = 0 then a.infoPage0 else infoPage1) 64 a :=
  if_neg (by simp [hz, hpage])

theorem completes_sysGetInfo : Completes .sysGetInfo 0x0103 Cond.sysGetInfo Eff.sysGetInfo := by
  refine completes_of sysGetInfo (fun _ _ _ _ => rfl) fun c a h => ?_
  simp only [Cond.sysGetInfo, Bool.and_eq_true, decide_eq_true_eq] at h
  obtain ⟨⟨hpage, hz⟩, hroom⟩ := h
  rw [sysGetInfo_page hpage hz, conclude_data (Nat.le_trans (Nat.le_of_eq (infoPage_length _ a)) hroom)]

/-- What a reset may name passes the test at the head of the verb. -/
theorem Cond.sysResetFunction_reaches {c : Cmd} {a : State} (h : Cond.sysResetFunction c a = true) :
    ¬ ((!zeros c.payload 1 3) = true ∨ resetCount (u8 c.payload 0) = 0 ∨
      (u32 c.payload 4 ≠ 0xFFFFFFFF ∧ resetCount (u8 c.payload 0) ≤ u32 c.payload 4)) := by
  simp only [Cond.sysResetFunction, Bool.and_eq_true, bne_iff_ne, Bool.or_eq_true, beq_iff_eq,
    decide_eq_true_eq] at h
  obtain ⟨⟨⟨hz, hcount⟩, hobj⟩, -⟩ := h
  simp only [hz, hcount, Bool.not_true, Bool.false_eq_true, false_or]
  omega

/-- Nothing outside what is reset consumes an object of it. -/
theorem Cond.sysResetFunction_unconsumed {c : Cmd} {a : State} (h : Cond.sysResetFunction c a = true) :
    ((a.resetList (u8 c.payload 0) (u32 c.payload 4)).findSome? fun n => a.resetConsumer (u8 c.payload 0) n
      (if u32 c.payload 4 = 0xFFFFFFFF then u8 c.payload 0 else 0)) = none := by
  simp only [Cond.sysResetFunction, Bool.and_eq_true, List.all_eq_true, Option.isNone_iff_eq_none] at h
  exact List.findSome?_eq_none_iff.mpr h.2

theorem completes_sysResetFunction :
    Completes .sysResetFunction 0x0105 Cond.sysResetFunction Eff.sysResetFunction := by
  refine completes_of sysResetFunction (fun _ _ _ _ => rfl) fun c a h => ?_
  unfold sysResetFunction Eff.sysResetFunction
  dsimp only
  rw [if_neg (Cond.sysResetFunction_reaches h), Cond.sysResetFunction_unconsumed h]
  dsimp only
  generalize List.find? _ _ = started
  cases started <;> rfl

/-- Settles O7: under each verb's condition its meaning has one outcome, which the command concludes with. -/
theorem sysVerbsComplete : Obligations.SysVerbsComplete :=
  ⟨completes_of sysQueryReady (fun _ _ _ _ => rfl) fun _ _ h => by rw [sysQueryReady_met h, conclude_done],
    completes_sysGetInfo, completes_of sysNop (fun _ _ _ _ => rfl) fun _ _ _ => rfl, completes_sysResetFunction⟩

end Sys2Proof.Machine

end

section

namespace Sys2Proof.Machine

/-! # The fast control window: the key, posted writes, strobes, occurrences and the resync -/

/-- A full write to a window that the host can reach passes the test at the head of its row. -/
theorem State.hostAccess_reaches {a : State} (h : a.hostAccess = true) : ¬ (!a.hostAccess || !true) = true := by
  simp [h]

/-! ## The key and FCW.ENABLE (R76, R77, R81) -/

/-- A key write reaches the function whose window it is in. -/
theorem happens_keyUnlockWrite (fn value : Nat) :
    Happens (.keyUnlockWrite · fn value) (Cond.fullWrite fn true) (Eff.keyUnlockWrite fn value) :=
  happens_of _ (fun _ _ => rfl) fun _ h => if_pos (by simpa [Cond.fullWrite] using h)

theorem happens_fcwEnableWrite_open (value : Nat) : Happens (.fcwEnableWrite · value true)
    (fun a => a.hostAccess && (a.func 0).keyOpen) (Eff.fcwEnableWrite value) := by
  refine happens_of _ (fun _ _ => rfl) fun a h => ?_
  obtain ⟨ha, hkey⟩ := Bool.and_eq_true_iff.mp h
  exact (if_neg (State.hostAccess_reaches ha)).trans (if_pos hkey)

theorem happens_fcwEnableWrite_closed (value : Nat) : Happens (.fcwEnableWrite · value true)
    (fun a => a.hostAccess && !(a.func 0).keyOpen) Eff.fcwEnableWrite2 := by
  refine happens_of _ (fun _ _ => rfl) fun a h => ?_
  obtain ⟨ha, hkey⟩ := Bool.and_eq_true_iff.mp h
  exact (if_neg (State.hostAccess_reaches ha)).trans (if_neg (ne_true_of_not hkey))

/-- A partial write to FCW.ENABLE is ignored altogether, with the key open or closed. -/
theorem happens_fcwEnableWrite_partial (value : Nat) :
    Happens (.fcwEnableWrite · value false) (fun _ => true) (fun a => a) :=
  happens_of _ (fun _ _ => rfl) fun _ _ => if_pos (by simp)

/-! ## FCW.RESYNC and FCW.STATUS (R78, R81, R87) -/

theorem happens_fcwResyncWrite_idle (mask : Nat) : Happens (.fcwResyncWrite · mask true)
    (fun a => a.hostAccess && !a.fcw.resyncBusy) (Eff.fcwResyncWrite mask) := by
  refine happens_of _ (fun _ _ => rfl) fun a h => ?_
  obtain ⟨ha, hidle⟩ := Bool.and_eq_true_iff.mp h
  exact (if_neg (State.hostAccess_reaches ha)).trans (if_neg (ne_true_of_not hidle))

theorem happens_fcwResyncWrite_busy (mask : Nat) : Happens (.fcwResyncWrite · mask true)
    (fun a => a.hostAccess && a.fcw.resyncBusy) Eff.fcwResyncWrite2 := by
  refine happens_of _ (fun _ _ => rfl) fun a h => ?_
  obtain ⟨ha, hbusy⟩ := Bool.and_eq_true_iff.mp h
  exact (if_neg (State.hostAccess_reaches ha)).trans (if_pos hbusy)

theorem happens_resyncComplete : Happens .resyncComplete (fun a => a.fcw.resyncBusy) Eff.resyncComplete :=
  happens_of _ (fun _ _ => rfl) fun _ h => if_pos h

theorem happens_fcwStatusClear (value : Nat) :
    Happens (.fcwStatusClear · value true) (fun a => a.hostAccess) (Eff.fcwStatusClear value) :=
  happens_of _ (fun _ _ => rfl) fun _ h => if_neg (State.hostAccess_reaches h)

/-! ## Strobes and occurrences (R83, R84, R85) -/

theorem happens_updateStrobeWrite (mask : Nat) : Happens (.updateStrobeWrite · mask)
    (fun a => a.hostAccess && a.fcw.enable) (Eff.updateStrobeWrite mask) :=
  happens_of _ (fun _ _ => rfl) fun _ h => if_pos h

/-- When every unit that remains can take the occurrence, a row that names no unit gives it to all of them. -/
theorem State.takers_all {a : State} {group : Nat} {left : List Nat}
    (h : (left.all fun u => a.unitReady group u) = true) :
    (left.filter fun u => ((none : Option Nat).isNone || none == some u) && a.unitReady group u) = left :=
  List.filter_eq_self.mpr fun u hu => by simpa using List.all_eq_true.mp h u hu

theorem happens_strobeOccurrenceApply (group : Nat) (o : Occ) (vecs : List (Nat × Nat)) :
    Happens (.strobeOccurrenceApply · group none vecs) (Cond.occurrence group o)
      (Eff.strobeOccurrenceApply group o vecs) := by
  refine happens_of _ (fun _ _ => rfl) fun a h => ?_
  simp only [Cond.occurrence, Bool.and_eq_true, decide_eq_true_eq, beq_iff_eq, Bool.not_eq_true'] at h
  obtain ⟨⟨⟨hgroup, hocc⟩, hfree⟩, hready⟩ := h
  have hreach : ¬ (decide (group > 31) || a.groupHeld group) = true := by
    simp only [hfree, Bool.or_false, decide_eq_true_eq]
    omega
  simp only [hocc, if_neg hreach, State.takers_all hready]

/-- Settles O5, row by row. -/
theorem fastControlRows : Obligations.FastControlRows :=
  ⟨happens_keyUnlockWrite, happens_fcwEnableWrite_open, happens_fcwEnableWrite_closed, happens_updateStrobeWrite,
    happens_fcwResyncWrite_idle, happens_fcwResyncWrite_busy, happens_resyncComplete, happens_fcwStatusClear,
    happens_strobeOccurrenceApply⟩

/-- Settles O58: each clause is a row above, whose condition the access, the key and the BUSY flag give. -/
theorem keyAndPostedWrites : Obligations.KeyAndPostedWrites := by
  intro s t hp ha
  have row {test : Bool} (h : test = true) : ((s.advance t).hostAccess && test) = true :=
    Bool.and_eq_true_iff.mpr ⟨ha, h⟩
  exact ⟨fun fn value hfn => happens_keyUnlockWrite fn value s t hp (by simp [Cond.fullWrite, ha, hfn]),
    fun value hopen => happens_fcwEnableWrite_open value s t hp (row hopen),
    fun value hclosed => happens_fcwEnableWrite_closed value s t hp (row ((Bool.not_eq_true' _).mpr hclosed)),
    fun value => happens_fcwEnableWrite_partial value s t hp rfl,
    fun mask hbusy => happens_fcwResyncWrite_busy mask s t hp (row hbusy)⟩

end Sys2Proof.Machine

end

section

namespace Sys2Proof.Machine

/-! # Time base: module time, the reference rows and PPS -/

/-- Settles O56: every row goes (`exec_goes`), and what goes keeps TICK from running back, what was sent and the
counter of free values. -/
theorem clockOutputsAndFreeValues : Obligations.ClockOutputsAndFreeValues := by
  intro i s s' h
  obtain ⟨t, ht, hg⟩ := exec_goes i s
  cases ht.symm.trans h
  exact ⟨hg.time, hg.out, hg.drawn⟩

/-! ## Oscillators (R89, R90, R91) -/

/-- An oscillator that may be retired passes the tests at the head of `State.oscFail`, whatever the clock state holds. -/
theorem Cond.oscillator_reaches {osc : Nat} {a : State} (h : Cond.oscillator osc a = true) :
    ¬ osc > 1 ∧ ¬ (decide (osc > 1) || a.isRetired ⟨13, 0, osc⟩) = true ∧ ¬ a.sparesLeft 13 0 = 0 := by
  simp only [Cond.oscillator, Bool.and_eq_true, decide_eq_true_eq, Bool.not_eq_true', bne_iff_ne] at h
  obtain ⟨⟨hosc, hret⟩, hspare⟩ := h
  have hle : ¬ osc > 1 := Nat.not_lt.mpr hosc
  exact ⟨hle, by simp [hle, hret], hspare⟩

/-- The standby oscillator is retired as a masked fault. -/
theorem State.oscFail_standby {osc : Nat} {a : State} (ck : Clock) (h : Cond.oscillator osc a = true)
    (hs : osc ≠ ck.activeOsc) : ({ a with ck } : State).oscFail osc false =
      ({ a with ck := { ck with oscDead := ck.oscDead ++ [osc] } } : State).faultMasked ⟨13, 0, osc⟩ {} := by
  obtain ⟨-, hreach, hspare⟩ := Cond.oscillator_reaches h
  exact (if_neg hreach).trans ((if_neg hspare).trans (if_neg hs))

/-- The active oscillator hands over to the other one. -/
theorem State.oscFail_active {osc : Nat} {a : State} (ck : Clock) (h : Cond.oscillator osc a = true)
    (hs : osc = ck.activeOsc) : ({ a with ck } : State).oscFail osc false =
      (({ a with ck := { ck with oscDead := ck.oscDead ++ [osc], activeOsc := 1 - osc } } : State).event
        0x0204 (6 + (1 - osc)) (6 + osc)).faultMasked ⟨13, 0, osc⟩ { takenBy := 1 - osc } := by
  obtain ⟨-, hreach, hspare⟩ := Cond.oscillator_reaches h
  exact (if_neg hreach).trans ((if_neg hspare).trans (if_pos hs))

theorem happens_ocxoHardFault_standby (osc : Nat) : Happens (.ocxoHardFault · osc)
    (fun a => Cond.oscillator osc a && osc != a.ck.activeOsc) (Eff.ocxoHardFault osc) := by
  refine happens_of _ (fun _ _ => rfl) fun a h => ?_
  simp only [Bool.and_eq_true, bne_iff_ne] at h
  obtain ⟨hosc, hstandby⟩ := h
  exact (if_neg (Cond.oscillator_reaches hosc).1).trans (State.oscFail_standby _ hosc hstandby)

theorem happens_ocxoHardFault_active (osc : Nat) : Happens (.ocxoHardFault · osc)
    (fun a => Cond.oscillator osc a && osc == a.ck.activeOsc) (Eff.ocxoHardFault2 osc) := by
  refine happens_of _ (fun _ _ => rfl) fun a h => ?_
  simp only [Bool.and_eq_true, beq_iff_eq] at h
  obtain ⟨hosc, hactive⟩ := h
  exact (if_neg (Cond.oscillator_reaches hosc).1).trans (State.oscFail_active _ hosc hactive)

theorem happens_ocxoSoftFault (farther : Nat) : Happens (.ocxoSoftFault · farther)
    (fun a => a.ck.warmAt.isSome && a.ck.oscDead.isEmpty && !a.ck.oscDisagree && a.refInUse)
    (fun a => a.oscFail farther false) := by
  refine happens_of _ (fun _ _ => rfl) fun a h => ?_
  simp only [Bool.and_eq_true] at h
  obtain ⟨⟨⟨hwarm, halive⟩, hagree⟩, hused⟩ := h
  have hnone : a.ck.warmAt.isNone = false := by simpa [Option.isSome_iff_ne_none] using hwarm
  exact (if_neg (by simp [hnone, halive])).trans ((if_neg (ne_true_of_not hagree)).trans (if_pos hused))

/-! ## What an event leaves alone (R38, R42, R45) -/

/-- Only the host windows and what was sent may differ. -/
def State.SameButSent (s s' : State) : Prop := ∃ host out, s' = { s with host, out }

theorem State.SameButSent.refl (s : State) : State.SameButSent s s := ⟨s.host, s.out, rfl⟩

theorem State.SameButSent.trans {r s t : State} (h : State.SameButSent r s) (k : State.SameButSent s t) :
    State.SameButSent r t := by
  obtain ⟨_, _, rfl⟩ := h
  obtain ⟨host, out, rfl⟩ := k
  exact ⟨host, out, rfl⟩

theorem State.message_sameButSent (s : State) (fn v : Nat) : State.SameButSent s (s.message fn v) := by
  unfold State.message
  dsimp only
  split
  · exact ⟨_, _, rfl⟩
  · exact ⟨_, _, rfl⟩

theorem State.post_sameButSent (s : State) (os : List Out) : State.SameButSent s (s.post os) := by
  refine List.foldrRecOn (motive := State.SameButSent s) os _ (.refl s) fun b h o _ => h.trans ?_
  split
  · exact State.message_sameButSent b _ _
  · exact ⟨_, _, rfl⟩

theorem State.wakeIfDue_sameButSent (s : State) (fn : Nat) : State.SameButSent s (s.wakeIfDue fn) := by
  unfold State.wakeIfDue
  split
  · exact ⟨_, _, rfl⟩
  · exact .refl s

theorem State.eventTo_sameButSent (s : State) (fn : Nat) (e : EventRec) : State.SameButSent s (s.eventTo fn e) := by
  unfold State.eventTo
  dsimp only
  split
  · exact .trans (.trans ⟨_, _, rfl⟩ (State.post_sameButSent (s.setFunc fn _) _)) (State.wakeIfDue_sameButSent _ fn)
  · exact .refl s

theorem State.event_sameButSent (s : State) (code source detail : Nat) :
    State.SameButSent s (s.event code source detail) := by
  unfold State.event State.eventAt
  dsimp only
  split
  · exact (State.eventTo_sameButSent s 0 _).trans (State.eventTo_sameButSent _ 1 _)
  · exact .refl s

theorem happens_warmReached (ms : Nat) : Happens (.warmReached · ms)
    (fun a => a.ck.warmAt.isNone && !a.readyBit 4 && !a.sec.recovery && !a.pw.failed.testBit 4)
    (Eff.warmReached ms) := by
  refine happens_of _ (fun _ _ => rfl) fun a h => ?_
  simp only [Bool.and_eq_true, Option.isNone_iff_eq_none, Bool.not_eq_true'] at h
  obtain ⟨⟨⟨hcold, hbit⟩, hrec⟩, hfailed⟩ := h
  obtain ⟨host, out, hwarm⟩ :=
    State.event_sameButSent { a with ck := { a.ck with warmAt := some a.now } } 0x0201 0 (ms % 2 ^ 32)
  have hbit' : ({ a with ck := { a.ck with warmAt := some a.now }, host, out } : State).readyBit 4 = false := hbit
  simp only [hcold, Option.isSome_none, Bool.false_eq_true, if_false, Eff.warmReached, hwarm, hrec, hfailed,
    Bool.or_self, State.raiseReady, hbit']

/-! ## References, the discipline loop and PPS (R92, R93, R94, R96, R98) -/

theorem happens_refInQualified (freq farther : Nat) :
    Happens (.refInQualified · freq farther) (Cond.refFreq freq) (Eff.refInQualified freq farther) :=
  happens_of _ (fun _ _ => rfl) fun _ h => if_pos (by simpa [Cond.refFreq] using h)

/-- The loss of a reference that was qualified updates the loop with cause 1. -/
theorem happens_refInLost : Happens .refInLost (fun a => a.ck.refQual) Eff.refInLost :=
  happens_of _ (fun _ _ => rfl) fun a h => by simp only [h]; rfl

/-- A phase that the loop holds already stays the one it holds. -/
theorem happens_ppsInQualified (farther : Nat) : Happens (.ppsInQualified · farther)
    (fun a => decide (3 ≤ a.ck.ppsRun) && !a.ck.ppsQual && a.ck.heldPhase.isSome) (Eff.ppsInQualified farther) := by
  refine happens_of _ (fun _ _ => rfl) fun a h => ?_
  simp only [Bool.and_eq_true, decide_eq_true_eq, Bool.not_eq_true', Option.isSome_iff_exists] at h
  obtain ⟨⟨hrun, hqual⟩, v, hheld⟩ := h
  have hreach : ¬ (decide (a.ck.ppsRun < 3) || a.ck.ppsQual) = true := by simp [hqual, hrun]
  refine (if_neg hreach).trans ?_
  simp only [hheld]
  rw [← hheld]

theorem happens_ppsInLost : Happens .ppsInLost (fun a => a.ck.ppsQual) Eff.ppsInLost :=
  happens_of _ (fun _ _ => rfl) fun _ h => by simp only [h, if_true]

theorem happens_ppsEdge (stamp : Stamp) :
    Happens (.ppsEdge · stamp) (fun a => !a.vineMember) (fun a => a.ppsEdge (a.full stamp) a.ck.ppsDelay) :=
  happens_of _ (fun _ _ => rfl) fun _ h => if_neg (ne_true_of_not h)

theorem happens_ppsOutSecond :
    Happens .ppsOutSecond (fun a => a.ck.ppsOutOn && a.ck.atSecond a.now) Eff.ppsOutSecond :=
  happens_of _ (fun _ _ => rfl) fun _ h => if_pos h

theorem happens_disciplineLoopLocked :
    Happens .disciplineLoopLocked (fun a => a.ck.tb == .acquiring && a.loopUsable) Eff.disciplineLoopLocked :=
  happens_of _ (fun _ _ => rfl) fun _ h => if_pos (by simpa using h)

/-- Settles O9, row by row. -/
theorem referenceRows : Obligations.ReferenceRows :=
  ⟨happens_ocxoHardFault_standby, happens_ocxoHardFault_active, happens_ocxoSoftFault, happens_warmReached,
    happens_refInQualified, happens_refInLost, happens_ppsInQualified, happens_ppsInLost, happens_ppsEdge,
    happens_ppsOutSecond, happens_of _ (fun _ _ => rfl) fun _ _ => rfl, happens_disciplineLoopLocked⟩

end Sys2Proof.Machine

end

section

namespace Sys2Proof.Machine

/-! # Synthesiser locks and frequency ramps -/

/-! The SOURCE of an output is 3 above its generator's number, that of a sample synthesiser 1 above its own (R114). -/

theorem genSource_not_sample (g : Nat) : ¬ (3 + g = 1 ∨ 3 + g = 2) := by omega

theorem genSource_in_range {g : Nat} (h : g ≤ 2) : 3 ≤ 3 + g ∧ 3 + g ≤ 5 := by omega

theorem sampleSource_is_sample {n : Nat} (h : n ≤ 1) : 1 + n = 1 ∨ 1 + n = 2 := by omega

/-! ## Locks (R99, R100, R101, R102) -/

theorem happens_synthBandSearchDone_gen (g : Nat) : Happens (.synthBandSearchDone · (3 + g))
    (fun a => decide (g ≤ 2) && (a.gen g).synth == .searching) (Eff.synthBandSearchDone g) := by
  refine happens_of _ (fun _ _ => rfl) fun a h => ?_
  simp only [Bool.and_eq_true, decide_eq_true_eq, beq_iff_eq] at h
  obtain ⟨hg, hsearch⟩ := h
  rw [if_neg (genSource_not_sample g), if_pos (genSource_in_range hg)]
  simp only [Nat.add_sub_cancel_left]
  exact if_pos hsearch

theorem happens_synthBandSearchDone_sample (n : Nat) : Happens (.synthBandSearchDone · (1 + n))
    (fun a => decide (n ≤ 1) && a.ck.sample n == .searching) (Eff.synthBandSearchDone2 n) := by
  refine happens_of _ (fun _ _ => rfl) fun a h => ?_
  simp only [Bool.and_eq_true, decide_eq_true_eq, beq_iff_eq] at h
  obtain ⟨hn, hsearch⟩ := h
  rw [if_pos (sampleSource_is_sample hn)]
  simp only [Nat.add_sub_cancel_left]
  exact if_pos hsearch

theorem happens_synthLockDetected_gen (g : Nat) : Happens (.synthLockDetected · (3 + g))
    (fun a => decide (1 ≤ g) && decide (g ≤ 2) && (a.gen g).synth == .searching && (a.gen g).settling)
    (Eff.synthLockDetected g) := by
  refine happens_of _ (fun _ _ => rfl) fun a h => ?_
  simp only [Bool.and_eq_true, decide_eq_true_eq, beq_iff_eq] at h
  obtain ⟨⟨⟨hpos, hg⟩, hsearch⟩, hsettle⟩ := h
  have hvector : ¬ 3 + g = 3 := by omega
  rw [if_neg (genSource_not_sample g), if_pos (genSource_in_range hg).symm]
  simp only [Nat.add_sub_cancel_left, Eff.synthLockDetected, hsearch, hsettle, if_true, if_neg hvector]

/-- The vector clock is announced to the linked pin electronics before it locks. -/
theorem happens_synthLockDetected_vector : Happens (.synthLockDetected · 3)
    (fun a => (a.gen 0).synth == .searching && (a.gen 0).settling) Eff.synthLockDetected2 := by
  refine happens_of _ (fun _ _ => rfl) fun a h => ?_
  simp only [Bool.and_eq_true, beq_iff_eq] at h
  obtain ⟨hsearch, hsettle⟩ := h
  rw [if_neg (genSource_not_sample 0), if_pos (genSource_in_range (Nat.zero_le 2)).symm]
  simp only [Nat.sub_self, Eff.synthLockDetected2, hsearch, hsettle, if_true]

/-- A sample synthesiser in use that searches and has settled, or that coasts, locks; TICK runs already. -/
theorem happens_synthLockDetected_sample (n : Nat) : Happens (.synthLockDetected · (1 + n))
    (fun a => decide (n ≤ 1) && (a.ck.sample n == .coasting ||
      (a.ck.sample n == .searching && a.ck.sampleSettling.contains n)) && !a.isRetired ⟨14, 0, n⟩ && a.pw.tickRunning)
    (fun a => (a.setSample n .locked).sampleFirst) := by
  refine happens_of _ (fun _ _ => rfl) fun a h => ?_
  simp only [Bool.and_eq_true, decide_eq_true_eq, Bool.not_eq_true'] at h
  obtain ⟨⟨⟨hn, hlocks⟩, hret⟩, htick⟩ := h
  rw [if_pos (sampleSource_is_sample hn)]
  simp only [Nat.add_sub_cancel_left, hret, hlocks, htick, Bool.not_true, Bool.or_self, Bool.false_and,
    Bool.false_eq_true, if_false]

theorem happens_synthLockDetected_sampleSettled (n : Nat) : Happens (.synthLockDetected · (1 + n))
    (fun a => decide (n ≤ 1) && a.ck.sample n == .searching && a.ck.sampleSettling.contains n &&
      !a.isRetired ⟨14, 0, n⟩ && a.pw.tickRunning) (fun a => (a.setSample n .locked).sampleFirst) :=
  (happens_synthLockDetected_sample n).weaken (fun a h => by
    simp only [Bool.and_eq_true] at h ⊢
    obtain ⟨⟨⟨⟨hn, hsearch⟩, hsettle⟩, hret⟩, htick⟩ := h
    exact ⟨⟨⟨hn, by simp only [hsearch, hsettle, Bool.and_self, Bool.or_true]⟩, hret⟩, htick⟩) fun _ _ => rfl

theorem happens_synthLockDetected_sampleCoasting (n : Nat) : Happens (.synthLockDetected · (1 + n))
    (fun a => decide (n ≤ 1) && a.ck.sample n == .coasting && !a.isRetired ⟨14, 0, n⟩ && a.pw.tickRunning)
    (fun a => (a.setSample n .locked).sampleFirst) :=
  (happens_synthLockDetected_sample n).weaken (fun a h => by
    simp only [Bool.and_eq_true] at h ⊢
    obtain ⟨⟨⟨hn, hcoast⟩, hret⟩, htick⟩ := h
    exact ⟨⟨⟨hn, by simp only [hcoast, Bool.true_or]⟩, hret⟩, htick⟩) fun _ _ => rfl

theorem happens_synthLockLost (g : Nat) : Happens (.synthLockLost · (3 + g))
    (fun a => decide (g ≤ 2) && (a.gen g).synth == .locked) (Eff.synthLockLost g) := by
  refine happens_of _ (fun _ _ => rfl) fun a h => ?_
  simp only [Bool.and_eq_true, decide_eq_true_eq, beq_iff_eq] at h
  obtain ⟨hg, hlocked⟩ := h
  rw [if_neg (genSource_not_sample g), if_pos (genSource_in_range hg)]
  simp only [Nat.add_sub_cancel_left]
  exact if_pos hlocked

theorem happens_synthReacquireTimeout (g : Nat) : Happens (.synthReacquireTimeout · (3 + g))
    (fun a => decide (g ≤ 2) && (a.gen g).synth == .coasting) (Eff.synthReacquireTimeout g) := by
  refine happens_of _ (fun _ _ => rfl) fun a h => ?_
  simp only [Bool.and_eq_true, decide_eq_true_eq, beq_iff_eq] at h
  obtain ⟨hg, hcoast⟩ := h
  rw [if_pos (genSource_in_range hg)]
  simp only [Nat.add_sub_cancel_left]
  exact if_pos hcoast

/-- The spare takes over from sample synthesiser A while it is the primary one. -/
theorem happens_sampleSynthFault (lostLock : Bool) : Happens (.sampleSynthFault · 0 lostLock)
    (fun a => !a.isRetired ⟨14, 0, 0⟩ && a.sparesLeft 14 0 != 0 && a.ck.primary == 0) Eff.sampleSynthFault := by
  refine happens_of _ (fun _ _ => rfl) fun a h => ?_
  simp only [Bool.and_eq_true, Bool.not_eq_true', bne_iff_ne, beq_iff_eq] at h
  obtain ⟨⟨hret, hspare⟩, hprimary⟩ := h
  exact (if_neg (by simp [hret])).trans ((if_neg hspare).trans (if_pos hprimary.symm))

theorem happens_idleCoreLocked_handover (g f : Nat) : Happens (.idleCoreLocked · g)
    (fun a => decide (g ≤ 2) && (a.gen g).nextFreq == some f) (Eff.idleCoreLocked g f) := by
  refine happens_of _ (fun _ _ => rfl) fun a h => ?_
  simp only [Bool.and_eq_true, decide_eq_true_eq, beq_iff_eq] at h
  obtain ⟨hg, hnext⟩ := h
  rw [if_neg (Nat.not_lt.mpr hg)]
  simp only [hnext]
  rfl

theorem happens_idleCoreLocked_ramp (g : Nat) : Happens (.idleCoreLocked · g)
    (fun a => decide (g ≤ 2) && (a.gen g).nextFreq == none && (a.gen g).ramp == .armed && (a.gen g).sched.mode == 0)
    (fun a => a.beginRamp g) := by
  refine happens_of _ (fun _ _ => rfl) fun a h => ?_
  simp only [Bool.and_eq_true, decide_eq_true_eq, beq_iff_eq] at h
  obtain ⟨⟨⟨hg, hnext⟩, harmed⟩, hnow⟩ := h
  rw [if_neg (Nat.not_lt.mpr hg)]
  simp only [hnext, harmed, hnow, decide_true, BEq.rfl, Bool.and_self, if_true]

/-! ## Ramps (R103, R111) -/

theorem happens_rampScheduledStart (g : Nat) : Happens (.rampScheduledStart · g)
    (fun a => decide (g ≤ 2) && (a.gen g).ramp == .armed && (a.gen g).sched.mode != 0 && a.reached (a.gen g).sched)
    (fun a => a.beginRamp g) :=
  happens_of _ (fun _ _ => rfl) fun _ h => if_pos (by simpa using h)

theorem happens_rampUpdate (g : Nat) : Happens (.rampUpdate · g)
    (fun a => decide (g ≤ 2) && (a.gen g).ramp == .running) (Eff.rampUpdate g) :=
  happens_of _ (fun _ _ => rfl) fun _ h => if_pos (by simpa using h)

theorem happens_rampSegmentEnd (g : Nat) : Happens (.rampSegmentEnd · g)
    (fun a => Cond.rampSegOver g a && decide ((a.gen g).seg + 1 < ((a.gen g).banks.get (a.gen g).bank {}).length))
    (Eff.rampSegmentEnd g) := by
  refine happens_of _ (fun _ _ => rfl) fun a h => ?_
  simp only [Bool.and_eq_true, decide_eq_true_eq] at h
  obtain ⟨hover, hmore⟩ := h
  exact (if_pos (by simpa [Cond.rampSegOver] using hover)).trans (if_pos hmore)

/-- The last segment of the last repetition ends the profile where that segment ends. -/
theorem ClockGen.profileEnd_last {x : ClockGen} (hrun : x.ramp = .running)
    (hseg : x.seg + 1 = (x.banks.get x.bank {}).length) (hrep : (x.banks.get x.bank {}).rep = x.reps + 1) :
    x.profileEnd = some (x.segStart + ((x.banks.get x.bank {}).segs.get x.seg {}).dur * 128 / 5) :=
  if_pos (by simp [hrun, hseg, hrep])

theorem State.rampDue_ended {s : State} {g e : Nat} (h : (s.gen g).profileEnd = some e) (he : e ≤ s.now) :
    s.rampDue g = s.endRamp g e := by
  simp only [State.rampDue, h, if_pos he]

theorem happens_rampProfileEnd (g : Nat) : Happens (.rampProfileEnd · g)
    (fun a => Cond.rampSegOver g a && (a.gen g).seg + 1 == ((a.gen g).banks.get (a.gen g).bank {}).length &&
      ((a.gen g).banks.get (a.gen g).bank {}).rep == (a.gen g).reps + 1 &&
      decide ((a.gen g).segStart + (((a.gen g).banks.get (a.gen g).bank {}).segs.get (a.gen g).seg {}).dur * 128 / 5 ≤ a.now))
    (Eff.rampProfileEnd g) := by
  refine happens_of _ (fun _ _ => rfl) fun a h => ?_
  simp only [Cond.rampSegOver, Bool.and_eq_true, decide_eq_true_eq, beq_iff_eq] at h
  obtain ⟨⟨⟨⟨⟨hg, hrun⟩, -⟩, hseg⟩, hrep⟩, hend⟩ := h
  exact (if_pos hg).trans (State.rampDue_ended (ClockGen.profileEnd_last hrun hseg hrep) hend)

/-- Settles O10, row by row. -/
theorem synthesiserRows : Obligations.SynthesiserRows :=
  ⟨happens_synthBandSearchDone_gen, happens_synthBandSearchDone_sample, happens_synthLockDetected_gen,
    happens_synthLockDetected_vector, happens_synthLockDetected_sampleSettled,
    happens_synthLockDetected_sampleCoasting, happens_synthLockLost, happens_synthReacquireTimeout,
    happens_sampleSynthFault, happens_idleCoreLocked_handover, happens_idleCoreLocked_ramp,
    happens_rampScheduledStart, happens_rampUpdate, happens_rampSegmentEnd, happens_rampProfileEnd⟩

end Sys2Proof.Machine

end

section

namespace Sys2Proof.Machine

/-! # The CLOCK verbs -/

/-- A meaning whose checks all pass is what stands behind them. -/
theorem orElse_passed {checks : List (Bool × Status)} {v : VerbOut} (h : ∀ x ∈ checks, x.1 = false) :
    orElse checks v = v := by
  induction checks with
  | nil => rfl
  | cons x checks ih =>
    rw [List.forall_mem_cons] at h
    exact (if_neg (by simp [h.1])).trans (ih h.2)

/-- A verb whose meaning comes to `w` concludes as `w` does. -/
theorem State.conclude_congr {a s : State} {c : Cmd} {v w : VerbOut} (h : v = w) (hw : a.conclude c w = s) :
    a.conclude c v = s := h ▸ hw

/-- A test for two facts fails where one of them is known to fail. -/
theorem not_and_of_not_or {p : Prop} {b : Bool} (h : ¬ p ∨ b = false) : ¬ (p ∧ b = true) :=
  fun ⟨hp, hb⟩ => h.elim (fun hn => hn hp) fun hf => Bool.false_ne_true (hf.symm.trans hb)

/-! ## References, status and time (R106, R107, R108) -/

theorem completes_clockSetRef : Completes .clockSetRef 0x0201 Cond.clockSetRef Eff.clockSetRef := by
  refine completes_of clockSetRef (fun _ _ _ _ => rfl) fun c a h => ?_
  simp only [Cond.clockSetRef, Bool.and_eq_true, decide_eq_true_eq, Bool.not_eq_true', Bool.or_eq_true,
    beq_iff_eq] at h
  obtain ⟨⟨⟨⟨⟨⟨hmode, hband⟩, hfreq⟩, hedge⟩, hz⟩, hqual⟩, hmember⟩ := h
  refine State.conclude_congr (orElse_passed ?_) rfl
  simp only [List.forall_mem_cons, List.not_mem_nil, false_imp_iff, implies_true, and_true, hmember, hz,
    Bool.or_eq_false_iff, Bool.and_eq_false_iff, decide_eq_false_iff_not, bne_eq_false_iff_eq, Bool.not_true]
  omega

@[simp] theorem State.clockStatus_length (a : State) (freqOffset oscDiff : Nat) :
    (a.clockStatus freqOffset oscDiff).length = 96 := by
  simp [State.clockStatus, pack_length]

theorem completes_clockGetStatus (freqOffset oscDiff : Nat) :
    Completes (.clockGetStatus · · · freqOffset oscDiff) 0x0202 (fun c _ => decide (96 ≤ c.room))
      (Eff.clockGetStatus freqOffset oscDiff) :=
  completes_of _ (fun _ _ _ _ => rfl) fun _ _ h => conclude_data (by simpa using h) _ _ _

theorem completes_clockSetTime_tick : Completes .clockSetTime 0x0203 Cond.clockSetTimeTick Eff.clockSetTime := by
  refine completes_of clockSetTime (fun _ _ _ _ => rfl) fun c a h => ?_
  simp only [Cond.clockSetTimeTick, Bool.and_eq_true, beq_iff_eq, bne_iff_ne, Bool.not_eq_true',
    Bool.and_eq_false_iff, beq_eq_false_iff_ne] at h
  obtain ⟨⟨⟨⟨hkind, hz⟩, h3⟩, h4⟩, hpps⟩ := h
  have hfree : ¬ (a.ck.mode = 3 ∨ a.ck.mode = 4 ∨ (a.ck.mode = 1 ∧ a.ck.ppsQual = true)) :=
    not_or.mpr ⟨h3, not_or.mpr ⟨h4, not_and_of_not_or hpps⟩⟩
  exact State.conclude_congr ((if_neg (by simp [hkind, hz])).trans ((if_pos hkind).trans (if_neg hfree))) rfl

theorem completes_clockSetTime_edge (st : Stamp) :
    Completes .clockSetTime 0x0203 (Cond.clockSetTimeEdge st) (Eff.clockSetTime2 st) := by
  refine completes_of clockSetTime (fun _ _ _ _ => rfl) fun c a h => ?_
  simp only [Cond.clockSetTimeEdge, Bool.and_eq_true, beq_iff_eq] at h
  obtain ⟨⟨hkind, hz⟩, hedge⟩ := h
  refine State.conclude_congr ((if_neg (by simp [hkind, hz])).trans (if_neg (by simp [hkind]))) ?_
  simp only [hedge, conclude_done]

/-! ## Outputs (R109, R113) -/

theorem completes_clockSetOutput_pps :
    Completes .clockSetOutput 0x0204 Cond.clockSetPpsOut Eff.clockSetOutput := by
  refine completes_of clockSetOutput (fun _ _ _ _ => rfl) fun c a h => ?_
  simp only [Cond.clockSetPpsOut, Bool.and_eq_true, beq_iff_eq, decide_eq_true_eq] at h
  obtain ⟨⟨⟨hout, hon⟩, hz3⟩, hz16⟩ := h
  exact State.conclude_congr ((if_neg (by simp [hout, hz3, hz16, hon])).trans (if_pos hout)) rfl

/-- What the meaning of `CLOCK.SET_OUTPUT` comes to once its fields are found in range. -/
theorem clockSetOutput_met {c : Cmd} {a : State} (h : Cond.clockSetOutput c a = true) :
    clockSetOutput c a =
      if u8 c.payload 1 = 0 then .done .ok 0 (a.muteGen (u8 c.payload 0 + 1))
      else
        let r := a.tune (u8 c.payload 0 + 1) (achieved (u64 c.payload 8)) (u8 c.payload 2)
        if r.2 then .running 0 [] r.1 else .done .ok (achieved (u64 c.payload 8)) r.1 := by
  simp only [Cond.clockSetOutput, Bool.and_eq_true, decide_eq_true_eq, bne_iff_ne] at h
  obtain ⟨⟨⟨⟨⟨⟨⟨⟨hout, hon⟩, hlevel⟩, hz3⟩, hz16⟩, hlow⟩, hhigh⟩, hrun⟩, harmed⟩ := h
  refine (if_neg ?_).trans ((if_neg (by omega)).trans (if_neg (by simp [hrun, harmed])))
  simp only [hz3, hz16, Bool.not_true, Bool.false_eq_true, false_or]
  omega

theorem completes_clockSetOutput_mute : Completes .clockSetOutput 0x0204
    (fun c a => Cond.clockSetOutput c a && u8 c.payload 1 == 0) Eff.clockSetOutput2 := by
  refine completes_of clockSetOutput (fun _ _ _ _ => rfl) fun c a h => ?_
  simp only [Bool.and_eq_true, beq_iff_eq] at h
  obtain ⟨hok, hoff⟩ := h
  rw [clockSetOutput_met hok, if_pos hoff, conclude_done]

theorem completes_clockSetOutput_tune : Completes .clockSetOutput 0x0204
    (fun c a => Cond.clockSetOutput c a && u8 c.payload 1 == 1) Eff.clockSetOutput3 := by
  refine completes_of clockSetOutput (fun _ _ _ _ => rfl) fun c a h => ?_
  simp only [Bool.and_eq_true, beq_iff_eq] at h
  obtain ⟨hok, hon⟩ := h
  rw [clockSetOutput_met hok, if_neg (by simp [hon])]
  exact apply_ite (a.conclude c) _ _ _

/-- The vector clock may be set: what `CLOCK.SET_VECTOR_CLOCK` tests before it mutes or tunes it. -/
theorem clockSetVectorClock_met {c : Cmd} {a : State} (h : Cond.clockSetVectorClock c a = true) :
    clockSetVectorClock c a =
      if u8 c.payload 8 = 0 then .done .ok 0 (a.muteGen 0)
      else
        let r := a.tune 0 (achieved (u64 c.payload 0)) (u8 c.payload 9)
        if r.2 then .running 0 [] r.1 else .done .ok (achieved (u64 c.payload 0)) r.1 := by
  simp only [Cond.clockSetVectorClock, Bool.and_eq_true, decide_eq_true_eq, bne_iff_ne, Bool.or_eq_true,
    beq_iff_eq] at h
  obtain ⟨⟨⟨⟨⟨⟨hon, hz⟩, hrange⟩, hdeskew⟩, hrun⟩, harmed⟩, hsites⟩ := h
  have hfields : ¬ (u8 c.payload 8 > 1 ∨ (!zeros c.payload 10 6) = true ∨
      (u8 c.payload 8 = 1 ∧ (u64 c.payload 0 < 100000000000 ∨ 1600000000000 < u64 c.payload 0))) := by
    simp only [hz, Bool.not_true, Bool.false_eq_true, false_or]
    omega
  refine (if_neg hfields).trans ((if_neg (ne_true_of_not hdeskew)).trans ((if_neg (by simp [hrun, harmed])).trans ?_))
  by_cases hoff : u8 c.payload 8 = 0
  · rw [if_pos hoff] at hsites
    rw [if_pos hoff, if_pos hoff]
    exact if_neg (ne_true_of_not hsites)
  · rw [if_neg hoff] at hsites
    rw [if_neg hoff, if_neg hoff]
    exact if_neg (by simp [hsites])

theorem completes_clockSetVectorClock_mute : Completes .clockSetVectorClock 0x0208
    (fun c a => Cond.clockSetVectorClock c a && u8 c.payload 8 == 0) (fun c a => (a.muteGen 0).finish c .ok 0) := by
  refine completes_of clockSetVectorClock (fun _ _ _ _ => rfl) fun c a h => ?_
  simp only [Bool.and_eq_true, beq_iff_eq] at h
  obtain ⟨hok, hoff⟩ := h
  rw [clockSetVectorClock_met hok, if_pos hoff, conclude_done]

theorem completes_clockSetVectorClock_tune : Completes .clockSetVectorClock 0x0208
    (fun c a => Cond.clockSetVectorClock c a && u8 c.payload 8 == 1) Eff.clockSetVectorClock := by
  refine completes_of clockSetVectorClock (fun _ _ _ _ => rfl) fun c a h => ?_
  simp only [Bool.and_eq_true, beq_iff_eq] at h
  obtain ⟨hok, hon⟩ := h
  rw [clockSetVectorClock_met hok, if_neg (by simp [hon])]
  exact apply_ite (a.conclude c) _ _ _

/-! ## Ramps (R110, R111, R112) -/

theorem completes_clockLoadRamp : Completes .clockLoadRamp 0x0205 Cond.clockLoadRamp Eff.clockLoadRamp := by
  refine completes_of clockLoadRamp (fun _ _ _ _ => rfl) fun c a h => ?_
  simp only [Cond.clockLoadRamp, Bool.and_eq_true, beq_iff_eq, decide_eq_true_eq, bne_iff_ne, Bool.not_eq_true',
    Bool.and_eq_false_iff, beq_eq_false_iff_ne, List.all_eq_true] at h
  obtain ⟨⟨⟨⟨⟨⟨⟨⟨⟨⟨⟨⟨hlen, hgen⟩, hbank⟩, hfirst⟩, hn⟩, hmax⟩, hlast⟩, hpos⟩, hprof⟩, hrep⟩, hz⟩, hsegs⟩, hidle⟩ := h
  have hbad : (((records (u16 c.payload 4) 24 (c.payload.drop 16)).map rampSegOf).any fun r =>
      decide (r.dur % 10 ≠ 0 ∨ r.dur < 100 ∨ 1000000000000 < r.dur)) = false := by
    refine List.any_eq_false.mpr fun r hr => ?_
    have := hsegs r hr
    simp only [decide_eq_true_eq]
    omega
  have hfree : ¬ ((a.gen (u8 c.payload 0)).ramp = .running ∧ (a.gen (u8 c.payload 0)).bank = u8 c.payload 1) :=
    fun ⟨hrun, hbank⟩ => hidle.elim (fun hn => hn hrun) fun hn => hn hbank
  refine State.conclude_congr ((if_neg (not_not_intro hlen)).trans ((if_neg ?_).trans (if_neg hfree))) rfl
  simp only [hbad, hz, Bool.not_true, Bool.false_eq_true, or_false]
  omega

/-- No crossing fault leaves the first fault found in the ranges and the steps. -/
theorem minOpt_none (o : Option Nat) : minOpt o none = o := by cases o <;> rfl

/-- A start that is immediate, or at least `d` ahead, does not fall before `d` from now. -/
theorem State.start_not_before {s : State} {w : Sched} {d t : Nat}
    (h : w.mode = 0 ∨ (s.startTick w).all (fun t => decide (s.now + d ≤ t)) = true) (ht : s.startTick w = some t) :
    ¬ (w.mode != 0 && decide (t < s.now + d)) = true := by
  simp only [ht, Option.all_some, decide_eq_true_eq] at h
  simp only [Bool.and_eq_true, bne_iff_ne, decide_eq_true_eq, not_and, Nat.not_lt]
  exact h.resolve_left

theorem completes_clockStartRamp :
    Completes (.clockStartRamp · · · none) 0x0206 Cond.clockStartRamp Eff.clockStartRamp := by
  refine completes_of (clockStartRamp none) (fun _ _ _ _ => rfl) fun c a h => ?_
  simp only [Cond.clockStartRamp, Bool.and_eq_true, beq_iff_eq, decide_eq_true_eq, bne_iff_ne, Bool.not_eq_true',
    Bool.and_eq_false_iff, beq_eq_false_iff_ne, Bool.or_eq_true, Option.isNone_iff_eq_none] at h
  obtain ⟨⟨⟨⟨⟨⟨⟨⟨⟨⟨⟨⟨hgen, hbank⟩, hmode⟩, hz3⟩, hz16⟩, hlen⟩, hrun⟩, harmed⟩, hon⟩, hdeskew⟩, hfault⟩,
    hstart⟩, hcover⟩ := h
  refine State.conclude_congr ((if_neg ?fields).trans ((if_neg ?state).trans (if_neg ?waits))) ?met
  case fields =>
    simp only [hz3, hz16, hlen, Bool.not_true, Bool.false_eq_true, or_false]
    omega
  case state => simp [hrun, harmed, hon]
  case waits => exact not_and_of_not_or hdeskew
  case met =>
    dsimp only
    rw [minOpt_none, hfault]
    refine State.conclude_congr ((if_neg ?soon).trans (if_neg ?cover)) rfl
    case cover => exact not_and_of_not_or (hcover.imp_right fun hc => by simp only [hc, Bool.not_true])
    case soon =>
      split
      · next t ht => exact State.start_not_before hstart ht
      · exact Bool.false_ne_true

/-- A ramp whose profile has not ended goes on. -/
theorem State.rampDue_runs {s : State} {g : Nat} (h : (s.gen g).profileEnd.any (fun e => decide (e ≤ s.now)) = false) :
    s.rampDue g = s := by
  unfold State.rampDue
  split
  · next e he => exact if_neg (by simpa [he] using h)
  · rfl

/-- Only a running ramp has an end to come. -/
theorem State.rampDue_idle {s : State} {g : Nat} (h : (s.gen g).ramp ≠ .running) : s.rampDue g = s := by
  have hnone : (s.gen g).profileEnd = none := if_neg (by simp [h])
  exact State.rampDue_runs (by rw [hnone]; rfl)

/-- The generator and the flag named are in range. -/
theorem Cond.clockStopRamp_reaches {c : Cmd} {a : State} (h : Cond.clockStopRamp c a = true) :
    ¬ (u8 c.payload 0 > 2 ∨ u8 c.payload 1 > 1 ∨ (!zeros c.payload 2 2) = true) := by
  simp only [Cond.clockStopRamp, Bool.and_eq_true, decide_eq_true_eq] at h
  obtain ⟨⟨hgen, hback⟩, hz⟩ := h
  simp only [hz, Bool.not_true, Bool.false_eq_true, or_false]
  omega

/-- A ramp that stops has not ended by now. -/
theorem Cond.rampStops_due {g : Nat} {a : State} (h : Cond.rampStops g a = true) : a.rampDue g = a := by
  simp only [Cond.rampStops, Bool.or_eq_true, Bool.and_eq_true, beq_iff_eq, Bool.not_eq_true'] at h
  rcases h with ⟨-, hgoes⟩ | ⟨hdone, -⟩
  · exact State.rampDue_runs hgoes
  · exact State.rampDue_idle (by simp [hdone])

/-- Of the ramps that stop, those that are done are the ones that ended within the last 10 ns. -/
theorem Cond.rampStops_ending {g : Nat} {a : State} (h : Cond.rampStops g a = true) :
    ((a.gen g).ramp == .done && (a.gen g).endedAt.any fun e => decide (a.now < e + 256)) =
      decide ((a.gen g).ramp = .done) := by
  simp only [Cond.rampStops, Bool.or_eq_true, Bool.and_eq_true, beq_iff_eq] at h
  rcases h with ⟨hrun, -⟩ | ⟨hdone, hrecent⟩
  · simp [hrun]
  · simp [hdone, hrecent]

/-- A ramp that stops runs, or is done. -/
theorem Cond.rampStops_on {g : Nat} {a : State} (h : Cond.rampStops g a = true) :
    ¬ ((a.gen g).ramp ≠ .running ∧ (!decide ((a.gen g).ramp = .done)) = true) := by
  simp only [Cond.rampStops, Bool.or_eq_true, Bool.and_eq_true, beq_iff_eq] at h
  rcases h with ⟨hrun, -⟩ | ⟨hdone, -⟩
  · simp [hrun]
  · simp [hdone]

theorem completes_clockStopRamp_idle : Completes .clockStopRamp 0x0207
    (fun c a => Cond.clockStopRamp c a && (a.gen (u8 c.payload 0)).ramp != .running &&
      !Cond.rampStops (u8 c.payload 0) a) Eff.clockStopRamp2 := by
  refine completes_of clockStopRamp (fun _ _ _ _ => rfl) fun c a h => ?_
  simp only [Bool.and_eq_true, bne_iff_ne, Bool.not_eq_true'] at h
  obtain ⟨⟨hok, hrun⟩, hstops⟩ := h
  simp only [Cond.rampStops, Bool.or_eq_false_iff] at hstops
  obtain ⟨-, hended⟩ := hstops
  refine State.conclude_congr (if_neg (Cond.clockStopRamp_reaches hok)) ?_
  dsimp only
  rw [State.rampDue_idle hrun]
  exact State.conclude_congr (if_pos ⟨hrun, by simp [hended]⟩) rfl

theorem completes_clockStopRamp_stops : Completes .clockStopRamp 0x0207
    (fun c a => Cond.clockStopRamp c a && Cond.rampStops (u8 c.payload 0) a) Eff.clockStopRamp := by
  refine completes_of clockStopRamp (fun _ _ _ _ => rfl) fun c a h => ?_
  obtain ⟨hok, hstops⟩ := Bool.and_eq_true_iff.mp h
  refine State.conclude_congr (if_neg (Cond.clockStopRamp_reaches hok)) ?_
  dsimp only
  rw [Cond.rampStops_due hstops, Cond.rampStops_ending hstops, if_neg (Cond.rampStops_on hstops)]
  simp only [Eff.clockStopRamp, decide_eq_true_eq]
  exact apply_ite (a.conclude c) _ _ _

/-- Settles O8, verb by verb. -/
theorem clockVerbsComplete : Obligations.ClockVerbsComplete :=
  ⟨completes_clockSetRef, completes_clockGetStatus, completes_clockSetTime_tick, completes_clockSetTime_edge,
    completes_clockSetOutput_pps, completes_clockSetOutput_mute, completes_clockSetOutput_tune,
    completes_clockLoadRamp, completes_clockStartRamp, completes_clockStopRamp_stops,
    completes_clockStopRamp_idle, completes_clockSetVectorClock_mute, completes_clockSetVectorClock_tune⟩

end Sys2Proof.Machine

end

section

namespace Sys2Proof.Machine

/-! # The INPUT verbs -/

/-! ## Range (R131) -/

/-- What the meaning of `INPUT.SET_RANGE` comes to once its fields are found in range and the input ready. -/
theorem inputSetRange_met {c : Cmd} {a : State} (h : Cond.inputSetRange c a = true) :
    inputSetRange c a =
      if u8 c.payload 1 = (a.input (u8 c.payload 0)).range then .done .ok 0 a
      else if (a.input (u8 c.payload 0)).mode != .running then
        .done .ok 0 (a.setInput (u8 c.payload 0) { a.input (u8 c.payload 0) with range := u8 c.payload 1 })
      else if u8 c.payload 2 = 0 then .done .ok a.now (a.switchRange (u8 c.payload 0) (u8 c.payload 1))
      else .running 0 [] (a.setInput (u8 c.payload 0) { a.input (u8 c.payload 0) with
        pending := some (u8 c.payload 1, { mode := u8 c.payload 2, at_ := u64 c.payload 8 }) }) := by
  simp only [Cond.inputSetRange, Bool.and_eq_true, decide_eq_true_eq, Bool.not_eq_true'] at h
  obtain ⟨⟨⟨⟨⟨hinput, hrange⟩, hmode⟩, hz⟩, hsoon⟩, hready⟩ := h
  refine (if_neg ?_).trans (if_neg (by simp [hready]))
  simp only [hz, hsoon, Bool.not_true, Bool.false_eq_true, or_false]
  omega

theorem completes_inputSetRange_kept : Completes .inputSetRange 0x0301
    (fun c a => Cond.inputSetRange c a && u8 c.payload 1 == (a.input (u8 c.payload 0)).range)
    (fun c a => a.finish c .ok 0) := by
  refine completes_of inputSetRange (fun _ _ _ _ => rfl) fun c a h => ?_
  simp only [Bool.and_eq_true, beq_iff_eq] at h
  obtain ⟨hok, hsame⟩ := h
  rw [inputSetRange_met hok, if_pos hsame, conclude_done]

theorem completes_inputSetRange_stored : Completes .inputSetRange 0x0301
    (fun c a => Cond.inputSetRange c a && u8 c.payload 1 != (a.input (u8 c.payload 0)).range &&
      (a.input (u8 c.payload 0)).mode != .running) Eff.inputSetRange := by
  refine completes_of inputSetRange (fun _ _ _ _ => rfl) fun c a h => ?_
  obtain ⟨hnew, hoff⟩ := Bool.and_eq_true_iff.mp h
  simp only [Bool.and_eq_true, bne_iff_ne] at hnew
  rw [inputSetRange_met hnew.1, if_neg hnew.2, if_pos hoff, conclude_done]

/-- A running input switches its range now, or waits for the tick of the switch. -/
theorem inputSetRange_running {c : Cmd} {a : State} (h : (Cond.inputSetRange c a &&
    u8 c.payload 1 != (a.input (u8 c.payload 0)).range && (a.input (u8 c.payload 0)).mode == .running) = true) :
    inputSetRange c a =
      if u8 c.payload 2 = 0 then .done .ok a.now (a.switchRange (u8 c.payload 0) (u8 c.payload 1))
      else .running 0 [] (a.setInput (u8 c.payload 0) { a.input (u8 c.payload 0) with
        pending := some (u8 c.payload 1, { mode := u8 c.payload 2, at_ := u64 c.payload 8 }) }) := by
  simp only [Bool.and_eq_true, bne_iff_ne, beq_iff_eq] at h
  obtain ⟨⟨hok, hnew⟩, hrun⟩ := h
  rw [inputSetRange_met hok, if_neg hnew, if_neg (by simp [hrun])]

theorem completes_inputSetRange_now : Completes .inputSetRange 0x0301
    (fun c a => Cond.inputSetRange c a && u8 c.payload 1 != (a.input (u8 c.payload 0)).range &&
      (a.input (u8 c.payload 0)).mode == .running && u8 c.payload 2 == 0) Eff.inputSetRange2 := by
  refine completes_of inputSetRange (fun _ _ _ _ => rfl) fun c a h => ?_
  obtain ⟨hrun, hnow⟩ := Bool.and_eq_true_iff.mp h
  rw [inputSetRange_running hrun, if_pos (beq_iff_eq.mp hnow), conclude_done]

theorem completes_inputSetRange_scheduled : Completes .inputSetRange 0x0301
    (fun c a => Cond.inputSetRange c a && u8 c.payload 1 != (a.input (u8 c.payload 0)).range &&
      (a.input (u8 c.payload 0)).mode == .running && u8 c.payload 2 != 0) Eff.inputSetRange3 := by
  refine completes_of inputSetRange (fun _ _ _ _ => rfl) fun c a h => ?_
  obtain ⟨hrun, hlater⟩ := Bool.and_eq_true_iff.mp h
  rw [inputSetRange_running hrun, if_neg (bne_iff_ne.mp hlater), conclude_running]

/-! ## Status (R132) -/

@[simp] theorem State.inputStatus_length (a : State) (i temp : Nat) : (a.inputStatus i temp).length = 128 := by
  simp [State.inputStatus, pack_length]

/-- The input named exists and is ready, and the reserved bytes are zero. -/
theorem Cond.inputNamed_reaches {c : Cmd} {a : State} (h : Cond.inputNamed c a = true) :
    ¬ (u8 c.payload 0 > 3 ∨ (!zeros c.payload 1 3) = true) ∧ ¬ (!a.readyBit (7 + u8 c.payload 0)) = true := by
  simp only [Cond.inputNamed, Bool.and_eq_true, decide_eq_true_eq] at h
  obtain ⟨⟨hinput, hz⟩, hready⟩ := h
  exact ⟨by simp [hz, hinput], by simp [hready]⟩

theorem completes_inputGetStatus (temp : Nat) : Completes (.inputGetStatus · · · temp) 0x0302
    (fun c a => Cond.inputNamed c a && decide (128 ≤ c.room)) (Eff.inputGetStatus temp) := by
  refine completes_of (inputGetStatus temp) (fun _ _ _ _ => rfl) fun c a h => ?_
  simp only [Bool.and_eq_true, decide_eq_true_eq] at h
  obtain ⟨hnamed, hroom⟩ := h
  obtain ⟨hfields, hready⟩ := Cond.inputNamed_reaches hnamed
  exact State.conclude_congr ((if_neg hfields).trans (if_neg hready)) (conclude_data (by simpa using hroom) _ _ _)

/-! ## Enable and disable (R129, R130, R133, R134) -/

/-- The fields of `INPUT.ENABLE` are in range, and the input is ready. -/
theorem Cond.inputToEnable_reaches {c : Cmd} {a : State} (h : Cond.inputToEnable c a = true) :
    ¬ (u8 c.payload 0 > 3 ∨ (u8 c.payload 1 > 2 ∧ u8 c.payload 1 ≠ 0xFF) ∨ (!zeros c.payload 2 2) = true) ∧
      ¬ (!a.readyBit (7 + u8 c.payload 0)) = true := by
  simp only [Cond.inputToEnable, Bool.and_eq_true, decide_eq_true_eq, Bool.or_eq_true, beq_iff_eq] at h
  obtain ⟨⟨⟨hinput, hrange⟩, hz⟩, hready⟩ := h
  refine ⟨?_, by simp [hready]⟩
  simp only [hz, Bool.not_true, Bool.false_eq_true, or_false]
  omega

/-- The declaration of the input fits, and what follows it ends with the first sample, or waits for the cold spare. -/
theorem completes_inputEnable_off : Completes .inputEnable 0x0303 Cond.inputEnable Eff.inputEnable := by
  refine completes_of inputEnable (fun _ _ _ _ => rfl) fun c a h => ?_
  simp only [Cond.inputEnable, Bool.and_eq_true, bne_iff_ne] at h
  obtain ⟨⟨hok, hoff⟩, hfits⟩ := h
  obtain ⟨hfields, hready⟩ := Cond.inputToEnable_reaches hok
  refine State.conclude_congr ((if_neg hfields).trans ((if_neg hready).trans (if_neg hoff))) ?_
  simp only [Eff.inputEnable]
  cases hdecl : a.declare [inputDecl (u8 c.payload 0)] with
  | error short => exact absurd hfits (by simp [hdecl, Except.isOk, Except.toBool])
  | ok b => exact apply_ite (a.conclude c) _ _ _

theorem completes_inputEnable_running : Completes .inputEnable 0x0303
    (fun c a => Cond.inputToEnable c a && (a.input (u8 c.payload 0)).mode == .running) Eff.inputEnable2 := by
  refine completes_of inputEnable (fun _ _ _ _ => rfl) fun c a h => ?_
  simp only [Bool.and_eq_true, beq_iff_eq] at h
  obtain ⟨hok, hrun⟩ := h
  obtain ⟨hfields, hready⟩ := Cond.inputToEnable_reaches hok
  exact State.conclude_congr ((if_neg hfields).trans ((if_neg hready).trans (if_pos hrun))) rfl

theorem completes_inputDisable : Completes .inputDisable 0x0304
    (fun c a => Cond.inputNamed c a && (a.input (u8 c.payload 0)).mode == .running &&
      (a.inputConsumer (u8 c.payload 0) 0).isNone) Eff.inputDisable := by
  refine completes_of inputDisable (fun _ _ _ _ => rfl) fun c a h => ?_
  simp only [Bool.and_eq_true, beq_iff_eq, Option.isNone_iff_eq_none] at h
  obtain ⟨⟨hnamed, hrun⟩, hfree⟩ := h
  obtain ⟨hfields, hready⟩ := Cond.inputNamed_reaches hnamed
  refine State.conclude_congr ((if_neg hfields).trans ((if_neg hready).trans (if_neg (by simp [hrun])))) ?_
  simp only [hfree, conclude_done]

/-- Settles O11, verb by verb. -/
theorem inputVerbsComplete : Obligations.InputVerbsComplete :=
  ⟨completes_inputSetRange_kept, completes_inputSetRange_stored, completes_inputSetRange_now,
    completes_inputSetRange_scheduled, completes_inputGetStatus, completes_inputEnable_off,
    completes_inputEnable_running, completes_inputDisable⟩

end Sys2Proof.Machine

end

section

namespace Sys2Proof.Machine

/-! # Range switches, slices and overrange of the RF inputs -/

/-! ## Range switches (R117, R131) -/

theorem happens_inputRangeSwitch (i r : Nat) (w : Sched) : Happens (.inputRangeSwitch · i)
    (fun a => (a.input i).pending == some (r, w) && a.reached w) (Eff.inputRangeSwitch i r) := by
  refine happens_of _ (fun _ _ => rfl) fun a h => ?_
  simp only [Bool.and_eq_true, beq_iff_eq] at h
  obtain ⟨hpending, hreached⟩ := h
  simp only [hpending]
  exact if_pos hreached

/-! ## Rotation and slices (R121, R122, R123, R124) -/

/-- The next step is neither the first of a cycle nor step 33, so it only hands the calibration spare over. -/
theorem happens_rotationStep (i slice k : Nat) :
    Happens (.rotationStep · i slice) (Cond.rotation i slice k) (Eff.rotationStep i slice k) := by
  refine happens_of _ (fun _ _ => rfl) fun a h => ?_
  simp only [Cond.rotation, Bool.and_eq_true, decide_eq_true_eq, beq_iff_eq, Bool.not_eq_true',
    Option.isNone_iff_eq_none] at h
  obtain ⟨⟨⟨⟨⟨⟨⟨⟨hi, hrun⟩, hgoes⟩, hthaw⟩, hidle⟩, hspare⟩, hstep⟩, hslice⟩, hserves⟩ := h
  have hnext : ((a.input i).calStep + 1) % 34 = (a.input i).calStep + 1 := Nat.mod_eq_of_lt (by omega)
  have hwraps : ¬ (a.input i).calStep + 1 = 0 := Nat.succ_ne_zero _
  have hgain : ¬ (a.input i).calStep + 1 = 33 := by omega
  have hspare' : ({ a.input i with calStep := (a.input i).calStep + 1 } : RfInput).inRole .calSpare = some k := hspare
  refine (if_neg (by simp [hrun, hgoes, hthaw, hi])).trans ?_
  simp only [hidle, hnext, if_neg hwraps, if_neg hgain, hspare']
  exact congrArg (State.calServed · 1 _) (if_pos ⟨by omega, hslice, hserves⟩)

theorem happens_sliceHandoverComplete (i k j : Nat) :
    Happens (.sliceHandoverComplete · i true) (Cond.handover i k j) (Eff.sliceHandoverComplete i k j) := by
  refine happens_of _ (fun _ _ => rfl) fun a h => ?_
  simp only [Cond.handover, Bool.and_eq_true, beq_iff_eq] at h
  obtain ⟨⟨hrun, henters⟩, hleaves⟩ := h
  simp only [hrun, henters, hleaves, BEq.rfl, if_true]

/-- A slice in service gives its position to the spare `v`, and the interval since the fault is unsettled and logged. -/
theorem State.sliceFailRunning_masked {a : State} {i k v since : Nat} (hrole : ((a.input i).slice k).role = .active)
    (hleft : a.sparesLeft 1 i ≠ 0) (hspare : (a.input i).spareSlice = some v) :
    (a.sliceFailRunning i k since true false).serveWaiting i = Eff.sliceFailure i k v since a := by
  simp only [State.sliceFailRunning, hrole, if_neg hleft, hspare, if_true]

theorem happens_sliceFailure (i k v since : Nat) :
    Happens (.sliceFailure · i k since) (Cond.sliceFailure i k v) (Eff.sliceFailure i k v since) := by
  refine happens_of _ (fun _ _ => rfl) fun a h => ?_
  simp only [Cond.sliceFailure, Bool.and_eq_true, decide_eq_true_eq, beq_iff_eq, bne_iff_ne, Bool.not_eq_true'] at h
  obtain ⟨⟨⟨⟨⟨⟨hi, hk⟩, hret⟩, hrun⟩, hrole⟩, hleft⟩, hspare⟩ := h
  refine (if_neg (by simp [hi, hk, hret])).trans ((if_pos (by simp [hrun])).trans ?_)
  rw [hrun]
  exact State.sliceFailRunning_masked hrole hleft hspare

theorem happens_coldSpareReady (i k : Nat) : Happens (.coldSpareReady · i)
    (fun a => (a.input i).inRole .coldSpare == some k) (Eff.coldSpareReady i k) :=
  happens_of _ (fun _ _ => rfl) fun _ h => by simp only [beq_iff_eq.mp h]

/-! ## Overrange and protection (R126, R127, R128) -/

/-- Samples that begin now, or drive the input further, pass the tests of `INPUT_OVERDRIVE`. -/
theorem Cond.overdrive_reaches {i n : Nat} {protect : Bool} {b : State} (h : Cond.overdrive i n b = true)
    (hrun : ((b.input i).countRun b.now).run = none ∨ protect = true) :
    ¬ (decide (i > 3) || ((b.input i).countRun b.now).mode != .running || decide (n = 0) ||
      ((b.input i).countRun b.now).protection || (((b.input i).countRun b.now).run.isSome && !protect)) = true := by
  simp only [Cond.overdrive, Bool.and_eq_true, decide_eq_true_eq, beq_iff_eq, bne_iff_ne, Bool.not_eq_true'] at h
  obtain ⟨⟨⟨hi, hmode⟩, hn⟩, hfree⟩ := h
  rcases hrun with hnone | hprotect
  · simp [hi, hmode, hn, hfree, hnone]
  · simp [hi, hmode, hn, hfree, hprotect]

/-- The samples open an interval. The flags of the first one do not hang on how far the run is counted. -/
theorem happens_inputOverdrive_start (i n : Nat) (positive : Bool) (flips : List Nat) (protect : Bool) :
    Happens (.inputOverdrive · i n positive flips protect)
      (fun a => Cond.overdrive i n (a.closeAll i) && (((a.closeAll i).input i).countRun (a.closeAll i).now).run.isNone &&
        (((a.closeAll i).input i).countRun (a.closeAll i).now).ovrOpen.isNone)
      (Eff.inputOverdrive i n positive flips protect) := by
  refine happens_of _ (fun _ _ => rfl) fun a h => ?_
  simp only [Bool.and_eq_true, Option.isNone_iff_eq_none] at h
  obtain ⟨⟨hdrive, hrun⟩, hopen⟩ := h
  refine (if_neg (Cond.overdrive_reaches hdrive (.inl hrun))).trans ?_
  cases protect with
  | true =>
    simp only [Eff.inputOverdrive, hrun, hopen, Option.isSome_none, Bool.false_eq_true, if_false, if_true, Bool.or_true]
    rfl
  | false =>
    simp only [Eff.inputOverdrive, hrun, hopen, Option.isSome_none, Bool.false_eq_true, if_false, Bool.or_false]
    rfl

/-- The samples fall in an interval that is open, and are counted when it closes. -/
theorem happens_inputOverdrive_open (i n : Nat) (positive : Bool) (flips : List Nat) (protect : Bool) :
    Happens (.inputOverdrive · i n positive flips protect)
      (fun a => Cond.overdrive i n (a.closeAll i) && (((a.closeAll i).input i).countRun (a.closeAll i).now).run.isNone &&
        (((a.closeAll i).input i).countRun (a.closeAll i).now).ovrOpen.isSome)
      (Eff.inputOverdrive2 i n positive flips protect) := by
  refine happens_of _ (fun _ _ => rfl) fun a h => ?_
  simp only [Bool.and_eq_true, Option.isNone_iff_eq_none] at h
  obtain ⟨⟨hdrive, hrun⟩, hopen⟩ := h
  refine (if_neg (Cond.overdrive_reaches hdrive (.inl hrun))).trans ?_
  cases protect with
  | true => simp only [Eff.inputOverdrive2, hrun, hopen, if_true, Bool.or_true]
  | false => simp only [Eff.inputOverdrive2, hrun, hopen, Bool.false_eq_true, if_false, if_true, Bool.or_false]

/-- The run that goes on is driven into protection. -/
theorem happens_inputOverdrive_further (i n : Nat) (positive : Bool) (flips : List Nat) (r : OvrRun) :
    Happens (.inputOverdrive · i n positive flips true)
      (fun a => Cond.overdrive i n (a.closeAll i) &&
        (((a.closeAll i).input i).countRun (a.closeAll i).now).run == some r)
      (Eff.inputOverdrive3 i positive flips r) := by
  refine happens_of _ (fun _ _ => rfl) fun a h => ?_
  simp only [Bool.and_eq_true, beq_iff_eq] at h
  obtain ⟨hdrive, hrun⟩ := h
  refine (if_neg (Cond.overdrive_reaches hdrive (.inr rfl))).trans ?_
  simp only [hrun, if_true]

theorem happens_protectionRelease (i : Nat) :
    Happens (.protectionRelease · i) (fun a => (a.input i).protection) (Eff.protectionRelease i) :=
  happens_of _ (fun _ _ => rfl) fun _ h => if_neg (by simp [h])

/-- An interval that has lasted 1 µs closes. -/
theorem Cond.ovrInterval_due {i o : Nat} {a : State} (h : Cond.ovrInterval i o a = true) :
    (a.input i).ovrOpen = some o ∧ ¬ a.now < o + ticksPerUs := by
  simpa only [Cond.ovrInterval, Bool.and_eq_true, beq_iff_eq, decide_eq_true_eq, Nat.not_lt] using h

theorem happens_overrangeIntervalClose_silent (i o : Nat) : Happens (.overrangeIntervalClose · i)
    (fun a => Cond.ovrInterval i o a && ((a.input i).countRun (o + ticksPerUs)).ovrCount == 0)
    (Eff.overrangeIntervalClose i o) := by
  refine happens_of _ (fun _ _ => rfl) fun a h => ?_
  obtain ⟨hinterval, hnone⟩ := Bool.and_eq_true_iff.mp h
  obtain ⟨hopen, hdue⟩ := Cond.ovrInterval_due hinterval
  simp only [hopen, if_neg hdue]
  exact if_pos (beq_iff_eq.mp hnone)

theorem happens_overrangeIntervalClose_summary (i o : Nat) : Happens (.overrangeIntervalClose · i)
    (fun a => Cond.ovrInterval i o a && ((a.input i).countRun (o + ticksPerUs)).ovrCount != 0)
    (Eff.overrangeIntervalClose2 i o) := by
  refine happens_of _ (fun _ _ => rfl) fun a h => ?_
  obtain ⟨hinterval, hsome⟩ := Bool.and_eq_true_iff.mp h
  obtain ⟨hopen, hdue⟩ := Cond.ovrInterval_due hinterval
  simp only [hopen, if_neg hdue]
  exact if_neg (bne_iff_ne.mp hsome)

/-- Settles O12, row by row. -/
theorem inputRows : Obligations.InputRows :=
  ⟨happens_inputRangeSwitch, happens_rotationStep, happens_sliceHandoverComplete, happens_sliceFailure,
    happens_coldSpareReady, happens_inputOverdrive_start, happens_inputOverdrive_open, happens_inputOverdrive_further,
    happens_protectionRelease, happens_overrangeIntervalClose_silent, happens_overrangeIntervalClose_summary⟩

end Sys2Proof.Machine

end

section

namespace Sys2Proof.Machine

/-! # The DDC verbs and the rows of the down-converters -/

/-! ## What the end of a command leaves alone (R42, R43, R54, R74) -/

theorem State.pushCompl_sameButSent (s : State) (fn : Nat) (r : ComplRec) :
    State.SameButSent s (s.pushCompl fn r) :=
  .trans (.trans ⟨_, _, rfl⟩ (State.post_sameButSent (s.setFunc fn _ |>.setFunc fn _) _))
    (State.wakeIfDue_sameButSent _ fn)

theorem State.endCmd_sameButSent (s : State) (c : Cmd) (st : Status) (result : Nat) :
    State.SameButSent s (s.endCmd c st result) := by
  unfold State.endCmd
  dsimp only
  split
  · exact ⟨_, _, rfl⟩
  · exact .trans ⟨_, _, rfl⟩ (State.pushCompl_sameButSent _ c.fn _)

theorem State.finish_sameButSent (s : State) (c : Cmd) (st : Status) (result : Nat) :
    State.SameButSent s (s.finish c st result) := by
  unfold State.finish
  dsimp only
  have hend := State.endCmd_sameButSent s c st result
  split
  · exact List.foldlRecOn (motive := State.SameButSent s) _ _ hend fun b h d _ =>
      h.trans (State.endCmd_sameButSent b d st result)
  · exact hend

theorem State.finishAll_sameButSent (s : State) (cs : List Cmd) (st : Status) (result : Cmd → Nat) :
    State.SameButSent s (s.finishAll cs st result) :=
  List.foldlRecOn (motive := State.SameButSent s) cs _ (.refl s) fun b h c _ =>
    h.trans (State.finish_sameButSent b c st (result c))

/-- The down-converters stay as they are where only what was sent may differ. -/
theorem State.SameButSent.ddc {s s' : State} (h : State.SameButSent s s') (d : Nat) : s'.ddc d = s.ddc d := by
  obtain ⟨_, _, rfl⟩ := h
  rfl

@[simp] theorem State.finishAll_ddc (s : State) (cs : List Cmd) (st : Status) (result : Cmd → Nat) (d : Nat) :
    (s.finishAll cs st result).ddc d = s.ddc d :=
  (State.finishAll_sameButSent s cs st result).ddc d

/-! ## Configuration (R151) -/

/-- The fields of `DDC.CONFIGURE` are in range. -/
theorem Cond.ddcConfigure_fields {c : Cmd} {a : State} (h : Cond.ddcConfigure c a = true) :
    ¬ (u8 c.payload 0 > 31 ∨ u8 c.payload 1 > 2 ∨ u8 c.payload 2 > 2 ∨ u8 c.payload 3 > 1 ∨
      (if u8 c.payload 3 = 0 then u8 c.payload 4 = 0 ∨ u8 c.payload 4 > 16 else u8 c.payload 4 > 15) ∨
      u8 c.payload 5 > 24 ∨ u8 c.payload 6 > 1 ∨ (!zeros c.payload 7 1) = true ∨ (!zeros c.payload 14 2) = true ∨
      (!zeros c.payload 20 4) = true ∨ (!zeros c.payload 30 2) = true) := by
  simp only [Cond.ddcConfigure, Bool.and_eq_true, decide_eq_true_eq] at h
  obtain ⟨⟨⟨⟨⟨⟨⟨⟨⟨⟨⟨⟨hddc, hsource⟩, hformat⟩, hform⟩, hk⟩, hgain⟩, hmode⟩, hz7⟩, hz14⟩, hz20⟩, hz30⟩, -⟩, -⟩ := h
  simp only [hz7, hz14, hz20, hz30, Bool.not_true, Bool.false_eq_true, or_false]
  by_cases hpower : u8 c.payload 3 = 0
  · simp only [if_pos hpower, decide_eq_true_eq] at hk ⊢
    omega
  · simp only [if_neg hpower, decide_eq_true_eq] at hk ⊢
    omega

/-- The DDC is not lent, and no consumer stands in the way of a new rate. -/
theorem Cond.ddcConfigure_free {c : Cmd} {a : State} (h : Cond.ddcConfigure c a = true) :
    ¬ (a.ddc (u8 c.payload 0)).lent = true ∧
      (if (a.ddc (u8 c.payload 0)).running && (u8 c.payload 2 != (a.ddc (u8 c.payload 0)).format ||
          u8 c.payload 3 != (a.ddc (u8 c.payload 0)).form || u8 c.payload 4 != (a.ddc (u8 c.payload 0)).k)
        then a.ddcConsumer (u8 c.payload 0) 0 false else none) = none := by
  simp only [Cond.ddcConfigure, Bool.and_eq_true] at h
  obtain ⟨⟨-, hlent⟩, hfree⟩ := h
  refine ⟨ne_true_of_not hlent, ite_eq_right_iff.mpr fun hrate => ?_⟩
  simpa only [hrate, Bool.not_true, Bool.false_or, Option.isNone_iff_eq_none] using hfree

theorem completes_ddcConfigure : Completes .ddcConfigure 0x0401 Cond.ddcConfigure Eff.ddcConfigure := by
  refine completes_of ddcConfigure (fun _ _ _ _ => rfl) fun c a h => ?_
  obtain ⟨hlent, hfree⟩ := Cond.ddcConfigure_free h
  refine State.conclude_congr ((if_neg (Cond.ddcConfigure_fields h)).trans (if_neg hlent)) ?_
  simp only [hfree]
  exact apply_ite (a.conclude c) _ _ _

/-! ## Delay (R143, R152) -/

/-- What `DDC.SET_DELAY` comes to once its fields are found in range and the DDC is not lent. -/
theorem ddcSetDelay_met {c : Cmd} {a : State} (h : Cond.ddcSetDelay c a = true) :
    ddcSetDelay c a =
      if !(a.ddc (u8 c.payload 0)).running then
        .done .ok 0 (a.setDdc (u8 c.payload 0) { a.ddc (u8 c.payload 0) with
          delayInt := s16 c.payload 2, delayFrac := u8 c.payload 4 })
      else if u8 c.payload 1 = 0 then
        .done .ok a.now (a.setDdc (u8 c.payload 0)
          ((a.ddc (u8 c.payload 0)).setDelay a.now (s16 c.payload 2) (u8 c.payload 4)))
      else .running 0 [] (a.setDdc (u8 c.payload 0) { a.ddc (u8 c.payload 0) with
        delayNext := some (s16 c.payload 2, u8 c.payload 4, { mode := u8 c.payload 1, at_ := u64 c.payload 8 }) }) := by
  simp only [Cond.ddcSetDelay, Bool.and_eq_true, decide_eq_true_eq, Bool.not_eq_true'] at h
  obtain ⟨⟨⟨⟨⟨⟨hddc, hmode⟩, hlow⟩, hhigh⟩, hz⟩, hsoon⟩, hlent⟩ := h
  refine (if_neg ?_).trans (if_neg (by simp [hlent]))
  simp only [hz, hsoon, Bool.not_true, Bool.false_eq_true, or_false]
  omega

theorem completes_ddcSetDelay_idle : Completes .ddcSetDelay 0x0402
    (fun c a => Cond.ddcSetDelay c a && !(a.ddc (u8 c.payload 0)).running) Eff.ddcSetDelay := by
  refine completes_of ddcSetDelay (fun _ _ _ _ => rfl) fun c a h => ?_
  obtain ⟨hok, hidle⟩ := Bool.and_eq_true_iff.mp h
  rw [ddcSetDelay_met hok, if_pos hidle, conclude_done]

theorem completes_ddcSetDelay_now : Completes .ddcSetDelay 0x0402
    (fun c a => Cond.ddcSetDelay c a && (a.ddc (u8 c.payload 0)).running && u8 c.payload 1 == 0)
    Eff.ddcSetDelay2 := by
  refine completes_of ddcSetDelay (fun _ _ _ _ => rfl) fun c a h => ?_
  simp only [Bool.and_eq_true, beq_iff_eq] at h
  obtain ⟨⟨hok, hrun⟩, hnow⟩ := h
  rw [ddcSetDelay_met hok, if_neg (by simp [hrun]), if_pos hnow, conclude_done]

theorem completes_ddcSetDelay_scheduled : Completes .ddcSetDelay 0x0402
    (fun c a => Cond.ddcSetDelay c a && (a.ddc (u8 c.payload 0)).running && u8 c.payload 1 != 0)
    Eff.ddcSetDelay3 := by
  refine completes_of ddcSetDelay (fun _ _ _ _ => rfl) fun c a h => ?_
  simp only [Bool.and_eq_true, bne_iff_ne] at h
  obtain ⟨⟨hok, hrun⟩, hlater⟩ := h
  rw [ddcSetDelay_met hok, if_neg (by simp [hrun]), if_neg hlater, conclude_running]

/-! ## Enable (R149, R153) -/

/-- The fields of `DDC.ENABLE` are in range, and the DDC is not lent. -/
theorem Cond.ddcToEnable_reaches {c : Cmd} {a : State} (h : Cond.ddcToEnable c a = true) :
    ¬ (u8 c.payload 0 > 31 ∨ u8 c.payload 1 > 2 ∨ (!zeros c.payload 2 6) = true ∨
        a.tooSoon { mode := u8 c.payload 1, at_ := u64 c.payload 8 } = true) ∧
      ¬ (a.ddc (u8 c.payload 0)).lent = true := by
  simp only [Cond.ddcToEnable, Bool.and_eq_true, decide_eq_true_eq, Bool.not_eq_true'] at h
  obtain ⟨⟨⟨⟨hddc, hmode⟩, hz⟩, hsoon⟩, hlent⟩ := h
  refine ⟨?_, by simp [hlent]⟩
  simp only [hz, hsoon, Bool.not_true, Bool.false_eq_true, or_false]
  omega

/-- The first grid origin that is 10 µs ahead (R153). -/
def State.ddcGrid (a : State) (d : Nat) : Nat :=
  (a.now + 10 * ticksPerUs + (a.ddc d).ratio - 1) / (a.ddc d).ratio * (a.ddc d).ratio

/-- A DDC whose declaration fits starts at the origin that `WHEN` names. -/
theorem ddcEnable_started {c : Cmd} {a : State} {g : Nat} (h : Cond.ddcEnable c a = true)
    (hg : (if u8 c.payload 1 = 0 then some (a.ddcGrid (u8 c.payload 0))
      else a.startTick { mode := u8 c.payload 1, at_ := u64 c.payload 8 }) = some g) :
    a.conclude c (ddcEnable c a) = Eff.ddcEnable2 g c a := by
  simp only [Cond.ddcEnable, Bool.and_eq_true, beq_iff_eq] at h
  obtain ⟨⟨⟨hok, hoff⟩, hinput⟩, hfits⟩ := h
  obtain ⟨hfields, hlent⟩ := Cond.ddcToEnable_reaches hok
  refine State.conclude_congr ((if_neg hfields).trans ((if_neg hlent).trans
    ((if_neg (ne_true_of_not hoff)).trans (if_neg (by simp [hinput]))))) ?_
  cases hdecl : a.declare [ddcDecl (u8 c.payload 0)] with
  | error short => exact absurd hfits (by simp [hdecl, Except.isOk, Except.toBool])
  | ok b =>
    simp only [State.ddcGrid] at hg
    simp only [hg, conclude_running, Eff.ddcEnable2, hdecl]

theorem completes_ddcEnable_grid : Completes .ddcEnable 0x0403
    (fun c a => Cond.ddcEnable c a && u8 c.payload 1 == 0) Eff.ddcEnable := by
  refine completes_of ddcEnable (fun _ _ _ _ => rfl) fun c a h => ?_
  obtain ⟨hok, hnow⟩ := Bool.and_eq_true_iff.mp h
  exact ddcEnable_started hok (if_pos (beq_iff_eq.mp hnow))

theorem completes_ddcEnable_scheduled (g : Nat) : Completes .ddcEnable 0x0403
    (fun c a => Cond.ddcEnable c a && u8 c.payload 1 != 0 &&
      a.startTick { mode := u8 c.payload 1, at_ := u64 c.payload 8 } == some g) (Eff.ddcEnable2 g) := by
  refine completes_of ddcEnable (fun _ _ _ _ => rfl) fun c a h => ?_
  simp only [Bool.and_eq_true, bne_iff_ne, beq_iff_eq] at h
  obtain ⟨⟨hok, hlater⟩, hstart⟩ := h
  exact ddcEnable_started hok ((if_neg hlater).trans hstart)

theorem completes_ddcEnable_running : Completes .ddcEnable 0x0403
    (fun c a => Cond.ddcToEnable c a && (a.ddc (u8 c.payload 0)).running) Eff.ddcEnable3 := by
  refine completes_of ddcEnable (fun _ _ _ _ => rfl) fun c a h => ?_
  obtain ⟨hok, hrun⟩ := Bool.and_eq_true_iff.mp h
  obtain ⟨hfields, hlent⟩ := Cond.ddcToEnable_reaches hok
  exact State.conclude_congr ((if_neg hfields).trans ((if_neg hlent).trans (if_pos hrun))) (conclude_done ..)

/-! ## Disable and status (R154, R155) -/

/-- The DDC named exists and is not lent, and the reserved bytes are zero. -/
theorem Cond.ddcNamed_reaches {c : Cmd} {a : State} (h : Cond.ddcNamed c a = true) :
    ¬ (u8 c.payload 0 > 31 ∨ (!zeros c.payload 1 3) = true) ∧ ¬ (a.ddc (u8 c.payload 0)).lent = true := by
  simp only [Cond.ddcNamed, Bool.and_eq_true, decide_eq_true_eq] at h
  obtain ⟨⟨hddc, hz⟩, hlent⟩ := h
  exact ⟨by simp [hz, hddc], ne_true_of_not hlent⟩

theorem completes_ddcDisable_running : Completes .ddcDisable 0x0404
    (fun c a => Cond.ddcNamed c a && (a.ddc (u8 c.payload 0)).running &&
      (a.ddcConsumer (u8 c.payload 0) 0 true).isNone) Eff.ddcDisable := by
  refine completes_of ddcDisable (fun _ _ _ _ => rfl) fun c a h => ?_
  simp only [Bool.and_eq_true, Option.isNone_iff_eq_none] at h
  obtain ⟨⟨hnamed, hrun⟩, hfree⟩ := h
  obtain ⟨hfields, hlent⟩ := Cond.ddcNamed_reaches hnamed
  refine State.conclude_congr ((if_neg hfields).trans ((if_neg hlent).trans (if_neg (by simp [hrun])))) ?_
  simp only [hfree, conclude_done]

theorem completes_ddcDisable_idle : Completes .ddcDisable 0x0404
    (fun c a => Cond.ddcNamed c a && !(a.ddc (u8 c.payload 0)).running) (fun c a => a.finish c .quiesced 0) := by
  refine completes_of ddcDisable (fun _ _ _ _ => rfl) fun c a h => ?_
  obtain ⟨hnamed, hidle⟩ := Bool.and_eq_true_iff.mp h
  obtain ⟨hfields, hlent⟩ := Cond.ddcNamed_reaches hnamed
  exact State.conclude_congr ((if_neg hfields).trans ((if_neg hlent).trans (if_pos hidle))) (conclude_done ..)

@[simp] theorem State.ddcStatus_length (a : State) (d : Nat) : (a.ddcStatus d).length = 64 := by
  simp [State.ddcStatus, pack_length]

theorem completes_ddcGetStatus (codes : List Int) : Completes (.ddcGetStatus · · · codes) 0x0405
    (fun c a => Cond.ddcNamed c a && decide (64 ≤ c.room)) (Eff.ddcGetStatus codes) := by
  refine completes_of (ddcGetStatus codes) (fun _ _ _ _ => rfl) fun c a h => ?_
  simp only [Bool.and_eq_true, decide_eq_true_eq] at h
  obtain ⟨hnamed, hroom⟩ := h
  obtain ⟨hfields, hlent⟩ := Cond.ddcNamed_reaches hnamed
  exact State.conclude_congr ((if_neg hfields).trans (if_neg hlent)) (conclude_data (by simpa using hroom) _ _ _)

/-! ## Scheduled changes and settled outputs (R147, R152, R153, R156) -/

/-- The delay takes effect at the tick or epoch asked for, and its command ends with it. -/
theorem happens_ddcScheduledChange_delay (d : Nat) (i : Int) (f : Nat) (w : Sched) :
    Happens (.ddcScheduledChange · d) (Cond.ddcDelay d i f w) (Eff.ddcScheduledChange d i f w) := by
  refine happens_of _ (fun _ _ => rfl) fun a h => ?_
  simp only [Cond.ddcDelay, Bool.and_eq_true, decide_eq_true_eq, beq_iff_eq, Bool.not_eq_true'] at h
  obtain ⟨⟨⟨⟨⟨hddc, hstart⟩, -⟩, hearly⟩, hdelay⟩, hreached⟩ := h
  refine (if_neg (Nat.not_lt.mpr hddc)).trans ?_
  simp only [hstart, hearly, Bool.and_false, Bool.false_eq_true, if_false, hdelay, hreached, if_true]

/-- The feed starts at the origin of the enable, whose command waits for output 0. -/
theorem happens_ddcScheduledChange_start (d g : Nat) : Happens (.ddcScheduledChange · d)
    (fun a => decide (d ≤ 31) && (a.ddc d).starting == some g && decide (g ≤ a.now) &&
      !((a.ddcStart d g).ddc d).produced 0 a.now && (a.ddc d).delayNext == none)
    (fun a => a.ddcStart d g) := by
  refine happens_of _ (fun _ _ => rfl) fun a h => ?_
  simp only [Bool.and_eq_true, decide_eq_true_eq, beq_iff_eq, Bool.not_eq_true'] at h
  obtain ⟨⟨⟨⟨hddc, hstart⟩, hdue⟩, hearly⟩, hdelay⟩ := h
  have hdelay' : ((a.ddcStart d g).ddc d).delayNext = none := by rw [State.ddcStart, State.setDdc_same, hdelay]
  refine (if_neg (Nat.not_lt.mpr hddc)).trans ?_
  simp only [hstart, hdue, if_true, hearly, Bool.and_false, Bool.false_eq_true, if_false, hdelay']

/-- The enable completes with its origin once output 0 is produced. -/
theorem happens_ddcScheduledChange_enabled (d : Nat) : Happens (.ddcScheduledChange · d)
    (fun a => decide (d ≤ 31) && (a.ddc d).starting == none && (a.ddc d).running && (a.ddc d).produced 0 a.now &&
      (a.ddc d).delayNext == none)
    (Eff.ddcScheduledChange2 d) := by
  refine happens_of _ (fun _ _ => rfl) fun a h => ?_
  simp only [Bool.and_eq_true, decide_eq_true_eq, beq_iff_eq] at h
  obtain ⟨⟨⟨⟨hddc, hstart⟩, hrun⟩, hproduced⟩, hdelay⟩ := h
  refine (if_neg (Nat.not_lt.mpr hddc)).trans ?_
  simp only [hstart, hrun, hproduced, Bool.and_self, if_true, State.finishAll_ddc, hdelay]

theorem happens_firstSettledOutput (d : Nat) :
    Happens (.firstSettledOutput · d) (Cond.settled d) (Eff.firstSettledOutput d) := by
  refine happens_of _ (fun _ _ => rfl) fun a h => ?_
  simp only [Cond.settled, Bool.and_eq_true, decide_eq_true_eq] at h
  obtain ⟨⟨⟨⟨hddc, hrun⟩, hopen⟩, halive⟩, hproduced⟩ := h
  exact if_pos ⟨hddc, hrun, hopen, halive, hproduced⟩

/-! ## Datapath faults (R148) -/

/-- A unit that is in service passes the test at the head of `State.ddcFail`. -/
theorem State.ddcFail_reaches {i u : Nat} {a : State} (hi : i ≤ 3) (hu : u ≤ 8)
    (hret : (!a.isRetired ⟨2, i, u⟩) = true) : ¬ (i > 3 || u > 8 || a.isRetired ⟨2, i, u⟩) = true := by
  simp [hi, hu, ne_true_of_not hret]

/-- The DDC on the unit moves to the spare one, and runs unsettled from now. -/
theorem happens_ddcDatapathFault_owned (i u d v : Nat) :
    Happens (.ddcDatapathFault · i u) (Cond.ddcFails i u d v) (Eff.ddcDatapathFault i u d v) := by
  refine happens_of _ (fun _ _ => rfl) fun a h => ?_
  simp only [Cond.ddcFails, Bool.and_eq_true, decide_eq_true_eq, beq_iff_eq, bne_iff_ne] at h
  obtain ⟨⟨⟨⟨⟨hi, hu⟩, hret⟩, howner⟩, hleft⟩, hspare⟩ := h
  obtain ⟨n, hn⟩ := Nat.exists_eq_succ_of_ne_zero hleft
  refine (if_neg (State.ddcFail_reaches hi hu hret)).trans ?_
  simp only [howner, hn, hspare]

/-- No DDC is on the unit. -/
theorem happens_ddcDatapathFault_unused (i u : Nat) : Happens (.ddcDatapathFault · i u)
    (fun a => decide (i ≤ 3) && decide (u ≤ 8) && !a.isRetired ⟨2, i, u⟩ &&
      (span (8 * i) 8).all fun d => (a.ddc d).physical d != u) (fun a => a.faultIn ⟨2, i, u⟩ {}) := by
  refine happens_of _ (fun _ _ => rfl) fun a h => ?_
  simp only [Bool.and_eq_true, decide_eq_true_eq, List.all_eq_true, bne_iff_ne] at h
  obtain ⟨⟨⟨hi, hu⟩, hret⟩, hother⟩ := h
  have hnone : ((span (8 * i) 8).find? fun d => (a.ddc d).physical d == u && !(a.ddc d).lent && !(a.ddc d).dead) =
      none := List.find?_eq_none.mpr fun d hd => by simp [hother d hd]
  refine (if_neg (State.ddcFail_reaches hi hu hret)).trans ?_
  simp only [hnone]

/-- Settles O13, verb by verb and row by row. -/
theorem ddcVerbsAndRows : Obligations.DdcVerbsAndRows :=
  ⟨⟨completes_ddcConfigure, completes_ddcSetDelay_idle, completes_ddcSetDelay_now, completes_ddcSetDelay_scheduled,
      completes_ddcEnable_grid, completes_ddcEnable_scheduled, completes_ddcEnable_running,
      completes_ddcDisable_running, completes_ddcDisable_idle, completes_ddcGetStatus⟩,
    happens_ddcScheduledChange_delay, happens_ddcScheduledChange_start, happens_ddcScheduledChange_enabled,
    happens_firstSettledOutput, happens_ddcDatapathFault_owned, happens_ddcDatapathFault_unused⟩

end Sys2Proof.Machine

end

section

namespace Sys2Proof.Machine

/-! # The PRESS verbs and the rows of the transform engine -/

/-! ## Configuration (R179) -/

/-- The shape of a job whose fields are in range: its size, overlap and taps are those of its kind. -/
theorem Cond.pressFields_shape {c : Cmd} (h : Cond.pressFields c = true) :
    let x := Cond.pressJobOf c
    x.kind ≤ 1 ∧ ¬ (if x.kind == 1 then x.size < 6 ∨ x.size > 16 else x.size < 8 ∨ x.size > 16) ∧
      ¬ (if x.kind == 1 then x.overlap > 2 else x.overlap > 3) ∧
      ¬ (if x.kind == 1 then x.taps > 3 else x.taps ≠ 0) := by
  simp only [Cond.pressFields, Bool.and_eq_true] at h
  obtain ⟨⟨⟨⟨-, hshape⟩, -⟩, -⟩, -⟩ := h
  by_cases hpfb : (Cond.pressJobOf c).kind = 1
  · simp only [hpfb, if_true, Bool.and_eq_true, decide_eq_true_eq, beq_self_eq_true] at hshape ⊢
    omega
  · simp only [hpfb, if_false, Bool.and_eq_true, decide_eq_true_eq, beq_iff_eq] at hshape ⊢
    omega

/-- The source of a job whose fields are in range: an input has no bin order, and a DDC no half spectrum. -/
theorem Cond.pressFields_source {c : Cmd} (h : Cond.pressFields c = true) :
    let x := Cond.pressJobOf c
    x.srcKind ≤ 1 ∧ ¬ (if x.srcKind = 0 then x.source > 3 else x.source > 31) ∧ x.order ≤ 1 ∧ x.half ≤ 1 ∧
      ¬ (x.srcKind = 0 ∧ x.order = 1) ∧ ¬ ((!decide (x.srcKind = 0)) = true ∧ x.half = 1) := by
  simp only [Cond.pressFields, Bool.and_eq_true, decide_eq_true_eq] at h
  obtain ⟨⟨⟨⟨⟨hkind, hsource⟩, -⟩, -⟩, horder⟩, -⟩ := h
  by_cases hreal : (Cond.pressJobOf c).srcKind = 0
  · simp only [hreal, if_true, Bool.and_eq_true, decide_eq_true_eq, beq_iff_eq, decide_true,
      Bool.not_true, Bool.false_eq_true, true_and, false_and, not_false_eq_true, and_true] at hsource horder ⊢
    omega
  · simp only [hreal, if_false, Bool.and_eq_true, decide_eq_true_eq, beq_iff_eq, decide_false,
      Bool.not_false, false_and, not_false_eq_true, true_and] at hsource horder ⊢
    omega

/-- The number, the form and the fields of `PRESS.CONFIGURE` are in range. -/
theorem Cond.pressFields_reaches {c : Cmd} (hjob : u8 c.payload 0 ≤ 31 ∨ u8 c.payload 0 = 0xFF)
    (hform : u8 c.payload 1 ≤ 1) (h : Cond.pressFields c = true) :
    let x := Cond.pressJobOf c
    ¬ ((u8 c.payload 0 > 31 ∧ u8 c.payload 0 ≠ 0xFF) ∨ u8 c.payload 1 > 1 ∨ x.kind > 1 ∨ x.srcKind > 1 ∨
      (if x.srcKind = 0 then x.source > 3 else x.source > 31) ∨
      (if x.kind == 1 then x.size < 6 ∨ x.size > 16 else x.size < 8 ∨ x.size > 16) ∨
      (if x.kind == 1 then x.overlap > 2 else x.overlap > 3) ∨ (if x.kind == 1 then x.taps > 3 else x.taps ≠ 0) ∨
      x.format > 3 ∨ x.order > 1 ∨ x.half > 1 ∨ (x.srcKind = 0 ∧ x.order = 1) ∨
      ((!decide (x.srcKind = 0)) = true ∧ x.half = 1) ∨ (!zeros c.payload 11 5) = true) := by
  obtain ⟨hkind, hsize, hoverlap, htaps⟩ := Cond.pressFields_shape h
  obtain ⟨hsrc, hsource, horder, hhalf, hreal, hcomplex⟩ := Cond.pressFields_source h
  simp only [Cond.pressFields, Bool.and_eq_true, decide_eq_true_eq] at h
  obtain ⟨⟨⟨-, hformat⟩, -⟩, hz⟩ := h
  simp only [hsize, hoverlap, htaps, hsource, hreal, hcomplex, hz, Bool.not_true, Bool.false_eq_true, or_false,
    false_or]
  omega

/-- The job is placed, and keeps the map and the prototype of one of its kind and size. -/
theorem completes_pressConfigure :
    Completes .pressConfigure 0x0501 Cond.pressConfigure Eff.pressConfigure := by
  refine completes_of pressConfigure (fun _ _ _ _ => rfl) fun c a h => ?_
  simp only [Cond.pressConfigure, Bool.and_eq_true, Bool.or_eq_true, decide_eq_true_eq, beq_iff_eq,
    Bool.not_eq_true'] at h
  obtain ⟨⟨⟨⟨⟨⟨⟨⟨hjob, hform⟩, hnew⟩, hfields⟩, htable⟩, hidle⟩, hroom⟩, hplace⟩, -⟩ := h
  obtain ⟨pipes, hpipes⟩ := Option.isSome_iff_exists.mp hplace
  refine State.conclude_congr ((if_neg (Cond.pressFields_reaches hjob (by omega) hfields)).trans
    ((if_neg (by simp [hform])).trans ((if_neg (Nat.not_le.mpr hnew)).trans ((if_neg ?_).trans ((if_neg ?_).trans
      (if_neg (Nat.not_lt.mpr hroom))))))) ?_
  · rintro ⟨hhas, hmode⟩
    exact hmode (hidle.resolve_left (Bool.ne_false_iff.mpr hhas))
  · rintro ⟨hfft, hshort⟩
    exact htable.elim (fun hpfb => ne_true_of_not hfft (beq_iff_eq.mpr hpfb)) fun hlong =>
      Bool.false_ne_true (hlong.symm.trans hshort)
  · simp only [Cond.pressJob, Cond.pressJobOf, Eff.pressConfigure] at hpipes ⊢
    simp only [hpipes, Option.getD_some]
    rfl

/-- The query form answers with the job as it is. -/
theorem completes_pressConfigure_query : Completes .pressConfigure 0x0501
    (fun c a => decide (u8 c.payload 0 ≤ 31) && Cond.pressFields c && u8 c.payload 1 == 1 &&
      a.press.jobs.has (u8 c.payload 0)) Eff.pressConfigure2 := by
  refine completes_of pressConfigure (fun _ _ _ _ => rfl) fun c a h => ?_
  simp only [Bool.and_eq_true, decide_eq_true_eq, beq_iff_eq] at h
  obtain ⟨⟨⟨hjob, hfields⟩, hquery⟩, hhas⟩ := h
  have hnamed : u8 c.payload 0 ≠ 0xFF := by omega
  refine State.conclude_congr ((if_neg (Cond.pressFields_reaches (.inl hjob) (Nat.le_of_eq hquery) hfields)).trans
    ((if_pos (by simp [hquery])).trans ((if_neg hnamed).trans (if_neg ?_)))) ?_
  · simp [hnamed, hhas]
  · simp only [if_neg hnamed]

/-! ## Windows and prototypes (R167, R173, R180, R181) -/

/-- A table lies where its location asks: within a region of Cellar, or at a multiple of 8 bytes of host memory. -/
theorem State.table_inPlace {a : State} {loc addr n : Nat}
    (h : (if loc = 1 then a.inRegion addr n else addr % 8 == 0) = true) :
    ¬ (if loc = 1 then !a.inRegion addr n else decide (addr % 8 ≠ 0)) = true := by
  by_cases hcellar : loc = 1
  · simpa only [if_pos hcellar, Bool.not_eq_true', Bool.not_eq_false] using h
  · simpa only [if_neg hcellar, beq_iff_eq, decide_eq_true_eq, ne_eq, Decidable.not_not] using h

/-- A window other than a user table has no table to read. -/
theorem completes_pressLoadWindow_named (table : List Byte) :
    Completes (.pressLoadWindow · · · table) 0x0502 Cond.pressWindow Eff.pressLoadWindow := by
  refine completes_of (pressLoadWindow table) (fun _ _ _ _ => rfl) fun c a h => ?_
  simp only [Cond.pressWindow, Cond.bankLive, Bool.and_eq_true, decide_eq_true_eq] at h
  obtain ⟨⟨⟨⟨⟨⟨hinput, hbank⟩, hkind⟩, hbeta⟩, hz6⟩, hz16⟩, hlive⟩ := h
  have huser : (u8 c.payload 2 == 5) = false := beq_false_of_ne (Nat.ne_of_lt hkind)
  refine State.conclude_congr ((if_neg ?_).trans (if_neg ?_)) ?_
  · simp only [bne_iff_ne, Bool.or_eq_true, decide_eq_true_eq] at hbeta
    simp only [huser, hz6, hz16, Bool.not_true, Bool.false_eq_true, false_and, or_false]
    omega
  · simp [huser, ne_true_of_not hlive]
  · simp [huser]

/-- A user table is read from its place, and no word of it is out of range. -/
theorem completes_pressLoadWindow_table (table : List Byte) :
    Completes (.pressLoadWindow · · · table) 0x0502 (Cond.pressTable table) (Eff.pressLoadWindow2 table) := by
  refine completes_of (pressLoadWindow table) (fun _ _ _ _ => rfl) fun c a h => ?_
  simp only [Cond.pressTable, Cond.bankLive, Bool.and_eq_true, decide_eq_true_eq, beq_iff_eq,
    Option.isNone_iff_eq_none] at h
  obtain ⟨⟨⟨⟨⟨⟨⟨⟨⟨⟨⟨hinput, hbank⟩, huser⟩, hcellar⟩, hshort⟩, hlong⟩, haddr⟩, hz6⟩, hz16⟩, hlive⟩, hpoints⟩, hwords⟩ := h
  refine State.conclude_congr ((if_neg ?_).trans (if_neg ?_)) ?_
  · simp only [huser, hz6, hz16, beq_iff_eq, beq_self_eq_true, State.table_inPlace haddr, true_and, Bool.not_true,
      Bool.false_eq_true, or_false]
    omega
  · simp [ne_true_of_not hlive, ne_true_of_not hpoints]
  · simp [huser, hwords]

/-- A prototype is read from its place, and no word of it is out of range. -/
theorem completes_pressLoadPfb_table (table : List Byte) :
    Completes (.pressLoadPfb · · · table) 0x0503 (Cond.pressPfb table) (Eff.pressLoadPfb table) := by
  refine completes_of (pressLoadPfb table) (fun _ _ _ _ => rfl) fun c a h => ?_
  simp only [Cond.pressPfb, Bool.and_eq_true, decide_eq_true_eq, beq_iff_eq, Option.isNone_iff_eq_none] at h
  obtain ⟨⟨⟨⟨⟨⟨⟨⟨⟨hjob, hloc⟩, hz2⟩, hz16⟩, hhas⟩, hkind⟩, hmode⟩, hcount⟩, haddr⟩, hwords⟩ := h
  refine State.conclude_congr ((if_neg ?_).trans ((if_neg ?_).trans ((if_neg (by omega)).trans (if_neg ?_)))) ?_
  · simp only [hz2, hz16, Bool.not_true, Bool.false_eq_true, or_false]
    omega
  · simp [hhas, hkind, hmode]
  · exact not_or.mpr ⟨not_not_intro hcount, State.table_inPlace haddr⟩
  · simp only [hwords, conclude_done]

/-- The job returns to the prototype built in. -/
theorem completes_pressLoadPfb_builtIn (table : List Byte) : Completes (.pressLoadPfb · · · table) 0x0503
    (fun c a => decide (u8 c.payload 0 ≤ 31) && u8 c.payload 1 == 2 && zeros c.payload 2 2 && zeros c.payload 16 8 &&
      a.press.jobs.has (u8 c.payload 0) && (a.job (u8 c.payload 0)).kind == 1 &&
      (a.job (u8 c.payload 0)).mode == .configured) Eff.pressLoadPfb2 := by
  refine completes_of (pressLoadPfb table) (fun _ _ _ _ => rfl) fun c a h => ?_
  simp only [Bool.and_eq_true, decide_eq_true_eq, beq_iff_eq] at h
  obtain ⟨⟨⟨⟨⟨⟨hjob, hloc⟩, hz2⟩, hz16⟩, hhas⟩, hkind⟩, hmode⟩ := h
  refine State.conclude_congr ((if_neg ?_).trans ((if_neg ?_).trans (if_pos hloc))) (conclude_done ..)
  · simp only [hz2, hz16, Bool.not_true, Bool.false_eq_true, or_false]
    omega
  · simp [hhas, hkind, hmode]

/-! ## Channel maps (R174, R182) -/

/-- The map takes the entries of the block, within the memory left. -/
theorem completes_pressMapChannels :
    Completes .pressMapChannels 0x0504 Cond.pressMap Eff.pressMapChannels := by
  refine completes_of pressMapChannels (fun _ _ _ _ => rfl) fun c a h => ?_
  simp only [Cond.pressMap, Bool.and_eq_true, decide_eq_true_eq, beq_iff_eq, bne_iff_ne] at h
  obtain ⟨⟨⟨⟨⟨⟨⟨⟨⟨⟨⟨⟨⟨hlen, hjob⟩, hz1⟩, hsome⟩, hmany⟩, hfirst⟩, hz8⟩, hentries⟩, hhas⟩, hmode⟩, hbins⟩, hflows⟩, hfree⟩,
    htotal⟩ := h
  refine State.conclude_congr ((if_neg (not_not_intro hlen)).trans ((if_neg ?_).trans ((if_neg ?_).trans ((if_neg ?_).trans
    ((if_neg (ne_true_of_not hfree)).trans (if_neg (Nat.not_lt.mpr htotal))))))) (conclude_done ..)
  · rintro (h | h | h | h | h | h | h)
    · omega
    · simp [hz1] at h
    · omega
    · omega
    · omega
    · simp [hz8] at h
    · exact ne_true_of_not hentries h
  · simp [hhas, hmode]
  · rintro (h | h)
    · omega
    · exact ne_true_of_not hflows h

/-! ## Enable and disable (R73, R163, R177, R183, R184) -/

/-- A job whose declaration fits starts at origin `g`. -/
theorem completes_pressEnable (g : Nat) :
    Completes .pressEnable 0x0505 (Cond.pressEnable g) (Eff.pressEnable g) := by
  refine completes_of pressEnable (fun _ _ _ _ => rfl) fun c a h => ?_
  simp only [Cond.pressEnable, Bool.and_eq_true, decide_eq_true_eq, beq_iff_eq, bne_iff_ne] at h
  obtain ⟨⟨⟨⟨⟨⟨⟨⟨⟨⟨⟨hjob, hmode⟩, hsoon⟩, hz⟩, hhas⟩, hoff⟩, hrest⟩, hsource⟩, horigin⟩, hgrid⟩, hfits⟩, hflows⟩ := h
  refine State.conclude_congr ((if_neg ?_).trans ((if_neg ?_).trans ((if_neg hoff).trans ((if_neg hrest).trans
    ((if_neg ?_).trans (if_neg (ne_true_of_not hsoon))))))) ?_
  · simp only [hz, Bool.not_true, Bool.false_eq_true, or_false]
    omega
  · simp [hhas]
  · simp [hsource]
  · cases hdecl : a.declare [a.pressDecl (u8 c.payload 0)] with
    | error short => exact absurd hfits (by simp [hdecl, Except.isOk, Except.toBool])
    | ok b =>
      simp only [Cond.pressOrigin] at horigin
      simp only [horigin, Eff.pressEnable, hdecl]
      refine State.conclude_congr ((if_neg ?_).trans (if_neg ?_)) (conclude_running ..)
      · rintro ⟨hddc, hwrong⟩
        simp only [hddc, bne_self_eq_false, Bool.false_or, Bool.and_eq_true, decide_eq_true_eq, beq_iff_eq] at hgrid
        omega
      · simpa using hflows

/-- The enable of a running job completes with its origin. -/
theorem completes_pressEnable_running : Completes .pressEnable 0x0505
    (fun c a => decide (u8 c.payload 0 ≤ 31) && decide (u8 c.payload 1 ≤ 2) && zeros c.payload 2 6 &&
      a.press.jobs.has (u8 c.payload 0) && (a.job (u8 c.payload 0)).mode == .running) Eff.pressEnable2 := by
  refine completes_of pressEnable (fun _ _ _ _ => rfl) fun c a h => ?_
  simp only [Bool.and_eq_true, decide_eq_true_eq, beq_iff_eq] at h
  obtain ⟨⟨⟨⟨hjob, hmode⟩, hz⟩, hhas⟩, hrun⟩ := h
  refine State.conclude_congr ((if_neg ?_).trans ((if_neg ?_).trans (if_pos hrun))) (conclude_done ..)
  · simp only [hz, Bool.not_true, Bool.false_eq_true, or_false]
    omega
  · simp [hhas]

/-- The job stops: it is at rest, or it waits for the frames that have started. -/
theorem completes_pressDisable : Completes .pressDisable 0x0506 Cond.pressDisable Eff.pressDisable := by
  refine completes_of pressDisable (fun _ _ _ _ => rfl) fun c a h => ?_
  simp only [Cond.pressDisable, Bool.and_eq_true, Bool.or_eq_true, decide_eq_true_eq, beq_iff_eq,
    Option.isNone_iff_eq_none] at h
  obtain ⟨⟨⟨⟨hjob, hfree⟩, hz⟩, hhas⟩, hconsumer⟩ := h
  have hnone : (if (a.job (u8 c.payload 0)).mode = .configured then none
      else a.pressConsumer (u8 c.payload 0) 0) = none := ite_eq_left_iff.mpr fun hon => hconsumer.resolve_left hon
  refine State.conclude_congr ((if_neg ?_).trans (if_neg ?_)) ?_
  · simp only [hz, Bool.not_true, Bool.false_eq_true, or_false]
    omega
  · simp [hhas]
  · simp only [hnone]
    exact apply_ite (a.conclude c) _ _ _

/-- A job that does not exist is at rest. -/
theorem completes_pressDisable_absent : Completes .pressDisable 0x0506
    (fun c a => decide (u8 c.payload 0 ≤ 31) && decide (u8 c.payload 1 ≤ 1) && zeros c.payload 2 2 &&
      !a.press.jobs.has (u8 c.payload 0)) (fun c a => a.finish c .quiesced 0) := by
  refine completes_of pressDisable (fun _ _ _ _ => rfl) fun c a h => ?_
  simp only [Bool.and_eq_true, decide_eq_true_eq] at h
  obtain ⟨⟨⟨hjob, hfree⟩, hz⟩, habsent⟩ := h
  refine State.conclude_congr ((if_neg ?_).trans (if_pos habsent)) (conclude_done ..)
  simp only [hz, Bool.not_true, Bool.false_eq_true, or_false]
  omega

/-! ## Frames (R163, R165, R176, R513) -/

/-- The next frame of a job that goes on leaves. -/
theorem happens_pressFrameRelease_due (job : Nat) (codes : List Int) :
    Happens (.pressFrameRelease · job () () () codes) (Cond.frameDue job codes)
      (Eff.pressFrameRelease job codes) := by
  refine happens_of _ (fun _ _ => rfl) fun a h => ?_
  simp only [Cond.frameDue, Bool.and_eq_true, Bool.or_eq_true, decide_eq_true_eq, beq_iff_eq] at h
  obtain ⟨⟨⟨⟨hhas, hmode⟩, hstop⟩, hthere⟩, hcodes⟩ := h
  have hon : (a.job job).mode ≠ .quiescing := by rcases hmode with h | h <;> simp [h]
  refine (if_neg ?_).trans ((if_neg (by simp [hstop])).trans ?_)
  · rcases hmode with h | h <;> simp [hhas, h, hthere, hcodes]
  · simp only [if_neg hon]

/-- The last frame of a job that is stopping leaves, and the job comes to rest. -/
theorem happens_pressFrameRelease_last (job : Nat) (codes : List Int) :
    Happens (.pressFrameRelease · job () () () codes) (Cond.lastFrame job codes)
      (Eff.pressFrameRelease2 job codes) := by
  refine happens_of _ (fun _ _ => rfl) fun a h => ?_
  simp only [Cond.lastFrame, Bool.and_eq_true, decide_eq_true_eq, beq_iff_eq] at h
  obtain ⟨⟨⟨⟨hhas, hmode⟩, hstop⟩, hthere⟩, hcodes⟩ := h
  refine (if_neg ?_).trans ((if_pos hstop).trans ?_)
  · simp [hhas, hmode, hstop, hthere, hcodes]
  · simp only [hmode, if_true, Eff.pressFrameRelease2]

/-- A frame whose pipeline has failed with nothing to cover it is unsettled. -/
theorem State.makeFrame_unsettled_of_deadAt {a : State} {job k : Nat} (codes : List Int)
    (h : (a.job job).deadAt k = true) : (a.makeFrame job k codes).tag.unsettled = true := by
  simp only [State.makeFrame, h, Bool.true_or]

/-- A frame whose pipeline has failed with nothing to cover it is all zeros. -/
theorem State.makeFrame_values_of_deadAt {a : State} {job k : Nat} (codes : List Int)
    (h : (a.job job).deadAt k = true) :
    (a.makeFrame job k codes).values = (List.replicate (a.job job).bins (0, 0)).flatMap
      (binBytes (a.job job).format 1 (a.makeFrame job k codes).tag.exponent) := by
  simp only [State.makeFrame, h, if_true]

/-! ## Pipelines that fail (R176, R520) -/

/-- A pipeline in service passes the test at the head of `State.pipeFail`. -/
theorem State.pipeFail_reaches {u : Nat} {a : State} (hu : u ≤ 8) (hret : (!a.isRetired ⟨3, 0, u⟩) = true) :
    ¬ (u > 8 || a.isRetired ⟨3, 0, u⟩) = true := by
  simp [hu, ne_true_of_not hret]

/-- The spare itself fails. -/
theorem happens_pressPipelineFault_spare (u : Nat) : Happens (.pressPipelineFault · u)
    (fun a => decide (u ≤ 8) && !a.isRetired ⟨3, 0, u⟩ && a.press.spare == some u)
    (Eff.pressPipelineFault u) := by
  refine happens_of _ (fun _ _ => rfl) fun a h => ?_
  simp only [Bool.and_eq_true, decide_eq_true_eq, beq_iff_eq] at h
  obtain ⟨⟨hu, hret⟩, hspare⟩ := h
  exact (if_neg (State.pipeFail_reaches hu hret)).trans (if_pos hspare)

/-- The spare takes the work of the pipeline. -/
theorem happens_pressPipelineFault_covered (u v : Nat) : Happens (.pressPipelineFault · u)
    (fun a => decide (u ≤ 8) && !a.isRetired ⟨3, 0, u⟩ && a.press.spare == some v && u != v &&
      a.sparesLeft 3 0 != 0) (Eff.pressPipelineFault2 u v) := by
  refine happens_of _ (fun _ _ => rfl) fun a h => ?_
  simp only [Bool.and_eq_true, decide_eq_true_eq, beq_iff_eq, bne_iff_ne] at h
  obtain ⟨⟨⟨⟨hu, hret⟩, hspare⟩, hother⟩, hleft⟩ := h
  obtain ⟨n, hn⟩ := Nat.exists_eq_succ_of_ne_zero hleft
  refine (if_neg (State.pipeFail_reaches hu hret)).trans ((if_neg (by simp [hspare, hother.symm])).trans ?_)
  simp only [hspare, hn]

/-- Settles O14, verb by verb. -/
theorem pressVerbsComplete : Obligations.PressVerbsComplete :=
  ⟨completes_pressConfigure, completes_pressConfigure_query, completes_pressLoadWindow_named,
    completes_pressLoadWindow_table, completes_pressLoadPfb_table, completes_pressLoadPfb_builtIn,
    completes_pressMapChannels, completes_pressEnable, completes_pressEnable_running, completes_pressDisable,
    completes_pressDisable_absent⟩

/-- Settles O15, row by row; the tag of a frame is read off `State.makeFrame`. -/
theorem pressRows : Obligations.PressRows :=
  ⟨happens_pressFrameRelease_due, happens_pressFrameRelease_last,
    fun _ _ _ codes => ⟨rfl, rfl, rfl, rfl, fun hdead => ⟨State.makeFrame_unsettled_of_deadAt codes hdead,
      State.makeFrame_values_of_deadAt codes hdead⟩⟩,
    happens_pressPipelineFault_spare, happens_pressPipelineFault_covered⟩

end Sys2Proof.Machine

end

section

namespace Sys2Proof.Machine

/-! # The SPEC verbs, the spectra and the cells of the density accumulator -/

/-! ## Configuration (R193, R196, R203, R204, R205) -/

/-- A disabled trace on a job that has its bins takes every field, with storage left for all traces. -/
theorem completes_specConfigureDetector :
    Completes .specConfigureDetector 0x0601 Cond.specDetector Eff.specConfigureDetector := by
  refine completes_of specConfigureDetector (fun _ _ _ _ => rfl) fun c a h => ?_
  simp only [Cond.specDetector, Bool.and_eq_true, Bool.or_eq_true, decide_eq_true_eq, beq_iff_eq, bne_iff_ne] at h
  obtain ⟨⟨⟨⟨⟨⟨⟨⟨⟨⟨⟨⟨⟨⟨⟨⟨⟨⟨htrace, hjob⟩, hdet⟩, hmode⟩, hout⟩, hcount⟩, hexcl⟩, hz6⟩, hfirst⟩, hbins⟩, hmany⟩, hint⟩,
    hlong⟩, hflow⟩, hz32⟩, hoff⟩, hhas⟩, hfit⟩, htotal⟩ := h
  refine State.conclude_congr ((if_neg ?_).trans ((if_neg ?_).trans ((if_neg (Nat.not_lt.mpr hfit)).trans
    (if_neg (Nat.not_lt.mpr htotal))))) (conclude_done ..)
  · simp only [hz6, hz32, Bool.not_true, Bool.false_eq_true, false_or, or_false]
    omega
  · simp [ne_true_of_not hoff, hhas]

/-- The fields of a density plane are in range. -/
theorem Cond.specDensity_fields {c : Cmd} {a : State} (h : Cond.specDensity c a = true) :
    let x := Cond.planeOf c
    ¬ (u8 c.payload 0 > 3 ∨ u8 c.payload 1 > 2 ∨ x.job > 31 ∨ u8 c.payload 3 > 7 ∨ x.step = 0 ∨ x.step > 256 ∨
      x.firstBin > 65535 ∨ x.bins = 0 ∨ x.bins > 65536 ∨ x.decim = 0 ∨ x.decim > 65536 ∨
      (x.decayUs ≠ 0 ∧ (x.decayUs < 10 ∨ 100000000 < x.decayUs ∨ x.decayShift = 0 ∨ 31 < x.decayShift)) ∨
      (!zeros c.payload 25 7) = true) := by
  simp only [Cond.specDensity, Bool.and_eq_true, Bool.or_eq_true, decide_eq_true_eq, beq_iff_eq, bne_iff_ne] at h
  obtain ⟨⟨⟨⟨⟨hfields, hz⟩, -⟩, -⟩, -⟩, -⟩ := h
  simp only [hz, Bool.not_true, Bool.false_eq_true, or_false]
  omega

/-- A disabled plane takes every field, and its live FREEZE bit is cleared. -/
theorem completes_specConfigureDensity :
    Completes .specConfigureDensity 0x0602 Cond.specDensity Eff.specConfigureDensity := by
  refine completes_of specConfigureDensity (fun _ _ _ _ => rfl) fun c a h => ?_
  have hfields := Cond.specDensity_fields h
  simp only [Cond.specDensity, Bool.and_eq_true, decide_eq_true_eq] at h
  obtain ⟨⟨⟨⟨-, hoff⟩, hpart⟩, hsame⟩, hload⟩ := h
  refine State.conclude_congr ((if_neg hfields).trans ((if_neg ?_).trans ((if_neg (Nat.not_le.mpr hpart)).trans
    (if_neg (Nat.not_lt.mpr hload))))) (conclude_done ..)
  rintro (hon | hclash)
  · exact ne_true_of_not hoff hon
  · exact ne_true_of_not hsame (Bool.and_eq_true_iff.mpr hclash)

/-! ## Clears (R199, R206) -/

/-- A clear that names no enabled plane has nothing to wait for. -/
theorem completes_specClearDensity_none : Completes .specClearDensity 0x0603
    (fun c a => decide (u8 c.payload 0 ≤ 15) && zeros c.payload 1 3 &&
      ((maskBits 4 (u8 c.payload 0)).filter fun p => (a.plane p).enabled).isEmpty)
    (fun c a => a.finish c .ok 0) := by
  refine completes_of specClearDensity (fun _ _ _ _ => rfl) fun c a h => ?_
  simp only [Bool.and_eq_true, decide_eq_true_eq] at h
  obtain ⟨⟨hmask, hz⟩, hempty⟩ := h
  exact State.conclude_congr ((if_neg (by simp [hmask, hz])).trans (if_pos hempty)) (conclude_done ..)

/-- A clear of enabled planes runs until each has met its next spectrum. -/
theorem completes_specClearDensity_some : Completes .specClearDensity 0x0603
    (fun c a => decide (u8 c.payload 0 ≤ 15) && zeros c.payload 1 3 &&
      !((maskBits 4 (u8 c.payload 0)).filter fun p => (a.plane p).enabled).isEmpty)
    Eff.specClearDensity := by
  refine completes_of specClearDensity (fun _ _ _ _ => rfl) fun c a h => ?_
  simp only [Bool.and_eq_true, decide_eq_true_eq] at h
  obtain ⟨⟨hmask, hz⟩, hsome⟩ := h
  exact State.conclude_congr ((if_neg (by simp [hmask, hz])).trans (if_neg (ne_true_of_not hsome)))
    (conclude_running ..)

/-! ## Reads of traces and planes (R200, R207) -/

/-- Where the bytes of a read go: to a region of Cellar, or to the result region. -/
def deliverRead (c : Cmd) (bytes : List Byte) (s : State) : VerbOut :=
  if (u8 c.payload 1).testBit 1 then
    if u64 c.payload 24 % 64 ≠ 0 ∨ !s.inRegion (u64 c.payload 24) bytes.length then .fail .badParam 0
    else .done .ok bytes.length (s.keepCellar (s.cellarMem.writeBytes (u64 c.payload 24) bytes))
  else .data bytes bytes.length s

theorem conclude_deliverRead_result {c : Cmd} {bytes : List Byte} {a : State}
    (h : Cond.readTo false bytes.length c a = true) (s : State) :
    a.conclude c (deliverRead c bytes s) = (s.writeResult c bytes).finish c .ok bytes.length := by
  simp only [Cond.readTo, Bool.and_eq_true, beq_iff_eq, Bool.false_eq_true, if_false, decide_eq_true_eq] at h
  obtain ⟨hhost, hroom⟩ := h
  exact State.conclude_congr (if_neg (by simp [hhost])) (conclude_data hroom ..)

theorem conclude_deliverRead_cellar {c : Cmd} {bytes : List Byte} {s : State}
    (h : Cond.readTo true bytes.length c s = true) (a : State) :
    a.conclude c (deliverRead c bytes s) =
      (s.keepCellar (s.cellarMem.writeBytes (u64 c.payload 24) bytes)).finish c .ok bytes.length := by
  simp only [Cond.readTo, Bool.and_eq_true, beq_iff_eq, if_true] at h
  obtain ⟨hcellar, haligned, hregion⟩ := h
  exact State.conclude_congr ((if_pos hcellar).trans (if_neg (by simp [haligned, hregion]))) (conclude_done ..)

/-- A read of a trace delivers its header and points. -/
theorem specReadTrace_trace {c : Cmd} {a : State} (h : Cond.readTrace c a = true) :
    specReadTrace c a =
      deliverRead c (a.traceBytes (u32 c.payload 4)).1 (a.traceBytes (u32 c.payload 4)).2 := by
  simp only [Cond.readTrace, Bool.and_eq_true, Bool.or_eq_true, decide_eq_true_eq, beq_iff_eq] at h
  obtain ⟨⟨⟨⟨⟨⟨hkind, hopts⟩, hz2⟩, htrace⟩, hz20⟩, hconf⟩, hready⟩ := h
  refine (if_neg ?_).trans ((if_pos hkind).trans ((if_neg (by simp [hconf])).trans (if_neg ?_)))
  · simp only [hkind, hz2, hz20, if_true, Bool.not_true, Bool.false_eq_true, or_false, false_or]
    omega
  · rintro ⟨hwait, hold⟩
    exact hready.elim (fun hnow => ne_true_of_not hnow hwait) (Nat.not_lt.mpr hold)

/-- A read of a plane delivers its header and rectangle, with the boundaries that are due applied. -/
theorem specReadTrace_plane {c : Cmd} {a : State} (h : Cond.readPlane c a = true) :
    specReadTrace c a = deliverRead c (Cond.rectangle c a)
      (if (a.plane (u32 c.payload 4)).enabled then a.setPlane (u32 c.payload 4) (a.decayed (u32 c.payload 4))
        else a) := by
  simp only [Cond.readPlane, Bool.and_eq_true, Bool.or_eq_true, decide_eq_true_eq, beq_iff_eq, bne_iff_ne] at h
  obtain ⟨⟨⟨⟨⟨⟨⟨⟨⟨⟨hkind, hopts⟩, hz2⟩, hplane⟩, hz20⟩, hpart⟩, hrow⟩, hrows⟩, hbottom⟩, hcols⟩, hright⟩ := h
  have hnow : (u8 c.payload 1).testBit 0 = false := by rcases hopts with h | h <;> simp [h]
  refine (if_neg ?_).trans ((if_neg (by omega)).trans (if_neg (by omega)))
  simp only [hkind, hnow, hz2, hz20, Nat.one_ne_zero, if_false, Bool.not_true, Bool.false_eq_true, and_false, or_false,
    false_or]
  omega

theorem completes_specReadTrace_trace_result : Completes .specReadTrace 0x0604
    (fun c a => Cond.readTrace c a && Cond.readTo false (a.traceBytes (u32 c.payload 4)).1.length c a)
    Eff.specReadTrace := by
  refine completes_of specReadTrace (fun _ _ _ _ => rfl) fun c a h => ?_
  obtain ⟨hread, hto⟩ := Bool.and_eq_true_iff.mp h
  exact State.conclude_congr (specReadTrace_trace hread) (conclude_deliverRead_result hto _)

theorem completes_specReadTrace_trace_cellar : Completes .specReadTrace 0x0604
    (fun c a => Cond.readTrace c a &&
      Cond.readTo true (a.traceBytes (u32 c.payload 4)).1.length c (a.traceBytes (u32 c.payload 4)).2)
    Eff.specReadTrace2 := by
  refine completes_of specReadTrace (fun _ _ _ _ => rfl) fun c a h => ?_
  obtain ⟨hread, hto⟩ := Bool.and_eq_true_iff.mp h
  exact State.conclude_congr (specReadTrace_trace hread) (conclude_deliverRead_cellar hto _)

theorem completes_specReadTrace_plane_result : Completes .specReadTrace 0x0604
    (fun c a => Cond.readPlane c a && Cond.readTo false (Cond.rectangle c a).length c a)
    Eff.specReadTrace3 := by
  refine completes_of specReadTrace (fun _ _ _ _ => rfl) fun c a h => ?_
  obtain ⟨hread, hto⟩ := Bool.and_eq_true_iff.mp h
  exact State.conclude_congr (specReadTrace_plane hread) (conclude_deliverRead_result hto _)

theorem completes_specReadTrace_plane_cellar : Completes .specReadTrace 0x0604
    (fun c a =>
      let n := u32 c.payload 4
      Cond.readPlane c a && Cond.readTo true (Cond.rectangle c a).length c
        (if (a.plane n).enabled then a.setPlane n (a.decayed n) else a))
    Eff.specReadTrace4 := by
  refine completes_of specReadTrace (fun _ _ _ _ => rfl) fun c a h => ?_
  obtain ⟨hread, hto⟩ := Bool.and_eq_true_iff.mp h
  exact State.conclude_congr (specReadTrace_plane hread) (conclude_deliverRead_cellar hto _)

/-! ## Peak search (R201, R208) -/

/-- A declaration that fits is answered with the state in which it stands. -/
theorem State.declare_ok_of_isOk {a : State} {ds : List Decl} (h : (a.declare ds).isOk = true) :
    ∃ b, a.declare ds = .ok b := by
  cases hd : a.declare ds with
  | error short => simp [hd, Except.isOk, Except.toBool] at h
  | ok b => exact ⟨b, rfl⟩

/-- A search whose energy fits starts on a configured trace. -/
theorem completes_specPeakSearch_start :
    Completes .specPeakSearch 0x0605 Cond.peakSearch Eff.specPeakSearch := by
  refine completes_of specPeakSearch (fun _ _ _ _ => rfl) fun c a h => ?_
  simp only [Cond.peakSearch, Bool.and_eq_true, Bool.or_eq_true, decide_eq_true_eq, beq_iff_eq, bne_iff_ne] at h
  obtain ⟨⟨⟨⟨⟨⟨⟨htrace, hstart⟩, hz⟩, hsome⟩, hmany⟩, hexc⟩, hconf⟩, hfits⟩ := h
  obtain ⟨b, hb⟩ := State.declare_ok_of_isOk hfits
  refine State.conclude_congr ((if_neg ?_).trans ((if_neg (by omega)).trans ((if_neg (by omega)).trans
    ((if_neg (by omega)).trans (if_neg (by simp [hconf])))))) ?_
  · simp only [hz, Bool.not_true, Bool.false_eq_true, or_false]
    omega
  · simp only [hb, conclude_done, Eff.specPeakSearch]

/-- A search stops, and gives back its energy. -/
theorem completes_specPeakSearch_stop : Completes .specPeakSearch 0x0605
    (fun c _ => decide (u8 c.payload 0 ≤ 63) && u8 c.payload 1 == 1 && zeros c.payload 12 4)
    Eff.specPeakSearch2 := by
  refine completes_of specPeakSearch (fun _ _ _ _ => rfl) fun c a h => ?_
  simp only [Bool.and_eq_true, decide_eq_true_eq, beq_iff_eq] at h
  obtain ⟨⟨htrace, hstop⟩, hz⟩ := h
  exact State.conclude_congr ((if_neg (by simp [htrace, hstop, hz])).trans (if_pos hstop)) (conclude_done ..)

/-- The latest peak list is read. -/
theorem completes_specPeakSearch_read : Completes .specPeakSearch 0x0605
    (fun c a => decide (u8 c.payload 0 ≤ 63) && u8 c.payload 1 == 2 && zeros c.payload 12 4 && decide (528 ≤ c.room) &&
      decide (((a.trace (u8 c.payload 0)).peakBytes (u8 c.payload 0)).length ≤ c.room))
    Eff.specPeakSearch3 := by
  refine completes_of specPeakSearch (fun _ _ _ _ => rfl) fun c a h => ?_
  simp only [Bool.and_eq_true, decide_eq_true_eq, beq_iff_eq] at h
  obtain ⟨⟨⟨⟨htrace, hread⟩, hz⟩, hlist⟩, hroom⟩ := h
  exact State.conclude_congr ((if_neg (by simp [htrace, hread, hz])).trans ((if_neg (by omega)).trans
    ((if_pos hread).trans (if_neg (Nat.not_lt.mpr hlist))))) (conclude_data hroom ..)

/-! ## Enable and disable (R201, R209, R210) -/

/-- The fields of `SPEC.ENABLE` name a trace or a plane, and a start. -/
theorem Cond.specEnableFields_reaches {c : Cmd} (h : Cond.specEnableFields c = true) :
    ¬ (u8 c.payload 0 > 1 ∨ u8 c.payload 1 > (if u8 c.payload 0 = 0 then 63 else 3) ∨ u8 c.payload 2 > 1 ∨
      (!zeros c.payload 3 5) = true) := by
  simp only [Cond.specEnableFields, Bool.and_eq_true, decide_eq_true_eq] at h
  obtain ⟨⟨⟨hkind, hunit⟩, hstart⟩, hz⟩ := h
  simp only [not_or, Nat.not_lt, gt_iff_lt, hz, Bool.not_true, Bool.false_eq_true, not_false_eq_true, and_true]
  exact ⟨hkind, hunit, hstart⟩

/-- A configured trace on a running job declares its energy and is armed, where its flow carries its results. -/
theorem completes_specEnable_trace :
    Completes .specEnable 0x0606 Cond.enableTrace Eff.specEnable := by
  refine completes_of specEnable (fun _ _ _ _ => rfl) fun c a h => ?_
  simp only [Cond.enableTrace, Bool.and_eq_true, beq_iff_eq] at h
  obtain ⟨⟨⟨⟨⟨⟨hfields, hkind⟩, hoff⟩, hconf⟩, hjob⟩, hfits⟩, hflow⟩ := h
  obtain ⟨b, hb⟩ := State.declare_ok_of_isOk hfits
  refine State.conclude_congr ((if_neg (Cond.specEnableFields_reaches hfields)).trans ((if_pos hkind).trans
    ((if_neg (ne_true_of_not hoff)).trans (if_neg ?_)))) ?_
  · simp only [Cond.jobRuns] at hjob
    simp [hconf, hjob]
  · simp only [Cond.traceDecl] at hb
    simp only [hb, Eff.specEnable, Cond.traceDecl]
    exact State.conclude_congr (if_neg (ne_true_of_not hflow)) (conclude_running ..)

/-- A configured plane on a running job, partitioned as the enabled ones, declares its energy and is armed. -/
theorem completes_specEnable_plane :
    Completes .specEnable 0x0606 Cond.enablePlane Eff.specEnable2 := by
  refine completes_of specEnable (fun _ _ _ _ => rfl) fun c a h => ?_
  simp only [Cond.enablePlane, Bool.and_eq_true, beq_iff_eq] at h
  obtain ⟨⟨⟨⟨⟨⟨hfields, hkind⟩, hoff⟩, hconf⟩, hjob⟩, hsame⟩, hfits⟩ := h
  obtain ⟨b, hb⟩ := State.declare_ok_of_isOk hfits
  refine State.conclude_congr ((if_neg (Cond.specEnableFields_reaches hfields)).trans ((if_neg (by omega)).trans
    ((if_neg (ne_true_of_not hoff)).trans (if_neg ?_)))) ?_
  · simp only [Cond.jobRuns] at hjob
    simp only [hconf, hjob, ne_true_of_not hsame, Bool.not_true, Bool.false_eq_true, or_self, not_false_eq_true]
  · simp only [Cond.planeDecl] at hb
    simp only [hb, Eff.specEnable2, Cond.planeDecl, conclude_running]

/-- A trace or a plane that nothing consumes is quiesced. -/
theorem completes_specDisable : Completes .specDisable 0x0607 Cond.specDisable Eff.specDisable := by
  refine completes_of specDisable (fun _ _ _ _ => rfl) fun c a h => ?_
  simp only [Cond.specDisable, Bool.and_eq_true, decide_eq_true_eq, Option.isNone_iff_eq_none] at h
  obtain ⟨⟨⟨hkind, hunit⟩, hz⟩, hfree⟩ := h
  refine State.conclude_congr (if_neg ?_) ?_
  · simp only [not_or, Nat.not_lt, gt_iff_lt, hz, Bool.not_true, Bool.false_eq_true, not_false_eq_true, and_true]
    exact ⟨hkind, hunit⟩
  · simp only [hfree, ite_self, conclude_done]

/-! ## Spectra, integrations, decay and clears (R186, R189, R198, R199, R206) -/

/-- The oldest frame of a job reaches the traces and planes that take the job. -/
theorem happens_spectrumAccept (job : Nat) (f : PressFrame) (rest : List PressFrame) :
    Happens (.spectrumAccept · job ()) (fun a => (a.job job).queue == f :: rest && a.readyBit 13)
      (Eff.spectrumAccept job f rest) := by
  refine happens_of _ (fun _ _ => rfl) fun a h => ?_
  simp only [Bool.and_eq_true, beq_iff_eq] at h
  obtain ⟨hqueue, hready⟩ := h
  simp only [hqueue]
  exact if_neg (by simp [hready])

/-- An integration that has its spectra ends. -/
theorem happens_integrationEnd_full (n : Nat) :
    Happens (.integrationEnd · n) (fun a => (a.trace n).full) (Eff.integrationEnd n) :=
  happens_of _ (fun _ _ => rfl) fun _ hfull => if_pos hfull

/-- An integration that lacks spectra goes on. -/
theorem happens_integrationEnd_early (n : Nat) :
    Happens (.integrationEnd · n) (fun a => !(a.trace n).full) (fun a => a) :=
  happens_of _ (fun _ _ => rfl) fun _ hearly => if_neg (ne_true_of_not hearly)

/-- The boundaries of an enabled plane are applied up to its next spectrum, unless a clear comes before them. -/
theorem State.decayed_of_enabled {a : State} {p : Nat} (h : (a.plane p).enabled = true) :
    a.decayed p = if (a.plane p).clearAfter.isNone then
      (a.plane p).decayTo (min a.now (a.nextSpectrum (a.plane p).job)) else a.plane p := by
  simp only [State.decayed, h, Bool.true_and]

theorem happens_decayBoundary (p : Nat) :
    Happens (.decayBoundary · p) (fun a => (a.plane p).enabled) (Eff.decayBoundary p) :=
  happens_of _ (fun _ _ => rfl) fun a hon =>
    (if_pos hon).trans (congrArg (a.setPlane p) (State.decayed_of_enabled hon))

/-- A clear of an enabled plane takes effect at the next frame that SPEC accepts. -/
theorem happens_densityClearApply (p : Nat) (f : PressFrame) (rest : List PressFrame) :
    Happens (.densityClearApply · p)
      (fun a => (a.plane p).enabled && (a.job (a.plane p).job).queue == f :: rest) (Eff.densityClearApply p f) := by
  refine happens_of _ (fun _ _ => rfl) fun a h => ?_
  simp only [Bool.and_eq_true, beq_iff_eq] at h
  obtain ⟨hon, hqueue⟩ := h
  simp only [hqueue, hon, if_true]

/-! ## Cells (R197) -/

/-- A cell at its limit loses the increment, and the loss is counted. -/
theorem Plane.increment_of_full {x : Plane} {row col : Nat} (h : x.cells.get (row * 4096 + col) 0 = 0xFFFFFFFF) :
    x.increment row col = { x with satInc := satAdd 32 x.satInc 1 } := if_pos h

/-- A cell below its limit takes the increment. -/
theorem Plane.increment_of_not_full {x : Plane} {row col : Nat}
    (h : x.cells.get (row * 4096 + col) 0 ≠ 0xFFFFFFFF) :
    x.increment row col =
      { x with cells := x.cells.set (row * 4096 + col) (x.cells.get (row * 4096 + col) 0 + 1) } := if_neg h

/-- Settles O59: the cell is at its limit, or it is below it. -/
theorem densityCellsSaturate : Obligations.DensityCellsSaturate := by
  intro x row col hcell _
  by_cases hfull : x.cells.get (row * 4096 + col) 0 = 0xFFFFFFFF
  · rw [Plane.increment_of_full hfull, if_pos hfull, hfull]
    exact ⟨by omega, rfl, fun _ _ => rfl⟩
  · rw [Plane.increment_of_not_full hfull, if_neg hfull, KMap.get_set_self]
    exact ⟨by omega, rfl, fun k hk => KMap.get_set_ne _ _ _ hk⟩

/-- Settles O16, verb by verb. -/
theorem specVerbsComplete : Obligations.SpecVerbsComplete :=
  ⟨completes_specConfigureDetector, completes_specConfigureDensity, completes_specClearDensity_none,
    completes_specClearDensity_some, completes_specReadTrace_trace_result, completes_specReadTrace_trace_cellar,
    completes_specReadTrace_plane_result, completes_specReadTrace_plane_cellar, completes_specPeakSearch_start,
    completes_specPeakSearch_stop, completes_specPeakSearch_read, completes_specEnable_trace,
    completes_specEnable_plane, completes_specDisable⟩

/-- Settles O17, row by row. -/
theorem specRows : Obligations.SpecRows :=
  ⟨happens_spectrumAccept, happens_integrationEnd_full, happens_integrationEnd_early, happens_decayBoundary,
    happens_densityClearApply⟩

end Sys2Proof.Machine

end

section

namespace Sys2Proof.Machine

/-! # The TRIG verbs, the decisions of the trigger units and their rows -/

/-! ## Units in service, waiting and within their re-arm time (R220, R221) -/

theorem TrigUnit.inService_iff {x : TrigUnit} : x.inService = true ↔ x.mode = .armed ∨ x.mode = .holdoff := by
  simp only [TrigUnit.inService, Bool.or_eq_true, beq_iff_eq]

theorem TrigUnit.waiting_iff {x : TrigUnit} : x.waiting = true ↔ x.mode = .armed ∧ x.dead = none := by
  simp only [TrigUnit.waiting, Bool.and_eq_true, beq_iff_eq, Option.isNone_iff_eq_none]

theorem TrigUnit.configured_of_inService {x : TrigUnit} (h : x.inService = true) : x.mode ≠ .unconfigured := by
  rcases TrigUnit.inService_iff.mp h with hmode | hmode <;> simp [hmode]

/-! ## Configuration (R213, R228) -/

/-- The hold-off of `TRIG.CONFIGURE` is in range where COMPAT asks for one: a count, or a time. -/
theorem trigHoldoff_inRange {compat byCount : Bool} {hold : Nat}
    (h : (!compat || (if byCount then hold != 0 && decide (hold < 2 ^ 32)
      else decide (64 ≤ hold) && decide (hold ≤ 2 ^ 48))) = true) :
    ¬ (compat = true ∧ if byCount = true then hold = 0 ∨ hold ≥ 2 ^ 32 else hold < 64 ∨ hold > 2 ^ 48) := by
  rintro ⟨hcompat, hbad⟩
  cases byCount
  · simp only [hcompat, Bool.not_true, Bool.false_or, Bool.false_eq_true, if_false, Bool.and_eq_true,
      decide_eq_true_eq] at h hbad
    omega
  · simp only [hcompat, Bool.not_true, Bool.false_or, if_true, Bool.and_eq_true, decide_eq_true_eq, bne_iff_ne] at h hbad
    omega

/-- The fields of `TRIG.CONFIGURE` are in range. -/
theorem Cond.trigConfigure_fields {c : Cmd} {a : State} (h : Cond.trigConfigure c a = true) :
    let p := c.payload
    let k := u8 p 1
    let hold := u64 p 28
    ¬ (u8 p 0 > 63 ∨ k > 14 ∨ u16 p 2 > trigSourceMax k ∨ u8 p 4 > (if [0, 1, 5, 6, 7].contains k then 2 else 1) ∨
      u8 p 5 > 15 ∨ (!zeros p 6 2) = true ∨ u64 p 8 > 2 ^ 48 ∨ u64 p 16 > 2 ^ 48 ∨ u64 p 16 < u64 p 8 ∨ u32 p 24 = 0 ∨
      u32 p 24 > 16777216 ∨
      ((u8 p 5).testBit 0 = true ∧
        if (u8 p 5).testBit 1 = true then hold = 0 ∨ hold ≥ 2 ^ 32 else hold < 64 ∨ hold > 2 ^ 48) ∨
      u32 p 40 = 0 ∨ u32 p 40 > 65536 ∨ u32 p 44 = 0 ∨ u32 p 44 > u32 p 40 ∨ (k = 14 ∧ u16 p 60 > 63) ∨
      (!zeros p 62 2) = true) := by
  simp only [Cond.trigConfigure, Bool.and_eq_true] at h
  obtain ⟨⟨⟨⟨⟨⟨⟨⟨⟨⟨⟨⟨⟨⟨⟨⟨⟨⟨⟨⟨hunit, hkind⟩, hsource⟩, hedge⟩, hflags⟩, hz6⟩, hmin⟩, hmax⟩, horder⟩, hcount⟩, hmany⟩, hhold⟩,
    hband⟩, hwide⟩, hbins⟩, hfit⟩, -⟩, hsource2⟩, hz62⟩, -⟩, -⟩ := h
  have hholdoff := trigHoldoff_inRange hhold
  clear hhold
  simp only [decide_eq_true_eq, bne_iff_ne, Bool.or_eq_true] at *
  simp only [hholdoff, hz6, hz62, Bool.not_true, Bool.false_eq_true, or_false, false_or]
  omega

/-- The unit is out of service, and its sources and its band are there. -/
theorem Cond.trigConfigure_reaches {c : Cmd} {a : State} (h : Cond.trigConfigure c a = true) :
    let k := u8 c.payload 1
    let src := u16 c.payload 2
    let seqOk (n : Nat) : Bool := n != u8 c.payload 0 && (a.tunit n).mode != .unconfigured && (a.tunit n).kind != 14
    ¬ (a.tunit (u8 c.payload 0)).inService = true ∧
      ¬ (if k = 14 then !(seqOk src && seqOk (u16 c.payload 60)) else !a.trigSourceOk k src) = true ∧
      ¬ ((k = 6 ∨ k = 7) ∧ u32 c.payload 36 + u32 c.payload 40 > (a.job src).bins) := by
  simp only [Cond.trigConfigure, Bool.and_eq_true] at h
  obtain ⟨⟨⟨⟨⟨-, hband⟩, -⟩, -⟩, hidle⟩, hsource⟩ := h
  refine ⟨ne_true_of_not hidle, ?_, ?_⟩
  · dsimp only
    by_cases hseq : u8 c.payload 1 = 14
    · simpa only [if_pos hseq, Bool.not_eq_true', Bool.not_eq_false] using hsource
    · simpa only [if_neg hseq, Bool.not_eq_true', Bool.not_eq_false] using hsource
  · simp only [Bool.or_eq_true, Bool.not_eq_true', decide_eq_true_eq, Bool.or_eq_false_iff, beq_eq_false_iff_ne] at hband
    omega

/-- A unit out of service takes every field, its live values and their shadows. -/
theorem completes_trigConfigure :
    Completes .trigConfigure 0x0701 Cond.trigConfigure Eff.trigConfigure := by
  refine completes_of trigConfigure (fun _ _ _ _ => rfl) fun c a h => ?_
  obtain ⟨hidle, hsource, hband⟩ := Cond.trigConfigure_reaches h
  exact State.conclude_congr ((if_neg (Cond.trigConfigure_fields h)).trans ((if_neg hidle).trans
    ((if_neg hsource).trans (if_neg hband)))) (conclude_done ..)

/-! ## Masks (R216, R229) -/

/-- A bank that is not in use takes a mask table that lies in its place and has no point out of range. -/
theorem completes_trigLoadMask (table : List Byte) :
    Completes (.trigLoadMask · · · table) 0x0702 (Cond.trigLoadMask table) (Eff.trigLoadMask table) := by
  refine completes_of (trigLoadMask table) (fun _ _ _ _ => rfl) fun c a h => ?_
  simp only [Cond.trigLoadMask, Bool.and_eq_true, decide_eq_true_eq, beq_iff_eq, bne_iff_ne,
    Option.isNone_iff_eq_none] at h
  obtain ⟨⟨⟨⟨⟨⟨⟨⟨⟨⟨hunit, hbank⟩, hloc⟩, hz3⟩, haddr⟩, hfree⟩, hconf⟩, hkind⟩, hcount⟩, htotal⟩, hpoints⟩ := h
  refine State.conclude_congr ((if_neg ?_).trans ((if_neg ?_).trans ((if_neg (not_not_intro hcount)).trans
    (if_neg (Nat.not_lt.mpr htotal))))) ?_
  · simp only [hz3, beq_iff_eq, State.table_inPlace haddr, Bool.not_true, Bool.false_eq_true, or_false]
    omega
  · simp only [hconf, hkind, ne_eq, not_true_eq_false, or_false]
    rintro ⟨hon, huses⟩
    exact ne_true_of_not hfree (by simp [hon, huses])
  · simp only [Cond.maskPoints] at hpoints
    simp only [hpoints, conclude_done, Cond.maskPoints, Eff.trigLoadMask]

/-! ## Routes (R225, R230) -/

/-- A route in range comes into force, or waits for the re-arm of its unit. -/
theorem completes_trigRoute :
    Completes .trigRoute 0x0703 (fun c _ => Cond.trigRoute c) Eff.trigRoute := by
  refine completes_of trigRoute (fun _ _ _ _ => rfl) fun c a h => ?_
  simp only [Cond.trigRoute, Bool.and_eq_true, Bool.or_eq_true, Bool.not_eq_true', decide_eq_true_eq] at h
  obtain ⟨⟨⟨⟨⟨⟨hunit, hflags⟩, hstim⟩, hvine⟩, hz6⟩, hpulse⟩, hz12⟩ := h
  refine State.conclude_congr (if_neg ?_) (conclude_done ..)
  have hns : ¬ ((u8 c.payload 1).testBit 2 = true ∧ (u32 c.payload 8 < 4 ∨ 1000000 < u32 c.payload 8)) := by
    rintro ⟨hset, hbad⟩
    rcases hpulse with hpulse | hpulse
    · exact Bool.false_ne_true (hpulse.symm.trans hset)
    · omega
  simp only [hns, hz6, hz12, Bool.not_true, Bool.false_eq_true, or_false]
  omega

/-! ## Arming (R231) -/

/-- The fields of `TRIG.ARM` are in range. -/
theorem Cond.trigArmFields_reaches {c : Cmd} (h : Cond.trigArmFields c = true) :
    ¬ (u8 c.payload 0 > 63 ∨ u8 c.payload 1 > 2 ∨ u8 c.payload 2 > 2 ∨ u8 c.payload 3 > 1 ∨
      (u8 c.payload 1 = 2 ∧ u32 c.payload 4 = 0) ∨ (!zeros c.payload 16 8) = true) := by
  simp only [Cond.trigArmFields, Bool.and_eq_true, Bool.or_eq_true, decide_eq_true_eq, bne_iff_ne] at h
  obtain ⟨⟨⟨⟨⟨hunit, hmode⟩, hwhen⟩, hevents⟩, htarget⟩, hz⟩ := h
  simp only [hz, Bool.not_true, Bool.false_eq_true, or_false]
  omega

/-- What `TRIG.ARM` comes to for a unit out of service, once its energy is declared. -/
theorem trigArm_met {c : Cmd} {a : State} (h : Cond.trigArm c a = true) :
    ∃ b, a.declare [trigDecl (u8 c.payload 0)] = .ok b ∧
      trigArm c a =
        if u8 c.payload 2 = 0 then
          .done .ok a.now (b.trigArmNow (u8 c.payload 0) (u8 c.payload 1) (u32 c.payload 4) (u8 c.payload 3 == 1))
        else .running 0 [] (b.setTunit (u8 c.payload 0) { a.tunit (u8 c.payload 0) with
          sched := some (u8 c.payload 1, u32 c.payload 4, u8 c.payload 3 == 1, Cond.trigArmAt c) }) := by
  simp only [Cond.trigArm, Bool.and_eq_true, bne_iff_ne, Option.isSome_iff_ne_none] at h
  obtain ⟨⟨⟨⟨⟨hfields, hconf⟩, hidle⟩, hstart⟩, hsoon⟩, hfits⟩ := h
  obtain ⟨b, hb⟩ := State.declare_ok_of_isOk hfits
  refine ⟨b, hb, (if_neg (Cond.trigArmFields_reaches hfields)).trans ((if_neg hconf).trans
    ((if_neg (ne_true_of_not hidle)).trans ((if_neg (mt Option.isNone_iff_eq_none.mp hstart)).trans
      ((if_neg (ne_true_of_not hsoon)).trans ?_))))⟩
  simp only [hb, Cond.trigArmAt]

theorem completes_trigArm_now : Completes .trigArm 0x0704
    (fun c a => Cond.trigArm c a && u8 c.payload 2 == 0) Eff.trigArm := by
  refine completes_of trigArm (fun _ _ _ _ => rfl) fun c a h => ?_
  obtain ⟨hok, hnow⟩ := Bool.and_eq_true_iff.mp h
  obtain ⟨b, hb, hmet⟩ := trigArm_met hok
  simp only [hmet, if_pos (beq_iff_eq.mp hnow), conclude_done, Eff.trigArm, hb]

theorem completes_trigArm_scheduled : Completes .trigArm 0x0704
    (fun c a => Cond.trigArm c a && u8 c.payload 2 != 0) Eff.trigArm2 := by
  refine completes_of trigArm (fun _ _ _ _ => rfl) fun c a h => ?_
  obtain ⟨hok, hlater⟩ := Bool.and_eq_true_iff.mp h
  obtain ⟨b, hb, hmet⟩ := trigArm_met hok
  simp only [hmet, if_neg (bne_iff_ne.mp hlater), conclude_running, Eff.trigArm2, hb]

theorem completes_trigArm_inService : Completes .trigArm 0x0704
    (fun c a => Cond.trigArmFields c && (a.tunit (u8 c.payload 0)).inService) Eff.trigArm3 := by
  refine completes_of trigArm (fun _ _ _ _ => rfl) fun c a h => ?_
  obtain ⟨hfields, hon⟩ := Bool.and_eq_true_iff.mp h
  exact State.conclude_congr ((if_neg (Cond.trigArmFields_reaches hfields)).trans
    ((if_neg (TrigUnit.configured_of_inService hon)).trans (if_pos hon))) (conclude_done ..)

/-! ## Disarming, forcing and status (R221, R232, R233) -/

/-- What `TRIG.DISARM` comes to for a unit that nothing uses: it waits for a pulse that it alone drives. -/
theorem trigDisarm_met {c : Cmd} {a : State} (h : Cond.trigDisarm c a = true) :
    trigDisarm c a =
      if a.trig.pulse.isSome = true ∧ a.trig.drivers = [u8 c.payload 0] then
        .running 0 [] (a.trigQuiesce (u8 c.payload 0) .quiescing)
      else .done .quiesced 0 (a.trigQuiesce (u8 c.payload 0) (Cond.disarmed c a)) := by
  simp only [Cond.trigDisarm, Bool.and_eq_true, decide_eq_true_eq, Option.isNone_iff_eq_none] at h
  obtain ⟨⟨⟨hunit, hopts⟩, hz⟩, hfree⟩ := h
  refine (if_neg ?_).trans ?_
  · simp only [hz, Bool.not_true, Bool.false_eq_true, or_false]
    omega
  · simp only [hfree, Cond.disarmed]

theorem completes_trigDisarm_now : Completes .trigDisarm 0x0705
    (fun c a => Cond.trigDisarm c a && !(a.trig.pulse.isSome && a.trig.drivers == [u8 c.payload 0]))
    Eff.trigDisarm := by
  refine completes_of trigDisarm (fun _ _ _ _ => rfl) fun c a h => ?_
  obtain ⟨hok, halone⟩ := Bool.and_eq_true_iff.mp h
  refine State.conclude_congr ((trigDisarm_met hok).trans (if_neg ?_)) (conclude_done ..)
  rintro ⟨hpulse, hdrives⟩
  exact ne_true_of_not halone (by simp [hpulse, hdrives])

theorem completes_trigDisarm_pulse : Completes .trigDisarm 0x0705
    (fun c a => Cond.trigDisarm c a && a.trig.pulse.isSome && a.trig.drivers == [u8 c.payload 0])
    Eff.trigDisarm2 := by
  refine completes_of trigDisarm (fun _ _ _ _ => rfl) fun c a h => ?_
  simp only [Bool.and_eq_true, beq_iff_eq] at h
  obtain ⟨⟨hok, hpulse⟩, hdrives⟩ := h
  exact State.conclude_congr ((trigDisarm_met hok).trans (if_pos ⟨hpulse, hdrives⟩)) (conclude_running ..)

/-- The unit named exists, and the reserved bytes are zero. -/
theorem Cond.trigNamed_reaches {c : Cmd} (h : Cond.trigNamed c = true) :
    ¬ (u8 c.payload 0 > 63 ∨ (!zeros c.payload 1 3) = true) := by
  simp only [Cond.trigNamed, Bool.and_eq_true, decide_eq_true_eq] at h
  obtain ⟨hunit, hz⟩ := h
  simp [hunit, hz]

theorem completes_trigForce : Completes .trigForce 0x0706
    (fun c a => Cond.trigNamed c && (a.tunit (u8 c.payload 0)).inService) (fun c a => a.markStarted c 0 []) := by
  refine completes_of trigForce (fun _ _ _ _ => rfl) fun c a h => ?_
  obtain ⟨hnamed, hon⟩ := Bool.and_eq_true_iff.mp h
  exact State.conclude_congr ((if_neg (Cond.trigNamed_reaches hnamed)).trans (if_neg (by simp [hon])))
    (conclude_running ..)

@[simp] theorem State.trigStatus_length (a : State) (u : Nat) : (a.trigStatus u).length = 64 := by
  simp [State.trigStatus, pack_length]

theorem completes_trigGetStatus : Completes .trigGetStatus 0x0707
    (fun c _ => Cond.trigNamed c && decide (64 ≤ c.room)) Eff.trigGetStatus := by
  refine completes_of trigGetStatus (fun _ _ _ _ => rfl) fun c a h => ?_
  simp only [Bool.and_eq_true, decide_eq_true_eq] at h
  obtain ⟨hnamed, hroom⟩ := h
  exact State.conclude_congr (if_neg (Cond.trigNamed_reaches hnamed)) (conclude_data (by simpa using hroom) _ _ _)

/-- Settles O18, verb by verb. -/
theorem trigVerbsComplete : Obligations.TrigVerbsComplete :=
  ⟨completes_trigConfigure, completes_trigLoadMask, completes_trigRoute, completes_trigArm_now,
    completes_trigArm_scheduled, completes_trigArm_inService, completes_trigDisarm_now, completes_trigDisarm_pulse,
    completes_trigForce, completes_trigGetStatus⟩

/-! ## Conditions (R219, R220, R222) -/

/-- A condition that makes no decision only changes its unit. -/
theorem State.condition_of_not_decided {a b : State} {u : Nat} {c : TrigCond} (h : a.conditionOne u c = (b, false)) :
    a.condition u c = b := by
  simp only [State.condition, h, Bool.false_eq_true, if_false]

/-- A condition that completes the count of a waiting unit is decided, and the sequences see what left TRIG. -/
theorem State.condition_decides {a : State} {u : Nat} {c : TrigCond} (hwaits : (a.tunit u).waiting = true)
    (hcount : (a.tunit u).count ≤ (a.tunit u).progress + 1) :
    a.condition u c = if (a.decideOne u c false).2 then (a.decideOne u c false).1.sequences [(u, c)]
      else (a.decideOne u c false).1 := by
  obtain ⟨hmode, hdead⟩ := TrigUnit.waiting_iff.mp hwaits
  simp only [State.condition, State.conditionOne, hmode, hdead, Option.isSome_none, Bool.false_eq_true, if_false,
    if_neg (Nat.not_lt.mpr hcount)]

/-- A condition short of the count only counts. -/
theorem State.condition_counts {a : State} {u : Nat} {c : TrigCond} (hwaits : (a.tunit u).waiting = true)
    (hcount : (a.tunit u).progress + 1 < (a.tunit u).count) :
    a.condition u c = a.setTunit u { a.tunit u with progress := (a.tunit u).progress + 1 } := by
  obtain ⟨hmode, hdead⟩ := TrigUnit.waiting_iff.mp hwaits
  refine State.condition_of_not_decided ?_
  simp only [State.conditionOne, hmode, hdead, Option.isSome_none, Bool.false_eq_true, if_false, if_pos hcount]

/-- A condition within the re-arm time is missed. -/
theorem State.condition_missed_rearming {a : State} {u : Nat} {c : TrigCond} (hmode : (a.tunit u).mode = .armed)
    (hdead : (a.tunit u).dead.isSome = true) :
    a.condition u c = a.setTunit u { a.tunit u with missed := satAdd 64 (a.tunit u).missed 1 } := by
  refine State.condition_of_not_decided ?_
  simp only [State.conditionOne, hmode, if_pos hdead]

/-- A condition within the hold-off is missed, and counts towards a hold-off by count. -/
theorem State.condition_missed_holdoff {a : State} {u : Nat} {c : TrigCond} (hmode : (a.tunit u).mode = .holdoff) :
    a.condition u c = a.setTunit u { a.tunit u with
      missed := satAdd 64 (a.tunit u).missed 1, heldOff := (a.tunit u).heldOff + 1 } := by
  refine State.condition_of_not_decided ?_
  simp only [State.conditionOne, hmode]

/-! ## What reaches a unit in service (R213, R218, R224) -/

/-- A unit in service that exists passes the test at the head of TRIGGER_DECISION. -/
theorem TrigUnit.decision_reaches {x : TrigUnit} {u : Nat} (hon : x.inService = true) (hu : u ≤ 63) :
    ¬ (!x.inService || decide (u > 63)) = true := by
  simp [hon, hu]

theorem happens_triggerDecision_samples (u : Nat) (xs : List Sample) :
    Happens (.triggerDecision · u xs ()) (Cond.samples u) (Eff.triggerDecision u xs) := by
  refine happens_of _ (fun _ _ => rfl) fun a h => ?_
  simp only [Cond.samples, Bool.and_eq_true, decide_eq_true_eq] at h
  obtain ⟨⟨hon, hu⟩, hkind⟩ := h
  refine (if_neg (TrigUnit.decision_reaches hon hu)).trans ((if_pos hkind).trans ?_)
  refine congrArg (fun f => xs.foldl f a) (funext fun b => funext fun n => ?_)
  cases b.sampleSeen (a.tunit u) n <;> rfl

theorem happens_triggerDecision_frames (u : Nat) (xs : List Sample) :
    Happens (.triggerDecision · u xs ()) (Cond.frames u) (Eff.triggerDecision2 u) := by
  refine happens_of _ (fun _ _ => rfl) fun a h => ?_
  simp only [Cond.frames, Bool.and_eq_true, decide_eq_true_eq] at h
  obtain ⟨⟨⟨hon, hu⟩, hlow⟩, hhigh⟩ := h
  exact (if_neg (TrigUnit.decision_reaches hon hu)).trans ((if_neg (Nat.not_le.mpr hlow)).trans (if_pos hhigh))

theorem happens_triggerDecision_sequence (u : Nat) :
    Happens (fun t => .triggerDecision t u [] ()) (Cond.sequence u) (fun a => a.sequenceTry u) := by
  refine happens_of _ (fun _ _ => rfl) fun a h => ?_
  simp only [Cond.sequence, Bool.and_eq_true, decide_eq_true_eq, beq_iff_eq] at h
  obtain ⟨⟨hon, hu⟩, hkind⟩ := h
  exact (if_neg (TrigUnit.decision_reaches hon hu)).trans ((if_neg (by omega)).trans ((if_neg (by omega)).trans
    (if_pos hkind)))

theorem happens_trigInEdge (rising : Bool) :
    Happens (.trigInEdge · rising) (fun _ => true) (Eff.trigInEdge rising) :=
  happens_of _ (fun _ _ => rfl) fun _ _ => rfl

/-! ## Forces (R221) -/

/-- A unit that is not within its re-arm time passes the test at the head of FORCED_DECISION. -/
theorem TrigUnit.force_reaches {x : TrigUnit} (h : (!(x.mode == .armed && x.dead.isSome)) = true) :
    ¬ (x.mode = .armed ∧ x.dead.isSome = true) := by
  rintro ⟨hmode, hdead⟩
  simp [hmode, hdead] at h

theorem happens_forcedDecision_badState (u : Nat) (c : Cmd) : Happens (.forcedDecision · u)
    (fun a => Cond.forced u c a && !(a.tunit u).inService) (fun a => a.finish c .badState 0) := by
  refine happens_of _ (fun _ _ => rfl) fun a h => ?_
  simp only [Cond.forced, Bool.and_eq_true, beq_iff_eq] at h
  obtain ⟨⟨hcmd, hready⟩, hoff⟩ := h
  refine (if_neg (TrigUnit.force_reaches hready)).trans ?_
  simp only [hcmd, if_pos hoff]

theorem happens_forcedDecision_made (u : Nat) (c : Cmd) : Happens (.forcedDecision · u)
    (fun a => Cond.forced u c a && (a.tunit u).inService && (a.decideOne u { at_ := a.now * 65536 } true).2)
    (Eff.forcedDecision u c) := by
  refine happens_of _ (fun _ _ => rfl) fun a h => ?_
  simp only [Cond.forced, Bool.and_eq_true, beq_iff_eq] at h
  obtain ⟨⟨⟨hcmd, hready⟩, hon⟩, hleft⟩ := h
  refine (if_neg (TrigUnit.force_reaches hready)).trans ?_
  simp only [hcmd, hon, hleft, Bool.not_true, Bool.false_eq_true, if_false, if_true, Eff.forcedDecision]

theorem happens_forcedDecision_dropped (u : Nat) (c : Cmd) : Happens (.forcedDecision · u)
    (fun a => Cond.forced u c a && (a.tunit u).inService && !(a.decideOne u { at_ := a.now * 65536 } true).2)
    (Eff.forcedDecision2 u c) := by
  refine happens_of _ (fun _ _ => rfl) fun a h => ?_
  simp only [Cond.forced, Bool.and_eq_true, beq_iff_eq] at h
  obtain ⟨⟨⟨hcmd, hready⟩, hon⟩, hdropped⟩ := h
  refine (if_neg (TrigUnit.force_reaches hready)).trans ?_
  simp only [hcmd, hon, ne_true_of_not hdropped, Bool.not_true, Bool.false_eq_true, if_false, if_true, Eff.forcedDecision2]

theorem happens_forcedDecision_kernel (u : Nat) : Happens (.forcedDecision · u)
    (fun a => (a.forceCmd u).isNone && a.trig.kernelForces.contains u && (a.tunit u).inService &&
      !((a.tunit u).mode == .armed && (a.tunit u).dead.isSome))
    (Eff.forcedDecision3 u) := by
  refine happens_of _ (fun _ _ => rfl) fun a h => ?_
  simp only [Bool.and_eq_true, Option.isNone_iff_eq_none] at h
  obtain ⟨⟨⟨hcmd, hkernel⟩, hon⟩, hready⟩ := h
  refine (if_neg (TrigUnit.force_reaches hready)).trans ?_
  simp only [hcmd, hkernel, hon, if_true, Eff.forcedDecision3]

/-- Settles O19: what reaches a unit, what a condition does to it, and what its forces come to. -/
theorem trigDecisions : Obligations.TrigDecisions :=
  ⟨happens_triggerDecision_samples, happens_triggerDecision_frames, happens_triggerDecision_sequence,
    fun _ _ _ => State.condition_decides, fun _ _ _ => State.condition_counts,
    fun _ _ _ => State.condition_missed_rearming, fun _ _ _ => State.condition_missed_holdoff, happens_trigInEdge,
    happens_forcedDecision_badState, happens_forcedDecision_made, happens_forcedDecision_dropped,
    happens_forcedDecision_kernel⟩

/-! ## Re-arm, hold-off and pending events (R218, R220, R222) -/

theorem happens_unitRearm (u d : Nat) : Happens (.unitRearm · u)
    (fun a => (a.tunit u).mode == .armed && (a.tunit u).dead == some d && decide (d + 32 ≤ a.now))
    (Eff.unitRearm u d) := by
  refine happens_of _ (fun _ _ => rfl) fun a h => ?_
  simp only [Bool.and_eq_true, beq_iff_eq, decide_eq_true_eq] at h
  obtain ⟨⟨hmode, hdead⟩, hdue⟩ := h
  simp only [hdead]
  exact if_pos ⟨hmode, hdue⟩

theorem happens_holdoffEnd_time (u d : Nat) : Happens (.holdoffEnd · u)
    (fun a => (a.tunit u).mode == .holdoff && !(a.tunit u).byCount && (a.tunit u).dead == some d &&
      decide (d + (a.tunit u).holdoff ≤ a.now))
    (fun a => a.setTunit u ((a.tunit u).rearm a.now)) := by
  refine happens_of _ (fun _ _ => rfl) fun a h => ?_
  simp only [Bool.and_eq_true, beq_iff_eq, decide_eq_true_eq, Bool.not_eq_true'] at h
  obtain ⟨⟨⟨hmode, htime⟩, hdead⟩, hdue⟩ := h
  exact if_pos ⟨hmode, by simp [htime, hdead, hdue]⟩

theorem happens_holdoffEnd_count (u : Nat) : Happens (.holdoffEnd · u)
    (fun a => (a.tunit u).mode == .holdoff && (a.tunit u).byCount &&
      decide ((a.tunit u).holdoff ≤ (a.tunit u).heldOff))
    (fun a => a.setTunit u ((a.tunit u).rearm a.now)) := by
  refine happens_of _ (fun _ _ => rfl) fun a h => ?_
  simp only [Bool.and_eq_true, beq_iff_eq, decide_eq_true_eq] at h
  obtain ⟨⟨hmode, hcount⟩, hdue⟩ := h
  exact if_pos ⟨hmode, by simp [hcount, hdue]⟩

theorem happens_sequencePendingExpiry (u : Nat) (c : TrigCond) : Happens (.sequencePendingExpiry · u)
    (fun a => (a.tunit u).pendingA == some c && decide (c.at_ + (a.tunit u).timeMax * 65536 < a.now * 65536))
    (Eff.sequencePendingExpiry u) := by
  refine happens_of _ (fun _ _ => rfl) fun a h => ?_
  simp only [Bool.and_eq_true, beq_iff_eq, decide_eq_true_eq] at h
  obtain ⟨hpending, hlate⟩ := h
  simp only [hpending, if_pos hlate]

/-! ## Scheduled arms and the pulse of TRIG_OUT (R225, R231, R232) -/

theorem happens_trigScheduledArm (u mode target : Nat) (ev : Bool) (w : Sched) : Happens (.trigScheduledArm · u)
    (fun a => (a.tunit u).sched == some (mode, target, ev, w) && a.reached w)
    (Eff.trigScheduledArm u mode target ev) := by
  refine happens_of _ (fun _ _ => rfl) fun a h => ?_
  simp only [Bool.and_eq_true, beq_iff_eq] at h
  obtain ⟨hsched, hreached⟩ := h
  simp only [hsched, if_pos hreached]

theorem happens_trigOutPulseEnd (e : Nat) : Happens .trigOutPulseEnd
    (fun a => a.trig.pulse == some e && decide (e ≤ a.now)) Eff.trigOutPulseEnd := by
  refine happens_of _ (fun _ _ => rfl) fun a h => ?_
  simp only [Bool.and_eq_true, beq_iff_eq, decide_eq_true_eq] at h
  obtain ⟨hpulse, hdue⟩ := h
  simp only [hpulse, if_pos hdue]
  rfl

/-! ## Voters (R223, R513) -/

/-- A voter in service, while voting goes on, passes the test at the head of `State.voterFail`. -/
theorem State.voterFail_reaches {v : Nat} {a : State} (hv : v ≤ 2) (hret : (!a.isRetired ⟨5, 0, v⟩) = true)
    (hvotes : (!a.trig.ended) = true) : ¬ (v > 2 || a.isRetired ⟨5, 0, v⟩ || a.trig.ended) = true := by
  simp [hv, ne_true_of_not hret, ne_true_of_not hvotes]

theorem happens_voterDisagreement_masked (v : Nat) : Happens (.voterDisagreement · v)
    (fun a => decide (v ≤ 2) && !a.isRetired ⟨5, 0, v⟩ && !a.trig.ended && a.sparesLeft 5 0 != 0)
    (Eff.voterDisagreement v) := by
  refine happens_of _ (fun _ _ => rfl) fun a h => ?_
  simp only [Bool.and_eq_true, decide_eq_true_eq, bne_iff_ne] at h
  obtain ⟨⟨⟨hv, hret⟩, hvotes⟩, hleft⟩ := h
  exact (if_neg (State.voterFail_reaches hv hret hvotes)).trans (if_pos hleft)

theorem happens_voterDisagreement_split (v : Nat) : Happens (.voterDisagreement · v)
    (fun a => decide (v ≤ 2) && !a.isRetired ⟨5, 0, v⟩ && !a.trig.ended && a.sparesLeft 5 0 == 0 && !a.trig.split)
    (Eff.voterDisagreement2 v) := by
  refine happens_of _ (fun _ _ => rfl) fun a h => ?_
  simp only [Bool.and_eq_true, decide_eq_true_eq, beq_iff_eq] at h
  obtain ⟨⟨⟨⟨hv, hret⟩, hvotes⟩, hnone⟩, hwhole⟩ := h
  exact (if_neg (State.voterFail_reaches hv hret hvotes)).trans ((if_neg (not_not_intro hnone)).trans (if_pos hwhole))

theorem happens_voterDisagreement_ends (v : Nat) : Happens (.voterDisagreement · v)
    (fun a => decide (v ≤ 2) && !a.isRetired ⟨5, 0, v⟩ && !a.trig.ended && a.sparesLeft 5 0 == 0 && a.trig.split)
    (Eff.voterDisagreement3 v) := by
  refine happens_of _ (fun _ _ => rfl) fun a h => ?_
  simp only [Bool.and_eq_true, decide_eq_true_eq, beq_iff_eq] at h
  obtain ⟨⟨⟨⟨hv, hret⟩, hvotes⟩, hnone⟩, hsplit⟩ := h
  exact (if_neg (State.voterFail_reaches hv hret hvotes)).trans ((if_neg (not_not_intro hnone)).trans
    (if_neg (by simp [hsplit])))

/-! ## Event intervals (R234) -/

theorem happens_triggerEventIntervalClose_silent (u o : Nat) : Happens (.triggerEventIntervalClose · u)
    (fun a => Cond.evInterval u o a && (a.tunit u).evCount == 0) (Eff.triggerEventIntervalClose u) := by
  refine happens_of _ (fun _ _ => rfl) fun a h => ?_
  simp only [Cond.evInterval, Bool.and_eq_true, decide_eq_true_eq, beq_iff_eq] at h
  obtain ⟨⟨hopen, hdue⟩, hnone⟩ := h
  simp only [hopen, if_neg (Nat.not_lt.mpr hdue), if_pos hnone]

theorem happens_triggerEventIntervalClose_reports (u o : Nat) : Happens (.triggerEventIntervalClose · u)
    (fun a => Cond.evInterval u o a && (a.tunit u).evCount != 0) (Eff.triggerEventIntervalClose2 u o) := by
  refine happens_of _ (fun _ _ => rfl) fun a h => ?_
  simp only [Cond.evInterval, Bool.and_eq_true, decide_eq_true_eq, beq_iff_eq, bne_iff_ne] at h
  obtain ⟨⟨hopen, hdue⟩, hsome⟩ := h
  simp only [hopen, if_neg (Nat.not_lt.mpr hdue), if_neg hsome]

/-- Settles O20, row by row. -/
theorem trigRows : Obligations.TrigRows :=
  ⟨happens_unitRearm, happens_holdoffEnd_time, happens_holdoffEnd_count, happens_sequencePendingExpiry,
    happens_trigScheduledArm, happens_trigOutPulseEnd, happens_voterDisagreement_masked,
    happens_voterDisagreement_split, happens_voterDisagreement_ends, happens_triggerEventIntervalClose_silent,
    happens_triggerEventIntervalClose_reports⟩

end Sys2Proof.Machine

end

section

namespace Sys2Proof.Machine

/-! # The ACQ verbs -/

/-! ## Creating a context (R244, R245, R252) -/

/-- A context that waits for triggers names units; one that does not names none and asks for no elements before a trigger. -/
theorem ctxMask_inRange {start mask pre : Nat}
    (h : (if start = 0 then mask != 0 else mask == 0 && pre == 0) = true) :
    ¬ (if start = 0 then mask = 0 else mask ≠ 0) ∧ ¬ (start ≠ 0 ∧ pre ≠ 0) := by
  by_cases hstart : start = 0
  · rw [if_pos hstart, bne_iff_ne] at h
    exact ⟨by rwa [if_pos hstart], fun hbad => hbad.1 hstart⟩
  · rw [if_neg hstart, Bool.and_eq_true, beq_iff_eq, beq_iff_eq] at h
    exact ⟨by rw [if_neg hstart]; exact not_not_intro h.1, fun hbad => hbad.2 h.2⟩

/-- A context with a flow names one in range, neither wraps nor lists gaps, and one without names none. -/
theorem ctxFlow_inRange {dest flow gaps : Nat} {wrap : Bool}
    (h : (if dest = 1 then decide (flow ≤ 49151) && !wrap && gaps == 0 else flow == 0xFFFFFFFF) = true) :
    ¬ (if dest = 1 then flow > 49151 ∨ wrap = true ∨ gaps ≠ 0 else flow ≠ 0xFFFFFFFF) := by
  by_cases hdest : dest = 1
  · rw [if_pos hdest, Bool.and_eq_true, Bool.and_eq_true, decide_eq_true_eq, beq_iff_eq] at h
    obtain ⟨⟨hflow, hwrap⟩, hgaps⟩ := h
    rw [if_pos hdest]
    simp [hflow, ne_true_of_not hwrap, hgaps]
  · rw [if_neg hdest, beq_iff_eq] at h
    rw [if_neg hdest]
    exact not_not_intro h

/-- The fields of `ACQ.CREATE_CONTEXT` are in range. -/
theorem Cond.createContext_fields {c : Cmd} {a : State} (h : Cond.createContext c a = true) :
    let p := c.payload
    ¬ ((u16 p 0 > 4095 ∧ u16 p 0 ≠ 0xFFFF) ∨ u8 p 2 > 5 ∨ u8 p 3 > 2 ∨
      u16 p 4 > [3, 31, 31, 63, 63, 63].getD (u8 p 2) 0 ∨ u8 p 6 > 1 ∨ u8 p 7 > 3 ∨
      (if u8 p 3 = 0 then u64 p 8 = 0 else u64 p 8 ≠ 0) ∨ u64 p 16 < 64 ∨ u64 p 16 > 4294967296 ∨ u64 p 24 > u64 p 16 ∨
      (u8 p 3 ≠ 0 ∧ u64 p 24 ≠ 0) ∨ u32 p 32 = 0 ∨ u32 p 32 > 1048576 ∨
      (if u8 p 6 = 1 then u32 p 36 > 49151 ∨ (u8 p 7).testBit 0 = true ∨ u32 p 56 ≠ 0 else u32 p 36 ≠ 0xFFFFFFFF) ∨
      u64 p 40 % 4096 ≠ 0 ∨ u32 p 56 > 65536 ∨ u8 p 60 > 100 ∨ u8 p 61 > 1 ∨ (!zeros p 62 2) = true) := by
  simp only [Cond.createContext, Bool.and_eq_true, Bool.or_eq_true, decide_eq_true_eq, beq_iff_eq, bne_iff_ne] at h
  simp only [Cond.ctxOf] at h
  obtain ⟨⟨⟨⟨⟨⟨⟨⟨⟨⟨⟨⟨⟨⟨⟨⟨⟨⟨⟨⟨⟨⟨⟨hasked, hkind⟩, hstart⟩, hsource⟩, hdest⟩, hflags⟩, hmask⟩, hmin⟩, hmax⟩, hpre⟩, hsome⟩,
    hmany⟩, hflow⟩, hregion⟩, hgaps⟩, hpercent⟩, hevents⟩, hz⟩, -⟩, -⟩, -⟩, -⟩, -⟩, -⟩ := h
  obtain ⟨hunits, hahead⟩ := ctxMask_inRange hmask
  simp only [hunits, hahead, ctxFlow_inRange hflow, hz, Bool.not_true, Bool.false_eq_true, or_false, false_or]
  omega

/-- A flow that exists and that no other context takes is neither missing nor taken. -/
theorem State.flow_free {a : State} {n : Nat} {o : Option Nat}
    (h : (o.all fun f => a.flowExists f && !a.flowTakenBy f n) = true) :
    ¬ (o.any fun f => !a.flowExists f) = true ∧ ¬ (o.any fun f => a.flowTakenBy f n) = true := by
  cases o with
  | none => simp
  | some f => simpa using h

/-- A context that is new, on a configured source and in a region that holds what it needs. -/
theorem completes_acqCreateContext :
    Completes .acqCreateContext 0x0801 Cond.createContext Eff.acqCreateContext := by
  refine completes_of acqCreateContext (fun _ _ _ _ => rfl) fun c a h => ?_
  have hfields := Cond.createContext_fields h
  simp only [Cond.createContext, Bool.and_eq_true, decide_eq_true_eq, Option.isSome_iff_exists] at h
  obtain ⟨⟨⟨⟨⟨⟨-, hlow⟩, hnew⟩, e, he⟩, hregion⟩, hflow⟩, hfits⟩ := h
  obtain ⟨hthere, hfree⟩ := State.flow_free hflow
  simp only [Cond.ctxOf, he, Option.getD_some] at hregion hthere hfree hfits
  refine State.conclude_congr ((if_neg hfields).trans ((if_neg fun hbad => ne_true_of_not hnew hbad.2).trans
    (if_neg (Nat.not_le.mpr hlow)))) ?_
  rw [he]
  refine State.conclude_congr ((if_neg (not_or.mpr ⟨fun hbad => ne_true_of_not hbad hregion, hthere⟩)).trans
    ((if_neg hfree).trans (if_neg (Nat.not_lt.mpr hfits)))) ?_
  simp only [conclude_done, Eff.acqCreateContext, Cond.ctxOf, he, Option.getD_some, Cond.ctxNumber]
  rfl

/-! ## Arming (R248, R249, R253) -/

/-- Where the energy and the allotments of a context fit, an arm takes them. -/
theorem State.acqAdmit_granted {a b : State} {n : Nat} (h : Cond.acqGranted n a = some b) : a.acqAdmit n = .ok b := by
  unfold Cond.acqGranted at h
  unfold State.acqAdmit
  cases hd : a.declare [acqDecl n] with
  | error short => simp [hd] at h
  | ok s =>
    simp only [hd] at h
    simp only [h]

/-- Where the energy of a context fits and its allotments do not, an arm is refused for the allotments. -/
theorem State.acqAdmit_noAllotment {a : State} {n : Nat} (hfits : (a.declare [acqDecl n]).isOk = true)
    (h : Cond.acqGranted n a = none) : a.acqAdmit n = .error (.noAllotment, 0) := by
  obtain ⟨s, hs⟩ := State.declare_ok_of_isOk hfits
  simp only [Cond.acqGranted, hs] at h
  simp only [State.acqAdmit, hs, h]

/-- The fields of `ACQ.ARM` are in range. -/
theorem Cond.acqArmFields_reaches {c : Cmd} (h : Cond.acqArmFields c = true) :
    ¬ (u16 c.payload 0 > 4095 ∨ u8 c.payload 2 > 2 ∨ (!zeros c.payload 3 5) = true) := by
  simp only [Cond.acqArmFields, Bool.and_eq_true, decide_eq_true_eq] at h
  obtain ⟨⟨hctx, hwhen⟩, hz⟩ := h
  simp [hctx, hwhen, hz]

/-- An idle context whose source and units serve, at a time that can be met, passes every test of `ACQ.ARM` up to its
admission. -/
theorem Cond.acqArm_reaches {c : Cmd} {a : State} (h : Cond.acqArm c a = true) :
    let n := u16 c.payload 0
    let x := a.ctx n
    ¬ (n > 4095 ∨ u8 c.payload 2 > 2 ∨ (!zeros c.payload 3 5) = true) ∧ ¬ (!a.ctxs.has n) = true ∧
      ¬ x.mode.active = true ∧
      ¬ ((!a.acqSourceOn x.srcKind x.source) = true ∨
        ((maskBits 64 x.mask).any fun u => (a.tunit u).mode == .unconfigured) = true ∨
        (a.startTick (Cond.acqArmAt c)).isNone = true) ∧
      ¬ a.tooSoon (Cond.acqArmAt c) = true := by
  simp only [Cond.acqArm, Bool.and_eq_true, Option.isSome_iff_ne_none] at h
  obtain ⟨⟨⟨⟨⟨⟨⟨hfields, hhas⟩, hidle⟩, hsource⟩, hunits⟩, hstart⟩, hsoon⟩, -⟩ := h
  refine ⟨Cond.acqArmFields_reaches hfields, by simp [hhas], ne_true_of_not hidle, ?_, ne_true_of_not hsoon⟩
  rintro (hbad | hbad | hbad)
  · exact ne_true_of_not hbad hsource
  · exact ne_true_of_not hunits hbad
  · exact hstart (Option.isNone_iff_eq_none.mp hbad)

/-- What `ACQ.ARM` comes to where the allotments fit: a record that starts now, or an arm that waits for its time. -/
theorem acqArm_granted {c : Cmd} {a b : State} (h : Cond.acqArm c a = true)
    (hb : Cond.acqGranted (u16 c.payload 0) a = some b) :
    acqArm c a =
      if u8 c.payload 2 = 0 then
        if (b.acqStartRecord (u16 c.payload 0)).armedNow (u16 c.payload 0) then
          .done .ok a.now (b.acqStartRecord (u16 c.payload 0))
        else .running 0 [] (b.acqStartRecord (u16 c.payload 0))
      else .running 0 [] (a.setCtx (u16 c.payload 0) { a.ctx (u16 c.payload 0) with
        sched := some (Cond.acqArmAt c) }) := by
  obtain ⟨hfields, hhas, hidle, hserves, hsoon⟩ := Cond.acqArm_reaches h
  refine (if_neg hfields).trans ((if_neg hhas).trans ((if_neg hidle).trans ((if_neg hserves).trans
    ((if_neg hsoon).trans ?_))))
  simp only [State.acqAdmit_granted hb, Cond.acqArmAt]

theorem completes_acqArm_armed : Completes .acqArm 0x0802
    (fun c a => Cond.acqArm c a && (Cond.acqGranted (u16 c.payload 0) a).isSome && u8 c.payload 2 == 0 &&
      (((Cond.acqGranted (u16 c.payload 0) a).getD a).acqStartRecord (u16 c.payload 0)).armedNow (u16 c.payload 0))
    Eff.acqArm := by
  refine completes_of acqArm (fun _ _ _ _ => rfl) fun c a h => ?_
  simp only [Bool.and_eq_true, beq_iff_eq, Option.isSome_iff_exists] at h
  obtain ⟨⟨⟨hok, b, hb⟩, hnow⟩, harmed⟩ := h
  simp only [hb, Option.getD_some] at harmed
  simp only [acqArm_granted hok hb, if_pos hnow, if_pos harmed, conclude_done, Eff.acqArm, hb, Option.getD_some]

theorem completes_acqArm_filling : Completes .acqArm 0x0802
    (fun c a => Cond.acqArm c a && (Cond.acqGranted (u16 c.payload 0) a).isSome && u8 c.payload 2 == 0 &&
      !(((Cond.acqGranted (u16 c.payload 0) a).getD a).acqStartRecord (u16 c.payload 0)).armedNow (u16 c.payload 0))
    Eff.acqArm2 := by
  refine completes_of acqArm (fun _ _ _ _ => rfl) fun c a h => ?_
  simp only [Bool.and_eq_true, beq_iff_eq, Option.isSome_iff_exists] at h
  obtain ⟨⟨⟨hok, b, hb⟩, hnow⟩, hlater⟩ := h
  simp only [hb, Option.getD_some] at hlater
  simp only [acqArm_granted hok hb, if_pos hnow, if_neg (ne_true_of_not hlater), conclude_running, Eff.acqArm2, hb,
    Option.getD_some]

theorem completes_acqArm_scheduled : Completes .acqArm 0x0802
    (fun c a => Cond.acqArm c a && (Cond.acqGranted (u16 c.payload 0) a).isSome && u8 c.payload 2 != 0)
    Eff.acqArm3 := by
  refine completes_of acqArm (fun _ _ _ _ => rfl) fun c a h => ?_
  simp only [Bool.and_eq_true, bne_iff_ne, Option.isSome_iff_exists] at h
  obtain ⟨⟨hok, b, hb⟩, hlater⟩ := h
  simp only [acqArm_granted hok hb, if_neg hlater, conclude_running, Eff.acqArm3]

theorem completes_acqArm_noAllotment : Completes .acqArm 0x0802
    (fun c a => Cond.acqArm c a && (Cond.acqGranted (u16 c.payload 0) a).isNone)
    (fun c a => a.finish c .noAllotment 0) := by
  refine completes_of acqArm (fun _ _ _ _ => rfl) fun c a h => ?_
  simp only [Bool.and_eq_true, Option.isNone_iff_eq_none] at h
  obtain ⟨hok, hnone⟩ := h
  obtain ⟨hfields, hhas, hidle, hserves, hsoon⟩ := Cond.acqArm_reaches hok
  refine State.conclude_congr ((if_neg hfields).trans ((if_neg hhas).trans ((if_neg hidle).trans
    ((if_neg hserves).trans (if_neg hsoon))))) ?_
  have hfits : (a.declare [acqDecl (u16 c.payload 0)]).isOk = true := (Bool.and_eq_true_iff.mp hok).2
  simp only [State.acqAdmit_noAllotment hfits hnone, conclude_fail]

theorem completes_acqArm_active : Completes .acqArm 0x0802
    (fun c a => Cond.acqArmFields c && a.ctxs.has (u16 c.payload 0) && (a.ctx (u16 c.payload 0)).mode.active)
    Eff.acqArm4 := by
  refine completes_of acqArm (fun _ _ _ _ => rfl) fun c a h => ?_
  simp only [Bool.and_eq_true] at h
  obtain ⟨⟨hfields, hhas⟩, hactive⟩ := h
  exact State.conclude_congr ((if_neg (Cond.acqArmFields_reaches hfields)).trans
    ((if_neg (by simp [hhas])).trans (if_pos hactive))) (conclude_done ..)

/-! ## What a stop does to a context (R73, R250) -/

theorem CtxMode.active_ne_quiescing {m : CtxMode} (h : m.active = true) : m ≠ .quiescing := by
  rintro rfl
  cases h

/-- A segment of context `n` is in capture, as `State.acqQuiesce` tests it. -/
theorem Cond.inSegment_iff {n : Nat} {a : State} : Cond.inSegment n a = true ↔
    (decide ((a.ctx n).mode = .capturing) && !(a.ctx n).rearming) = true := by
  simp [Cond.inSegment]

theorem State.acqQuiesce_inSegment {a : State} {n : Nat} {truncate : Bool} (h : Cond.inSegment n a = true) :
    a.acqQuiesce n truncate = (a.setCtx n { a.ctx n with
      mode := .quiescing, cut := if truncate then some (a.cutHere (a.ctx n)) else none }, false) :=
  if_pos (Cond.inSegment_iff.mp h)

theorem State.acqQuiesce_quiescing {a : State} {n : Nat} {truncate : Bool} (h : (a.ctx n).mode = .quiescing) :
    a.acqQuiesce n truncate = (a, false) :=
  (if_neg (by simp [h])).trans (if_pos h)

theorem State.acqQuiesce_draining {a : State} {n : Nat} {truncate : Bool} (hactive : (a.ctx n).mode.active = true)
    (hbetween : ¬ Cond.inSegment n a = true) (hflow : Cond.flowHolds n a = true) :
    a.acqQuiesce n truncate = (a.setCtx n { a.ctx n with
      mode := .quiescing, rearming := true, pending := none, trigger := none, drainSince := some a.now }, false) :=
  (if_neg (mt Cond.inSegment_iff.mpr hbetween)).trans ((if_neg (CtxMode.active_ne_quiescing hactive)).trans
    (if_pos (Bool.and_eq_true_iff.mpr ⟨hactive, hflow⟩)))

theorem State.acqQuiesce_record {a : State} {n : Nat} {truncate : Bool} (hactive : (a.ctx n).mode.active = true)
    (hbetween : ¬ Cond.inSegment n a = true) (hflow : ¬ Cond.flowHolds n a = true) :
    a.acqQuiesce n truncate = (a.recordEnd n 3 .done, true) :=
  (if_neg (mt Cond.inSegment_iff.mpr hbetween)).trans ((if_neg (CtxMode.active_ne_quiescing hactive)).trans
    ((if_neg fun hbad => hflow (Bool.and_eq_true_iff.mp hbad).2).trans (if_pos hactive)))

theorem State.acqQuiesce_idle {a : State} {n : Nat} {truncate : Bool} (h : ¬ (a.ctx n).mode.counts = true) :
    a.acqQuiesce n truncate = (a.setCtx n { a.ctx n with sched := none }, true) := by
  simp only [CtxMode.counts, Bool.or_eq_true, beq_iff_eq, not_or] at h
  obtain ⟨hidle, hquiet⟩ := h
  refine (if_neg ?_).trans ((if_neg hquiet).trans ((if_neg ?_).trans (if_neg hidle)))
  · intro hbad
    simp only [Bool.and_eq_true, decide_eq_true_eq] at hbad
    exact hidle (by rw [hbad.1]; rfl)
  · exact fun hbad => hidle (Bool.and_eq_true_iff.mp hbad).1

/-! ## Stopping and destroying (R250, R254) -/

/-- What a stop, or a destroy, of a context that exists comes to. -/
theorem acqStop_met {destroy : Bool} {c : Cmd} {a : State} (h : Cond.acqStop c a = true) :
    let n := u16 c.payload 0
    let r := a.acqQuiesce n (u8 c.payload 2 == 1)
    let s := (r.1.undeclare 8 n).release (actKey kindContext n)
    acqStop destroy c a =
      if r.2 then .done .quiesced (s.ctx n).index (if destroy then { s with ctxs := s.ctxs.del n } else s)
      else .running 0 [] r.1 := by
  simp only [Cond.acqStop, Bool.and_eq_true, decide_eq_true_eq] at h
  obtain ⟨⟨⟨hctx, hopts⟩, hz⟩, hhas⟩ := h
  exact (if_neg (by simp [hctx, hopts, hz])).trans (if_neg (by simp [hhas]))

/-- A context in a record with no segment in capture. -/
theorem Cond.acqStopActive_parts {c : Cmd} {a : State} (h : Cond.acqStopActive c a = true) :
    Cond.acqStop c a = true ∧ (a.ctx (u16 c.payload 0)).mode.active = true ∧
      ¬ Cond.inSegment (u16 c.payload 0) a = true := by
  simp only [Cond.acqStopActive, Bool.and_eq_true] at h
  obtain ⟨⟨hok, hactive⟩, hbetween⟩ := h
  exact ⟨hok, hactive, ne_true_of_not hbetween⟩

theorem conclude_acqStop_inSegment (destroy : Bool) {c : Cmd} {a : State}
    (h : (Cond.acqStop c a && Cond.inSegment (u16 c.payload 0) a) = true) :
    a.conclude c (acqStop destroy c a) = (Cond.stopAtEnd c a).markStarted c 0 [] := by
  obtain ⟨hok, hseg⟩ := Bool.and_eq_true_iff.mp h
  simp only [acqStop_met hok, State.acqQuiesce_inSegment hseg, Bool.false_eq_true, if_false, conclude_running,
    Cond.stopAtEnd]

theorem conclude_acqStop_quiescing (destroy : Bool) {c : Cmd} {a : State}
    (h : (Cond.acqStop c a && (a.ctx (u16 c.payload 0)).mode == .quiescing) = true) :
    a.conclude c (acqStop destroy c a) = a.markStarted c 0 [] := by
  obtain ⟨hok, hmode⟩ := Bool.and_eq_true_iff.mp h
  simp only [acqStop_met hok, State.acqQuiesce_quiescing (beq_iff_eq.mp hmode), Bool.false_eq_true, if_false,
    conclude_running]

theorem conclude_acqStop_draining (destroy : Bool) {c : Cmd} {a : State}
    (h : (Cond.acqStopActive c a && Cond.flowHolds (u16 c.payload 0) a) = true) :
    a.conclude c (acqStop destroy c a) = (Cond.stopDraining c a).markStarted c 0 [] := by
  obtain ⟨hstop, hflow⟩ := Bool.and_eq_true_iff.mp h
  obtain ⟨hok, hactive, hbetween⟩ := Cond.acqStopActive_parts hstop
  simp only [acqStop_met hok, State.acqQuiesce_draining hactive hbetween hflow, Bool.false_eq_true, if_false,
    conclude_running, Cond.stopDraining]

theorem conclude_acqStop_record (destroy : Bool) {c : Cmd} {a : State}
    (h : (Cond.acqStopActive c a && !Cond.flowHolds (u16 c.payload 0) a) = true) :
    let n := u16 c.payload 0
    let s := Cond.stopRecord c a
    a.conclude c (acqStop destroy c a) =
      (if destroy then { s with ctxs := s.ctxs.del n } else s).finish c .quiesced (s.ctx n).index := by
  obtain ⟨hstop, hflow⟩ := Bool.and_eq_true_iff.mp h
  obtain ⟨hok, hactive, hbetween⟩ := Cond.acqStopActive_parts hstop
  simp only [acqStop_met hok, State.acqQuiesce_record hactive hbetween (ne_true_of_not hflow), if_true, conclude_done,
    Cond.stopRecord]

theorem conclude_acqStop_idle (destroy : Bool) {c : Cmd} {a : State}
    (h : (Cond.acqStop c a && !(a.ctx (u16 c.payload 0)).mode.counts) = true) :
    let n := u16 c.payload 0
    let s := Cond.stopIdle c a
    a.conclude c (acqStop destroy c a) =
      (if destroy then { s with ctxs := s.ctxs.del n } else s).finish c .quiesced (s.ctx n).index := by
  obtain ⟨hok, hidle⟩ := Bool.and_eq_true_iff.mp h
  simp only [acqStop_met hok, State.acqQuiesce_idle (ne_true_of_not hidle), if_true, conclude_done, Cond.stopIdle]

/-- A row of `ACQ.STOP` does what its meaning comes to. -/
theorem completes_acqStop {ok : Cmd → State → Bool} {after : Cmd → State → State}
    (h : ∀ c a, ok c a = true → a.conclude c (acqStop false c a) = after c a) : Completes .acqStop 0x0803 ok after :=
  completes_of (acqStop false) (fun _ _ _ _ => rfl) h

/-- A row of `ACQ.DESTROY` does what its meaning comes to. -/
theorem completes_acqDestroy {ok : Cmd → State → Bool} {after : Cmd → State → State}
    (h : ∀ c a, ok c a = true → a.conclude c (acqStop true c a) = after c a) : Completes .acqDestroy 0x0804 ok after :=
  completes_of (acqStop true) (fun _ _ _ _ => rfl) h

/-! ## Test masks and status (R247, R255, R256) -/

/-- A mask of an element belongs to samples or DDC outputs, and one of a frame to a Press job. -/
theorem ctxSource_masked {kind src : Nat}
    (h : (if kind = 1 then decide (src ≤ 1) else src == 2) = true) : ¬ (if kind = 1 then src > 1 else src ≠ 2) := by
  by_cases hkind : kind = 1
  · rw [if_pos hkind, decide_eq_true_eq] at h
    rw [if_pos hkind]
    exact Nat.not_lt.mpr h
  · rw [if_neg hkind, beq_iff_eq] at h
    rw [if_neg hkind]
    exact not_not_intro h

/-- A mask that fits the source of an idle context, with no point out of range, is read from its place and stored. -/
theorem completes_acqLoadTestMask_table (table : List Byte) :
    Completes (.acqLoadTestMask · · · table) 0x0805 (Cond.testMask table) (Eff.acqLoadTestMask table) := by
  refine completes_of (acqLoadTestMask table) (fun _ _ _ _ => rfl) fun c a h => ?_
  simp only [Cond.testMask, Bool.and_eq_true, Bool.or_eq_true, decide_eq_true_eq, beq_iff_eq, bne_iff_ne,
    Option.isNone_iff_eq_none] at h
  obtain ⟨⟨⟨⟨⟨⟨⟨⟨⟨⟨⟨⟨hctx, hkind⟩, hloc⟩, hsome⟩, hcount⟩, haddr⟩, hz⟩, hhas⟩, hidle⟩, hsource⟩, hfit⟩,
    hpoints⟩, htotal⟩ := h
  have hmask : u8 c.payload 2 ≠ 0 := by omega
  refine State.conclude_congr ((if_neg ?_).trans ((if_neg (by simp [hhas, ne_true_of_not hidle])).trans
    ((if_neg hmask).trans ((if_neg (ctxSource_masked hsource)).trans (if_neg (Nat.not_lt.mpr hfit)))))) ?_
  · simp only [hz, beq_iff_eq, State.table_inPlace haddr, Bool.not_true, Bool.false_eq_true, or_false]
    omega
  · simp only [Cond.testPoints] at hpoints
    simp only [beq_iff_eq, hpoints, if_neg (Nat.not_lt.mpr htotal), conclude_done, Cond.testPoints, Eff.acqLoadTestMask]

/-- The mask of an idle context is removed. -/
theorem completes_acqLoadTestMask_none (table : List Byte) : Completes (.acqLoadTestMask · · · table) 0x0805
    (fun c a => decide (u16 c.payload 0 ≤ 4095) && u8 c.payload 2 == 0 && zeros c.payload 12 4 &&
      a.ctxs.has (u16 c.payload 0) && !(a.ctx (u16 c.payload 0)).mode.active)
    Eff.acqLoadTestMask2 := by
  refine completes_of (acqLoadTestMask table) (fun _ _ _ _ => rfl) fun c a h => ?_
  simp only [Bool.and_eq_true, decide_eq_true_eq, beq_iff_eq] at h
  obtain ⟨⟨⟨⟨hctx, hkind⟩, hz⟩, hhas⟩, hidle⟩ := h
  exact State.conclude_congr ((if_neg (by simp [hctx, hkind, hz])).trans
    ((if_neg (by simp [hhas, ne_true_of_not hidle])).trans (if_pos hkind))) (conclude_done ..)

@[simp] theorem State.acqStatus_length (a : State) (n : Nat) : (a.acqStatus n).length = 96 := by
  simp [State.acqStatus, pack_length]

theorem completes_acqGetStatus : Completes .acqGetStatus 0x0806
    (fun c a => decide (u16 c.payload 0 ≤ 4095) && zeros c.payload 2 2 && a.ctxs.has (u16 c.payload 0) &&
      decide (96 ≤ c.room)) Eff.acqGetStatus := by
  refine completes_of acqGetStatus (fun _ _ _ _ => rfl) fun c a h => ?_
  simp only [Bool.and_eq_true, decide_eq_true_eq] at h
  obtain ⟨⟨⟨hctx, hz⟩, hhas⟩, hroom⟩ := h
  exact State.conclude_congr ((if_neg (by simp [hctx, hz])).trans (if_neg (by simp [hhas])))
    (conclude_data (by simpa using hroom) _ _ _)

/-- Settles O21, verb by verb. -/
theorem acqVerbsComplete : Obligations.AcqVerbsComplete :=
  ⟨completes_acqCreateContext, completes_acqArm_armed, completes_acqArm_filling, completes_acqArm_scheduled,
    completes_acqArm_noAllotment, completes_acqArm_active,
    completes_acqStop fun _ _ => conclude_acqStop_inSegment false,
    completes_acqStop fun _ _ => conclude_acqStop_quiescing false,
    completes_acqStop fun _ _ => conclude_acqStop_draining false,
    completes_acqStop fun _ _ => conclude_acqStop_record false,
    completes_acqStop fun _ _ => conclude_acqStop_idle false,
    completes_acqDestroy fun _ _ => conclude_acqStop_inSegment true,
    completes_acqDestroy fun _ _ => conclude_acqStop_quiescing true,
    completes_acqDestroy fun _ _ => conclude_acqStop_draining true,
    completes_acqDestroy fun _ _ => conclude_acqStop_record true,
    completes_acqDestroy fun _ _ => conclude_acqStop_idle true,
    completes_acqLoadTestMask_table, completes_acqLoadTestMask_none, completes_acqGetStatus⟩

end Sys2Proof.Machine

end

section

namespace Sys2Proof.Machine

/-! # The rows of the acquisition contexts -/

/-- `Happens.weaken` for a row of which one condition gives both what it needs and what it leaves. -/
theorem Happens.when {i : Nat → Instr} {ok ok' : State → Bool} {after after' : State → State} (h : Happens i ok after)
    (hk : ∀ a, ok' a = true → ok a = true ∧ after a = after' a) : Happens i ok' after' :=
  h.weaken (fun a ha => (hk a ha).1) fun a ha => (hk a ha).2

/-! ## The ring and the trigger (R238, R240, R241, R251) -/

/-- A context that fills its ring is ARMED once the ring holds PRE elements, and its arm completes. -/
theorem happens_ringFilled_filling (n : Nat) : Happens (.ringFilled · n)
    (fun a => a.ringThere (a.ctx n) && (a.ctx n).mode == .filling) (Eff.ringFilled n) := by
  refine happens_of _ (fun _ _ => rfl) fun a h => ?_
  simp only [Bool.and_eq_true, beq_iff_eq] at h
  obtain ⟨hthere, hmode⟩ := h
  exact (if_neg (by simp [hthere])).trans (if_pos hmode)

theorem happens_ringFilled_held (n : Nat) : Happens (.ringFilled · n)
    (fun a => a.ringThere (a.ctx n) && (a.ctx n).mode == .held) (Eff.ringFilled2 n) := by
  refine happens_of _ (fun _ _ => rfl) fun a h => ?_
  simp only [Bool.and_eq_true, beq_iff_eq] at h
  obtain ⟨hthere, hmode⟩ := h
  exact (if_neg (by simp [hthere])).trans ((if_neg (by simp [hmode])).trans (if_pos hmode))

theorem happens_segmentTrigger (n : Nat) : Happens (.segmentTrigger · n)
    (fun a => (a.ctx n).mode == .armed && (a.ctx n).pending.isSome) (Eff.segmentTrigger n) := by
  refine happens_of _ (fun _ _ => rfl) fun a h => ?_
  simp only [Bool.and_eq_true, beq_iff_eq] at h
  obtain ⟨hmode, hpending⟩ := h
  exact if_pos (by simp [hmode, hpending])

/-! ## Segments that end (R242 to R247, R250) -/

/-- The gaps of a source with a grid of samples need no settling. -/
theorem State.settleGaps_grid {a : State} {n : Nat} (h : (a.acqGrid (a.ctx n)).isSome = true) (es : List Element)
    (endTick : Nat) : a.settleGaps n es endTick = a :=
  if_pos h

/-- What SEGMENT_END does once storing the segment has left `r`: under a stop it ends the record or waits for the flow;
else the record ends at a violation or after its last segment, or the context re-arms. -/
def State.segmentClosed (n : Nat) (r : State × Ctx × Bool) (a : State) : State :=
  let y := r.2.1
  if y.mode = .quiescing then
    if y.flow.isSome then Eff.segmentEnd5 n r a else Eff.segmentEnd4 n r a
  else if r.2.2 && y.stopOnViolation then Eff.segmentEnd3 n r a
  else if !y.wrap && decide (y.segments ≤ y.index) then Eff.segmentEnd2 n r a
  else Eff.segmentEnd n r a

/-- A segment whose elements are all there is stored, and then closed. -/
theorem happens_segmentEnd (n : Nat) (codes : List Int) (r : State × Ctx × Bool) :
    Happens (.segmentEnd · n () () () () () codes) (fun a => Cond.segmentKept n codes a == some r)
      (State.segmentClosed n r) := by
  refine happens_of _ (fun _ _ => rfl) fun a h => ?_
  simp only [beq_iff_eq, Cond.segmentKept, Option.ite_none_right_eq_some, Option.map_eq_some_iff] at h
  obtain ⟨hstoring, es, hes, rfl⟩ := h
  rw [Cond.storing] at hstoring
  simp only [hstoring, if_true, hes]
  rfl

theorem happens_segmentEnd_rearms (n : Nat) (codes : List Int) (r : State × Ctx × Bool) :
    Happens (.segmentEnd · n () () () () () codes)
      (fun a => Cond.segmentKept n codes a == some r && r.2.1.mode != .quiescing && !(r.2.2 && r.2.1.stopOnViolation) &&
        (r.2.1.wrap || decide (r.2.1.index < r.2.1.segments)))
      (Eff.segmentEnd n r) := by
  refine Happens.when (happens_segmentEnd n codes r) fun a h => ?_
  simp only [Bool.and_eq_true, Bool.or_eq_true, decide_eq_true_eq, bne_iff_ne] at h
  obtain ⟨⟨⟨hkept, hrun⟩, hpasses⟩, hmore⟩ := h
  refine ⟨hkept, (if_neg hrun).trans ((if_neg (ne_true_of_not hpasses)).trans (if_neg ?_))⟩
  simp only [Bool.and_eq_true, decide_eq_true_eq]
  rintro ⟨honce, hall⟩
  exact hmore.elim (ne_true_of_not honce) (Nat.not_lt.mpr hall)

theorem happens_segmentEnd_last (n : Nat) (codes : List Int) (r : State × Ctx × Bool) :
    Happens (.segmentEnd · n () () () () () codes)
      (fun a => Cond.segmentKept n codes a == some r && r.2.1.mode != .quiescing && !(r.2.2 && r.2.1.stopOnViolation) &&
        !r.2.1.wrap && decide (r.2.1.segments ≤ r.2.1.index))
      (Eff.segmentEnd2 n r) := by
  refine Happens.when (happens_segmentEnd n codes r) fun a h => ?_
  simp only [Bool.and_eq_true, bne_iff_ne] at h
  obtain ⟨⟨⟨⟨hkept, hrun⟩, hpasses⟩, honce⟩, hall⟩ := h
  exact ⟨hkept, (if_neg hrun).trans ((if_neg (ne_true_of_not hpasses)).trans
    (if_pos (Bool.and_eq_true_iff.mpr ⟨honce, hall⟩)))⟩

theorem happens_segmentEnd_violation (n : Nat) (codes : List Int) (r : State × Ctx × Bool) :
    Happens (.segmentEnd · n () () () () () codes)
      (fun a => Cond.segmentKept n codes a == some r && r.2.1.mode != .quiescing && r.2.2 && r.2.1.stopOnViolation)
      (Eff.segmentEnd3 n r) := by
  refine Happens.when (happens_segmentEnd n codes r) fun a h => ?_
  simp only [Bool.and_eq_true, bne_iff_ne] at h
  obtain ⟨⟨⟨hkept, hrun⟩, hfails⟩, hstops⟩ := h
  exact ⟨hkept, (if_neg hrun).trans (if_pos (Bool.and_eq_true_iff.mpr ⟨hfails, hstops⟩))⟩

theorem happens_segmentEnd_stopped (n : Nat) (codes : List Int) (r : State × Ctx × Bool) :
    Happens (.segmentEnd · n () () () () () codes)
      (fun a => Cond.segmentKept n codes a == some r && r.2.1.mode == .quiescing && r.2.1.flow.isNone)
      (Eff.segmentEnd4 n r) := by
  refine Happens.when (happens_segmentEnd n codes r) fun a h => ?_
  simp only [Bool.and_eq_true, Option.isNone_iff_eq_none] at h
  obtain ⟨⟨hkept, hstop⟩, hcellar⟩ := h
  exact ⟨hkept, (if_pos (beq_iff_eq.mp hstop)).trans (if_neg (by simp [hcellar]))⟩

theorem happens_segmentEnd_drains (n : Nat) (codes : List Int) (r : State × Ctx × Bool) :
    Happens (.segmentEnd · n () () () () () codes)
      (fun a => Cond.segmentKept n codes a == some r && r.2.1.mode == .quiescing && r.2.1.flow.isSome)
      (Eff.segmentEnd5 n r) := by
  refine Happens.when (happens_segmentEnd n codes r) fun a h => ?_
  simp only [Bool.and_eq_true] at h
  obtain ⟨⟨hkept, hstop⟩, hflow⟩ := h
  exact ⟨hkept, (if_pos (beq_iff_eq.mp hstop)).trans (if_pos hflow)⟩

/-! ## Re-arming (R239, R242, R251, R253) -/

/-- A context that is due passes the test at the head of CONTEXT_REARM. -/
theorem Cond.rearmDue_reaches {n : Nat} {a : State} (h : Cond.rearmDue n a = true) :
    ¬ (!a.ctxs.has n || !(((a.ctx n).mode == .capturing && (a.ctx n).rearming) ||
      ((a.ctx n).mode == .held && !(a.ctx n).hold) ||
      ((a.ctx n).mode == .armed && (a.ctx n).start != 0 && !(a.ctx n).hold))) = true := by
  obtain ⟨hhas, hdue⟩ := Bool.and_eq_true_iff.mp h
  simp only [hhas, hdue, Bool.not_true, Bool.or_self, Bool.false_eq_true, not_false_eq_true]

theorem happens_contextRearm_held (n : Nat) : Happens (.contextRearm · n)
    (fun a => Cond.rearmDue n a && (a.ctx n).hold) (Eff.contextRearm n) := by
  refine happens_of _ (fun _ _ => rfl) fun a h => ?_
  obtain ⟨hdue, hhold⟩ := Bool.and_eq_true_iff.mp h
  exact (if_neg (Cond.rearmDue_reaches hdue)).trans (if_pos hhold)

/-- A context that waits for triggers is ARMED again where its ring is full. -/
theorem happens_contextRearm_armed (n : Nat) : Happens (.contextRearm · n)
    (fun a => Cond.rearmDue n a && !(a.ctx n).hold && (a.ctx n).start == 0 && (a.ctx n).ringFull)
    (Eff.contextRearm2 n) := by
  refine happens_of _ (fun _ _ => rfl) fun a h => ?_
  simp only [Bool.and_eq_true, beq_iff_eq] at h
  obtain ⟨⟨⟨hdue, hfree⟩, hstart⟩, hfull⟩ := h
  exact (if_neg (Cond.rearmDue_reaches hdue)).trans ((if_neg (ne_true_of_not hfree)).trans
    ((if_neg (not_not_intro hstart)).trans (if_pos hfull)))

/-- A context that waits for triggers fills its ring first where it is not full. -/
theorem happens_contextRearm_filling (n : Nat) : Happens (.contextRearm · n)
    (fun a => Cond.rearmDue n a && !(a.ctx n).hold && (a.ctx n).start == 0 && !(a.ctx n).ringFull)
    (Eff.contextRearm3 n) := by
  refine happens_of _ (fun _ _ => rfl) fun a h => ?_
  simp only [Bool.and_eq_true, beq_iff_eq] at h
  obtain ⟨⟨⟨hdue, hfree⟩, hstart⟩, hopen⟩ := h
  exact (if_neg (Cond.rearmDue_reaches hdue)).trans ((if_neg (ne_true_of_not hfree)).trans
    ((if_neg (not_not_intro hstart)).trans (if_neg (ne_true_of_not hopen))))

/-- A context that takes no trigger captures its next segment at once. -/
theorem happens_contextRearm_capturing (n : Nat) : Happens (.contextRearm · n)
    (fun a => Cond.rearmDue n a && !(a.ctx n).hold && (a.ctx n).start != 0) (Eff.contextRearm4 n) := by
  refine happens_of _ (fun _ _ => rfl) fun a h => ?_
  simp only [Bool.and_eq_true, bne_iff_ne] at h
  obtain ⟨⟨hdue, hfree⟩, hstart⟩ := h
  exact (if_neg (Cond.rearmDue_reaches hdue)).trans ((if_neg (ne_true_of_not hfree)).trans (if_pos hstart))

/-- Element 0 of a CONTIGUOUS record completes its arm. -/
theorem happens_contextRearm_elementZero (n k : Nat) : Happens (.contextRearm · n)
    (fun a => !Cond.rearmDue n a && a.elementZero (a.ctx n) == some k) (Eff.contextRearm5 n k) := by
  refine happens_of _ (fun _ _ => rfl) fun a h => ?_
  simp only [Bool.and_eq_true, beq_iff_eq, Cond.rearmDue, Bool.not_and] at h
  obtain ⟨hearly, hzero⟩ := h
  refine (if_pos hearly).trans ?_
  simp only [State.contiguousArm, hzero, Eff.contextRearm5]

/-! ## Gaps (R246, R250) -/

/-- A run that is there passes the tests of GAP_BEGIN in a context that is in a record or stores a segment. -/
theorem Cond.gapAt_reaches {n k cause count : Nat} {on : Bool} {a : State} (h : Cond.gapAt n k cause count a = true)
    (hon : on = true) :
    ¬ (!a.ctxs.has n || !on || (cause != 1 && cause != 2) || decide (count = 0) ||
      !((a.acqGrid (a.ctx n)).isSome || decide ((a.ctx n).dropped ≤ k ∧ k < a.nextPlace (a.ctx n)))) = true := by
  simp only [Cond.gapAt, Bool.and_eq_true, bne_iff_ne] at h
  obtain ⟨⟨⟨hhas, hcause⟩, hcount⟩, hthere⟩ := h
  simp only [Bool.or_eq_true, beq_iff_eq] at hcause
  simp only [hhas, hon, hthere, Bool.not_true, Bool.or_false, Bool.false_or, Bool.or_eq_true, Bool.and_eq_true,
    bne_iff_ne, decide_eq_true_eq]
  omega

/-- A context in which a run of unstored elements begins exists, so that it stores a segment whenever its state says. -/
theorem Cond.gapAt_storing {n k cause count : Nat} {a : State} (h : Cond.gapAt n k cause count a = true) :
    Cond.storing n a =
      (((a.ctx n).mode == .capturing || (a.ctx n).mode == .quiescing) && !(a.ctx n).rearming) := by
  simp only [Cond.gapAt, Bool.and_eq_true] at h
  obtain ⟨⟨⟨hhas, -⟩, -⟩, -⟩ := h
  simp only [Cond.storing, hhas, Bool.true_and]

/-- A run in the segment in capture is kept, and what lies in the segment is a gap of it. -/
theorem happens_gapBegin_segment (n cause el count : Nat) (g : GapEntry) : Happens (.gapBegin · n cause el () () count)
    (fun a => Cond.storing n a && Cond.gapAt n (Cond.segmentZero n a + el) cause count a &&
      a.gapIn (a.ctx n) (Cond.segmentZero n a) (a.ctx n).length
        (Cond.gapRun (Cond.segmentZero n a + el) cause count) == some g)
    (Eff.gapBegin n cause el count g) := by
  refine happens_of _ (fun _ _ => rfl) fun a h => ?_
  simp only [Bool.and_eq_true, beq_iff_eq] at h
  obtain ⟨⟨hstoring, hat⟩, hgap⟩ := h
  rw [Cond.gapAt_storing hat] at hstoring
  simp only [hstoring, if_true]
  refine (if_neg (Cond.gapAt_reaches hat (Bool.or_true _))).trans ?_
  simp only [Cond.segmentZero, Cond.gapRun] at hgap
  simp only [hgap]
  rfl

/-- A run outside a segment is kept for the segments that will reach it. -/
theorem happens_gapBegin_between (n cause el count : Nat) : Happens (.gapBegin · n cause el () () count)
    (fun a => !Cond.storing n a && (a.ctx n).mode.active && Cond.gapAt n el cause count a)
    (Eff.gapBegin2 n cause el count) := by
  refine happens_of _ (fun _ _ => rfl) fun a h => ?_
  simp only [Bool.and_eq_true] at h
  obtain ⟨⟨hbetween, hactive⟩, hat⟩ := h
  rw [Cond.gapAt_storing hat, Bool.not_eq_true'] at hbetween
  simp only [hbetween, Bool.false_eq_true, if_false]
  exact if_neg (Cond.gapAt_reaches hat (Bool.or_eq_true_iff.mpr (.inl hactive)))

/-- What the flow has not accepted 100 µs after the end of the segment is a gap with cause 3. -/
theorem happens_stagingDrainTimeout (n f o : Nat) : Happens (.stagingDrainTimeout · n () () () ())
    (Cond.drainOver n f o) (Eff.stagingDrainTimeout n f) := by
  refine happens_of _ (fun _ _ => rfl) fun a h => ?_
  simp only [Cond.drainOver, Bool.and_eq_true, beq_iff_eq, decide_eq_true_eq] at h
  obtain ⟨⟨⟨hflow, hsince⟩, hmode⟩, hdue⟩ := h
  simp only [hflow, hsince]
  exact if_pos ⟨hmode, hdue⟩

/-! ## Scheduled arms (R248, R249, R253) -/

theorem happens_acqScheduledArm_granted (n : Nat) (w : Sched) : Happens (.acqScheduledArm · n)
    (fun a => Cond.acqDue n w a && (Cond.acqGranted n a).isSome) (Eff.acqScheduledArm n) := by
  refine happens_of _ (fun _ _ => rfl) fun a h => ?_
  simp only [Cond.acqDue, Bool.and_eq_true, beq_iff_eq, Option.isSome_iff_exists] at h
  obtain ⟨⟨hsched, hreached⟩, b, hb⟩ := h
  simp only [hsched, hreached, if_true, State.acqAdmit_granted hb, Eff.acqScheduledArm, hb, Option.getD_some]

theorem happens_acqScheduledArm_lacks (n : Nat) (w : Sched) (e : Status × Nat) : Happens (.acqScheduledArm · n)
    (Cond.acqLacks n w e) (Eff.acqScheduledArm2 n e) := by
  refine happens_of _ (fun _ _ => rfl) fun a h => ?_
  simp only [Cond.acqLacks, Cond.acqDue, Bool.and_eq_true, beq_iff_eq] at h
  obtain ⟨⟨hsched, hreached⟩, hlacks⟩ := h
  cases hadmit : a.acqAdmit n with
  | ok b => simp [hadmit] at hlacks
  | error x =>
    simp only [hadmit, beq_iff_eq] at hlacks
    simp only [hsched, hreached, if_true, hlacks]

/-! ## Event intervals (R257) -/

theorem happens_segmentEventIntervalClose_silent (n o : Nat) : Happens (.segmentEventIntervalClose · n)
    (fun a => Cond.segInterval n o a && (a.ctx n).segPending == 0) (Eff.segmentEventIntervalClose n) := by
  refine happens_of _ (fun _ _ => rfl) fun a h => ?_
  simp only [Cond.segInterval, Bool.and_eq_true, decide_eq_true_eq, beq_iff_eq] at h
  obtain ⟨⟨hopen, hdue⟩, hnone⟩ := h
  simp only [hopen, if_neg (Nat.not_lt.mpr hdue), if_pos hnone]

theorem happens_segmentEventIntervalClose_reports (n o : Nat) : Happens (.segmentEventIntervalClose · n)
    (fun a => Cond.segInterval n o a && (a.ctx n).segPending != 0) (Eff.segmentEventIntervalClose2 n o) := by
  refine happens_of _ (fun _ _ => rfl) fun a h => ?_
  simp only [Cond.segInterval, Bool.and_eq_true, decide_eq_true_eq, beq_iff_eq, bne_iff_ne] at h
  obtain ⟨⟨hopen, hdue⟩, hsome⟩ := h
  simp only [hopen, if_neg (Nat.not_lt.mpr hdue), if_neg hsome]

theorem happens_gapEventIntervalClose_silent (n o : Nat) : Happens (.gapEventIntervalClose · n)
    (fun a => Cond.gapInterval n o a && (a.ctx n).gapPending == 0) (Eff.gapEventIntervalClose n) := by
  refine happens_of _ (fun _ _ => rfl) fun a h => ?_
  simp only [Cond.gapInterval, Bool.and_eq_true, decide_eq_true_eq, beq_iff_eq] at h
  obtain ⟨⟨hopen, hdue⟩, hnone⟩ := h
  simp only [hopen, if_neg (Nat.not_lt.mpr hdue), if_pos hnone]

theorem happens_gapEventIntervalClose_reports (n o : Nat) : Happens (.gapEventIntervalClose · n)
    (fun a => Cond.gapInterval n o a && (a.ctx n).gapPending != 0) (Eff.gapEventIntervalClose2 n o) := by
  refine happens_of _ (fun _ _ => rfl) fun a h => ?_
  simp only [Cond.gapInterval, Bool.and_eq_true, decide_eq_true_eq, beq_iff_eq, bne_iff_ne] at h
  obtain ⟨⟨hopen, hdue⟩, hsome⟩ := h
  simp only [hopen, if_neg (Nat.not_lt.mpr hdue), if_neg hsome]

/-- Settles O22: what storing a segment in Cellar leaves, and the rows of the contexts. -/
theorem acqSegmentsAndRows : Obligations.AcqSegmentsAndRows := by
  refine ⟨⟨happens_ringFilled_filling, happens_ringFilled_held, happens_segmentTrigger, ?stored,
      happens_segmentEnd_rearms, happens_segmentEnd_last, happens_segmentEnd_violation, happens_segmentEnd_stopped,
      happens_segmentEnd_drains, happens_contextRearm_held, happens_contextRearm_armed, happens_contextRearm_filling,
      happens_contextRearm_capturing, happens_contextRearm_elementZero⟩,
    happens_gapBegin_segment, happens_gapBegin_between, happens_stagingDrainTimeout, happens_acqScheduledArm_granted,
    happens_acqScheduledArm_lacks, happens_segmentEventIntervalClose_silent, happens_segmentEventIntervalClose_reports,
    happens_gapEventIntervalClose_silent, happens_gapEventIntervalClose_reports,
    fun _ => happens_of _ (fun _ _ => rfl) fun _ _ => rfl⟩
  case stored =>
    intro a n place es hflow hgrid
    have hcellar : ∀ t, ((a.lostGaps n es t).ctx n).flow = none := fun t => (State.lostGaps_flow a n es t).trans hflow
    simp only [State.segmentStore, State.settleGaps_grid hgrid, hcellar]
    generalize a.lostGaps n es _ = m
    cases (m.ctx n).test <;> rfl

end Sys2Proof.Machine

end

section

namespace Sys2Proof.Machine

/-! # The SORREL verbs -/

/-! ## Kernels (R279, R280) -/

/-- Reading an image from the host leaves the contexts. -/
theorem State.hostLoad_ctxs (s : State) (c : Cmd) (addr n : Nat) (cellar : Bool) :
    (s.hostLoad c addr n cellar).ctxs = s.ctxs := by
  cases cellar <;> rfl

/-- Reading an image from the host leaves the owner policy. -/
theorem State.hostLoad_kernelAllowed (s : State) (c : Cmd) (addr n : Nat) (cellar : Bool) (b : List Byte) (k : Kernel) :
    (s.hostLoad c addr n cellar).kernelAllowed b k = s.kernelAllowed b k := by
  have hsec : (s.hostLoad c addr n cellar).sec = s.sec := by cases cellar <;> rfl
  simp only [State.kernelAllowed, hsec]

/-- An image that is consistent and allowed is loaded into every core that is named. -/
theorem completes_sorrelLoadKernel (image : List Byte) : Completes (.sorrelLoadKernel · · · image) 0x0901
    (Cond.loadKernel image) (Eff.sorrelLoadKernel image) := by
  refine completes_of (sorrelLoadKernel image) (fun _ _ _ _ => rfl) fun c a h => ?_
  simp only [Cond.loadKernel, Bool.and_eq_true, decide_eq_true_eq, Option.isSome_iff_exists,
    Option.isNone_iff_eq_none] at h
  obtain ⟨⟨⟨⟨⟨⟨⟨⟨hsome, hplace⟩, hz⟩, haddr⟩, hlent⟩, hidle⟩, k, hk⟩, hallowed⟩, hctx⟩ := h
  simp only [Cond.kernelImage] at hk hallowed hctx
  simp only [hk, Option.getD_some] at hallowed hctx
  refine State.conclude_congr ((if_neg ?_).trans ((if_neg (ne_true_of_not hlent)).trans
    (if_neg (ne_true_of_not hidle)))) ?_
  · simp only [ne_true_of_not hsome, hz, beq_iff_eq, State.table_inPlace haddr, Bool.not_true, Bool.false_eq_true,
      or_false, false_or]
    omega
  · simp only [beq_iff_eq, hk, State.hostLoad_kernelAllowed, State.hostLoad_ctxs, hallowed, hctx, Bool.not_true,
      Bool.false_eq_true, if_false, conclude_done, Eff.sorrelLoadKernel, Cond.kernelImage, Option.getD_some]

/-! ## Ports, output, force mask and region (R281) -/

/-- A port that is bound has a source that exists, and its blocks are within that source's limits. -/
theorem Cond.bindInput_source {c : Cmd} {a : State} (h : Cond.bindInput c a = true) :
    u8 c.payload 2 = 0 ∨
      (u8 c.payload 2 = 1 ∧ u8 c.payload 3 ≤ 31 ∧ 64 ≤ u32 c.payload 4 ∧ u32 c.payload 4 ≤ 8192 ∧
        (a.ddc (u8 c.payload 3)).configured = true) ∨
      (u8 c.payload 2 = 2 ∧ u8 c.payload 3 ≤ 31 ∧ u32 c.payload 12 ≠ 0 ∧ u32 c.payload 12 ≤ 8192 ∧
        a.press.jobs.has (u8 c.payload 3) = true) := by
  simp only [Cond.bindInput, Bool.and_eq_true, Bool.or_eq_true, decide_eq_true_eq, beq_iff_eq] at h
  obtain ⟨-, hunbound | ⟨⟨⟨hsource, hkind⟩, -⟩, -⟩⟩ := h
  · exact .inl hunbound
  · by_cases hddc : (Cond.bindPort c).kind = 1
    · simp only [if_pos hddc, Bool.and_eq_true, decide_eq_true_eq] at hkind
      obtain ⟨⟨hmin, hmax⟩, hconf⟩ := hkind
      exact .inr (.inl ⟨hddc, hsource, hmin, hmax, hconf⟩)
    · simp only [if_neg hddc, Bool.and_eq_true, decide_eq_true_eq, beq_iff_eq, bne_iff_ne] at hkind
      obtain ⟨⟨⟨hjob, hsome⟩, hmax⟩, hhas⟩ := hkind
      exact .inr (.inr ⟨hjob, hsource, hsome, hmax, hhas⟩)

/-- A port that is bound has blocks that fit the slots of the kernel and what 1 ms of them takes fits the region. -/
theorem Cond.bindInput_fits {c : Cmd} {a : State} (h : Cond.bindInput c a = true) (hbound : u8 c.payload 2 ≠ 0) :
    ((a.core (u8 c.payload 0)).kernel.isNone = true ∨
      a.blockBytes (Cond.bindPort c) ≤ (a.core (u8 c.payload 0)).k.slotBytes) ∧
    ((Cond.bindCore c a).region.all fun r => decide (a.regionNeeded (Cond.bindCore c a) ≤ r.2)) = true := by
  simp only [Cond.bindInput, Bool.and_eq_true, Bool.or_eq_true, decide_eq_true_eq, beq_iff_eq] at h
  obtain ⟨-, hunbound | ⟨⟨-, hslots⟩, hregion⟩⟩ := h
  · exact absurd hunbound hbound
  · exact ⟨hslots, hregion⟩

/-- A region that holds what is needed is not too short for it. -/
theorem not_any_of_all_le {o : Option (Nat × Nat)} {n : Nat} (h : (o.all fun r => decide (n ≤ r.2)) = true) :
    ¬ (o.any fun r => decide (r.2 < n)) = true := by
  cases o with
  | none => simp
  | some r => simpa using h

/-- An input port is set or unbound. -/
theorem sorrelBind_input {c : Cmd} {a : State} (h : Cond.bindInput c a = true) :
    sorrelBind c a = .done .ok (a.regionNeeded (Cond.bindCore c a)) (a.setCore (u8 c.payload 0) (Cond.bindCore c a)) := by
  have hsource := Cond.bindInput_source h
  have hfits := Cond.bindInput_fits h
  simp only [Cond.bindInput, Bool.and_eq_true, decide_eq_true_eq, bne_iff_ne] at h
  obtain ⟨⟨⟨⟨⟨hcore, hport⟩, hlent⟩, hrun⟩, hquiet⟩, -⟩ := h
  refine (if_neg ?_).trans ((if_neg (ne_true_of_not hlent)).trans ((if_neg (not_or.mpr ⟨hrun, hquiet⟩)).trans
    ((if_neg ?_).trans ((if_neg ?_).trans (if_neg ?_)))))
  · dsimp only
    omega
  · rintro ⟨-, ⟨hjob, habsent⟩ | ⟨hddc, habsent⟩⟩
    · obtain hs | ⟨hs, -⟩ | ⟨-, -, -, -, hhas⟩ := hsource
      · simp [hs] at hjob
      · simp [hs] at hjob
      · simp [hhas] at habsent
    · obtain hs | ⟨-, -, -, -, hconf⟩ | ⟨hs, -⟩ := hsource
      · simp [hs] at hddc
      · simp [hconf] at habsent
      · simp [hs] at hddc
  · rintro ⟨-, hbound, hkernel, hlong⟩
    obtain ⟨hnone | hslots, -⟩ := hfits hbound
    · simp [Option.isNone_iff_eq_none.mp hnone] at hkernel
    · exact Nat.not_lt.mpr hslots hlong
  · rintro ⟨hregion | ⟨-, hbound⟩, hshort⟩
    · omega
    · exact not_any_of_all_le (hfits hbound).2 hshort

/-- What `SORREL.BIND` sets where it names no input port: an output that exists, the force mask, or a region that holds
what the core needs. -/
theorem Cond.bindOther_what {c : Cmd} {a : State} (h : Cond.bindOther c a = true) :
    (u8 c.payload 1 = 2 ∧ u32 c.payload 20 ≤ 1024 ∧
      (u32 c.payload 16 = 0xFFFFFFFF ∨ u32 c.payload 16 ≤ 49151 ∧ a.flowExists (u32 c.payload 16) = true)) ∨
    u8 c.payload 1 = 3 ∨
    (u8 c.payload 1 = 4 ∧ u64 c.payload 32 % 4096 = 0 ∧ a.inRegion (u64 c.payload 32) (u64 c.payload 40) = true ∧
      a.regionNeeded (Cond.bindCore c a) ≤ u64 c.payload 40) := by
  obtain ⟨-, hwhat⟩ := Bool.and_eq_true_iff.mp h
  by_cases hout : u8 c.payload 1 = 2
  · simp only [if_pos hout, Bool.and_eq_true, Bool.or_eq_true, decide_eq_true_eq, beq_iff_eq] at hwhat
    exact .inl ⟨hout, hwhat⟩
  · by_cases hregion : u8 c.payload 1 = 4
    · simp only [if_neg hout, if_pos hregion, Bool.and_eq_true, decide_eq_true_eq, beq_iff_eq] at hwhat
      obtain ⟨⟨haligned, hinside⟩, hneed⟩ := hwhat
      exact .inr (.inr ⟨hregion, haligned, hinside, hneed⟩)
    · simp only [if_neg hout, if_neg hregion, beq_iff_eq] at hwhat
      exact .inr (.inl hwhat)

/-- The output, the force mask or the region is set. -/
theorem sorrelBind_other {c : Cmd} {a : State} (h : Cond.bindOther c a = true) :
    sorrelBind c a = .done .ok (a.regionNeeded (Cond.bindCore c a)) (a.setCore (u8 c.payload 0) (Cond.bindCore c a)) := by
  have hwhat := Cond.bindOther_what h
  have hport : ¬ u8 c.payload 1 ≤ 1 := by omega
  simp only [Cond.bindOther, Cond.idleCore, Bool.and_eq_true, decide_eq_true_eq, bne_iff_ne] at h
  obtain ⟨⟨⟨⟨hcore, hlent⟩, hrun⟩, hquiet⟩, -⟩ := h
  refine (if_neg ?_).trans ((if_neg (ne_true_of_not hlent)).trans ((if_neg (not_or.mpr ⟨hrun, hquiet⟩)).trans
    ((if_neg fun hbad => hport hbad.1).trans ((if_neg fun hbad => hport hbad.1).trans (if_neg ?_)))))
  · obtain ⟨hout, hrecords, hnone | ⟨hflow, hexists⟩⟩ | hforce | ⟨hregion, haligned, hinside, -⟩ := hwhat
    · simp only [hnone]
      omega
    · simp only [hexists, Bool.not_true, Bool.false_eq_true, and_false, or_false]
      omega
    · omega
    · simp only [hinside, Bool.not_true, Bool.false_eq_true, or_false]
      omega
  · rintro ⟨hregion | hin, hshort⟩
    · have hneed : a.regionNeeded (Cond.bindCore c a) ≤ u64 c.payload 40 := by omega
      refine not_any_of_all_le (o := (Cond.bindCore c a).region) ?_ hshort
      simp only [Cond.bindCore, hregion] at hneed ⊢
      simpa using hneed
    · exact hport hin.1

theorem completes_sorrelBind :
    Completes .sorrelBind 0x0904 (fun c a => Cond.bindInput c a || Cond.bindOther c a) Eff.sorrelBind := by
  refine completes_of sorrelBind (fun _ _ _ _ => rfl) fun c a h => ?_
  exact State.conclude_congr ((Bool.or_eq_true_iff.mp h).elim sorrelBind_input sorrelBind_other) (conclude_done ..)

/-! ## Starts (R276, R278, R282) -/

/-- The length and the fields of `SORREL.START` are in range. -/
theorem sorrelStart_fields {p : List Byte} (hlen : p.length = 16 + u16 p 2) (hcore : u8 p 0 ≤ 63) (hmode : u8 p 1 ≤ 2)
    (hmany : u16 p 2 ≤ 256) (hz : zeros p 4 4 = true) :
    ¬ (u16 p 2 ≤ 256 ∧ p.length ≠ 16 + u16 p 2) ∧
      ¬ (u8 p 0 > 63 ∨ u8 p 1 > 2 ∨ u16 p 2 > 256 ∨ (!zeros p 4 4) = true) := by
  simp only [hz, Bool.not_true, Bool.false_eq_true, or_false]
  omega

/-- What `SORREL.START` comes to where the allotments and the energy fit: the kernel starts, or waits for its tick. -/
theorem sorrelStart_granted {c : Cmd} {a b : State} (h : Cond.sorrelStart c a = true)
    (hb : Cond.coreGranted (u8 c.payload 0) a = some b) :
    sorrelStart c a =
      if u8 c.payload 1 = 0 then .done .ok a.now (b.coreStart (u8 c.payload 0) (Cond.startParams c) a.now)
      else .running 0 [] (b.setCore (u8 c.payload 0) { a.core (u8 c.payload 0) with
        sched := some (Cond.startAt c, Cond.startParams c) }) := by
  simp only [Cond.sorrelStart, Bool.and_eq_true, decide_eq_true_eq, beq_iff_eq, bne_iff_ne, Option.isSome_iff_ne_none] at h
  obtain ⟨⟨⟨⟨⟨⟨⟨⟨⟨⟨⟨⟨⟨⟨⟨hlen, hcore⟩, hmode⟩, hmany⟩, hz⟩, hlent⟩, hrun⟩, hkernel⟩, hport⟩, hon0⟩, hon1⟩, hregion⟩, hdead⟩,
    hstart⟩, hsoon⟩, -⟩ := h
  obtain ⟨hlength, hfields⟩ := sorrelStart_fields hlen hcore hmode hmany hz
  refine (if_neg hlength).trans ((if_neg hfields).trans ((if_neg (ne_true_of_not hlent)).trans ((if_neg hrun).trans
    ((if_neg ?_).trans ((if_neg (ne_true_of_not hsoon)).trans ?_)))))
  · simp only [Cond.startAt] at hstart
    simp [hkernel, hport, hon0, hon1, hregion, ne_true_of_not hdead, hstart]
  · unfold Cond.coreGranted at hb
    cases hallot : a.allot (actKey kindKernel (u8 c.payload 0)) (a.kernelDemand (a.core (u8 c.payload 0))) with
    | none => simp [hallot] at hb
    | some s =>
      cases hdecl : s.declare [a.coreDecl (u8 c.payload 0)] with
      | error short => simp [hallot, hdecl] at hb
      | ok d =>
        simp only [hallot, hdecl, Option.some.injEq] at hb
        simp only [hdecl, hb, Cond.startParams, Cond.startAt]

/-- The core has allotments and energy where `SORREL.START` may act. -/
theorem Cond.sorrelStart_granted {c : Cmd} {a : State} (h : Cond.sorrelStart c a = true) :
    ∃ b, Cond.coreGranted (u8 c.payload 0) a = some b :=
  Option.isSome_iff_exists.mp (Bool.and_eq_true_iff.mp h).2

theorem completes_sorrelStart_now : Completes .sorrelStart 0x0902
    (fun c a => Cond.sorrelStart c a && u8 c.payload 1 == 0) Eff.sorrelStart := by
  refine completes_of sorrelStart (fun _ _ _ _ => rfl) fun c a h => ?_
  simp only [Bool.and_eq_true, beq_iff_eq] at h
  obtain ⟨hok, hnow⟩ := h
  obtain ⟨b, hb⟩ := Cond.sorrelStart_granted hok
  simp only [sorrelStart_granted hok hb, if_pos hnow, conclude_done, Eff.sorrelStart, hb, Option.getD_some]

theorem completes_sorrelStart_scheduled : Completes .sorrelStart 0x0902
    (fun c a => Cond.sorrelStart c a && u8 c.payload 1 != 0) Eff.sorrelStart2 := by
  refine completes_of sorrelStart (fun _ _ _ _ => rfl) fun c a h => ?_
  simp only [Bool.and_eq_true, bne_iff_ne] at h
  obtain ⟨hok, hlater⟩ := h
  obtain ⟨b, hb⟩ := Cond.sorrelStart_granted hok
  simp only [sorrelStart_granted hok hb, if_neg hlater, conclude_running, Eff.sorrelStart2, hb, Option.getD_some]

/-- The start of a running kernel completes with the tick at which it started. -/
theorem completes_sorrelStart_running : Completes .sorrelStart 0x0902
    (fun c a => c.payload.length == 16 + u16 c.payload 2 && decide (u8 c.payload 0 ≤ 63) && decide (u8 c.payload 1 ≤ 2) &&
      decide (u16 c.payload 2 ≤ 256) && zeros c.payload 4 4 && !(a.core (u8 c.payload 0)).lent &&
      (a.core (u8 c.payload 0)).mode == .running)
    Eff.sorrelStart3 := by
  refine completes_of sorrelStart (fun _ _ _ _ => rfl) fun c a h => ?_
  simp only [Bool.and_eq_true, decide_eq_true_eq, beq_iff_eq] at h
  obtain ⟨⟨⟨⟨⟨⟨hlen, hcore⟩, hmode⟩, hmany⟩, hz⟩, hlent⟩, hrun⟩ := h
  obtain ⟨hlength, hfields⟩ := sorrelStart_fields hlen hcore hmode hmany hz
  exact State.conclude_congr ((if_neg hlength).trans ((if_neg hfields).trans ((if_neg (ne_true_of_not hlent)).trans
    (if_pos hrun)))) (conclude_done ..)

/-! ## Stops and status (R283, R284) -/

/-- The fields of `SORREL.STOP` are in range, and its core is not lent. -/
theorem Cond.stopFields_reaches {c : Cmd} {a : State} (h : Cond.stopFields c a = true) :
    ¬ (u8 c.payload 0 > 63 ∨ u8 c.payload 1 > 1 ∨ (!zeros c.payload 2 2) = true) ∧
      ¬ (a.core (u8 c.payload 0)).lent = true := by
  simp only [Cond.stopFields, Bool.and_eq_true, decide_eq_true_eq] at h
  obtain ⟨⟨⟨hcore, hform⟩, hz⟩, hlent⟩ := h
  exact ⟨by simp [hcore, hform, hz], ne_true_of_not hlent⟩

/-- What `SORREL.STOP` comes to for a running core without consumers: it waits for the commit, or the kernel ends. -/
theorem sorrelStop_running {c : Cmd} {a : State} (h : Cond.sorrelStop c a = true) :
    sorrelStop c a =
      if u8 c.payload 1 = 1 then
        .running 0 [] (a.setCore (u8 c.payload 0) { a.core (u8 c.payload 0) with mode := .quiescing, atCommit := true })
      else .done .quiesced 0
        ((a.setCore (u8 c.payload 0) (a.core (u8 c.payload 0)).revert).kernelEnd (u8 c.payload 0) 3 0) := by
  simp only [Cond.sorrelStop, Bool.and_eq_true, beq_iff_eq, Option.isNone_iff_eq_none] at h
  obtain ⟨⟨hstop, hrun⟩, hfree⟩ := h
  obtain ⟨hfields, hlent⟩ := Cond.stopFields_reaches hstop
  refine (if_neg hfields).trans ((if_neg hlent).trans ((if_neg (not_not_intro hrun)).trans ?_))
  simp only [hfree]

theorem completes_sorrelStop_now : Completes .sorrelStop 0x0903
    (fun c a => Cond.sorrelStop c a && u8 c.payload 1 == 0) Eff.sorrelStop := by
  refine completes_of sorrelStop (fun _ _ _ _ => rfl) fun c a h => ?_
  simp only [Bool.and_eq_true, beq_iff_eq] at h
  obtain ⟨hstop, hnow⟩ := h
  exact State.conclude_congr ((sorrelStop_running hstop).trans (if_neg (by simp [hnow]))) (conclude_done ..)

theorem completes_sorrelStop_atCommit : Completes .sorrelStop 0x0903
    (fun c a => Cond.sorrelStop c a && u8 c.payload 1 == 1) Eff.sorrelStop2 := by
  refine completes_of sorrelStop (fun _ _ _ _ => rfl) fun c a h => ?_
  simp only [Bool.and_eq_true, beq_iff_eq] at h
  obtain ⟨hstop, hcommit⟩ := h
  exact State.conclude_congr ((sorrelStop_running hstop).trans (if_pos hcommit)) (conclude_running ..)

/-- A kernel that does not run has nothing to stop. -/
theorem completes_sorrelStop_idle : Completes .sorrelStop 0x0903
    (fun c a => Cond.stopFields c a && (a.core (u8 c.payload 0)).mode != .running)
    (fun c a => a.finish c .quiesced 0) := by
  refine completes_of sorrelStop (fun _ _ _ _ => rfl) fun c a h => ?_
  simp only [Bool.and_eq_true, bne_iff_ne] at h
  obtain ⟨hstop, hidle⟩ := h
  obtain ⟨hfields, hlent⟩ := Cond.stopFields_reaches hstop
  exact State.conclude_congr ((if_neg hfields).trans ((if_neg hlent).trans (if_pos hidle))) (conclude_done ..)

@[simp] theorem State.coreStatus_length (a : State) (n : Nat) : (a.coreStatus n).length = 96 := by
  simp [State.coreStatus, pack_length]

theorem completes_sorrelGetStatus : Completes .sorrelGetStatus 0x0905
    (fun c a => decide (u8 c.payload 0 ≤ 63) && zeros c.payload 1 3 && !(a.core (u8 c.payload 0)).lent && decide (96 ≤ c.room))
    Eff.sorrelGetStatus := by
  refine completes_of sorrelGetStatus (fun _ _ _ _ => rfl) fun c a h => ?_
  simp only [Bool.and_eq_true, decide_eq_true_eq] at h
  obtain ⟨⟨⟨hcore, hz⟩, hlent⟩, hroom⟩ := h
  exact State.conclude_congr ((if_neg (by simp [hcore, hz])).trans (if_neg (ne_true_of_not hlent)))
    (conclude_data (by simpa using hroom) _ _ _)

/-- Settles O23, verb by verb. -/
theorem sorrelVerbsComplete : Obligations.SorrelVerbsComplete :=
  ⟨completes_sorrelLoadKernel, completes_sorrelBind, completes_sorrelStart_now, completes_sorrelStart_scheduled,
    completes_sorrelStart_running, completes_sorrelStop_now, completes_sorrelStop_atCommit, completes_sorrelStop_idle,
    completes_sorrelGetStatus⟩

end Sys2Proof.Machine

end

section

namespace Sys2Proof.Machine

/-! # The rows of the Sorrel cores -/

/-! ## Blocks (R273, R277) -/

/-- A block arrives at a bound port of a core in service: what the row comes to, with the block written as the statements
write it. -/
theorem happens_inputBlockArrival (n port index : Nat) (mapped : Bool) (codes : List Int) (b : InBlock) :
    Happens (.inputBlockArrival · n port index mapped () () () codes)
      (fun a => Cond.bound n port a && Cond.inputBlock n port index mapped codes a == some b)
      (fun a => if (a.ringOf (a.core n) port).2 < (Cond.taken n port a).ringBytes + b.bytes.length then
        Eff.inputBlockArrival2 n port a else Eff.inputBlockArrival n port b a) := by
  refine happens_of _ (fun _ _ => rfl) fun a h => ?_
  simp only [Cond.bound, Bool.and_eq_true, Bool.or_eq_true, decide_eq_true_eq, beq_iff_eq, bne_iff_ne] at h
  obtain ⟨⟨⟨hport, hkind⟩, hmode⟩, hblock⟩ := h
  obtain ⟨k, hk, rfl⟩ := Option.map_eq_some_iff.mp hblock
  refine (if_neg ?_).trans ?_
  · rcases hmode with hmode | hmode <;> simp [hport, hkind, hmode]
  · simp only [hk]
    rfl

theorem happens_inputBlockArrival_kept (n port index : Nat) (mapped : Bool) (codes : List Int) (b : InBlock) :
    Happens (.inputBlockArrival · n port index mapped () () () codes)
      (fun a => Cond.bound n port a && Cond.inputBlock n port index mapped codes a == some b &&
        decide ((Cond.taken n port a).ringBytes + b.bytes.length ≤ (a.ringOf (a.core n) port).2))
      (Eff.inputBlockArrival n port b) :=
  (happens_inputBlockArrival n port index mapped codes b).when fun a h => by
    obtain ⟨harrives, hfits⟩ := Bool.and_eq_true_iff.mp h
    exact ⟨harrives, if_neg (Nat.not_lt.mpr (of_decide_eq_true hfits))⟩

theorem happens_inputBlockArrival_lost (n port index : Nat) (mapped : Bool) (codes : List Int) (b : InBlock) :
    Happens (.inputBlockArrival · n port index mapped () () () codes)
      (fun a => Cond.bound n port a && Cond.inputBlock n port index mapped codes a == some b &&
        decide ((a.ringOf (a.core n) port).2 < (Cond.taken n port a).ringBytes + b.bytes.length))
      (Eff.inputBlockArrival2 n port) :=
  (happens_inputBlockArrival n port index mapped codes b).when fun a h => by
    obtain ⟨harrives, hfull⟩ := Bool.and_eq_true_iff.mp h
    exact ⟨harrives, if_pos (of_decide_eq_true hfull)⟩

/-! ## Credit and forces (R275, R276) -/

theorem happens_activationCreditExhausted (n : Nat) : Happens (.activationCreditExhausted · n)
    (fun a => (a.core n).mode == .running && decide ((a.core n).k.maxCycles ≤ (a.core n).cycles a.now))
    (Eff.activationCreditExhausted n) := by
  refine happens_of _ (fun _ _ => rfl) fun a h => ?_
  simp only [Bool.and_eq_true, decide_eq_true_eq, beq_iff_eq] at h
  exact if_pos h

theorem happens_sorrelForceMessage_made (n u : Nat) (rest : List Nat) : Happens (.sorrelForceMessage · n)
    (fun a => (a.core n).forces == u :: rest && Cond.mayForce n u a) (Eff.sorrelForceMessage n u rest) := by
  refine happens_of _ (fun _ _ => rfl) fun a h => ?_
  simp only [Bool.and_eq_true, beq_iff_eq] at h
  obtain ⟨hforces, hmay⟩ := h
  simp only [hforces]
  exact if_pos hmay

theorem happens_sorrelForceMessage_refused (n u : Nat) (rest : List Nat) : Happens (.sorrelForceMessage · n)
    (fun a => (a.core n).forces == u :: rest && !Cond.mayForce n u a) (Eff.sorrelForceMessage2 n rest) := by
  refine happens_of _ (fun _ _ => rfl) fun a h => ?_
  simp only [Bool.and_eq_true, beq_iff_eq] at h
  obtain ⟨hforces, hmay⟩ := h
  simp only [hforces]
  exact if_neg (ne_true_of_not hmay)

/-! ## Cores that fail (R259, R277, R520) -/

/-- A core in service passes the test at the head of `State.coreFail`. -/
theorem State.coreFail_reaches {u : Nat} {a : State} (hu : u ≤ 67) (hret : (!a.isRetired ⟨4, 0, u⟩) = true) :
    ¬ (u > 67 || a.isRetired ⟨4, 0, u⟩) = true := by
  simp [hu, ne_true_of_not hret]

/-- No visible core is on the physical core. -/
theorem happens_coreFault_unused (u : Nat) : Happens (.coreFault · u false)
    (fun a => decide (u ≤ 67) && !a.isRetired ⟨4, 0, u⟩ && ((List.range 64).find? fun c =>
      (a.core c).physical c == u && !(a.core c).lent && !(a.core c).dead).isNone)
    (fun a => a.faultIn ⟨4, 0, u⟩ {}) := by
  refine happens_of _ (fun _ _ => rfl) fun a h => ?_
  simp only [Bool.and_eq_true, decide_eq_true_eq, Option.isNone_iff_eq_none] at h
  obtain ⟨⟨hu, hret⟩, hnone⟩ := h
  refine (if_neg (State.coreFail_reaches hu hret)).trans ?_
  simp only [hnone]

/-- A spare takes the place of the core. -/
theorem happens_coreFault_covered (u c v : Nat) : Happens (.coreFault · u false)
    (fun a => Cond.failsUnder u c a && Cond.spareFor u a == some v && a.sparesLeft 4 0 != 0) (Eff.coreFault u c v) := by
  refine happens_of _ (fun _ _ => rfl) fun a h => ?_
  simp only [Cond.failsUnder, Cond.spareFor, Bool.and_eq_true, decide_eq_true_eq, beq_iff_eq, bne_iff_ne] at h
  obtain ⟨⟨⟨⟨hu, hret⟩, howner⟩, hspare⟩, hleft⟩ := h
  obtain ⟨m, hm⟩ := Nat.exists_eq_succ_of_ne_zero hleft
  refine (if_neg (State.coreFail_reaches hu hret)).trans ?_
  simp only [howner, hspare, hm, Eff.coreFault, Cond.moved]

/-! ## Scheduled starts (R282) -/

theorem happens_sorrelScheduledStart (n : Nat) (w : Sched) (params : List Byte) : Happens (.sorrelScheduledStart · n)
    (fun a => (a.core n).sched == some (w, params) && a.reached w) (Eff.sorrelScheduledStart n w params) := by
  refine happens_of _ (fun _ _ => rfl) fun a h => ?_
  simp only [Bool.and_eq_true, beq_iff_eq] at h
  obtain ⟨hsched, hdue⟩ := h
  simp only [hsched]
  exact if_pos hdue

/-- Settles O24, row by row. -/
theorem sorrelRows : Obligations.SorrelRows :=
  ⟨happens_inputBlockArrival_kept, happens_inputBlockArrival_lost, happens_activationCreditExhausted,
    happens_sorrelForceMessage_made, happens_sorrelForceMessage_refused, happens_coreFault_unused,
    happens_coreFault_covered, fun _ => happens_of _ (fun _ _ => rfl) fun _ _ => rfl, happens_sorrelScheduledStart⟩

end Sys2Proof.Machine

end

section

namespace Sys2Proof.Machine

/-! # Sorrel instructions: what an issued instruction comes to, and the forms that instructions of a class share -/

/-! ## One rule for each end of an instruction (R264, R271, R272) -/

section

variable {core cls op : Nat} {a : State} {body : Nat → Nat → Core → IsaOut} {y : Core}

theorem State.issue_next (h : Cond.issues core cls op a = true)
    (hb : body (Cond.issuing core a).word (a.freeNat 128) (Cond.issuing core a) = .next y) :
    a.issue core cls op body = a.drawFree.setCore core y.advance := by
  rw [State.issue_of_issues body h, hb]

theorem State.issue_jump {pc : Nat} (h : Cond.issues core cls op a = true)
    (hb : body (Cond.issuing core a).word (a.freeNat 128) (Cond.issuing core a) = .jump y pc) :
    a.issue core cls op body = a.drawFree.setCore core { y with pc := pc % 8192 } := by
  rw [State.issue_of_issues body h, hb]

theorem State.issue_stall (h : Cond.issues core cls op a = true)
    (hb : body (Cond.issuing core a).word (a.freeNat 128) (Cond.issuing core a) = .stall) :
    a.issue core cls op body = a := by
  rw [State.issue_of_issues body h, hb]

theorem State.issue_yield (h : Cond.issues core cls op a = true)
    (hb : body (Cond.issuing core a).word (a.freeNat 128) (Cond.issuing core a) = .yield y) :
    a.issue core cls op body = (a.drawFree.setCore core y).coreYield core := by
  rw [State.issue_of_issues body h, hb]

theorem State.issue_halt (h : Cond.issues core cls op a = true)
    (hb : body (Cond.issuing core a).word (a.freeNat 128) (Cond.issuing core a) = .halt y) :
    a.issue core cls op body = ((a.drawFree.setCore core y).coreCommit core).kernelEnd core 1 0 := by
  rw [State.issue_of_issues body h, hb]

/-- An instruction row of a powered module comes to what issuing it there comes to. -/
theorem isa_of_issue {s s' : State} {t : Nat} (hp : s.powered = true) (h : (s.advance t).issue core cls op body = s') :
    isa t core cls op body s = .next s' := by
  rw [isa, happens, whenPowered_on hp, h]

end

/-! ## The forms of the instructions: each effect that is given is what the body goes on with (R264 to R269) -/

section

variable {w free : Nat} {x z : Core}

/-- A move slot that does not trap ends the instruction. -/
theorem ofExcept_moveSlot_of_move {y : Core} {written : Option Nat} (h : Cond.move w free x y written = some z) :
    IsaOut.ofExcept (moveSlot w free x y written) = .next z := by
  unfold Cond.move at h
  cases hm : moveSlot w free x y written with
  | error k => simp only [hm, Except.toOption, reduceCtorEq] at h
  | ok m =>
    simp only [hm, Except.toOption, Option.some.injEq] at h
    simp only [IsaOut.ofExcept, h]

theorem isaMemory_of_load {size align : Nat} {f : Nat → List Byte → Core → Core} {written : Nat → Option Nat}
    (h : Cond.load size align f written w free x = some z) : isaMemory size align (f w) written w free x = .next z := by
  unfold Cond.load at h
  unfold isaMemory
  cases hl : x.load (bits w 48 46) (bits w 45 44) size align (free / 2 ^ 32 % 2 ^ 32) with
  | error k => simp only [hl, reduceCtorEq] at h
  | ok r =>
    simp only [hl] at h
    exact ofExcept_moveSlot_of_move h

theorem isaStore_of_store {align : Nat} {f : Nat → Core → List Byte} (h : Cond.store align f w free x = some z) :
    isaStore align (f w) w free x = .next z := by
  unfold Cond.store at h
  unfold isaStore
  cases hs : x.store (bits w 48 46) (bits w 45 44) align (free / 2 ^ 32 % 2 ^ 32) (f w x) with
  | error k => simp only [hs, reduceCtorEq] at h
  | ok y =>
    simp only [hs] at h
    exact ofExcept_moveSlot_of_move h

theorem isaVector_of_vector {f : Nat → Core → Lanes → Core → Core} {written : Nat → Option Nat}
    (h : Cond.vector f written w free x = some z) : isaVector (f w) written w free x = .next z := by
  unfold Cond.vector at h
  unfold isaVector
  cases hb : operandB w free x with
  | error k => simp only [hb, reduceCtorEq] at h
  | ok r =>
    simp only [hb] at h
    exact ofExcept_moveSlot_of_move h

theorem isaUnary_of_unary {f : Nat → Core → Core} {written : Nat → Option Nat}
    (h : Cond.unary f written w free x = some z) : isaUnary (f w) (written w) w free x = .next z :=
  ofExcept_moveSlot_of_move h

/-- An effect that is given where a condition holds is given only there. -/
theorem Cond.given_eq_some {ok : Nat → Core → Bool} {r : Cond.Effect} (h : Cond.given ok r w free x = some z) :
    ok w x = true ∧ r w free x = some z := by
  unfold Cond.given at h
  split at h
  · exact ⟨‹_›, h⟩
  · cases h

/-- A tap whose accesses do not trap takes the accumulator and the sample on. -/
theorem isaTapmv_of_tapmv (hslot : bits w 25 24 = 1) (hshift : bits w 23 20 = bits w 48 45)
    (h : Cond.tapmv w free x = some z) : isaTapmv w free x = .next z := by
  simp only [Cond.tapmv, Cond.tap] at h
  refine (if_neg (by simp [hslot, hshift])).trans ?_
  by_cases hreg : bits w 40 40 = 0
  · simp only [if_pos hreg] at h ⊢
    cases hs : x.load (bits w 19 17) (bits w 16 15) 4 4 (free % 2 ^ 32) with
    | error k => simp only [hs, reduceCtorEq] at h
    | ok r => simpa only [hs, Option.some.injEq, IsaOut.next.injEq] using h
  · simp only [if_neg hreg] at h ⊢
    cases hm : x.load (bits w 39 37) (bits w 36 35) 4 4 (free / 2 ^ 32 % 2 ^ 32) with
    | error k => simp only [hm, reduceCtorEq] at h
    | ok r =>
      simp only [hm] at h ⊢
      cases hs : r.2.load (bits w 19 17) (bits w 16 15) 4 4 (free % 2 ^ 32) with
      | error k => simp only [hs, reduceCtorEq] at h
      | ok q => simpa only [hs, Option.some.injEq, IsaOut.next.injEq] using h

end

/-! ## Rows by form -/

section

variable {i : Nat → Nat → Instr} {cls op : Nat}

/-- A scalar instruction runs where its function and the effect's are one. -/
theorem runs_scalar {f g : Nat → Nat → Nat → Nat} (hi : ∀ t core s, exec (i t core) s = isa t core cls op (isaScalar f) s)
    (hfg : ∀ p q free, f p q free = g p q free) : Cond.Runs i cls op (Cond.scalar g) :=
  runs_of _ hi fun _ _ _ _ h => (congrArg (fun v => IsaOut.next (Core.setS _ _ v)) (hfg _ _ _)).trans
    (congrArg IsaOut.next (Option.some.inj h))

theorem runs_load {size align : Nat} {f : Nat → List Byte → Core → Core} {written : Nat → Option Nat}
    (hi : ∀ t core s, exec (i t core) s = isa t core cls op (fun w => isaMemory size align (f w) written w) s) :
    Cond.Runs i cls op (Cond.load size align f written) :=
  runs_of _ hi fun _ _ _ _ => isaMemory_of_load

theorem runs_store {align : Nat} {f : Nat → Core → List Byte}
    (hi : ∀ t core s, exec (i t core) s = isa t core cls op (fun w => isaStore align (f w) w) s) :
    Cond.Runs i cls op (Cond.store align f) :=
  runs_of _ hi fun _ _ _ _ => isaStore_of_store

theorem runs_vector {f : Nat → Core → Lanes → Core → Core} {written : Nat → Option Nat}
    (hi : ∀ t core s, exec (i t core) s = isa t core cls op (fun w => isaVector (f w) written w) s) :
    Cond.Runs i cls op (Cond.vector f written) :=
  runs_of _ hi fun _ _ _ _ => isaVector_of_vector

/-- An effect with a condition runs where the condition and the effect make the body go on. -/
theorem runs_given {ok : Nat → Core → Bool} {r : Cond.Effect} (body : Nat → Nat → Core → IsaOut)
    (hi : ∀ t core s, exec (i t core) s = isa t core cls op body s)
    (hb : ∀ w f x z, ok w x = true → r w f x = some z → body w f x = .next z) : Cond.Runs i cls op (Cond.given ok r) :=
  runs_of body hi fun w f x z h => (Cond.given_eq_some h).elim (hb w f x z)

theorem runs_unary {f : Nat → Core → Core} {written : Nat → Option Nat}
    (hi : ∀ t core s, exec (i t core) s = isa t core cls op (fun w => isaUnary (f w) (written w) w) s) :
    Cond.Runs i cls op (Cond.unary f written) :=
  runs_of _ hi fun _ _ _ _ => isaUnary_of_unary

end

/-! ## Scalar and memory instructions (R260, R263, R265) -/

/-- A truth value as the number that the comparisons write. -/
theorem bit_decide (p : Prop) [Decidable p] : bit (decide p) = if p then 1 else 0 := by simp [bit]

theorem happens_isaMfs (core : Nat) : Happens (.isaMfs · core)
    (fun a => Cond.issues core 0 16 a && decide (bits (Cond.issuing core a).word 31 0 ≤ 7)) (Eff.isaMfs core) := by
  intro s t hp h
  simp only [Bool.and_eq_true, decide_eq_true_eq] at h
  obtain ⟨hissues, hnamed⟩ := h
  exact isa_of_issue hp (State.issue_next hissues (if_neg (Nat.not_lt.mpr hnamed)))

theorem happens_isaMts (core : Nat) : Happens (.isaMts · core)
    (fun a => Cond.issues core 0 17 a && decide (bits (Cond.issuing core a).word 31 0 ≤ 7)) (Eff.isaMts core) := by
  intro s t hp h
  simp only [Bool.and_eq_true, decide_eq_true_eq] at h
  obtain ⟨hissues, hnamed⟩ := h
  exact isa_of_issue hp (State.issue_next hissues (if_neg (Nat.not_lt.mpr hnamed)))

theorem runs_isaLi : Cond.Runs .isaLi 0 15 (fun w _ x => some (x.setS (bits w 53 49) (bits w 31 0))) :=
  runs_of _ (fun _ _ _ => rfl) fun _ _ _ _ h => congrArg IsaOut.next (Option.some.inj h)

theorem runs_isaSta : Cond.Runs .isaSta 1 5 (Cond.store 16 fun w x =>
    leBytes 8 (unsign 64 (x.a (bits w 50 49)).l0.re) ++ leBytes 8 (unsign 64 (x.a (bits w 50 49)).l0.im)) :=
  runs_store fun _ _ _ => by simp only [exec, execIsaSta, pack, List.append_nil]

/-- Settles O25, instruction by instruction. -/
theorem scalarAndMemoryInstructions : Obligations.ScalarAndMemoryInstructions :=
  ⟨⟨runs_scalar (fun _ _ _ => rfl) fun _ _ _ => rfl, runs_scalar (fun _ _ _ => rfl) fun _ _ _ => rfl,
      runs_scalar (fun _ _ _ => rfl) fun _ _ _ => rfl, runs_scalar (fun _ _ _ => rfl) fun _ _ _ => rfl,
      runs_scalar (fun _ _ _ => rfl) fun _ _ _ => rfl, runs_scalar (fun _ _ _ => rfl) fun _ _ _ => rfl,
      runs_scalar (fun _ _ _ => rfl) fun _ _ _ => rfl, runs_scalar (fun _ _ _ => rfl) fun _ _ _ => rfl,
      runs_scalar (fun _ _ _ => rfl) fun _ _ _ => rfl, runs_scalar (fun _ _ _ => rfl) fun _ _ _ => rfl,
      runs_scalar (fun _ _ _ => rfl) fun _ _ _ => rfl, runs_scalar (fun _ _ _ => rfl) fun _ _ _ => rfl,
      runs_scalar (fun _ _ _ => rfl) fun _ _ _ => bit_decide _, runs_scalar (fun _ _ _ => rfl) fun _ _ _ => bit_decide _,
      runs_scalar (fun _ _ _ => rfl) fun _ _ _ => bit_decide _, runs_isaLi, happens_isaMfs, happens_isaMts⟩,
    runs_load fun _ _ _ => rfl, runs_store fun _ _ _ => rfl, runs_load fun _ _ _ => rfl, runs_store fun _ _ _ => rfl,
    runs_load fun _ _ _ => rfl, runs_isaSta⟩

end Sys2Proof.Machine

end

section

namespace Sys2Proof.Machine

/-! # The vector, accumulator, reduce and control classes of the Sorrel instructions -/

/-! ## Reductions and accumulators (R265 to R269) -/

theorem runs_isaMaxi : Cond.Runs .isaMaxi 4 0 (Cond.given (fun w _ => decide (bits w 33 32 ≤ 1))
    (Cond.vector (fun w _ b y => { y with maxi := y.maxi.scan (bits w 34 32) false b }) Cond.noV)) :=
  runs_given _ (fun _ _ _ => rfl) fun _ _ _ _ hmode hscan =>
    (if_neg (Nat.not_lt.mpr (of_decide_eq_true hmode))).trans (isaVector_of_vector hscan)

theorem runs_isaMini : Cond.Runs .isaMini 4 1 (Cond.given (fun w _ => decide (bits w 33 32 ≤ 1))
    (Cond.vector (fun w _ b y => { y with mini := y.mini.scan (bits w 34 32) true b }) Cond.noV)) :=
  runs_given _ (fun _ _ _ => rfl) fun _ _ _ _ hmode hscan =>
    (if_neg (Nat.not_lt.mpr (of_decide_eq_true hmode))).trans (isaVector_of_vector hscan)

/-- EXPB of operand B. -/
theorem runs_isaExpb_vector : Cond.Runs .isaExpb 4 2 (Cond.given (fun w _ => bits w 33 33 == 0)
    (Cond.vector (fun w _ b y => y.setS (bits w 53 49)
      (if bits w 32 32 = 1 then b.headroom 15 else min (y.s (bits w 53 49)) (b.headroom 15))) Cond.noV)) := by
  refine runs_given _ (fun _ _ _ => rfl) fun w free x z hkind hleast => ?_
  have hvector : ¬ bits w 33 33 = 1 := by simp [beq_iff_eq.mp hkind]
  exact (congrFun (congrFun (if_neg hvector) free) x).trans (isaVector_of_vector hleast)

/-- EXPB of an accumulator. -/
theorem runs_isaExpb_accumulator : Cond.Runs .isaExpb 4 2 (Cond.given (fun w _ => bits w 33 33 == 1)
    (Cond.unary (fun w x => x.setS (bits w 53 49) (if bits w 32 32 = 1 then (x.a (bits w 46 45)).headroom 47
      else min (x.s (bits w 53 49)) ((x.a (bits w 46 45)).headroom 47))) Cond.noV)) := by
  refine runs_given _ (fun _ _ _ => rfl) fun w free x z hkind hleast => ?_
  have haccumulator : bits w 33 33 = 1 := beq_iff_eq.mp hkind
  exact (congrFun (congrFun (if_pos haccumulator) free) x).trans (isaUnary_of_unary hleast)

theorem runs_isaTapmv : Cond.Runs .isaTapmv 3 2
    (Cond.given (fun w _ => bits w 25 24 == 1 && bits w 23 20 == bits w 48 45) Cond.tapmv) := by
  refine runs_given isaTapmv (fun _ _ _ => rfl) fun w free x z hword htap => ?_
  simp only [Bool.and_eq_true, beq_iff_eq] at hword
  exact isaTapmv_of_tapmv hword.1 hword.2 htap

theorem runs_isaAccr : Cond.Runs .isaAccr 3 4 (Cond.given (fun w _ => decide (bits w 31 26 ≤ 47))
    (Cond.unary (fun w x => x.setSat (bits w 52 49)
      ((x.a (bits w 46 45)).map fun z => z.map fun v => roundEvenInt v (2 ^ bits w 31 26))) destV)) :=
  runs_given _ (fun _ _ _ => rfl) fun _ _ _ _ hshift hread =>
    (if_neg (Nat.not_lt.mpr (of_decide_eq_true hshift))).trans (isaUnary_of_unary hread)

/-- Settles O26, instruction by instruction. -/
theorem vectorAndAccumulatorInstructions : Obligations.VectorAndAccumulatorInstructions :=
  ⟨⟨runs_vector fun _ _ _ => rfl, runs_vector fun _ _ _ => rfl, runs_vector fun _ _ _ => rfl, runs_vector fun _ _ _ => rfl,
      runs_vector fun _ _ _ => rfl, runs_vector fun _ _ _ => rfl, runs_vector fun _ _ _ => rfl, runs_isaMaxi, runs_isaMini,
      runs_isaExpb_vector, runs_isaExpb_accumulator, runs_vector fun _ _ _ => rfl⟩,
    runs_vector fun _ _ _ => rfl, runs_vector fun _ _ _ => rfl, runs_isaTapmv, runs_unary fun _ _ _ => rfl, runs_isaAccr,
    runs_unary fun _ _ _ => rfl⟩

/-! ## Branches and loops (R264, R265) -/

theorem happens_isaBr_taken (core : Nat) : Happens (.isaBr · core) (fun a =>
      let x := Cond.issuing core a
      let w := x.word
      Cond.issues core 5 0 a && decide (bits w 43 40 ≤ 6) && isaCond (bits w 43 40) (x.s (bits w 53 49)) (x.s (bits w 48 44)))
    (Eff.isaBr core) := by
  refine happens_of _ (fun _ _ => rfl) fun a h => ?_
  simp only [Bool.and_eq_true, decide_eq_true_eq] at h
  obtain ⟨⟨hissues, hlisted⟩, hholds⟩ := h
  exact State.issue_jump hissues ((if_neg (Nat.not_lt.mpr hlisted)).trans (if_pos hholds))

theorem runs_isaBr_passed : Cond.Runs .isaBr 5 0 (Cond.given (fun w x => decide (bits w 43 40 ≤ 6) &&
    !isaCond (bits w 43 40) (x.s (bits w 53 49)) (x.s (bits w 48 44))) fun _ _ x => some x) := by
  refine runs_given _ (fun _ _ _ => rfl) fun w free x z hword hgoes => ?_
  simp only [Bool.and_eq_true, decide_eq_true_eq] at hword
  obtain ⟨hlisted, hfails⟩ := hword
  exact (if_neg (Nat.not_lt.mpr hlisted)).trans
    ((if_neg (ne_true_of_not hfails)).trans (congrArg IsaOut.next (Option.some.inj hgoes)))

theorem happens_isaJmp (core : Nat) : Happens (.isaJmp · core) (Cond.issues core 5 1) (Eff.isaJmp core) :=
  happens_of _ (fun _ _ => rfl) fun _ h => State.issue_jump h rfl

theorem happens_isaLoop_entered (core n : Nat) : Happens (.isaLoop · core) (fun a =>
      let x := Cond.issuing core a
      Cond.issues core 5 2 a && x.s (bits x.word 53 49) == n + 1 && decide (x.loops.length < 4))
    (Eff.isaLoop core n) := by
  refine happens_of _ (fun _ _ => rfl) fun a h => ?_
  simp only [Bool.and_eq_true, decide_eq_true_eq, beq_iff_eq] at h
  obtain ⟨⟨hissues, hcount⟩, hroom⟩ := h
  refine (State.issue_of_issues _ hissues).trans ?_
  simp only [hcount, if_neg (Nat.not_le.mpr hroom)]

theorem happens_isaLoop_skipped (core : Nat) : Happens (.isaLoop · core)
    (fun a => Cond.issues core 5 2 a && (Cond.issuing core a).s (bits (Cond.issuing core a).word 53 49) == 0)
    (Eff.isaLoop2 core) := by
  refine happens_of _ (fun _ _ => rfl) fun a h => ?_
  simp only [Bool.and_eq_true, beq_iff_eq] at h
  obtain ⟨hissues, hcount⟩ := h
  refine (State.issue_of_issues _ hissues).trans ?_
  simp only [hcount]

/-! ## Blocks and activations (R271, R272) -/

theorem happens_isaWait_stalls (core : Nat) : Happens (.isaWait · core) (fun a =>
      let x := Cond.issuing core a
      Cond.issues core 5 3 a && (maskBits 2 (bits x.word 1 0)).any fun p => (x.port p).slots.isEmpty)
    (fun a => a) := by
  refine happens_of _ (fun _ _ => rfl) fun a h => ?_
  obtain ⟨hissues, hempty⟩ := Bool.and_eq_true_iff.mp h
  exact State.issue_stall hissues (if_pos hempty)

theorem runs_isaWait : Cond.Runs .isaWait 5 3
    (Cond.given (fun w x => !(maskBits 2 (bits w 1 0)).any fun p => (x.port p).slots.isEmpty)
      fun w _ x => some ((maskBits 2 (bits w 1 0)).foldl (fun (x : Core) p =>
        { x with ports := x.ports.set p { x.port p with current := true } }) x)) :=
  runs_given _ (fun _ _ _ => rfl) fun _ _ _ _ hblocks htaken =>
    (if_neg (ne_true_of_not hblocks)).trans (congrArg IsaOut.next (Option.some.inj htaken))

theorem happens_isaYield (core : Nat) : Happens (.isaYield · core) (Cond.issues core 5 4) (Eff.isaYield core) :=
  happens_of _ (fun _ _ => rfl) fun _ h => State.issue_yield h rfl

theorem happens_isaHalt (core : Nat) : Happens (.isaHalt · core) (Cond.issues core 5 8) (Eff.isaHalt core) :=
  happens_of _ (fun _ _ => rfl) fun _ h => State.issue_halt h rfl

/-! ## Records, messages and generators (R265, R274, R275) -/

theorem happens_isaEmit (core : Nat) : Happens (.isaEmit · core)
    (fun a => Cond.issues core 5 5 a && Cond.emits (Cond.issuing core a).word (Cond.issuing core a))
    (Eff.isaEmit core) := by
  refine happens_of _ (fun _ _ => rfl) fun a h => ?_
  simp only [Cond.emits, Bool.and_eq_true, decide_eq_true_eq, beq_iff_eq, bne_iff_ne] at h
  obtain ⟨hissues, ⟨⟨hrecord, hfits⟩, hroom⟩, haligned⟩ := h
  refine State.issue_next hissues ((if_neg ?_).trans (if_neg (not_not_intro haligned)))
  exact not_or.mpr ⟨hrecord, not_or.mpr ⟨Nat.not_lt.mpr hfits, Nat.not_lt.mpr hroom⟩⟩

theorem runs_isaMbox : Cond.Runs .isaMbox 5 6 (Cond.given Cond.posts fun w _ x =>
    some { x with messages := x.messages ++ [x.bytes (x.s (bits w 53 49)) 32] }) := by
  refine runs_given _ (fun _ _ _ => rfl) fun w free x z hposts hqueued => ?_
  simp only [Cond.posts, Bool.and_eq_true, decide_eq_true_eq, beq_iff_eq] at hposts
  obtain ⟨⟨hfits, hroom⟩, haligned⟩ := hposts
  refine (if_neg ?_).trans ((if_neg (not_not_intro haligned)).trans (congrArg IsaOut.next (Option.some.inj hqueued)))
  exact not_or.mpr ⟨Nat.not_lt.mpr hfits, Nat.not_le.mpr hroom⟩

theorem runs_isaSetag : Cond.Runs .isaSetag 5 7 (fun w _ x =>
    let i := bits w 39 37
    let g := x.ags.get i {}
    let v := x.s (bits w 53 49)
    some { x with ags := x.ags.set i (if bits w 36 35 = 0 then { g with base := v } else if bits w 36 35 = 1 then { g with len := v }
      else if bits w 36 35 = 2 then { g with stride := v } else { g with ptr := v }) }) := by
  refine runs_of _ (fun _ _ _ => rfl) fun w free x z h => ?_
  rw [← Option.some.inj h]
  generalize bits w 36 35 = field
  match field with
  | 0 | 1 | 2 => rfl
  | _ + 3 => rfl

/-- Settles O27, instruction by instruction. -/
theorem controlInstructions : Obligations.ControlInstructions :=
  ⟨happens_isaBr_taken, runs_isaBr_passed, happens_isaJmp, happens_isaLoop_entered, happens_isaLoop_skipped,
    happens_isaWait_stalls, runs_isaWait, happens_isaYield, happens_isaEmit, runs_isaMbox, runs_isaSetag, happens_isaHalt,
    runs_of _ (fun _ _ _ => rfl) fun _ _ _ _ h => congrArg IsaOut.next (Option.some.inj h)⟩

end Sys2Proof.Machine

end

section

namespace Sys2Proof.Machine

/-! # A module without power (R545, R578) -/

/-- The firmware update takes one of three forms, and without power none of them does anything. -/
theorem execSecUpdateFirmware_off {s : State} (hp : s.powered = false) (t fn tag : Nat) (image : List Byte)
    (blown : Nat) : execSecUpdateFirmware t fn tag image blown s = .next s := by
  unfold execSecUpdateFirmware
  split
  · split
    · exact congrArg Host.Outcome.next (whenPowered_off hp _ _)
    · exact congrArg Host.Outcome.next (whenPowered_off hp _ _)
  · exact congrArg Host.Outcome.next (whenPowered_off hp _ _)

/-- Settles O57: every row that does not act on an unpowered module is a row of a powered one, so it waits for power. -/
theorem withoutPowerNothingHappens : Obligations.WithoutPowerNothingHappens := by
  intro i s hp hrow
  cases i with
  | feedPresent | feedLost | feedRestored | shutdownNLow | shutdownNRise | powerGood | tapInstructionLoad
  | tapTestLogicReset => cases hrow
  | secUpdateFirmware => exact execSecUpdateFirmware_off hp _ _ _ _ _
  | _ => exact congrArg Host.Outcome.next (whenPowered_off hp _ _)

end Sys2Proof.Machine

end

section

namespace Sys2Proof.Machine

/-! # The PAT verbs -/

/-! ## Segments (R289, R291, R307, R308, R309) -/

/-- A field of one bit, read as its bits. -/
theorem testBit_of_le_one {n : Nat} (h : n ≤ 1) : n.testBit 1 = false ∧ n.testBit 0 = (n == 1) := by
  interval_cases n <;> decide

/-- The ring of a streamed segment is in range, and a held one names none. -/
theorem segRing_inRange {flags ring : Nat}
    (h : (if flags = 1 then decide (4096 ≤ ring) && decide (ring ≤ 1048576) else ring == 0) = true) :
    ¬ (if (flags == 1) = true then ring < 4096 ∨ ring > 1048576 else ring ≠ 0) := by
  by_cases hflags : flags = 1
  · simp only [hflags, if_true, Bool.and_eq_true, decide_eq_true_eq] at h
    simp only [hflags, beq_self_eq_true, if_true]
    omega
  · simp only [if_neg hflags, beq_iff_eq] at h
    simp [hflags, h]

/-- The fields of `PAT.DEFINE_SEGMENT` are in range. -/
theorem Cond.defineSegment_fields {c : Cmd} {a : State} (h : Cond.defineSegment c a = true) :
    let p := c.payload
    ¬ (u8 p 2 > 3 ∨ (!zeros p 3 1) = true ∨ (!zeros p 12 4) = true ∨ (!zeros p 24 8) = true ∨
      ((!(u8 p 2).testBit 1) = true ∧ (u32 p 4 < 64 ∨
        (if (u8 p 2).testBit 0 = true then u32 p 8 < 4096 ∨ u32 p 8 > 1048576 else u32 p 8 ≠ 0) ∨ u64 p 16 % 64 ≠ 0 ∨
        (!a.inRegion (u64 p 16) (u32 p 4 * vectorBytes ((Cond.segWidths c a).headD 0))) = true))) := by
  simp only [Cond.defineSegment, Bool.and_eq_true, decide_eq_true_eq, beq_iff_eq] at h
  obtain ⟨⟨⟨⟨⟨⟨⟨⟨⟨⟨⟨⟨hflags, hz3⟩, hz12⟩, hz24⟩, hlength⟩, hring⟩, haligned⟩, hregion⟩, -⟩, -⟩, -⟩, -⟩, -⟩ := h
  have hshort : u8 c.payload 2 ≤ 3 := hflags.trans (by decide)
  simp only [(testBit_of_le_one hflags).2, segRing_inRange hring, hz3, hz12, hz24, haligned, hregion, Bool.not_true,
    Bool.false_eq_true, ne_eq, not_true_eq_false, or_false, false_or]
  omega

/-- A segment that is not active, of defined sites of one width, gets its PE memory. -/
theorem completes_patDefineSegment :
    Completes .patDefineSegment 0x0A01 Cond.defineSegment Eff.patDefineSegment := by
  refine completes_of patDefineSegment (fun _ _ _ _ => rfl) fun c a h => ?_
  have hfields := Cond.defineSegment_fields h
  simp only [Cond.defineSegment, Bool.and_eq_true, decide_eq_true_eq] at h
  obtain ⟨⟨⟨⟨⟨⟨⟨⟨⟨⟨⟨⟨hflags, -⟩, -⟩, -⟩, -⟩, -⟩, -⟩, -⟩, hready⟩, hidle⟩, hdefined⟩, hwidths⟩, hfits⟩ := h
  obtain ⟨hdefine, hstreamed⟩ := testBit_of_le_one hflags
  refine State.conclude_congr ((if_neg hfields).trans ((if_neg (by simp [hready])).trans
    ((if_neg (ne_true_of_not hidle)).trans ((if_neg (by simp [hdefine])).trans (if_neg ?_))))) ?_
  · rintro (hbad | hbad)
    · exact ne_true_of_not hdefined hbad
    · obtain ⟨w, hw, hne⟩ := List.any_eq_true.mp hbad
      exact bne_iff_ne.mp hne (beq_iff_eq.mp (List.all_eq_true.mp hwidths w hw))
  · cases hpe : Cond.segMemory c a with
    | error d => simp [hpe, Except.isOk, Except.toBool] at hfits
    | ok pe =>
      simp only [Eff.patDefineSegment, hpe, ← hstreamed]
      simp only [Cond.segMemory] at hpe
      simp only [hpe, conclude_done]
      rfl

/-- A segment that is not active is deleted, whether it stood or not. -/
theorem completes_patDefineSegment_delete : Completes .patDefineSegment 0x0A01
    (fun c a => (u8 c.payload 2 == 2 || u8 c.payload 2 == 3) && zeros c.payload 3 1 && zeros c.payload 12 4 &&
      zeros c.payload 24 8 && a.readyBit 18 && !a.segActive (u16 c.payload 0))
    Eff.patDefineSegment2 := by
  refine completes_of patDefineSegment (fun _ _ _ _ => rfl) fun c a h => ?_
  simp only [Bool.and_eq_true, Bool.or_eq_true, beq_iff_eq] at h
  obtain ⟨⟨⟨⟨⟨hflags, hz3⟩, hz12⟩, hz24⟩, hready⟩, hidle⟩ := h
  have hdelete : (u8 c.payload 2).testBit 1 = true := by rcases hflags with h | h <;> rw [h] <;> decide
  have hshort : u8 c.payload 2 ≤ 3 := by omega
  exact State.conclude_congr ((if_neg (by simp [hdelete, hz3, hz12, hz24, hshort])).trans
    ((if_neg (by simp [hready])).trans ((if_neg (ne_true_of_not hidle)).trans (if_pos hdelete)))) (conclude_done ..)

/-- A write that its segment has room for comes to the state in which it is written, and waits there where devices have
still to confirm it. -/
theorem patWriteSegment_met {table : List Byte} {c : Cmd} {a : State} (h : Cond.writeFields c a = true) :
    patWriteSegment table c a =
      if (Cond.written table c a).writeWaits (u16 c.payload 0) = true then
        .running ((Cond.badVector table c a).elim 0 fun k => u32 c.payload 8 + k + 1) []
          ((Cond.written table c a).setSeg (u16 c.payload 0) { a.seg (u16 c.payload 0) with locked := true })
      else (Cond.badVector table c a).elim (.done .ok 0 (Cond.written table c a))
        fun k => .done .badParam (u32 c.payload 8 + k) (Cond.written table c a) := by
  simp only [Cond.writeFields, Bool.and_eq_true, Bool.or_eq_true, decide_eq_true_eq, beq_iff_eq] at h
  obtain ⟨⟨⟨⟨⟨⟨⟨⟨hsource, hz3⟩, hz12⟩, haligned⟩, hready⟩, hhas⟩, hroom⟩, hregion⟩, hidle⟩ := h
  refine (if_neg ?_).trans ((if_neg (by simp [hready])).trans ((if_neg (by simp [hhas])).trans ((if_neg ?_).trans
    ((if_neg (ne_true_of_not hidle)).trans ?_))))
  · simp only [hz3, hz12, Bool.not_true, Bool.false_eq_true, false_or, Bool.not_eq_true', beq_eq_false_iff_ne]
    omega
  · rintro (hbad | ⟨hcellar, hbad⟩)
    · omega
    · rcases hregion with h | h
      · simp [h] at hcellar
      · simp [h] at hbad
  · cases hbad : Cond.badVector table c a with
    | none | some k =>
      simp only [Cond.written, Cond.validVectors, hbad, Option.elim_none, Option.elim_some]
      simp only [Cond.badVector, Cond.newVectors] at hbad
      simp only [Cond.newVectors, beq_iff_eq, hbad]
      rfl

theorem completes_patWriteSegment (table : List Byte) : Completes (.patWriteSegment · · · table) 0x0A02
    (fun c a => Cond.writeFields c a && (Cond.badVector table c a).isNone &&
      !(Cond.written table c a).writeWaits (u16 c.payload 0))
    (Eff.patWriteSegment table) := by
  refine completes_of (patWriteSegment table) (fun _ _ _ _ => rfl) fun c a h => ?_
  simp only [Bool.and_eq_true, Option.isNone_iff_eq_none] at h
  obtain ⟨⟨hok, hgood⟩, hdone⟩ := h
  simp only [patWriteSegment_met hok, if_neg (ne_true_of_not hdone), hgood, Option.elim_none, conclude_done]

theorem completes_patWriteSegment_invalid (table : List Byte) (k : Nat) :
    Completes (.patWriteSegment · · · table) 0x0A02
      (fun c a => Cond.writeFields c a && Cond.badVector table c a == some k &&
        !(Cond.written table c a).writeWaits (u16 c.payload 0))
      (Eff.patWriteSegment2 table k) := by
  refine completes_of (patWriteSegment table) (fun _ _ _ _ => rfl) fun c a h => ?_
  simp only [Bool.and_eq_true, beq_iff_eq] at h
  obtain ⟨⟨hok, hbad⟩, hdone⟩ := h
  simp only [patWriteSegment_met hok, if_neg (ne_true_of_not hdone), hbad, Option.elim_some, conclude_done]

theorem completes_patWriteSegment_waits (table : List Byte) : Completes (.patWriteSegment · · · table) 0x0A02
    (fun c a => Cond.writeFields c a && (Cond.written table c a).writeWaits (u16 c.payload 0))
    (Eff.patWriteSegment3 table) := by
  refine completes_of (patWriteSegment table) (fun _ _ _ _ => rfl) fun c a h => ?_
  obtain ⟨hok, hwaits⟩ := Bool.and_eq_true_iff.mp h
  simp only [patWriteSegment_met hok, if_pos hwaits, conclude_running]

/-- No entry of a table is refused that a test finds good everywhere. -/
theorem firstRefused_of_all {check : List Byte → Option Status} {es : List (List Byte)}
    (h : ∀ e ∈ es, check e = none) (i : Nat) : firstRefused check i es = none := by
  induction es generalizing i with
  | nil => rfl
  | cons e es ih =>
    rw [List.forall_mem_cons] at h
    simp only [firstRefused, h.1, ih h.2]

theorem completes_patLoadTable : Completes .patLoadTable 0x0A03 Cond.loadTable Eff.patLoadTable := by
  refine completes_of patLoadTable (fun _ _ _ _ => rfl) fun c a h => ?_
  simp only [Cond.loadTable, Bool.and_eq_true, decide_eq_true_eq, beq_iff_eq, List.all_eq_true] at h
  obtain ⟨⟨⟨hlength, hz⟩, hmany⟩, hentries⟩ := h
  refine State.conclude_congr ((if_neg (not_not_intro hlength)).trans (if_neg (by simp [hz, hmany]))) ?_
  rw [firstRefused_of_all]
  · exact conclude_done ..
  · intro e he
    obtain ⟨⟨⟨⟨⟨⟨⟨⟨hcond, hz3⟩, hrep⟩, hnext⟩, hz14⟩, hz20⟩, hhas⟩, hpark⟩, hidle⟩ := hentries e he
    refine (if_neg ?_).trans ((if_neg (by simp [hhas])).trans ((if_neg (Nat.not_le.mpr hpark)).trans
      (if_neg (ne_true_of_not hidle))))
    simp only [hz3, hz14, hz20, Bool.not_true, Bool.false_eq_true, false_or, or_false]
    omega

/-! ## Sites and time sets (R287, R310, R312) -/

/-- A site that is free may be defined or given up. -/
theorem Cond.siteFree_mode {n : Nat} {a : State} (h : Cond.siteFree n a = true) :
    ((a.site n).mode == .undefined || (a.site n).mode == .idle || (a.site n).mode == .done ||
      (a.site n).mode == .stopped) = true := h

/-- A site is given up, and what waited for its stop is told. -/
theorem completes_patDefineSite_release : Completes .patDefineSite 0x0A04
    (fun c a => c.payload.length == 8 + 2 * u16 c.payload 2 && u8 c.payload 1 == 1 && zeros c.payload 4 4 &&
      a.readyBit 18 && Cond.siteFree (u8 c.payload 0) a)
    Eff.patDefineSite2 := by
  refine completes_of patDefineSite (fun _ _ _ _ => rfl) fun c a h => ?_
  simp only [Bool.and_eq_true, beq_iff_eq] at h
  obtain ⟨⟨⟨⟨hlength, hrelease⟩, hz⟩, hready⟩, hfree⟩ := h
  exact State.conclude_congr ((if_neg (not_not_intro hlength)).trans ((if_neg (by simp [hrelease, hz])).trans
    ((if_neg (by simp [hready])).trans ((if_neg (by simp [Cond.siteFree_mode hfree])).trans
      (if_pos (by simp [hrelease])))))) (conclude_done ..)

/-- A site gets pins that no other site has, on usable devices. -/
theorem completes_patDefineSite : Completes .patDefineSite 0x0A04 Cond.defineSite Eff.patDefineSite := by
  refine completes_of patDefineSite (fun _ _ _ _ => rfl) fun c a h => ?_
  simp only [Cond.defineSite, Bool.and_eq_true, Bool.or_eq_true, decide_eq_true_eq, beq_iff_eq, bne_iff_ne,
    Option.isNone_iff_eq_none] at h
  obtain ⟨⟨⟨⟨⟨⟨⟨⟨⟨⟨⟨⟨hlength, hdefine⟩, hz⟩, hsome⟩, hmany⟩, hpins⟩, hnew⟩, hdevs⟩, hready⟩, hfree⟩, hother⟩, husable⟩,
    hwidth⟩ := h
  simp only [Cond.newPins] at hpins hnew hdevs hother husable
  refine State.conclude_congr ((if_neg (not_not_intro hlength)).trans ((if_neg ?_).trans
    ((if_neg (by simp [hready])).trans ((if_neg (by simp [Cond.siteFree_mode hfree])).trans
      (if_neg (by simp [hdefine])))))) ?_
  · simp only [hdefine, hz, hnew, ne_true_of_not hpins, Bool.not_true, Bool.false_eq_true, false_or]
    omega
  · simp only [hother, husable]
    refine State.conclude_congr (if_neg ?_) (conclude_done ..)
    rintro ⟨hchanged, hnamed⟩
    exact hwidth.elim hchanged fun hfixed => ne_true_of_not hfixed hnamed

/-- An edge that may be loaded is not beyond 40 ns. -/
theorem Cond.edgeOk_iff {v : Nat} : Cond.edgeOk v = true ↔ ¬ (39999 < v ∧ v ≠ 4294967295) := by
  simp only [Cond.edgeOk, Bool.or_eq_true, decide_eq_true_eq, beq_iff_eq]
  omega

/-- A site that is defined and does not run takes its time sets. -/
theorem completes_patLoadTimesets (table : List Byte) :
    Completes (.patLoadTimesets · · · table) 0x0A09 (Cond.loadTimesets table) (Eff.patLoadTimesets table) := by
  refine completes_of (patLoadTimesets table) (fun _ _ _ _ => rfl) fun c a h => ?_
  simp only [Cond.loadTimesets, Bool.and_eq_true, Bool.or_eq_true, decide_eq_true_eq, beq_iff_eq, bne_iff_ne,
    List.all_eq_true, Cond.edgeOk_iff] at h
  obtain ⟨⟨⟨⟨⟨⟨⟨⟨⟨⟨⟨⟨hfirst, hsome⟩, hend⟩, hsource⟩, hz6⟩, hz16⟩, haddr⟩, hready⟩, hdefined⟩, hlive⟩, hquiet⟩, hpin⟩,
    hedges⟩ := h
  refine State.conclude_congr ((if_neg ?_).trans ((if_neg (by simp [hready])).trans ((if_neg ?_).trans
    ((if_neg (by omega)).trans (if_neg ?_))))) ?_
  · by_cases hcellar : u8 c.payload 3 = 1
    · simp only [hcellar, if_true] at haddr
      simp only [hcellar, haddr, hz6, hz16, beq_self_eq_true, if_true, Bool.not_true, Bool.false_eq_true, or_false]
      omega
    · simp only [if_neg hcellar, beq_iff_eq] at haddr
      simp only [beq_iff_eq, hcellar, if_false, haddr, hz6, hz16, Bool.not_true, Bool.false_eq_true, ne_eq,
        not_true_eq_false, decide_false, or_false]
      omega
  · rintro (hbad | hbad | hbad)
    · exact hdefined hbad
    · exact ne_true_of_not hlive hbad
    · exact hquiet hbad
  · intro hbad
    simp only [beq_iff_eq] at hbad
    obtain ⟨r, hr, hbad⟩ := List.any_eq_true.mp hbad
    obtain ⟨v, hv, hlate⟩ := List.any_eq_true.mp hbad
    obtain ⟨⟨⟨hon, hdata⟩, hoff⟩, hstrobe⟩ := hedges r hr
    simp only [List.mem_cons, List.not_mem_nil, or_false] at hv
    simp only [Bool.and_eq_true, decide_eq_true_eq, bne_iff_ne] at hlate
    rcases hv with rfl | rfl | rfl | rfl
    · exact hon hlate
    · exact hdata hlate
    · exact hoff hlate
    · exact hstrobe hlate
  · simp only [conclude_done, Eff.patLoadTimesets, Cond.newSets, beq_iff_eq]

/-! ## Starts (R291, R293, R297, R302, R305) -/

/-- The sites that start are defined and idle, on usable devices. -/
theorem Cond.patStart_sites {c : Cmd} {a : State}
    (h : ((Cond.sitesNamed c).all fun n => (a.site n).mode != .undefined && !(a.site n).mode.live &&
      (a.site n).mode != .quiescing && (devicesOf (a.site n).pins).all a.peUsable) = true) :
    ¬ ((Cond.sitesNamed c).any fun n => (a.site n).mode == .undefined || (a.site n).mode.live ||
      (a.site n).mode == .quiescing || (devicesOf (a.site n).pins).any fun d => !a.peUsable d) = true := by
  intro hbad
  obtain ⟨n, hn, hbad⟩ := List.any_eq_true.mp hbad
  have hok := List.all_eq_true.mp h n hn
  simp only [Bool.and_eq_true, bne_iff_ne] at hok
  obtain ⟨⟨⟨hdefined, hlive⟩, hquiet⟩, hdevs⟩ := hok
  simp only [Bool.or_eq_true, beq_iff_eq] at hbad
  rcases hbad with ((hbad | hbad) | hbad) | hbad
  · exact hdefined hbad
  · exact ne_true_of_not hlive hbad
  · exact hquiet hbad
  · obtain ⟨d, hd, hbad⟩ := List.any_eq_true.mp hbad
    exact ne_true_of_not hbad (List.all_eq_true.mp hdevs d hd)

/-- No edge of a site that starts lies too late. -/
theorem Cond.patStart_edges {names : List Nat} {vm : Nat} {a : State}
    (h : (names.all fun n => (a.site n).sets.all fun e => !Cond.lateEdge vm e.2.on && !Cond.lateEdge vm e.2.data &&
      !Cond.lateEdge vm e.2.off && !Cond.lateEdge vm e.2.strobe) = true) :
    ¬ (names.any fun n => (a.site n).sets.any fun e => Cond.lateEdge vm e.2.on || Cond.lateEdge vm e.2.data ||
      Cond.lateEdge vm e.2.off || Cond.lateEdge vm e.2.strobe) = true := by
  intro hbad
  obtain ⟨n, hn, hbad⟩ := List.any_eq_true.mp hbad
  obtain ⟨e, he, hbad⟩ := List.any_eq_true.mp hbad
  have hok := List.all_eq_true.mp (List.all_eq_true.mp h n hn) e he
  simp only [Bool.and_eq_true, Bool.not_eq_true'] at hok
  obtain ⟨⟨⟨hon, hdata⟩, hoff⟩, hstrobe⟩ := hok
  simp [hon, hdata, hoff, hstrobe] at hbad

/-- Sites whose allotments and energy fit are admitted, and their declaration stands. -/
theorem Cond.sitesGranted_eq_some {c : Cmd} {a d : State} (h : Cond.sitesGranted c a = some d) :
    ∃ b, a.admitSites (Cond.topFreq c a)
        ((reach a.pat.segs (u16 c.payload 32)).any fun r => (a.seg r).streamed) (Cond.sitesNamed c) = some b ∧
      b.declare ((Cond.sitesNamed c).map Cond.siteDecl) = .ok d := by
  unfold Cond.sitesGranted at h
  cases hb : a.admitSites (Cond.topFreq c a)
      ((reach a.pat.segs (u16 c.payload 32)).any fun r => (a.seg r).streamed) (Cond.sitesNamed c) with
  | none => simp only [hb, reduceCtorEq] at h
  | some b =>
    refine ⟨b, rfl, ?_⟩
    simp only [hb] at h
    cases hd : b.declare ((Cond.sitesNamed c).map Cond.siteDecl) with
    | error short => simp only [hd, reduceCtorEq] at h
    | ok d' => simpa only [hd, Option.some.injEq, Except.ok.injEq] using h

/-- The sites of a start that passes every test take their allotments, load their time sets and send their first order. -/
theorem completes_patStart : Completes .patStart 0x0A05 Cond.patStart Eff.patStart := by
  refine completes_of patStart (fun _ _ _ _ => rfl) fun c a h => ?_
  simp only [Cond.patStart, Bool.and_eq_true, Bool.or_eq_true, decide_eq_true_eq, beq_iff_eq,
    Option.isSome_iff_exists] at h
  obtain ⟨⟨⟨⟨⟨⟨⟨⟨⟨⟨⟨⟨⟨⟨hsome, hwhen⟩, hz35⟩, hz56⟩, hmax⟩, hready⟩, hdeskew⟩, hclock⟩, hsites⟩, w, hstart⟩, hsegs⟩,
    hedges⟩, hfast⟩, hsoon⟩, d, hgranted⟩ := h
  obtain ⟨b, hadmit, hdeclare⟩ := Cond.sitesGranted_eq_some hgranted
  refine State.conclude_congr ((if_neg ?_).trans ((if_neg (by simp [hready])).trans
    ((if_neg (ne_true_of_not hdeskew)).trans (if_neg ?_)))) ?_
  · rintro (hbad | hbad | hbad | hbad | ⟨hnamed, hbad⟩)
    · exact ne_true_of_not hsome hbad
    · exact absurd hwhen (Nat.not_le.mpr hbad)
    · exact ne_true_of_not hbad hz35
    · exact ne_true_of_not hbad hz56
    · rcases hmax with hmax | ⟨hlow, hhigh⟩
      · exact hnamed hmax
      · exact hbad.elim (Nat.not_lt.mpr hlow) (Nat.not_lt.mpr hhigh)
  · rintro (hbad | hbad | hbad)
    · exact ne_true_of_not hbad hclock
    · exact Cond.patStart_sites hsites hbad
    · simp only [Cond.patStartAt] at hstart
      simp [hstart] at hbad
  · split
    next r hfound =>
      have hok := List.all_eq_true.mp hsegs r (List.mem_of_find?_eq_some hfound)
      have hbad := List.find?_some hfound
      cases hseg : a.pat.segs.find r with
      | none => simp [hseg] at hok
      | some g =>
        simp only [hseg, Bool.and_eq_true, Bool.or_eq_true, beq_iff_eq, decide_eq_true_eq] at hok
        obtain ⟨hmember, hlong⟩ := hok
        simp only [Cond.sitesNamed] at hmember
        simp only [Cond.topFreq, Cond.vecMax] at hlong
        simp only [hseg, hmember, Bool.not_true, Bool.false_or, Bool.and_eq_true, bne_iff_ne, decide_eq_true_eq] at hbad
        omega
    next =>
      refine State.conclude_congr (if_neg ?_) ?_
      · rintro (hbad | hbad | hbad)
        · exact Cond.patStart_edges hedges hbad
        · exact absurd hfast (Nat.not_le.mpr hbad)
        · exact ne_true_of_not hsoon hbad
      · simp only [Eff.patStart, hgranted, Option.getD_some]
        simp only [Cond.topFreq, Cond.vecMax, Cond.sitesNamed] at hadmit hdeclare
        simp only [hadmit]
        unfold Cond.siteDecl at hdeclare
        simp only [hdeclare]
        rfl

/-! ## Stops, jumps and results (R303, R306, R311, R313) -/

/-- A stop asks every running site that it names, and then runs, or has nothing left to wait for. -/
theorem patStop_met {vecs : List (Nat × Nat)} {c : Cmd} {a : State} (hwhen : u8 c.payload 32 ≤ 1)
    (hz : zeros c.payload 33 3 = true) :
    patStop vecs c a = if Cond.stillBusy c (Cond.stopping vecs c a) = true then .running 0 [] (Cond.stopping vecs c a)
      else .done .quiesced 0
        ((Cond.sitesNamed c).foldl (fun b n => b.release (actKey kindSite n)) (Cond.stopping vecs c a)) :=
  if_neg (by simp [hwhen, hz])

theorem completes_patStop_running (vecs : List (Nat × Nat)) : Completes (.patStop · · · vecs) 0x0A06
    (fun c a => decide (u8 c.payload 32 ≤ 1) && zeros c.payload 33 3 && Cond.stillBusy c (Cond.stopping vecs c a))
    (Eff.patStop vecs) := by
  refine completes_of (patStop vecs) (fun _ _ _ _ => rfl) fun c a h => ?_
  simp only [Bool.and_eq_true, decide_eq_true_eq] at h
  obtain ⟨⟨hwhen, hz⟩, hbusy⟩ := h
  exact State.conclude_congr ((patStop_met hwhen hz).trans (if_pos hbusy)) (conclude_running ..)

theorem completes_patStop_quiesced (vecs : List (Nat × Nat)) : Completes (.patStop · · · vecs) 0x0A06
    (fun c a => decide (u8 c.payload 32 ≤ 1) && zeros c.payload 33 3 && !Cond.stillBusy c (Cond.stopping vecs c a))
    (Eff.patStop2 vecs) := by
  refine completes_of (patStop vecs) (fun _ _ _ _ => rfl) fun c a h => ?_
  simp only [Bool.and_eq_true, decide_eq_true_eq] at h
  obtain ⟨⟨hwhen, hz⟩, hidle⟩ := h
  exact State.conclude_congr ((patStop_met hwhen hz).trans (if_neg (ne_true_of_not hidle))) (conclude_done ..)

theorem completes_patRequestJump (vecs : List (Nat × Nat)) :
    Completes (.patRequestJump · · · vecs) 0x0A07 (fun c _ => zeros c.payload 34 2) (Eff.patRequestJump vecs) :=
  completes_of (patRequestJump vecs) (fun _ _ _ _ => rfl) fun _ _ h =>
    State.conclude_congr (if_neg (by simp [h])) (conclude_done ..)

@[simp] theorem State.siteStatus_length (a : State) (n index : Nat) : (a.siteStatus n index).length = 64 := by
  simp [State.siteStatus, pack_length]

theorem completes_patGetResult (index : Nat) : Completes (.patGetResult · · · index) 0x0A08
    (fun c _ => zeros c.payload 1 3 && decide (64 ≤ c.room)) (Eff.patGetResult index) := by
  refine completes_of (patGetResult index) (fun _ _ _ _ => rfl) fun c a h => ?_
  simp only [Bool.and_eq_true, decide_eq_true_eq] at h
  obtain ⟨hz, hroom⟩ := h
  exact State.conclude_congr (if_neg (by simp [hz])) (conclude_data (by simpa using hroom) _ _ _)

/-- Settles O28, verb by verb. -/
theorem patVerbsComplete : Obligations.PatVerbsComplete :=
  ⟨completes_patDefineSegment, completes_patDefineSegment_delete, completes_patWriteSegment,
    completes_patWriteSegment_invalid, completes_patWriteSegment_waits, completes_patLoadTable, completes_patDefineSite,
    completes_patDefineSite_release, completes_patLoadTimesets, completes_patStart, completes_patStop_running,
    completes_patStop_quiesced, completes_patRequestJump, completes_patGetResult⟩

end Sys2Proof.Machine

end

section

namespace Sys2Proof.Machine

/-! # The rows of the pattern sites -/

/-! ## Starts and requests (R289, R294, R305) -/

theorem happens_patScheduledStart (site : Nat) (c : Cmd) (rest : List Cmd) :
    Happens (.patScheduledStart · site ()) (Cond.launches site c rest) (Eff.patScheduledStart c) := by
  refine happens_of _ (fun _ _ => rfl) fun a h => ?_
  simp only [Cond.launches, Bool.and_eq_true, beq_iff_eq] at h
  obtain ⟨⟨hwaits, hzeroing⟩, hreached⟩ := h
  simp only [hwaits]
  exact if_pos (Bool.and_eq_true_iff.mpr ⟨hzeroing, hreached⟩)

theorem happens_triggerJumpArrival (site index : Nat) (j : Nat × Nat) :
    Happens (.triggerJumpArrival · site index)
      (fun a => decide (site ≤ 255) && (a.trig.jumps.find? fun j => j.1 == site) == some j)
      (Eff.triggerJumpArrival site index j) := by
  refine happens_of _ (fun _ _ => rfl) fun a h => ?_
  simp only [Bool.and_eq_true, decide_eq_true_eq, beq_iff_eq] at h
  obtain ⟨hsite, hjump⟩ := h
  simp only [hjump]
  exact if_neg (Nat.not_lt.mpr hsite)

theorem happens_siteEventArrival (site : Nat) (launch : Stamp) :
    Happens (.siteEventArrival · site launch) (fun _ => true) (Eff.siteEventArrival site launch) :=
  happens_of _ (fun _ _ => rfl) fun _ _ => rfl

/-! ## Decision points and boundaries (R290, R295, R299) -/

theorem happens_decisionPoint (site : Nat) : Happens (.decisionPoint · site)
    (fun a => (a.site site).mode == .running && (a.site site).play.chosen.isNone) (Eff.decisionPoint site) := by
  refine happens_of _ (fun _ _ => rfl) fun a h => ?_
  simp only [Bool.and_eq_true, beq_iff_eq, Option.isNone_iff_eq_none] at h
  obtain ⟨hmode, hopen⟩ := h
  exact if_neg (by simp [hmode, hopen])

/-- What becomes of site `n` at the end of its iteration, by what it chose: the boundary has one rule for each choice. -/
def State.siteCrosses (n : Nat) (last : Stamp) (ch : PlayChoice) (a : State) : State :=
  match ch with
  | .again => Eff.segmentBoundary n last a
  | .enter u => Eff.segmentBoundary2 n u last a
  | .jump u => Cond.entered n u (.jump u) last a (match ((Cond.atEnd n a).site n).play.jump with
    | some r => (Cond.atEnd n a).event 0x0A03 n (r.detail u)
    | none => Cond.atEnd n a)
  | .finish => Eff.segmentBoundary4 n last a
  | .stop => Eff.segmentBoundary5 n a
  | .locked | .missing => Eff.segmentBoundary6 n a

theorem happens_segmentBoundary (site : Nat) (last : Stamp) (ch : PlayChoice) :
    Happens (.segmentBoundary · site last) (Cond.chose site ch) (State.siteCrosses site last ch) := by
  refine happens_of _ (fun _ _ => rfl) fun a h => ?_
  simp only [Cond.chose, Cond.atEnd, Bool.and_eq_true, beq_iff_eq] at h
  obtain ⟨⟨hmode, hopen⟩, hchosen⟩ := h
  have hruns : ¬ ((a.site site).mode != .running || (a.site site).play.chosen.isNone) = true := by
    rw [hmode, ← Option.not_isSome, hopen]
    decide
  refine (if_neg hruns).trans ?_
  simp only [hchosen]
  cases ch <;> rfl

/-- A jump whose request still stands is reported as it is taken. -/
theorem happens_segmentBoundary_jump (site u : Nat) (last : Stamp) (r : JumpReq) :
    Happens (.segmentBoundary · site last)
      (fun a => Cond.chose site (.jump u) a && ((Cond.atEnd site a).site site).play.jump == some r)
      (Eff.segmentBoundary3 site u last r) := by
  refine (happens_segmentBoundary site last (.jump u)).when fun a h => ?_
  simp only [Bool.and_eq_true, beq_iff_eq] at h
  obtain ⟨hchose, hjump⟩ := h
  simp only [hchose, State.siteCrosses, hjump, and_self]

/-- Where the next segment is locked or missing the site stalls with cause 2. -/
theorem happens_segmentBoundary_stall (site : Nat) (last : Stamp) : Happens (.segmentBoundary · site last)
    (fun a => Cond.chose site .locked a || Cond.chose site .missing a) (Eff.segmentBoundary6 site) := by
  intro s t hp h
  rcases Bool.or_eq_true_iff.mp h with hlocked | hmissing
  · exact happens_segmentBoundary site last .locked s t hp hlocked
  · exact happens_segmentBoundary site last .missing s t hp hmissing

/-! ## Late refills and parks (R298, R303) -/

theorem happens_refillLate (site index device : Nat) : Happens (.refillLate · site index device)
    (fun a => (a.site site).mode == .running && (a.site site).due.isNone &&
      a.refillShort site device (index + (a.site site).play.horizon))
    (Eff.refillLate site index device) :=
  happens_of _ (fun _ _ => rfl) fun _ h => if_pos h

/-- A running site that nothing parks yet is to park H vectors after the one that it launches. -/
theorem State.parkLater_first {a : State} {n index : Nat} {m : SiteMode} (hmode : (a.site n).mode = .running)
    (hdue : (a.site n).due = none) (hpark : (a.site n).play.parkAt = none) :
    a.parkLater n m index =
      let x := a.site n
      let to_ := x.play.base + index + x.play.horizon
      let b := a.setSite n { x with due := some m, play := { x.play with parkAt := some to_ } }
      b.sendPark n to_ (x.play.segAt (b.seg x.play.seg).length to_) := by
  refine (if_neg (by simp [hmode])).trans ?_
  simp only [hdue, hpark]
  rfl

/-- A site whose park vector has come stalls where a refill was late, and otherwise ends. -/
theorem happens_sitePark (site index : Nat) (m : SiteMode) : Happens (.sitePark · site index) (Cond.parksAt site index m)
    (fun a => if m = .stalled then Eff.sitePark site index a else Eff.sitePark2 site index m a) := by
  refine happens_of _ (fun _ _ => rfl) fun a h => ?_
  simp only [Cond.parksAt, Bool.and_eq_true, beq_iff_eq] at h
  obtain ⟨⟨hmode, hdue⟩, hpark⟩ := h
  simp only [hdue]
  exact if_neg (by simp [hmode, hpark])

theorem happens_sitePark_ends (site index : Nat) (m : SiteMode) (hm : m ≠ .stalled) :
    Happens (.sitePark · site index) (Cond.parksAt site index m) (Eff.sitePark2 site index m) :=
  (happens_sitePark site index m).when fun _ h => ⟨h, if_neg hm⟩

/-- Settles O29, row by row. -/
theorem patRows : Obligations.PatRows :=
  ⟨happens_patScheduledStart, happens_triggerJumpArrival, happens_siteEventArrival, happens_decisionPoint,
    fun site last => happens_segmentBoundary site last .again,
    fun site u last => happens_segmentBoundary site last (.enter u), happens_segmentBoundary_jump,
    fun site last => happens_segmentBoundary site last .finish, fun site last => happens_segmentBoundary site last .stop,
    happens_segmentBoundary_stall, happens_refillLate, fun _ _ _ _ => State.parkLater_first,
    fun site index => happens_sitePark site index .stalled, happens_sitePark_ends⟩

end Sys2Proof.Machine

end

section

namespace Sys2Proof.Machine

/-! # Upstream Trellis frames (R294, R319 to R335) -/

/-- A frame acts by what its row says, in whatever form that is given. -/
theorem frame_congr {i : Nat → Nat → List Byte → Instr} {type cls : Nat} {act act' : Nat → List Byte → State → State}
    (hi : ∀ t lane frame s, exec (i t lane frame) s = happens t (fun s => s.onFrame lane type cls frame act) s)
    (hact : ∀ n p s, act n p s = act' n p s) : Cond.FrameActs i type cls act' := by
  obtain rfl : act = act' := funext fun n => funext fun p => funext (hact n p)
  exact frame_of hi

theorem acts_progressFrame : Cond.FrameActs .progressFrame 0x11 0 (fun n p s =>
    let i := u8 p 0
    let x := s.site i
    let d := s.peDev n
    if !x.pins.any fun q => q / 64 == n then s
    else (((s.setPe n { d with
          unlisted := satAdd 64 d.unlisted (u32 p 8 - x.unlisted.get n 0)
          capLost := satAdd 64 d.capLost (u32 p 12 - x.capLost.get n 0) }).setSite i { x with
        complete := x.complete.set n ((x.cycleOf (field p 2 6)).elim 0 fun c => c + 1)
        anyFail := x.anyFail || (u8 p 1).testBit 0,
        unlisted := x.unlisted.set n (u32 p 8), capLost := x.capLost.set n (u32 p 12) }).capHeaders i).siteSettle i) := by
  refine frame_congr (fun _ _ _ _ => rfl) fun n p s => ?_
  dsimp only
  cases (s.site (u8 p 0)).cycleOf (field p 2 6) <;> rfl

/-- Each receipt of a RECEIPT frame: the last test of a write need not ask again whether the channel writes. -/
theorem acts_receiptFrame (vecs : List (Nat × Nat)) :
    Cond.FrameActs (fun t lane frame => .receiptFrame t lane frame vecs) 0x15 0 (fun n p s =>
      ((records 6 8 p).foldl (fun s r =>
        let c := u8 r 0
        let d := s.peDev n
        let old := d.bulk.get c {}
        let b : Bulk := { old with confirmed := field r 2 6, data := old.data.drop (field r 2 6 - old.confirmed) }
        let e := s.setPe n { d with bulk := d.bulk.set c b }
        if !d.bulk.has c then s
        else if (u8 r 1).testBit 0 then e.bulkRewind n c
        else if !b.write then e.refillChannel n c (indexIn vecs b.site)
        else if b.sent ≤ b.confirmed then e.setPe n { d with bulk := d.bulk.del c }
        else e) s).finishWrites) := by
  refine frame_congr (fun _ _ _ _ => rfl) fun n p s => ?_
  refine congrArg (fun f => (List.foldl f s (records 6 8 p)).finishWrites) (funext₂ fun s r => ?_)
  exact ite_congr rfl (fun _ => rfl) fun _ => ite_congr rfl (fun _ => rfl) fun _ => ite_congr rfl (fun _ => rfl)
    fun hwrite => if_congr (and_iff_right (by simpa using hwrite)) rfl rfl

/-- Settles O32, frame by frame: each row is `State.onFrame` with what the frame does. -/
theorem trellisFrames : Obligations.TrellisFrames :=
  ⟨frame_of fun _ _ _ _ => rfl, frame_of fun _ _ _ _ => rfl, fun _ => frame_of fun _ _ _ _ => rfl,
    frame_of fun _ _ _ _ => rfl, frame_of fun _ _ _ _ => rfl, acts_progressFrame, frame_of fun _ _ _ _ => rfl,
    acts_receiptFrame, fun _ => frame_of fun _ _ _ _ => rfl, frame_of fun _ _ _ _ => rfl, frame_of fun _ _ _ _ => rfl⟩

end Sys2Proof.Machine

end

section

namespace Sys2Proof.Machine

/-! # The TRELLIS verbs -/

/-! ## Discovery (R337, R338) -/

/-- A discovery whose energy fits trains what it names, or answers at once where nothing is left to train. -/
theorem trellisDiscover_met {c : Cmd} {a b : State} (h : Cond.discover c a = true)
    (hb : a.declare ((Cond.trainNames c a).map peDecl) = .ok b) :
    trellisDiscover c a = if (Cond.trainNames c a).isEmpty = true then .done .ok a.peMask b
      else .running 0 [] ((Cond.trainNames c a).foldl (fun s n => s.peTrain n) b) := by
  simp only [Cond.discover, Bool.and_eq_true, decide_eq_true_eq] at h
  obtain ⟨⟨⟨hretrain, hz⟩, hidle⟩, -⟩ := h
  refine (if_neg (by simp [hretrain, hz])).trans ((if_neg ?_).trans ?_)
  · intro hbad
    obtain ⟨n, hn, hbad⟩ := List.any_eq_true.mp hbad
    have hok := List.all_eq_true.mp hidle n hn
    simp only [Bool.or_eq_true, Bool.and_eq_true, bne_iff_ne, beq_iff_eq, Bool.not_eq_true'] at hok hbad
    obtain ⟨hup, hserves⟩ := hbad
    obtain ⟨hsites, hbuddy⟩ := hok.resolve_left (not_not_intro hup)
    rcases hserves with hserves | ⟨hcarries, hserves⟩
    · simp [hsites] at hserves
    · rcases hbuddy with h | h
      · simp [hcarries] at h
      · simp [h] at hserves
  · simp only [Cond.trainNames, bne] at hb
    simp only [hb]
    rfl

/-- The energy of a discovery fits. -/
theorem Cond.discover_declares {c : Cmd} {a : State} (h : Cond.discover c a = true) :
    ∃ b, a.declare ((Cond.trainNames c a).map peDecl) = .ok b :=
  State.declare_ok_of_isOk (Bool.and_eq_true_iff.mp h).2

theorem completes_trellisDiscover_none : Completes .trellisDiscover 0x0B01
    (fun c a => Cond.discover c a && (Cond.trainNames c a).isEmpty) Eff.trellisDiscover := by
  refine completes_of trellisDiscover (fun _ _ _ _ => rfl) fun c a h => ?_
  obtain ⟨hok, hnone⟩ := Bool.and_eq_true_iff.mp h
  obtain ⟨b, hb⟩ := Cond.discover_declares hok
  simp only [trellisDiscover_met hok hb, if_pos hnone, conclude_done, Eff.trellisDiscover, hb]

theorem completes_trellisDiscover_some : Completes .trellisDiscover 0x0B01
    (fun c a => Cond.discover c a && !(Cond.trainNames c a).isEmpty) Eff.trellisDiscover2 := by
  refine completes_of trellisDiscover (fun _ _ _ _ => rfl) fun c a h => ?_
  obtain ⟨hok, hsome⟩ := Bool.and_eq_true_iff.mp h
  obtain ⟨b, hb⟩ := Cond.discover_declares hok
  simp only [trellisDiscover_met hok hb, if_neg (ne_true_of_not hsome), conclude_running, Eff.trellisDiscover2, hb]

/-! ## Status (R334, R339) -/

theorem completes_trellisGetStatus : Completes .trellisGetStatus 0x0B02
    (fun c a => decide (u8 c.payload 0 ≤ 63) && u8 c.payload 1 == 0 && zeros c.payload 2 2 &&
      decide ((a.peStatus (u8 c.payload 0) false).length ≤ c.room))
    Eff.trellisGetStatus := by
  refine completes_of trellisGetStatus (fun _ _ _ _ => rfl) fun c a h => ?_
  simp only [Bool.and_eq_true, decide_eq_true_eq, beq_iff_eq] at h
  obtain ⟨⟨⟨hdev, hplain⟩, hz⟩, hroom⟩ := h
  exact State.conclude_congr ((if_neg (by simp [hdev, hplain, hz])).trans (if_pos (by simp [hplain])))
    (conclude_data hroom ..)

/-- A status with COUNTERS, for which there is room, asks the device where it is linked and sites have pins on it. -/
theorem trellisGetStatus_counters {c : Cmd} {a : State} (h : Cond.countersAsked c = true) :
    trellisGetStatus c a =
      if (Cond.sitesWith (u8 c.payload 0) a).isEmpty = true ∨ (!(a.peDev (u8 c.payload 0)).linked) = true then
        .data (a.peStatus (u8 c.payload 0) true) 0 a.drawFree
      else .running (Cond.sitesWith (u8 c.payload 0) a).length []
        ((Cond.sitesWith (u8 c.payload 0) a).foldl (fun s i => s.peSendR (u8 c.payload 0) 0x0B [BitVec.ofNat 8 i]) a) := by
  simp only [Cond.countersAsked, Bool.and_eq_true, decide_eq_true_eq, beq_iff_eq] at h
  obtain ⟨⟨⟨hdev, hcounters⟩, hz⟩, hroom⟩ := h
  exact (if_neg (by simp [hdev, hcounters, hz])).trans ((if_neg (by simp [hcounters])).trans
    (if_neg (Nat.not_lt.mpr hroom)))

theorem completes_trellisGetStatus_counters : Completes .trellisGetStatus 0x0B02
    (fun c a => Cond.countersAsked c &&
      ((Cond.sitesWith (u8 c.payload 0) a).isEmpty || !(a.peDev (u8 c.payload 0)).linked) &&
      decide ((a.peStatus (u8 c.payload 0) true).length ≤ c.room))
    Eff.trellisGetStatus2 := by
  refine completes_of trellisGetStatus (fun _ _ _ _ => rfl) fun c a h => ?_
  simp only [Bool.and_eq_true, Bool.or_eq_true, decide_eq_true_eq] at h
  obtain ⟨⟨hok, hnone⟩, hroom⟩ := h
  exact State.conclude_congr ((trellisGetStatus_counters hok).trans (if_pos hnone)) (conclude_data hroom ..)

theorem completes_trellisGetStatus_asks : Completes .trellisGetStatus 0x0B02
    (fun c a => Cond.countersAsked c && !(Cond.sitesWith (u8 c.payload 0) a).isEmpty && (a.peDev (u8 c.payload 0)).linked)
    Eff.trellisGetStatus3 := by
  refine completes_of trellisGetStatus (fun _ _ _ _ => rfl) fun c a h => ?_
  simp only [Bool.and_eq_true] at h
  obtain ⟨⟨hok, hsites⟩, hlinked⟩ := h
  exact State.conclude_congr ((trellisGetStatus_counters hok).trans
    (if_neg (not_or.mpr ⟨ne_true_of_not hsites, by simp [hlinked]⟩))) (conclude_running ..)

/-! ## Capture (R335, R340) -/

/-- The fields of `TRELLIS.CONFIGURE_CAPTURE` are in range. -/
theorem Cond.configureCapture_fields {c : Cmd} {a : State} (h : Cond.configureCapture c a = true) :
    let p := c.payload
    let k := Cond.captureOf c
    ¬ (k.flags > 7 ∨ (!zeros p 2 2) = true ∨ (!zeros p 40 8) = true ∨ k.capacity > 16777216 ∨ k.failRate > 1000000 ∨
      k.capRate > 1000000 ∨ k.failAt % 64 ≠ 0 ∨ k.capAt % 64 ≠ 0 ∨
      (k.flags.testBit 0 = true ∧ (!a.inRegion k.failAt (64 + 32 * k.capacity)) = true) ∨
      (k.flags.testBit 1 = true ∧ (k.capBytes < 64 ∨ (!a.inRegion k.capAt k.capBytes) = true))) := by
  simp only [Cond.configureCapture, Bool.and_eq_true, Bool.or_eq_true, decide_eq_true_eq, beq_iff_eq] at h
  obtain ⟨⟨⟨⟨⟨⟨⟨⟨⟨⟨⟨⟨hflags, hz2⟩, hz40⟩, hcapacity⟩, hfails⟩, hcaps⟩, hfailAt⟩, hcapAt⟩, hfailFits⟩, hcapFits⟩, -⟩, -⟩, -⟩ := h
  simp only [hz2, hz40, Bool.not_true, Bool.false_eq_true, false_or, not_or]
  refine ⟨by omega, by omega, by omega, by omega, by omega, by omega, ?_, ?_⟩
  · rintro ⟨hon, hbad⟩
    exact hfailFits.elim (fun hoff => ne_true_of_not hoff hon) (ne_true_of_not hbad)
  · rintro ⟨hon, hbad⟩
    obtain ⟨hmin, hregion⟩ := hcapFits.resolve_left fun hoff => ne_true_of_not hoff hon
    exact hbad.elim (Nat.not_lt.mpr hmin) fun hbad => ne_true_of_not hbad hregion

/-- A site that does not run takes its settings, with the allotments that they ask for. -/
theorem completes_trellisConfigureCapture :
    Completes .trellisConfigureCapture 0x0B03 Cond.configureCapture Eff.trellisConfigureCapture := by
  refine completes_of trellisConfigureCapture (fun _ _ _ _ => rfl) fun c a h => ?_
  have hfields := Cond.configureCapture_fields h
  simp only [Cond.configureCapture, Bool.and_eq_true, Bool.or_eq_true, bne_iff_ne] at h
  obtain ⟨⟨⟨-, hlive⟩, hquiet⟩, hfits⟩ := h
  refine State.conclude_congr ((if_neg hfields).trans
    (if_neg (not_or.mpr ⟨ne_true_of_not hlive, hquiet⟩))) ?_
  by_cases hnone : (a.captureDemand (u8 c.payload 0) (Cond.captureOf c)).isEmpty = true
  · simp only [Eff.trellisConfigureCapture, if_pos hnone]
    simp only [Cond.captureOf] at hnone
    simp only [hnone, if_true, conclude_done, Cond.captureOf]
  · obtain ⟨b, hb⟩ := Option.isSome_iff_exists.mp (hfits.resolve_left hnone)
    simp only [Eff.trellisConfigureCapture, if_neg hnone, hb, Option.getD_some]
    simp only [Cond.captureOf] at hnone hb
    simp only [hnone, Bool.false_eq_true, if_false, hb, conclude_done, Cond.captureOf]

/-! ## Pin deskew (R333, R341) -/

/-- The fields of `TRELLIS.DESKEW` ACTION 0 are in range, and the measurement may begin. -/
theorem trellisDeskew_measures {c : Cmd} {a : State} (h : Cond.deskew c a = true) :
    trellisDeskew c a = if (Cond.deskewUnits c a).isEmpty = true then
        .dataIfAsked (a.deskewBytes ((Cond.deskewDevs c a).headD 0)) 0 a
      else .running (Cond.deskewUnits c a).length ((runsOf (Cond.deskewUnits c a) 1).map DeskewRun.device)
        (a.measureAll (runsOf (Cond.deskewUnits c a) 1)) := by
  simp only [Cond.deskew, Bool.and_eq_true, Bool.or_eq_true, decide_eq_true_eq, beq_iff_eq,
    Option.isNone_iff_eq_none] at h
  obtain ⟨⟨⟨⟨⟨⟨⟨⟨haction, hdev⟩, hz⟩, hroom⟩, hfree⟩, hlinked⟩, hclock⟩, hidle⟩, htiu⟩ := h
  simp only [Cond.deskewDevs] at hlinked hidle htiu
  refine (if_neg ?_).trans ((if_neg ?_).trans ((if_neg ?_).trans ((if_neg ?_).trans ((if_pos haction).trans
    ((if_neg ?_).trans ?_)))))
  · simp only [haction, hz, Bool.not_true, Bool.false_eq_true, or_false]
    omega
  · omega
  · simp [ne_true_of_not hfree]
  · intro hbad
    obtain ⟨d, hd, hbad⟩ := List.any_eq_true.mp hbad
    exact ne_true_of_not hbad (List.all_eq_true.mp hlinked d hd)
  · rintro (hbad | hbad)
    · exact ne_true_of_not hbad hclock
    · obtain ⟨d, hd, hbad⟩ := List.any_eq_true.mp hbad
      exact ne_true_of_not hbad (List.all_eq_true.mp hidle d hd)
  · simp only [htiu]
    rfl

theorem completes_trellisDeskew_measures : Completes (fun t fn tag => .trellisDeskew t fn tag ()) 0x0B04
    (fun c a => Cond.deskew c a && !(Cond.deskewUnits c a).isEmpty) Eff.trellisDeskew := by
  refine completes_of trellisDeskew (fun _ _ _ _ => rfl) fun c a h => ?_
  obtain ⟨hok, hsome⟩ := Bool.and_eq_true_iff.mp h
  exact State.conclude_congr ((trellisDeskew_measures hok).trans (if_neg (ne_true_of_not hsome))) (conclude_running ..)

theorem completes_trellisDeskew_none : Completes (fun t fn tag => .trellisDeskew t fn tag ()) 0x0B04
    (fun c a => Cond.deskew c a && (Cond.deskewUnits c a).isEmpty) Eff.trellisDeskew2 := by
  refine completes_of trellisDeskew (fun _ _ _ _ => rfl) fun c a h => ?_
  obtain ⟨hok, hnone⟩ := Bool.and_eq_true_iff.mp h
  exact State.conclude_congr ((trellisDeskew_measures hok).trans (if_pos hnone)) rfl

/-- A route of a linked device is asked for, and the command waits for its acknowledgement. -/
theorem completes_trellisDeskew_route :
    Completes (fun t fn tag => .trellisDeskew t fn tag ()) 0x0B04 Cond.deskewRoute Eff.trellisDeskew3 := by
  refine completes_of trellisDeskew (fun _ _ _ _ => rfl) fun c a h => ?_
  simp only [Cond.deskewRoute, Bool.and_eq_true, Bool.or_eq_true, decide_eq_true_eq, beq_iff_eq] at h
  obtain ⟨⟨⟨haction, hdev⟩, hz⟩, hlinked⟩ := h
  have hroute : u8 c.payload 0 ≠ 0 := by omega
  refine State.conclude_congr ((if_neg ?_).trans ((if_neg (fun hbad => hroute hbad.1)).trans
    ((if_neg (by simp [hroute])).trans ((if_neg ?_).trans (if_neg hroute))))) (conclude_running ..)
  · simp only [hz, Bool.not_true, Bool.false_eq_true, or_false]
    omega
  · have hone : u8 c.payload 1 ≠ 0xFF := by omega
    simp [hone, hlinked]

/-- Settles O30, verb by verb. -/
theorem trellisVerbsComplete : Obligations.TrellisVerbsComplete :=
  ⟨completes_trellisDiscover_none, completes_trellisDiscover_some, completes_trellisGetStatus,
    completes_trellisGetStatus_counters, completes_trellisGetStatus_asks, completes_trellisConfigureCapture,
    completes_trellisDeskew_measures, completes_trellisDeskew_none, completes_trellisDeskew_route⟩

end Sys2Proof.Machine

end

section

namespace Sys2Proof.Machine

/-! # The rows of the Trellis lanes -/

/-! ## Training (R317, R318, R327) -/

theorem happens_codewordBoundaryFound (lane : Nat) (words : List (List Nat × List (Nat × Nat))) (header : Nat)
    (payload : List Byte) (hfound : boundaryFound words = true)
    (hlast : (words.getLast?.bind fun w => lineDecode w.1 w.2) = some (header, payload)) :
    Happens (.codewordBoundaryFound · lane words) (Cond.laneTraining lane)
      (fun a => a.laneUp lane (header.testBit 6)) := by
  refine happens_of _ (fun _ _ => rfl) fun a h => ?_
  simp only [Cond.laneTraining, Bool.and_eq_true, decide_eq_true_eq] at h
  obtain ⟨⟨hlane, htrains⟩, hdown⟩ := h
  simp only [hlast]
  refine if_neg ?_
  simp only [Bool.or_eq_true, decide_eq_true_eq, not_or, Nat.not_lt, gt_iff_lt, hfound]
  exact ⟨⟨⟨hlane, by simpa [Option.isNone_iff_eq_none, Option.isSome_iff_ne_none] using htrains⟩, ne_true_of_not hdown⟩,
    by decide⟩

/-- A lane that trains comes up; with RX_OK its round trip is measured. -/
theorem State.laneUp_training {a : State} {lane : Nat} (rxOk : Bool) (htrains : (a.peDev lane).trainSince.isSome = true)
    (hdown : (a.peDev lane).downUp = false) :
    a.laneUp lane rxOk =
      let b := a.setPe lane { a.peDev lane with upUp := true, downUp := rxOk }
      if rxOk then (List.range 16).foldl (fun s k =>
        s.emitFrame lane (peFrame 0x0C 0 0 (a.peDev lane).ack (leBytes 4 k))) b else b :=
  if_neg (by simp [hdown, Option.isSome_iff_ne_none.mp htrains])

/-! ## Codewords (R318, R321, R322, R330) -/

/-- A lane that has trained for too long gives up, in the form of the row and in that of its effect. -/
theorem State.giveUp_when_overdue (b : State) (n limit : Nat) (since : Option Nat) :
    (match since with
      | some t0 => if t0 + limit ≤ b.now then b.peGiveUp n else b
      | none => b) =
      if (since.any fun t0 => decide (t0 + limit ≤ b.now)) = true then b.peGiveUp n else b := by
  cases since with
  | none => exact (if_neg Bool.false_ne_true).symm
  | some t0 => exact if_congr (by simp only [Option.any_some, decide_eq_true_eq]) rfl rfl

theorem happens_markerCodeword :
    Happens .markerCodeword (fun a => a.now % 32768 == 0 && a.pw.tickRunning) Eff.markerCodeword := by
  refine happens_of _ (fun _ _ => rfl) fun a h => ?_
  simp only [Bool.and_eq_true, beq_iff_eq] at h
  obtain ⟨hgrid, hrunning⟩ := h
  refine (if_neg (by simp [hgrid, hrunning])).trans ?_
  refine congrArg (fun f => ((List.range 64).foldl f a).peResets.finishDiscover.stimBeat) (funext₂ fun s n => ?_)
  have hsend : ∀ {b c : State}, b = c →
      (if b.laneOn n then b.emit (.trellisLine n (lineLevels (b.laneHeader n none) (b.markerPayload n))) else b) =
        if c.laneOn n then c.emit (.trellisLine n (lineLevels (c.laneHeader n none) (c.markerPayload n))) else c :=
    fun h => h ▸ rfl
  exact hsend (State.giveUp_when_overdue _ n _ _)

/-- A lane that exists and is up passes the test at the head of UPSTREAM_CODEWORD. -/
theorem State.upstream_reaches {a : State} {lane : Nat} (h : (decide (lane ≤ 63) && (a.peDev lane).upUp) = true) :
    ¬ (decide (lane > 63) || !(a.peDev lane).upUp) = true := by
  simp only [Bool.and_eq_true, decide_eq_true_eq] at h
  obtain ⟨hlane, hup⟩ := h
  simp [hlane, hup]

theorem happens_upstreamCodeword (lane : Nat) (levels : List Nat) (errors : List (Nat × Nat)) (header : Nat)
    (payload : List Byte) (hdecodes : lineDecode levels errors = some (header, payload)) :
    Happens (.upstreamCodeword · lane levels errors () ()) (fun a => decide (lane ≤ 63) && (a.peDev lane).upUp)
      (Eff.upstreamCodeword lane errors header payload) := by
  refine happens_of _ (fun _ _ => rfl) fun a h => (if_neg (State.upstream_reaches h)).trans ?_
  simp only [hdecodes]

theorem happens_upstreamCodeword_bad (lane : Nat) (levels : List Nat) (errors : List (Nat × Nat))
    (hbad : lineDecode levels errors = none) : Happens (.upstreamCodeword · lane levels errors () ())
      (fun a => decide (lane ≤ 63) && (a.peDev lane).upUp) (Eff.upstreamCodeword2 lane) := by
  refine happens_of _ (fun _ _ => rfl) fun a h => (if_neg (State.upstream_reaches h)).trans ?_
  simp only [hbad]

theorem happens_reliableResendTimeout (n : Nat) : Happens (.reliableResendTimeout · n)
    (fun a => a.laneOn n && (a.peDev n).overdue a.now) (fun a => a.peResend n) :=
  happens_of _ (fun _ _ => rfl) fun _ h => if_pos h

/-! ## Directions that fail (R329, R330, R331) -/

/-- What a direction that fails comes to, by the state of its device. -/
theorem State.laneDown_fails {a : State} {n : Nat} {up : Bool} (h : Cond.dirFails n up a = true) :
    a.laneDown n up false =
      if ((a.peDev n).mode != .up) = true then
        if ((a.peDev n).mode == .rerouted) = true then Cond.downAt n up a else Eff.laneDown n up a
      else if Cond.canReroute n up a = true then Eff.laneDown2 n up a else Eff.laneDown3 n up a := by
  simp only [Cond.dirFails, Bool.and_eq_true, decide_eq_true_eq] at h
  obtain ⟨hlane, hup⟩ := h
  cases up with
  | true =>
    simp only [if_true] at hup
    refine (if_neg (by simp [hlane, hup])).trans ?_
    simp only [Eff.laneDown2, Eff.laneDown3, Eff.laneDown, Cond.canReroute, Cond.laneMasked, Cond.downAt, State.setPe_same]
    rfl
  | false =>
    simp only [Bool.false_eq_true, if_false] at hup
    refine (if_neg (by simp [hlane, hup])).trans ?_
    simp only [Eff.laneDown2, Eff.laneDown3, Eff.laneDown, Cond.canReroute, Cond.laneMasked, Cond.downAt, State.setPe_same]
    rfl

theorem happens_laneDown_rerouted (lane : Nat) (up : Bool) : Happens (.laneDown · lane up)
    (fun a => Cond.dirFails lane up a && (a.peDev lane).mode == .rerouted) (Cond.downAt lane up) := by
  refine happens_of _ (fun _ _ => rfl) fun a h => ?_
  obtain ⟨hfails, hmode⟩ := Bool.and_eq_true_iff.mp h
  refine (State.laneDown_fails hfails).trans ((if_pos ?_).trans (if_pos hmode))
  rw [beq_iff_eq.mp hmode]
  rfl

theorem happens_laneDown_idle (n : Nat) (up : Bool) : Happens (.laneDown · n up)
    (fun a => Cond.dirFails n up a && (a.peDev n).mode != .rerouted && (a.peDev n).mode != .up) (Eff.laneDown n up) := by
  refine happens_of _ (fun _ _ => rfl) fun a h => ?_
  simp only [Bool.and_eq_true] at h
  obtain ⟨⟨hfails, hmode⟩, hup⟩ := h
  exact (State.laneDown_fails hfails).trans ((if_pos hup).trans (if_neg (ne_true_of_not hmode)))

/-- A device that is up fails over, or is lost. -/
theorem State.laneDown_up {a : State} {n : Nat} {up : Bool}
    (h : (Cond.dirFails n up a && (a.peDev n).mode == .up) = true) :
    a.laneDown n up false = if Cond.canReroute n up a = true then Eff.laneDown2 n up a else Eff.laneDown3 n up a := by
  obtain ⟨hfails, hmode⟩ := Bool.and_eq_true_iff.mp h
  exact (State.laneDown_fails hfails).trans (if_neg (by simp [bne, hmode]))

theorem happens_laneDown_rerouting (n : Nat) (up : Bool) : Happens (.laneDown · n up)
    (fun a => Cond.dirFails n up a && (a.peDev n).mode == .up && Cond.canReroute n up a) (Eff.laneDown2 n up) := by
  refine happens_of _ (fun _ _ => rfl) fun a h => ?_
  obtain ⟨hfails, hroute⟩ := Bool.and_eq_true_iff.mp h
  exact (State.laneDown_up hfails).trans (if_pos hroute)

theorem happens_laneDown_lost (n : Nat) (up : Bool) : Happens (.laneDown · n up)
    (fun a => Cond.dirFails n up a && (a.peDev n).mode == .up && !Cond.canReroute n up a) (Eff.laneDown3 n up) := by
  refine happens_of _ (fun _ _ => rfl) fun a h => ?_
  obtain ⟨hfails, hroute⟩ := Bool.and_eq_true_iff.mp h
  exact (State.laneDown_up hfails).trans (if_neg (ne_true_of_not hroute))

/-! ## Devices and side ports that are lost (R330, R331) -/

/-- A device that neither serves nor trains has nothing to lose. -/
theorem State.peLose_absent {a : State} {n cause code : Nat}
    (h : ((a.peDev n).linked || (a.peDev n).mode == .training) = false) : a.peLose n cause code = a :=
  if_pos (by simp only [h, Bool.not_false])

/-- A device that carries no buddy is lost alone. -/
theorem State.peLoseBoth_alone {a : State} {n cause code : Nat} (h : (!a.carrying n) = true) :
    a.peLoseBoth n cause code = a.peLose n cause code :=
  if_neg (ne_true_of_not h)

theorem happens_deviceLost_absent (n : Nat) : Happens (.deviceLost · n)
    (fun a => !(a.peDev n).linked && (a.peDev n).mode != .training && !a.carrying n) (fun a => a) := by
  refine happens_of _ (fun _ _ => rfl) fun a h => ?_
  simp only [Bool.and_eq_true, bne] at h
  obtain ⟨⟨hlinked, htraining⟩, halone⟩ := h
  refine (State.peLoseBoth_alone halone).trans (State.peLose_absent ?_)
  rw [Bool.or_eq_false_iff]
  exact ⟨(Bool.not_eq_true' _).mp hlinked, (Bool.not_eq_true' _).mp htraining⟩

theorem happens_deviceLost_alone (n : Nat) : Happens (.deviceLost · n)
    (fun a => ((a.peDev n).linked || (a.peDev n).mode == .training) && !a.carrying n) (fun a => a.peLose n 1 0) :=
  happens_of _ (fun _ _ => rfl) fun _ h => State.peLoseBoth_alone (Bool.and_eq_true_iff.mp h).2

theorem happens_deviceLost_carrying (n : Nat) :
    Happens (.deviceLost · n) (fun a => a.carrying n) (Eff.deviceLost n) :=
  happens_of _ (fun _ _ => rfl) fun _ h => if_pos h

/-- A side port that works passes the test at the head of SIDE_PORT_FAILURE. -/
theorem Cond.sideWorks_reaches {pair : Nat} {a : State} (h : Cond.sideWorks pair a = true) :
    ¬ (decide (pair > 31) || a.sideDead.contains pair || a.isRetired ⟨10, pair, 4⟩) = true := by
  simp only [Cond.sideWorks, Bool.and_eq_true, decide_eq_true_eq] at h
  obtain ⟨⟨hpair, hworks⟩, hret⟩ := h
  simp only [ne_true_of_not hworks, ne_true_of_not hret, Bool.or_false, decide_eq_true_eq]
  omega

theorem happens_sidePortFailure_unused (pair : Nat) : Happens (.sidePortFailure · pair)
    (fun a => Cond.sideWorks pair a && (Cond.onSide pair a).isEmpty) (Eff.sidePortFailure pair) := by
  refine happens_of _ (fun _ _ => rfl) fun a h => ?_
  obtain ⟨hworks, hnone⟩ := Bool.and_eq_true_iff.mp h
  exact (if_neg (Cond.sideWorks_reaches hworks)).trans (if_pos hnone)

theorem happens_sidePortFailure_used (pair : Nat) : Happens (.sidePortFailure · pair)
    (fun a => Cond.sideWorks pair a && !(Cond.onSide pair a).isEmpty) (Eff.sidePortFailure2 pair) := by
  refine happens_of _ (fun _ _ => rfl) fun a h => ?_
  obtain ⟨hworks, hsome⟩ := Bool.and_eq_true_iff.mp h
  exact (if_neg (Cond.sideWorks_reaches hworks)).trans (if_neg (ne_true_of_not hsome))

/-- Settles O31, row by row. -/
theorem trellisLinkRows : Obligations.TrellisLinkRows :=
  ⟨happens_codewordBoundaryFound, fun _ _ htrains hdown =>
      ⟨State.laneUp_training false htrains hdown, State.laneUp_training true htrains hdown⟩,
    happens_markerCodeword, happens_upstreamCodeword, happens_upstreamCodeword_bad, happens_reliableResendTimeout,
    happens_laneDown_rerouted, happens_laneDown_idle, happens_laneDown_rerouting, happens_laneDown_lost,
    happens_deviceLost_absent, happens_deviceLost_alone, happens_deviceLost_carrying, happens_sidePortFailure_unused,
    happens_sidePortFailure_used⟩

end Sys2Proof.Machine

end

section

namespace Sys2Proof.Machine

/-! # The STIM verbs -/

/-! ## Segments (R345, R346, R353, R354, R355) -/

/-- The ring of a streamed segment is in range, aligned, and filled from a region; a held one names none. -/
theorem Cond.stimRing_inRange {g : Segment} {a : State}
    (h : (if g.streamed then decide (65536 ≤ g.ring) && decide (g.ring ≤ 4194304) && g.ring % 32 == 0 &&
      g.master % 64 == 0 && a.inRegion g.master (2 * g.length) else g.ring == 0) = true) :
    ¬ (if g.streamed then g.ring < 65536 ∨ g.ring > 4194304 ∨ g.ring % 32 ≠ 0 ∨ g.master % 64 ≠ 0 ∨
      (!a.inRegion g.master (2 * g.length)) = true else g.ring ≠ 0) := by
  cases hstreamed : g.streamed with
  | false =>
    simp only [hstreamed, Bool.false_eq_true, if_false, beq_iff_eq] at h
    simp [h]
  | true =>
    simp only [hstreamed, if_true, Bool.and_eq_true, decide_eq_true_eq, beq_iff_eq] at h
    obtain ⟨⟨⟨⟨hlow, hhigh⟩, hring⟩, hmaster⟩, hregion⟩ := h
    simp only [if_true, hregion, Bool.not_true, Bool.false_eq_true, or_false]
    omega

theorem completes_stimDefineSegment : Completes .stimDefineSegment 0x0C01 Cond.stimDefine Eff.stimDefineSegment := by
  refine completes_of stimDefineSegment (fun _ _ _ _ => rfl) fun c a h => ?_
  simp only [Cond.stimDefine, Bool.and_eq_true, decide_eq_true_eq, beq_iff_eq, Option.isNone_iff_eq_none] at h
  obtain ⟨⟨⟨⟨⟨⟨⟨⟨⟨⟨⟨⟨⟨hout, hflags⟩, hseg⟩, hz⟩, hstart⟩, hstart32⟩, hshort⟩, hlong⟩, hlength32⟩, hend⟩, hring⟩, hready⟩,
    hidle⟩, hfree⟩ := h
  have hdefine := (testBit_of_le_one hflags).1
  refine State.conclude_congr ((if_neg ?_).trans ((if_neg (by simp [hready])).trans
    ((if_neg (ne_true_of_not hidle)).trans (if_neg (by simp [hdefine]))))) ?_
  · rintro (hbad | hbad | hbad | hbad | ⟨-, hbad | hbad | hbad | hbad | hbad | hbad | hbad⟩)
    · exact absurd hout (Nat.not_le.mpr hbad)
    · omega
    · exact absurd hseg (Nat.not_le.mpr hbad)
    · exact ne_true_of_not hbad hz
    · exact absurd hstart (Nat.not_le.mpr hbad)
    · exact hbad hstart32
    · exact absurd hshort (Nat.not_le.mpr hbad)
    · exact absurd hlong (Nat.not_le.mpr hbad)
    · exact hbad hlength32
    · exact absurd hend (Nat.not_le.mpr hbad)
    · exact Cond.stimRing_inRange hring hbad
  · simp only [Cond.stimSegment] at hfree
    simp only [hfree]
    exact conclude_done ..

theorem completes_stimDefineSegment_delete : Completes .stimDefineSegment 0x0C01
    (fun c a => decide (u8 c.payload 0 ≤ 1) && (u8 c.payload 1 == 2 || u8 c.payload 1 == 3) && decide (u16 c.payload 2 ≤ 4095) &&
      zeros c.payload 24 8 && a.stimReady (u8 c.payload 0) && !(a.stimOut (u8 c.payload 0)).active (u16 c.payload 2))
    Eff.stimDefineSegment2 := by
  refine completes_of stimDefineSegment (fun _ _ _ _ => rfl) fun c a h => ?_
  simp only [Bool.and_eq_true, Bool.or_eq_true, decide_eq_true_eq, beq_iff_eq] at h
  obtain ⟨⟨⟨⟨⟨hout, hflags⟩, hseg⟩, hz⟩, hready⟩, hidle⟩ := h
  have hdelete : (u8 c.payload 1).testBit 1 = true := by rcases hflags with h | h <;> rw [h] <;> decide
  have hshort : u8 c.payload 1 ≤ 3 := by omega
  exact State.conclude_congr ((if_neg (by simp [hdelete, hout, hseg, hz, hshort])).trans
    ((if_neg (by simp [hready])).trans ((if_neg (ne_true_of_not hidle)).trans (if_pos hdelete)))) (conclude_done ..)

theorem completes_stimWriteSegment (table : List Byte) :
    Completes (.stimWriteSegment · · · table) 0x0C02 Cond.stimWrite (Eff.stimWriteSegment table) := by
  refine completes_of (stimWriteSegment table) (fun _ _ _ _ => rfl) fun c a h => ?_
  simp only [Cond.stimWrite, Bool.and_eq_true, decide_eq_true_eq] at h
  obtain ⟨⟨⟨⟨⟨⟨⟨⟨hsource, hout⟩, hseg⟩, hz⟩, haddr⟩, hready⟩, hhas⟩, hroom⟩, hidle⟩ := h
  refine State.conclude_congr ((if_neg ?_).trans ((if_neg (by simp [hready])).trans ((if_neg (by simp [hhas])).trans
    ((if_neg (Nat.not_lt.mpr hroom)).trans (if_neg (ne_true_of_not hidle)))))) ?_
  · rintro (hbad | hbad | hbad | hbad | hbad)
    · exact absurd hsource (Nat.not_le.mpr hbad)
    · exact absurd hout (Nat.not_le.mpr hbad)
    · exact absurd hseg (Nat.not_le.mpr hbad)
    · exact ne_true_of_not hbad hz
    · by_cases hcellar : u8 c.payload 2 = 1
      · simp only [hcellar, if_true] at haddr
        simp [hcellar, haddr] at hbad
      · simp only [if_neg hcellar, beq_iff_eq] at haddr
        simp [hcellar, haddr] at hbad
  · simp only [Eff.stimWriteSegment, Cond.stimWriting, Cond.stimSamples, beq_iff_eq]
    split <;> rfl

theorem completes_stimLoadTable : Completes .stimLoadTable 0x0C03 Cond.stimTable Eff.stimLoadTable := by
  refine completes_of stimLoadTable (fun _ _ _ _ => rfl) fun c a h => ?_
  simp only [Cond.stimTable, Bool.and_eq_true, decide_eq_true_eq, beq_iff_eq, List.all_eq_true] at h
  obtain ⟨⟨⟨⟨⟨hlength, hout⟩, hz⟩, hmany⟩, hready⟩, hentries⟩ := h
  refine State.conclude_congr ((if_neg (not_not_intro hlength)).trans ((if_neg (by simp [hout, hz, hmany])).trans
    (if_neg (by simp [hready])))) ?_
  rw [firstRefused_of_all]
  · exact conclude_done ..
  · intro e he
    obtain ⟨⟨⟨⟨⟨⟨⟨⟨⟨hseg, hcond⟩, hz3⟩, hrep⟩, hbits⟩, hnext⟩, htarget⟩, hz16⟩, hhas⟩, hidle⟩ := hentries e he
    refine (if_neg ?_).trans ((if_neg (by simp [hhas])).trans (if_neg (ne_true_of_not hidle)))
    simp only [hz3, hz16, hbits, Bool.not_true, Bool.false_eq_true, ne_eq, not_true_eq_false, false_or, or_false]
    omega

/-! ## Starts (R347, R348, R349, R351, R356) -/

theorem completes_stimStart_query : Completes .stimStart 0x0C04
    (fun c a => decide (u8 c.payload 0 ≤ 3) && u8 c.payload 1 == 1 && decide ((a.stimBlock 0 ++ a.stimBlock 1).length ≤ c.room))
    Eff.stimStart := by
  refine completes_of stimStart (fun _ _ _ _ => rfl) fun c a h => ?_
  simp only [Bool.and_eq_true, decide_eq_true_eq, beq_iff_eq] at h
  obtain ⟨⟨hout, hquery⟩, hroom⟩ := h
  exact State.conclude_congr ((if_neg (by simp [hout, hquery])).trans (if_pos hquery)) (conclude_data hroom ..)

/-- Outputs whose allotments and energy fit are admitted, and their declaration stands. -/
theorem Cond.stimGranted_eq_some {c : Cmd} {a d : State} (h : Cond.stimGranted c a = some d) :
    ∃ b, admitStim (Cond.stimSeg c) (Cond.outputs c) a = some b ∧
      b.declare ((Cond.outputs c).map Cond.stimDecl) = .ok d := by
  unfold Cond.stimGranted at h
  cases hb : admitStim (Cond.stimSeg c) (Cond.outputs c) a with
  | none => simp only [hb, reduceCtorEq] at h
  | some b =>
    refine ⟨b, rfl, ?_⟩
    simp only [hb] at h
    cases hd : b.declare ((Cond.outputs c).map Cond.stimDecl) with
    | error short => simp only [hd, reduceCtorEq] at h
    | ok d' => simpa only [hd, Option.some.injEq, Except.ok.injEq] using h

/-- A start that passes every test waits for its tick, or has nothing to wait for. -/
theorem stimStart_met {c : Cmd} {a : State} (h : Cond.stimStart c a = true) :
    stimStart c a = if (Cond.outputs c).isEmpty = true then .done .ok a.now ((Cond.stimGranted c a).getD a)
      else .running 0 []
        ((Cond.outputs c).foldl (fun s o => Cond.stimStarting c o s) ((Cond.stimGranted c a).getD a)) := by
  simp only [Cond.stimStart, Bool.and_eq_true, decide_eq_true_eq, beq_iff_eq, bne_iff_ne, List.all_eq_true,
    Bool.or_eq_true, Option.isNone_iff_eq_none, Option.isSome_iff_exists] at h
  obtain ⟨⟨⟨⟨⟨⟨⟨⟨⟨⟨⟨hout, hstart⟩, hmode⟩, hatten⟩, hatten0⟩, hatten1⟩, houts⟩, hz⟩, g, htick⟩, hsegs⟩, hsoon⟩, d, hgranted⟩ :=
    h
  obtain ⟨b, hadmit, hdeclare⟩ := Cond.stimGranted_eq_some hgranted
  refine (if_neg (by omega)).trans ((if_neg (by omega)).trans ((if_neg ?_).trans ((if_neg ?_).trans
    ((if_neg ?_).trans ?_))))
  · rintro (hbad | hbad | hbad | hbad | hbad | hbad)
    · exact absurd hmode (Nat.not_le.mpr hbad)
    · exact absurd hatten (Nat.not_le.mpr hbad)
    · exact hatten0 hbad
    · exact hatten1 hbad
    · obtain ⟨o, ho, hbad⟩ := List.any_eq_true.mp hbad
      obtain ⟨⟨hseg, -⟩, -⟩ := houts o ho
      exact absurd hseg (Nat.not_le.mpr (of_decide_eq_true hbad))
    · exact ne_true_of_not hbad hz
  · intro hbad
    obtain ⟨o, ho, hbad⟩ := List.any_eq_true.mp hbad
    obtain ⟨⟨-, hready⟩, -⟩ := houts o ho
    exact ne_true_of_not hbad hready
  · rintro (hbad | hbad)
    · obtain ⟨o, ho, hbad⟩ := List.any_eq_true.mp hbad
      obtain ⟨-, hidle⟩ := houts o ho
      simp only [Bool.and_eq_true, bne_iff_ne] at hbad
      exact hidle.elim hbad.1 hbad.2
    · simp only [Cond.stimAt] at htick
      simp [htick] at hbad
  · simp only [Cond.outputs, Cond.stimSeg] at hsegs
    simp only [hsegs]
    refine (if_neg (ne_true_of_not hsoon)).trans ?_
    simp only [hgranted, Option.getD_some]
    unfold Cond.stimSeg at hadmit
    simp only [Cond.outputs] at hadmit hdeclare
    simp only [hadmit]
    unfold Cond.stimDecl at hdeclare
    simp only [hdeclare]
    rfl

theorem completes_stimStart : Completes .stimStart 0x0C04 (fun c a => Cond.stimStart c a && !(Cond.outputs c).isEmpty)
    Eff.stimStart2 := by
  refine completes_of stimStart (fun _ _ _ _ => rfl) fun c a h => ?_
  obtain ⟨hok, hsome⟩ := Bool.and_eq_true_iff.mp h
  exact State.conclude_congr ((stimStart_met hok).trans (if_neg (ne_true_of_not hsome))) (conclude_running ..)

theorem completes_stimStart_none : Completes .stimStart 0x0C04 (fun c a => Cond.stimStart c a && (Cond.outputs c).isEmpty)
    Eff.stimStart3 := by
  refine completes_of stimStart (fun _ _ _ _ => rfl) fun c a h => ?_
  obtain ⟨hok, hnone⟩ := Bool.and_eq_true_iff.mp h
  exact State.conclude_congr ((stimStart_met hok).trans (if_pos hnone)) (conclude_done ..)

/-! ## Stops and jumps (R357, R358) -/

/-- An output that the READY_MAP does not show is not among those named. -/
theorem Cond.outputs_ready {c : Cmd} {a : State} (h : ((Cond.outputs c).all fun o => a.stimReady o) = true) :
    ¬ ((Cond.outputs c).any fun o => !a.stimReady o) = true := by
  simpa using h

/-- A stop reaches its outputs, and runs while one of them is live. -/
theorem stimStop_met {c : Cmd} {a : State} (h : Cond.stimStop c a = true) :
    stimStop c a =
      if ((Cond.outputs c).any fun o => ((Cond.stimStopping c a).stimOut o).mode.live) = true then
        .running 0 [] (Cond.stimStopping c a)
      else .done .quiesced 0 (Cond.stimStopping c a) := by
  simp only [Cond.stimStop, Bool.and_eq_true, decide_eq_true_eq] at h
  obtain ⟨⟨⟨hout, hwhen⟩, hz⟩, hready⟩ := h
  exact (if_neg (by simp [hout, hwhen, hz])).trans (if_neg (Cond.outputs_ready hready))

theorem completes_stimStop_running : Completes .stimStop 0x0C05
    (fun c a => Cond.stimStop c a && (Cond.outputs c).any fun o => ((Cond.stimStopping c a).stimOut o).mode.live)
    Eff.stimStop := by
  refine completes_of stimStop (fun _ _ _ _ => rfl) fun c a h => ?_
  obtain ⟨hok, hlive⟩ := Bool.and_eq_true_iff.mp h
  exact State.conclude_congr ((stimStop_met hok).trans (if_pos hlive)) (conclude_running ..)

theorem completes_stimStop_quiesced : Completes .stimStop 0x0C05
    (fun c a => Cond.stimStop c a && !(Cond.outputs c).any fun o => ((Cond.stimStopping c a).stimOut o).mode.live)
    Eff.stimStop2 := by
  refine completes_of stimStop (fun _ _ _ _ => rfl) fun c a h => ?_
  obtain ⟨hok, hidle⟩ := Bool.and_eq_true_iff.mp h
  exact State.conclude_congr ((stimStop_met hok).trans (if_neg (ne_true_of_not hidle))) (conclude_done ..)

theorem completes_stimRequestJump : Completes .stimRequestJump 0x0C06
    (fun c a => decide (u8 c.payload 0 ≤ 3) && zeros c.payload 1 1 && (Cond.outputs c).all fun o => a.stimReady o)
    Eff.stimRequestJump := by
  refine completes_of stimRequestJump (fun _ _ _ _ => rfl) fun c a h => ?_
  simp only [Bool.and_eq_true, decide_eq_true_eq] at h
  obtain ⟨⟨hout, hz⟩, hready⟩ := h
  exact State.conclude_congr ((if_neg (by simp [hout, hz])).trans (if_neg (Cond.outputs_ready hready)))
    (conclude_done ..)

/-- Settles O33, verb by verb. -/
theorem stimVerbsComplete : Obligations.StimVerbsComplete :=
  ⟨completes_stimDefineSegment, completes_stimDefineSegment_delete, completes_stimWriteSegment, fun _ => rfl,
    completes_stimLoadTable, completes_stimStart_query, completes_stimStart, completes_stimStart_none,
    completes_stimStop_running, completes_stimStop_quiesced, completes_stimRequestJump⟩

end Sys2Proof.Machine

end

section

namespace Sys2Proof.Machine

/-! # The rows of the stimulus outputs -/

/-! ## Starts and requests (R347, R356) -/

theorem happens_stimScheduledStart (o : Nat) (c : Cmd) (rest : List Cmd) : Happens (.stimScheduledStart · o)
    (fun a => (a.startedCmds 0x0C04 fun c => (u8 c.payload 0).testBit o) == c :: rest && a.reached (Cond.stimAt c))
    (Eff.stimScheduledStart c) := by
  refine happens_of _ (fun _ _ => rfl) fun a h => ?_
  simp only [Bool.and_eq_true, beq_iff_eq] at h
  obtain ⟨hcmds, hreached⟩ := h
  simp only [hcmds]
  exact if_pos hreached

theorem happens_stimTriggerJumpArrival (o : Nat) (j : Nat × Nat) : Happens (.stimTriggerJumpArrival · o)
    (fun a => decide (o ≤ 1) && (a.trig.jumps.find? fun j => j.1 == 256 + o) == some j)
    (Eff.stimTriggerJumpArrival o j) := by
  refine happens_of _ (fun _ _ => rfl) fun a h => ?_
  simp only [Bool.and_eq_true, decide_eq_true_eq, beq_iff_eq] at h
  obtain ⟨hout, hjump⟩ := h
  simp only [hjump]
  exact if_neg (Nat.not_lt.mpr hout)

/-! ## Decision points and boundaries (R345, R348, R349, R350) -/

theorem happens_stimDecisionPoint (o : Nat) : Happens (.stimDecisionPoint · o)
    (fun a => (a.stimOut o).mode == .running && (a.stimOut o).play.chosen.isNone &&
      decide ((a.stimOut o).cur.length ≤ a.stimIndex o + 64))
    (Eff.stimDecisionPoint o) := by
  refine happens_of _ (fun _ _ => rfl) fun a h => ?_
  simp only [Bool.and_eq_true, beq_iff_eq, Option.isNone_iff_eq_none, decide_eq_true_eq] at h
  obtain ⟨⟨hmode, hopen⟩, hreached⟩ := h
  exact if_neg (by simp [hmode, hopen, hreached])

/-- What becomes of output `o` at the end of its iteration, by what it chose: the boundary has one rule for each choice. -/
def State.stimCrosses (o : Nat) (ch : PlayChoice) (a : State) : State :=
  match ch with
  | .again => Eff.stimBoundary o a
  | .enter u => Cond.stimEntered o (.enter u) a
  | .jump u => match (a.stimOut o).play.jump with
    | some r => Eff.stimBoundary2 o u r a
    | none => Cond.stimEntered o (.jump u) a
  | .finish => Eff.stimBoundary3 o a
  | .stop => Eff.stimBoundary4 o a
  | .locked => Eff.stimBoundary5 o a
  | .missing => Eff.stimBoundary6 o a

theorem happens_stimBoundary (o : Nat) (ch : PlayChoice) :
    Happens (.stimBoundary · o) (Cond.stimChose o ch) (State.stimCrosses o ch) := by
  refine happens_of _ (fun _ _ => rfl) fun a h => ?_
  have hended : ((a.stimOut o).mode == .running && (a.stimOut o).play.chosen.isSome &&
      decide ((a.stimOut o).cur.length ≤ a.stimIndex o)) = true := by
    simp only [Cond.stimChose, Bool.and_eq_true, beq_iff_eq] at h
    obtain ⟨⟨hmode, hchosen⟩, hreached⟩ := h
    simp only [hmode, hchosen, hreached, beq_self_eq_true, Option.isSome_some, Bool.and_self]
  simp only [Cond.stimChose, Bool.and_eq_true, beq_iff_eq] at h
  obtain ⟨⟨-, hchosen⟩, -⟩ := h
  simp only [hended, if_true]
  simp only [hchosen]
  cases ch with
  | jump u => simp only [State.stimCrosses]; cases (a.stimOut o).play.jump <;> rfl
  | _ => rfl

/-- A jump whose request still stands is reported as it is taken. -/
theorem happens_stimBoundary_jump (o u : Nat) (r : JumpReq) : Happens (.stimBoundary · o)
    (fun a => Cond.stimChose o (.jump u) a && (a.stimOut o).play.jump == some r) (Eff.stimBoundary2 o u r) := by
  refine (happens_stimBoundary o (.jump u)).when fun a h => ?_
  simp only [Bool.and_eq_true, beq_iff_eq] at h
  obtain ⟨hchose, hjump⟩ := h
  simp only [hchose, State.stimCrosses, hjump, and_self]

/-! ## Late refills and parks (R348, R357) -/

theorem happens_stimRefillLate (o : Nat) : Happens (.stimRefillLate · o)
    (fun a => (a.stimOut o).mode == .running && (a.stimOut o).cur.streamed) (Eff.stimRefillLate o) :=
  happens_of _ (fun _ _ => rfl) fun _ h => if_pos h

theorem happens_stimPark (o n : Nat) : Happens (.stimPark · o)
    (fun a => (a.stimOut o).mode == .running && (a.stimOut o).parkAt == some n && decide (n ≤ a.now - (a.stimOut o).start))
    (Eff.stimPark o n) := by
  refine happens_of _ (fun _ _ => rfl) fun a h => ?_
  simp only [Bool.and_eq_true, beq_iff_eq, decide_eq_true_eq] at h
  obtain ⟨⟨hmode, hpark⟩, hreached⟩ := h
  simp only [hpark]
  exact if_pos ⟨hmode, hreached⟩

/-- Settles O34, row by row. -/
theorem stimRows : Obligations.StimRows :=
  ⟨happens_stimScheduledStart, happens_stimTriggerJumpArrival, happens_stimDecisionPoint,
    fun o => happens_stimBoundary o .again, fun o u => happens_stimBoundary o (.enter u), happens_stimBoundary_jump,
    fun o => happens_stimBoundary o .finish, fun o => happens_stimBoundary o .stop, fun o => happens_stimBoundary o .locked,
    fun o => happens_stimBoundary o .missing, happens_stimRefillLate, happens_stimPark⟩

end Sys2Proof.Machine

end

section

namespace Sys2Proof.Machine

/-! # The VINE verbs -/

/-! ## Roles (R361, R364, R365, R366) -/

/-- A module that takes a role which it has, or that has none, and whose energy fits, takes it; a member needs a delay. -/
theorem vineConfigure_met {role : Nat} {c : Cmd} {a b : State} (h : Cond.vineConfigure role c a = true)
    (hrole : role = 1 ∨ role = 2) (hdelay : role = 2 → (Cond.vineDelay c a).isSome = true)
    (hb : a.declare [Cond.vineDecl] = .ok b) :
    vineConfigure c a =
      if role = 1 then
        .running 0 [] (b.setVine { configured := true, role := 1, ref := some (u64 c.payload 8, Cond.vineOrigin c a) })
      else
        let d := b.setVine { configured := true, role := 2, delay := (Cond.vineDelay c a).getD 0 }
        .running (if a.vine.role = 2 then a.vine.delay + 1 else 0) []
          (({ d with ck := { d.ck with ppsQual := false, ppsRun := 0 } } : State).loopUpdate 0) := by
  simp only [Cond.vineConfigure, Bool.and_eq_true, Bool.or_eq_true, beq_iff_eq] at h
  obtain ⟨⟨⟨hasked, hz⟩, hsame⟩, -⟩ := h
  refine (if_neg ?_).trans ((if_neg (by omega)).trans ((if_neg (by omega)).trans ((if_neg ?_).trans ?_)))
  · simp only [hasked, hz, Bool.not_true, Bool.false_eq_true, or_false]
    omega
  · rintro ⟨hmember, hbad⟩
    exact Option.isSome_iff_ne_none.mp (hdelay (hasked.symm.trans hmember)) (Option.isNone_iff_eq_none.mp hbad)
  · unfold Cond.vineDecl at hb
    simp only [hb, hasked]
    rfl

/-- The energy of a configuration fits. -/
theorem Cond.vineConfigure_declares {role : Nat} {c : Cmd} {a : State} (h : Cond.vineConfigure role c a = true) :
    ∃ b, a.declare [Cond.vineDecl] = .ok b :=
  State.declare_ok_of_isOk (Bool.and_eq_true_iff.mp h).2

theorem completes_vineConfigure_master :
    Completes .vineConfigure 0x0D01 (Cond.vineConfigure 1) Eff.vineConfigure := by
  refine completes_of vineConfigure (fun _ _ _ _ => rfl) fun c a h => ?_
  obtain ⟨b, hb⟩ := Cond.vineConfigure_declares h
  rw [vineConfigure_met h (Or.inl rfl) (fun hno => absurd hno (by decide)) hb]
  simp only [if_true, conclude_running, Eff.vineConfigure, hb]

theorem completes_vineConfigure_member (delay : Nat) : Completes .vineConfigure 0x0D01
    (fun c a => Cond.vineConfigure 2 c a && Cond.vineDelay c a == some delay) (Eff.vineConfigure2 delay) := by
  refine completes_of vineConfigure (fun _ _ _ _ => rfl) fun c a h => ?_
  simp only [Bool.and_eq_true, beq_iff_eq] at h
  obtain ⟨hok, hdelay⟩ := h
  obtain ⟨b, hb⟩ := Cond.vineConfigure_declares hok
  rw [vineConfigure_met hok (Or.inr rfl) (fun _ => by simp [hdelay]) hb]
  simp only [hdelay, Option.getD_some, Eff.vineConfigure2, hb]
  rfl

/-- A module may leave the chain whatever its role was. -/
theorem completes_vineConfigure_off : Completes .vineConfigure 0x0D01
    (fun c _ => u8 c.payload 0 == 0 && zeros c.payload 1 7) Eff.vineConfigure3 := by
  refine completes_of vineConfigure (fun _ _ _ _ => rfl) fun c a h => ?_
  simp only [Bool.and_eq_true, beq_iff_eq] at h
  obtain ⟨hoff, hz⟩ := h
  exact State.conclude_congr ((if_neg (by simp [hoff, hz])).trans ((if_neg (by simp [hoff])).trans (if_pos hoff)))
    (conclude_done ..)

/-! ## Calibration, status and the scheduled sync (R367, R368, R369) -/

theorem completes_vineCalibrateSkew : Completes .vineCalibrateSkew 0x0D02
    (fun c a => decide (64 ≤ u16 c.payload 8) && decide (u16 c.payload 8 ≤ 4096) && decide (u8 c.payload 10 ≤ 3) &&
      zeros c.payload 11 5 && decide (a.vine.epoch + 100 ≤ u64 c.payload 0) && a.vine.role != 0)
    Eff.vineCalibrateSkew := by
  refine completes_of vineCalibrateSkew (fun _ _ _ _ => rfl) fun c a h => ?_
  simp only [Bool.and_eq_true, decide_eq_true_eq, bne_iff_ne] at h
  obtain ⟨⟨⟨⟨⟨hfew, hmany⟩, hflags⟩, hz⟩, hstart⟩, hrole⟩ := h
  refine State.conclude_congr ((if_neg ?_).trans (if_neg hrole)) (conclude_running ..)
  simp only [hz, Bool.not_true, Bool.false_eq_true, false_or]
  omega

@[simp] theorem Vine.status_length (v : Vine) : v.status.length = 64 := by
  simp [Vine.status, pack_length]

theorem completes_vineGetStatus :
    Completes .vineGetStatus 0x0D03 (fun c _ => decide (64 ≤ c.room)) Eff.vineGetStatus :=
  completes_of (fun _ s => .data s.vine.status 0 s) (fun _ _ _ _ => rfl) fun _ _ h =>
    conclude_data (by simpa using h) _ _ _

theorem completes_vineScheduleSync : Completes .vineScheduleSync 0x0D04
    (fun c a =>
      let x := Cond.vineSchedule c
      decide (u8 c.payload 16 ≤ 1) && decide (u8 c.payload 17 ≤ 7) && zeros c.payload 18 6 && x.count != 0 && x.period != 0 &&
        decide (x.period ≤ 1000000) && decide (a.vine.epoch + 100 ≤ x.epoch))
    Eff.vineScheduleSync := by
  refine completes_of vineScheduleSync (fun _ _ _ _ => rfl) fun c a h => ?_
  simp only [Cond.vineSchedule, Bool.and_eq_true, decide_eq_true_eq, bne_iff_ne] at h
  obtain ⟨⟨⟨⟨⟨⟨hsend, hcode⟩, hz⟩, hcount⟩, hperiod⟩, hlong⟩, hstart⟩ := h
  refine State.conclude_congr ((if_neg ?_).trans (if_neg hcount)) (conclude_done ..)
  rintro (hbad | hbad | hbad | ⟨-, hbad | hbad | hbad⟩)
  · exact absurd hsend (Nat.not_le.mpr hbad)
  · exact absurd hcode (Nat.not_le.mpr hbad)
  · exact ne_true_of_not hbad hz
  · exact hperiod hbad
  · exact absurd (of_decide_eq_true hlong) (Nat.not_le.mpr hbad)
  · exact absurd (of_decide_eq_true hstart) (Nat.not_le.mpr hbad)

/-- A schedule of no occurrences ends the one there is. -/
theorem completes_vineScheduleSync_none : Completes .vineScheduleSync 0x0D04
    (fun c _ => decide (u8 c.payload 16 ≤ 1) && decide (u8 c.payload 17 ≤ 7) && zeros c.payload 18 6 && u32 c.payload 12 == 0)
    Eff.vineScheduleSync2 := by
  refine completes_of vineScheduleSync (fun _ _ _ _ => rfl) fun c a h => ?_
  simp only [Bool.and_eq_true, decide_eq_true_eq, beq_iff_eq] at h
  obtain ⟨⟨⟨hsend, hcode⟩, hz⟩, hcount⟩ := h
  exact State.conclude_congr ((if_neg (by simp [hsend, hcode, hz, hcount])).trans (if_pos hcount)) (conclude_done ..)

/-- Settles O35, verb by verb. -/
theorem vineVerbsComplete : Obligations.VineVerbsComplete :=
  ⟨completes_vineConfigure_master, completes_vineConfigure_member, completes_vineConfigure_off,
    completes_vineCalibrateSkew, completes_vineGetStatus, completes_vineScheduleSync, completes_vineScheduleSync_none⟩

end Sys2Proof.Machine

end

section

namespace Sys2Proof.Machine

/-! # The rows of the Vine chain -/

/-! ## Epoch edges and frames that leave (R360, R361, R362) -/

theorem happens_epochEdge (e tick : Nat) : Happens .epochEdge (Cond.epochDue e tick) (Eff.epochEdge e tick) := by
  refine happens_of _ (fun _ _ => rfl) fun a h => ?_
  simp only [Cond.epochDue, Bool.and_eq_true, beq_iff_eq, bne_iff_ne, decide_eq_true_eq] at h
  obtain ⟨⟨href, hrole⟩, hreached⟩ := h
  simp only [href]
  exact if_neg (by simp [hrole, hreached])

theorem happens_vineEventSend (f : VineFrame) (rest : List VineFrame) : Happens .vineEventSend
    (fun a => a.vine.queue == f :: rest && !a.vine.sending && a.vineMaySend) (Eff.vineEventSend f rest) := by
  refine happens_of _ (fun _ _ => rfl) fun a h => ?_
  simp only [Bool.and_eq_true, beq_iff_eq, Bool.not_eq_true'] at h
  obtain ⟨⟨hqueue, hsending⟩, hmay⟩ := h
  simp only [hqueue]
  exact if_neg (by simp [hsending, hmay])

/-! ## Events and delays that arrive (R360, R362, R363) -/

theorem happens_vineEventFrameReceived (payload crc e tick : Nat) : Happens (.vineEventFrameReceived · payload crc)
    (fun a => a.vine.role == 2 && Cond.crcGood 46 payload crc && a.vine.ref == some (e, tick))
    (Eff.vineEventFrameReceived payload e tick) := by
  refine happens_of _ (fun _ _ => rfl) fun a h => ?_
  simp only [Cond.crcGood, Bool.and_eq_true, beq_iff_eq] at h
  obtain ⟨⟨hmember, hcrc⟩, href⟩ := h
  refine (if_neg (not_not_intro hmember)).trans ((if_neg (not_not_intro hcrc)).trans ?_)
  simp only [href]

theorem happens_vineEventFrameReceived_bad (payload crc : Nat) : Happens (.vineEventFrameReceived · payload crc)
    (fun a => a.vine.role == 2 && !Cond.crcGood 46 payload crc) Cond.badCrc := by
  refine happens_of _ (fun _ _ => rfl) fun a h => ?_
  simp only [Cond.crcGood, Bool.and_eq_true, beq_iff_eq, Bool.not_eq_true', beq_eq_false_iff_ne] at h
  obtain ⟨hmember, hcrc⟩ := h
  exact (if_neg (not_not_intro hmember)).trans (if_pos hcrc)

theorem happens_delayFrameReceived (delay crc : Nat) : Happens (.delayFrameReceived · delay crc)
    (fun a => a.vine.role == 2 && Cond.crcGood 48 delay crc) (Eff.delayFrameReceived delay) := by
  refine happens_of _ (fun _ _ => rfl) fun a h => ?_
  simp only [Cond.crcGood, Bool.and_eq_true, beq_iff_eq] at h
  obtain ⟨hmember, hcrc⟩ := h
  exact (if_neg (not_not_intro hmember)).trans (if_neg (not_not_intro hcrc))

theorem happens_delayFrameReceived_bad (delay crc : Nat) : Happens (.delayFrameReceived · delay crc)
    (fun a => a.vine.role == 2 && !Cond.crcGood 48 delay crc) Cond.badCrc := by
  refine happens_of _ (fun _ _ => rfl) fun a h => ?_
  simp only [Cond.crcGood, Bool.and_eq_true, beq_iff_eq, Bool.not_eq_true', beq_eq_false_iff_ne] at h
  obtain ⟨hmember, hcrc⟩ := h
  exact (if_neg (not_not_intro hmember)).trans (if_pos hcrc)

/-! ## Epochs that arrive (R361) -/

/-- What a member does at an EPOCH frame numbered `n` whose CRC-8 is right, by the epoch that it expects. -/
def State.takesEpoch (n : Nat) (arrival : Stamp) (a : State) : State :=
  match a.expectedEpoch (a.full arrival) with
  | none => a.vineEpoch n (a.full arrival)
  | some e =>
    if n = e then Eff.epochFrameReceived n arrival a
    else if a.vine.wrong < 2 then Eff.epochFrameReceived2 e arrival a
    else Eff.epochFrameReceived3 n e arrival a

theorem happens_epochFrameReceived {n crc : Nat} (arrival : Stamp) (hn : n < 2 ^ 64) (hcrc : crc = vineCrc 64 n) :
    Happens (.epochFrameReceived · n crc arrival) (fun a => a.vine.role == 2) (State.takesEpoch n arrival) := by
  refine happens_of _ (fun _ _ => rfl) fun a h => (if_neg (not_not_intro (beq_iff_eq.mp h))).trans ?_
  simp only [Nat.mod_eq_of_lt hn, hcrc, beq_self_eq_true, if_true, Bool.not_true, Bool.false_eq_true, if_false]
  rfl

/-- The four answers to an EPOCH frame whose CRC-8 is right. -/
theorem happens_epochFrameReceived_good {n e crc : Nat} (arrival : Stamp) (hn : n < 2 ^ 64) (hcrc : crc = vineCrc 64 n) :
    Happens (.epochFrameReceived · n crc arrival) (fun a => Cond.expected e arrival a && n == e)
      (Eff.epochFrameReceived n arrival) ∧
    Happens (.epochFrameReceived · n crc arrival)
      (fun a => Cond.expected e arrival a && n != e && decide (a.vine.wrong < 2)) (Eff.epochFrameReceived2 e arrival) ∧
    Happens (.epochFrameReceived · n crc arrival)
      (fun a => Cond.expected e arrival a && n != e && decide (2 ≤ a.vine.wrong)) (Eff.epochFrameReceived3 n e arrival) ∧
    Happens (.epochFrameReceived · n crc arrival)
      (fun a => a.vine.role == 2 && (a.expectedEpoch (a.full arrival)).isNone)
      (fun a => a.vineEpoch n (a.full arrival)) := by
  have htakes := happens_epochFrameReceived arrival hn hcrc
  refine ⟨htakes.when fun a h => ?_, htakes.when fun a h => ?_, htakes.when fun a h => ?_, htakes.when fun a h => ?_⟩
  · simp only [Cond.expected, Bool.and_eq_true, beq_iff_eq] at h
    obtain ⟨⟨hmember, hexpected⟩, hnumber⟩ := h
    simp only [State.takesEpoch, hexpected, if_pos hnumber, hmember, beq_self_eq_true, and_self]
  · simp only [Cond.expected, Bool.and_eq_true, beq_iff_eq, bne_iff_ne, decide_eq_true_eq] at h
    obtain ⟨⟨⟨hmember, hexpected⟩, hnumber⟩, hwrong⟩ := h
    simp only [State.takesEpoch, hexpected, if_neg hnumber, if_pos hwrong, hmember, beq_self_eq_true, and_self]
  · simp only [Cond.expected, Bool.and_eq_true, beq_iff_eq, bne_iff_ne, decide_eq_true_eq] at h
    obtain ⟨⟨⟨hmember, hexpected⟩, hnumber⟩, hwrong⟩ := h
    simp only [State.takesEpoch, hexpected, if_neg hnumber, if_neg (Nat.not_lt.mpr hwrong), hmember,
      beq_self_eq_true, and_self]
  · simp only [Bool.and_eq_true, beq_iff_eq, Option.isNone_iff_eq_none] at h
    obtain ⟨hmember, hexpected⟩ := h
    simp only [State.takesEpoch, hexpected, hmember, beq_self_eq_true, and_self]

/-- An EPOCH frame with a wrong CRC-8 is counted and taken as the epoch expected. -/
theorem happens_epochFrameReceived_bad {n e crc : Nat} (arrival : Stamp) (hn : n < 2 ^ 64) (hcrc : crc ≠ vineCrc 64 n) :
    Happens (.epochFrameReceived · n crc arrival) (fun a => Cond.expected e arrival (Cond.badCrc a))
      (Eff.epochFrameReceived4 e arrival) := by
  refine happens_of _ (fun _ _ => rfl) fun a h => ?_
  simp only [Cond.expected, Bool.and_eq_true, beq_iff_eq] at h
  obtain ⟨hmember, hexpected⟩ := h
  refine (if_neg (not_not_intro hmember)).trans ?_
  have hwrong : (crc == vineCrc 64 n) = false := beq_eq_false_iff_ne.mpr hcrc
  simp only [Nat.mod_eq_of_lt hn, hwrong, Bool.false_eq_true, if_false, Bool.not_false, if_true]
  change (match (Cond.badCrc a).expectedEpoch ((Cond.badCrc a).full arrival) with | none => _ | some e => _) = _
  rw [hexpected]
  rfl

/-! ## Echo pulses (R363) -/

theorem happens_echoPulseSend (st : Stamp) (k : VineCal) : Happens (.echoPulseSend · st)
    (fun a => a.vine.cal == some k && k.measure && decide (k.start ≤ a.vine.epoch) &&
      decide (a.vine.epoch < k.start + k.echoes))
    (Eff.echoPulseSend st k) := by
  refine happens_of _ (fun _ _ => rfl) fun a h => ?_
  simp only [Bool.and_eq_true, beq_iff_eq, decide_eq_true_eq] at h
  obtain ⟨⟨⟨hcal, hmeasure⟩, hbegun⟩, hopen⟩ := h
  simp only [hcal]
  exact if_pos (by simp [hmeasure, hbegun, hopen])

/-- An echo that returns is summed, and the last one ends the exchange. -/
theorem happens_echoPulseReturn (st : Stamp) (k : VineCal) (s0 : Nat) : Happens (.echoPulseReturn · st)
    (fun a => a.vine.cal == some k && k.sent == some s0)
    (fun a => if k.count + 1 = k.echoes then Eff.echoPulseReturn2 st k s0 a else Eff.echoPulseReturn st k s0 a) := by
  refine happens_of _ (fun _ _ => rfl) fun a h => ?_
  simp only [Bool.and_eq_true, beq_iff_eq] at h
  obtain ⟨hcal, hsent⟩ := h
  simp only [hcal, hsent]

theorem happens_echoPulseReturn_more (st : Stamp) (k : VineCal) (s0 : Nat) : Happens (.echoPulseReturn · st)
    (fun a => a.vine.cal == some k && k.sent == some s0 && k.count + 1 != k.echoes) (Eff.echoPulseReturn st k s0) := by
  refine (happens_echoPulseReturn st k s0).when fun a h => ?_
  obtain ⟨hsent, hmore⟩ := Bool.and_eq_true_iff.mp h
  exact ⟨hsent, if_neg (bne_iff_ne.mp hmore)⟩

theorem happens_echoPulseReturn_last (st : Stamp) (k : VineCal) (s0 : Nat) : Happens (.echoPulseReturn · st)
    (fun a => a.vine.cal == some k && k.sent == some s0 && k.count + 1 == k.echoes) (Eff.echoPulseReturn2 st k s0) := by
  refine (happens_echoPulseReturn st k s0).when fun a h => ?_
  obtain ⟨hsent, hlast⟩ := Bool.and_eq_true_iff.mp h
  exact ⟨hsent, if_pos (beq_iff_eq.mp hlast)⟩

theorem happens_echoTurnaround (k : VineCal) :
    Happens .echoTurnaround (fun a => a.vine.cal == some k && k.echoIn) (fun a => a.emit (.vineTx 4 [])) := by
  refine happens_of _ (fun _ _ => rfl) fun a h => ?_
  simp only [Bool.and_eq_true, beq_iff_eq] at h
  obtain ⟨hcal, hecho⟩ := h
  simp only [hcal]
  exact if_pos hecho

/-! ## Neighbours (R364) -/

theorem happens_vineNeighbourLost (cause : Nat) :
    Happens (.vineNeighbourLost · cause) (Cond.losable cause) (Eff.vineNeighbourLost cause) := by
  refine happens_of _ (fun _ _ => rfl) fun a h => if_neg ?_
  simp only [Cond.losable, Bool.and_eq_true, Bool.or_eq_true, beq_iff_eq, Bool.not_eq_true'] at h
  obtain ⟨⟨hmember, hcause⟩, hthere⟩ := h
  have hnamed : (cause == 1 || cause == 2) = true := by simpa using hcause
  simp only [hmember, hnamed, Bool.not_true, Bool.or_false, ne_eq, not_true_eq_false, decide_false, Bool.false_or,
    Bool.and_eq_true, Bool.not_eq_true', not_and]
  intro hholdover
  rcases hthere with h | h
  · simp [h] at hholdover
  · simp [h]

theorem happens_vineSignalsReturn (phase : Int) : Happens (.vineSignalsReturn · phase)
    (fun a => a.vine.role == 2 && a.vine.holdover) (Eff.vineSignalsReturn phase) := by
  refine happens_of _ (fun _ _ => rfl) fun a h => ?_
  simp only [Bool.and_eq_true, beq_iff_eq] at h
  obtain ⟨hmember, hholdover⟩ := h
  exact if_neg (by simp [hmember, hholdover])

/-- Settles O36, row by row. -/
theorem vineRows : Obligations.VineRows :=
  ⟨happens_epochEdge, happens_of _ (fun _ _ => rfl) fun _ _ => rfl, happens_vineEventSend, happens_vineEventFrameReceived,
    happens_vineEventFrameReceived_bad, happens_delayFrameReceived, happens_delayFrameReceived_bad,
    fun _ _ _ => happens_epochFrameReceived_good, fun _ _ _ => happens_epochFrameReceived_bad, happens_echoPulseSend,
    happens_echoPulseReturn_more, happens_echoPulseReturn_last, happens_echoTurnaround, happens_vineNeighbourLost,
    happens_vineSignalsReturn⟩

end Sys2Proof.Machine

end

section

namespace Sys2Proof.Machine

/-! # The TIU verbs -/

/-! ## Settings (R388) -/

/-- The settings of `TIU.CONFIGURE_CHANNEL` are in range. -/
theorem Cond.tiuConfigure_fields {c : Cmd} {a : State} (h : Cond.tiuConfigure c a = true) :
    let p := c.payload
    let n := u8 p 0
    let g := tiuCfgOf p
    ¬ (n > 63 ∨ g.source > 1 ∨ g.comparator > 15 ∨ g.power > 1 ∨ g.high > 16383 ∨ g.low > 16383 ∨ g.hyst > 40 ∨
      g.term > 1 ∨ g.vtt > 2000 ∨ g.function > 6 ∨ g.edges = 0 ∨ g.edges > 15 ∨ g.edgeA > 3 ∨ g.edgeB > 3 ∨
      g.other > 63 ∨ u8 p 17 > 1 ∨ u8 p 18 > 1 ∨ (!zeros p 19 1) = true ∨ (u32 p 20 > 49151 ∧ g.flow.isSome = true) ∨
      g.n = 0 ∨ g.n > 1099511627776 ∨ g.rate > 250000 ∨ (g.function = 3 ∧ g.gate = 0) ∨
      (g.function = 6 ∧ g.nominal = 0) ∨ (!zeros p 56 8) = true ∨ (!g.edges.testBit g.edgeA) = true) := by
  simp only [Cond.tiuConfigure, Bool.and_eq_true, Bool.or_eq_true, decide_eq_true_eq, bne_iff_ne] at h
  obtain ⟨⟨⟨⟨⟨⟨⟨⟨⟨⟨⟨⟨⟨⟨⟨⟨⟨⟨⟨⟨⟨⟨⟨⟨⟨⟨⟨⟨⟨hchan, hsource⟩, hcomp⟩, hpower⟩, hhigh⟩, hlow⟩, hhyst⟩, hterm⟩, hvtt⟩, hfunction⟩,
    hsome⟩, hedges⟩, hedgeA⟩, hedgeB⟩, hother⟩, hrep⟩, hevents⟩, hz19⟩, hflow⟩, hblock⟩, hlong⟩, hrate⟩, hgate⟩, hnominal⟩,
    hz56⟩, hstamps⟩, -⟩, -⟩, -⟩, -⟩ := h
  have hvalid : ¬ (u32 c.payload 20 > 49151 ∧ (tiuCfgOf c.payload).flow.isSome = true) := by
    rintro ⟨hbeyond, hgiven⟩
    rcases hflow with h | h
    · omega
    · exact absurd (Option.isNone_iff_eq_none.mp h) (Option.isSome_iff_ne_none.mp hgiven)
  simp only [hz19, hz56, hstamps, hvalid, Bool.not_true, Bool.false_eq_true, or_false, false_or]
  omega

theorem completes_tiuConfigureChannel :
    Completes .tiuConfigureChannel 0x0E01 Cond.tiuConfigure Eff.tiuConfigureChannel := by
  refine completes_of tiuConfigure (fun _ _ _ _ => rfl) fun c a h => ?_
  have hfields := Cond.tiuConfigure_fields h
  simp only [Cond.tiuConfigure, Bool.and_eq_true, bne_iff_ne] at h
  obtain ⟨⟨⟨⟨-, hfree⟩, hrunning⟩, hstarting⟩, hquiescing⟩ := h
  exact State.conclude_congr ((if_neg hfields).trans ((if_neg (ne_true_of_not hfree)).trans
    (if_neg (by simp [hrunning, hstarting, hquiescing])))) (conclude_done ..)

/-! ## Starts (R382, R385, R389) -/

/-- A declaration that answers a state has succeeded with it. -/
theorem State.eq_ok_of_toOption {r : Except Nat State} {b : State} (h : r.toOption = some b) : r = .ok b := by
  cases r with
  | error short => simp [Except.toOption] at h
  | ok d => exact congrArg Except.ok (Option.some.inj h)

/-- Channels whose flows and energy fit are admitted, and their declaration stands. -/
theorem Cond.tiuAdmitted_eq_some {ns : List Nat} {a d : State} (h : Cond.tiuAdmitted ns a = some d) :
    ∃ b, admitTiu ns a = some b ∧
      b.declare (ns.map fun n => { fam := 0x0E, obj := n, group := n / 16, first := 600000, each := 100000 }) = .ok d := by
  unfold Cond.tiuAdmitted at h
  cases hb : admitTiu ns a with
  | none => simp only [hb, reduceCtorEq] at h
  | some b =>
    simp only [hb] at h
    exact ⟨b, rfl, State.eq_ok_of_toOption h⟩

theorem completes_tiuStart : Completes .tiuStart 0x0E02 Cond.tiuStart Eff.tiuStart := by
  refine completes_of tiuStart (fun _ _ _ _ => rfl) fun c a h => ?_
  simp only [Cond.tiuStart, Bool.and_eq_true, decide_eq_true_eq, Option.isSome_iff_exists] at h
  obtain ⟨⟨⟨⟨⟨⟨⟨⟨⟨hnames, hmode⟩, hz⟩, hsoon⟩, hfree⟩, hconfigured⟩, hpartners⟩, w, htick⟩, hrates⟩, d, hgranted⟩ := h
  obtain ⟨b, hadmit, hdeclare⟩ := Cond.tiuAdmitted_eq_some hgranted
  refine State.conclude_congr ((if_neg ?_).trans ((if_neg (ne_true_of_not hfree)).trans ((if_neg ?_).trans
    (if_neg (Nat.not_lt.mpr hrates))))) ?_
  · rintro (hbad | hbad | hbad | hbad)
    · exact ne_true_of_not hnames hbad
    · exact absurd hmode (Nat.not_le.mpr hbad)
    · exact ne_true_of_not hbad hz
    · exact ne_true_of_not hsoon hbad
  · rintro (hbad | hbad | hbad)
    · exact ne_true_of_not hconfigured hbad
    · exact ne_true_of_not hpartners hbad
    · simp [htick] at hbad
  · simp only [Eff.tiuStart, hgranted, Option.getD_some]
    simp only [Cond.tiuNew] at hadmit hdeclare
    simp only [hadmit, hdeclare]
    rfl

/-! ## Stops (R386, R390) -/

/-- A stop of channels that nothing consumes brings them to rest, or waits for those that keep blocks to latch. -/
theorem tiuStop_met {c : Cmd} {a : State} (h : Cond.tiuStop c a = true) :
    tiuStop c a = if (Cond.tiuBusy c a).isEmpty = true then .done .quiesced 0 (Cond.tiuStopped c a)
      else .running 0 (Cond.tiuBusy c a) (Cond.tiuStopped c a) := by
  simp only [Cond.tiuStop, Bool.and_eq_true, Option.isNone_iff_eq_none] at h
  obtain ⟨hfree, hconsumer⟩ := h
  refine (if_neg (ne_true_of_not hfree)).trans ?_
  simp only [Cond.tiuNamed] at hconsumer
  simp only [hconsumer]
  rfl

theorem completes_tiuStop : Completes .tiuStop 0x0E03 (fun c a => Cond.tiuStop c a && (Cond.tiuBusy c a).isEmpty)
    Eff.tiuStop := by
  refine completes_of tiuStop (fun _ _ _ _ => rfl) fun c a h => ?_
  obtain ⟨hok, hnone⟩ := Bool.and_eq_true_iff.mp h
  exact State.conclude_congr ((tiuStop_met hok).trans (if_pos hnone)) (conclude_done ..)

theorem completes_tiuStop_running :
    Completes .tiuStop 0x0E03 (fun c a => Cond.tiuStop c a && !(Cond.tiuBusy c a).isEmpty) Eff.tiuStop2 := by
  refine completes_of tiuStop (fun _ _ _ _ => rfl) fun c a h => ?_
  obtain ⟨hok, hsome⟩ := Bool.and_eq_true_iff.mp h
  exact State.conclude_congr ((tiuStop_met hok).trans (if_neg (ne_true_of_not hsome))) (conclude_running ..)

/-- A running channel that keeps complete blocks is quiescing until they are latched. -/
theorem State.tiuQuiesce_busy {a : State} {n : Nat} (hrunning : (a.tiuChan n).mode = .running)
    (hblocks : (a.tiuChan n).core.closing ≠ []) :
    a.tiuQuiesce n = a.setTiu n { a.tiuChan n with mode := .quiescing } := by
  refine (if_pos hrunning).trans (if_neg ?_)
  rintro ⟨-, hnone⟩
  rw [State.setTiu_same] at hnone
  exact hblocks hnone

/-! ## Statistics and status (R391, R392) -/

@[simp] theorem TiuChan.stats_length (x : TiuChan) (n : Nat) (b : TiuBlock) (complete frozen : Bool) :
    (x.stats n b complete frozen).length = 96 := by
  simp [TiuChan.stats, pack_length]

theorem completes_tiuReadStats : Completes .tiuReadStats 0x0E04
    (fun c a =>
      let p := c.payload
      decide (u8 p 0 ≤ 63) && decide (u8 p 1 ≤ 3) && zeros p 2 6 && !a.tiuHeld (u8 p 0) &&
        (!(u8 p 1).testBit 0 || decide (u64 p 8 < (a.tiuChan (u8 p 0)).blocks)) && decide (96 ≤ c.room))
    Eff.tiuReadStats := by
  refine completes_of tiuReadStats (fun _ _ _ _ => rfl) fun c a h => ?_
  simp only [Bool.and_eq_true, Bool.or_eq_true, decide_eq_true_eq, Bool.not_eq_true'] at h
  obtain ⟨⟨⟨⟨⟨hchan, hflags⟩, hz⟩, hfree⟩, hnew⟩, hroom⟩ := h
  refine State.conclude_congr ((if_neg (by simp [hchan, hflags, hz])).trans (if_neg ?_))
    (conclude_data (by simpa using hroom) _ _ _)
  simp only [hfree, Bool.false_or, Bool.and_eq_true, decide_eq_true_eq, not_and, Nat.not_le]
  intro hwait
  exact hnew.resolve_left (by simp [hwait])

theorem completes_tiuGetStatus (high low : Nat) : Completes (fun t fn tag => .tiuGetStatus t fn tag high low ()) 0x0E05
    (fun c _ => decide (u8 c.payload 0 ≤ 63) && zeros c.payload 1 3 && decide (64 ≤ c.room))
    (Eff.tiuGetStatus high low) := by
  refine completes_of (tiuGetStatus high low) (fun _ _ _ _ => rfl) fun c a h => ?_
  simp only [Bool.and_eq_true, decide_eq_true_eq] at h
  obtain ⟨⟨hchan, hz⟩, hroom⟩ := h
  refine State.conclude_congr (if_neg (by simp [hchan, hz])) ((conclude_data ?_ _ _ _).trans rfl)
  simpa [pack_length] using hroom

/-- Settles O37, verb by verb. -/
theorem tiuVerbsComplete : Obligations.TiuVerbsComplete :=
  ⟨completes_tiuConfigureChannel, completes_tiuStart, completes_tiuStop, completes_tiuStop_running,
    fun _ _ => State.tiuQuiesce_busy, completes_tiuReadStats, completes_tiuGetStatus⟩

end Sys2Proof.Machine

end

section

namespace Sys2Proof.Machine

/-! # The rows of the time-interval unit -/

/-! ## Edges (R374, R375, R376, R377, R380) -/

/-- To know a pair as failed changes no channel. -/
theorem State.tiuSuspect_frame (a : State) (n : Nat) : (a.tiuSuspect n).tiu = a.tiu ∧ (a.tiuSuspect n).cal = a.cal := by
  by_cases hknown : (a.tiuGroup (n / 16)).suspect.contains (a.tiuPair n) = true
  · rw [show a.tiuSuspect n = a from if_pos hknown]
    exact ⟨rfl, rfl⟩
  · rw [show a.tiuSuspect n = a.setTiuGroup (n / 16) _ from if_neg hknown]
    exact ⟨rfl, rfl⟩

/-- To know a pair as failed leaves the channels, and who holds them, as they were. -/
theorem Cond.tiuJudged_frame (n m : Nat) (failed : Bool) (a : State) :
    (Cond.tiuJudged n failed a).tiuChan m = a.tiuChan m ∧ (Cond.tiuJudged n failed a).tiuHeld m = a.tiuHeld m := by
  obtain ⟨htiu, hcal⟩ := a.tiuSuspect_frame n
  cases failed with
  | false => exact ⟨rfl, rfl⟩
  | true =>
    refine ⟨?_, ?_⟩
    · simp only [Cond.tiuJudged, if_true, State.tiuChan, htiu]
    · simp only [Cond.tiuJudged, if_true, State.tiuHeld, State.measuring, hcal]

theorem happens_tiuEdge (n fraction : Nat) (levels : List Int) (failed : Bool) :
    Happens (.tiuEdge · n levels fraction failed) (Cond.tiuOnFront n) (Eff.tiuEdge n fraction levels failed) := by
  refine happens_of _ (fun _ _ => rfl) fun a h => ?_
  simp only [Cond.tiuOnFront, Bool.and_eq_true, decide_eq_true_eq, beq_iff_eq] at h
  obtain ⟨⟨⟨hchan, hfree⟩, hmode⟩, hsource⟩ := h
  obtain ⟨hsame, hheld⟩ := Cond.tiuJudged_frame n n failed a
  refine (if_neg (Nat.not_lt.mpr hchan)).trans ((if_neg ?_).trans (if_pos ?_))
  · exact fun hbad => ne_true_of_not hfree (hheld.symm.trans hbad)
  · exact ⟨(congrArg TiuChan.mode hsame).trans hmode, (congrArg (fun x => x.cfg.source) hsame).trans hsource⟩

theorem happens_tiuEdge_held (n fraction : Nat) (levels : List Int) (failed : Bool) :
    Happens (.tiuEdge · n levels fraction failed) (fun a => decide (n ≤ 63) && a.tiuHeld n)
      (Eff.tiuEdge2 n fraction levels failed) := by
  refine happens_of _ (fun _ _ => rfl) fun a h => ?_
  simp only [Bool.and_eq_true, decide_eq_true_eq] at h
  obtain ⟨hchan, hheld⟩ := h
  refine (if_neg (Nat.not_lt.mpr hchan)).trans
    ((if_pos ((Cond.tiuJudged_frame n n failed a).2.trans hheld)).trans ?_)
  by_cases hrising : (((Cond.tiuJudged n failed a).tiuChan n).path ((Cond.tiuJudged n failed a).heldCfg n) levels).2.contains
      0 = true
  · refine (if_pos hrising).trans ?_
    simp only [Eff.tiuEdge2, hrising, Bool.true_and]
    cases hdead : Cond.tiuDeadAt n ((Cond.tiuJudged n failed a).tiuTime fraction)
        ((Cond.tiuJudged n failed a).setTiu n (((Cond.tiuJudged n failed a).tiuChan n).path
          ((Cond.tiuJudged n failed a).heldCfg n) levels).1) with
    | false => exact if_neg (Bool.eq_false_iff.mp hdead)
    | true => exact if_pos hdead
  · refine (if_neg hrising).trans ?_
    simp only [Eff.tiuEdge2, hrising, Bool.false_and, Bool.false_eq_true, if_false]
    rfl

/-- A channel that takes an edge reaches the test for the dead time. -/
theorem Cond.tiuTakes_passes {a : State} {n code : Nat} (h : Cond.tiuTakes n code a = true) :
    ¬ ((a.tiuChan n).mode != .running || a.tiuHeld n || !(a.tiuChan n).cfg.edges.testBit code || decide (3 < code)) =
      true := by
  simp only [Cond.tiuTakes, Bool.and_eq_true, beq_iff_eq, Bool.not_eq_true', decide_eq_true_eq] at h
  obtain ⟨⟨⟨hmode, hfree⟩, hedge⟩, hcode⟩ := h
  simp [hmode, hfree, hedge, hcode]

/-- The dead time of a channel's last edge, as an edge tests it. -/
theorem Cond.tiuDeadAt_eq (n time : Nat) (a : State) :
    Cond.tiuDeadAt n time a = match (a.tiuChan n).lastTime with
      | some l => decide (time < l + tiuDead)
      | none => false := by
  unfold Cond.tiuDeadAt
  cases (a.tiuChan n).lastTime <;> rfl

theorem State.tiuEdge_stamped {a : State} {n code time : Nat} (htakes : Cond.tiuTakes n code a = true)
    (hlive : Cond.tiuDeadAt n time a = false) :
    a.tiuEdge n code time =
      let x := a.tiuChan n
      let st := tiuStampOf time
      let uns := a.tiuUnsettled n
      let e : TiuStamp := { time, unsettled := uns, prov := a.provisionalAt st.tick }
      let y : TiuChan := { x with
        stamps := wrapAdd 64 x.stamps 1
        lastTime := some time
        last := st
        rated := a.now :: x.recentTicks a.now }
      (((a.setTiu n y).tiuMeasure n code e).tiuDeliver n code e).offerTrig 9 n none st uns :=
  (if_neg (Cond.tiuTakes_passes htakes)).trans
    (if_neg (Bool.eq_false_iff.mp ((Cond.tiuDeadAt_eq n time a).symm.trans hlive)))

theorem State.tiuEdge_missed {a : State} {n code time : Nat} (htakes : Cond.tiuTakes n code a = true)
    (hdead : Cond.tiuDeadAt n time a = true) :
    a.tiuEdge n code time = a.setTiu n { a.tiuChan n with missed := satAdd 64 (a.tiuChan n).missed 1 } :=
  (if_neg (Cond.tiuTakes_passes htakes)).trans (if_pos ((Cond.tiuDeadAt_eq n time a).symm.trans hdead))

/-! ## Statistics blocks (R383, R393) -/

/-- What becomes of a complete block, by whether its events are on and its interval open. -/
def State.tiuLatches (n : Nat) (b : TiuBlock) (rest : List TiuBlock) (events opened : Bool) (a : State) : State :=
  match events, opened with
  | false, _ => Eff.statsBlockComplete3 n b rest a
  | true, true => Eff.statsBlockComplete2 n b rest a
  | true, false => Eff.statsBlockComplete n b rest a

theorem happens_statsBlockComplete (n : Nat) (b : TiuBlock) (rest : List TiuBlock) (events opened : Bool) :
    Happens (.statsBlockComplete · n) (Cond.tiuClosing n b rest events opened)
      (State.tiuLatches n b rest events opened) := by
  refine happens_of _ (fun _ _ => rfl) fun a h => ?_
  simp only [Cond.tiuClosing, Bool.and_eq_true, beq_iff_eq] at h
  obtain ⟨⟨hclosing, hevents⟩, hopened⟩ := h
  simp only [hclosing, hevents, hopened]
  cases events with
  | false => rfl
  | true => cases opened <;> rfl

/-- An interval of 1 µs closes with its last block, or opens none where nothing came. -/
theorem happens_tiuStatsIntervalClose_late (n o : Nat) (b : TiuBlock) : Happens (.tiuStatsIntervalClose · n)
    (fun a => Cond.tiuInterval n o a && (a.tiuChan n).evLate == some b) (Eff.tiuStatsIntervalClose n o b) := by
  refine happens_of _ (fun _ _ => rfl) fun a h => ?_
  simp only [Cond.tiuInterval, Bool.and_eq_true, beq_iff_eq, decide_eq_true_eq] at h
  obtain ⟨⟨hopen, hreached⟩, hlate⟩ := h
  simp only [hopen]
  refine (if_neg (Nat.not_lt.mpr hreached)).trans ?_
  simp only [hlate]

theorem happens_tiuStatsIntervalClose_none (n o : Nat) : Happens (.tiuStatsIntervalClose · n)
    (fun a => Cond.tiuInterval n o a && (a.tiuChan n).evLate.isNone) (Eff.tiuStatsIntervalClose2 n) := by
  refine happens_of _ (fun _ _ => rfl) fun a h => ?_
  simp only [Cond.tiuInterval, Bool.and_eq_true, beq_iff_eq, decide_eq_true_eq, Option.isNone_iff_eq_none] at h
  obtain ⟨⟨hopen, hreached⟩, hnone⟩ := h
  simp only [hopen]
  refine (if_neg (Nat.not_lt.mpr hreached)).trans ?_
  simp only [Eff.tiuStatsIntervalClose2, hnone]

/-! ## Starts, rotation and failures (R378, R379, R380, R389) -/

theorem happens_tiuScheduledStart (n : Nat) (c : Cmd) (rest : List Cmd) : Happens (.tiuScheduledStart · n)
    (fun a => (a.startedCmds 0x0E02 fun d => (u64 d.payload 0).testBit n) == c :: rest &&
      a.reached { mode := u8 c.payload 8, at_ := u64 c.payload 16 } && decide (Cond.tiuEdgeOf c a ≤ a.now))
    (Eff.tiuScheduledStart c) := by
  refine happens_of _ (fun _ _ => rfl) fun a h => ?_
  obtain ⟨hcmds, hedge⟩ := Bool.and_eq_true_iff.mp h
  obtain ⟨hcmds, hreached⟩ := Bool.and_eq_true_iff.mp hcmds
  simp only [beq_iff_eq.mp hcmds]
  exact if_pos (Bool.and_eq_true_iff.mpr ⟨hreached, hedge⟩)

theorem happens_interpolatorRotationStep (group : Nat) : Happens (.interpolatorRotationStep · group)
    (fun a => decide (group ≤ 3) && !a.tiuFrozen group && !a.vineHold group) (Eff.interpolatorRotationStep group) := by
  refine happens_of _ (fun _ _ => rfl) fun a h => ?_
  simp only [Bool.and_eq_true, decide_eq_true_eq, Bool.not_eq_true'] at h
  obtain ⟨⟨hgroup, hfrozen⟩, hhold⟩ := h
  exact if_neg (by simp [hgroup, hfrozen, hhold])

/-- The echo measurement that holds the spare pair measures. -/
theorem State.vineHold_measures {a : State} {g : Nat} {k : VineCal} (h : a.vineHold g = true) (hk : a.vine.cal = some k) :
    k.measure = true := by
  simp only [State.vineHold, hk, Option.any_some, Bool.and_eq_true] at h
  exact h.2

/-- The spare is taken from an echo measurement in the same cases. -/
theorem Cond.spareWithdrawn_eq (group : Nat) (a : State) :
    Cond.spareWithdrawn group a = match a.vineHold group, a.vine.cal with
      | true, some k => if (a.sparesLeft 19 group != 0 && k.measure) = true then a.vineCalEnd { k with count := 0 } else a
      | _, _ => a := by
  unfold Cond.spareWithdrawn
  cases hhold : a.vineHold group with
  | false => rfl
  | true =>
    cases hcal : a.vine.cal with
    | none => simp only [ite_self]
    | some k => simp only [State.vineHold_measures hhold hcal, Bool.and_true, Bool.true_and]

theorem happens_interpolatorFailure (group unit : Nat) : Happens (.interpolatorFailure · group unit)
    (Cond.tiuPairFails group unit) (Eff.interpolatorFailure group unit) := by
  refine happens_of _ (fun _ _ => rfl) fun a h => ?_
  simp only [Cond.tiuPairFails, Bool.and_eq_true, decide_eq_true_eq, Bool.not_eq_true'] at h
  obtain ⟨⟨hgroup, hunit⟩, hthere⟩ := h
  refine (if_neg (by simp [hgroup, hunit, hthere])).trans ?_
  simp only [Eff.interpolatorFailure, Cond.spareWithdrawn_eq]
  rfl

/-- Settles O38, row by row. -/
theorem tiuRows : Obligations.TiuRows :=
  ⟨happens_tiuEdge, fun _ _ _ _ => State.tiuEdge_stamped, fun _ _ _ _ => State.tiuEdge_missed, happens_tiuEdge_held,
    fun n b rest => happens_statsBlockComplete n b rest true false,
    fun n b rest => happens_statsBlockComplete n b rest true true,
    fun n b rest => happens_statsBlockComplete n b rest false, happens_tiuStatsIntervalClose_late,
    happens_tiuStatsIntervalClose_none, happens_tiuScheduledStart, happens_interpolatorRotationStep,
    happens_interpolatorFailure⟩

end Sys2Proof.Machine

end

section

namespace Sys2Proof.Machine

/-! # The MON verbs -/

/-! ## Comparators (R395, R396, R397, R408) -/

/-- The fields of `MON.CONFIGURE_COMPARATOR` are in range. -/
theorem Cond.monComparator_fields {c : Cmd} (h : Cond.monComparator c = true) :
    let p := c.payload
    ¬ (u8 p 0 > 15 ∨ u8 p 1 > 4 ∨ u16 p 2 > 4095 ∨ u8 p 4 > 63 ∨ u8 p 5 > 3 ∨ u8 p 7 > 15 ∨ bits (u8 p 7) 3 2 = 3 ∨
      (u8 p 5 ≠ 0 ∧ (u32 p 8 < 10 ∨ u32 p 8 > 1000000)) ∨ (u8 p 1 = 4 ∧ (u32 p 12 = 0 ∨ u32 p 12 > 1000000)) ∨
      (!zeros p 16 16) = true) := by
  simp only [Cond.monComparator, Bool.and_eq_true, Bool.or_eq_true, decide_eq_true_eq, bne_iff_ne, beq_iff_eq] at h
  obtain ⟨⟨⟨⟨⟨⟨⟨⟨⟨hcomp, hmode⟩, hthresh⟩, hhyst⟩, hsource⟩, hforward⟩, hwake⟩, hblank⟩, hticks⟩, hz⟩ := h
  simp only [hwake, hz, Bool.not_true, Bool.false_eq_true, or_false, false_or]
  omega

/-- The ticks that a comparator keeps, as the verb tests them. -/
theorem Cond.monSettings_eq (p : List Byte) (now : Nat) (x : Comparator) :
    Cond.monSettings p now x = { x with
      mode := u8 p 1, thresh := u16 p 2, hyst := u8 p 4, blankSource := u8 p 5, blankSite := u8 p 6, forward := u8 p 7
      blankNs := u32 p 8, tickUs := u32 p 12, tickFrom := if x.mode = 4 ∧ x.tickUs = u32 p 12 then x.tickFrom else now
      decided := if x.mode = 4 ∧ x.tickUs = u32 p 12 then x.decided else 0 } := by
  simp only [Cond.monSettings, Cond.keepsTicks, Bool.and_eq_true, beq_iff_eq]

theorem completes_monConfigureComparator_on : Completes .monConfigureComparator 0x0F01
    (fun c a => Cond.monComparator c && u8 c.payload 1 != 0 && (a.comp (u8 c.payload 0)).mode != 0)
    Eff.monConfigureComparator := by
  refine completes_of monConfigureComparator (fun _ _ _ _ => rfl) fun c a h => ?_
  simp only [Bool.and_eq_true, bne_iff_ne] at h
  obtain ⟨⟨hok, hmode⟩, hon⟩ := h
  simp only [Eff.monConfigureComparator, Cond.monSettings_eq]
  exact State.conclude_congr ((if_neg (Cond.monComparator_fields hok)).trans ((if_neg hmode).trans (if_neg hon)))
    (conclude_running ..)

theorem completes_monConfigureComparator_starts : Completes .monConfigureComparator 0x0F01
    (fun c a => Cond.monComparator c && u8 c.payload 1 != 0 && (a.comp (u8 c.payload 0)).mode == 0 &&
      (Cond.monDeclared c a).isSome)
    Eff.monConfigureComparator2 := by
  refine completes_of monConfigureComparator (fun _ _ _ _ => rfl) fun c a h => ?_
  simp only [Bool.and_eq_true, bne_iff_ne, beq_iff_eq, Option.isSome_iff_exists] at h
  obtain ⟨⟨⟨hok, hmode⟩, hoff⟩, b, hdeclared⟩ := h
  refine State.conclude_congr ((if_neg (Cond.monComparator_fields hok)).trans ((if_neg hmode).trans (if_pos hoff))) ?_
  simp only [Eff.monConfigureComparator2, hdeclared, Option.getD_some, Cond.monSettings_eq]
  simp only [Cond.monDeclared] at hdeclared
  simp only [State.eq_ok_of_toOption hdeclared, conclude_running]

theorem completes_monConfigureComparator_off : Completes .monConfigureComparator 0x0F01
    (fun c a => Cond.monComparator c && u8 c.payload 1 == 0 && (a.compConsumer (u8 c.payload 0)).isNone)
    Eff.monConfigureComparator3 := by
  refine completes_of monConfigureComparator (fun _ _ _ _ => rfl) fun c a h => ?_
  simp only [Bool.and_eq_true, beq_iff_eq, Option.isNone_iff_eq_none] at h
  obtain ⟨⟨hok, hoff⟩, hfree⟩ := h
  refine State.conclude_congr ((if_neg (Cond.monComparator_fields hok)).trans (if_pos hoff)) ?_
  simp only [hfree, conclude_running, Eff.monConfigureComparator3, Cond.monSettings_eq]

/-! ## The sequence (R404, R407, R409, R410, R411) -/

theorem completes_monLoadSequence : Completes .monLoadSequence 0x0F02 Cond.monLoad Eff.monLoadSequence := by
  refine completes_of monLoadSequence (fun _ _ _ _ => rfl) fun c a h => ?_
  simp only [Cond.monLoad, Bool.and_eq_true, Bool.or_eq_true, decide_eq_true_eq, beq_iff_eq, bne_iff_ne,
    Bool.not_eq_true'] at h
  obtain ⟨⟨⟨⟨⟨⟨⟨⟨⟨⟨⟨hlength, hfirst⟩, hsome⟩, hend⟩, hlen⟩, hlong⟩, hz3⟩, hz10⟩, hflow⟩, hentries⟩, hidle⟩, hquiet⟩ := h
  refine State.conclude_congr ((if_neg (not_not_intro hlength)).trans ((if_neg ?_).trans
    (if_neg (by simp [hidle, hquiet])))) (conclude_done ..)
  rintro (hbad | hbad | hbad | hbad | hbad | hbad | hbad | hbad | hbad)
  · exact absurd hfirst (Nat.not_le.mpr hbad)
  · exact hsome hbad
  · exact absurd hend (Nat.not_le.mpr hbad)
  · exact hlen hbad
  · exact absurd hlong (Nat.not_le.mpr hbad)
  · exact ne_true_of_not hbad hz3
  · exact ne_true_of_not hbad hz10
  · rcases hflow with h | ⟨hrange, hexists⟩
    · simp [h] at hbad
    · have hnamed : u32 c.payload 4 ≠ 0xFFFFFFFF := by omega
      simp [hnamed, Nat.not_lt.mpr hrange, hexists] at hbad
  · obtain ⟨e, he, hbad⟩ := List.any_eq_true.mp hbad
    exact ne_true_of_not hbad (List.all_eq_true.mp hentries e he)

/-- The state in which the flow of the sequence has its allotment; none where it does not fit. -/
def State.monAllotted (a : State) : Option State :=
  match a.mon.flow with
  | some f => a.allot (actKey kindFlow f) (a.flowDemand f a.mon.rate)
  | none => some a

/-- A sequence that is admitted has its allotment, and its declaration stands. -/
theorem Cond.monAdmitted_eq_some {a d : State} (h : Cond.monAdmitted a = some d) :
    ∃ b, a.monAllotted = some b ∧
      b.declare [{ fam := 0x0F, obj := 16, group := 16, first := 250000, each := 250000 }] = .ok d := by
  obtain ⟨b, hb, hdeclare⟩ := Option.bind_eq_some_iff.mp h
  exact ⟨b, hb, State.eq_ok_of_toOption hdeclare⟩

theorem completes_monStartSequence : Completes .monStartSequence 0x0F03 Cond.monStart Eff.monStartSequence := by
  refine completes_of monStartSequence (fun _ _ _ _ => rfl) fun c a h => ?_
  simp only [Cond.monStart, Bool.and_eq_true, decide_eq_true_eq, Option.isSome_iff_exists] at h
  obtain ⟨⟨⟨⟨⟨⟨⟨hmode, hz⟩, hsoon⟩, hidle⟩, hloaded⟩, href⟩, w, htick⟩, d, hadmitted⟩ := h
  obtain ⟨b, hallot, hdeclare⟩ := Cond.monAdmitted_eq_some hadmitted
  refine State.conclude_congr ((if_neg ?_).trans ((if_neg (ne_true_of_not hidle)).trans (if_neg ?_))) ?_
  · rintro (hbad | hbad | hbad)
    · exact absurd hmode (Nat.not_le.mpr hbad)
    · exact ne_true_of_not hbad hz
    · exact ne_true_of_not hsoon hbad
  · simp [hloaded, href, htick]
  · change a.conclude c (match a.monAllotted with
      | none => _
      | some s => _) = _
    simp only [hallot, hdeclare, conclude_running, Eff.monStartSequence, hadmitted, Option.getD_some]

/-- A sequence that runs answers at once. -/
theorem completes_monStartSequence_runs : Completes .monStartSequence 0x0F03
    (fun c a => decide (u8 c.payload 0 ≤ 2) && zeros c.payload 1 7 &&
      !a.tooSoon { mode := u8 c.payload 0, at_ := u64 c.payload 8 } && a.mon.running)
    (fun c a => a.finish c .ok a.now) := by
  refine completes_of monStartSequence (fun _ _ _ _ => rfl) fun c a h => ?_
  simp only [Bool.and_eq_true, decide_eq_true_eq] at h
  obtain ⟨⟨⟨hmode, hz⟩, hsoon⟩, hruns⟩ := h
  refine State.conclude_congr ((if_neg ?_).trans (if_pos hruns)) (conclude_done ..)
  rintro (hbad | hbad | hbad)
  · exact absurd hmode (Nat.not_le.mpr hbad)
  · exact ne_true_of_not hbad hz
  · exact ne_true_of_not hsoon hbad

theorem completes_monStopSequence_idle :
    Completes .monStopSequence 0x0F04 (fun _ a => !a.mon.running) (fun c a => a.finish c .quiesced 0) :=
  completes_of monStopSequence (fun _ _ _ _ => rfl) fun _ _ h => State.conclude_congr (if_pos h) (conclude_done ..)

theorem completes_monStopSequence_waits : Completes .monStopSequence 0x0F04
    (fun _ a => a.mon.running && (a.mon.phase == .converting || a.mon.phase == .recovering)) Eff.monStopSequence := by
  refine completes_of monStopSequence (fun _ _ _ _ => rfl) fun c a h => ?_
  simp only [Bool.and_eq_true, Bool.or_eq_true, beq_iff_eq] at h
  obtain ⟨hruns, hphase⟩ := h
  exact State.conclude_congr ((if_neg (by simp [hruns])).trans (if_pos hphase)) (conclude_running ..)

theorem completes_monStopSequence_rests : Completes .monStopSequence 0x0F04
    (fun _ a => a.mon.running && (a.mon.phase == .idle || a.mon.phase == .delaying))
    (fun c a => a.monRest.finish c .quiesced 0) := by
  refine completes_of monStopSequence (fun _ _ _ _ => rfl) fun c a h => ?_
  simp only [Bool.and_eq_true, Bool.or_eq_true, beq_iff_eq] at h
  obtain ⟨hruns, hphase⟩ := h
  refine State.conclude_congr ((if_neg (by simp [hruns])).trans (if_neg ?_)) (conclude_done ..)
  rcases hphase with h | h <;> simp [h]

/-! ## Reading and the reference (R404, R412, R413) -/

@[simp] theorem Comparator.bytes_length (x : Comparator) : x.bytes.length = 16 := by
  simp [Comparator.bytes, pack_length]

/-- `MON.READ` of the comparators. -/
theorem completes_monRead : Completes .monRead 0x0F05
    (fun c _ => u8 c.payload 0 == 0 && zeros c.payload 1 3 && decide (256 ≤ c.room)) Eff.monRead := by
  refine completes_of monRead (fun _ _ _ _ => rfl) fun c a h => ?_
  simp only [Bool.and_eq_true, beq_iff_eq, decide_eq_true_eq] at h
  obtain ⟨⟨hkind, hz⟩, hroom⟩ := h
  exact State.conclude_congr ((if_neg (by simp [hkind, hz])).trans (if_pos hkind))
    (conclude_data (by simpa [List.length_flatMap] using hroom) _ _ _)

/-- `MON.READ` of the sequence records. -/
theorem completes_monRead_records : Completes .monRead 0x0F05
    (fun c _ => u8 c.payload 0 == 1 && zeros c.payload 1 3 && decide (16 + 128 * 16 ≤ c.room)) Eff.monRead2 := by
  refine completes_of monRead (fun _ _ _ _ => rfl) fun c a h => ?_
  simp only [Bool.and_eq_true, beq_iff_eq] at h
  obtain ⟨⟨hkind, hz⟩, -⟩ := h
  exact State.conclude_congr ((if_neg (by simp [hkind, hz])).trans (if_neg (by simp [hkind]))) rfl

theorem completes_monSetReference_off : Completes .monSetReference 0x0F06
    (fun c a => u8 c.payload 0 == 0 && zeros c.payload 1 3 && !a.mon.running) Eff.monSetReference := by
  refine completes_of monSetReference (fun _ _ _ _ => rfl) fun c a h => ?_
  simp only [Bool.and_eq_true, beq_iff_eq] at h
  obtain ⟨⟨hoff, hz⟩, hidle⟩ := h
  exact State.conclude_congr ((if_neg (by simp [hoff, hz])).trans ((if_pos hoff).trans (if_neg (ne_true_of_not hidle))))
    (conclude_done ..)

theorem completes_monSetReference_on : Completes .monSetReference 0x0F06
    (fun c a => u8 c.payload 0 == 1 && zeros c.payload 1 3 &&
      (a.declare [{ fam := 0x0F, obj := 17, group := 17, first := 50000, each := 50000 }]).isOk)
    Eff.monSetReference2 := by
  refine completes_of monSetReference (fun _ _ _ _ => rfl) fun c a h => ?_
  simp only [Bool.and_eq_true, beq_iff_eq] at h
  obtain ⟨⟨hon, hz⟩, hfits⟩ := h
  obtain ⟨b, hb⟩ := State.declare_ok_of_isOk hfits
  refine State.conclude_congr ((if_neg (by simp [hon, hz])).trans (if_neg (by simp [hon]))) ?_
  simp only [hb, conclude_done, Eff.monSetReference2]

/-- Settles O39, verb by verb. -/
theorem monVerbsComplete : Obligations.MonVerbsComplete :=
  ⟨completes_monConfigureComparator_on, completes_monConfigureComparator_starts, completes_monConfigureComparator_off,
    completes_monLoadSequence, completes_monStartSequence, completes_monStartSequence_runs,
    completes_monStopSequence_idle, completes_monStopSequence_waits, completes_monStopSequence_rests, completes_monRead,
    completes_monRead_records, completes_monSetReference_off, completes_monSetReference_on⟩

end Sys2Proof.Machine

end

section

namespace Sys2Proof.Machine

/-! # The rows of the monitor comparators -/

/-! ## Decisions (R395, R396, R397) -/

/-- A comparator that has given a stamp differs in that stamp alone. -/
theorem Cond.compSeen_comp (k tick : Nat) (a : State) :
    (Cond.compSeen k tick a).comp k = { a.comp k with lastStamp := some (Cond.compStamp k tick a) } :=
  State.setComp_same ..

/-- What a comparator decides by is as it was before the stamp. -/
theorem Cond.compSeen_same (k tick : Nat) (input : Int) (a : State) :
    let x := (Cond.compSeen k tick a).comp k
    x.mode = (a.comp k).mode ∧ x.settled = (a.comp k).settled ∧ x.out = (a.comp k).out ∧ x.inBand = (a.comp k).inBand ∧
      x.evaluated = (a.comp k).evaluated ∧ x.place input = (a.comp k).place input := by
  rw [Cond.compSeen_comp]
  exact ⟨rfl, rfl, rfl, rfl, rfl, rfl⟩

/-- What a comparator that is on decides, by whether it is settled and where its input lies. -/
theorem State.evaluate_on {a : State} {k : Nat} {input : Int} {tick : Nat} (hon : (a.comp k).mode ≠ 0) :
    a.evaluate k input tick =
      let b := Cond.compSeen k tick a
      let st := Cond.compStamp k tick a
      let pos := (a.comp k).place input
      if (!(a.comp k).settled) = true then
        if pos = 1 then b.setComp k { b.comp k with
          inBand := (a.comp k).inBand || !(a.comp k).evaluated
          evaluated := true }
        else
          let y : Comparator := { b.comp k with settled := true, evaluated := true, inBand := false, out := pos == 2 }
          if pos = 2 then (b.setComp k y).compChange k st true else (b.setComp k y).compEvent k st 0 true false
      else if (decide (pos = 2) && !(a.comp k).out) = true then
        (b.setComp k { b.comp k with out := true }).compChange k st false
      else if (decide (pos = 0) && (a.comp k).out) = true then
        (b.setComp k { b.comp k with out := false }).compChange k st false
      else b := by
  obtain ⟨hmode, hsettled, hout, hband, heval, hplace⟩ := Cond.compSeen_same k tick input a
  rw [← hsettled, ← hout, ← hband, ← heval, ← hplace]
  exact if_neg fun hoff => hon (hmode.symm.trans hoff)

theorem State.evaluate_turns {a : State} {k : Nat} {input : Int} {tick : Nat} (h : Cond.compTurns k input a = true) :
    a.evaluate k input tick =
      let b := Cond.compSeen k tick a
      (b.setComp k { b.comp k with out := !(a.comp k).out }).compChange k (Cond.compStamp k tick a) false := by
  simp only [Cond.compTurns, Bool.and_eq_true, bne_iff_ne] at h
  obtain ⟨⟨hon, hsettled⟩, hside⟩ := h
  rw [State.evaluate_on hon]
  cases hout : (a.comp k).out with
  | false =>
    simp only [hout, Bool.false_eq_true, if_false, beq_iff_eq] at hside
    simp [hsettled, hside]
  | true =>
    simp only [hout, if_true, beq_iff_eq] at hside
    simp [hsettled, hside]

/-- What the first decisions of a comparator come to, by the place of its input. -/
theorem State.evaluate_unsettled {a : State} {k place : Nat} {input : Int} {tick : Nat}
    (h : Cond.compUnsettled k place input a = true) :
    a.evaluate k input tick =
      let b := Cond.compSeen k tick a
      if place = 1 then b.setComp k { b.comp k with
        inBand := (a.comp k).inBand || !(a.comp k).evaluated
        evaluated := true }
      else
        let y : Comparator := { b.comp k with settled := true, evaluated := true, inBand := false, out := place == 2 }
        if place = 2 then (b.setComp k y).compChange k (Cond.compStamp k tick a) true
        else (b.setComp k y).compEvent k (Cond.compStamp k tick a) 0 true false := by
  simp only [Cond.compUnsettled, Bool.and_eq_true, bne_iff_ne, beq_iff_eq] at h
  obtain ⟨⟨hon, hunsettled⟩, hplace⟩ := h
  rw [State.evaluate_on hon, ← hplace]
  exact if_pos hunsettled

theorem State.evaluate_above {a : State} {k : Nat} {input : Int} {tick : Nat}
    (h : Cond.compUnsettled k 2 input a = true) :
    a.evaluate k input tick =
      let b := Cond.compSeen k tick a
      let y : Comparator := { b.comp k with
        settled := true
        evaluated := true
        inBand := false
        out := true }
      (b.setComp k y).compChange k (Cond.compStamp k tick a) true :=
  (State.evaluate_unsettled h).trans ((if_neg (by decide)).trans (if_pos rfl))

theorem State.evaluate_below {a : State} {k : Nat} {input : Int} {tick : Nat}
    (h : Cond.compUnsettled k 0 input a = true) :
    a.evaluate k input tick =
      let b := Cond.compSeen k tick a
      let y : Comparator := { b.comp k with
        settled := true
        evaluated := true
        inBand := false
        out := false }
      (b.setComp k y).compEvent k (Cond.compStamp k tick a) 0 true false :=
  (State.evaluate_unsettled h).trans ((if_neg (by decide)).trans (if_neg (by decide)))

theorem State.evaluate_inside {a : State} {k : Nat} {input : Int} {tick : Nat}
    (h : Cond.compUnsettled k 1 input a = true) :
    a.evaluate k input tick =
      let b := Cond.compSeen k tick a
      b.setComp k { b.comp k with
        inBand := (a.comp k).inBand || !(a.comp k).evaluated
        evaluated := true } :=
  (State.evaluate_unsettled h).trans (if_pos rfl)

theorem happens_comparatorChange (k : Nat) (input : Int) : Happens (.comparatorChange · k input ())
    (fun a => decide ((a.comp k).mode < 4)) (fun a => a.evaluate k input a.now) :=
  happens_of _ (fun _ _ => rfl) fun _ h => if_pos (of_decide_eq_true h)

theorem happens_comparatorChange_m3 (k : Nat) (input : Int) :
    Happens (.comparatorChange · k input ()) (fun a => (a.comp k).mode == 4) (fun a => a) :=
  happens_of _ (fun _ _ => rfl) fun _ h => if_neg (by simp [beq_iff_eq.mp h])

/-- The row of M3 acts where a tick is due. -/
theorem Cond.m3Due_iff {k : Nat} {a : State} :
    Cond.m3Due k a = true ↔ ¬ ((a.comp k).mode ≠ 4 ∨ Cond.m3Index k a ≤ (a.comp k).decided) := by
  simp only [Cond.m3Due, Bool.and_eq_true, beq_iff_eq, decide_eq_true_eq]
  omega

theorem happens_m3Tick (k : Nat) (input : Int) : Happens (.m3Tick · k input ()) (Cond.m3Due k) (Eff.m3Tick k input) :=
  happens_of _ (fun _ _ => rfl) fun _ h => if_neg (Cond.m3Due_iff.mp h)

theorem happens_m3Tick_none (k : Nat) (input : Int) :
    Happens (.m3Tick · k input ()) (fun a => !Cond.m3Due k a) (fun a => a) :=
  happens_of _ (fun _ _ => rfl) fun _ h =>
    if_pos (Decidable.of_not_not fun hbad => ne_true_of_not h (Cond.m3Due_iff.mpr hbad))

/-! ## Changes and blanking (R398) -/

theorem State.compChange_open {a : State} {k : Nat} {st : Stamp} {first : Bool} (h : (a.comp k).window = none) :
    a.compChange k st first = a.forward k st first false :=
  if_neg (by simp [h])

theorem State.compChange_blanked {a : State} {k w : Nat} {st : Stamp} {first : Bool} (h : (a.comp k).window = some w) :
    a.compChange k st first = a.setComp k { a.comp k with
      blanked := wrapAdd 32 (a.comp k).blanked 1
      firstDue := (a.comp k).firstDue || first } :=
  if_pos (by simp [h])

/-- The end of a window forwards a change that is left. -/
theorem happens_blankingWindowClose (k w : Nat) : Happens (.blankingWindowClose · k) (Cond.windowOver k w)
    (fun a => if Cond.changeLeft k a = true then Eff.blankingWindowClose k w a else Cond.windowClosed k a) := by
  refine happens_of _ (fun _ _ => rfl) fun a h => ?_
  simp only [Cond.windowOver, Bool.and_eq_true, beq_iff_eq, decide_eq_true_eq] at h
  obtain ⟨hwindow, hover⟩ := h
  simp only [hwindow]
  exact if_neg (Nat.not_lt.mpr hover)

theorem happens_blankingWindowClose_left (k w : Nat) : Happens (.blankingWindowClose · k)
    (fun a => Cond.windowOver k w a && Cond.changeLeft k a) (Eff.blankingWindowClose k w) :=
  (happens_blankingWindowClose k w).when fun _ h => ⟨(Bool.and_eq_true_iff.mp h).1, if_pos (Bool.and_eq_true_iff.mp h).2⟩

theorem happens_blankingWindowClose_none (k w : Nat) : Happens (.blankingWindowClose · k)
    (fun a => Cond.windowOver k w a && !Cond.changeLeft k a) (Cond.windowClosed k) :=
  (happens_blankingWindowClose k w).when fun _ h =>
    ⟨(Bool.and_eq_true_iff.mp h).1, if_neg (ne_true_of_not (Bool.and_eq_true_iff.mp h).2)⟩

/-! ## Events, wake requests and thresholds (R395, R399, R408, R414) -/

/-- An interval of 1 µs that has ended closes where nothing came, and otherwise reports what came. -/
theorem happens_comparatorEventIntervalClose (k o : Nat) :
    Happens (.comparatorEventIntervalClose · k) (Cond.compInterval k o)
      (fun a => if (a.comp k).evCount = 0 ∧ (a.comp k).evFlags = 0 then Eff.comparatorEventIntervalClose2 k a
        else Eff.comparatorEventIntervalClose k o a) := by
  refine happens_of _ (fun _ _ => rfl) fun a h => ?_
  simp only [Cond.compInterval, Bool.and_eq_true, beq_iff_eq, decide_eq_true_eq] at h
  obtain ⟨hopen, hreached⟩ := h
  simp only [hopen]
  exact if_neg (Nat.not_lt.mpr hreached)

theorem happens_comparatorEventIntervalClose_some (k o : Nat) : Happens (.comparatorEventIntervalClose · k)
    (fun a => Cond.compInterval k o a && ((a.comp k).evCount != 0 || (a.comp k).evFlags != 0))
    (Eff.comparatorEventIntervalClose k o) := by
  refine (happens_comparatorEventIntervalClose k o).when fun a h => ?_
  simp only [Bool.and_eq_true, Bool.or_eq_true, bne_iff_ne] at h
  obtain ⟨hover, hcame⟩ := h
  exact ⟨hover, if_neg fun hnone => hcame.elim (fun h => h hnone.1) fun h => h hnone.2⟩

theorem happens_comparatorEventIntervalClose_none (k o : Nat) : Happens (.comparatorEventIntervalClose · k)
    (fun a => Cond.compInterval k o a && (a.comp k).evCount == 0 && (a.comp k).evFlags == 0)
    (Eff.comparatorEventIntervalClose2 k) := by
  refine (happens_comparatorEventIntervalClose k o).when fun a h => ?_
  simp only [Bool.and_eq_true, beq_iff_eq] at h
  obtain ⟨⟨hover, hcount⟩, hflags⟩ := h
  exact ⟨hover, if_pos ⟨hcount, hflags⟩⟩

theorem happens_wakeRequest : Happens .wakeRequest (fun a => a.mon.wake) Eff.wakeRequest :=
  happens_of _ (fun _ _ => rfl) fun _ h => if_neg (by simp [h])

theorem happens_comparatorThresholdApply (k readback : Nat) : Happens (.comparatorThresholdApply · k readback)
    (fun _ => decide (k ≤ 15)) (Eff.comparatorThresholdApply k readback) :=
  happens_of _ (fun _ _ => rfl) fun _ h => if_neg (Nat.not_lt.mpr (of_decide_eq_true h))

/-- Settles O40, row by row. -/
theorem comparatorRows : Obligations.ComparatorRows :=
  ⟨happens_comparatorChange, happens_comparatorChange_m3, happens_m3Tick, happens_m3Tick_none,
    fun _ _ _ _ => State.evaluate_turns, fun _ _ _ _ => State.evaluate_above, fun _ _ _ _ => State.evaluate_below,
    fun _ _ _ _ => State.evaluate_inside, fun _ _ _ _ => State.compChange_open,
    fun _ _ _ _ _ => State.compChange_blanked, happens_blankingWindowClose_left, happens_blankingWindowClose_none,
    happens_comparatorEventIntervalClose_some, happens_comparatorEventIntervalClose_none, happens_wakeRequest,
    happens_comparatorThresholdApply⟩

end Sys2Proof.Machine

end

section

namespace Sys2Proof.Machine

/-! # The rows of the monitor converter -/

/-! ## Conversions, delays and recoveries (R401, R402, R405, R406) -/

theorem happens_conversionComplete (code outside : Nat) : Happens (.conversionComplete · code outside) Cond.convDue
    (Eff.conversionComplete code outside) := by
  refine happens_of _ (fun _ _ => rfl) fun a h => ?_
  simp only [Cond.convDue, Bool.and_eq_true, beq_iff_eq, decide_eq_true_eq] at h
  obtain ⟨hphase, hdue⟩ := h
  exact if_neg (not_or.mpr ⟨not_not_intro hphase, Nat.not_lt.mpr hdue⟩)

theorem happens_entryDelayExpiry : Happens .entryDelayExpiry
    (fun a => a.mon.phase == .delaying && decide (a.mon.since + a.mon.delayTicks ≤ a.now)) Eff.entryDelayExpiry := by
  refine happens_of _ (fun _ _ => rfl) fun a h => ?_
  simp only [Bool.and_eq_true, beq_iff_eq, decide_eq_true_eq] at h
  exact if_pos h

theorem happens_recoveryConversion : Happens .recoveryConversion
    (fun a => a.mon.phase == .recovering && decide (a.mon.since + recoveryTicks ≤ a.now)) Eff.recoveryConversion := by
  refine happens_of _ (fun _ _ => rfl) fun a h => ?_
  simp only [Bool.and_eq_true, beq_iff_eq, decide_eq_true_eq] at h
  obtain ⟨hphase, hdue⟩ := h
  exact if_neg (not_or.mpr ⟨not_not_intro hphase, Nat.not_lt.mpr hdue⟩)

/-! ## Housekeeping (R403) -/

theorem happens_housekeepingConversion_idle :
    Happens .housekeepingConversion (fun a => a.mon.phase == .idle) Eff.housekeepingConversion :=
  happens_of _ (fun _ _ => rfl) fun _ h => if_pos (beq_iff_eq.mp h)

/-- At a boundary that has had none, a housekeeping conversion falls where there is room, or where it has waited for 10 ms. -/
theorem happens_housekeepingConversion : Happens .housekeepingConversion
    (fun a => Cond.atBoundary a && a.mon.phase != .idle)
    (fun a => if a.mon.roomy = true then Eff.housekeepingConversion2 a
      else if a.mon.housekeeping + 10 * ticksPerMs ≤ a.now then Eff.housekeepingConversion3 a else a) := by
  refine happens_of _ (fun _ _ => rfl) fun a h => ?_
  simp only [Cond.atBoundary, Bool.and_eq_true, bne_iff_ne, Bool.not_eq_true'] at h
  obtain ⟨⟨hkept, hboundary⟩, hphase⟩ := h
  exact (if_neg hphase).trans (if_neg (by rw [hkept, hboundary]; decide))

theorem happens_housekeepingConversion_roomy : Happens .housekeepingConversion
    (fun a => Cond.atBoundary a && a.mon.phase != .idle && a.mon.roomy) Eff.housekeepingConversion2 := by
  refine happens_housekeepingConversion.when fun a h => ?_
  obtain ⟨hboundary, hroomy⟩ := Bool.and_eq_true_iff.mp h
  exact ⟨hboundary, if_pos hroomy⟩

/-- A sequence that is at rest has room. -/
theorem Mon.phase_ne_idle {m : Mon} (h : (!m.roomy) = true) : (m.phase != .idle) = true := by
  rw [bne_iff_ne]
  intro hidle
  simp [Mon.roomy, hidle] at h

theorem happens_housekeepingConversion_waits : Happens .housekeepingConversion
    (fun a => Cond.atBoundary a && !a.mon.roomy && decide (a.mon.housekeeping + 10 * ticksPerMs ≤ a.now))
    Eff.housekeepingConversion3 := by
  refine happens_housekeepingConversion.when fun a h => ?_
  simp only [Bool.and_eq_true, decide_eq_true_eq] at h
  obtain ⟨⟨hboundary, hroomy⟩, hlong⟩ := h
  exact ⟨Bool.and_eq_true_iff.mpr ⟨hboundary, Mon.phase_ne_idle hroomy⟩,
    (if_neg (ne_true_of_not hroomy)).trans (if_pos hlong)⟩

theorem happens_housekeepingConversion_between : Happens .housekeepingConversion
    (fun a => a.mon.phase == .converting && a.mon.convs != 0) (fun a => a) := by
  refine happens_of _ (fun _ _ => rfl) fun a h => ?_
  simp only [Bool.and_eq_true, beq_iff_eq, bne_iff_ne] at h
  obtain ⟨hphase, hconvs⟩ := h
  exact (if_neg (by rw [hphase]; decide)).trans (if_pos (by simp [hphase, hconvs]))

/-! ## The reference and the start (R404, R410) -/

theorem happens_referenceSettled : Happens .referenceSettled
    (fun a => a.mon.refOn && decide (a.mon.refTick + refSettleTicks ≤ a.now)) Eff.referenceSettled :=
  happens_of _ (fun _ _ => rfl) fun _ h => if_pos h

theorem happens_monScheduledStart (c : Cmd) (rest : List Cmd) : Happens .monScheduledStart
    (fun a => (a.startedCmds 0x0F03 fun _ => true) == c :: rest &&
      a.reached { mode := u8 c.payload 0, at_ := u64 c.payload 8 })
    (Eff.monScheduledStart c) := by
  refine happens_of _ (fun _ _ => rfl) fun a h => ?_
  simp only [Bool.and_eq_true, beq_iff_eq] at h
  obtain ⟨hcmds, hreached⟩ := h
  simp only [hcmds]
  exact if_pos hreached

/-- Settles O41, row by row. -/
theorem monitorRows : Obligations.MonitorRows :=
  ⟨happens_conversionComplete, happens_entryDelayExpiry, happens_recoveryConversion,
    happens_housekeepingConversion_idle, happens_housekeepingConversion_roomy, happens_housekeepingConversion_waits,
    happens_housekeepingConversion_between, happens_referenceSettled, happens_monScheduledStart⟩

end Sys2Proof.Machine

end

section

namespace Sys2Proof.Machine

/-! # The CELLAR verbs, requests and the write buffer -/

/-! ## Regions (R420, R429, R430) -/

/-- The fields of `CELLAR.ALLOCATE` are in range. -/
theorem Cond.cellarAllocate_fields {c : Cmd} (h : Cond.cellarAllocate c = true) :
    let p := c.payload
    ¬ (u64 p 0 < 4096 ∨ u64 p 0 > cellarBytes ∨ u64 p 0 % 4096 ≠ 0 ∨ u8 p 16 > 7 ∨
      ((u8 p 16).testBit 1 = true ∧ (!(u8 p 16).testBit 0) = true) ∨ (!zeros p 18 6) = true ∨
      ((u64 p 8 == ones64) = true ∧ (u8 p 17 < 12 ∨ u8 p 17 > 30)) ∨
      ((!(u64 p 8 == ones64)) = true ∧ (u64 p 8 % 4096 ≠ 0 ∨ u64 p 8 + u64 p 0 > cellarBytes))) := by
  simp only [Cond.cellarAllocate, Bool.and_eq_true, Bool.or_eq_true, decide_eq_true_eq, beq_iff_eq] at h
  obtain ⟨⟨⟨⟨⟨⟨hsmall, hbig⟩, haligned⟩, hflags⟩, hshared⟩, hz⟩, hplace⟩ := h
  dsimp only
  rintro (hbad | hbad | hbad | hbad | ⟨hone, hbad⟩ | hbad | ⟨hany, hbad⟩ | ⟨hnamed, hbad⟩)
  · exact absurd hsmall (Nat.not_le.mpr hbad)
  · exact absurd hbig (Nat.not_le.mpr hbad)
  · exact hbad haligned
  · exact absurd hflags (Nat.not_le.mpr hbad)
  · rcases hshared with h | h
    · simp [hone] at h
    · simp [h] at hbad
  · exact ne_true_of_not hbad hz
  · rw [if_pos (beq_iff_eq.mp hany)] at hplace
    simp only [Bool.and_eq_true, decide_eq_true_eq] at hplace
    omega
  · rw [if_neg (by simpa using hnamed)] at hplace
    simp only [Bool.and_eq_true, beq_iff_eq, decide_eq_true_eq] at hplace
    exact hbad.elim (fun h => h hplace.1) fun h => absurd hplace.2 (Nat.not_le.mpr h)

/-- The base that `CELLAR.ALLOCATE` gives is one that its tests let through. -/
theorem Cond.cellarBase_eq_some {base : Nat} {c : Cmd} {a : State} (h : Cond.cellarBase c a = some base) :
    ¬ (!(u64 c.payload 8 == ones64) && a.overlaps (u64 c.payload 8) (u64 c.payload 0)) = true ∧
      (if (u64 c.payload 8 == ones64) = true then a.freeBase (u64 c.payload 0) (u8 c.payload 17)
        else some (u64 c.payload 8)) = some base := by
  unfold Cond.cellarBase at h
  by_cases hany : (u64 c.payload 8 == ones64) = true
  · rw [if_pos hany] at h ⊢
    exact ⟨by simp [hany], h⟩
  · rw [if_neg hany] at h ⊢
    by_cases hover : a.overlaps (u64 c.payload 8) (u64 c.payload 0) = true
    · rw [if_pos hover] at h
      cases h
    · rw [if_neg hover] at h
      exact ⟨by simp [hover], h⟩

/-- A region that has a base is there at once, or once it is zero. -/
theorem cellarAllocate_met {base : Nat} {c : Cmd} {a : State} (hok : Cond.cellarAllocate c = true)
    (hbase : Cond.cellarBase c a = some base) (hfew : a.regions.length < 65536) :
    cellarAllocate c a =
      let b : State := { a with regions := a.regions.set base (Cond.cellarRegion c.payload) }
      if (u8 c.payload 16).testBit 2 = true then .running base [] b else .done .ok base b := by
  obtain ⟨hfree, hgiven⟩ := Cond.cellarBase_eq_some hbase
  refine (if_neg (Cond.cellarAllocate_fields hok)).trans ((if_neg hfree).trans ((if_neg (Nat.not_le.mpr hfew)).trans ?_))
  simp only [hgiven]
  rfl

theorem completes_cellarAllocate (base : Nat) : Completes .cellarAllocate 0x1001
    (fun c a => Cond.cellarAllocate c && Cond.cellarBase c a == some base && decide (a.regions.length < 65536) &&
      !(u8 c.payload 16).testBit 2)
    (Eff.cellarAllocate base) := by
  refine completes_of cellarAllocate (fun _ _ _ _ => rfl) fun c a h => ?_
  simp only [Bool.and_eq_true, beq_iff_eq, decide_eq_true_eq] at h
  obtain ⟨⟨⟨hok, hbase⟩, hfew⟩, hkept⟩ := h
  exact State.conclude_congr ((cellarAllocate_met hok hbase hfew).trans (if_neg (ne_true_of_not hkept)))
    (conclude_done ..)

theorem completes_cellarAllocate_zero (base : Nat) : Completes .cellarAllocate 0x1001
    (fun c a => Cond.cellarAllocate c && Cond.cellarBase c a == some base && decide (a.regions.length < 65536) &&
      (u8 c.payload 16).testBit 2)
    (Eff.cellarAllocate2 base) := by
  refine completes_of cellarAllocate (fun _ _ _ _ => rfl) fun c a h => ?_
  simp only [Bool.and_eq_true, beq_iff_eq, decide_eq_true_eq] at h
  obtain ⟨⟨⟨hok, hbase⟩, hfew⟩, hzero⟩ := h
  exact State.conclude_congr ((cellarAllocate_met hok hbase hfew).trans (if_pos hzero)) (conclude_running ..)

/-- A region that nothing uses is freed, at once or after the bursts issued to it. -/
theorem cellarFree_met {r : Region} {c : Cmd} {a : State} (h : Cond.cellarFree r c a = true) :
    cellarFree c a =
      if a.regionBusy (u64 c.payload 0) r = true then
        .running (u64 c.payload 0) []
          ((a.grantBursts (u64 c.payload 0) r).setRegion (u64 c.payload 0) { r with freeing := true })
      else .done .quiesced 0 { a with regions := a.regions.del (u64 c.payload 0) } := by
  simp only [Cond.cellarFree, Bool.and_eq_true, Bool.or_eq_true, decide_eq_true_eq, Option.isNone_iff_eq_none] at h
  obtain ⟨⟨⟨⟨⟨hregion, hforce⟩, hz⟩, hdenied⟩, huser⟩, hdisplay⟩ := h
  simp only [cellarFree, beq_iff_eq.mp hregion]
  refine (if_neg (by simp [hforce, hz])).trans ((if_neg (ne_true_of_not hdenied)).trans ?_)
  simp only [huser]
  refine if_neg ?_
  rcases hdisplay with h | h
  · simp [h]
  · simp [ne_true_of_not h]

theorem completes_cellarFree (r : Region) : Completes .cellarFree 0x1002
    (fun c a => Cond.cellarFree r c a && !a.regionBusy (u64 c.payload 0) r) Eff.cellarFree := by
  refine completes_of cellarFree (fun _ _ _ _ => rfl) fun c a h => ?_
  obtain ⟨hok, hidle⟩ := Bool.and_eq_true_iff.mp h
  exact State.conclude_congr ((cellarFree_met hok).trans (if_neg (ne_true_of_not hidle))) (conclude_done ..)

theorem completes_cellarFree_busy (r : Region) : Completes .cellarFree 0x1002
    (fun c a => Cond.cellarFree r c a && a.regionBusy (u64 c.payload 0) r) (Eff.cellarFree2 r) := by
  refine completes_of cellarFree (fun _ _ _ _ => rfl) fun c a h => ?_
  obtain ⟨hok, hbusy⟩ := Bool.and_eq_true_iff.mp h
  exact State.conclude_congr ((cellarFree_met hok).trans (if_pos hbusy)) (conclude_running ..)

/-! ## Status (R431) -/

@[simp] theorem State.cellarHeader_length (a : State) : a.cellarHeader.length = 64 := by
  simp [State.cellarHeader, pack_length]

@[simp] theorem State.stackBytes_length (a : State) (k : Nat) (temp : Int) : (a.stackBytes k temp).length = 48 := by
  simp [State.stackBytes, pack_length]

theorem completes_cellarGetStatus (temps : List Int) : Completes (.cellarGetStatus · · · temps) 0x1003
    (fun c _ => u8 c.payload 0 == 0 && zeros c.payload 1 3 && decide (256 ≤ c.room)) (Eff.cellarGetStatus temps) := by
  refine completes_of (cellarGetStatus temps) (fun _ _ _ _ => rfl) fun c a h => ?_
  simp only [Bool.and_eq_true, beq_iff_eq, decide_eq_true_eq] at h
  obtain ⟨⟨hkind, hz⟩, hroom⟩ := h
  exact State.conclude_congr ((if_neg (by simp [hkind, hz])).trans (if_pos hkind))
    (conclude_data (by simpa [List.length_flatMap] using hroom) _ _ _)

theorem completes_cellarGetStatus_regions (temps : List Int) : Completes (.cellarGetStatus · · · temps) 0x1003
    (fun c a => u8 c.payload 0 == 1 && zeros c.payload 1 3 &&
      decide (((Cond.regionsAsked c a).flatMap regionEntry).length ≤ c.room))
    Eff.cellarGetStatus2 := by
  refine completes_of (cellarGetStatus temps) (fun _ _ _ _ => rfl) fun c a h => ?_
  simp only [Bool.and_eq_true, beq_iff_eq, decide_eq_true_eq] at h
  obtain ⟨⟨hkind, hz⟩, hroom⟩ := h
  exact State.conclude_congr ((if_neg (by simp [hkind, hz])).trans (if_neg (by simp [hkind]))) (conclude_data hroom ..)

/-! ## The operating point (R423, R428, R432) -/

/-- An operating point that allotments and energy allow takes the threshold, and begins a change where the rate is new. -/
theorem cellarSetOperatingPoint_met {c : Cmd} {a : State} (h : Cond.cellarSetOp c a = true) :
    cellarSetOperatingPoint c a =
      if Cond.cellarRate c a = a.cellarOp then .done .ok 0 (Cond.cellarThreshold c a)
      else
        let b := Cond.cellarThreshold c a
        .running (Cond.cellarRate c a) []
          ((b.setCell { b.cell with change := some { rate := Cond.cellarRate c a, since := a.now } }).setStack 0
            { b.stack 0 with phase := .selfRefresh }) := by
  simp only [Cond.cellarSetOp, Bool.and_eq_true, Bool.or_eq_true, decide_eq_true_eq, beq_iff_eq] at h
  obtain ⟨⟨⟨⟨⟨⟨hrate, hz⟩, hthreshold⟩, hserve⟩, hrebuild⟩, hadmitted⟩, hshort⟩ := h
  refine (if_neg ?_).trans ((if_neg (ne_true_of_not hserve)).trans ((if_neg (ne_true_of_not hrebuild)).trans
    ((if_neg ?_).trans (if_neg ?_))))
  · simp only [hz, Bool.not_true, Bool.false_eq_true, false_or]
    omega
  · rintro ⟨hnew, hbad⟩
    exact hadmitted.elim hnew (Nat.not_le.mpr hbad)
  · rintro ⟨hlower, hbad⟩
    exact hshort.elim (Nat.not_le.mpr hlower) hbad

theorem completes_cellarSetOperatingPoint : Completes .cellarSetOperatingPoint 0x1004
    (fun c a => Cond.cellarSetOp c a && Cond.cellarRate c a == a.cellarOp) Eff.cellarSetOperatingPoint := by
  refine completes_of cellarSetOperatingPoint (fun _ _ _ _ => rfl) fun c a h => ?_
  obtain ⟨hok, hsame⟩ := Bool.and_eq_true_iff.mp h
  exact State.conclude_congr ((cellarSetOperatingPoint_met hok).trans (if_pos (beq_iff_eq.mp hsame))) (conclude_done ..)

theorem completes_cellarSetOperatingPoint_change : Completes .cellarSetOperatingPoint 0x1004
    (fun c a => Cond.cellarSetOp c a && Cond.cellarRate c a != a.cellarOp) Eff.cellarSetOperatingPoint2 := by
  refine completes_of cellarSetOperatingPoint (fun _ _ _ _ => rfl) fun c a h => ?_
  obtain ⟨hok, hnew⟩ := Bool.and_eq_true_iff.mp h
  exact State.conclude_congr ((cellarSetOperatingPoint_met hok).trans (if_neg (bne_iff_ne.mp hnew)))
    (conclude_running ..)

/-! ## Requests (R419, R421, R422, R429) -/

/-- While Cellar is ready a request of some bytes at a port joins those that wait, and then the arbiter serves. -/
theorem happens_cellarRequest (port addr size serve : Nat) (write : Bool) (data : List Byte) (rows : List (Nat × Nat)) :
    Happens (.cellarRequest · port addr size write data serve rows) (fun a => a.readyBit 6)
      (fun a => if size = 0 ∨ port > 15 then Eff.cellarRequest2 serve rows a
        else Eff.cellarRequest port addr size serve write data rows a) := by
  refine happens_of _ (fun _ _ => rfl) fun a h => (if_neg (by simp [h])).trans ?_
  by_cases hnone : size = 0 ∨ port > 15
  · simp only [if_pos hnone]
  · simp only [if_neg hnone]

theorem happens_cellarRequest_some (port addr size serve : Nat) (write : Bool) (data : List Byte)
    (rows : List (Nat × Nat)) : Happens (.cellarRequest · port addr size write data serve rows)
      (fun a => a.readyBit 6 && size != 0 && decide (port ≤ 15))
      (Eff.cellarRequest port addr size serve write data rows) := by
  refine (happens_cellarRequest port addr size serve write data rows).when fun a h => ?_
  simp only [Bool.and_eq_true, bne_iff_ne, decide_eq_true_eq] at h
  obtain ⟨⟨hready, hsize⟩, hport⟩ := h
  exact ⟨hready, if_neg (not_or.mpr ⟨hsize, Nat.not_lt.mpr hport⟩)⟩

theorem happens_cellarRequest_none (port addr size serve : Nat) (write : Bool) (data : List Byte)
    (rows : List (Nat × Nat)) : Happens (.cellarRequest · port addr size write data serve rows)
      (fun a => a.readyBit 6 && (size == 0 || decide (15 < port))) (Eff.cellarRequest2 serve rows) := by
  refine (happens_cellarRequest port addr size serve write data rows).when fun a h => ?_
  simp only [Bool.and_eq_true, Bool.or_eq_true, beq_iff_eq, decide_eq_true_eq] at h
  exact ⟨h.1, if_pos h.2⟩

theorem happens_writeBufferMergeTimeout (stripe mask since : Nat) : Happens (.writeBufferMergeTimeout · stripe)
    (fun a => a.cell.merging.find stripe == some (mask, since) && decide (since + 2 * ticksPerUs ≤ a.now))
    (Eff.writeBufferMergeTimeout stripe mask) := by
  refine happens_of _ (fun _ _ => rfl) fun a h => ?_
  simp only [Bool.and_eq_true, beq_iff_eq, decide_eq_true_eq] at h
  obtain ⟨hmerging, hreached⟩ := h
  simp only [hmerging]
  exact if_pos hreached

theorem happens_regionZeroComplete (base : Nat) (r : Region) : Happens (.regionZeroComplete · base)
    (fun a => a.regions.find base == some r && r.zeroing) (Eff.regionZeroComplete base r) := by
  refine happens_of _ (fun _ _ => rfl) fun a h => ?_
  obtain ⟨hregion, hzeroing⟩ := Bool.and_eq_true_iff.mp h
  simp only [beq_iff_eq.mp hregion]
  exact if_pos hzeroing

/-- Settles O42, verb by verb and row by row. -/
theorem cellarCommands : Obligations.CellarCommands :=
  ⟨completes_cellarAllocate, completes_cellarAllocate_zero, completes_cellarFree, completes_cellarFree_busy,
    completes_cellarGetStatus, completes_cellarGetStatus_regions, completes_cellarSetOperatingPoint,
    completes_cellarSetOperatingPoint_change, happens_cellarRequest_some, happens_cellarRequest_none,
    fun _ _ _ => rfl, happens_writeBufferMergeTimeout, happens_of _ (fun _ _ => rfl) fun _ _ => rfl,
    happens_regionZeroComplete⟩

end Sys2Proof.Machine

end

section

namespace Sys2Proof.Machine

/-! # The rows of Cellar's stacks -/

/-! ## Row disturbance and failures (R423, R426) -/

theorem happens_rowHammerThreshold (k bank row n : Nat) : Happens (.rowHammerThreshold · k bank)
    (fun a => ((a.stack k).banks.get bank []).find? (fun e => decide (a.cell.threshold ≤ e.2)) == some (row, n))
    (Eff.rowHammerThreshold k bank row) := by
  refine happens_of _ (fun _ _ => rfl) fun a h => ?_
  simp only [beq_iff_eq.mp h]

/-- A pseudo-channel that is in service and not the spare is taken by the spare, where there is one. -/
theorem State.losePc_serving {a : State} {k pc : Nat} (h : Cond.pcServes k pc a = true) :
    a.losePc k pc false =
      if a.sparesLeft 8 k = 0 then a.loseStack k false else Eff.pseudoChannelFailure k pc a := by
  simp only [Cond.pcServes, Bool.and_eq_true, decide_eq_true_eq, Bool.not_eq_true'] at h
  obtain ⟨⟨⟨hstack, hpc⟩, hthere⟩, hserves⟩ := h
  exact (if_neg (by simp [hstack, hpc.trans (by decide : 31 ≤ 32), hthere, hserves])).trans (if_neg (by omega))

/-- The spare pseudo-channel that fails takes its stack with it where it serves for another. -/
theorem State.losePc_spare {a : State} {k : Nat} {used : Bool} (h : Cond.spareServes k used a = true) :
    a.losePc k 32 false = if used = true then a.loseStack k false else Eff.pseudoChannelFailure2 k a := by
  simp only [Cond.spareServes, Bool.and_eq_true, decide_eq_true_eq, Bool.not_eq_true', beq_iff_eq] at h
  obtain ⟨⟨⟨hstack, hthere⟩, hserves⟩, hused⟩ := h
  refine (if_neg (by simp [hstack, hthere, hserves])).trans ((if_pos rfl).trans ?_)
  rw [← hused]
  cases (a.stack k).replaced <;> rfl

theorem happens_pseudoChannelFailure (k pc : Nat) : Happens (.pseudoChannelFailure · k pc)
    (fun a => Cond.pcServes k pc a && a.sparesLeft 8 k != 0) (Eff.pseudoChannelFailure k pc) := by
  refine happens_of _ (fun _ _ => rfl) fun a h => ?_
  obtain ⟨hserves, hspare⟩ := Bool.and_eq_true_iff.mp h
  exact (State.losePc_serving hserves).trans (if_neg (bne_iff_ne.mp hspare))

theorem happens_pseudoChannelFailure_last (k pc : Nat) : Happens (.pseudoChannelFailure · k pc)
    (fun a => Cond.pcServes k pc a && a.sparesLeft 8 k == 0) (fun a => a.loseStack k false) := by
  refine happens_of _ (fun _ _ => rfl) fun a h => ?_
  obtain ⟨hserves, hnone⟩ := Bool.and_eq_true_iff.mp h
  exact (State.losePc_serving hserves).trans (if_pos (beq_iff_eq.mp hnone))

theorem happens_pseudoChannelFailure_spare (k : Nat) :
    Happens (.pseudoChannelFailure · k 32) (Cond.spareServes k true) (fun a => a.loseStack k false) :=
  happens_of _ (fun _ _ => rfl) fun _ h => (State.losePc_spare h).trans (if_pos rfl)

theorem happens_pseudoChannelFailure_unused (k : Nat) :
    Happens (.pseudoChannelFailure · k 32) (Cond.spareServes k false) (Eff.pseudoChannelFailure2 k) :=
  happens_of _ (fun _ _ => rfl) fun _ h => (State.losePc_spare h).trans (if_neg Bool.false_ne_true)

theorem happens_stackFailure (k : Nat) :
    Happens (.stackFailure · k) (fun a => decide (k ≤ 3) && !a.stackRetired k) (Eff.stackFailure k) := by
  refine happens_of _ (fun _ _ => rfl) fun a h => ?_
  simp only [Bool.and_eq_true, decide_eq_true_eq] at h
  obtain ⟨hstack, hserves⟩ := h
  exact (if_neg (Nat.not_lt.mpr hstack)).trans (if_neg (ne_true_of_not hserves))

theorem happens_rebuildComplete (k : Nat) :
    Happens (.rebuildComplete · k) (fun a => (a.stack k).rebuilding) (Eff.rebuildComplete k) :=
  happens_of _ (fun _ _ => rfl) fun _ h => if_pos h

/-! ## Retraining (R424, R425) -/

/-- What is due after every wait is not before the end of one. -/
theorem not_any_of_all_due {o : Option Nat} {now wait : Nat} (h : (o.all fun p => decide (p + wait ≤ now)) = true) :
    (o.any fun p => decide (now < p + wait)) = false := by
  cases o with
  | none => rfl
  | some p => simpa using h

theorem happens_retrainPauseStart (channel : Nat) :
    Happens (.retrainPauseStart · channel) (Cond.canPause channel) (Eff.retrainPauseStart channel) := by
  refine happens_of _ (fun _ _ => rfl) fun a h => if_neg ?_
  simp only [Cond.canPause, Bool.and_eq_true, decide_eq_true_eq, Bool.not_eq_true', Option.isNone_iff_eq_none] at h
  obtain ⟨⟨⟨⟨⟨⟨hchannel, hrebuild⟩, hchange⟩, hpause⟩, hserves⟩, hturn⟩, hspaced⟩ := h
  simp only [Nat.not_lt.mpr hchannel, hrebuild, hchange, hpause, hserves, hturn, not_any_of_all_due hspaced,
    Option.isSome_none, decide_false, Bool.or_self, Bool.false_eq_true, not_false_eq_true]

/-- What the end of a pause comes to, by whether it trained the channel and how often it has failed before. -/
def State.pauseEnds (channel fill since : Nat) (trained : Bool) (a : State) : State :=
  if Cond.pauseTrained trained since a = true then Eff.retrainPauseEnd channel fill since a
  else
    let b := Cond.pauseOver channel since fill (a.stack (channel / 16)).retrains ((Cond.pauseFails channel a + 1) % 3) a
    if Cond.pauseFails channel a + 1 = 3 then
      ((b.losePc (channel / 16) (2 * (channel % 16)) false).calFailed 9 channel).calServed 9 channel
    else b

theorem happens_retrainPauseEnd (channel fill since : Nat) (trained : Bool) :
    Happens (.retrainPauseEnd · channel trained fill) (fun a => a.cell.pause == some (channel, since))
      (State.pauseEnds channel fill since trained) := by
  refine happens_of _ (fun _ _ => rfl) fun a h => ?_
  simp only [beq_iff_eq.mp h]
  refine (if_neg (not_not_intro rfl)).trans ?_
  unfold State.pauseEnds
  cases htrained : Cond.pauseTrained trained since a with
  | false =>
    unfold Cond.pauseTrained at htrained
    simp only [htrained, Bool.false_eq_true, if_false]
    rfl
  | true =>
    unfold Cond.pauseTrained at htrained
    simp only [htrained, if_true]
    rfl

theorem happens_retrainPauseEnd_trained (channel fill since : Nat) (trained : Bool) :
    Happens (.retrainPauseEnd · channel trained fill)
      (fun a => a.cell.pause == some (channel, since) && Cond.pauseTrained trained since a)
      (Eff.retrainPauseEnd channel fill since) := by
  refine (happens_retrainPauseEnd channel fill since trained).when fun a h => ?_
  obtain ⟨hpause, htrained⟩ := Bool.and_eq_true_iff.mp h
  exact ⟨hpause, if_pos htrained⟩

theorem happens_retrainPauseEnd_failed (channel fill since : Nat) (trained : Bool) :
    Happens (.retrainPauseEnd · channel trained fill)
      (fun a => a.cell.pause == some (channel, since) && !Cond.pauseTrained trained since a &&
        decide (Cond.pauseFails channel a < 2))
      (Eff.retrainPauseEnd2 channel fill since) := by
  refine (happens_retrainPauseEnd channel fill since trained).when fun a h => ?_
  simp only [Bool.and_eq_true, decide_eq_true_eq] at h
  obtain ⟨⟨hpause, hfailed⟩, hfew⟩ := h
  refine ⟨hpause, (if_neg (ne_true_of_not hfailed)).trans ((if_neg (by omega)).trans ?_)⟩
  rw [Nat.mod_eq_of_lt (by omega)]

theorem happens_retrainPauseEnd_third (channel fill since : Nat) (trained : Bool) :
    Happens (.retrainPauseEnd · channel trained fill)
      (fun a => a.cell.pause == some (channel, since) && !Cond.pauseTrained trained since a &&
        Cond.pauseFails channel a == 2)
      (Eff.retrainPauseEnd3 channel fill since) := by
  refine (happens_retrainPauseEnd channel fill since trained).when fun a h => ?_
  simp only [Bool.and_eq_true, beq_iff_eq] at h
  obtain ⟨⟨hpause, hfailed⟩, hthird⟩ := h
  refine ⟨beq_iff_eq.mpr hpause, (if_neg (ne_true_of_not hfailed)).trans ((if_pos (by omega)).trans ?_)⟩
  rw [hthird]

/-! ## The change of operating point (R425, R428) -/

theorem happens_stackOpPointServing (k : Nat) :
    Happens (.stackOpPointServing · k) (fun a => (a.stack k).phase == .selfRefresh) (Eff.stackOpPointServing k) :=
  happens_of _ (fun _ _ => rfl) fun _ h => if_pos (beq_iff_eq.mp h)

theorem happens_stackBufferDrained (k fill : Nat) :
    Happens (.stackBufferDrained · k fill) (fun a => (a.stack k).phase == .draining) (Eff.stackBufferDrained k fill) :=
  happens_of _ (fun _ _ => rfl) fun _ h => if_neg (not_not_intro (beq_iff_eq.mp h))

/-- Settles O43, row by row. -/
theorem cellarStacks : Obligations.CellarStacks :=
  ⟨fun _ _ => happens_of _ (fun _ _ => rfl) fun _ _ => rfl, happens_of _ (fun _ _ => rfl) fun _ _ => rfl,
    happens_rowHammerThreshold, happens_pseudoChannelFailure, happens_pseudoChannelFailure_last,
    happens_pseudoChannelFailure_spare, happens_pseudoChannelFailure_unused, happens_stackFailure,
    happens_rebuildComplete, happens_retrainPauseStart, happens_retrainPauseEnd_trained, happens_retrainPauseEnd_failed,
    happens_retrainPauseEnd_third, happens_stackOpPointServing, happens_stackBufferDrained⟩

end Sys2Proof.Machine

end

section

namespace Sys2Proof.Machine

/-! # The FLOW verbs, descriptors, units and bursts -/

/-! ## Creating and enabling (R434, R447, R448, R449) -/

/-- The flow that `FLOW.CREATE` names, and its settings, are in range. -/
theorem Cond.flowCreate_fields {n : Nat} {c : Cmd} {a : State} (h : Cond.flowCreate n c a = true) :
    let p := c.payload
    let x := Cond.flowOf c
    ¬ (((!(u32 p 0 == 0xFFFFFFFF)) = true ∧ u32 p 0 > 49151) ∨ x.src > 2 ∨ x.dst > 2 ∨ (x.src = 1 ∧ x.dst = 1) ∨
      ((!x.direct) = true ∧ x.space > 1) ∨ x.check > 2 ∨ x.priority > 7 ∨ u8 p 9 > 1 ∨ x.burst < 64 ∨ x.burst > 4096 ∨
      x.burst % 64 ≠ 0 ∨ (!zeros p 12 4) = true) := by
  simp only [Cond.flowCreate, Bool.and_eq_true, Bool.or_eq_true, decide_eq_true_eq, beq_iff_eq, Bool.not_eq_true',
    ← Bool.not_eq_true] at h
  obtain ⟨⟨⟨⟨⟨⟨⟨⟨⟨⟨⟨⟨⟨hn, hrange⟩, -⟩, hsrc⟩, hdst⟩, hhost⟩, hspace⟩, hcheck⟩, hpriority⟩, hsnoop⟩, hsmall⟩, hbig⟩, hburst⟩, hz⟩ :=
    h
  dsimp only
  rintro (⟨hnamed, hbad⟩ | hbad | hbad | hbad | ⟨hindirect, hbad⟩ | hbad | hbad | hbad | hbad | hbad | hbad | hbad)
  · rw [if_neg (by simpa using hnamed)] at hn
    omega
  · exact absurd hsrc (Nat.not_le.mpr hbad)
  · exact absurd hdst (Nat.not_le.mpr hbad)
  · exact hhost hbad
  · rcases hspace with h | h
    · simp [h] at hindirect
    · exact absurd h (Nat.not_le.mpr hbad)
  · exact absurd hcheck (Nat.not_le.mpr hbad)
  · exact absurd hpriority (Nat.not_le.mpr hbad)
  · exact absurd hsnoop (Nat.not_le.mpr hbad)
  · exact absurd hsmall (Nat.not_le.mpr hbad)
  · exact absurd hbig (Nat.not_le.mpr hbad)
  · exact hbad hburst
  · exact ne_true_of_not hbad hz

theorem completes_flowCreate (n : Nat) : Completes .flowCreate 0x1101 (Cond.flowCreate n) (Eff.flowCreate n) := by
  refine completes_of flowCreate (fun _ _ _ _ => rfl) fun c a h => ?_
  have hfields := Cond.flowCreate_fields h
  simp only [Cond.flowCreate, Bool.and_eq_true, decide_eq_true_eq, beq_iff_eq] at h
  obtain ⟨⟨⟨⟨⟨⟨⟨⟨⟨⟨⟨⟨⟨hn, hrange⟩, hfree⟩, -⟩, -⟩, -⟩, -⟩, -⟩, -⟩, -⟩, -⟩, -⟩, -⟩, -⟩ := h
  refine State.conclude_congr (if_neg hfields) ?_
  simp only [beq_iff_eq, ← hn]
  exact State.conclude_congr ((if_neg (Nat.not_lt.mpr hrange)).trans (if_neg (ne_true_of_not hfree))) (conclude_done ..)

theorem completes_flowEnable : Completes .flowEnable 0x1102 Cond.flowEnable Eff.flowEnable := by
  refine completes_of flowEnable (fun _ _ _ _ => rfl) fun c a h => ?_
  simp only [Cond.flowEnable, Bool.and_eq_true, Bool.or_eq_true, decide_eq_true_eq, bne_iff_ne, 
    Option.isSome_iff_ne_none] at h
  obtain ⟨⟨⟨⟨⟨⟨hrange, hz⟩, hexists⟩, hquiet⟩, hruns⟩, hbound⟩, hadmitted⟩ := h
  obtain ⟨d, hadmitted⟩ := Option.ne_none_iff_exists'.mp hadmitted
  obtain ⟨b, hallot, hdeclare⟩ := Option.bind_eq_some_iff.mp hadmitted
  refine State.conclude_congr ((if_neg (by simp [hrange, hz])).trans ((if_neg ?_).trans
    ((if_neg fun hbad => ne_true_of_not hquiet (beq_iff_eq.mpr hbad)).trans
      (if_neg fun hbad => ne_true_of_not hruns (beq_iff_eq.mpr hbad))))) ?_
  · rintro (hbad | ⟨hport, hbad⟩)
    · exact ne_true_of_not hbad hexists
    · exact hbound.elim (fun h => h hport) fun h => h (Option.isNone_iff_eq_none.mp hbad)
  · simp only [Cond.flowRate] at hallot
    simp only [hallot, State.eq_ok_of_toOption hdeclare, conclude_done, Eff.flowEnable, hadmitted, Option.getD_some]
    rfl

/-- A flow that a command names and that does not come to rest exists. -/
theorem Cond.flowThere_parts {c : Cmd} {a : State} (h : Cond.flowThere c a = true) :
    u32 c.payload 0 ≤ 49151 ∧ a.flowExists (u32 c.payload 0) = true ∧ (a.flow (u32 c.payload 0)).mode ≠ .quiescing := by
  simp only [Cond.flowThere, Cond.flowNamed, Bool.and_eq_true, decide_eq_true_eq, bne_iff_ne] at h
  exact ⟨h.1.1, h.1.2, h.2⟩

theorem completes_flowEnable_runs : Completes .flowEnable 0x1102
    (fun c a => Cond.flowThere c a && zeros c.payload 4 4 && (a.flow (u32 c.payload 0)).mode == .enabled &&
      ((a.flow (u32 c.payload 0)).dst != 0 || (a.flow (u32 c.payload 0)).bind.isSome))
    Eff.flowEnable2 := by
  refine completes_of flowEnable (fun _ _ _ _ => rfl) fun c a h => ?_
  simp only [Bool.and_eq_true, Bool.or_eq_true, bne_iff_ne, beq_iff_eq, Option.isSome_iff_ne_none] at h
  obtain ⟨⟨⟨hthere, hz⟩, hruns⟩, hbound⟩ := h
  obtain ⟨hrange, hexists, hquiet⟩ := Cond.flowThere_parts hthere
  refine State.conclude_congr ((if_neg (by simp [hrange, hz])).trans ((if_neg ?_).trans
    ((if_neg hquiet).trans (if_pos hruns)))) (conclude_done ..)
  rintro (hbad | ⟨hport, hbad⟩)
  · exact ne_true_of_not hbad hexists
  · exact hbound.elim (fun h => h hport) fun h => h (Option.isNone_iff_eq_none.mp hbad)

/-! ## Coming to rest (R445, R450) -/

/-- A flow that a command names exists. -/
theorem Cond.flowNamed_iff {c : Cmd} {a : State} :
    Cond.flowNamed c a = true ↔ u32 c.payload 0 ≤ 49151 ∧ a.flowExists (u32 c.payload 0) = true := by
  simp only [Cond.flowNamed, Bool.and_eq_true, decide_eq_true_eq]

/-- What a DISABLE or a DESTROY of a flow that exists looks at next. -/
theorem flowDisable_named {destroy : Bool} {c : Cmd} {a : State} (h : Cond.flowNamed c a = true) :
    flowDisable destroy c a =
      if (a.flow (u32 c.payload 0)).mode = .quiescing then (if destroy then .wait else .running 0 [] a)
      else if (!destroy) = true ∧ (a.flow (u32 c.payload 0)).mode = .disabled then .done .quiesced 0 a
      else
        match destroy, a.producersOf (u32 c.payload 0) with
        | true, k :: _ => .fail .badState (consumerWord k)
        | _, _ => a.flowStop c (u32 c.payload 0) (if destroy then 2 else 1) := by
  obtain ⟨hrange, hexists⟩ := Cond.flowNamed_iff.mp h
  exact (if_neg (Nat.not_lt.mpr hrange)).trans (if_neg (by simp [hexists]))

/-- A flow that a command names and that does not come to rest is named. -/
theorem Cond.flowNamed_of_flowThere {c : Cmd} {a : State} (h : Cond.flowThere c a = true) : Cond.flowNamed c a = true :=
  (Bool.and_eq_true_iff.mp h).1

theorem completes_flowDisable : Completes .flowDisable 0x1103
    (fun c a => Cond.flowThere c a && (a.flow (u32 c.payload 0)).mode != .disabled) Eff.flowDisable := by
  refine completes_of (flowDisable false) (fun _ _ _ _ => rfl) fun c a h => ?_
  obtain ⟨hthere, hmode⟩ := Bool.and_eq_true_iff.mp h
  exact State.conclude_congr ((flowDisable_named (Cond.flowNamed_of_flowThere hthere)).trans
    ((if_neg (Cond.flowThere_parts hthere).2.2).trans (if_neg fun hbad => bne_iff_ne.mp hmode hbad.2)))
    (conclude_running ..)

theorem completes_flowDisable_quiescing : Completes .flowDisable 0x1103
    (fun c a => Cond.flowNamed c a && (a.flow (u32 c.payload 0)).mode == .quiescing) (fun c a => a.markStarted c 0 []) := by
  refine completes_of (flowDisable false) (fun _ _ _ _ => rfl) fun c a h => ?_
  obtain ⟨hnamed, hmode⟩ := Bool.and_eq_true_iff.mp h
  exact State.conclude_congr ((flowDisable_named hnamed).trans ((if_pos (beq_iff_eq.mp hmode)).trans
    (if_neg Bool.false_ne_true))) (conclude_running ..)

theorem completes_flowDisable_disabled : Completes .flowDisable 0x1103
    (fun c a => Cond.flowNamed c a && (a.flow (u32 c.payload 0)).mode == .disabled) (fun c a => a.finish c .quiesced 0) := by
  refine completes_of (flowDisable false) (fun _ _ _ _ => rfl) fun c a h => ?_
  simp only [Bool.and_eq_true, beq_iff_eq] at h
  obtain ⟨hnamed, hmode⟩ := h
  exact State.conclude_congr ((flowDisable_named hnamed).trans ((if_neg (by simp [hmode])).trans
    (if_pos ⟨rfl, hmode⟩))) (conclude_done ..)

theorem completes_flowDestroy : Completes .flowDestroy 0x1104
    (fun c a => Cond.flowThere c a && (a.producersOf (u32 c.payload 0)).isEmpty) Eff.flowDestroy := by
  refine completes_of (flowDisable true) (fun _ _ _ _ => rfl) fun c a h => ?_
  obtain ⟨hthere, hnone⟩ := Bool.and_eq_true_iff.mp h
  refine State.conclude_congr ((flowDisable_named (Cond.flowNamed_of_flowThere hthere)).trans
    ((if_neg (Cond.flowThere_parts hthere).2.2).trans (if_neg fun hbad => Bool.false_ne_true hbad.1))) ?_
  rw [List.isEmpty_iff.mp hnone]
  exact conclude_running ..

/-! ## Posting and status (R437, R451, R452) -/

theorem completes_flowPostDescriptors : Completes .flowPostDescriptors 0x1105
    (fun c a =>
      let p := c.payload
      Cond.flowThere c a && u32 p 4 != 0 && decide (u32 p 4 ≤ 65535) && u64 p 8 % 64 == 0 && !(a.flow (u32 p 0)).direct &&
        decide ((a.flow (u32 p 0)).chains.length < 16))
    Eff.flowPostDescriptors := by
  refine completes_of flowPostDescriptors (fun _ _ _ _ => rfl) fun c a h => ?_
  simp only [Bool.and_eq_true, bne_iff_ne, decide_eq_true_eq, beq_iff_eq, Bool.not_eq_true'] at h
  obtain ⟨⟨⟨⟨⟨hthere, hsome⟩, hmany⟩, haligned⟩, hindirect⟩, hroom⟩ := h
  obtain ⟨hrange, hexists, hquiet⟩ := Cond.flowThere_parts hthere
  exact State.conclude_congr ((if_neg (by omega)).trans ((if_neg (by simp [hexists, hindirect])).trans
    ((if_neg hquiet).trans (if_neg (Nat.not_le.mpr hroom))))) (conclude_done ..)

@[simp] theorem State.flowStatus_length (a : State) (f : Nat) : (a.flowStatus f).length = 64 := by
  simp [State.flowStatus, pack_length]

theorem completes_flowGetStatus : Completes .flowGetStatus 0x1106
    (fun c a => Cond.flowNamed c a && decide (64 ≤ c.room)) Eff.flowGetStatus := by
  refine completes_of flowGetStatus (fun _ _ _ _ => rfl) fun c a h => ?_
  obtain ⟨hnamed, hroom⟩ := Bool.and_eq_true_iff.mp h
  obtain ⟨hrange, hexists⟩ := Cond.flowNamed_iff.mp hnamed
  exact State.conclude_congr ((if_neg (Nat.not_lt.mpr hrange)).trans (if_neg (by simp [hexists])))
    (conclude_data (by simpa using hroom) _ _ _)

/-! ## Descriptors and units (R435, R437, R439) -/

/-- The next descriptor address of a flow, with the rest of its chain and the chains after it. -/
def Flow.nextDescr (x : Flow) : Option ((Nat × Nat) × List (Nat × Nat)) :=
  match x.chain, x.chains with
  | some c, _ => some (c, x.chains)
  | none, c :: cs => some (c, cs)
  | none, [] => none

theorem Flow.nextDescr_eq_some {x : Flow} {addr left : Nat} {rest : List (Nat × Nat)}
    (h : Cond.nextDescr x addr left rest = true) : x.nextDescr = some ((addr, left), rest) := by
  unfold Cond.nextDescr at h
  unfold Flow.nextDescr
  cases hchain : x.chain with
  | some c =>
    simp only [hchain, Bool.and_eq_true, beq_iff_eq] at h
    simp only [h.1, h.2]
  | none =>
    cases hchains : x.chains with
    | nil => simp [hchain, hchains] at h
    | cons c cs =>
      simp only [hchain, hchains, Bool.and_eq_true, beq_iff_eq] at h
      simp only [h.1, h.2]

/-- The index list of a descriptor, by where it lies. -/
theorem Cond.descrIndex_eq (x : Flow) (b : List Byte) (index : List Nat) (a : State) :
    Cond.descrIndex x b index a = if (u8 b 0).testBit 1 = true then
      (if x.src = 2 then
        (records (min 16777216 (u32 b 40)) 4 (a.cellarMem.readBytes (u64 b 32) (4 * min 16777216 (u32 b 40)))).map leNat
      else index) else [] := by
  unfold Cond.descrIndex
  cases (u8 b 0).testBit 1 <;> rfl

theorem happens_descriptorFetched (f addr left : Nat) (rest : List (Nat × Nat)) (bytes : List Byte) (index : List Nat) :
    Happens (.descriptorFetched · f bytes index) (Cond.fetches f addr left rest)
      (Eff.descriptorFetched f addr left rest bytes index) := by
  refine happens_of _ (fun _ _ => rfl) fun a h => ?_
  simp only [Cond.fetches, Bool.and_eq_true, decide_eq_true_eq] at h
  obtain ⟨⟨hnext, hmode⟩, hroom⟩ := h
  change (match (a.flow f).nextDescr with
    | none => a
    | some ((addr, left), rest) => _) = _
  simp only [Flow.nextDescr_eq_some hnext]
  refine (if_neg (by simp only [hmode, Nat.not_le.mpr hroom]; decide)).trans ?_
  simp only [Eff.descriptorFetched, Cond.descrFetched, Cond.descrIndex_eq]
  rfl

theorem happens_producerUnitArrival (f : Nat) (u : FlowUnit) (rest : List FlowUnit) :
    Happens (.producerUnitArrival · f) (Cond.takesUnit f u rest) (Eff.producerUnitArrival f u rest) := by
  refine happens_of _ (fun _ _ => rfl) fun a h => ?_
  unfold Cond.takesUnit at h
  obtain ⟨h, hposted⟩ := Bool.and_eq_true_iff.mp h
  simp only [Bool.and_eq_true, beq_iff_eq] at h
  obtain ⟨⟨⟨hoffered, hmode⟩, hsrc⟩, hempty⟩ := h
  simp only [hoffered]
  exact if_neg (by rw [hposted, hmode, hsrc, hempty]; decide)

/-! ## Bursts (R438, R440, R443, R444) -/

theorem happens_burstAdmission (f n : Nat) (slack : Bool) : Happens .burstAdmission
    (fun a => decide (a.inFlight < 4096) && a.chooseFlow == some (f, slack) && (a.flow f).ready == some n)
    (Eff.burstAdmission f n slack) := by
  refine happens_of _ (fun _ _ => rfl) fun a h => ?_
  simp only [Bool.and_eq_true, decide_eq_true_eq, beq_iff_eq] at h
  obtain ⟨⟨hroom, hchosen⟩, hready⟩ := h
  refine (if_neg (Nat.not_le.mpr hroom)).trans ?_
  simp only [hchosen, hready]

/-- A burst in flight that is answered is written where it may be, and otherwise fails. -/
theorem happens_burstCompletion (f offset : Nat) (b : Burst) (m : Moving) (data : List Byte) :
    Happens (.burstCompletion · f offset data) (Cond.inFlight f offset m b)
      (fun a => if Cond.burstGood (a.flow f) m b a = true then Eff.burstCompletion f offset b m data a
        else a.burstFails f offset) := by
  refine happens_of _ (fun _ _ => rfl) fun a h => ?_
  simp only [Cond.inFlight, Bool.and_eq_true, beq_iff_eq] at h
  obtain ⟨⟨hcur, hflight⟩, rfl⟩ := h
  unfold State.burstDone
  simp only [hcur, hflight]
  have hbad : (!b.granted && (((a.flow f).src == 2 && !a.sourceOk m.desc b.offset b.size) ||
      ((a.flow f).dst == 2 && !a.inRegion (m.desc.dest + b.offset) b.size))) = !Cond.burstGood (a.flow f) m b a := by
    simp only [Cond.burstGood, Bool.not_or, Bool.not_and, Bool.not_not, bne]
  rw [hbad]
  cases Cond.burstGood (a.flow f) m b a <;> rfl

theorem happens_burstCompletion_good (f offset : Nat) (b : Burst) (m : Moving) (data : List Byte) :
    Happens (.burstCompletion · f offset data)
      (fun a => Cond.inFlight f offset m b a && Cond.burstGood (a.flow f) m b a)
      (Eff.burstCompletion f offset b m data) := by
  refine (happens_burstCompletion f offset b m data).when fun a h => ?_
  obtain ⟨hflight, hgood⟩ := Bool.and_eq_true_iff.mp h
  exact ⟨hflight, if_pos hgood⟩

theorem happens_burstCompletion_bad (f offset : Nat) (b : Burst) (m : Moving) (data : List Byte) :
    Happens (.burstCompletion · f offset data)
      (fun a => Cond.inFlight f offset m b a && !Cond.burstGood (a.flow f) m b a) (fun a => a.burstFails f offset) := by
  refine (happens_burstCompletion f offset b m data).when fun a h => ?_
  obtain ⟨hflight, hbad⟩ := Bool.and_eq_true_iff.mp h
  exact ⟨hflight, if_neg (ne_true_of_not hbad)⟩

theorem happens_burstError (f offset : Nat) (m : Moving) : Happens (.burstError · f offset) (Cond.moving f offset m)
    (Eff.burstError f offset m) := by
  refine happens_of _ (fun _ _ => rfl) fun a h => ?_
  obtain ⟨hcur, hflight⟩ := Bool.and_eq_true_iff.mp h
  unfold State.burstFails
  simp only [beq_iff_eq.mp hcur]
  exact if_neg (by simp only [hflight]; decide)

theorem happens_hostReadTimeout (f : Nat) (m : Moving) : Happens (.hostReadTimeout · f)
    (fun a => (a.flow f).cur == some m && (a.flow f).src == 1) (Eff.hostReadTimeout f m) := by
  refine happens_of _ (fun _ _ => rfl) fun a h => ?_
  simp only [Bool.and_eq_true, beq_iff_eq] at h
  obtain ⟨hcur, hsrc⟩ := h
  simp only [hcur]
  exact if_neg (not_not_intro hsrc)

/-- Settles O44, verb by verb and row by row. -/
theorem flowVerbsAndBursts : Obligations.FlowVerbsAndBursts :=
  ⟨completes_flowCreate, completes_flowEnable, completes_flowEnable_runs, completes_flowDisable,
    completes_flowDisable_quiescing, completes_flowDisable_disabled, completes_flowDestroy,
    completes_flowPostDescriptors, completes_flowGetStatus, happens_descriptorFetched, happens_producerUnitArrival,
    happens_burstAdmission, happens_burstCompletion_good, happens_burstCompletion_bad, happens_burstError,
    happens_hostReadTimeout⟩

end Sys2Proof.Machine

end

section

namespace Sys2Proof.Machine

/-! # The STREAM verbs and the rows of the stream ports -/

/-! ## Ports (R465, R466) -/

/-- The fields of `STREAM.CONFIGURE_PORT` are in range; those of the addresses only where the port has a role. -/
theorem Cond.streamConfigure_fields {c : Cmd} {a : State} (h : Cond.streamConfigure c a = true)
    (hrole : u8 c.payload 1 = 0 ∨ Cond.streamFields c.payload = true) :
    let p := c.payload
    ¬ (u8 p 0 > 4 ∨ u8 p 1 > 2 ∨ u8 p 2 > 3 ∨ (!zeros p 58 6) = true ∨ (u8 p 1 ≠ 0 ∧ (u8 p 3 = 0 ∨
      ((u8 p 2).testBit 1 = true ∧ (u16 p 10 = 0 ∨ u16 p 10 > 4094)) ∨
      ((!(u8 p 2).testBit 0) = true ∧ (!zeros p 44 12) = true)))) := by
  simp only [Cond.streamConfigure, Bool.and_eq_true, decide_eq_true_eq] at h
  obtain ⟨⟨⟨⟨⟨⟨hport, hroles⟩, hflags⟩, hz⟩, -⟩, -⟩, -⟩ := h
  dsimp only
  rintro (hbad | hbad | hbad | hbad | ⟨hset, hbad⟩)
  · exact absurd hport (Nat.not_le.mpr hbad)
  · exact absurd hroles (Nat.not_le.mpr hbad)
  · exact absurd hflags (Nat.not_le.mpr hbad)
  · exact ne_true_of_not hbad hz
  · have hfields := hrole.resolve_left hset
    simp only [Cond.streamFields, Bool.and_eq_true, Bool.or_eq_true, bne_iff_ne, decide_eq_true_eq] at hfields
    obtain ⟨⟨httl, hvlan⟩, haddr⟩ := hfields
    rcases hbad with hbad | ⟨htagged, hbad⟩ | ⟨hshort, hbad⟩
    · exact httl hbad
    · rcases hvlan with h | h
      · simp [htagged] at h
      · omega
    · rcases haddr with h | h
      · simp [h] at hshort
      · exact ne_true_of_not hbad h

/-- A port that no flow is bound to goes off, or takes its settings where its energy fits. -/
theorem streamConfigurePort_met {c : Cmd} {a : State} (h : Cond.streamConfigure c a = true)
    (hrole : u8 c.payload 1 = 0 ∨ Cond.streamFields c.payload = true) :
    streamConfigurePort c a =
      let n := u8 c.payload 0
      if u8 c.payload 1 = 0 then
        .done .quiesced 0 ((a.setPort n { a.port n with mode := .off, role := 0, carrying := none }).undeclare 0x12 n)
      else
        match a.declare [Cond.portDecl n] with
        | .error e => .fail .noEnergy e
        | .ok b =>
          if (a.port n).mode = .up then .done .ok 0 (b.setPort n (Cond.streamSettings c.payload (a.port n)))
          else .running 0 [] (b.setPort n (Cond.streamSettings c.payload (a.port n))) := by
  refine (if_neg (Cond.streamConfigure_fields h hrole)).trans ?_
  simp only [Cond.streamConfigure, Bool.and_eq_true, Bool.or_eq_true, bne_iff_ne] at h
  obtain ⟨⟨⟨-, hunbound⟩, hfailed⟩, hspare⟩ := h
  simp only [List.isEmpty_iff.mp hunbound]
  refine if_neg ?_
  rintro (hbad | ⟨hsecond, hbad⟩)
  · exact ne_true_of_not hfailed (beq_iff_eq.mpr hbad)
  · exact hspare.elim (fun h => h hsecond) fun h => ne_true_of_not h hbad

theorem completes_streamConfigurePort : Completes .streamConfigurePort 0x1201
    (fun c a => Cond.streamConfigure c a && u8 c.payload 1 != 0 && Cond.streamFields c.payload &&
      (a.declare [Cond.portDecl (u8 c.payload 0)]).isOk)
    Eff.streamConfigurePort := by
  refine completes_of streamConfigurePort (fun _ _ _ _ => rfl) fun c a h => ?_
  simp only [Bool.and_eq_true, bne_iff_ne] at h
  obtain ⟨⟨⟨hok, hrole⟩, hfields⟩, hfits⟩ := h
  obtain ⟨b, hb⟩ := State.declare_ok_of_isOk hfits
  refine State.conclude_congr ((streamConfigurePort_met hok (Or.inr hfields)).trans (if_neg hrole)) ?_
  simp only [hb, Eff.streamConfigurePort, beq_iff_eq]
  split <;> rfl

theorem completes_streamConfigurePort_off : Completes .streamConfigurePort 0x1201
    (fun c a => Cond.streamConfigure c a && u8 c.payload 1 == 0) Eff.streamConfigurePort2 := by
  refine completes_of streamConfigurePort (fun _ _ _ _ => rfl) fun c a h => ?_
  obtain ⟨hok, hoff⟩ := Bool.and_eq_true_iff.mp h
  exact State.conclude_congr ((streamConfigurePort_met hok (Or.inl (beq_iff_eq.mp hoff))).trans
    (if_pos (beq_iff_eq.mp hoff))) (conclude_done ..)

/-! ## Bindings and status (R467, R468) -/

/-- The settings of a binding are in range. -/
theorem Cond.streamBind_fields {c : Cmd} {a : State} (h : Cond.streamBind c a = true) :
    let p := c.payload
    let b := Cond.streamBinding p
    ¬ (b.dscp > 63 ∨ b.pcp > 7 ∨ ((u8 p 5).testBit 1 = true ∧ (b.vlan = 0 ∨ b.vlan > 4094)) ∨ b.flushUs = 0 ∨
      b.flushUs > 1000 ∨ u16 p 10 < 252 ∨ u16 p 10 % 12 ≠ 0 ∨ frameBytes (u8 p 5) (u16 p 10) > 9216 ∨
      ((!(u8 p 5).testBit 0) = true ∧ (!zeros p 28 12) = true) ∨
      ((u8 p 5).testBit 2 = true ∧ a.flowExists (u32 p 0) = true ∧ (a.flow (u32 p 0)).src ≠ 2)) := by
  simp only [Cond.streamBind, Bool.and_eq_true, Bool.or_eq_true, bne_iff_ne, beq_iff_eq, decide_eq_true_eq] at h
  obtain ⟨⟨⟨⟨⟨⟨⟨⟨⟨⟨-, hdscp⟩, hpcp⟩, hvlan⟩, hflush⟩, hlate⟩, hsmall⟩, hthirds⟩, hframe⟩, haddr⟩, hslot⟩ := h
  dsimp only
  rintro (hbad | hbad | ⟨htagged, hbad⟩ | hbad | hbad | hbad | hbad | hbad | ⟨hshort, hbad⟩ | ⟨hslots, -, hbad⟩)
  · exact absurd hdscp (Nat.not_le.mpr hbad)
  · exact absurd hpcp (Nat.not_le.mpr hbad)
  · rcases hvlan with h | ⟨hsome, hrange⟩
    · exact ne_true_of_not h htagged
    · exact hbad.elim hsome fun h => absurd hrange (Nat.not_le.mpr h)
  · exact hflush hbad
  · exact absurd hlate (Nat.not_le.mpr hbad)
  · exact absurd hsmall (Nat.not_le.mpr hbad)
  · exact hbad hthirds
  · exact absurd hframe (Nat.not_le.mpr hbad)
  · rcases haddr with h | h
    · exact ne_true_of_not hshort h
    · exact ne_true_of_not hbad h
  · exact hslot.elim (fun h => ne_true_of_not h hslots) hbad

/-- A flow toward a port that does not run is bound, or unbound, where the operands are in range. -/
theorem streamBindFlow_met {c : Cmd} {a : State} (h : Cond.streamFlow c a = true)
    (hbind : (u8 c.payload 5).testBit 3 = true ∨ Cond.streamBind c a = true) :
    streamBindFlow c a =
      let f := u32 c.payload 0
      let n := u8 c.payload 4
      if (u8 c.payload 5).testBit 3 = true then .done .ok 0 (a.setFlow f { a.flow f with bind := none })
      else if (a.port n).role ≠ 1 ∨ (a.port n).mode ≠ .up then .fail .badState 0
      else .done .ok 0
        (a.setFlow f { a.flow f with bind := some { Cond.streamBinding c.payload with levelAt := a.now } }) := by
  simp only [Cond.streamFlow, Bool.and_eq_true, Bool.or_eq_true, decide_eq_true_eq, beq_iff_eq] at h
  obtain ⟨⟨⟨⟨⟨⟨hrange, hport⟩, hflags⟩, hz⟩, hexists⟩, hmode⟩, hdst⟩ := h
  refine (if_neg ?_).trans (if_neg ?_)
  · rintro (hbad | hbad | hbad | hbad | ⟨hbinds, hbad⟩)
    · exact absurd hrange (Nat.not_le.mpr hbad)
    · exact absurd hport (Nat.not_le.mpr hbad)
    · exact absurd hflags (Nat.not_le.mpr hbad)
    · exact ne_true_of_not hbad hz
    · exact Cond.streamBind_fields (hbind.resolve_left (ne_true_of_not hbinds)) hbad
  · rintro (hbad | ⟨hcreated, hdisabled⟩ | hbad)
    · exact ne_true_of_not hbad hexists
    · exact hmode.elim hcreated hdisabled
    · exact hbad hdst

theorem completes_streamBindFlow : Completes .streamBindFlow 0x1202
    (fun c a => Cond.streamFlow c a && Cond.streamBind c a && (a.port (u8 c.payload 4)).role == 1 &&
      Cond.portUp (u8 c.payload 4) a)
    Eff.streamBindFlow := by
  refine completes_of streamBindFlow (fun _ _ _ _ => rfl) fun c a h => ?_
  simp only [Cond.portUp, Bool.and_eq_true, beq_iff_eq] at h
  obtain ⟨⟨⟨hflow, hbind⟩, hrole⟩, hup⟩ := h
  have hbinds : ¬ (u8 c.payload 5).testBit 3 = true := by
    simp only [Cond.streamBind, Bool.and_eq_true] at hbind
    obtain ⟨⟨⟨⟨⟨⟨⟨⟨⟨⟨hbinds, -⟩, -⟩, -⟩, -⟩, -⟩, -⟩, -⟩, -⟩, -⟩, -⟩ := hbind
    exact ne_true_of_not hbinds
  exact State.conclude_congr ((streamBindFlow_met hflow (Or.inr hbind)).trans ((if_neg hbinds).trans
    (if_neg (not_or.mpr ⟨not_not_intro hrole, not_not_intro hup⟩)))) (conclude_done ..)

theorem completes_streamBindFlow_unbind : Completes .streamBindFlow 0x1202
    (fun c a => Cond.streamFlow c a && (u8 c.payload 5).testBit 3) Eff.streamBindFlow2 := by
  refine completes_of streamBindFlow (fun _ _ _ _ => rfl) fun c a h => ?_
  obtain ⟨hflow, hunbind⟩ := Bool.and_eq_true_iff.mp h
  exact State.conclude_congr ((streamBindFlow_met hflow (Or.inl hunbind)).trans (if_pos hunbind)) (conclude_done ..)

theorem completes_streamGetStatus : Completes .streamGetStatus 0x1203
    (fun c _ => decide (u8 c.payload 0 ≤ 4) && zeros c.payload 1 3 && decide (64 ≤ c.room)) Eff.streamGetStatus := by
  refine completes_of streamGetStatus (fun _ _ _ _ => rfl) fun c a h => ?_
  simp only [Bool.and_eq_true, decide_eq_true_eq] at h
  obtain ⟨⟨hport, hz⟩, hroom⟩ := h
  refine State.conclude_congr (if_neg (by simp [hport, hz])) (conclude_data ?_ _ _ _)
  simpa [pack_length] using hroom

/-! ## Packets and heartbeats (R459, R460, R462) -/

theorem happens_portLinkUp (n : Nat) :
    Happens (.portLinkUp · n) (fun a => (a.port n).mode == .training) (Eff.portLinkUp n) :=
  happens_of _ (fun _ _ => rfl) fun _ h => if_pos h

/-- A port that is up passes the test at the head of its rows. -/
theorem Cond.portUp_passes {n : Nat} {a : State} (h : Cond.portUp n a = true) :
    ¬ ((a.port n).mode != .up) = true :=
  fun hbad => bne_iff_ne.mp hbad (beq_iff_eq.mp h)

theorem happens_packetTransmit (n f : Nat) (b b2 : Binding) (k : Packet) : Happens (.packetTransmit · n f)
    (fun a => (a.flow f).bind == some b && b.port == n && Cond.portUp n a && b.next f == some (k, b2) && a.maySend n f)
    (Eff.packetTransmit n f b b2 k) := by
  refine happens_of _ (fun _ _ => rfl) fun a h => ?_
  simp only [Cond.portUp, Bool.and_eq_true, beq_iff_eq] at h
  obtain ⟨⟨⟨⟨hbind, hport⟩, hup⟩, hnext⟩, hmay⟩ := h
  simp only [hbind]
  refine (if_neg (by simp [hport, hup])).trans ?_
  simp only [hnext]
  exact if_neg (by simp [hmay])

theorem happens_packetFlushTimeout (f : Nat) (b : Binding) : Happens (.packetFlushTimeout · f)
    (fun a => (a.flow f).bind == some b && !b.queue.isEmpty && decide (b.openAt + b.flushUs * ticksPerUs ≤ a.now))
    (Eff.packetFlushTimeout f b) := by
  refine happens_of _ (fun _ _ => rfl) fun a h => ?_
  simp only [Bool.and_eq_true, beq_iff_eq, decide_eq_true_eq] at h
  obtain ⟨⟨hbind, hqueue⟩, hreached⟩ := h
  simp only [hbind]
  refine if_neg ?_
  simp only [Bool.or_eq_true, decide_eq_true_eq, not_or]
  exact ⟨ne_true_of_not hqueue, Nat.not_lt.mpr hreached⟩

/-- What a datagram's frame takes from the port that sends it. -/
def Port.address (x : Port) : List Byte × List Byte × List Byte × Nat := (x.mac, x.ip4, x.ip6, x.ttl)

theorem Datagram.frame_congr {d : Datagram} {x y : Port} {body : List Byte} (h : x.address = y.address) :
    d.frame x body = d.frame y body := by
  simp only [Port.address, Prod.mk.injEq] at h
  obtain ⟨hmac, hip4, hip6, httl⟩ := h
  simp only [Datagram.frame, hmac, hip4, hip6, httl]

/-- A port that keeps its own addresses keeps those that it shows. -/
theorem State.faceOf_setPort_same {a : State} {n : Nat} {x : Port} (hmac : x.mac = (a.port n).mac)
    (hip4 : x.ip4 = (a.port n).ip4) (hip6 : x.ip6 = (a.port n).ip6) (httl : x.ttl = (a.port n).ttl)
    (hcarrying : x.carrying = (a.port n).carrying) : ((a.setPort n x).faceOf n).address = (a.faceOf n).address := by
  unfold State.faceOf
  rw [State.setPort_same, hcarrying]
  cases (a.port n).carrying with
  | none => simp only [Port.address, hmac, hip4, hip6, httl]
  | some q =>
    by_cases hq : q = n
    · subst hq
      simp only [State.setPort_same, Port.address, hmac, hip4, hip6, httl]
    · simp only [State.setPort_other _ _ _ hq, Port.address, httl]

theorem happens_heartbeatTimer (n : Nat) : Happens (.heartbeatTimer · n)
    (fun a => Cond.portUp n a && (a.port n).role != 0 && (a.port n).beatDue a.now) (Eff.heartbeatTimer n) := by
  refine happens_of _ (fun _ _ => rfl) fun a h => ?_
  simp only [Cond.portUp, Bool.and_eq_true, beq_iff_eq, bne_iff_ne] at h
  obtain ⟨⟨hup, hrole⟩, hdue⟩ := h
  refine (if_neg (by simp [hup, hrole, hdue])).trans ?_
  refine congrArg (fun bytes => State.emit _ (.ethFrame n bytes)) (Datagram.frame_congr (Eq.symm ?_))
  exact State.faceOf_setPort_same rfl rfl rfl rfl rfl

/-! ## Received frames (R455) -/

theorem happens_arpRequestReceived (n : Nat) (mac ip target : List Byte) : Happens (.arpRequestReceived · n mac ip target)
    (fun a => Cond.portUp n a && (a.faceOf n).ip4 == target) (Eff.arpRequestReceived n mac ip) := by
  refine happens_of _ (fun _ _ => rfl) fun a h => ?_
  obtain ⟨hup, hours⟩ := Bool.and_eq_true_iff.mp h
  exact (if_neg (Cond.portUp_passes hup)).trans (if_neg (by simp [beq_iff_eq.mp hours]))

theorem happens_arpRequestReceived_other (n : Nat) (mac ip target : List Byte) :
    Happens (.arpRequestReceived · n mac ip target) (fun a => Cond.portUp n a && (a.faceOf n).ip4 != target)
      (fun a => a.discardFrame n) := by
  refine happens_of _ (fun _ _ => rfl) fun a h => ?_
  obtain ⟨hup, hother⟩ := Bool.and_eq_true_iff.mp h
  exact (if_neg (Cond.portUp_passes hup)).trans (if_pos (bne_iff_ne.mpr (bne_iff_ne.mp hother).symm))

theorem happens_neighbourSolicitationReceived (n : Nat) (mac ip target : List Byte) :
    Happens (.neighbourSolicitationReceived · n mac ip target) (fun a => Cond.portUp n a && (a.faceOf n).ip6 == target)
      (Eff.neighbourSolicitationReceived n mac ip) := by
  refine happens_of _ (fun _ _ => rfl) fun a h => ?_
  obtain ⟨hup, hours⟩ := Bool.and_eq_true_iff.mp h
  exact (if_neg (Cond.portUp_passes hup)).trans (if_neg (by simp [beq_iff_eq.mp hours]))

theorem happens_neighbourSolicitationReceived_other (n : Nat) (mac ip target : List Byte) :
    Happens (.neighbourSolicitationReceived · n mac ip target) (fun a => Cond.portUp n a && (a.faceOf n).ip6 != target)
      (fun a => a.discardFrame n) := by
  refine happens_of _ (fun _ _ => rfl) fun a h => ?_
  obtain ⟨hup, hother⟩ := Bool.and_eq_true_iff.mp h
  exact (if_neg (Cond.portUp_passes hup)).trans (if_pos (bne_iff_ne.mpr (bne_iff_ne.mp hother).symm))

theorem happens_otherFrameReceived (n : Nat) :
    Happens (.otherFrameReceived · n) (Cond.portUp n) (fun a => a.discardFrame n) :=
  happens_of _ (fun _ _ => rfl) fun _ h => if_neg (Cond.portUp_passes h)

theorem happens_pauseFrameReceived (n : Nat) :
    Happens (.pauseFrameReceived · n) (Cond.portUp n) (Eff.pauseFrameReceived n) :=
  happens_of _ (fun _ _ => rfl) fun _ h => if_neg (Cond.portUp_passes h)

/-! ## Failover (R463, R464) -/

/-- A failed port is no spare, and its failure makes no other one a spare. -/
theorem Cond.sparePort_failed (n : Nat) (a : State) :
    ((List.range 5).find? fun q => ((a.setPort n { a.port n with mode := .failed }).port q).role == 2 &&
      ((a.setPort n { a.port n with mode := .failed }).port q).mode == .up &&
      ((a.setPort n { a.port n with mode := .failed }).port q).carrying.isNone) = Cond.sparePort n a := by
  refine congrArg (List.find? · (List.range 5)) (funext fun q => ?_)
  by_cases hq : q = n
  · subst hq
    rw [State.setPort_same]
    simp
  · rw [State.setPort_other _ _ _ hq, bne_iff_ne.mpr hq, Bool.true_and]

/-- What the failure of a port comes to, by whether it is a stream port for which there is a spare. -/
theorem State.portFail_met {n cause : Nat} {a : State} (h : Cond.portFails n a = true) :
    a.portFail n cause false = match Cond.sparePort n a, (a.port n).role == 1 with
      | some q, true => Eff.portFailure n q cause a
      | _, _ => Eff.portFailure2 n a := by
  simp only [Cond.portFails, Bool.and_eq_true, decide_eq_true_eq, Bool.not_eq_true'] at h
  obtain ⟨⟨-, hport⟩, hthere⟩ := h
  refine (if_neg (by simp [hport, hthere])).trans ?_
  simp only [Cond.sparePort_failed]
  rfl

/-- The row of a failed port acts where it is up. -/
theorem happens_portFailure (n cause : Nat) : Happens (.portFailure · n cause) (Cond.portFails n)
    (fun a => a.portFail n cause false) := by
  refine happens_of _ (fun _ _ => rfl) fun a h => if_pos ?_
  simp only [Cond.portFails, Bool.and_eq_true] at h
  exact h.1.1

theorem happens_portFailure_spare (n q cause : Nat) : Happens (.portFailure · n cause)
    (fun a => Cond.portFails n a && (a.port n).role == 1 && Cond.sparePort n a == some q) (Eff.portFailure n q cause) := by
  refine (happens_portFailure n cause).when fun a h => ?_
  obtain ⟨h, hspare⟩ := Bool.and_eq_true_iff.mp h
  obtain ⟨hfails, hrole⟩ := Bool.and_eq_true_iff.mp h
  refine ⟨hfails, (State.portFail_met hfails).trans ?_⟩
  rw [beq_iff_eq.mp hspare, hrole]

theorem happens_portFailure_none (n cause : Nat) : Happens (.portFailure · n cause)
    (fun a => Cond.portFails n a && ((a.port n).role != 1 || (Cond.sparePort n a).isNone)) (Eff.portFailure2 n) := by
  refine (happens_portFailure n cause).when fun a h => ?_
  obtain ⟨hfails, hnone⟩ := Bool.and_eq_true_iff.mp h
  refine ⟨hfails, (State.portFail_met hfails).trans ?_⟩
  rcases Bool.or_eq_true_iff.mp hnone with hrole | hspare
  · rw [show ((a.port n).role == 1) = false from (Bool.not_eq_true' _).mp hrole]
    cases Cond.sparePort n a <;> rfl
  · rw [Option.isNone_iff_eq_none.mp hspare]

/-- Settles O45, verb by verb and row by row. -/
theorem streamPorts : Obligations.StreamPorts :=
  ⟨completes_streamConfigurePort, completes_streamConfigurePort_off, completes_streamBindFlow,
    completes_streamBindFlow_unbind, completes_streamGetStatus, happens_portLinkUp, happens_packetTransmit,
    happens_packetFlushTimeout, happens_heartbeatTimer, happens_arpRequestReceived, happens_arpRequestReceived_other,
    happens_neighbourSolicitationReceived, happens_neighbourSolicitationReceived_other, happens_otherFrameReceived,
    happens_pauseFrameReceived, happens_portFailure_spare, happens_portFailure_none⟩

end Sys2Proof.Machine

end

section

namespace Sys2Proof.Machine

/-! # The DISP verbs -/

/-! ## Timing and genlock (R471, R472, R483, R484) -/

theorem completes_dispSetTiming : Completes .dispSetTiming 0x1301 Cond.dispSetTiming Eff.dispSetTiming := by
  refine completes_of dispSetTiming (fun _ _ _ _ => rfl) fun c a h => ?_
  simp only [Cond.dispSetTiming, Bool.and_eq_true, Bool.or_eq_true, decide_eq_true_eq, beq_iff_eq, bne_iff_ne] at h
  obtain ⟨⟨⟨⟨⟨⟨⟨⟨⟨⟨⟨⟨⟨⟨⟨⟨⟨⟨hnarrow, hwide⟩, hhSync⟩, hlow⟩, hhigh⟩, hvSync⟩, hslow⟩, hfast⟩, hflags⟩, hz21⟩, hz27⟩, hz28⟩,
    hhTotal⟩, hvTotal⟩, hrare⟩, hoften⟩, hbuffer⟩, hmatch⟩, hmode⟩ := h
  refine State.conclude_congr ((if_neg ?_).trans (if_neg (not_not_intro hmode))) (conclude_done ..)
  rintro (hbad | hbad | hbad | hbad | hbad | hbad | hbad | hbad | hbad | hbad | hbad | hbad | hbad | hbad | hbad | hbad |
    hbad | ⟨hline, hbad⟩)
  · exact absurd hnarrow (Nat.not_le.mpr hbad)
  · exact absurd hwide (Nat.not_le.mpr hbad)
  · exact absurd hhSync (Nat.not_le.mpr hbad)
  · exact absurd hlow (Nat.not_le.mpr hbad)
  · exact absurd hhigh (Nat.not_le.mpr hbad)
  · exact hvSync hbad
  · exact absurd hslow (Nat.not_le.mpr hbad)
  · exact absurd hfast (Nat.not_le.mpr hbad)
  · exact absurd hflags (Nat.not_le.mpr hbad)
  · exact ne_true_of_not hbad hz21
  · exact ne_true_of_not hbad hz27
  · exact ne_true_of_not hbad hz28
  · exact absurd hhTotal (Nat.not_le.mpr hbad)
  · exact absurd hvTotal (Nat.not_le.mpr hbad)
  · exact absurd hrare (Nat.not_le.mpr hbad)
  · exact absurd hoften (Nat.not_le.mpr hbad)
  · exact absurd hbuffer (Nat.not_le.mpr hbad)
  · exact hmatch.elim hline (Nat.not_lt.mpr hbad)

/-- Genlock settings within the timing, where it is known, turn genlock on or off. -/
theorem dispSetGenlock_met {c : Cmd} {a : State} (h : Cond.dispSetGenlock c a = true) :
    dispSetGenlock c a =
      if u8 c.payload 0 = 0 then .done .ok 0 (a.setDisp (Cond.genlocked c.payload a.disp))
      else .running a.disp.genlockWord [] (a.setDisp (Cond.genlocked c.payload a.disp)) := by
  simp only [Cond.dispSetGenlock, Bool.and_eq_true, decide_eq_true_eq] at h
  obtain ⟨⟨⟨hon, hedge⟩, hz⟩, hinside⟩ := h
  refine if_neg ?_
  rintro (hbad | hbad | hbad | hbad)
  · exact absurd hon (Nat.not_le.mpr hbad)
  · exact absurd hedge (Nat.not_le.mpr hbad)
  · exact ne_true_of_not hbad hz
  · cases ht : a.disp.timing with
    | none => simp [ht] at hbad
    | some t =>
      simp only [ht, Option.all_some, Bool.and_eq_true, decide_eq_true_eq] at hinside
      simp only [ht, Bool.or_eq_true, decide_eq_true_eq] at hbad
      omega

theorem completes_dispSetGenlock_off : Completes .dispSetGenlock 0x1302
    (fun c a => Cond.dispSetGenlock c a && u8 c.payload 0 == 0) Eff.dispSetGenlock := by
  refine completes_of dispSetGenlock (fun _ _ _ _ => rfl) fun c a h => ?_
  obtain ⟨hok, hoff⟩ := Bool.and_eq_true_iff.mp h
  exact State.conclude_congr ((dispSetGenlock_met hok).trans (if_pos (beq_iff_eq.mp hoff))) (conclude_done ..)

theorem completes_dispSetGenlock_on : Completes .dispSetGenlock 0x1302
    (fun c a => Cond.dispSetGenlock c a && u8 c.payload 0 == 1) Eff.dispSetGenlock2 := by
  refine completes_of dispSetGenlock (fun _ _ _ _ => rfl) fun c a h => ?_
  obtain ⟨hok, hon⟩ := Bool.and_eq_true_iff.mp h
  exact State.conclude_congr ((dispSetGenlock_met hok).trans (if_neg (by simp [beq_iff_eq.mp hon]))) (conclude_running ..)

/-! ## Layers (R473, R474, R475, R481, R485) -/

/-- A density layer within range passes the tests of its fields. -/
theorem Cond.densityLayer_fields {l : DispLayer} {a : State} (h : Cond.densityLayer l a = true) :
    ¬ (decide (l.plane > 3 ∨ l.shift > 31 ∨ l.colCount = 0 ∨ l.rowCount = 0 ∨ l.rowFirst + l.rowCount > 1024) ||
      ((a.plane l.plane).configured && decide ((a.plane l.plane).width < l.colFirst + l.colCount))) = true := by
  simp only [Cond.densityLayer, Bool.and_eq_true, decide_eq_true_eq, bne_iff_ne] at h
  obtain ⟨⟨⟨⟨⟨⟨hplane, hshift⟩, hcols⟩, hrows⟩, hlast⟩, -⟩, hwidth⟩ := h
  simp only [Bool.or_eq_true, Bool.and_eq_true, decide_eq_true_eq]
  omega

/-- A trace layer within range passes the tests of its fields. -/
theorem Cond.traceLayer_fields {l : DispLayer} {a : State} (h : Cond.traceLayer l a = true) :
    ¬ (decide ((maskBits 64 l.traces).length > 8 ∨ l.step = 0 ∨ l.step > 2560) ||
      (maskBits 64 l.traces).any fun u => (a.trace u).configured && (a.trace u).detector == 5) = true := by
  simp only [Cond.traceLayer, Bool.and_eq_true, decide_eq_true_eq, bne_iff_ne, List.all_eq_true] at h
  obtain ⟨⟨⟨hfew, hstep⟩, hcoarse⟩, htraces⟩ := h
  intro hbad
  rcases Bool.or_eq_true_iff.mp hbad with hbad | hbad
  · exact absurd (of_decide_eq_true hbad) (by omega)
  · obtain ⟨u, hu, hbad⟩ := List.any_eq_true.mp hbad
    exact (htraces u hu).2 (beq_iff_eq.mp (Bool.and_eq_true_iff.mp hbad).2)

/-- The fields that `DISP.CONFIGURE_LAYER` refuses, of the layer that it describes. -/
def Cond.layerBad (image : List Byte) (c : Cmd) (a : State) : Prop :=
  let p := c.payload
  let n := u8 p 0
  let l := Cond.dispLayer image c a
  n > 3 ∨ l.flags > 3 ∨ (l.flags.testBit 0 = true ∧ n ≠ 2) ∨ (l.flags.testBit 1 = true ∧ n ≠ 0) ∨ l.width = 0 ∨ l.height = 0 ∨
    (a.disp.timing.isSome = true ∧ n ≠ 3 ∧
      (l.width > (a.disp.timing.getD {}).hActive ∨ l.height > (a.disp.timing.getD {}).vActive)) ∨
    (n == 0 && (decide (l.plane > 3 ∨ l.shift > 31 ∨ l.colCount = 0 ∨ l.rowCount = 0 ∨ l.rowFirst + l.rowCount > 1024) ||
      ((a.plane l.plane).configured && decide ((a.plane l.plane).width < l.colFirst + l.colCount)))) = true ∨
    (n == 1 && (decide ((maskBits 64 l.traces).length > 8 ∨ l.step = 0 ∨ l.step > 2560) ||
      (maskBits 64 l.traces).any fun u => (a.trace u).configured && (a.trace u).detector == 5)) = true ∨
    (n == 3 && (decide (u8 p 28 > 1 ∨ u64 p 32 % 8 ≠ 0) || (Cond.cursorCellar c && !a.inRegion (u64 p 32) 16384))) = true ∨
    (!zeros p 29 3) = true ∨ (!zeros p 40 8) = true

/-- The image apart, the fields of a layer do not depend on the image that it loads. -/
theorem Cond.dispLayerOk_passes (image : List Byte) {c : Cmd} {a : State} (h : Cond.dispLayerOk c a = true) :
    ¬ Cond.layerBad image c a ∧
      ¬ ((u8 c.payload 0 = 0 ∧ (!(a.plane (Cond.dispLayer image c a).plane).configured) = true) ∨
        (u8 c.payload 0 = 1 ∧
          ((maskBits 64 (Cond.dispLayer image c a).traces).any fun u => !(a.trace u).configured) = true)) := by
  simp only [Cond.dispLayerOk, Bool.and_eq_true, Bool.or_eq_true, decide_eq_true_eq, bne_iff_ne, beq_iff_eq] at h
  obtain ⟨⟨⟨⟨⟨⟨⟨⟨⟨⟨⟨hlayer, hflags⟩, hopaque⟩, hlog⟩, hwidth⟩, hheight⟩, hz29⟩, hz40⟩, harea⟩, hdensity⟩, htrace⟩, hcursor⟩ := h
  constructor
  · rintro (hbad | hbad | ⟨hset, hbad⟩ | ⟨hset, hbad⟩ | hbad | hbad | ⟨hknown, hsized, hbad⟩ | hbad | hbad | hbad | hbad | hbad)
    · exact absurd hlayer (Nat.not_le.mpr hbad)
    · exact absurd hflags (Nat.not_le.mpr hbad)
    · exact hopaque.elim (fun h => ne_true_of_not h hset) hbad
    · exact hlog.elim (fun h => ne_true_of_not h hset) hbad
    · exact hwidth hbad
    · exact hheight hbad
    · obtain ⟨t, ht⟩ := Option.isSome_iff_exists.mp hknown
      have hinside := harea.resolve_left hsized
      rw [ht, Option.all_some, Bool.and_eq_true] at hinside
      rw [ht, Option.getD_some] at hbad
      exact hbad.elim (fun h => absurd (of_decide_eq_true hinside.1) (Nat.not_le.mpr h))
        fun h => absurd (of_decide_eq_true hinside.2) (Nat.not_le.mpr h)
    · obtain ⟨hn, hbad⟩ := Bool.and_eq_true_iff.mp hbad
      exact Cond.densityLayer_fields (hdensity.resolve_left fun h => h (beq_iff_eq.mp hn)) hbad
    · obtain ⟨hn, hbad⟩ := Bool.and_eq_true_iff.mp hbad
      exact Cond.traceLayer_fields (htrace.resolve_left fun h => h (beq_iff_eq.mp hn)) hbad
    · obtain ⟨hn, hbad⟩ := Bool.and_eq_true_iff.mp hbad
      obtain ⟨⟨hsource, haddr⟩, hregion⟩ := hcursor.resolve_left fun h => h (beq_iff_eq.mp hn)
      rcases Bool.or_eq_true_iff.mp hbad with hbad | hbad
      · exact absurd (of_decide_eq_true hbad) (by omega)
      · obtain ⟨hcellar, hbad⟩ := Bool.and_eq_true_iff.mp hbad
        exact hregion.elim (fun h => ne_true_of_not h hcellar) (ne_true_of_not hbad)
    · exact ne_true_of_not hbad hz29
    · exact ne_true_of_not hbad hz40
  · rintro (⟨hn, hbad⟩ | ⟨hn, hbad⟩)
    · have hok := hdensity.resolve_left fun h => h hn
      simp only [Cond.densityLayer, Bool.and_eq_true] at hok
      exact ne_true_of_not hbad hok.1.2
    · have hok := htrace.resolve_left fun h => h hn
      simp only [Cond.traceLayer, Bool.and_eq_true, List.all_eq_true] at hok
      obtain ⟨u, hu, hbad⟩ := List.any_eq_true.mp hbad
      exact ne_true_of_not hbad (hok.2 u hu).1

/-- The layer of the condition, with its choices made as the verb makes them. -/
theorem Cond.dispLayer_eq (image : List Byte) (c : Cmd) (a : State) :
    Cond.dispLayer image c a = {
      flags := u8 c.payload 1
      width := if u8 c.payload 0 = 3 then 64 else u16 c.payload 2
      height := if u8 c.payload 0 = 3 then 64 else u16 c.payload 4
      plane := u8 c.payload 6
      shift := u8 c.payload 7
      colFirst := u16 c.payload 8
      colCount := u16 c.payload 10
      rowFirst := u16 c.payload 12
      rowCount := u16 c.payload 14
      traces := u64 c.payload 16
      top := s16 c.payload 24
      step := u16 c.payload 26
      image := if u8 c.payload 0 ≠ 3 then []
        else if u8 c.payload 28 == 1 then a.cellarMem.readBytes (u64 c.payload 32) 16384
        else image.take 16384 } := by
  simp [Cond.dispLayer, Cond.cursorCellar]

/-- Fields in range configure the layer, now or at the next latch line, where Cellar has room for a visible overlay. -/
theorem dispConfigureLayer_met (image : List Byte) {c : Cmd} {a b : State} (h : Cond.dispLayerOk c a = true)
    (hb : Cond.layerGranted c a = some b) :
    dispConfigureLayer image c a =
      if (a.disp.mode != .disabled) = true then
        .running 0 [] ((Cond.layerLoaded c a).setDisp { (Cond.layerLoaded c a).disp with
          nextLayers := (Cond.layerLoaded c a).disp.nextLayers.set (u8 c.payload 0) (Cond.dispLayer image c a) })
      else
        .done .ok 0 ((Cond.layerLoaded c a).setDisp { (Cond.layerLoaded c a).disp with
          layers := (Cond.layerLoaded c a).disp.layers.set (u8 c.payload 0) (Cond.dispLayer image c a) }) := by
  obtain ⟨hfields, hconfigured⟩ := Cond.dispLayerOk_passes image h
  have hload : Cond.layerLoaded c a =
      if u8 c.payload 0 = 3 then b.hostLoad c (u64 c.payload 32) 16384 (Cond.cursorCellar c) else b := by
    simp only [Cond.layerLoaded, hb, Option.getD_some]
  unfold Cond.layerBad at hfields
  unfold Cond.layerGranted at hb
  rw [Cond.dispLayer_eq] at hfields hconfigured hb
  refine (if_neg hfields).trans ((if_neg hconfigured).trans ?_)
  rw [hload, Cond.dispLayer_eq]
  dsimp only at hb ⊢
  rw [hb]
  rfl

theorem completes_dispConfigureLayer_now (image : List Byte) : Completes (.dispConfigureLayer · · · image) 0x1303
    (fun c a => Cond.dispLayerOk c a && a.disp.mode == .disabled) (Eff.dispConfigureLayer image) := by
  refine completes_of (dispConfigureLayer image) (fun _ _ _ _ => rfl) fun c a h => ?_
  simp only [Bool.and_eq_true, beq_iff_eq] at h
  obtain ⟨hok, hoff⟩ := h
  have hb : Cond.layerGranted c a = some a := by simp [Cond.layerGranted, hoff]
  exact State.conclude_congr ((dispConfigureLayer_met image hok hb).trans (if_neg (by simp [hoff]))) (conclude_done ..)

theorem completes_dispConfigureLayer_latched (image : List Byte) : Completes (.dispConfigureLayer · · · image) 0x1303
    (fun c a => Cond.dispLayerOk c a && a.disp.mode != .disabled && (Cond.layerGranted c a).isSome)
    (Eff.dispConfigureLayer2 image) := by
  refine completes_of (dispConfigureLayer image) (fun _ _ _ _ => rfl) fun c a h => ?_
  simp only [Bool.and_eq_true] at h
  obtain ⟨⟨hok, hon⟩, hgranted⟩ := h
  obtain ⟨b, hb⟩ := Option.isSome_iff_exists.mp hgranted
  exact State.conclude_congr ((dispConfigureLayer_met image hok hb).trans (if_pos hon)) (conclude_running ..)

/-! ## The palette (R486) -/

/-- Operands within range set the palette, now or at the next latch line. -/
theorem dispSetPalette_met {c : Cmd} {a : State} (h : Cond.dispSetPalette c = true) :
    dispSetPalette c a =
      if a.disp.mode = .disabled then
        .done .ok 0 (a.setDisp { a.disp with
          palette := (Cond.paletteEntries c.payload).foldl (fun (m : KMap Nat) e => m.set e.1 e.2) a.disp.palette })
      else .running 0 [] (a.setDisp { a.disp with nextPalette := a.disp.nextPalette ++ Cond.paletteEntries c.payload }) := by
  simp only [Cond.dispSetPalette, Bool.and_eq_true, beq_iff_eq, bne_iff_ne, decide_eq_true_eq] at h
  obtain ⟨⟨⟨⟨⟨⟨hlength, hbank⟩, hz1⟩, hz6⟩, hsome⟩, hfew⟩, hinside⟩ := h
  refine (if_neg (not_not_intro hlength)).trans (if_neg ?_)
  rintro (hbad | hbad | hbad | hbad | hbad | hbad)
  · exact absurd hbank (Nat.not_le.mpr hbad)
  · exact ne_true_of_not hbad hz1
  · exact ne_true_of_not hbad hz6
  · exact hsome hbad
  · exact absurd hfew (Nat.not_le.mpr hbad)
  · exact absurd hinside (Nat.not_le.mpr hbad)

theorem completes_dispSetPalette_now : Completes .dispSetPalette 0x1304
    (fun c a => Cond.dispSetPalette c && a.disp.mode == .disabled) Eff.dispSetPalette := by
  refine completes_of dispSetPalette (fun _ _ _ _ => rfl) fun c a h => ?_
  simp only [Bool.and_eq_true, beq_iff_eq] at h
  exact State.conclude_congr ((dispSetPalette_met h.1).trans (if_pos h.2)) (conclude_done ..)

theorem completes_dispSetPalette_latched : Completes .dispSetPalette 0x1304
    (fun c a => Cond.dispSetPalette c && a.disp.mode != .disabled) Eff.dispSetPalette2 := by
  refine completes_of dispSetPalette (fun _ _ _ _ => rfl) fun c a h => ?_
  simp only [Bool.and_eq_true, bne_iff_ne] at h
  exact State.conclude_congr ((dispSetPalette_met h.1).trans (if_neg h.2)) (conclude_running ..)

/-! ## Scan-out on and off (R481, R487, R488) -/

@[simp] theorem Disp.status_length (d : Disp) (measured : Nat) : (d.status measured).length = 64 := by
  simp [Disp.status, pack_length]

/-- The operands of `DISP.ENABLE` that are not a query. -/
theorem dispEnable_fields {p : List Byte} (h0 : u8 p 0 = 0) (hz : zeros p 1 7 = true) :
    ¬ (u8 p 0 > 1 ∨ (!zeros p 1 7) = true) ∧ ¬ u8 p 0 = 1 := by
  simp [h0, hz]

/-- Energy and allotment of the display as `DISP.ENABLE` takes them one after the other. -/
theorem Cond.dispGranted_eq_some {a b : State} (h : Cond.dispGranted a = some b) :
    ∃ d, a.declare [{ fam := 0x13, obj := 0, group := 0, first := 5000000, each := 5000000 }] = .ok d ∧
      (if (a.disp.place 2).visible then
        d.allot (actKey kindDisplay 0)
          [(0, (a.disp.timing.getD {}).overlayRate (a.disp.layer 2).width (a.disp.layer 2).height)]
      else some d) = some b := by
  unfold Cond.dispGranted at h
  split at h
  · cases h
  · exact ⟨_, ‹_›, h⟩

theorem completes_dispEnable (hz : Nat) (edid : List Byte) :
    Completes (.dispEnable · · · hz edid) 0x1305 Cond.dispEnable Eff.dispEnable := by
  refine completes_of (dispEnable hz edid) (fun _ _ _ _ => rfl) fun c a h => ?_
  simp only [Cond.dispEnable, Bool.and_eq_true, beq_iff_eq] at h
  obtain ⟨⟨⟨⟨⟨h0, hzeros⟩, hoff⟩, htimed⟩, hsink⟩, hgranted⟩ := h
  obtain ⟨t, ht⟩ := Option.isSome_iff_exists.mp htimed
  obtain ⟨b, hb⟩ := Option.isSome_iff_exists.mp hgranted
  obtain ⟨d, hd, hallot⟩ := Cond.dispGranted_eq_some hb
  obtain ⟨hfields, hquery⟩ := dispEnable_fields h0 hzeros
  simp only [Eff.dispEnable, hb, Option.getD_some]
  refine State.conclude_congr ((if_neg hfields).trans ((if_neg hquery).trans
    ((if_neg (by simp [hoff])).trans ?_))) (conclude_running ..)
  simp only [ht, Option.getD_some] at hallot
  simp only [ht, hd]
  refine (if_neg (by simp [hsink, hoff])).trans ?_
  rw [hallot]

theorem completes_dispEnable_on (hz : Nat) (edid : List Byte) : Completes (.dispEnable · · · hz edid) 0x1305
    (fun c a => u8 c.payload 0 == 0 && zeros c.payload 1 7 && (a.disp.mode == .running || a.disp.mode == .training))
    (fun c a => a.finish c .ok a.now) := by
  refine completes_of (dispEnable hz edid) (fun _ _ _ _ => rfl) fun c a h => ?_
  simp only [Bool.and_eq_true, Bool.or_eq_true, beq_iff_eq] at h
  obtain ⟨⟨h0, hzeros⟩, hon⟩ := h
  obtain ⟨hfields, hquery⟩ := dispEnable_fields h0 hzeros
  exact State.conclude_congr ((if_neg hfields).trans ((if_neg hquery).trans (if_pos hon))) (conclude_done ..)

/-- The EDID of a query takes the 256 bytes after the status, where they have room. -/
theorem Cond.dispQuery_fits (hz : Nat) (edid : List Byte) {c : Cmd} (a : State) (hroom : 64 ≤ c.room) :
    (a.disp.status hz ++ Cond.edidAsked edid c).length ≤ c.room := by
  simp only [List.length_append, Disp.status_length, Cond.edidAsked]
  split
  · simp only [List.length_take]
    omega
  · simpa using hroom

theorem completes_dispEnable_query (hz : Nat) (edid : List Byte) : Completes (.dispEnable · · · hz edid) 0x1305
    (fun c _ => u8 c.payload 0 == 1 && zeros c.payload 1 7 && decide (64 ≤ c.room)) (Eff.dispEnable2 hz edid) := by
  refine completes_of (dispEnable hz edid) (fun _ _ _ _ => rfl) fun c a h => ?_
  simp only [Bool.and_eq_true, beq_iff_eq, decide_eq_true_eq] at h
  obtain ⟨⟨h1, hzeros⟩, hroom⟩ := h
  exact State.conclude_congr ((if_neg (by simp [h1, hzeros])).trans (if_pos h1))
    (conclude_data (Cond.dispQuery_fits hz edid a hroom) _ _ _)

theorem completes_dispDisable_off : Completes .dispDisable 0x1306 (fun _ a => a.disp.mode == .disabled)
    (fun c a => a.finish c .quiesced 0) := by
  refine completes_of dispDisable (fun _ _ _ _ => rfl) fun c a h => ?_
  exact State.conclude_congr (by simp only [dispDisable, beq_iff_eq.mp h]) (conclude_done ..)

theorem completes_dispDisable_training : Completes .dispDisable 0x1306 (fun _ a => a.disp.mode == .training)
    (fun c a => a.dispRest.finish c .quiesced 0) := by
  refine completes_of dispDisable (fun _ _ _ _ => rfl) fun c a h => ?_
  exact State.conclude_congr (by simp only [dispDisable, beq_iff_eq.mp h]) (conclude_done ..)

theorem completes_dispDisable_scanning : Completes .dispDisable 0x1306 (fun _ a => Cond.scans a) Eff.dispDisable := by
  refine completes_of dispDisable (fun _ _ _ _ => rfl) fun c a h => ?_
  simp only [Cond.scans, Bool.or_eq_true, beq_iff_eq] at h
  refine State.conclude_congr ?_ (conclude_running ..)
  rcases h with h | h <;> simp only [dispDisable, h]

/-- Settles O46, verb by verb. -/
theorem displayVerbs : Obligations.DisplayVerbs :=
  ⟨completes_dispSetTiming, completes_dispSetGenlock_off, completes_dispSetGenlock_on, completes_dispConfigureLayer_now,
    completes_dispConfigureLayer_latched, completes_dispSetPalette_now, completes_dispSetPalette_latched,
    completes_dispEnable, completes_dispEnable_on, completes_dispEnable_query, completes_dispDisable_off,
    completes_dispDisable_training, completes_dispDisable_scanning⟩

end Sys2Proof.Machine

end

section

namespace Sys2Proof.Machine

/-! # The rows of the display -/

/-! ## Frames (R475, R477, R478, R480, R489) -/

theorem happens_latchLine : Happens .latchLine (fun a => a.disp.mode == .running && a.disp.latched != a.disp.frame)
    (fun a => (Cond.latched a).settingsDone) := by
  refine happens_of _ (fun _ _ => rfl) fun a h => ?_
  simp only [Bool.and_eq_true, beq_iff_eq, bne_iff_ne] at h
  obtain ⟨hrunning, hnew⟩ := h
  exact if_neg (by simp [hrunning, hnew])

theorem happens_matchLineReached (tm : DispTiming) : Happens .matchLineReached
    (fun a => Cond.scans a && a.disp.timing == some tm && decide (tm.matchLine < tm.vTotal) &&
      a.disp.matched != some (a.disp.frameAt tm.matchLine)) (Eff.matchLineReached tm) := by
  refine happens_of _ (fun _ _ => rfl) fun a h => ?_
  simp only [Bool.and_eq_true, beq_iff_eq] at h
  obtain ⟨⟨⟨hscans, htiming⟩, hinside⟩, hfirst⟩ := h
  unfold Cond.scans at hscans
  have htm : a.disp.timing.getD {} = tm := by rw [htiming, Option.getD_some]
  simp only [htm]
  exact if_pos (Bool.and_eq_true_iff.mpr ⟨Bool.and_eq_true_iff.mpr ⟨hscans, hinside⟩, hfirst⟩)

/-- At the end of a frame the frame that was composed has left; where it was the last the display comes to rest. -/
theorem happens_frameEnd : Happens .frameEnd Cond.scans
    (fun a => if (a.disp.mode == .quiescing) = true then (Cond.frameLeft a).dispRest else Cond.frameLeft a) := by
  refine happens_of _ (fun _ _ => rfl) fun a h => ?_
  refine (if_neg fun hbad => ne_true_of_not hbad h).trans ?_
  unfold Cond.frameLeft
  by_cases hlatched : a.disp.latched = a.disp.frame <;> simp [hlatched, Cond.frameLines]

/-- A late line is counted, and the first of its frame is reported. -/
theorem happens_lineUnderrun (line : Nat) :
    Happens (.lineUnderrun · line) (Cond.lineLate line) (Eff.lineUnderrun line) := by
  refine happens_of _ (fun _ _ => rfl) fun a h => ?_
  simp only [Cond.lineLate, Bool.and_eq_true, beq_iff_eq, Bool.not_eq_true', decide_eq_true_eq] at h
  obtain ⟨⟨⟨hscans, hlatched⟩, hfirst⟩, hactive⟩ := h
  unfold Cond.scans at hscans
  refine if_neg ?_
  rw [hscans, hlatched, hfirst]
  simp [hactive]

theorem happens_overlayFetchFault (line : Nat) : Happens (.overlayFetchFault · line)
    (fun a => Cond.scans a && a.disp.overlayOn && !a.disp.faulted && !a.overlayLineOk line)
    (Eff.overlayFetchFault line) := by
  refine happens_of _ (fun _ _ => rfl) fun a h => ?_
  simp only [Bool.and_eq_true, Bool.not_eq_true'] at h
  obtain ⟨⟨⟨hscans, hon⟩, hfault⟩, hline⟩ := h
  unfold Cond.scans at hscans
  exact if_neg (by simp only [hscans, hon, hfault, hline]; decide)

/-! ## Genlock (R472) -/

theorem happens_genlockEdge_locked :
    Happens (.genlockEdge · true) (fun a => a.disp.genlock != 0 && Cond.scans a) Eff.genlockEdge := by
  refine happens_of _ (fun _ _ => rfl) fun a h => ?_
  simp only [Bool.and_eq_true, bne_iff_ne] at h
  obtain ⟨hgenlock, hscans⟩ := h
  unfold Cond.scans at hscans
  exact (if_neg (by simp [hgenlock, hscans])).trans (if_pos rfl)

theorem happens_genlockEdge_sought : Happens (.genlockEdge · false) (fun a => a.disp.genlock == 3 && Cond.scans a)
    (fun a => a.setDisp { a.disp with genlock := 1 }) := by
  refine happens_of _ (fun _ _ => rfl) fun a h => ?_
  simp only [Bool.and_eq_true, beq_iff_eq] at h
  obtain ⟨hlost, hscans⟩ := h
  unfold Cond.scans at hscans
  exact (if_neg (by simp [hlost, hscans])).trans ((if_neg Bool.false_ne_true).trans (if_pos hlost))

theorem happens_genlockLost : Happens .genlockLost (fun a => a.disp.genlock == 1 || a.disp.genlock == 2)
    (fun a => a.setDisp { a.disp with genlock := 3 }) := by
  refine happens_of _ (fun _ _ => rfl) fun a h => ?_
  simp only [Bool.or_eq_true, beq_iff_eq] at h
  exact if_pos h

/-! ## The sink and the link (R470, R487) -/

/-- A sink that goes makes a running display wait for it, and ends the frame that was to be the last. -/
theorem happens_hpdUnplug : Happens .hpdUnplug (fun _ => true)
    (fun a => if (a.disp.mode == .running) = true then Eff.hpdUnplug a
      else if (a.disp.mode == .quiescing) = true then (Cond.sinkGone a).dispRest else Cond.sinkGone a) :=
  happens_of _ (fun _ _ => rfl) fun _ _ => rfl

theorem happens_hpdUnplug_quiescing : Happens .hpdUnplug (fun a => a.disp.mode == .quiescing)
    (fun a => (Cond.sinkGone a).dispRest) :=
  happens_hpdUnplug.when fun a h =>
    ⟨rfl, (if_neg (by simp [beq_iff_eq.mp h])).trans (if_pos h)⟩

theorem happens_hpdUnplug_idle : Happens .hpdUnplug (fun a => !Cond.scans a) Cond.sinkGone :=
  happens_hpdUnplug.when fun a h => by
    simp only [Cond.scans, Bool.not_eq_true', Bool.or_eq_false_iff] at h
    exact ⟨rfl, (if_neg (by simp [h.1])).trans (if_neg (by simp [h.2]))⟩

/-- A trained link of a display that waits for it passes the tests of the row. -/
theorem Cond.trained_passes {lanes rate : Nat} {a : State} (h : Cond.trained lanes rate a = true) :
    ¬ (a.disp.mode != .training || !a.disp.hpd || !([1, 2, 4].contains lanes) || rate == 0 || decide (4 < rate)) = true := by
  simp only [Cond.trained, Bool.and_eq_true, beq_iff_eq, bne_iff_ne, decide_eq_true_eq] at h
  obtain ⟨⟨⟨⟨htraining, hsink⟩, hlanes⟩, hrate⟩, hfast⟩ := h
  simp only [htraining, hsink, hlanes, Bool.or_eq_true, beq_iff_eq, decide_eq_true_eq]
  simp [hrate, hfast]

theorem happens_dpLinkTrained (lanes rate : Nat) : Happens (.dpLinkTrained · lanes rate)
    (fun a => Cond.trained lanes rate a && decide ((a.disp.timing.getD {}).clock * 24 ≤ linkKbps lanes rate))
    (Eff.dpLinkTrained lanes rate) := by
  refine happens_of _ (fun _ _ => rfl) fun a h => ?_
  simp only [Bool.and_eq_true, decide_eq_true_eq] at h
  exact (if_neg (Cond.trained_passes h.1)).trans (if_neg (Nat.not_lt.mpr h.2))

theorem happens_dpLinkTrained_narrow (lanes rate : Nat) : Happens (.dpLinkTrained · lanes rate)
    (fun a => Cond.trained lanes rate a && decide (linkKbps lanes rate < (a.disp.timing.getD {}).clock * 24) &&
      !(a.startedCmds 0x1305 fun _ => true).isEmpty) Eff.dpLinkTrained2 := by
  refine happens_of _ (fun _ _ => rfl) fun a h => ?_
  simp only [Bool.and_eq_true, decide_eq_true_eq] at h
  obtain ⟨⟨htrained, hnarrow⟩, hwaited⟩ := h
  exact (if_neg (Cond.trained_passes htrained)).trans
    ((if_pos hnarrow).trans (if_neg fun hnone => ne_true_of_not hwaited hnone))

/-! ## Scan-out (R481) -/

theorem happens_scanoutMismatch (copy : Nat) : Happens (.scanoutMismatch · copy)
    (fun a => decide (copy ≤ 1) && !a.isRetired ⟨18, 0, copy⟩) (Eff.scanoutMismatch copy) := by
  refine happens_of _ (fun _ _ => rfl) fun a h => ?_
  simp only [Bool.and_eq_true, decide_eq_true_eq, Bool.not_eq_true'] at h
  exact if_neg (by simp [h.2, Nat.not_lt.mpr h.1])

/-- Settles O47, row by row. -/
theorem displayRows : Obligations.DisplayRows :=
  ⟨happens_latchLine, happens_matchLineReached,
    happens_frameEnd.when fun a h => ⟨by simp [Cond.scans, beq_iff_eq.mp h], if_neg (by simp [beq_iff_eq.mp h])⟩,
    happens_frameEnd.when fun a h => ⟨by simp [Cond.scans, beq_iff_eq.mp h], if_pos h⟩,
    happens_lineUnderrun, happens_overlayFetchFault, happens_genlockEdge_locked, happens_genlockEdge_sought,
    happens_genlockLost, happens_hpdUnplug.when fun a h => ⟨rfl, if_pos h⟩, happens_hpdUnplug_quiescing,
    happens_hpdUnplug_idle, happens_of _ (fun _ _ => rfl) fun _ _ => rfl, happens_dpLinkTrained,
    happens_dpLinkTrained_narrow, happens_scanoutMismatch⟩

end Sys2Proof.Machine

end

section

namespace Sys2Proof.Machine

/-! # The BUDGET family -/

/-! ## The power cap (R503) -/

theorem completes_budgetSetPowerCap : Completes .budgetSetPowerCap 0x1401 Cond.budgetCap Eff.budgetSetPowerCap := by
  refine completes_of budgetSetPowerCap (fun _ _ _ _ => rfl) fun c a h => ?_
  simp only [Cond.budgetCap, Bool.and_eq_true, Bool.or_eq_true, beq_iff_eq, decide_eq_true_eq] at h
  obtain ⟨⟨⟨⟨⟨hcap, hperiod⟩, hageing⟩, hreset⟩, hz⟩, hcovers⟩ := h
  refine State.conclude_congr ((if_neg ?_).trans (if_neg ?_)) (conclude_running ..)
  · rintro (⟨hset, hbad⟩ | hbad | hbad | hbad | hbad)
    · have hrange := hcap.resolve_left hset
      omega
    · exact absurd hperiod (Nat.not_le.mpr hbad)
    · exact absurd hageing (Nat.not_le.mpr hbad)
    · exact absurd hreset (Nat.not_le.mpr hbad)
    · exact ne_true_of_not hbad hz
  · rintro ⟨hset, hbad⟩
    dsimp only at hbad
    rw [if_neg hset] at hbad
    exact absurd (hcovers.resolve_left hset) (Nat.not_le.mpr hbad)

/-! ## Grants (R493, R494, R504) -/

/-- The tests of `BUDGET.GRANT` that come before its query, for an activity that exists. -/
theorem budgetGrant_met {c : Cmd} {a : State} (h : Cond.budgetActivity c a = true) :
    budgetGrant c a =
      let p := c.payload
      let act := actKey (u8 p 0) (u32 p 4)
      if (u8 p 1).testBit 2 = true then .data (pack ((List.range 9).map fun r => (8, a.slotRate act r))) 0 a
      else
        let held := (a.alloc act).rates
        let new := a.grantRates (u8 p 0) (u32 p 4) p
        if (u8 p 0 = kindCal && held.any fun e => decide (new.get e.1 0 < e.2)) = true then .fail .denied 0
        else if (!a.fits act (new.filter fun e => e.1 != 8) ((u8 p 1).testBit 0)) = true then .fail .noAllotment 0
        else
          let short := a.shortfall (Cond.granted c a) a.powerOp
          if (held.get 8 0 < new.get 8 0 && short != 0) = true then
            (if (u8 p 1).testBit 1 = true then .wait else .fail .noEnergy short)
          else .running 0 [] (a.setBud (Cond.granted c a)) := by
  simp only [Cond.budgetActivity, Bool.and_eq_true, decide_eq_true_eq, Bool.not_eq_true', beq_iff_eq] at h
  obtain ⟨⟨⟨⟨⟨⟨⟨⟨hrange, hflags⟩, hz2⟩, hz8⟩, hslot⟩, hsite⟩, hkernel⟩, hexists⟩, hallowed⟩ := h
  refine (if_neg ?_).trans ((if_neg ?_).trans (if_neg ?_))
  · rintro (hbad | hbad | hbad | hbad | hbad | hbad | hbad)
    · exact ne_true_of_not hbad hrange
    · exact absurd hflags (Nat.not_le.mpr hbad)
    · exact ne_true_of_not hbad hz2
    · exact ne_true_of_not hbad hz8
    · exact hbad hslot
    · exact ne_true_of_not hbad hsite
    · exact ne_true_of_not hbad hkernel
  · exact fun hbad => ne_true_of_not hbad hexists
  · exact fun hbad => Bool.false_ne_true (hallowed.symm.trans hbad)

theorem completes_budgetGrant : Completes .budgetGrant 0x1402 Cond.budgetGrant Eff.budgetGrant := by
  refine completes_of budgetGrant (fun _ _ _ _ => rfl) fun c a h => ?_
  simp only [Cond.budgetGrant, Bool.and_eq_true, Bool.not_eq_true'] at h
  obtain ⟨⟨⟨⟨hactivity, hset⟩, hcal⟩, hfits⟩, henergy⟩ := h
  exact State.conclude_congr ((budgetGrant_met hactivity).trans ((if_neg (Bool.not_eq_true _ ▸ hset)).trans
    ((if_neg (Bool.not_eq_true _ ▸ hcal)).trans ((if_neg fun hbad => ne_true_of_not hbad hfits).trans
      (if_neg (Bool.not_eq_true _ ▸ henergy)))))) (conclude_running ..)

theorem completes_budgetGrant_query : Completes .budgetGrant 0x1402
    (fun c a => Cond.budgetActivity c a && (u8 c.payload 1).testBit 2 && decide (72 ≤ c.room)) Eff.budgetGrant2 := by
  refine completes_of budgetGrant (fun _ _ _ _ => rfl) fun c a h => ?_
  simp only [Bool.and_eq_true, decide_eq_true_eq] at h
  obtain ⟨⟨hactivity, hquery⟩, hroom⟩ := h
  exact State.conclude_congr ((budgetGrant_met hactivity).trans (if_pos hquery))
    (conclude_data (by simpa [pack_length, List.range_succ] using hroom) _ _ _)

/-! ## Revocation (R73, R505) -/

/-- `BUDGET.REVOKE` of an activity that exists answers with the stop of its owner, and releases what a stopped one holds. -/
theorem budgetRevoke_met {c : Cmd} {a : State} (h : Cond.budgetRevoke c a = true) :
    budgetRevoke c a =
      match ownerStop c (u8 c.payload 0) (u32 c.payload 4) a with
      | .done _ _ b => .done .quiesced 0 (b.release (actKey (u8 c.payload 0) (u32 c.payload 4)))
      | o => o := by
  simp only [Cond.budgetRevoke, Bool.and_eq_true, bne_iff_ne] at h
  obtain ⟨⟨⟨hrange, hz⟩, hcal⟩, hexists⟩ := h
  refine (if_neg ?_).trans ((if_neg hcal).trans ((if_neg fun hbad => ne_true_of_not hbad hexists).trans rfl))
  rintro (hbad | hbad)
  · exact ne_true_of_not hbad hrange
  · exact ne_true_of_not hbad hz

/-- A stop that leaves the module at rest at once. -/
theorem Cond.stoppedOwner_eq_some {c : Cmd} {a b : State} (h : Cond.stoppedOwner c a = some b) :
    ∃ st r, ownerStop c (u8 c.payload 0) (u32 c.payload 4) a = .done st r b := by
  unfold Cond.stoppedOwner at h
  split at h
  · cases h
    exact ⟨_, _, ‹_›⟩
  · cases h

/-- A stop that goes on. -/
theorem Cond.stoppingOwner_eq_some {c : Cmd} {a : State} {r : Nat × List Nat × State}
    (h : Cond.stoppingOwner c a = some r) :
    ownerStop c (u8 c.payload 0) (u32 c.payload 4) a = .running r.1 r.2.1 r.2.2 := by
  unfold Cond.stoppingOwner at h
  split at h
  · cases h
    assumption
  · cases h

theorem completes_budgetRevoke_stopped : Completes .budgetRevoke 0x1403
    (fun c a => Cond.budgetRevoke c a && (Cond.stoppedOwner c a).isSome) Eff.budgetRevoke := by
  refine completes_of budgetRevoke (fun _ _ _ _ => rfl) fun c a h => ?_
  obtain ⟨hok, hstopped⟩ := Bool.and_eq_true_iff.mp h
  obtain ⟨b, hb⟩ := Option.isSome_iff_exists.mp hstopped
  obtain ⟨st, r, hstop⟩ := Cond.stoppedOwner_eq_some hb
  simp only [Eff.budgetRevoke, hb, Option.getD_some]
  exact State.conclude_congr ((budgetRevoke_met hok).trans (by rw [hstop])) (conclude_done ..)

theorem completes_budgetRevoke_stopping : Completes .budgetRevoke 0x1403
    (fun c a => Cond.budgetRevoke c a && (Cond.stoppingOwner c a).isSome) Eff.budgetRevoke2 := by
  refine completes_of budgetRevoke (fun _ _ _ _ => rfl) fun c a h => ?_
  obtain ⟨hok, hstopping⟩ := Bool.and_eq_true_iff.mp h
  obtain ⟨r, hr⟩ := Option.isSome_iff_exists.mp hstopping
  simp only [Eff.budgetRevoke2, hr, Option.getD_some]
  exact State.conclude_congr ((budgetRevoke_met hok).trans (by rw [Cond.stoppingOwner_eq_some hr])) (conclude_running ..)

/-- The display is revoked by the stop of its own family, which lets the frame end. -/
theorem completes_budgetRevoke_display : Completes .budgetRevoke 0x1403
    (fun c a => u8 c.payload 0 == 5 && u32 c.payload 4 == 0 && zeros c.payload 1 3 && a.disp.mode == .running)
    Eff.budgetRevoke3 := by
  refine completes_of budgetRevoke (fun _ _ _ _ => rfl) fun c a h => ?_
  simp only [Bool.and_eq_true, beq_iff_eq] at h
  obtain ⟨⟨⟨hkind, hobj⟩, hz⟩, hrunning⟩ := h
  have hok : Cond.budgetRevoke c a = true := by
    simp [Cond.budgetRevoke, hkind, hobj, hz, activityInRange, State.activityExists, kindCal]
  refine State.conclude_congr ((budgetRevoke_met hok).trans ?_) (conclude_running ..)
  simp only [hkind, ownerStop, dispDisable, hrunning]

/-! ## The ledger and the capacity (R501, R506, R507) -/

@[simp] theorem Budget.ledger_length (b : Budget) : b.ledger.length = 1088 := by
  simp [Budget.ledger, pack_length, Function.comp_def]

@[simp] theorem State.capacityBytes_length (s : State) : s.capacityBytes.length = 320 := by
  simp [State.capacityBytes, pack_length, List.range_succ]

theorem completes_budgetReadLedger : Completes .budgetReadLedger 0x1404
    (fun c _ => decide (u8 c.payload 0 ≤ 1) && zeros c.payload 1 3 && decide (1088 ≤ c.room)) Eff.budgetReadLedger := by
  refine completes_of budgetReadLedger (fun _ _ _ _ => rfl) fun c a h => ?_
  simp only [Bool.and_eq_true, decide_eq_true_eq] at h
  obtain ⟨⟨hkind, hz⟩, hroom⟩ := h
  exact State.conclude_congr (if_neg (by simp [hz, Nat.not_lt.mpr hkind]))
    (conclude_data (by simpa using hroom) _ _ _)

theorem completes_budgetGetCapacity :
    Completes .budgetGetCapacity 0x1405 (fun c _ => decide (320 ≤ c.room)) Eff.budgetGetCapacity :=
  completes_of _ (fun _ _ _ _ => rfl) fun _ _ h => conclude_data (by simpa using of_decide_eq_true h) _ _ _

/-! ## Periods, ageing and urgency (R491, R495, R496, R497) -/

theorem happens_budgetPeriodBoundary : Happens .budgetPeriodBoundary (fun a => decide (a.bud.nextBoundary ≤ a.now))
    Eff.budgetPeriodBoundary :=
  happens_of _ (fun _ _ => rfl) fun _ h => if_neg (Nat.not_lt.mpr (of_decide_eq_true h))

theorem happens_ageingInterval (f : Nat) : Happens (.ageingInterval · f)
    (fun a => (a.flow f).ready.isSome && !(a.flow f).urgent && a.bud.credits.get (burstCredit f) 0 == 0 &&
      decide ((a.flow f).readySince + (a.bud.aged.get f 0 + 1) * a.bud.ageTicks ≤ a.now)) (Eff.ageingInterval f) := by
  refine happens_of _ (fun _ _ => rfl) fun a h => ?_
  simp only [Bool.and_eq_true, Bool.not_eq_true', beq_iff_eq, decide_eq_true_eq, Option.isSome_iff_ne_none] at h
  obtain ⟨⟨⟨hready, hslack⟩, hcredits⟩, hdue⟩ := h
  exact if_neg (by simp [hready, hslack, hcredits, hdue])

/-- Late work passes the tests of the row. -/
theorem Cond.late_passes {kind obj res : Nat} {a : State} (h : Cond.late kind obj res a = true) :
    ¬ ((decide ((a.alloc (actKey kind obj)).rates.get res 0 = 0) ||
      (kind == kindFlow && res == 2 && !a.flowLate obj)) = true) := by
  simp only [Cond.late, Bool.and_eq_true, Bool.or_eq_true, bne_iff_ne] at h
  obtain ⟨hheld, hready⟩ := h
  rintro hbad
  rcases Bool.or_eq_true_iff.mp hbad with hbad | hbad
  · exact hheld (of_decide_eq_true hbad)
  · obtain ⟨hflow, hbad⟩ := Bool.and_eq_true_iff.mp hbad
    exact hready.elim (fun h => ne_true_of_not h hflow) (ne_true_of_not hbad)

/-- Urgency is kept with the flow, not with the allotments. -/
theorem Cond.hurried_bud (kind obj res : Nat) (a : State) : (Cond.hurried kind obj res a).bud = a.bud := by
  unfold Cond.hurried
  split <;> rfl

/-- Late work of an activity becomes urgent, which opens an interval, or counts in the open one. -/
theorem happens_latencyTargetReached (kind obj res : Nat) : Happens (.latencyTargetReached · kind obj res)
    (Cond.late kind obj res)
    (fun a => if (a.bud.urgent.any fun i => i.act == actKey kind obj) = true then Eff.latencyTargetReached2 kind obj res a
      else Eff.latencyTargetReached kind obj res a) := by
  refine happens_of _ (fun _ _ => rfl) fun a h => ?_
  have hhurried : (if (decide (kind = kindFlow) && decide (res = 2)) = true then
      a.setFlow obj { a.flow obj with urgent := true } else a) = Cond.hurried kind obj res a := by
    simp [Cond.hurried]
  refine (if_neg (Cond.late_passes h)).trans ?_
  simp only [hhurried, Cond.hurried_bud, Eff.latencyTargetReached, Eff.latencyTargetReached2]

/-- An interval of urgency whose time has come closes with a SUMMARY, or for good where nothing was counted. -/
theorem happens_urgentIntervalClose (kind obj : Nat) (i : UrgentInterval) : Happens (.urgentIntervalClose · kind obj)
    (fun a => a.bud.urgent.find? (fun j => j.act == actKey kind obj) == some i && decide (i.opened + ticksPerUs ≤ a.now))
    (fun a => if i.count = 0 then Eff.urgentIntervalClose2 kind obj a else Eff.urgentIntervalClose kind obj i a) := by
  refine happens_of _ (fun _ _ => rfl) fun a h => ?_
  simp only [Bool.and_eq_true, beq_iff_eq, decide_eq_true_eq] at h
  obtain ⟨hopen, hdue⟩ := h
  simp only [hopen]
  exact if_neg (Nat.not_lt.mpr hdue)

/-! ## The ledger and throttling (R501, R502) -/

theorem happens_ledgerUpdate (power total : Nat) (energies : List (Nat × Nat)) :
    Happens (.ledgerUpdate · power total energies) (fun a => decide (a.bud.boundary < a.now - a.now % ticksPerMs))
      (Eff.ledgerUpdate power total energies) := by
  refine happens_of _ (fun _ _ => rfl) fun a h => ?_
  refine (if_neg (Nat.not_le.mpr (of_decide_eq_true h))).trans ?_
  simp only [Eff.ledgerUpdate, decide_eq_true_eq]

theorem happens_throttleStageAdvance : Happens .throttleStageAdvance
    (fun a => a.bud.above && decide (a.bud.stage < 3)) Eff.throttleStageAdvance :=
  happens_of _ (fun _ _ => rfl) fun _ h => if_pos h

theorem happens_throttleStageRelease : Happens .throttleStageRelease
    (fun a => decide (10 ≤ a.bud.belowMs) && decide (0 < a.bud.stage)) Eff.throttleStageRelease :=
  happens_of _ (fun _ _ => rfl) fun _ h => if_pos h

/-- Settles O48, verb by verb and row by row. -/
theorem budgetAndLedger : Obligations.BudgetAndLedger := by
  refine ⟨completes_budgetSetPowerCap, completes_budgetGrant, completes_budgetGrant_query,
    completes_budgetRevoke_stopped, completes_budgetRevoke_stopping, completes_budgetRevoke_display,
    completes_budgetReadLedger, completes_budgetGetCapacity, happens_budgetPeriodBoundary, happens_ageingInterval,
    fun kind obj res => (happens_latencyTargetReached kind obj res).when fun a h => ?_,
    fun kind obj res => (happens_latencyTargetReached kind obj res).when fun a h => ?_,
    fun kind obj i => (happens_urgentIntervalClose kind obj i).when fun a h => ?_,
    fun kind obj i => (happens_urgentIntervalClose kind obj i).when fun a h => ?_,
    happens_ledgerUpdate, happens_throttleStageAdvance, happens_throttleStageRelease⟩
  · obtain ⟨hlate, hnone⟩ := Bool.and_eq_true_iff.mp h
    exact ⟨hlate, if_neg (ne_true_of_not hnone)⟩
  · obtain ⟨hlate, hopen⟩ := Bool.and_eq_true_iff.mp h
    exact ⟨hlate, if_pos hopen⟩
  · obtain ⟨hdue, hcounted⟩ := Bool.and_eq_true_iff.mp h
    exact ⟨hdue, if_neg (bne_iff_ne.mp hcounted)⟩
  · obtain ⟨hdue, hnothing⟩ := Bool.and_eq_true_iff.mp h
    exact ⟨hdue, if_pos (beq_iff_eq.mp hnothing)⟩

end Sys2Proof.Machine

end

section

namespace Sys2Proof.Machine

/-! # Faults and calibration -/

/-! ## The log and the health words (R526, R527, R528, R529) -/

@[simp] theorem LogEntry.bytes_length (e : LogEntry) : e.bytes.length = 64 := by
  simp [LogEntry.bytes, pack_length]

@[simp] theorem FaultState.header_length (f : FaultState) : f.header.length = 64 := by
  simp [FaultState.header, pack_length]

@[simp] theorem State.healthBytes_length (s : State) : s.healthBytes.length = 208 := by
  simp [State.healthBytes, State.classRecord, pack_length, span, List.range_succ]

/-- The header and the entries of a `FAULT.READ_LOG` with room for one entry have room. -/
theorem Cond.faultEntries_fits {c : Cmd} (a : State) (hroom : 128 ≤ c.room) :
    (a.ft.header ++ (Cond.faultEntries c a).flatMap LogEntry.bytes).length ≤ c.room := by
  have hfew : (Cond.faultEntries c a).length ≤ (c.room - 64) / 64 :=
    (List.length_take_le _ _).trans (Nat.min_le_right _ _)
  simp only [List.length_append, FaultState.header_length, List.length_flatMap, LogEntry.bytes_length, List.map_const',
    List.sum_replicate, smul_eq_mul]
  omega

theorem completes_faultReadLog :
    Completes .faultReadLog 0x1501 (fun c _ => Cond.faultReadLog c) Eff.faultReadLog := by
  refine completes_of faultReadLog (fun _ _ _ _ => rfl) fun c a h => ?_
  simp only [Cond.faultReadLog, Bool.and_eq_true, bne_iff_ne, decide_eq_true_eq] at h
  obtain ⟨⟨⟨⟨hsome, hmany⟩, hkinds⟩, hz⟩, hroom⟩ := h
  exact State.conclude_congr
    ((if_neg (by simp [hsome, hz, Nat.not_lt.mpr hmany, Nat.not_lt.mpr hkinds])).trans (if_neg (Nat.not_lt.mpr hroom)))
    (conclude_data (Cond.faultEntries_fits a hroom) _ _ _)

theorem completes_faultGetHealth :
    Completes .faultGetHealth 0x1502 (fun c _ => decide (208 ≤ c.room)) Eff.faultGetHealth :=
  completes_of _ (fun _ _ _ _ => rfl) fun _ _ h => conclude_data (by simpa using of_decide_eq_true h) _ _ _

/-! ## Injection and clearing (R530, R531) -/

/-- A unit in service that nothing makes wait fails, and the command runs where a takeover follows. -/
theorem faultInject_met {c : Cmd} {a : State} (h : Cond.faultInject c a = true) :
    faultInject c a =
      if (a.injectUnit c.payload).cls = 6 ∧ (!(Cond.injected c a).ft.takeover.isEmpty) = true then
        .running a.ft.written [] (Cond.injected c a)
      else .done .ok a.ft.written (Cond.injected c a) := by
  simp only [Cond.faultInject, Bool.and_eq_true, Bool.or_eq_true, bne_iff_ne] at h
  obtain ⟨⟨⟨⟨⟨⟨⟨hz1, hz6⟩, hcls⟩, hpooled⟩, hserves⟩, hspare⟩, hwarm⟩, htakeover⟩ := h
  refine (if_neg ?_).trans ((if_neg hspare).trans (if_neg ?_))
  · rintro (hbad | hbad | hbad | hbad | hbad)
    · exact ne_true_of_not hbad hz1
    · exact ne_true_of_not hbad hz6
    · exact ne_true_of_not hcls hbad
    · exact hpooled hbad
    · exact ne_true_of_not hbad hserves
  · intro hbad
    rcases Bool.or_eq_true_iff.mp hbad with hbad | hbad
    · exact ne_true_of_not hwarm hbad
    · obtain ⟨hpair, hbad⟩ := Bool.and_eq_true_iff.mp hbad
      exact htakeover.elim (fun h => h (beq_iff_eq.mp hpair)) (ne_true_of_not hbad)

theorem completes_faultInject_done : Completes .faultInject 0x1503
    (fun c a => Cond.faultInject c a && ((a.injectUnit c.payload).cls != 6 || (Cond.injected c a).ft.takeover.isEmpty))
    Eff.faultInject := by
  refine completes_of faultInject (fun _ _ _ _ => rfl) fun c a h => ?_
  simp only [Bool.and_eq_true, Bool.or_eq_true, bne_iff_ne] at h
  obtain ⟨hok, hnone⟩ := h
  refine State.conclude_congr ((faultInject_met hok).trans (if_neg ?_)) (conclude_done ..)
  rintro ⟨hpair, hbad⟩
  exact hnone.elim (fun h => h hpair) (ne_true_of_not hbad)

theorem completes_faultInject_takeover : Completes .faultInject 0x1503
    (fun c a => Cond.faultInject c a && (a.injectUnit c.payload).cls == 6 && !(Cond.injected c a).ft.takeover.isEmpty)
    Eff.faultInject2 := by
  refine completes_of faultInject (fun _ _ _ _ => rfl) fun c a h => ?_
  simp only [Bool.and_eq_true, beq_iff_eq] at h
  obtain ⟨⟨hok, hpair⟩, htakeover⟩ := h
  exact State.conclude_congr ((faultInject_met hok).trans (if_pos ⟨hpair, htakeover⟩)) (conclude_running ..)

/-- Clearing the log keeps the note of the units that only injection retired. -/
theorem Cond.faultCleared_injected (c : Cmd) (a : State) : (Cond.faultCleared c a).injected = a.ft.injected := by
  unfold Cond.faultCleared
  dsimp only
  split <;> split <;> rfl

/-- A cleared log leaves the command running where injected units are to come back. -/
theorem faultClearLog_met {c : Cmd} {a : State} (hflags : u8 c.payload 0 ≤ 3) (hz : zeros c.payload 1 3 = true) :
    faultClearLog c a =
      if ((u8 c.payload 0).testBit 0 && !a.ft.injected.isEmpty) = true then .running 0 [] { a with ft := Cond.faultCleared c a }
      else .done .ok 0 { a with ft := Cond.faultCleared c a } := by
  rw [← Cond.faultCleared_injected c a]
  exact if_neg (by simp [hz, Nat.not_lt.mpr hflags])

theorem completes_faultClearLog_done : Completes .faultClearLog 0x1504
    (fun c a => decide (u8 c.payload 0 ≤ 3) && zeros c.payload 1 3 && (!(u8 c.payload 0).testBit 0 || a.ft.injected.isEmpty))
    Eff.faultClearLog := by
  refine completes_of faultClearLog (fun _ _ _ _ => rfl) fun c a h => ?_
  simp only [Bool.and_eq_true, decide_eq_true_eq] at h
  obtain ⟨⟨hflags, hz⟩, hnone⟩ := h
  refine State.conclude_congr ((faultClearLog_met hflags hz).trans (if_neg ?_)) (conclude_done ..)
  rw [← Bool.not_not ((u8 c.payload 0).testBit 0), ← Bool.not_or, hnone]
  decide

theorem completes_faultClearLog_restoring : Completes .faultClearLog 0x1504
    (fun c a => decide (u8 c.payload 0 ≤ 3) && zeros c.payload 1 3 && (u8 c.payload 0).testBit 0 && !a.ft.injected.isEmpty)
    Eff.faultClearLog2 := by
  refine completes_of faultClearLog (fun _ _ _ _ => rfl) fun c a h => ?_
  simp only [Bool.and_eq_true, decide_eq_true_eq] at h
  obtain ⟨⟨⟨hflags, hz⟩, hrestore⟩, hsome⟩ := h
  exact State.conclude_congr ((faultClearLog_met hflags hz).trans (if_pos (Bool.and_eq_true_iff.mpr ⟨hrestore, hsome⟩)))
    (conclude_running ..)

/-! ## Calibration (R537, R541, R542, R543) -/

/-- Units that fall outside their limits, and the others, are all of them. -/
theorem Cond.inside_length (units failed : List Nat) :
    (Cond.inside units failed).length = units.length - (Cond.outside units failed).length := by
  have hall : units.length = (Cond.outside units failed).length + (Cond.inside units failed).length :=
    List.length_eq_length_filter_add _
  omega

/-- Every unit falls outside its limits, or one is within them. -/
theorem Cond.outside_length_lt {units failed : List Nat} :
    (Cond.outside units failed).length < units.length ↔ Cond.inside units failed ≠ [] := by
  have hinside := Cond.inside_length units failed
  rw [← List.length_pos_iff]
  omega

/-- `CAL.RUN` of units that nothing uses waits for the rotations of those in service, and trims the others. -/
theorem calRun_met {failed : List Nat} {values : List (Nat × Nat)} {c : Cmd} {a : State} (h : Cond.calRun c a = true) :
    calRun failed values c a =
      let cls := u8 c.payload 0
      let units := span (u16 c.payload 2) (u16 c.payload 4)
      let todo := Cond.calUnits c a
      let good := Cond.inside todo failed
      let bad := (Cond.outside todo failed).length
      match a.calWaits cls units with
      | w :: ws =>
        .running 0 (w :: ws) (a.calUnits cls (units.filter fun u => !a.calInService cls u && a.calPresent cls u) failed values)
      | [] =>
        if cls = 8 ∧ (!good.isEmpty) = true then
          match good.find? fun u => !a.deskewable u with
          | some u => .fail .badState (if (a.gen 0).enabled then consumerWord (0x0E, u / 64) else 0)
          | none => .running (good.length + 2 ^ 32 * bad) ((runsOf good 2).map DeskewRun.device) (a.calPins todo failed 2)
        else .done .ok (todo.length - bad + 2 ^ 32 * bad) (Cond.calibrated cls todo failed values false a) := by
  simp only [Cond.calRun, Bool.and_eq_true, List.all_eq_true] at h
  obtain ⟨⟨⟨hrange, hready⟩, hdeskew⟩, hunused⟩ := h
  have huser : (span (u16 c.payload 2) (u16 c.payload 4)).findSome? (fun u => a.calUser (u8 c.payload 0) u) = none :=
    List.findSome?_eq_none_iff.mpr fun u hu => Option.isNone_iff_eq_none.mp (hunused u hu)
  refine (if_neg fun hbad => ne_true_of_not hbad hrange).trans
    ((if_neg ?_).trans ((if_neg (ne_true_of_not hdeskew)).trans ?_))
  · intro hbad
    obtain ⟨u, hu, hbad⟩ := List.any_eq_true.mp hbad
    exact ne_true_of_not hbad (hready u hu)
  · simp only [huser]
    rfl

theorem completes_calRun_done (failed : List Nat) (values : List (Nat × Nat)) :
    Completes (fun t fn tag => .calRun t fn tag failed values ()) 0x1601
      (fun c a => Cond.calRun c a && (a.calWaits (u8 c.payload 0) (span (u16 c.payload 2) (u16 c.payload 4))).isEmpty &&
        (u8 c.payload 0 != 8 || (Cond.inside (Cond.calUnits c a) failed).isEmpty)) (Eff.calRun failed values) := by
  refine completes_of (calRun failed values) (fun _ _ _ _ => rfl) fun c a h => ?_
  simp only [Bool.and_eq_true, Bool.or_eq_true, bne_iff_ne, List.isEmpty_iff] at h
  obtain ⟨⟨hok, hwaits⟩, hnone⟩ := h
  refine State.conclude_congr ((calRun_met hok).trans ?_) (conclude_done ..)
  simp only [hwaits]
  refine if_neg ?_
  rintro ⟨hpins, hbad⟩
  exact hnone.elim (fun h => h hpins) fun h => by simp [h] at hbad

theorem completes_calRun_waits (failed : List Nat) (values : List (Nat × Nat)) (w : Nat) (ws : List Nat) :
    Completes (fun t fn tag => .calRun t fn tag failed values ()) 0x1601
      (fun c a => Cond.calRun c a && a.calWaits (u8 c.payload 0) (span (u16 c.payload 2) (u16 c.payload 4)) == w :: ws)
      (Eff.calRun2 failed values w ws) := by
  refine completes_of (calRun failed values) (fun _ _ _ _ => rfl) fun c a h => ?_
  simp only [Bool.and_eq_true, beq_iff_eq] at h
  obtain ⟨hok, hwaits⟩ := h
  exact State.conclude_congr ((calRun_met hok).trans (by simp only [hwaits])) (conclude_running ..)

theorem completes_calRun_measures (failed : List Nat) (values : List (Nat × Nat)) :
    Completes (fun t fn tag => .calRun t fn tag failed values ()) 0x1601
      (fun c a => Cond.calRun c a && u8 c.payload 0 == 8 && !(Cond.inside (Cond.calUnits c a) failed).isEmpty &&
        (Cond.inside (Cond.calUnits c a) failed).all fun u => a.deskewable u) (Eff.calRun3 failed) := by
  refine completes_of (calRun failed values) (fun _ _ _ _ => rfl) fun c a h => ?_
  simp only [Bool.and_eq_true, beq_iff_eq, List.all_eq_true] at h
  obtain ⟨⟨⟨hok, hpins⟩, hsome⟩, hready⟩ := h
  have hfind : (Cond.inside (Cond.calUnits c a) failed).find? (fun u => !a.deskewable u) = none :=
    List.find?_eq_none.mpr fun u hu hbad => ne_true_of_not hbad (hready u hu)
  refine State.conclude_congr ((calRun_met hok).trans ?_) (conclude_running ..)
  simp only [hpins, State.calWaits]
  refine (if_pos ⟨trivial, hsome⟩).trans ?_
  simp only [hfind]
  rfl

@[simp] theorem CalRecord.entry_length (r : CalRecord) (cls index : Nat) : (r.entry cls index).length = 32 := by
  simp [CalRecord.entry, pack_length]

/-- The first units of a range are the range of the first numbers. -/
theorem take_span (k first n : Nat) : (span first n).take k = span first (min n k) := by
  rw [span, ← List.map_take, List.take_range, Nat.min_comm, span]

/-- The records that `CAL.GET_RECORD` writes have room. -/
theorem calRecords_fit {c : Cmd} (a : State) (first n cls : Nat) (hroom : 48 ≤ c.room) :
    let units := span first (min n ((c.room - 16) / 32))
    (pack [(1, cls), (3, 0), (4, units.length), (8, a.cal.doneTick)] ++
      units.flatMap fun u => (a.cal.recs.get (cls * 65536 + u) {}).entry cls u).length ≤ c.room := by
  have hfew := Nat.min_le_right n ((c.room - 16) / 32)
  simp only [List.length_append, pack_length, List.length_flatMap, CalRecord.entry_length, List.map_const',
    List.sum_replicate, smul_eq_mul, span, List.length_map, List.length_range, List.map_cons, List.map_nil, List.sum_cons,
    List.sum_nil]
  omega

theorem completes_calGetRecord : Completes .calGetRecord 0x1602
    (fun c _ => calRangeOk c.payload 10 && decide (48 ≤ c.room)) Eff.calGetRecord := by
  refine completes_of calGetRecord (fun _ _ _ _ => rfl) fun c a h => ?_
  simp only [Bool.and_eq_true, decide_eq_true_eq] at h
  obtain ⟨hrange, hroom⟩ := h
  refine State.conclude_congr ((if_neg fun hbad => ne_true_of_not hbad hrange).trans
    ((if_neg (Nat.not_lt.mpr hroom)).trans ?_)) (conclude_data (calRecords_fit a _ _ _ hroom) _ _ _)
  simp only [take_span]

theorem completes_calSetSchedule : Completes .calSetSchedule 0x1603 Cond.calSchedule Eff.calSetSchedule := by
  refine completes_of calSetSchedule (fun _ _ _ _ => rfl) fun c a h => ?_
  simp only [Cond.calSchedule, Bool.and_eq_true, Bool.or_eq_true, bne_iff_ne, decide_eq_true_eq] at h
  obtain ⟨⟨⟨⟨hmode, hz⟩, hdrift⟩, hperiod⟩, hready⟩ := h
  refine State.conclude_congr ((if_neg ?_).trans (if_neg fun hbad => ne_true_of_not hbad hready)) (conclude_done ..)
  rintro (hbad | hbad | ⟨hset, hbad⟩ | ⟨hset, hbad⟩)
  · exact ne_true_of_not hbad hmode
  · exact ne_true_of_not hbad hz
  · have hrange := hdrift.resolve_left fun h => h hset
    dsimp only at hbad
    omega
  · have hrange := hperiod.resolve_left fun h => h hset
    dsimp only at hbad
    omega

/-- A scheduled pass trims the units that are due and idle; pins within their limits are measured. -/
theorem happens_scheduledCalibration (cls : Nat) (units failed : List Nat) (values : List (Nat × Nat)) :
    Happens (.scheduledCalibration · cls units failed values ()) (Cond.calPass cls units)
      (fun a =>
        let todo := Cond.calDue cls units a
        let bad := (Cond.outside todo failed).length
        if cls = 8 ∧ bad < todo.length then
          ({ a with cal := { a.cal with passed := todo.length - bad, missed := bad } } : State).calPins todo failed 3
        else Cond.calibrated cls todo failed values true a) := by
  refine happens_of _ (fun _ _ => rfl) fun a h => ?_
  simp only [Cond.calPass, Bool.and_eq_true, Bool.not_eq_true'] at h
  obtain ⟨⟨⟨hsteward, hsome⟩, hidle⟩, hpins⟩ := h
  refine if_neg ?_
  unfold Cond.calDue at hsome
  rw [hsteward, hsome, hidle, hpins]
  decide

theorem happens_scheduledCalibration_done (cls : Nat) (units failed : List Nat) (values : List (Nat × Nat)) :
    Happens (.scheduledCalibration · cls units failed values ())
      (fun a => Cond.calPass cls units a && (cls != 8 || (Cond.inside (Cond.calDue cls units a) failed).isEmpty))
      (Eff.scheduledCalibration cls units failed values) :=
  (happens_scheduledCalibration cls units failed values).when fun a h => by
    simp only [Bool.and_eq_true, Bool.or_eq_true, bne_iff_ne, List.isEmpty_iff] at h
    obtain ⟨hpass, hnone⟩ := h
    refine ⟨hpass, if_neg ?_⟩
    rintro ⟨hpins, hbad⟩
    exact hnone.elim (fun h => h hpins) (Cond.outside_length_lt.mp hbad)

theorem happens_scheduledCalibration_measures (units failed : List Nat) (values : List (Nat × Nat)) :
    Happens (.scheduledCalibration · 8 units failed values ())
      (fun a => Cond.calPass 8 units a && !(Cond.inside (Cond.calDue 8 units a) failed).isEmpty)
      (Eff.scheduledCalibration2 units failed) :=
  (happens_scheduledCalibration 8 units failed values).when fun a h => by
    obtain ⟨hpass, hsome⟩ := Bool.and_eq_true_iff.mp h
    have hlt : (Cond.outside (Cond.calDue 8 units a) failed).length < (Cond.calDue 8 units a).length :=
      Cond.outside_length_lt.mpr (by simpa using hsome)
    refine ⟨hpass, (if_pos ⟨rfl, hlt⟩).trans ?_⟩
    simp only [Eff.scheduledCalibration2, Cond.inside_length]
    rfl

/-! ## Steward pairs (R514, R530) -/

/-- A pair that works halts as the choice of its heir says. -/
theorem State.pairHalt_of_works {v : Nat} {a : State} (h : Cond.pairWorks v a = true) :
    a.pairHalt v false =
      let served := a.servedPairs v
      let halted := a.ft.haltedPairs ++ [v]
      let asleep := a.ft.asleep.filter (· != v)
      match a.heirOf v with
      | none =>
        ({ a with ft := { a.ft with haltedPairs := halted, asleep }, pw := { a.pw with alive := false } } : State).faultIn
          ⟨6, 0, v⟩ {}
      | some q =>
        let ft : FaultState := { a.ft with
          haltedPairs := halted
          asleep := if served.isEmpty then asleep else asleep.filter (· != q)
          servedBy := served.foldl (fun m p => KMap.set m p q) a.ft.servedBy
          takeover := a.ft.takeover ++ served.filter fun p => !a.ft.takeover.contains p
          takeoverSince :=
            if served.isEmpty = true ∨ (!a.ft.takeover.isEmpty) = true then a.ft.takeoverSince else a.now }
        ({ a with ft } : State).faultIn ⟨6, 0, v⟩
          { takenBy := if served.isEmpty then 0xFFFF else q, logical := served.headD 0xFFFF } := by
  simp only [Cond.pairWorks, Bool.and_eq_true, Bool.not_eq_true', decide_eq_true_eq] at h
  obtain ⟨⟨⟨-, hpair⟩, hworks⟩, hserves⟩ := h
  refine (if_neg ?_).trans rfl
  rw [hworks, hserves]
  simp [hpair]

/-- The Steward runs while one of its pairs works. -/
theorem happens_stewardPairHalt (v : Nat) :
    Happens (.stewardPairHalt · v) (Cond.pairWorks v) (fun a => a.pairHalt v false) := by
  refine happens_of _ (fun _ _ => rfl) fun a h => if_pos ?_
  simp only [Cond.pairWorks, Bool.and_eq_true] at h
  exact h.1.1.1

theorem happens_stewardPairHalt_last (v : Nat) : Happens (.stewardPairHalt · v)
    (fun a => Cond.pairWorks v a && (a.heirOf v).isNone) (Eff.stewardPairHalt v) :=
  (happens_stewardPairHalt v).when fun a h => by
    simp only [Bool.and_eq_true, Option.isNone_iff_eq_none] at h
    exact ⟨h.1, (State.pairHalt_of_works h.1).trans (by simp only [h.2])⟩

theorem happens_stewardPairHalt_spare (v : Nat) : Happens (.stewardPairHalt · v)
    (fun a => Cond.pairWorks v a && (a.heirOf v).isSome && (a.servedPairs v).isEmpty) (Eff.stewardPairHalt2 v) :=
  (happens_stewardPairHalt v).when fun a h => by
    simp only [Bool.and_eq_true, List.isEmpty_iff] at h
    obtain ⟨⟨hworks, hheir⟩, hidle⟩ := h
    obtain ⟨q, hq⟩ := Option.isSome_iff_exists.mp hheir
    refine ⟨hworks, (State.pairHalt_of_works hworks).trans ?_⟩
    simp only [hq, hidle, List.filter_nil, List.append_nil, List.foldl_nil, List.isEmpty_nil, true_or, if_true, List.headD_nil,
      Eff.stewardPairHalt2]

theorem happens_stewardPairHalt_taken (v q : Nat) : Happens (.stewardPairHalt · v)
    (fun a => Cond.pairWorks v a && a.heirOf v == some q && !(a.servedPairs v).isEmpty) (Eff.stewardPairHalt3 v q) :=
  (happens_stewardPairHalt v).when fun a h => by
    simp only [Bool.and_eq_true, beq_iff_eq, Bool.not_eq_true'] at h
    obtain ⟨⟨hworks, hheir⟩, hserved⟩ := h
    have hsince : (if (a.servedPairs v).isEmpty = true ∨ (!a.ft.takeover.isEmpty) = true then a.ft.takeoverSince
        else a.now) = if a.ft.takeover.isEmpty then a.now else a.ft.takeoverSince := by
      cases ht : a.ft.takeover.isEmpty <;> simp [hserved]
    refine ⟨hworks, (State.pairHalt_of_works hworks).trans ?_⟩
    simp only [hheir, hsince]
    simp only [hserved, Bool.false_eq_true, if_false]

theorem happens_stewardTakeoverComplete :
    Happens .stewardTakeoverComplete (fun a => !a.ft.takeover.isEmpty) Eff.stewardTakeoverComplete :=
  happens_of _ (fun _ _ => rfl) fun _ h => if_neg (ne_true_of_not h)

/-! ## Faults of units (R513, R516, R517, R518, R519, R522) -/

/-- A fabric PLL that serves fails; without its twin its domain may stop. -/
theorem happens_fabricPllFault (pair unit : Nat) (stops : Bool) : Happens (.fabricPllFault · pair unit stops)
    (Cond.pllServes pair unit)
    (fun a => if (a.sparesLeft 15 pair == 0 && stops) = true then Eff.fabricPllFault pair unit a
      else a.faultIn ⟨15, pair, unit⟩ {}) := by
  refine happens_of _ (fun _ _ => rfl) fun a h => ?_
  simp only [Cond.pllServes, Bool.and_eq_true, decide_eq_true_eq, Bool.not_eq_true'] at h
  obtain ⟨⟨hpair, hunit⟩, hserves⟩ := h
  exact if_neg (by simp [hserves, Nat.not_lt.mpr hpair, Nat.not_lt.mpr hunit])

theorem happens_regulatorPhaseFault (rail phase : Nat) : Happens (.regulatorPhaseFault · rail phase)
    (fun a => decide (rail ≤ 12) && decide (phase ≤ 6) && !a.isRetired ⟨16, rail, phase⟩)
    (Eff.regulatorPhaseFault rail phase) := by
  refine happens_of _ (fun _ _ => rfl) fun a h => ?_
  simp only [Bool.and_eq_true, decide_eq_true_eq, Bool.not_eq_true'] at h
  obtain ⟨⟨hrail, hphase⟩, hserves⟩ := h
  exact if_neg (by simp [hserves, Nat.not_lt.mpr hrail, Nat.not_lt.mpr hphase])

/-- A unit of a class of whole units that serves fails alone. -/
theorem State.halfFail_of_serves {u : Unit3} {a : State} (h : Cond.unitServes u a = true) :
    a.halfFail u false = a.faultIn u { injected := false } := by
  simp only [Cond.unitServes, Bool.and_eq_true, decide_eq_true_eq] at h
  exact if_pos h.1

/-! ## Self-tests of injected units (R531) -/

theorem happens_injectedUnitRestore_left (u : Unit3) : Happens (fun t => .injectedUnitRestore t u.cls u.pool u.unit false)
    (fun a => a.ft.selfTest.contains u && !(Cond.tested u a).ft.selfTest.isEmpty) (Cond.tested u) := by
  refine happens_of _ (fun _ _ => rfl) fun a h => ?_
  obtain ⟨htesting, hleft⟩ := Bool.and_eq_true_iff.mp h
  exact (if_neg fun hbad => ne_true_of_not hbad htesting).trans (if_neg (ne_true_of_not hleft))

theorem happens_injectedUnitRestore_last (u : Unit3) : Happens (fun t => .injectedUnitRestore t u.cls u.pool u.unit false)
    (fun a => a.ft.selfTest.contains u && (Cond.tested u a).ft.selfTest.isEmpty) (Eff.injectedUnitRestore u) := by
  refine happens_of _ (fun _ _ => rfl) fun a h => ?_
  obtain ⟨htesting, hlast⟩ := Bool.and_eq_true_iff.mp h
  exact (if_neg fun hbad => ne_true_of_not hbad htesting).trans (if_pos hlast)

theorem happens_injectedUnitRestore_passed (u : Unit3) : Happens (fun t => .injectedUnitRestore t u.cls u.pool u.unit true)
    (fun a => a.ft.selfTest.contains u) (Eff.injectedUnitRestore2 u) :=
  happens_of _ (fun _ _ => rfl) fun _ h => if_neg fun hbad => ne_true_of_not hbad h

/-- Settles O49, verb by verb and row by row. -/
theorem faultsAndCalibration : Obligations.FaultsAndCalibration := by
  refine ⟨completes_faultReadLog, completes_faultGetHealth, completes_faultInject_done, completes_faultInject_takeover,
    completes_faultClearLog_done, completes_faultClearLog_restoring, completes_calRun_done, completes_calRun_waits,
    completes_calRun_measures, completes_calGetRecord, completes_calSetSchedule, happens_scheduledCalibration_done,
    happens_scheduledCalibration_measures, happens_stewardPairHalt_last, happens_stewardPairHalt_spare,
    happens_stewardPairHalt_taken, happens_stewardTakeoverComplete,
    fun _ _ _ => happens_of _ (fun _ _ => rfl) fun _ _ => rfl, fun _ => happens_of _ (fun _ _ => rfl) fun _ _ => rfl,
    fun _ _ _ _ => happens_of _ (fun _ _ => rfl) fun _ _ => rfl,
    fun _ _ _ _ => happens_of _ (fun _ _ => rfl) fun _ _ => rfl,
    fun pair unit => (happens_fabricPllFault pair unit true).when fun a h => ?_,
    fun pair unit stops => (happens_fabricPllFault pair unit stops).when fun a h => ?_, happens_regulatorPhaseFault,
    fun _ _ => happens_of _ (fun _ _ => rfl) fun _ h => State.halfFail_of_serves h,
    fun _ _ => happens_of _ (fun _ _ => rfl) fun _ h => State.halfFail_of_serves h,
    fun _ => happens_of _ (fun _ _ => rfl) fun _ _ => rfl, happens_injectedUnitRestore_left,
    happens_injectedUnitRestore_last, happens_injectedUnitRestore_passed⟩
  · obtain ⟨hserves, hlast⟩ := Bool.and_eq_true_iff.mp h
    exact ⟨hserves, if_pos (by simp [hlast])⟩
  · obtain ⟨hserves, hcoasts⟩ := Bool.and_eq_true_iff.mp h
    exact ⟨hserves, if_neg (Bool.and_comm .. ▸ ne_true_of_not hcoasts)⟩

end Sys2Proof.Machine

end

section

namespace Sys2Proof.Machine

/-! # Identity and security -/

/-! ## Identity memories (R551, R554, R555) -/

@[simp] theorem IdDev.entry_length (d : IdDev) (k : Nat) : (d.entry k).length = 32 := by
  simp [IdDev.entry, pack_length]

@[simp] theorem State.idEntries_length (s : State) : s.idEntries.length = 1024 := by
  simp [State.idEntries, List.length_flatMap]

/-- A scan writes the entries that there is room for, if any. -/
theorem idScan_met (mems : List (Nat × List Byte)) (stuck : List Nat) {c : Cmd} (a : State)
    (hbuses : u8 c.payload 0 ≤ 15) (hz : zeros c.payload 1 3 = true) :
    idScan mems stuck c a =
      let b := Cond.scanned mems stuck c a
      let out := b.idEntries.take (c.room / 32 * 32)
      .done .ok (Cond.validRecords b) (if out.isEmpty then b else b.writeResult c out) :=
  if_neg (by simp [hz, Nat.not_lt.mpr hbuses])

theorem completes_idScan_unwritten (mems : List (Nat × List Byte)) (stuck : List Nat) :
    Completes (.idScan · · · mems stuck) 0x1701
      (fun c _ => decide (u8 c.payload 0 ≤ 15) && zeros c.payload 1 3 && decide (c.room < 32)) (Eff.idScan mems stuck) := by
  refine completes_of (idScan mems stuck) (fun _ _ _ _ => rfl) fun c a h => ?_
  simp only [Bool.and_eq_true, decide_eq_true_eq] at h
  obtain ⟨⟨hbuses, hz⟩, hroom⟩ := h
  refine State.conclude_congr ((idScan_met mems stuck a hbuses hz).trans ?_) (conclude_done ..)
  simp only [Nat.div_eq_of_lt hroom, Nat.zero_mul, List.take_zero, List.isEmpty_nil, if_true]

theorem completes_idScan_written (mems : List (Nat × List Byte)) (stuck : List Nat) :
    Completes (.idScan · · · mems stuck) 0x1701
      (fun c _ => decide (u8 c.payload 0 ≤ 15) && zeros c.payload 1 3 && decide (32 ≤ c.room)) (Eff.idScan2 mems stuck) := by
  refine completes_of (idScan mems stuck) (fun _ _ _ _ => rfl) fun c a h => ?_
  simp only [Bool.and_eq_true, decide_eq_true_eq] at h
  obtain ⟨⟨hbuses, hz⟩, hroom⟩ := h
  have hsome : ((Cond.scanned mems stuck c a).idEntries.take (c.room / 32 * 32)).isEmpty = false := by
    rw [List.isEmpty_eq_false_iff, ← List.length_pos_iff, List.length_take, State.idEntries_length]
    omega
  refine State.conclude_congr ((idScan_met mems stuck a hbuses hz).trans ?_) (conclude_done ..)
  simp only [hsome, Bool.false_eq_true, if_false]

theorem completes_idReadRecord (mem : Option (List Byte)) (stuck : Bool) :
    Completes (.idReadRecord · · · mem stuck) 0x1702 (fun c a => Cond.idRead (Cond.idRecord mem stuck c a) c)
      (Eff.idReadRecord mem stuck) := by
  refine completes_of (idReadRecord mem stuck) (fun _ _ _ _ => rfl) fun c a h => ?_
  simp only [Cond.idRead, Bool.and_eq_true, decide_eq_true_eq] at h
  obtain ⟨⟨⟨⟨hbus, hdevice⟩, hsource⟩, hz⟩, hroom⟩ := h
  exact State.conclude_congr
    (if_neg (by simp [hz, Nat.not_lt.mpr hbus, Nat.not_lt.mpr hdevice, Nat.not_lt.mpr hsource]))
    (conclude_data hroom _ _ _)

/-! ## Certificates, attestation, counters and the owner key (R558, R563, R564, R566, R567) -/

theorem completes_secGetCertificate : Completes .secGetCertificate 0x1801
    (fun c _ => decide (u8 c.payload 0 ≤ 2) && zeros c.payload 1 3 &&
      decide ((Config.certificate (u8 c.payload 0)).length ≤ c.room)) Eff.secGetCertificate := by
  refine completes_of secGetCertificate (fun _ _ _ _ => rfl) fun c a h => ?_
  simp only [Bool.and_eq_true, decide_eq_true_eq] at h
  obtain ⟨⟨hwhich, hz⟩, hroom⟩ := h
  exact State.conclude_congr (if_neg (by simp [hz, Nat.not_lt.mpr hwhich])) (conclude_data hroom _ _ _)

theorem completes_secAttest :
    Completes .secAttest 0x1802 (fun c a => decide ((Cond.report c a).length ≤ c.room)) Eff.secAttest :=
  completes_of secAttest (fun _ _ _ _ => rfl) fun _ _ h => conclude_data (of_decide_eq_true h) _ _ _

@[simp] theorem State.counterBytes_length (s : State) : s.counterBytes.length = 64 := by
  simp [State.counterBytes, pack_length, Function.comp_def]

theorem completes_secGetCounters :
    Completes .secGetCounters 0x1805 (fun c _ => decide (64 ≤ c.room)) Eff.secGetCounters :=
  completes_of _ (fun _ _ _ _ => rfl) fun _ _ h => conclude_data (by simpa using of_decide_eq_true h) _ _ _

theorem completes_secSetOwnerKey : Completes .secSetOwnerKey 0x1804 Cond.secOwner Eff.secSetOwnerKey := by
  refine completes_of secSetOwnerKey (fun _ _ _ _ => rfl) fun c a h => ?_
  simp only [Cond.secOwner, Bool.and_eq_true, Bool.or_eq_true, bne_iff_ne, beq_iff_eq, decide_eq_true_eq] at h
  obtain ⟨⟨⟨⟨⟨⟨⟨hclear, hpolicy⟩, hz2⟩, hz141⟩, hz8⟩, hcounter⟩, hauth⟩, hleft⟩ := h
  refine State.conclude_congr ((if_neg ?_).trans ((if_neg ?_).trans (if_neg (Nat.not_le.mpr hleft)))) (conclude_done ..)
  · rintro (hbad | hbad | hbad | hbad | ⟨hset, hbad⟩)
    · exact absurd hclear (Nat.not_le.mpr hbad)
    · exact absurd hpolicy (Nat.not_le.mpr hbad)
    · exact ne_true_of_not hbad hz2
    · exact ne_true_of_not hbad hz141
    · exact hz8.elim (fun h => h hset) (ne_true_of_not hbad)
  · rintro (hbad | hbad)
    · exact hbad hcounter
    · exact ne_true_of_not hbad hauth

/-! ## Firmware (R557, R558, R565) -/

/-- The commands in flight do not depend on the time. -/
theorem State.advance_cmdOf (s : State) (t fn tag : Nat) : (s.advance t).cmdOf fn tag = s.cmdOf fn tag := by
  unfold State.advance
  split <;> rfl

/-- A firmware command that has not started yet is run as other commands are. -/
theorem completes_secUpdateFirmware (image : List Byte) (blown : Nat) {ok : Cmd → State → Bool} {after : Cmd → State → State}
    (hb : ∀ c a, ok c a = true → a.conclude c (secUpdateFirmware image blown c a) = after c a) :
    Completes (.secUpdateFirmware · · · image blown) 0x1803 ok after := by
  intro s t fn tag c hp hr hk
  have hmay := hr
  simp only [State.mayRun, Bool.and_eq_true, Bool.not_eq_true', beq_iff_eq] at hmay
  obtain ⟨⟨⟨⟨⟨⟨hcmd, -⟩, hstarted⟩, -⟩, -⟩, -⟩, -⟩ := hmay
  rw [State.advance_cmdOf] at hcmd
  change execSecUpdateFirmware t fn tag image blown s = _
  unfold execSecUpdateFirmware
  simp only [hcmd, hstarted, Bool.false_eq_true, if_false]
  rw [verb, runVerb_mayRun _ hp hr, hb c _ hk]

/-- The reserved bytes of a firmware update of one of the four actions. -/
theorem Cond.secUpdate_fields {act : Nat} {c : Cmd} (h : Cond.secUpdate act c = true) (hact : act ≤ 3)
    (hsource : act = 0 → u8 c.payload 1 ≤ 1) :
    u8 c.payload 0 = act ∧ ¬ (3 < u8 c.payload 0 ∨ (u8 c.payload 0 = 0 ∧ 1 < u8 c.payload 1) ∨
      (!zeros c.payload 2 2) = true ∨ (!zeros c.payload 16 8) = true) := by
  simp only [Cond.secUpdate, Bool.and_eq_true, beq_iff_eq] at h
  obtain ⟨⟨hverb, hz2⟩, hz16⟩ := h
  refine ⟨hverb, ?_⟩
  rintro (hbad | ⟨hload, hbad⟩ | hbad | hbad)
  · omega
  · exact absurd (hsource (hverb.symm.trans hload)) (Nat.not_le.mpr hbad)
  · exact ne_true_of_not hbad hz2
  · exact ne_true_of_not hbad hz16

/-- An image that may be loaded is staged where it verifies, and denied where it does not. -/
theorem secUpdateFirmware_load (image : List Byte) (blown : Nat) {c : Cmd} {a : State} (h : Cond.loadable c a = true) :
    secUpdateFirmware image blown c a =
      let b := a.hostLoad c (u64 c.payload 8) (u32 c.payload 4) (u8 c.payload 1 = 1)
      match imageOf (Cond.firmware image c a) (u32 c.payload 4) (a.counter 0) with
      | none => .done .denied 0 b
      | some x => .done .ok 0 (b.stage x) := by
  simp only [Cond.loadable, Bool.and_eq_true, Bool.or_eq_true, beq_iff_eq] at h
  obtain ⟨hload, hsource⟩ := h
  obtain ⟨hact, hfields⟩ := Cond.secUpdate_fields hload (by decide) fun _ => by omega
  refine (if_neg hfields).trans ((if_pos hact).trans ((if_neg ?_).trans ((if_neg ?_).trans rfl)))
  · rintro ⟨hcellar, hbad⟩
    rcases hsource with hhost | ⟨⟨-, hnormal⟩, -⟩
    · omega
    · exact ne_true_of_not hnormal hbad
  · rintro ⟨hcellar, hbad⟩
    rcases hsource with hhost | ⟨-, hregion⟩
    · omega
    · exact ne_true_of_not hbad hregion

theorem completes_secUpdateFirmware_denied (image : List Byte) (blown : Nat) :
    Completes (.secUpdateFirmware · · · image blown) 0x1803
      (fun c a => Cond.loadable c a && (imageOf (Cond.firmware image c a) (u32 c.payload 4) (a.counter 0)).isNone)
      Eff.secUpdateFirmware :=
  completes_secUpdateFirmware image blown fun c a h => by
    simp only [Bool.and_eq_true, Option.isNone_iff_eq_none] at h
    exact State.conclude_congr ((secUpdateFirmware_load image blown h.1).trans (by simp only [h.2])) (conclude_done ..)

theorem completes_secUpdateFirmware_staged (image : List Byte) (blown : Nat) (x : FwSlot) :
    Completes (.secUpdateFirmware · · · image blown) 0x1803
      (fun c a => Cond.loadable c a && imageOf (Cond.firmware image c a) (u32 c.payload 4) (a.counter 0) == some x)
      (Eff.secUpdateFirmware2 x) :=
  completes_secUpdateFirmware image blown fun c a h => by
    simp only [Bool.and_eq_true, beq_iff_eq] at h
    exact State.conclude_congr ((secUpdateFirmware_load image blown h.1).trans (by simp only [h.2])) (conclude_done ..)

theorem completes_secUpdateFirmware_activate (image : List Byte) (blown : Nat) :
    Completes (.secUpdateFirmware · · · image blown) 0x1803 (fun c a => Cond.secUpdate 1 c && a.sec.staged)
      Eff.secUpdateFirmware3 :=
  completes_secUpdateFirmware image blown fun c a h => by
    obtain ⟨hverb, hstaged⟩ := Bool.and_eq_true_iff.mp h
    obtain ⟨hact, hfields⟩ := Cond.secUpdate_fields hverb (by decide) (absurd · (by decide))
    exact State.conclude_congr ((if_neg hfields).trans ((if_neg (by simp [hact])).trans ((if_neg (by simp [hact])).trans
      ((if_neg fun hbad => ne_true_of_not hbad hstaged).trans (if_pos hact))))) (conclude_done ..)

theorem completes_secUpdateFirmware_restart (image : List Byte) (blown : Nat) :
    Completes (.secUpdateFirmware · · · image blown) 0x1803
      (fun c a => Cond.secUpdate 2 c && a.sec.staged && !a.othersHold && a.host.cmds.all fun d => d.seq == c.seq)
      (fun c a => a.restartBegin.finish c .ok 0) :=
  completes_secUpdateFirmware image blown fun c a h => by
    simp only [Bool.and_eq_true, List.all_eq_true, beq_iff_eq] at h
    obtain ⟨⟨⟨hverb, hstaged⟩, hfree⟩, halone⟩ := h
    obtain ⟨hact, hfields⟩ := Cond.secUpdate_fields hverb (by decide) (absurd · (by decide))
    refine State.conclude_congr ((if_neg hfields).trans ((if_neg (by simp [hact])).trans ((if_neg (by simp [hact])).trans
      ((if_neg fun hbad => ne_true_of_not hbad hstaged).trans ((if_neg (by simp [hact])).trans (if_neg ?_))))))
      (conclude_done ..)
    rintro (hbad | hbad)
    · exact ne_true_of_not hfree hbad
    · obtain ⟨d, hd, hbad⟩ := List.any_eq_true.mp hbad
      exact bne_iff_ne.mp hbad (halone d hd)

theorem completes_secUpdateFirmware_commit (image : List Byte) (blown : Nat) :
    Completes (.secUpdateFirmware · · · image blown) 0x1803 (fun c a => Cond.secUpdate 3 c && !a.sec.recovery)
      (Eff.secUpdateFirmware4 blown) :=
  completes_secUpdateFirmware image blown fun c a h => by
    obtain ⟨hverb, hnormal⟩ := Bool.and_eq_true_iff.mp h
    obtain ⟨hact, hfields⟩ := Cond.secUpdate_fields hverb (by decide) (absurd · (by decide))
    have hmeaning : secUpdateFirmware image blown c a =
        if (a.blowFuses blown).committed = true then .done .ok 0 (a.blowFuses blown)
        else .running 0 [] (a.blowFuses blown) :=
      (if_neg hfields).trans ((if_neg (by simp [hact])).trans ((if_pos hact).trans (if_neg (ne_true_of_not hnormal))))
    rw [hmeaning]
    unfold Eff.secUpdateFirmware4
    split
    · exact conclude_done ..
    · exact conclude_running ..

/-- A COMMIT that has started blows fuses until the counter has reached the running image. -/
theorem exec_secUpdateFirmware_commitOn (s : State) (t fn tag blown : Nat) (image : List Byte) (c : Cmd)
    (hp : s.powered = true) (hcmd : (s.advance t).cmdOf fn tag = some c) (hstarted : c.started = true)
    (hop : c.opcode = 0x1803) (hact : u8 c.payload 0 = 3) (hruns : (s.advance t).stewardRuns = true) :
    exec (.secUpdateFirmware t fn tag image blown) s =
      .next (let b := (s.advance t).blowFuses blown; if b.committed then b.finish c .ok 0 else b) := by
  rw [State.advance_cmdOf] at hcmd
  change execSecUpdateFirmware t fn tag image blown s = _
  unfold execSecUpdateFirmware
  simp only [hcmd, hstarted, if_true]
  rw [happens, whenPowered_on hp]
  exact congrArg _ (if_pos (by simp [hop, hact, hruns]))

/-! ## The Steward restart (R565) -/

/-- A restart starts the module anew in recovery, and otherwise runs the activated image. -/
theorem happens_stewardRestartComplete (ready : List Nat) :
    Happens (.stewardRestartComplete · ready) (fun a => a.sec.restarting)
      (fun a => if a.sec.recovery = true then a.restartKept else Eff.stewardRestartComplete ready a) :=
  happens_of _ (fun _ _ => rfl) fun _ h => if_neg fun hbad => ne_true_of_not hbad h

/-- Settles O50, verb by verb and row by row. -/
theorem identityAndSecurity : Obligations.IdentityAndSecurity := by
  refine ⟨completes_idScan_unwritten, completes_idScan_written, completes_idReadRecord, completes_secGetCertificate,
    completes_secAttest, completes_secUpdateFirmware_denied, completes_secUpdateFirmware_staged,
    completes_secUpdateFirmware_activate, completes_secUpdateFirmware_restart, completes_secUpdateFirmware_commit,
    exec_secUpdateFirmware_commitOn, completes_secSetOwnerKey, completes_secGetCounters,
    fun ready => (happens_stewardRestartComplete ready).when fun a h => ?_,
    fun ready => (happens_stewardRestartComplete ready).when fun a h => ?_⟩
  · obtain ⟨hrestarting, hrecovery⟩ := Bool.and_eq_true_iff.mp h
    exact ⟨hrestarting, if_pos hrecovery⟩
  · obtain ⟨hrestarting, hnormal⟩ := Bool.and_eq_true_iff.mp h
    exact ⟨hrestarting, if_neg (ne_true_of_not hnormal)⟩

end Sys2Proof.Machine

end
